-- ==== Sys2Proof/Word.lean ====
section
/-!
DEFINITION. The word types of the device (R4, R31, R67) and the plain-data containers the state is made of.
-/
namespace Sys2Proof

/-- One 32-bit register word (R31). -/
abbrev Word := BitVec 32

/-- One byte; multi-byte values are little-endian (R4). -/
abbrev Byte := BitVec 8

/-- A 64-bit time or wide value (R49, R67). -/
abbrev Wide := BitVec 64

/-- A sparse table from a number (an address, an index, an instance) to a value.  The canonical form is: keys
strictly rising, and no entry equal to what an unlisted key reads as. -/
abbrev SMap (β : Type) := List (Nat × β)

end Sys2Proof
end

