-- ==== Sys2Proof/Syntax.lean ====
section
/-!
DEFINITION. The commands of the EV1024: one constructor of `Instr` per row of the table of operations and events,
with the operands each row carries.  A command is an access, an operation of an engine, or an event the outside
world or the clock brings about; operands that are measured (a sample, a received block) are inputs.
-/
namespace Sys2Proof

/-- Who makes an access (scope chapter, R2; R100, R415). -/
inductive Actor where
  | host
  | firmware
  | jtag
  | scan (e : Fin 8)
  deriving DecidableEq, Repr

/-- The memory windows software reaches (R295), and the configuration spaces of PF0 and PF1 (R293, R294). -/
inductive Space where
  | bar0
  | bar2
  | pf1
  | cfg0
  | cfg1
  deriving DecidableEq, Repr

/-- The fields of one Ponos instruction word after its opcode (R112). -/
structure Fields where
  d : BitVec 5
  a : BitVec 5
  b : BitVec 5
  psel : BitVec 3
  pneg : Bool
  x : BitVec 37
  deriving DecidableEq, Repr

/-- What an access covers (R31, R296): one whole double word, a whole quad word, or anything else. -/
inductive AccSize where
  | dword | qword | other
  deriving DecidableEq, Repr

/-- A request at the global fabric (R18, R28): its port, one of the 19 regions, whether it is the reserved traffic of MEMC, and the
block and the cell of the region that it comes from. -/
structure FabReq where
  port : Fin 19
  reserved : Bool
  block : Fin 16
  cell : Fin 16
  deriving DecidableEq, Repr

/-- The sectors that the clients of the memory request in one scheduling period (R329): the two owners of a reserved slot, check
lines, management by the class of its work (R466), capture export, the patrol scrub. -/
structure MemLoad where
  stk : BitVec 16
  cap : BitVec 16
  check : BitVec 16
  safety : BitVec 16
  foreground : BitVec 16
  calibration : BitVec 16
  telemetry : BitVec 16
  export_ : BitVec 16
  scrub : BitVec 16
  deriving DecidableEq, Repr

/-- What stands around the payload of one tile message (R206, R207). -/
structure MsgHdr where
  /-- MTYPE when it is none of R208's types; one of those stands for the command's own -/
  mtype : Byte
  nblk : Byte
  mseq : Byte
  crc : BitVec 16
  /-- a block is missing within the message, or a control block stands in its payload -/
  broken : Bool
  deriving DecidableEq, Repr

/-- The three triggers of a conventional reset of HOST (R316). -/
inductive ResetCause where
  | perst
  | hotReset
  | dlDown
  deriving DecidableEq, Repr

/-- The two HSS/ECDSA signature results of an object, as the verifier finds them (R396). -/
structure SigBlock where
  /-- the 96-byte ECDSA part -/
  ecdsa : List Byte
  /-- the HSS part -/
  hss : List Byte
  deriving DecidableEq, Repr

/-- An image header as R397 lays it out, with its signature block. -/
structure Image where
  magic : Word
  type : BitVec 16
  hver : BitVec 16
  svn : Word
  bodyLen : Word
  bind : BitVec 128
  bodyHash : BitVec 384
  signer : Byte
  keyIdx : Byte
  sig : SigBlock
  body : List Byte
  deriving DecidableEq, Repr

/-- A debug or lifecycle token (R416). -/
structure Token where
  magic : Word
  type : Byte
  target : Byte
  signer : Byte
  keyIdx : Byte
  ueid : BitVec 128
  nonce : BitVec 256
  duration : BitVec 16
  sig : SigBlock
  deriving DecidableEq, Repr

/-- A safety PDU (R382), 32 bytes. -/
structure Pdu where
  version : Byte
  mtype : Byte
  src : BitVec 16
  seq : Word
  stamp : Wide
  payload : BitVec 96
  crc : Word
  deriving DecidableEq, Repr

/-- The CAN frame formats channel B's controller tells apart (R387). -/
inductive CanFormat where
  | xl32
  | fd32
  | otherLength
  | unused
  deriving DecidableEq, Repr

/-- The rails that follow VSYS (R447). -/
inductive Rail where
  | core
  | lane
  | pcie
  | mem
  | io
  deriving DecidableEq, Repr

/-- A bus error of the CAN controller: which counter it raises and by how much, as ISO 11898-1 defines (R387). -/
structure CanErr where
  transmit : Bool
  amount : Byte
  deriving DecidableEq, Repr

/-- An error record as a region reports it (R451); the log writer adds RSEQ and REPEAT. -/
structure ErrRec where
  level : Nat
  warning : Bool
  region : Nat
  block : Nat
  action : Nat
  cell : Nat
  code : Nat
  tick : Nat
  era : Nat
  count : Nat
  rep : Nat
  detail : Nat
  rseq : Nat
  deriving DecidableEq, Repr

/-- A sample the capture engine takes from a tap (R333). -/
structure Sample where
  tick : Nat
  sub : Nat
  bits : Wide
  deriving DecidableEq, Repr

/-- A bin error that the check bits find (R231): the channel within its sector, the bin, and whether two bits differ. -/
structure BinErr where
  chan : BitVec 5
  bin : BitVec 12
  double : Bool
  /-- found in the bank that has stopped accumulating and is still draining -/
  draining : Bool := false
  deriving DecidableEq, Repr

/-- How a descriptor read ends (R309): with data, with Unsupported Request, with Completer Abort, with poisoned data, or not in time. -/
inductive ReadEnd where
  | data
  | ur
  | ca
  | poisoned
  | timeout
  deriving DecidableEq, Repr

/-- What the Responder can do (R407): CERT_CAP, CHAL_CAP, MEAS_CAP with signature, MEAS_FRESH_CAP. -/
inductive SpdmCap where
  | cert | chal | measSig | measFresh
  deriving DecidableEq, Repr

/-- The algorithms of R407: ECDSA P-384, SHA-384, the measurement specification of DMTF. -/
inductive SpdmAlg where
  | ecdsaP384 | sha384 | dmtf
  deriving DecidableEq, Repr

/-- The responses of the SPDM Responder (R407, R408), by what they carry. -/
inductive Spdm where
  /-- the version supported: 1.3 -/
  | version (major minor : Nat)
  | capabilities (l : List SpdmCap)
  /-- BaseAsymAlgo, BaseHashAlgo, MeasurementHashAlgo, the measurement specification -/
  | algorithms (asym hash meas spec : SpdmAlg)
  /-- the digest of the chain in slot 0 -/
  | digests (chain : BitVec 384)
  /-- a portion of the chain, and the bytes that follow it -/
  | certificate (portion : List Byte) (left : Nat)
  /-- the requester's nonce, the digest of the chain, the digest of all measurements, the signature -/
  | challengeAuth (nonce : BitVec 256) (chain summary : BitVec 384) (sig : List Byte)
  /-- measurement blocks with their indices, and the signature when asked for -/
  | measurements (count : Nat) (blocks : List (Nat × BitVec 384)) (sig : Option (List Byte))
  | hssSig (block : List Byte)
  | invalidRequest
  | busy
  | unsupportedRequest (code : Nat)
  deriving DecidableEq, Repr

/-- The commands: one constructor per row of the table. -/
inductive Instr where
  -- control model
  | registerWrite (who : Actor) (sp : Space) (off : BitVec 32) (size : AccSize) (v vhi hw : Word) (rivals : List FabReq)
  | reservedRead (who : Actor) (sp : Space) (off : BitVec 32) (size : AccSize) (rivals : List FabReq)
  | stgWrite (who : Actor) (off : BitVec 32) (v : Word)
  | proofGo (who : Actor)
  | proofComplete
  | commitGo (who : Actor) (both : Bool)
  | commitAbort (who : Actor)
  | varnish
  | snapGo (who : Actor)
  | snapshotTake
  | wideSel (fw : Bool) (r : Fin 19) (idx : BitVec 16)
  | wideLatch (fw : Bool) (r : Fin 19)
  | mbxGo
  | mbxAbort
  | mbxResponse
  -- time base
  | ovenUpdate
  | ovnSat
  | ovnFaultClear (who : Actor)
  | tbWarmClear
  | tbWarmSet
  | ptmDialog
  | ptmDialogEnd (good : Bool) (t1 t4 : Wide) (host : Wide) (turn : Word)
  | ptmDisagree
  | ptmDisagreeClear (who : Actor)
  | eraPrewrap
  | tickWrap
  | tbLoss (monitor : Bool)
  | tbRestart
  | tiuStop (m : Fin 16) (raw : BitVec 16)
  | tiuMiss (m : Fin 16)
  | tiuCtlWrite (who : Actor) (v : Word)
  -- Ponos instructions
  | add (e : Fin 8) (f : Fields)
  | sub (e : Fin 8) (f : Fields)
  | and (e : Fin 8) (f : Fields)
  | or (e : Fin 8) (f : Fields)
  | xor (e : Fin 8) (f : Fields)
  | mul (e : Fin 8) (f : Fields)
  | minu (e : Fin 8) (f : Fields)
  | maxu (e : Fin 8) (f : Fields)
  | shl (e : Fin 8) (f : Fields)
  | shr (e : Fin 8) (f : Fields)
  | sar (e : Fin 8) (f : Fields)
  | cmp (e : Fin 8) (f : Fields)
  | plog (e : Fin 8) (f : Fields)
  | mfs (e : Fin 8) (f : Fields)
  | mts (e : Fin 8) (f : Fields)
  | br (e : Fin 8) (f : Fields)
  | jal (e : Fin 8) (f : Fields)
  | jr (e : Fin 8) (f : Fields)
  | loop (e : Fin 8) (f : Fields)
  | rete (e : Fin 8) (f : Fields)
  | ld (e : Fin 8) (f : Fields)
  | st (e : Fin 8) (f : Fields)
  | ldt (e : Fin 8) (f : Fields)
  | stt (e : Fin 8) (f : Fields)
  | now (e : Fin 8) (f : Fields)
  | waitt (e : Fin 8) (f : Fields)
  | waittResume (e : Fin 8)
  | sett (e : Fin 8) (f : Fields)
  | tcmp (e : Fin 8) (f : Fields)
  | tget (e : Fin 8) (f : Fields)
  | tput (e : Fin 8) (f : Fields)
  | line (e : Fin 8) (f : Fields)
  | shot (e : Fin 8) (f : Fields)
  | train (e : Fin 8) (f : Fields)
  | stag (e : Fin 8) (f : Fields)
  | listenonly (e : Fin 8) (f : Fields)
  | window (e : Fin 8) (f : Fields)
  | zoom (e : Fin 8) (f : Fields)
  | hswap (e : Fin 8) (f : Fields)
  | stack (e : Fin 8) (f : Fields)
  | peek (e : Fin 8) (f : Fields)
  | sumwait (e : Fin 8) (f : Fields)
  | sketch (e : Fin 8) (f : Fields)
  | proof (e : Fin 8) (f : Fields)
  | commit (e : Fin 8) (f : Fields) (preempted : Bool)
  | signal (e : Fin 8) (f : Fields)
  | waitsig (e : Fin 8) (f : Fields)
  | semaphore (e : Fin 8) (f : Fields)
  | ledger (e : Fin 8) (f : Fields)
  | trap (e : Fin 8) (f : Fields)
  | yield (e : Fin 8) (f : Fields)
  | halt (e : Fin 8) (f : Fields)
  | undefinedOpcode (e : Fin 8) (w : Wide)
  | watchdog (e : Fin 8)
  | arbiterRequest
  | easelRun (e : Fin 8)
  | easelHalt (e : Fin 8)
  | easelStep (who : Actor) (e : Fin 8)
  | easelReset (e : Fin 8)
  | scanStart (mask : Byte)
  | scanStartDue
  | pmAddrWrite (who : Actor) (e : Fin 8) (v : Word)
  | pmDataRead (who : Actor) (e : Fin 8)
  | pmDataWrite (who : Actor) (e : Fin 8) (v : Word)
  | dmDataRead (who : Actor) (e : Fin 8)
  | dmDataWrite (who : Actor) (e : Fin 8) (v : Word)
  | scanSigSet (mask : BitVec 16)
  | scanSigClear (mask hw : BitVec 16)
  -- emission
  | lineStart
  | lineEnd
  | shotFire
  | diagDue (m : Fin 16) (a : Fin 64)
  | diagArmStrobe
  | diagPulse
  | ewireFrameStart
  | ewireReturn (words : List (BitVec 48))
  | ewireReturnTimeout
  | gaveupClear (who : Actor)
  | hdrmSample (v : BitVec 9)
  | quietPause
  | quietPauseEnd (vs : BitVec 13)
  | lsupOv (v : BitVec 13)
  | lsupOvClear (who : Actor)
  -- lanes
  | lpllUnlock (n : Fin 4) (b : Bool)
  | blockReceive (l : Fin 128) (hdr : BitVec 2) (payload : Wide)
  | cdrUpdate (l : Fin 128) (vote : Int)
  | freqErr (l : Fin 128)
  | laneRetrain (l : Fin 128)
  | retrainTimeout (l : Fin 128)
  | txSleep (l : Fin 128)
  | txWake (l : Fin 128)
  | sleepAnnExpire (l : Fin 128)
  | squelchAssert (l : Fin 128)
  | squelchDeassert (l : Fin 128)
  | wakeFail (l : Fin 128)
  | esGo (l : Fin 128)
  | esDone (l : Fin 128) (errs : Word)
  -- tile link
  | linkStateTimeout (t : Fin 32)
  | relink (t : Fin 32)
  | genSwitch (t : Fin 32)
  | genFallback (t : Fin 32)
  | am (l : Fin 128) (bidx : BitVec 2) (active : BitVec 4) (amseq : Byte) (late : Bool)
  | slot (t : Fin 32) (num : BitVec 25)
  | eventBlock (l : Fin 128) (arrival : Wide) (full : Bool) (w0 w1 : Word) (errs : List BinErr)
  | status (t : Fin 32) (h : MsgHdr) (payload : Wide)
  | ambient (t : Fin 32) (h : MsgHdr) (hdata : BitVec 16) (counts : List (BitVec 16))
  | regRsp (t : Fin 32) (h : MsgHdr) (addr : BitVec 16) (data : Word) (rstat : Byte)
  | caps (t : Fin 32) (h : MsgHdr) (payload : Wide)
  | epochEcho (t : Fin 32) (h : MsgHdr) (beacon : Byte) (t2 t3 : BitVec 52) (t4 : BitVec 68)
  | phaseMeasure (t : Fin 32) (temp : BitVec 12)
  | phaseExchange (t : Fin 32) (t1 : BitVec 68)
  | epochTimeout (t : Fin 32)
  | phaseCandidate (t : Fin 32)
  | tileRegGo (t : Fin 32)
  | tileRegTimeout (t : Fin 32)
  -- histogram engine
  | bankSwap (s : Fin 32)
  | readoutStart (s : Fin 32)
  | stackComplete
  | stallRetireCmd (n : Fin 4)
  | motionPublish
  | kernelWrite (who : Actor) (off : BitVec 32) (v : Word)
  | fltRestart (c : Fin 1024) (zoom : Option (Fin 4)) (bin : BitVec 12)
  -- detection and output
  | echoDelivery (c : Fin 1024) (errs : List BinErr)
  | sectorClassify (s : Fin 32)
  | lineUnitPlace
  -- host interface
  | doorbellPost (r : Fin 14) (post : Word)
  | flushDoorbell (r : Fin 14) (next : BitVec 21)
  | descFetch (r : Fin 14) (fin : ReadEnd) (addr : Wide) (size cookie : Word) (tail : BitVec 128)
  | bufferIdleClose (r : Fin 14)
  | ringEnable (r : Fin 14)
  | ringDisable (r : Fin 14) (flush : Bool) (next : BitVec 21)
  | ringResume (r : Fin 14)
  | ringStop (pm : Bool)
  | coalTimer (r : Fin 14)
  | irqCauseClear (mask hw : Wide)
  | conventionalReset (why : ResetCause)
  | perstDeassert
  | flr (pf1 : Bool)
  | linkRecovery (replays : BitVec 8)
  -- memory and capture
  | memcTraining (densities : List (BitVec 2)) (pass : Bool)
  | memcInitDone
  | memcRetrain
  | crcRetryFail (ch : Fin 4) (good : Option (Fin 3))
  | channelRetrainDone (ch : Fin 4) (pass : Bool)
  | memUe (da : BitVec 34) (oneSymbol : Bool)
  | memcPeriod (load : MemLoad)
  | scrubPass (corrected : List (Fin 4))
  | capArm
  | capAbort
  | capTrig
  | capSample
  | capPostEnd
  | capExportRecord
  | syncArmCmd
  | syncDisarmCmd
  | syncPulseDeferred
  | syncPulseRx (edge : Wide) (width : BitVec 16)
  | syncTrigRx (edge : Wide)
  -- monitor front end
  | monCrossing (m : Fin 16)
  | sincOutput (k : Fin 20) (v : BitVec 24)
  | slowSample (k : Fin 20) (v : BitVec 24)
  | moniSync
  | moniSyncReset
  | xsOpen (x : Fin 8) (now : Bool)
  | hkSequenceStart
  | hkConversion (result : BitVec 12)
  | hkReqGo (p : Fin 2) (both : Bool)
  | hkRotate
  | hkSliceFail (slice : Fin 3)
  -- safety island
  | wdogA
  | safeWdogService
  | chDisagree (chanB : Bool) (copy : BitVec 3)
  | msgTimeout
  | swStuckHs
  | swStuckLs
  | supplyPresent (mv : BitVec 16)
  | rstStuck
  | safeRstFall
  | safeRstRise (low : Nat) (clearing : BitVec 12)
  | causeClear (bit : Fin 12)
  | switchTestStep (hsFb lsFb : Bool) (mv : BitVec 16)
  | smRxGo
  | canFrameRx (fmt : CanFormat) (id : BitVec 11) (sdt : Byte) (af : Word) (p : Pdu)
  | pduUnpaired (chanB : Bool) (src : BitVec 16) (seq : Word)
  | permit (src : BitVec 16) (seq : Word) (stamp : Wide) (permitBit : Bool) (zset : BitVec 2) (withStop : Option (BitVec 16 × Word × Wide))
  | stop (src : BitVec 16) (seq : Word) (stamp : Wide)
  | safeStatusPdu
  | smTxPop
  | violClear
  | profileLoad (img : Image) (stored : Bool)
  | profileActivate (tick : Wide) (stored : Bool)
  | profileInfo
  | profileCeil
  -- security
  | boot
  | hssTreeReady
  | lcInfo
  | lcAdvance (target : Byte) (tok : Option Token) (stored jtag : Bool)
  | ownerKeys (hashes : List (BitVec 384))
  | dbgChallenge
  | dbgUnlock (tok : Token) (jtag : Bool)
  | dbgClose
  | dbgSessionExpire
  | certRead (which : Byte)
  | eatGet (nonce : BitVec 256)
  | tagRead (off len : BitVec 16)
  | tagWrite (off len : BitVec 16) (data : List Byte) (stored : Bool)
  | getVersion
  | getCapabilities
  | negotiateAlgorithms
  | getDigests
  | getCertificate (slot : Byte) (off len : BitVec 16)
  | challenge (nonce : BitVec 256)
  | getMeasurements (index : Byte) (signed : Bool) (nonce : BitVec 256)
  | getHssSig (digest : BitVec 384)
  | unsupportedSpdmRequest (code : Byte)
  | configHash
  | jtagInstruction (code : BitVec 8)
  -- clocks, power, start-up
  | oscJudge (xo : Bool) (count : BitVec 16) (amplitude : Bool)
  | standingMonitor (rosc lf : BitVec 16)
  | startupRetry
  | gateAbort (who : Actor) (off : BitVec 32) (write : Bool)
  | clkoutChange
  | dvfsTarget (who : Actor) (v : Word)
  | avsTransaction (ack : Bool)
  | dvfsVoltageReached (reported : Bool) (mv : BitVec 10) (mon : BitVec 10 × BitVec 10 × BitVec 10 × BitVec 10)
  | dvfsSwitch
  | dvfsFail
  | fwaitExpire
  | pwrGo (who : Actor)
  | hushSleepSend
  | hushLanesIdle
  | hushResume
  | dozeEnter
  | dozeWake
  | vsysFall (torn : Bool)
  | powerOn
  | bootAlwaysOn
  | pmicPg (rail : Rail)
  | tbStart
  -- faults, maintenance, counters
  | errorRecord (r : ErrRec)
  | logStore
  | logMergeFlush
  | regionRestart (r : Fin 19) (attempts : BitVec 16)
  | restartCmd (who : Actor)
  | restartBistDone (r : Fin 19) (failed : List (BitVec 9))
  | restartResume (r : Fin 19)
  | restartFail (r : Fin 19)
  | chipFault (r : Fin 19) (attempts : BitVec 16)
  | chipFaultClear
  | updLoad (img : Image) (stored : Bool)
  | updVerify
  | updActivate (e : Fin 8) (stored : Bool)
  | updStatus
  | updRevert (stored : Bool)
  | fwHandover
  | fwTakeover
  | fwConfirm
  | healthWindowExpire
  | calDue (k : Fin 5) (temp : BitVec 12)
  | calDeferred
  | calStore (stored : Bool)
  | calInfo
  | calRun (mask : Byte)
  | calConfig (dt maxint : BitVec 16)
  | calRead
  | calWrite (delays coeffs : List (BitVec 20)) (kedge : List (BitVec 16)) (stored : Bool)
  | bgStarved (scrub : Bool) (k : Fin 5)
  | tillCfgWrite (who : Actor) (r : Fin 19) (t : Fin 64) (v : Word) (events : BitVec 16)
  | tillOverflow (r : Fin 19) (t : Fin 64)
  | linkTrained (speed : BitVec 3) (width : BitVec 4) (flit : Bool)
  | recoveryExit
  | alignmentMarkerSend (t : Fin 32)
  | tilePortRun (t : Fin 32)
  | canError (x : CanErr)
  | busOffRecovery
  | lockstepErr
  deriving DecidableEq, Repr

end Sys2Proof
end

