-- ==== Sys2Proof/Decode.lean ====
section
/-!
DEFINITION. The table of operations and events gives none of its rows an encoding in bits, so no word spells a command.
-/
namespace Sys2Proof

/-- The command that a table word spells: none, since no row has bits. DESIGN CHOICE (log 2). -/
def decodeTableWord (_nbits _w : Nat) : Option Instr := none

end Sys2Proof
end

