-- ==== Sys2Proof/Config.lean ====
section
/-!
DEFINITION. What an implementation fixes and the manual leaves open: opaque constants, which nothing can evaluate.  A
free value is one of these applied to the state's counter of free values or to the operands it depends on.
-/
namespace Sys2Proof.Config

/-- A free word: the n-th value the manual leaves open. DESIGN CHOICE (log 4). -/
opaque freeWord : Nat → BitVec 32

/-- A free bit. -/
opaque freeBit : Nat → Bool

/-- A free number below a bound is `freeNat n % bound`. -/
opaque freeNat : Nat → Nat

/-- The keyed draw PRF(K_code, line sequence, easel, HOP) of R97; K_code is known to no actor. -/
opaque keyedDraw : (line easel hop : Nat) → Nat

/-- The hard ceilings of the safety profile in OTP (R390): BSHMIN_w, LIMMAX_w, STRAYMAX, EDIAGMIN[m], TMSGMAX, WDOGMAX. DESIGN CHOICE (log 69). -/
opaque otpBshMin : Nat → Nat
opaque otpLimMax : Nat → Nat
opaque otpStrayMax : Nat
opaque otpEdiagMin : Nat → Nat
opaque otpTmsgMax : Nat
opaque otpWdogMax : Nat

/-- The word a safety profile's body carries for the register at a location; the manual gives no layout of the body (R390). DESIGN CHOICE (log 69). -/
opaque profileWord : List (BitVec 8) → Nat → BitVec 32

/-- The CAN values that a safety profile's body carries (R387, R390): 0 to 2 the nominal, FD and XL bit rates in kbit/s, 3 and 4 the receive and
transmit identifiers, 5 SDT, 6 the acceptance field. DESIGN CHOICE (log 69). -/
opaque profileCan : List (BitVec 8) → Nat → Nat

/-- The PCI-SIG identifier of Tystavas (R294), which the manual does not give. PRESUMED (log 92). -/
opaque vendorId : BitVec 16

/-- Bytes 16:1 of the UEID, fixed in MANUFACTURE (R405). -/
opaque ueid : BitVec 128

/-- The anchors of the vendor keys in boot ROM and of the owner keys in OTP, the ECDSA key and the HSS key of an index, and the
revocation fuses of the vendor keys (R395). -/
opaque vendorHash : (hss : Bool) → (idx : Nat) → BitVec 384
opaque ownerHash : (hss : Bool) → (idx : Nat) → BitVec 384
opaque vendorRevoked : Nat → Bool

/-- Whether a signature verifies under the key that an anchor names: ECDSA P-384 over a digest, HSS over a message (R396). DESIGN CHOICE (log 71). -/
opaque ecdsaVerifies : (anchor : BitVec 384) → (digest : BitVec 384) → (sig : List (BitVec 8)) → Bool
/-- DESIGN CHOICE (log 71). -/
opaque hssVerifies : (anchor : BitVec 384) → (msg : List (BitVec 8)) → (sig : List (BitVec 8)) → Bool

/-- The device's own signatures: ECDSA with the Alias key of a CDI, HSS with a leaf of a bottom tree (R405, R406, R408). -/
opaque ecdsaSign : (cdi : BitVec 384) → (msg : List (BitVec 8)) → List (BitVec 8)
opaque hssSign : (bottom q : Nat) → (msg : List (BitVec 8)) → List (BitVec 8)

/-- HKDF-SHA-384 over the UDS and measurements: the CDI (R405). -/
opaque cdiOf : List (BitVec 384) → BitVec 384

/-- The measurement of the boot ROM (R409). -/
opaque romMeasure : BitVec 384

/-- Whether a queue of a region refuses in a cycle of 1 ns, by PERTURB_BP.PROB and QSEL and the generator's seed (R471). DESIGN CHOICE (log 109). -/
opaque refusal : (region queue prob qsel seed cycle : Nat) → Bool

/-- What a JTAG instruction code selects: below 4 BYPASS, IDCODE, SAMPLE/PRELOAD and EXTEST; above, a function that needs debug
level kind − 3; the manual gives no codes (R418). DESIGN CHOICE (log 76). -/
opaque jtagKind : BitVec 8 → Nat

/-- The words of an SPDM message: its format is that of the standard (R407). DESIGN CHOICE (log 75). -/
opaque spdmWords : Spdm → List (BitVec 32)

/-- The DER certificates: 0 DeviceID, 2 manufacturing CA, 3 root; the Alias certificate of a CDI (R406, R423). -/
opaque cert : Nat → List (BitVec 8)
opaque aliasCert : BitVec 384 → List (BitVec 8)

/-- The CBOR encoding of an attestation token's claims in a COSE_Sign object with its two signatures (R410). DESIGN CHOICE (log 71). -/
opaque coseSign : (claims ecdsa hss : List (BitVec 8)) → List (BitVec 8)

/-- A nonce drawn by DBG_CHALLENGE (R416). DESIGN CHOICE (log 71). -/
opaque freeNonce : Nat → BitVec 256

/-- A bit of the SVN counter that cannot be blown (R399). -/
opaque svnStuck : Nat → Bool

/-- SHA-384 (R396, R409, R411); the standard fixes it, and no statement rests on its values. DESIGN CHOICE (log 71). -/
opaque sha384 : List (BitVec 8) → BitVec 384

end Sys2Proof.Config
end

