-- ==== Sys2Proof/Machine/Store.lean ====
section
/-!
DEFINITION. Sparse tables in canonical form, fields of a register word, and the shape of a register-table row.
-/
namespace Sys2Proof.Machine

/-- The value listed for a key. -/
def look {β : Type} : SMap β → Nat → Option β
  | [], _ => none
  | (a, b) :: m, k => if a = k then some b else look m k

/-- Read a sparse table whose unlisted keys read as `d`. -/
def rd {β : Type} (d : Nat → β) (m : SMap β) (k : Nat) : β := (look m k).getD (d k)

/-- Remove a key. -/
def del {β : Type} (m : SMap β) (k : Nat) : SMap β := m.filter fun e => e.1 != k

/-- List a value at a key, keeping the keys rising. -/
def ins {β : Type} : SMap β → Nat → β → SMap β
  | [], k, v => [(k, v)]
  | (a, b) :: m, k, v =>
    if k < a then (k, v) :: (a, b) :: m else if a = k then (k, v) :: m else (a, b) :: ins m k v

/-- Write a sparse table whose unlisted keys read as `d`; writing that value removes the entry. -/
def wr {β : Type} [DecidableEq β] (d : Nat → β) (m : SMap β) (k : Nat) (v : β) : SMap β :=
  if v = d k then del m k else ins m k v

/-- The keys rise strictly from above `k`. -/
def risesFrom {β : Type} : Nat → SMap β → Bool
  | _, [] => true
  | k, (a, _) :: m => decide (k ≤ a) && risesFrom (a + 1) m

/-- The canonical form: keys rise strictly, and no entry equals what an unlisted key reads as. -/
def canonical {β : Type} [DecidableEq β] (d : Nat → β) (m : SMap β) : Bool :=
  risesFrom 0 m && m.all fun e => decide (e.2 ≠ d e.1)

/-- A field of a register: the location of its word and its bits `hi:lo` (R4). -/
structure Field where
  off : Nat
  hi : Nat
  lo : Nat
  deriving DecidableEq, Repr

/-- The bits of a word that a field spans, as a number (R4). -/
def bitsOf (w : Word) (hi lo : Nat) : Nat := w.toNat / 2 ^ lo % 2 ^ (hi - lo + 1)

/-- A word with the bits `hi:lo` replaced by the low bits of `v`; the other bits keep their values. -/
def putBits (w : Word) (hi lo v : Nat) : Word :=
  BitVec.ofNat 32 (w.toNat - bitsOf w hi lo * 2 ^ lo + v % 2 ^ (hi - lo + 1) * 2 ^ lo)

/-- The access types of R34. -/
inductive Acc where
  | rw | ro | w1c | w1s | wo | rc | stg | rwl | wot | cnt | mbx
  deriving DecidableEq, Repr

/-- One field of a register-table row: bits, access type, reset value, the encodings the table marks reserved (R6),
the range the description gives where it is narrower than the bits (R42), and whether the reset value counts up with
the index in the array. -/
structure FieldRow where
  hi : Nat
  lo : Nat
  acc : Acc
  reset : Nat
  rsv : List (Nat × Nat)
  rng : Option (Nat × Nat)
  idx : Bool
  deriving DecidableEq, Repr

/-- One register-table row: the offset of its first register, the (stride, count) of each array it repeats in,
outermost first, and its fields. -/
structure RegRow where
  base : Nat
  dims : List (Nat × Nat)
  fields : List FieldRow
  deriving DecidableEq, Repr

/-- The index in the innermost array of the register at an offset from a row's base, if the row has one there. -/
def dimIndex : List (Nat × Nat) → Nat → Nat → Option Nat
  | [], off, i => if off = 0 then some i else none
  | (s, c) :: ds, off, _ => if off / s < c then dimIndex ds (off % s) (off / s) else none

/-- The innermost index of the register at location `a`, if the row holds it. -/
def RegRow.index? (r : RegRow) (a : Nat) : Option Nat :=
  if a < r.base then none else dimIndex r.dims (a - r.base) 0

/-- The reset value of a register of a row. -/
def RegRow.resetWord (r : RegRow) (i : Nat) : Word :=
  r.fields.foldl (fun w f => putBits w f.hi f.lo (f.reset + (if f.idx then i else 0))) 0

/-- Whether the register is staged: some field of it is STG (R34). -/
def RegRow.staged (r : RegRow) : Bool := r.fields.any fun f => f.acc = .stg

/-- Whether a value of a field lies in one of the encodings its table marks reserved (R6). -/
def FieldRow.reserved (f : FieldRow) (v : Nat) : Bool := f.rsv.any fun (a, b) => decide (a ≤ v ∧ v ≤ b)

end Sys2Proof.Machine
end

