-- ==== Sys2Proof/Machine/Fields.lean ====
section
/-!
DEFINITION. The named fields of the register map: one accessor per field of the register tables of the chapters,
under the manual's own names.  Lane and tile registers take the instance number of R8; a region register takes the
region index (R17, R30); an array takes its indices, outermost first.
-/
namespace Sys2Proof.Machine.Fd

def RGN_CTL_SNAP_MODE (i : Nat) : Field := ⟨0x0 + 0x00200000*i, 0, 0⟩
def RGN_CTL_AEIE (i : Nat) : Field := ⟨0x0 + 0x00200000*i, 1, 1⟩
def WIDE_SEL_SEL (i : Nat) : Field := ⟨0x10 + 0x00200000*i, 15, 0⟩
def WIDE_LO_LO (i : Nat) : Field := ⟨0x14 + 0x00200000*i, 31, 0⟩
def WIDE_HI_HI (i : Nat) : Field := ⟨0x18 + 0x00200000*i, 31, 0⟩
def WIDE_VALID_VALID (i : Nat) : Field := ⟨0x1C + 0x00200000*i, 0, 0⟩
def RGN_STAT_ACC_ERR (i : Nat) : Field := ⟨0x20 + 0x00200000*i, 0, 0⟩
def RGN_STAT_RESTARTING (i : Nat) : Field := ⟨0x20 + 0x00200000*i, 1, 1⟩
def FW_WIDE_SEL_SEL (i : Nat) : Field := ⟨0x30 + 0x00200000*i, 15, 0⟩
def FW_WIDE_LO_LO (i : Nat) : Field := ⟨0x34 + 0x00200000*i, 31, 0⟩
def FW_WIDE_HI_HI (i : Nat) : Field := ⟨0x38 + 0x00200000*i, 31, 0⟩
def FW_WIDE_VALID_VALID (i : Nat) : Field := ⟨0x3C + 0x00200000*i, 0, 0⟩
def CHIP_ID_REV : Field := ⟨0x40, 7, 0⟩
def CHIP_ID_FAMILY : Field := ⟨0x40, 15, 8⟩
def CHIP_ID_DEVICE : Field := ⟨0x40, 31, 16⟩
def PERTURB_HS_DELAY (i : Nat) : Field := ⟨0x100 + 0x00200000*i, 7, 0⟩
def PERTURB_HS_MODE (i : Nat) : Field := ⟨0x100 + 0x00200000*i, 9, 8⟩
def PERTURB_BP_PROB (i : Nat) : Field := ⟨0x104 + 0x00200000*i, 15, 0⟩
def PERTURB_BP_QSEL (i : Nat) : Field := ⟨0x104 + 0x00200000*i, 23, 16⟩
def PERTURB_EV_EVDLY (i : Nat) : Field := ⟨0x108 + 0x00200000*i, 11, 0⟩
def PERTURB_TB_SKEW (i : Nat) : Field := ⟨0x10C + 0x00200000*i, 11, 0⟩
def PERTURB_SEED_SEED (i : Nat) : Field := ⟨0x110 + 0x00200000*i, 31, 0⟩
def CHIP_PROOF_GO : Field := ⟨0x00010000, 0, 0⟩
def CHIP_PROOF_STATUS_STATE : Field := ⟨0x00010004, 1, 0⟩
def CHIP_PROOF_STATUS_STALE : Field := ⟨0x00010004, 2, 2⟩
def CHIP_PROOF_STATUS_RULE : Field := ⟨0x00010004, 31, 16⟩
def CHIP_PROOF_ADDR_OFFSET : Field := ⟨0x00010008, 25, 0⟩
def CHIP_COMMIT_GO : Field := ⟨0x0001000C, 0, 0⟩
def CHIP_COMMIT_ABORT : Field := ⟨0x0001000C, 1, 1⟩
def CHIP_COMMIT_INSTANT : Field := ⟨0x0001000C, 5, 4⟩
def CHIP_COMMIT_ENG : Field := ⟨0x0001000C, 10, 8⟩
def CHIP_COMMIT_TICK_LO_TICK : Field := ⟨0x00010010, 31, 0⟩
def CHIP_COMMIT_TICK_HI_TICK : Field := ⟨0x00010014, 31, 0⟩
def CHIP_COMMIT_STATUS_STATE : Field := ⟨0x00010018, 2, 0⟩
def CHIP_COMMIT_STATUS_REASON : Field := ⟨0x00010018, 10, 8⟩
def CHIP_COMMIT_STATUS_ABORT_LATE : Field := ⟨0x00010018, 16, 16⟩
def CHIP_COMMIT_STATUS_SRC : Field := ⟨0x00010018, 20, 17⟩
def CHIP_COMMIT_STATUS_REGION : Field := ⟨0x00010018, 31, 24⟩
def CHIP_VARNISH_TICK_LO_TICK : Field := ⟨0x0001001C, 31, 0⟩
def CHIP_VARNISH_TICK_HI_TICK : Field := ⟨0x00010020, 31, 0⟩
def CHIP_SKETCH_GEN_GEN : Field := ⟨0x00010024, 31, 0⟩
def CHIP_COMMIT_GEN_GEN : Field := ⟨0x00010028, 31, 0⟩
def CHIP_SNAP_GO : Field := ⟨0x00010040, 0, 0⟩
def CHIP_SNAP_SEQ : Field := ⟨0x00010040, 31, 16⟩
def CHIP_SNAP_TICK_LO_TICK : Field := ⟨0x00010044, 31, 0⟩
def CHIP_SNAP_TICK_HI_TICK : Field := ⟨0x00010048, 31, 0⟩
def CHIP_PWR_CTL_TARGET : Field := ⟨0x00020000, 1, 0⟩
def CHIP_PWR_CTL_GO : Field := ⟨0x00020000, 4, 4⟩
def CHIP_PWR_CTL_WAKE_PIN_EN : Field := ⟨0x00020000, 16, 16⟩
def CHIP_PWR_CTL_FWAIT : Field := ⟨0x00020000, 31, 24⟩
def CHIP_PWR_STAT_STATE : Field := ⟨0x00020004, 1, 0⟩
def CHIP_PWR_STAT_BUSY : Field := ⟨0x00020004, 2, 2⟩
def CHIP_PWR_STAT_REFUSE : Field := ⟨0x00020004, 7, 4⟩
def CHIP_PWR_STAT_WAKE : Field := ⟨0x00020004, 9, 8⟩
def CHIP_PWR_STAT_DOZES : Field := ⟨0x00020004, 31, 16⟩
def CHIP_DVFS_CTL_TARGET : Field := ⟨0x00020010, 1, 0⟩
def CHIP_DVFS_CTL_ENG : Field := ⟨0x00020010, 6, 4⟩
def CHIP_DVFS_CTL_AUTO_THROT : Field := ⟨0x00020010, 8, 8⟩
def CHIP_DVFS_CTL_TLIM : Field := ⟨0x00020010, 23, 16⟩
def CHIP_DVFS_STAT_PP : Field := ⟨0x00020014, 1, 0⟩
def CHIP_DVFS_STAT_BUSY : Field := ⟨0x00020014, 2, 2⟩
def CHIP_DVFS_STAT_FAIL : Field := ⟨0x00020014, 3, 3⟩
def CHIP_DVFS_STAT_THROT : Field := ⟨0x00020014, 4, 4⟩
def CHIP_DVFS_STAT_VMON : Field := ⟨0x00020014, 25, 16⟩
def CHIP_CLKOUT_SEL : Field := ⟨0x00020020, 5, 0⟩
def CHIP_CLKOUT_EN : Field := ⟨0x00020020, 7, 7⟩
def CHIP_CLKOUT_DIV : Field := ⟨0x00020020, 19, 8⟩
def CHIP_OSC_STAT_LF_RUN : Field := ⟨0x00020030, 0, 0⟩
def CHIP_OSC_STAT_ROSC_OK : Field := ⟨0x00020030, 1, 1⟩
def CHIP_OSC_STAT_XO_OK : Field := ⟨0x00020030, 2, 2⟩
def CHIP_OSC_STAT_MON_ARMED : Field := ⟨0x00020030, 3, 3⟩
def CHIP_OSC_STAT_TRIP : Field := ⟨0x00020030, 4, 4⟩
def CHIP_OSC_STAT_BLAME : Field := ⟨0x00020030, 6, 5⟩
def CHIP_OSC_STAT_RETRIES : Field := ⟨0x00020030, 11, 8⟩
def CHIP_OSC_STAT_ROSC_CNT : Field := ⟨0x00020030, 31, 16⟩
def CHIP_ISLAND_RUN_LO_RUN : Field := ⟨0x00020040, 31, 0⟩
def CHIP_ISLAND_RUN_HI_RUN : Field := ⟨0x00020044, 15, 0⟩
def CHIP_BOOT_STAT_DONE : Field := ⟨0x00020050, 9, 0⟩
def CHIP_BOOT_STAT_MS : Field := ⟨0x00020050, 31, 16⟩
def CHIP_ERR_STAT_CHIP_FAULT : Field := ⟨0x00030000, 0, 0⟩
def CHIP_ERR_STAT_FREGION : Field := ⟨0x00030000, 12, 8⟩
def CHIP_RESTARTING_MASK : Field := ⟨0x00030004, 18, 0⟩
def CHIP_RESTART_CMD_REGION : Field := ⟨0x00030008, 4, 0⟩
def CHIP_RESTART_CMD_GO : Field := ⟨0x00030008, 8, 8⟩
def TILL_CFG_SRC (i : Nat) (j : Nat) : Field := ⟨0x000F0000 + 0x00200000*i + 16*j, 7, 0⟩
def TILL_CFG_INST (i : Nat) (j : Nat) : Field := ⟨0x000F0000 + 0x00200000*i + 16*j, 17, 8⟩
def TILL_CFG_ALL (i : Nat) (j : Nat) : Field := ⟨0x000F0000 + 0x00200000*i + 16*j, 18, 18⟩
def TILL_CFG_STICK (i : Nat) (j : Nat) : Field := ⟨0x000F0000 + 0x00200000*i + 16*j, 20, 20⟩
def TILL_CFG_IEN (i : Nat) (j : Nat) : Field := ⟨0x000F0000 + 0x00200000*i + 16*j, 21, 21⟩
def TILL_CFG_REGION (i : Nat) (j : Nat) : Field := ⟨0x000F0000 + 0x00200000*i + 16*j, 28, 24⟩
def TILL_CNT_LO (i : Nat) (j : Nat) : Field := ⟨0x000F0004 + 0x00200000*i + 16*j, 31, 0⟩
def TILL_SNAP_LO_LO (i : Nat) (j : Nat) : Field := ⟨0x000F0008 + 0x00200000*i + 16*j, 31, 0⟩
def TILL_SNAP_HI_HI (i : Nat) (j : Nat) : Field := ⟨0x000F000C + 0x00200000*i + 16*j, 15, 0⟩
def TILL_OVF_LO_OVF (i : Nat) : Field := ⟨0x000F0400 + 0x00200000*i, 31, 0⟩
def TILL_OVF_HI_OVF (i : Nat) : Field := ⟨0x000F0404 + 0x00200000*i, 31, 0⟩
def TBAS_OVN_CTL_EN : Field := ⟨0x00210000, 0, 0⟩
def TBAS_OVN_CTL_IEXC : Field := ⟨0x00210000, 3, 1⟩
def TBAS_OVN_CTL_PWMF : Field := ⟨0x00210000, 5, 4⟩
def TBAS_OVN_CTL_MAXDUTY : Field := ⟨0x00210000, 19, 8⟩
def TBAS_OVN_SET_SETPT : Field := ⟨0x00210004, 23, 0⟩
def TBAS_OVN_BAND_BAND : Field := ⟨0x00210008, 15, 0⟩
def TBAS_OVN_GAIN_KP : Field := ⟨0x0021000C, 15, 0⟩
def TBAS_OVN_GAIN_KI : Field := ⟨0x0021000C, 31, 16⟩
def TBAS_OVN_STAT_DUTY : Field := ⟨0x00210010, 11, 0⟩
def TBAS_OVN_STAT_INBAND : Field := ⟨0x00210010, 12, 12⟩
def TBAS_OVN_STAT_OVN_FAULT : Field := ⟨0x00210010, 13, 13⟩
def TBAS_OVN_STAT_OVN_SAT : Field := ⟨0x00210010, 14, 14⟩
def TBAS_OVN_MEAS_RATIO : Field := ⟨0x00210014, 23, 0⟩
def TBAS_TB_STAT_TB_WARM : Field := ⟨0x00210018, 0, 0⟩
def TBAS_TB_STAT_OVEN_OK : Field := ⟨0x00210018, 1, 1⟩
def TBAS_TB_STAT_FREQ_OK : Field := ⟨0x00210018, 2, 2⟩
def TBAS_TB_STAT_HOLD_MODE : Field := ⟨0x00210018, 3, 3⟩
def TBAS_TB_STAT_PLL_LOCK : Field := ⟨0x00210018, 4, 4⟩
def TBAS_TB_STAT_PTM_DISAGREE : Field := ⟨0x00210018, 5, 5⟩
def TBAS_TB_STAT_TB_LOSS : Field := ⟨0x00210018, 6, 6⟩
def TBAS_TB_STAT_WARM_S : Field := ⟨0x00210018, 31, 16⟩
def TBAS_TIME_LO_TIME_LO : Field := ⟨0x00220000, 31, 0⟩
def TBAS_ERA_ERA : Field := ⟨0x00220004, 31, 0⟩
def TBAS_TIME_ERA_ERA : Field := ⟨0x00220008, 31, 0⟩
def TBAS_PTM_CTL_EN : Field := ⟨0x0022000C, 0, 0⟩
def TBAS_PTM_CTL_STEER : Field := ⟨0x0022000C, 1, 1⟩
def TBAS_PTM_CTL_PERIOD : Field := ⟨0x0022000C, 17, 8⟩
def TBAS_PTM_STAT_ACTIVE : Field := ⟨0x00220010, 0, 0⟩
def TBAS_PTM_STAT_LOST : Field := ⟨0x00220010, 1, 1⟩
def TBAS_PTM_STAT_EXCH : Field := ⟨0x00220010, 31, 16⟩
def TBAS_PTM_RATE_RATE : Field := ⟨0x00220014, 31, 0⟩
def TBAS_PLL_TRIM_TRIM : Field := ⟨0x00220018, 31, 0⟩
def TBAS_TIME_SNAP_LO_LO : Field := ⟨0x00220020, 31, 0⟩
def TBAS_TIME_SNAP_HI_HI : Field := ⟨0x00220024, 31, 0⟩
def TBAS_PTM_TICK_SNAP_LO_LO : Field := ⟨0x00220028, 31, 0⟩
def TBAS_PTM_TICK_SNAP_HI_HI : Field := ⟨0x0022002C, 31, 0⟩
def TBAS_PTM_HOST_SNAP_LO_LO : Field := ⟨0x00220030, 31, 0⟩
def TBAS_PTM_HOST_SNAP_HI_HI : Field := ⟨0x00220034, 31, 0⟩
def TBAS_TIU_CTL_NSTAT : Field := ⟨0x00230000, 4, 0⟩
def TBAS_TIU_CTL_STAT_CLR : Field := ⟨0x00230000, 8, 8⟩
def TBAS_TIU_STOPS_STOP_EN : Field := ⟨0x00230004, 15, 0⟩
def TBAS_TIU_WIN_OPEN : Field := ⟨0x00230008, 7, 0⟩
def TBAS_TIU_WIN_CLOSE : Field := ⟨0x00230008, 15, 8⟩
def TBAS_TIU_MDLY_MDLY (i : Nat) : Field := ⟨0x00230040 + 4*i, 15, 0⟩
def TBAS_TIU_LAST_D (i : Nat) : Field := ⟨0x00230100 + 32*i, 17, 0⟩
def TBAS_TIU_LAST_DIAG (i : Nat) : Field := ⟨0x00230100 + 32*i, 30, 30⟩
def TBAS_TIU_LAST_MISS (i : Nat) : Field := ⟨0x00230100 + 32*i, 31, 31⟩
def TBAS_TIU_MEAN_MEAN (i : Nat) : Field := ⟨0x00230104 + 32*i, 25, 0⟩
def TBAS_TIU_SD_SD (i : Nat) : Field := ⟨0x00230108 + 32*i, 15, 0⟩
def TBAS_TIU_MIN_MIN (i : Nat) : Field := ⟨0x0023010C + 32*i, 17, 0⟩
def TBAS_TIU_MAX_MAX (i : Nat) : Field := ⟨0x00230110 + 32*i, 17, 0⟩
def TBAS_TIU_SEQ_SEQ (i : Nat) : Field := ⟨0x00230114 + 32*i, 15, 0⟩
def TBAS_TIU_SEQ_MISSES (i : Nat) : Field := ⟨0x00230114 + 32*i, 31, 16⟩
def SCAN_PONOS_VER_REV : Field := ⟨0x00400004, 15, 0⟩
def SCAN_PONOS_VER_ARCH : Field := ⟨0x00400004, 31, 16⟩
def SCAN_START_MASK : Field := ⟨0x00400008, 7, 0⟩
def SCAN_CODE_CTL_NDRAW : Field := ⟨0x0040000C, 8, 0⟩
def SCAN_LINE_SEQ_SEQ : Field := ⟨0x00400040, 31, 0⟩
def SCAN_FRAME_SEQ_SEQ : Field := ⟨0x00400044, 31, 0⟩
def SCAN_DSM_LAST_SEQ : Field := ⟨0x00400048, 31, 0⟩
def SCAN_SIG_SIG : Field := ⟨0x0040004C, 15, 0⟩
def SCAN_SIG_CLR_SIG : Field := ⟨0x00400050, 15, 0⟩
def SCAN_SEM_COUNT (i : Nat) : Field := ⟨0x00400060 + 4*i, 7, 0⟩
def SCAN_EASEL_CTL_RUN (i : Nat) : Field := ⟨0x00410000 + 0x00010000*i, 0, 0⟩
def SCAN_EASEL_CTL_HALT (i : Nat) : Field := ⟨0x00410000 + 0x00010000*i, 1, 1⟩
def SCAN_EASEL_CTL_STEP (i : Nat) : Field := ⟨0x00410000 + 0x00010000*i, 2, 2⟩
def SCAN_EASEL_CTL_RESET (i : Nat) : Field := ⟨0x00410000 + 0x00010000*i, 3, 3⟩
def SCAN_EASEL_CTL_SWAPAT (i : Nat) : Field := ⟨0x00410000 + 0x00010000*i, 8, 8⟩
def SCAN_EASEL_CTL_IEN_HALT (i : Nat) : Field := ⟨0x00410000 + 0x00010000*i, 16, 16⟩
def SCAN_EASEL_CTL_IEN_EXC (i : Nat) : Field := ⟨0x00410000 + 0x00010000*i, 17, 17⟩
def SCAN_EASEL_STAT_STATE (i : Nat) : Field := ⟨0x00410004 + 0x00010000*i, 1, 0⟩
def SCAN_EASEL_STAT_EXL (i : Nat) : Field := ⟨0x00410004 + 0x00010000*i, 2, 2⟩
def SCAN_EASEL_STAT_BANK (i : Nat) : Field := ⟨0x00410004 + 0x00010000*i, 3, 3⟩
def SCAN_EASEL_STAT_SWAP_PEND (i : Nat) : Field := ⟨0x00410004 + 0x00010000*i, 4, 4⟩
def SCAN_EASEL_STAT_DFAULT (i : Nat) : Field := ⟨0x00410004 + 0x00010000*i, 5, 5⟩
def SCAN_EASEL_STAT_WDOG (i : Nat) : Field := ⟨0x00410004 + 0x00010000*i, 6, 6⟩
def SCAN_EASEL_STAT_HOP (i : Nat) : Field := ⟨0x00410004 + 0x00010000*i, 15, 8⟩
def SCAN_EASEL_PC_PC (i : Nat) : Field := ⟨0x00410008 + 0x00010000*i, 11, 0⟩
def SCAN_EASEL_PC_EPC (i : Nat) : Field := ⟨0x00410008 + 0x00010000*i, 27, 16⟩
def SCAN_EASEL_ECAUSE_CAUSE (i : Nat) : Field := ⟨0x0041000C + 0x00010000*i, 3, 0⟩
def SCAN_EASEL_ECAUSE_SUB (i : Nat) : Field := ⟨0x0041000C + 0x00010000*i, 7, 4⟩
def SCAN_EASEL_ECAUSE_FPC (i : Nat) : Field := ⟨0x0041000C + 0x00010000*i, 27, 16⟩
def SCAN_EASEL_EDETAIL_DETAIL (i : Nat) : Field := ⟨0x00410010 + 0x00010000*i, 31, 0⟩
def SCAN_EASEL_EVB_BASE (i : Nat) : Field := ⟨0x00410014 + 0x00010000*i, 11, 4⟩
def SCAN_EASEL_EXC_EN_LATE (i : Nat) : Field := ⟨0x00410018 + 0x00010000*i, 0, 0⟩
def SCAN_EASEL_EXC_EN_LEDGER (i : Nat) : Field := ⟨0x00410018 + 0x00010000*i, 1, 1⟩
def SCAN_EASEL_WDOG_LIMIT (i : Nat) : Field := ⟨0x0041001C + 0x00010000*i, 15, 0⟩
def SCAN_EASEL_PBANK_SEL (i : Nat) : Field := ⟨0x00410020 + 0x00010000*i, 0, 0⟩
def SCAN_EASEL_PM_ADDR_INDEX (i : Nat) : Field := ⟨0x00410024 + 0x00010000*i, 11, 0⟩
def SCAN_EASEL_PM_ADDR_BANK (i : Nat) : Field := ⟨0x00410024 + 0x00010000*i, 12, 12⟩
def SCAN_EASEL_PM_DATA_DATA (i : Nat) : Field := ⟨0x00410028 + 0x00010000*i, 31, 0⟩
def SCAN_EASEL_DM_ADDR_WORD (i : Nat) : Field := ⟨0x0041002C + 0x00010000*i, 13, 2⟩
def SCAN_EASEL_DM_DATA_DATA (i : Nat) : Field := ⟨0x00410030 + 0x00010000*i, 31, 0⟩
def SCAN_EASEL_G_G (i : Nat) (j : Nat) : Field := ⟨0x00410100 + 0x00010000*i + 4*j, 31, 0⟩
def SCAN_EASEL_T_WORD (i : Nat) (j : Nat) : Field := ⟨0x00410180 + 0x00010000*i + 4*j, 31, 0⟩
def SCAN_EASEL_PRED_P (i : Nat) : Field := ⟨0x004101A0 + 0x00010000*i, 7, 0⟩
def SCAN_LD0_LSEL (i : Nat) : Field := ⟨0x00490000 + 16*i, 5, 0⟩
def SCAN_LD0_MODMASK (i : Nat) : Field := ⟨0x00490000 + 16*i, 23, 8⟩
def SCAN_LD0_PW (i : Nat) : Field := ⟨0x00490000 + 16*i, 31, 24⟩
def SCAN_LD1_BLANK (i : Nat) : Field := ⟨0x00490004 + 16*i, 7, 0⟩
def SCAN_LD1_KBIN (i : Nat) : Field := ⟨0x00490004 + 16*i, 11, 8⟩
def SCAN_LD1_NBIN (i : Nat) : Field := ⟨0x00490004 + 16*i, 15, 12⟩
def SCAN_LD1_WSTART (i : Nat) : Field := ⟨0x00490004 + 16*i, 31, 16⟩
def SCAN_LD2_CODE (i : Nat) : Field := ⟨0x00490008 + 16*i, 7, 0⟩
def SCAN_LD2_SM1 (i : Nat) : Field := ⟨0x00490008 + 16*i, 13, 8⟩
def SCAN_LD2_KAPPA (i : Nat) : Field := ⟨0x00490008 + 16*i, 23, 16⟩
def SCAN_LD2_LISTEN (i : Nat) : Field := ⟨0x00490008 + 16*i, 24, 24⟩
def SCAN_LD2_QUIET (i : Nat) : Field := ⟨0x00490008 + 16*i, 25, 25⟩
def SCAN_LD2_STACKEN (i : Nat) : Field := ⟨0x00490008 + 16*i, 26, 26⟩
def SCAN_LD3_LGRP (i : Nat) : Field := ⟨0x0049000C + 16*i, 5, 0⟩
def SCAN_CODE_NINT_NINT (i : Nat) : Field := ⟨0x004A0000 + 0x100*i, 5, 0⟩
def SCAN_CODE_IVAL_IVAL (i : Nat) (j : Nat) : Field := ⟨0x004A0004 + 0x100*i + 4*j, 23, 0⟩
def SCAN_DSM0_SEQ (i : Nat) (j : Nat) : Field := ⟨0x004B0000 + 0x200*i + 16*j, 31, 0⟩
def SCAN_DSM1_NEAR (i : Nat) (j : Nat) : Field := ⟨0x004B0004 + 0x200*i + 16*j, 27, 0⟩
def SCAN_DSM1_INTERF (i : Nat) (j : Nat) : Field := ⟨0x004B0004 + 0x200*i + 16*j, 28, 28⟩
def SCAN_DSM1_SAT (i : Nat) (j : Nat) : Field := ⟨0x004B0004 + 0x200*i + 16*j, 29, 29⟩
def SCAN_DSM1_DEGRADED (i : Nat) (j : Nat) : Field := ⟨0x004B0004 + 0x200*i + 16*j, 30, 30⟩
def SCAN_DSM1_VALID (i : Nat) (j : Nat) : Field := ⟨0x004B0004 + 0x200*i + 16*j, 31, 31⟩
def SCAN_DSM2_ECHOES (i : Nat) (j : Nat) : Field := ⟨0x004B0008 + 0x200*i + 16*j, 8, 0⟩
def SCAN_DSM2_SNRMAX (i : Nat) (j : Nat) : Field := ⟨0x004B0008 + 0x200*i + 16*j, 23, 16⟩
def SCAN_DSM3_LINE (i : Nat) (j : Nat) : Field := ⟨0x004B000C + 0x200*i + 16*j, 9, 0⟩
def SCAN_DSM3_FRAME (i : Nat) (j : Nat) : Field := ⟨0x004B000C + 0x200*i + 16*j, 31, 16⟩
def SCAN_ARB_STAT_SQ_FILL : Field := ⟨0x004C0000, 9, 0⟩
def SCAN_ARB_STAT_AQ_FILL : Field := ⟨0x004C0000, 24, 16⟩
def SCAN_LEDG_WIN0_BSH : Field := ⟨0x004D0000, 5, 0⟩
def SCAN_LEDG_WIN1_BSH : Field := ⟨0x004D0004, 5, 0⟩
def SCAN_LEDG_WIN2_BSH : Field := ⟨0x004D0008, 5, 0⟩
def SCAN_LEDG_CTL_TRUEUP : Field := ⟨0x004D0010, 0, 0⟩
def SCAN_LEDG_STAT_VIOL : Field := ⟨0x004D0014, 0, 0⟩
def SCAN_LEDG_STAT_STRAY : Field := ⟨0x004D0014, 1, 1⟩
def SCAN_LEDG_STAT_VGRP : Field := ⟨0x004D0014, 13, 8⟩
def SCAN_LEDG_STAT_VWIN : Field := ⟨0x004D0014, 17, 16⟩
def SCAN_LEDG_STRAY_CU : Field := ⟨0x004D0018, 15, 0⟩
def SCAN_LEDG_LIM_LIM (i : Nat) (j : Nat) : Field := ⟨0x004D0100 + 0x100*i + 4*j, 31, 0⟩
def SCAN_LEDG_REMAIN_CU (i : Nat) (j : Nat) : Field := ⟨0x004D0400 + 0x100*i + 4*j, 31, 0⟩
def SCAN_LEDG_ECHG_CU (i : Nat) (j : Nat) : Field := ⟨0x004D1000 + 0x100*i + 4*j, 15, 0⟩
def SCAN_LEDG_EDIAG_CU (i : Nat) : Field := ⟨0x004D2000 + 4*i, 15, 0⟩
def SCAN_LEDG_MONK_K (i : Nat) : Field := ⟨0x004D2040 + 4*i, 23, 0⟩
def SCAN_SCRATCH_WORD (i : Nat) : Field := ⟨0x004E0000 + 4*i, 31, 0⟩
def EMIT_MOD_EN_EN : Field := ⟨0x00610000, 15, 0⟩
def EMIT_STAG_STAG (i : Nat) : Field := ⟨0x00610010 + 4*i, 31, 0⟩
def EMIT_FDLY_FDLY (i : Nat) : Field := ⟨0x00610040 + 4*i, 7, 0⟩
def EMIT_LSEL_STAT_ADDR : Field := ⟨0x00620000, 5, 0⟩
def EMIT_LSEL_STAT_ACTIVE : Field := ⟨0x00620000, 8, 8⟩
def EMIT_DIAG_CTL_EN : Field := ⟨0x00620004, 0, 0⟩
def EMIT_DIAG_CTL_IEN : Field := ⟨0x00620004, 1, 1⟩
def EMIT_DIAG_STAT_NDUE : Field := ⟨0x00620008, 10, 0⟩
def EMIT_DIAG_STAT_FAULT : Field := ⟨0x00620008, 16, 16⟩
def EMIT_DIAG_OPEN_WORD (i : Nat) (j : Nat) : Field := ⟨0x00620100 + 8*i + 4*j, 31, 0⟩
def EMIT_DIAG_SHORT_WORD (i : Nat) (j : Nat) : Field := ⟨0x00620200 + 8*i + 4*j, 31, 0⟩
def EMIT_DIAG_DUE_WORD (i : Nat) (j : Nat) : Field := ⟨0x00620300 + 8*i + 4*j, 31, 0⟩
def EMIT_EW_CTL_NMOD : Field := ⟨0x00630000, 4, 0⟩
def EMIT_EW_CTL_APPLYAT : Field := ⟨0x00630000, 8, 8⟩
def EMIT_EW_CTL_LGB : Field := ⟨0x00630000, 9, 9⟩
def EMIT_EW_STAT_STATE : Field := ⟨0x00630004, 1, 0⟩
def EMIT_EW_STAT_CHAIN_ERR : Field := ⟨0x00630004, 4, 4⟩
def EMIT_EW_STAT_GAVEUP : Field := ⟨0x00630004, 5, 5⟩
def EMIT_EW_STAT_FRAMES : Field := ⟨0x00630004, 31, 16⟩
def EMIT_EW_APPLY_LINE_SEQ : Field := ⟨0x00630008, 31, 0⟩
def EMIT_EW_MSTAT_STATUS (i : Nat) : Field := ⟨0x00630100 + 4*i, 31, 0⟩
def EMIT_CUR_CODE0 (i : Nat) (j : Nat) : Field := ⟨0x00631000 + 128*i + 4*j, 11, 0⟩
def EMIT_CUR_CODE1 (i : Nat) (j : Nat) : Field := ⟨0x00631000 + 128*i + 4*j, 27, 16⟩
def EMIT_MSET_VALUE (i : Nat) (j : Nat) : Field := ⟨0x00633000 + 0x100*i + 4*j, 23, 0⟩
def EMIT_LSUP_CTL_EN : Field := ⟨0x00640000, 0, 0⟩
def EMIT_LSUP_CTL_TRK : Field := ⟨0x00640000, 1, 1⟩
def EMIT_LSUP_CTL_FSW : Field := ⟨0x00640000, 3, 2⟩
def EMIT_LSUP_CTL_QEN : Field := ⟨0x00640000, 4, 4⟩
def EMIT_LSUP_VLIM_VMIN : Field := ⟨0x00640004, 12, 0⟩
def EMIT_LSUP_VLIM_VMAX : Field := ⟨0x00640004, 28, 16⟩
def EMIT_LSUP_HDRM_TGT : Field := ⟨0x00640008, 8, 0⟩
def EMIT_LSUP_HDRM_VSTEP : Field := ⟨0x00640008, 23, 16⟩
def EMIT_LSUP_HDRM_KH : Field := ⟨0x00640008, 31, 24⟩
def EMIT_LSUP_QUIET_QMAX : Field := ⟨0x0064000C, 7, 0⟩
def EMIT_LSUP_QUIET_DROOP : Field := ⟨0x0064000C, 15, 8⟩
def EMIT_LSUP_ILIM_IPK : Field := ⟨0x00640010, 9, 0⟩
def EMIT_LSUP_STAT_VREF : Field := ⟨0x00640014, 12, 0⟩
def EMIT_LSUP_STAT_VOUT : Field := ⟨0x00640014, 28, 16⟩
def EMIT_LSUP_STAT_HCOLL : Field := ⟨0x00640014, 29, 29⟩
def EMIT_LSUP_STAT_OV : Field := ⟨0x00640014, 30, 30⟩
def EMIT_LSUP_STAT_RUN : Field := ⟨0x00640014, 31, 31⟩
def EMIT_LSUP_HMIN_HMIN : Field := ⟨0x00640018, 8, 0⟩
def EMIT_LSUP_HMIN_NODATA : Field := ⟨0x00640018, 16, 16⟩
def EMIT_LSUP_QBRK_COUNT : Field := ⟨0x0064001C, 31, 0⟩
def LNK_LANE_CTL_RX_EN (l : Nat) : Field := ⟨0x00810000 + 0x200000*(l/32) + 0x400*(l%32), 0, 0⟩
def LNK_LANE_CTL_TX_EN (l : Nat) : Field := ⟨0x00810000 + 0x200000*(l/32) + 0x400*(l%32), 1, 1⟩
def LNK_LANE_CTL_LOOP (l : Nat) : Field := ⟨0x00810000 + 0x200000*(l/32) + 0x400*(l%32), 3, 2⟩
def LNK_LANE_CTL_PRBS (l : Nat) : Field := ⟨0x00810000 + 0x200000*(l/32) + 0x400*(l%32), 5, 4⟩
def LNK_LANE_CTL_RX_POL (l : Nat) : Field := ⟨0x00810000 + 0x200000*(l/32) + 0x400*(l%32), 6, 6⟩
def LNK_LANE_CTL_TX_POL (l : Nat) : Field := ⟨0x00810000 + 0x200000*(l/32) + 0x400*(l%32), 7, 7⟩
def LNK_LANE_CTL_FREEZE (l : Nat) : Field := ⟨0x00810000 + 0x200000*(l/32) + 0x400*(l%32), 8, 8⟩
def LNK_LANE_CTL_RETRAIN (l : Nat) : Field := ⟨0x00810000 + 0x200000*(l/32) + 0x400*(l%32), 9, 9⟩
def LNK_LANE_STAT_STATE (l : Nat) : Field := ⟨0x00810004 + 0x200000*(l/32) + 0x400*(l%32), 2, 0⟩
def LNK_LANE_STAT_GEN (l : Nat) : Field := ⟨0x00810004 + 0x200000*(l/32) + 0x400*(l%32), 5, 4⟩
def LNK_LANE_STAT_TX_IDLE (l : Nat) : Field := ⟨0x00810004 + 0x200000*(l/32) + 0x400*(l%32), 6, 6⟩
def LNK_LANE_STAT_FROZEN (l : Nat) : Field := ⟨0x00810004 + 0x200000*(l/32) + 0x400*(l%32), 7, 7⟩
def LNK_LANE_STAT_FREQ_ERR (l : Nat) : Field := ⟨0x00810004 + 0x200000*(l/32) + 0x400*(l%32), 8, 8⟩
def LNK_LANE_STAT_LOCK_LOST (l : Nat) : Field := ⟨0x00810004 + 0x200000*(l/32) + 0x400*(l%32), 16, 16⟩
def LNK_LANE_STAT_WAKE_FAIL (l : Nat) : Field := ⟨0x00810004 + 0x200000*(l/32) + 0x400*(l%32), 17, 17⟩
def LNK_LANE_STAT_SQ_UNANN (l : Nat) : Field := ⟨0x00810004 + 0x200000*(l/32) + 0x400*(l%32), 18, 18⟩
def LNK_LANE_STAT_FREQ_SEEN (l : Nat) : Field := ⟨0x00810004 + 0x200000*(l/32) + 0x400*(l%32), 19, 19⟩
def LNK_LANE_STAT_LANE_FAIL (l : Nat) : Field := ⟨0x00810004 + 0x200000*(l/32) + 0x400*(l%32), 20, 20⟩
def LNK_LANE_STAT_RETRIES (l : Nat) : Field := ⟨0x00810004 + 0x200000*(l/32) + 0x400*(l%32), 25, 24⟩
def LNK_LANE_CDR_KP (l : Nat) : Field := ⟨0x00810008 + 0x200000*(l/32) + 0x400*(l%32), 2, 0⟩
def LNK_LANE_CDR_KI (l : Nat) : Field := ⟨0x00810008 + 0x200000*(l/32) + 0x400*(l%32), 6, 4⟩
def LNK_LANE_CDR_FOFS (l : Nat) : Field := ⟨0x00810008 + 0x200000*(l/32) + 0x400*(l%32), 31, 14⟩
def LNK_LANE_EQ_CTL_CTLE_START (l : Nat) : Field := ⟨0x0081000C + 0x200000*(l/32) + 0x400*(l%32), 3, 0⟩
def LNK_LANE_EQ_CTL_MU (l : Nat) : Field := ⟨0x0081000C + 0x200000*(l/32) + 0x400*(l%32), 7, 4⟩
def LNK_LANE_EQ_CTL_DFE_EN (l : Nat) : Field := ⟨0x0081000C + 0x200000*(l/32) + 0x400*(l%32), 8, 8⟩
def LNK_LANE_EQ_CTL_CTLE_AD (l : Nat) : Field := ⟨0x0081000C + 0x200000*(l/32) + 0x400*(l%32), 9, 9⟩
def LNK_LANE_EQ_VAL_CTLE (l : Nat) : Field := ⟨0x00810010 + 0x200000*(l/32) + 0x400*(l%32), 3, 0⟩
def LNK_LANE_EQ_VAL_DFE1 (l : Nat) : Field := ⟨0x00810010 + 0x200000*(l/32) + 0x400*(l%32), 13, 8⟩
def LNK_LANE_EQ_VAL_DFE2 (l : Nat) : Field := ⟨0x00810010 + 0x200000*(l/32) + 0x400*(l%32), 21, 16⟩
def LNK_LANE_EQ_VAL_DFE3 (l : Nat) : Field := ⟨0x00810010 + 0x200000*(l/32) + 0x400*(l%32), 29, 24⟩
def LNK_LANE_EQ_VAL2_DFE4 (l : Nat) : Field := ⟨0x00810014 + 0x200000*(l/32) + 0x400*(l%32), 5, 0⟩
def LNK_LANE_EQ_VAL2_DFE5 (l : Nat) : Field := ⟨0x00810014 + 0x200000*(l/32) + 0x400*(l%32), 13, 8⟩
def LNK_LANE_TXFIR_PRE (l : Nat) : Field := ⟨0x00810018 + 0x200000*(l/32) + 0x400*(l%32), 3, 0⟩
def LNK_LANE_TXFIR_MAIN (l : Nat) : Field := ⟨0x00810018 + 0x200000*(l/32) + 0x400*(l%32), 13, 8⟩
def LNK_LANE_TXFIR_POST (l : Nat) : Field := ⟨0x00810018 + 0x200000*(l/32) + 0x400*(l%32), 20, 16⟩
def LNK_LANE_ES_CTL_GO (l : Nat) : Field := ⟨0x00810020 + 0x200000*(l/32) + 0x400*(l%32), 0, 0⟩
def LNK_LANE_ES_CTL_PHASE (l : Nat) : Field := ⟨0x00810020 + 0x200000*(l/32) + 0x400*(l%32), 13, 8⟩
def LNK_LANE_ES_CTL_VOLT (l : Nat) : Field := ⟨0x00810020 + 0x200000*(l/32) + 0x400*(l%32), 21, 16⟩
def LNK_LANE_ES_CTL_DWELL (l : Nat) : Field := ⟨0x00810020 + 0x200000*(l/32) + 0x400*(l%32), 29, 24⟩
def LNK_LANE_ES_STAT_BUSY (l : Nat) : Field := ⟨0x00810024 + 0x200000*(l/32) + 0x400*(l%32), 0, 0⟩
def LNK_LANE_ES_STAT_DONE (l : Nat) : Field := ⟨0x00810024 + 0x200000*(l/32) + 0x400*(l%32), 1, 1⟩
def LNK_LANE_ES_STAT_ABORT (l : Nat) : Field := ⟨0x00810024 + 0x200000*(l/32) + 0x400*(l%32), 2, 2⟩
def LNK_LANE_ES_ERRS_ERRS (l : Nat) : Field := ⟨0x00810028 + 0x200000*(l/32) + 0x400*(l%32), 31, 0⟩
def LNK_LANE_BLK_ERR_COUNT (l : Nat) : Field := ⟨0x00810030 + 0x200000*(l/32) + 0x400*(l%32), 31, 0⟩
def LNK_LANE_UNLOCK_BLK_COUNT (l : Nat) : Field := ⟨0x00810034 + 0x200000*(l/32) + 0x400*(l%32), 31, 0⟩
def LNK_LANE_LOCK_LOSS_COUNT (l : Nat) : Field := ⟨0x00810038 + 0x200000*(l/32) + 0x400*(l%32), 15, 0⟩
def LNK_LANE_WAKES_COUNT (l : Nat) : Field := ⟨0x0081003C + 0x200000*(l/32) + 0x400*(l%32), 31, 0⟩
def LNK_LANE_PRBS_ERR_COUNT (l : Nat) : Field := ⟨0x00810040 + 0x200000*(l/32) + 0x400*(l%32), 31, 0⟩
def LNK_LANE_RXBLK_LO_LO (l : Nat) : Field := ⟨0x00810044 + 0x200000*(l/32) + 0x400*(l%32), 31, 0⟩
def LNK_LANE_RXBLK_SNAP_LO_LO (l : Nat) : Field := ⟨0x008100F0 + 0x200000*(l/32) + 0x400*(l%32), 31, 0⟩
def LNK_LANE_RXBLK_SNAP_HI_HI (l : Nat) : Field := ⟨0x008100F4 + 0x200000*(l/32) + 0x400*(l%32), 31, 0⟩
def LNK_LPLL_STAT_LOCK_A (i : Nat) : Field := ⟨0x00820000 + 0x00200000*i, 0, 0⟩
def LNK_LPLL_STAT_LOCK_B (i : Nat) : Field := ⟨0x00820000 + 0x00200000*i, 1, 1⟩
def LNK_LPLL_STAT_UNLOCK (i : Nat) : Field := ⟨0x00820000 + 0x00200000*i, 8, 8⟩
def LNK_TILE_CTL_EN (t : Nat) : Field := ⟨0x00830000 + 0x200000*(t/8) + 0x100*(t%8), 0, 0⟩
def LNK_TILE_CTL_GENMAX (t : Nat) : Field := ⟨0x00830000 + 0x200000*(t/8) + 0x100*(t%8), 2, 1⟩
def LNK_TILE_CTL_AMB_EN (t : Nat) : Field := ⟨0x00830000 + 0x200000*(t/8) + 0x100*(t%8), 3, 3⟩
def LNK_TILE_CTL_ZOOM_EN (t : Nat) : Field := ⟨0x00830000 + 0x200000*(t/8) + 0x100*(t%8), 4, 4⟩
def LNK_TILE_CTL_TAG_EN (t : Nat) : Field := ⟨0x00830000 + 0x200000*(t/8) + 0x100*(t%8), 5, 5⟩
def LNK_TILE_CTL_LATE (t : Nat) : Field := ⟨0x00830000 + 0x200000*(t/8) + 0x100*(t%8), 11, 8⟩
def LNK_TILE_CTL_RELINK (t : Nat) : Field := ⟨0x00830000 + 0x200000*(t/8) + 0x100*(t%8), 16, 16⟩
def LNK_TILE_STAT_STATE (t : Nat) : Field := ⟨0x00830004 + 0x200000*(t/8) + 0x100*(t%8), 2, 0⟩
def LNK_TILE_STAT_GEN (t : Nat) : Field := ⟨0x00830004 + 0x200000*(t/8) + 0x100*(t%8), 5, 4⟩
def LNK_TILE_STAT_UP_ACTIVE (t : Nat) : Field := ⟨0x00830004 + 0x200000*(t/8) + 0x100*(t%8), 11, 8⟩
def LNK_TILE_STAT_DN_ACTIVE (t : Nat) : Field := ⟨0x00830004 + 0x200000*(t/8) + 0x100*(t%8), 15, 12⟩
def LNK_TILE_STAT_PHASE_OK (t : Nat) : Field := ⟨0x00830004 + 0x200000*(t/8) + 0x100*(t%8), 16, 16⟩
def LNK_TILE_STAT_PHASE_STALE (t : Nat) : Field := ⟨0x00830004 + 0x200000*(t/8) + 0x100*(t%8), 17, 17⟩
def LNK_TILE_STAT_GEN_FALLBACK (t : Nat) : Field := ⟨0x00830004 + 0x200000*(t/8) + 0x100*(t%8), 18, 18⟩
def LNK_TILE_STAT_TILE_FAIL (t : Nat) : Field := ⟨0x00830004 + 0x200000*(t/8) + 0x100*(t%8), 19, 19⟩
def LNK_TILE_STAT_UNGATED (t : Nat) : Field := ⟨0x00830004 + 0x200000*(t/8) + 0x100*(t%8), 20, 20⟩
def LNK_TILE_STAT_SLOT_GAP (t : Nat) : Field := ⟨0x00830004 + 0x200000*(t/8) + 0x100*(t%8), 21, 21⟩
def LNK_TILE_CAPS_LO_CAPS (t : Nat) : Field := ⟨0x00830008 + 0x200000*(t/8) + 0x100*(t%8), 31, 0⟩
def LNK_TILE_CAPS_HI_CAPS (t : Nat) : Field := ⟨0x0083000C + 0x200000*(t/8) + 0x100*(t%8), 31, 0⟩
def LNK_TILE_STATUS_LO_STATUS (t : Nat) : Field := ⟨0x00830010 + 0x200000*(t/8) + 0x100*(t%8), 31, 0⟩
def LNK_TILE_STATUS_HI_STATUS (t : Nat) : Field := ⟨0x00830014 + 0x200000*(t/8) + 0x100*(t%8), 31, 0⟩
def LNK_TILE_ASYM_ASYM (t : Nat) : Field := ⟨0x00830018 + 0x200000*(t/8) + 0x100*(t%8), 15, 0⟩
def LNK_TILE_OFSJ_OFSJ (t : Nat) : Field := ⟨0x0083001C + 0x200000*(t/8) + 0x100*(t%8), 15, 0⟩
def LNK_TILE_REGCMD_ADDR (t : Nat) : Field := ⟨0x00830020 + 0x200000*(t/8) + 0x100*(t%8), 15, 0⟩
def LNK_TILE_REGCMD_WR (t : Nat) : Field := ⟨0x00830020 + 0x200000*(t/8) + 0x100*(t%8), 16, 16⟩
def LNK_TILE_REGCMD_GO (t : Nat) : Field := ⟨0x00830020 + 0x200000*(t/8) + 0x100*(t%8), 17, 17⟩
def LNK_TILE_REGCMD_BUSY (t : Nat) : Field := ⟨0x00830020 + 0x200000*(t/8) + 0x100*(t%8), 18, 18⟩
def LNK_TILE_REGCMD_DONE (t : Nat) : Field := ⟨0x00830020 + 0x200000*(t/8) + 0x100*(t%8), 19, 19⟩
def LNK_TILE_REGCMD_RSTAT (t : Nat) : Field := ⟨0x00830020 + 0x200000*(t/8) + 0x100*(t%8), 27, 20⟩
def LNK_TILE_REGDATA_DATA (t : Nat) : Field := ⟨0x00830024 + 0x200000*(t/8) + 0x100*(t%8), 31, 0⟩
def LNK_TILE_PHMEAS_GOOD (t : Nat) : Field := ⟨0x00830028 + 0x200000*(t/8) + 0x100*(t%8), 4, 0⟩
def LNK_TILE_PHMEAS_MSEQ (t : Nat) : Field := ⟨0x00830028 + 0x200000*(t/8) + 0x100*(t%8), 15, 8⟩
def LNK_TILE_PHMEAS_SPREAD (t : Nat) : Field := ⟨0x00830028 + 0x200000*(t/8) + 0x100*(t%8), 31, 16⟩
def LNK_TILE_SLEEP_ALLOW (t : Nat) : Field := ⟨0x0083002C + 0x200000*(t/8) + 0x100*(t%8), 3, 0⟩
def LNK_TILE_AMB_AMB_HI (t : Nat) : Field := ⟨0x00830030 + 0x200000*(t/8) + 0x100*(t%8), 15, 0⟩
def LNK_TILE_AMB_AMB_LO (t : Nat) : Field := ⟨0x00830030 + 0x200000*(t/8) + 0x100*(t%8), 31, 16⟩
def LNK_TILE_AMB2_DMAX (t : Nat) : Field := ⟨0x00830034 + 0x200000*(t/8) + 0x100*(t%8), 3, 0⟩
def LNK_TILE_DEPTH_DEPTH (t : Nat) (k : Nat) : Field := ⟨0x00830040 + 0x200000*(t/8) + 0x100*(t%8) + 4*k, 31, 0⟩
def LNK_TILE_OFS_SNAP_LO_LO (t : Nat) : Field := ⟨0x008300F0 + 0x200000*(t/8) + 0x100*(t%8), 31, 0⟩
def LNK_TILE_OFS_SNAP_HI_HI (t : Nat) : Field := ⟨0x008300F4 + 0x200000*(t/8) + 0x100*(t%8), 31, 0⟩
def LNK_ROWMAP_ROW (i : Nat) (j : Nat) : Field := ⟨0x00840000 + 0x00200000*i + 4*j, 9, 0⟩
def HST_CTL_HMAX (i : Nat) : Field := ⟨0x01010000 + 0x00200000*i, 3, 0⟩
def HST_CTL_AUTOSWAP (i : Nat) : Field := ⟨0x01010000 + 0x00200000*i, 8, 8⟩
def HST_CTL_ZEN (i : Nat) : Field := ⟨0x01010000 + 0x00200000*i, 9, 9⟩
def HST_CTL_DRAIN (i : Nat) : Field := ⟨0x01010000 + 0x00200000*i, 19, 16⟩
def HST_STAT_SPARES (i : Nat) : Field := ⟨0x01010004 + 0x00200000*i, 3, 0⟩
def HST_STAT_OVERRUN (i : Nat) : Field := ⟨0x01010004 + 0x00200000*i, 8, 8⟩
def HST_STAT_UE (i : Nat) : Field := ⟨0x01010004 + 0x00200000*i, 9, 9⟩
def HST_STAT_NOSPARE (i : Nat) : Field := ⟨0x01010004 + 0x00200000*i, 10, 10⟩
def HST_STAT_ZNOROOM (i : Nat) : Field := ⟨0x01010004 + 0x00200000*i, 11, 11⟩
def HST_SWAP_LAST_SEQ (i : Nat) : Field := ⟨0x01010008 + 0x00200000*i, 31, 0⟩
def HST_ZOOM_STAT_ARMED (i : Nat) : Field := ⟨0x0101000C + 0x00200000*i, 9, 0⟩
def HST_SPARE_CMD_CHAN (i : Nat) : Field := ⟨0x01010010 + 0x00200000*i, 7, 0⟩
def HST_SPARE_CMD_GO (i : Nat) : Field := ⟨0x01010010 + 0x00200000*i, 16, 16⟩
def HST_CHAN_DLY (c : Nat) : Field := ⟨0x01020000 + 0x200000*(c/256) + 4*(c%256), 19, 0⟩
def HST_CHAN_MOD (c : Nat) : Field := ⟨0x01020000 + 0x200000*(c/256) + 4*(c%256), 27, 24⟩
def HST_STALL_CHAN (i : Nat) (j : Nat) : Field := ⟨0x01030000 + 0x00200000*i + 4*j, 7, 0⟩
def HST_STALL_ACTIVE (i : Nat) (j : Nat) : Field := ⟨0x01030000 + 0x00200000*i + 4*j, 8, 8⟩
def HST_STALL_RETIRED (i : Nat) (j : Nat) : Field := ⟨0x01030000 + 0x00200000*i + 4*j, 9, 9⟩
def HST_STALL_SATSEEN (i : Nat) (j : Nat) : Field := ⟨0x01030000 + 0x00200000*i + 4*j, 10, 10⟩
def HST_STALL_CE (i : Nat) (j : Nat) : Field := ⟨0x01030000 + 0x00200000*i + 4*j, 23, 16⟩
def HST_STALL_UES (i : Nat) (j : Nat) : Field := ⟨0x01030000 + 0x00200000*i + 4*j, 27, 24⟩
def HST_STALL_SPARE_CHAN (i : Nat) (j : Nat) : Field := ⟨0x01030400 + 0x00200000*i + 4*j, 7, 0⟩
def HST_STALL_SPARE_ACTIVE (i : Nat) (j : Nat) : Field := ⟨0x01030400 + 0x00200000*i + 4*j, 8, 8⟩
def HST_STALL_SPARE_RETIRED (i : Nat) (j : Nat) : Field := ⟨0x01030400 + 0x00200000*i + 4*j, 9, 9⟩
def HST_STALL_SPARE_SATSEEN (i : Nat) (j : Nat) : Field := ⟨0x01030400 + 0x00200000*i + 4*j, 10, 10⟩
def HST_STALL_SPARE_CE (i : Nat) (j : Nat) : Field := ⟨0x01030400 + 0x00200000*i + 4*j, 23, 16⟩
def HST_STALL_SPARE_UES (i : Nat) (j : Nat) : Field := ⟨0x01030400 + 0x00200000*i + 4*j, 27, 24⟩
def HST_FLT_CTL_LIVE (i : Nat) : Field := ⟨0x01040000 + 0x00200000*i, 0, 0⟩
def HST_FLT_STAT_ENG_OK (i : Nat) : Field := ⟨0x01040004 + 0x00200000*i, 8, 0⟩
def HST_FLT_STAT_REPL (i : Nat) : Field := ⟨0x01040004 + 0x00200000*i, 15, 12⟩
def HST_FLT_STAT_RESTART (i : Nat) : Field := ⟨0x01040004 + 0x00200000*i, 16, 16⟩
def HST_FLT_STAT_SUBST (i : Nat) : Field := ⟨0x01040004 + 0x00200000*i, 17, 17⟩
def HST_FLT_STAT_NOSPARE (i : Nat) : Field := ⟨0x01040004 + 0x00200000*i, 18, 18⟩
def HST_FLT_STAT_PAL_BUSY (i : Nat) : Field := ⟨0x01040004 + 0x00200000*i, 25, 24⟩
def HST_FLT_STAT_PEND (i : Nat) : Field := ⟨0x01040004 + 0x00200000*i, 26, 26⟩
def HST_KSEL_KMAIN (i : Nat) : Field := ⟨0x01040008 + 0x00200000*i, 17, 0⟩
def HST_KSEL_KZOOM (i : Nat) : Field := ⟨0x01040008 + 0x00200000*i, 29, 18⟩
def HST_BG_TRLO (i : Nat) : Field := ⟨0x0104000C + 0x00200000*i, 3, 0⟩
def HST_BG_TRHI (i : Nat) : Field := ⟨0x0104000C + 0x00200000*i, 7, 4⟩
def HST_BG_BGMIN (i : Nat) : Field := ⟨0x0104000C + 0x00200000*i, 23, 8⟩
def HST_DET_MAXE (i : Nat) : Field := ⟨0x01040010 + 0x00200000*i, 3, 0⟩
def HST_NAIR_NEXC (i : Nat) : Field := ⟨0x01040014 + 0x00200000*i, 19, 0⟩
def HST_KHDR_L (i : Nat) (j : Nat) (k : Nat) : Field := ⟨0x01050000 + 0x00200000*i + 0x1000*j + 0x100*k, 6, 0⟩
def HST_KHDR_OSH (i : Nat) (j : Nat) (k : Nat) : Field := ⟨0x01050000 + 0x00200000*i + 0x1000*j + 0x100*k, 12, 8⟩
def HST_KEDGE_KEDGE (i : Nat) (j : Nat) (k : Nat) : Field := ⟨0x01050004 + 0x00200000*i + 0x1000*j + 0x100*k, 15, 0⟩
def HST_KSUM_KSUM (i : Nat) (j : Nat) (k : Nat) : Field := ⟨0x01050008 + 0x00200000*i + 0x1000*j + 0x100*k, 23, 0⟩
def HST_KSQ_KSQ (i : Nat) (j : Nat) (k : Nat) : Field := ⟨0x0105000C + 0x00200000*i + 0x1000*j + 0x100*k, 31, 0⟩
def HST_KCOEF_H (i : Nat) (j : Nat) (k : Nat) (m : Nat) : Field := ⟨0x01050080 + 0x00200000*i + 0x1000*j + 0x100*k + 4*m, 17, 0⟩
def OUTP_CLS_WREF_WREF (i : Nat) : Field := ⟨0x01810000 + 4*i, 7, 0⟩
def OUTP_CLS_CTL_WPART : Field := ⟨0x01810040, 7, 0⟩
def OUTP_CLS_CTL_WDIFF : Field := ⟨0x01810040, 15, 8⟩
def OUTP_CLS_CTL_CCRMIN : Field := ⟨0x01810040, 23, 16⟩
def OUTP_CLS_CTL_PRAIN : Field := ⟨0x01810040, 26, 24⟩
def OUTP_CLS_CTL_GCH : Field := ⟨0x01810040, 30, 28⟩
def OUTP_CLS_RANGE_WINR : Field := ⟨0x01810044, 15, 0⟩
def OUTP_CLS_RANGE_RAINR : Field := ⟨0x01810044, 31, 16⟩
def OUTP_CLS_PERS_PTOL : Field := ⟨0x01810048, 15, 0⟩
def OUTP_CLS_PERS_PGAP : Field := ⟨0x01810048, 31, 16⟩
def OUTP_CLS_RETRO_RETRO : Field := ⟨0x0181004C, 15, 0⟩
def OUTP_CLS_RETRO_GFRAC : Field := ⟨0x0181004C, 23, 16⟩
def OUTP_CLS_RETRO_EDGESEP : Field := ⟨0x0181004C, 31, 24⟩
def OUTP_LO_BG_BGLIM : Field := ⟨0x01810050, 23, 0⟩
def OUTP_REJ_MASK : Field := ⟨0x01820000, 7, 0⟩
def OUTP_REJ_UNSET : Field := ⟨0x01820000, 8, 8⟩
def OUTP_REJ_LOWC : Field := ⟨0x01820000, 9, 9⟩
def OUTP_STAT_LINE_DROP : Field := ⟨0x01820004, 0, 0⟩
def OUTP_STAT_HEX_DROP : Field := ⟨0x01820004, 1, 1⟩
def OUTP_STAT_SPLIT : Field := ⟨0x01820004, 2, 2⟩
def OUTP_LAST_LINE_SEQ : Field := ⟨0x01820008, 31, 0⟩
def OUTP_HEX_CTL_EN (i : Nat) : Field := ⟨0x01830000 + 16*i, 0, 0⟩
def OUTP_HEX_CTL_KIND (i : Nat) : Field := ⟨0x01830000 + 16*i, 1, 1⟩
def OUTP_HEX_CTL_EVERY (i : Nat) : Field := ⟨0x01830000 + 16*i, 15, 8⟩
def OUTP_HEX_CTL_DESC (i : Nat) : Field := ⟨0x01830000 + 16*i, 25, 16⟩
def OUTP_HEX_CTL_DANY (i : Nat) : Field := ⟨0x01830000 + 16*i, 26, 26⟩
def OUTP_HEX_CH_CH_LO (i : Nat) : Field := ⟨0x01830004 + 16*i, 9, 0⟩
def OUTP_HEX_CH_CH_HI (i : Nat) : Field := ⟨0x01830004 + 16*i, 25, 16⟩
def OUTP_HEX_BIN_BIN_LO (i : Nat) : Field := ⟨0x01830008 + 16*i, 11, 0⟩
def OUTP_HEX_BIN_BIN_HI (i : Nat) : Field := ⟨0x01830008 + 16*i, 27, 16⟩
def HOST_LINK_STAT_SPEED : Field := ⟨0x01A10000, 2, 0⟩
def HOST_LINK_STAT_WIDTH : Field := ⟨0x01A10000, 7, 4⟩
def HOST_LINK_STAT_FLIT : Field := ⟨0x01A10000, 8, 8⟩
def HOST_LINK_STAT_DL_UP : Field := ⟨0x01A10000, 9, 9⟩
def HOST_LINK_DOWNS_COUNT : Field := ⟨0x01A10004, 31, 0⟩
def HOST_LINK_RECOV_COUNT : Field := ⟨0x01A10008, 31, 0⟩
def HOST_PRING_MAP_RING : Field := ⟨0x01A10010, 23, 0⟩
def HOST_EXP_BW_RATE : Field := ⟨0x01A10014, 7, 0⟩
def HOST_EXP_STAT_FILL : Field := ⟨0x01A10018, 21, 0⟩
def HOST_IRQ_CAUSE_LO_CAUSE : Field := ⟨0x01A10020, 31, 0⟩
def HOST_IRQ_CAUSE_HI_CAUSE : Field := ⟨0x01A10024, 31, 0⟩
def HOST_IRQ_MAP_0_VEC (i : Nat) : Field := ⟨0x01A10100 + 4*i, 7, 0⟩
def HOST_IRQ_MAP_0_FUNC (i : Nat) : Field := ⟨0x01A10100 + 4*i, 8, 8⟩
def HOST_IRQ_MAP_0_EN (i : Nat) : Field := ⟨0x01A10100 + 4*i, 9, 9⟩
def HOST_IRQ_MAP_14_VEC (i : Nat) : Field := ⟨0x01A10138 + 4*i, 7, 0⟩
def HOST_IRQ_MAP_14_FUNC (i : Nat) : Field := ⟨0x01A10138 + 4*i, 8, 8⟩
def HOST_IRQ_MAP_14_EN (i : Nat) : Field := ⟨0x01A10138 + 4*i, 9, 9⟩
def HOST_IRQ_MAP_16_VEC (i : Nat) : Field := ⟨0x01A10140 + 4*i, 7, 0⟩
def HOST_IRQ_MAP_16_FUNC (i : Nat) : Field := ⟨0x01A10140 + 4*i, 8, 8⟩
def HOST_IRQ_MAP_16_EN (i : Nat) : Field := ⟨0x01A10140 + 4*i, 9, 9⟩
def HOST_IRQ_MAP_35_VEC (i : Nat) : Field := ⟨0x01A1018C + 4*i, 7, 0⟩
def HOST_IRQ_MAP_35_FUNC (i : Nat) : Field := ⟨0x01A1018C + 4*i, 8, 8⟩
def HOST_IRQ_MAP_35_EN (i : Nat) : Field := ⟨0x01A1018C + 4*i, 9, 9⟩
def HOST_IRQ_MAP_40_VEC (i : Nat) : Field := ⟨0x01A101A0 + 4*i, 7, 0⟩
def HOST_IRQ_MAP_40_FUNC (i : Nat) : Field := ⟨0x01A101A0 + 4*i, 8, 8⟩
def HOST_IRQ_MAP_40_EN (i : Nat) : Field := ⟨0x01A101A0 + 4*i, 9, 9⟩
def HOST_IRQ_MAP_48_VEC (i : Nat) : Field := ⟨0x01A101C0 + 4*i, 7, 0⟩
def HOST_IRQ_MAP_48_FUNC (i : Nat) : Field := ⟨0x01A101C0 + 4*i, 8, 8⟩
def HOST_IRQ_MAP_48_EN (i : Nat) : Field := ⟨0x01A101C0 + 4*i, 9, 9⟩
def HOST_IRQ_MAP_51_VEC (i : Nat) : Field := ⟨0x01A101CC + 4*i, 7, 0⟩
def HOST_IRQ_MAP_51_FUNC (i : Nat) : Field := ⟨0x01A101CC + 4*i, 8, 8⟩
def HOST_IRQ_MAP_51_EN (i : Nat) : Field := ⟨0x01A101CC + 4*i, 9, 9⟩
def HOST_IRQ_MAP_52_VEC (i : Nat) : Field := ⟨0x01A101D0 + 4*i, 7, 0⟩
def HOST_IRQ_MAP_52_FUNC (i : Nat) : Field := ⟨0x01A101D0 + 4*i, 8, 8⟩
def HOST_IRQ_MAP_52_EN (i : Nat) : Field := ⟨0x01A101D0 + 4*i, 9, 9⟩
def HOST_RING_CTL_EN (i : Nat) : Field := ⟨0x01A20000 + 0x100*i, 0, 0⟩
def HOST_RING_CTL_RESUME (i : Nat) : Field := ⟨0x01A20000 + 0x100*i, 1, 1⟩
def HOST_RING_CTL_DSZ (i : Nat) : Field := ⟨0x01A20000 + 0x100*i, 7, 4⟩
def HOST_RING_CTL_IDLE (i : Nat) : Field := ⟨0x01A20000 + 0x100*i, 31, 16⟩
def HOST_RING_BASE_LO_BASE (i : Nat) : Field := ⟨0x01A20004 + 0x100*i, 31, 6⟩
def HOST_RING_BASE_HI_BASE (i : Nat) : Field := ⟨0x01A20008 + 0x100*i, 31, 0⟩
def HOST_RING_WB_LO_WB (i : Nat) : Field := ⟨0x01A2000C + 0x100*i, 31, 4⟩
def HOST_RING_WB_HI_WB (i : Nat) : Field := ⟨0x01A20010 + 0x100*i, 31, 0⟩
def HOST_RING_POST_POST (i : Nat) : Field := ⟨0x01A20014 + 0x100*i, 31, 0⟩
def HOST_RING_DONE_DONE (i : Nat) : Field := ⟨0x01A20018 + 0x100*i, 31, 0⟩
def HOST_RING_UNIT_UNIT (i : Nat) : Field := ⟨0x01A2001C + 0x100*i, 31, 0⟩
def HOST_RING_COAL_N (i : Nat) : Field := ⟨0x01A20020 + 0x100*i, 7, 0⟩
def HOST_RING_COAL_T (i : Nat) : Field := ⟨0x01A20020 + 0x100*i, 31, 16⟩
def HOST_RING_STAT_STATE (i : Nat) : Field := ⟨0x01A20024 + 0x100*i, 1, 0⟩
def HOST_RING_STAT_CAUSE (i : Nat) : Field := ⟨0x01A20024 + 0x100*i, 7, 4⟩
def HOST_RING_STAT_RING_ERR (i : Nat) : Field := ⟨0x01A20024 + 0x100*i, 8, 8⟩
def HOST_RING_STAT_BIG (i : Nat) : Field := ⟨0x01A20024 + 0x100*i, 9, 9⟩
def HOST_RING_STAT_FETCHED (i : Nat) : Field := ⟨0x01A20024 + 0x100*i, 31, 16⟩
def MEMC_MEM_CTL_RATE : Field := ⟨0x01C10000, 5, 0⟩
def MEMC_MEM_CTL_RETRAIN : Field := ⟨0x01C10000, 8, 8⟩
def MEMC_MEM_STAT_DENS : Field := ⟨0x01C10004, 1, 0⟩
def MEMC_MEM_STAT_TRAINED : Field := ⟨0x01C10004, 4, 4⟩
def MEMC_MEM_STAT_INIT_DONE : Field := ⟨0x01C10004, 5, 5⟩
def MEMC_MEM_STAT_OFFLINE : Field := ⟨0x01C10004, 6, 6⟩
def MEMC_MEM_STAT_CH_RETRAIN : Field := ⟨0x01C10004, 11, 8⟩
def MEMC_SCRUB_PERIOD : Field := ⟨0x01C10008, 15, 0⟩
def MEMC_MEM_CE_COUNT : Field := ⟨0x01C10010, 31, 0⟩
def MEMC_MEM_UE_COUNT : Field := ⟨0x01C10014, 31, 0⟩
def MEMC_BW_WRR_MGMT : Field := ⟨0x01C20000, 7, 0⟩
def MEMC_BW_WRR_CAPX : Field := ⟨0x01C20000, 15, 8⟩
def MEMC_BW_WRR_SCRUB : Field := ⟨0x01C20000, 23, 16⟩
def MEMC_CAP_SRC_STREAM : Field := ⟨0x01C30000, 2, 0⟩
def MEMC_CAP_SRC_TAP : Field := ⟨0x01C30000, 3, 3⟩
def MEMC_CAP_SRC_TILE : Field := ⟨0x01C30000, 8, 4⟩
def MEMC_CAP_SRC_SECT : Field := ⟨0x01C30000, 13, 9⟩
def MEMC_CAP_SRC_LANE : Field := ⟨0x01C30000, 20, 14⟩
def MEMC_CAP_MASK_MASK : Field := ⟨0x01C30004, 31, 0⟩
def MEMC_CAP_BUF_MIB : Field := ⟨0x01C30008, 10, 0⟩
def MEMC_CAP_BUF_NSEG : Field := ⟨0x01C30008, 21, 16⟩
def MEMC_CAP_BUF_RED : Field := ⟨0x01C30008, 28, 24⟩
def MEMC_CAP_PTC_PTC : Field := ⟨0x01C3000C, 31, 0⟩
def MEMC_CAP_CTL_CHUNK : Field := ⟨0x01C30010, 3, 0⟩
def MEMC_CAP_CTL_CEN : Field := ⟨0x01C30010, 13, 8⟩
def MEMC_CAP_CMD_ARM : Field := ⟨0x01C30014, 0, 0⟩
def MEMC_CAP_CMD_ABORT : Field := ⟨0x01C30014, 1, 1⟩
def MEMC_CAP_CMD_TRIG : Field := ⟨0x01C30014, 2, 2⟩
def MEMC_CAP_STAT_STATE : Field := ⟨0x01C30018, 2, 0⟩
def MEMC_CAP_STAT_REFUSE : Field := ⟨0x01C30018, 7, 4⟩
def MEMC_CAP_STAT_PTC_CLAMP : Field := ⟨0x01C30018, 8, 8⟩
def MEMC_CAP_STAT_ABORT_LATE : Field := ⟨0x01C30018, 9, 9⟩
def MEMC_CAP_STAT_GAP : Field := ⟨0x01C30018, 10, 10⟩
def MEMC_CAP_STAT_TRIG_CAUSE : Field := ⟨0x01C30018, 21, 16⟩
def MEMC_CAP_STAT_PRIMARY : Field := ⟨0x01C30018, 26, 24⟩
def MEMC_CAP_STAT_QUEUED : Field := ⟨0x01C30018, 31, 27⟩
def MEMC_CAP_TRIG_MISSED_COUNT : Field := ⟨0x01C3001C, 31, 0⟩
def MEMC_CAP_SEQ_CAPSEQ : Field := ⟨0x01C30020, 31, 0⟩
def MEMC_CAP_COND_KIND (i : Nat) : Field := ⟨0x01C30040 + 16*i, 1, 0⟩
def MEMC_CAP_COND_SLOPE (i : Nat) : Field := ⟨0x01C30040 + 16*i, 3, 2⟩
def MEMC_CAP_COND_DIR (i : Nat) : Field := ⟨0x01C30040 + 16*i, 4, 4⟩
def MEMC_CAP_COND_SEL (i : Nat) : Field := ⟨0x01C30040 + 16*i, 15, 8⟩
def MEMC_CAP_LVL_LVL (i : Nat) : Field := ⟨0x01C30044 + 16*i, 31, 0⟩
def MEMC_CAP_HI_HI (i : Nat) : Field := ⟨0x01C30048 + 16*i, 31, 0⟩
def MEMC_CAP_PAT_PAT (i : Nat) : Field := ⟨0x01C3004C + 16*i, 31, 0⟩
def MEMC_STK_CTL_EN : Field := ⟨0x01C40000, 0, 0⟩
def MEMC_STK_CTL_DDEF : Field := ⟨0x01C40000, 7, 4⟩
def MEMC_STK_CTL_MAXGAP : Field := ⟨0x01C40000, 15, 8⟩
def MEMC_STK_CTL_NSLOT : Field := ⟨0x01C40000, 26, 16⟩
def MEMC_STK_LEVER_RX : Field := ⟨0x01C40004, 15, 0⟩
def MEMC_STK_LEVER_RY : Field := ⟨0x01C40004, 31, 16⟩
def MEMC_STK_MAXAGE_MS : Field := ⟨0x01C40008, 15, 0⟩
def MEMC_STK_VX_V : Field := ⟨0x01C40010, 31, 0⟩
def MEMC_STK_VY_V : Field := ⟨0x01C40014, 31, 0⟩
def MEMC_STK_VZ_V : Field := ⟨0x01C40018, 31, 0⟩
def MEMC_STK_YAW_W : Field := ⟨0x01C4001C, 31, 0⟩
def MEMC_STK_PUB_GO : Field := ⟨0x01C40020, 0, 0⟩
def MEMC_STK_PUB_SEQ : Field := ⟨0x01C40020, 31, 16⟩
def MEMC_STK_MOT_TICK_LO_LO : Field := ⟨0x01C40024, 31, 0⟩
def MEMC_STK_MOT_TICK_HI_HI : Field := ⟨0x01C40028, 31, 0⟩
def MEMC_STK_STAT_NOMOTION : Field := ⟨0x01C40030, 0, 0⟩
def MEMC_STK_STAT_SKIP : Field := ⟨0x01C40030, 1, 1⟩
def MEMC_STK_STAT_BUSY : Field := ⟨0x01C40030, 2, 2⟩
def MEMC_STK_AZ_AZ (i : Nat) : Field := ⟨0x01C41000 + 4*i, 15, 0⟩
def MEMC_STK_EL_EL (i : Nat) : Field := ⟨0x01C42000 + 4*i, 15, 0⟩
def MEMC_SYNC_CTL_ROLE : Field := ⟨0x01C50000, 1, 0⟩
def MEMC_SYNC_CTL_ARMIN : Field := ⟨0x01C50000, 2, 2⟩
def MEMC_SYNC_CTL_FEN : Field := ⟨0x01C50000, 3, 3⟩
def MEMC_SYNC_CTL_TEN : Field := ⟨0x01C50000, 4, 4⟩
def MEMC_SYNC_CTL_MENG : Field := ⟨0x01C50000, 10, 8⟩
def MEMC_SYNC_CTL_FSIG : Field := ⟨0x01C50000, 15, 12⟩
def MEMC_SYNC_CTL_FWORD : Field := ⟨0x01C50000, 24, 16⟩
def MEMC_SYNC_DLY_ARM_DLY : Field := ⟨0x01C50004, 15, 0⟩
def MEMC_SYNC_DLY_TRIG_DLY : Field := ⟨0x01C50004, 31, 16⟩
def MEMC_SYNC_CMD_ARM : Field := ⟨0x01C50008, 0, 0⟩
def MEMC_SYNC_CMD_DISARM : Field := ⟨0x01C50008, 1, 1⟩
def MEMC_SYNC_STAT_PULSE_BAD : Field := ⟨0x01C5000C, 0, 0⟩
def MEMC_SYNC_STAT_SEND_PEND : Field := ⟨0x01C5000C, 1, 1⟩
def MONI_IN_CTL_EN (i : Nat) : Field := ⟨0x01E10000 + 32*i, 0, 0⟩
def MONI_IN_CTL_RF (i : Nat) : Field := ⟨0x01E10000 + 32*i, 3, 1⟩
def MONI_IN_CTL_SLOW_EN (i : Nat) : Field := ⟨0x01E10000 + 32*i, 4, 4⟩
def MONI_IN_CTL_SLOPE (i : Nat) : Field := ⟨0x01E10000 + 32*i, 9, 8⟩
def MONI_IN_CTL_HYST (i : Nat) : Field := ⟨0x01E10000 + 32*i, 12, 10⟩
def MONI_IN_CTL_THR (i : Nat) : Field := ⟨0x01E10000 + 32*i, 25, 16⟩
def MONI_IN_LAST_VALUE (i : Nat) : Field := ⟨0x01E10004 + 32*i, 23, 0⟩
def MONI_IN_LAST_UNSET (i : Nat) : Field := ⟨0x01E10004 + 32*i, 24, 24⟩
def MONI_IN_LAST_OVR (i : Nat) : Field := ⟨0x01E10004 + 32*i, 25, 25⟩
def MONI_IN_LAST_CNT (i : Nat) : Field := ⟨0x01E10004 + 32*i, 31, 26⟩
def MONI_IN_STAT_SETTLING (i : Nat) : Field := ⟨0x01E10008 + 32*i, 0, 0⟩
def MONI_IN_STAT_OVR_SEEN (i : Nat) : Field := ⟨0x01E10008 + 32*i, 1, 1⟩
def MONI_IN_STAT_XINGS (i : Nat) : Field := ⟨0x01E10008 + 32*i, 31, 16⟩
def MONI_SNS_CTL_EN (i : Nat) : Field := ⟨0x01E20000 + 32*i, 0, 0⟩
def MONI_SNS_CTL_PIN (i : Nat) : Field := ⟨0x01E20000 + 32*i, 4, 1⟩
def MONI_SNS_CTL_REF (i : Nat) : Field := ⟨0x01E20000 + 32*i, 9, 5⟩
def MONI_SNS_CTL_GAIN (i : Nat) : Field := ⟨0x01E20000 + 32*i, 10, 10⟩
def MONI_SNS_LAST_VALUE (i : Nat) : Field := ⟨0x01E20004 + 32*i, 23, 0⟩
def MONI_SNS_LAST_UNSET (i : Nat) : Field := ⟨0x01E20004 + 32*i, 24, 24⟩
def MONI_SNS_LAST_OVR (i : Nat) : Field := ⟨0x01E20004 + 32*i, 25, 25⟩
def MONI_SNS_LAST_OPEN (i : Nat) : Field := ⟨0x01E20004 + 32*i, 26, 26⟩
def MONI_SNS_LAST_CNT (i : Nat) : Field := ⟨0x01E20004 + 32*i, 31, 27⟩
def MONI_SYNC_MASK : Field := ⟨0x01E20100, 19, 0⟩
def MONI_SYNC_GO : Field := ⟨0x01E20100, 20, 20⟩
def MONI_SETTLE_TSETTLE : Field := ⟨0x01E20104, 15, 0⟩
def MONI_XS_SRC_EN (i : Nat) : Field := ⟨0x01E30000 + 4*i, 0, 0⟩
def MONI_XS_SRC_PIN (i : Nat) : Field := ⟨0x01E30000 + 4*i, 4, 1⟩
def MONI_XS_PAIR_I (i : Nat) : Field := ⟨0x01E30020 + 4*i, 1, 0⟩
def MONI_XS_STAT_COMPL : Field := ⟨0x01E30040, 7, 0⟩
def MONI_XS_STAT_OPEN_SEEN : Field := ⟨0x01E30040, 15, 8⟩
def MONI_HK_CTL_MODE : Field := ⟨0x01E40000, 1, 0⟩
def MONI_HK_CTL_PERIOD : Field := ⟨0x01E40000, 31, 16⟩
def MONI_HK_EN_EN : Field := ⟨0x01E40004, 31, 0⟩
def MONI_HK_CMD_GO : Field := ⟨0x01E40008, 0, 0⟩
def MONI_HK_STAT_ACT_A : Field := ⟨0x01E4000C, 1, 0⟩
def MONI_HK_STAT_ACT_B : Field := ⟨0x01E4000C, 3, 2⟩
def MONI_HK_STAT_CAL : Field := ⟨0x01E4000C, 5, 4⟩
def MONI_HK_STAT_RUNNING : Field := ⟨0x01E4000C, 6, 6⟩
def MONI_HK_STAT_SLICE_FAIL : Field := ⟨0x01E4000C, 7, 7⟩
def MONI_HK_STAT_SEQ : Field := ⟨0x01E4000C, 31, 16⟩
def MONI_HK_ROT_ROT : Field := ⟨0x01E40010, 15, 0⟩
def MONI_HK_ALARM_ALARM : Field := ⟨0x01E40014, 31, 0⟩
def MONI_HK_MUX_XS : Field := ⟨0x01E40018, 15, 0⟩
def MONI_HK_MUX_MON : Field := ⟨0x01E40018, 31, 16⟩
def MONI_HK_REQ_INPUT (i : Nat) : Field := ⟨0x01E40020 + 8*i, 5, 0⟩
def MONI_HK_REQ_URGENT (i : Nat) : Field := ⟨0x01E40020 + 8*i, 8, 8⟩
def MONI_HK_REQ_GO (i : Nat) : Field := ⟨0x01E40020 + 8*i, 9, 9⟩
def MONI_HK_REQ_BUSY (i : Nat) : Field := ⟨0x01E40020 + 8*i, 10, 10⟩
def MONI_HK_REQ_DONE (i : Nat) : Field := ⟨0x01E40020 + 8*i, 11, 11⟩
def MONI_HK_REQ_RES_RESULT (i : Nat) : Field := ⟨0x01E40024 + 8*i, 11, 0⟩
def MONI_HK_REQ_RES_OPEN (i : Nat) : Field := ⟨0x01E40024 + 8*i, 12, 12⟩
def MONI_HK_REQ_RES_SLICE (i : Nat) : Field := ⟨0x01E40024 + 8*i, 14, 13⟩
def MONI_HK_ENT_INPUT (i : Nat) : Field := ⟨0x01E40100 + 8*i, 5, 0⟩
def MONI_HK_ENT_AVG (i : Nat) : Field := ⟨0x01E40100 + 8*i, 10, 8⟩
def MONI_HK_ENT_ALEN (i : Nat) : Field := ⟨0x01E40100 + 8*i, 12, 12⟩
def MONI_HK_LIM_LO (i : Nat) : Field := ⟨0x01E40104 + 8*i, 11, 0⟩
def MONI_HK_LIM_HI (i : Nat) : Field := ⟨0x01E40104 + 8*i, 27, 16⟩
def MONI_HK_RES_RESULT (i : Nat) : Field := ⟨0x01E40200 + 4*i, 11, 0⟩
def MONI_HK_RES_OPEN (i : Nat) : Field := ⟨0x01E40200 + 4*i, 12, 12⟩
def MONI_HK_RES_SLICE (i : Nat) : Field := ⟨0x01E40200 + 4*i, 14, 13⟩
def MONI_HK_RES_VALID (i : Nat) : Field := ⟨0x01E40200 + 4*i, 15, 15⟩
def MONI_HK_RES_SEQ (i : Nat) : Field := ⟨0x01E40200 + 4*i, 31, 16⟩
def MGMT_LOG_HEAD_RSEQ : Field := ⟨0x02010000, 31, 0⟩
def MGMT_LOG_ACK_RSEQ : Field := ⟨0x02010004, 31, 0⟩
def MGMT_LOG_LOST_COUNT : Field := ⟨0x02010008, 31, 0⟩
def MGMT_LOG_CTL_COPYLVL : Field := ⟨0x0201000C, 2, 0⟩
def MGMT_LOG_CTL_ILVL : Field := ⟨0x0201000C, 6, 4⟩
def MGMT_LOG_CTL_MERGE : Field := ⟨0x0201000C, 8, 8⟩
def MGMT_FW_STAT_SLOT : Field := ⟨0x02010010, 0, 0⟩
def MGMT_FW_STAT_TRIAL : Field := ⟨0x02010010, 1, 1⟩
def MGMT_FW_STAT_VERIFIED : Field := ⟨0x02010010, 2, 2⟩
def MGMT_FW_STAT_LEFT : Field := ⟨0x02010010, 15, 8⟩
def MGMT_BG_STAT_SCRUB_STARVED : Field := ⟨0x02010014, 0, 0⟩
def MGMT_BG_STAT_CAL_STARVED : Field := ⟨0x02010014, 1, 1⟩
def MGMT_BG_STAT_CAL_DEFERRED : Field := ⟨0x02010014, 2, 2⟩
def MGMT_BG_STAT_PENDING : Field := ⟨0x02010014, 12, 8⟩
def MGMT_BG_STAT_REQ : Field := ⟨0x02010014, 20, 16⟩
def SECU_LC_STATE : Field := ⟨0x02210000, 2, 0⟩
def SECU_LC_ZEROISED : Field := ⟨0x02210000, 8, 8⟩
def SECU_LC_OWNER_SET : Field := ⟨0x02210000, 9, 9⟩
def SECU_DBG_LEVEL : Field := ⟨0x02210004, 1, 0⟩
def SECU_DBG_SIGNER : Field := ⟨0x02210004, 4, 4⟩
def SECU_DBG_LEFT : Field := ⟨0x02210004, 31, 16⟩
def SECU_BOOT_SLOT : Field := ⟨0x02210008, 0, 0⟩
def SECU_BOOT_TRIAL : Field := ⟨0x02210008, 1, 1⟩
def SECU_BOOT_FALLBACK : Field := ⟨0x02210008, 2, 2⟩
def SECU_BOOT_SVN_FUSE : Field := ⟨0x02210008, 25, 16⟩
def SECU_LMS_Q_Q : Field := ⟨0x0221000C, 19, 0⟩
def SECU_LMS_Q_REGEN : Field := ⟨0x0221000C, 24, 24⟩
def SECU_LMS_Q_LMS_STATE : Field := ⟨0x0221000C, 25, 25⟩
def SECU_LMS_TOP_TOPQ : Field := ⟨0x02210010, 19, 0⟩
def SECU_SIGS_COUNT : Field := ⟨0x02210014, 31, 0⟩
def SAFE_STAT_STATE : Field := ⟨0x02410000, 2, 0⟩
def SAFE_STAT_A_STATE : Field := ⟨0x02410000, 6, 4⟩
def SAFE_STAT_B_STATE : Field := ⟨0x02410000, 10, 8⟩
def SAFE_STAT_HS_EN : Field := ⟨0x02410000, 12, 12⟩
def SAFE_STAT_LS_EN : Field := ⟨0x02410000, 13, 13⟩
def SAFE_STAT_HS_FB : Field := ⟨0x02410000, 14, 14⟩
def SAFE_STAT_LS_FB : Field := ⟨0x02410000, 15, 15⟩
def SAFE_STAT_VSNS : Field := ⟨0x02410000, 16, 16⟩
def SAFE_STAT_FAULT : Field := ⟨0x02410000, 17, 17⟩
def SAFE_STAT_ZSET : Field := ⟨0x02410000, 19, 18⟩
def SAFE_STAT_ZALARM : Field := ⟨0x02410000, 27, 20⟩
def SAFE_CAUSE_CAUSE : Field := ⟨0x02410004, 11, 0⟩
def SAFE_NOW_NOW : Field := ⟨0x02410008, 11, 0⟩
def SAFE_FIRST_BIT : Field := ⟨0x0241000C, 3, 0⟩
def SAFE_ENTRIES_COUNT : Field := ⟨0x02410010, 31, 0⟩
def SAFE_RST_STAT_EARLY : Field := ⟨0x02410014, 0, 0⟩
def SAFE_RST_STAT_LOW : Field := ⟨0x02410014, 1, 1⟩
def SAFE_RST_STAT_IGNORED : Field := ⟨0x02410014, 31, 16⟩
def SAFE_WDOG_SERVICE : Field := ⟨0x02410018, 0, 0⟩
def SAFE_MSG_CNT0_ACCEPTED : Field := ⟨0x02430000, 15, 0⟩
def SAFE_MSG_CNT0_UNPAIRED : Field := ⟨0x02430000, 31, 16⟩
def SAFE_MSG_CNT1_CRC_A : Field := ⟨0x02430004, 7, 0⟩
def SAFE_MSG_CNT1_CRC_B : Field := ⟨0x02430004, 15, 8⟩
def SAFE_MSG_CNT1_STALE : Field := ⟨0x02430004, 23, 16⟩
def SAFE_MSG_CNT1_BADTYPE : Field := ⟨0x02430004, 31, 24⟩
def SAFE_MSG_SEQ_SEQ : Field := ⟨0x02430008, 31, 0⟩
def SAFE_CAN_STAT_TEC : Field := ⟨0x02430010, 7, 0⟩
def SAFE_CAN_STAT_REC : Field := ⟨0x02430010, 15, 8⟩
def SAFE_CAN_STAT_BUSOFF : Field := ⟨0x02430010, 16, 16⟩
def SAFE_CAN_STAT_BUSOFFS : Field := ⟨0x02430010, 31, 24⟩
def SAFE_PROF_VER_VER : Field := ⟨0x02440000, 31, 0⟩
def SAFE_PROF_T_TMSG : Field := ⟨0x02440004, 8, 0⟩
def SAFE_PROF_T_WDOG : Field := ⟨0x02440004, 15, 10⟩
def SAFE_PROF_T_TSTAT : Field := ⟨0x02440004, 22, 16⟩
def SAFE_PROF_T_VSNS_ON : Field := ⟨0x02440004, 31, 24⟩
def SAFE_PROF_SRC_SRC (i : Nat) : Field := ⟨0x02440008 + 4*i, 15, 0⟩
def SAFE_ZONE_SMASK (i : Nat) (j : Nat) : Field := ⟨0x02450000 + 0x100*i + 16*j, 31, 0⟩
def SAFE_ZONE_D_DLO (i : Nat) (j : Nat) : Field := ⟨0x02450004 + 0x100*i + 16*j, 9, 0⟩
def SAFE_ZONE_D_DHI (i : Nat) (j : Nat) : Field := ⟨0x02450004 + 0x100*i + 16*j, 25, 16⟩
def SAFE_ZONE_R_RMAX (i : Nat) (j : Nat) : Field := ⟨0x02450008 + 0x100*i + 16*j, 27, 0⟩
def SAFE_ZONE_N_NHIT (i : Nat) (j : Nat) : Field := ⟨0x0245000C + 0x100*i + 16*j, 7, 0⟩
def HOST_DB_POST_POST (i : Nat) : Field := ⟨0x04010000 + 0x1000*i, 31, 0⟩
def HOST_DB_FLUSH_FLUSH (i : Nat) : Field := ⟨0x04010004 + 0x1000*i, 0, 0⟩
def PF0_MSIX_TABLE_WORD (i : Nat) (j : Nat) : Field := ⟨0x04080000 + 16*i + 4*j, 31, 0⟩
def PF0_MSIX_CTRL_MASK (i : Nat) : Field := ⟨0x0408000C + 16*i, 0, 0⟩
def PF0_PBA_PEND (i : Nat) : Field := ⟨0x04081000 + 4*i, 31, 0⟩
def MBX_CTL_GO : Field := ⟨0x05000000, 0, 0⟩
def MBX_CTL_ABORT : Field := ⟨0x05000000, 1, 1⟩
def MBX_STAT_BUSY : Field := ⟨0x05000004, 0, 0⟩
def MBX_STAT_DONE : Field := ⟨0x05000004, 1, 1⟩
def MBX_STAT_OVERRUN : Field := ⟨0x05000004, 2, 2⟩
def MBX_REQ_WORD (i : Nat) : Field := ⟨0x05001000 + 4*i, 31, 0⟩
def MBX_RSP_WORD (i : Nat) : Field := ⟨0x05003000 + 4*i, 31, 0⟩
def SM_RX_WORD (i : Nat) : Field := ⟨0x05008000 + 4*i, 31, 0⟩
def SM_RX_CTL_GO : Field := ⟨0x05008020, 0, 0⟩
def SM_RX_STAT_BUSY : Field := ⟨0x05008024, 0, 0⟩
def SM_RX_STAT_DROP : Field := ⟨0x05008024, 1, 1⟩
def SM_TX_WORD (i : Nat) : Field := ⟨0x05008040 + 4*i, 31, 0⟩
def SM_TX_CTL_POP : Field := ⟨0x05008060, 0, 0⟩
def SM_TX_STAT_COUNT : Field := ⟨0x05008064, 2, 0⟩
def SM_TX_STAT_LOST : Field := ⟨0x05008064, 8, 8⟩
def PF1_MSIX_TABLE_WORD (i : Nat) (j : Nat) : Field := ⟨0x0500C000 + 16*i + 4*j, 31, 0⟩
def PF1_MSIX_CTRL_MASK (i : Nat) : Field := ⟨0x0500C00C + 16*i, 0, 0⟩
def PF1_PBA_PEND (i : Nat) : Field := ⟨0x0500D000 + 4*i, 31, 0⟩

/-! Configuration space: bit fields that the model names; `b`: PF1's. -/
def cfgBase (b : Bool) : Nat := if b then 0x06010000 else 0x06000000
def CFG_CMD_BME (b : Bool) : Field := ⟨cfgBase b + 0x04, 2, 2⟩
def CFG_STATUS_RTA (b : Bool) : Field := ⟨cfgBase b + 0x04, 28, 28⟩
def CFG_STATUS_RMA (b : Bool) : Field := ⟨cfgBase b + 0x04, 29, 29⟩
def CFG_PM_STATE (b : Bool) : Field := ⟨cfgBase b + 0x44, 1, 0⟩
def CFG_DEV_NFE (b : Bool) : Field := ⟨cfgBase b + 0x78, 1, 1⟩
def CFG_DEV_FE (b : Bool) : Field := ⟨cfgBase b + 0x78, 2, 2⟩
def CFG_DEV_ERO (b : Bool) : Field := ⟨cfgBase b + 0x78, 4, 4⟩
def CFG_DEV_MPS (b : Bool) : Field := ⟨cfgBase b + 0x78, 7, 5⟩
def CFG_DEV_FLR (b : Bool) : Field := ⟨cfgBase b + 0x78, 15, 15⟩
def CFG_DEV_NFED (b : Bool) : Field := ⟨cfgBase b + 0x78, 17, 17⟩
def CFG_DEV_FED (b : Bool) : Field := ⟨cfgBase b + 0x78, 18, 18⟩
def CFG_DEV2_CTODIS (b : Bool) : Field := ⟨cfgBase b + 0x98, 4, 4⟩
def CFG_MSIX_FMASK (b : Bool) : Field := ⟨cfgBase b + 0xB0, 30, 30⟩
def CFG_MSIX_EN (b : Bool) : Field := ⟨cfgBase b + 0xB0, 31, 31⟩
def CFG_AER_UNC (b : Bool) (n : Nat) : Field := ⟨cfgBase b + 0x104, n, n⟩
def CFG_AER_MASK (b : Bool) (n : Nat) : Field := ⟨cfgBase b + 0x108, n, n⟩
def CFG_AER_SEV (b : Bool) (n : Nat) : Field := ⟨cfgBase b + 0x10C, n, n⟩
def CFG_AER_FEP (b : Bool) : Field := ⟨cfgBase b + 0x118, 4, 0⟩
def CFG_AER_HDR (b : Bool) (i : Nat) : Field := ⟨cfgBase b + 0x11C + 4*i, 31, 0⟩
def CFG_PTM_EN : Field := ⟨0x06000168, 0, 0⟩
def CFG_DOE_IEN : Field := ⟨0x06010168, 1, 1⟩
def CFG_DOE_BUSY : Field := ⟨0x0601016C, 0, 0⟩
def CFG_DOE_INT : Field := ⟨0x0601016C, 1, 1⟩
def CFG_DOE_ERROR : Field := ⟨0x0601016C, 2, 2⟩
def CFG_DOE_READY : Field := ⟨0x0601016C, 31, 31⟩

end Sys2Proof.Machine.Fd
end

