-- ==== Sys2Proof/Machine/RegTab.lean ====
section
/-!
DEFINITION. The register tables of the chapters as data: for each register its offset, its array strides, and for each
field its bits, its access type (R34), its reset value and the encodings its table marks reserved (R6).
-/
namespace Sys2Proof.Machine

/-- Register rows, Common: R30, R472, R51. -/
def rowsCommon0 : List RegRow := [  ⟨0x0, [(0x00200000, 19)], [⟨0, 0, .rw, 0, [], none, false⟩, ⟨1, 1, .rw, 0, [], none, false⟩]⟩,
  ⟨0x10, [(0x00200000, 19)], [⟨15, 0, .rw, 0, [], none, false⟩]⟩,
  ⟨0x14, [(0x00200000, 19)], [⟨31, 0, .ro, 0, [], none, false⟩]⟩,
  ⟨0x18, [(0x00200000, 19)], [⟨31, 0, .ro, 0, [], none, false⟩]⟩,
  ⟨0x1C, [(0x00200000, 19)], [⟨0, 0, .ro, 0, [], none, false⟩]⟩,
  ⟨0x20, [(0x00200000, 19)], [⟨0, 0, .w1c, 0, [], none, false⟩, ⟨1, 1, .ro, 0, [], none, false⟩]⟩,
  ⟨0x30, [(0x00200000, 19)], [⟨15, 0, .rw, 0, [], none, false⟩]⟩,
  ⟨0x34, [(0x00200000, 19)], [⟨31, 0, .ro, 0, [], none, false⟩]⟩,
  ⟨0x38, [(0x00200000, 19)], [⟨31, 0, .ro, 0, [], none, false⟩]⟩,
  ⟨0x3C, [(0x00200000, 19)], [⟨0, 0, .ro, 0, [], none, false⟩]⟩,
  ⟨0x100, [(0x00200000, 19)], [⟨7, 0, .rw, 0, [], none, false⟩, ⟨9, 8, .rw, 0, [(3, 3)], none, false⟩]⟩,
  ⟨0x104, [(0x00200000, 19)], [⟨15, 0, .rw, 0, [], none, false⟩, ⟨23, 16, .rw, 0, [], none, false⟩]⟩,
  ⟨0x108, [(0x00200000, 19)], [⟨11, 0, .rw, 0, [], none, false⟩]⟩,
  ⟨0x10C, [(0x00200000, 19)], [⟨11, 0, .rw, 0, [], none, false⟩]⟩,
  ⟨0x110, [(0x00200000, 19)], [⟨31, 0, .rw, 1, [(0, 0)], none, false⟩]⟩,
  ⟨0x000F0000, [(0x00200000, 19), (0x10, 64)], [⟨7, 0, .rw, 0, [], none, false⟩, ⟨17, 8, .rw, 0, [], none, false⟩, ⟨18, 18, .rw, 0, [], none, false⟩, ⟨20, 20, .rw, 0, [], none, false⟩, ⟨21, 21, .rw, 0, [], none, false⟩, ⟨28, 24, .rw, 0, [], none, false⟩]⟩,
  ⟨0x000F0004, [(0x00200000, 19), (0x10, 64)], [⟨31, 0, .cnt, 0, [], none, false⟩]⟩,
  ⟨0x000F0008, [(0x00200000, 19), (0x10, 64)], [⟨31, 0, .ro, 0, [], none, false⟩]⟩,
  ⟨0x000F000C, [(0x00200000, 19), (0x10, 64)], [⟨15, 0, .ro, 0, [], none, false⟩]⟩,
  ⟨0x000F0400, [(0x00200000, 19)], [⟨31, 0, .w1c, 0, [], none, false⟩]⟩]

/-- Register rows, Common: R472. -/
def rowsCommon1 : List RegRow := [  ⟨0x000F0404, [(0x00200000, 19)], [⟨31, 0, .w1c, 0, [], none, false⟩]⟩]

/-- Register rows, Chip: R472, R48, R50. -/
def rowsChip0 : List RegRow := [  ⟨0x40, [], [⟨7, 0, .ro, 177, [], none, false⟩, ⟨15, 8, .ro, 1, [], none, false⟩, ⟨31, 16, .ro, 4132, [], none, false⟩]⟩,
  ⟨0x00010000, [], [⟨0, 0, .w1s, 0, [], none, false⟩]⟩,
  ⟨0x00010004, [], [⟨1, 0, .ro, 0, [], none, false⟩, ⟨2, 2, .ro, 0, [], none, false⟩, ⟨31, 16, .ro, 0, [], none, false⟩]⟩,
  ⟨0x00010008, [], [⟨25, 0, .ro, 0, [], none, false⟩]⟩,
  ⟨0x0001000C, [], [⟨0, 0, .w1s, 0, [], none, false⟩, ⟨1, 1, .w1s, 0, [], none, false⟩, ⟨5, 4, .rw, 0, [], none, false⟩, ⟨10, 8, .rw, 0, [], none, false⟩]⟩,
  ⟨0x00010010, [], [⟨31, 0, .rw, 0, [], none, false⟩]⟩,
  ⟨0x00010014, [], [⟨31, 0, .rw, 0, [], none, false⟩]⟩,
  ⟨0x00010018, [], [⟨2, 0, .ro, 0, [], none, false⟩, ⟨10, 8, .ro, 0, [], none, false⟩, ⟨16, 16, .w1c, 0, [], none, false⟩, ⟨20, 17, .ro, 0, [], none, false⟩, ⟨31, 24, .ro, 0, [], none, false⟩]⟩,
  ⟨0x0001001C, [], [⟨31, 0, .ro, 0, [], none, false⟩]⟩,
  ⟨0x00010020, [], [⟨31, 0, .ro, 0, [], none, false⟩]⟩,
  ⟨0x00010024, [], [⟨31, 0, .ro, 0, [], none, false⟩]⟩,
  ⟨0x00010028, [], [⟨31, 0, .ro, 0, [], none, false⟩]⟩,
  ⟨0x00010040, [], [⟨0, 0, .w1s, 0, [], none, false⟩, ⟨31, 16, .ro, 0, [], none, false⟩]⟩,
  ⟨0x00010044, [], [⟨31, 0, .ro, 0, [], none, false⟩]⟩,
  ⟨0x00010048, [], [⟨31, 0, .ro, 0, [], none, false⟩]⟩,
  ⟨0x00020000, [], [⟨1, 0, .rw, 0, [(3, 3)], none, false⟩, ⟨4, 4, .w1s, 0, [], none, false⟩, ⟨16, 16, .rw, 1, [], none, false⟩, ⟨31, 24, .rw, 100, [], none, false⟩]⟩,
  ⟨0x00020004, [], [⟨1, 0, .ro, 0, [], none, false⟩, ⟨2, 2, .ro, 0, [], none, false⟩, ⟨7, 4, .ro, 0, [], none, false⟩, ⟨9, 8, .ro, 0, [], none, false⟩, ⟨31, 16, .cnt, 0, [], none, false⟩]⟩,
  ⟨0x00020010, [], [⟨1, 0, .rw, 1, [], none, false⟩, ⟨6, 4, .rw, 0, [], none, false⟩, ⟨8, 8, .rw, 1, [], none, false⟩, ⟨23, 16, .rw, 135, [], none, false⟩]⟩,
  ⟨0x00020014, [], [⟨1, 0, .ro, 1, [], none, false⟩, ⟨2, 2, .ro, 0, [], none, false⟩, ⟨3, 3, .w1c, 0, [], none, false⟩, ⟨4, 4, .w1c, 0, [], none, false⟩, ⟨25, 16, .ro, 0, [], none, false⟩]⟩,
  ⟨0x00020020, [], [⟨5, 0, .rw, 0, [(48, 63)], none, false⟩, ⟨7, 7, .rw, 0, [], none, false⟩, ⟨19, 8, .rw, 0, [], none, false⟩]⟩]

/-- Register rows, Chip: R449, R472. -/
def rowsChip1 : List RegRow := [  ⟨0x00020030, [], [⟨0, 0, .ro, 1, [], none, false⟩, ⟨1, 1, .ro, 0, [], none, false⟩, ⟨2, 2, .ro, 0, [], none, false⟩, ⟨3, 3, .ro, 0, [], none, false⟩, ⟨4, 4, .w1c, 0, [], none, false⟩, ⟨6, 5, .ro, 0, [], none, false⟩, ⟨11, 8, .ro, 0, [], none, false⟩, ⟨31, 16, .ro, 0, [], none, false⟩]⟩,
  ⟨0x00020040, [], [⟨31, 0, .ro, 0, [], none, false⟩]⟩,
  ⟨0x00020044, [], [⟨15, 0, .ro, 0, [], none, false⟩]⟩,
  ⟨0x00020050, [], [⟨9, 0, .ro, 0, [], none, false⟩, ⟨31, 16, .ro, 0, [], none, false⟩]⟩,
  ⟨0x00030000, [], [⟨0, 0, .w1c, 0, [], none, false⟩, ⟨12, 8, .ro, 0, [], none, false⟩]⟩,
  ⟨0x00030004, [], [⟨18, 0, .ro, 0, [], none, false⟩]⟩,
  ⟨0x00030008, [], [⟨4, 0, .rw, 0, [], none, false⟩, ⟨8, 8, .w1s, 0, [], none, false⟩]⟩]

/-- Register rows, Tbas: R65, R70, R80. -/
def rowsTbas0 : List RegRow := [  ⟨0x00210000, [], [⟨0, 0, .rw, 1, [], none, false⟩, ⟨3, 1, .rw, 1, [(4, 7)], none, false⟩, ⟨5, 4, .rw, 2, [], none, false⟩, ⟨19, 8, .rw, 3072, [], none, false⟩]⟩,
  ⟨0x00210004, [], [⟨23, 0, .rw, 4194304, [], none, false⟩]⟩,
  ⟨0x00210008, [], [⟨15, 0, .rw, 2048, [], none, false⟩]⟩,
  ⟨0x0021000C, [], [⟨15, 0, .rw, 1024, [], none, false⟩, ⟨31, 16, .rw, 64, [], none, false⟩]⟩,
  ⟨0x00210010, [], [⟨11, 0, .ro, 0, [], none, false⟩, ⟨12, 12, .ro, 0, [], none, false⟩, ⟨13, 13, .w1c, 0, [], none, false⟩, ⟨14, 14, .w1c, 0, [], none, false⟩]⟩,
  ⟨0x00210014, [], [⟨23, 0, .ro, 0, [], none, false⟩]⟩,
  ⟨0x00210018, [], [⟨0, 0, .ro, 1, [], none, false⟩, ⟨1, 1, .ro, 0, [], none, false⟩, ⟨2, 2, .ro, 0, [], none, false⟩, ⟨3, 3, .ro, 1, [], none, false⟩, ⟨4, 4, .ro, 0, [], none, false⟩, ⟨5, 5, .w1c, 0, [], none, false⟩, ⟨6, 6, .w1c, 0, [], none, false⟩, ⟨31, 16, .ro, 0, [], none, false⟩]⟩,
  ⟨0x00220000, [], [⟨31, 0, .ro, 0, [], none, false⟩]⟩,
  ⟨0x00220004, [], [⟨31, 0, .ro, 0, [], none, false⟩]⟩,
  ⟨0x00220008, [], [⟨31, 0, .ro, 0, [], none, false⟩]⟩,
  ⟨0x0022000C, [], [⟨0, 0, .rw, 1, [], none, false⟩, ⟨1, 1, .rw, 1, [], none, false⟩, ⟨17, 8, .rw, 10, [(0, 0), (1001, 1023)], none, false⟩]⟩,
  ⟨0x00220010, [], [⟨0, 0, .ro, 0, [], none, false⟩, ⟨1, 1, .w1c, 0, [], none, false⟩, ⟨31, 16, .cnt, 0, [], none, false⟩]⟩,
  ⟨0x00220014, [], [⟨31, 0, .ro, 0, [], none, false⟩]⟩,
  ⟨0x00220018, [], [⟨31, 0, .ro, 0, [], none, false⟩]⟩,
  ⟨0x00220020, [], [⟨31, 0, .ro, 0, [], none, false⟩]⟩,
  ⟨0x00220024, [], [⟨31, 0, .ro, 0, [], none, false⟩]⟩,
  ⟨0x00220028, [], [⟨31, 0, .ro, 0, [], none, false⟩]⟩,
  ⟨0x0022002C, [], [⟨31, 0, .ro, 0, [], none, false⟩]⟩,
  ⟨0x00220030, [], [⟨31, 0, .ro, 0, [], none, false⟩]⟩,
  ⟨0x00220034, [], [⟨31, 0, .ro, 0, [], none, false⟩]⟩]

/-- Register rows, Tbas: R82. -/
def rowsTbas1 : List RegRow := [  ⟨0x00230000, [], [⟨4, 0, .rw, 10, [(17, 31)], none, false⟩, ⟨8, 8, .w1s, 0, [], none, false⟩]⟩,
  ⟨0x00230004, [], [⟨15, 0, .stg, 0, [], none, false⟩]⟩,
  ⟨0x00230008, [], [⟨7, 0, .stg, 0, [(128, 255)], none, false⟩, ⟨15, 8, .stg, 128, [(129, 255)], some (1, 128), false⟩]⟩,
  ⟨0x00230040, [(0x4, 16)], [⟨15, 0, .stg, 0, [], none, false⟩]⟩,
  ⟨0x00230100, [(0x20, 16)], [⟨17, 0, .ro, 0, [], none, false⟩, ⟨30, 30, .ro, 0, [], none, false⟩, ⟨31, 31, .ro, 0, [], none, false⟩]⟩,
  ⟨0x00230104, [(0x20, 16)], [⟨25, 0, .ro, 0, [], none, false⟩]⟩,
  ⟨0x00230108, [(0x20, 16)], [⟨15, 0, .ro, 0, [], none, false⟩]⟩,
  ⟨0x0023010C, [(0x20, 16)], [⟨17, 0, .ro, 0, [], none, false⟩]⟩,
  ⟨0x00230110, [(0x20, 16)], [⟨17, 0, .ro, 0, [], none, false⟩]⟩,
  ⟨0x00230114, [(0x20, 16)], [⟨15, 0, .ro, 0, [], none, false⟩, ⟨31, 16, .ro, 0, [], none, false⟩]⟩]

/-- Register rows, Scan: R101, R110. -/
def rowsScan0 : List RegRow := [  ⟨0x00400004, [], [⟨15, 0, .ro, 2, [], none, false⟩, ⟨31, 16, .ro, 1, [], none, false⟩]⟩,
  ⟨0x00400008, [], [⟨7, 0, .w1s, 0, [], none, false⟩]⟩,
  ⟨0x0040000C, [], [⟨8, 0, .stg, 256, [], none, false⟩]⟩,
  ⟨0x00400040, [], [⟨31, 0, .ro, 0, [], none, false⟩]⟩,
  ⟨0x00400044, [], [⟨31, 0, .ro, 0, [], none, false⟩]⟩,
  ⟨0x00400048, [], [⟨31, 0, .ro, 4294967295, [], none, false⟩]⟩,
  ⟨0x0040004C, [], [⟨15, 0, .w1s, 0, [], none, false⟩]⟩,
  ⟨0x00400050, [], [⟨15, 0, .w1c, 0, [], none, false⟩]⟩,
  ⟨0x00400060, [(0x4, 8)], [⟨7, 0, .rw, 0, [], none, false⟩]⟩,
  ⟨0x00410000, [(0x00010000, 8)], [⟨0, 0, .w1s, 0, [], none, false⟩, ⟨1, 1, .w1s, 0, [], none, false⟩, ⟨2, 2, .w1s, 0, [], none, false⟩, ⟨3, 3, .w1s, 0, [], none, false⟩, ⟨8, 8, .rw, 0, [], none, false⟩, ⟨16, 16, .rw, 0, [], none, false⟩, ⟨17, 17, .rw, 0, [], none, false⟩]⟩,
  ⟨0x00410004, [(0x00010000, 8)], [⟨1, 0, .ro, 0, [], none, false⟩, ⟨2, 2, .ro, 0, [], none, false⟩, ⟨3, 3, .ro, 0, [], none, false⟩, ⟨4, 4, .ro, 0, [], none, false⟩, ⟨5, 5, .w1c, 0, [], none, false⟩, ⟨6, 6, .w1c, 0, [], none, false⟩, ⟨15, 8, .ro, 0, [], none, false⟩]⟩,
  ⟨0x00410008, [(0x00010000, 8)], [⟨11, 0, .ro, 0, [], none, false⟩, ⟨27, 16, .ro, 0, [], none, false⟩]⟩,
  ⟨0x0041000C, [(0x00010000, 8)], [⟨3, 0, .ro, 0, [], none, false⟩, ⟨7, 4, .ro, 0, [], none, false⟩, ⟨27, 16, .ro, 0, [], none, false⟩]⟩,
  ⟨0x00410010, [(0x00010000, 8)], [⟨31, 0, .ro, 0, [], none, false⟩]⟩,
  ⟨0x00410014, [(0x00010000, 8)], [⟨11, 4, .rw, 255, [], none, false⟩]⟩,
  ⟨0x00410018, [(0x00010000, 8)], [⟨0, 0, .rw, 1, [], none, false⟩, ⟨1, 1, .rw, 1, [], none, false⟩]⟩,
  ⟨0x0041001C, [(0x00010000, 8)], [⟨15, 0, .rw, 1000, [], none, false⟩]⟩,
  ⟨0x00410020, [(0x00010000, 8)], [⟨0, 0, .stg, 0, [], none, false⟩]⟩,
  ⟨0x00410024, [(0x00010000, 8)], [⟨11, 0, .rw, 0, [], none, false⟩, ⟨12, 12, .rw, 0, [], none, false⟩]⟩,
  ⟨0x00410028, [(0x00010000, 8)], [⟨31, 0, .mbx, 0, [], none, false⟩]⟩]

/-- Register rows, Scan: R110, R491, R95, R96, R98. -/
def rowsScan1 : List RegRow := [  ⟨0x0041002C, [(0x00010000, 8)], [⟨13, 2, .rw, 0, [], none, false⟩]⟩,
  ⟨0x00410030, [(0x00010000, 8)], [⟨31, 0, .mbx, 0, [], none, false⟩]⟩,
  ⟨0x00410100, [(0x00010000, 8), (0x4, 32)], [⟨31, 0, .ro, 0, [], none, false⟩]⟩,
  ⟨0x00410180, [(0x00010000, 8), (0x4, 8)], [⟨31, 0, .ro, 0, [], none, false⟩]⟩,
  ⟨0x004101A0, [(0x00010000, 8)], [⟨7, 0, .ro, 1, [], none, false⟩]⟩,
  ⟨0x00490000, [(0x10, 1024)], [⟨5, 0, .stg, 0, [], none, false⟩, ⟨23, 8, .stg, 0, [], none, false⟩, ⟨31, 24, .stg, 0, [(153, 255)], none, false⟩]⟩,
  ⟨0x00490004, [(0x10, 1024)], [⟨7, 0, .stg, 10, [(0, 1), (201, 255)], none, false⟩, ⟨11, 8, .stg, 7, [(0, 2), (9, 15)], none, false⟩, ⟨15, 12, .stg, 0, [], none, false⟩, ⟨31, 16, .stg, 0, [], none, false⟩]⟩,
  ⟨0x00490008, [(0x10, 1024)], [⟨7, 0, .stg, 0, [], none, false⟩, ⟨13, 8, .stg, 0, [], none, false⟩, ⟨23, 16, .stg, 0, [], none, false⟩, ⟨24, 24, .stg, 0, [], none, false⟩, ⟨25, 25, .stg, 0, [], none, false⟩, ⟨26, 26, .stg, 0, [], none, false⟩]⟩,
  ⟨0x0049000C, [(0x10, 1024)], [⟨5, 0, .stg, 0, [], none, false⟩]⟩,
  ⟨0x004A0000, [(0x100, 256)], [⟨5, 0, .stg, 0, [], none, false⟩]⟩,
  ⟨0x004A0004, [(0x100, 256), (0x4, 63)], [⟨23, 0, .stg, 0, [], none, false⟩]⟩,
  ⟨0x004B0000, [(0x200, 64), (0x10, 32)], [⟨31, 0, .ro, 0, [], none, false⟩]⟩,
  ⟨0x004B0004, [(0x200, 64), (0x10, 32)], [⟨27, 0, .ro, 0, [], none, false⟩, ⟨28, 28, .ro, 0, [], none, false⟩, ⟨29, 29, .ro, 0, [], none, false⟩, ⟨30, 30, .ro, 0, [], none, false⟩, ⟨31, 31, .ro, 0, [], none, false⟩]⟩,
  ⟨0x004B0008, [(0x200, 64), (0x10, 32)], [⟨8, 0, .ro, 0, [], none, false⟩, ⟨23, 16, .ro, 0, [], none, false⟩]⟩,
  ⟨0x004B000C, [(0x200, 64), (0x10, 32)], [⟨9, 0, .ro, 0, [], none, false⟩, ⟨31, 16, .ro, 0, [], none, false⟩]⟩,
  ⟨0x004C0000, [], [⟨9, 0, .ro, 0, [], none, false⟩, ⟨24, 16, .ro, 0, [], none, false⟩]⟩,
  ⟨0x004D0000, [], [⟨5, 0, .stg, 24, [], none, false⟩]⟩,
  ⟨0x004D0004, [], [⟨5, 0, .stg, 27, [], none, false⟩]⟩,
  ⟨0x004D0008, [], [⟨5, 0, .stg, 30, [], none, false⟩]⟩,
  ⟨0x004D0010, [], [⟨0, 0, .stg, 1, [], none, false⟩]⟩]

/-- Register rows, Scan: R111, R491. -/
def rowsScan2 : List RegRow := [  ⟨0x004D0014, [], [⟨0, 0, .w1c, 0, [], none, false⟩, ⟨1, 1, .w1c, 0, [], none, false⟩, ⟨13, 8, .ro, 0, [], none, false⟩, ⟨17, 16, .ro, 0, [], none, false⟩]⟩,
  ⟨0x004D0018, [], [⟨15, 0, .stg, 0, [], none, false⟩]⟩,
  ⟨0x004D0100, [(0x100, 3), (0x4, 64)], [⟨31, 0, .stg, 0, [], none, false⟩]⟩,
  ⟨0x004D0400, [(0x100, 3), (0x4, 64)], [⟨31, 0, .ro, 0, [], none, false⟩]⟩,
  ⟨0x004D1000, [(0x100, 16), (0x4, 64)], [⟨15, 0, .stg, 0, [], none, false⟩]⟩,
  ⟨0x004D2000, [(0x4, 16)], [⟨15, 0, .stg, 0, [], none, false⟩]⟩,
  ⟨0x004D2040, [(0x4, 16)], [⟨23, 0, .stg, 0, [], none, false⟩]⟩,
  ⟨0x004E0000, [(0x4, 1024)], [⟨31, 0, .rw, 0, [], none, false⟩]⟩]

/-- Register rows, Emit: R491. -/
def rowsEmit0 : List RegRow := [  ⟨0x00610000, [], [⟨15, 0, .stg, 0, [], none, false⟩]⟩,
  ⟨0x00610010, [(0x4, 4)], [⟨31, 0, .stg, 0, [], none, false⟩]⟩,
  ⟨0x00610040, [(0x4, 16)], [⟨7, 0, .stg, 0, [], none, false⟩]⟩,
  ⟨0x00620000, [], [⟨5, 0, .ro, 0, [], none, false⟩, ⟨8, 8, .ro, 0, [], none, false⟩]⟩,
  ⟨0x00620004, [], [⟨0, 0, .rw, 1, [], none, false⟩, ⟨1, 1, .rw, 0, [], none, false⟩]⟩,
  ⟨0x00620008, [], [⟨10, 0, .ro, 0, [], none, false⟩, ⟨16, 16, .w1c, 0, [], none, false⟩]⟩,
  ⟨0x00620100, [(0x8, 16), (0x4, 2)], [⟨31, 0, .w1c, 0, [], none, false⟩]⟩,
  ⟨0x00620200, [(0x8, 16), (0x4, 2)], [⟨31, 0, .w1c, 0, [], none, false⟩]⟩,
  ⟨0x00620300, [(0x8, 16), (0x4, 2)], [⟨31, 0, .ro, 0, [], none, false⟩]⟩,
  ⟨0x00630000, [], [⟨4, 0, .stg, 0, [(17, 31)], none, false⟩, ⟨8, 8, .stg, 0, [], none, false⟩, ⟨9, 9, .stg, 0, [], none, false⟩]⟩,
  ⟨0x00630004, [], [⟨1, 0, .ro, 0, [], none, false⟩, ⟨4, 4, .w1c, 0, [], none, false⟩, ⟨5, 5, .w1c, 0, [], none, false⟩, ⟨31, 16, .cnt, 0, [], none, false⟩]⟩,
  ⟨0x00630008, [], [⟨31, 0, .ro, 4294967295, [], none, false⟩]⟩,
  ⟨0x00630100, [(0x4, 16)], [⟨31, 0, .ro, 0, [], none, false⟩]⟩,
  ⟨0x00631000, [(0x80, 16), (0x4, 32)], [⟨11, 0, .stg, 0, [], none, false⟩, ⟨27, 16, .stg, 0, [], none, false⟩]⟩,
  ⟨0x00633000, [(0x100, 16), (0x4, 64)], [⟨23, 0, .stg, 0, [], none, false⟩]⟩,
  ⟨0x00640000, [], [⟨0, 0, .stg, 0, [], none, false⟩, ⟨1, 1, .stg, 0, [], none, false⟩, ⟨3, 2, .stg, 1, [], none, false⟩, ⟨4, 4, .stg, 1, [], none, false⟩]⟩,
  ⟨0x00640004, [], [⟨12, 0, .stg, 1000, [], none, false⟩, ⟨28, 16, .stg, 6000, [], none, false⟩]⟩,
  ⟨0x00640008, [], [⟨8, 0, .stg, 150, [], none, false⟩, ⟨23, 16, .stg, 50, [], none, false⟩, ⟨31, 24, .stg, 8, [], none, false⟩]⟩,
  ⟨0x0064000C, [], [⟨7, 0, .stg, 12, [], none, false⟩, ⟨15, 8, .stg, 100, [], none, false⟩]⟩,
  ⟨0x00640010, [], [⟨9, 0, .stg, 200, [], none, false⟩]⟩]

/-- Register rows, Emit: R491. -/
def rowsEmit1 : List RegRow := [  ⟨0x00640014, [], [⟨12, 0, .ro, 1000, [], none, false⟩, ⟨28, 16, .ro, 0, [], none, false⟩, ⟨29, 29, .w1c, 0, [], none, false⟩, ⟨30, 30, .w1c, 0, [], none, false⟩, ⟨31, 31, .ro, 0, [], none, false⟩]⟩,
  ⟨0x00640018, [], [⟨8, 0, .ro, 0, [], none, false⟩, ⟨16, 16, .ro, 1, [], none, false⟩]⟩,
  ⟨0x0064001C, [], [⟨31, 0, .cnt, 0, [], none, false⟩]⟩]

/-- Register rows, Lnk: R197, R221. -/
def rowsLnk0 : List RegRow := [  ⟨0x00810000, [(0x00200000, 4), (0x400, 32)], [⟨0, 0, .stg, 0, [], none, false⟩, ⟨1, 1, .stg, 0, [], none, false⟩, ⟨3, 2, .stg, 0, [(3, 3)], none, false⟩, ⟨5, 4, .stg, 0, [(3, 3)], none, false⟩, ⟨6, 6, .stg, 0, [], none, false⟩, ⟨7, 7, .stg, 0, [], none, false⟩, ⟨8, 8, .rw, 0, [], none, false⟩, ⟨9, 9, .w1s, 0, [], none, false⟩]⟩,
  ⟨0x00810004, [(0x00200000, 4), (0x400, 32)], [⟨2, 0, .ro, 0, [], none, false⟩, ⟨5, 4, .ro, 0, [], none, false⟩, ⟨6, 6, .ro, 0, [], none, false⟩, ⟨7, 7, .ro, 0, [], none, false⟩, ⟨8, 8, .ro, 0, [], none, false⟩, ⟨16, 16, .w1c, 0, [], none, false⟩, ⟨17, 17, .w1c, 0, [], none, false⟩, ⟨18, 18, .w1c, 0, [], none, false⟩, ⟨19, 19, .w1c, 0, [], none, false⟩, ⟨20, 20, .w1c, 0, [], none, false⟩, ⟨25, 24, .ro, 0, [], none, false⟩]⟩,
  ⟨0x00810008, [(0x00200000, 4), (0x400, 32)], [⟨2, 0, .stg, 4, [], none, false⟩, ⟨6, 4, .stg, 1, [], none, false⟩, ⟨31, 14, .ro, 0, [], none, false⟩]⟩,
  ⟨0x0081000C, [(0x00200000, 4), (0x400, 32)], [⟨3, 0, .stg, 8, [], none, false⟩, ⟨7, 4, .stg, 4, [], none, false⟩, ⟨8, 8, .stg, 1, [], none, false⟩, ⟨9, 9, .stg, 1, [], none, false⟩]⟩,
  ⟨0x00810010, [(0x00200000, 4), (0x400, 32)], [⟨3, 0, .ro, 8, [], none, false⟩, ⟨13, 8, .ro, 0, [], none, false⟩, ⟨21, 16, .ro, 0, [], none, false⟩, ⟨29, 24, .ro, 0, [], none, false⟩]⟩,
  ⟨0x00810014, [(0x00200000, 4), (0x400, 32)], [⟨5, 0, .ro, 0, [], none, false⟩, ⟨13, 8, .ro, 0, [], none, false⟩]⟩,
  ⟨0x00810018, [(0x00200000, 4), (0x400, 32)], [⟨3, 0, .stg, 0, [], none, false⟩, ⟨13, 8, .stg, 48, [], some (24, 63), false⟩, ⟨20, 16, .stg, 8, [], none, false⟩]⟩,
  ⟨0x00810020, [(0x00200000, 4), (0x400, 32)], [⟨0, 0, .w1s, 0, [], none, false⟩, ⟨13, 8, .rw, 0, [], none, false⟩, ⟨21, 16, .rw, 0, [], none, false⟩, ⟨29, 24, .rw, 30, [(0, 19), (45, 63)], none, false⟩]⟩,
  ⟨0x00810024, [(0x00200000, 4), (0x400, 32)], [⟨0, 0, .ro, 0, [], none, false⟩, ⟨1, 1, .w1c, 0, [], none, false⟩, ⟨2, 2, .w1c, 0, [], none, false⟩]⟩,
  ⟨0x00810028, [(0x00200000, 4), (0x400, 32)], [⟨31, 0, .ro, 0, [], none, false⟩]⟩,
  ⟨0x00810030, [(0x00200000, 4), (0x400, 32)], [⟨31, 0, .cnt, 0, [], none, false⟩]⟩,
  ⟨0x00810034, [(0x00200000, 4), (0x400, 32)], [⟨31, 0, .cnt, 0, [], none, false⟩]⟩,
  ⟨0x00810038, [(0x00200000, 4), (0x400, 32)], [⟨15, 0, .cnt, 0, [], none, false⟩]⟩,
  ⟨0x0081003C, [(0x00200000, 4), (0x400, 32)], [⟨31, 0, .cnt, 0, [], none, false⟩]⟩,
  ⟨0x00810040, [(0x00200000, 4), (0x400, 32)], [⟨31, 0, .cnt, 0, [], none, false⟩]⟩,
  ⟨0x00810044, [(0x00200000, 4), (0x400, 32)], [⟨31, 0, .ro, 0, [], none, false⟩]⟩,
  ⟨0x008100F0, [(0x00200000, 4), (0x400, 32)], [⟨31, 0, .ro, 0, [], none, false⟩]⟩,
  ⟨0x008100F4, [(0x00200000, 4), (0x400, 32)], [⟨31, 0, .ro, 0, [], none, false⟩]⟩,
  ⟨0x00820000, [(0x00200000, 4)], [⟨0, 0, .ro, 0, [], none, false⟩, ⟨1, 1, .ro, 0, [], none, false⟩, ⟨8, 8, .w1c, 0, [], none, false⟩]⟩,
  ⟨0x00830000, [(0x00200000, 4), (0x100, 8)], [⟨0, 0, .stg, 0, [], none, false⟩, ⟨2, 1, .stg, 3, [(0, 0)], none, false⟩, ⟨3, 3, .stg, 0, [], none, false⟩, ⟨4, 4, .stg, 0, [], none, false⟩, ⟨5, 5, .stg, 0, [], none, false⟩, ⟨11, 8, .stg, 4, [], some (1, 15), false⟩, ⟨16, 16, .w1s, 0, [], none, false⟩]⟩]

/-- Register rows, Lnk: R221. -/
def rowsLnk1 : List RegRow := [  ⟨0x00830004, [(0x00200000, 4), (0x100, 8)], [⟨2, 0, .ro, 0, [], none, false⟩, ⟨5, 4, .ro, 0, [], none, false⟩, ⟨11, 8, .ro, 0, [], none, false⟩, ⟨15, 12, .ro, 0, [], none, false⟩, ⟨16, 16, .ro, 0, [], none, false⟩, ⟨17, 17, .w1c, 0, [], none, false⟩, ⟨18, 18, .w1c, 0, [], none, false⟩, ⟨19, 19, .w1c, 0, [], none, false⟩, ⟨20, 20, .w1c, 0, [], none, false⟩, ⟨21, 21, .w1c, 0, [], none, false⟩]⟩,
  ⟨0x00830008, [(0x00200000, 4), (0x100, 8)], [⟨31, 0, .ro, 0, [], none, false⟩]⟩,
  ⟨0x0083000C, [(0x00200000, 4), (0x100, 8)], [⟨31, 0, .ro, 0, [], none, false⟩]⟩,
  ⟨0x00830010, [(0x00200000, 4), (0x100, 8)], [⟨31, 0, .ro, 0, [], none, false⟩]⟩,
  ⟨0x00830014, [(0x00200000, 4), (0x100, 8)], [⟨31, 0, .ro, 0, [], none, false⟩]⟩,
  ⟨0x00830018, [(0x00200000, 4), (0x100, 8)], [⟨15, 0, .stg, 0, [], none, false⟩]⟩,
  ⟨0x0083001C, [(0x00200000, 4), (0x100, 8)], [⟨15, 0, .stg, 32, [], none, false⟩]⟩,
  ⟨0x00830020, [(0x00200000, 4), (0x100, 8)], [⟨15, 0, .rw, 0, [], none, false⟩, ⟨16, 16, .rw, 0, [], none, false⟩, ⟨17, 17, .w1s, 0, [], none, false⟩, ⟨18, 18, .ro, 0, [], none, false⟩, ⟨19, 19, .w1c, 0, [], none, false⟩, ⟨27, 20, .ro, 0, [], none, false⟩]⟩,
  ⟨0x00830024, [(0x00200000, 4), (0x100, 8)], [⟨31, 0, .rw, 0, [], none, false⟩]⟩,
  ⟨0x00830028, [(0x00200000, 4), (0x100, 8)], [⟨4, 0, .ro, 0, [], none, false⟩, ⟨15, 8, .ro, 0, [], none, false⟩, ⟨31, 16, .ro, 0, [], none, false⟩]⟩,
  ⟨0x0083002C, [(0x00200000, 4), (0x100, 8)], [⟨3, 0, .stg, 0, [], none, false⟩]⟩,
  ⟨0x00830030, [(0x00200000, 4), (0x100, 8)], [⟨15, 0, .stg, 65535, [], none, false⟩, ⟨31, 16, .stg, 0, [], none, false⟩]⟩,
  ⟨0x00830034, [(0x00200000, 4), (0x100, 8)], [⟨3, 0, .stg, 8, [], none, false⟩]⟩,
  ⟨0x00830040, [(0x00200000, 4), (0x100, 8), (0x4, 4)], [⟨31, 0, .ro, 0, [], none, false⟩]⟩,
  ⟨0x008300F0, [(0x00200000, 4), (0x100, 8)], [⟨31, 0, .ro, 0, [], none, false⟩]⟩,
  ⟨0x008300F4, [(0x00200000, 4), (0x100, 8)], [⟨31, 0, .ro, 0, [], none, false⟩]⟩,
  ⟨0x00840000, [(0x00200000, 4), (0x4, 1024)], [⟨9, 0, .stg, 0, [], none, false⟩]⟩]

/-- Register rows, Hst: R223, R249, R272. -/
def rowsHst : List RegRow := [  ⟨0x01010000, [(0x00200000, 4)], [⟨3, 0, .stg, 8, [], none, false⟩, ⟨8, 8, .stg, 1, [], none, false⟩, ⟨9, 9, .stg, 1, [], none, false⟩, ⟨19, 16, .stg, 5, [(0, 0)], none, false⟩]⟩,
  ⟨0x01010004, [(0x00200000, 4)], [⟨3, 0, .ro, 8, [], none, false⟩, ⟨8, 8, .w1c, 0, [], none, false⟩, ⟨9, 9, .w1c, 0, [], none, false⟩, ⟨10, 10, .w1c, 0, [], none, false⟩, ⟨11, 11, .w1c, 0, [], none, false⟩]⟩,
  ⟨0x01010008, [(0x00200000, 4)], [⟨31, 0, .ro, 4294967295, [], none, false⟩]⟩,
  ⟨0x0101000C, [(0x00200000, 4)], [⟨9, 0, .ro, 0, [], none, false⟩]⟩,
  ⟨0x01010010, [(0x00200000, 4)], [⟨7, 0, .rw, 0, [], none, false⟩, ⟨16, 16, .w1s, 0, [], none, false⟩]⟩,
  ⟨0x01020000, [(0x00200000, 4), (0x4, 256)], [⟨19, 0, .stg, 0, [], none, false⟩, ⟨27, 24, .stg, 0, [], none, false⟩]⟩,
  ⟨0x01030000, [(0x00200000, 4), (0x4, 256)], [⟨7, 0, .ro, 0, [], none, true⟩, ⟨8, 8, .ro, 1, [], none, false⟩, ⟨9, 9, .ro, 0, [], none, false⟩, ⟨10, 10, .w1c, 0, [], none, false⟩, ⟨23, 16, .ro, 0, [], none, false⟩, ⟨27, 24, .ro, 0, [], none, false⟩]⟩,
  ⟨0x01030400, [(0x00200000, 4), (0x4, 8)], [⟨7, 0, .ro, 0, [], none, false⟩, ⟨8, 8, .ro, 0, [], none, false⟩, ⟨9, 9, .ro, 0, [], none, false⟩, ⟨10, 10, .w1c, 0, [], none, false⟩, ⟨23, 16, .ro, 0, [], none, false⟩, ⟨27, 24, .ro, 0, [], none, false⟩]⟩,
  ⟨0x01040000, [(0x00200000, 4)], [⟨0, 0, .stg, 0, [], none, false⟩]⟩,
  ⟨0x01040004, [(0x00200000, 4)], [⟨8, 0, .ro, 255, [], none, false⟩, ⟨15, 12, .ro, 15, [], none, false⟩, ⟨16, 16, .w1c, 0, [], none, false⟩, ⟨17, 17, .w1c, 0, [], none, false⟩, ⟨18, 18, .w1c, 0, [], none, false⟩, ⟨25, 24, .ro, 0, [], none, false⟩, ⟨26, 26, .ro, 0, [], none, false⟩]⟩,
  ⟨0x01040008, [(0x00200000, 4)], [⟨17, 0, .stg, 0, [], none, false⟩, ⟨29, 18, .stg, 0, [], none, false⟩]⟩,
  ⟨0x0104000C, [(0x00200000, 4)], [⟨3, 0, .stg, 4, [], none, false⟩, ⟨7, 4, .stg, 4, [], none, false⟩, ⟨23, 8, .stg, 64, [], none, false⟩]⟩,
  ⟨0x01040010, [(0x00200000, 4)], [⟨3, 0, .stg, 8, [], some (1, 8), false⟩]⟩,
  ⟨0x01040014, [(0x00200000, 4)], [⟨19, 0, .stg, 27000, [], none, false⟩]⟩,
  ⟨0x01050000, [(0x00200000, 4), (0x1000, 2), (0x100, 8)], [⟨6, 0, .rw, 8, [], none, false⟩, ⟨12, 8, .rw, 0, [], none, false⟩]⟩,
  ⟨0x01050004, [(0x00200000, 4), (0x1000, 2), (0x100, 8)], [⟨15, 0, .rw, 0, [], none, false⟩]⟩,
  ⟨0x01050008, [(0x00200000, 4), (0x1000, 2), (0x100, 8)], [⟨23, 0, .ro, 0, [], none, false⟩]⟩,
  ⟨0x0105000C, [(0x00200000, 4), (0x1000, 2), (0x100, 8)], [⟨31, 0, .ro, 0, [], none, false⟩]⟩,
  ⟨0x01050080, [(0x00200000, 4), (0x1000, 2), (0x100, 8), (0x4, 32)], [⟨17, 0, .rw, 0, [], none, false⟩]⟩]

/-- Register rows, Outp: R290. -/
def rowsOutp : List RegRow := [  ⟨0x01810000, [(0x4, 10)], [⟨7, 0, .stg, 40, [], none, false⟩]⟩,
  ⟨0x01810040, [], [⟨7, 0, .stg, 16, [], none, false⟩, ⟨15, 8, .stg, 48, [], none, false⟩, ⟨23, 16, .stg, 24, [], none, false⟩, ⟨26, 24, .stg, 1, [], none, false⟩, ⟨30, 28, .stg, 4, [], none, false⟩]⟩,
  ⟨0x01810044, [], [⟨15, 0, .stg, 300, [], none, false⟩, ⟨31, 16, .stg, 2000, [], none, false⟩]⟩,
  ⟨0x01810048, [], [⟨15, 0, .stg, 150, [], none, false⟩, ⟨31, 16, .stg, 1000, [], none, false⟩]⟩,
  ⟨0x0181004C, [], [⟨15, 0, .stg, 65535, [], none, false⟩, ⟨23, 16, .stg, 16, [], none, false⟩, ⟨31, 24, .stg, 50, [], none, false⟩]⟩,
  ⟨0x01810050, [], [⟨23, 0, .stg, 16777215, [], none, false⟩]⟩,
  ⟨0x01820000, [], [⟨7, 0, .stg, 0, [], none, false⟩, ⟨8, 8, .stg, 0, [], none, false⟩, ⟨9, 9, .stg, 0, [], none, false⟩]⟩,
  ⟨0x01820004, [], [⟨0, 0, .w1c, 0, [], none, false⟩, ⟨1, 1, .w1c, 0, [], none, false⟩, ⟨2, 2, .w1c, 0, [], none, false⟩]⟩,
  ⟨0x01820008, [], [⟨31, 0, .ro, 4294967295, [], none, false⟩]⟩,
  ⟨0x01830000, [(0x10, 4)], [⟨0, 0, .stg, 0, [], none, false⟩, ⟨1, 1, .stg, 0, [], none, false⟩, ⟨15, 8, .stg, 0, [], none, false⟩, ⟨25, 16, .stg, 0, [], none, false⟩, ⟨26, 26, .stg, 1, [], none, false⟩]⟩,
  ⟨0x01830004, [(0x10, 4)], [⟨9, 0, .stg, 0, [], none, false⟩, ⟨25, 16, .stg, 0, [], none, false⟩]⟩,
  ⟨0x01830008, [(0x10, 4)], [⟨11, 0, .stg, 0, [], none, false⟩, ⟨27, 16, .stg, 4095, [], none, false⟩]⟩]

/-- Register rows, Host: R320. -/
def rowsHost0 : List RegRow := [  ⟨0x01A10000, [], [⟨2, 0, .ro, 0, [], none, false⟩, ⟨7, 4, .ro, 0, [], none, false⟩, ⟨8, 8, .ro, 0, [], none, false⟩, ⟨9, 9, .ro, 0, [], none, false⟩]⟩,
  ⟨0x01A10004, [], [⟨31, 0, .cnt, 0, [], none, false⟩]⟩,
  ⟨0x01A10008, [], [⟨31, 0, .cnt, 0, [], none, false⟩]⟩,
  ⟨0x01A10010, [], [⟨23, 0, .stg, 0, [], none, false⟩]⟩,
  ⟨0x01A10014, [], [⟨7, 0, .rw, 16, [], none, false⟩]⟩,
  ⟨0x01A10018, [], [⟨21, 0, .ro, 0, [], none, false⟩]⟩,
  ⟨0x01A10020, [], [⟨31, 0, .w1c, 0, [], none, false⟩]⟩,
  ⟨0x01A10024, [], [⟨31, 0, .w1c, 0, [], none, false⟩]⟩,
  ⟨0x01A10100, [(0x4, 14)], [⟨7, 0, .rw, 0, [], none, true⟩, ⟨8, 8, .rw, 0, [], none, false⟩, ⟨9, 9, .rw, 1, [], none, false⟩]⟩,
  ⟨0x01A10138, [(0x4, 2)], [⟨7, 0, .rw, 14, [], none, true⟩, ⟨8, 8, .rw, 0, [], none, false⟩, ⟨9, 9, .rw, 0, [], none, false⟩]⟩,
  ⟨0x01A10140, [(0x4, 19)], [⟨7, 0, .rw, 16, [], none, true⟩, ⟨8, 8, .rw, 0, [], none, false⟩, ⟨9, 9, .rw, 1, [], none, false⟩]⟩,
  ⟨0x01A1018C, [(0x4, 5)], [⟨7, 0, .rw, 35, [], none, true⟩, ⟨8, 8, .rw, 0, [], none, false⟩, ⟨9, 9, .rw, 0, [], none, false⟩]⟩,
  ⟨0x01A101A0, [(0x4, 8)], [⟨7, 0, .rw, 40, [], none, true⟩, ⟨8, 8, .rw, 0, [], none, false⟩, ⟨9, 9, .rw, 1, [], none, false⟩]⟩,
  ⟨0x01A101C0, [(0x4, 3)], [⟨7, 0, .rw, 0, [], none, true⟩, ⟨8, 8, .rw, 1, [], none, false⟩, ⟨9, 9, .rw, 1, [], none, false⟩]⟩,
  ⟨0x01A101CC, [(0x4, 1)], [⟨7, 0, .rw, 51, [], none, true⟩, ⟨8, 8, .rw, 0, [], none, false⟩, ⟨9, 9, .rw, 1, [], none, false⟩]⟩,
  ⟨0x01A101D0, [(0x4, 12)], [⟨7, 0, .rw, 52, [], none, true⟩, ⟨8, 8, .rw, 0, [], none, false⟩, ⟨9, 9, .rw, 0, [], none, false⟩]⟩,
  ⟨0x01A20000, [(0x100, 14)], [⟨0, 0, .rw, 0, [], none, false⟩, ⟨1, 1, .w1s, 0, [], none, false⟩, ⟨7, 4, .rw, 8, [(0, 3)], none, false⟩, ⟨31, 16, .rw, 0, [], none, false⟩]⟩,
  ⟨0x01A20004, [(0x100, 14)], [⟨31, 6, .rw, 0, [], none, false⟩]⟩,
  ⟨0x01A20008, [(0x100, 14)], [⟨31, 0, .rw, 0, [], none, false⟩]⟩,
  ⟨0x01A2000C, [(0x100, 14)], [⟨31, 4, .rw, 0, [], none, false⟩]⟩]

/-- Register rows, Host: R320. -/
def rowsHost1 : List RegRow := [  ⟨0x01A20010, [(0x100, 14)], [⟨31, 0, .rw, 0, [], none, false⟩]⟩,
  ⟨0x01A20014, [(0x100, 14)], [⟨31, 0, .ro, 0, [], none, false⟩]⟩,
  ⟨0x01A20018, [(0x100, 14)], [⟨31, 0, .ro, 0, [], none, false⟩]⟩,
  ⟨0x01A2001C, [(0x100, 14)], [⟨31, 0, .ro, 0, [], none, false⟩]⟩,
  ⟨0x01A20020, [(0x100, 14)], [⟨7, 0, .rw, 1, [], none, false⟩, ⟨31, 16, .rw, 0, [], none, false⟩]⟩,
  ⟨0x01A20024, [(0x100, 14)], [⟨1, 0, .ro, 0, [], none, false⟩, ⟨7, 4, .ro, 0, [], none, false⟩, ⟨8, 8, .w1c, 0, [], none, false⟩, ⟨9, 9, .w1c, 0, [], none, false⟩, ⟨31, 16, .ro, 0, [], none, false⟩]⟩]

/-- Register rows, Memc: R249, R349. -/
def rowsMemc0 : List RegRow := [  ⟨0x01C10000, [], [⟨5, 0, .rw, 32, [], none, false⟩, ⟨8, 8, .w1s, 0, [], none, false⟩]⟩,
  ⟨0x01C10004, [], [⟨1, 0, .ro, 0, [], none, false⟩, ⟨4, 4, .ro, 0, [], none, false⟩, ⟨5, 5, .ro, 0, [], none, false⟩, ⟨6, 6, .ro, 0, [], none, false⟩, ⟨11, 8, .w1c, 0, [], none, false⟩]⟩,
  ⟨0x01C10008, [], [⟨15, 0, .rw, 24, [], none, false⟩]⟩,
  ⟨0x01C10010, [], [⟨31, 0, .cnt, 0, [], none, false⟩]⟩,
  ⟨0x01C10014, [], [⟨31, 0, .cnt, 0, [], none, false⟩]⟩,
  ⟨0x01C20000, [], [⟨7, 0, .stg, 4, [], none, false⟩, ⟨15, 8, .stg, 8, [], none, false⟩, ⟨23, 16, .stg, 1, [], none, false⟩]⟩,
  ⟨0x01C30000, [], [⟨2, 0, .rw, 0, [], none, false⟩, ⟨3, 3, .rw, 0, [], none, false⟩, ⟨8, 4, .rw, 0, [], none, false⟩, ⟨13, 9, .rw, 0, [], none, false⟩, ⟨20, 14, .rw, 0, [], none, false⟩]⟩,
  ⟨0x01C30004, [], [⟨31, 0, .rw, 0, [], none, false⟩]⟩,
  ⟨0x01C30008, [], [⟨10, 0, .rw, 64, [], none, false⟩, ⟨21, 16, .rw, 1, [], none, false⟩, ⟨28, 24, .rw, 0, [], none, false⟩]⟩,
  ⟨0x01C3000C, [], [⟨31, 0, .rw, 1024, [], none, false⟩]⟩,
  ⟨0x01C30010, [], [⟨3, 0, .rw, 4, [], none, false⟩, ⟨13, 8, .rw, 48, [], none, false⟩]⟩,
  ⟨0x01C30014, [], [⟨0, 0, .w1s, 0, [], none, false⟩, ⟨1, 1, .w1s, 0, [], none, false⟩, ⟨2, 2, .w1s, 0, [], none, false⟩]⟩,
  ⟨0x01C30018, [], [⟨2, 0, .ro, 0, [], none, false⟩, ⟨7, 4, .ro, 0, [], none, false⟩, ⟨8, 8, .w1c, 0, [], none, false⟩, ⟨9, 9, .w1c, 0, [], none, false⟩, ⟨10, 10, .w1c, 0, [], none, false⟩, ⟨21, 16, .ro, 0, [], none, false⟩, ⟨26, 24, .ro, 0, [], none, false⟩, ⟨31, 27, .ro, 0, [], none, false⟩]⟩,
  ⟨0x01C3001C, [], [⟨31, 0, .cnt, 0, [], none, false⟩]⟩,
  ⟨0x01C30020, [], [⟨31, 0, .ro, 0, [], none, false⟩]⟩,
  ⟨0x01C30040, [(0x10, 4)], [⟨1, 0, .rw, 0, [(3, 3)], none, false⟩, ⟨3, 2, .rw, 1, [(0, 0)], none, false⟩, ⟨4, 4, .rw, 0, [], none, false⟩, ⟨15, 8, .rw, 0, [], none, false⟩]⟩,
  ⟨0x01C30044, [(0x10, 4)], [⟨31, 0, .rw, 0, [], none, false⟩]⟩,
  ⟨0x01C30048, [(0x10, 4)], [⟨31, 0, .rw, 0, [], none, false⟩]⟩,
  ⟨0x01C3004C, [(0x10, 4)], [⟨31, 0, .rw, 0, [], none, false⟩]⟩,
  ⟨0x01C40000, [], [⟨0, 0, .stg, 0, [], none, false⟩, ⟨7, 4, .stg, 7, [], none, false⟩, ⟨15, 8, .stg, 100, [], none, false⟩, ⟨26, 16, .stg, 0, [], some (0, 1024), false⟩]⟩]

/-- Register rows, Memc: R249, R349. -/
def rowsMemc1 : List RegRow := [  ⟨0x01C40004, [], [⟨15, 0, .stg, 0, [], none, false⟩, ⟨31, 16, .stg, 0, [], none, false⟩]⟩,
  ⟨0x01C40008, [], [⟨15, 0, .stg, 100, [], none, false⟩]⟩,
  ⟨0x01C40010, [], [⟨31, 0, .rw, 0, [], none, false⟩]⟩,
  ⟨0x01C40014, [], [⟨31, 0, .rw, 0, [], none, false⟩]⟩,
  ⟨0x01C40018, [], [⟨31, 0, .rw, 0, [], none, false⟩]⟩,
  ⟨0x01C4001C, [], [⟨31, 0, .rw, 0, [], none, false⟩]⟩,
  ⟨0x01C40020, [], [⟨0, 0, .w1s, 0, [], none, false⟩, ⟨31, 16, .ro, 0, [], none, false⟩]⟩,
  ⟨0x01C40024, [], [⟨31, 0, .ro, 0, [], none, false⟩]⟩,
  ⟨0x01C40028, [], [⟨31, 0, .ro, 0, [], none, false⟩]⟩,
  ⟨0x01C40030, [], [⟨0, 0, .ro, 1, [], none, false⟩, ⟨1, 1, .w1c, 0, [], none, false⟩, ⟨2, 2, .ro, 0, [], none, false⟩]⟩,
  ⟨0x01C41000, [(0x4, 1024)], [⟨15, 0, .stg, 0, [], none, false⟩]⟩,
  ⟨0x01C42000, [(0x4, 1024)], [⟨15, 0, .stg, 0, [], none, false⟩]⟩,
  ⟨0x01C50000, [], [⟨1, 0, .stg, 2, [], none, false⟩, ⟨2, 2, .stg, 0, [], none, false⟩, ⟨3, 3, .stg, 0, [], none, false⟩, ⟨4, 4, .stg, 0, [], none, false⟩, ⟨10, 8, .stg, 0, [], none, false⟩, ⟨15, 12, .stg, 0, [], none, false⟩, ⟨24, 16, .stg, 0, [], none, false⟩]⟩,
  ⟨0x01C50004, [], [⟨15, 0, .stg, 0, [], none, false⟩, ⟨31, 16, .stg, 0, [], none, false⟩]⟩,
  ⟨0x01C50008, [], [⟨0, 0, .w1s, 0, [], none, false⟩, ⟨1, 1, .w1s, 0, [], none, false⟩]⟩,
  ⟨0x01C5000C, [], [⟨0, 0, .w1c, 0, [], none, false⟩, ⟨1, 1, .ro, 0, [], none, false⟩]⟩]

/-- Register rows, Moni: R367. -/
def rowsMoni0 : List RegRow := [  ⟨0x01E10000, [(0x20, 16)], [⟨0, 0, .stg, 0, [], none, false⟩, ⟨3, 1, .stg, 4, [(5, 7)], none, false⟩, ⟨4, 4, .stg, 1, [], none, false⟩, ⟨9, 8, .stg, 0, [], none, false⟩, ⟨12, 10, .stg, 1, [(4, 7)], none, false⟩, ⟨25, 16, .stg, 1023, [], none, false⟩]⟩,
  ⟨0x01E10004, [(0x20, 16)], [⟨23, 0, .ro, 0, [], none, false⟩, ⟨24, 24, .ro, 1, [], none, false⟩, ⟨25, 25, .ro, 0, [], none, false⟩, ⟨31, 26, .ro, 0, [], none, false⟩]⟩,
  ⟨0x01E10008, [(0x20, 16)], [⟨0, 0, .ro, 1, [], none, false⟩, ⟨1, 1, .w1c, 0, [], none, false⟩, ⟨31, 16, .cnt, 0, [], none, false⟩]⟩,
  ⟨0x01E20000, [(0x20, 4)], [⟨0, 0, .stg, 0, [], none, false⟩, ⟨4, 1, .stg, 0, [], none, false⟩, ⟨9, 5, .stg, 16, [(17, 31)], none, false⟩, ⟨10, 10, .stg, 0, [], none, false⟩]⟩,
  ⟨0x01E20004, [(0x20, 4)], [⟨23, 0, .ro, 0, [], none, false⟩, ⟨24, 24, .ro, 1, [], none, false⟩, ⟨25, 25, .ro, 0, [], none, false⟩, ⟨26, 26, .ro, 0, [], none, false⟩, ⟨31, 27, .ro, 0, [], none, false⟩]⟩,
  ⟨0x01E20100, [], [⟨19, 0, .rw, 0, [], none, false⟩, ⟨20, 20, .w1s, 0, [], none, false⟩]⟩,
  ⟨0x01E20104, [], [⟨15, 0, .stg, 200, [], none, false⟩]⟩,
  ⟨0x01E30000, [(0x4, 8)], [⟨0, 0, .stg, 0, [], none, false⟩, ⟨4, 1, .stg, 0, [], none, false⟩]⟩,
  ⟨0x01E30020, [(0x4, 4)], [⟨1, 0, .stg, 1, [], none, false⟩]⟩,
  ⟨0x01E30040, [], [⟨7, 0, .ro, 0, [], none, false⟩, ⟨15, 8, .w1c, 0, [], none, false⟩]⟩,
  ⟨0x01E40000, [], [⟨1, 0, .stg, 1, [], none, false⟩, ⟨31, 16, .stg, 1000, [], none, false⟩]⟩,
  ⟨0x01E40004, [], [⟨31, 0, .stg, 0, [], none, false⟩]⟩,
  ⟨0x01E40008, [], [⟨0, 0, .w1s, 0, [], none, false⟩]⟩,
  ⟨0x01E4000C, [], [⟨1, 0, .ro, 0, [], none, false⟩, ⟨3, 2, .ro, 1, [], none, false⟩, ⟨5, 4, .ro, 2, [], none, false⟩, ⟨6, 6, .ro, 0, [], none, false⟩, ⟨7, 7, .w1c, 0, [], none, false⟩, ⟨31, 16, .ro, 0, [], none, false⟩]⟩,
  ⟨0x01E40010, [], [⟨15, 0, .stg, 100, [], none, false⟩]⟩,
  ⟨0x01E40014, [], [⟨31, 0, .w1c, 0, [], none, false⟩]⟩,
  ⟨0x01E40018, [], [⟨15, 0, .stg, 0, [], none, false⟩, ⟨31, 16, .stg, 0, [], none, false⟩]⟩,
  ⟨0x01E40020, [(0x8, 2)], [⟨5, 0, .rw, 0, [], none, false⟩, ⟨8, 8, .rw, 0, [], none, false⟩, ⟨9, 9, .w1s, 0, [], none, false⟩, ⟨10, 10, .ro, 0, [], none, false⟩, ⟨11, 11, .w1c, 0, [], none, false⟩]⟩,
  ⟨0x01E40024, [(0x8, 2)], [⟨11, 0, .ro, 0, [], none, false⟩, ⟨12, 12, .ro, 0, [], none, false⟩, ⟨14, 13, .ro, 0, [], none, false⟩]⟩,
  ⟨0x01E40100, [(0x8, 32)], [⟨5, 0, .stg, 0, [], some (0, 47), false⟩, ⟨10, 8, .stg, 0, [], none, false⟩, ⟨12, 12, .stg, 0, [], none, false⟩]⟩]

/-- Register rows, Moni: R367. -/
def rowsMoni1 : List RegRow := [  ⟨0x01E40104, [(0x8, 32)], [⟨11, 0, .stg, 0, [], none, false⟩, ⟨27, 16, .stg, 4095, [], none, false⟩]⟩,
  ⟨0x01E40200, [(0x4, 32)], [⟨11, 0, .ro, 0, [], none, false⟩, ⟨12, 12, .ro, 0, [], none, false⟩, ⟨14, 13, .ro, 0, [], none, false⟩, ⟨15, 15, .ro, 0, [], none, false⟩, ⟨31, 16, .ro, 0, [], none, false⟩]⟩]

/-- Register rows, Mgmt: R472. -/
def rowsMgmt : List RegRow := [  ⟨0x02010000, [], [⟨31, 0, .ro, 0, [], none, false⟩]⟩,
  ⟨0x02010004, [], [⟨31, 0, .rw, 0, [], none, false⟩]⟩,
  ⟨0x02010008, [], [⟨31, 0, .cnt, 0, [], none, false⟩]⟩,
  ⟨0x0201000C, [], [⟨2, 0, .rw, 1, [(5, 7)], none, false⟩, ⟨6, 4, .rw, 2, [], none, false⟩, ⟨8, 8, .rw, 1, [], none, false⟩]⟩,
  ⟨0x02010010, [], [⟨0, 0, .ro, 0, [], none, false⟩, ⟨1, 1, .ro, 0, [], none, false⟩, ⟨2, 2, .ro, 0, [], none, false⟩, ⟨15, 8, .ro, 0, [], none, false⟩]⟩,
  ⟨0x02010014, [], [⟨0, 0, .w1c, 0, [], none, false⟩, ⟨1, 1, .w1c, 0, [], none, false⟩, ⟨2, 2, .w1c, 0, [], none, false⟩, ⟨12, 8, .ro, 0, [], none, false⟩, ⟨20, 16, .ro, 0, [], none, false⟩]⟩]

/-- Register rows, Secu: R425. -/
def rowsSecu : List RegRow := [  ⟨0x02210000, [], [⟨2, 0, .ro, 2, [], none, false⟩, ⟨8, 8, .ro, 0, [], none, false⟩, ⟨9, 9, .ro, 1, [], none, false⟩]⟩,
  ⟨0x02210004, [], [⟨1, 0, .ro, 0, [], none, false⟩, ⟨4, 4, .ro, 0, [], none, false⟩, ⟨31, 16, .ro, 0, [], none, false⟩]⟩,
  ⟨0x02210008, [], [⟨0, 0, .ro, 0, [], none, false⟩, ⟨1, 1, .ro, 0, [], none, false⟩, ⟨2, 2, .w1c, 0, [], none, false⟩, ⟨25, 16, .ro, 0, [], none, false⟩]⟩,
  ⟨0x0221000C, [], [⟨19, 0, .ro, 0, [], none, false⟩, ⟨24, 24, .ro, 0, [], none, false⟩, ⟨25, 25, .ro, 0, [], none, false⟩]⟩,
  ⟨0x02210010, [], [⟨19, 0, .ro, 0, [], none, false⟩]⟩,
  ⟨0x02210014, [], [⟨31, 0, .cnt, 0, [], none, false⟩]⟩]

/-- Register rows, Safe: R393. -/
def rowsSafe : List RegRow := [  ⟨0x02410000, [], [⟨2, 0, .ro, 0, [], none, false⟩, ⟨6, 4, .ro, 0, [], none, false⟩, ⟨10, 8, .ro, 0, [], none, false⟩, ⟨12, 12, .ro, 0, [], none, false⟩, ⟨13, 13, .ro, 0, [], none, false⟩, ⟨14, 14, .ro, 0, [], none, false⟩, ⟨15, 15, .ro, 0, [], none, false⟩, ⟨16, 16, .ro, 0, [], none, false⟩, ⟨17, 17, .ro, 1, [], none, false⟩, ⟨19, 18, .ro, 0, [], none, false⟩, ⟨27, 20, .ro, 0, [], none, false⟩]⟩,
  ⟨0x02410004, [], [⟨11, 0, .ro, 0, [], none, false⟩]⟩,
  ⟨0x02410008, [], [⟨11, 0, .ro, 0, [], none, false⟩]⟩,
  ⟨0x0241000C, [], [⟨3, 0, .ro, 0, [], none, false⟩]⟩,
  ⟨0x02410010, [], [⟨31, 0, .cnt, 0, [], none, false⟩]⟩,
  ⟨0x02410014, [], [⟨0, 0, .w1c, 0, [], none, false⟩, ⟨1, 1, .ro, 0, [], none, false⟩, ⟨31, 16, .cnt, 0, [], none, false⟩]⟩,
  ⟨0x02410018, [], [⟨0, 0, .w1s, 0, [], none, false⟩]⟩,
  ⟨0x02430000, [], [⟨15, 0, .cnt, 0, [], none, false⟩, ⟨31, 16, .cnt, 0, [], none, false⟩]⟩,
  ⟨0x02430004, [], [⟨7, 0, .cnt, 0, [], none, false⟩, ⟨15, 8, .cnt, 0, [], none, false⟩, ⟨23, 16, .cnt, 0, [], none, false⟩, ⟨31, 24, .cnt, 0, [], none, false⟩]⟩,
  ⟨0x02430008, [], [⟨31, 0, .ro, 0, [], none, false⟩]⟩,
  ⟨0x02430010, [], [⟨7, 0, .ro, 0, [], none, false⟩, ⟨15, 8, .ro, 0, [], none, false⟩, ⟨16, 16, .ro, 0, [], none, false⟩, ⟨31, 24, .cnt, 0, [], none, false⟩]⟩,
  ⟨0x02440000, [], [⟨31, 0, .ro, 0, [], none, false⟩]⟩,
  ⟨0x02440004, [], [⟨8, 0, .stg, 100, [], none, false⟩, ⟨15, 10, .stg, 10, [], none, false⟩, ⟨22, 16, .stg, 20, [], none, false⟩, ⟨31, 24, .stg, 50, [], none, false⟩]⟩,
  ⟨0x02440008, [(0x4, 5)], [⟨15, 0, .stg, 0, [], none, false⟩]⟩,
  ⟨0x02450000, [(0x100, 4), (0x10, 8)], [⟨31, 0, .stg, 0, [], none, false⟩]⟩,
  ⟨0x02450004, [(0x100, 4), (0x10, 8)], [⟨9, 0, .stg, 0, [], none, false⟩, ⟨25, 16, .stg, 0, [], none, false⟩]⟩,
  ⟨0x02450008, [(0x100, 4), (0x10, 8)], [⟨27, 0, .stg, 0, [], none, false⟩]⟩,
  ⟨0x0245000C, [(0x100, 4), (0x10, 8)], [⟨7, 0, .stg, 1, [], none, false⟩]⟩]

/-- Register rows, Bar2: R295, R301. -/
def rowsBar2 : List RegRow := [  ⟨0x04010000, [(0x1000, 14)], [⟨31, 0, .wo, 0, [], none, false⟩]⟩,
  ⟨0x04010004, [(0x1000, 14)], [⟨0, 0, .wo, 0, [], none, false⟩]⟩,
  ⟨0x04080000, [(0x10, 224), (0x4, 3)], [⟨31, 0, .rw, 0, [], none, false⟩]⟩,
  ⟨0x0408000C, [(0x10, 224)], [⟨0, 0, .rw, 1, [], none, false⟩]⟩,
  ⟨0x04081000, [(0x4, 8)], [⟨31, 0, .ro, 0, [], none, false⟩]⟩]

/-- Register rows, Pf1: R295, R386, R52. -/
def rowsPf1 : List RegRow := [  ⟨0x05000000, [], [⟨0, 0, .w1s, 0, [], none, false⟩, ⟨1, 1, .w1s, 0, [], none, false⟩]⟩,
  ⟨0x05000004, [], [⟨0, 0, .ro, 0, [], none, false⟩, ⟨1, 1, .w1c, 0, [], none, false⟩, ⟨2, 2, .w1c, 0, [], none, false⟩]⟩,
  ⟨0x05001000, [(0x4, 1028)], [⟨31, 0, .mbx, 0, [], none, false⟩]⟩,
  ⟨0x05003000, [(0x4, 1028)], [⟨31, 0, .mbx, 0, [], none, false⟩]⟩,
  ⟨0x05008000, [(0x4, 8)], [⟨31, 0, .wo, 0, [], none, false⟩]⟩,
  ⟨0x05008020, [], [⟨0, 0, .w1s, 0, [], none, false⟩]⟩,
  ⟨0x05008024, [], [⟨0, 0, .ro, 0, [], none, false⟩, ⟨1, 1, .w1c, 0, [], none, false⟩]⟩,
  ⟨0x05008040, [(0x4, 8)], [⟨31, 0, .ro, 0, [], none, false⟩]⟩,
  ⟨0x05008060, [], [⟨0, 0, .w1s, 0, [], none, false⟩]⟩,
  ⟨0x05008064, [], [⟨2, 0, .ro, 0, [], none, false⟩, ⟨8, 8, .w1c, 0, [], none, false⟩]⟩,
  ⟨0x0500C000, [(0x10, 32), (0x4, 3)], [⟨31, 0, .rw, 0, [], none, false⟩]⟩,
  ⟨0x0500C00C, [(0x10, 32)], [⟨0, 0, .rw, 1, [], none, false⟩]⟩,
  ⟨0x0500D000, [(0x4, 1)], [⟨31, 0, .ro, 0, [], none, false⟩]⟩]

/-- Configuration space of PF0 (R293, R294): the registers of PCI Express that the chapter's features need, at the family's places. PRESUMED (log 92). -/
def rowsCfg0 : List RegRow := [
  ⟨0x06000004, [], [⟨1, 1, .rw, 0, [], none, false⟩, ⟨2, 2, .rw, 0, [], none, false⟩, ⟨10, 10, .rw, 0, [], none, false⟩, ⟨20, 20, .ro, 1, [], none, false⟩, ⟨28, 28, .w1c, 0, [], none, false⟩, ⟨29, 29, .w1c, 0, [], none, false⟩]⟩,
  ⟨0x06000008, [], [⟨31, 0, .ro, 0x118000b1, [], none, false⟩]⟩,
  ⟨0x0600000C, [], [⟨23, 16, .ro, 0x80, [], none, false⟩]⟩,
  ⟨0x06000010, [], [⟨3, 0, .ro, 4, [], none, false⟩, ⟨31, 26, .rw, 0, [], none, false⟩]⟩,
  ⟨0x06000014, [], [⟨31, 0, .rw, 0, [], none, false⟩]⟩,
  ⟨0x06000018, [], [⟨3, 0, .ro, 4, [], none, false⟩, ⟨31, 20, .rw, 0, [], none, false⟩]⟩,
  ⟨0x0600001C, [], [⟨31, 0, .rw, 0, [], none, false⟩]⟩,
  ⟨0x06000034, [], [⟨7, 0, .ro, 0x40, [], none, false⟩]⟩,
  ⟨0x0600003C, [], [⟨7, 0, .rw, 0, [], none, false⟩]⟩,
  ⟨0x06000040, [], [⟨31, 0, .ro, 0x37001, [], none, false⟩]⟩,
  ⟨0x06000044, [], [⟨1, 0, .rw, 0, [], none, false⟩, ⟨3, 3, .ro, 1, [], none, false⟩]⟩,
  ⟨0x06000070, [], [⟨31, 0, .ro, 0x2b010, [], none, false⟩]⟩,
  ⟨0x06000074, [], [⟨31, 0, .ro, 0x10008022, [], none, false⟩]⟩,
  ⟨0x06000078, [], [⟨0, 0, .rw, 0, [], none, false⟩, ⟨1, 1, .rw, 0, [], none, false⟩, ⟨2, 2, .rw, 0, [], none, false⟩, ⟨3, 3, .rw, 0, [], none, false⟩, ⟨4, 4, .rw, 1, [], none, false⟩, ⟨7, 5, .rw, 0, [], none, false⟩, ⟨8, 8, .rw, 1, [], none, false⟩, ⟨14, 12, .rw, 2, [], none, false⟩, ⟨15, 15, .w1s, 0, [], none, false⟩, ⟨16, 16, .w1c, 0, [], none, false⟩, ⟨17, 17, .w1c, 0, [], none, false⟩, ⟨18, 18, .w1c, 0, [], none, false⟩, ⟨19, 19, .w1c, 0, [], none, false⟩]⟩,
  ⟨0x0600007C, [], [⟨31, 0, .ro, 0x420886, [], none, false⟩]⟩,
  ⟨0x06000080, [], [⟨1, 0, .rw, 0, [], none, false⟩, ⟨3, 3, .rw, 0, [], none, false⟩, ⟨6, 6, .rw, 0, [], none, false⟩]⟩,
  ⟨0x06000094, [], [⟨31, 0, .ro, 0x3001f, [], none, false⟩]⟩,
  ⟨0x06000098, [], [⟨3, 0, .rw, 0, [], none, false⟩, ⟨4, 4, .rw, 0, [], none, false⟩, ⟨12, 12, .rw, 0, [], none, false⟩]⟩,
  ⟨0x0600009C, [], [⟨31, 0, .ro, 0x7e, [], none, false⟩]⟩,
  ⟨0x060000A0, [], [⟨3, 0, .rw, 6, [], none, false⟩]⟩,
  ⟨0x060000B0, [], [⟨15, 0, .ro, 0x11, [], none, false⟩, ⟨26, 16, .ro, 0xdf, [], none, false⟩, ⟨30, 30, .rw, 0, [], none, false⟩, ⟨31, 31, .rw, 0, [], none, false⟩]⟩,
  ⟨0x060000B4, [], [⟨31, 0, .ro, 0x80002, [], none, false⟩]⟩,
  ⟨0x060000B8, [], [⟨31, 0, .ro, 0x81002, [], none, false⟩]⟩,
  ⟨0x06000100, [], [⟨31, 0, .ro, 0x14820001, [], none, false⟩]⟩,
  ⟨0x06000104, [], [⟨4, 4, .w1c, 0, [], none, false⟩, ⟨5, 5, .w1c, 0, [], none, false⟩, ⟨12, 12, .w1c, 0, [], none, false⟩, ⟨13, 13, .w1c, 0, [], none, false⟩, ⟨14, 14, .w1c, 0, [], none, false⟩, ⟨15, 15, .w1c, 0, [], none, false⟩, ⟨16, 16, .w1c, 0, [], none, false⟩, ⟨17, 17, .w1c, 0, [], none, false⟩, ⟨18, 18, .w1c, 0, [], none, false⟩, ⟨20, 20, .w1c, 0, [], none, false⟩, ⟨22, 22, .w1c, 0, [], none, false⟩]⟩,
  ⟨0x06000108, [], [⟨4, 4, .rw, 0, [], none, false⟩, ⟨5, 5, .rw, 0, [], none, false⟩, ⟨12, 12, .rw, 0, [], none, false⟩, ⟨13, 13, .rw, 0, [], none, false⟩, ⟨14, 14, .rw, 0, [], none, false⟩, ⟨15, 15, .rw, 0, [], none, false⟩, ⟨16, 16, .rw, 0, [], none, false⟩, ⟨17, 17, .rw, 0, [], none, false⟩, ⟨18, 18, .rw, 0, [], none, false⟩, ⟨20, 20, .rw, 0, [], none, false⟩, ⟨22, 22, .rw, 0, [], none, false⟩]⟩,
  ⟨0x0600010C, [], [⟨4, 4, .rw, 1, [], none, false⟩, ⟨5, 5, .rw, 1, [], none, false⟩, ⟨12, 12, .rw, 0, [], none, false⟩, ⟨13, 13, .rw, 1, [], none, false⟩, ⟨14, 14, .rw, 0, [], none, false⟩, ⟨15, 15, .rw, 0, [], none, false⟩, ⟨16, 16, .rw, 0, [], none, false⟩, ⟨17, 17, .rw, 1, [], none, false⟩, ⟨18, 18, .rw, 1, [], none, false⟩, ⟨20, 20, .rw, 0, [], none, false⟩, ⟨22, 22, .rw, 1, [], none, false⟩]⟩,
  ⟨0x06000110, [], [⟨0, 0, .w1c, 0, [], none, false⟩, ⟨6, 6, .w1c, 0, [], none, false⟩, ⟨7, 7, .w1c, 0, [], none, false⟩, ⟨8, 8, .w1c, 0, [], none, false⟩, ⟨12, 12, .w1c, 0, [], none, false⟩, ⟨13, 13, .w1c, 0, [], none, false⟩]⟩,
  ⟨0x06000114, [], [⟨0, 0, .rw, 0, [], none, false⟩, ⟨6, 6, .rw, 0, [], none, false⟩, ⟨7, 7, .rw, 0, [], none, false⟩, ⟨8, 8, .rw, 0, [], none, false⟩, ⟨12, 12, .rw, 0, [], none, false⟩, ⟨13, 13, .rw, 1, [], none, false⟩]⟩,
  ⟨0x06000118, [], [⟨4, 0, .ro, 0, [], none, false⟩]⟩,
  ⟨0x0600011C, [(4, 4)], [⟨31, 0, .ro, 0, [], none, false⟩]⟩,
  ⟨0x06000148, [], [⟨31, 0, .ro, 0x16010003, [], none, false⟩]⟩,
  ⟨0x06000160, [], [⟨31, 0, .ro, 0x1001f, [], none, false⟩]⟩,
  ⟨0x06000164, [], [⟨0, 0, .ro, 1, [], none, false⟩]⟩,
  ⟨0x06000168, [], [⟨0, 0, .rw, 0, [], none, false⟩]⟩]

/-- Configuration space of PF1 (R293, R294). PRESUMED (log 92). -/
def rowsCfg1 : List RegRow := [
  ⟨0x06010004, [], [⟨1, 1, .rw, 0, [], none, false⟩, ⟨2, 2, .rw, 0, [], none, false⟩, ⟨10, 10, .rw, 0, [], none, false⟩, ⟨20, 20, .ro, 1, [], none, false⟩, ⟨28, 28, .w1c, 0, [], none, false⟩, ⟨29, 29, .w1c, 0, [], none, false⟩]⟩,
  ⟨0x06010008, [], [⟨31, 0, .ro, 0x88000b1, [], none, false⟩]⟩,
  ⟨0x0601000C, [], [⟨23, 16, .ro, 0x80, [], none, false⟩]⟩,
  ⟨0x06010010, [], [⟨3, 0, .ro, 4, [], none, false⟩, ⟨31, 16, .rw, 0, [], none, false⟩]⟩,
  ⟨0x06010014, [], [⟨31, 0, .rw, 0, [], none, false⟩]⟩,
  ⟨0x06010034, [], [⟨7, 0, .ro, 0x40, [], none, false⟩]⟩,
  ⟨0x0601003C, [], [⟨7, 0, .rw, 0, [], none, false⟩]⟩,
  ⟨0x06010040, [], [⟨31, 0, .ro, 0x37001, [], none, false⟩]⟩,
  ⟨0x06010044, [], [⟨1, 0, .rw, 0, [], none, false⟩, ⟨3, 3, .ro, 1, [], none, false⟩]⟩,
  ⟨0x06010070, [], [⟨31, 0, .ro, 0x2b010, [], none, false⟩]⟩,
  ⟨0x06010074, [], [⟨31, 0, .ro, 0x10008022, [], none, false⟩]⟩,
  ⟨0x06010078, [], [⟨0, 0, .rw, 0, [], none, false⟩, ⟨1, 1, .rw, 0, [], none, false⟩, ⟨2, 2, .rw, 0, [], none, false⟩, ⟨3, 3, .rw, 0, [], none, false⟩, ⟨4, 4, .rw, 1, [], none, false⟩, ⟨7, 5, .rw, 0, [], none, false⟩, ⟨8, 8, .rw, 1, [], none, false⟩, ⟨14, 12, .rw, 2, [], none, false⟩, ⟨15, 15, .w1s, 0, [], none, false⟩, ⟨16, 16, .w1c, 0, [], none, false⟩, ⟨17, 17, .w1c, 0, [], none, false⟩, ⟨18, 18, .w1c, 0, [], none, false⟩, ⟨19, 19, .w1c, 0, [], none, false⟩]⟩,
  ⟨0x0601007C, [], [⟨31, 0, .ro, 0x420886, [], none, false⟩]⟩,
  ⟨0x06010080, [], [⟨1, 0, .rw, 0, [], none, false⟩, ⟨3, 3, .rw, 0, [], none, false⟩, ⟨6, 6, .rw, 0, [], none, false⟩]⟩,
  ⟨0x06010094, [], [⟨31, 0, .ro, 0x3001f, [], none, false⟩]⟩,
  ⟨0x06010098, [], [⟨3, 0, .rw, 0, [], none, false⟩, ⟨4, 4, .rw, 0, [], none, false⟩, ⟨12, 12, .rw, 0, [], none, false⟩]⟩,
  ⟨0x0601009C, [], [⟨31, 0, .ro, 0x7e, [], none, false⟩]⟩,
  ⟨0x060100A0, [], [⟨3, 0, .rw, 6, [], none, false⟩]⟩,
  ⟨0x060100B0, [], [⟨15, 0, .ro, 0x11, [], none, false⟩, ⟨26, 16, .ro, 0x1f, [], none, false⟩, ⟨30, 30, .rw, 0, [], none, false⟩, ⟨31, 31, .rw, 0, [], none, false⟩]⟩,
  ⟨0x060100B4, [], [⟨31, 0, .ro, 0xc000, [], none, false⟩]⟩,
  ⟨0x060100B8, [], [⟨31, 0, .ro, 0xd000, [], none, false⟩]⟩,
  ⟨0x06010100, [], [⟨31, 0, .ro, 0x14820001, [], none, false⟩]⟩,
  ⟨0x06010104, [], [⟨4, 4, .w1c, 0, [], none, false⟩, ⟨5, 5, .w1c, 0, [], none, false⟩, ⟨12, 12, .w1c, 0, [], none, false⟩, ⟨13, 13, .w1c, 0, [], none, false⟩, ⟨14, 14, .w1c, 0, [], none, false⟩, ⟨15, 15, .w1c, 0, [], none, false⟩, ⟨16, 16, .w1c, 0, [], none, false⟩, ⟨17, 17, .w1c, 0, [], none, false⟩, ⟨18, 18, .w1c, 0, [], none, false⟩, ⟨20, 20, .w1c, 0, [], none, false⟩, ⟨22, 22, .w1c, 0, [], none, false⟩]⟩,
  ⟨0x06010108, [], [⟨4, 4, .rw, 0, [], none, false⟩, ⟨5, 5, .rw, 0, [], none, false⟩, ⟨12, 12, .rw, 0, [], none, false⟩, ⟨13, 13, .rw, 0, [], none, false⟩, ⟨14, 14, .rw, 0, [], none, false⟩, ⟨15, 15, .rw, 0, [], none, false⟩, ⟨16, 16, .rw, 0, [], none, false⟩, ⟨17, 17, .rw, 0, [], none, false⟩, ⟨18, 18, .rw, 0, [], none, false⟩, ⟨20, 20, .rw, 0, [], none, false⟩, ⟨22, 22, .rw, 0, [], none, false⟩]⟩,
  ⟨0x0601010C, [], [⟨4, 4, .rw, 1, [], none, false⟩, ⟨5, 5, .rw, 1, [], none, false⟩, ⟨12, 12, .rw, 0, [], none, false⟩, ⟨13, 13, .rw, 1, [], none, false⟩, ⟨14, 14, .rw, 0, [], none, false⟩, ⟨15, 15, .rw, 0, [], none, false⟩, ⟨16, 16, .rw, 0, [], none, false⟩, ⟨17, 17, .rw, 1, [], none, false⟩, ⟨18, 18, .rw, 1, [], none, false⟩, ⟨20, 20, .rw, 0, [], none, false⟩, ⟨22, 22, .rw, 1, [], none, false⟩]⟩,
  ⟨0x06010110, [], [⟨0, 0, .w1c, 0, [], none, false⟩, ⟨6, 6, .w1c, 0, [], none, false⟩, ⟨7, 7, .w1c, 0, [], none, false⟩, ⟨8, 8, .w1c, 0, [], none, false⟩, ⟨12, 12, .w1c, 0, [], none, false⟩, ⟨13, 13, .w1c, 0, [], none, false⟩]⟩,
  ⟨0x06010114, [], [⟨0, 0, .rw, 0, [], none, false⟩, ⟨6, 6, .rw, 0, [], none, false⟩, ⟨7, 7, .rw, 0, [], none, false⟩, ⟨8, 8, .rw, 0, [], none, false⟩, ⟨12, 12, .rw, 0, [], none, false⟩, ⟨13, 13, .rw, 1, [], none, false⟩]⟩,
  ⟨0x06010118, [], [⟨4, 0, .ro, 0, [], none, false⟩]⟩,
  ⟨0x0601011C, [(4, 4)], [⟨31, 0, .ro, 0, [], none, false⟩]⟩,
  ⟨0x06010148, [], [⟨31, 0, .ro, 0x16010003, [], none, false⟩]⟩,
  ⟨0x06010160, [], [⟨31, 0, .ro, 0x1002e, [], none, false⟩]⟩,
  ⟨0x06010164, [], [⟨0, 0, .ro, 1, [], none, false⟩, ⟨11, 1, .ro, 2, [], none, false⟩]⟩,
  ⟨0x06010168, [], [⟨0, 0, .w1s, 0, [], none, false⟩, ⟨1, 1, .rw, 0, [], none, false⟩, ⟨31, 31, .w1s, 0, [], none, false⟩]⟩,
  ⟨0x0601016C, [], [⟨0, 0, .ro, 0, [], none, false⟩, ⟨1, 1, .w1c, 0, [], none, false⟩, ⟨2, 2, .ro, 0, [], none, false⟩, ⟨31, 31, .ro, 0, [], none, false⟩]⟩]

/-- The rows that can hold an offset, by the region window it lies in (R17); windows 32 and 40 are PF0 BAR2 and PF1
BAR0 in the model's one key space. -/
def rowsOf (r : Nat) : List RegRow :=
  match r with
  | 0 => rowsCommon0 ++ rowsCommon1 ++ rowsChip0 ++ rowsChip1
  | 1 => rowsCommon0 ++ rowsCommon1 ++ rowsTbas0 ++ rowsTbas1
  | 2 => rowsCommon0 ++ rowsCommon1 ++ rowsScan0 ++ rowsScan1 ++ rowsScan2
  | 3 => rowsCommon0 ++ rowsCommon1 ++ rowsEmit0 ++ rowsEmit1
  | 4 => rowsCommon0 ++ rowsCommon1 ++ rowsLnk0 ++ rowsLnk1
  | 5 => rowsCommon0 ++ rowsCommon1 ++ rowsLnk0 ++ rowsLnk1
  | 6 => rowsCommon0 ++ rowsCommon1 ++ rowsLnk0 ++ rowsLnk1
  | 7 => rowsCommon0 ++ rowsCommon1 ++ rowsLnk0 ++ rowsLnk1
  | 8 => rowsCommon0 ++ rowsCommon1 ++ rowsHst
  | 9 => rowsCommon0 ++ rowsCommon1 ++ rowsHst
  | 10 => rowsCommon0 ++ rowsCommon1 ++ rowsHst
  | 11 => rowsCommon0 ++ rowsCommon1 ++ rowsHst
  | 12 => rowsCommon0 ++ rowsCommon1 ++ rowsOutp
  | 13 => rowsCommon0 ++ rowsCommon1 ++ rowsHost0 ++ rowsHost1
  | 14 => rowsCommon0 ++ rowsCommon1 ++ rowsMemc0 ++ rowsMemc1
  | 15 => rowsCommon0 ++ rowsCommon1 ++ rowsMoni0 ++ rowsMoni1
  | 16 => rowsCommon0 ++ rowsCommon1 ++ rowsMgmt
  | 17 => rowsCommon0 ++ rowsCommon1 ++ rowsSecu
  | 18 => rowsCommon0 ++ rowsCommon1 ++ rowsSafe
  | 32 => rowsBar2
  | 40 => rowsPf1
  | 48 => rowsCfg0 ++ rowsCfg1
  | _ => []

/-- The register at a location, with the index in its innermost array; none where no register is implemented (R32). -/
def findRow (a : Nat) : Option (RegRow × Nat) :=
  (rowsOf (a / 0x200000)).findSome? fun r => (r.index? a).map fun i => (r, i)

/-- The reset value of the register at a location (register tables); 0 where there is none. -/
def resetWord (a : Nat) : Word :=
  match findRow a with
  | some (r, i) => r.resetWord i
  | none => 0

end Sys2Proof.Machine
end

