-- ==== Sys2Proof/Machine/Sources.lean ====
section
/-!
DEFINITION. The till sources of each region, numbered from 1 in the order of R470, and the count of instances each
has (1: no instances, INST 0).
-/
namespace Sys2Proof.Machine.Src

def CHIP_GATE_ABORT : Nat := 1
def CHIP_DVFS_CHANGES : Nat := 2
def CHIP_THROTTLES : Nat := 3
def CHIP_MON_TRIPS : Nat := 4
def CHIP_HUSH_ENTRIES : Nat := 5
def CHIP_DOZE_ENTRIES : Nat := 6
def CHIP_ERR_RECORDS : Nat := 7
def CHIP_REGION_RESTARTS : Nat := 8
def CHIP_COMMITS : Nat := 9
def CHIP_COMMIT_REFUSED : Nat := 10

def TBAS_TIU_SHOTS : Nat := 1
def TBAS_TIU_MISS : Nat := 2
def TBAS_PTM_OK : Nat := 3
def TBAS_PTM_FAIL : Nat := 4
def TBAS_WARM_SET : Nat := 5

def SCAN_REF_LATE : Nat := 1
def SCAN_REF_ORDER : Nat := 2
def SCAN_REF_LINE_BUSY : Nat := 3
def SCAN_REF_NO_LINE : Nat := 4
def SCAN_REF_OUTSIDE_DWELL : Nat := 5
def SCAN_REF_SPACING : Nat := 6
def SCAN_QFULL_WAIT : Nat := 7
def SCAN_EXC_MASKED : Nat := 8
def SCAN_EXCEPTIONS : Nat := 9
def SCAN_LINES : Nat := 10
def SCAN_SHOTS : Nat := 11
def SCAN_LEDG_DENY : Nat := 12
def SCAN_LEDG_TRUEUP : Nat := 13
def SCAN_LEDG_VIOL : Nat := 14
def SCAN_TB_FLUSH : Nat := 15

def EMIT_PULSES : Nat := 1
def EMIT_DIAG_PULSES : Nat := 2
def EMIT_DIAG_FAULTS : Nat := 3
def EMIT_EW_FRAMES : Nat := 4
def EMIT_EW_NOT_DELIVERED : Nat := 5
def EMIT_APPLY_STROBES : Nat := 6
def EMIT_LSUP_QBRK : Nat := 7

def LNK_DESKEW : Nat := 1
def LNK_FR_TYPE : Nat := 2
def LNK_MSG_CRC : Nat := 3
def LNK_MSG_GAP : Nat := 4
def LNK_SLOT_GAP : Nat := 5
def LNK_NOPHASE : Nat := 6
def LNK_RSVD_TYPE : Nat := 7
def LNK_LATE : Nat := 8
def LNK_INGEST_DROP : Nat := 9
def LNK_TILE_LOST : Nat := 10
def LNK_EV_BLK_LOST : Nat := 11
def LNK_HTAG_MISMATCH : Nat := 12
def LNK_EVENTS : Nat := 13
def LNK_BLK_ERR : Nat := 14
def LNK_LOCK_LOSS : Nat := 15
def LNK_WAKES : Nat := 16

def HST_NOSHOT : Nat := 1
def HST_BANK_LATE : Nat := 2
def HST_MODSUB : Nat := 3
def HST_OUTWIN : Nat := 4
def HST_CMB_DROP : Nat := 5
def HST_SAT_UPD : Nat := 6
def HST_ZOOM_DROP : Nat := 7
def HST_CE : Nat := 8
def HST_UE : Nat := 9
def HST_RO_OVERRUN : Nat := 10
def HST_ZOOM_NOROOM : Nat := 11
def HST_SUBST : Nat := 12
def HST_FLT_RESTART : Nat := 13
def HST_FLT_SUBST : Nat := 14
def HST_ECHO_TRUNC : Nat := 15
def HST_RANGE_OOR : Nat := 16
def HST_EVENTS_IN : Nat := 17
def HST_UPDATES : Nat := 18

def OUTP_CLASS0 : Nat := 1
def OUTP_CLASS1 : Nat := 2
def OUTP_CLASS2 : Nat := 3
def OUTP_CLASS3 : Nat := 4
def OUTP_CLASS4 : Nat := 5
def OUTP_CLASS5 : Nat := 6
def OUTP_CLASS6 : Nat := 7
def OUTP_CLASS7 : Nat := 8
def OUTP_REJ0 : Nat := 9
def OUTP_REJ1 : Nat := 10
def OUTP_REJ2 : Nat := 11
def OUTP_REJ3 : Nat := 12
def OUTP_REJ4 : Nat := 13
def OUTP_REJ5 : Nat := 14
def OUTP_REJ6 : Nat := 15
def OUTP_REJ7 : Nat := 16
def OUTP_REJ_UNSET : Nat := 17
def OUTP_REJ_LOWC : Nat := 18
def OUTP_LINE_DROP : Nat := 19
def OUTP_HEX_DROP : Nat := 20
def OUTP_SPLIT : Nat := 21
def OUTP_POINTS : Nat := 22
def OUTP_LINES : Nat := 23

def HOST_COMPLETIONS : Nat := 1
def HOST_DROP_ITEMS : Nat := 2
def HOST_BIG_DROP : Nat := 3
def HOST_STOPS : Nat := 4
def HOST_LINK_DOWNS : Nat := 5
def HOST_RECOVERIES : Nat := 6
def HOST_REPLAYS : Nat := 7
def HOST_MSIX_SENT : Nat := 8

def MEMC_STK_NOSLOT : Nat := 1
def MEMC_STK_NOMOTION : Nat := 2
def MEMC_STK_SKIP : Nat := 3
def MEMC_STK_CLEAR : Nat := 4
def MEMC_CRC_RETRY : Nat := 5
def MEMC_CE : Nat := 6
def MEMC_UE : Nat := 7
def MEMC_SCRUB_PASS : Nat := 8
def MEMC_TRIG_MISSED : Nat := 9
def MEMC_CAP_GAP : Nat := 10
def MEMC_SYNC_BADPULSE : Nat := 11

def MONI_MON_OVR : Nat := 1
def MONI_XS_OPEN : Nat := 2
def MONI_HK_URGENT : Nat := 3
def MONI_HK_SEQ_LATE : Nat := 4
def MONI_HK_ALARM : Nat := 5
def MONI_SLICE_ROT : Nat := 6

def MGMT_LOG_RECORDS : Nat := 1
def MGMT_LOG_LOST : Nat := 2
def MGMT_HANDOVERS : Nat := 3
def MGMT_REVERTS : Nat := 4
def MGMT_CAL_APPLIED : Nat := 5
def MGMT_CAL_DEFERRED : Nat := 6
def MGMT_SCRUB_STARVE : Nat := 7
def MGMT_CAL_STARVE : Nat := 8
def MGMT_LOCKSTEP_ERR : Nat := 9

def SECU_HSS_SIGN : Nat := 1
def SECU_SPDM_BUSY : Nat := 2
def SECU_TOKEN_REJECT : Nat := 3
def SECU_DBG_SESSIONS : Nat := 4

def SAFE_SAFE_ENTRIES : Nat := 1
def SAFE_ARMINGS : Nat := 2
def SAFE_UNPAIRED : Nat := 3
def SAFE_STALE : Nat := 4
def SAFE_CAN_ERR : Nat := 5

/-- The instances of each source of a region, in the order of R470; the length of the list is the number of its
sources. -/
def instances (r : Nat) : List Nat :=
  match r with
  | 0 => [1, 1, 1, 1, 1, 1, 4, 19, 1, 1]
  | 1 => [16, 16, 1, 1, 1]
  | 2 => [8, 8, 8, 8, 8, 8, 8, 8, 8, 8, 8, 64, 64, 1, 1]
  | 3 => [16, 16, 16, 1, 1, 1, 1]
  | 4 => [8, 8, 8, 8, 8, 8, 8, 8, 8, 8, 8, 8, 32, 32, 32, 32]
  | 5 => [8, 8, 8, 8, 8, 8, 8, 8, 8, 8, 8, 8, 32, 32, 32, 32]
  | 6 => [8, 8, 8, 8, 8, 8, 8, 8, 8, 8, 8, 8, 32, 32, 32, 32]
  | 7 => [8, 8, 8, 8, 8, 8, 8, 8, 8, 8, 8, 8, 32, 32, 32, 32]
  | 8 => [8, 8, 8, 8, 8, 8, 8, 8, 8, 8, 8, 8, 8, 8, 8, 8, 8, 8]
  | 9 => [8, 8, 8, 8, 8, 8, 8, 8, 8, 8, 8, 8, 8, 8, 8, 8, 8, 8]
  | 10 => [8, 8, 8, 8, 8, 8, 8, 8, 8, 8, 8, 8, 8, 8, 8, 8, 8, 8]
  | 11 => [8, 8, 8, 8, 8, 8, 8, 8, 8, 8, 8, 8, 8, 8, 8, 8, 8, 8]
  | 12 => [32, 32, 32, 32, 32, 32, 32, 32, 32, 32, 32, 32, 32, 32, 32, 32, 32, 32, 1, 32, 1, 32, 1]
  | 13 => [14, 14, 14, 14, 1, 1, 1, 1]
  | 14 => [1, 1, 1, 1, 4, 4, 4, 1, 1, 1, 1]
  | 15 => [16, 8, 1, 1, 1, 1]
  | 16 => [1, 1, 1, 1, 1, 1, 1, 1, 1]
  | 17 => [1, 1, 1, 1]
  | 18 => [1, 1, 1, 1, 1]
  | _ => []

end Sys2Proof.Machine.Src
end

