-- ==== Sys2Proof/Machine/State.lean ====
section
/-!
DEFINITION. The state of the EV1024, the stop reasons, and the state right after reset.

Registers, status bits, tables and mailbox windows live in one register file keyed by BAR0 offset (`Io.regs`), so a
status bit has one home; what no register shows (engines, queues, accumulators, latches) lives in one record per region.
Each field's default is its value right after reset.
-/
namespace Sys2Proof.Machine

/-- What leaves the device, in the order it leaves: the model's own trace of the pins, links and buses, so that an
effect the manual gives outside the device is seen.  Newest first. -/
inductive Out where
  /-- a read completes with data (R34), or an access completes with Completer Abort (R32), or with Unsupported Request, where
  no BAR holds the address (R295) -/
  | readData (who : Actor) (off : Nat) (w : Word)
  | abort (who : Actor) (off : Nat)
  /-- an access of the firmware ends with a bus error to its core (R430) -/
  | busError (off : Nat)
  | unsupported (sp : Space) (off : Nat)
  /-- the ports that reached the fabric in one cycle, in the order they are served (R28, R29) -/
  | granted (ports : List Nat)
  /-- an MSI-X message of a function (R311) -/
  | msix (pf1 : Bool) (vec : Nat)
  /-- one PTM dialog request (R63) -/
  | ptmDialog
  /-- the heater output OVN_HTR is driven at a duty and a frequency code PWMF (R57, R59) -/
  | ovnHtr (duty pwmf : Nat)
  /-- a message on the downstream bond of a tile (R206, R209) -/
  | tileMsg (tile mtype hdata mseq : Nat) (payload : List Wide)
  /-- a strobe on LSTB with the address on LSEL, and its width in ns (R139, R141) -/
  | strobe (ns addr : Nat)
  /-- a pulse on FIRE_P/N of a module, its edges in ticks (R142) -/
  | fire (m rise fall : Nat)
  /-- a frame on EWIRE: its data words (R145) -/
  | ewire (words : List (BitVec 48))
  /-- LSEL changes to an address at a tick (R139) -/
  | lsel (addr : Nat) (at_ : Wide)
  /-- LSUP_PWM switches, at a frequency code FSW and with a peak-current threshold IPK, or rests (R155, R157) -/
  | lsupPwm (on : Bool) (fsw ipk : Nat)
  /-- a turn-on or turn-off edge of LSUP_PWM that was moved to a tick, the end of a shot's interval (R155) -/
  | lsupEdge (on : Bool) (at_ : Wide)
  /-- CLKOUT carries the root clock of an island, divided, high for `high` half periods of that clock in each of its own (R431); all 0: low -/
  | clkout (sel div high : Nat)
  /-- the sequencer turns a rail off (R443) -/
  | railOff (rail : Rail)
  /-- the device reads the core voltage from the PMIC (R436) -/
  | avsRead
  /-- every output is at its reset level (R445): the lanes in electrical idle, the laser supply at rest, CLKOUT, OVN_HTR and the
  enables low -/
  | outputsReset
  /-- the enables LSW_HS_EN and LSW_LS_EN (R370) -/
  | switches (hs ls : Bool)
  /-- FAULT_N asserted or released (R372) -/
  | faultN (asserted : Bool)
  /-- channel B's STATUS PDU on CAN, with the transmit identifier of the profile (R387, R388) -/
  | statusPdu (id : Nat) (p : Pdu)
  /-- an alignment marker on the downstream lanes of a tile's bond (R201, R202) -/
  | alignMarker (tile active amseq : Nat)
  /-- scrambled IDLE has filled a downstream lane up to now (R178) -/
  | idleFill (lane : Nat)
  /-- successive blocks on a downstream lane, as they stand on the line: header and payload (R175, R176) -/
  | txBlocks (lane : Nat) (blocks : List (Nat × Wide))
  /-- a wake preamble (R189): groups of the clock pattern, IDLE blocks, WAKE_END as it stands on the line -/
  | preamble (lane groups idle : Nat) (wakeEnd : Wide)
  /-- a test mode drives the lane: PRBS9 or PRBS31, and the loop-back mode, near-end or far-end (R194); all 0: none -/
  | txTest (lane prbs loop_ : Nat)
  /-- a received block is retransmitted as it stands (R194, LOOP 2) -/
  | txRaw (lane hdr : Nat) (payload : Wide)
  /-- the EPOCH control block on a tile's clock lane (R205, R216) -/
  | epoch (tile beacon : Nat)
  /-- a downstream transmitter enters electrical idle after SLEEP_ANN, or leaves it with the wake preamble (R187, R189) -/
  | txIdle (lane : Nat) (idle : Bool)
  /-- posted writes to host memory (R306): ring data, a descriptor write-back, a status block; whether with Relaxed Ordering, and the
  greatest payload of one write (R293) -/
  | dma (ring : Nat) (addr : Wide) (ro : Bool) (mps : Nat) (bytes : List Byte)
  /-- an error message to the Root Complex, fatal or not (R309) -/
  | errMessage (fatal : Bool)
  /-- the read of descriptor i of a ring (R302) -/
  | descRead (ring i : Nat) (addr : Wide)
  /-- a pulse on SYNC_ARM_P/N (R346): its width in ns -/
  | syncPulse (ns : Nat)
  /-- the sectors that MEMC serves in a scheduling period (R329, R330): stacking, capture, check lines, management, capture export,
  scrub -/
  | memServed (stk cap check mgmt export_ scrub : Nat)
  /-- SYNC_TRIG asserted for 1 us (R348) -/
  | syncTrig
  /-- PMIC_EN is driven (R447) -/
  | pmicEn (on : Bool)
  /-- an AVSBus write of the core voltage, in mV (R436) -/
  | avsWrite (mv : Nat)
  /-- an SPDM response over DOE (R407, R408) -/
  | spdm (r : Spdm)
  /-- a JTAG instruction is executed, or refused (R418) -/
  | jtag (code : Nat) (done : Bool)
  /-- the status that answers a token presented through the JTAG debug mailbox (R416) -/
  | tokenStatus (status : Nat)
  /-- SAMPLE or EXTEST captures the boundary cells: those of LSW_HS_EN and LSW_LS_EN, which no instruction drives; whether the
  cells that can drive their pins do so (R418) -/
  | boundary (drive hs ls : Bool)
  deriving DecidableEq, Repr

/-- The registers, the error FIFO, the tick counter, the free-value counter and the trace: what every region shares. -/
structure Io where
  /-- the register file, values in force (R34); reset: register tables -/
  regs : SMap Word := []
  /-- the sketch: the staged copy of every STG register (R38); reset: register tables -/
  sketch : SMap Word := []
  /-- the commit shadow of an accepted commit (R45) -/
  shadow : SMap Word := []
  /-- wide values of a region, keyed region × 65536 + index (R51): 48-bit tills, 64-bit values; reset 0 -/
  wide : SMap Wide := []
  /-- the tick counter (R67); reset 0 -/
  tick : Wide := 0
  /-- the 256-entry FIFO of error records on their way to the log writer (R452); reset empty -/
  fifo : List ErrRec := []
  /-- updates of RW fields that the hardware lost to a software write of the same cycle, by block (location / 0x10000): the block's
  conflict count (R36); reset 0 -/
  conflicts : SMap Nat := []
  /-- MODEL FIELD: how many free values have been drawn; reset 0, DESIGN CHOICE -/
  free : Nat := 0
  /-- the link is in Recovery: outbound writes wait in a buffer, newest first, with their bytes (R315) -/
  recovery : Bool := false
  held : List Out := []
  heldBytes : Nat := 0
  /-- the time from VSYS to the start of the present count, in ticks (R446, CHIP_BOOT_STAT.MS); reset 0 -/
  upBase : Nat := 0
  /-- MODEL FIELD: what has left the device; reset empty -/
  out : List Out := []
  deriving DecidableEq, Repr

/-- One stop's statistics block in progress (R78, R79). -/
structure TiuBlock where
  n : Nat := 0
  s1 : Int := 0
  s2 : Nat := 0
  lo : Int := 0
  hi : Int := 0
  misses : Nat := 0
  deriving DecidableEq, Repr

/-- One eMRAM slot of the era counter (R69): the value, and whether its CRC-32C is valid. -/
structure EraSlot where
  era : Nat := 0
  valid : Bool := false
  deriving DecidableEq, Repr

/-- The oven calibration record in eMRAM (R58). -/
structure OvenRecord where
  valid : Bool := false
  setpt : Nat := 0
  band : Nat := 0
  kp : Nat := 0
  ki : Nat := 0
  iexc : Nat := 0
  deriving DecidableEq, Repr

/-- One PTM sample (R64): the device tick of a request, and the host time then in 1/256 ns, the link's delay removed. -/
structure PtmSample where
  tick : Wide
  host : Int
  deriving DecidableEq, Repr

/-- The shot the TIU is measuring (R73, R75): its fire tick, its line, the stops still open, whether it is a
diagnostic pulse, and the window in force at F in ns; every enabled stop is measured. -/
structure TiuShot where
  fire : Wide
  line : Word
  index : Nat
  stops : Nat
  diag : Bool
  opens : Nat
  closes : Nat
  deriving DecidableEq, Repr

/-- TBAS: the oven loop, the warm-up judgement, PTM, the era and the TIU. -/
structure Tbas where
  /-- the tick counter runs (R69, R71); reset: stopped until start-up stage 6 -/
  running : Bool := false
  /-- the time base has been lost and is not yet restored (R71) -/
  lost : Bool := false
  /-- the two eMRAM era slots (R69); DESIGN CHOICE: blank before the first power-on -/
  slotA : EraSlot := {}
  slotB : EraSlot := {}
  /-- the oven calibration record (R58); DESIGN CHOICE: blank -/
  oven : OvenRecord := {}
  /-- the oven loop runs (R57, R446 stage 5) -/
  ovenOn : Bool := false
  /-- the loop is stopped by an oven fault until the firmware clears it (R59) -/
  ovenHeld : Bool := false
  /-- TBAS_OVN_CTL as the loop's last update took it (R81, R359); reset: the register's -/
  ovenCtl : Word := 0x000C0023
  /-- the ratios of the settled pairs since the loop's last update, newest first, 2^-22 units (R57, R361) -/
  ratios : List Nat := []
  /-- integral term of the oven law, 2^-16 duty (R57) -/
  integral : Int := 0
  /-- the ratio has been in the band once (R59) -/
  entered : Bool := false
  /-- 5 ms updates spent in the band, without a break (R60) -/
  inBand : Nat := 0
  /-- 5 ms updates spent outside five bands, without a break (R61) -/
  outBand : Nat := 0
  /-- 5 ms updates with the duty at MAXDUTY since the band was entered (R59) -/
  atMax : Nat := 0
  /-- 5 ms updates since the oven loop started, from which WARM_S counts (R60) -/
  ovenUpd : Nat := 0
  /-- ovenUpd when TB_WARM was last set: the 120 s of hold mode count from it (R61) -/
  warmBase : Nat := 0
  /-- the ticks of this count at which TB_WARM changed, newest first: what it was at an earlier tick (R344) -/
  warmLog : List Wide := []
  /-- a PTM dialog is in progress (R63) -/
  ptmBusy : Bool := false
  /-- the tick at which the last dialog started (R63) -/
  ptmAt : Option Wide := none
  /-- the last rate estimate, 2^-40 (R64): TBAS_PTM_RATE shows it when the triple is latched -/
  rate : Int := 0
  /-- the last 16 good dialogs, newest first (R64) -/
  ptm : List PtmSample := []
  /-- consecutive failed dialogs (R66) -/
  ptmFails : Nat := 0
  /-- PTM was active when HOST was reset: its dialogs fail until it is declared lost (R316) -/
  ptmDown : Bool := false
  /-- the tick since which every rate estimate has lain within 0.2 ppm (R60) -/
  rateGood : Option Wide := none
  /-- the tick since which holding RATE would need TRIM beyond its bound (R65) -/
  trimBound : Option Wide := none
  /-- the tick of the last change of TRIM (R65) -/
  trimAt : Option Wide := none
  /-- the statistics block of each stop (R78); unlisted: empty -/
  blocks : SMap TiuBlock := []
  /-- the shot being measured (R73) -/
  shot : Option TiuShot := none
  deriving DecidableEq, Repr

/-- A listening window of a sector: start in ns after F, KBIN and NBIN (R95, R127). -/
structure Window where
  wstart : Nat
  kbin : Nat
  nbin : Nat
  deriving DecidableEq, Repr

/-- A zoom window armed on a run of channels of a line (R128). -/
structure Zoom where
  slot : Nat
  k : Nat
  start : Nat
  first : Nat
  count : Nat
  deriving DecidableEq, Repr

/-- The stacking setting of a line (R129). -/
structure StackSet where
  en : Bool
  depth : Nat
  clr : Bool
  deriving DecidableEq, Repr

/-- One admitted shot of a line: its fire tick, whether it only listens, whether it has been fired, for each module
the corrected interval d of its TIU stop in quarter ticks (R74), and the modules whose interval was substituted
(R76). -/
structure ShotRec where
  fire : Wide
  listen : Bool
  fired : Bool := false
  d : SMap Int := []
  miss : Nat := 0
  deriving DecidableEq, Repr

/-- A published motion set (R246, R247) with its effective tick. -/
structure Motion where
  vx : Int
  vy : Int
  vz : Int
  yaw : Int
  eff : Wide
  deriving DecidableEq, Repr

/-- An admitted line (R90, R91) with all that has been admitted on it. -/
structure LineRec where
  seq : Word
  frame : Word
  era : Nat
  easel : Nat
  desc : Nat
  start : Wide
  /-- MODEL FIELD: what time-base restarts have taken off the ticks of the line; its records carry start + shift (R71); 0 -/
  shift : Wide := 0
  /-- the dwell D in ticks; F and LMODE of its LINE (R91, R123) -/
  dwell : Nat
  isFrame : Bool
  lmode : Nat
  /-- WINDOW settings by sector (R127) -/
  win : SMap Window := []
  /-- ZOOM settings, newest first (R128) -/
  zooms : List Zoom := []
  /-- STACK setting (R129) -/
  stack : Option StackSet := none
  /-- admitted shots in tick order -/
  shots : List ShotRec := []
  /-- the line carried a TRAIN or LISTENONLY; its code, length S, keyed draw -/
  train : Bool := false
  code : Nat := 0
  len : Nat := 1
  keyed : Bool := false
  /-- shots denied by the ledger (R93) -/
  denied : Nat := 0
  /-- the four descriptor words in force at the LINE tick (R15), taken at the line's start -/
  d0 : Word := 0
  d1 : Word := 0
  d2 : Word := 0
  d3 : Word := 0
  /-- the LINE tick has come, and L + D (R90) -/
  started : Bool := false
  ended : Bool := false
  /-- a part of the line's path restarted: its points carry DEGRADED (R21); a time-base restart cut the line or a bank that overlaps it:
  its record carries DEGRADED (R72) -/
  degraded : Bool := false
  broken : Bool := false
  /-- tiles whose points of this line carry LOW_CONF: UNGATED was received (R210) -/
  low : Nat := 0
  /-- per tile, the number of the LINE_SELECT that announced the line, and the tiles whose AMBIENT of it has been taken (R208, R215) -/
  selects : SMap Nat := []
  ambient : Nat := 0
  /-- per tile, tagged events and those whose tag differs (R214) -/
  tags : SMap (Nat × Nat) := []
  /-- TB_WARM at the line's first fire tick, or at L with no shot (R62, R285) -/
  warm : Bool := false
  /-- point ring of the line's easel as mapped at the LINE tick (R298) -/
  ring : Nat := 0
  /-- zoom windows armed for the line, keyed channel × 4 + slot: the window's number in its region (R238) -/
  armed : SMap Nat := []
  /-- stacking (R243, R244): 0 not asked, 1 due, 2 left unstacked, 3 stacked -/
  stk : Nat := 0
  /-- the motion set in force at L (R247) -/
  motion : Option Motion := none
  /-- sectors whose bank has swapped at the line's end, and sectors whose digest entry is written (R233, R282) -/
  swapped : Nat := 0
  dig : Nat := 0
  /-- a read-out has been labelled with the line (R282) -/
  own : Bool := false
  /-- STATUS bits 1 and 6 of the line record: a digest entry has DEGRADED, or INTERF (R285) -/
  digDeg : Bool := false
  digInterf : Bool := false
  /-- modules whose matrix line of the address was due, or not yet reported, in the dwell (R161) -/
  pend : Nat := 0
  /-- STATUS bits 2, 7 and 11: a read-out of the line was discarded (R23), a point of it would carry DIAG_PENDING (R161), an echo of it
  LOW_CONF (R285) -/
  overrun : Bool := false
  diag : Bool := false
  lowConf : Bool := false
  deriving DecidableEq, Repr

/-- A shot waiting in the shot queue (R10). -/
structure Shot where
  fire : Wide
  line : Word
  index : Nat
  easel : Nat
  listen : Bool
  /-- the tick at which its action takes the descriptor: a train's first fire tick (R124) -/
  desc0 : Wide
  deriving DecidableEq, Repr

/-- What an action queue entry does at its tick (R88, R92). -/
inductive Act where
  | line
  | window
  | zoom
  | stack
  | stag (bytes : List Nat)
  | swap (mask : Nat)
  deriving DecidableEq, Repr

/-- An action queue entry (R92). -/
structure Action where
  tick : Wide
  easel : Nat
  line : Word
  act : Act
  deriving DecidableEq, Repr

/-- A request at an easel's action port (R87, R122 to R129). -/
inductive Request where
  | line (desc : Nat) (tick : Wide) (dwell : Nat) (frame : Bool) (lmode : Nat)
  | shot (tick : Wide)
  | train (tick : Wide) (len : Nat) (key deflt listen : Bool) (code : Nat)
  | stag (tick : Wide) (bytes : List Nat)
  | window (w : Window) (mask : Nat)
  | zoom (z : Zoom)
  | swap (tick : Wide) (mask : Nat)
  | stack (x : StackSet)
  deriving DecidableEq, Repr

/-- A request with the registers it answers to: Gd and P[PD], and whether it has already been held by a full queue (R10, R92). -/
structure Port where
  req : Request
  gd : Nat
  pd : Nat
  held : Bool := false
  deriving DecidableEq, Repr

/-- What an easel waits for (R87). -/
inductive Wait where
  | none
  | time (t : Wide)
  | digest (n : Word)
  | signal (n : Nat)
  | arbiter
  deriving DecidableEq, Repr

/-- What an easel holds beyond its registers (R83): predicates, program counter, EXL, HOP, causes and the G and T
registers live in the register file at their debug windows. -/
structure Easel where
  /-- saved predicates (R104); reset 0 by R109 -/
  epred : Nat := 0
  /-- status of the last timed action (R122); reset 0 by R109, DESIGN CHOICE at power-on -/
  astat : Word := 0
  /-- what the easel waits for: a time, a digest, a signal, the arbiter (R121, R122, R131, R133) -/
  wait : Wait := .none
  /-- its request at the arbiter (R92) -/
  port : Option Port := none
  /-- the tick from which the watchdog counts while the easel is not halted (R106) -/
  wdogFrom : Wide := 0
  /-- ticks the watchdog had counted when the easel was halted (R106) -/
  wdogKept : Nat := 0
  /-- tick of the previous admitted timed action (R89) -/
  prev : Option Wide := none
  /-- line sequence of the current line (R90) -/
  cur : Option Word := none
  /-- tick at which a pending bank swap becomes possible (R108) -/
  swapFrom : Option Wide := none
  /-- phase and buffer of PM_DATA (R107) -/
  pmHigh : Bool := false
  pmBuf : Wide := 0
  /-- a STEP is in progress: the easel halts when its instruction completes (R109) -/
  stepping : Bool := false
  deriving DecidableEq, Repr

/-- A charge or true-up recorded in a ledger window (R162 to R165). -/
structure Charge where
  win : Nat
  grp : Nat
  at_ : Int
  cu : Nat
  deriving DecidableEq, Repr

/-- A charge of one module, for the true-up (R165); `at_` in quarter ticks: t_emit, or 4 F without one. -/
structure ModCharge where
  mod_ : Nat
  grp : Nat
  line : Word
  index : Nat
  at_ : Int
  cu : Nat
  deriving DecidableEq, Repr

/-- SCAN: the easels, the arbiter, the queues and the ledger. -/
structure Scan where
  /-- the eight easels (R83) -/
  easels : SMap Easel := []
  /-- program memories, keyed easel × 8192 + bank × 4096 + index (R83); DESIGN CHOICE: 0 at reset -/
  pm : SMap Wide := []
  /-- data memories, bytes keyed easel × 16384 + address (R83); DESIGN CHOICE: 0 at reset -/
  dm : SMap Byte := []
  /-- the shot queue, 512 descriptors in order of fire tick (R10) -/
  shotQ : List Shot := []
  /-- the action queue, 256 entries (R92) -/
  actQ : List Action := []
  /-- admitted lines whose records are not yet delivered, oldest first (R90) -/
  lines : List LineRec := []
  /-- end L + D of the last admitted line of any easel (R89 check 3) -/
  lastEnd : Option Wide := none
  /-- the easel last served by the arbiter (R92); DESIGN CHOICE: 7 at reset, so easel 0 is first -/
  lastServed : Nat := 7
  /-- easels that SCAN_START starts together, and the tick: SCAN_START (R110) -/
  startDue : Nat := 0
  startAt : Wide := 0
  /-- ledger charges and true-ups (R163) -/
  charges : List Charge := []
  /-- charges per module not yet compared with a slow sample (R165) -/
  modCharges : List ModCharge := []
  /-- a safety profile has been staged since reset, so rule 0x0006 judges the ledger values (R167) -/
  profileStaged : Bool := false
  /-- a ledger violation has not yet been cleared by the firmware, whose clearing alone ends the cause (R378) -/
  violHeld : Bool := false
  deriving DecidableEq, Repr

/-- A queued E-wire write: the CUR2 pair at an even line address, or a setting (R150). -/
structure EwItem where
  set : Bool
  addr : Nat
  deriving DecidableEq, Repr

/-- The word a module has in the frame under way: its write, or none for NOP, and APPLY (R150). -/
structure EwSent where
  item : Option EwItem
  apply : Bool
  deriving DecidableEq, Repr

/-- A diagnosis armed in a dwell (R159): the line, its tick G, and the due modules. -/
structure DiagArm where
  line : Word
  g : Wide
  mods : List Nat
  deriving DecidableEq, Repr

/-- EMIT: E-wire loading, laser supply, string diagnosis, staggers. -/
structure Emit where
  /-- E-wire writes still to be sent, per module, in ascending address order (R150) -/
  ewQ : SMap (List EwItem) := []
  /-- the frame under way, a word per module (R145, R151) -/
  ewFrame : Option (List EwSent) := none
  /-- modules with a load whose last word has not yet been accepted (R150) -/
  ewOpen : List Nat := []
  /-- consecutive frames not delivered (R152) -/
  ewFails : Nat := 0
  /-- a module reported MORE in the last accepted frame (R151) -/
  ewMore : Bool := false
  /-- frames stay stopped after GAVEUP, and switching after an overvoltage, until the firmware clears them (R152, R157) -/
  ewHeld : Bool := false
  ovHeld : Bool := false
  /-- the LGRP of the previous line (R151) -/
  prevGrp : Option Nat := none
  /-- the LINE tick at which a frame may start: of a frame start, or of a line-group change with LGB (R151) -/
  ewMay : Option Wide := none
  /-- lowest HDRM sample of the tracking interval (R154) -/
  hmin : Option Nat := none
  /-- consecutive updates with H_min below 0.3 V at VMAX (R157) -/
  lowRun : Nat := 0
  /-- the tick from which LSUP_PWM switches, its cycles counted from it (R155) -/
  lsupFrom : Wide := 0
  /-- switching is paused for a quiet window (R156), the tick of the pause's start, and that of the last pause's end -/
  paused : Bool := false
  pauseFrom : Wide := 0
  pauseEnd : Option Wide := none
  /-- tick at which a matrix line was last diagnosed, keyed m × 64 + a (R158); unlisted: that of the reset, from which its age counts -/
  lastDiag : SMap Int := []
  diagFrom : Int := 0
  /-- lines that fell due since the last frame start (R159) -/
  dueNew : List Nat := []
  /-- lines diagnosed while due whose result has not been reported (R161), and those the frame under way reports -/
  unreported : List Nat := []
  inFrame : List Nat := []
  /-- the diagnostic arm in force (R159) -/
  arm : Option DiagArm := none
  /-- stagger in force by an admitted STAG, per module (R126) -/
  stag : SMap Nat := []
  /-- the tick of the STAG that set it, per module (R126) -/
  stagAt : SMap Wide := []
  deriving DecidableEq, Repr

/-- One detector lane beyond its registers (R172 to R195). -/
structure Lane where
  /-- the last 58 received payload bits, newest highest (R176); DESIGN CHOICE: 0 before the first block -/
  hist : BitVec 58 := 0
  /-- the last 31 received bits, for the PRBS checker (R194); DESIGN CHOICE: 0 before the first block -/
  prbs : BitVec 31 := 0
  /-- the transmitter's scrambler, its newest bit highest (R176); reset: all ones -/
  scr : BitVec 58 := BitVec.allOnes 58
  /-- the tick at which the transmitter last sent blocks of the model's commands (R178) -/
  txAt : Option Wide := none
  /-- the next wake sends the enable preamble (R189, R199) -/
  enable : Bool := false
  /-- the generator of the transmitter's PRBS, its newest bit highest (R194); DESIGN CHOICE: all ones at reset -/
  gen : BitVec 31 := BitVec.allOnes 31
  /-- in WAKE, the end of the clock pattern has not been seen (R190): UI of alternation so far, and the last UI -/
  clk : Bool := false
  alt : Nat := 0
  lastUi : Option Bool := none
  /-- the candidate position of the block boundary, in UI modulo 66 (R179); DESIGN CHOICE: 0 at reset -/
  cand : Nat := 0
  /-- the fractions of the equaliser values in 2^-15, CTLE 0 and DFE1 to DFE5 (R184) -/
  eqFrac : SMap Nat := []
  /-- consecutive valid headers while hunting (R179) -/
  good : Nat := 0
  /-- block lock found inside WAKE, delivery withheld (R190) -/
  inner : Bool := false
  /-- position in the 64-header window, and invalid headers in it (R179) -/
  pos : Nat := 0
  bad : Nat := 0
  /-- SLEEP_ANN has been received: adaptation frozen, CDR held (R188) -/
  ann : Bool := false
  /-- squelch is asserted: the far transmitter is in electrical idle (R183, R188); DESIGN CHOICE: asserted at reset -/
  squelch : Bool := true
  /-- phase accumulator and interpolator position of the CDR (R181) -/
  ph : Int := 0
  interp : Nat := 0
  /-- tick at which the transmitter entered electrical idle (R187) -/
  idleFrom : Option Wide := none
  /-- ES_CTL as the eye-scan point in progress took it at its GO (R193) -/
  es : Word := 0
  deriving DecidableEq, Repr

/-- A phase measurement of a tile (R216): exchanges sent, beacons waiting with their t1, twice ofs(j) of the good
ones. -/
structure Phase where
  busy : Bool := false
  sent : Nat := 0
  wait : List (Nat × Int) := []
  ofs2 : List Int := []
  /-- die temperature at its start, in 1/16 K (R216) -/
  temp : Int := 0
  deriving DecidableEq, Repr

/-- One tile port beyond its registers (R198 to R219). -/
structure TilePort where
  /-- consecutive failed attempts to reach RUN (R198) -/
  attempts : Nat := 0
  /-- target generation of the change in progress, and its switch tick (R199) -/
  target : Nat := 0
  tsw : Option Wide := none
  /-- MSEQ of the next message sent, and of the last received (R206, R207) -/
  txSeq : Nat := 0
  rxSeq : Option Nat := none
  /-- upstream alignment: AMSEQ of the period, the lanes whose AM has arrived, the ACTIVE it carries and the lane that
  carried it, the lanes excluded from deskew, and whether the period has been released (R203) -/
  amSeq : Option Nat := none
  amSeen : Nat := 0
  amActive : Nat := 0
  amLane : Nat := 4
  upExcl : Nat := 0
  amDone : Bool := true
  /-- the BIDX that each upstream lane's last AM carried, by the lane's place in the tile (R202); unlisted: that place -/
  bidx : SMap Nat := []
  /-- downstream alignment: lanes awake at the last AM, next AMSEQ, lanes the tile reports in DN_EXCL, lanes that may not be the clock lane
  (R203, R204) -/
  dnAwake : Nat := 0
  dnSeq : Nat := 0
  dnExcl : Nat := 0
  clkOut : Nat := 0
  /-- downstream lanes that have lost the clock role and rejoin the bond at a later relink (R204) -/
  dnOut : Nat := 0
  /-- tick of the last AM sent since the port entered LANES, and the next stream block of its period (R201) -/
  dnAt : Option Wide := none
  dnPos : Nat := 0
  /-- the highest generation to try on this link, lowered by a fallback until the next relink (R199) -/
  genCap : Nat := 3
  /-- LINE_SELECT messages sent since the port entered LANES (R208); DESIGN CHOICE: that the count starts there -/
  selects : Nat := 0
  /-- the address of the register request outstanding (R219) -/
  regAddr : Option Nat := none
  /-- die temperature at the last adopted measurement, in 1/16 K (R216) -/
  phTemp : Option Int := none
  /-- ALLOW of the last SLEEP sent (R204) -/
  allow : Nat := 0
  /-- next beacon number, the measurement, a candidate beyond OFSJ, consecutive failed measurements (R216, R217) -/
  beacon : Nat := 0
  phase : Phase := {}
  jump : Option Int := none
  phFails : Nat := 0
  /-- tick of the start of the last measurement (R216) -/
  phAt : Option Wide := none
  /-- adopted OFS not yet in force, oldest first, and the LINE tick from which each is, once a line gives it (R218) -/
  ofsNext : List (Wide × Option Wide) := []
  /-- the OFS before the last adoption, for events before its LINE tick (R218) -/
  ofsOld : Option (Wide × Wide) := none
  /-- the next measurement is the first since LANES, with a wrap count of 0 (R212) -/
  fresh : Bool := true
  /-- the device tick from which the port may enter RUN, with its initial AMBIENT_SET (R215) -/
  runAt : Option Wide := none
  /-- the extended number of the last SLOT mark since RUN (R212) -/
  slot : Option Int := none
  /-- coincidence depths have changed and wait for a line to name (R215) -/
  ambDue : Bool := false
  deriving DecidableEq, Repr

/-- LNK: the 128 lanes (R172) and the 32 tile ports (R198). -/
structure Lnk where
  lanes : SMap Lane := []
  ports : SMap TilePort := []
  deriving DecidableEq, Repr

/-- One entry of a stall's combining buffer (R229): the bank's start, the bin, the increment. -/
structure Cmb where
  bank : Option Wide
  bin : Nat
  inc : Nat
  deriving DecidableEq, Repr

/-- A combining buffer (R229, R239): its entries, oldest first, and the tick up to which it has retired. -/
structure CmbBuf where
  at_ : Wide := 0
  entries : List Cmb := []
  deriving DecidableEq, Repr

/-- One bank of a sector's 32 stalls and zoom windows (R229, R230, R236, R237). -/
structure Bank where
  /-- the tick from which it accumulates; none: since reset (R233) -/
  from_ : Option Wide := none
  /-- main bins, keyed channel of the sector × 4096 + bin -/
  bins : SMap Nat := []
  /-- zoom bins, keyed (channel of the sector × 4 + slot) × 256 + bin -/
  zbins : SMap Nat := []
  /-- main updates accepted, newest first: channel of the sector, time after the emission less DLY, bin entered; a mixed bank is binned
  anew from them (R236) -/
  kept : List (Nat × Int × Nat) := []
  /-- channels with SAT, DEGRADED, LOW_CONF (R236) -/
  sat : Nat := 0
  deg : Nat := 0
  low : Nat := 0
  deriving DecidableEq, Repr

/-- One echo of a channel with its measures (R264 to R270, R274). -/
structure Echo where
  range : Nat
  intensity : Nat
  width : Nat
  snr : Nat
  /-- A and b_f, in 1/256 of an output unit (R263, R264), and s2 = s2num / 2^s2exp (R263), which go on to classification (R266) -/
  amp : Int
  bf : Int
  s2num : Nat
  s2exp : Nat
  /-- CCR (R274), and UNSETTLED_EDGE (R267) -/
  ccr : Nat
  unset : Bool
  /-- K of the zoom window it was measured in (R268) -/
  zoom : Option Nat := none
  deriving DecidableEq, Repr

/-- What a channel delivers to OUTP (R236, R269): its echoes in order, its background in 2^-16 count, its status, the
filter's input and its output with the unsettled mark (R260). -/
structure ChanOut where
  echoes : List Echo
  beta : Nat
  sat : Bool
  deg : Bool
  low : Bool
  stacked : Bool
  zoomed : Bool
  raw : List Nat
  out : List (Int × Bool)
  deriving DecidableEq, Repr

/-- A sector's bank that has stopped accumulating (R233 to R236), until OUTP has classified its sector. -/
structure ReadBank where
  sector : Nat
  /-- line sequence of its label (R236) -/
  line : Word
  /-- its swap tick, and the tick at which its read-out starts (R233, R234) -/
  stop : Wide
  readAt : Wide
  /-- the read-out has started (R234) -/
  started : Bool := false
  /-- the palette its histograms are filtered with (R253, R255) -/
  pal : Nat
  /-- its contents (R229) -/
  bank : Bank
  /-- channels of the sector delivered, and channels discarded (R23) -/
  chans : SMap ChanOut := []
  lost : Nat := 0
  /-- restart points of the filter, and failed checks, by histogram (R260, R261): a channel's main histogram under its number, its zoom
  window of slot i under 32 + 4 × channel + i -/
  restarts : SMap (List Nat) := []
  fails : SMap Nat := []
  /-- channels whose stall was replaced at the swap, and the stall that this bank is read from (R241) -/
  retired : SMap Nat := []
  /-- the line passes through the stacking engine (R244) -/
  stack : Bool := false
  deriving DecidableEq, Repr

/-- An event that has passed ingest while the TIU has yet to report a stop that it needs (R227): its channel, type, t_dev in 1/16 tick,
and the tick of its arrival. -/
structure Waiting where
  chan : Nat
  typ : Nat
  x : Int
  arrival : Wide
  deriving DecidableEq, Repr

/-- HST: banks, buffers, substitutions. -/
structure Hst where
  /-- the accumulating bank of each sector (R229) -/
  acc : SMap Bank := []
  /-- banks stopped and not yet classified, oldest first -/
  reads : List ReadBank := []
  /-- combining buffers of the stalls by channel (R229), and of the zoom store keyed region × 16 + sub-bank (R239) -/
  cmb : SMap CmbBuf := []
  zcmb : SMap CmbBuf := []
  /-- channels whose stall is to be replaced at the next bank swap, and the spare (R240, R241) -/
  subst : SMap Nat := []
  /-- events that wait for a stop of the TIU, in the order they left ingest (R227, R228) -/
  wait : List Waiting := []
  deriving DecidableEq, Repr

/-- One point record, four words (R286). -/
structure PointRec where
  dw0 : Word
  dw1 : Word
  dw2 : Word
  dw3 : Word
  deriving DecidableEq, Repr

/-- A read-out unit of a line (R283, R284): the sectors swapped at one tick, and what they have given. -/
structure OutUnit where
  line : Word
  stop : Wide
  sectors : Nat := 0
  done : Nat := 0
  /-- a later unit of its line (R283) -/
  later : Bool := false
  /-- points of each sector -/
  points : SMap (List PointRec) := []
  /-- points of the unit were lost in a restart of OUTP (R22) -/
  lost : Bool := false
  /-- export rings the unit qualifies for (R288), once judged -/
  hex : Option Nat := none
  deriving DecidableEq, Repr

/-- A line that has been output for a sector (R276): ranges of its classified echoes by channel. -/
structure PrevLine where
  line : Word
  era : Nat
  finish : Wide
  deg : Bool
  ranges : SMap (List Nat)
  deriving DecidableEq, Repr

/-- OUTP: units and what classification remembers. -/
structure Outp where
  /-- units not yet placed, in the order they are placed (R284) -/
  units : List OutUnit := []
  /-- the previous line of each sector (R276) -/
  prev : SMap (List PrevLine) := []
  /-- qualifying lines since the last export of each ring; unlisted: none since EN was set (R288) -/
  hex : SMap Nat := []
  deriving DecidableEq, Repr

/-- A fetched descriptor (R299, R302). -/
structure Desc where
  addr : Wide
  size : Nat
  cookie : Word
  deriving DecidableEq, Repr

/-- One DMA ring beyond its registers (R299 to R312). -/
structure Ring where
  /-- BASE, WB and DSZ latched at enable (R308) -/
  base : Wide := 0
  wb : Wide := 0
  dsz : Nat := 0
  /-- descriptors fetched and not completed; the first is being filled (R302) -/
  descs : List Desc := []
  /-- bytes in the current buffer, and the tick at which the last record entered it (R304) -/
  data : List Byte := []
  lastAt : Wide := 0
  /-- an item begins in the current buffer, and the drops it reports (R299) -/
  begun : Bool := false
  drops : Nat := 0
  /-- drops not yet reported (R305) -/
  dropped : Nat := 0
  /-- completions since the last completion interrupt, and the tick of the first (R312) -/
  coal : Nat := 0
  coalAt : Wide := 0
  deriving DecidableEq, Repr

/-- The DOE instance of PF1 (R293): the words of the object being written, and those of the response still to be read. -/
structure Doe where
  req : List Word := []
  rsp : List Word := []
  deriving DecidableEq, Repr

/-- A record that waits in the export staging buffer (R314): its export ring, 0 to 3, and its channel. -/
structure Staged where
  ring : Nat
  chan : Nat
  bytes : List Byte
  deriving DecidableEq, Repr

/-- HOST: rings and the link. -/
structure HostIf where
  rings : SMap Ring := []
  /-- the export staging buffer: records of the export rings, oldest first (R314) -/
  staged : List Staged := []
  /-- the token bucket of export traffic, in 1/512 byte, the tick it was last filled, and the export ring served next (R313); DESIGN CHOICE:
  full, and ring 8, at reset -/
  tokens : Nat := 33554432
  stageAt : Wide := 0
  expNext : Nat := 0
  /-- PERST_N is asserted (R316); DESIGN CHOICE: asserted at reset -/
  perst : Bool := true
  /-- the DOE mailbox of PF1 (R293) -/
  doe : Doe := {}
  /-- Subsystem ID and Subsystem Vendor ID of the head configuration record in eMRAM (R294); DESIGN CHOICE: none present -/
  subsystem : Option (BitVec 16 × BitVec 16) := none
  deriving DecidableEq, Repr

/-- The geometry of a line: KBIN, NBIN and the window start of every sector (R242, R245). -/
structure Geometry where
  kbin : Nat := 0
  nbin : Nat := 0
  wstart : List Nat := []
  deriving DecidableEq, Repr

/-- The header of a history slot (R242); a slot never written has NFRAMES 0 (R326). -/
structure StkHeader where
  tick : Wide := 0
  era : Nat := 0
  nframes : Nat := 0
  geo : Geometry := {}
  /-- the header has an uncorrectable error (R328) -/
  bad : Bool := false
  deriving DecidableEq, Repr

/-- A line in the stacking engine (R244, R245). -/
structure StkJob where
  line : Word
  slot : Nat
  depth : Nat
  fresh : Bool
  /-- LINE tick less LAST_TICK, in ticks -/
  dt : Nat
  /-- its completion C_N -/
  done : Wide
  /-- the header it leaves in its slot (R242) -/
  header : StkHeader
  deriving DecidableEq, Repr

/-- A trigger of the capture engine (R338 to R340). -/
structure CapTrig where
  tick : Wide
  era : Nat
  cause : Nat
  primary : Nat
  frac : Nat
  warm : Bool
  /-- sub-source of the trigger sample, and number since ARM of the stored sample that holds it; none while its
  interval of reduction is open (R342) -/
  sub : Nat
  at_ : Option Nat
  deriving DecidableEq, Repr

/-- Where the trigger of the last sample processed stands, if it fired one: another condition that fires at that sample
joins it (R339). -/
inductive CapHit where
  | none | segment | queued | missed
  deriving DecidableEq, Repr

/-- One segment of a capture (R335, R336). -/
structure CapSeg where
  /-- the newest stored samples, newest first, and how many have been stored -/
  samples : List Sample := []
  n : Nat := 0
  /-- number since ARM of its first stored sample, and of the sample from which the post-trigger count runs -/
  base : Nat
  from_ : Option Nat := none
  trig : Option CapTrig := none
  queued : Bool := false
  qdly : Nat := 0
  aborted : Bool := false
  /-- numbers of the stored samples with a gap before them (R333) -/
  gaps : List Nat := []
  deriving DecidableEq, Repr

/-- An interval of reduction of one sub-source (R342): samples taken, first tick, minimum and maximum sample. -/
structure CapRed where
  n : Nat
  tick : Nat
  lo : Wide
  hi : Wide
  deriving DecidableEq, Repr

/-- A sample in the capture FIFO, and whether samples were lost before it (R333, R334). -/
structure CapIn where
  x : Sample
  gap : Bool := false
  deriving DecidableEq, Repr

/-- MEMC: stacking, capture, the sync bus. -/
structure Memc where
  /-- motion sets, newest first (R247) -/
  motion : List Motion := []
  /-- completion of the last stacked line (R244) -/
  cPrev : Option Wide := none
  /-- history bins keyed (slot × 1024 + channel) × 4096 + bin, residual shifts keyed slot × 1024 + channel, headers
  (R242); empty after training (R326) -/
  hist : SMap Nat := []
  res : SMap Int := []
  headers : SMap StkHeader := []
  /-- histories with an uncorrectable error, keyed slot × 1024 + channel (R328) -/
  badBins : List Nat := []
  /-- lines being stacked, oldest first (R244) -/
  jobs : List StkJob := []
  /-- channels being retrained, with the tick of the start (R324) -/
  retrain : SMap Wide := []
  /-- what stacking and capture have left of their credit in the scheduling period, in sectors (R329) -/
  stkCredit : Nat := 0
  capCredit : Nat := 0
  /-- the client whose turn is next in the round robin: 0 management, 1 capture export, 2 scrub (R329); DESIGN CHOICE: management at
  reset -/
  wrrTurn : Nat := 0
  /-- the pin rate that the last training took from RATE, in Gbit/s (R323); reset: RATE's -/
  rate : Nat := 32
  /-- tick at which the next scrub pass is due, in the present count, which it may exceed (R327); none: at once -/
  scrubAt : Option Int := none
  /-- capture settings latched at ARM, by location (R335) -/
  cap : SMap Word := []
  /-- segments, oldest first; the last is open (R335) -/
  segs : List CapSeg := []
  /-- queued triggers, oldest first (R340) -/
  capQ : List CapTrig := []
  /-- samples stored since ARM, the previous sample of each sub-source, reductions in progress (R337, R342) -/
  stored : Nat := 0
  prev : SMap Sample := []
  red : SMap CapRed := []
  /-- the last sample processed in the open segment, the number of the stored sample that holds it, and the trigger it fired
  (R337, R339, R342) -/
  last : Option Sample := none
  lastAt : Option Nat := none
  hit : CapHit := .none
  /-- conditions 4 and 5 that fired before a segment's first sample, with the tick a sync assertion gives (R337) -/
  early : List (Nat × Option Wide) := []
  /-- the capture FIFO between the taps and the memory, oldest first (R334) -/
  fifo : List CapIn := []
  /-- samples have been lost since the last one that entered the FIFO, and since the last one stored (R333) -/
  gapIn : Bool := false
  gap : Bool := false
  /-- export: the segment, and the first sample of its next data record; none: its summary (R343) -/
  expSeg : Nat := 0
  expAt : Option Nat := none
  /-- sectors of the capture area with an uncorrectable error, and how many samples had been stored when it was found (R328) -/
  badCap : List (Nat × Nat) := []
  /-- tick at which the FRAME pulse under way ends, and a deferred ARM (true) or DISARM (R346) -/
  pulseEnd : Option Wide := none
  deferred : Option Bool := none
  deriving DecidableEq, Repr

/-- One slow chain (R353 to R358): 0 to 15 monitor inputs, 16 to 19 sense chains. -/
structure MoniChain where
  /-- tick from which its outputs are counted, and the numbers of its last sinc³ and FIR outputs (R353, R358) -/
  base : Wide := 0
  sincs : Nat := 0
  firs : Nat := 0
  /-- settle point, and sinc³ outputs completed after it, up to three (R356, R357) -/
  settle : Wide := 0
  after : Nat := 0
  /-- consecutive settled sinc³ outputs, up to 127 (R356) -/
  good : Nat := 0
  /-- sinc³ outputs since the last one with OPEN, up to 127, and a source of its pins has entered compliance since the last output
  (R360) -/
  clean : Nat := 127
  opened : Bool := false
  deriving DecidableEq, Repr

/-- One conversion of the housekeeping ADC (R364, R365): of an entry of the sequence, or of a port's request. -/
structure HkConv where
  port : Option Nat
  entry : Nat := 0
  input : Nat
  avg : Nat := 0
  /-- the last conversion of its entry -/
  last : Bool := true
  alen : Bool := false
  lo : Nat := 0
  hi : Nat := 4095
  deriving DecidableEq, Repr

/-- A conversion in progress: its slice, its start, and whether a source of its pin has been in compliance during it (R360, R363, R364). -/
structure HkBusy where
  slice : Nat
  start : Wide
  open_ : Bool := false
  deriving DecidableEq, Repr

/-- MONI: slow chains and the housekeeping sequencer. -/
structure Moni where
  chains : SMap MoniChain := []
  /-- conversions of the running sequence and of requests, in the order they end (R364, R365); the first of them are in progress -/
  hk : List HkConv := []
  busy : List HkBusy := []
  /-- normal requests that wait for the sequence to end (R365) -/
  hkWait : List HkConv := []
  /-- start tick of the sequence, the next due one of MODE 2, and whether a request holds it up (R364, R365) -/
  hkStart : Wide := 0
  hkDue : Option Wide := none
  hkLate : Bool := false
  /-- sum of the entry's conversions that have ended, and whether one met an open source -/
  hkSum : Nat := 0
  hkOpen : Bool := false
  /-- only one slice is left (R363) -/
  hkOne : Bool := false
  /-- tick of the last rotation (R363) -/
  rotAt : Wide := 0
  /-- ticks of the synchronising resets asked for, and their chains, in order (R358) -/
  syncs : List (Wide × Nat) := []
  /-- entries whose last result lay outside their limits (R366) -/
  outside : Nat := 0
  deriving DecidableEq, Repr

/-- A copy of a safety PDU that waits for its partner, and the tick of its arrival (R383). -/
structure Copy where
  pdu : Pdu
  at_ : Wide
  deriving DecidableEq, Repr

/-- What a channel does about the zones (R389): a digest entry to evaluate, one overwritten before its evaluation, a
frame whose first line is complete. -/
inductive ZoneItem where
  | entry (slot sector near line : Nat) (degraded : Bool) (frame : Word)
  | missed (frame : Word)
  | close (frame : Word)
  deriving DecidableEq, Repr

/-- A channel's own evaluation of the zones (R389): the hits of each frame and zone, by 8 × frame + zone; the frames with an entry it has
not evaluated; the frame that is being counted; its alarms. -/
structure ZoneChan where
  counts : SMap Nat := []
  missed : List Word := []
  frame : Option Word := none
  alarms : Nat := 0
  deriving DecidableEq, Repr

/-- The CAN values of a profile (R387, R390): nominal and data-phase bit rates in kbit/s, the receive and transmit priority
identifiers, SDT and the acceptance field. -/
structure CanProf where
  nominal : Nat := 0
  fd : Nat := 0
  xl : Nat := 0
  rxId : Nat := 0
  txId : Nat := 0
  sdt : Nat := 0
  af : Nat := 0
  deriving DecidableEq, Repr

/-- SAFE: both channels, the message comparator, the zones (R369 to R391). -/
structure Safe where
  /-- steps of the switch test done, and the tick at which it started (R373) -/
  testStep : Nat := 0
  testAt : Wide := 0
  /-- the checks WDOG_A and CH_DISAGREE are suspended by a DOZE notice (R443) -/
  suspended : Bool := false
  /-- the ticks of channel A's last service of its watchdog, of the last PERMIT = 1 accepted in TESTING or ARMED, and of
  the last periodic STATUS PDU (R375, R385, R388) -/
  servedAt : Wide := 0
  permitAt : Wide := 0
  txAt : Wide := 0
  /-- channel A has serviced its watchdog since it last expired (R378) -/
  serviced : Bool := true
  /-- an agreed PDU of PERMIT_SRC has been accepted since the last message cause (R378) -/
  agreed : Bool := false
  /-- a permit is in force (R381, R385) -/
  permit : Bool := false
  /-- SEQ and STAMP of the last accepted PDU of each source (R383); DESIGN CHOICE: 0 before the first -/
  seqLast : SMap Word := []
  stampLast : SMap Wide := []
  /-- copies waiting for their partners, oldest first, at most four a channel (R383) -/
  waitA : List Copy := []
  waitB : List Copy := []
  /-- SEQ of the next STATUS PDU (R388); DESIGN CHOICE: 0 at power-on -/
  seqTx : Word := 0
  /-- STATUS PDUs in the mailbox, oldest first, at most four (R386) -/
  smTx : List Pdu := []
  /-- the evaluation of the zones by channels A and B, and what channel A has still to do because it does not run (R389) -/
  zoneA : ZoneChan := {}
  zoneB : ZoneChan := {}
  zoneWait : List ZoneItem := []
  /-- the last frame evaluated (R388) -/
  lastFrame : Word := 0
  /-- the tick of the last STOP that took effect (R385) -/
  stopAt : Option Wide := none
  /-- channel B's own copy of the profile's SAFE values, in force and staged, by register (R390) -/
  ownB : SMap Word := []
  ownNext : SMap Word := []
  /-- the CAN values of the profile in force and of the staged one (R387, R390); DESIGN CHOICE: all 0 without a profile -/
  can : CanProf := {}
  canNext : CanProf := {}
  /-- the tick of the first change of state, latched causes or zone alarms that no STATUS PDU has reported yet (R388) -/
  statusDue : Option Wide := none
  /-- the profile image in eMRAM, whether its signatures verified, and the version stored (R390, R391); DESIGN CHOICE:
  none before the first load -/
  image : Option Image := none
  verified : Bool := false
  verStored : Nat := 0
  /-- a profile activation waits for its varnish, which brings the version and the hash of its image into force (R391, R409) -/
  activating : Option (Nat × BitVec 384) := none
  deriving DecidableEq, Repr

/-- The result of a management command, before the firmware publishes it (R52 to R54), and whether the command has reached the step
its chapter marks as not abortable (R55). -/
structure Reply where
  status : Nat
  detail : Nat := 0
  payload : List Byte := []
  past : Bool := false
  deriving DecidableEq, Repr

/-- A stored record that absorbs equal ones for a second (R452): when it was stored, how many it has absorbed, and the
last of them. -/
structure MergeSlot where
  first : ErrRec
  at_ : Wide
  n : Nat := 0
  last : ErrRec
  deriving DecidableEq, Repr

/-- A firmware slot (R398, R458): its image, and the body hash that UPD_VERIFY or the boot ROM recorded. -/
structure FwSlot where
  img : Option Image := none
  hash : Option (BitVec 384) := none
  deriving DecidableEq, Repr

/-- The boot record in force (R398): PREF, TRIAL, whether the trial has been booted, TARGET_SVN, SEQ. -/
structure BootRec where
  pref : Nat := 0
  trial : Bool := false
  tried : Bool := false
  target : Nat := 0
  seq : Nat := 0
  deriving DecidableEq, Repr

/-- A calibration slot (R464): SEQ, the temperatures of the last runs, and every value by location. -/
structure CalSlot where
  valid : Bool := false
  seq : Nat := 0
  temps : SMap Nat := []
  values : SMap Word := []
  /-- the host's channel delays and coefficients, and its KEDGE checks -/
  delays : List (BitVec 20) := []
  coeffs : List (BitVec 20) := []
  kedge : List (BitVec 16) := []
  deriving DecidableEq, Repr

/-- An image that a mailbox command loads in pieces (R52, R391, R458): its opcode, the tag that links the pieces, the bytes so
far. -/
structure LoadPart where
  opcode : Nat
  tag : Nat
  bytes : Nat
  deriving DecidableEq, Repr

/-- MGMT: the mailbox, the log writer, the firmware slots, calibration. -/
structure Mgmt where
  /-- the load in progress: its last piece had CONTINUED (R52) -/
  load : Option LoadPart := none
  /-- the result of the command in progress (R53) -/
  reply : Option Reply := none
  /-- payload of a response still to come under the same tag (R52 CONTINUED) -/
  rest : List Byte := []
  /-- the words that are not 0 of a request whose response will be discarded, while the firmware completes it (R316) -/
  orphan : Option (SMap Word) := none
  /-- the eMRAM log, newest first, at most 4,096 records (R453); DESIGN CHOICE: empty before the first power-on -/
  log : List ErrRec := []
  /-- seconds of merging in progress, oldest first (R452), and the tick of the last store -/
  merging : List MergeSlot := []
  logAt : Option Wide := none
  /-- the firmware slots A and B, and the boot record in its two eMRAM copies (R398); DESIGN CHOICE: blank before the first
  image is loaded -/
  slotA : FwSlot := {}
  slotB : FwSlot := {}
  bootRec : BootRec := {}
  bootOld : BootRec := {}
  /-- the firmware runs; the boot ROM's recovery service runs instead (R398, R400) -/
  booted : Bool := false
  recovery : Bool := false
  /-- the next boot resumes the running slot: after DOZE, or after a failure of ROSC (R420, R433) -/
  resume : Bool := false
  /-- a handover (R459, R461): 0 none, 1 waiting for its tick H, 2 from H to the takeover; its easel, the tick from which it
  waits, whether FWAIT has passed, the slot it leads to, and whether it is a revert -/
  hand : Nat := 0
  handEng : Nat := 0
  handAt : Wide := 0
  handAny : Bool := false
  handTo : Nat := 0
  handBack : Bool := false
  /-- a PERMIT accepted between H and the takeover: its PERMIT bit and zone set (R459) -/
  permitHeld : Option (Bool × Nat) := none
  /-- the end of the health window (R459) -/
  healthEnd : Option Wide := none
  /-- CAL_DT in 1/16 K and CAL_MAXINT in s (R462) -/
  calDt : Nat := 64
  calMax : Nat := 600
  /-- tick and temperature of the last run of each kind (R462) -/
  calAt : SMap Wide := []
  calTemp : SMap Nat := []
  /-- the tick since which calibration has waited on a changed sketch, and whether the wait has been reported (R463) -/
  calWait : Option Wide := none
  calTold : Bool := false
  /-- the firmware's commit was refused: the application is retried after the next accepted commit (R463) -/
  calRetry : Bool := false
  /-- the tick since which each pending kind has waited (R467) -/
  calPendAt : SMap Wide := []
  /-- the two eMRAM slots, and the tick of the last store (R464); DESIGN CHOICE: blank before the first store -/
  calA : CalSlot := {}
  calB : CalSlot := {}
  calStored : Option Wide := none
  /-- the host's channel delays and temperature coefficients (R462, R465) -/
  calDelays : List (BitVec 20) := []
  calCoeffs : List (BitVec 20) := []
  calKedge : List (BitVec 16) := []
  /-- the tick since which the scrub has asked for an access without one (R467) -/
  scrubWait : Option Wide := none
  /-- the scrub is starved and has its guaranteed share until it has been served (R467) -/
  scrubShare : Bool := false
  deriving DecidableEq, Repr

/-- An eMRAM copy of the HSS state (R402). -/
structure HssCopy where
  valid : Bool := true
  topq : Nat := 0
  bottom : Nat := 0
  q : Nat := 0
  seq : Nat := 0
  deriving DecidableEq, Repr

/-- An eMRAM copy of the tag area (R412): its bytes by address, those not 0. -/
structure TagCopy where
  data : SMap Byte := []
  seq : Nat := 0
  deriving DecidableEq, Repr

/-- SECU: identity, measurements, lifecycle, debug. -/
structure Secu where
  /-- measurement digests by index 1 to 16 (R409) -/
  meas : SMap (BitVec 384) := []
  /-- digest of an easel's pending program bank (R108, R409) -/
  bankPend : SMap (BitVec 384) := []
  /-- the lifecycle the fuses encode, and the two eMRAM copies of the FIELD_DEBUG flag (R413); PRESUMED FIELD -/
  lcFuse : Nat := 2
  flagA : Bool := false
  flagB : Bool := false
  /-- the UDS has been blown to ones, and the ZEROISED fuse (R421) -/
  udsGone : Bool := false
  zeroised : Bool := false
  /-- the owner hashes that OWNER_KEYS wrote (R395, R423); none: those of Config, written before the model begins -/
  owner : Option (List (BitVec 384)) := none
  /-- blown bits of the SVN counter (R399) -/
  svn : Nat := 0
  /-- keys are present in SECU RAM, and the CDI they derive from (R405) -/
  keys : Bool := false
  cdi : BitVec 384 := 0
  /-- hash of the CDI the Alias certificate in eMRAM was issued for (R406) -/
  certCdi : Option (BitVec 384) := none
  /-- the two copies of the HSS state (R402); DESIGN CHOICE: both valid and at 0, copy B the older -/
  hssA : HssCopy := { seq := 1 }
  hssB : HssCopy := {}
  /-- the next bottom tree is being generated, or is ready (R403) -/
  regen : Bool := false
  treeReady : Bool := false
  /-- tick of the last HSS signature (R404) -/
  sigAt : Option Wide := none
  /-- the signatures held for GET_HSS_SIG, newest first: digest of the message, signature block, tick (R408) -/
  held : List (BitVec 384 × List Byte × Wide) := []
  /-- the Alias certificate of the CDI waits for its HSS signature (R403, R404, R406) -/
  aliasDue : Bool := false
  /-- the serial number of the last CAPS of each tile (R409); unlisted: 0 -/
  serials : SMap Nat := []
  /-- the nonce in force and its tick; rejections of the last minute; DBG_CHALLENGE answers BUSY until a tick (R416) -/
  nonce : Option (BitVec 256 × Wide) := none
  rejects : List Wide := []
  busyTill : Option Wide := none
  /-- the end of the debug session, and the hash of its token (R417, R409) -/
  sessionEnd : Option Wide := none
  tokHash : BitVec 384 := 0
  /-- the two copies of the tag area (R412) -/
  tagA : TagCopy := { seq := 1 }
  tagB : TagCopy := {}
  /-- a configuration hash is due for the commit of this varnish tick, and the tick of the last one (R411) -/
  cfgDue : Option Wide := none
  cfgTick : Wide := 0
  deriving DecidableEq, Repr

/-- CHIP: proof, commit, snapshots. -/
structure Chip where
  /-- the round-robin pointer of the global fabric: the port that its third tier serves next (R29); DESIGN CHOICE: port 0 at reset -/
  fabPtr : Nat := 0
  /-- the pointer of each region among its blocks, and of each block, keyed region × 16 + block, among its cells (R18); unlisted: 0 -/
  blkPtr : SMap Nat := []
  cellPtr : SMap Nat := []
  /-- the tick counter counts XO cycles, and CI40 and CI41 take their clock from XO: from the entry into DOZE until the PLL has locked
  again (R68, R428) -/
  coarse : Bool := false
  /-- CHIP_SKETCH_GEN when the last proof started (R40) -/
  proofGen : Nat := 0
  /-- the last proof has not been used by a commit (R43) -/
  proofFresh : Bool := false
  /-- the commit in progress (R43): 0 none, 1 waiting, 2 fixed; CHIP_COMMIT_STATUS.STATE shows the last result -/
  phase : Nat := 0
  /-- the waiting commit: the engine and whether it waits for a frame start (R46) -/
  waitEng : Nat := 0
  waitFrame : Bool := false
  /-- offsets staged since the last acceptance (R47) -/
  since : List Nat := []
  /-- restarting regions that hold their shadow for resumption (R16, R48) -/
  held : List Nat := []
  /-- wide mailboxes whose value is still to be latched: region × 2, plus 1 for the firmware (R51) -/
  latch : List Nat := []
  /-- MODEL FIELD: the words each varnish replaced, newest first, so that a tick that has passed keeps its settings
  (R15); reset empty -/
  past : List (Wide × SMap Word) := []
  /-- the tick of a requested snapshot (R50) -/
  snapDue : Option Wide := none
  /-- HUSH entry (R441): 0 none, 1 halting easels, 2 draining, 3 lanes going to sleep, 4 in HUSH, 5 leaving
  HUSH -/
  hush : Nat := 0
  /-- acceptance tick of the entry, and whether FWAIT has passed (R441 step 1) -/
  hushAt : Wide := 0
  hushAny : Bool := false
  /-- easels that the entry has halted (R441, R442) -/
  hushMask : Nat := 0
  /-- the state asked for (R440), the tick at which SLEEP was sent (R441 step 2), and whether the device is in DOZE -/
  pwrTarget : Nat := 0
  sleepAt : Wide := 0
  doze : Bool := false
  /-- the change of performance point in progress (R436, R437): 0 none, 1 raising, its voltage being written, 2 waiting for
  the voltage, 3 waiting for the boundary, 4 lowering, waiting for the boundary, 5 its voltage being written, 6 waiting
  for the voltage, 7 returning to the voltage of the point in force; the point, failed transactions, the tick from which
  it waits, and a target written meanwhile -/
  dvfs : Nat := 0
  dvfsTo : Nat := 1
  dvfsTries : Nat := 0
  dvfsAt : Wide := 0
  dvfsNext : Option Nat := none
  /-- FWAIT has passed without a frame start (R436) -/
  dvfsAny : Bool := false
  /-- tick of the last throttle step (R438) -/
  throtAt : Option Wide := none
  /-- the lane, PCI Express, GDDR7 and I/O rails are good (R447), and the supply monitors of inputs 24 to 35 that have read good, by input -/
  railLane : Bool := false
  railPcie : Bool := false
  railMem : Bool := false
  railIo : Bool := false
  railSeen : Nat := 0
  /-- XO runs, which it does from its start on (R432, R434, R439); ROSC is stopped after a failed start-up attempt (R434) -/
  xoOn : Bool := false
  roscOff : Bool := false
  /-- TCK is driven (R427) -/
  tck : Bool := false
  /-- consecutive passes of ROSC and of XO (R432) -/
  roscPass : Nat := 0
  xoPass : Nat := 0
  /-- consecutive windows outside the limits, the arming tick, and a trip not yet acted on (R433) -/
  monBad : Nat := 0
  monAt : Wide := 0
  oscTrip : Bool := false
  /-- the first start-up has succeeded, and CLK_BOOT_FAIL is latched (R434) -/
  started : Bool := false
  bootFail : Bool := false
  /-- CHIP_CLKOUT as the pin follows it, and what the pin carries: island, divisor, half periods high; none: low (R431) -/
  clkout : Word := 0
  clkPin : Option (Nat × Nat × Nat) := none
  /-- restarting regions whose built-in test is done, with the tick it was done (R455) -/
  bist : SMap Wide := []
  /-- lower-level attempts before the restart in progress of a region (R19); unlisted: 0 -/
  attempts : SMap Nat := []
  /-- starts of region restarts, newest first: region and tick (R21) -/
  restarts : List (Nat × Wide) := []
  /-- easels running when SCAN began its restart (R456) -/
  scanRun : Nat := 0
  /-- a chip-level fault is not yet reported cleared (R457) -/
  faultOpen : Bool := false
  /-- regions whose restart has failed (R21) -/
  stuck : List Nat := []
  /-- frame starts so far; the frame at which the failed region that the firmware restarted resumed; the tick at which the
  firmware cleared a fault of CHIP; whether the firmware has commanded the restart (R457) -/
  frames : Nat := 0
  okFrom : Option Nat := none
  clearedAt : Option Wide := none
  faultCmd : Bool := false
  deriving DecidableEq, Repr

/-- The state of the device. -/
structure State where
  io : Io := {}
  tbas : Tbas := {}
  scan : Scan := {}
  emt : Emit := {}
  lnk : Lnk := {}
  hst : Hst := {}
  outp : Outp := {}
  host : HostIf := {}
  memc : Memc := {}
  moni : Moni := {}
  safe : Safe := {}
  mgmt : Mgmt := {}
  secu : Secu := {}
  chip : Chip := {}
  /-- the commands that are waiting, first in, first out -/
  pending : List Instr := []
  deriving DecidableEq, Repr

/-- The device right after the power-on reset: every register at its table's reset value, every engine idle, every
queue empty. -/
def State.reset : State := {}

/-- Why the model stops with a fault.  Safe: the model stops where no hardware event exists. -/
inductive Fault where
  /-- Raised by a command whose operands name no event the device can see (`Instr.wf` is false of it): CDR_UPDATE with a vote outside
  -1 to 1, AMBIENT without 32 counts, KERNEL_WRITE at a location that is no kernel's, LINK_TRAINED at a speed or width that PCI Express
  does not have, MEMC_TRAINING without four densities, UNDEFINED_OPCODE with a defined opcode.  Safe: no hardware run has such a
  command. -/
  | illFormed
  deriving DecidableEq, Repr

/-- Why the model refuses a command. -/
inductive Refusal where
  /-- Raised by an arm whose meaning has not been written.  Safe: nothing is claimed of it. -/
  | notModelled (mnemonic : String)
  deriving DecidableEq, Repr

end Sys2Proof.Machine
end

