-- ==== Sys2Proof/Machine/Ops.lean ====
section
/-!
DEFINITION. The named operations every meaning is written in: registers and fields, error records, till counting,
interrupts, ticks, free values, the trace.
-/
namespace Sys2Proof.Machine

/-! ## Registers -/

/-- The word at a location, value in force (R34). -/
def Io.reg (x : Io) (a : Nat) : Word := rd resetWord x.regs a

/-- Store a word at a location. -/
def Io.put (a : Nat) (w : Word) (x : Io) : Io := { x with regs := wr resetWord x.regs a w }

/-- The value of a field. -/
def Io.get (x : Io) (f : Field) : Nat := bitsOf (x.reg f.off) f.hi f.lo

/-- Set a field, leaving the other bits of its register. -/
def Io.set (f : Field) (v : Nat) (x : Io) : Io := x.put f.off (putBits (x.reg f.off) f.hi f.lo v)

/-- The single-bit field `n` of the word that holds `f`, counted from `f.lo`. -/
def Field.bit (f : Field) (n : Nat) : Field := ⟨f.off, f.lo + n, f.lo + n⟩

/-- A wide value of a region (R51). -/
def Io.wideOf (x : Io) (r i : Nat) : Wide := rd (fun _ => 0) x.wide (r * 65536 + i)

/-- Set a wide value of a region (R51). -/
def Io.setWide (r i : Nat) (v : Wide) (x : Io) : Io := { x with wide := wr (fun _ => 0) x.wide (r * 65536 + i) v }

/-- Record what leaves the device. DESIGN CHOICE (log 5). -/
def Io.emit (o : Out) (x : Io) : Io := { x with out := o :: x.out }

/-- A posted write to the host of n bytes: in Recovery it waits in the 512 KiB buffer (R315). DESIGN CHOICE (log 5). DEDUCED (log 58). -/
def Io.post (n : Nat) (o : Out) (x : Io) : Io :=
  if x.recovery then { x with held := o :: x.held, heldBytes := x.heldBytes + n } else x.emit o

/-- Set the registers and tables in [lo, hi) to their reset values, but for those at `keep`. -/
def Io.resetRange (lo hi : Nat) (keep : List Nat) (x : Io) : Io :=
  let out (e : Nat × Word) : Bool := decide (e.1 < lo ∨ hi ≤ e.1) || keep.contains e.1
  { x with regs := x.regs.filter out, sketch := x.sketch.filter out }

/-! ## Interrupts -/

/-- The cause bit of interrupt source s (R310, HOST_IRQ_CAUSE). -/
def causeBit (s : Nat) : Field := ⟨if s < 32 then 0x01A10020 else 0x01A10024, s % 32, s % 32⟩

/-- The routing register of interrupt source s (R311, HOST_IRQ_MAP). -/
def irqMap (s hi lo : Nat) : Field := ⟨0x01A10100 + 4 * s, hi, lo⟩

/-- The mask bit and the pending bit of an MSI-X vector (R295, R311). PRESUMED (log 12). -/
def msixMask (pf1 : Bool) (v : Nat) : Field :=
  if pf1 then Fd.PF1_MSIX_CTRL_MASK v else Fd.PF0_MSIX_CTRL_MASK v
def msixPend (pf1 : Bool) (v : Nat) : Field :=
  if pf1 then (Fd.PF1_PBA_PEND (v / 32)).bit (v % 32) else (Fd.PF0_PBA_PEND (v / 32)).bit (v % 32)

/-! ## Tills -/

/-- The largest count of a till (R468). -/
def tillMax : Nat := 2 ^ 48 - 1

/-- Add n events to till t of region r: wrap or stick at the limit, and set OVF (R468); whether an interrupt is due. -/
def Io.tillStep (r t n : Nat) (x : Io) : Io × Bool :=
  let cur := (x.wideOf r (0x0F00 + t)).toNat
  if cur + n ≤ tillMax then (x.setWide r (0x0F00 + t) (BitVec.ofNat 64 (cur + n)), false)
  else
    let new := if x.get (Fd.TILL_CFG_STICK r t) = 1 then tillMax else (cur + n) % 2 ^ 48
    let y := x.setWide r (0x0F00 + t) (BitVec.ofNat 64 new)
    (y.set ((if t < 32 then Fd.TILL_OVF_LO_OVF r else Fd.TILL_OVF_HI_OVF r).bit (t % 32)) 1,
      x.get (Fd.TILL_CFG_IEN r t) == 1)

/-- The tills of region r whose configuration has been written; every other till has SRC 0 and is off (R470). -/
def Io.tillsOf (x : Io) (r : Nat) : List Nat :=
  x.regs.filterMap fun e =>
    if e.1 / 0x200000 = r ∧ 0xF0000 ≤ e.1 % 0x200000 ∧ e.1 % 0x200000 < 0xF0400 ∧ e.1 % 16 = 0 then
      some ((e.1 % 0x200000 - 0xF0000) / 16)
    else none

/-- Whether the till t of region r counts an event of source `src`, instance `inst`, of region `of` (R468, R469). DEDUCED (log 16). -/
def Io.tillTakes (x : Io) (r t of src inst : Nat) : Bool :=
  let reg := x.get (Fd.TILL_CFG_REGION r t)
  x.get (Fd.TILL_CFG_SRC r t) == src
    && (x.get (Fd.TILL_CFG_ALL r t) == 1 || x.get (Fd.TILL_CFG_INST r t) == inst)
    && (r != 0 || reg == of || (reg == 0x14 && 4 ≤ of && of ≤ 7) || (reg == 0x15 && 8 ≤ of && of ≤ 11))

/-- Add n events to till t of region `at_` when it counts the source, and note its region when an interrupt is due. -/
def Io.tillFeed (at_ of src inst n : Nat) (x : Io × List Nat) (t : Nat) : Io × List Nat :=
  if x.1.tillTakes at_ t of src inst then
    let (y, due) := x.1.tillStep at_ t n
    (y, if due then at_ :: x.2 else x.2)
  else x

/-- Count n events of a source of region r, instance `inst`, in the region's tills and in CHIP's (R468, R469); the
regions whose interrupt is due. -/
def Io.countOnly (r src inst n : Nat) (x : Io) : Io × List Nat :=
  if n = 0 then (x, [])
  else
    let own := if r = 0 then (x, []) else (x.tillsOf r).foldl (Io.tillFeed r r src inst n) (x, [])
    (own.1.tillsOf 0).foldl (Io.tillFeed 0 r src inst n) own

/-! ## Sending interrupts -/

/-- A vector is masked: by its own bit, or by its function's MSI-X Enable or Function Mask (R311). DEDUCED (log 13). -/
def Io.vecMasked (pf1 : Bool) (v : Nat) (x : Io) : Bool :=
  x.get (msixMask pf1 v) == 1 || x.get (Fd.CFG_MSIX_EN pf1) == 0 || x.get (Fd.CFG_MSIX_FMASK pf1) == 1

/-- Send the message of a vector; a masked vector sets its PBA bit instead (R311).  Messages are themselves counted. DEDUCED (log 13). -/
def Io.message (pf1 : Bool) (v : Nat) (x : Io) : Io × List Nat :=
  if x.vecMasked pf1 v then (x.set (msixPend pf1 v) 1, [])
  else (x.countOnly 13 Src.HOST_MSIX_SENT 0 1).map (Io.post 4 (.msix pf1 v)) id

/-- Send the message of an interrupt source, through its map (R311). DEDUCED (log 86). -/
def Io.sendIrq (s : Nat) (x : Io) : Io × List Nat :=
  if x.get (irqMap s 9 9) = 1 then x.message (x.get (irqMap s 8 8) == 1) (x.get (irqMap s 7 0)) else (x, [])

/-- An interrupt source fires: its cause bit is set, and one message goes when the bit went from 0 to 1 (R311). DEDUCED (log 86). -/
def Io.irqOnce (s : Nat) (x : Io) : Io × List Nat :=
  if x.get (causeBit s) = 1 then (x, []) else (x.set (causeBit s) 1).sendIrq s

/-- The interrupts that a count of messages calls for. DESIGN CHOICE (log 17). -/
def Io.settleIrq (x : Io × List Nat) : Io := x.2.foldl (fun y r => (y.irqOnce (16 + r)).1) x.1

/-- An interrupt source fires (R310, R311). -/
def Io.irq (s : Nat) (x : Io) : Io := Io.settleIrq (x.irqOnce s)

/-- The interrupt of region r (R310). -/
def Io.regionIrq (r : Nat) (x : Io) : Io := x.irq (16 + r)

/-- Count n events of a source of region r, instance `inst` (R468, R469). DESIGN CHOICE (log 17). -/
def Io.count (r src inst n : Nat) (x : Io) : Io :=
  let y := x.countOnly r src inst n
  y.2.foldl (fun y r => y.regionIrq r) y.1

/-! ## Error records -/

/-- The era in force (R69). -/
def Io.era (x : Io) : Nat := x.get Fd.TBAS_ERA_ERA

/-- A record is lost: LOST saturates, its till counts, and MGMT's interrupt is raised (R452, R454). -/
def Io.lose (x : Io) : Io :=
  let l := x.get Fd.MGMT_LOG_LOST_COUNT
  ((x.set Fd.MGMT_LOG_LOST_COUNT (min (l + 1) (2 ^ 32 - 1))).count 16 Src.MGMT_LOG_LOST 0 1).regionIrq 16

/-- Put a record into the FIFO to the log writer; a full FIFO loses it (R452). -/
def Io.record (e : ErrRec) (x : Io) : Io :=
  let y := x.count 0 Src.CHIP_ERR_RECORDS (e.level % 4) 1
  if y.fifo.length < 256 then { y with fifo := y.fifo ++ [e] } else y.lose

/-- The fields of an error record that the reporting region chooses (R451). -/
structure Err where
  level : Nat
  region : Nat
  block : Nat
  code : Nat
  action : Nat := 0
  cell : Nat := 0xFFFF
  detail : Nat := 0
  count : Nat := 0
  warning : Bool := false

/-- Report an error: the record carries the tick and the era of detection (R451). -/
def Io.err (e : Err) (x : Io) : Io :=
  x.record { level := e.level, warning := e.warning, region := e.region, block := e.block, action := e.action,
             cell := e.cell, code := e.code, tick := x.tick.toNat, era := x.era, count := e.count, rep := 1,
             detail := e.detail, rseq := 0 }

/-! ## The same, on the whole state -/

/-- Change the shared part of the state. -/
def State.io' (f : Io → Io) (s : State) : State := { s with io := f s.io }

def State.reg (s : State) (a : Nat) : Word := s.io.reg a
def State.get (s : State) (f : Field) : Nat := s.io.get f
/-- A single-bit field reads 1. -/
def State.is (s : State) (f : Field) : Bool := s.io.get f == 1

/-! ## Perturbation (R471) -/

/-- A queue of region r refuses what comes to it in this cycle: with PROB 0 never.  The spec gives the queues no numbers and the generator no
law. DESIGN CHOICE (log 109). -/
def State.refuses (r queue : Nat) (s : State) : Bool :=
  s.get (Fd.PERTURB_BP_PROB r) != 0
    && Config.refusal r queue (s.get (Fd.PERTURB_BP_PROB r)) (s.get (Fd.PERTURB_BP_QSEL r)) (s.get (Fd.PERTURB_SEED_SEED r))
      (s.io.tick.toNat / 128)

def State.put (a : Nat) (w : Word) (s : State) : State := s.io' (Io.put a w)
def State.set (f : Field) (v : Nat) (s : State) : State := s.io' (Io.set f v)
def State.setBit (f : Field) (b : Bool) (s : State) : State := s.set f (if b then 1 else 0)
def State.wideOf (s : State) (r i : Nat) : Wide := s.io.wideOf r i
def State.setWide (r i : Nat) (v : Wide) (s : State) : State := s.io' (Io.setWide r i v)
def State.emit (o : Out) (s : State) : State := s.io' (Io.emit o)
def State.irq (n : Nat) (s : State) : State := s.io' (Io.irq n)
def State.regionIrq (r : Nat) (s : State) : State := s.io' (Io.regionIrq r)
def State.count (r src inst n : Nat) (s : State) : State := s.io' (Io.count r src inst n)
/-- DEDUCED (log 15). -/
def State.err (e : Err) (s : State) : State := s.io' (Io.err e)
def State.tick (s : State) : Wide := s.io.tick

/-- Add to a field that wraps at its width. -/
def State.bump (f : Field) (n : Nat) (s : State) : State := s.set f (s.get f + n)

/-- Add to a field that saturates at its width. -/
def State.bumpSat (f : Field) (n : Nat) (s : State) : State :=
  s.set f (min (s.get f + n) (2 ^ (f.hi - f.lo + 1) - 1))

/-- Apply a change when a condition holds. -/
def State.onlyIf (b : Bool) (f : State → State) (s : State) : State := if b then f s else s

/-- What a meaning answers. -/
abbrev Res := Host.Outcome State Fault Refusal

/-- Apply a change of the state to each element of a list in turn. -/
def State.each {α : Type} (l : List α) (f : α → State → State) (s : State) : State := l.foldl (fun s x => f x s) s

/-- The next state: the end of a meaning. -/
def ok (s : State) : Res := .next s

/-- Change one region's record. -/
def State.tbas' (f : Tbas → Tbas) (s : State) : State := { s with tbas := f s.tbas }
def State.scan' (f : Scan → Scan) (s : State) : State := { s with scan := f s.scan }
def State.emit' (f : Emit → Emit) (s : State) : State := { s with emt := f s.emt }
def State.safe' (f : Safe → Safe) (s : State) : State := { s with safe := f s.safe }
def State.lnk' (f : Lnk → Lnk) (s : State) : State := { s with lnk := f s.lnk }
def State.hst' (f : Hst → Hst) (s : State) : State := { s with hst := f s.hst }
def State.outp' (f : Outp → Outp) (s : State) : State := { s with outp := f s.outp }
def State.host' (f : HostIf → HostIf) (s : State) : State := { s with host := f s.host }
def State.memc' (f : Memc → Memc) (s : State) : State := { s with memc := f s.memc }
def State.moni' (f : Moni → Moni) (s : State) : State := { s with moni := f s.moni }
def State.mgmt' (f : Mgmt → Mgmt) (s : State) : State := { s with mgmt := f s.mgmt }
def State.secu' (f : Secu → Secu) (s : State) : State := { s with secu := f s.secu }
def State.chip' (f : Chip → Chip) (s : State) : State := { s with chip := f s.chip }

/-! ## Ticks -/

/-- How far tick `b` lies after tick `a`, as the signed difference modulo 2^64 (R121, R42). -/
def ahead (a b : Wide) : Int := (b - a).toInt

/-- Tick `a` is before tick `b`. -/
def before (a b : Wide) : Bool := decide (0 < ahead a b)

/-- What the counter shows at tick t: in DOZE, and until the PLL has locked again, it advances by 3,200 ticks at each XO cycle (R68). -/
def State.shownAt (t : Wide) (s : State) : Wide :=
  if s.chip.coarse then s.tick + BitVec.ofNat 64 (((t - s.tick).toNat + 3199) / 3200 * 3200) else t

/-- The instant of a timed event: the tick counter has reached it (R15, R88).  It never moves back. DESIGN CHOICE (log 1, 3). -/
def State.reach (t : Wide) (s : State) : State :=
  s.io' fun x => if before x.tick t then { x with tick := s.shownAt t } else x

/-! ## Free values -/

/-- Draw a free word. DESIGN CHOICE (log 4). -/
def State.drawWord (s : State) : Word × State :=
  (Config.freeWord s.io.free, s.io' fun x => { x with free := x.free + 1 })

/-- Draw a free number below a bound. DESIGN CHOICE (log 4). -/
def State.drawNat (bound : Nat) (s : State) : Nat × State :=
  (Config.freeNat s.io.free % bound, s.io' fun x => { x with free := x.free + 1 })

/-- Draw a free bit. DESIGN CHOICE (log 4). -/
def State.drawBit (s : State) : Bool × State :=
  (Config.freeBit s.io.free, s.io' fun x => { x with free := x.free + 1 })

/-! ## Arithmetic the chapters share -/

/-- The quotient of two integers rounded to the nearest, halves away from zero (R76, R78). -/
def roundHalfAway (a : Int) (d : Nat) : Int :=
  if d = 0 then 0 else if 0 ≤ a then (2 * a + d) / (2 * d) else -((2 * (-a) + d) / (2 * d))

/-- The integer square root, by bisection on `n` bits. -/
def isqrtBits : Nat → Nat → Nat
  | 0, _ => 0
  | n + 1, x =>
    let r := isqrtBits n (x / 4) * 2
    if (r + 1) * (r + 1) ≤ x then r + 1 else r

/-- The largest number whose square is at most x, for x below 2^256. -/
def isqrt (x : Nat) : Nat := isqrtBits 128 x

/-- A field's value as a two's-complement number of w bits. -/
def signed (w v : Nat) : Int := if v < 2 ^ (w - 1) then v else (v : Int) - 2 ^ w

/-- A number as two's complement of w bits. -/
def unsigned (w : Nat) (v : Int) : Nat := (v % (2 ^ w : Int)).toNat

/-- Saturate a number to w bits of two's complement. -/
def clampS (w : Nat) (v : Int) : Int := max (-(2 ^ (w - 1) : Int)) (min v (2 ^ (w - 1) - 1))

end Sys2Proof.Machine
end

