-- ==== Sys2Proof/Machine/Access.lean ====
section
/-!
DEFINITION. The register space seen by an accessor: which locations are withheld (R32, R167, R415, R471), the records
of a bad access (R32, R33), the sketch (R38, R39), and the values in force at a tick (R15).
-/
namespace Sys2Proof.Machine

/-- The region of a location: BAR0 past the regions belongs to CHIP, PF0 BAR2 and PF1 BAR0 to HOST (R32). -/
def regionOf (a : Nat) : Nat :=
  if a < 0x02600000 then a / 0x200000 else if a < 0x04000000 then 0 else 13

/-- The block of a location (R30, R32): the ring registers of BAR2 lie in block 2. -/
def blockOf (a : Nat) : Nat :=
  if a < 0x02600000 then a % 0x100000 / 0x10000
  else if 0x04000000 ≤ a ∧ a < 0x04000E00 then 2 else 0

/-- CELL of an access record names the BAR (R32). -/
def barCell (a : Nat) : Nat := if a < 0x04000000 then 0xFFFF else if a < 0x05000000 then 0x0002 else 0x0100

/-- DETAIL of an access record: the offset within the BAR (R32). -/
def barOffset (a : Nat) : Nat := if a < 0x04000000 then a else if a < 0x05000000 then a - 0x04000000 else a - 0x05000000

/-- The key of a location of a window in the model's one key space (R295). -/
def spaceKey (sp : Space) (off : Nat) : Nat :=
  match sp with
  | .bar0 => off
  | .bar2 => 0x04000000 + off
  | .pf1 => 0x05000000 + off
  | .cfg0 => 0x06000000 + off
  | .cfg1 => 0x06010000 + off

/-! ## Live fields (R34, R36) -/

/-- One live field of a word after a write of v; `hw`: the bits the hardware sets, or its increment, in the same cycle.
No register of the tables is RWL, WOT or RC. -/
def liveField (v hw w : Word) (f : FieldRow) : Word :=
  let x := bitsOf v f.hi f.lo
  let o := bitsOf w f.hi f.lo
  let h := bitsOf hw f.hi f.lo
  match f.acc with
  | .rw | .rwl | .wot | .mbx | .wo => putBits w f.hi f.lo x
  | .w1c => putBits w f.hi f.lo (o - (o &&& x) ||| h)
  | .w1s => putBits w f.hi f.lo (o ||| x)
  | .cnt => putBits w f.hi f.lo (x + h)
  | .ro | .rc | .stg => w

/-- The live fields of a register after a write. -/
def liveWord (r : RegRow) (v hw w : Word) : Word := r.fields.foldl (liveField v hw) w

/-! ## Lifecycle and debug level (R415, R419) -/

/-- PRESUMED (log 9). -/
def State.lifecycle (s : State) : Nat := s.get Fd.SECU_LC_STATE
/-- MANUFACTURE opens what D1 opens, without a token (R419, R471). -/
def State.opensD (n : Nat) (s : State) : Bool :=
  decide (n ≤ s.get Fd.SECU_DBG_LEVEL) || (n == 1 && s.lifecycle == 0)

/-- PERTURB registers: open in MANUFACTURE, in SCAN to MONI at D1 and D2, everywhere at D3 (R471). -/
def State.perturbOpen (r : Nat) (s : State) : Bool :=
  s.lifecycle == 0 || decide (3 ≤ s.get Fd.SECU_DBG_LEVEL)
    || (decide (1 ≤ s.get Fd.SECU_DBG_LEVEL) && decide (2 ≤ r ∧ r ≤ 15))

/-- DEDUCED (log 83). -/
def isPerturb (a : Nat) : Bool :=
  decide (a < 0x02600000 ∧ 0x100 ≤ a % 0x200000 ∧ a % 0x200000 ≤ 0x110)
def isTill (a : Nat) : Bool := decide (a < 0x02600000 ∧ 0xF0000 ≤ a % 0x200000 ∧ a % 0x200000 < 0x100000)
def isCapture (a : Nat) : Bool := decide (0x01C30000 ≤ a ∧ a < 0x01C40000)
/-- An easel's debug windows: G, T and the predicates (R109). -/
def isEaselWindow (a : Nat) : Bool :=
  decide (0x00410000 ≤ a ∧ a < 0x00490000 ∧ 0x100 ≤ a % 0x10000 ∧ a % 0x10000 ≤ 0x1A0)
/-- The profile values and controls of the ledger, which only the firmware writes (R167), at either address. -/
def isLedgerProfile (a : Nat) : Bool :=
  let o := a % 0x100000
  decide (0x00400000 ≤ a ∧ a < 0x00600000) &&
    (decide (0xD0000 ≤ o ∧ o ≤ 0xD0008) || o == 0xD0010 || o == 0xD0018
      || decide (0xD0100 ≤ o ∧ o < 0xD0400) || decide (0xD2000 ≤ o ∧ o < 0xD2040))
def isSafe (a : Nat) : Bool := decide (0x02400000 ≤ a ∧ a < 0x02600000)

/-- SECU's space but for its status block, which is withheld from every accessor but the firmware, whatever the level
(R415, R425). DEDUCED (log 83). -/
def isSecuClosed (a : Nat) : Bool :=
  decide (0x02200000 ≤ a ∧ a < 0x02400000) && !decide (0x02210000 ≤ a ∧ a < 0x02220000)

/-- Whether the lifecycle state and the debug level withhold an access from its accessor (R32, R109, R167, R332, R415,
R425, R455, R471).  `v` is the word of a write. DEDUCED (log 83). -/
def State.withheld (who : Actor) (a : Nat) (write : Bool) (v : Word) (s : State) : Bool :=
  if isPerturb a then !s.perturbOpen (a / 0x200000)
  else if who = .firmware then false
  else if isSecuClosed a then true
  else if isTill a || isCapture a then !s.opensD 1
  else if isEaselWindow a then !s.opensD 2
  else if write then
    if isLedgerProfile a || isSafe a then true
    else if a == 0x00030008 then !s.opensD 1
    else if 0x00410000 ≤ a ∧ a < 0x00490000 ∧ a % 0x10000 = 0 then v.getLsbD 2 && !s.opensD 2
    else false
  else false

/-! ## Forced gates (R28, R430, R455) -/

/-- Region r is restarting. -/
def State.restarting (r : Nat) (s : State) : Bool := s.is (Fd.CHIP_RESTARTING_MASK.bit r)

/-- The gates of a location's region are forced closed: during its restart, the lane regions in HUSH, the core in DOZE. DEDUCED (log 19). -/
def State.gated (a : Nat) (s : State) : Bool :=
  let r := regionOf a
  s.restarting r || (s.chip.hush == 4 && decide (4 ≤ r ∧ r ≤ 7)) || (s.chip.doze && r != 15 && r != 18)

/-! ## The global fabric (R18, R28, R29) -/

/-- The port of an accessor: HOST, MGMT, SCAN, and CHIP for the JTAG port, whose clock is CHIP's (R17). DEDUCED (log 87). -/
def portOf : Actor → Fin 19
  | .host => 13
  | .firmware => 16
  | .scan _ => 2
  | .jtag => 0

/-- The priority tier of a request (R28): SAFE, the reserved traffic of MEMC, every other. -/
def fabTier (x : FabReq) : Nat := if x.port.val = 18 then 0 else if x.reserved then 1 else 2

/-- Its place with the pointers as they stand (R18, R29): by tier, by the port from the fabric's pointer on, by the block from its
region's pointer on, by the cell from its block's. DEDUCED (log 87). -/
def fabPlace (c : Chip) (x : FabReq) : Nat :=
  let p := x.port.val
  (19 * fabTier x + (p + 19 - c.fabPtr) % 19) * 256
    + (x.block.val + 16 - rd (fun _ => 0) c.blkPtr p) % 16 * 16
    + (x.cell.val + 16 - rd (fun _ => 0) c.cellPtr (16 * p + x.block.val)) % 16

/-- The request that is served next, and those that wait on: of two requests of one cell the one issued first (R29). -/
def fabBest (c : Chip) : List FabReq → Option (FabReq × List FabReq)
  | [] => none
  | x :: l =>
    match fabBest c l with
    | none => some (x, [])
    | some (y, rest) => if fabPlace c x ≤ fabPlace c y then some (x, l) else some (y, x :: rest)

/-- The pointers advance past the cell, the block and the port just served (R18, R29). -/
def fabAdvance (c : Chip) (x : FabReq) : Chip :=
  { c with fabPtr := (x.port.val + 1) % 19
           blkPtr := ins c.blkPtr x.port.val ((x.block.val + 1) % 16)
           cellPtr := ins c.cellPtr (16 * x.port.val + x.block.val) ((x.cell.val + 1) % 16) }

/-- The requests of one cycle in the order in which they are served, each with the pointers that the one before has left, and the
pointers after the last (R18, R28, R29). DEDUCED (log 87). -/
def fabServe : Nat → Chip → List FabReq → List FabReq × Chip
  | 0, c, _ => ([], c)
  | n + 1, c, l =>
    match fabBest c l with
    | none => ([], c)
    | some (x, rest) =>
      let (order, c') := fabServe n (fabAdvance c x) rest
      (x :: order, c')

/-- An accessor's request is granted among those that reach the fabric in the same cycle. DEDUCED (log 87). -/
def State.fabricGrant (who : Actor) (rivals : List FabReq) (s : State) : State :=
  let l : List FabReq := { port := portOf who, reserved := false, block := 0, cell := 0 } :: rivals
  let (order, c) := fabServe l.length s.chip l
  (s.chip' fun _ => c).onlyIf (!rivals.isEmpty) (State.emit (.granted (order.map fun x => x.port.val)))

/-! ## Start-up stages (R446) -/

/-- A start-up stage is complete. DEDUCED (log 79). -/
def State.stageDone (k : Nat) (s : State) : State := s.set (Fd.CHIP_BOOT_STAT_DONE.bit (k - 1)) 1
def State.stageIs (k : Nat) (s : State) : Bool := s.is (Fd.CHIP_BOOT_STAT_DONE.bit (k - 1))

/-! ## Records of a bad access (R32, R33) -/

def ACC_RSVD_RD : Nat := 0x0101
def ACC_RSVD_WR : Nat := 0x0102
def ACC_SIZE : Nat := 0x0103
def LOCK_VIOL : Nat := 0x0104
def RSVD_ENC : Nat := 0x0105
def ACC_DENIED : Nat := 0x0106
def ACC_GATE_ABORT : Nat := 0x0107

/-- A register-access record at cell level. DEDUCED (log 14). -/
def State.accRecord (code a : Nat) (s : State) : State :=
  s.err { level := 0, region := regionOf a, block := blockOf a, code := code, action := 7, cell := barCell a,
          detail := barOffset a }

/-- A reserved or withheld access: the record, ACC_ERR, and the region's access-error interrupt (R32). DEDUCED (log 14). -/
def State.accError (code a : Nat) (s : State) : State :=
  let r := regionOf a
  ((s.accRecord code a).set (Fd.RGN_STAT_ACC_ERR r) 1).onlyIf (s.is (Fd.RGN_CTL_AEIE r)) (State.regionIrq r)

/-- How an access of an accessor that is not served ends: the firmware's with a bus error, a read with Completer Abort; a write is
dropped (R28, R430). -/
def accessEnd (who : Actor) (a : Nat) (write : Bool) : Option Out :=
  if who = .firmware then some (.busError a) else if write then none else some (.abort who a)

/-- An access meets a gate that is forced closed, and is not served within 1 µs: the record, the till, its end (R28, R430). -/
def State.gateAbort (who : Actor) (a : Nat) (write : Bool) (s : State) : State :=
  let s1 := (s.accRecord ACC_GATE_ABORT a).count 0 Src.CHIP_GATE_ABORT 0 1
  match accessEnd who a write with
  | some o => s1.emit o
  | none => s1

/-! ## Who can make an access (R318, R445, R448) -/

/-- The firmware, or the recovery service, runs: it has been released, and is held neither by a handover nor by a restart or DOZE
(R398, R400, R443, R456, R459). -/
def State.fwRuns (s : State) : Bool :=
  (s.mgmt.booted || s.mgmt.recovery) && s.mgmt.hand != 2 && !s.is (Fd.CHIP_RESTARTING_MASK.bit 16) && !s.chip.doze

/-- The power-on reset has ended, and VSYS has not fallen since (R445, R448): nothing acts before. -/
def State.powered (s : State) : Bool := s.stageIs 1

/-- An accessor is there: the host while its link is up and HOST does not restart (R318), the firmware while it runs, any other once
the power-on reset has ended (R448). DEDUCED (log 19). -/
def State.attends (who : Actor) (s : State) : Bool :=
  match who with
  | .host => s.is Fd.HOST_LINK_STAT_DL_UP && !s.restarting 13
  | .firmware => s.fwRuns
  | .jtag | .scan _ => s.powered

/-- A write by an accessor to the register at `a`: a closed gate ends it (R28, R430). DEDUCED (log 19). -/
def State.writeBy (who : Actor) (a : Nat) (f : State → Res) (s : State) : Res :=
  if !s.attends who then ok s else if s.gated a then ok (s.gateAbort who a true) else f s

/-- A read by an accessor of the register at `a`: a closed gate ends it (R28, R430). DEDUCED (log 19). -/
def State.readBy (who : Actor) (a : Nat) (f : State → Res) (s : State) : Res :=
  if !s.attends who then ok s else if s.gated a then ok (s.gateAbort who a false) else f s

/-- The write of a row that names no accessor: any that is there may make it. DEDUCED (log 19). -/
def State.writeRow (a : Nat) (f : State → Res) (s : State) : Res :=
  if !s.powered then ok s else if s.gated a then ok (s.gateAbort .host a true) else f s

/-- An event of the device or of its pins: none occurs while the power-on reset holds (R445, R448). -/
def State.whenOn (f : State → Res) (s : State) : Res := if s.powered then f s else ok s

/-! ## The sketch (R38, R39) -/

/-- The bits of a register that are staged. -/
def stagedBits (r : RegRow) : Nat :=
  r.fields.foldl (fun m f => if f.acc = .stg then m ||| (2 ^ (f.hi - f.lo + 1) - 1) * 2 ^ f.lo else m) 0

/-- The staged bits at a location; 0 where no register is staged. -/
def stagedMask (a : Nat) : Nat :=
  match findRow a with
  | some (r, _) => stagedBits r
  | none => 0

/-- The location a sketch-view address names, normal address plus 0x0010_0000 (R38). -/
def normalAddr (a : Nat) : Nat := if a < 0x02600000 ∧ 0x100000 ≤ a % 0x200000 then a - 0x100000 else a
def isSketchView (a : Nat) : Bool := decide (a < 0x02600000 ∧ 0x100000 ≤ a % 0x200000)

/-- The bits of `m` taken from `new`, the others from `old`. -/
def merge (m : Nat) (old new : Word) : Word :=
  let k := BitVec.ofNat 32 m
  (old &&& ~~~k) ||| (new &&& k)

/-- The sketch value at a location. -/
def State.sketchWord (a : Nat) (s : State) : Word := rd resetWord s.io.sketch a
/-- The value an accepted commit will bring into force at a location. -/
def State.shadowWord (a : Nat) (s : State) : Word := rd resetWord s.io.shadow a

/-- A proof result is stale once CHIP_SKETCH_GEN differs from the generation it started from (R41). -/
def State.showStale (s : State) : State :=
  let st := s.get Fd.CHIP_PROOF_STATUS_STATE
  s.setBit Fd.CHIP_PROOF_STATUS_STALE ((st == 2 || st == 3) && s.get Fd.CHIP_SKETCH_GEN_GEN != s.chip.proofGen)

/-- An accepted STG write (R38, R39): the staged bits of the register go to the sketch, reserved encodings included,
and CHIP_SKETCH_GEN increments. -/
def State.stage (a : Nat) (v : Word) (s : State) : State :=
  let w := merge (stagedMask a) (s.sketchWord a) v
  let s1 := (s.io' fun x => { x with sketch := wr resetWord x.sketch a w }).chip' fun c =>
    { c with since := if c.since.contains a then c.since else a :: c.since }
  (s1.bump Fd.CHIP_SKETCH_GEN_GEN 1).showStale

/-! ## Values in force at a tick (R15) -/

/-- The varnish tick of the commit (R46). -/
def State.varnishTick (s : State) : Wide :=
  BitVec.ofNat 64 (s.get Fd.CHIP_VARNISH_TICK_LO_TICK + s.get Fd.CHIP_VARNISH_TICK_HI_TICK * 2 ^ 32)
def State.commitFixed (s : State) : Bool := s.chip.phase == 2
def State.commitWaiting (s : State) : Bool := s.chip.phase == 1

/-- The value that a staged field will have once the pending commit is applied: the one in force without such a commit. DESIGN CHOICE (log 20). -/
def State.coming (f : Field) (s : State) : Nat :=
  if s.commitWaiting || s.commitFixed then bitsOf (s.shadowWord f.off) f.hi f.lo else s.get f

/-- A FIXED commit will have been applied at tick t (R15). -/
def State.appliedBy (t : Wide) (s : State) : Bool := s.commitFixed && !before t s.varnishTick

/-- The word in force at a tick that has passed: the oldest varnish after it holds what it replaced. DEDUCED (log 84). -/
def pastWord (t : Wide) (a : Nat) : List (Wide × SMap Word) → Word → Word
  | [], w => w
  | (v, m) :: l, w => if before t v then pastWord t a l ((look m a).getD w) else w

/-- The word in force at a tick (R15): the shadow from the varnish tick of a FIXED commit on, and before a varnish what
it replaced. DEDUCED (log 84). -/
def State.regAt (t : Wide) (a : Nat) (s : State) : Word :=
  if s.appliedBy t then merge (stagedMask a) (s.reg a) (s.shadowWord a) else pastWord t a s.chip.past (s.reg a)
def State.getAt (t : Wide) (f : Field) (s : State) : Nat := bitsOf (s.regAt t f.off) f.hi f.lo

/-- The tick at which the next era is stored (R69). -/
def eraFence : Nat := 2 ^ 64 - 2 ^ 40

/-- Neither the store of the next era nor the wrap lies between the count and tick t (R69). DESIGN CHOICE (log 3). -/
def State.inCount (t : Wide) (s : State) : Bool :=
  !before s.tick t || decide (s.tick.toNat ≤ t.toNat ∧ (eraFence ≤ s.tick.toNat ∨ t.toNat < eraFence))

/-- Nothing due at or before tick t is still to be applied, and the time base runs: the event of tick t can be the next
to occur (R15, R69, R71). DESIGN CHOICE (log 3). -/
def State.timely (t : Wide) (s : State) : Bool := s.tbas.running && !s.appliedBy t && s.inCount t && s.inCount (s.shownAt t)

end Sys2Proof.Machine
end

