-- ==== Sys2Proof/Machine/Operands.lean ====
section
/-!
DEFINITION. The operand forms of a Ponos instruction (R112 to R115): fields, registers, second operand, and the check
that unused fields are 0.
-/
namespace Sys2Proof.Machine

/-! ## Subfields of X (R113) -/

/-- Bits hi:lo of the extension field. -/
def xbits (f : Fields) (hi lo : Nat) : Nat := f.x.toNat / 2 ^ lo % 2 ^ (hi - lo + 1)
/-- The predicate the instruction writes; 0 writes none. -/
def pdOf (f : Fields) : Nat := xbits f 36 34
/-- The second operand is the immediate. -/
def immForm (f : Fields) : Bool := xbits f 33 33 == 1
def imm (f : Fields) : Word := BitVec.ofNat 32 (xbits f 31 0)

/-! ## Registers of an easel (R83) -/

/-- G[i]; G0 reads 0. -/
def State.g (e i : Nat) (s : State) : Word := if i = 0 then 0 else BitVec.ofNat 32 (s.get (Fd.SCAN_EASEL_G_G e i))
/-- Write G[i]; writes to G0 are ignored. -/
def State.setG (e i : Nat) (v : Word) (s : State) : State :=
  if i = 0 then s else s.set (Fd.SCAN_EASEL_G_G e i) v.toNat
/-- T[i], 64 bits in two words of the debug window. -/
def State.t (e i : Nat) (s : State) : Wide :=
  BitVec.ofNat 64 (s.get (Fd.SCAN_EASEL_T_WORD e (2 * i)) + s.get (Fd.SCAN_EASEL_T_WORD e (2 * i + 1)) * 2 ^ 32)
def State.setT (e i : Nat) (v : Wide) (s : State) : State :=
  s.set (Fd.SCAN_EASEL_T_WORD e (2 * i)) (v.toNat % 2 ^ 32)
    |>.set (Fd.SCAN_EASEL_T_WORD e (2 * i + 1)) (v.toNat / 2 ^ 32)
/-- P[i]; P0 reads 1. -/
def State.p (e i : Nat) (s : State) : Bool := i == 0 || s.is ((Fd.SCAN_EASEL_PRED_P e).bit i)
/-- Write P[i]; writes to P0 are ignored. -/
def State.setP (e i : Nat) (b : Bool) (s : State) : State :=
  if i = 0 then s else s.setBit ((Fd.SCAN_EASEL_PRED_P e).bit i) b

/-- The second operand: G[B], or the immediate when I = 1 (R116). -/
def State.opB (e : Nat) (f : Fields) (s : State) : Word := if immForm f then imm f else s.g e f.b.toNat

/-- The address of a load, a store or a SKETCH: G[A] + IMM modulo 2^32 (R120, R132). -/
def State.addr (e : Nat) (f : Fields) (s : State) : Nat := (s.g e f.a.toNat + imm f).toNat

/-! ## Unused fields (R115) -/

/-- What a D, A or B field holds (R114). -/
inductive Use where
  /-- not used: must be 0 -/
  | none
  /-- a general register, or a condition or operation code -/
  | g
  /-- a time register: bits 4:2 must be 0 -/
  | t
  /-- a predicate: bits 4:3 must be 0 -/
  | p
  deriving DecidableEq, Repr

def Use.fits (u : Use) (v : Nat) : Bool :=
  match u with
  | .none => v == 0
  | .g => true
  | .t => decide (v < 4)
  | .p => decide (v < 8)

/-- The row of an opcode in R114: its register fields and the bits of X it uses. -/
structure Shape where
  opc : Nat
  d : Use
  a : Use
  b : Use
  x : Nat

/-- Bits hi:lo as a mask. -/
def bitMask (hi lo : Nat) : Nat := (2 ^ (hi - lo + 1) - 1) * 2 ^ lo

/-- Every field the opcode does not use is 0, and every register field names a register (R115). -/
def Shape.legal (h : Shape) (f : Fields) : Bool :=
  h.d.fits f.d.toNat && h.a.fits f.a.toNat && h.b.fits f.b.toNat && (f.x.toNat &&& h.x) == f.x.toNat

def mPD : Nat := bitMask 36 34
def mI : Nat := bitMask 33 33
def mIMM : Nat := bitMask 31 0

def shAlu (opc : Nat) : Shape := ⟨opc, .g, .g, .g, mI + mIMM⟩
def shCMP : Shape := ⟨0x1C, .g, .g, .g, mPD + mI + mIMM⟩
def shPLOG : Shape := ⟨0x1D, .g, .p, .p, mPD⟩
def shMFS : Shape := ⟨0x1E, .g, .none, .none, bitMask 7 0⟩
def shMTS : Shape := ⟨0x1F, .none, .g, .none, bitMask 7 0⟩
def shBR : Shape := ⟨0x20, .none, .none, .none, bitMask 11 0⟩
def shJAL : Shape := ⟨0x21, .g, .none, .none, bitMask 11 0⟩
def shJR : Shape := ⟨0x22, .none, .g, .none, 0⟩
def shLOOP : Shape := ⟨0x23, .none, .g, .none, bitMask 11 0⟩
def shRETE : Shape := ⟨0x24, .none, .none, .none, 0⟩
def shLD : Shape := ⟨0x30, .g, .g, .none, mIMM⟩
def shST : Shape := ⟨0x31, .none, .g, .g, mIMM⟩
def shLDT : Shape := ⟨0x32, .t, .g, .none, mIMM⟩
def shSTT : Shape := ⟨0x33, .none, .g, .t, mIMM⟩
def shNOW : Shape := ⟨0x40, .t, .none, .none, 0⟩
def shWAITT : Shape := ⟨0x41, .none, .t, .none, 0⟩
def shSETT : Shape := ⟨0x42, .t, .t, .g, bitMask 35 34 + mI + bitMask 32 32 + mIMM⟩
def shTCMP : Shape := ⟨0x43, .g, .t, .t, mPD⟩
def shTGET : Shape := ⟨0x44, .g, .t, .none, bitMask 32 32⟩
def shTPUT : Shape := ⟨0x45, .t, .g, .g, 0⟩
def shLINE : Shape := ⟨0x50, .g, .t, .g, mPD + bitMask 30 0⟩
def shSHOT : Shape := ⟨0x51, .g, .t, .none, mPD⟩
def shTRAIN : Shape := ⟨0x52, .g, .t, .g, mPD + bitMask 10 8 + bitMask 5 0⟩
def shSTAG : Shape := ⟨0x53, .g, .t, .g, mPD⟩
def shLISTENONLY : Shape := ⟨0x54, .g, .t, .g, mPD + bitMask 10 8 + bitMask 5 0⟩
def shWINDOW : Shape := ⟨0x60, .g, .g, .none, mPD + mIMM⟩
def shZOOM : Shape := ⟨0x61, .g, .g, .g, mPD + bitMask 3 0⟩
def shHSWAP : Shape := ⟨0x62, .g, .t, .none, mPD + mIMM⟩
def shSTACK : Shape := ⟨0x63, .g, .g, .none, mPD⟩
def shPEEK : Shape := ⟨0x70, .g, .g, .g, mPD⟩
def shSUMWAIT : Shape := ⟨0x71, .none, .g, .none, 0⟩
def shSKETCH : Shape := ⟨0x80, .none, .g, .g, mIMM⟩
def shPROOF : Shape := ⟨0x81, .none, .none, .none, 0⟩
def shCOMMIT : Shape := ⟨0x82, .g, .t, .none, mPD + bitMask 1 0⟩
def shSIGNAL : Shape := ⟨0x90, .none, .none, .none, bitMask 3 0⟩
def shWAITSIG : Shape := ⟨0x91, .none, .none, .none, bitMask 3 0⟩
def shSEMAPHORE : Shape := ⟨0x92, .none, .none, .none, mPD + bitMask 32 32 + bitMask 2 0⟩
def shLEDGER : Shape := ⟨0xA0, .g, .g, .g, mPD + mI + mIMM⟩
def shTRAP : Shape := ⟨0xF0, .none, .none, .none, mIMM⟩
def shYIELD : Shape := ⟨0xF1, .none, .none, .none, bitMask 7 0⟩
def shHALT : Shape := ⟨0xF2, .none, .none, .none, 0⟩

end Sys2Proof.Machine
end

