-- ==== Sys2Proof/Machine/Flags.lean ====
section
/-!
DEFINITION. The conditions and predicates of Ponos: when an instruction executes (R84), the comparisons of CMP and
TCMP (R117, R121), the predicate operations of PLOG (R117), the status word of a timed action (R122).
-/
namespace Sys2Proof.Machine

/-- An instruction executes when P[sel] XOR neg is 1 (R84). DEDUCED (log 34). -/
def State.executes (e : Nat) (f : Fields) (s : State) : Bool := s.p e f.psel.toNat != f.pneg

/-- The condition cc of CMP; codes 6 to 31 are reserved (R117). -/
def cmpCond (cc : Nat) (a b : Word) : Bool :=
  match cc with
  | 0 => a == b
  | 1 => a != b
  | 2 => a.slt b
  | 3 => !a.slt b
  | 4 => a.ult b
  | _ => !a.ult b

/-- The condition cc of TCMP on the signed difference of two ticks; codes 4 to 31 are reserved (R121). -/
def tcmpCond (cc : Nat) (a b : Wide) : Bool :=
  let x := (a - b).toInt
  match cc with
  | 0 => decide (x < 0)
  | 1 => decide (0 ≤ x)
  | 2 => decide (x = 0)
  | _ => decide (x ≠ 0)

/-- The operation of PLOG; codes 4 to 31 are reserved (R117). -/
def plogOp (op : Nat) (a b : Bool) : Bool :=
  match op with
  | 0 => a && b
  | 1 => a || b
  | 2 => a != b
  | _ => a && !b

/-- The word ASTAT (R122). -/
def astatWord (result sub denied admitted code : Nat) : Word :=
  BitVec.ofNat 32 (result + 16 * sub + 256 * denied + 65536 * admitted + 16777216 * code)

end Sys2Proof.Machine
end

