-- ==== Sys2Proof/Machine/Easel.lean ====
section
/-!
DEFINITION. What every Ponos instruction shares: the run of one instruction under its predicate (R84, R115), exception
entry and the double fault (R103 to R105), the watchdog count (R106), completion of a waiting instruction, and the
release of waiters (R99, R101).
-/
namespace Sys2Proof.Machine

/-- The record of easel e. -/
def State.easel (e : Nat) (s : State) : Easel := rd (fun _ => {}) s.scan.easels e
def State.easel' (e : Nat) (f : Easel → Easel) (s : State) : State :=
  s.scan' fun c => { c with easels := wr (fun _ => {}) c.easels e (f (rd (fun _ => {}) c.easels e)) }

def State.pc (e : Nat) (s : State) : Nat := s.get (Fd.SCAN_EASEL_PC_PC e)
def State.setPc (e n : Nat) (s : State) : State := s.set (Fd.SCAN_EASEL_PC_PC e) n
/-- Fall through to the next index of the bank, modulo 4,096 (R83). DEDUCED (log 34). -/
def State.nextPc (e : Nat) (s : State) : State := s.setPc e (s.pc e + 1)

def State.isRunning (e : Nat) (s : State) : Bool := s.get (Fd.SCAN_EASEL_STAT_STATE e) == 1
def State.isWaiting (e : Nat) (s : State) : Bool := s.get (Fd.SCAN_EASEL_STAT_STATE e) == 2
def State.isHalted (e : Nat) (s : State) : Bool := s.get (Fd.SCAN_EASEL_STAT_STATE e) == 0

/-! ## The watchdog count (R106) -/

/-- The count restarts from 0. -/
def State.wdogRestart (e : Nat) (s : State) : State :=
  s.easel' e fun z => { z with wdogFrom := s.tick, wdogKept := 0 }

/-! ## Halting (R105, R109, R135) -/

/-- The easel halts: it is neither running nor waiting, and an abandoned wait has queued nothing; the watchdog stops
counting. -/
def State.halt (e : Nat) (s : State) : State :=
  (s.set (Fd.SCAN_EASEL_STAT_STATE e) 0).easel' e fun z =>
    { z with wait := .none, port := none, stepping := false
             wdogKept := if s.isHalted e then z.wdogKept else (ahead z.wdogFrom s.tick).toNat }

/-- The halt interrupt of an easel, when enabled (R105, R135). -/
def State.haltIrq (e : Nat) (s : State) : State := s.onlyIf (s.is (Fd.SCAN_EASEL_CTL_IEN_HALT e)) (State.irq (40 + e))

/-- The easel leaves halted and runs at its PC (R109). -/
def State.run (e : Nat) (s : State) : State :=
  if s.isHalted e then
    (s.set (Fd.SCAN_EASEL_STAT_STATE e) 1).easel' e fun z =>
      { z with wdogFrom := s.tick - BitVec.ofNat 64 z.wdogKept, wdogKept := 0 }
  else s

/-! ## Exceptions (R103 to R105) -/

def causeILLEGAL : Nat := 1
def causeLATE_SHOT : Nat := 2
def causeLEDGER : Nat := 3
def causeBUS : Nat := 4
def causeMISALIGN : Nat := 5
def causeCODE_TABLE : Nat := 6
def causeWATCHDOG : Nat := 7
def causeTRAP : Nat := 8

/-- An unmasked cause raised while EXL is 1 (R105, R489): the easel halts, DFAULT is set, the record is written. -/
def State.doubleFault (e cause fpc : Nat) (s : State) : State :=
  ((s.halt e).set (Fd.SCAN_EASEL_STAT_DFAULT e) 1 |>.err
    { level := 0, region := 2, block := e + 1, code := 0x0281, cell := e, detail := cause + 65536 * fpc }).haltIrq e

/-- Exception entry (R104): `fpc` is the raising index, `epc` the index RETE returns to. -/
def State.enter (e cause sub : Nat) (detail : Word) (fpc epc : Nat) (s : State) : State :=
  let s1 := (s.set (Fd.SCAN_EASEL_PC_EPC e) epc
    |>.set (Fd.SCAN_EASEL_ECAUSE_CAUSE e) cause |>.set (Fd.SCAN_EASEL_ECAUSE_SUB e) sub
    |>.set (Fd.SCAN_EASEL_ECAUSE_FPC e) fpc |>.set (Fd.SCAN_EASEL_EDETAIL_DETAIL e) detail.toNat
    |>.set (Fd.SCAN_EASEL_STAT_EXL e) 1 |>.set (Fd.SCAN_EASEL_STAT_STATE e) 1
    |>.setPc e (16 * s.get (Fd.SCAN_EASEL_EVB_BASE e) + cause)).easel' e fun z =>
      { z with epred := s.get (Fd.SCAN_EASEL_PRED_P e), wait := .none, port := none }
  (s1.count 2 Src.SCAN_EXCEPTIONS e 1).onlyIf (s.is (Fd.SCAN_EASEL_CTL_IEN_EXC e)) (State.irq (40 + e))

/-- Take an exception: entry, or the double fault when EXL is 1 (R104, R105). -/
def State.raise (e cause sub : Nat) (detail : Word) (fpc epc : Nat) (s : State) : State :=
  if s.is (Fd.SCAN_EASEL_STAT_EXL e) then s.doubleFault e cause fpc else s.enter e cause sub detail fpc epc

/-- Whether a cause raises its exception: LATE_SHOT and LEDGER are maskable (R103). -/
def State.enabled (e cause : Nat) (s : State) : Bool :=
  if cause = causeLATE_SHOT then s.is (Fd.SCAN_EASEL_EXC_EN_LATE e)
  else if cause = causeLEDGER then s.is (Fd.SCAN_EASEL_EXC_EN_LEDGER e)
  else true

/-- The instruction at PC raises a cause; EPC is the index after it (R104). DEDUCED (log 34). -/
def State.raiseHere (e cause sub : Nat) (detail : Word) (s : State) : State :=
  s.raise e cause sub detail (s.pc e) ((s.pc e + 1) % 4096)

/-- ILLEGAL: EDETAIL holds instruction bits 31:0 (R103). -/
def State.illegal (e : Nat) (f : Fields) (s : State) : State := s.raiseHere e causeILLEGAL 0 (imm f)

/-! ## One instruction -/

/-- A stepped easel halts once its instruction has completed (R109). -/
def State.settle (e : Nat) (s : State) : State :=
  if (s.easel e).stepping && !s.isWaiting e then s.halt e else s

/-- One instruction of easel e: it runs only on an easel that is running; it executes under its predicate (R84); a
field that must be 0, or a value outside its range, raises ILLEGAL (R115); otherwise `body` gives its effect. DEDUCED (log 34). -/
def instr (e : Nat) (f : Fields) (h : Shape) (range : State → Bool) (body : State → State) (s : State) : Res :=
  if !s.isRunning e then ok s
  else if !s.executes e f then ok ((s.nextPc e).settle e)
  else if h.legal f && range s then ok ((body s).settle e)
  else ok ((s.illegal e f).settle e)

/-- No range of its own. -/
def anyRange (_ : State) : Bool := true

/-- The easel begins to wait at its instruction (R87). -/
def State.waitFor (e : Nat) (w : Wait) (s : State) : State :=
  (s.set (Fd.SCAN_EASEL_STAT_STATE e) 2).easel' e fun z => { z with wait := w }

/-- A waiting instruction completes: the easel goes on at the next index. -/
def State.complete (e : Nat) (s : State) : State :=
  ((s.set (Fd.SCAN_EASEL_STAT_STATE e) 1).nextPc e |>.easel' e fun z => { z with wait := .none, port := none }).settle e

/-! ## Release of waiters -/

/-- The easels in order. -/
def easelList : List Nat := [0, 1, 2, 3, 4, 5, 6, 7]

/-- The digest of line sequence n is complete: SCAN_DSM_LAST − n, signed, is 0 or more (R99). -/
def State.digestDone (n : Word) (s : State) : Bool :=
  decide (0 ≤ (BitVec.ofNat 32 (s.get Fd.SCAN_DSM_LAST_SEQ) - n).toInt)

/-- SUMWAIT completes for every easel whose digest is complete (R99, R131). -/
def State.sumwaitDone (s : State) : State :=
  easelList.foldl (fun s e =>
    match (s.easel e).wait with
    | .digest n => if s.digestDone n then s.complete e else s
    | _ => s) s

/-- A set signal releases and consumes one waiting easel, the lowest-numbered (R101). -/
def State.releaseSig (n : Nat) (s : State) : State :=
  if s.is (Fd.SCAN_SIG_SIG.bit n) then
    match easelList.find? fun e => (s.easel e).wait = .signal n with
    | some e => (s.set (Fd.SCAN_SIG_SIG.bit n) 0).complete e
    | none => s
  else s

/-- Set signal n, which releases the lowest-numbered waiter (R101). -/
def State.setSig (n : Nat) (s : State) : State := (s.set (Fd.SCAN_SIG_SIG.bit n) 1).releaseSig n

/-- Set every signal of a mask (R101). -/
def State.setSigs (mask : Nat) (s : State) : State :=
  (List.range 16).foldl (fun s n => if mask.testBit n then s.setSig n else s) s

end Sys2Proof.Machine
end

