-- ==== Sys2Proof/Machine/TimeBase.lean ====
section
/-!
DEFINITION. The time base (R56 to R82): oven loop, warm-up, PTM, tick and era counters, the TIU and its statistics.
-/
namespace Sys2Proof.Machine

/-- One second and one microsecond in ticks (R3). -/
def ticksPerS : Nat := 128000000000
def ticksPerUs : Nat := 128000

/-! ## Warm-up (R60, R61) -/

/-- PTM is active (R63). -/
def State.ptmActive (s : State) : Bool := s.is Fd.CFG_PTM_EN && s.is Fd.TBAS_PTM_CTL_EN

/-- FREQ_OK is judged by the 120 s hold: PTM is not active, or disagrees (R60, R65, R66). DEDUCED (log 28). -/
def State.holdMode (s : State) : Bool :=
  !(s.ptmActive && !s.is Fd.TBAS_TB_STAT_PTM_DISAGREE && !s.is Fd.TBAS_PTM_STAT_LOST)

/-- OVEN_OK: in the band for the last 30 s, counted in 5 ms updates (R60). DEDUCED (log 28). -/
def State.ovenOk (s : State) : Bool := decide (6000 ≤ s.tbas.inBand)

/-- FREQ_OK (R60, R61): in hold mode 120 s, 24,000 updates of the oven loop, since TB_WARM was set. DEDUCED (log 28). -/
def State.freqOk (s : State) : Bool :=
  if s.holdMode then decide (s.tbas.warmBase + 24000 ≤ s.tbas.ovenUpd)
  else match s.tbas.rateGood with
    | some t => decide ((10 * ticksPerS : Int) ≤ ahead t s.tick)
    | none => false

/-- TBAS_TB_STAT and TBAS_PTM_STAT show the conditions as they stand. -/
def State.showWarm (s : State) : State :=
  s.setBit Fd.TBAS_TB_STAT_HOLD_MODE s.holdMode |>.setBit Fd.TBAS_TB_STAT_OVEN_OK s.ovenOk
    |>.setBit Fd.TBAS_TB_STAT_FREQ_OK s.freqOk |>.setBit Fd.TBAS_PTM_STAT_ACTIVE s.ptmActive

/-- TB_WARM is set again: both intervals are counted afresh (R61), and the till WARM_SET counts. -/
def State.setWarm (s : State) : State :=
  let s1 := if s.is Fd.TBAS_TB_STAT_TB_WARM then s else s.count 1 Src.TBAS_WARM_SET 0 1
  let log := if s.is Fd.TBAS_TB_STAT_TB_WARM then s.tbas.warmLog else s.tick :: s.tbas.warmLog
  (s1.set Fd.TBAS_TB_STAT_TB_WARM 1 |>.tbas' fun b =>
    { b with warmLog := log, inBand := 0, outBand := 0, rateGood := none, warmBase := b.ovenUpd }).showWarm

/-- Clears TB_WARM when OVEN_OK and FREQ_OK both hold (R60); without a valid oven record it is held set (R58). -/
def execTbWarmClear (s : State) : Res :=
  if s.ovenOk && s.freqOk && s.tbas.oven.valid && !s.is Fd.TBAS_OVN_STAT_OVN_FAULT then
    ok ((s.showWarm.set Fd.TBAS_TB_STAT_TB_WARM 0).tbas' fun b =>
      if s.is Fd.TBAS_TB_STAT_TB_WARM then { b with warmLog := s.tick :: b.warmLog } else b)
  else ok s

/-- TB_WARM at tick t of this count: it has changed since then at each logged tick after t (R344). -/
def State.warmAt (t : Wide) (s : State) : Bool :=
  xor (s.is Fd.TBAS_TB_STAT_TB_WARM) (s.tbas.warmLog.countP (before t) % 2 == 1)

/-- The era of a tick near another, whose era is e: the counter has wrapped between two ticks that lie more than half
its range apart (R69). DEDUCED (log 62). -/
def eraBy (e : Nat) (near t : Nat) : Nat :=
  if near + 2 ^ 63 < t then e - 1 else if t + 2 ^ 63 < near then e + 1 else e

/-- 1.0 ppm, 0.2 ppm, 2 ppm and 0.01 ppm in units of 2^-40 (R61, R65). -/
def ppm1 : Int := 1099511
def ppm02 : Int := 219902
def ppm2 : Int := 2199023
def ppm001 : Int := 10995

/-- The last rate estimate and the trim (R64, R65). -/
def State.rate (s : State) : Int := s.tbas.rate
def State.trim (s : State) : Int := signed 32 (s.get Fd.TBAS_PLL_TRIM_TRIM)

/-- Sets TB_WARM when the ratio has left five bands for more than 1 s, or a rate estimate exceeds 1.0 ppm (R61). DEDUCED (log 28). -/
def execTbWarmSet (s : State) : Res :=
  let off := decide (200 < s.tbas.outBand)
  let fast := !s.holdMode && decide (ppm1 < s.rate.natAbs)
  if !s.is Fd.TBAS_TB_STAT_TB_WARM && (off || fast) then ok s.setWarm else ok s

/-! ## The oven loop (R57 to R59) -/

/-- The heater output is driven at the frequency that PWMF selects; a duty of 0 holds it low. -/
def State.heat (duty : Nat) (s : State) : State :=
  (s.set Fd.TBAS_OVN_STAT_DUTY duty).emit (.ovnHtr duty (s.get Fd.TBAS_OVN_CTL_PWMF))

/-- A quotient of integers, with a fraction rounded either way. DESIGN CHOICE (log 4). -/
def eitherWay (a : Int) (d : Nat) (up : Bool) : Int := a / d + if a % d ≠ 0 ∧ up then 1 else 0

/-- The oven fault of R59: OVN_HTR low, OVN_FAULT, TB_WARM, and a record at block level. -/
def State.ovnFault (s : State) : State :=
  ((s.heat 0).set Fd.TBAS_OVN_STAT_OVN_FAULT 1 |>.setWarm |>.tbas' fun b => { b with ovenHeld := true }).err
    { level := 1, region := 1, block := 1, code := 0x0183, action := 4 }

/-- The proportional-integral law (R57): while the crystal is more than 2 K cold the duty is MAXDUTY and the integral
stands; otherwise the duty is the law's value, its fraction rounded either way, kept within 0 and MAXDUTY. DEDUCED (log 26). DESIGN CHOICE (log 27). -/
def State.ovenLaw (ratio : Nat) (s : State) : State :=
  let e : Int := (ratio : Int) - s.get Fd.TBAS_OVN_SET_SETPT
  let band : Int := s.get Fd.TBAS_OVN_BAND_BAND
  let cap : Int := s.get Fd.TBAS_OVN_CTL_MAXDUTY
  if 20 * band < e then s.heat cap.toNat
  else
    let integral := s.tbas.integral + s.get Fd.TBAS_OVN_GAIN_KI * e
    let (up, s1) := s.drawBit
    let law := eitherWay (16 * (s.get Fd.TBAS_OVN_GAIN_KP * e) + integral) 65536 up
    (s1.tbas' fun b => { b with integral := integral }).heat (max 0 (min cap law)).toNat

/-- What each update counts (R59 to R61): the time in the band, outside five bands, at MAXDUTY, and WARM_S. -/
def State.ovenCount (s : State) : State :=
  let e : Int := (s.get Fd.TBAS_OVN_MEAS_RATIO : Int) - s.get Fd.TBAS_OVN_SET_SETPT
  let band := s.get Fd.TBAS_OVN_BAND_BAND
  let inside := decide (e.natAbs ≤ band)
  let top := s.get Fd.TBAS_OVN_STAT_DUTY == s.get Fd.TBAS_OVN_CTL_MAXDUTY
  let s1 := s.tbas' fun b =>
    { b with ovenUpd := b.ovenUpd + 1
             entered := b.entered || inside
             inBand := if inside then b.inBand + 1 else 0
             outBand := if 5 * band < e.natAbs then b.outBand + 1 else 0
             atMax := if (b.entered || inside) && top then b.atMax + 1 else 0 }
  (s1.setBit Fd.TBAS_OVN_STAT_INBAND inside
    |>.set Fd.TBAS_TB_STAT_WARM_S (min (s1.tbas.ovenUpd / 200) 65535)).showWarm

/-- The duty has stayed at MAXDUTY for 60 s after the band was entered (R59): OVN_SAT and a warning; the loop goes
on. -/
def execOvnSat (s : State) : Res :=
  if s.tbas.entered && decide (12000 ≤ s.tbas.atMax) && !s.is Fd.TBAS_OVN_STAT_OVN_SAT then
    ok ((s.set Fd.TBAS_OVN_STAT_OVN_SAT 1 |>.tbas' fun b => { b with atMax := 0 }).err
      { level := 0, region := 1, block := 1, code := 0x0184, warning := true })
  else ok s

/-- OVN_FAULT is cleared (R59, W1C): the loop restarts only when the firmware clears it. DEDUCED (log 28). -/
def execOvnFaultClear (who : Actor) (s : State) : Res :=
  s.writeBy who Fd.TBAS_OVN_STAT_OVN_FAULT.off fun s =>
  ok ((s.set Fd.TBAS_OVN_STAT_OVN_FAULT 0).tbas' fun b =>
    if who = .firmware then { b with ovenHeld := false, integral := 0 } else b)

/-! ## PTM (R63 to R66) -/

/-- The tick of the next dialog: PERIOD ms after the start of the last one (R63). -/
def State.ptmDue (s : State) : Wide :=
  match s.tbas.ptmAt with
  | some t => t + BitVec.ofNat 64 (s.get Fd.TBAS_PTM_CTL_PERIOD * 1000 * ticksPerUs)
  | none => s.tick

/-- A dialog has failed: the tenth in a row loses PTM (R66). -/
def State.ptmFail (s : State) : State :=
  let s1 := (s.tbas' fun b => { b with ptmBusy := false, ptmFails := b.ptmFails + 1 }).count 1 Src.TBAS_PTM_FAIL 0 1
  if 10 ≤ s1.tbas.ptmFails then ((s1.set Fd.TBAS_PTM_STAT_LOST 1).tbas' fun b => { b with ptmDown := false }).showWarm else s1.showWarm

/-- PTM_DIALOG: with PTM active a dialog starts when it is due and none is open (R63); those that follow a reset of HOST fail, until PTM
is declared lost (R316). DEDUCED (log 13). -/
def execPtmDialog (s : State) : Res :=
  if !s.ptmActive && s.tbas.ptmDown then
    if s.timely s.ptmDue then
      let s1 := s.reach s.ptmDue
      ok (s1.tbas' fun b => { b with ptmAt := some s1.tick }).ptmFail
    else ok s
  else if !s.ptmActive || s.tbas.ptmBusy || !s.timely s.ptmDue then ok s
  else
    let s2 := s.reach s.ptmDue
    ok ((s2.tbas' fun b => { b with ptmBusy := true, ptmAt := some s2.tick, ptmDown := false }).emit .ptmDialog)

/-- A good dialog's sample (R63, R64): the request left at tick t1 and its response came at tick t4; the host received the request
at `host` ns and held it for `turn` ns; half of the rest is the link's delay. PRESUMED (log 93). -/
def ptmSample (t1 t4 host : Wide) (turn : Word) : PtmSample :=
  { tick := t1, host := 256 * (host.toNat : Int) - (ahead t1 t4 - 128 * (turn.toNat : Int)) }

/-- Sums of the least-squares fit over the last 16 dialogs, in ticks and 1/256 ns from the newest (R64). -/
def ptmSums (l : List PtmSample) (p0 : PtmSample) : Int × Int × Int × Int :=
  l.foldl (fun (sx, sy, sxx, sxy) p =>
    let x := ahead p0.tick p.tick
    let y := p.host - p0.host
    (sx + x, sy + y, sxx + x * x, sxy + x * y)) (0, 0, 0, 0)

/-- The fitted rate in 2^-40 and the fitted host time in ns at the newest dialog's tick, their fractions rounded either way (R64); no
rate follows from one dialog, and the spec states none. DESIGN CHOICE (log 29). -/
def ptmFit (l : List PtmSample) (p0 : PtmSample) (up : Bool) (open_ : Int) : Int × Wide :=
  let n : Int := l.length
  let (sx, sy, sxx, sxy) := ptmSums l p0
  let den := n * sxx - sx * sx
  if den ≤ 0 then (open_, BitVec.ofInt 64 (eitherWay p0.host 256 up))
  else
    (eitherWay ((n * sxy - sx * sy) * 2 ^ 39) den.toNat up - 2 ^ 40,
      BitVec.ofInt 64 (eitherWay (p0.host * den + (sy * sxx - sx * sxy)) (256 * den.toNat) up))

/-- Steering (R65): at most once per 100 ms, by at most 0.01 ppm, towards rate 0 and within 2 ppm of the factory trim;
the spec leaves how much of the step is taken. DESIGN CHOICE (log 29). -/
def State.steer (s : State) : State :=
  let due := match s.tbas.trimAt with
    | some t => decide ((12800000000 : Int) ≤ ahead t s.tick)
    | none => true
  if s.is Fd.TBAS_PTM_CTL_STEER && !s.holdMode && due && decide (s.rate ≠ 0) then
    let (m, s1) := s.drawNat (min s.rate.natAbs ppm001.toNat + 1)
    let new := max (-ppm2) (min ppm2 (s.trim + (if 0 < s.rate then (m : Int) else -(m : Int))))
    (s1.set Fd.TBAS_PLL_TRIM_TRIM (unsigned 32 new)).tbas' fun b => { b with trimAt := some s.tick }
  else s

/-- How long every estimate has lain within 0.2 ppm, and how long the trim bound has been in the way (R60, R65). -/
def State.judgeRate (s : State) : State :=
  let r := s.rate
  let need := if 0 < r then s.trim + (r - ppm02) else s.trim + (r + ppm02)
  let stuck := decide (ppm02 < r.natAbs ∧ ppm2 < need.natAbs)
  s.tbas' fun b =>
    { b with rateGood := if r.natAbs ≤ ppm02 then b.rateGood <|> some s.tick else none
             trimBound := if stuck then b.trimBound <|> some s.tick else none }

/-- A dialog ends (R64, R66): the device refits, publishes the triple and steers; or counts a failure.  A rate beyond the 32 bits of
TBAS_PTM_RATE is held at their limit. DESIGN CHOICE (log 29). DEDUCED (log 30, 32). -/
def execPtmDialogEnd (good : Bool) (t1 t4 host : Wide) (turn : Word) (s : State) : Res :=
  if !s.tbas.ptmBusy then ok s
  else if good && s.ptmActive then
    let p := ptmSample t1 t4 host turn
    let l := (p :: s.tbas.ptm).take 16
    let (up, s1) := s.drawBit
    let (w, s2) := s1.drawWord
    let (rate, hostAt) := ptmFit l p up (signed 32 w.toNat)
    let s3 := s2.tbas' fun b => { b with ptmBusy := false, ptmFails := 0, ptm := l, rate := clampS 32 rate }
    let s4 := (s3.setWide 1 1 t1).setWide 1 2 hostAt
    ok (s4.bump Fd.TBAS_PTM_STAT_EXCH 1 |>.set Fd.TBAS_PTM_STAT_LOST 0 |>.count 1 Src.TBAS_PTM_OK 0 1
      |>.judgeRate |>.steer |>.showWarm)
  else ok s.ptmFail

/-- The trim bound has stood in the way for 10 s (R65): PTM_DISAGREE, a warning, TRIM held. -/
def execPtmDisagree (s : State) : Res :=
  match s.tbas.trimBound with
  | some t =>
    if !s.holdMode && s.is Fd.TBAS_PTM_CTL_STEER && decide ((10 * ticksPerS : Int) ≤ ahead t s.tick) then
      ok ((s.set Fd.TBAS_TB_STAT_PTM_DISAGREE 1).err
        { level := 0, region := 1, block := 2, code := 0x0185, warning := true }).showWarm
    else ok s
  | none => ok s

/-- PTM_DISAGREE is written 1 by the firmware or the host, and steering resumes (R65). -/
def execPtmDisagreeClear (who : Actor) (s : State) : Res :=
  s.writeBy who Fd.TBAS_TB_STAT_PTM_DISAGREE.off fun s =>
  ok ((s.set Fd.TBAS_TB_STAT_PTM_DISAGREE 0).tbas' fun b => { b with trimBound := none }).showWarm

/-! ## The tick counter and the era (R67 to R69) -/

/-- The higher valid era of the two slots (R69); with no valid slot the count starts from 0. -/
def Tbas.bestEra (b : Tbas) : Nat :=
  max (if b.slotA.valid then b.slotA.era else 0) (if b.slotB.valid then b.slotB.era else 0)

/-- Write an era into the slot that does not hold the higher valid one (R69). -/
def Tbas.storeEra (e : Nat) (b : Tbas) : Tbas :=
  let aBest := b.slotA.valid && (!b.slotB.valid || decide (b.slotB.era ≤ b.slotA.era))
  if aBest then { b with slotB := ⟨e, true⟩ } else { b with slotA := ⟨e, true⟩ }

/-- The largest era (R69). -/
def eraMax : Nat := 2 ^ 32 - 1

/-- A start of the count (R69): the era is the higher stored one plus 1, written and verified before the counter runs
from 0; an era at its limit stays there and writes ERA_EXHAUSTED. DEDUCED (log 31). -/
def State.startCount (s : State) : State :=
  let e := s.tbas.bestEra
  let new := min (e + 1) eraMax
  let s1 := ((s.tbas' fun b => { b.storeEra new with running := true, lost := false, warmLog := [] }).set Fd.TBAS_ERA_ERA new).chip' fun c =>
    { c with coarse := false }
  let s2 := (s1.io' fun x => { x with tick := 0, upBase := x.upBase + s.tick.toNat }).memc' fun m => { m with last := none, hit := .none }
  if e = eraMax then s2.err { level := 0, region := 1, block := 2, code := 0x0182, warning := true } else s2

/-- The counter reaches 2^64 − 2^40: the current era + 1 goes into the older slot (R69). -/
def State.prewrap (s : State) : State :=
  (s.io' fun x => { x with tick := BitVec.ofNat 64 eraFence }).tbas' fun b => b.storeEra (min (s.io.era + 1) eraMax)

def execEraPrewrap (s : State) : Res :=
  if s.tbas.running && decide (s.tick.toNat < eraFence) && !s.appliedBy (BitVec.ofNat 64 eraFence) then ok s.prewrap else ok s

/-- The wrap (R69): the counter passes to 0 and TBAS_ERA increments in the same tick.  The ledger's charges and
the next scrub pass keep their distance from the count. -/
def State.wrap (s : State) : State :=
  (((s.io' fun x => { x with tick := 0, upBase := x.upBase + 2 ^ 64 }).set Fd.TBAS_ERA_ERA (min (s.io.era + 1) eraMax)).scan' fun c =>
    { c with charges := c.charges.map (fun g => { g with at_ := g.at_ - 2 ^ 64 })
             modCharges := c.modCharges.map fun g => { g with at_ := g.at_ - 2 ^ 66 } }).memc' fun m =>
      { m with scrubAt := m.scrubAt.map (· - 2 ^ 64) }

/-- The counter reaches its end: no era begins that has not been stored. DEDUCED (log 31). -/
def execTickWrap (s : State) : Res :=
  if s.tbas.running && !s.appliedBy 0 then ok (if s.tick.toNat < eraFence then s.prewrap.wrap else s.wrap) else ok s

/-! ## The TIU (R73 to R79, R82) -/

/-- The comparator of an input reports a crossing at a tick: it is enabled, and a slope is selected (R352). -/
def State.reportsCrossing (m : Nat) (t : Wide) (s : State) : Bool :=
  !s.restarting 15 && s.getAt t (Fd.MONI_IN_CTL_EN m) == 1 && s.getAt t (Fd.MONI_IN_CTL_SLOPE m) != 0

/-- Record the interval of module m for a shot of a line, and whether it was substituted (R74, R76). -/
def noteEmit (l : LineRec) (idx m : Nat) (d : Int) (miss : Bool) : LineRec :=
  { l with shots := l.shots.mapIdx fun i h =>
      if i = idx then { h with d := ins h.d m d, miss := if miss then h.miss ||| 2 ^ m else h.miss } else h }

/-- Change the admitted line of a sequence. -/
def Scan.onLine (q : Word) (f : LineRec → LineRec) (c : Scan) : Scan :=
  { c with lines := c.lines.map fun l => if l.seq = q then f l else l }

/-- The charge of module m for a shot takes its place at t_emit (R165). -/
def Scan.placeCharge (q : Word) (idx m : Nat) (t : Int) (c : Scan) : Scan :=
  { c with modCharges := c.modCharges.map fun g =>
      if g.line = q ∧ g.index = idx ∧ g.mod_ = m then { g with at_ := t } else g }

/-- Hand the interval of stop m to the line's shot and to the ledger. -/
def State.emission (t : TiuShot) (m : Nat) (d : Int) (miss : Bool) (s : State) : State :=
  s.scan' fun c =>
    (if t.diag then c else c.onLine t.line fun l => noteEmit l t.index m d miss).placeCharge t.line t.index m (4 * t.fire.toNat + d)

/-- The result registers of a completed block (R78): exact sums, MEAN and SD with 8 fractional bits. -/
def State.latchBlock (m : Nat) (b : TiuBlock) (s : State) : State :=
  let varn := ((b.n : Int) * b.s2 - b.s1 * b.s1).toNat
  let sd := min 0xFFFF ((isqrt (512 * 512 * varn) / b.n + 1) / 2)
  s.set (Fd.TBAS_TIU_MEAN_MEAN m) (unsigned 26 (roundHalfAway (b.s1 * 256) b.n))
    |>.set (Fd.TBAS_TIU_SD_SD m) sd
    |>.set (Fd.TBAS_TIU_MIN_MIN m) (unsigned 18 b.lo) |>.set (Fd.TBAS_TIU_MAX_MAX m) (unsigned 18 b.hi)
    |>.bump (Fd.TBAS_TIU_SEQ_SEQ m) 1 |>.set (Fd.TBAS_TIU_SEQ_MISSES m) (min b.misses 0xFFFF)

/-- The statistics block of stop m. -/
def State.block (m : Nat) (s : State) : TiuBlock := rd (fun _ => {}) s.tbas.blocks m
def State.setBlock (m : Nat) (b : TiuBlock) (s : State) : State :=
  s.tbas' fun t => { t with blocks := wr (fun _ => {}) t.blocks m b }

/-- A valid measurement enters the block of stop m; the block that is full is latched and the next begins (R78). -/
def State.measure (m : Nat) (d : Int) (s : State) : State :=
  let b := s.block m
  let b' : TiuBlock :=
    { n := b.n + 1, s1 := b.s1 + d, s2 := b.s2 + (d * d).toNat
      lo := if b.n = 0 then d else min b.lo d, hi := if b.n = 0 then d else max b.hi d, misses := b.misses }
  if b'.n = 2 ^ s.get Fd.TBAS_TIU_CTL_NSTAT then (s.latchBlock m b').setBlock m {} else s.setBlock m b'

/-- The stop m is no longer open in the shot being measured. -/
def State.closeStop (m : Nat) (s : State) : State :=
  s.tbas' fun t => { t with shot := t.shot.map fun h => { h with stops := h.stops &&& (0xFFFF ^^^ 2 ^ m) } }

/-- TBAS_TIU_LAST of stop m (R82). -/
def State.tiuLast (m : Nat) (d : Int) (diag miss : Bool) (s : State) : State :=
  s.set (Fd.TBAS_TIU_LAST_D m) (unsigned 18 d) |>.setBit (Fd.TBAS_TIU_LAST_DIAG m) diag
    |>.setBit (Fd.TBAS_TIU_LAST_MISS m) miss

/-- The window of stop m has closed without a crossing (R76): the latched MEAN of the last completed block, which is rounded to 1/256, is
rounded again and substituted. DESIGN CHOICE (log 100). -/
def State.missStop (t : TiuShot) (m : Nat) (s : State) : State :=
  let d := roundHalfAway (signed 26 (s.get (Fd.TBAS_TIU_MEAN_MEAN m))) 256
  let b := s.block m
  (s.closeStop m |>.tiuLast m d t.diag true |>.count 1 Src.TBAS_TIU_MISS m 1
    |>.setBlock m { b with misses := b.misses + 1 }).emission t m d true

/-- Every stop that is still open has missed: the shot's measurement is complete before the next start (R75). DEDUCED (log 33). -/
def State.closeShot (s : State) : State :=
  match s.tbas.shot with
  | none => s
  | some t => s.each ((List.range 16).filter fun m => t.stops.testBit m) (State.missStop t)

/-- The TIU starts on a shot or a diagnostic pulse (R73): each enabled stop is open, with the window in force. -/
def State.startTiu (f : Wide) (line : Word) (idx : Nat) (diag : Bool) (s : State) : State :=
  s.closeShot.tbas' fun b =>
    { b with shot := some { fire := f, line := line, index := idx, stops := s.get Fd.TBAS_TIU_STOPS_STOP_EN
                            diag := diag, opens := s.get Fd.TBAS_TIU_WIN_OPEN, closes := s.get Fd.TBAS_TIU_WIN_CLOSE } }

/-- A write of TBAS_TIU_CTL (R79): NSTAT 17 to 31 is reserved and the write is ignored whole; a change of NSTAT, or
STAT_CLR, restarts every stop's block once. -/
def execTiuCtlWrite (who : Actor) (v : Word) (s : State) : Res :=
  s.writeBy who Fd.TBAS_TIU_CTL_NSTAT.off fun s =>
  let n := bitsOf v 4 0
  if 17 ≤ n then ok (s.err { level := 0, region := 1, block := 3, code := 0x0105, action := 7, detail := 0x230000 })
  else
    let clear := bitsOf v 8 8 == 1 || n != s.get Fd.TBAS_TIU_CTL_NSTAT
    ok ((s.set Fd.TBAS_TIU_CTL_NSTAT n).tbas' fun b => if clear then { b with blocks := [] } else b)

end Sys2Proof.Machine
end

