-- ==== Sys2Proof/Machine/Ctl.lean ====
section
/-!
DEFINITION. The control model (R30 to R55): staging, proof start, commit, abort, snapshots, wide mailboxes, the
management mailbox.
-/
namespace Sys2Proof.Machine

/-! ## STG writes (R38, R39, R100) -/

/-- An STG write at a normal or sketch-view address: a location with no STG register is reserved there, a withheld one
is denied (R32). DEDUCED (log 18). -/
def execStgWrite (who : Actor) (off : BitVec 32) (v : Word) (s : State) : Res :=
  let a := off.toNat
  let n := normalAddr a
  if !s.attends who then ok s
  else if s.gated n then ok (s.gateAbort who a true)
  else if s.withheld who n true v then ok (s.accError ACC_DENIED a)
  else if stagedMask n = 0 then ok (s.accError ACC_RSVD_WR a)
  else
    let s1 := s.stage n v
    ok (if isLedgerProfile n then s1.scan' fun c => { c with profileStaged := true } else s1)

/-! ## Proof (R40, R41) -/

/-- The consistency checker starts, or starts again, from the current generation (R40). -/
def State.startProof (s : State) : State :=
  (s.set Fd.CHIP_PROOF_GO 1 |>.set Fd.CHIP_PROOF_STATUS_STATE 1 |>.set Fd.CHIP_PROOF_STATUS_STALE 0).chip' fun c =>
    { c with proofGen := s.get Fd.CHIP_SKETCH_GEN_GEN, proofFresh := false }

/-- Writing 1 to CHIP_PROOF.GO (R40). -/
def execProofGo (who : Actor) (s : State) : Res := s.writeBy who Fd.CHIP_PROOF_GO.off fun s => ok s.startProof

/-! ## Commit (R43 to R47, R108) -/

/-- The lead of a varnish tick, 4 µs (R14). -/
def commitLead : Nat := 512000

/-- The program bank of an easel as bytes, for its measurement (R108, R409). -/
def State.bankBytes (e bank : Nat) (s : State) : List Byte :=
  (List.range 4096).flatMap fun i =>
    let w := rd (fun _ => 0) s.scan.pm (e * 8192 + bank * 4096 + i)
    (List.range 8).map fun k => BitVec.ofNat 8 (w.toNat / 256 ^ k)

/-- The swap of easel e becomes pending when the fixed shadow selects the other bank; SECU measures the bank (R108). -/
def State.pendSwap (v : Wide) (e : Nat) (s : State) : State :=
  let f := Fd.SCAN_EASEL_PBANK_SEL e
  let sel := bitsOf (s.shadowWord f.off) f.hi f.lo
  if sel = s.get (Fd.SCAN_EASEL_STAT_BANK e) ∨ s.is (Fd.SCAN_EASEL_STAT_SWAP_PEND e) then s
  else
    (((s.set (Fd.SCAN_EASEL_STAT_SWAP_PEND e) 1).easel' e fun z => { z with swapFrom := some v })).secu' fun u =>
      { u with bankPend := ins u.bankPend e (Config.sha384 (s.bankBytes e sel)) }

/-- The commit becomes FIXED at a varnish tick (R46). -/
def State.fixCommit (v : Wide) (s : State) : State :=
  let s1 := (s.chip' fun c => { c with phase := 2 }).set Fd.CHIP_COMMIT_STATUS_STATE 2 |>.set Fd.CHIP_VARNISH_TICK_LO_TICK (v.toNat % 2 ^ 32)
    |>.set Fd.CHIP_VARNISH_TICK_HI_TICK (v.toNat / 2 ^ 32)
  easelList.foldl (fun s e => s.pendSwap v e) s1

/-- HST_FLT_STAT.PEND shows whether an accepted commit selects another palette (R255). -/
def State.showPend (s : State) : State :=
  [0, 1, 2, 3].foldl (fun s n =>
    let f := Fd.HST_FLT_CTL_LIVE n
    s.setBit (Fd.HST_FLT_STAT_PEND n)
      ((s.commitWaiting || s.commitFixed) && bitsOf (s.shadowWord f.off) f.hi f.lo != s.get f)) s

/-- The first reason to refuse a commit request, and the region it names (R43): 0 none. DEDUCED (log 21). -/
def State.refusal (instant : Nat) (tick : Wide) (s : State) : Nat × Nat :=
  let mask := s.get Fd.CHIP_RESTARTING_MASK
  if s.get Fd.CHIP_PROOF_STATUS_STATE ≠ 2 || !s.chip.proofFresh then (1, 0)
  else if s.get Fd.CHIP_SKETCH_GEN_GEN ≠ s.chip.proofGen then (2, 0)
  else if s.commitWaiting || s.commitFixed then (3, 0)
  else if mask ≠ 0 then (4, ((List.range 19).find? fun r => mask.testBit r).getD 0)
  else if instant = 3 ∧ tick.toNat < s.tick.toNat + commitLead then (5, 0)
  else if instant = 3 ∧ s.tick.toNat + 2 ^ 37 < tick.toNat then (6, 0)
  else (0, 0)

/-- An admitted line can set the varnish tick of a commit at instant 1 or 2 (R46). -/
def qualifies (eng : Nat) (frame : Bool) (now : Wide) (l : LineRec) : Bool :=
  l.easel == eng && (!frame || l.isFrame) && !l.started && decide ((commitLead : Int) ≤ ahead now l.start)

/-- Acceptance (R45, R46): the sketches go to the shadows; the instant sets the varnish tick, or the commit waits. -/
def State.acceptCommit (instant eng : Nat) (tick : Wide) (s : State) : State :=
  let s1 := ((s.io' fun x => { x with shadow := x.sketch }).chip' fun c =>
      { c with proofFresh := false, phase := 1, waitEng := eng, waitFrame := instant == 2, since := [], held := [] })
    |>.set Fd.CHIP_COMMIT_GEN_GEN (s.get Fd.CHIP_SKETCH_GEN_GEN)
    |>.set Fd.CHIP_COMMIT_STATUS_STATE 1 |>.count 0 Src.CHIP_COMMITS 0 1 |>.showPend
    |>.mgmt' fun m => { m with calRetry := false }
  match instant with
  | 0 => s1.fixCommit (s.tick + BitVec.ofNat 64 commitLead)
  | 3 => s1.fixCommit tick
  | _ =>
    match s.scan.lines.find? (qualifies eng (instant == 2) s.tick) with
    | some l => s1.fixCommit l.start
    | none => s1

/-- A commit request of requester `src` (R43, R44): 0 the firmware, 1 the host, 2 + e scan engine e. -/
def State.requestCommit (src instant eng : Nat) (tick : Wide) (s : State) : State :=
  let (why, region) := s.refusal instant tick
  if why = 0 then
    (s.set Fd.CHIP_COMMIT_STATUS_REASON 0 |>.set Fd.CHIP_COMMIT_STATUS_REGION 0
      |>.set Fd.CHIP_COMMIT_STATUS_SRC src).acceptCommit instant eng tick
  else
    (s.set Fd.CHIP_COMMIT_STATUS_REASON why |>.set Fd.CHIP_COMMIT_STATUS_REGION region
      |>.set Fd.CHIP_COMMIT_STATUS_SRC src |>.set Fd.CHIP_COMMIT_STATUS_STATE 4).count 0 Src.CHIP_COMMIT_REFUSED 0 1

/-- The requester code of an actor (CHIP_COMMIT_STATUS.SRC); the JTAG port acts with the host's rights. -/
def srcOf : Actor → Nat
  | .firmware => 0
  | .host => 1
  | .jtag => 1
  | .scan e => 2 + e

/-- The tick given for instant 3. -/
def State.commitTick (s : State) : Wide :=
  BitVec.ofNat 64 (s.get Fd.CHIP_COMMIT_TICK_LO_TICK + s.get Fd.CHIP_COMMIT_TICK_HI_TICK * 2 ^ 32)

/-- The firmware has committed the first scan profile: start-up stage 10 is complete, and MS has the milliseconds since VSYS, as the model
counts them (R446, R449). DESIGN CHOICE (log 103). -/
def State.firstProfile (s : State) : State :=
  if s.stageIs 6 && !s.stageIs 10 && (s.commitWaiting || s.commitFixed) && s.get Fd.CHIP_COMMIT_STATUS_REASON == 0
      && s.get Fd.CHIP_COMMIT_STATUS_SRC == 0 then
    (s.stageDone 10).set Fd.CHIP_BOOT_STAT_MS (min 65535 ((s.io.upBase + s.tick.toNat) / 128000000))
  else s

/-- Writing 1 to CHIP_COMMIT.GO (R43).  `both`: the firmware requests in the same cycle and is preferred; this
request is refused with PENDING and CHIP_COMMIT_STATUS reports the firmware's (R44). -/
def execCommitGo (who : Actor) (both : Bool) (s : State) : Res :=
  s.writeBy who Fd.CHIP_COMMIT_GO.off fun s =>
  let src := if both then 0 else srcOf who
  let s1 := s.requestCommit src (s.get Fd.CHIP_COMMIT_INSTANT) (s.get Fd.CHIP_COMMIT_ENG) s.commitTick
  let s2 := (s1.set Fd.CHIP_COMMIT_GO 0).firstProfile
  ok (if both && srcOf who != 0 then s2.count 0 Src.CHIP_COMMIT_REFUSED 0 1 else s2)

/-- A waiting commit is cancelled (R47): the shadows are discarded with the settings they held; a sketch keeps what has
been written since acceptance. DEDUCED (log 22). -/
def State.cancelCommit (s : State) : State :=
  let back (x : Io) (a : Nat) : Word := merge (stagedMask a) (rd resetWord x.sketch a) (rd resetWord x.regs a)
  (((s.chip' fun c => { c with phase := 0 }).io' fun x =>
    { x with shadow := []
             sketch := (x.sketch ++ x.regs).foldl (fun m e =>
               if stagedMask e.1 = 0 || s.chip.since.contains e.1 then m else wr resetWord m e.1 (back x e.1)) x.sketch }).set
    Fd.CHIP_COMMIT_STATUS_STATE 5).showPend

/-- Writing 1 to CHIP_COMMIT.ABORT (R47). DEDUCED (log 22). -/
def execCommitAbort (who : Actor) (s : State) : Res :=
  s.writeBy who Fd.CHIP_COMMIT_ABORT.off fun s =>
  let s1 := s.set Fd.CHIP_COMMIT_ABORT 0
  if s.commitWaiting then ok s1.cancelCommit
  else if s.commitFixed then ok (s1.set Fd.CHIP_COMMIT_STATUS_ABORT_LATE 1)
  else ok s1

/-- A line of easel e has been admitted at tick L: a waiting commit becomes fixed when it qualifies (R46). -/
def State.commitFixedBy (l : LineRec) (s : State) : State :=
  if s.commitWaiting && qualifies s.chip.waitEng s.chip.waitFrame s.tick l then s.fixCommit l.start else s

/-! ## Wide values (R49 to R51) -/

/-- Whether a wide index of a region names a value (R51, R80, R197, R221, R367, R472). -/
def wideNamed (r i : Nat) : Bool :=
  decide (0x0F00 ≤ i ∧ i < 0x0F40)
    || (r == 1 && decide (i < 3))
    || (decide (4 ≤ r ∧ r ≤ 7) && (decide (0x0100 ≤ i ∧ i < 0x0120) || decide (0x0200 ≤ i ∧ i < 0x0208)))
    || (r == 14 && (i == 0x0010 || i == 0x0020 || i == 0x0021 || i == 0x0022))
    || (r == 15 && (decide (i < 2) || decide (0x0100 ≤ i ∧ i < 0x0114)))
    || (r == 18 && decide (i < 2))

/-- A wide value as it stands (R51): TIME is the tick counter with its low 7 bits 0 (R67). -/
def State.wideValue (r i : Nat) (s : State) : Wide :=
  if r = 1 ∧ i = 0 then s.tick &&& BitVec.ofNat 64 (2 ^ 64 - 128)
  else if r = 14 ∧ i = 0x0010 then
    BitVec.ofNat 64 (s.get Fd.MEMC_STK_MOT_TICK_LO_LO + s.get Fd.MEMC_STK_MOT_TICK_HI_HI * 2 ^ 32)
  else s.wideOf r i

/-- The holding pair of a wide value: the offset of its low word, where the block's table names one. -/
def holdingPair (r i : Nat) : Option Nat :=
  if 0x0F00 ≤ i ∧ i < 0x0F40 then some (r * 0x200000 + 0xF0000 + 0x10 * (i - 0x0F00) + 8)
  else if r = 1 ∧ i < 3 then some (0x00220020 + 8 * i)
  else if 4 ≤ r ∧ r ≤ 7 ∧ 0x0100 ≤ i ∧ i < 0x0120 then some (r * 0x200000 + 0x10000 + 0x400 * (i - 0x0100) + 0xF0)
  else if 4 ≤ r ∧ r ≤ 7 ∧ 0x0200 ≤ i ∧ i < 0x0208 then some (r * 0x200000 + 0x30000 + 0x100 * (i - 0x0200) + 0xF0)
  else none

/-- Copy a wide value into its holding pair (R50). -/
def State.hold (r i : Nat) (s : State) : State :=
  match holdingPair r i with
  | some a =>
    let v := (s.wideValue r i).toNat
    (s.put a (BitVec.ofNat 32 v)).put (a + 4) (BitVec.ofNat 32 (v / 2 ^ 32))
  | none => s

/-- A snapshot or latch of TIME takes the era with it (R70); one of PTM_TICK or PTM_HOST takes the other and RATE (R64). -/
def State.companions (r i : Nat) (s : State) : State :=
  if r = 1 ∧ i = 0 then s.set Fd.TBAS_TIME_ERA_ERA (s.get Fd.TBAS_ERA_ERA)
  else if r = 1 ∧ (i = 1 ∨ i = 2) then ((s.hold 1 1).hold 1 2).set Fd.TBAS_PTM_RATE_RATE (unsigned 32 s.rate)
  else s

/-- The indices of the wide values of a region that have a holding pair. -/
def heldIndices (r : Nat) : List Nat :=
  ((if r = 1 then [0, 1, 2] else if 4 ≤ r ∧ r ≤ 7 then
      (List.range 32).map (0x0100 + ·) ++ (List.range 8).map (0x0200 + ·) else [])
    ++ (List.range 64).map (0x0F00 + ·))

/-- Writing 1 to CHIP_SNAP.GO: the snapshot tick is at least 64 ticks ahead (R50); a lost time base takes none (R71). DESIGN CHOICE (log 24). -/
def execSnapGo (who : Actor) (s : State) : Res :=
  s.writeBy who Fd.CHIP_SNAP_GO.off fun s => ok ((s.set Fd.CHIP_SNAP_GO 1).chip' fun c => { c with snapDue := some (s.tick + 64) })

/-- The snapshot tick: every wide value of every snapshot-mode region is copied to its holding pair (R49, R50). DESIGN CHOICE (log 24). -/
def execSnapshotTake (s : State) : Res :=
  match s.chip.snapDue with
  | none => ok s
  | some t =>
    if !s.timely t then ok s
    else
    let s0 := s.reach t
    let s1 := (List.range 19).foldl (fun s r =>
      if s.is (Fd.RGN_CTL_SNAP_MODE r) then (heldIndices r).foldl (fun s i => (s.hold r i).companions r i) s else s) s0
    ok ((s1.set Fd.CHIP_SNAP_TICK_LO_TICK (s0.tick.toNat % 2 ^ 32)
      |>.set Fd.CHIP_SNAP_TICK_HI_TICK (s0.tick.toNat / 2 ^ 32) |>.bump Fd.CHIP_SNAP_SEQ 1
      |>.set Fd.CHIP_SNAP_GO 0).chip' fun c => { c with snapDue := none })

/-- The four registers of a region's wide mailbox (R51). -/
def wideSelF (fw : Bool) (r : Nat) : Field := if fw then Fd.FW_WIDE_SEL_SEL r else Fd.WIDE_SEL_SEL r
def wideLoF (fw : Bool) (r : Nat) : Field := if fw then Fd.FW_WIDE_LO_LO r else Fd.WIDE_LO_LO r
def wideHiF (fw : Bool) (r : Nat) : Field := if fw then Fd.FW_WIDE_HI_HI r else Fd.WIDE_HI_HI r
def wideValidF (fw : Bool) (r : Nat) : Field := if fw then Fd.FW_WIDE_VALID_VALID r else Fd.WIDE_VALID_VALID r

/-- The mailbox whose value is due to be latched. -/
def latchKey (fw : Bool) (r : Nat) : Nat := 2 * r + if fw then 1 else 0

/-- The accessor of a wide mailbox. -/
def wideActor (fw : Bool) : Actor := if fw then .firmware else .host

/-- A till's count is withheld from the host like the till (R51, R415). -/
def State.tillIndexClosed (who : Actor) (i : Nat) (s : State) : Bool :=
  who ≠ .firmware && decide (0x0F00 ≤ i ∧ i < 0x0F40) && !s.opensD 1

/-- Writing WIDE_SEL (R51): ignored in a snapshot-mode region; VALID clears; an index that names no value leaves it
clear and writes an ACC_RSVD_RD record.  SECU's is the firmware's alone (R425). -/
def State.selectWide (who : Actor) (fw : Bool) (r : Fin 19) (idx : BitVec 16) (s : State) : Res :=
  if s.withheld who (wideSelF fw r).off true 0 || s.tillIndexClosed who idx.toNat then
    ok (s.accError ACC_DENIED (wideSelF fw r).off)
  else if s.is (Fd.RGN_CTL_SNAP_MODE r) then ok s
  else
    let s1 := s.set (wideSelF fw r) idx.toNat |>.set (wideValidF fw r) 0
    if wideNamed r idx.toNat then ok (s1.chip' fun c => { c with latch := latchKey fw r :: c.latch.erase (latchKey fw r) })
    else ok ((s1.chip' fun c => { c with latch := c.latch.erase (latchKey fw r) }).accRecord ACC_RSVD_RD (wideSelF fw r).off)

/-- A region's wide mailbox of the host or of the firmware is written. DEDUCED (log 14). DESIGN CHOICE (log 23). -/
def execWideSel (fw : Bool) (r : Fin 19) (idx : BitVec 16) (s : State) : Res :=
  s.writeBy (wideActor fw) (wideSelF fw r).off (State.selectWide (wideActor fw) fw r idx)

/-- The device latches the selected value and sets VALID (R51, R70). DESIGN CHOICE (log 23). -/
def execWideLatch (fw : Bool) (r : Fin 19) (s : State) : Res :=
  if s.restarting r then ok s else
  if s.chip.latch.contains (latchKey fw r) then
    let i := s.get (wideSelF fw r)
    let v := (s.wideValue r i).toNat
    ok ((s.set (wideLoF fw r) (v % 2 ^ 32) |>.set (wideHiF fw r) (v / 2 ^ 32) |>.set (wideValidF fw r) 1
      |>.companions r i).chip' fun c => { c with latch := c.latch.erase (latchKey fw r) })
  else ok s

/-! ## The management mailbox (R52 to R55) -/

def mbxReq (k : Nat) : Field := Fd.MBX_REQ_WORD k
def State.mbxBusy (s : State) : Bool := s.is Fd.MBX_STAT_BUSY
/-- Word k of the request the firmware works on: one whose response a reset discarded comes first (R316). -/
def State.mbxWord (k : Nat) (s : State) : Word :=
  match s.mgmt.orphan with
  | some m => rd (fun _ => 0) m k
  | none => s.reg (mbxReq k).off
/-- Header fields of the request (R52). -/
def State.mbxOpcode (s : State) : Nat := (s.mbxWord 0).toNat % 65536
def State.mbxLength (s : State) : Nat := (s.mbxWord 1).toNat % 65536
def State.mbxTag (s : State) : Nat := (s.mbxWord 1).toNat / 65536

/-- FLAGS.CONTINUED of the request: more payload follows in the next command with the same tag (R52). -/
def State.mbxContinued (s : State) : Bool := (s.mbxWord 0).getLsbD 17
/-- The opcode of the request that BUSY stands for. -/
def State.reqOpcode (s : State) : Nat := s.get (mbxReq 0) % 65536

/-- The slot that the firmware does not run from holds no valid image (R458). -/
def State.spoilSlot (s : State) : State :=
  (s.mgmt' fun m => if s.get Fd.MGMT_FW_STAT_SLOT = 0 then { m with slotB := {} } else { m with slotA := {} }).set
    Fd.MGMT_FW_STAT_VERIFIED 0

/-- The status codes of R54. -/
def stOK : Nat := 0
def stUNKNOWN_OPCODE : Nat := 1
def stBAD_LENGTH : Nat := 2
def stBAD_PARAM : Nat := 3
def stNOT_PERMITTED : Nat := 4
def stBUSY : Nat := 5
def stSIGNATURE_FAIL : Nat := 6
def stSTORAGE_FAIL : Nat := 7
def stABORTED : Nat := 8
def stRESTARTED : Nat := 9
def stTIMEOUT : Nat := 0xA

/-- The commands the chapters define (R391, R423, R424, R458, R465). -/
def mbxKnown (op : Nat) : Bool :=
  decide (0x0101 ≤ op ∧ op ≤ 0x0108) || decide (0x0201 ≤ op ∧ op ≤ 0x0205) || decide (0x0301 ≤ op ∧ op ≤ 0x0305)
    || op == 0x0501 || op == 0x0502 || decide (0x0601 ≤ op ∧ op ≤ 0x0604)

/-- The commands of the recovery service: LC_INFO, CERT_READ, and the loading of images (R400, R458). -/
def recoveryOp (op : Nat) : Bool := op == 0x0101 || op == 0x0107 || op == 0x0201 || op == 0x0202 || op == 0x0204

/-- The commands that SECU performs: lifecycle, debug, certificates, attestation, the tag area (R423, R424). -/
def secuOp (op : Nat) : Bool := op / 256 == 1 || op / 256 == 5

/-- The firmware can perform command `op` now: it is the request in progress and has no result yet (R53); one of SECU waits while SECU
restarts (R455). DEDUCED (log 25, 89). -/
def State.serves (op : Nat) (s : State) : Bool :=
  s.fwRuns && !(secuOp op && s.restarting 17) && (!s.mgmt.recovery || recoveryOp op) && (s.mgmt.orphan.isSome || s.mbxBusy && s.mgmt.reply.isNone) && s.mbxOpcode == op && decide (s.mbxLength ≤ 4096)

/-- The result of the command in progress; one of a discarded response goes nowhere (R316).  `past`: the command has reached the step
its chapter marks as not abortable (R55). DEDUCED (log 25). -/
def State.answerAs (past : Bool) (status : Nat) (payload : List Byte) (s : State) : State :=
  s.mgmt' fun m =>
    if m.orphan.isSome then { m with orphan := none }
    else { m with reply := some { status := status, payload := payload, past := past } }
/-- The result of a command that can still be aborted until it is published. -/
def State.answer (status : Nat) (payload : List Byte) (s : State) : State := s.answerAs false status payload

/-- The tag of the request that BUSY stands for. -/
def State.reqTag (s : State) : Nat := s.get (mbxReq 1) / 65536

/-- Set GO (R53): a GO while BUSY is ignored and sets OVERRUN. -/
def execMbxGo (s : State) : Res :=
  s.writeBy .host Fd.MBX_CTL_GO.off fun s =>
  if s.mbxBusy then ok (s.set Fd.MBX_STAT_OVERRUN 1)
  else
    let more := !s.mgmt.rest.isEmpty && s.get (Fd.MBX_RSP_WORD 1) / 65536 == s.reqTag
    ok ((s.set Fd.MBX_STAT_BUSY 1 |>.set Fd.MBX_CTL_GO 0).mgmt' fun m =>
      { m with reply := if more then some { status := stOK, payload := m.rest } else none
               rest := if more then m.rest else [] })

/-- Set ABORT (R55): the command ends with ABORTED, but one past the step that cannot be aborted completes with its own status
and DETAIL bit 15.  An aborted UPD_LOAD leaves its slot invalid (R458). -/
def execMbxAbort (s : State) : Res :=
  s.writeBy .host Fd.MBX_CTL_ABORT.off fun s =>
  let s1 := s.set Fd.MBX_CTL_ABORT 0
  if !s.mbxBusy then ok s1
  else
    let late := s.mgmt.reply.any Reply.past
    let s2 := s1.mgmt' fun m =>
      { m with reply := if late then m.reply.map fun r => { r with detail := r.detail ||| 0x8000 }
                        else some { status := stABORTED }
               load := if late then m.load else none }
    ok (s2.onlyIf (s.reqOpcode == 0x0201) State.spoilSlot)

/-- Bytes as little-endian words (R4). -/
def wordsOf : List Byte → List Word
  | [] => []
  | [a] => [BitVec.ofNat 32 a.toNat]
  | [a, b] => [BitVec.ofNat 32 (a.toNat + 256 * b.toNat)]
  | [a, b, c] => [BitVec.ofNat 32 (a.toNat + 256 * b.toNat + 65536 * c.toNat)]
  | a :: b :: c :: d :: l =>
    BitVec.ofNat 32 (a.toNat + 256 * b.toNat + 65536 * c.toNat + 16777216 * d.toNat) :: wordsOf l

/-- Write words from MBX_RSP word k on. -/
def State.putRsp (k : Nat) (l : List Word) (s : State) : State :=
  (l.foldl (fun (x : Nat × State) w => (x.1 + 1, x.2.set (Fd.MBX_RSP_WORD x.1) w.toNat)) (k, s)).2

/-- The result the firmware publishes: the command's own, or what R54 says of a request it cannot perform; the recovery service
permits few commands (R400); TIMEOUT where a step of the command has not ended within its limit. DEDUCED (log 25). -/
def State.mbxResult (s : State) : Option Reply :=
  match s.mgmt.reply with
  | some r => some r
  | none =>
    if s.mgmt.orphan.isSome then none
    else if 4096 < s.mbxLength then some { status := stBAD_LENGTH }
    else if s.mgmt.recovery && !recoveryOp s.mbxOpcode then some { status := stNOT_PERMITTED }
    else if !mbxKnown s.mbxOpcode then some { status := stUNKNOWN_OPCODE }
    else some { status := stTIMEOUT }

/-- The firmware publishes the response (R52, R53): header and payload into MBX_RSP, BUSY clears, DONE is set, the
mailbox interrupt is raised.  A payload above 4,096 bytes continues under the same tag. -/
def State.publish (r : Reply) (s : State) : State :=
  let part := r.payload.take 4096
  let rest := r.payload.drop 4096
  let flags := 1 + if rest.isEmpty then 0 else 2
  let hd := [BitVec.ofNat 32 (s.get (mbxReq 0) % 65536 + 65536 * flags), BitVec.ofNat 32 (part.length + 65536 * s.reqTag),
             BitVec.ofNat 32 (r.status + 65536 * r.detail), 0]
  ((s.putRsp 0 (hd ++ wordsOf part)).mgmt' fun m => { m with reply := none, rest := rest })
    |>.set Fd.MBX_STAT_BUSY 0 |>.set Fd.MBX_STAT_DONE 1 |>.irq 48

/-- The firmware publishes the result of the command in progress. -/
def execMbxResponse (s : State) : Res :=
  if s.mbxBusy && s.fwRuns then
    match s.mbxResult with
    | some r => ok (s.publish r)
    | none => ok s
  else ok s

end Sys2Proof.Machine
end

