-- ==== Sys2Proof/Machine/LaneTx.lean ====
section
/-!
DEFINITION. The downstream transmitters (R172 to R178, R187, R189, R201, R202, R206): the scrambler, control blocks, the CRC of a
message, the wake preamble, and what a lane drives.
-/
namespace Sys2Proof.Machine

/-! ## Lanes -/

/-- The record of lane l. -/
def State.lane (l : Nat) (s : State) : Lane := rd (fun _ => {}) s.lnk.lanes l
def State.lane' (l : Nat) (f : Lane → Lane) (s : State) : State :=
  s.lnk' fun x => { x with lanes := wr (fun _ => {}) x.lanes l (f (rd (fun _ => {}) x.lanes l)) }

/-- The lanes of tile t. -/
def tileLanes (t : Nat) : List Nat := [4 * t, 4 * t + 1, 4 * t + 2, 4 * t + 3]

/-- The lane is in a test mode: it carries no link traffic (R194). -/
def State.testMode (l : Nat) (s : State) : Bool :=
  s.get (Fd.LNK_LANE_CTL_LOOP l) != 0 || s.get (Fd.LNK_LANE_CTL_PRBS l) != 0

/-- The transmitter of lane l drives blocks: its rail good (R447), enabled, out of electrical idle, in no test mode. -/
def State.drives (l : Nat) (s : State) : Bool :=
  s.chip.railLane && s.is (Fd.LNK_LANE_CTL_TX_EN l) && !s.is (Fd.LNK_LANE_STAT_TX_IDLE l) && !s.testMode l

/-! ## Blocks -/

/-- The block time of a generation in ps (R172). -/
def blockPs (gen : Nat) : Nat := if gen = 3 then 2560 else if gen = 2 then 5280 else 10560

/-- The scrambler (R176): s[n] = d[n] ^ s[n − 39] ^ s[n − 58] over the 64 payload bits, and the new state, its newest bit highest. -/
def scramble (h : BitVec 58) (d : Wide) : Wide × BitVec 58 :=
  let lo : BitVec 39 := d.truncate 39 ^^^ (h >>> 19).truncate 39 ^^^ h.truncate 39
  let x : BitVec 97 := lo ++ h
  let hi : BitVec 25 := (d >>> 39).truncate 25 ^^^ (x >>> 58).truncate 25 ^^^ (x >>> 39).truncate 25
  let w : Wide := hi ++ lo
  (w, ((w ++ h : BitVec 122) >>> 64).truncate 58)

/-- Scramble the payloads of successive blocks. -/
def scrambleAll : BitVec 58 → List (Nat × Wide) → List (Nat × Wide) × BitVec 58
  | h, [] => ([], h)
  | h, b :: l =>
    let (w, h1) := scramble h b.2
    let (r, h2) := scrambleAll h1 l
    ((b.1, w) :: r, h2)

/-- The payload of an IDLE and of a SLEEP_ANN block, and of WAKE_END for a generation (R177). -/
def idlePayload : Wide := 0x1E
def sleepAnnPayload : Wide := 0x2D
def wakeEndPayload (gen : Nat) : Wide := BitVec.ofNat 64 (0x33 + gen * 256)

/-- The scrambler after n IDLE blocks (R178). -/
def idleRun : Nat → BitVec 58 → BitVec 58
  | 0, h => h
  | n + 1, h => idleRun n (scramble h idlePayload).2

/-- What a lane drives for a block: TX_POL inverts it. -/
def State.onWire (l : Nat) (b : Nat × Wide) (s : State) : Nat × Wide :=
  if s.is (Fd.LNK_LANE_CTL_TX_POL l) then (3 - b.1, ~~~b.2) else b

/-- The blocks that have left since the last ones sent are IDLE, and the scrambler's state after them is R176's (R178); how many they
were is open. DESIGN CHOICE (log 91). -/
def State.fillIdle (l : Nat) (s : State) : State :=
  if (s.lane l).txAt = some s.tick then s
  else
    let (a, s1) := s.drawWord
    let (b, s2) := s1.drawWord
    (s2.emit (.idleFill l)).lane' l fun x => { x with scr := idleRun (a ++ b : BitVec 64).toNat x.scr, txAt := some s.tick }

/-- Lane l sends blocks, a header and a payload each (R175, R176). -/
def State.txBlocks (l : Nat) (blocks : List (Nat × Wide)) (s : State) : State :=
  if !s.drives l || blocks.isEmpty then s
  else
    let s1 := s.fillIdle l
    let (line, h) := scrambleAll (s1.lane l).scr blocks
    (s1.emit (.txBlocks l (line.map fun b => s.onWire l b))).lane' l fun x => { x with scr := h }

/-- The groups of a preamble's clock pattern, and its IDLE blocks (R189): the smallest whole numbers that last 1 µs, at an enable 100 µs,
and, counted from the start of a wake, 4 µs. DESIGN CHOICE (log 91). -/
def preambleGroups (gen : Nat) (enable : Bool) : Nat :=
  ((if enable then 100000000 else 1000000) + blockPs gen - 1) / blockPs gen
def preambleIdle (gen : Nat) : Nat := (4000000 + blockPs gen - 1) / blockPs gen - preambleGroups gen false

/-- The wake preamble of lane l (R189): the clock pattern leaves the scrambler alone, the IDLE blocks and WAKE_END pass through it. -/
def State.preamble (l : Nat) (enable : Bool) (s : State) : State :=
  if !s.drives l then s
  else
    let g := s.get (Fd.LNK_LANE_STAT_GEN l)
    let (w, h) := scramble (idleRun (preambleIdle g) (s.lane l).scr) (wakeEndPayload g)
    (s.emit (.preamble l (preambleGroups g enable) (preambleIdle g) (s.onWire l (2, w)).2)).lane' l fun x =>
      { x with scr := h, txAt := some s.tick, enable := false }

/-- The next 66 UI of a PRBS generator, x⁹ + x⁵ + 1 or x³¹ + x²⁸ + 1, and its state after them (R194). -/
def prbsRun (mode : Nat) (h : BitVec 31) : BitVec 31 × BitVec 66 :=
  (List.range 66).foldl (fun x i =>
    let b := if mode = 1 then x.1.getLsbD 26 ^^ x.1.getLsbD 22 else x.1.getLsbD 3 ^^ x.1.getLsbD 0
    ((x.1 >>> 1) ||| (if b then 1 <<< 30 else 0), x.2 ||| (if b then 1 <<< i else 0))) (h, 0)

/-- The next block of a looped transmitter, a header and a payload: its PRBS, or IDLE, for it carries no link traffic (R178, R194). -/
def State.loopedBlock (l : Nat) (s : State) : (Nat × Wide) × State :=
  let mode := s.get (Fd.LNK_LANE_CTL_PRBS l)
  if mode = 0 then
    let (w, h) := scramble (s.lane l).scr idlePayload
    (s.onWire l (2, w), s.lane' l fun x => { x with scr := h })
  else
    let (g, w) := prbsRun mode (s.lane l).gen
    (s.onWire l (w.toNat % 4, (w >>> 2).truncate 64), s.lane' l fun x => { x with gen := g })

/-! ## Messages (R206) -/

/-- One bit-step and one byte-step of the CRC-16 with polynomial x^16 + x^12 + x^5 + 1 (R206). -/
def crc16Bit (c : BitVec 16) : BitVec 16 := if c.getLsbD 15 then (c <<< 1) ^^^ 0x1021 else c <<< 1
def crc16Byte (c : BitVec 16) (b : Nat) : BitVec 16 :=
  let x := c ^^^ BitVec.ofNat 16 (b % 256 * 256)
  crc16Bit (crc16Bit (crc16Bit (crc16Bit (crc16Bit (crc16Bit (crc16Bit (crc16Bit x)))))))

/-- The bytes of a block's payload. -/
def payloadBytes (w : Wide) : List Nat := (List.range 8).map fun k => w.toNat / 256 ^ k % 256

/-- The CRC of a message over header bytes 1 to 5 and every payload byte (R206). -/
def messageCrc (mtype nblk mseq hdata : Nat) (payload : List Wide) : BitVec 16 :=
  ([mtype, nblk, mseq, hdata % 256, hdata / 256] ++ payload.flatMap payloadBytes).foldl crc16Byte 0xFFFF

/-- The blocks of a message: its MSG block, then its payload (R206). -/
def messageBlocks (mtype mseq hdata : Nat) (payload : List Wide) : List (Nat × Wide) :=
  let crc := messageCrc mtype payload.length mseq hdata payload
  (2, BitVec.ofNat 64 (0x78 + mtype % 256 * 2 ^ 8 + payload.length * 2 ^ 16 + mseq % 256 * 2 ^ 24 + hdata % 2 ^ 16 * 2 ^ 32
    + crc.toNat * 2 ^ 48)) :: payload.map fun w => (1, w)

/-- The payload of an alignment marker (R202). -/
def markerPayload (bidx active amseq : Nat) : Wide :=
  BitVec.ofNat 64 (0x4B + bidx % 4 * 2 ^ 8 + active % 16 * 2 ^ 16 + amseq % 256 * 2 ^ 24)

/-- The payload of an EPOCH block (R205). -/
def epochPayload (beacon : Nat) : Wide := BitVec.ofNat 64 (0x93 + beacon % 256 * 256)

end Sys2Proof.Machine
end

