-- ==== Sys2Proof/Machine/TileMsg.lean ====
section
/-!
DEFINITION. Messages to the tiles (R206, R209, R210, R218): the message itself, tile ticks, and the messages of an
admitted line, train and zoom.
-/
namespace Sys2Proof.Machine

/-- The record of tile t's port. -/
def State.port (t : Nat) (s : State) : TilePort := rd (fun _ => {}) s.lnk.ports t
def State.port' (t : Nat) (f : TilePort → TilePort) (s : State) : State :=
  s.lnk' fun l => { l with ports := wr (fun _ => {}) l.ports t (f (rd (fun _ => {}) l.ports t)) }

/-- The states of a tile port (R198). -/
def ptOFF : Nat := 0
def ptLANES : Nat := 1
def ptBOND : Nat := 2
def ptCAPS : Nat := 3
def ptGEN : Nat := 4
def ptPHASE : Nat := 5
def ptRUN : Nat := 6
def ptFAILED : Nat := 7

def State.portState (t : Nat) (s : State) : Nat := s.get (Fd.LNK_TILE_STAT_STATE t)
def State.portRun (t : Nat) (s : State) : Bool := s.portState t == ptRUN

/-! ## The clock lane (R174, R204) -/

/-- The clock lane: the lowest-numbered lane of the tile whose downstream transmitter is enabled, and which may have the role. DEDUCED (log 43). -/
def State.clockLane (t : Nat) (s : State) : Option Nat :=
  (tileLanes t).find? fun l =>
    s.is (Fd.LNK_LANE_CTL_TX_EN l) && !(s.port t).clkOut.testBit (l % 4) && !(s.port t).dnOut.testBit (l % 4)

/-! ## The downstream bond (R201 to R204) -/

/-- The lanes of tile t that carry the downstream stream of the period, in ascending BIDX (R201). -/
def State.streamLanes (t : Nat) (s : State) : List Nat :=
  (tileLanes t).filter fun l => (s.get (Fd.LNK_TILE_STAT_DN_ACTIVE t)).testBit (l % 4)

/-- Blocks that have passed on a lane in a time given in ticks. -/
def State.blocksIn (t : Nat) (d : Wide) (s : State) : Nat := d.toNat * 15625 / (2000 * blockPs (s.get (Fd.LNK_TILE_STAT_GEN t)))

/-- The next stream block of the period that has not left (R201): block times have passed on every lane since its AM. -/
def State.streamPos (t : Nat) (s : State) : Nat :=
  let p := s.port t
  match p.dnAt with
  | some x => max p.dnPos ((s.streamLanes t).length * s.blocksIn t (s.tick - x))
  | none => p.dnPos

/-- The stream blocks that the period still takes (R201). -/
def State.streamLeft (t : Nat) (s : State) : Nat := (s.streamLanes t).length * 16383 - s.streamPos t

/-- Blocks enter the period of tile t (R201): block k goes to the (k mod N)-th lane of ACTIVE. -/
def State.txPeriod (t : Nat) (blocks : List (Nat × Wide)) (s : State) : State :=
  let lanes := s.streamLanes t
  let n := lanes.length
  if n = 0 then s
  else
    let k := s.streamPos t
    let placed := blocks.mapIdx fun i b => ((k + i) % n, b)
    let s1 := (lanes.mapIdx fun i l => (i, l)).foldl (fun s x =>
      s.txBlocks x.2 ((placed.filter fun y => y.1 = x.1).map Prod.snd)) s
    s1.port' t fun p => { p with dnPos := k + blocks.length }

/-- The lanes of a downstream bond that are awake, as a mask. -/
def State.awakeMask (t : Nat) (s : State) : Nat := ((tileLanes t).filter s.drives).foldl (fun m l => m + 2 ^ (l % 4)) 0

/-- ACTIVE of the next AM (R203, R204): the clock lane always, and the lanes awake since the last AM that the tile does not exclude and that
have not lost the clock role. -/
def State.nextActive (t : Nat) (s : State) : Nat :=
  let p := s.port t
  let clock := match s.clockLane t with
    | some l => 2 ^ (l % 4)
    | none => 0
  (s.awakeMask t &&& p.dnAwake &&& (0xF ^^^ p.dnExcl) &&& (0xF ^^^ p.dnOut)) ||| (clock &&& s.awakeMask t)

/-- An AM goes out on each awake lane of a tile's downstream bond, and a period begins (R201, R202). -/
def State.sendMarker (t : Nat) (s : State) : State :=
  let p := s.port t
  let active := s.nextActive t
  let s1 := s.each ((tileLanes t).filter s.drives) fun l s => s.txBlocks l [(2, markerPayload l active p.dnSeq)]
  (s1.set (Fd.LNK_TILE_STAT_DN_ACTIVE t) active |>.emit (.alignMarker t active p.dnSeq)).port' t fun p =>
    { p with dnAwake := s.awakeMask t, dnSeq := (p.dnSeq + 1) % 256, dnAt := some s.tick, dnPos := 0 }

/-- Blocks enter the stream of tile t; those that the period takes no more follow the next AM (R201, R206). -/
def State.txStream (t : Nat) (blocks : List (Nat × Wide)) (s : State) : State :=
  let n := s.streamLeft t
  if blocks.length ≤ n || (s.streamLanes t).isEmpty then s.txPeriod t blocks
  else ((s.txPeriod t (blocks.take n)).sendMarker t).txPeriod t (blocks.drop n)

/-- A block of the stream that must go on one lane takes the next slot of that lane (R201). -/
def State.txSlotOn (t l : Nat) (b : Nat × Wide) (s0 : State) : State :=
  let s := if s0.streamLeft t < 4 then s0.sendMarker t else s0
  let lanes := s.streamLanes t
  let n := lanes.length
  match lanes.findIdx? (· == l) with
  | none => s.txBlocks l [b]
  | some i =>
    let k := s.streamPos t
    (s.txBlocks l [b]).port' t fun p => { p with dnPos := k + (i + n - k % n) % n + 1 }

/-- Send one message to tile t, numbered by MSEQ, on the stream of its bond (R201, R206). -/
def State.sendTile (t mtype hdata : Nat) (payload : List Wide) (s : State) : State :=
  ((s.txStream t (messageBlocks mtype (s.port t).txSeq hdata payload)).emit
    (.tileMsg t mtype hdata (s.port t).txSeq payload)).port' t fun p => { p with txSeq := (p.txSeq + 1) % 256 }

/-- The OFS that applies to a downstream time at device tick x (R218), in 1/16 tick: the newest adopted for a line at or before it. -/
def State.ofsFor (t : Nat) (x : Wide) (s : State) : Wide :=
  (s.port t).ofsNext.foldl (fun v e => match e.2 with
    | some l => if before x l then v else e.1
    | none => v) (s.wideOf (4 + t / 8) (0x0200 + t % 8))

/-- The tile tick of device tick x, 48 bits, rounded to the nearest tick, an exact half towards the later one (R209,
R212). -/
def tileTick (x ofs : Wide) : Wide := BitVec.ofInt 64 ((16 * (x.toNat : Int) - ofs.toInt + 8) / 16 % 2 ^ 48)

/-- The tile tick of device tick x for tile t. -/
def State.tileTime (t : Nat) (x : Wide) (s : State) : Wide := tileTick x (s.ofsFor t x)

/-- The tiles whose ports are in RUN. -/
def State.runTiles (s : State) : List Nat := (List.range 32).filter fun t => s.portRun t

/-- LINE_SELECT to every tile in RUN (R209): ROW from LNK_ROWMAP, the tile tick of L; the line keeps each tile's count of them, which
its AMBIENT will name (R208). DEDUCED (log 43). -/
def State.lineSelect (l : LineRec) (s : State) : State :=
  s.runTiles.foldl (fun s t =>
    let n := (s.port t).selects + 1
    ((s.sendTile t 0x81 (s.getAt l.start (Fd.LNK_ROWMAP_ROW (t / 8) l.desc)) [s.tileTime t l.start]).port' t
      fun p => { p with selects := n }).scan' fun c =>
        { c with lines := c.lines.map fun k => if k.seq = l.seq then { k with selects := ins k.selects t n } else k }) s

/-- Two 32-bit intervals to a block, with 0 filling the last (R209). -/
def pairUp : List Nat → List Wide
  | [] => []
  | [a] => [BitVec.ofNat 64 (a % 2 ^ 32)]
  | a :: b :: l => BitVec.ofNat 64 (a % 2 ^ 32 + (b % 2 ^ 32) * 2 ^ 32) :: pairUp l

/-- The differences between consecutive ticks. -/
def gaps : List Wide → List Nat
  | a :: b :: l => (b - a).toNat :: gaps (b :: l)
  | _ => []

/-- A listening window's start and length in ticks (R95). -/
def Window.startTicks (w : Window) : Nat := w.wstart * 128
def Window.lenTicks (w : Window) : Nat := (w.nbin + 1) * 256 * 2 ^ w.kbin

/-- The listening window of a sector of a line: WINDOW's, or the descriptor's as in force at L (R95, R127). -/
def State.windowOf (l : LineRec) (sector : Nat) (s : State) : Window :=
  match look l.win sector with
  | some w => w
  | none =>
    if l.started then
      { wstart := bitsOf l.d1 31 16, kbin := bitsOf l.d1 11 8, nbin := bitsOf l.d1 15 12 }
    else
      { wstart := s.getAt l.start (Fd.SCAN_LD1_WSTART l.desc), kbin := s.getAt l.start (Fd.SCAN_LD1_KBIN l.desc)
        nbin := s.getAt l.start (Fd.SCAN_LD1_NBIN l.desc) }

/-- TRAIN with the admitted shots of one action, to every tile in RUN; an action with no admitted shot gives none
(R209, R11). -/
def State.trainMsg (l : LineRec) (fires : List Wide) (s : State) : State :=
  match fires with
  | [] => s
  | f0 :: _ =>
    s.runTiles.foldl (fun s t =>
      let w := s.windowOf l t
      s.sendTile t 0x82 (fires.length % 128)
        ([s.tileTime t f0, BitVec.ofNat 64 (w.startTicks % 2 ^ 32 + (w.lenTicks % 2 ^ 32) * 2 ^ 32)] ++ pairUp (gaps fires))) s

/-- The channels of a tile that a zoom run covers, as a mask (R128, R209). -/
def zoomMask (z : Zoom) (t : Nat) : Nat :=
  (List.range 32).foldl (fun m c =>
    if z.first ≤ 32 * t + c ∧ 32 * t + c < z.first + z.count then m + 2 ^ c else m) 0

/-- ZOOM_GATE to each KL3 tile in RUN with ZOOM_EN as in force at the line (R15) whose channels the zoom arms (R200, R209). -/
def State.zoomGate (l : LineRec) (z : Zoom) (s : State) : State :=
  s.runTiles.foldl (fun s t =>
    let m := zoomMask z t
    if m ≠ 0 && s.get (Fd.LNK_TILE_STAT_GEN t) == 3 && s.getAt l.start (Fd.LNK_TILE_CTL_ZOOM_EN t) == 1 then
      s.sendTile t 0x84 z.slot
        [s.tileTime t l.start, BitVec.ofNat 64 (m + (z.start % 2 ^ 21) * 2 ^ 32 + z.k * 2 ^ 53 + 2 ^ 55)]
    else s) s

/-- The 16 × 4-bit depth words of a tile's channels, from LNK_TILE_DEPTH (R209, R215). -/
def State.depthBlocks (t : Nat) (s : State) : List Wide :=
  [0, 2].map fun q => BitVec.ofNat 64 (s.get (Fd.LNK_TILE_DEPTH_DEPTH t q) + s.get (Fd.LNK_TILE_DEPTH_DEPTH t (q + 1)) * 2 ^ 32)

/-- AMBIENT_SET with the depths of a tile, from a device tick on (R209, R215). -/
def State.ambientSet (t : Nat) (x : Wide) (s : State) : State := s.sendTile t 0x83 0 (s.tileTime t x :: s.depthBlocks t)

/-- The first admitted line that is still at least 1 µs ahead (R215, R218). -/
def State.nextLine (s : State) : Option LineRec :=
  s.scan.lines.find? fun l => !l.started && decide ((128000 : Int) ≤ ahead s.tick l.start)

/-- Changed depths go out as soon as a line names their tick (R215). -/
def State.ambientDue (t : Nat) (s : State) : State :=
  match (s.port t).ambDue, s.nextLine with
  | true, some l => (s.ambientSet t l.start).port' t fun p => { p with ambDue := false }
  | _, _ => s

end Sys2Proof.Machine
end

