-- ==== Sys2Proof/Machine/Ledger.lean ====
section
/-!
DEFINITION. The exposure ledger's arithmetic (R162 to R169): charges, window sums, admission, allowance.
-/
namespace Sys2Proof.Machine

def winBsh (w : Nat) : Field :=
  if w = 0 then Fd.SCAN_LEDG_WIN0_BSH else if w = 1 then Fd.SCAN_LEDG_WIN1_BSH else Fd.SCAN_LEDG_WIN2_BSH

/-- The bucket of a tick in a window of 2^bsh ticks (R163). -/
def bucket (bsh : Nat) (t : Int) : Int := t / 2 ^ bsh

/-- A_w: the total of group g in window w recorded in the buckets from 64 before that of t on, later ones too (R164). -/
def State.ledgerTotal (w g : Nat) (t : Int) (s : State) : Nat :=
  let bsh := s.get (winBsh w)
  s.scan.charges.foldl (fun n c =>
    if c.win = w ∧ c.grp = g ∧ bucket bsh t - 64 ≤ bucket bsh c.at_ then n + c.cu else n) 0

/-- S_w(g, t): the window sum, buckets b(t) − 64 to b(t) (R163). DEDUCED (log 38). -/
def State.windowSum (w g : Nat) (t : Int) (s : State) : Nat :=
  let bsh := s.get (winBsh w)
  s.scan.charges.foldl (fun n c =>
    if c.win = w ∧ c.grp = g ∧ bucket bsh t - 64 ≤ bucket bsh c.at_ ∧ bucket bsh c.at_ ≤ bucket bsh t then n + c.cu
    else n) 0

/-- LIM_w(g) for a shot at F: the smaller of the limit in force and the one a FIXED commit brings by F (R164). -/
def State.limitAt (w g : Nat) (t : Wide) (s : State) : Nat :=
  min (s.get (Fd.SCAN_LEDG_LIM_LIM w g)) (s.getAt t (Fd.SCAN_LEDG_LIM_LIM w g))

/-- The ledger admits a charge C of group g at tick F: every window has a limit and room (R164). -/
def State.ledgerAdmits (g : Nat) (t : Wide) (c : Nat) (s : State) : Bool :=
  [0, 1, 2].all fun w =>
    s.limitAt w g t != 0 && decide (s.ledgerTotal w g t.toNat + c ≤ s.limitAt w g t * 1024)

/-- The modules that fire at tick F on a descriptor: MODMASK and EMIT_MOD_EN as in force at F (R138). -/
def State.modulesAt (t : Wide) (desc : Nat) (s : State) : List Nat :=
  let m := s.getAt t (Fd.SCAN_LD0_MODMASK desc) &&& s.getAt t Fd.EMIT_MOD_EN_EN
  (List.range 16).filter fun i => m.testBit i

/-- The charge of one module for a shot of group g at F; doubled while its slow path is marked unsettled (R162). -/
def State.moduleCharge (t : Wide) (g m : Nat) (s : State) : Nat :=
  let c := s.getAt t (Fd.SCAN_LEDG_ECHG_CU m g)
  if s.is (Fd.MONI_IN_LAST_UNSET m) then 2 * c else c

/-- SCAN_LEDG_REMAIN of a group shows the allowance that is left, saturating (R169). -/
def State.showRemain (g : Nat) (s : State) : State :=
  [0, 1, 2].foldl (fun s w =>
    s.set (Fd.SCAN_LEDG_REMAIN_CU w g)
      (min (s.get (Fd.SCAN_LEDG_LIM_LIM w g) * 1024 - s.ledgerTotal w g s.tick.toNat) (2 ^ 32 - 1))) s

/-- Record a charge of group g at a tick in every window (R162, R165). -/
def Scan.charge (g : Nat) (t : Int) (cu : Nat) (c : Scan) : Scan :=
  { c with charges := c.charges ++ ([0, 1, 2].map fun w => { win := w, grp := g, at_ := t, cu := cu }) }

/-- Charge an admitted shot: the group in every window, and each module for the true-up (R162, R165). -/
def State.chargeShot (l : LineRec) (idx g : Nat) (t : Wide) (s : State) : State :=
  let mods := (s.modulesAt t l.desc).map fun m => (m, s.moduleCharge t g m)
  let total := (mods.map Prod.snd).foldl (· + ·) 0
  (s.scan' fun c =>
    let c1 := c.charge g t.toNat total
    { c1 with
      modCharges := c1.modCharges ++ (mods.map fun x =>
        { mod_ := x.1, grp := g, line := l.seq, index := idx, at_ := 4 * t.toNat, cu := x.2 }) }).showRemain g

/-- The charge a shot of group g at F would make (R162). -/
def State.shotCharge (desc g : Nat) (t : Wide) (s : State) : Nat :=
  ((s.modulesAt t desc).map fun m => s.moduleCharge t g m).foldl (· + ·) 0

/-- A charge still lies in its window, or in a later one. -/
def State.liveCharge (s : State) (c : Charge) : Bool :=
  decide (bucket (s.get (winBsh c.win)) s.tick.toNat - 64 ≤ bucket (s.get (winBsh c.win)) c.at_)

/-- Charges that have left their window are dropped; no sum of the present or a later tick holds them. DEDUCED (log 38). -/
def State.pruneCharges (s : State) : State :=
  s.scan' fun x => { x with charges := x.charges.filter s.liveCharge }

end Sys2Proof.Machine
end

