-- ==== Sys2Proof/Machine/Arbiter.lean ====
section
/-!
DEFINITION. The shot arbiter (R86 to R94, R103, R122 to R129): room, checks, ledger, admission, the answer to the easel.
-/
namespace Sys2Proof.Machine

/-- The lead of a timed action, 2 µs (R86). -/
def actionLead : Nat := 256000

/-! ## Lines -/

/-- The admitted line of a sequence. -/
def State.lineOf (q : Word) (s : State) : Option LineRec := s.scan.lines.find? fun l => l.seq = q

/-- START_TICK of the line's records, in the count it was admitted in (R71). -/
def LineRec.label (l : LineRec) : Wide := l.start + l.shift
/-- The end L + D of a line. -/
def LineRec.finish (l : LineRec) : Wide := l.start + BitVec.ofNat 64 l.dwell

/-- The easel's current line: the one last admitted, until its end (R90). -/
def State.curLine (e : Nat) (s : State) : Option LineRec :=
  match (s.easel e).cur with
  | none => none
  | some q => match s.lineOf q with
    | some l => if before s.tick l.finish && !l.ended then some l else none
    | none => none

/-- A line only listens: LMODE, or the descriptor's LISTEN as in force at L (R123, R124). -/
def State.lineListens (l : LineRec) (s : State) : Bool :=
  match l.lmode with
  | 0 => if l.started then bitsOf l.d2 24 24 == 1 else s.getAt l.start (Fd.SCAN_LD2_LISTEN l.desc) == 1
  | 2 => true
  | _ => false

/-- The latest end of the sectors' windows after F, in ticks (R95, R124). -/
def State.windowEnd (l : LineRec) (s : State) : Nat :=
  (List.range 32).foldl (fun n c => max n ((s.windowOf l c).startTicks + (s.windowOf l c).lenTicks)) 0

/-! ## The checks of R89 -/

/-- Check 1: the tick is less than 2 µs ahead. -/
def State.isLate (t : Wide) (s : State) : Bool := decide (ahead s.tick t < actionLead)
/-- Check 2: the tick is earlier than the easel's previous admitted action. -/
def State.isOutOfOrder (e : Nat) (t : Wide) (s : State) : Bool :=
  match (s.easel e).prev with
  | some p => before t p
  | none => false
/-- Check 3: a line's tick is earlier than the end of the last admitted line. -/
def State.isLineBusy (t : Wide) (s : State) : Bool :=
  match s.scan.lastEnd with
  | some p => before t p
  | none => false
/-- Check 5: a shot before the end of blanking, or its window ends after L + D. -/
def State.isOutside (l : LineRec) (f : Wide) (s : State) : Bool :=
  let blank := if l.started then bitsOf l.d1 7 0 else s.getAt l.start (Fd.SCAN_LD1_BLANK l.desc)
  before f (l.start + BitVec.ofNat 64 (1280 * blank)) || before l.finish (f + BitVec.ofNat 64 (s.windowEnd l))
/-- Check 6: less than 200 ns after the previous shot on the line. -/
def tooClose (prev : Option Wide) (f : Wide) : Bool :=
  match prev with
  | some p => decide (ahead p f < 25600)
  | none => false

/-- Check 6 over the shots of a train. -/
def anyTooClose : Option Wide → List Wide → Bool
  | _, [] => false
  | p, f :: l => tooClose p f || anyTooClose (some f) l

/-- The sub-cause of the first check that a set of shots fails (R89). -/
def State.shotSub (e : Nat) (fires : List Wide) (s : State) : Option Nat :=
  if fires.any fun f => s.isLate f then some 0
  else if fires.any fun f => s.isOutOfOrder e f then some 1
  else match s.curLine e with
    | none => some 3
    | some l =>
      if fires.any fun f => s.isOutside l f then some 4
      else if anyTooClose (l.shots.getLast?.map ShotRec.fire) fires then some 5
      else none

/-- The sub-cause of an action with a tick that is neither line nor shot. -/
def State.actSub (e : Nat) (t : Wide) (s : State) : Option Nat :=
  if s.isLate t then some 0 else if s.isOutOfOrder e t then some 1
  else if (s.curLine e).isNone then some 3 else none

/-- The sub-cause of WINDOW, ZOOM and STACK: with no current line NO_LINE at once (R89). -/
def State.settingSub (e : Nat) (s : State) : Option Nat :=
  match s.curLine e with
  | none => some 3
  | some l => if s.isLate l.start then some 0 else if s.isOutOfOrder e l.start then some 1 else none

/-! ## Queues -/

/-- The queue fills as SCAN_ARB_STAT shows them. -/
def State.showQueues (s : State) : State :=
  s.set Fd.SCAN_ARB_STAT_SQ_FILL s.scan.shotQ.length |>.set Fd.SCAN_ARB_STAT_AQ_FILL s.scan.actQ.length

/-- Enter a shot in order of fire tick; a later entry of the same tick goes behind (R10). -/
def insertShot (h : Shot) : List Shot → List Shot
  | [] => [h]
  | x :: l => if before h.fire x.fire then h :: x :: l else x :: insertShot h l

/-- Enter an action in order of tick. -/
def insertAct (a : Action) : List Action → List Action
  | [] => [a]
  | x :: l => if before a.tick x.tick then a :: x :: l else x :: insertAct a l

def State.queueAct (a : Action) (s : State) : State :=
  (s.scan' fun c => { c with actQ := insertAct a c.actQ }).showQueues

/-- An action of the easel has been admitted at a tick: check 2 measures from it, and the watchdog restarts (R89,
R106). -/
def State.admitted (e : Nat) (t : Wide) (s : State) : State :=
  (s.easel' e fun z => { z with prev := some t }).wdogRestart e

/-! ## The answer (R122) -/

/-- Write ASTAT and P[PD], and ASTAT to Gd where the action writes it. -/
def State.report (e : Nat) (p : Port) (w : Word) (toGd ok' : Bool) (s : State) : State :=
  let s1 := s.easel' e fun z => { z with astat := w }
  ((s1.setP e p.pd ok')).onlyIf toGd (State.setG e p.gd w)

/-- The instruction completes and raises a cause, or, masked, only counts it (R103). -/
def State.completeWith (e cause sub : Nat) (detail : Word) (s : State) : State :=
  let at_ := s.pc e
  if s.enabled e cause then
    ((s.easel' e fun z => { z with wait := .none, port := none }).set (Fd.SCAN_EASEL_STAT_STATE e) 1
      |>.raise e cause sub detail at_ ((at_ + 1) % 4096)).settle e
  else (s.count 2 Src.SCAN_EXC_MASKED e 1).complete e

/-- Refused with a sub-cause of LATE_SHOT (R89, R122): nothing is queued. -/
def State.refuse (e sub : Nat) (p : Port) (toGd : Bool) (code : Nat) (detail : Word) (s : State) : State :=
  ((s.count 2 (Src.SCAN_REF_LATE + sub) e 1).report e p (astatWord 2 sub 0 0 code) toGd false).completeWith
    e causeLATE_SHOT sub detail

/-- Admitted without denials. -/
def State.grant (e : Nat) (p : Port) (w : Word) (toGd : Bool) (s : State) : State := (s.report e p w toGd true).complete e

def low32 (t : Wide) : Word := BitVec.ofNat 32 t.toNat

/-! ## Admission -/

/-- A LINE is admitted (R90, R91): it takes the line sequence, becomes the easel's current line, may fix a waiting
commit (R46), and goes out to the tiles (R209); pending tile offsets take this line's tick (R218). DEDUCED (log 36). -/
def State.admitLine (e desc : Nat) (t : Wide) (d : Nat) (frame : Bool) (lmode : Nat) (s : State) : State × Word :=
  let seq := BitVec.ofNat 32 (s.get Fd.SCAN_LINE_SEQ_SEQ)
  let s1 := s.bump Fd.SCAN_LINE_SEQ_SEQ 1 |>.onlyIf frame (State.bump Fd.SCAN_FRAME_SEQ_SEQ 1)
  let l : LineRec :=
    { seq := seq, frame := BitVec.ofNat 32 (s1.get Fd.SCAN_FRAME_SEQ_SEQ), era := s.io.era, easel := e, desc := desc
      start := t, dwell := d, isFrame := frame, lmode := lmode }
  let s2 := (s1.scan' fun c => { c with lines := c.lines ++ [l], lastEnd := some l.finish }).queueAct
    { tick := t, easel := e, line := seq, act := .line }
  let s3 := ((s2.easel' e fun z => { z with cur := some seq }).admitted e t).count 2 Src.SCAN_LINES e 1
  let s4 := (List.range 32).foldl (fun s i =>
    if (s.port i).ofsNext.any (fun e => e.2.isNone) && decide ((128000 : Int) ≤ ahead s.tick t) then
      s.port' i fun p => { p with ofsNext := p.ofsNext.map fun e => (e.1, some (e.2.getD t)) } else s) s3
  (((s4.commitFixedBy l).lineSelect l).each s4.runTiles State.ambientDue, seq)

/-- The arbiter takes a LINE (R89, R123). DEDUCED (log 36). -/
def State.takeLine (e : Nat) (p : Port) (desc : Nat) (t : Wide) (d : Nat) (frame : Bool) (lmode : Nat) (s : State) :
    State :=
  if s.isLate t then s.refuse e 0 p false 0 (low32 t)
  else if s.isOutOfOrder e t then s.refuse e 1 p false 0 (low32 t)
  else if s.isLineBusy t then s.refuse e 2 p false 0 (low32 t)
  else
    let (s1, seq) := s.admitLine e desc t d frame lmode
    (s1.setG e p.gd seq).grant e p (astatWord 0 0 0 0 0) false

/-- The values a train takes as in force at F0 (R97, R124): its length S and its code index. DEDUCED (log 37). -/
def State.trainCode (e : Nat) (l : LineRec) (t : Wide) (len : Nat) (key deflt : Bool) (code : Nat) (s : State) :
    Nat × Nat :=
  let n := if deflt then s.getAt t (Fd.SCAN_LD2_SM1 l.desc) + 1 else len
  let c := if key then
      Config.keyedDraw l.seq.toNat e (s.get (Fd.SCAN_EASEL_STAT_HOP e)) % s.getAt t Fd.SCAN_CODE_CTL_NDRAW
    else if deflt then s.getAt t (Fd.SCAN_LD2_CODE l.desc) else code
  (n, c)

/-- The fire ticks of a train: F0 plus the sum of intervals 1 to j (R96). -/
def State.trainFires (t : Wide) (c n : Nat) (s : State) : List Wide :=
  (List.range n).map fun j =>
    t + BitVec.ofNat 64 (((List.range j).map fun i => s.getAt t (Fd.SCAN_CODE_IVAL_IVAL c i)).foldl (· + ·) 0)

/-- One shot of an action goes to the ledger (R93, R164): an admitted shot is charged and enters the shot queue; a
listen-only shot enters without charge; a denied one is omitted.  `f0` is the tick at which the action takes its descriptor (R124).
The count is of admitted and denied shots. -/
def State.takeShot (e : Nat) (q : Word) (g : Nat) (listen : Bool) (f0 : Wide) (x : State × List Wide × Nat) (f : Wide) :
    State × List Wide × Nat :=
  let (s, fires, denied) := x
  match s.lineOf q with
  | none => x
  | some l =>
    if listen || s.ledgerAdmits g f (s.shotCharge l.desc g f) then
      let idx := l.shots.length
      let s1 := s.scan' fun c =>
        let c1 := c.onLine q fun l => { l with shots := l.shots ++ [{ fire := f, listen := listen }] }
        { c1 with
          shotQ := insertShot { fire := f, line := q, index := idx, easel := e, listen := listen, desc0 := f0 } c.shotQ }
      let s2 := (if listen then s1 else s1.chargeShot l idx g f).count 2 Src.SCAN_SHOTS e 1
      (s2, fires ++ [f], denied)
    else (s.count 2 Src.SCAN_LEDG_DENY g 1, fires, denied + 1)

/-- The shots of an action that has passed the checks (R93, R122): each goes to the ledger in tick order; the tiles get
one TRAIN; with a denial the action completes with LEDGER. -/
def State.admitShots (e : Nat) (p : Port) (l : LineRec) (listen : Bool) (fires : List Wide) (code : Nat) (s : State) :
    State :=
  let g := match fires with
    | f0 :: _ => s.getAt f0 (Fd.SCAN_LD3_LGRP l.desc)
    | [] => 0
  let (s1, got, denied) := fires.foldl (State.takeShot e l.seq g listen (fires.headD 0)) (s, [], 0)
  let s2 := (s1.scan' fun c => c.onLine l.seq fun x => { x with denied := x.denied + denied }).showQueues
  let s3 := match got.getLast? with
    | some f => s2.admitted e f
    | none => s2
  let w := astatWord (if denied = 0 then 0 else 3) 0 denied got.length code
  let s4 := (s3.trainMsg l got).report e p w true (denied == 0)
  if denied = 0 then s4.complete e
  else s4.completeWith e causeLEDGER 0 (BitVec.ofNat 32 (denied + 256 * g))

/-- The arbiter takes a SHOT (R124). -/
def State.takeSingle (e : Nat) (p : Port) (t : Wide) (s : State) : State :=
  match s.shotSub e [t], s.curLine e with
  | some sub, _ => s.refuse e sub p true 0 (low32 t)
  | none, some l => s.admitShots e p l (s.lineListens l) [t] 0
  | none, none => s

/-- The arbiter takes a TRAIN or LISTENONLY (R96, R97, R124): with a current line the code check is first. DEDUCED (log 36). -/
def State.takeTrain (e : Nat) (p : Port) (t : Wide) (len : Nat) (key deflt listen : Bool) (code : Nat) (s : State) :
    State :=
  match s.curLine e with
  | none => s.refuse e (if s.isLate t then 0 else if s.isOutOfOrder e t then 1 else 3) p true 0 (low32 t)
  | some l =>
    let (n, c) := s.trainCode e l t len key deflt code
    if s.getAt t (Fd.SCAN_CODE_NINT_NINT c) < n - 1 then
      (s.report e p (astatWord 6 0 0 0 c) true false).completeWith e causeCODE_TABLE 0 (BitVec.ofNat 32 (c + 256 * n))
    else
      let fires := s.trainFires t c n
      match s.shotSub e fires with
      | some sub => s.refuse e sub p true c (low32 t)
      | none =>
        let s1 := s.scan' fun x => x.onLine l.seq fun y =>
          if y.train then y else { y with train := true, code := c, len := n, keyed := key }
        s1.admitShots e p l (listen || s.lineListens l) fires c

/-- The arbiter takes an action that enters the action queue at tick t (R92). -/
def State.takeAct (e : Nat) (p : Port) (t : Wide) (a : Act) (s : State) : State :=
  match s.actSub e t, s.curLine e with
  | some sub, _ => s.refuse e sub p true 0 (low32 t)
  | none, some l =>
    ((s.queueAct { tick := t, easel := e, line := l.seq, act := a }).admitted e t).grant e p (astatWord 0 0 0 0 0) true
  | none, none => s

/-- The arbiter takes a setting of the current line, with the LINE tick (R88, R127 to R129). DEDUCED (log 36). -/
def State.takeSetting (e : Nat) (p : Port) (a : Act) (f : LineRec → LineRec) (post : LineRec → State → State)
    (s : State) : State :=
  match s.settingSub e, s.curLine e with
  | some sub, some l => s.refuse e sub p true 0 (low32 l.start)
  | some sub, none => s.refuse e sub p true 0 0
  | none, some l =>
    let s1 := (s.queueAct { tick := l.start, easel := e, line := l.seq, act := a }).admitted e l.start
    ((post (f l) (s1.scan' fun c => c.onLine l.seq f))).grant e p (astatWord 0 0 0 0 0) true
  | none, none => s

/-- WINDOW on a line: each sector of the mask takes the window (R127). -/
def LineRec.setWindow (w : Window) (mask : Nat) (l : LineRec) : LineRec :=
  { l with win := (List.range 32).foldl (fun m i => if mask.testBit i then ins m i w else m) l.win }

/-- How many shots a request asks for; none for an action of another kind (R10). -/
def State.shotsAsked (e : Nat) (r : Request) (s : State) : Nat :=
  match r with
  | .shot _ => 1
  | .train t len key deflt _ code =>
    match s.curLine e with
    | some l => (s.trainCode e l t len key deflt code).1
    | none => if deflt then 0 else len
  | _ => 0

/-- Whether the queue the request would enter has room for all of it (R10, R92), and does not refuse it (R471). -/
def State.hasRoom (e : Nat) (r : Request) (s : State) : Bool :=
  match r with
  | .shot _ | .train .. => decide (s.scan.shotQ.length + s.shotsAsked e r ≤ 512) && !s.refuses 2 0
  | _ => decide (s.scan.actQ.length + 1 ≤ 256) && !s.refuses 2 1

/-- The arbiter takes a request. -/
def State.take (e : Nat) (p : Port) (s : State) : State :=
  match p.req with
  | .line desc t d frame lmode => s.takeLine e p desc t d frame lmode
  | .shot t => s.takeSingle e p t
  | .train t len key deflt listen code => s.takeTrain e p t len key deflt listen code
  | .stag t bytes => s.takeAct e p t (.stag bytes)
  | .window w mask => s.takeSetting e p .window (LineRec.setWindow w mask) (fun _ s => s)
  | .zoom z => s.takeSetting e p .zoom (fun l => { l with zooms := z :: l.zooms }) (fun l s => s.zoomGate l z)
  | .swap t mask => s.takeAct e p t (.swap mask)
  | .stack x => s.takeSetting e p .stack (fun l => { l with stack := some x }) (fun _ s => s)

/-- Easel e presents a request, and its queue has room for all of it (R92). -/
def State.canEnter (e : Nat) (s : State) : Bool :=
  match (s.easel e).port with
  | some p => s.hasRoom e p.req
  | none => false

/-- Easel e presents a request that its queue has no room for (R92). -/
def State.cannotEnter (e : Nat) (s : State) : Bool := (s.easel e).port.isSome && !s.canEnter e

/-- A request without room is held, which is counted once (R10). -/
def State.holdBack (e : Nat) (s : State) : State :=
  match (s.easel e).port with
  | some p =>
    if p.held then s
    else (s.count 2 Src.SCAN_QFULL_WAIT e 1).easel' e fun z => { z with port := some { p with held := true } }
  | none => s

/-- The round robin from the easel after the one last served (R92). -/
def State.turns (s : State) : List Nat := (List.range 8).map fun k => (s.scan.lastServed + 1 + k) % 8

/-- A cycle of the arbiter (R89 to R93): it serves the first easel of the round robin whose request can enter, passing over those that
the queues have no room for, which are held (R10); while the time base is lost, or SCAN restarts, nothing is admitted (R71, R456). DEDUCED (log 36). -/
def execArbiterRequest (s : State) : Res :=
  if !s.tbas.running || s.restarting 2 then ok s
  else
    let s1 := s.each (easelList.filter s.cannotEnter) State.holdBack
    match s.turns.find? s.canEnter with
    | none => ok s1
    | some e =>
      match (s1.easel e).port with
      | none => ok s1
      | some p => ok ((s1.scan' fun c => { c with lastServed := e }).take e p)

end Sys2Proof.Machine
end

