-- ==== Sys2Proof/Machine/Islands.lean ====
section
/-!
DEFINITION. Which root clocks run (R427, R428), the CLKOUT pin (R431), and the pins of the I/O rail (R447).
-/
namespace Sys2Proof.Machine

/-- The islands of T: all that stop with the time-base clock. -/
def State.onT (s : State) : Bool := s.is Fd.TBAS_TB_STAT_PLL_LOCK && !s.chip.doze
/-- ROSC runs from the core rail on (R432), but for the wait after a failed attempt (R434). DEDUCED (log 77). -/
def State.onROSC (s : State) : Bool := s.stageIs 4 && !s.chip.bootFail && !s.chip.doze && !s.chip.roscOff

/-- CLKOUT keeps the root of the island that it selects running (R431). -/
def State.keptRoot (i : Nat) (s : State) : Bool := s.chip.clkout.getLsbD 7 && bitsOf s.chip.clkout 5 0 == i

/-- Whether the root clock of island i runs; the lane and ingest islands are closed in HUSH (R441). DEDUCED (log 77). -/
def State.islandRuns (i : Nat) (s : State) : Bool :=
  let judged := s.is Fd.CHIP_OSC_STAT_ROSC_OK && s.onROSC
  if i = 0 ∨ i = 45 then s.stageIs 2
  else if i = 1 then s.onROSC
  else if i = 2 ∨ i = 44 then s.chip.xoOn
  else if 5 ≤ i ∧ i ≤ 12 then s.onT && (s.chip.hush != 4 || s.keptRoot i)
  else if i = 34 then s.stageIs 4 && s.chip.railPcie && !s.host.perst && !s.chip.doze
  else if i = 37 ∨ i = 38 then judged
  else if i = 39 then judged || s.chip.doze
  else if i = 40 ∨ i = 41 then s.onT || (s.chip.coarse && s.chip.xoOn)
  else if i = 46 then s.chip.tck
  else if 48 ≤ i then false
  else s.onT

/-- What CLKOUT carries: an even divisor gives a duty of 50 %, an odd one is high for floor(n / 2) input periods, and 1 passes the clock; low
without EN, in DOZE, without its rail or with the source stopped (R431, R447). DEDUCED (log 77). -/
def State.clkoutNow (s : State) : Option (Nat × Nat × Nat) :=
  let w := s.chip.clkout
  let sel := bitsOf w 5 0
  let n := bitsOf w 19 8 + 1
  if w.getLsbD 7 && s.chip.railIo && !s.chip.doze && s.islandRuns sel then
    some (sel, n, if n = 1 then 1 else if n % 2 = 0 then n else n / 2 * 2)
  else none

/-- The pin follows. -/
def State.showClkout (s : State) : State :=
  let p := s.clkoutNow
  if s.chip.clkPin = p then s
  else
    let (a, b, c) := p.getD (0, 0, 0)
    (s.chip' fun x => { x with clkPin := p }).emit (.clkout a b c)

def State.runMask (lo n : Nat) (s : State) : Nat :=
  (List.range n).foldl (fun m k => if s.islandRuns (lo + k) then m + 2 ^ k else m) 0

/-- CHIP_ISLAND_RUN_LO and _HI, and CLKOUT. -/
def State.showIslands (s : State) : State :=
  (s.set Fd.CHIP_ISLAND_RUN_LO_RUN (s.runMask 0 32) |>.set Fd.CHIP_ISLAND_RUN_HI_RUN (s.runMask 32 16)).showClkout

/-- JTAG is in use, or rests: CI46 has the clock of the pin (R427). DEDUCED (log 77). -/
def State.setTck (on : Bool) (s : State) : State :=
  if s.chip.tck == on then s else (s.chip' fun c => { c with tck := on }).showIslands

/-- A pin of the I/O rail is driven, when the rail is there (R447). -/
def State.emitPin (o : Out) (s : State) : State := s.onlyIf s.chip.railIo (State.emit o)

end Sys2Proof.Machine
end

