-- ==== Sys2Proof/Machine/Lsup.lean ====
section
/-!
DEFINITION. The laser supply's standing (R155 to R157): when it switches, and the return of VREF to VMIN.
-/
namespace Sys2Proof.Machine

/-- Both laser switches are commanded closed (R157, R370). -/
def State.switchesClosed (s : State) : Bool := s.is Fd.SAFE_STAT_HS_EN && s.is Fd.SAFE_STAT_LS_EN

/-- The supply is enabled and the laser switches are closed (R157). -/
def State.lsupOn (s : State) : Bool := s.is Fd.EMIT_LSUP_CTL_EN && s.switchesClosed

/-- The interval around the fire tick of an emitting shot that no switching edge falls in: from 20 ns before it to 100 ns after (R155). -/
def edgeBefore : Nat := 2560
def edgeAfter : Nat := 12800

/-- The tick of a switching edge that is called for now: one that would fall in the interval of an admitted shot that is not listen-only
is moved to its end (R155). -/
def State.edgeTick (s : State) : Wide :=
  let near (f : Wide) : Bool := decide (-(edgeBefore : Int) ≤ ahead f s.tick ∧ ahead f s.tick < edgeAfter)
  match (s.scan.lines.flatMap LineRec.shots).find? fun h => !h.listen && near h.fire with
  | some h => h.fire + BitVec.ofNat 64 edgeAfter
  | none => s.tick

/-- Switching starts or stops: an edge of LSUP_PWM (R155, R157). DESIGN CHOICE (log 90). -/
def State.switchLsup (run : Bool) (s : State) : State :=
  let t := s.edgeTick
  (((s.setBit Fd.EMIT_LSUP_STAT_RUN run).emit' fun x => if run then { x with lsupFrom := t } else x).emitPin
    (.lsupPwm run (s.get Fd.EMIT_LSUP_CTL_FSW) (s.get Fd.EMIT_LSUP_ILIM_IPK))).onlyIf (t != s.tick) (State.emitPin (.lsupEdge run t))

/-- LSUP_PWM and LSUP_STAT follow the conditions (R156, R157): switching stops while the supply is off, during a quiet
pause and after an overvoltage; while it is off VREF stands at VMIN. -/
def State.showLsup (s : State) : State :=
  let on := s.lsupOn
  let run := on && !s.is Fd.EMIT_LSUP_STAT_OV && !s.emt.ovHeld && !s.emt.paused
  let s1 := s.onlyIf (!on) fun s =>
    (s.set Fd.EMIT_LSUP_STAT_VREF (s.get Fd.EMIT_LSUP_VLIM_VMIN)).emit' fun x => { x with paused := false }
  if s.is Fd.EMIT_LSUP_STAT_RUN == run then s1 else s1.switchLsup run

end Sys2Proof.Machine
end

