-- ==== Sys2Proof/Machine/SafeOps.lean ====
section
/-!
DEFINITION. SAFE (R369 to R389): states, causes, switches, the pairing of messages, zones.  Each channel keeps its own copy of the state,
drives its own switch from it and evaluates the zones by itself.
-/
namespace Sys2Proof.Machine

/-! ## States and switches (R370, R372, R374) -/

def stINIT : Nat := 0
def stSTOPPED : Nat := 1
def stTESTING : Nat := 2
def stARMED : Nat := 3
def stSAFE : Nat := 4

def State.safeSt (s : State) : Nat := s.get Fd.SAFE_STAT_STATE
def State.armed (s : State) : Bool := s.safeSt == stARMED

/-- A STATUS PDU is due for a change (R388). -/
def State.statusDue (s : State) : State := s.safe' fun x => { x with statusDue := x.statusDue <|> some s.tick }

/-- Channel A acts: the safety firmware runs (R369, R371, R443). DEDUCED (log 108). -/
def State.chanA (s : State) : Bool := s.fwRuns && !s.mgmt.recovery

/-- Each channel takes a state into its own copy, channel A if it acts; STATE is channel B's, which always does (R369, R372). DEDUCED (log 108). -/
def State.setSafeSt (n : Nat) (s : State) : State :=
  ((s.set Fd.SAFE_STAT_STATE n |>.set Fd.SAFE_STAT_B_STATE n).onlyIf s.chanA (State.set Fd.SAFE_STAT_A_STATE n)).statusDue

/-- What channel A commands of the high-side switch, from its copy and the step of the test (R369, R373). -/
def hsCommand (copy step : Nat) : Bool :=
  copy == stARMED || (copy == stINIT && (step == 4 || step == 5)) || (copy == stTESTING && decide (4 ≤ step))

/-- What channel B commands of the low-side switch. -/
def lsCommand (copy step : Nat) : Bool :=
  copy == stARMED || ((copy == stINIT || copy == stTESTING) && (step == 1 || step == 2)) || (copy == stTESTING && decide (6 ≤ step))

/-- Each channel drives its own switch; the feedback follows, unless an event says otherwise (R369, R370). DEDUCED (log 108). -/
def State.driveHs (s : State) : State :=
  let b := hsCommand (s.get Fd.SAFE_STAT_A_STATE) s.safe.testStep
  s.setBit Fd.SAFE_STAT_HS_EN b |>.setBit Fd.SAFE_STAT_HS_FB b
def State.driveLs (s : State) : State :=
  let b := lsCommand (s.get Fd.SAFE_STAT_B_STATE) s.safe.testStep
  s.setBit Fd.SAFE_STAT_LS_EN b |>.setBit Fd.SAFE_STAT_LS_FB b

/-- The supply sense falls with either switch, and the laser supply follows (R157, R370). -/
def State.switched (s : State) : State :=
  ((s.onlyIf (!s.switchesClosed) (State.set Fd.SAFE_STAT_VSNS 0)).emit
    (.switches (s.is Fd.SAFE_STAT_HS_EN) (s.is Fd.SAFE_STAT_LS_EN))).showLsup

/-- The channels drive their switches; while channel A does not act, LSW_HS_EN keeps its value (R371). DEDUCED (log 108). -/
def State.drive (s : State) : State := ((s.onlyIf s.chanA State.driveHs).driveLs).switched

/-- LSW_VSNS is above VSNS_ON: the supply reads present (R370). -/
def State.supplySeen (mv : BitVec 16) (s : State) : Bool := decide (s.get Fd.SAFE_PROF_T_VSNS_ON * 100 < mv.toNat)

/-- FAULT_N is driven (R372). -/
def State.driveFault (b : Bool) (s : State) : State := (s.setBit Fd.SAFE_STAT_FAULT b).emit (.faultN b)

/-- Entry into STOPPED: switches open, no permit, FAULT_N released (R372, R380). -/
def State.enterStopped (s : State) : State :=
  ((((s.setSafeSt stSTOPPED).safe' fun x => { x with testStep := 0, permit := false }).drive).driveFault false)

/-! ## Causes (R375 to R378) -/

/-- The record of a cause: chip level for CHIP, region level for the others; TBAS has written its own for TB_LOSS
(R71, R376, R394). -/
def State.causeRecord (b code : Nat) (s : State) : State :=
  if b = 9 then s
  else s.err { level := if b = 10 then 3 else 2, region := 18, block := 1, code := code, action := 6 }

/-- The code of a cause's record outside the switch test (R394). -/
def causeCode (b : Nat) : Nat := if b = 4 then 0x1283 else if b = 11 then 0x1284 else 0x1281

/-- Entry into state 4 (R376, R378, R381): firing is inhibited and both switches open, FAULT_N is asserted, the first
cause and its tick are kept, the permit lapses. DEDUCED (log 66). -/
def State.enterSafe (b : Nat) (s : State) : State :=
  let s1 := s.setSafeSt stSAFE |>.set Fd.SAFE_FIRST_BIT b |>.bumpSat Fd.SAFE_ENTRIES_COUNT 1
    |>.setWide 18 0 s.tick |>.setWide 18 1 (BitVec.ofNat 64 s.io.era)
  (((s1.safe' fun x => { x with testStep := 0, permit := false }).drive).driveFault true).count 18 Src.SAFE_SAFE_ENTRIES 0 1

/-- A cause is detected (R375, R376): it is latched and shown, recorded when it was not already present, and SAFE is
entered from any other state. DEDUCED (log 66). -/
def State.causeWith (b code : Nat) (s : State) : State :=
  let fresh := !s.is (Fd.SAFE_NOW_NOW.bit b)
  let s1 := s.set (Fd.SAFE_CAUSE_CAUSE.bit b) 1 |>.set (Fd.SAFE_NOW_NOW.bit b) 1
  let s2 := (s1.onlyIf fresh (State.causeRecord b code)).statusDue
  let s3 := if b = 4 ∨ b = 5 then s2.safe' fun x => { x with agreed := false } else s2
  if s.safeSt = stSAFE then s3 else s3.enterSafe b

def State.cause (b : Nat) (s : State) : State := s.causeWith b (causeCode b)

/-- Every window sum of every charged group is within its limit at the present tick (R378). -/
def State.sumsWithin (s : State) : Bool :=
  s.scan.charges.all fun c =>
    decide (s.windowSum c.win c.grp s.tick.toNat ≤ s.get (Fd.SCAN_LEDG_LIM_LIM c.win c.grp) * 1024)

/-- CHIP reports its fault cleared (R457): the failed region, restarted by the firmware, has run a full frame; or the firmware has
cleared a fault of CHIP and 100 ms have passed.  CLK_BOOT_FAIL is never reported cleared. DEDUCED (log 82). -/
def State.faultCleared (s : State) : Bool :=
  !s.chip.bootFail && (!s.chip.faultOpen
    || (match s.chip.okFrom with
        | some n => decide (n + 2 ≤ s.chip.frames)
        | none => false)
    || (match s.chip.clearedAt with
        | some t => !s.tbas.running || decide (100 * 128000000 ≤ ahead t s.tick)
        | none => false))

/-- Whether what R378 asks of the device for a cause's end holds; what it asks of the outside is the event itself. DEDUCED (log 66). -/
def State.mayClear (b : Nat) (s : State) : Bool :=
  match b with
  | 0 | 1 => !s.scan.violHeld && s.sumsWithin
  | 2 | 3 => s.safe.serviced
  | 4 | 5 => s.safe.agreed
  | 9 => s.tbas.running && !s.tbas.lost
  | 10 => s.faultCleared
  | 11 => !s.is Fd.SAFE_RST_STAT_LOW
  | _ => true

/-- A cause's condition has ended for as long as R378 asks. DEDUCED (log 66). -/
def State.clearCause (b : Nat) (s : State) : State :=
  if s.is (Fd.SAFE_NOW_NOW.bit b) && s.mayClear b then
    let s1 := s.set (Fd.SAFE_NOW_NOW.bit b) 0
    if b = 6 ∨ b = 7 ∨ b = 8 then
      s1.set Fd.SAFE_STAT_HS_FB 0 |>.set Fd.SAFE_STAT_LS_FB 0 |>.set Fd.SAFE_STAT_VSNS 0
    else if b = 2 then
      (s1.set Fd.SAFE_STAT_A_STATE s.safeSt |>.set Fd.SAFE_STAT_B_STATE s.safeSt).drive
    else s1
  else s

/-! ## Ledger violations (R166) -/

/-- A violation: recorded when it is the first since VIOL was cleared, counted, and signalled to SAFE. -/
def State.violation (stray : Bool) (grp win : Nat) (s : State) : State :=
  let s1 := if s.is Fd.SCAN_LEDG_STAT_VIOL then s
    else s.set Fd.SCAN_LEDG_STAT_VIOL 1 |>.setBit Fd.SCAN_LEDG_STAT_STRAY stray |>.set Fd.SCAN_LEDG_STAT_VGRP grp
      |>.set Fd.SCAN_LEDG_STAT_VWIN win
  ((s1.count 2 Src.SCAN_LEDG_VIOL 0 1).scan' fun c => { c with violHeld := true }).cause (if stray then 1 else 0)

/-! ## Safety PDUs (R382 to R385) -/

/-- One bit-step and one byte-step of the reflected CRC-32C (R382). -/
def crcShift (c : Word) : Word := if c.getLsbD 0 then (c >>> 1) ^^^ 0x82F63B78 else c >>> 1
def crcByte (c : Word) (b : Byte) : Word :=
  let x := c ^^^ b.zeroExtend 32
  crcShift (crcShift (crcShift (crcShift (crcShift (crcShift (crcShift (crcShift x)))))))
/-- CRC-32C of bytes (R382). -/
def crc32c (l : List Byte) : Word := ~~~ l.foldl crcByte 0xFFFFFFFF

/-- A number as n little-endian bytes (R4). -/
def leBytes (n v : Nat) : List Byte := (List.range n).map fun i => BitVec.ofNat 8 (v / 256 ^ i)
/-- Little-endian bytes as a number (R4). -/
def leNat (l : List Byte) : Nat := l.foldr (fun b n => b.toNat + 256 * n) 0

/-- Bytes 27:0 of a PDU, which its CRC covers (R382). -/
def pduBody (p : Pdu) : List Byte :=
  [p.version, p.mtype] ++ leBytes 2 p.src.toNat ++ leBytes 4 p.seq.toNat ++ leBytes 8 p.stamp.toNat
    ++ leBytes 12 p.payload.toNat

/-- A PDU as its 32 bytes (R382). -/
def pduBytes (p : Pdu) : List Byte := pduBody p ++ leBytes 4 p.crc.toNat

/-- The PDU that 32 bytes hold (R382). -/
def pduOf (l : List Byte) : Pdu :=
  { version := BitVec.ofNat 8 (leNat (l.take 1)), mtype := BitVec.ofNat 8 (leNat ((l.drop 1).take 1))
    src := BitVec.ofNat 16 (leNat ((l.drop 2).take 2)), seq := BitVec.ofNat 32 (leNat ((l.drop 4).take 4))
    stamp := BitVec.ofNat 64 (leNat ((l.drop 8).take 8)), payload := BitVec.ofNat 96 (leNat ((l.drop 16).take 12))
    crc := BitVec.ofNat 32 (leNat ((l.drop 28).take 4)) }

/-- PERMIT_SRC of the profile (R384). -/
def State.permitSrc (s : State) : Nat := s.get (Fd.SAFE_PROF_SRC_SRC 0)

/-- SRC is listed in the profile; the value 0 lists none (R383, R393). -/
def State.listed (src : Nat) (s : State) : Bool :=
  src != 0 && (List.range 4).any fun k => s.get (Fd.SAFE_PROF_SRC_SRC k) == src

/-- Whether SEQ or STAMP of a source is stale (R383). -/
def State.stale (src : Nat) (seq : Word) (stamp : Wide) (s : State) : Bool :=
  let d := (seq - rd (fun _ => 0) s.safe.seqLast src).toNat
  d == 0 || decide (2 ^ 31 ≤ d) || decide (stamp.toNat < (rd (fun _ => 0) s.safe.stampLast src).toNat)

/-- What a check found: 0 good, 1 CRC, 2 SRC, 3 STALE (R383). DEDUCED (log 67). -/
def State.checkCopy (p : Pdu) (s : State) : Nat :=
  if crc32c (pduBody p) ≠ p.crc ∨ p.version ≠ 1 then 1
  else if !s.listed p.src.toNat then 2
  else if s.stale p.src.toNat p.seq p.stamp then 3
  else 0

/-- Count a discarded copy (R383). -/
def State.countDiscard (chanB : Bool) (why : Nat) (s : State) : State :=
  match why with
  | 1 => s.bumpSat (if chanB then Fd.SAFE_MSG_CNT1_CRC_B else Fd.SAFE_MSG_CNT1_CRC_A) 1
  | 2 => s.bumpSat Fd.SAFE_MSG_CNT1_BADTYPE 1
  | 3 => (s.bumpSat Fd.SAFE_MSG_CNT1_STALE 1).count 18 Src.SAFE_STALE 0 1
  | _ => s

/-- A waiting copy has the given SRC and SEQ (R383). -/
def Copy.of (src : BitVec 16) (seq : Word) (c : Copy) : Bool := c.pdu.src == src && c.pdu.seq == seq

/-- Count an unpaired copy (R383). -/
def State.countUnpaired (s : State) : State :=
  (s.bumpSat Fd.SAFE_MSG_CNT0_UNPAIRED 1).count 18 Src.SAFE_UNPAIRED 0 1

/-- A pair is accepted (R383): it becomes SEQ_last of its source. -/
def State.acceptPair (src : Nat) (seq : Word) (stamp : Wide) (s : State) : State :=
  let s1 := (s.bump Fd.SAFE_MSG_CNT0_ACCEPTED 1).safe' fun x =>
    { x with seqLast := wr (fun _ => 0) x.seqLast src seq, stampLast := wr (fun _ => 0) x.stampLast src stamp }
  if src = s.permitSrc then (s1.set Fd.SAFE_MSG_SEQ_SEQ seq.toNat).safe' fun x => { x with agreed := true } else s1

/-- The zone set in force; the counts are of its zones. DEDUCED (log 67). -/
def State.takeZset (z : Nat) (s : State) : State :=
  if s.get Fd.SAFE_STAT_ZSET = z then s
  else (s.set Fd.SAFE_STAT_ZSET z).safe' fun x =>
    { x with zoneA := { x.zoneA with counts := [] }, zoneB := { x.zoneB with counts := [] } }

/-- A profile is active (R391). -/
def State.profileActive (s : State) : Bool := s.get Fd.SAFE_PROF_VER_VER != 0

/-- SAFE is in TESTING or ARMED. -/
def State.permitted (s : State) : Bool := s.safeSt == stTESTING || s.armed

/-- A PERMIT accepted at tick `t` takes effect by state (R384): T_MSG runs from its acceptance in TESTING or ARMED (R385). -/
def State.permitActs (permit : Bool) (zset : Nat) (t : Wide) (s : State) : State :=
  if s.safeSt = stSTOPPED then
    if permit && s.profileActive && s.get Fd.SAFE_CAUSE_CAUSE == 0 then
      ((s.takeZset zset).setSafeSt stTESTING).safe' fun x => { x with testStep := 0, permit := true, permitAt := s.tick }
    else s
  else if s.safeSt = stTESTING ∨ s.safeSt = stARMED then
    if permit then (s.takeZset zset).safe' fun x => { x with permit := true, permitAt := t } else s.enterStopped
  else s

/-- A STOP has taken effect in this very cycle (R385). -/
def State.stoppedNow (s : State) : Bool := s.tbas.running && s.safe.stopAt == some s.tick

/-- An agreed PERMIT (R384, R385): in DOZE and beside a STOP of the same cycle it has no effect (R443); during a firmware handover it is
held (R459), T_MSG running from its acceptance. DEDUCED (log 67). -/
def State.actPermit (permit : Bool) (zset : Nat) (s : State) : State :=
  if s.chip.doze || s.stoppedNow then s
  else if s.mgmt.hand = 2 then
    (s.mgmt' fun m => { m with permitHeld := some (permit, zset) }).onlyIf (permit && s.permitted) fun s =>
      s.safe' fun x => { x with permitAt := s.tick }
  else s.permitActs permit zset s.tick

/-- An agreed STOP returns TESTING or ARMED to STOPPED (R384); it ends a PERMIT held before it. DEDUCED (log 67). -/
def State.actStop (s : State) : State :=
  let s1 := (s.safe' fun x => { x with stopAt := some s.tick }).onlyIf (s.mgmt.hand == 2)
    (State.mgmt' fun m => { m with permitHeld := none })
  if s.safeSt = stTESTING ∨ s.safeSt = stARMED then s1.enterStopped else s1

/-- The message types the device accepts (R384): a PERMIT of PERMIT_SRC, or a STOP, each with its reserved payload 0;
any other is counted BADTYPE. -/
def State.actMessage (p : Pdu) (s : State) : State :=
  let permit := p.payload.toNat % 256
  let zset := p.payload.toNat / 256 % 256
  if p.mtype = 1 ∧ p.src.toNat = s.permitSrc ∧ permit ≤ 1 ∧ zset ≤ 3 ∧ p.payload.toNat / 65536 = 0 then
    s.actPermit (permit == 1) zset
  else if p.mtype = 2 ∧ p.payload.toNat = 0 then s.actStop
  else s.bumpSat Fd.SAFE_MSG_CNT1_BADTYPE 1

/-- A copy arrives on a channel (R383): it is checked, and paired by SRC and SEQ with the other channel's waiting
copy; equal copies are accepted and applied, unequal ones enter SAFE, and a copy alone waits, the fifth displacing the
oldest. -/
def State.receiveCopy (chanB : Bool) (p : Pdu) (s : State) : State :=
  let why := s.checkCopy p
  if why ≠ 0 then s.countDiscard chanB why
  else
    let other := if chanB then s.safe.waitA else s.safe.waitB
    let mine := if chanB then s.safe.waitB else s.safe.waitA
    match other.find? (Copy.of p.src p.seq) with
    | some q =>
      let rest := other.erase q
      let s1 := s.safe' fun x => if chanB then { x with waitA := rest } else { x with waitB := rest }
      if q.pdu = p then (s1.acceptPair p.src.toNat p.seq p.stamp).actMessage p else s1.cause 4
    | none =>
      let full := decide (4 ≤ mine.length)
      let wait := (if full then mine.drop 1 else mine) ++ [{ pdu := p, at_ := s.tick }]
      (s.onlyIf full State.countUnpaired).safe' fun x => if chanB then { x with waitB := wait } else { x with waitA := wait }

/-! ## Status PDUs (R386, R388) -/

/-- The least REMAIN / (LIM × 1,024) over the groups and windows with a limit, in 1/255; none when no limit is set. DESIGN CHOICE (log 68). -/
def State.ledgerByte (s : State) : Option Nat :=
  ([0, 1, 2].flatMap fun w => (List.range 64).filterMap fun g =>
    let lim := s.get (Fd.SCAN_LEDG_LIM_LIM w g)
    if lim = 0 then none else some (min 255 (255 * s.get (Fd.SCAN_LEDG_REMAIN_CU w g) / (lim * 1024)))).min?

/-- The words of the oldest STATUS PDU and the count, as the mailbox shows them (R386). -/
def State.showTx (s : State) : State :=
  let l := match s.safe.smTx with
    | p :: _ => pduBytes p
    | [] => []
  let s1 := s.each (List.range 8) fun k s => s.set (Fd.SM_TX_WORD k) (leNat ((l.drop (4 * k)).take 4))
  s1.set Fd.SM_TX_STAT_COUNT s.safe.smTx.length

/-- Put a STATUS PDU into the mailbox: a fifth replaces the oldest; source 49 fires when COUNT goes from 0 to 1 (R386). -/
def State.postStatus (p : Pdu) (s : State) : State :=
  let old := s.safe.smTx
  let full := decide (4 ≤ old.length)
  let s1 := s.safe' fun x => { x with smTx := (if full then old.drop 1 else old) ++ [p] }
  ((s1.onlyIf full (State.set Fd.SM_TX_STAT_LOST 1)).showTx).onlyIf old.isEmpty (State.irq 49)

/-- A good frame received, or sent, lowers the error counter (ISO 11898-1): a receive counter above 127 falls to a value from 119 to 127, which the
standard leaves open. PRESUMED (log 105). -/
def State.canGoodRx (s : State) : State :=
  let n := s.get Fd.SAFE_CAN_STAT_REC
  if 127 < n then
    let (k, s1) := s.drawNat 9
    s1.set Fd.SAFE_CAN_STAT_REC (119 + k)
  else s.set Fd.SAFE_CAN_STAT_REC (n - 1)
def State.canGoodTx (s : State) : State := s.set Fd.SAFE_CAN_STAT_TEC (s.get Fd.SAFE_CAN_STAT_TEC - 1)

/-- Channel B sends its STATUS PDU on CAN, unless the controller is off the bus (R387, R388). -/
def State.sendCan (p : Pdu) (s : State) : State :=
  if s.is Fd.SAFE_CAN_STAT_BUSOFF then s else (s.emit (.statusPdu s.safe.can.txId p)).canGoodTx

/-! ## Zones (R389, R390) -/

/-- A profile value in channel B's own copy; before a profile is in force, the register's. -/
def State.ownB (f : Field) (s : State) : Nat :=
  match look s.safe.ownB f.off with
  | some w => bitsOf w f.hi f.lo
  | none => s.get f

/-- The zone parameters as a channel holds them (R390). -/
def State.chanGet (chanB : Bool) (f : Field) (s : State) : Nat := if chanB then s.ownB f else s.get f

/-- A digest entry is a hit of zone z of the set in force, as a channel judges it. -/
def State.zoneHit (chanB : Bool) (z sector near line : Nat) (degraded : Bool) (s : State) : Bool :=
  let n := s.get Fd.SAFE_STAT_ZSET
  (s.chanGet chanB (Fd.SAFE_ZONE_SMASK n z)).testBit sector
    && decide (s.chanGet chanB (Fd.SAFE_ZONE_D_DLO n z) ≤ line ∧ line ≤ s.chanGet chanB (Fd.SAFE_ZONE_D_DHI n z))
    && (decide (near ≤ s.chanGet chanB (Fd.SAFE_ZONE_R_RMAX n z)) || degraded)

/-- The key of a frame's count of hits of zone z. -/
def zoneKey (frame : Word) (z : Nat) : Nat := 8 * frame.toNat + z

/-- One hit of zone z in a frame. -/
def addHit (frame : Word) (m : SMap Nat) (z : Nat) : SMap Nat := ins m (zoneKey frame z) (rd (fun _ => 0) m (zoneKey frame z) + 1)

/-- A channel's zones, and how it puts them back. -/
def State.zones (chanB : Bool) (s : State) : ZoneChan := if chanB then s.safe.zoneB else s.safe.zoneA
def State.zones' (chanB : Bool) (c : ZoneChan) (s : State) : State :=
  s.safe' fun x => if chanB then { x with zoneB := c } else { x with zoneA := c }

/-- ZALARM shows the alarms of either channel; a change is due for a STATUS PDU (R388). DEDUCED (log 67). -/
def State.showAlarms (s : State) : State :=
  let n := s.safe.zoneA.alarms ||| s.safe.zoneB.alarms
  if s.get Fd.SAFE_STAT_ZALARM = n then s else (s.set Fd.SAFE_STAT_ZALARM n).statusDue

/-- The alarms of a frame: its counts that have reached NHIT; all of them when one of its entries was never evaluated. -/
def State.zoneAlarms (chanB : Bool) (f : Word) (s : State) : Nat :=
  let c := s.zones chanB
  if c.missed.contains f then 255
  else
    let n := s.get Fd.SAFE_STAT_ZSET
    (List.range 8).foldl (fun m z =>
      if s.chanGet chanB (Fd.SAFE_ZONE_N_NHIT n z) ≤ rd (fun _ => 0) c.counts (zoneKey f z) then m + 2 ^ z else m) 0

/-- A channel evaluates an item (R389): a hit counts for the entry's frame; when the first line of a new frame is complete, the alarms of the
previous frame are set from its counts, and those end. -/
def State.zoneItem (chanB : Bool) (s : State) (i : ZoneItem) : State :=
  let c := s.zones chanB
  match i with
  | .entry _ sector near line degraded frame =>
    let hits := (List.range 8).filter fun z => s.zoneHit chanB z sector near line degraded
    s.zones' chanB { c with frame := c.frame <|> some frame, counts := hits.foldl (addHit frame) c.counts }
  | .missed frame => s.zones' chanB { c with missed := frame :: c.missed.erase frame }
  | .close frame =>
    match c.frame with
    | none => s.zones' chanB { c with frame := some frame }
    | some f =>
      if f = frame then s
      else
        let c1 := { c with frame := some frame, alarms := s.zoneAlarms chanB f, missed := c.missed.erase f
                           counts := c.counts.filter fun e => e.1 / 8 != f.toNat }
        ((s.zones' chanB c1).safe' fun x => { x with lastFrame := f }).showAlarms

/-- An entry overwrites one that still waits: that one is never evaluated. -/
def ZoneItem.over (slot sector : Nat) (i : ZoneItem) : ZoneItem :=
  match i with
  | .entry k sec _ _ _ frame => if k = slot ∧ sec = sector then .missed frame else i
  | _ => i

/-- Both channels evaluate an item as it arises; while channel A does not act, the item waits for it. DEDUCED (log 67). -/
def State.zoneBoth (i : ZoneItem) (s : State) : State :=
  let s1 := s.zoneItem true i
  if s.chanA then s1.zoneItem false i else s1.safe' fun x => { x with zoneWait := x.zoneWait ++ [i] }

/-- Each channel evaluates a digest entry as it is written (R389). -/
def State.zoneEntry (slot : Nat) (frame : Word) (sector near line : Nat) (degraded : Bool) (s : State) : State :=
  (s.safe' fun x => { x with zoneWait := x.zoneWait.map (ZoneItem.over slot sector) }).zoneBoth (.entry slot sector near line degraded frame)

/-- The digest of a line is complete (R389). -/
def State.zoneClose (frame : Word) (s : State) : State := s.zoneBoth (.close frame)

/-! ## Channel A starts (R371, R386, R444, R459) -/

/-- Channel A takes the PDU that the host has handed to it (R386). -/
def State.takePdu (s : State) : State :=
  let bytes := (List.range 8).flatMap fun k => leBytes 4 (s.get (Fd.SM_RX_WORD k))
  (s.set Fd.SM_RX_CTL_GO 0 |>.set Fd.SM_RX_STAT_BUSY 0).receiveCopy false (pduOf bytes)

/-- Channel A starts: its copy is that of channel B again, it drives its switch, evaluates what waited, and takes a PDU
that was handed to it. DEDUCED (log 108). -/
def State.startA (s : State) : State :=
  let s1 := if s.get Fd.SAFE_STAT_A_STATE = s.safeSt then s else ((s.set Fd.SAFE_STAT_A_STATE s.safeSt).driveHs).switched
  let s2 := (s.safe.zoneWait.foldl (State.zoneItem false) s1).safe' fun x => { x with zoneWait := [] }
  s2.onlyIf (s.is Fd.SM_RX_STAT_BUSY) State.takePdu

end Sys2Proof.Machine
end

