-- ==== Sys2Proof/Machine/HostOps.lean ====
section
/-!
DEFINITION. HOST's shared operations: DMA rings (R299 to R309, R312), room and drops (R305), the export staging buffer
(R313, R314), the reset of HOST (R316).
-/
namespace Sys2Proof.Machine

/-! ## An instant of a clock that runs on without the time base -/

/-- DESIGN CHOICE (log 3). -/
def State.clockOk (t : Wide) (s : State) : Bool := !s.tbas.running || s.timely t
def State.clockReach (t : Wide) (s : State) : State := if s.tbas.running then s.reach t else s

/-- Microseconds in ticks (R67). -/
def usTicks (n : Nat) : Wide := BitVec.ofNat 64 (n * 128000)

/-! ## Rings -/

def rOFF : Nat := 0
def rRUN : Nat := 1
def rSTOPPED : Nat := 2

def State.ring (r : Nat) (s : State) : Ring := rd (fun _ => {}) s.host.rings r
def State.ring' (r : Nat) (f : Ring → Ring) (s : State) : State :=
  s.host' fun h => { h with rings := wr (fun _ => {}) h.rings r (f (rd (fun _ => {}) h.rings r)) }
def State.ringState (r : Nat) (s : State) : Nat := s.get (Fd.HOST_RING_STAT_STATE r)
def State.post (n : Nat) (o : Out) (s : State) : State := s.io' (Io.post n o)

/-- HOST_RING_STAT.FETCHED (R320). -/
def State.showFetched (r : Nat) (s : State) : State := s.set (Fd.HOST_RING_STAT_FETCHED r) (s.ring r).descs.length

/-- The greatest payload that PF0's Max Payload Size allows, at most 512 bytes (R293). -/
def State.mps (s : State) : Nat := min 512 (128 * 2 ^ s.get (Fd.CFG_DEV_MPS false))

/-- A write-back or a status block, never with Relaxed Ordering (R293, R306). -/
def State.postBack (r : Nat) (addr : Wide) (b : List Byte) (s : State) : State :=
  s.post b.length (.dma r addr false s.mps b)

/-- Ring data, with Relaxed Ordering where PF0 enables it (R293). -/
def State.postData (r : Nat) (addr : Wide) (b : List Byte) (s : State) : State :=
  s.post b.length (.dma r addr (s.is (Fd.CFG_DEV_ERO false)) s.mps b)

/-- The status block is written (R307). -/
def State.statusBlock (r : Nat) (s : State) : State :=
  s.postBack r (s.ring r).wb
    (leBytes 4 (s.get (Fd.HOST_RING_DONE_DONE r)) ++ leBytes 4 (s.get (Fd.HOST_RING_UNIT_UNIT r))
      ++ leBytes 4 (s.get (Fd.HOST_RING_POST_POST r))
      ++ leBytes 4 (s.ringState r + 16 * s.get (Fd.HOST_RING_STAT_CAUSE r)))

/-- A completion is counted towards the ring's interrupt (R312). -/
def State.moderate (r : Nat) (s : State) : State :=
  let n := (s.ring r).coal + 1
  if max 1 (s.get (Fd.HOST_RING_COAL_N r)) ≤ n then (s.ring' r fun x => { x with coal := 0 }).irq r
  else s.ring' r fun x => { x with coal := n, coalAt := if x.coal = 0 then s.tick else x.coalAt }

def stFULL : Nat := 2
def stIDLE : Nat := 4
def stFLUSH : Nat := 8
def stDISABLE : Nat := 16

/-- The idle time of the current buffer has passed at the present tick (R304). -/
def State.idleAt (r : Nat) (s : State) : Wide :=
  (s.ring r).lastAt + usTicks (s.get (Fd.HOST_RING_CTL_IDLE r))
def State.idleDue (r : Nat) (s : State) : Bool :=
  s.get (Fd.HOST_RING_CTL_IDLE r) != 0 && !before s.tick (s.idleAt r)

/-- The current buffer completes for the reasons in `why` (R299, R304, R306): after its records the write-back, the status block, and the
message when one falls due.  An empty buffer never closes. -/
def State.closeBuffer (r why : Nat) (s : State) : State :=
  let x := s.ring r
  match x.descs with
  | [] => s
  | _ :: rest =>
    if x.data.isEmpty then s
    else
      let done := s.get (Fd.HOST_RING_DONE_DONE r)
      let unit := s.get (Fd.HOST_RING_UNIT_UNIT r)
      let units := x.data.length / 16
      let drops := if x.begun then min x.drops 65535 else 0
      let status := 1 + (why ||| (if s.idleDue r then stIDLE else 0))
      let wb := x.base + BitVec.ofNat 64 (32 * (done % 2 ^ x.dsz) + 16)
      (s.postBack r wb (leBytes 4 unit ++ leBytes 4 units ++ leBytes 2 drops ++ leBytes 2 status ++ leBytes 4 0)
        |>.set (Fd.HOST_RING_UNIT_UNIT r) (unit + units) |>.set (Fd.HOST_RING_DONE_DONE r) (done + 1)
        |>.ring' r fun y => { y with descs := rest, data := [], begun := false, drops := 0 })
        |>.showFetched r |>.statusBlock r |>.count 13 Src.HOST_COMPLETIONS r 1 |>.moderate r

/-! ## Room and placement (R303, R305) -/

/-- Where a record of n bytes goes, given the bytes used of the first buffer and the buffers' sizes: the fill after it;
none without room.  A record larger than the buffer it would start takes no room. -/
def fillRecord (n : Nat) : Nat × List Nat → Option (Nat × List Nat)
  | (_, []) => none
  | (used, sz :: l) =>
    if used + n ≤ sz then some (used + n, sz :: l)
    else if used = 0 then some (0, sz :: l)
    else match l with
      | [] => none
      | sz2 :: l2 => some (if n ≤ sz2 then n else 0, sz2 :: l2)

/-- The outbound buffer of Recovery does not take n bytes more (R315). -/
def State.heldFull (n : Nat) (s : State) : Bool := s.io.recovery && decide (524288 < s.io.heldBytes + n)

/-- The ring has room for an item of records of these lengths (R305). -/
def State.ringRoom (r : Nat) (sizes : List Nat) (s : State) : Bool :=
  let x := s.ring r
  s.ringState r == rRUN && !s.heldFull sizes.sum && !s.refuses 13 r
    && (sizes.foldl (fun st n => st.bind (fillRecord n)) (some (x.data.length, x.descs.map (·.size)))).isSome

/-- Items of a ring are dropped (R305): reported by the first buffer in which an item begins after them. DEDUCED (log 55). -/
def State.dropItem (r : Nat) (s : State) : State :=
  (s.ring' r fun x => { x with dropped := x.dropped + 1 }).count 13 Src.HOST_DROP_ITEMS r 1

/-- A record too large for the buffer it would start (R303, R319). DEDUCED (log 55). -/
def State.tooBig (r : Nat) (s : State) : State :=
  (s.set (Fd.HOST_RING_STAT_BIG r) 1 |>.err { level := 0, region := 13, block := 2, code := 0x0D85, cell := r }
    |>.count 13 Src.HOST_BIG_DROP r 1).dropItem r

/-- Append a record to the current buffer, and write it there (R306); an item that begins takes the drops before it (R299, R303). DEDUCED (log 55). -/
def State.enterRecord (r : Nat) (first : Bool) (b : List Byte) (s : State) : State :=
  let x := s.ring r
  let at_ := ((x.descs.head?.map Desc.addr).getD 0) + BitVec.ofNat 64 x.data.length
  (s.postData r at_ b).ring' r fun x =>
    let y := if first then { x with begun := true, drops := x.drops + x.dropped, dropped := 0 } else x
    { y with data := y.data ++ b, lastAt := s.tick }

/-- A record enters the ring (R303), closing a buffer it does not fit; whether it was too big for its buffer. DEDUCED (log 55). -/
def State.putRecord (r : Nat) (first : Bool) (b : List Byte) (s : State) : State × Bool :=
  let x := s.ring r
  match x.descs with
  | [] => (s, false)
  | d :: _ =>
    if x.data.length + b.length ≤ d.size then (s.enterRecord r first b, false)
    else
      let s1 := s.closeBuffer r stFULL
      match (s1.ring r).descs with
      | [] => (s1, false)
      | d1 :: _ => if b.length ≤ d1.size then (s1.enterRecord r first b, false) else (s1.tooBig r, true)

/-- An item whose records a ring has room for is placed whole (R305). -/
def State.putItem (r : Nat) (recs : List (List Byte)) (s : State) : State :=
  (recs.foldl (fun (st : Bool × State) b => (false, (st.2.putRecord r st.1 b).1)) (true, s)).2

/-! ## Ring states (R308, R309) -/

/-- The buffer being filled and the fetched descriptors are abandoned; its drops are reported later (R308). -/
def Ring.abandon (x : Ring) : Ring :=
  { x with descs := [], data := [], begun := false, drops := 0, dropped := x.dropped + x.drops }

/-- A stop cause (R309): abandoned, STOPPED, recorded, source 51. -/
def State.stopRing (r cause code : Nat) (s : State) : State :=
  ((s.ring' r Ring.abandon).set (Fd.HOST_RING_STAT_STATE r) rSTOPPED |>.set (Fd.HOST_RING_STAT_CAUSE r) cause
    |>.showFetched r |>.err { level := 0, region := 13, block := 2, code := code, cell := r }
    |>.statusBlock r |>.count 13 Src.HOST_STOPS r 1).irq 51

def allRings : List Nat := List.range 14

/-! ## The export staging buffer (R288, R313, R314) -/

/-- A record of an export ring is dropped (R288). -/
def State.hexDrop (c : Nat) (s : State) : State := (s.set Fd.OUTP_STAT_HEX_DROP 1).count 12 Src.OUTP_HEX_DROP (c / 32) 1

/-- Bytes in the staging buffer, shown in FILL. -/
def HostIf.stageFill (h : HostIf) : Nat := (h.staged.map fun x => x.bytes.length).sum
def State.showStage (s : State) : State := s.set Fd.HOST_EXP_STAT_FILL s.host.stageFill

/-- The token bucket fills at RATE × 0.25 GB/s, which is RATE / 512 bytes a tick, up to 64 KiB. DESIGN CHOICE (log 57). -/
def State.fillTokens (s : State) : State :=
  let dt := (ahead s.host.stageAt s.tick).toNat
  s.host' fun h => { h with tokens := min 33554432 (h.tokens + dt * s.get Fd.HOST_EXP_BW_RATE), stageAt := s.tick }

/-- The record to serve next: the oldest of the first export ring, from the pointer on, that has one (R313). -/
def HostIf.expHead (h : HostIf) : Option Staged :=
  (List.range 4).findSome? fun k => h.staged.find? fun x => x.ring == (h.expNext + k) % 4

/-- A record leaves the staging buffer for its ring, where it finds room or is dropped (R288, R305). DESIGN CHOICE (log 57). -/
def State.placeExport (x : Staged) (s : State) : State :=
  if s.ringRoom (8 + x.ring) [x.bytes.length] then
    let (s1, big) := s.putRecord (8 + x.ring) true x.bytes
    if big then s1.hexDrop x.chan else s1
  else (s.dropItem (8 + x.ring)).hexDrop x.chan

/-- One record is served, when the tokens allow it; RATE 0 stops export traffic (R313). DESIGN CHOICE (log 57). -/
def State.exportOne (s : State) : State :=
  match s.host.expHead with
  | none => s
  | some x =>
    if s.get Fd.HOST_EXP_BW_RATE = 0 ∨ s.host.tokens < 512 * x.bytes.length then s
    else
      (s.host' fun h =>
        { h with staged := h.staged.erase x, tokens := h.tokens - 512 * x.bytes.length, expNext := (x.ring + 1) % 4 }).placeExport x

/-- What has passed of the export traffic by now (R313, R314). DESIGN CHOICE (log 57). -/
def State.drainStage (s : State) : State :=
  let s1 := s.fillTokens
  (s1.each s1.host.staged fun _ s => s.exportOne).showStage

/-- OUTP and HOST drain: every staged record leaves for its ring (R443). DEDUCED (log 78). -/
def State.drainAll (s : State) : State :=
  ((s.host.staged.foldl (fun s x => s.placeExport x) (s.host' fun h => { h with staged := [] }))).showStage

/-- A record that OUTP completes waits in the staging buffer of 2 MiB, or is dropped (R314). DESIGN CHOICE (log 57). -/
def State.stageRecord (x : Staged) (s : State) : State :=
  if s.host.stageFill + x.bytes.length ≤ 2097152 ∧ s.refuses 13 14 = false then (s.host' fun h => { h with staged := h.staged ++ [x] }).drainStage
  else (s.dropItem (8 + x.ring)).hexDrop x.chan

/-! ## DOE (R293, R310) -/

/-- The DOE instance of PF1 interrupts, where DOE Control enables it: source 50. PRESUMED (log 92). -/
def State.doeInterrupt (s : State) : State := s.onlyIf (s.is Fd.CFG_DOE_IEN) fun s => (s.set Fd.CFG_DOE_INT 1).irq 50

/-! ## Reset of HOST (R316) -/

/-- The request in the mailbox, kept while the firmware completes it (R316). DEDUCED (log 58). -/
def State.orphanRequest (s : State) : State :=
  let words := (List.range 1028).filterMap fun k =>
    let w := s.reg (mbxReq k).off
    if w = 0 then none else some (k, w)
  let due := s.mbxBusy && s.mgmt.reply.isNone && mbxKnown s.mbxOpcode && decide (s.mbxLength ≤ 4096)
  s.mgmt' fun m => { m with reply := none, rest := [], orphan := if due then some words else m.orphan }

/-- Every HOST register, the configuration spaces, the MSI-X tables and PBAs, the mailbox windows and HOST's wide values return to their reset
values; rings go OFF; DOE is aborted; queued writes and staged records are discarded; PTM's dialogs fail from here on.  HOST_LINK_DOWNS keeps its count, and the
drops not yet reported are kept (R305). DEDUCED (log 58). -/
def State.resetHost (s : State) : State :=
  let s1 := s.orphanRequest
  let keep := [Fd.HOST_LINK_DOWNS_COUNT.off]
  ((s1.io' fun x =>
      let y := (x.resetRange 0x01A00000 0x01C00000 keep).resetRange 0x04000000 0x06020000 []
      { y with wide := y.wide.filter (fun e => e.1 / 65536 ≠ 13), held := [], heldBytes := 0, recovery := false }).host'
    fun h => { h with staged := [], tokens := 33554432, stageAt := s.tick, expNext := 0, doe := {}
                      rings := h.rings.filterMap fun e =>
                        let n := e.2.dropped + e.2.drops
                        if n = 0 then none else some (e.1, { dropped := n }) }).safe' (fun x => { x with smTx := [] })
    |>.tbas' (fun b => { b with ptmDown := b.ptmDown || s.ptmActive }) |>.showWarm

end Sys2Proof.Machine
end

