-- ==== Sys2Proof/Machine/Taps.lean ====
section
/-!
DEFINITION. The taps of the capture engine (R333, R334): what they hand to its FIFO.
-/
namespace Sys2Proof.Machine

def capIDLE : Nat := 0
def capARMED : Nat := 1
def capPOST : Nat := 2
def capEXPORT : Nat := 3
def State.capState (s : State) : Nat := s.get Fd.MEMC_CAP_STAT_STATE
def State.capTo (n : Nat) (s : State) : State := s.set Fd.MEMC_CAP_STAT_STATE n

/-- The engine takes samples (R335). -/
def State.capRuns (s : State) : Bool := decide (s.capState = capARMED ∨ s.capState = capPOST)

/-- The capture settings: those latched at ARM, or the registers as they stand. -/
def Memc.capGet (m : Memc) (f : Field) : Nat := bitsOf (rd resetWord m.cap f.off) f.hi f.lo
def State.capGet (f : Field) (s : State) : Nat := s.memc.capGet f

/-- HIST, EVENTS and EYE samples have 8 bytes, MONITOR and HOUSEKEEPING ones 4, reduced pairs 8 (R333, R342); with no
stream the size has no effect. -/
def Memc.sampleBytes (m : Memc) : Nat :=
  let st := m.capGet Fd.MEMC_CAP_SRC_STREAM
  if (st = 3 ∨ st = 4) ∧ m.capGet Fd.MEMC_CAP_BUF_RED = 0 then 4 else 8

/-- A sub-source the settings select. -/
def Memc.takesSub (m : Memc) (sub : Nat) : Bool :=
  match m.capGet Fd.MEMC_CAP_SRC_STREAM with
  | 1 | 2 | 4 => decide (sub < 32) && (m.capGet Fd.MEMC_CAP_MASK_MASK).testBit sub
  | 3 => decide (sub < 16) && (m.capGet Fd.MEMC_CAP_MASK_MASK).testBit sub
  | 5 => sub == 0
  | _ => false

/-- A sample does not fit the 512 KiB FIFO, which can only fill while a channel is retrained (R333, R334). -/
def Memc.fifoFull (m : Memc) : Bool := !m.retrain.isEmpty && decide (524288 < (m.fifo.length + 1) * m.sampleBytes)

/-- A sample is lost: the next one in the FIFO has a gap before it. -/
def State.capGap (s : State) : State := (s.set Fd.MEMC_CAP_STAT_GAP 1).memc' fun m => { m with gapIn := true }

/-- A sample of a selected sub-source enters the FIFO. -/
def State.intoFifo (x : Sample) (s : State) : State :=
  if s.memc.fifoFull || s.refuses 14 0 then s.capGap
  else s.memc' fun m => { m with fifo := m.fifo ++ [{ x := x, gap := m.gapIn }], gapIn := false }

/-- A tap of a stream hands over samples, when the engine records that stream and `mine` says that its source is selected. -/
def State.taps (stream : Nat) (mine : Bool) (l : List Sample) (s : State) : State :=
  if s.capRuns && mine && s.capGet Fd.MEMC_CAP_SRC_STREAM == stream then
    s.each (l.filter fun x => s.memc.takesSub x.sub) State.intoFifo
  else s

/-- A completed eye-scan point of a lane: its errors, PHASE and VOLT of its GO, and whether it ended with ABORT. -/
def State.tapEye (l errs : Nat) (abort : Bool) (s : State) : State :=
  let w := (rd (fun _ => ({} : Lane)) s.lnk.lanes l).es
  s.taps 5 (s.capGet Fd.MEMC_CAP_SRC_LANE == l)
    [{ tick := s.tick.toNat, sub := 0
       bits := BitVec.ofNat 64 (errs + bitsOf w 13 8 * 2 ^ 32 + bitsOf w 21 16 * 2 ^ 40 + if abort then 2 ^ 48 else 0) }]

/-- An event of tile t that passes ingest. -/
def State.tapEvent (t chan typ : Nat) (x : Int) (s : State) : State :=
  s.taps 1 (s.capGet Fd.MEMC_CAP_SRC_TILE == t)
    [{ tick := (BitVec.ofInt 64 (x / 16)).toNat, sub := chan
       bits := BitVec.ofNat 64 ((x % 2 ^ 48).toNat + chan * 2 ^ 48 + typ * 2 ^ 53) }]

/-- The bins of a channel of a sector that enter the filter, under the LINE tick and the sequence of their line. -/
def State.tapHist (sec c seq : Nat) (label : Wide) (bins : List Nat) (s : State) : State :=
  s.taps 2 (s.capGet Fd.MEMC_CAP_SRC_SECT == sec) (bins.mapIdx fun b n =>
    { tick := label.toNat, sub := c % 32
      bits := BitVec.ofNat 64 (n % 2 ^ 16 + b * 2 ^ 16 + c * 2 ^ 28 + seq % 2 ^ 16 * 2 ^ 38) })

/-- An output of a monitor input's slow path, after the sinc³ stage (tap 0) or the FIR (tap 1), at its aligned instant (R355). -/
def State.tapMonitor (tap k v : Nat) (unset : Bool) (aligned : Wide) (s : State) : State :=
  s.taps 3 (s.capGet Fd.MEMC_CAP_SRC_TAP == tap)
    [{ tick := aligned.toNat, sub := k, bits := BitVec.ofNat 64 (v + (if unset then 2 ^ 24 else 0) + k * 2 ^ 28) }]

/-- A result of an entry of the housekeeping sequence. -/
def State.tapHk (entry result slice : Nat) (start : Wide) (s : State) : State :=
  s.taps 4 true [{ tick := start.toNat, sub := entry, bits := BitVec.ofNat 64 (result + entry * 2 ^ 12 + slice * 2 ^ 17) }]

end Sys2Proof.Machine
end

