-- ==== Sys2Proof/Machine/LinkOps.lean ====
section
/-!
DEFINITION. What lanes and tile ports share (R172 to R204): retraining, links, relinks, the clock lane, the SLEEP message.
-/
namespace Sys2Proof.Machine

/-! ## Lanes -/

/-- Lane states (LNK_LANE_STAT.STATE). -/
def lnOFF : Nat := 0
def lnTRAIN : Nat := 1
def lnHUNT : Nat := 2
def lnLOCKED : Nat := 3
def lnIDLE : Nat := 4
def lnWAKE : Nat := 5
def lnFAILED : Nat := 6

def State.laneSt (l : Nat) (s : State) : Nat := s.get (Fd.LNK_LANE_STAT_STATE l)
def State.setLane (l n : Nat) (s : State) : State := s.set (Fd.LNK_LANE_STAT_STATE l) n

/-- The region of a lane and of a tile (R8). -/
def laneRgn (l : Nat) : Nat := 4 + l / 32
def tileRgn (t : Nat) : Nat := 4 + t / 8

/-- Count a link event of a tile (R222). -/
def State.countTile (t src n : Nat) (s : State) : State := s.count (tileRgn t) src (t % 8) n
def State.countLane (l src n : Nat) (s : State) : State := s.count (laneRgn l) src (l % 32) n

/-- A cell-level record of a lane, and a record of a tile (R490). -/
def State.laneRecord (l code : Nat) (s : State) : State :=
  s.err { level := 0, region := laneRgn l, block := 1, code := laneRgn l * 256 + code, cell := l }
def State.tileRecord (t code level : Nat) (warning : Bool) (s : State) : State :=
  s.err { level := level, region := tileRgn t, block := 3, code := tileRgn t * 256 + code, cell := t, warning := warning }

/-- FROZEN shows whether adaptation is held (R185): in IDLE, during a wake's clock pattern, after SLEEP_ANN, and by
FREEZE. -/
def State.setFrozen (l : Nat) (b : Bool) (s : State) : State :=
  s.setBit (Fd.LNK_LANE_STAT_FROZEN l) (b || s.is (Fd.LNK_LANE_CTL_FREEZE l))

/-- FROZEN follows the three cases of R185 and the hold of R188. -/
def State.freeze (l : Nat) (s : State) : State :=
  let x := s.lane l
  let st := s.laneSt l
  s.setFrozen l (x.ann || st == lnIDLE || (st == lnWAKE && x.clk))

/-- The start values of the equalisers (R185, R186). -/
def State.startValues (l : Nat) (s : State) : State :=
  (s.set (Fd.LNK_LANE_EQ_VAL_CTLE l) (s.get (Fd.LNK_LANE_EQ_CTL_CTLE_START l))
    |>.set (Fd.LNK_LANE_EQ_VAL_DFE1 l) 0 |>.set (Fd.LNK_LANE_EQ_VAL_DFE2 l) 0 |>.set (Fd.LNK_LANE_EQ_VAL_DFE3 l) 0
    |>.set (Fd.LNK_LANE_EQ_VAL2_DFE4 l) 0 |>.set (Fd.LNK_LANE_EQ_VAL2_DFE5 l) 0).lane' l
      fun x => { x with eqFrac := [] }

/-- CTLE_AD = 0 holds the start code (R184). -/
def State.holdCtle (l : Nat) (s : State) : State :=
  if s.is (Fd.LNK_LANE_EQ_CTL_CTLE_AD l) then s
  else (s.set (Fd.LNK_LANE_EQ_VAL_CTLE l) (s.get (Fd.LNK_LANE_EQ_CTL_CTLE_START l))).lane' l fun x => { x with eqFrac := wr (fun _ => 0) x.eqFrac 0 0 }

/-- Leaving LOCKED ends an eye-scan point with ABORT (R193) and the frequency condition (R182). -/
def State.leaveLock (l : Nat) (s : State) : State :=
  (s.set (Fd.LNK_LANE_STAT_FREQ_ERR l) 0).onlyIf (s.is (Fd.LNK_LANE_ES_STAT_BUSY l)) fun s =>
    s.set (Fd.LNK_LANE_ES_STAT_BUSY l) 0 |>.set (Fd.LNK_LANE_ES_STAT_ABORT l) 1 |>.tapEye l 0 true

/-- A lane retrains (R186): start values, FI and PH 0, TRAIN. -/
def State.retrain (l : Nat) (s : State) : State :=
  let s1 := ((s.leaveLock l).startValues l).setLane l lnTRAIN |>.set (Fd.LNK_LANE_CTL_RETRAIN l) 0 |>.set (Fd.LNK_LANE_CDR_FOFS l) 0
  (s1.lane' l fun x => { x with good := 0, inner := false, clk := false, pos := 0, bad := 0, ann := false, ph := 0 }).setFrozen l false

/-! ## Links (R198) -/

/-- The lanes of a tile with an enabled receiver that have not failed: the block goes on with these (R186). -/
def State.rxLanes (t : Nat) (s : State) : List Nat :=
  (tileLanes t).filter fun l => s.is (Fd.LNK_LANE_CTL_RX_EN l) && s.laneSt l != lnFAILED

/-- The enabled lanes of a tile run at a generation (R172). -/
def State.setGen (t g : Nat) (s : State) : State :=
  s.each ((tileLanes t).filter fun l => s.is (Fd.LNK_LANE_CTL_RX_EN l) || s.is (Fd.LNK_LANE_CTL_TX_EN l)) fun l s =>
    s.set (Fd.LNK_LANE_STAT_GEN l) g

/-- Entry into LANES: every enabled lane of the tile that has not failed retrains at KL1; bond, generation and phase start afresh. DEDUCED (log 43). -/
def State.enterLanes (t : Nat) (s : State) : State :=
  let s1 := (s.each (s.rxLanes t) State.retrain).setGen t 1
  let s2 := s1.set (Fd.LNK_TILE_STAT_STATE t) ptLANES |>.set (Fd.LNK_TILE_STAT_GEN t) 1
    |>.set (Fd.LNK_TILE_STAT_UP_ACTIVE t) 0 |>.set (Fd.LNK_TILE_STAT_DN_ACTIVE t) 0
    |>.set (Fd.LNK_TILE_STAT_PHASE_OK t) 0 |>.set (Fd.LNK_TILE_CTL_RELINK t) 0
  s2.port' t fun p =>
    { p with target := 0, tsw := none, rxSeq := none, amSeq := none, amSeen := 0, amActive := 0, amLane := 4, upExcl := 0
             amDone := true, bidx := [], fresh := true, dnAwake := 0, dnAt := none, dnPos := 0, dnOut := 0, genCap := 3, selects := 0, ofsOld := none
             dnExcl := 0, phase := {}, jump := none, phFails := 0, phAt := none, ofsNext := [], runAt := none, slot := none
             ambDue := false }

/-- Start-up stage 9 is complete once every enabled port is in RUN or FAILED (R446). -/
def State.showBringUp (s : State) : State :=
  s.onlyIf (s.stageIs 6 && (List.range 32).all fun t =>
    !s.is (Fd.LNK_TILE_CTL_EN t) || s.portState t == ptRUN || s.portState t == ptFAILED) (State.stageDone 9)

/-- The port enters FAILED (R198); one that is OFF leaves that only when EN goes from 0 to 1. -/
def State.portFailed (t : Nat) (s : State) : State :=
  if s.portState t = ptOFF ∨ s.portState t = ptFAILED then s else ((s.set (Fd.LNK_TILE_STAT_STATE t) ptFAILED |>.set (Fd.LNK_TILE_STAT_TILE_FAIL t) 1).tileRecord t 0x87 1 false).showBringUp

/-- The port relinks (R198): an attempt in progress has failed, and the third in a row puts the port in FAILED. -/
def State.relink (t : Nat) (s : State) : State :=
  let st := s.portState t
  if st = ptOFF ∨ st = ptFAILED then s
  else if st = ptRUN then s.enterLanes t
  else
    let s1 := s.port' t fun p => { p with attempts := p.attempts + 1 }
    if 3 ≤ (s1.port t).attempts then s1.portFailed t else s1.enterLanes t

/-- The port enters RUN (R198). -/
def State.enterRun (t : Nat) (s : State) : State :=
  ((s.set (Fd.LNK_TILE_STAT_STATE t) ptRUN).port' t fun p => { p with attempts := 0, runAt := none, slot := none }).showBringUp

/-- The port enters PHASE and measures afresh (R191, R198, R216). -/
def State.enterPhase (t : Nat) (s : State) : State :=
  (s.set (Fd.LNK_TILE_STAT_STATE t) ptPHASE |>.set (Fd.LNK_TILE_STAT_PHASE_OK t) 0).port' t fun p =>
    { p with phase := {}, jump := none, phFails := 0, phAt := none, runAt := none, ofsNext := [], slot := none }

/-- Every enabled lane of the tile that has not failed is locked, and there is one. -/
def State.lanesUp (t : Nat) (s : State) : Bool :=
  let ls := s.rxLanes t
  !ls.isEmpty && ls.all fun k => s.laneSt k == lnLOCKED

/-- The port goes on to BOND from LANES, and from GEN once the switch has come, when its lanes are locked (R186, R198). DEDUCED (log 43). -/
def State.tryBond (t : Nat) (s : State) : State :=
  let st := s.portState t
  if (st = ptLANES ∨ st = ptGEN ∧ (s.port t).tsw.isNone) ∧ s.lanesUp t then
    (s.set (Fd.LNK_TILE_STAT_STATE t) ptBOND |>.set (Fd.LNK_TILE_STAT_UP_ACTIVE t) 0 |>.set (Fd.LNK_TILE_STAT_DN_ACTIVE t) 0).port' t
      fun p => { p with amSeq := none, amSeen := 0, amActive := 0, amLane := 4, amDone := true, upExcl := 0 }
  else s

/-- A lane has locked (R186, R198): its retrains count no more, and it may be the clock lane again (R204). DEDUCED (log 43). -/
def State.laneLocked (l : Nat) (s : State) : State :=
  let t := l / 4
  ((s.set (Fd.LNK_LANE_STAT_RETRIES l) 0).port' t fun p => { p with clkOut := p.clkOut &&& (0xF ^^^ 2 ^ (l % 4)) }).tryBond t

/-- A transmitter sends 8 SLEEP_ANN blocks and enters electrical idle (R187). DESIGN CHOICE (log 91). -/
def State.txSleep (l : Nat) (s : State) : State :=
  ((s.txBlocks l (List.replicate 8 (2, sleepAnnPayload))).set (Fd.LNK_LANE_STAT_TX_IDLE l) 1 |>.emit (.txIdle l true)).lane' l
    fun x => { x with idleFrom := some s.tick }

/-- The transmitter has been in electrical idle for at least 2 µs (R187). -/
def State.txRested (l : Nat) (s : State) : Bool :=
  match (s.lane l).idleFrom with
  | some t => decide ((256000 : Int) ≤ ahead t s.tick)
  | none => true

/-- A transmitter leaves electrical idle with its preamble (R189); after the clock lane's wake the tile's phase is measured afresh (R191). -/
def State.txWake (l : Nat) (s : State) : State :=
  let s1 := ((s.set (Fd.LNK_LANE_STAT_TX_IDLE l) 0 |>.emit (.txIdle l false)).lane' l fun x => { x with idleFrom := none }).preamble l
    (s.lane l).enable
  let st := s.portState (l / 4)
  if s.clockLane (l / 4) = some l ∧ (st = ptRUN ∨ st = ptPHASE) then s1.enterPhase (l / 4) else s1

/-- The lane islands leave reset (R442, R447): every port that is held with EN enters LANES, its downstream lanes with the enable preamble
(R189). -/
def State.releaseLanes (s : State) : State :=
  s.each (List.range 32) fun t s =>
    if s.is (Fd.LNK_TILE_CTL_EN t) then
      ((s.port' t fun p => { p with attempts := 0 }).enterLanes t).each (tileLanes t) fun l s =>
        s.onlyIf (s.is (Fd.LNK_LANE_CTL_TX_EN l)) fun s => (s.lane' l fun x => { x with enable := true }).txWake l
    else s

/-- A rail is good: its interfaces leave reset (R447). -/
def State.railUp (rail : Rail) (s : State) : State :=
  match rail with
  | .core => s
  | .lane => if s.chip.railLane then s else ((s.chip' fun c => { c with railLane := true }).onlyIf (s.chip.hush != 4) State.releaseLanes)
  | .pcie => s.chip' fun c => { c with railPcie := true }
  | .mem => s.chip' fun c => { c with railMem := true }
  | .io => s.chip' fun c => { c with railIo := true }

/-- A result of housekeeping input 24 to 35 reads its supply within its operating range (R480, R482), in units of 10 nV. -/
def railGood (input result : Nat) : Bool :=
  let high := decide (input = 33 ∨ input = 34 ∨ input < 32 ∧ input % 2 = 1)
  let v := result * 29297 * (if high || input == 35 then 2 else 1)
  if input = 35 then decide (171000000 ≤ v ∧ v ≤ 189000000)
  else if high then decide (116400000 ≤ v ∧ v ≤ 123600000)
  else decide (87300000 ≤ v ∧ v ≤ 92700000)

/-- A supply monitor's result: a rail whose monitors all read good is good (R447, R482). -/
def State.railRead (input result : Nat) (s : State) : State :=
  if input < 24 ∨ 35 < input then s
  else
    let seen := if railGood input result then s.chip.railSeen ||| 2 ^ input else s.chip.railSeen &&& (2 ^ 36 - 1 - 2 ^ input)
    let all (lo n : Nat) : Bool := (List.range n).all fun k => seen.testBit (lo + k)
    ((((s.chip' fun c => { c with railSeen := seen }).onlyIf (all 24 8) (State.railUp .lane)).onlyIf (all 32 2) (State.railUp .pcie)).onlyIf
      (all 34 1) (State.railUp .mem)).onlyIf (all 35 1) (State.railUp .io) |>.showIslands

/-- Every upstream lane of a tile is in electrical idle (R174). -/
def State.tileQuiet (t : Nat) (s : State) : Bool := (tileLanes t).all fun l => (s.lane l).squelch

/-- A clock lane that is asleep wakes while an upstream lane of its tile is out of electrical idle (R174); one that has not rested for
2 µs wakes later, by TX_WAKE. -/
def State.keepClock (t : Nat) (s : State) : State :=
  match s.clockLane t with
  | some l => s.onlyIf (s.is (Fd.LNK_LANE_STAT_TX_IDLE l) && !s.tileQuiet t && s.txRested l) (State.txWake l)
  | none => s

/-! ## SLEEP (R203, R204, R209) -/

/-- The port has a downstream bond that carries messages: it has passed BOND. -/
def State.bonded (t : Nat) (s : State) : Bool :=
  let st := s.portState t
  st == ptCAPS || st == ptPHASE || st == ptRUN

/-- The upstream lanes a tile is told to leave out: excluded from deskew, FAILED, in a test mode, or out of the bonds since they lost the
clock role (R194, R203, R204). -/
def State.exclMask (t : Nat) (s : State) : Nat :=
  (tileLanes t).foldl (fun m l =>
    if (s.port t).upExcl.testBit (l % 4) || (s.port t).dnOut.testBit (l % 4) || s.laneSt l == lnFAILED || s.testMode l then m + 2 ^ (l % 4) else m) 0

/-- Send SLEEP with an ALLOW set. -/
def State.sendSleep (t allow : Nat) (s : State) : State :=
  if s.bonded t then
    (s.sendTile t 0x87 (allow + 16 * s.exclMask t) []).port' t fun p => { p with allow := allow }
  else s

/-- SLEEP with the host's ALLOW. -/
def State.sleepNow (t : Nat) (s : State) : State := s.sendSleep t (s.get (Fd.LNK_TILE_SLEEP_ALLOW t))

/-- The clock lane's role ends (R204): the port relinks with the next lane, or fails when no lane is left; the lane it left rejoins the
bonds, downstream and upstream, at a later relink. DEDUCED (log 43). -/
def State.loseClock (l : Nat) (s : State) : State :=
  let t := l / 4
  let s1 := s.port' t fun p => { p with clkOut := p.clkOut ||| 2 ^ (l % 4) }
  if (s1.clockLane t).isNone then s1.portFailed t
  else ((s1.relink t).port' t fun p =>
    { p with dnOut := p.dnOut ||| 2 ^ (l % 4), upExcl := p.upExcl ||| 2 ^ (l % 4) }).keepClock t

/-- A lane enters FAILED (R186): the block goes on with the tile's other lanes. -/
def State.laneFailed (l : Nat) (s : State) : State :=
  let t := l / 4
  let clock := s.clockLane t == some l
  let s1 := ((s.leaveLock l).setLane l lnFAILED |>.set (Fd.LNK_LANE_STAT_LANE_FAIL l) 1).err
    { level := 1, region := laneRgn l, block := 1, code := laneRgn l * 256 + 0x82, action := 4, cell := l, count := 3 }
  if clock then s1.loseClock l else (s1.sleepNow t).tryBond t

end Sys2Proof.Machine
end

