-- ==== Sys2Proof/Machine/MgmtOps.lean ====
section
/-!
DEFINITION. What firmware handover, revert and the performance points share (R398, R436, R459, R461): the boundary, the boot
record, the decision to revert.
-/
namespace Sys2Proof.Machine

/-- The boundary for a change decided at `from`: the next frame start of an easel queued at least 4 µs ahead; once FWAIT has
passed the next LINE of any easel; with no line queued, at once (R436, R459). DEDUCED (log 21, 78). -/
def State.boundary (eng : Nat) (start : Wide) (any : Bool) (s : State) : Option Wide :=
  let lines := s.scan.lines.filter fun l => !l.started
  match lines.find? fun l => (any || (l.easel == eng && l.isFrame)) && decide ((512000 : Int) ≤ ahead start l.start) with
  | some l => some l.start
  | none => if lines.isEmpty then some s.tick else none

/-- The running slot and the other one. -/
def State.fwSlot (s : State) : Nat := s.get Fd.MGMT_FW_STAT_SLOT
def State.otherSlot (s : State) : Nat := 1 - s.fwSlot
def State.slotOf (n : Nat) (s : State) : FwSlot := if n = 0 then s.mgmt.slotA else s.mgmt.slotB
def State.setSlot (n : Nat) (x : FwSlot) (s : State) : State :=
  s.mgmt' fun m => if n = 0 then { m with slotA := x } else { m with slotB := x }

/-- The boot record is written into its older copy (R398). -/
def State.writeBoot (f : BootRec → BootRec) (s : State) : State :=
  s.mgmt' fun m => { m with bootOld := m.bootRec, bootRec := { f m.bootRec with seq := m.bootRec.seq + 1 } }

/-- A handover is decided; it waits for its tick H (R459). -/
def State.awaitHand (slot eng : Nat) (back : Bool) (s : State) : State :=
  s.mgmt' fun m => { m with hand := 1, handEng := eng, handAt := s.tick, handAny := false, handTo := slot, handBack := back }

/-- The image on trial is to be reverted (R461): the health window ends, PREF returns to the old slot with TRIAL clear. DEDUCED (log 72). -/
def State.decideRevert (s : State) : State :=
  if s.is Fd.MGMT_FW_STAT_TRIAL && s.mgmt.hand == 0 then
    (((s.set Fd.MGMT_FW_STAT_TRIAL 0 |>.set Fd.MGMT_FW_STAT_LEFT 0).mgmt' fun m => { m with healthEnd := none }).writeBoot
      fun b => { b with pref := s.otherSlot, trial := false, tried := false }).awaitHand s.otherSlot s.mgmt.handEng true
  else s

end Sys2Proof.Machine
end

