-- ==== Sys2Proof/Machine/Restart.lean ====
section
/-!
DEFINITION. Region restarts and chip faults (R18, R21, R455 to R457): what a restart discards, and how a fault enters
chip level.
-/
namespace Sys2Proof.Machine

/-- Region r begins or ends its restart. -/
def State.setRestarting (r : Nat) (b : Bool) (s : State) : State :=
  s.setBit (Fd.CHIP_RESTARTING_MASK.bit r) b |>.setBit (Fd.RGN_STAT_RESTARTING r) b

/-- A region that can restart alone (R17). -/
def restartsAlone (r : Nat) : Bool := r != 0 && r != 1 && decide (r < 18)

/-! ## Chip level (R457) -/

/-- A fault enters chip level: it is shown, recorded once with the attempts of the lower levels (R19), and signalled to SAFE with
cause CHIP. -/
def State.chipFaultAs (code attempts r : Nat) (s : State) : State :=
  (((s.set Fd.CHIP_ERR_STAT_CHIP_FAULT 1 |>.set Fd.CHIP_ERR_STAT_FREGION r).chip' fun c =>
    { c with faultOpen := true, okFrom := none, clearedAt := none, faultCmd := false }).err
    { level := 3, region := r, block := 0, code := code, action := 6, count := attempts }).cause 10

/-- CHIP_FAULT: a fault that arises in CHIP, or that its region cannot contain. -/
def State.chipFault (attempts r : Nat) (s : State) : State := s.chipFaultAs 0x0016 attempts r

/-! ## What a restart discards (R455 step 3, R456) -/

/-- All 32 channels of a sector. -/
def allChans : Nat := 2 ^ 32 - 1

/-- Lines in hand carry DEGRADED: their output passes through a restarting region (R21). -/
def State.degradeLines (p : LineRec → Bool) (s : State) : State :=
  s.scan' fun c => { c with lines := c.lines.map fun l => if p l then { l with degraded := true } else l }

/-- The accumulating banks of a region's sectors are marked DEGRADED, and emptied where the stalls restart (R236). -/
def State.degradeBanks (n : Nat) (empty : Bool) (s : State) : State :=
  s.hst' fun h => { h with acc := (List.range 8).foldl (fun m k =>
    let b := rd (fun _ => ({} : Bank)) m (8 * n + k)
    ins m (8 * n + k) { b with deg := allChans, bins := if empty then [] else b.bins, zbins := (if empty then [] else b.zbins),
                                  kept := if empty then [] else b.kept }) h.acc }

/-- Channels of a bank that has stopped and whose echoes have not been delivered. -/
def ReadBank.undelivered (x : ReadBank) : List Nat :=
  (List.range 32).filter fun k => (look x.chans k).isNone && !x.lost.testBit k

/-- The histograms not yet delivered are lost. -/
def ReadBank.lose (x : ReadBank) : ReadBank :=
  { x with lost := x.undelivered.foldl (fun m k => m ||| 2 ^ k) x.lost }

/-- PAL_BUSY: the palettes that banks of region n hold from their swap tick to the end of their read-out (R255). -/
def State.showPalettes (n : Nat) (s : State) : State :=
  let busy (q : Nat) : Nat :=
    if s.hst.reads.any fun x => x.sector / 8 == n && x.pal == q && !x.undelivered.isEmpty then 2 ^ q else 0
  s.set (Fd.HST_FLT_STAT_PAL_BUSY n) (busy 0 + busy 1)

/-- A unit loses points because OUTP restarts; its first loss is counted (R22). DESIGN CHOICE (log 95). -/
def State.unitLoses (p : OutUnit → Bool) (s : State) : State :=
  let hit (u : OutUnit) : Bool := p u && !u.lost
  (s.count 12 Src.OUTP_LINE_DROP 0 (s.outp.units.filter hit).length).outp' fun o =>
    { o with units := o.units.map fun u => if hit u then { u with lost := true } else u }

/-- HST restarts: the histograms being read are lost and counted, and so are the events that wait for a stop, as BANK_LATE; the banks and buffers are empty. DEDUCED (log 81). -/
def State.discardHst (n : Nat) (s : State) : State :=
  let mine (x : ReadBank) : Bool := x.sector / 8 == n
  let s1 := s.each (s.hst.reads.filter mine) fun x s =>
    s.count (8 + n) Src.HST_RO_OVERRUN (x.sector % 8) x.undelivered.length
  let s2 := s1.each (s.hst.wait.filter fun e => e.chan / 256 == n) fun e s => s.count (8 + n) Src.HST_BANK_LATE (e.chan / 32 % 8) 1
  ((s2.hst' fun h => { h with reads := h.reads.map fun x => if mine x then x.lose else x
                              wait := h.wait.filter fun e => e.chan / 256 ≠ n
                              cmb := h.cmb.filter fun e => e.1 / 256 ≠ n
                              zcmb := h.zcmb.filter fun e => e.1 / 16 ≠ n }).degradeBanks n true).showPalettes n

/-- OUTP restarts: what has been delivered and not classified is lost; units in hand keep no points; the memory of the
previous lines is gone. DESIGN CHOICE (log 95). -/
def State.discardOutp (s0 : State) : State :=
  let held (u : OutUnit) : Bool := !u.points.isEmpty
    || s0.hst.reads.any fun x => x.line == u.line && x.stop == u.stop && !x.chans.isEmpty
  let s := s0.unitLoses held
  (((s.hst' fun h => { h with reads := h.reads.map fun x => { x with chans := [], lost := allChans } }).outp' fun o =>
    { o with units := o.units.map (fun u => { u with points := [] }), prev := [], hex := [] }).degradeLines fun l => l.started).each
      [0, 1, 2, 3] State.showPalettes

/-- LNK restarts: every port that is not OFF enters LANES, a FAILED one as after a relink (R72, R455); the tiles' events are lost. -/
def State.discardLnk (n : Nat) (s : State) : State :=
  (s.each ((List.range 8).map (8 * n + ·)) fun t s =>
    if s.portState t = ptOFF then s else (s.port' t fun p => { p with attempts := 0 }).enterLanes t).degradeBanks n false

/-- SCAN restarts: the easels that run are halted until step 5; nothing is admitted meanwhile (R456). -/
def State.discardScan (s : State) : State :=
  let run := easelList.filter fun e => !s.isHalted e
  (s.each run State.halt).chip' fun c => { c with scanRun := run.foldl (fun m e => m ||| 2 ^ e) 0 }

/-- EMIT restarts: the lines under way are DEGRADED; the frame under way, the pause and the diagnosis armed are dropped. DEDUCED (log 39). -/
def State.discardEmit (s : State) : State :=
  (s.emit' fun x => { x with ewFrame := none, arm := none, paused := false, hmin := none }).degradeLines fun l =>
    l.started && !l.ended

/-- The lines being stacked are left unstacked. -/
def State.dropJobs (s : State) : State :=
  let seqs := s.memc.jobs.map StkJob.line
  (((s.set Fd.MEMC_STK_STAT_BUSY 0).memc' fun m => { m with jobs := [] }).hst' fun h =>
      { h with reads := h.reads.map fun x => if seqs.contains x.line then { x with stack := false } else x }).scan' fun c =>
    { c with lines := c.lines.map fun l => if seqs.contains l.seq then { l with stk := 2 } else l }

/-- MEMC restarts: a capture ends and is lost, lines being stacked are left unstacked (R341). -/
def State.discardMemc (s : State) : State :=
  let s1 := s.onlyIf (s.get Fd.MEMC_CAP_STAT_STATE != 0) (State.err
    { level := 2, region := 14, block := 3, code := 0x0E85, action := 5 })
  let seqs := s.memc.jobs.map StkJob.line
  ((s1.set Fd.MEMC_CAP_STAT_STATE 0 |>.set Fd.MEMC_CAP_STAT_QUEUED 0 |>.set Fd.MEMC_SYNC_STAT_SEND_PEND 0).memc' fun m =>
    { m with segs := [], capQ := [], fifo := [], pulseEnd := none, deferred := none }).dropJobs.scan' fun c =>
    { c with lines := c.lines.map fun l => if seqs.contains l.seq then { l with degraded := true } else l }

/-- The region whose tap a capture records (R333). -/
def State.capRegion (s : State) : Option Nat :=
  match s.capGet Fd.MEMC_CAP_SRC_STREAM with
  | 1 => some (4 + s.capGet Fd.MEMC_CAP_SRC_TILE / 8)
  | 2 => some (8 + s.capGet Fd.MEMC_CAP_SRC_SECT / 8)
  | 3 | 4 => some 15
  | 5 => some (4 + s.capGet Fd.MEMC_CAP_SRC_LANE / 32)
  | _ => none

/-- A restart of the source region loses samples of a running capture (R333). -/
def State.capGapFrom (r : Nat) (s : State) : State := s.onlyIf (s.capRuns && s.capRegion == some r) State.capGap

/-- MONI restarts: conversions under way and requests are dropped, every slow chain settles afresh. -/
def State.discardMoni (s : State) : State :=
  let s1 := s.moni' fun m =>
    { m with hk := [], busy := [], hkWait := [], hkLate := false, syncs := []
             chains := (List.range 20).map fun k =>
               (k, { (rd (fun _ => ({} : MoniChain)) m.chains k) with settle := s.tick, after := 0, good := 0 }) }
  (s1.each (List.range 16) fun m s => s.set (Fd.MONI_IN_LAST_UNSET m) 1 |>.set (Fd.MONI_IN_STAT_SETTLING m) 1)
    |>.each (List.range 4) (fun k s => s.set (Fd.MONI_SNS_LAST_UNSET k) 1)
    |>.set Fd.MONI_SYNC_GO 0 |>.set Fd.MONI_HK_STAT_RUNNING 0 |>.set (Fd.MONI_HK_REQ_BUSY 0) 0 |>.set (Fd.MONI_HK_REQ_BUSY 1) 0

/-- MGMT restarts: the records in the FIFO are lost, with MGMT's interrupt (R454); the command in progress is answered RESTARTED (R55). DEDUCED (log 81). -/
def State.discardMgmt (s : State) : State :=
  let n := s.io.fifo.length
  let s1 := s.io' fun x => { x with fifo := [] }
  let s2 := ((s1.bumpSat Fd.MGMT_LOG_LOST_COUNT n).count 16 Src.MGMT_LOG_LOST 0 n).onlyIf (n != 0) (State.regionIrq 16)
  s2.mgmt' fun m =>
    { m with orphan := none, load := none
             reply := if s.mbxBusy then some (m.reply.getD { status := stRESTARTED }) else none }

/-- What the logic of region r holds at a restart is discarded. DEDUCED (log 81). -/
def State.discard (r : Nat) (s : State) : State :=
  match r with
  | 2 => s.discardScan
  | 3 => s.discardEmit
  | 4 | 5 | 6 | 7 => s.discardLnk (r - 4)
  | 8 | 9 | 10 | 11 => s.discardHst (r - 8)
  | 12 => s.discardOutp
  | 13 => (s.resetHost.bump Fd.HOST_LINK_DOWNS_COUNT 1).err { level := 2, region := 13, block := 1, code := 0x0D84 }
      |>.count 13 Src.HOST_LINK_DOWNS 0 1
  | 14 => s.discardMemc
  | 15 => s.discardMoni
  | 16 => s.discardMgmt
  | _ => s

/-! ## The start of a restart -/

/-- Restarts of region r that began within the last second. -/
def State.recentRestarts (r : Nat) (s : State) : Nat :=
  (s.chip.restarts.filter fun e => e.1 == r && decide (ahead e.2 s.tick ≤ ticksPerS)).length

/-- Region r begins to restart (R455 steps 1 to 3) after `attempts` of the lower levels, which its record will carry (R19); the third
start within 1 s passes the fault to chip level (R21).  A restart of MGMT during a trial reverts the image (R461). DEDUCED (log 81). -/
def State.startRestart (attempts r : Nat) (s : State) : State :=
  if !restartsAlone r || s.restarting r then s
  else
    let n := s.recentRestarts r
    let s0 := if r = 16 then s.decideRevert else s
    let s1 := (((s0.discard r).capGapFrom r).setRestarting r true |>.count 0 Src.CHIP_REGION_RESTARTS r 1).chip' fun c =>
      { c with restarts := (r, s.tick) :: c.restarts.filter (fun e => decide (ahead e.2 s.tick ≤ ticksPerS))
               attempts := wr (fun _ => 0) c.attempts r attempts, bist := del c.bist r }
    if 2 ≤ n then s1.chipFault n r else s1

end Sys2Proof.Machine
end

