-- ==== Sys2Proof/Machine/TileLink.lean ====
section
/-!
DEFINITION. The tile link (R198 to R219): link states, bonding, messages, slot marks, ambient control, tile phase, tile
registers.
-/
namespace Sys2Proof.Machine

/-! ## Link states and generations (R198, R199) -/

/-- A port times out in LANES, BOND or CAPS. -/
def execLinkStateTimeout (t : Fin 32) (s : State) : Res :=
  let st := s.portState t
  ok (if (st = ptLANES ∨ st = ptBOND ∨ st = ptCAPS) ∧ !s.restarting (tileRgn t) then s.relink t else s)

/-- A RELINK write: ignored in OFF; a port in FAILED starts a new count. -/
def execRelink (t : Fin 32) (s : State) : Res :=
  s.writeRow (Fd.LNK_TILE_CTL_RELINK t).off fun s =>
  let s1 := s.set (Fd.LNK_TILE_CTL_RELINK t) 0
  let st := s.portState t
  if st = ptOFF then ok s1
  else if st = ptFAILED then ok ((s1.port' t fun p => { p with attempts := 0 }).enterLanes t)
  else ok (s1.relink t)

/-- GEN_SET with the target and a switch tick at least 20 µs ahead (R199); how much more is open, and so is the offset that converts it
before any has been measured: OFS as it stands. DESIGN CHOICE (log 42, 98). -/
def State.genSet (t target : Nat) (s : State) : State :=
  let (extra, s1) := s.drawNat (2 ^ 24)
  let x := s1.tick + BitVec.ofNat 64 (2560000 + extra)
  ((s1.sendTile t 0x88 target [s1.tileTime t x]).set (Fd.LNK_TILE_STAT_STATE t) ptGEN).port' t fun p =>
    { p with target := target, tsw := some x }

/-- At T_sw every lane sleeps, to wake at the new rate: its equalisers from their start values (R185), its loop from the values held (R183,
R199). -/
def execGenSwitch (t : Fin 32) (s : State) : Res :=
  match (s.port t).tsw with
  | some x =>
    if s.portState t = ptGEN ∧ s.timely x then
      let g := (s.port t).target
      let s1 := (s.reach x).each (tileLanes t) fun l s => s.onlyIf (s.is (Fd.LNK_LANE_CTL_TX_EN l)) fun s =>
        ((s.onlyIf (!s.is (Fd.LNK_LANE_STAT_TX_IDLE l)) (State.txSleep l)).lane' l fun y => { y with enable := true })
      let s2 := (s1.each (s.rxLanes t) fun l s =>
        let s1 := s.startValues l
        if s.laneSt l = lnLOCKED then (((s1.leaveLock l).setLane l lnIDLE).lane' l fun y => { y with ann := false }).setFrozen l true else s1).setGen t g
      ok ((s2.set (Fd.LNK_TILE_STAT_GEN t) g).port' t fun p => { p with tsw := none })
    else ok s
  | none => ok s

/-- GEN has not reached BOND within 2 ms: one generation lower is tried, and holds until the next relink; a failure at KL1 is a failed
relink (R199). -/
def execGenFallback (t : Fin 32) (s : State) : Res :=
  if s.portState t = ptGEN then
    let s1 := (s.set (Fd.LNK_TILE_STAT_GEN_FALLBACK t) 1).tileRecord t 0x88 1 true
    let g := (s.port t).target
    ok (if g ≤ 1 then s1.relink t else (s1.port' t fun p => { p with genCap := g - 1 }).genSet t (g - 1))
  else ok s

/-! ## Alignment (R201 to R204) -/

/-- The BIDX of a lane (R202). -/
def State.bidxOf (l : Nat) (s : State) : Nat := rd (fun k => k % 4) (s.port (l / 4)).bidx (l % 4)

/-- An upstream lane is excluded from deskew: counted, recorded, and the tile told (R203). DEDUCED (log 41). -/
def State.excludeLane (l : Nat) (s : State) : State :=
  let t := l / 4
  let s1 := (s.countTile t Src.LNK_DESKEW 1).laneRecord l 0x86
  (s1.port' t fun p => { p with upExcl := p.upExcl ||| 2 ^ (l % 4) }).sleepNow t

/-- The lanes that a mask by BIDX names. -/
def State.namedLanes (t mask : Nat) (s : State) : List Nat := (tileLanes t).filter fun l => mask.testBit (s.bidxOf l)

/-- The lanes the previous AM named, not excluded, whose AM of this period has not arrived. -/
def State.amMissing (t : Nat) (s : State) : List Nat :=
  let p := s.port t
  (s.namedLanes t (s.get (Fd.LNK_TILE_STAT_UP_ACTIVE t))).filter fun l => !p.amSeen.testBit (s.bidxOf l) && !p.upExcl.testBit (l % 4)

/-- A lane is deskewed again: it is no longer excluded. -/
def State.includeLane (l : Nat) (s : State) : State :=
  let t := l / 4
  if (s.port t).upExcl.testBit (l % 4) && !(s.port t).dnOut.testBit (l % 4) then
    (s.port' t fun p => { p with upExcl := p.upExcl &&& (0xF ^^^ 2 ^ (l % 4)) }).sleepNow t
  else s

/-- Both directions are deskewed on a lane, and the port goes on to CAPS (R198): upstream a period has been released with a lane in it,
downstream an AM has gone out with a lane in ACTIVE that the tile does not report in DN_EXCL.  The tile is then told of the lanes it must
leave out (R203). DEDUCED (log 43). -/
def State.tryCaps (t : Nat) (s : State) : State :=
  let p := s.port t
  let up := (s.namedLanes t (s.get (Fd.LNK_TILE_STAT_UP_ACTIVE t))).any fun l => !p.upExcl.testBit (l % 4)
  let dn := (s.get (Fd.LNK_TILE_STAT_DN_ACTIVE t)) &&& (0xF ^^^ p.dnExcl) != 0
  if s.portState t = ptBOND ∧ p.amDone ∧ p.amSeq.isSome ∧ up ∧ dn then
    let s1 := s.set (Fd.LNK_TILE_STAT_STATE t) ptCAPS
    s1.onlyIf (s1.exclMask t != 0) (State.sleepNow t)
  else s

/-- The period is released once the AM has arrived on every named lane: its ACTIVE comes into force, and the blocks of an excluded lane
that it names are missing; a port in BOND may go on to CAPS; an empty ACTIVE relinks unless the tile has been allowed to sleep whole
(R198, R203, R204). -/
def State.amRelease (t : Nat) (s : State) : State :=
  let p := s.port t
  if p.amDone || !(s.amMissing t).isEmpty then s
  else
    let s1 := (s.set (Fd.LNK_TILE_STAT_UP_ACTIVE t) p.amActive).port' t fun p => { p with amDone := true }
    let lost := ((s1.namedLanes t p.amActive).filter fun l => p.upExcl.testBit (l % 4)).length
    let all := ((tileLanes t).filter fun l => s.is (Fd.LNK_LANE_CTL_RX_EN l)).foldl (fun m l => m + 2 ^ (l % 4)) 0
    if p.amActive = 0 then (if p.allow &&& all = all then s1 else s1.relink t)
    else (s1.countTile t Src.LNK_EV_BLK_LOST (16383 * lost)).tryCaps t

/-- A lane that the previous AM named carries another AMSEQ, or is late: it is excluded; when no named lane is left, the next AM sets the
sequence afresh (R203). DEDUCED (log 41). -/
def State.amOdd (l : Nat) (s : State) : State :=
  let t := l / 4
  if !(s.get (Fd.LNK_TILE_STAT_UP_ACTIVE t)).testBit (s.bidxOf l) then s
  else
    let s1 := (s.excludeLane l).amRelease t
    if (s1.namedLanes t (s1.get (Fd.LNK_TILE_STAT_UP_ACTIVE t))).all fun k => (s1.port t).upExcl.testBit (k % 4) then
      s1.port' t fun p => { p with amSeq := none }
    else s1

/-- An alignment marker of a lane (R202, R203): `late` is more than 64 blocks after the first of its period.  One that opens the next period
excludes the lanes whose AM is missing, and the period in hand is released without them. -/
def execAm (l : Fin 128) (bidx : BitVec 2) (active : BitVec 4) (amseq : Byte) (late : Bool) (s0 : State) : Res :=
  let t := l.toNat / 4
  let k := bidx.toNat
  if s0.laneSt l ≠ lnLOCKED || s0.testMode l then ok s0
  else
    let s := s0.port' t fun p => { p with bidx := wr (fun i => i % 4) p.bidx (l.val % 4) k }
    let p := s.port t
    let opens := match p.amSeq with
      | none => true
      | some n => amseq.toNat == (n + 1) % 256
    if opens then
      let s1 := (s.each (if p.amDone then [] else s.amMissing t) State.excludeLane).amRelease t
      if s1.laneSt l ≠ lnLOCKED then ok s1
      else
        let s2 := s1.port' t fun p =>
          { p with amSeq := some amseq.toNat, amSeen := 2 ^ k, amActive := active.toNat, amLane := k, amDone := false }
        ok ((s2.includeLane l).amRelease t)
    else if p.amSeq = some amseq.toNat ∧ !late then
      let s1 := s.onlyIf (p.amActive != active.toNat) fun s => s.countTile t Src.LNK_DESKEW 1
      let s2 := s1.port' t fun p =>
        { p with amSeen := p.amSeen ||| 2 ^ k, amActive := if k < p.amLane then active.toNat else p.amActive
                 amLane := min k p.amLane }
      ok ((s2.includeLane l).amRelease t)
    else ok (s.amOdd l)

/-- 16,384 blocks of a lane in ticks, rounded up. -/
def State.periodTicks (t : Nat) (s : State) : Wide :=
  BitVec.ofNat 64 ((16384 * blockPs (s.get (Fd.LNK_TILE_STAT_GEN t)) * 2000 + 15624) / 15625)

/-- The AM of the next period falls due 16,384 blocks after the last, and at once on a new bond (R201 to R204); a bond that has passed LANES
and has no lane left in ACTIVE relinks. -/
def execAlignmentMarkerSend (t : Fin 32) (s0 : State) : Res :=
  let st := s0.portState t
  let due := (s0.port t).dnAt.map (· + s0.periodTicks t)
  if st = ptOFF ∨ st = ptFAILED ∨ s0.restarting (tileRgn t) ∨ !(due.all s0.timely) then ok s0
  else
    let s := match due with
      | some x => s0.reach x
      | none => s0
    if s.awakeMask t = 0 then ok s
    else if s.nextActive t = 0 then ok (if st = ptLANES then s else s.relink t)
    else ok ((s.sendMarker t).tryCaps t)

/-! ## Upstream messages (R206 to R208) -/

/-- The port has an upstream bond that carries messages: from BOND on. -/
def State.hears (t : Nat) (s : State) : Bool :=
  let st := s.portState t
  st != ptOFF && st != ptLANES && st != ptFAILED

/-- The message arrived whole (R207): the blocks of its payload are as many as NBLK, at most 34, nothing is missing or stands between them,
and the CRC is that of its header and payload. -/
def intact (h : MsgHdr) (mtype hdata : Nat) (payload : List Wide) : Bool :=
  h.nblk.toNat == payload.length && decide (h.nblk.toNat ≤ 34) && !h.broken
    && h.crc == messageCrc mtype h.nblk.toNat h.mseq.toNat hdata payload

/-- The MTYPE of a header: a type of R208 there is the command's own. -/
def typeOf (h : MsgHdr) (own : Nat) : Nat := if 1 ≤ h.mtype.toNat ∧ h.mtype.toNat ≤ 5 then own else h.mtype.toNat

/-- What every upstream message passes (R207): a broken one is discarded and counted, and the next one's MSEQ counts it as missing too;
missing ones are counted; a type that is not defined, or not for the generation, is discarded. DEDUCED (log 43). DESIGN CHOICE (log 99). -/
def upMessage (t : Nat) (h : MsgHdr) (own hdata : Nat) (payload : List Wide) (minGen : Nat) (body : State → State) (s : State) : Res :=
  if !s.hears t then ok s
  else if !intact h (typeOf h own) hdata payload then ok (s.countTile t Src.LNK_MSG_CRC 1)
  else
    let gap := match (s.port t).rxSeq with
      | some n => (h.mseq.toNat + 511 - n) % 256
      | none => 0
    let s1 := (s.countTile t Src.LNK_MSG_GAP gap).port' t fun p => { p with rxSeq := some h.mseq.toNat }
    if typeOf h own != own || s.get (Fd.LNK_TILE_STAT_GEN t) < minGen then ok (s1.countTile t Src.LNK_FR_TYPE 1) else ok (body s1)

/-- The points of a tile's channels carry LOW_CONF on every line that an UNGATED report covers (R210): the line under way, and one that
ended no longer ago than the report may take, 2 µs. DEDUCED (log 43). -/
def State.lowLine (t : Nat) (s : State) : State :=
  s.scan' fun c => { c with lines := c.lines.map fun l =>
    if l.started && (!l.ended || decide (ahead l.finish s.tick ≤ 256000)) then { l with low := l.low ||| 2 ^ t } else l }

/-- The tiles whose last STATUS says UNGATED: a line that starts has LOW_CONF there (R210). DEDUCED (log 43). -/
def State.ungatedTiles (s : State) : Nat :=
  (List.range 32).foldl (fun m t => if (s.get (Fd.LNK_TILE_STATUS_LO_STATUS t)).testBit 26 && s.portRun t then m + 2 ^ t else m) 0

/-- STATUS (R203, R204, R208, R210). -/
def State.takeStatus (t : Nat) (w : Wide) (s : State) : State :=
  let v := w.toNat
  let excl := v / 2 ^ 28 % 16
  let s1 := (s.set (Fd.LNK_TILE_STATUS_LO_STATUS t) (v % 2 ^ 32) |>.set (Fd.LNK_TILE_STATUS_HI_STATUS t) (v / 2 ^ 32)).port' t
    fun p => { p with dnExcl := excl }
  let s2 := s1.onlyIf (v.testBit 26) fun s => (s.set (Fd.LNK_TILE_STAT_UNGATED t) 1).lowLine t
  match s2.clockLane t with
  | some l => if excl.testBit (l % 4) then s2.loseClock l else s2.tryCaps t
  | none => s2

def execStatus (t : Fin 32) (h : MsgHdr) (payload : Wide) (s : State) : Res :=
  upMessage t h 1 0 [payload] 1 (State.takeStatus t payload) s

/-- A valid CAPS (R208). -/
def validCaps (v : Nat) : Bool :=
  decide (1 ≤ v % 4) && decide (1 ≤ v / 4 % 8 ∧ v / 4 % 8 ≤ 4) && v / 256 % 256 == 1

/-- CAPS (R198, R199, R208): kept; a changed serial number in RUN is recorded; in CAPS it fixes the target. -/
def State.takeCaps (t : Nat) (w : Wide) (s : State) : State :=
  let v := w.toNat
  let old := rd (fun _ => 0) s.secu.serials t
  let s1 := (s.set (Fd.LNK_TILE_CAPS_LO_CAPS t) (v % 2 ^ 32) |>.set (Fd.LNK_TILE_CAPS_HI_CAPS t) (v / 2 ^ 32)).secu' fun u =>
    { u with serials := wr (fun _ => 0) u.serials t (v / 2 ^ 16) }
  if s.portRun t then (if v / 2 ^ 16 ≠ old then s1.tileRecord t 0x89 1 false else s1)
  else if s.portState t = ptCAPS ∧ validCaps v then
    let target := min (s.port t).genCap (min (s.get (Fd.LNK_TILE_CTL_GENMAX t)) (v % 4))
    if s.get (Fd.LNK_TILE_STAT_GEN t) < target then s1.genSet t target else s1.enterPhase t
  else s1

def execCaps (t : Fin 32) (h : MsgHdr) (payload : Wide) (s : State) : Res :=
  upMessage t h 5 0 [payload] 1 (State.takeCaps t payload) s

/-! ## Ambient control (R215) -/

/-- Depth − 1 of channel c of a tile. -/
def depthField (t c : Nat) : Field := ⟨(Fd.LNK_TILE_DEPTH_DEPTH t (c / 8)).off, 4 * (c % 8) + 3, 4 * (c % 8)⟩

/-- The depth after a line's count. -/
def newDepth (hi lo dmax d count : Nat) : Nat :=
  if hi < count ∧ d < dmax then d + 1 else if count < lo ∧ 1 < d then d - 1 else d

/-- The ended line that an AMBIENT is of (R208, R215): the one its LINE_SELECT count names, within 4 µs of its end, and not yet taken. -/
def State.ambientLine (t hdata : Nat) (s : State) : Option LineRec :=
  s.scan.lines.find? fun l =>
    (match look l.selects t with
      | some n => n % 65536 == hdata
      | none => false)
      && l.started && (l.ended || !before s.tick l.finish) && decide (ahead l.finish s.tick ≤ 512000) && !l.ambient.testBit t

/-- Update every channel's depth once for the line, and send the depths when any has changed. -/
def State.takeAmbient (t hdata : Nat) (counts : List (BitVec 16)) (s : State) : State :=
  match s.ambientLine t hdata with
  | none => s
  | some l =>
    if !s.is (Fd.LNK_TILE_CTL_AMB_EN t) then s
    else
      let (_, s1) := counts.foldl (fun (x : Nat × State) n =>
        let d := x.2.get (depthField t x.1) + 1
        (x.1 + 1, x.2.set (depthField t x.1) (newDepth (s.get (Fd.LNK_TILE_AMB_AMB_HI t)) (s.get (Fd.LNK_TILE_AMB_AMB_LO t))
          (s.get (Fd.LNK_TILE_AMB2_DMAX t)) d n.toNat - 1))) (0, s)
      let s2 := s1.scan' fun c =>
        { c with lines := c.lines.map fun k => if k.seq = l.seq then { k with ambient := k.ambient ||| 2 ^ t } else k }
      if s1.depthBlocks t = s.depthBlocks t then s2
      else (s2.port' t fun p => { p with ambDue := true }).ambientDue t

/-- Four 16-bit counts to a block (R208). -/
def countBlocks : List (BitVec 16) → List Wide
  | a :: b :: c :: d :: l => (d ++ c ++ b ++ a : BitVec 64) :: countBlocks l
  | _ => []

def execAmbient (t : Fin 32) (h : MsgHdr) (hdata : BitVec 16) (counts : List (BitVec 16)) (s : State) : Res :=
  if counts.length ≠ 32 then .fault .illFormed
  else upMessage t h 2 hdata.toNat (countBlocks counts) 2 (State.takeAmbient t hdata.toNat counts) s

/-! ## Tile phase (R216 to R218) -/

/-- A measurement is due (R216): the first since the port entered PHASE, 1 ms after the start of the last, or when the die temperature, in
1/16 K, has moved by more than CAL_DT since the last adopted one. -/
def State.phaseDue (t : Nat) (temp : Int) (s : State) : Bool :=
  let p := s.port t
  (match p.phAt with
    | some x => decide ((128000000 : Int) ≤ ahead x s.tick)
    | none => true)
    || (match p.phTemp with
      | some y => decide ((s.mgmt.calDt : Int) < (temp - y).natAbs)
      | none => false)

/-- A measurement starts in PHASE or RUN, unless one is under way (R216). DEDUCED (log 45). -/
def execPhaseMeasure (t : Fin 32) (temp : BitVec 12) (s : State) : Res :=
  let st := s.portState t
  if (st = ptPHASE ∨ st = ptRUN) ∧ !(s.port t).phase.busy ∧ (s.port t).runAt.isNone ∧ s.phaseDue t temp.toInt then
    ok (s.port' t fun p => { p with phase := { busy := true, temp := temp.toInt }, phAt := some s.tick })
  else ok s

/-- The device sends the EPOCH of the next exchange in a slot of the clock lane, taking t1 (R201, R216). -/
def execPhaseExchange (t : Fin 32) (t1 : BitVec 68) (s : State) : Res :=
  let p := s.port t
  if p.phase.busy && decide (p.phase.sent < 16) then
    let s1 := match s.clockLane t with
      | some l => s.txSlotOn t l (2, epochPayload p.beacon)
      | none => s
    ok ((s1.emit (.epoch t p.beacon)).port' t fun p =>
      { p with beacon := (p.beacon + 1) % 256
               phase := { p.phase with sent := p.phase.sent + 1, wait := p.phase.wait ++ [(p.beacon, (t1.toNat : Int))] } })
  else ok s

/-- A number congruent to x modulo m that is nearest to a value (R212). -/
def nearest (x m near : Int) : Int := near + ((x - near + m / 2) % m) - m / 2

/-- A tile time of 52 bits, in 1/16 tick, extended (R212): with a wrap count of 0 in the first measurement. -/
def State.extendTile (t : Nat) (x : BitVec 52) (at_ : Int) (s : State) : Int :=
  if (s.port t).fresh then x.toNat
  else nearest x.toNat (2 ^ 52) (at_ - (s.wideOf (tileRgn t) (0x0200 + t % 8)).toInt)

/-- 10 µs in 1/16 tick: an echo later than that after its beacon fails the exchange (R216). -/
def echoLimit : Int := 20480000

/-- An echo completes its exchange (R216): twice ofs(j), in 1/16 tick. -/
def State.takeEcho (t : Nat) (beacon : Byte) (t2 t3 : BitVec 52) (t4 : BitVec 68) (s : State) : State :=
  match (s.port t).phase.wait.find? fun w => w.1 = beacon.toNat with
  | none => s
  | some w =>
    let at_ : Int := t4.toNat
    let asym := signed 16 (s.get (Fd.LNK_TILE_ASYM_ASYM t))
    let ofs2 := (at_ - s.extendTile t t3 at_) - (s.extendTile t t2 at_ - w.2) - asym
    s.port' t fun p =>
      { p with phase := { p.phase with wait := p.phase.wait.erase w
                                       ofs2 := if at_ - w.2 ≤ echoLimit then p.phase.ofs2 ++ [ofs2] else p.phase.ofs2 } }

def execEpochEcho (t : Fin 32) (h : MsgHdr) (beacon : Byte) (t2 t3 : BitVec 52) (t4 : BitVec 68) (s : State) : Res :=
  upMessage t h 4 beacon.toNat [t2.zeroExtend 64, t3.zeroExtend 64] 1 (State.takeEcho t beacon t2 t3 t4) s

/-- The oldest exchange outstanding fails (R216). -/
def execEpochTimeout (t : Fin 32) (s : State) : Res :=
  ok (s.port' t fun p => { p with phase := { p.phase with wait := p.phase.wait.drop 1 } })

/-- The candidate of a measurement is adopted (R217, R218): at once in PHASE, after LANES with the initial AMBIENT_SET on
KL2 and KL3 (R215); in RUN at the next line that is at least 1 µs ahead. -/
def State.adopt (t : Nat) (cand temp : Int) (s0 : State) : State :=
  let v : Wide := BitVec.ofInt 64 cand
  let s := s0.port' t fun p => { p with phTemp := some temp }
  if s.portState t = ptPHASE then
    let s1 := ((s.setWide (tileRgn t) (0x0200 + t % 8) v).set (Fd.LNK_TILE_STAT_PHASE_OK t) 1).port' t fun p =>
      { p with fresh := false, jump := none, phFails := 0 }
    if s.get (Fd.LNK_TILE_STAT_GEN t) < 2 || !(s.port t).fresh then s1.enterRun t
    else
      let at_ := s1.tick + 128000
      let s2 := s1.each (List.range 4) fun q s => s.set (Fd.LNK_TILE_DEPTH_DEPTH t q) 0
      (s2.ambientSet t at_).port' t fun p => { p with runAt := some at_ }
  else
    let at_ := s.nextLine.map LineRec.start
    s.port' t fun p =>
      { p with jump := none, phFails := 0, ofsNext := (p.ofsNext.filter fun e => e.2 != none && e.2 != at_) ++ [(v, at_)] }

/-- A measurement has failed (R217): a candidate that waited for its confirmation is dropped, and its LOW_CONF ends. DESIGN CHOICE (log 99). -/
def State.phaseFailed (t : Nat) (s : State) : State :=
  let s1 := s.port' t fun p => { p with phFails := p.phFails + 1, jump := none }
  let n := (s1.port t).phFails
  let s2 := s1.onlyIf (decide (3 ≤ n)) (State.set (Fd.LNK_TILE_STAT_PHASE_STALE t) 1)
  if 100 ≤ n then s2.relink t else s2

/-- SPREAD, half the range of the measured offsets, rounded either way; free where nothing was measured (R217). DESIGN CHOICE (log 44). -/
def State.phaseSpread (l : List Int) (s : State) : Nat × State :=
  match l.max?, l.min? with
  | some a, some b => (min 0xFFFF (((a - b).toNat + (if s.drawBit.1 then 1 else 0)) / 2), s.drawBit.2)
  | _, _ => s.drawNat 65536

/-- A measurement ends after 16 exchanges (R217). DEDUCED (log 45). -/
def execPhaseCandidate (t : Fin 32) (s : State) : Res :=
  let ph := (s.port t).phase
  if !ph.busy || decide (ph.sent < 16) || !ph.wait.isEmpty then ok s
  else
    let n := ph.ofs2.length
    let x := s.phaseSpread ph.ofs2
    let s1 := (x.2.set (Fd.LNK_TILE_PHMEAS_GOOD t) n |>.bump (Fd.LNK_TILE_PHMEAS_MSEQ t) 1
      |>.set (Fd.LNK_TILE_PHMEAS_SPREAD t) x.1).port' t fun p => { p with phase := {} }
    if n < 12 then ok (s1.phaseFailed t)
    else
      let cand := roundHalfAway (ph.ofs2.foldl (· + ·) 0) (2 * n)
      let limit := s.get (Fd.LNK_TILE_OFSJ_OFSJ t)
      let near (x : Int) : Bool := decide ((cand - x).natAbs ≤ limit)
      if s.portState t = ptPHASE ∨ near (s.wideOf (tileRgn t) (0x0200 + t.toNat % 8)).toInt then ok (s1.adopt t cand ph.temp)
      else match (s.port t).jump with
        | some j => ok (if near j then s1.adopt t cand ph.temp else s1.port' t fun p => { p with jump := some cand, phFails := 0 })
        | none => ok (s1.port' t fun p => { p with jump := some cand, phFails := 0 })

/-- The port enters RUN at the tick its initial AMBIENT_SET named (R215). -/
def execTilePortRun (t : Fin 32) (s : State) : Res :=
  match (s.port t).runAt with
  | some x => if s.portState t = ptPHASE ∧ s.timely x then ok ((s.reach x).enterRun t) else ok s
  | none => ok s

/-- The OFS adopted for lines up to the one that starts at l come into force (R218). DEDUCED (log 45). -/
def State.takeOfs (l : Wide) (t : Nat) (s : State) : State :=
  let due (e : Wide × Option Wide) : Bool := match e.2 with
    | some x => !before l x
    | none => false
  match ((s.port t).ofsNext.filter due).getLast? with
  | some (v, some x) =>
    let old := s.wideOf (tileRgn t) (0x0200 + t % 8)
    (s.setWide (tileRgn t) (0x0200 + t % 8) v).port' t fun p =>
      { p with ofsNext := p.ofsNext.filter fun e => !due e, ofsOld := some (old, x) }
  | _ => s

/-- The tile's points carry LOW_CONF (R182, R217). -/
def State.tileLow (t : Nat) (s : State) : Bool :=
  (tileLanes t).any (fun l => s.is (Fd.LNK_LANE_STAT_FREQ_ERR l)) || (s.port t).jump.isSome || decide (3 ≤ (s.port t).phFails)

/-! ## Slot marks (R212) -/

/-- A SLOT mark in RUN: the first is extended to the value nearest to its arrival, later ones count on from it; one that
does not follow is counted and becomes the new reference. -/
def execSlot (t : Fin 32) (num : BitVec 25) (s : State) : Res :=
  if !s.portRun t then ok s
  else match (s.port t).slot with
    | none =>
      let near : Int := ((s.tick.toNat : Int) * 16 - (s.wideOf (tileRgn t) (0x0200 + t.toNat % 8)).toInt) / (16 * 2 ^ 23)
      ok (s.port' t fun p => { p with slot := some (nearest num.toNat (2 ^ 25) near) })
    | some n =>
      let step := ((num.toNat : Int) - n) % 2 ^ 25
      let s1 := s.port' t fun p => { p with slot := some (n + step) }
      ok (if step = 1 then s1 else (s1.set (Fd.LNK_TILE_STAT_SLOT_GAP t) 1).countTile t Src.LNK_SLOT_GAP 1)

/-! ## Tile registers (R219) -/

/-- REGCMD.GO: one transaction at a time. -/
def execTileRegGo (t : Fin 32) (s : State) : Res :=
  s.writeRow (Fd.LNK_TILE_REGCMD_GO t).off fun s =>
  let s0 := s.set (Fd.LNK_TILE_REGCMD_GO t) 0
  if s.is (Fd.LNK_TILE_REGCMD_BUSY t) then ok s0
  else
    let addr := s.get (Fd.LNK_TILE_REGCMD_ADDR t)
    let s1 := (s0.set (Fd.LNK_TILE_REGCMD_BUSY t) 1).port' t fun p => { p with regAddr := some addr }
    ok (if s.is (Fd.LNK_TILE_REGCMD_WR t) then
        s1.sendTile t 0x86 addr [BitVec.ofNat 64 (s.get (Fd.LNK_TILE_REGDATA_DATA t))]
      else s1.sendTile t 0x85 addr [])

/-- The transaction completes. -/
def State.regDone (t rstat : Nat) (s : State) : State :=
  s.set (Fd.LNK_TILE_REGCMD_BUSY t) 0 |>.set (Fd.LNK_TILE_REGCMD_DONE t) 1 |>.set (Fd.LNK_TILE_REGCMD_RSTAT t) rstat

/-- REG_RSP: one that matches no outstanding request is counted and discarded. -/
def execRegRsp (t : Fin 32) (h : MsgHdr) (addr : BitVec 16) (data : Word) (rstat : Byte) (s : State) : Res :=
  upMessage t h 3 addr.toNat [BitVec.ofNat 64 (data.toNat + rstat.toNat * 2 ^ 32)] 1 (fun s =>
    if s.is (Fd.LNK_TILE_REGCMD_BUSY t) && (s.port t).regAddr == some addr.toNat then
      (s.set (Fd.LNK_TILE_REGDATA_DATA t) data.toNat).regDone t rstat.toNat
    else s.countTile t Src.LNK_MSG_GAP 1) s

def execTileRegTimeout (t : Fin 32) (s : State) : Res :=
  ok (if s.is (Fd.LNK_TILE_REGCMD_BUSY t) then s.regDone t 3 else s)

end Sys2Proof.Machine
end

