-- ==== Sys2Proof/Machine/HistOps.lean ====
section
/-!
DEFINITION. The stalls' shared operations (R223 to R241): banks, combining buffers, updates, bin errors, spares, the
shots an event may belong to.
-/
namespace Sys2Proof.Machine

/-! ## Banks and stalls (R223, R229) -/

/-- The accumulating bank of a sector. -/
def State.bank (sec : Nat) (s : State) : Bank := rd (fun _ => {}) s.hst.acc sec
def State.bank' (sec : Nat) (f : Bank → Bank) (s : State) : State :=
  s.hst' fun h => { h with acc := ins h.acc sec (f (rd (fun _ => {}) h.acc sec)) }

/-- A bank of a sector: the accumulating one, or the one that stopped at a swap tick. -/
def State.bankAt' (sec : Nat) (which : Option Wide) (f : Bank → Bank) (s : State) : State :=
  match which with
  | none => s.bank' sec f
  | some t => s.hst' fun h => { h with reads := h.reads.map fun x =>
      if x.sector == sec && x.stop == t then { x with bank := f x.bank } else x }

/-- Count an event of an HST source under its local sector (R250). -/
def State.countSec (sec src n : Nat) (s : State) : State := s.count (8 + sec / 8) src (sec % 8) n

/-- Spare p of region n serves local channel k. -/
def State.spareServes (n p k : Nat) (s : State) : Bool :=
  s.is (Fd.HST_STALL_SPARE_ACTIVE n p) && s.get (Fd.HST_STALL_SPARE_CHAN n p) == k

/-- The physical stall that serves a channel (R223): a spare has number 256 and up. -/
def State.stallOf (c : Nat) (s : State) : Nat :=
  match (List.range 8).find? fun p => s.spareServes (c / 256) p (c % 256) with
  | some p => 256 + p
  | none => c % 256

def stRetired (n p : Nat) : Field := if p < 256 then Fd.HST_STALL_RETIRED n p else Fd.HST_STALL_SPARE_RETIRED n (p - 256)
def stActive (n p : Nat) : Field := if p < 256 then Fd.HST_STALL_ACTIVE n p else Fd.HST_STALL_SPARE_ACTIVE n (p - 256)
def stSat (n p : Nat) : Field := if p < 256 then Fd.HST_STALL_SATSEEN n p else Fd.HST_STALL_SPARE_SATSEEN n (p - 256)
def stCE (n p : Nat) : Field := if p < 256 then Fd.HST_STALL_CE n p else Fd.HST_STALL_SPARE_CE n (p - 256)
def stUES (n p : Nat) : Field := if p < 256 then Fd.HST_STALL_UES n p else Fd.HST_STALL_SPARE_UES n (p - 256)

/-! ## Spares (R240, R241) -/

/-- A spare of region n that serves nothing, is not retired and not yet chosen: the lowest-numbered. -/
def State.freeSpare (n : Nat) (s : State) : Option Nat :=
  (List.range 8).find? fun p =>
    !s.is (Fd.HST_STALL_SPARE_ACTIVE n p) && !s.is (Fd.HST_STALL_SPARE_RETIRED n p)
      && !(s.hst.subst.any fun e => e.1 / 256 == n && e.2 == p)

/-- A channel's stall is retired (R240): the lowest free spare takes over at the next bank swap; with none the stall
keeps serving and the fault passes to the region. DEDUCED (log 47). -/
def State.retireStall (c : Nat) (s : State) : State :=
  let n := c / 256
  let p := s.stallOf c
  if (look s.hst.subst c).isSome then s
  else match s.freeSpare n with
    | some q =>
      ((s.set (stRetired n p) 1 |>.set (Fd.HST_STAT_SPARES n) (s.get (Fd.HST_STAT_SPARES n) - 1)).hst' fun h =>
        { h with subst := ins h.subst c q }).err
        { level := 1, region := 8 + n, block := 3, code := 0x0013, action := 3, cell := p }
    | none => (s.set (Fd.HST_STAT_NOSPARE n) 1).startRestart 0 (8 + n)

/-- Pending substitutions of a sector take effect (R241): the spare serves; with the state, the channels of the sector and the stalls
retired, whose histograms are DEGRADED. -/
def State.substitute (sec : Nat) (s : State) : State × SMap Nat :=
  let n := sec / 8
  (s.hst.subst.filter fun e => e.1 / 32 == sec).foldl (fun (st : State × SMap Nat) e =>
    let (s, gone) := st
    let c := e.1
    let p := s.stallOf c
    let s1 := s.set (stActive n p) 0 |>.set (Fd.HST_STALL_SPARE_CHAN n e.2) (c % 256) |>.set (Fd.HST_STALL_SPARE_ACTIVE n e.2) 1
    ((s1.hst' fun h => { h with subst := del h.subst c }).countSec sec Src.HST_SUBST 1, ins gone (c % 32) p)) (s, [])

/-- The substitutions that a restart of region n has left pending are completed on its resumption (R20, R241). -/
def State.substituteAll (n : Nat) (s : State) : State := s.each (List.range 8) fun k s => (s.substitute (8 * n + k)).1

/-- Physical stall p of region n fails its built-in test (R240): a stall that serves a channel is retired; a spare that serves none is
retired as it is, and one chosen for a channel gives way to the next. DEDUCED (log 47). -/
def State.stallFailed (n p : Nat) (s : State) : State :=
  match (List.range 256).find? fun k => s.stallOf (256 * n + k) == p with
  | some k => s.retireStall (256 * n + k)
  | none =>
    if p < 256 || 264 ≤ p || s.is (stRetired n p) then s
    else
      let s1 := s.set (stRetired n p) 1
      match s.hst.subst.find? fun e => e.1 / 256 == n && e.2 == p - 256 with
      | none => s1.set (Fd.HST_STAT_SPARES n) (s.get (Fd.HST_STAT_SPARES n) - 1)
      | some e => (s1.hst' fun h => { h with subst := del h.subst e.1 }).retireStall e.1

/-! ## Bin errors (R231) -/

/-- The physical stall that holds channel k's histogram of a bank: a bank that was swapped at a substitution is read from the stall it
was accumulated in (R241). -/
def State.stallIn (sec : Nat) (which : Option Wide) (k : Nat) (s : State) : Nat :=
  let held := which.bind fun t =>
    (s.hst.reads.find? fun x => x.sector == sec && x.stop == t).bind fun x => look x.retired k
  held.getD (s.stallOf (32 * sec + k))

/-- A bin error of a channel in a bank: one bit is corrected; two bits leave the bin 0 and the histogram DEGRADED, and
the stall's first one retires it. DEDUCED (log 47). -/
def State.binError (sec : Nat) (which : Option Wide) (x : BinErr) (s : State) : State :=
  let k := x.chan.toNat
  let c := 32 * sec + k
  let n := sec / 8
  let p := s.stallIn sec which k
  if x.double then
    let first := s.get (stUES n p) == 0 && (look s.hst.subst c).isNone && !s.is (stRetired n p) && p == s.stallOf c
    let s1 := (s.countSec sec Src.HST_UE 1).set (Fd.HST_STAT_UE n) 1 |>.bumpSat (stUES n p) 1
      |>.bankAt' sec which fun b =>
        { b with bins := wr (fun _ => 0) b.bins (4096 * k + x.bin.toNat) 0, deg := b.deg ||| 2 ^ k
                 kept := b.kept.filter fun e => !(e.1 == k && e.2.2 == x.bin.toNat) }
    if first then s1.retireStall c
    else s1.err { level := 1, region := 8 + n, block := 3, code := 0x0015, action := 4, cell := p }
  else
    ((s.countSec sec Src.HST_CE 1).bumpSat (stCE n p) 1).err
      { level := 0, region := 8 + n, block := 3, code := 0x0014, action := 1, cell := p }

/-! ## Combining buffers (R229, R239) -/

/-- Cycles of the histogram island in 1280 ticks, by performance point (R427, R435). DEDUCED (log 46). -/
def State.hstRate (s : State) : Nat :=
  match s.get Fd.CHIP_DVFS_STAT_PP with
  | 0 => 12
  | 1 => 10
  | 2 => 8
  | _ => 5

/-- Each sub-bank retires its oldest `cyc` entries; `seen` counts those met so far. -/
def retireOldest (cyc : Nat) (sub : Nat → Nat) : SMap Nat → List Cmb → List Cmb
  | _, [] => []
  | seen, e :: l =>
    let k := rd (fun _ => 0) seen (sub e.bin)
    if k < cyc then retireOldest cyc sub (ins seen (sub e.bin) (k + 1)) l else e :: retireOldest cyc sub seen l

/-- A buffer as it stands at a tick. DEDUCED (log 46). -/
def CmbBuf.at' (now : Wide) (rate : Nat) (sub : Nat → Nat) (b : CmbBuf) : CmbBuf :=
  let cyc := (ahead b.at_ now).toNat * rate / 1280
  let l := retireOldest cyc sub [] b.entries
  { at_ := if l.isEmpty then now else b.at_ + BitVec.ofNat 64 (cyc * 1280 / rate), entries := l }

/-- Merge an update into the entry of its bin. -/
def mergeEntry (bank : Option Wide) (bin : Nat) : List Cmb → Option (List Cmb)
  | [] => none
  | e :: l =>
    if e.bank == bank && e.bin == bin && decide (e.inc < 255) then some ({ e with inc := e.inc + 1 } :: l)
    else (mergeEntry bank bin l).map (e :: ·)

/-- Place an update: merged, in a free entry of the 64, or dropped. -/
def CmbBuf.place (bank : Option Wide) (bin : Nat) (b : CmbBuf) : Option CmbBuf :=
  match mergeEntry bank bin b.entries with
  | some l => some { b with entries := l }
  | none => if b.entries.length < 64 then some { b with entries := b.entries ++ [{ bank := bank, bin := bin, inc := 1 }] } else none

/-! ## Updates (R228 to R230, R237, R239) -/

/-- Add one count to main bin `bin` of channel k, and whether it was held at 65,535. -/
def Bank.addMain (k bin : Nat) (b : Bank) : Bank × Bool :=
  let v := rd (fun _ => 0) b.bins (4096 * k + bin)
  if v < 65535 then ({ b with bins := ins b.bins (4096 * k + bin) (v + 1) }, false) else ({ b with sat := b.sat ||| 2 ^ k }, true)

/-- Add one count to a zoom bin. -/
def Bank.addZoom (k slot z : Nat) (b : Bank) : Bank × Bool :=
  let key := (4 * k + slot) * 256 + z
  let v := rd (fun _ => 0) b.zbins key
  if v < 65535 then ({ b with zbins := ins b.zbins key (v + 1) }, false) else ({ b with sat := b.sat ||| 2 ^ k }, true)

/-- The bank of a sector that `which` names. -/
def State.bankOf (sec : Nat) (which : Option Wide) (s : State) : Bank :=
  match which with
  | none => s.bank sec
  | some t => match s.hst.reads.find? fun x => x.sector == sec && x.stop == t with
    | some x => x.bank
    | none => {}

/-- Apply an accepted update to a bank; a count held at the limit is SAT_UPD (R230). -/
def State.applyUpdate (sec : Nat) (which : Option Wide) (f : Bank → Bank × Bool) (s : State) : State :=
  let (b, held) := f (s.bankOf sec which)
  (s.bankAt' sec which fun _ => b).onlyIf held fun s => s.countSec sec Src.HST_SAT_UPD 1

/-- Keep the value of an update, from which a mixed bank is binned (R236). -/
def State.keepUpdate (c : Nat) (which : Option Wide) (v : Int) (bin : Nat) (s : State) : State :=
  s.bankAt' (c / 32) which fun b => { b with kept := (c % 32, v, bin) :: b.kept }

/-- One main update (R228, R229), through the stall's combining buffer; `v`: its time after the emission less DLY. -/
def State.mainUpdate (c : Nat) (which : Option Wide) (v : Int) (bin : Nat) (now : Wide) (s : State) : State :=
  let sec := c / 32
  let b := (rd (fun _ => {}) s.hst.cmb c).at' now s.hstRate (· % 4)
  match if s.refuses (8 + c / 256) (c % 256) then none else b.place (s.bankOf sec which).from_ bin with
  | none => (s.hst' fun h => { h with cmb := ins h.cmb c b }).countSec sec Src.HST_CMB_DROP 1
  | some b' =>
    (((s.hst' fun h => { h with cmb := ins h.cmb c b' }).keepUpdate c which v bin).applyUpdate sec which
      (Bank.addMain (c % 32) bin)).countSec sec Src.HST_UPDATES 1

/-- One zoom update of window w (R237, R239), through the zoom store's combining buffer of its sub-bank. -/
def State.zoomUpdate (c slot w : Nat) (which : Option Wide) (z : Nat) (now : Wide) (s : State) : State :=
  let sec := c / 32
  let key := 16 * (c / 256) + (w + z) % 16
  let b := (rd (fun _ => {}) s.hst.zcmb key).at' now s.hstRate (fun _ => 0)
  match if s.refuses (8 + c / 256) (256 + key % 16) then none else b.place (s.bankOf sec which).from_ (256 * w + z) with
  | none => (s.hst' fun h => { h with zcmb := ins h.zcmb key b }).countSec sec Src.HST_ZOOM_DROP 1
  | some b' =>
    (s.hst' fun h => { h with zcmb := ins h.zcmb key b' }).applyUpdate sec which (Bank.addZoom (c % 32) slot z)

/-! ## The shots of an event (R225 to R227) -/

/-- The line that is current at a device tick. -/
def State.lineAt (t : Wide) (s : State) : Option LineRec :=
  s.scan.lines.find? fun l => !before t l.start && before t l.finish

/-- A time in 1/16 tick, less the line's L. -/
def LineRec.rel (l : LineRec) (x : Int) : Int := 16 * ahead l.start (BitVec.ofInt 64 (x / 16)) + x % 16

/-- How many shots of a line have F + WSTART at or before a time relative to L; the newest has this number less 1. -/
def candidates (l : LineRec) (w : Window) (r : Int) : Nat :=
  (l.shots.filter fun h => decide (16 * ahead l.start h.fire + 2048 * w.wstart ≤ r)).length

/-- The module whose light a channel is bound to for a shot, and whether it stands in for the reference module (R227); none for a
listen-only shot and where no module is selected. -/
def State.chosen (l : LineRec) (c : Nat) (h : ShotRec) (s : State) : Option (Nat × Bool) :=
  if h.listen then none
  else match s.modulesAt h.fire l.desc with
    | [] => none
    | m0 :: ms =>
      let ref := s.getAt h.fire (Fd.HST_CHAN_MOD c)
      some (if (m0 :: ms).contains ref then (ref, false) else (m0, true))

/-- t_fire of a shot for a channel, in 1/16 tick less the line's L (R227); whether another module stands in for the
reference module, and whether the module has no TIU stop. DEDUCED (log 33). -/
def State.fireTime (l : LineRec) (c : Nat) (h : ShotRec) (s : State) : Int × Bool × Bool :=
  let f := 16 * ahead l.start h.fire
  match s.chosen l c h with
  | none => (f, false, false)
  | some (m, sub) =>
    match if (s.getAt h.fire Fd.TBAS_TIU_STOPS_STOP_EN).testBit m then look h.d m else none with
    | some d => (f + 4 * d, sub, false)
    | none => (f, sub, true)

/-- The TIU has yet to report the stop that gives t_fire of shot i for a channel: the shot is still to be fired, or it is the one being
measured with that stop open. -/
def State.stopOpen (l : LineRec) (c i : Nat) (h : ShotRec) (s : State) : Bool :=
  match s.chosen l c h with
  | none => false
  | some (m, _) =>
    (s.getAt h.fire Fd.TBAS_TIU_STOPS_STOP_EN).testBit m && (look h.d m).isNone && s.tbas.running
      && (!h.fired || match s.tbas.shot with
        | some t => t.line == l.seq && t.index == i && !t.diag && t.stops.testBit m
        | none => false)

/-- The bin of a hypothesis (R228): floor of x / 2^(KBIN + 4). -/
def binOf (x : Int) (k : Nat) : Int := x / (2 ^ (k + 4) : Int)

/-- The bin that a line's geometry gives a time after the emission, if it is in the window (R228). -/
def Window.bin (w : Window) (v : Int) : Option Nat :=
  let b := binOf (v - 2048 * w.wstart) w.kbin
  if 0 ≤ b ∧ b < 256 * (w.nbin + 1) then some b.toNat else none

/-- A mixed bank's main bins, with the geometry of the line that labels it (R236). -/
def Bank.rebin (w : Window) (b : Bank) : Bank :=
  b.kept.foldr (fun e x => match w.bin e.2.1 with
    | some i => (x.addMain e.1 i).1
    | none => x) { b with bins := [] }

/-- The zoom window of a slot that covers a channel, the last admitted first (R128). -/
def LineRec.zoomOf (l : LineRec) (c slot : Nat) : Option Zoom :=
  l.zooms.find? fun z => z.slot == slot && decide (z.first ≤ c ∧ c < z.first + z.count)

/-- The armed zoom windows of a channel: slot, window number, settings (R238). -/
def LineRec.armedOf (l : LineRec) (c : Nat) : List (Nat × Nat × Zoom) :=
  [0, 1, 2, 3].filterMap fun slot =>
    match look l.armed (4 * c + slot), l.zoomOf c slot with
    | some w, some z => some (slot, w, z)
    | _, _ => none

/-- A bank was accumulating at a tick from its own start on. -/
def Bank.reaches (t : Wide) (b : Bank) : Bool :=
  match b.from_ with
  | none => true
  | some f => !before t f

/-- The earliest of some ticks. -/
def earliest : List Wide → Option Wide
  | [] => none
  | t :: l => match earliest l with
    | none => some t
    | some u => if before t u then some t else some u

/-- The sectors an HSWAP still has to swap. -/
def Act.swapMask : Act → Nat
  | .swap m => m
  | _ => 0

/-- Ticks at which a sector's banks are due to swap (R233). DEDUCED (log 47). -/
def State.swapTicks (sec : Nat) (s : State) : List Wide :=
  (s.scan.lines.filter fun l => !l.swapped.testBit sec && s.getAt l.finish (Fd.HST_CTL_AUTOSWAP (sec / 8)) == 1).map
      LineRec.finish
    ++ (s.scan.actQ.filter fun a => a.act.swapMask.testBit sec).map Action.tick

/-- At an event's arrival the accumulating bank of a sector will have been swapped and drained: its read-out has started (R234). -/
def State.drainedBy (sec : Nat) (arrival : Wide) (s : State) : Bool :=
  match earliest (s.swapTicks sec) with
  | some u => !before arrival (u + usTicks (s.getAt u (Fd.HST_CTL_DRAIN (sec / 8))))
  | none => false

/-- The bank that was accumulating at a device tick (R234): the present one, one that has stopped while its read-out has not
started at the event's arrival, or none. -/
def State.bankFor (sec : Nat) (t arrival : Wide) (s : State) : Option (Option Wide) :=
  if (s.bank sec).reaches t then if s.drainedBy sec arrival then none else some none
  else match s.hst.reads.find? fun x => x.sector == sec && x.bank.reaches t && before t x.stop with
    | some x => if !x.started && before arrival x.readAt then some (some x.stop) else none
    | none => none

/-- The bank of a sector that is still draining. -/
def State.drainingBank (sec : Nat) (s : State) : Option Wide :=
  ((s.hst.reads.filter fun x => x.sector == sec && !x.started).getLast?).map ReadBank.stop

end Sys2Proof.Machine
end

