-- ==== Sys2Proof/Machine/Events.lean ====
section
/-!
DEFINITION. Event blocks (R211 to R214): ingest, and the stalls' entry of each event (R225 to R232, R237).
-/
namespace Sys2Proof.Machine

/-! ## In the stalls -/

/-- One hypothesis of an event: the main update of all but PHOTON_Z, then the armed zoom windows (R228, R237). -/
def State.enterHypothesis (l : LineRec) (w : Window) (c typ : Nat) (which : Option Wide) (r : Int) (now : Wide)
    (zen : Bool) (s : State) (h : ShotRec) : State :=
  let (f, _, _) := s.fireTime l c h
  let d := signed 20 (s.getAt h.fire (Fd.HST_CHAN_DLY c))
  let s1 :=
    if typ = 3 then s
    else match w.bin (r - f - d) with
      | some b => s.mainUpdate c which (r - f - d) b now
      | none => (s.keepUpdate c which (r - f - d) 4096).countSec (c / 32) Src.HST_OUTWIN 1
  if zen then
    s1.each (l.armedOf c) fun (slot, n, z) s =>
      let k := binOf (r - f - 16 * z.start - d) z.k
      if 0 ≤ k ∧ k < 256 then s.zoomUpdate c slot n which k.toNat now else s
  else s1

/-- The hypotheses of an event of a line, newest first, with their numbers (R226); `r`: t_dev less L, in 1/16 tick. -/
def State.hypotheses (l : LineRec) (c : Nat) (r : Int) (s : State) : List (Nat × ShotRec) :=
  let n := candidates l (s.windowOf l (c / 32)) r
  ((((List.range l.shots.length).zip l.shots).take n).reverse).take
    (min n (s.getAt l.start (Fd.HST_CTL_HMAX (c / 256))))

/-- The window that gives a bank its bins: that of the line which labels it, once it has swapped, as a mixed bank is binned with that
geometry (R236); before, that of the event's own line. -/
def State.binWindow (sec : Nat) (which : Option Wide) (own : Window) (s : State) : Window :=
  match which with
  | none => own
  | some t =>
    match (s.hst.reads.find? fun x => x.sector == sec && x.stop == t).bind fun x => s.lineOf x.line with
    | some k => s.windowOf k sec
    | none => own

/-- An event enters its channel's stall (R225 to R228, R232); `x` is t_dev in 1/16 tick. -/
def State.enterEvent (c typ : Nat) (x : Int) (arrival : Wide) (s : State) : State :=
  let sec := c / 32
  let t : Wide := BitVec.ofInt 64 (x / 16)
  match s.lineAt t with
  | none => s.countSec sec Src.HST_NOSHOT 1
  | some l =>
    let w := s.windowOf l sec
    if candidates l w (l.rel x) = 0 then s.countSec sec Src.HST_NOSHOT 1
    else match s.bankFor sec t arrival with
      | none => s.countSec sec Src.HST_BANK_LATE 1
      | some which =>
        let hyps := (s.hypotheses l c (l.rel x)).map Prod.snd
        let times := hyps.map (s.fireTime l c)
        let sub := times.any fun y => y.2.1
        let low := sub || times.any fun y => y.2.2
        let s1 := (s.onlyIf sub fun s => s.countSec sec Src.HST_MODSUB 1).onlyIf low fun s =>
          s.bankAt' sec which fun b => { b with low := b.low ||| 2 ^ (c % 32) }
        let zen := s.getAt l.start (Fd.HST_CTL_ZEN (sec / 8)) == 1
        hyps.foldl (fun s h => s.enterHypothesis l (s.binWindow sec which w) c typ which (l.rel x) arrival zen h) s1

/-- A hypothesis of an event needs a stop that the TIU has yet to report. -/
def State.eventOpen (c : Nat) (x : Int) (s : State) : Bool :=
  match s.lineAt (BitVec.ofInt 64 (x / 16)) with
  | none => false
  | some l => (s.hypotheses l c (l.rel x)).any fun y => s.stopOpen l c y.1 y.2

/-- An event enters its stall, or waits for its stops, and behind an event of its channel that waits (R227, R228). DEDUCED (log 33). -/
def State.admitEvent (e : Waiting) (s : State) : State :=
  if (s.hst.wait.any fun y => y.chan == e.chan) || s.eventOpen e.chan e.x then s.hst' fun h => { h with wait := h.wait ++ [e] }
  else s.enterEvent e.chan e.typ e.x e.arrival

/-- Events whose stops have been reported enter their stalls, in the order they left ingest. DEDUCED (log 33). -/
def State.releaseEvents (s : State) : State := (s.hst' fun h => { h with wait := [] }).each s.hst.wait State.admitEvent

/-- The delay of an event's delivery by PERTURB_EV of its LNK and its HST region (R471). DESIGN CHOICE (log 109). -/
def State.eventDelay (c : Nat) (s : State) : Wide :=
  BitVec.ofNat 64 (128 * (s.get (Fd.PERTURB_EV_EVDLY (4 + c / 256)) + s.get (Fd.PERTURB_EV_EVDLY (8 + c / 256))))

/-- An event that has passed ingest. -/
def State.hstEvent (c typ : Nat) (x : Int) (arrival : Wide) (s : State) : State :=
  (s.countSec (c / 32) Src.HST_EVENTS_IN 1).admitEvent { chan := c, typ := typ, x := x, arrival := arrival + s.eventDelay c }

/-! ## Ingest (R211 to R214) -/

/-- t_dev of an event word, in 1/16 tick (R212, R218). -/
def State.eventTime (t v : Nat) (slot : Int) (s : State) : Int :=
  let rel : Int := if v < 12582912 then v else (v : Int) - 16777216
  let tile := 16 * (slot * 2 ^ 23 + rel)
  let x := tile + (s.wideOf (tileRgn t) (0x0200 + t % 8)).toInt
  match (s.port t).ofsOld with
  | some (old, f) => if before (BitVec.ofInt 64 (x / 16)) f then tile + old.toInt else x
  | none => x

/-- The tick whose settings an event takes: the LINE tick of its line, where its windows and shots were scheduled; without a line its
own (R15). DEDUCED (log 84). -/
def State.settingTick (x : Int) (s : State) : Wide :=
  let t : Wide := BitVec.ofInt 64 (x / 16)
  match s.lineAt t with
  | some l => l.start
  | none => t

/-- Types that the generation or the port's settings do not allow (R200, R213, R214). -/
def State.typeBarred (t typ : Nat) (x : Int) (s : State) : Bool :=
  let kl3 := s.get (Fd.LNK_TILE_STAT_GEN t) == 3
  let at_ := s.settingTick x
  (typ == 3 && !(kl3 && s.getAt at_ (Fd.LNK_TILE_CTL_ZOOM_EN t) == 1))
    || (decide (4 ≤ typ) && !(kl3 && s.getAt at_ (Fd.LNK_TILE_CTL_TAG_EN t) == 1))

/-- t_dev lies more than LATE µs before the block's arrival. -/
def State.eventLate (t : Nat) (x : Int) (arrival : Wide) (s : State) : Bool :=
  let age := 16 * ahead (BitVec.ofInt 64 (x / 16)) arrival - x % 16
  decide ((2048000 : Int) * s.get (Fd.LNK_TILE_CTL_LATE t) < age)

/-- The hypothesis tag of a PHOTON_T event is compared with the device's own index (R214). -/
def State.checkTag (t c typ : Nat) (x : Int) (s : State) : State :=
  match s.lineAt (BitVec.ofInt 64 (x / 16)) with
  | none => s
  | some l =>
    let n := candidates l (s.windowOf l (c / 32)) (l.rel x)
    if n = 0 then s
    else
      let bad := (n - 1) % 4 != typ - 4
      (s.onlyIf bad fun s => s.countTile t Src.LNK_HTAG_MISMATCH 1).scan' fun q => q.onLine l.seq fun y =>
        let (a, b) := rd (fun _ => (0, 0)) y.tags t
        { y with tags := ins y.tags t (a + 1, b + if bad then 1 else 0) }

/-- One event word: PAD is nothing, LOST adds to TILE_LOST, and an event passes the checks of R213 in order. DEDUCED (log 43). -/
def State.eventWord (l : Nat) (arrival : Wide) (full : Bool) (w : Word) (s : State) : State :=
  let t := l / 4
  let typ := bitsOf w 26 24
  let c := 32 * t + bitsOf w 31 27
  let v := bitsOf w 23 0
  if typ = 1 then s
  else if typ = 2 then s.countTile t Src.LNK_TILE_LOST v
  else
    let s1 := s.countLane l Src.LNK_EVENTS 1
    match s.portRun t && s.tbas.running, (s.port t).slot with
    | true, some n =>
      let x := s.eventTime t v n
      if s.typeBarred t typ x then s1.countTile t Src.LNK_RSVD_TYPE 1
      else if s.eventLate t x arrival then s1.countTile t Src.LNK_LATE 1
      else if full || s.refuses (tileRgn t) (t % 8) then s1.countTile t Src.LNK_INGEST_DROP 1
      else
        let s2 := s1.onlyIf (decide (4 ≤ typ)) (State.checkTag t c typ x)
        if s.restarting (8 + c / 256) then s2.countTile t Src.LNK_INGEST_DROP 1
        else (s2.tapEvent t (c % 32) typ x).hstEvent c typ x arrival
    | _, _ => s1.countTile t Src.LNK_NOPHASE 1

/-- The bin errors that the updates of a block find, in the accumulating bank or the draining one (R231). -/
def State.blockErrors (sec : Nat) (errs : List BinErr) (s : State) : State :=
  if s.restarting (8 + sec / 8) then s
  else s.each errs fun x s =>
    if !x.draining then s.binError sec none x
    else match s.drainingBank sec with
      | some t => s.binError sec (some t) x
      | none => s

/-- A data block with two event words arrives at ingest on a lane that delivers blocks.  `errs`: the bin errors that its
updates find in the banks of the tile's sector (R231). -/
def execEventBlock (l : Fin 128) (arrival : Wide) (full : Bool) (w0 w1 : Word) (errs : List BinErr) (s : State) : Res :=
  if s.laneSt l ≠ lnLOCKED ∨ s.testMode l ∨ (s.port (l / 4)).upExcl.testBit (l % 4) ∨ !s.clockOk arrival then ok s
  else
    let s1 := ((s.clockReach arrival).releaseEvents).blockErrors (l / 4) errs
    ok ((s1.eventWord l arrival full w0).eventWord l arrival full w1)

end Sys2Proof.Machine
end

