-- ==== Sys2Proof/Machine/Filter.lean ====
section
/-!
DEFINITION. The arithmetic of filtering, detection and range (R254 to R270, R274), on plain lists and numbers.
-/
namespace Sys2Proof.Machine

/-- Round a quotient half up; 0 for a divisor of 0. -/
def roundHalfUp (a : Int) (d : Nat) : Int := if d = 0 then 0 else (2 * a + d) / (2 * d)
/-- Round a quotient up. -/
def ceilDiv (a : Int) (d : Nat) : Int := if d = 0 then 0 else -((-a) / d)
/-- The square root rounded up. -/
def ceilSqrt (n : Nat) : Nat := let r := isqrt n; if r * r = n then r else r + 1

/-- A kernel (R254): its coefficients over all L taps, output shift, edge offset, KSUM and KSQ. -/
structure Kernel where
  h : List Int
  osh : Nat
  edge : Int
  ksum : Int
  ksq : Nat

/-- The symmetric kernel of length L from the coefficients of its first half. -/
def mirror (len : Nat) (half : List Int) : List Int :=
  (List.range len).map fun i => half.getD (if i < len / 2 then i else len - 1 - i) 0

def sumInt (l : List Int) : Int := l.foldl (· + ·) 0
/-- KSUM and KSQ of R254. -/
def kernelSum (h : List Int) : Int := sumInt h
def kernelSq (h : List Int) : Nat := (sumInt (h.map fun x => x * x)).toNat / 2 ^ 12

/-! ## Convolution (R257, R260) -/

/-- One output from the window of inputs, newest first. DESIGN CHOICE (log 50). -/
def Kernel.output (k : Kernel) (win : List Nat) : Int :=
  let acc := (sumInt (List.zipWith (fun (h : Int) (x : Nat) => h * (x : Int)) k.h win)).bmod (2 ^ 48)
  let y := if k.osh = 0 then acc else (acc + 2 ^ (k.osh - 1)) / (2 ^ k.osh : Int)
  clampS 24 y

/-- The outputs from bin j on, each with whether it is unsettled: `win` holds the inputs since the start or the last
restart, newest first, at most L of them. -/
def Kernel.filterFrom (k : Kernel) (restarts : List Nat) : Nat → List Nat → List Nat → List (Int × Bool)
  | _, _, [] => []
  | j, win, x :: xs =>
    let w := (x :: (if restarts.contains j then [] else win)).take k.h.length
    (k.output w, decide (w.length < k.h.length)) :: k.filterFrom restarts (j + 1) w xs

def Kernel.filter (k : Kernel) (restarts : List Nat) (x : List Nat) : List (Int × Bool) := k.filterFrom restarts 0 [] x

/-! ## Background and threshold (R262, R263) -/

def sumNat (l : List Nat) : Nat := l.foldl (· + ·) 0

/-- Sums of blocks of 64 bins. -/
def blockSums (n : Nat) (x : List Nat) : List Nat := (List.range n).map fun i => sumNat ((x.drop (64 * i)).take 64)

def insertNat (a : Nat) : List Nat → List Nat
  | [] => [a]
  | b :: l => if a ≤ b then a :: b :: l else b :: insertNat a l

/-- The trimmed background of a main histogram, in 1/256 count. DESIGN CHOICE (log 50). -/
def background (x : List Nat) (trlo trhi : Nat) : Nat :=
  let n := x.length / 64
  let sorted := (blockSums n x).foldl (fun l a => insertNat a l) []
  let lo := n * trlo / 16
  let kept := (sorted.drop lo).take (n - lo - n * trhi / 16)
  (roundHalfUp (4 * sumNat kept) kept.length).toNat

/-- What detection works from: β in 2^-16 count, b_f and T in 1/256, and the variance term β' KSQ with β' in 2^-16. -/
structure Level where
  beta : Nat
  bf : Int
  thr : Int
  var : Nat

def Kernel.level (k : Kernel) (beta16 bgmin kappa : Nat) : Level :=
  let m := max beta16 (256 * bgmin)
  let a := (beta16 : Int) * k.ksum
  { beta := beta16, bf := roundHalfUp a (2 ^ (8 + k.osh))
    thr := ceilDiv (a + ceilSqrt ((1024 * kappa) ^ 2 * (m * k.ksq))) (2 ^ (8 + k.osh)), var := m * k.ksq }

/-! ## Runs and echoes (R264 to R267) -/

/-- A run: its first and last output, its peak and the value there. -/
structure Run where
  js : Nat
  je : Nat
  p : Nat
  y : Int

/-- The runs of outputs above a threshold in 1/256, in order; `cur` is the run that reaches up to output j. -/
def runsFrom (thr : Int) : Nat → Option Run → List Int → List Run
  | _, cur, [] => cur.toList
  | j, cur, y :: ys =>
    if thr < 256 * y then
      match cur with
      | none => runsFrom thr (j + 1) (some ⟨j, j, j, y⟩) ys
      | some r => runsFrom thr (j + 1) (some (if r.y < y then ⟨r.js, j, j, y⟩ else { r with je := j })) ys
    else cur.toList ++ runsFrom thr (j + 1) none ys

/-- Insert a run by amplitude, larger first; among equals the lower peak first. -/
def insertRun (a : Run) : List Run → List Run
  | [] => [a]
  | b :: l => if b.y < a.y then a :: b :: l else b :: insertRun a l

/-- The `n` candidates of largest amplitude. -/
def largest (n : Nat) (l : List Run) : List Run := (l.foldl (fun m a => insertRun a m) []).take n

/-- The leading crossing: downwards through the outputs before the peak, nearest first; `hi` is the output above. -/
def leading (lam : Int) : Nat → Int → List Int → Option (Nat × Nat)
  | _, _, [] => none
  | j, hi, y :: ys =>
    if 256 * y < lam then some (j, 256 * j + (roundHalfUp (lam - 256 * y) (hi - y).toNat).toNat)
    else leading lam (j - 1) y ys

/-- The trailing crossing: upwards from the peak. -/
def trailing (lam : Int) : Nat → List Int → Option Nat
  | j, y :: z :: ys =>
    if 256 * z < lam then some (256 * j + (roundHalfUp (256 * y - lam) (y - z).toNat).toNat)
    else trailing lam (j + 1) (z :: ys)
  | _, _ => none

/-- Whether 80 log10(A / sqrt(s2)) is k − 1/2 or more, for A in 1/256 (R266). -/
def snrAtLeast (amp : Int) (var osh k : Nat) : Bool :=
  let num := amp.toNat ^ 2 * 2 ^ (2 * osh)
  let den := var * 2 ^ 12
  decide (10 ^ (2 * k - 1) * den ^ 80 ≤ num ^ 80)

/-- SNR in 0.25 dB, 0 to 255. -/
def snrOf (amp : Int) (var osh : Nat) : Nat :=
  ((List.range 255).filter fun k => snrAtLeast amp var osh (k + 1)).length

/-- RANGE of a round-trip time in 1/256 tick (R270); none when out of range. -/
def rangeOf (tau : Int) (nexc : Nat) : Option Nat :=
  let r := roundHalfUp (tau * 29979245800) (4096 * (100000000 + nexc))
  if tau < 0 ∨ 2 ^ 28 - 1 < r then none else some r.toNat

/-- A filtered histogram with what its measures need: inputs, outputs, kernel, level, bin width, start of its window in
1/256 tick. -/
structure Filtered where
  x : List Nat
  y : List (Int × Bool)
  k : Kernel
  lv : Level
  kbin : Nat
  start : Int

/-- The time after the shot, in 1/256 tick, of output position u (R270). -/
def Filtered.time (f : Filtered) (u edge : Int) : Int :=
  f.start + 2 ^ f.kbin * (u - 128 * ((f.k.h.length : Int) - 1) + 128 + edge)

/-- Measures of a run: the echo, its position U and its peak time; none when its range is out of bounds. -/
def Filtered.measure (f : Filtered) (nexc ccr : Nat) (zoom : Option Nat) (r : Run) : Option (Int × Echo) :=
  let ys := f.y.map Prod.fst
  let amp := 256 * r.y - f.lv.bf
  let lam := f.lv.bf + (amp + 1) / 2
  let before := (ys.take r.p).reverse
  let lead := leading lam (r.p - 1) r.y before
  let trail := trailing lam r.p (ys.drop r.p)
  let u := (lead.map Prod.snd).getD 0
  let v := trail.getD (256 * (f.x.length - 1))
  let bad (j : Nat) : Bool := (f.y.getD j (0, false)).2
  let unset := lead.isNone || trail.isNone || bad r.p || (match lead with
    | some (j, _) => bad j || bad (j + 1)
    | none => false)
  let i0 := r.js + 1 - f.k.h.length
  let bins := (f.x.drop i0).take (r.je + 1 - i0)
  let int := (4 * 65536 * (sumNat bins : Int) - 4 * (bins.length * f.lv.beta : Nat) + 32768) / 65536
  match rangeOf (f.time u f.k.edge) nexc with
  | none => none
  | some range =>
    some (f.time (256 * r.p) 0,
      { range := range, intensity := (min 65535 (max 0 int)).toNat
        width := min 255 (roundHalfUp ((v : Int) - u) 32).toNat, snr := snrOf amp f.lv.var f.k.osh, amp := amp, bf := f.lv.bf
        s2num := f.lv.var, s2exp := 4 + 2 * f.k.osh, ccr := ccr
        unset := unset, zoom := zoom })

/-! ## Code coherence (R274) -/

/-- The offsets, in bins, between shots whose numbers differ by less than H; `fires` are ticks after L. -/
def shotOffsets (fires : List Int) (hmax kbin : Nat) : List Nat :=
  let ix := (List.range fires.length).zip fires
  (ix.flatMap fun b => (ix.filter fun a => decide (b.1 < a.1 ∧ a.1 - b.1 + 1 ≤ hmax)).map fun a =>
    (roundHalfUp (a.2 - b.2) (2 ^ kbin)).toNat)

/-- CCR of an echo with peak p and amplitude `amp` (1/256). -/
def ccrOf (ys : List Int) (bf amp : Int) (p taps : Nat) (offs : List Nat) : Nat :=
  let at_ := (offs.filter (taps ≤ ·)).flatMap fun o =>
    (if p + o < ys.length then [ys.getD (p + o) 0] else []) ++ (if o ≤ p then [ys.getD (p - o) 0] else [])
  match at_.max? with
  | none => 255
  | some y => min 255 (roundHalfUp (16 * amp) (max (256 * y - bf) 256).toNat).toNat

/-! ## Zoom refinement and order (R269) -/

/-- Insert an echo by rising RANGE, larger amplitude first among equals. -/
def insertEcho (a : Echo) : List Echo → List Echo
  | [] => [a]
  | b :: l => if a.range < b.range || (a.range == b.range && decide (b.amp < a.amp)) then a :: b :: l else b :: insertEcho a l

def orderEchoes (l : List Echo) : List Echo := l.foldl (fun m a => insertEcho a m) []

/-- A zoom echo with its peak time refines the channel's echoes: it replaces the largest whose peak lies in its span, or
is added while there is room; the last says it was discarded. DESIGN CHOICE (log 50). -/
def refine (maxe : Nat) (lo hi : Int) (z : Int × Echo) (l : List (Int × Echo)) : List (Int × Echo) × Bool :=
  let inside := l.filter fun e => decide (lo ≤ e.1 ∧ e.1 < hi)
  match (inside.map fun e => e.2.amp).max? with
  | some a =>
    match inside.find? fun e => e.2.amp = a with
    | some old => ((z.1, { z.2 with ccr := old.2.ccr }) :: l.erase old, false)
    | none => (l, false)
  | none => if l.length < maxe then (l ++ [z], false) else (l, true)

/-! ## Angles (R246) -/

/-- 2π × 2^64, rounded. -/
def twoPi64 : Int := 115904311329233965478

/-- The Taylor terms of sine or cosine from term x^n / n! on, with x² in 2^-64; `t` is the present term. -/
def taylor (x2 : Int) : Nat → Nat → Int → Int
  | 0, _, _ => 0
  | f + 1, n, t => t + taylor x2 f (n + 2) (-(t * x2 / 2 ^ 64 / ((n + 1) * (n + 2) : Nat)))

/-- The angle of a signed number of 2^-16 turns, in 2^-64. -/
def angle64 (a : Int) : Int := twoPi64 * (a.bmod 65536) / 65536
/-- cos and sin of an angle in 2^-16 turn, to within 2^-56, in 2^-64. DESIGN CHOICE (log 50). -/
def cos64 (a : Int) : Int := let x := angle64 a; taylor (x * x / 2 ^ 64) 16 0 (2 ^ 64)
/-- DESIGN CHOICE (log 50). -/
def sin64 (a : Int) : Int := let x := angle64 a; taylor (x * x / 2 ^ 64) 16 1 x

end Sys2Proof.Machine
end

