-- ==== Sys2Proof/Machine/Hist.lean ====
section
/-!
DEFINITION. Bank swap and read-out (R233 to R236, R241), spares by command (R240), palettes (R254, R255), motion and
stacking (R243 to R247), engine failures (R261), and the delivery of a channel's echoes (R251 to R269).
-/
namespace Sys2Proof.Machine

/-! ## Bank swap (R23, R233, R234, R236, R241) -/

/-- The swap at tick t has been made for a sector: every cause of that tick is spent; an HSWAP with no sector left leaves
the queue. -/
def State.spendSwap (sec : Nat) (t : Wide) (s : State) : State :=
  (s.scan' fun c =>
    { c with lines := c.lines.map fun l => if l.finish == t then { l with swapped := l.swapped ||| 2 ^ sec } else l
             actQ := (c.actQ.map fun a =>
               if a.tick == t && a.act.swapMask.testBit sec then { a with act := .swap (a.act.swapMask - 2 ^ sec) } else a).filter
               fun a => a.act ≠ .swap 0 }).showQueues

/-- A read-out that is not complete at its sector's swap is discarded (R23). -/
def State.discardRead (sec : Nat) (s : State) : State :=
  let left (x : ReadBank) : Bool := x.sector == sec && !x.undelivered.isEmpty
  s.each (s.hst.reads.filter left) fun x s =>
    ((s.countSec sec Src.HST_RO_OVERRUN x.undelivered.length).set (Fd.HST_STAT_OVERRUN (sec / 8)) 1
      |>.hst' fun h => { h with reads := h.reads.map fun y => if left y then y.lose else y }).scan' fun c =>
        c.onLine x.line fun l => { l with overrun := true }

/-- The line's dwell overlaps a bank's accumulation interval. -/
def LineRec.overlaps (l : LineRec) (from_ : Option Wide) (t : Wide) : Bool :=
  before l.start t && match from_ with
    | none => true
    | some f => before f l.finish

/-- Enter a sector's read-out in the unit of its line and swap tick (R283, R284). -/
def addToUnit (line : Word) (stop : Wide) (sec : Nat) (later : Bool) (l : List OutUnit) : List OutUnit :=
  if l.any fun u => u.line == line && u.stop == stop then
    l.map fun u => if u.line == line && u.stop == stop then { u with sectors := u.sectors ||| 2 ^ sec } else u
  else l ++ [{ line := line, stop := stop, sectors := 2 ^ sec, later := later }]

/-- A sector that swaps after its line has been stacked belongs to the line's channels too, with the first of its read-outs, while the
engine has the line (R245). DEDUCED (log 49). -/
def State.stackLate (l : LineRec) (sec : Nat) (s : State) : Bool :=
  l.stk == 3 && (s.memc.jobs.any fun j => j.line == l.seq) && !l.dig.testBit sec
    && !(s.hst.reads.any fun x => x.sector == sec && x.line == l.seq)

/-- The first read-out of each sector among those of a line. -/
def firstOfSector (q : Word) : Nat → List ReadBank → List ReadBank
  | _, [] => []
  | seen, x :: l =>
    if x.line == q && !seen.testBit x.sector then { x with stack := true } :: firstOfSector q (seen ||| 2 ^ x.sector) l
    else x :: firstOfSector q seen l

/-- The banks of a sector swap at tick t.  A bank whose interval overlaps no line's dwell is cleared without a read-out; while HST
restarts nothing is read out or substituted, and the histograms are counted as lost (R20, R22). DEDUCED (log 47). -/
def State.swapSector (sec : Nat) (t : Wide) (s0 : State) : State :=
  let n := sec / 8
  let lost := s0.restarting (8 + n)
  let s := (s0.spendSwap sec t).discardRead sec
  let (s1, gone) := if lost then (s, []) else s.substitute sec
  let b := s1.bank sec
  let cut := (lost || s1.restarting (4 + n)) && s1.scan.lines.any fun l => l.started && !before t l.start && before t l.finish
  let s2 := (s1.hst' fun h => { h with acc := ins h.acc sec { from_ := some t, deg := if cut then allChans else 0 } }).showPalettes n
  match (s1.scan.lines.filter fun l => l.overlaps b.from_ t).reverse with
  | [] => s2
  | l :: older =>
    let w := s2.windowOf l sec
    let mixed := older.any fun k => s2.windowOf k sec ≠ w
    let deg := gone.foldl (fun m e => m ||| 2 ^ e.1) b.deg
    let x : ReadBank :=
      { sector := sec, line := l.seq, stop := t, readAt := t + usTicks (s2.getAt t (Fd.HST_CTL_DRAIN n))
        pal := s2.getAt t (Fd.HST_FLT_CTL_LIVE n), lost := if lost then allChans else 0
        stack := s2.stackLate l sec
        retired := gone
        bank := if mixed then { b.rebin w with deg := deg, low := allChans } else { b with deg := deg } }
    ((((((s2.onlyIf lost fun s => (s.countSec sec Src.HST_RO_OVERRUN 32).set (Fd.HST_STAT_OVERRUN n) 1).hst' fun h => { h with reads := h.reads ++ [x] }).outp' fun o =>
      { o with units := addToUnit l.seq t sec l.own o.units }).scan' fun q =>
        q.onLine l.seq fun k => { k with own := true, overrun := k.overrun || lost }).set (Fd.HST_SWAP_LAST_SEQ n) l.seq.toNat).showPalettes n)

/-- A sector's next swap tick is reached. DEDUCED (log 47). -/
def execBankSwap (sec : Fin 32) (s : State) : Res :=
  match earliest (s.swapTicks sec) with
  | none => ok s
  | some t => if s.timely t then ok ((s.reach t).swapSector sec t) else ok s

/-! ## Spares by command (R240) -/

def execStallRetireCmd (n : Fin 4) (s : State) : Res :=
  s.writeRow (Fd.HST_SPARE_CMD_GO n).off fun s =>
  ok ((s.set (Fd.HST_SPARE_CMD_GO n) 0).retireStall (256 * n + s.get (Fd.HST_SPARE_CMD_CHAN n)))

/-! ## Motion (R247) -/

/-- Writing MEMC_STK_PUB.GO: the set takes effect from 4 µs on. -/
def execMotionPublish (s : State) : Res :=
  s.writeRow Fd.MEMC_STK_PUB_GO.off fun s =>
  let eff := s.tick + 512000
  let m : Motion :=
    { vx := signed 32 (s.get Fd.MEMC_STK_VX_V), vy := signed 32 (s.get Fd.MEMC_STK_VY_V)
      vz := signed 32 (s.get Fd.MEMC_STK_VZ_V), yaw := signed 32 (s.get Fd.MEMC_STK_YAW_W), eff := eff }
  let kept := s.memc.motion.filter (fun x => before s.tick x.eff) ++
    (s.memc.motion.filter fun x => !before s.tick x.eff).take 1
  ok ((s.memc' fun c => { c with motion := m :: kept }).set Fd.MEMC_STK_MOT_TICK_LO_LO (eff.toNat % 2 ^ 32)
    |>.set Fd.MEMC_STK_MOT_TICK_HI_HI (eff.toNat / 2 ^ 32) |>.bump Fd.MEMC_STK_PUB_SEQ 1 |>.set Fd.MEMC_STK_PUB_GO 0
    |>.set Fd.MEMC_STK_STAT_NOMOTION 0)

/-! ## The stacking decision (R24, R244, R245) -/

/-- Channels × bins of the enabled tiles of a line. -/
def State.stackBins (l : LineRec) (s : State) : Nat :=
  (List.range 32).foldl (fun n t =>
    if s.getAt l.start (Fd.LNK_TILE_CTL_EN t) = 1 then n + 32 * 256 * ((s.windowOf l t).nbin + 1) else n) 0

/-- The read-out start of the next admitted line, if there is one: its earliest swap plus DRAIN. -/
def State.nextReadout (l : LineRec) (s : State) : Option Wide :=
  match s.scan.lines.find? fun k => before l.start k.start with
  | none => none
  | some k =>
    earliest ((List.range 4).filterMap (fun n =>
        if s.getAt k.finish (Fd.HST_CTL_AUTOSWAP n) = 1 then some (k.finish + usTicks (s.getAt k.finish (Fd.HST_CTL_DRAIN n)))
        else none)
      ++ (s.scan.actQ.filter fun a => before k.start a.tick).flatMap fun a =>
        ((List.range 4).filter fun n => a.act.swapMask / 2 ^ (8 * n) % 256 ≠ 0).map fun n =>
          a.tick + usTicks (s.getAt a.tick (Fd.HST_CTL_DRAIN n)))

/-- The geometry of a line (R242, R245); KBIN and NBIN of sector 0's window. -/
def State.geometry (l : LineRec) (s : State) : Geometry :=
  { kbin := (s.windowOf l 0).kbin, nbin := (s.windowOf l 0).nbin
    wstart := (List.range 32).map fun i => (s.windowOf l i).wstart }

/-- The line is left unstacked, its cause counted (R243). -/
def State.unstacked (l : LineRec) (src : Nat) (s : State) : State :=
  (s.scan' fun c => c.onLine l.seq fun k => { k with stk := 2 }).count 14 src 0 1

/-- The line is stacked: its slot's header, as the last line of the slot will leave it, decides whether the history is cleared (R245). DEDUCED (log 49). -/
def State.stackLine (l : LineRec) (done : Wide) (s : State) : State :=
  let h := match (s.memc.jobs.filter fun j => j.slot == l.desc).getLast? with
    | some j => j.header
    | none => rd (fun _ => {}) s.memc.headers l.desc
  let geo := s.geometry l
  let gap := ahead h.tick l.label
  let depth := match l.stack with
    | some x => x.depth
    | none => s.getAt l.start Fd.MEMC_STK_CTL_DDEF + 1
  let clr := match l.stack with
    | some x => x.clr
    | none => false
  let fresh := clr || h.bad || h.nframes == 0 || h.geo ≠ geo || h.era ≠ l.era
    || decide ((128000000 : Int) * s.getAt l.start Fd.MEMC_STK_CTL_MAXGAP < gap)
  let job : StkJob :=
    { line := l.seq, slot := l.desc, depth := depth, fresh := fresh, dt := gap.toNat, done := done
      header := { tick := l.label, era := l.era, nframes := min 15 ((if fresh then 0 else h.nframes) + 1), geo := geo } }
  let s1 := (s.scan' fun c => c.onLine l.seq fun k => { k with stk := 3 }).memc' fun m =>
    { m with jobs := m.jobs ++ [job], cPrev := some done }
  ((s1.hst' fun q => { q with reads := firstOfSector l.seq l.dig q.reads }).onlyIf fresh fun s =>
    s.count 14 Src.MEMC_STK_CLEAR 0 1).set Fd.MEMC_STK_STAT_BUSY 1

/-- The engine decides at R_N whether line N is stacked (R244); it skips while the memory is OFFLINE or not yet initialised (R326, R328), and a line of an HST restart
is not stacked (R247). DESIGN CHOICE (log 48). DEDUCED (log 49). -/
def State.stackDecide (l : LineRec) (now : Wide) (s : State) : State :=
  if [8, 9, 10, 11].any fun r => s.restarting r then s.scan' fun c => c.onLine l.seq fun k => { k with stk := 2 }
  else
    let start := match s.memc.cPrev with
      | some c => if before now c then c else now
      | none => now
    let done := start + BitVec.ofNat 64 ((4 * s.stackBins l * 8 + 6) / 7)
    let late := match s.nextReadout l with
      | some r => before r done
      | none => false
    if s.is Fd.MEMC_MEM_STAT_OFFLINE || !s.is Fd.MEMC_MEM_STAT_INIT_DONE || s.restarting 14 || late then
      (s.unstacked l Src.MEMC_STK_SKIP).set Fd.MEMC_STK_STAT_SKIP 1
    else s.stackLine l done

/-- The drain interval of a sector's oldest stopped bank ends: its read-out starts; the first of a line due to be
stacked decides for the line.  An event that still waits for a stop is entered first (R227). -/
def execReadoutStart (sec : Fin 32) (s : State) : Res :=
  match s.hst.reads.find? fun x => x.sector == sec.val && !x.started with
  | none => ok s
  | some x =>
    let s0 := s.releaseEvents
    if !s.timely x.readAt || (s0.hst.wait.any fun e => e.chan / 32 == x.sector && before (BitVec.ofInt 64 (e.x / 16)) x.stop) then ok s0
    else
      let s1 := (s0.reach x.readAt).hst' fun h =>
        { h with reads := h.reads.map fun y => if y.sector == x.sector && y.stop == x.stop then { y with started := true } else y }
      match s1.lineOf x.line with
      | some l => if l.stk = 1 then ok (s1.stackDecide l x.readAt) else ok s1
      | none => ok s1

/-! ## One channel's history (R245, R246) -/

/-- The shift of a channel since the last addition, in 1/256 bin, rounded: s less RES (R245, R246).  The cosines are
taken to within 2^-56. DESIGN CHOICE (log 48). -/
def State.shiftOf (l : LineRec) (c dt kbin nexc : Nat) (s : State) : Int :=
  match l.motion with
  | none => 0
  | some m =>
    let rx := signed 16 (s.getAt l.start Fd.MEMC_STK_LEVER_RX)
    let ry := signed 16 (s.getAt l.start Fd.MEMC_STK_LEVER_RY)
    let az : Int := s.getAt l.start (Fd.MEMC_STK_AZ_AZ c)
    let el := signed 16 (s.getAt l.start (Fd.MEMC_STK_EL_EL l.desc))
    let vx := m.vx * 1000000 - m.yaw * ry
    let vy := m.vy * 1000000 + m.yaw * rx
    let vz := m.vz * 1000000
    let vr := cos64 el * (cos64 az * vx + sin64 az * vy) + sin64 el * 2 ^ 64 * vz
    roundHalfAway (-2 * (100000000 + nexc : Nat) * vr * dt * 256) (100000000 * 1000000 * 2 ^ 128 * 299792458000 * 2 ^ kbin)

/-- The key of a channel's history. -/
def histKey (slot c : Nat) : Nat := slot * 1024 + c

/-- The bins of a channel's history. -/
def State.histBins (key nb : Nat) (s : State) : List Nat :=
  (List.range nb).map fun b => rd (fun _ => 0) s.memc.hist (4096 * key + b)

/-- The bins of a history replaced by those of a list. -/
def putHist (key : Nat) (v : List Nat) (m : SMap Nat) : SMap Nat :=
  let lo := m.filter fun e => decide (e.1 < 4096 * key)
  let hi := m.filter fun e => decide (4096 * (key + 1) ≤ e.1)
  lo ++ (v.mapIdx fun b n => (4096 * key + b, n)).filter (fun e => e.2 ≠ 0) ++ hi

/-- The history moved by sh bins (R245). -/
def shifted (sh : Int) (h : List Nat) : List Nat :=
  (List.range h.length).map fun (b : Nat) =>
    let i := (b : Int) - sh
    if 0 ≤ i ∧ i < h.length then h.getD i.toNat 0 else 0

/-- The sum of a moved history and a histogram (R245). -/
def stackSum (d : Nat) (hs h : List Nat) : List Nat :=
  List.zipWith (fun a b => min 65535 ((a * (d - 1) + d / 2) / d + b)) hs h

/-- A channel of a stacked line: what the filter receives, and whether earlier frames are in it (R245).  The computed s
lies within 1 of the exact value, so the difference is free. DESIGN CHOICE (log 48). -/
def State.stackChannel (l : LineRec) (j : StkJob) (c kbin nexc : Nat) (h : List Nat) (s : State) :
    State × List Nat × Bool :=
  let key := histKey j.slot c
  let fresh := j.fresh || s.memc.badBins.contains key
  let (adj, s0) := s.drawNat 3
  let sv := s0.shiftOf l c j.dt kbin nexc + rd (fun _ => 0) s0.memc.res key + (adj : Int) - 1
  let sh := (sv + 128) / 256
  let hs := if fresh then List.replicate h.length 0 else shifted sh (s0.histBins key h.length)
  let hn := stackSum j.depth hs h
  let res : Int := if fresh then 0 else sv - 256 * sh
  (s0.memc' fun m => { m with hist := putHist key hn m.hist, res := wr (fun _ => 0) m.res key res
                              badBins := m.badBins.filter (· ≠ key) }, hn, decide (2 ≤ j.depth) && !fresh)

/-- The engine completes its oldest line: the header is written after the last channel (R245), and waits while a channel of the memory is
retrained (R324). DEDUCED (log 49). -/
def execStackComplete (s : State) : Res :=
  match s.memc.jobs with
  | [] => ok s
  | j :: rest =>
    if !s.timely j.done || !s.memc.retrain.isEmpty || s.hst.reads.any (fun x => x.line == j.line && x.stack && !x.undelivered.isEmpty) then ok s
    else
      ok (((s.reach j.done).memc' fun m => { m with jobs := rest, headers := ins m.headers j.slot j.header }).setBit
        Fd.MEMC_STK_STAT_BUSY (!rest.isEmpty))

/-! ## Palettes (R254, R255) -/

/-- A kernel of a palette of region n. -/
def State.kernel (n q k : Nat) (s : State) : Kernel :=
  let len := s.get (Fd.HST_KHDR_L n q k)
  let half := (List.range 32).map fun i => signed 18 (s.get (Fd.HST_KCOEF_H n q k i))
  { h := mirror len half, osh := s.get (Fd.HST_KHDR_OSH n q k), edge := signed 16 (s.get (Fd.HST_KEDGE_KEDGE n q k))
    ksum := signed 24 (s.get (Fd.HST_KSUM_KSUM n q k)), ksq := s.get (Fd.HST_KSQ_KSQ n q k) }

/-- A palette that is live, pending live or in use (R255). -/
def State.paletteLocked (n q : Nat) (s : State) : Bool :=
  let f := Fd.HST_FLT_CTL_LIVE n
  s.get f == q || (s.is (Fd.HST_FLT_STAT_PEND n) && bitsOf (s.shadowWord f.off) f.hi f.lo == q)
    || (s.get (Fd.HST_FLT_STAT_PAL_BUSY n)).testBit q

/-- Region, palette, kernel and offset within the kernel of a palette location. -/
def kernelAt (a : Nat) : Option (Nat × Nat × Nat × Nat) :=
  let o := a % 0x200000
  let k := o % 0x1000 / 0x100
  if 0x01000000 ≤ a ∧ a < 0x01800000 ∧ 0x50000 ≤ o ∧ o < 0x52000 ∧ k < 8 then
    some ((a - 0x01000000) / 0x200000, (o - 0x50000) / 0x1000, k, o % 0x100)
  else none

/-- The bits of a kernel register that a write changes; none for KSUM and KSQ. -/
def kernelMask (o : Nat) : Option Nat :=
  if o = 0 then some 0x1F7F else if o = 4 then some 0xFFFF
  else if 0x80 ≤ o ∧ o < 0x100 ∧ o % 4 = 0 then some 0x3FFFF else none

/-- A write to a kernel: ignored and recorded while its palette is locked; otherwise KSUM and KSQ follow. -/
def execKernelWrite (who : Actor) (off : BitVec 32) (v : Word) (s : State) : Res :=
  match kernelAt off.toNat, kernelMask (off.toNat % 0x100) with
  | some (n, q, k, _), some m =>
    s.writeBy who off.toNat fun s =>
    if s.paletteLocked n q then ok (s.accRecord LOCK_VIOL off.toNat)
    else
      let s1 := s.put off.toNat (merge m (s.reg off.toNat) v)
      let h := (s1.kernel n q k).h
      ok (s1.set (Fd.HST_KSUM_KSUM n q k) (unsigned 24 (kernelSum h)) |>.set (Fd.HST_KSQ_KSQ n q k) (kernelSq h))
  | _, _ => .fault .illFormed

/-! ## Delivery (R235, R251 to R270) -/

/-- Read-outs in the order in which a region's engines take them (R235, R251). -/
def firstRead : List ReadBank → Option ReadBank
  | [] => none
  | x :: l => match firstRead l with
    | none => some x
    | some y =>
      if before x.readAt y.readAt || (x.readAt == y.readAt && decide (x.sector ≤ y.sector)) then some x else some y

/-- The zoom slots of a channel of a read-out that are armed. -/
def State.zoomSlots (x : ReadBank) (k : Nat) (s : State) : List Nat :=
  match s.lineOf x.line with
  | some l => (l.armedOf (32 * x.sector + k)).map Prod.fst
  | none => []

/-- The channel of a region whose echoes an engine completes next: the read-out and the channel of its sector.  The engine filters its
main histograms in ascending order and the sector's zoom windows after them, so that a channel with zoom windows is final after every
channel without (R239, R251, R269). DEDUCED (log 51). -/
def State.engineTakes (n eng : Nat) (s : State) : Option (ReadBank × Nat) :=
  let todo (x : ReadBank) : List Nat :=
    let l := x.undelivered.filter fun k => k % 8 == eng
    l.filter (fun k => (s.zoomSlots x k).isEmpty) ++ l.filter fun k => !(s.zoomSlots x k).isEmpty
  match firstRead (s.hst.reads.filter fun x => x.sector / 8 == n && x.started && !(todo x).isEmpty) with
  | none => none
  | some x => (todo x).head?.map fun k => (x, k)

/-- Change one read-out. DEDUCED (log 51). -/
def State.onRead (sec : Nat) (stop : Wide) (f : ReadBank → ReadBank) (s : State) : State :=
  s.hst' fun h => { h with reads := h.reads.map fun y => if y.sector == sec && y.stop == stop then f y else y }

/-- The number of a channel's histogram among those of a read-out: its main one, or that of a zoom slot (R260). -/
def histNum (k : Nat) (zoom : Option Nat) : Nat :=
  match zoom with
  | none => k
  | some slot => 32 + 4 * k + slot

/-- The engine of channel k can be taking a histogram of it, when k' is the channel that the engine completes next (R251): a main
histogram up to k', or any while the zoom windows of k' are still to come; a zoom window of k' itself. -/
def State.mayTake (x : ReadBank) (k k' : Nat) (zoom : Option Nat) (s : State) : Bool :=
  x.undelivered.contains k && k % 8 == k' % 8 && match zoom with
    | none => decide (k ≤ k') || !(s.zoomSlots x k').isEmpty
    | some slot => k == k' && (s.zoomSlots x k).contains slot

/-- A check fails at an input bin of a histogram that its engine is taking: the main one of channel c, or that of a zoom slot (R261).  The
engine restarts, a cell's retry; at the third failure within one histogram the spare takes over, or, in use already, the fault passes to
the region. DEDUCED (log 51). -/
def execFltRestart (c : Fin 1024) (zoom : Option (Fin 4)) (bin : BitVec 12) (s : State) : Res :=
  let n := c.val / 256
  let k := c.val % 32
  let eng := c.val % 8
  let repl := s.get (Fd.HST_FLT_STAT_REPL n)
  match s.engineTakes n eng with
  | none => ok s
  | some (x, k') =>
    if x.sector ≠ c.val / 32 ∨ !s.mayTake x k k' (zoom.map Fin.val) then ok s
    else
      let i := histNum k (zoom.map Fin.val)
      let fails := rd (fun _ => 0) x.fails i + 1
      let cut (l : List Nat) (y : ReadBank) : ReadBank :=
        { y with restarts := ins y.restarts i (rd (fun _ => []) y.restarts i ++ l), fails := ins y.fails i fails }
      let s1 := (s.set (Fd.HST_FLT_STAT_RESTART n) 1).countSec x.sector Src.HST_FLT_RESTART 1
      if fails < 3 then
        ok ((s1.onRead x.sector x.stop (cut [bin.toNat])).err
          { level := 0, region := 8 + n, block := 4, code := 0x0014, action := 2, cell := if repl = eng then 8 else eng, count := fails })
      else if repl = 15 then
        ok (((s1.onRead x.sector x.stop (cut [bin.toNat, bin.toNat + 1])).set (Fd.HST_FLT_STAT_REPL n) eng
          |>.set (Fd.HST_FLT_STAT_ENG_OK n) ((s.get (Fd.HST_FLT_STAT_ENG_OK n) ||| 0x100) &&& (0x1FF ^^^ 2 ^ eng))
          |>.set (Fd.HST_FLT_STAT_SUBST n) 1).countSec x.sector Src.HST_FLT_SUBST 1 |>.err
            { level := 1, region := 8 + n, block := 4, code := 0x0013, action := 3, cell := eng, count := 3 })
      else ok (((s1.onRead x.sector x.stop (cut [bin.toNat])).set (Fd.HST_FLT_STAT_NOSPARE n) 1).startRestart 3 (8 + n))

/-- A filtered histogram. -/
def filterHist (k : Kernel) (restarts x : List Nat) (beta16 bgmin kappa kbin : Nat) (start : Int) : Filtered :=
  { x := x, y := k.filter restarts x, k := k, lv := k.level beta16 bgmin kappa, kbin := kbin, start := start }

/-- The main echoes of a channel with their peak times, and how many candidates and ranges were discarded (R264, R270,
R274). -/
def mainEchoes (f : Filtered) (maxe nexc : Nat) (offs : List Nat) : List (Int × Echo) × Nat × Nat :=
  let ys := f.y.map Prod.fst
  let runs := runsFrom f.lv.thr 0 none ys
  let kept := largest maxe runs
  let es := kept.filterMap fun r =>
    f.measure nexc (ccrOf ys f.lv.bf (256 * r.y - f.lv.bf) r.p f.k.h.length offs) none r
  (es, runs.length - kept.length, kept.length - es.length)

/-- One zoom window refines the echoes of its channel (R268, R269). DEDUCED (log 51). -/
def State.zoomEchoes (n : Nat) (x : ReadBank) (k maxe nexc kappa bgmin kbin beta16 : Nat)
    (st : List (Int × Echo) × Nat × Nat) (s : State) (y : Nat × Nat × Zoom) : List (Int × Echo) × Nat × Nat :=
  let (es, trunc, oor) := st
  let (slot, _, z) := y
  let ksel := s.getAt x.stop (Fd.HST_KSEL_KZOOM n) / 8 ^ z.k % 8
  let bins := (List.range 256).map fun b => rd (fun _ => 0) x.bank.zbins ((4 * k + slot) * 256 + b)
  let f := filterHist (s.kernel n x.pal ksel) (rd (fun _ => []) x.restarts (histNum k (some slot))) bins (beta16 / 2 ^ (kbin - z.k)) bgmin kappa z.k (256 * z.start)
  match largest 1 (runsFrom f.lv.thr 0 none (f.y.map Prod.fst)) with
  | [] => (es, trunc, oor)
  | r :: _ => match f.measure nexc 255 (some z.k) r with
    | none => (es, trunc, oor + 1)
    | some e =>
      let (l, dropped) := refine maxe (256 * z.start) (256 * (z.start + 256 * 2 ^ z.k)) e es
      (l, trunc + (if dropped then 1 else 0), oor)

/-- A channel of a read-out is filtered and its echoes are found: its delivery, the candidates discarded, and the ranges
out of bounds. -/
def State.detect (x : ReadBank) (l : LineRec) (k : Nat) (bins : List Nat) (stacked : Bool) (s : State) :
    ChanOut × Nat × Nat :=
  let n := x.sector / 8
  let c := 32 * x.sector + k
  let w := s.windowOf l x.sector
  let t := x.stop
  let maxe := s.getAt t (Fd.HST_DET_MAXE n)
  let nexc := s.getAt t (Fd.HST_NAIR_NEXC n)
  let bgmin := s.getAt t (Fd.HST_BG_BGMIN n)
  let kappa := bitsOf l.d2 23 16
  let beta16 := 256 * background bins (s.getAt t (Fd.HST_BG_TRLO n)) (s.getAt t (Fd.HST_BG_TRHI n))
  let ksel := s.getAt t (Fd.HST_KSEL_KMAIN n) / 8 ^ (w.kbin - 3) % 8
  let f := filterHist (s.kernel n x.pal ksel) (rd (fun _ => []) x.restarts k) bins beta16 bgmin kappa w.kbin (32768 * w.wstart)
  let offs := shotOffsets (l.shots.map fun h => ahead l.start h.fire) (s.getAt l.start (Fd.HST_CTL_HMAX n)) w.kbin
  let armed := l.armedOf c
  let (es, trunc, oor) := armed.foldl (fun st y => s.zoomEchoes n x k maxe nexc kappa bgmin w.kbin beta16 st y)
    (mainEchoes f maxe nexc offs)
  ({ echoes := orderEchoes (es.map Prod.snd), beta := beta16, sat := x.bank.sat.testBit k, deg := x.bank.deg.testBit k
     low := x.bank.low.testBit k, stacked := stacked, zoomed := !armed.isEmpty, raw := bins, out := f.y }, trunc, oor)

/-- The echoes of a channel are final and go to OUTP (R269), the next that its engine completes; OUTP loses them while it restarts.  `errs`:
the bin errors that its read-out found (R231). -/
def execEchoDelivery (c : Fin 1024) (errs : List BinErr) (s : State) : Res :=
  let n := c.val / 256
  let sec := c.val / 32
  let k := c.val % 32
  match s.engineTakes n (c.val % 8) with
  | none => ok s
  | some (x, k') =>
    if x.sector ≠ sec ∨ k' ≠ k then ok s
    else
      let s1 := s.each (errs.filter fun e => e.chan.toNat == k) (State.binError sec (some x.stop))
      match s1.hst.reads.find? (fun y => y.sector == sec && y.stop == x.stop), s1.lineOf x.line with
      | some x1, some l =>
        if x1.lost.testBit k then ok s1
        else
          let w := s1.windowOf l sec
          let h := (List.range (256 * (w.nbin + 1))).map fun b => rd (fun _ => 0) x1.bank.bins (4096 * k + b)
          let job := if x1.stack && s1.getAt l.start (Fd.LNK_TILE_CTL_EN sec) == 1 then s1.memc.jobs.find? fun j => j.line == l.seq else none
          if job.isSome && !s1.memc.retrain.isEmpty then ok s1 else
          let (s2, bins, stacked) := match job with
            | some j => s1.stackChannel l j c w.kbin (s1.getAt x.stop (Fd.HST_NAIR_NEXC 0)) h
            | none => (s1, h, false)
          let (out, trunc, oor) := s2.detect x1 l k bins stacked
          let s2 := s2.tapHist sec c l.seq.toNat l.label bins
          let s3 := if s2.restarting 12 then
              (s2.onRead sec x.stop fun y => { y with lost := y.lost ||| 2 ^ k }).unitLoses fun u => u.line == x.line && u.stop == x.stop
            else s2.onRead sec x.stop fun y => { y with chans := ins y.chans k out }
          ok ((((s3.countSec sec Src.HST_ECHO_TRUNC trunc).countSec sec Src.HST_RANGE_OOR oor).onlyIf out.sat
            (State.set (stSat n (s.stallIn sec (some x.stop) k)) 1)).showPalettes n)
      | _, _ => ok s1

end Sys2Proof.Machine
end

