-- ==== Sys2Proof/Machine/Memory.lean ====
section
/-!
DEFINITION. MEMC: training, initialisation, errors, the scheduling periods, the patrol scrub (R322 to R330).
-/
namespace Sys2Proof.Machine

/-- An error of the memory block. -/
def memErr (level code action : Nat) : Err := { level := level, region := 14, block := 1, code := code, action := action }

/-! ## OFFLINE (R328, R335) -/

/-- The capture engine enters FAULT; what it holds is lost (R335). -/
def State.captureFault (s : State) : State :=
  (s.set Fd.MEMC_CAP_STAT_STATE 4 |>.set Fd.MEMC_CAP_STAT_QUEUED 0).memc' fun m =>
    { m with segs := [], capQ := [], early := [], fifo := [] }

/-- Nothing can be stacked any more: the lines being stacked are left unstacked, and counted as STK_SKIP (R328). -/
def State.skipJobs (s : State) : State :=
  let n := s.memc.jobs.length
  s.onlyIf (n != 0) fun s => (s.dropJobs.set Fd.MEMC_STK_STAT_SKIP 1).count 14 Src.MEMC_STK_SKIP 0 n

/-- The memory is OFFLINE. -/
def State.memOffline (s : State) : State := (s.set Fd.MEMC_MEM_STAT_OFFLINE 1).skipJobs.captureFault

/-- The memory may be used: trained, initialised and not OFFLINE (R326, R328). -/
def State.memReady (s : State) : Bool := s.is Fd.MEMC_MEM_STAT_INIT_DONE && !s.is Fd.MEMC_MEM_STAT_OFFLINE

/-! ## Training (R322, R323, R326) -/

/-- Training is due: at stage 8 of a start-up, or on RETRAIN, with the rails good (R447). DEDUCED (log 59). -/
def State.trainDue (s : State) : Bool :=
  s.is Fd.MEMC_MEM_CTL_RETRAIN
    || (s.stageIs 6 && s.chip.railMem && !s.is Fd.MEMC_MEM_STAT_TRAINED && !s.is Fd.MEMC_MEM_STAT_OFFLINE)

/-- The density code of four like devices (R322). -/
def commonDensity : List (BitVec 2) → Option Nat
  | [a, b, c, d] => if a ≠ 0 ∧ a = b ∧ b = c ∧ c = d then some a.toNat else none
  | _ => none

/-- Nothing in the GDDR7 survives training: every sector will be written to 0 (R326). -/
def Memc.forget (m : Memc) : Memc :=
  { m with hist := [], res := [], headers := [], badBins := [], badCap := [], retrain := [] }

/-- MEMC trains every channel.  `densities` are the mode-register densities of the four devices, `pass` whether every
channel trains. DEDUCED (log 59). -/
def execMemcTraining (densities : List (BitVec 2)) (pass : Bool) (s : State) : Res :=
  if densities.length ≠ 4 then .fault .illFormed
  else if !s.trainDue then ok s
  else
    let s1 := ((s.skipJobs.set Fd.MEMC_MEM_CTL_RETRAIN 0 |>.set Fd.MEMC_MEM_STAT_TRAINED 0 |>.set Fd.MEMC_MEM_STAT_INIT_DONE 0).memc'
      fun m => { m.forget with rate := s.get Fd.MEMC_MEM_CTL_RATE }).onlyIf (s.get Fd.MEMC_CAP_STAT_STATE != 0) State.captureFault
    match commonDensity densities with
    | none => ok ((s1.set Fd.MEMC_MEM_STAT_DENS 0).memOffline.err (memErr 2 0x0E84 4))
    | some d =>
      if pass then ok (s1.set Fd.MEMC_MEM_STAT_DENS d |>.set Fd.MEMC_MEM_STAT_TRAINED 1)
      else ok ((s1.set Fd.MEMC_MEM_STAT_DENS d).memOffline.err (memErr 2 0x0E82 4))

/-- Every sector has been written: the memory leaves OFFLINE, and stage 8 is complete. DEDUCED (log 59). -/
def execMemcInitDone (s : State) : Res :=
  if s.is Fd.MEMC_MEM_STAT_TRAINED && !s.is Fd.MEMC_MEM_STAT_INIT_DONE then
    ok (((s.set Fd.MEMC_MEM_STAT_INIT_DONE 1 |>.set Fd.MEMC_MEM_STAT_OFFLINE 0).onlyIf
      (s.get Fd.MEMC_CAP_STAT_STATE == 4) (State.set Fd.MEMC_CAP_STAT_STATE 0)).stageDone 8)
  else ok s

/-- Writing MEMC_MEM_CTL.RETRAIN; the bit clears when the training starts. -/
def execMemcRetrain (s : State) : Res := s.writeRow Fd.MEMC_MEM_CTL_RETRAIN.off fun s => ok (s.set Fd.MEMC_MEM_CTL_RETRAIN 1)

/-! ## A channel (R324) -/

/-- The CRC of a transfer fails, and it is retried, up to three times: `good` is the retry, less one, that succeeds.  When the third fails
the channel retrains.  The till counts the retries. DEDUCED (log 59). -/
def execCrcRetryFail (ch : Fin 4) (good : Option (Fin 3)) (s : State) : Res :=
  if !s.is Fd.MEMC_MEM_STAT_TRAINED || (look s.memc.retrain ch).isSome then ok s
  else
    match good with
    | some k => ok (s.count 14 Src.MEMC_CRC_RETRY ch (k + 1))
    | none =>
      ok (((s.count 14 Src.MEMC_CRC_RETRY ch 3).err { memErr 1 0x0E81 8 with cell := ch, count := 3 }).memc' fun m =>
        { m with retrain := ins m.retrain ch s.tick })

/-- A channel's retrain ends: its time is added to C_prev (R244); a failed one puts the memory OFFLINE. DEDUCED (log 59). -/
def execChannelRetrainDone (ch : Fin 4) (pass : Bool) (s : State) : Res :=
  match look s.memc.retrain ch with
  | none => ok s
  | some t =>
    let dt := s.tick - t
    let s1 := s.memc' fun m =>
      { m with retrain := del m.retrain ch, cPrev := m.cPrev.map (· + dt)
               jobs := m.jobs.map fun j => { j with done := j.done + dt } }
    if pass then ok (s1.set (Fd.MEMC_MEM_STAT_CH_RETRAIN.bit ch) 1)
    else ok ((s1.set Fd.MEMC_MEM_STAT_TRAINED 0).memOffline.err { memErr 2 0x0E82 4 with cell := ch })

/-! ## Device addresses and their sectors (R325, R328, R331) -/

/-- The areas of R331; a slot beyond NSLOT does not exist (R242). -/
inductive MemArea where
  | management
  | capture (sector : Nat)
  | stackHeader (slot : Nat)
  | stackBins (slot c : Nat)
  | unused
  deriving DecidableEq, Repr

/-- The bases of the areas. -/
def captureBase : Nat := 0x08000000
def headerBase : Nat := 0x48000000
def slotBase : Nat := 0x4A000000

/-- The top of usable space, by the density code; the top 1/16 of each device holds check data (R322, R325). -/
def State.memTop (s : State) : Nat := [0, 0x1E0000000, 0x2D0000000, 0x3C0000000].getD (s.get Fd.MEMC_MEM_STAT_DENS) 0

/-- The channel that holds a device address (R325). -/
def channelOf (da : Nat) : Nat := da / 256 % 4

/-- The area of a device address, with the 64-byte sector of the capture area, the slot of a header, or the slot and the channel of
bins (R242, R331). DEDUCED (log 60). -/
def areaOf (nslot da : Nat) : MemArea :=
  if da < captureBase then .management
  else if da < headerBase then .capture ((da - captureBase) / 64)
  else if da < slotBase then
    if da < headerBase + 2048 * nslot then .stackHeader ((da - headerBase) / 2048) else .unused
  else if da < slotBase + 2 ^ 23 * nslot then .stackBins ((da - slotBase) / 2 ^ 23) ((da - slotBase) % 2 ^ 23 / 8192)
  else .unused

/-- What an uncorrectable sector of an area means. DEDUCED (log 60). -/
def Memc.spoil (m : Memc) : MemArea → Memc
  | .stackBins slot c => { m with badBins := (slot * 1024 + c) :: m.badBins }
  | .stackHeader slot => { m with headers := ins m.headers slot { rd (fun _ => {}) m.headers slot with bad := true } }
  | .capture k => { m with badCap := (k, m.stored) :: m.badCap }
  | .management => m
  | .unused => m

/-- A read finds the sector at a device address in error: confined to one 16-bit symbol it is corrected, written back and counted as CE;
beyond that it is uncorrectable: counted, recorded, and handled by its area (R325, R328). DEDUCED (log 60, 61). -/
def execMemUe (da : BitVec 34) (oneSymbol : Bool) (s : State) : Res :=
  if !s.memReady || decide (s.memTop ≤ da.toNat) then ok s
  else
    let ch := channelOf da.toNat
    if oneSymbol then ok ((s.bump Fd.MEMC_MEM_CE_COUNT 1).count 14 Src.MEMC_CE ch 1)
    else
      let s1 := s.bumpSat Fd.MEMC_MEM_UE_COUNT 1 |>.count 14 Src.MEMC_UE ch 1
        |>.err { memErr 1 0x0E83 4 with cell := ch }
      ok (s1.memc' fun m => m.spoil (areaOf (s.get Fd.MEMC_STK_CTL_NSLOT) da.toNat))

/-! ## Scheduling and scrub (R327, R329, R330) -/

/-- The weighted round robin (R329): the clients take turns, each up to its weight, until nothing is left to give or to ask.  It answers
the requests left over and the client whose turn is next. -/
def wrrRun (w : List Nat) : Nat → Nat → Nat → List Nat → List Nat × Nat
  | 0, _, t, r => (r, t)
  | f + 1, room, t, r =>
    if room = 0 ∨ r.all (· = 0) then (r, t)
    else
      let n := min (w.getD t 0) (min (r.getD t 0) room)
      wrrRun w f (room - n) ((t + 1) % 3) (r.set t (r.getD t 0 - n))

/-- What a period's round robin has given: sectors left, the turn, and the sectors of the three clients. -/
structure WrrState where
  room : Nat
  turn : Nat
  got : List Nat

/-- One class of the order of R466 is served: `req` by client, of the clients that `ask`. DEDUCED (log 59). -/
def wrrClass (w : List Nat) (ask : Nat → Bool) (x : WrrState) (req : List Nat) : WrrState :=
  let r := req.mapIdx fun k n => if ask (w.getD k 0) then n else 0
  let y := wrrRun (w.map (max 1)) (3 * x.room + 3) x.room x.turn r
  let gave := (r.zip y.1).map fun e => e.1 - e.2
  { room := x.room - gave.sum, turn := y.2, got := (x.got.zip gave).map fun e => e.1 + e.2 }

/-- The classes of R466 in their order, with the sectors that management, capture export and the scrub request in each. -/
def loadClasses (x : MemLoad) : List (List Nat) :=
  [[x.safety.toNat, 0, 0], [x.foreground.toNat, x.export_.toNat, 0], [x.calibration.toNat, 0, 0], [0, 0, x.scrub.toNat],
    [x.telemetry.toNat, 0, 0]]

/-- A new scheduling period: both reserved slots get their full credit, and what was left has lapsed; the requests are served (R25,
R26, R329, R330, R466, R467): the owners up to their credit, check lines up to 1/16 of the data, a starved scrub's one sector, then
the round robin in what is left of the period, clients of weight 0 last. DEDUCED (log 59). -/
def execMemcPeriod (load : MemLoad) (s : State) : Res :=
  s.whenOn fun s =>
  if !s.memReady || s.restarting 14 then ok (s.memc' fun m => { m with stkCredit := 1792, capCredit := 768 })
  else
    let total := 256 * s.memc.rate
    let stk := min load.stk.toNat (min 1792 total)
    let cap := min load.cap.toNat (min 768 (total - stk))
    let asked := (loadClasses load).flatten.sum
    let check := min load.check.toNat (min ((stk + cap + asked) / 16) (min (total / 17) (total - stk - cap)))
    let room := total - stk - cap - check
    let share := if s.mgmt.scrubShare && load.scrub != 0 && room != 0 then 1 else 0
    let w := [s.get Fd.MEMC_BW_WRR_MGMT, s.get Fd.MEMC_BW_WRR_CAPX, s.get Fd.MEMC_BW_WRR_SCRUB]
    let classes := loadClasses { load with scrub := load.scrub - BitVec.ofNat 16 share }
    let x := classes.foldl (wrrClass w (· != 0)) { room := room - share, turn := s.memc.wrrTurn, got := [0, 0, share] }
    let y := classes.foldl (wrrClass w (· == 0)) x
    ok (((s.memc' fun m => { m with stkCredit := 1792 - stk, capCredit := 768 - cap, wrrTurn := y.turn }).mgmt'
      fun m =>
        let idle := load.scrub != 0 && y.got.getD 2 0 == 0
        { m with scrubShare := m.scrubShare && y.got.getD 2 0 == 0, scrubWait := if idle then some (m.scrubWait.getD s.tick) else none }).emit
        (.memServed stk cap check (y.got.getD 0 0) (y.got.getD 1 0) (y.got.getD 2 0)))

/-- One hour in ticks. -/
def ticksPerHour : Nat := 3600 * 128000000000

/-- A pass of the patrol scrub starts; PERIOD as it stands gives the start of the next; a starved scrub is served (R467). DEDUCED (log 59, 61). -/
def execScrubPass (corrected : List (Fin 4)) (s : State) : Res :=
  let early := match s.memc.scrubAt with
    | some t => decide ((s.tick.toNat : Int) < t)
    | none => false
  if !s.memReady || early then ok s
  else
    let s1 := (s.memc' fun m => { m with scrubAt := some ((s.tick.toNat + s.get Fd.MEMC_SCRUB_PERIOD * ticksPerHour : Nat) : Int) }).mgmt'
      fun m => { m with scrubShare := false, scrubWait := none }
    ok ((s1.count 14 Src.MEMC_SCRUB_PASS 0 1).each corrected fun ch s =>
      (s.bump Fd.MEMC_MEM_CE_COUNT 1).count 14 Src.MEMC_CE ch 1)

end Sys2Proof.Machine
end

