-- ==== Sys2Proof/Machine/PonosMem.lean ====
section
/-!
DEFINITION. Ponos: loads, stores and time (R85, R120, R121).
-/
namespace Sys2Proof.Machine

/-! ## The easel's data space (R85) -/

/-- A byte of an easel's data memory. -/
def State.dmByte (e a : Nat) (s : State) : Byte := rd (fun _ => 0) s.scan.dm (e * 16384 + a)
def State.setDmByte (e a : Nat) (v : Byte) (s : State) : State :=
  s.scan' fun c => { c with dm := wr (fun _ => 0) c.dm (e * 16384 + a) v }

/-- n bytes of data memory, little-endian (R4). -/
def State.dmRead (e a n : Nat) (s : State) : Nat :=
  ((List.range n).map fun i => (s.dmByte e (a + i)).toNat * 256 ^ i).foldl (· + ·) 0
def State.dmWrite (e a n v : Nat) (s : State) : State :=
  (List.range n).foldl (fun s i => s.setDmByte e (a + i) (BitVec.ofNat 8 (v / 256 ^ i))) s

/-- The register behind a table address of the data space: line descriptors, code table, summary memory, scratch. -/
def tableReg (a : Nat) : Option Nat :=
  if 0x00010000 ≤ a ∧ a < 0x00014000 then some (0x00490000 + (a - 0x00010000))
  else if 0x00020000 ≤ a ∧ a < 0x00030000 then some (0x004A0000 + (a - 0x00020000))
  else if 0x00030000 ≤ a ∧ a < 0x00038000 then some (0x004B0000 + (a - 0x00030000))
  else if 0x00040000 ≤ a ∧ a < 0x00041000 then some (0x004E0000 + (a - 0x00040000))
  else none

def isDataMem (a : Nat) : Bool := decide (a < 0x4000)
def isScratch (a : Nat) : Bool := decide (0x00040000 ≤ a ∧ a < 0x00041000)
def isDigest (a : Nat) : Bool := decide (0x00030000 ≤ a ∧ a < 0x00038000)

/-- The cause an access raises: alignment first, then the range; the summary memory takes 4-byte reads only (R85). DEDUCED (log 34). -/
def accessCause (a n : Nat) (store : Bool) : Option Nat :=
  if a % n ≠ 0 then some causeMISALIGN
  else if isDataMem a || isScratch a then none
  else if store then some causeBUS
  else if isDigest a then (if n = 4 then none else some causeBUS)
  else if (tableReg a).isSome then none
  else some causeBUS

/-- Read n bytes, 4 or 8, of the data space. -/
def State.load (e a n : Nat) (s : State) : Nat :=
  match tableReg a with
  | some r => (s.reg r).toNat + if n = 8 then (s.reg (r + 4)).toNat * 2 ^ 32 else 0
  | none => s.dmRead e a n

/-- Write n bytes of data memory or shared scratch. -/
def State.store (e a n v : Nat) (s : State) : State :=
  match tableReg a with
  | some r =>
    let s1 := s.put r (BitVec.ofNat 32 v)
    if n = 8 then s1.put (r + 4) (BitVec.ofNat 32 (v / 2 ^ 32)) else s1
  | none => s.dmWrite e a n v

/-- A memory instruction: the access it makes, or the exception the address raises (R85, R120). -/
def memory (h : Shape) (n : Nat) (store : Bool) (e : Fin 8) (f : Fields) (act : Nat → State → State) : State → Res :=
  instr e f h anyRange fun s =>
    let a := s.addr e f
    match accessCause a n store with
    | some c => s.raiseHere e c 0 (BitVec.ofNat 32 a)
    | none => (act a s).nextPc e

def execLd (e : Fin 8) (f : Fields) (s : State) : Res :=
  memory shLD 4 false e f (fun a s => s.setG e f.d.toNat (BitVec.ofNat 32 (s.load e a 4))) s
def execSt (e : Fin 8) (f : Fields) (s : State) : Res :=
  memory shST 4 true e f (fun a s => s.store e a 4 (s.g e f.b.toNat).toNat) s
def execLdt (e : Fin 8) (f : Fields) (s : State) : Res :=
  memory shLDT 8 false e f (fun a s => s.setT e f.d.toNat (BitVec.ofNat 64 (s.load e a 8))) s
def execStt (e : Fin 8) (f : Fields) (s : State) : Res :=
  memory shSTT 8 true e f (fun a s => s.store e a 8 (s.t e f.b.toNat).toNat) s

/-! ## Time (R121) -/

/-- NOW: the tick counter with its low 7 bits 0 (R67). -/
def execNow (e : Fin 8) (f : Fields) (s : State) : Res :=
  instr e f shNOW anyRange
    (fun s => (s.setT e f.d.toNat (s.tick &&& BitVec.ofNat 64 (2 ^ 64 - 128))).nextPc e) s

/-- WAITT: an operand already reached completes at once; otherwise the easel waits (R87, R121). -/
def execWaitt (e : Fin 8) (f : Fields) (s : State) : Res :=
  instr e f shWAITT anyRange
    (fun s =>
      let t := s.t e f.a.toNat
      if t.toNat ≤ s.tick.toNat then s.nextPc e else s.waitFor e (.time t)) s

/-- The tick counter reaches the operand of a waiting WAITT, and the easel goes on (R121). -/
def execWaittResume (e : Fin 8) (s : State) : Res :=
  match (s.easel e).wait with
  | .time t =>
    if t.toNat ≤ s.tick.toNat then if s.timely s.tick then ok (s.complete e) else ok s
    else if before s.tick t && s.timely t then ok ((s.reach t).complete e)
    else ok s
  | _ => ok s

/-- SETT: base plus the addend shifted by 8 × SH (R121); with Z = 1 the base is 0 and A must be 0. -/
def execSett (e : Fin 8) (f : Fields) (s : State) : Res :=
  instr e f shSETT (fun _ => xbits f 32 32 == 0 || f.a == 0)
    (fun s =>
      let base := if xbits f 32 32 = 1 then 0 else s.t e f.a.toNat
      let addend : Wide := if immForm f then (imm f).signExtend 64 else (s.g e f.b.toNat).zeroExtend 64
      (s.setT e f.d.toNat (base + addend <<< (8 * xbits f 35 34))).nextPc e) s

def execTcmp (e : Fin 8) (f : Fields) (s : State) : Res :=
  instr e f shTCMP (fun _ => decide (f.d.toNat < 4))
    (fun s => (s.setP e (pdOf f) (tcmpCond f.d.toNat (s.t e f.a.toNat) (s.t e f.b.toNat))).nextPc e) s

def execTget (e : Fin 8) (f : Fields) (s : State) : Res :=
  instr e f shTGET anyRange
    (fun s =>
      let t := (s.t e f.a.toNat).toNat
      (s.setG e f.d.toNat (BitVec.ofNat 32 (if xbits f 32 32 = 1 then t / 2 ^ 32 else t))).nextPc e) s

def execTput (e : Fin 8) (f : Fields) (s : State) : Res :=
  instr e f shTPUT anyRange
    (fun s => (s.setT e f.d.toNat
      (BitVec.ofNat 64 ((s.g e f.b.toNat).toNat * 2 ^ 32 + (s.g e f.a.toNat).toNat))).nextPc e) s

end Sys2Proof.Machine
end

