-- ==== Sys2Proof/Machine/Capture.lean ====
section
/-!
DEFINITION. The capture engine (R332 to R345) and the sync bus (R346 to R348).
-/
namespace Sys2Proof.Machine

/-! ## Settings (R333 to R336) -/

/-- The settings as the registers give them. -/
def State.capRegs (s : State) : SMap Word :=
  s.io.regs.filter fun e => decide (0x01C30000 ≤ e.1 ∧ e.1 < 0x01C30080)
def State.latchCap (s : State) : State := s.memc' fun m => { m with cap := s.capRegs }

/-- L_g, samples of a segment. -/
def Memc.segLen (m : Memc) : Nat :=
  let n := m.capGet Fd.MEMC_CAP_BUF_NSEG
  if n = 0 then 0 else m.capGet Fd.MEMC_CAP_BUF_MIB * 2 ^ 20 / m.sampleBytes / n

/-- Samples that a segment keeps: a guard of 64 separates the write position. -/
def Memc.keep (m : Memc) : Nat := m.segLen - 64

/-- A PTC above L_g − 64 is clamped (R336). -/
def State.clampPtc (s : State) : State :=
  let cap := ({ s.memc with cap := s.capRegs }).keep
  if cap < s.get Fd.MEMC_CAP_PTC_PTC then s.set Fd.MEMC_CAP_PTC_PTC cap |>.set Fd.MEMC_CAP_STAT_PTC_CLAMP 1 else s

def Memc.nseg (m : Memc) : Nat := m.capGet Fd.MEMC_CAP_BUF_NSEG
def Memc.ptc (m : Memc) : Nat := m.capGet Fd.MEMC_CAP_PTC_PTC
def Memc.condOn (m : Memc) (i : Nat) : Bool := (m.capGet Fd.MEMC_CAP_CTL_CEN).testBit i

/-- Streams with a scalar value (R333). -/
def isScalar (stream : Nat) : Bool := decide (2 ≤ stream ∧ stream ≤ 5)

/-- The reason to refuse an ARM (MEMC_CAP_STAT.REFUSE); of several, the memory's first, then the lowest code. DEDUCED (log 62). -/
def State.capRefusal (s : State) : Nat :=
  let m := { s.memc with cap := s.capRegs }
  let stream := m.capGet Fd.MEMC_CAP_SRC_STREAM
  let red := m.capGet Fd.MEMC_CAP_BUF_RED
  let on := [0, 1, 2, 3].filter m.condOn
  if !s.memReady then 8
  else if s.capState ≠ capIDLE then 1
  else if m.capGet Fd.MEMC_CAP_BUF_MIB = 0 ∨ 1024 < m.capGet Fd.MEMC_CAP_BUF_MIB then 2
  else if on.any fun i => m.capGet (Fd.MEMC_CAP_COND_KIND i) == 3
      || (m.capGet (Fd.MEMC_CAP_COND_KIND i) != 2 && !isScalar stream) then 3
  else if on.any fun i => !m.takesSub (m.capGet (Fd.MEMC_CAP_COND_SEL i)) then 4
  else if 16 < red ∨ (red ≠ 0 ∧ !isScalar stream) then 5
  else if m.segLen < 128 then 6
  else if m.capGet Fd.MEMC_CAP_CTL_CEN = 0 then 7
  else 0

/-! ## ARM (R335) -/

/-- A host ARM: refused with its reason, or segment 0 opens. -/
def State.arm (s : State) : State :=
  let why := s.capRefusal
  let s0 := (s.set Fd.MEMC_CAP_CMD_ARM 0).set Fd.MEMC_CAP_STAT_REFUSE why
  if why ≠ 0 then s0
  else
    (s0.clampPtc.latchCap.bump Fd.MEMC_CAP_SEQ_CAPSEQ 1 |>.capTo capARMED).memc' fun m =>
      { m with segs := [{ base := 0 }], capQ := [], stored := 0, prev := [], red := [], last := none, lastAt := none, hit := .none
               early := [], fifo := [], gapIn := false, gap := false, expSeg := 0, expAt := none, badCap := [] }

def execCapArm (s : State) : Res := s.writeRow Fd.MEMC_CAP_CMD_ARM.off fun s => ok s.arm

/-! ## Triggers (R337 to R340) -/

/-- The scalar value of a sample (R333). -/
def Memc.scalar (m : Memc) (x : Sample) : Int :=
  match m.capGet Fd.MEMC_CAP_SRC_STREAM with
  | 2 => x.bits.toNat % 2 ^ 16
  | 3 => signed 24 (x.bits.toNat % 2 ^ 24)
  | 4 => x.bits.toNat % 2 ^ 12
  | _ => x.bits.toNat % 2 ^ 32

/-- Condition i fires at sample x, whose sub-source's previous sample is p (R337). -/
def Memc.fires (m : Memc) (i : Nat) (p : Option Sample) (x : Sample) : Bool :=
  let lvl := signed 32 (m.capGet (Fd.MEMC_CAP_LVL_LVL i))
  let hi := signed 32 (m.capGet (Fd.MEMC_CAP_HI_HI i))
  let v := m.scalar x
  let rising (a : Int) : Bool := decide (a < lvl ∧ lvl ≤ v)
  let falling (a : Int) : Bool := decide (lvl < a ∧ v ≤ lvl)
  let inside (a : Int) : Bool := decide (lvl ≤ a ∧ a ≤ hi)
  m.condOn i && m.capGet (Fd.MEMC_CAP_COND_SEL i) == x.sub &&
    match m.capGet (Fd.MEMC_CAP_COND_KIND i), p with
    | 2, _ => x.bits.toNat % 2 ^ 32 &&& m.capGet (Fd.MEMC_CAP_HI_HI i) == m.capGet (Fd.MEMC_CAP_PAT_PAT i)
    | _, none => false
    | 0, some p =>
      let a := m.scalar p
      match m.capGet (Fd.MEMC_CAP_COND_SLOPE i) with
      | 1 => rising a
      | 2 => falling a
      | _ => rising a || falling a
    | _, some p =>
      let a := m.scalar p
      if m.capGet (Fd.MEMC_CAP_COND_DIR i) = 0 then !inside a && inside v else inside a && !inside v

/-- Round a non-negative quotient half up. -/
def halfUp (a : Int) (d : Int) : Int := if d = 0 then 0 else (2 * a + d) / (2 * d)

/-- frac and T of a LEVEL trigger (R338). -/
def crossing (lvl a b : Int) (t0 t1 : Nat) : Nat × Wide :=
  let frac := max 1 (halfUp (256 * (lvl - a).natAbs) (b - a).natAbs)
  (frac.toNat, BitVec.ofInt 64 (t0 + halfUp (frac * ahead (BitVec.ofNat 64 t0) (BitVec.ofNat 64 t1)) 256))

/-- A trigger of causes `cause` at sample x (R338, R339).  `tick` is the tick a sync assertion gives. DEDUCED (log 62). -/
def State.makeTrig (cause : Nat) (p : Option Sample) (x : Sample) (tick : Option Wide) (at_ : Option Nat) (s : State) :
    CapTrig :=
  let m := s.memc
  let primary := ((List.range 6).find? cause.testBit).getD 0
  let plain : Nat × Wide := (256, BitVec.ofNat 64 x.tick)
  let (frac, t) :=
    if primary < 4 ∧ m.capGet (Fd.MEMC_CAP_COND_KIND primary) = 0 then
      match p with
      | some p => crossing (signed 32 (m.capGet (Fd.MEMC_CAP_LVL_LVL primary))) (m.scalar p) (m.scalar x) p.tick x.tick
      | none => plain
    else if primary = 4 then (256, tick.getD plain.2)
    else plain
  { tick := t, era := eraBy s.io.era s.tick.toNat t.toNat, cause := cause, primary := primary, frac := frac, warm := s.warmAt t
    sub := x.sub, at_ := at_ }

/-- The capture engine is open to its accessors (R332). -/
def State.capOpen (s : State) : Bool := s.opensD 1

/-- A unit whose own condition is the primary cause asserts SYNC_TRIG (R348) from the first CI47 edge, one each 128 ticks, after
its decision, which falls where the sample is processed. DEDUCED (log 63). -/
def State.assertSync (g : CapTrig) (s : State) : State :=
  if decide (g.primary < 4) && s.is Fd.MEMC_SYNC_CTL_TEN && s.capOpen then
    (s.setWide 14 0x0022 (BitVec.ofNat 64 ((s.tick.toNat / 128 + 1) * 128))).emitPin .syncTrig
  else s

/-- The last trigger is shown. -/
def State.showTrig (s : State) (g : CapTrig) : State :=
  (s.set Fd.MEMC_CAP_STAT_TRIG_CAUSE g.cause |>.set Fd.MEMC_CAP_STAT_PRIMARY g.primary).setWide 14 0x0020 g.tick

def State.missTrigs (n : Nat) (s : State) : State := s.bump Fd.MEMC_CAP_TRIG_MISSED_COUNT n |>.count 14 Src.MEMC_TRIG_MISSED 0 n
def State.showCapQ (s : State) : State := s.set Fd.MEMC_CAP_STAT_QUEUED s.memc.capQ.length

/-- The last of a list changed. -/
def onLast {α : Type} (f : α → α) (l : List α) : List α :=
  match l.reverse with
  | [] => []
  | a :: r => (f a :: r).reverse

/-- Change the open segment. -/
def Memc.onSeg (f : CapSeg → CapSeg) (m : Memc) : Memc := { m with segs := onLast f m.segs }

/-- The open segment has no stored sample yet. -/
def Memc.opening (m : Memc) : Bool :=
  match m.segs.reverse with
  | [] => false
  | z :: _ => z.n == 0

/-- A trigger fires: it starts POST, is queued in a segmented capture, or is missed (R335, R340). DEDUCED (log 62). -/
def State.trigger (g : CapTrig) (s : State) : State :=
  if s.capState = capARMED ∧ !(s.memc.opening && !s.memc.capQ.isEmpty) then
    ((s.capTo capPOST).memc' fun m =>
      { m.onSeg (fun z => { z with trig := some g, from_ := g.at_ }) with hit := .segment }).showTrig g |>.assertSync g
  else if decide (2 ≤ s.memc.nseg) && decide (s.memc.capQ.length < 16) then
    (s.memc' fun m => { m with capQ := m.capQ ++ [g], hit := .queued }).showCapQ.showTrig g |>.assertSync g
  else (s.missTrigs 1).memc' fun m => { m with hit := .missed }

/-- Condition i fires at a sample that has fired trigger g: its cause is recorded with g's, and the lowest of them is
the primary, whose T is taken (R339). -/
def CapTrig.join (i : Nat) (new g : CapTrig) : CapTrig :=
  let h := if i < g.primary then { new with at_ := g.at_ } else g
  { h with cause := g.cause ||| 2 ^ i }

/-- Condition 4 or 5 fires with the sample being processed: as a trigger of its own, or with the one that the sample has fired
already; before a segment's first sample it waits for it (R337, R339). DEDUCED (log 62). -/
def State.asyncTrig (i : Nat) (t : Option Wide) (s : State) : State :=
  if decide (s.capState = capARMED ∨ s.capState = capPOST) && s.memc.condOn i then
    match s.memc.last with
    | none => s.memc' fun m => { m with early := m.early ++ [(i, t)] }
    | some x =>
      let g := s.makeTrig (2 ^ i) none x t s.memc.lastAt
      match s.memc.hit with
      | .none => s.trigger g
      | .missed => s
      | .segment =>
        let s1 := s.memc' fun m => m.onSeg fun z => { z with trig := z.trig.map (g.join i) }
        ((s1.memc.segs.getLast?.bind CapSeg.trig).map s1.showTrig).getD s1
      | .queued =>
        let s1 := s.memc' fun m => { m with capQ := onLast (g.join i) m.capQ }
        (s1.memc.capQ.getLast?.map s1.showTrig).getD s1
  else s

/-- The soft trigger. -/
def execCapTrig (s : State) : Res := s.writeRow Fd.MEMC_CAP_CMD_TRIG.off fun s => ok ((s.set Fd.MEMC_CAP_CMD_TRIG 0).asyncTrig 5 none)

/-! ## Samples (R333 to R342) -/

/-- Give the number of the stored sample to the triggers that waited for it. DEDUCED (log 62). -/
def resolveTrig (sub n : Nat) (g : CapTrig) : CapTrig := if g.at_.isNone && g.sub == sub then { g with at_ := some n } else g

/-- Store a sample in the open segment: a queued trigger takes the new segment to POST at its first sample (R340). -/
def Memc.putSample (x : Sample) (m : Memc) : Memc :=
  let n := m.stored
  let m1 := m.onSeg fun z =>
    let z1 := if z.n = 0 then { z with base := n } else z
    let t := z1.trig.map (resolveTrig x.sub n)
    { z1 with samples := (x :: z1.samples).take m.keep, n := z1.n + 1, trig := t
              from_ := if z1.queued then z1.from_ else t.bind CapTrig.at_
              gaps := if m.gap then n :: z1.gaps else z1.gaps }
  { m1 with stored := n + 1, gap := false, capQ := m1.capQ.map (resolveTrig x.sub n), lastAt := some n }

/-- The open segment has its post-trigger samples (R335). -/
def Memc.postFull (m : Memc) : Bool :=
  match m.segs.reverse with
  | [] => false
  | z :: _ =>
    match z.from_ with
    | some f => decide (f + m.ptc ≤ m.stored)
    | none => false

/-- The first queued trigger becomes that of the segment that opens with the next stored sample (R340). DEDUCED (log 62). -/
def State.takeQueued (s : State) : State :=
  match s.memc.capQ with
  | [] => s
  | g :: rest =>
    ((s.capTo capPOST).memc' fun m =>
      let n := m.stored
      { m.onSeg (fun z => { z with trig := some g, queued := true, base := n, from_ := some n
                                   qdly := n - g.at_.getD n }) with capQ := rest }).showCapQ.showTrig g

/-- Enter the sample in the interval of reduction of its sub-source; the pair when the interval is complete (R342). -/
def Memc.reduce (x : Sample) (m : Memc) : Memc × Option Sample :=
  let low : Wide := x.bits &&& BitVec.ofNat 64 (2 ^ 32 - 1)
  let at_ (w : Wide) : Int := m.scalar { x with bits := w }
  let r : CapRed := match look m.red x.sub with
    | none => { n := 1, tick := x.tick, lo := low, hi := low }
    | some r => { r with n := r.n + 1, lo := if at_ low < at_ r.lo then low else r.lo
                         hi := if at_ r.hi < at_ low then low else r.hi }
  if r.n = 2 ^ m.capGet Fd.MEMC_CAP_BUF_RED then
    ({ m with red := del m.red x.sub }, some { tick := r.tick, sub := x.sub, bits := r.lo + r.hi * BitVec.ofNat 64 (2 ^ 32) })
  else ({ m with red := ins m.red x.sub r, lastAt := none }, none)

/-- The sample is written: itself, or the pair it completes. -/
def State.writeSample (x : Sample) (s : State) : State :=
  let (m, y) := if s.capGet Fd.MEMC_CAP_BUF_RED = 0 then (s.memc, some x) else s.memc.reduce x
  let s1 := { s with memc := { m with last := some x, hit := .none } }
  match y with
  | none => s1
  | some y =>
    (if s1.memc.opening && decide (s1.capState = capARMED) then s1.takeQueued else s1).memc' (Memc.putSample y)

/-- The conditions that fire at a sample (R337, R339). -/
def Memc.causes (p : Option Sample) (x : Sample) (m : Memc) : Nat :=
  [0, 1, 2, 3].foldl (fun n i => if m.fires i p x then n + 2 ^ i else n) 0
    + (if m.early.any (·.1 == 4) then 16 else 0) + if m.early.any (·.1 == 5) then 32 else 0

/-- The oldest sample of the FIFO is written, then the triggers are evaluated on it; it waits while a channel is retrained (R324, R334). DEDUCED (log 62). -/
def execCapSample (s : State) : Res :=
  if !s.capRuns || !s.memc.retrain.isEmpty || (decide (s.capState = capPOST) && s.memc.postFull) then ok s
  else
    match s.memc.fifo with
    | [] => ok s
    | y :: rest =>
      let x := y.x
      let s0 := s.memc' fun m => { m with fifo := rest, gap := m.gap || y.gap }
      let p := look s0.memc.prev x.sub
      let cause := s0.memc.causes p x
      let tick := (s0.memc.early.find? (·.1 == 4)).bind Prod.snd
      let s1 := (s0.writeSample x).memc' fun m => { m with prev := ins m.prev x.sub x, early := [] }
      ok (if cause = 0 then s1 else s1.trigger (s1.makeTrig cause p x tick s1.memc.lastAt))

/-! ## The end of POST, ABORT (R335, R340, R341) -/

/-- EXPORT begins: triggers still queued are missed. -/
def State.beginExport (s : State) : State :=
  ((s.capTo capEXPORT).missTrigs s.memc.capQ.length |>.memc' fun m =>
    { m with capQ := [], early := [], fifo := [], expSeg := 0, expAt := none }).showCapQ

/-- The post-trigger count is reached: the next segment opens, or the last one is done. -/
def execCapPostEnd (s : State) : Res :=
  if s.capState = capPOST ∧ s.memc.postFull then
    if s.memc.segs.length < s.memc.nseg then
      ok ((s.capTo capARMED).memc' fun m => { m with segs := m.segs ++ [{ base := m.stored }], last := none, hit := .none })
    else ok s.beginExport
  else ok s

/-- ABORT, by state; in the cycle of the natural completion the completion wins. DEDUCED (log 62). -/
def State.abortCap (s : State) : State :=
  let s1 := s.set Fd.MEMC_CAP_CMD_ABORT 0
  if s.capState = capARMED then
    ((s1.capTo capIDLE).memc' fun m => { m with segs := [], capQ := [], early := [], fifo := [] }).showCapQ
  else if s.capState = capPOST then
    if s.memc.postFull ∧ s.memc.nseg ≤ s.memc.segs.length then s1.set Fd.MEMC_CAP_STAT_ABORT_LATE 1
    else (s1.memc' fun m => m.onSeg fun z => { z with aborted := true }).beginExport
  else if s.capState = capEXPORT then (s1.capTo capIDLE).memc' fun m => { m with segs := [] }
  else s1

def execCapAbort (s : State) : Res := s.writeRow Fd.MEMC_CAP_CMD_ABORT.off fun s => ok s.abortCap

/-! ## Export (R343 to R345) -/

/-- NPRE of a segment (R336). -/
def Memc.npre (m : Memc) (z : CapSeg) : Nat :=
  match z.from_ with
  | some f => min (f - z.base) (m.keep - m.ptc)
  | none => min z.n (m.keep - m.ptc)

/-- The kept samples of a segment with their numbers since ARM, oldest first (R336). -/
def Memc.kept (m : Memc) (z : CapSeg) : List (Nat × Sample) :=
  let from_ := z.from_.getD (z.base + z.n)
  let lo := from_ - m.npre z
  (z.samples.reverse.zipIdx (z.base + z.n - z.samples.length)).filterMap fun (x, i) => if lo ≤ i ∧ i < max lo (from_ + m.ptc) then some (i, x) else none

/-- The 64-byte sector of the capture area that a stored sample of segment g lies in. DEDUCED (log 60). -/
def Memc.sectorOf (m : Memc) (g i base : Nat) : Nat := (g * m.segLen + (i - base) % m.segLen) * m.sampleBytes / 64

/-- A kept sample of segment g lies in a sector that was uncorrectable after it had been stored (R328). DEDUCED (log 60). -/
def Memc.spoilt (m : Memc) (g base i : Nat) : Bool := m.badCap.any fun e => e.1 == m.sectorOf g i base && decide (i < e.2)

def bit (n : Nat) (b : Bool) : Nat := if b then 2 ^ n else 0

/-- The summary record of segment g. -/
def State.capSummary (g : Nat) (z : CapSeg) (s : State) : List Byte :=
  let m := s.memc
  let kept := m.kept z
  let t : CapTrig := z.trig.getD
    { tick := 0, era := 0, cause := 0, primary := 0, frac := 0, warm := false, sub := 0, at_ := none }
  let npre := if z.queued then 0 else m.npre z
  let status := bit 0 (s.is Fd.MEMC_CAP_STAT_PTC_CLAMP) + bit 1 z.aborted + bit 2 (s.is Fd.MEMC_CAP_STAT_ABORT_LATE)
    + bit 3 z.queued + bit 4 (kept.any fun e => z.gaps.contains e.1) + bit 5 (kept.any fun e => m.spoilt g z.base e.1)
    + bit 6 t.warm
  leBytes 1 4 ++ leBytes 1 (m.capGet Fd.MEMC_CAP_SRC_STREAM) ++ leBytes 2 status
    ++ leBytes 4 (s.get Fd.MEMC_CAP_SEQ_CAPSEQ) ++ leBytes 1 g ++ leBytes 1 t.cause ++ leBytes 1 t.primary ++ leBytes 1 0
    ++ leBytes 4 t.era ++ leBytes 8 t.tick.toNat ++ leBytes 4 npre ++ leBytes 4 npre ++ leBytes 4 kept.length
    ++ leBytes 4 z.qdly ++ leBytes 2 t.frac ++ leBytes 6 0

/-- The data record of segment g from kept sample k on, its samples, and whether it carries GAP. DEDUCED (log 62). -/
def State.capData (g k : Nat) (z : CapSeg) (s : State) : List Byte × Nat × Bool :=
  let m := s.memc
  let part := ((m.kept z).drop k).take (2 ^ m.capGet Fd.MEMC_CAP_CTL_CHUNK * 1024 / m.sampleBytes)
  let gap := part.any fun e => z.gaps.contains e.1
  let status := bit 0 (part.any fun e => m.spoilt g z.base e.1) + bit 1 gap + bit 2 (m.capGet Fd.MEMC_CAP_BUF_RED != 0)
  let tick := (part.head?.map fun e => e.2.tick).getD 0
  let body := part.flatMap fun e => leBytes m.sampleBytes (if m.spoilt g z.base e.1 then 0 else e.2.bits.toNat)
  let pad := (16 - body.length % 16) % 16
  (leBytes 1 3 ++ leBytes 1 (m.capGet Fd.MEMC_CAP_SRC_STREAM) ++ leBytes 2 status
    ++ leBytes 4 (s.get Fd.MEMC_CAP_SEQ_CAPSEQ) ++ leBytes 1 g ++ leBytes 1 m.sampleBytes ++ leBytes 2 0
    ++ leBytes 4 part.length ++ leBytes 4 k ++ leBytes 4 ((z.trig.map fun t => eraBy t.era t.tick.toNat tick).getD 0) ++ leBytes 8 tick
    ++ body ++ leBytes pad 0, part.length, gap)

/-- After a record: the next of its segment, the next segment, or the end of the export. -/
def State.nextRecord (k : Nat) (z : CapSeg) (s : State) : State :=
  if k < (s.memc.kept z).length then s.memc' fun m => { m with expAt := some k }
  else
    let s1 := s.memc' fun m => { m with expSeg := m.expSeg + 1, expAt := none }
    if s1.memc.expSeg < s1.memc.segs.length then s1 else (s1.capTo capIDLE).memc' fun m => { m with segs := [] }

/-- The next record goes to ring 12 once it has room; its reads wait while a channel is retrained (R324), and the export
traffic that is ready goes first (R313). -/
def execCapExportRecord (s0 : State) : Res :=
  if s0.capState ≠ capEXPORT ∨ !s0.memc.retrain.isEmpty then ok s0
  else
    let s := s0.drainStage
    match s.memc.segs[s.memc.expSeg]? with
    | none => ok (s.capTo capIDLE)
    | some z =>
      match s.memc.expAt with
      | none =>
        let r := s.capSummary s.memc.expSeg z
        ok (if s.ringRoom 12 [r.length] then (s.putItem 12 [r]).nextRecord 0 z else s)
      | some k =>
        let (r, n, gap) := s.capData s.memc.expSeg k z
        ok (if s.ringRoom 12 [r.length] then
            ((s.putItem 12 [r]).onlyIf gap fun s => s.count 14 Src.MEMC_CAP_GAP 0 1).nextRecord (k + max n 1) z
          else s)

/-! ## The sync bus: sending (R346) -/

/-- Nanoseconds in ticks. -/
def nsTicks (n : Nat) : Wide := BitVec.ofNat 64 (128 * n)

/-- The end of the FRAME pulse that is under way, or falls due before `t`. -/
def State.frameInWay (t : Wide) (s : State) : Option Wide :=
  let due := (s.scan.lines.filter fun l =>
    l.isFrame && !l.started && l.easel == s.get Fd.MEMC_SYNC_CTL_MENG && before l.start t).map fun l => l.start
  match s.memc.pulseEnd with
  | some e => if before s.tick (e + nsTicks 200) then some e
              else if s.is Fd.MEMC_SYNC_CTL_FEN then (earliest due).map (· + nsTicks 100) else none
  | none => if s.is Fd.MEMC_SYNC_CTL_FEN then (earliest due).map (· + nsTicks 100) else none

/-- The master's pulse goes out, and the master acts on it (R346); while the engine is withheld its side is inert
(R332). -/
def State.sendSync (arm : Bool) (s : State) : State :=
  (s.emitPin (.syncPulse (if arm then 400 else 1600))).onlyIf s.capOpen (if arm then State.arm else State.abortCap)

/-- The host writes MEMC_SYNC_CMD on the master: the pulse goes now, or 200 ns after the FRAME pulse in its way. DEDUCED (log 64). -/
def State.syncCmd (arm : Bool) (s : State) : State :=
  if s.get Fd.MEMC_SYNC_CTL_ROLE ≠ 1 then s
  else
    match s.frameInWay (s.tick + nsTicks ((if arm then 400 else 1600) + 200)) with
    | none => s.sendSync arm
    | some e => (s.memc' fun m => { m with deferred := some arm, pulseEnd := some e }).set Fd.MEMC_SYNC_STAT_SEND_PEND 1

def execSyncArmCmd (s : State) : Res := s.writeRow Fd.MEMC_SYNC_CMD_ARM.off fun s => ok ((s.set Fd.MEMC_SYNC_CMD_ARM 0).syncCmd true)
def execSyncDisarmCmd (s : State) : Res := s.writeRow Fd.MEMC_SYNC_CMD_DISARM.off fun s => ok ((s.set Fd.MEMC_SYNC_CMD_DISARM 0).syncCmd false)

/-- A deferred pulse starts 200 ns after the FRAME pulse has ended; a unit that is the master no more sends none (R346). DEDUCED (log 64). -/
def execSyncPulseDeferred (s : State) : Res :=
  if s.restarting 14 then ok s else
  match s.memc.deferred, s.memc.pulseEnd with
  | some arm, some e =>
    let t := e + nsTicks 200
    if s.get Fd.MEMC_SYNC_CTL_ROLE ≠ 1 then ok ((s.memc' fun m => { m with deferred := none }).set Fd.MEMC_SYNC_STAT_SEND_PEND 0)
    else if s.timely t then
      ok (((s.reach t).memc' fun m => { m with deferred := none }).set Fd.MEMC_SYNC_STAT_SEND_PEND 0 |>.sendSync arm)
    else ok s
  | _, _ => ok s

/-! ## The sync bus: receiving (R346 to R348) -/

/-- An edge is stamped to 1 ns. DEDUCED (log 64). -/
def stamp (t : Wide) : Wide := BitVec.ofNat 64 (t.toNat / 128 * 128)

/-- FT of a FRAME pulse is latched, stored in the shared scratch, and signalled (R347). DEDUCED (log 64). -/
def State.takeFrame (edge : Wide) (s : State) : State :=
  let ft := stamp edge - BitVec.ofNat 64 (s.get Fd.MEMC_SYNC_DLY_ARM_DLY)
  ((s.setWide 14 0x0021 ft).store 0 (0x00040000 + 8 * s.get Fd.MEMC_SYNC_CTL_FWORD) 8 ft.toNat).setSig
    (s.get Fd.MEMC_SYNC_CTL_FSIG)

/-- A pulse on SYNC_ARM of the given width in ns reaches a receiver. -/
def execSyncPulseRx (edge : Wide) (width : BitVec 16) (s : State) : Res :=
  if s.restarting 14 || !s.tbas.running then ok s else
  let w := width.toNat
  if s.get Fd.MEMC_SYNC_CTL_ROLE ≠ 0 then ok s
  else if w < 200 then ok (if s.is Fd.MEMC_SYNC_CTL_FEN then s.takeFrame edge else s)
  else if 250 ≤ w ∧ w ≤ 800 then ok (if s.is Fd.MEMC_SYNC_CTL_ARMIN && s.capOpen then s.arm else s)
  else if 1000 ≤ w then ok (if s.is Fd.MEMC_SYNC_CTL_ARMIN && s.capOpen then s.abortCap else s)
  else ok ((s.set Fd.MEMC_SYNC_STAT_PULSE_BAD 1).count 14 Src.MEMC_SYNC_BADPULSE 0 1)

/-- Another unit asserts SYNC_TRIG (R348). -/
def execSyncTrigRx (edge : Wide) (s : State) : Res :=
  if s.restarting 14 || !s.tbas.running then ok s else
  if s.get Fd.MEMC_SYNC_CTL_ROLE ≠ 2 ∧ s.capOpen then
    ok (s.asyncTrig 4 (some (stamp edge - BitVec.ofNat 64 (s.get Fd.MEMC_SYNC_DLY_TRIG_DLY))))
  else ok s

end Sys2Proof.Machine
end

