-- ==== Sys2Proof/Machine/PonosAct.lean ====
section
/-!
DEFINITION. Ponos: the timed actions (R122 to R129), which present one request to the arbiter and wait, and the bank
swap point (R108).
-/
namespace Sys2Proof.Machine

/-- Present a request and wait for the arbiter (R87, R122). -/
def State.present (e : Nat) (f : Fields) (r : Request) (s : State) : State :=
  (s.waitFor e .arbiter).easel' e fun z => { z with port := some { req := r, gd := f.d.toNat, pd := pdOf f } }

/-- The swap of R108: the easel changes bank, sets PC to 0, loads T0 and clears EXL; SECU's measurement of the bank
moves to the active place (R409). -/
def State.swapBank (e : Nat) (t : Wide) (s : State) : State :=
  let s1 := s.set (Fd.SCAN_EASEL_STAT_BANK e) (1 - s.get (Fd.SCAN_EASEL_STAT_BANK e))
    |>.set (Fd.SCAN_EASEL_STAT_SWAP_PEND e) 0 |>.setPc e 0 |>.set (Fd.SCAN_EASEL_STAT_EXL e) 0
  ((s1.setT e 0 t).easel' e fun z => { z with swapFrom := none }).secu' fun u =>
    match look u.bankPend e with
    | some d => { u with meas := ins u.meas (5 + e) d, bankPend := del u.bankPend e }
    | none => u

/-- A LINE of easel e at tick t is the swap point: a swap is pending, t is at least V, and F is set or SWAPAT is 1
(R108). -/
def State.isSwapPoint (e : Nat) (t : Wide) (frame : Bool) (s : State) : Bool :=
  s.is (Fd.SCAN_EASEL_STAT_SWAP_PEND e) && (frame || s.is (Fd.SCAN_EASEL_CTL_SWAPAT e)) &&
    match (s.easel e).swapFrom with
    | some v => !before t v
    | none => false

/-- A LINE of easel e is where HUSH entry halts it: its first frame start at least 4 µs after acceptance, or once FWAIT
has passed, its first LINE of any kind (R441). -/
def State.isHushPoint (t : Wide) (frame : Bool) (s : State) : Bool :=
  s.chip.hush == 1 && (s.chip.hushAny || (frame && decide ((commitLead : Int) ≤ ahead s.chip.hushAt t)))

/-- LINE (R123): at a swap point the easel changes bank, at a HUSH point it halts with PC at the LINE; otherwise it
presents its request. -/
def execLine (e : Fin 8) (f : Fields) (s : State) : Res :=
  instr e f shLINE (fun _ => decide (128000 ≤ xbits f 27 0 ∧ xbits f 27 0 ≤ 134217728) && xbits f 29 28 != 3)
    (fun s =>
      let t := s.t e f.a.toNat
      let frame := xbits f 30 30 == 1
      if s.isSwapPoint e t frame then s.swapBank e t
      else if s.isHushPoint t frame then
        (s.halt e).haltIrq e |>.chip' fun c => { c with hushMask := c.hushMask ||| 2 ^ e.toNat }
      else s.present e f (.line ((s.g e f.b.toNat).toNat % 1024) t (xbits f 27 0) frame (xbits f 29 28))) s

def execShot (e : Fin 8) (f : Fields) (s : State) : Res :=
  instr e f shSHOT anyRange (fun s => s.present e f (.shot (s.t e f.a.toNat))) s

/-- TRAIN and LISTENONLY: HINC adds 1 to HOP before the request is presented (R124, R125). -/
def train (h : Shape) (listen : Bool) (e : Fin 8) (f : Fields) : State → Res :=
  instr e f h anyRange fun s =>
    let s1 := if xbits f 10 10 = 1 then s.bump (Fd.SCAN_EASEL_STAT_HOP e) 1 else s
    s1.present e f (.train (s.t e f.a.toNat) (xbits f 5 0 + 1) (xbits f 8 8 == 1) (xbits f 9 9 == 1) listen
      ((s.g e f.b.toNat).toNat % 256))

def execTrain (e : Fin 8) (f : Fields) (s : State) : Res := train shTRAIN false e f s
def execListenonly (e : Fin 8) (f : Fields) (s : State) : Res := train shLISTENONLY true e f s

/-- STAG reads 16 bytes of data memory; the address is 16-byte aligned and at most 0x3FF0 (R126). -/
def execStag (e : Fin 8) (f : Fields) (s : State) : Res :=
  instr e f shSTAG anyRange
    (fun s =>
      let a := (s.g e f.b.toNat).toNat
      if a % 16 ≠ 0 then s.raiseHere e causeMISALIGN 0 (BitVec.ofNat 32 a)
      else if 0x3FF0 < a then s.raiseHere e causeBUS 0 (BitVec.ofNat 32 a)
      else s.present e f (.stag (s.t e f.a.toNat) ((List.range 16).map fun i => (s.dmByte e (a + i)).toNat))) s

/-- The window in G[A] (R127). -/
def windowIn (w : Word) : Window := { wstart := bitsOf w 15 0, kbin := bitsOf w 19 16, nbin := bitsOf w 23 20 }

/-- WINDOW: KBIN outside 3 to 8, or a window below 256 ns, is ILLEGAL (R127). -/
def execWindow (e : Fin 8) (f : Fields) (s : State) : Res :=
  instr e f shWINDOW
    (fun s =>
      let w := windowIn (s.g e f.a.toNat)
      decide (3 ≤ w.kbin ∧ w.kbin ≤ 8) && decide (32768 ≤ w.lenTicks))
    (fun s => s.present e f (.window (windowIn (s.g e f.a.toNat)) (imm f).toNat)) s

/-- The zoom that ZOOM arms (R128). -/
def zoomIn (f : Fields) (a b : Word) : Zoom :=
  { slot := xbits f 1 0, k := xbits f 3 2, start := bitsOf a 20 0, first := bitsOf b 9 0, count := bitsOf b 25 16 + 1 }

/-- ZOOM: a run that ends beyond channel 1,023 is ILLEGAL (R128). -/
def execZoom (e : Fin 8) (f : Fields) (s : State) : Res :=
  instr e f shZOOM
    (fun s =>
      let z := zoomIn f (s.g e f.a.toNat) (s.g e f.b.toNat)
      decide (z.first + z.count ≤ 1024))
    (fun s => s.present e f (.zoom (zoomIn f (s.g e f.a.toNat) (s.g e f.b.toNat)))) s

def execHswap (e : Fin 8) (f : Fields) (s : State) : Res :=
  instr e f shHSWAP anyRange (fun s => s.present e f (.swap (s.t e f.a.toNat) (imm f).toNat)) s

/-- STACK: EN, DEPTH and CLR from G[A] (R129). -/
def execStack (e : Fin 8) (f : Fields) (s : State) : Res :=
  instr e f shSTACK anyRange
    (fun s =>
      let w := s.g e f.a.toNat
      s.present e f (.stack { en := w.getLsbD 0, depth := bitsOf w 4 1 + 1, clr := w.getLsbD 5 })) s

end Sys2Proof.Machine
end

