-- ==== Sys2Proof/Machine/PonosAlu.lean ====
section
/-!
DEFINITION. Ponos: arithmetic, logic, predicates, special reads and branches (R116 to R119).
-/
namespace Sys2Proof.Machine

/-- An ALU instruction: Gd from G[A] and the second operand, modulo 2^32, no exception (R116). -/
def alu (opc : Nat) (op : Word → Word → Word) (e : Fin 8) (f : Fields) : State → Res :=
  instr e f (shAlu opc) anyRange fun s => (s.setG e f.d.toNat (op (s.g e f.a.toNat) (s.opB e f))).nextPc e

def execAdd (e : Fin 8) (f : Fields) (s : State) : Res := alu 0x10 (· + ·) e f s
def execSub (e : Fin 8) (f : Fields) (s : State) : Res := alu 0x11 (· - ·) e f s
def execAnd (e : Fin 8) (f : Fields) (s : State) : Res := alu 0x12 (· &&& ·) e f s
def execOr (e : Fin 8) (f : Fields) (s : State) : Res := alu 0x13 (· ||| ·) e f s
def execXor (e : Fin 8) (f : Fields) (s : State) : Res := alu 0x14 (· ^^^ ·) e f s
/-- The low 32 bits of the product (R116). -/
def execMul (e : Fin 8) (f : Fields) (s : State) : Res := alu 0x15 (· * ·) e f s
def execMinu (e : Fin 8) (f : Fields) (s : State) : Res := alu 0x16 (fun a b => if a.ult b then a else b) e f s
def execMaxu (e : Fin 8) (f : Fields) (s : State) : Res := alu 0x17 (fun a b => if a.ult b then b else a) e f s
/-- Shifts by bits 4:0 of the second operand (R116). -/
def execShl (e : Fin 8) (f : Fields) (s : State) : Res := alu 0x18 (fun a b => a <<< (b.toNat % 32)) e f s
def execShr (e : Fin 8) (f : Fields) (s : State) : Res := alu 0x19 (fun a b => a >>> (b.toNat % 32)) e f s
def execSar (e : Fin 8) (f : Fields) (s : State) : Res := alu 0x1A (fun a b => a.sshiftRight (b.toNat % 32)) e f s

/-- CMP.cc (R117); cc 6 to 31 are reserved. -/
def execCmp (e : Fin 8) (f : Fields) (s : State) : Res :=
  instr e f shCMP (fun _ => decide (f.d.toNat < 6))
    (fun s => (s.setP e (pdOf f) (cmpCond f.d.toNat (s.g e f.a.toNat) (s.opB e f))).nextPc e) s

/-- PLOG.op (R117); op 4 to 31 are reserved. -/
def execPlog (e : Fin 8) (f : Fields) (s : State) : Res :=
  instr e f shPLOG (fun _ => decide (f.d.toNat < 4))
    (fun s => (s.setP e (pdOf f) (plogOp f.d.toNat (s.p e f.a.toNat) (s.p e f.b.toNat))).nextPc e) s

/-- The special values MFS reads (R118). -/
def State.special (e sel : Nat) (s : State) : Word :=
  match sel with
  | 0 => (s.easel e).astat
  | 1 => BitVec.ofNat 32 (s.get (Fd.SCAN_EASEL_STAT_HOP e))
  | 2 => BitVec.ofNat 32 (s.get (Fd.SCAN_EASEL_PC_EPC e))
  | 3 => s.reg (Fd.SCAN_EASEL_ECAUSE_CAUSE e).off
  | 4 => s.reg (Fd.SCAN_EASEL_EDETAIL_DETAIL e).off
  | 5 => BitVec.ofNat 32 e
  | 6 => s.reg Fd.SCAN_DSM_LAST_SEQ.off
  | 7 => s.reg Fd.SCAN_LINE_SEQ_SEQ.off
  | 8 => match (s.easel e).cur with
    | some q => match s.scan.lines.find? fun l => l.seq = q with
      | some l => if before s.tick (l.start + BitVec.ofNat 64 l.dwell) && !l.ended then q else 0xFFFFFFFF
      | none => 0xFFFFFFFF
    | none => 0xFFFFFFFF
  | 9 => s.reg Fd.CHIP_PROOF_STATUS_STATE.off
  | 10 => s.reg Fd.CHIP_COMMIT_STATUS_STATE.off
  | 11 => s.reg Fd.SCAN_FRAME_SEQ_SEQ.off
  | _ => BitVec.ofNat 32 (s.get Fd.MGMT_BG_STAT_REQ)

/-- The selector of MFS and MTS. -/
def selOf (f : Fields) : Nat := xbits f 7 0

def execMfs (e : Fin 8) (f : Fields) (s : State) : Res :=
  instr e f shMFS (fun _ => decide (selOf f < 13))
    (fun s => (s.setG e f.d.toNat (s.special e (selOf f))).nextPc e) s

/-- MTS writes HOP or EPC; every other selector is read-only or not listed (R118). -/
def execMts (e : Fin 8) (f : Fields) (s : State) : Res :=
  instr e f shMTS (fun _ => selOf f == 1 || selOf f == 2)
    (fun s =>
      let v := (s.g e f.a.toNat).toNat
      (if selOf f = 1 then s.set (Fd.SCAN_EASEL_STAT_HOP e) v else s.set (Fd.SCAN_EASEL_PC_EPC e) v).nextPc e) s

/-! ## Branches (R119) -/

def target (f : Fields) : Nat := xbits f 11 0

def execBr (e : Fin 8) (f : Fields) (s : State) : Res := instr e f shBR anyRange (fun s => s.setPc e (target f)) s

def execJal (e : Fin 8) (f : Fields) (s : State) : Res :=
  instr e f shJAL anyRange
    (fun s => (s.setG e f.d.toNat (BitVec.ofNat 32 ((s.pc e + 1) % 4096))).setPc e (target f)) s

def execJr (e : Fin 8) (f : Fields) (s : State) : Res :=
  instr e f shJR anyRange (fun s => s.setPc e ((s.g e f.a.toNat).toNat % 4096)) s

/-- DEDUCED (log 36). -/
def execLoop (e : Fin 8) (f : Fields) (s : State) : Res :=
  instr e f shLOOP anyRange
    (fun s =>
      let v := s.g e f.a.toNat - 1
      let s1 := s.setG e f.a.toNat v
      if v = 0 then s1.nextPc e else s1.setPc e (target f)) s

/-- RETE: PC ← EPC, P ← EPRED, EXL cleared; with EXL at 0, ILLEGAL (R104, R119). -/
def execRete (e : Fin 8) (f : Fields) (s : State) : Res :=
  instr e f shRETE (fun s => s.is (Fd.SCAN_EASEL_STAT_EXL e))
    (fun s => (s.setPc e (s.get (Fd.SCAN_EASEL_PC_EPC e))
      |>.set (Fd.SCAN_EASEL_PRED_P e) ((s.easel e).epred ||| 1)).set (Fd.SCAN_EASEL_STAT_EXL e) 0) s

end Sys2Proof.Machine
end

