-- ==== Sys2Proof/Machine/PonosSys.lean ====
section
/-!
DEFINITION. Ponos: feedback, configuration, synchronisation and system instructions (R130 to R135), and the undefined
opcode (R84, R114).
-/
namespace Sys2Proof.Machine

/-! ## Feedback (R130, R131) -/

/-- The first word of the digest entry of a line sequence and a sector (R98). -/
def digestAddr (seq : Word) (sector : Nat) : Nat := 0x004B0000 + 512 * (seq.toNat % 64) + 16 * sector

/-- PEEK reads the entry whole; D is 4, 8, …, 28 (R130). -/
def execPeek (e : Fin 8) (f : Fields) (s : State) : Res :=
  instr e f shPEEK (fun _ => f.d.toNat % 4 == 0 && decide (4 ≤ f.d.toNat ∧ f.d.toNat ≤ 28))
    (fun s =>
      let seq := s.g e f.a.toNat
      let at_ := digestAddr seq ((s.g e f.b.toNat).toNat % 32)
      let d := f.d.toNat
      let w := fun i => s.reg (at_ + 4 * i)
      let hit := bitsOf (w 1) 31 31 == 1 && w 0 == seq
      (s.setG e d (w 0) |>.setG e (d + 1) (w 1) |>.setG e (d + 2) (w 2) |>.setG e (d + 3) (w 3)
        |>.setP e (pdOf f) hit).nextPc e) s

/-- SUMWAIT: a digest already complete completes it at once; otherwise the easel waits (R99, R131). -/
def execSumwait (e : Fin 8) (f : Fields) (s : State) : Res :=
  instr e f shSUMWAIT anyRange
    (fun s =>
      let n := s.g e f.a.toNat
      if s.digestDone n then s.nextPc e else s.waitFor e (.digest n)) s

/-! ## Configuration (R100, R132) -/

/-- The regions whose STG registers SKETCH reaches (R100). -/
def sketchRegion (a : Nat) : Bool :=
  let r := a / 0x200000
  decide (2 ≤ r ∧ r ≤ 12) || r == 14

/-- SKETCH: alignment first, then the address; a scan program has the host's access rights; a write that meets a closed gate is aborted
(R28, R85, R100, R132). DEDUCED (log 18, 19). -/
def execSketch (e : Fin 8) (f : Fields) (s : State) : Res :=
  instr e f shSKETCH anyRange
    (fun s =>
      let a := s.addr e f
      let n := normalAddr a
      if a % 4 ≠ 0 then s.raiseHere e causeMISALIGN 0 (BitVec.ofNat 32 a)
      else if sketchRegion a && stagedMask n != 0 && !s.withheld .host n true (s.g e f.b.toNat) then
        (if s.gated n then s.gateAbort (.scan e) a true else s.stage n (s.g e f.b.toNat)).nextPc e
      else s.raiseHere e causeBUS 0 (BitVec.ofNat 32 a)) s

/-- PROOF starts the proof and does not wait (R132). -/
def execProof (e : Fin 8) (f : Fields) (s : State) : Res :=
  instr e f shPROOF anyRange (fun s => (s.startProof).nextPc e) s

/-- The status a COMMIT refused with PENDING by R44 receives: refused, PENDING, its own SRC (R132). -/
def preemptedStatus (e : Nat) : Word := BitVec.ofNat 32 (4 + 3 * 2 ^ 8 + (2 + e) * 2 ^ 17)

/-- COMMIT (R43, R44, R132).  `preempted`: a preferred requester asks in the same cycle. -/
def execCommit (e : Fin 8) (f : Fields) (preempted : Bool) (s : State) : Res :=
  instr e f shCOMMIT (fun _ => xbits f 1 0 == 3 || f.a == 0)
    (fun s =>
      if preempted then
        ((s.count 0 Src.CHIP_COMMIT_REFUSED 0 1).setG e f.d.toNat (preemptedStatus e) |>.setP e (pdOf f) false).nextPc e
      else
        let ok' := (s.refusal (xbits f 1 0) (s.t e f.a.toNat)).1 == 0
        let s1 := s.requestCommit (2 + e) (xbits f 1 0) e (s.t e f.a.toNat)
        (s1.setG e f.d.toNat (s1.reg Fd.CHIP_COMMIT_STATUS_STATE.off) |>.setP e (pdOf f) ok').nextPc e) s

/-! ## Synchronisation (R101, R102, R133) -/

def execSignal (e : Fin 8) (f : Fields) (s : State) : Res :=
  instr e f shSIGNAL anyRange (fun s => (s.nextPc e).setSig (xbits f 3 0)) s

/-- WAITSIG: a set bit is consumed at once; otherwise the easel waits (R101). -/
def execWaitsig (e : Fin 8) (f : Fields) (s : State) : Res :=
  instr e f shWAITSIG anyRange
    (fun s =>
      let n := xbits f 3 0
      if s.is (Fd.SCAN_SIG_SIG.bit n) then (s.set (Fd.SCAN_SIG_SIG.bit n) 0).nextPc e
      else s.waitFor e (.signal n)) s

/-- SEMAPHORE: acquire never waits and writes P[PD]; release saturates at 255 and needs PD 0 (R102, R133). -/
def execSemaphore (e : Fin 8) (f : Fields) (s : State) : Res :=
  instr e f shSEMAPHORE (fun _ => xbits f 32 32 == 0 || pdOf f == 0)
    (fun s =>
      let sem := Fd.SCAN_SEM_COUNT (xbits f 2 0)
      let n := s.get sem
      if xbits f 32 32 = 1 then (s.set sem (min (n + 1) 255)).nextPc e
      else if n = 0 then (s.setP e (pdOf f) false).nextPc e
      else ((s.set sem (n - 1)).setP e (pdOf f) true).nextPc e) s

/-- LEDGER reads the published allowance of a group and window; window 3 is ILLEGAL (R134, R169). -/
def execLedger (e : Fin 8) (f : Fields) (s : State) : Res :=
  instr e f shLEDGER (fun s => bitsOf (s.g e f.a.toNat) 9 8 != 3)
    (fun s =>
      let a := s.g e f.a.toNat
      let v := BitVec.ofNat 32 (s.get (Fd.SCAN_LEDG_REMAIN_CU (bitsOf a 9 8) (bitsOf a 5 0)))
      let b := s.opB e f
      (s.setG e f.d.toNat v |>.setP e (pdOf f) (!v.ult b)).nextPc e) s

/-! ## System (R135) -/

def execTrap (e : Fin 8) (f : Fields) (s : State) : Res :=
  instr e f shTRAP anyRange (fun s => s.raiseHere e causeTRAP 0 (imm f)) s

/-- YIELD idles n cycles, which no state shows, and goes on. -/
def execYield (e : Fin 8) (f : Fields) (s : State) : Res := instr e f shYIELD anyRange (fun s => s.nextPc e) s

def execHalt (e : Fin 8) (f : Fields) (s : State) : Res :=
  instr e f shHALT anyRange (fun s => ((s.nextPc e).halt e).haltIrq e) s

/-! ## The undefined opcode (R84, R114, R115) -/

/-- The defined opcodes (R114). -/
def definedOpcodes : List Nat :=
  [0x10, 0x11, 0x12, 0x13, 0x14, 0x15, 0x16, 0x17, 0x18, 0x19, 0x1A, 0x1C, 0x1D, 0x1E, 0x1F, 0x20, 0x21, 0x22, 0x23,
   0x24, 0x30, 0x31, 0x32, 0x33, 0x40, 0x41, 0x42, 0x43, 0x44, 0x45, 0x50, 0x51, 0x52, 0x53, 0x54, 0x60, 0x61, 0x62,
   0x63, 0x70, 0x71, 0x80, 0x81, 0x82, 0x90, 0x91, 0x92, 0xA0, 0xF0, 0xF1, 0xF2]

/-- The opcode of an instruction word (R112). -/
def opcOf (w : Wide) : Nat := w.toNat / 2 ^ 56

/-- The fields of an instruction word (R112). -/
def fieldsOf (w : Wide) : Fields :=
  { d := BitVec.ofNat 5 (w.toNat / 2 ^ 51), a := BitVec.ofNat 5 (w.toNat / 2 ^ 46), b := BitVec.ofNat 5 (w.toNat / 2 ^ 41)
    psel := BitVec.ofNat 3 (w.toNat / 2 ^ 38), pneg := w.toNat.testBit 37, x := BitVec.ofNat 37 w.toNat }

/-- An undefined opcode raises ILLEGAL whatever its predicate (R84); a word with a defined opcode is no such event. -/
def execUndefinedOpcode (e : Fin 8) (w : Wide) (s : State) : Res :=
  if definedOpcodes.contains (opcOf w) then .fault .illFormed
  else if s.isRunning e then ok ((s.raiseHere e causeILLEGAL 0 (BitVec.ofNat 32 w.toNat)).settle e)
  else ok s

/-- Run one instruction word on easel e (R114). DEDUCED (log 34). -/
def runWord (e : Fin 8) (w : Wide) (s : State) : Res :=
  let f := fieldsOf w
  match opcOf w with
  | 0x10 => execAdd e f s
  | 0x11 => execSub e f s
  | 0x12 => execAnd e f s
  | 0x13 => execOr e f s
  | 0x14 => execXor e f s
  | 0x15 => execMul e f s
  | 0x16 => execMinu e f s
  | 0x17 => execMaxu e f s
  | 0x18 => execShl e f s
  | 0x19 => execShr e f s
  | 0x1A => execSar e f s
  | 0x1C => execCmp e f s
  | 0x1D => execPlog e f s
  | 0x1E => execMfs e f s
  | 0x1F => execMts e f s
  | 0x20 => execBr e f s
  | 0x21 => execJal e f s
  | 0x22 => execJr e f s
  | 0x23 => execLoop e f s
  | 0x24 => execRete e f s
  | 0x30 => execLd e f s
  | 0x31 => execSt e f s
  | 0x32 => execLdt e f s
  | 0x33 => execStt e f s
  | 0x40 => execNow e f s
  | 0x41 => execWaitt e f s
  | 0x42 => execSett e f s
  | 0x43 => execTcmp e f s
  | 0x44 => execTget e f s
  | 0x45 => execTput e f s
  | 0x50 => execLine e f s
  | 0x51 => execShot e f s
  | 0x52 => execTrain e f s
  | 0x53 => execStag e f s
  | 0x54 => execListenonly e f s
  | 0x60 => execWindow e f s
  | 0x61 => execZoom e f s
  | 0x62 => execHswap e f s
  | 0x63 => execStack e f s
  | 0x70 => execPeek e f s
  | 0x71 => execSumwait e f s
  | 0x80 => execSketch e f s
  | 0x81 => execProof e f s
  | 0x82 => execCommit e f false s
  | 0x90 => execSignal e f s
  | 0x91 => execWaitsig e f s
  | 0x92 => execSemaphore e f s
  | 0xA0 => execLedger e f s
  | 0xF0 => execTrap e f s
  | 0xF1 => execYield e f s
  | 0xF2 => execHalt e f s
  | _ => ok ((s.raiseHere e causeILLEGAL 0 (BitVec.ofNat 32 w.toNat)).settle e)

end Sys2Proof.Machine
end

