-- ==== Sys2Proof/Machine/EaselCtl.lean ====
section
/-!
DEFINITION. Control of the easels from outside (R101, R106, R107, R109, R110): watchdog, run, halt, step, reset, the
program and data windows, the signals.
-/
namespace Sys2Proof.Machine

/-! ## The watchdog (R106) -/

/-- The tick at which easel e's count reaches LIMIT; a count already beyond trips at once. -/
def State.wdogTick (e : Nat) (s : State) : Wide :=
  let t := (s.easel e).wdogFrom + BitVec.ofNat 64 (128000 * s.get (Fd.SCAN_EASEL_WDOG_LIMIT e))
  if before t s.tick then s.tick else t

/-- The watchdog trips (R106): a wait is abandoned and EPC points past it; with no wait EPC and FPC hold the next
index.  The count restarts. -/
def execWatchdog (e : Fin 8) (s : State) : Res :=
  let t := s.wdogTick e
  if s.isHalted e || s.get (Fd.SCAN_EASEL_WDOG_LIMIT e) == 0 || !s.timely t then ok s
  else
    let s1 := (s.reach t).set (Fd.SCAN_EASEL_STAT_WDOG e) 1
    let pc := s.pc e
    let epc := if s.isWaiting e then (pc + 1) % 4096 else pc
    ok (((s1.raise e causeWATCHDOG 0 0 pc epc).settle e).wdogRestart e)

/-! ## Run, halt, step, reset (R109) -/

/-- RUN starts a halted easel (R109); in HUSH, and on the way in and out of it, every easel stays halted (R439, R441). DESIGN CHOICE (log 104). -/
def State.runAsked (e : Nat) (s : State) : State := if s.chip.hush = 0 then s.run e else s

def execEaselRun (e : Fin 8) (s : State) : Res := s.writeRow (Fd.SCAN_EASEL_CTL_RUN e).off fun s => ok (s.runAsked e)

/-- HALT stops the easel at the next boundary, PC at a waiting instruction; an easel that halts interrupts (R109). DEDUCED (log 35). -/
def execEaselHalt (e : Fin 8) (s : State) : Res := s.writeRow (Fd.SCAN_EASEL_CTL_HALT e).off fun s => ok (if s.isHalted e then s else (s.halt e).haltIrq e)

/-- RESET (R109): halted at PC 0; G, T, P, HOP, EXL and the exception state cleared; no interrupt; the watchdog count
0. DEDUCED (log 35). -/
def State.resetEasel (e : Nat) (s : State) : State :=
  let s1 := s.halt e |>.setPc e 0 |>.set (Fd.SCAN_EASEL_PC_EPC e) 0 |>.set (Fd.SCAN_EASEL_STAT_HOP e) 0
    |>.set (Fd.SCAN_EASEL_STAT_EXL e) 0 |>.put (Fd.SCAN_EASEL_ECAUSE_CAUSE e).off 0
    |>.put (Fd.SCAN_EASEL_EDETAIL_DETAIL e).off 0 |>.set (Fd.SCAN_EASEL_PRED_P e) 1
  let s2 := (List.range 32).foldl (fun s i => s.set (Fd.SCAN_EASEL_G_G e i) 0) s1
  let s3 := (List.range 4).foldl (fun s i => s.setT e i 0) s2
  s3.easel' e fun z => { z with epred := 0, astat := 0, wdogKept := 0 }

def execEaselReset (e : Fin 8) (s : State) : Res := s.writeRow (Fd.SCAN_EASEL_CTL_RESET e).off fun s => ok (s.resetEasel e)

/-- The instruction at the easel's PC in its active bank (R83). -/
def State.fetchWord (e : Nat) (s : State) : Wide :=
  rd (fun _ => 0) s.scan.pm (e * 8192 + s.get (Fd.SCAN_EASEL_STAT_BANK e) * 4096 + s.pc e)

/-- STEP executes one instruction of a halted easel; from the host it needs D2, otherwise the write is withheld (R109,
R32). DEDUCED (log 34, 35). -/
def execEaselStep (who : Actor) (e : Fin 8) (s : State) : Res :=
  let at_ := (Fd.SCAN_EASEL_CTL_STEP e).off
  s.writeBy who at_ fun s =>
  if s.withheld who at_ true 4 then ok (s.accError ACC_DENIED at_)
  else if s.isHalted e && s.chip.hush == 0 then runWord e (s.fetchWord e) ((s.run e).easel' e fun z => { z with stepping := true })
  else ok s

/-! ## Starting together (R110) -/

/-- Writing SCAN_START: each easel set leaves halted at one tick, 64 ticks after the write. DEDUCED (log 35). -/
def execScanStart (mask : Byte) (s : State) : Res :=
  s.writeRow Fd.SCAN_START_MASK.off fun s =>
  if mask = 0 then ok s
  else ok ((s.set Fd.SCAN_START_MASK (s.scan.startDue ||| mask.toNat)).scan' fun c =>
    { c with startDue := c.startDue ||| mask.toNat, startAt := s.tick + 64 })

def execScanStartDue (s : State) : Res :=
  if s.scan.startDue = 0 || !s.timely s.scan.startAt then ok s
  else
    let s1 := s.reach s.scan.startAt
    let s2 := easelList.foldl (fun s e => if s1.scan.startDue.testBit e then s.runAsked e else s) s1
    ok ((s2.set Fd.SCAN_START_MASK 0).scan' fun c => { c with startDue := 0 })

/-! ## Program memory (R107) -/

/-- The key of the instruction that PM_ADDR names. -/
def State.pmKey (e : Nat) (s : State) : Nat :=
  e * 8192 + s.get (Fd.SCAN_EASEL_PM_ADDR_BANK e) * 4096 + s.get (Fd.SCAN_EASEL_PM_ADDR_INDEX e)

/-- A bank is writable only while it is neither active nor pending a swap (R107). -/
def State.bankLocked (e : Nat) (s : State) : Bool :=
  s.get (Fd.SCAN_EASEL_PM_ADDR_BANK e) == s.get (Fd.SCAN_EASEL_STAT_BANK e) || s.is (Fd.SCAN_EASEL_STAT_SWAP_PEND e)

/-- Either access changes the phase; the high one increments INDEX. -/
def State.pmPhase (e : Nat) (s : State) : State :=
  if (s.easel e).pmHigh then (s.bump (Fd.SCAN_EASEL_PM_ADDR_INDEX e) 1).easel' e fun z => { z with pmHigh := false }
  else s.easel' e fun z => { z with pmHigh := true }

def execPmAddrWrite (who : Actor) (e : Fin 8) (v : Word) (s : State) : Res :=
  s.writeBy who (Fd.SCAN_EASEL_PM_ADDR_INDEX e).off fun s => ok ((s.set (Fd.SCAN_EASEL_PM_ADDR_INDEX e) (bitsOf v 11 0) |>.set (Fd.SCAN_EASEL_PM_ADDR_BANK e) (bitsOf v 12 12)).easel' e
    fun z => { z with pmHigh := false })

def execPmDataRead (who : Actor) (e : Fin 8) (s : State) : Res :=
  let at_ := (Fd.SCAN_EASEL_PM_DATA_DATA e).off
  s.readBy who at_ fun s =>
  if (s.easel e).pmHigh then
    ok ((s.emit (.readData who at_ (BitVec.ofNat 32 ((s.easel e).pmBuf.toNat / 2 ^ 32)))).pmPhase e)
  else
    let w := rd (fun _ => 0) s.scan.pm (s.pmKey e)
    ok (((s.easel' e fun z => { z with pmBuf := w }).emit (.readData who at_ (BitVec.ofNat 32 w.toNat))).pmPhase e)

/-- DEDUCED (log 35). -/
def execPmDataWrite (who : Actor) (e : Fin 8) (v : Word) (s : State) : Res :=
  let at_ := (Fd.SCAN_EASEL_PM_DATA_DATA e).off
  s.writeBy who at_ fun s =>
  if s.bankLocked e then ok (s.accRecord LOCK_VIOL at_)
  else
    let old := (s.easel e).pmBuf.toNat
    if (s.easel e).pmHigh then
      let w : Wide := BitVec.ofNat 64 (old % 2 ^ 32 + v.toNat * 2 ^ 32)
      ok (((s.easel' e fun z => { z with pmBuf := w }).scan' fun c =>
        { c with pm := wr (fun _ => 0) c.pm (s.pmKey e) w }).pmPhase e)
    else ok ((s.easel' e fun z => { z with pmBuf := BitVec.ofNat 64 (old / 2 ^ 32 * 2 ^ 32 + v.toNat) }).pmPhase e)

/-! ## Data memory windows -/

/-- The byte address of the word DM_ADDR names. -/
def State.dmWord (e : Nat) (s : State) : Nat := 4 * s.get (Fd.SCAN_EASEL_DM_ADDR_WORD e)

def execDmDataRead (who : Actor) (e : Fin 8) (s : State) : Res :=
  let at_ := (Fd.SCAN_EASEL_DM_DATA_DATA e).off
  s.readBy who at_ fun s => ok ((s.emit (.readData who at_ (BitVec.ofNat 32 (s.dmRead e (s.dmWord e) 4)))).bump
    (Fd.SCAN_EASEL_DM_ADDR_WORD e) 1)

def execDmDataWrite (who : Actor) (e : Fin 8) (v : Word) (s : State) : Res :=
  s.writeBy who (Fd.SCAN_EASEL_DM_DATA_DATA e).off fun s => ok ((s.dmWrite e (s.dmWord e) 4 v.toNat).bump (Fd.SCAN_EASEL_DM_ADDR_WORD e) 1)

/-! ## Signals (R101, R36) -/

def execScanSigSet (mask : BitVec 16) (s : State) : Res := s.writeRow Fd.SCAN_SIG_SIG.off fun s => ok (s.setSigs mask.toNat)

/-- A clear of signals; a set of the same cycle, `hw`, wins. DESIGN CHOICE (log 6). -/
def execScanSigClear (mask hw : BitVec 16) (s : State) : Res :=
  s.writeRow Fd.SCAN_SIG_CLR_SIG.off fun s =>
  ok ((s.set Fd.SCAN_SIG_SIG (s.get Fd.SCAN_SIG_SIG &&& (~~~mask).toNat)).setSigs hw.toNat)

end Sys2Proof.Machine
end

