-- ==== Sys2Proof/Machine/Emission.lean ====
section
/-!
DEFINITION. EMIT (R138 to R161): fire outputs, the E-wire, the laser supply, string diagnosis.
-/
namespace Sys2Proof.Machine

/-! ## Staggers and pulses (R126, R142) -/

/-- Actions of the queue that have fallen due leave it. -/
def State.dropActs (p : Action → Bool) (s : State) : State :=
  (s.scan' fun c => { c with actQ := c.actQ.filter fun a => !p a }).showQueues

/-- A STAG that has taken effect sets the stagger of every module (R126). -/
def takeStag (a : Action) (m : SMap Nat) : SMap Nat :=
  match a.act with
  | .stag bytes => (bytes.mapIdx fun i b => (i, b)).foldl (fun m x => ins m x.1 x.2) m
  | _ => m

/-- The tick from which a STAG sets each module's stagger (R126). -/
def stagTick (a : Action) (m : SMap Wide) : SMap Wide :=
  match a.act with
  | .stag bytes => (List.range bytes.length).foldl (fun m i => ins m i a.tick) m
  | _ => m

/-- The action is a STAG with its tick at or before t. -/
def stagBy (t : Wide) (a : Action) : Bool :=
  match a.act with
  | .stag _ => !before t a.tick
  | _ => false

/-- The STAGs up to tick t take effect, in tick order (R126). -/
def State.applyStags (t : Wide) (s : State) : State :=
  let due := s.scan.actQ.filter (stagBy t)
  ((s.emit' fun x => { x with stag := due.foldl (fun m a => takeStag a m) x.stag
                              stagAt := due.foldl (fun m a => stagTick a m) x.stagAt })).dropActs (stagBy t)

/-- STAG[m] in force (R126): an admitted STAG's value, or module m's byte of EMIT_STAG. -/
def State.stagOf (m : Nat) (s : State) : Nat :=
  (look s.emt.stag m).getD (bitsOf (s.reg (Fd.EMIT_STAG_STAG (m / 4)).off) (8 * (m % 4) + 7) (8 * (m % 4)))

/-- Round up to an even tick (R142). -/
def ceilEven (n : Nat) : Nat := n + n % 2

/-- A pulse of module m at fire tick f with stagger sg and width code pw (R142). -/
def State.pulse (m f sg pw : Nat) (s : State) : State :=
  let rise := ceilEven (f + 32 * sg + 2 * s.get (Fd.EMIT_FDLY_FDLY m))
  s.emitPin (.fire m rise (rise + 128 + 16 * pw))

/-! ## Which lines are due (R158, R161) -/

/-- The due bit of matrix line (m, a). -/
def dueBit (m a : Nat) : Field := (Fd.EMIT_DIAG_DUE_WORD m (a / 32)).bit (a % 32)
def State.isDue (m a : Nat) (s : State) : Bool := s.is (dueBit m a)

/-- Line (m, a) has been diagnosed at tick t (R158): its age restarts; a due line is due no more, and its result is
still to be reported. -/
def State.diagnosed (m a : Nat) (t : Wide) (s : State) : State :=
  let s1 := s.emit' fun x => { x with lastDiag := ins x.lastDiag (64 * m + a) (t.toNat : Int) }
  if s.isDue m a then
    (s1.set (dueBit m a) 0 |>.set Fd.EMIT_DIAG_STAT_NDUE (s.get Fd.EMIT_DIAG_STAT_NDUE - 1)).emit' fun x =>
      { x with unreported := (64 * m + a) :: x.unreported, dueNew := x.dueNew.erase (64 * m + a) }
  else s1

/-- A line's age reaches 1 s, and it becomes due (R158). -/
def execDiagDue (m : Fin 16) (a : Fin 64) (s : State) : Res :=
  let t : Wide := BitVec.ofInt 64 ((look s.emt.lastDiag (64 * m + a)).getD s.emt.diagFrom + ticksPerS)
  if s.isDue m a || !s.timely t then ok s
  else ok (((s.reach t).set (dueBit m a) 1 |>.bump Fd.EMIT_DIAG_STAT_NDUE 1).emit' fun x =>
    { x with dueNew := (64 * m + a) :: x.dueNew })

/-- A module is selected for a shot of a line that has emitted (R138). -/
def State.lit (l : LineRec) (m : Nat) (s : State) : Bool :=
  l.shots.any fun h => h.fired && !h.listen && (s.modulesAt h.fire l.desc).contains m

/-- DIAG_PENDING of a line: in its dwell, a matrix line of a module selected for a shot was due, or diagnosed and not yet reported
(R161). DEDUCED (log 39). -/
def State.diagPending (l : LineRec) (s : State) : Bool := (List.range 16).any fun m => l.pend.testBit m && s.lit l m

/-- A fault bit of a matrix line of a module selected for a shot is set: its points carry DEGRADED (R160). -/
def State.stringFault (l : LineRec) (s : State) : Bool :=
  let a := bitsOf l.d0 5 0
  (List.range 16).any fun m => s.lit l m && Bool.or (
    s.is ((Fd.EMIT_DIAG_OPEN_WORD m (a / 32)).bit (a % 32))) (s.is ((Fd.EMIT_DIAG_SHORT_WORD m (a / 32)).bit (a % 32)))

/-- What the points of a line in its dwell will carry, as it stands now, at the LINE tick, at a shot and at the end: modules whose matrix
line is due or not yet reported (R161), tiles with LOW_CONF (R182, R210, R217). DEDUCED (log 39). -/
def State.markDwell (q : Word) (s : State) : State :=
  let low := (List.range 32).foldl (fun m t => if s.tileLow t then m ||| 2 ^ t else m) s.ungatedTiles
  s.scan' fun c => c.onLine q fun l =>
    let a := bitsOf l.d0 5 0
    { l with low := l.low ||| low
             pend := (List.range 16).foldl (fun b m =>
               if s.isDue m a || s.emt.unreported.contains (64 * m + a) then b ||| 2 ^ m else b) l.pend }

/-! ## Shots (R142, R143, R374) -/

/-- Mark a shot of a line. -/
def State.markShot (q : Word) (idx : Nat) (f : ShotRec → ShotRec) (s : State) : State :=
  s.scan' fun c => c.onLine q fun l => { l with shots := l.shots.mapIdx fun i h => if i = idx then f h else h }

/-- A switching edge that would fall in a shot's interval, `back` ticks before its end, is moved to its end (R155). DESIGN CHOICE (log 90). -/
def State.moveEdge (on : Bool) (f : Wide) (back : Nat) (s : State) : State :=
  s.onlyIf (decide (0 < back ∧ back ≤ edgeBefore + edgeAfter)) (State.emitPin (.lsupEdge on (f + BitVec.ofNat 64 edgeAfter)))

/-- The supply's switching edges around an emitting shot (R155): a turn-on edge at each period of FSW, and a turn-off edge that the
regulation law or IPK places anywhere in its cycle. DESIGN CHOICE (log 90). -/
def State.placeEdges (f : Wide) (s : State) : State :=
  if !s.is Fd.EMIT_LSUP_STAT_RUN then s
  else
    let period := 512000 / 2 ^ s.getAt f Fd.EMIT_LSUP_CTL_FSW
    let (off, s1) := s.drawNat period
    ((s1.moveEdge true f ((f + BitVec.ofNat 64 edgeAfter - s.emt.lsupFrom).toNat % period)).moveEdge false f off)

/-- A shot emits: one pulse on each selected module, which diagnoses its matrix line from 3.0 ns on (R142, R143, R158). -/
def State.emitShot (h : Shot) (l : LineRec) (s : State) : State :=
  let mods := s.modulesAt h.fire l.desc
  let pw := s.getAt h.desc0 (Fd.SCAN_LD0_PW l.desc)
  let a := bitsOf l.d0 5 0
  let s1 := s.each mods fun m s =>
    ((s.pulse m h.fire.toNat (s.stagOf m) pw).count 3 Src.EMIT_PULSES m 1).onlyIf (decide (16 ≤ pw))
      (State.diagnosed m a h.fire)
  ((s1.placeEdges h.fire).startTiu h.fire h.line h.index false).markShot h.line h.index fun x => { x with fired := true }

/-- TB_WARM of a line is that at its first fire tick (R62, R285). -/
def State.firstShot (h : Shot) (s : State) : State :=
  if h.index = 0 then s.scan' fun c => c.onLine h.line fun l => { l with warm := s.is Fd.TBAS_TB_STAT_TB_WARM } else s

/-- The next shot's fire tick (R15, R88, R374): the staggers up to it take effect, and it emits unless it only listens
or firing is inhibited, which makes it a listen-only shot. -/
def execShotFire (s : State) : Res :=
  match s.scan.shotQ with
  | [] => ok s
  | h :: rest =>
    if !s.timely h.fire then ok s
    else
      let s1 := ((s.reach h.fire).applyStags h.fire).scan' fun c => { c with shotQ := rest }
      let s2 := ((s1.showQueues).firstShot h).markDwell h.line
      match s2.lineOf h.line with
      | none => ok s2.releaseEvents
      | some l =>
        if h.listen || !s2.armed then
          ok (s2.markShot h.line h.index fun x => { x with fired := true, listen := true }).releaseEvents
        else ok (s2.emitShot h l).releaseEvents

/-! ## Diagnostic pulses (R159) -/

/-- The line whose dwell is under way: started and not ended. -/
def State.dwellLine (s : State) : Option LineRec := s.scan.lines.find? fun l => l.started && !l.ended

/-- The diagnostic tick G of a dwell. -/
def LineRec.diagTick (l : LineRec) : Wide := l.finish - 25600

/-- Every shot's latest window of the dwell ends no later than G (R159). -/
def State.diagRoom (l : LineRec) (s : State) : Bool :=
  l.shots.all fun h => !before l.diagTick (h.fire + BitVec.ofNat 64 (s.windowEnd l))

/-- G lies after the line's blanking, in which EMIT holds every FIRE output inactive (R140, R159): another dwell serves. DEDUCED (log 39). -/
def LineRec.diagClear (l : LineRec) : Bool := !before l.diagTick (l.start + BitVec.ofNat 64 (1280 * bitsOf l.d1 7 0))

/-- The due modules of a dwell: selected, due since before the last frame start. -/
def State.dueModules (l : LineRec) (s : State) : List Nat :=
  let a := bitsOf l.d0 5 0
  (s.modulesAt l.diagTick l.desc).filter fun m => s.isDue m a && !s.emt.dueNew.contains (64 * m + a)

/-- The diagnostic arm strobe at G − 100 ns (R141, R159). -/
def execDiagArmStrobe (s : State) : Res :=
  match s.dwellLine with
  | none => ok s
  | some l =>
    let t := l.diagTick - 12800
    let mods := s.dueModules l
    if s.is Fd.EMIT_DIAG_CTL_EN && !s.lineListens l && s.diagRoom l && l.diagClear && !s.restarting 3 && !mods.isEmpty && s.emt.arm.isNone && s.timely t then
      ok (((s.reach t).emitPin (.strobe 32 (bitsOf l.d0 5 0))).emit' fun x =>
        { x with arm := some { line := l.seq, g := l.diagTick, mods := mods } })
    else ok s

/-- One diagnostic pulse, if the ledger admits it; a denied one leaves its line due (R159, R162, R164). -/
def State.diagModule (l : LineRec) (g : Wide) (x : State × List Nat) (m : Nat) : State × List Nat :=
  let (s, done) := x
  let grp := s.get (Fd.SCAN_LD3_LGRP l.desc)
  let cu := s.get (Fd.SCAN_LEDG_EDIAG_CU m)
  if s.ledgerAdmits grp g cu then
    let s1 := (s.scan' fun c =>
      let c1 := c.charge grp g.toNat cu
      { c1 with modCharges := c1.modCharges ++
        [{ mod_ := m, grp := grp, line := l.seq, index := l.shots.length, at_ := 4 * g.toNat, cu := cu }] }).showRemain grp
    (((s1.pulse m g.toNat 0 32).count 3 Src.EMIT_DIAG_PULSES m 1).diagnosed m (bitsOf l.d0 5 0) g, done ++ [m])
  else (s.count 2 Src.SCAN_LEDG_DENY grp 1, done)

/-- The diagnostic pulses at G (R159): each due module of the armed dwell, unless firing is inhibited (R374). -/
def execDiagPulse (s : State) : Res :=
  match s.emt.arm, s.dwellLine with
  | some d, some l =>
    if d.line ≠ l.seq || !s.timely d.g then ok s
    else
      let s1 := (s.reach d.g).emit' fun x => { x with arm := none }
      if !s1.armed then ok s1
      else
        let (s2, done) := d.mods.foldl (State.diagModule l d.g) (s1, [])
        ok (if done.isEmpty then s2 else (s2.startTiu d.g l.seq l.shots.length true).releaseEvents)
  | _, _ => ok s

/-! ## E-wire words (R145 to R147) -/

/-- CRC-8 over bits 47:8, most significant first (R146). -/
def crc8 (w : BitVec 48) : BitVec 8 :=
  (List.range 40).foldl (fun c i =>
    let top := c.getLsbD 7 != w.getLsbD (47 - i)
    if top then (c <<< 1) ^^^ 0x07 else c <<< 1) 0xFF

/-- A word with its CRC. -/
def withCrc (w : BitVec 48) : BitVec 48 := w ||| (crc8 w).zeroExtend 48
def goodCrc (w : BitVec 48) : Bool := crc8 w == w.truncate 8

/-- Bits of an E-wire word. -/
def ewBits (w : BitVec 48) (hi lo : Nat) : Nat := w.toNat / 2 ^ lo % 2 ^ (hi - lo + 1)

/-- The marker word (R146). -/
def ewMarker : BitVec 48 := withCrc (BitVec.ofNat 48 (0xF * 2 ^ 44))

/-- The data word of a queued write with the values in force, or NOP (R146, R150). -/
def State.ewWord (m : Nat) (x : EwSent) (s : State) : BitVec 48 :=
  match x.item with
  | none => withCrc 0
  | some i =>
    let data := if i.set then s.get (Fd.EMIT_MSET_VALUE m i.addr)
      else s.get (Fd.EMIT_CUR_CODE0 m (i.addr / 2)) * 2 ^ 12 + s.get (Fd.EMIT_CUR_CODE1 m (i.addr / 2))
    withCrc (BitVec.ofNat 48 ((if i.set then 2 else 1) * 2 ^ 44 + (if x.apply then 2 ^ 43 else 0) + i.addr * 2 ^ 34
      + data * 2 ^ 8))

/-- The queue of a module. -/
def State.ewQueue (m : Nat) (s : State) : List EwItem := rd (fun _ => []) s.emt.ewQ m

/-- A load is pending: some word is queued for a module of the chain. -/
def State.ewLoading (s : State) : Bool := s.emt.ewQ.any fun e => !e.2.isEmpty && decide (e.1 < s.get Fd.EMIT_EW_CTL_NMOD)

/-- A frame starts (R145, R150, R151): at a permitted LINE tick itself, with no frame under way; each module gets its next
queued word, the last of a module with APPLY, or NOP. -/
def execEwireFrameStart (s : State) : Res :=
  let n := s.get Fd.EMIT_EW_CTL_NMOD
  if s.emt.ewMay != some s.tick || s.restarting 3 || s.emt.ewFrame.isSome || n == 0 || s.emt.ewHeld || s.is Fd.EMIT_EW_STAT_GAVEUP then ok s
  else
    let sent := (List.range n).map fun m =>
      match s.ewQueue m with
      | [] => ({ item := none, apply := false } : EwSent)
      | i :: r => { item := some i, apply := r.isEmpty }
    let words := (sent.mapIdx fun m x => s.ewWord m x) ++ [ewMarker] ++ List.replicate n (BitVec.allOnes 48)
    ok ((s.emitPin (.ewire words)).emit' fun x =>
      { x with ewFrame := some sent, ewMay := none, inFrame := x.unreported })

/-- The status words of an accepted return: the marker, then NMOD good status words with POS 0 to NMOD − 1 (R147,
R149). -/
def ewStatuses (n : Nat) (words : List (BitVec 48)) : Option (List (BitVec 48)) :=
  match words with
  | [] => none
  | mk :: st =>
    if mk = ewMarker && st.length == n
        && (st.mapIdx fun i w => goodCrc w && ewBits w 47 44 == 8 && ewBits w 43 40 == i).all id then some st
    else none

/-- A frame was not delivered (R149, R152): CHAIN_ERR, a cell-level record; the third in a row sets GAVEUP and passes the
fault to the region. -/
def State.ewLost (s : State) : State :=
  let s1 := ((s.set Fd.EMIT_EW_STAT_CHAIN_ERR 1).err
      { level := 0, region := 3, block := 3, code := 0x0381 }).count 3 Src.EMIT_EW_NOT_DELIVERED 0 1
  let s2 := s1.emit' fun x => { x with ewFrame := none, ewFails := x.ewFails + 1 }
  if s2.emt.ewFails = 3 then
    (((s2.set Fd.EMIT_EW_STAT_GAVEUP 1).emit' fun x => { x with ewHeld := true }).err
      { level := 2, region := 3, block := 3, code := 0x0382, count := 3 }).startRestart 3 3
  else s2

/-- A status word reports a fault: its bit, a block-level record, the diagnosis interrupt (R160, R491). -/
def State.diagFault (m a : Nat) (short : Bool) (s : State) : State :=
  let f := if short then Fd.EMIT_DIAG_SHORT_WORD m (a / 32) else Fd.EMIT_DIAG_OPEN_WORD m (a / 32)
  let s1 := (s.set (f.bit (a % 32)) 1 |>.set Fd.EMIT_DIAG_STAT_FAULT 1).err
    { level := 1, region := 3, block := 2, code := 0x0385, action := 4, cell := m, detail := a + if short then 256 else 0 }
  (s1.count 3 Src.EMIT_DIAG_FAULTS m 1).onlyIf (s.is Fd.EMIT_DIAG_CTL_IEN) (State.regionIrq 3)

/-- One accepted status word (R150, R151, R160): it is copied, its faults are recorded, and a word that arrived well
leaves its module's queue. -/
def State.ewStatus (m : Nat) (sent : EwSent) (w : BitVec 48) (s : State) : State :=
  let a := ewBits w 31 26
  let s1 := s.set (Fd.EMIT_EW_MSTAT_STATUS m) (ewBits w 39 8)
  let s2 := s1.onlyIf (w.getLsbD 38) (State.diagFault m a false)
  let s3 := s2.onlyIf (w.getLsbD 37) (State.diagFault m a true)
  s3.emit' fun x =>
    { x with ewMore := x.ewMore || w.getLsbD 36
             ewQ := if w.getLsbD 39 then x.ewQ else match sent.item with
               | some i => wr (fun _ => []) x.ewQ m ((rd (fun _ => []) x.ewQ m).filter fun j => j ≠ i)
               | none => x.ewQ }

/-- The status words of one frame, module by module. -/
def State.ewAll : Nat → List EwSent → List (BitVec 48) → State → State
  | m, x :: xs, w :: ws, s => State.ewAll (m + 1) xs ws (s.ewStatus m x w)
  | _, _, _, s => s

/-- An accepted frame (R150 to R152): the load is complete, and the apply strobe is due, when every loaded module has
nothing left to send and shows CRC_ERR clear. DEDUCED (log 39). -/
def State.ewAccept (sent : List EwSent) (st : List (BitVec 48)) (s : State) : State :=
  let s0 := (s.bump Fd.EMIT_EW_STAT_FRAMES 1).count 3 Src.EMIT_EW_FRAMES 0 1
  let s1 := s0.emit' fun x =>
    { x with ewFrame := none, ewFails := 0, ewMore := false, unreported := x.unreported.filter fun k => !x.inFrame.contains k
             inFrame := [] }
  let s2 := s1.ewAll 0 sent st
  let opens := s2.emt.ewOpen.filter fun m => decide (m < sent.length)
  let clear := opens.all fun m =>
    (s2.ewQueue m).isEmpty && match st[m]? with
      | some w => !w.getLsbD 39
      | none => false
  if !opens.isEmpty && clear then s2.set Fd.EMIT_EW_STAT_STATE 2 else s2

/-- The return of the frame ends in time and is judged (R149). -/
def execEwireReturn (words : List (BitVec 48)) (s : State) : Res :=
  match s.emt.ewFrame with
  | none => ok s
  | some sent =>
    match ewStatuses sent.length words with
    | some st => ok (s.ewAccept sent st)
    | none => ok s.ewLost

/-- The return fails to end in time (R149). -/
def execEwireReturnTimeout (s : State) : Res := if s.emt.ewFrame.isSome then ok s.ewLost else ok s

/-- GAVEUP is cleared; frames resume when the firmware clears it (R152). DEDUCED (log 39). -/
def execGaveupClear (who : Actor) (s : State) : Res :=
  s.writeBy who Fd.EMIT_EW_STAT_GAVEUP.off fun s => ok ((s.set Fd.EMIT_EW_STAT_GAVEUP 0).emit' fun x =>
    if who = .firmware then { x with ewHeld := false, ewFails := 0 } else x)

/-- The word that module m has in the frame under way is not the newest any more: its delivery does not count (R150). DEDUCED (log 39). -/
def ewRenew (m : Nat) (i : EwItem) (sent : List EwSent) : List EwSent :=
  sent.mapIdx fun k x => if k = m ∧ x.item = some i then { x with item := none } else x

/-- A varnish changes a current pair or a setting of module m: its word joins the queue (R150), pairs before settings, each in ascending
address order; a module outside the chain waits for it to grow. DESIGN CHOICE (log 94). -/
def State.ewLoad (m : Nat) (i : EwItem) (s : State) : State :=
  let key (j : EwItem) : Nat := (if j.set then 1000 else 0) + j.addr
  let rec put : List EwItem → List EwItem
    | [] => [i]
    | j :: l => if j = i then j :: l else if key i < key j then i :: j :: l else j :: put l
  (s.emit' fun x =>
    { x with ewQ := ins x.ewQ m (put (rd (fun _ => []) x.ewQ m))
             ewFrame := x.ewFrame.map (ewRenew m i)
             ewOpen := if x.ewOpen.contains m then x.ewOpen else m :: x.ewOpen }).onlyIf
    (decide (m < s.get Fd.EMIT_EW_CTL_NMOD)) (State.set Fd.EMIT_EW_STAT_STATE 1)

/-- EMIT_EW_STAT.STATE after NMOD has changed: no load with no module of the chain open; a load while one of them has words to send
(R150). DEDUCED (log 39). -/
def State.ewChain (s : State) : State :=
  let opens := s.emt.ewOpen.filter fun m => decide (m < s.get Fd.EMIT_EW_CTL_NMOD)
  if opens.isEmpty then s.set Fd.EMIT_EW_STAT_STATE 0
  else s.onlyIf (opens.any fun m => !(s.ewQueue m).isEmpty) (State.set Fd.EMIT_EW_STAT_STATE 1)

/-! ## The laser supply (R153 to R157) -/

/-- HDRM 40 ns before a line strobe; above 4.0 V there is no data (R153). -/
def execHdrmSample (v : BitVec 9) (s : State) : Res :=
  s.whenOn fun s =>
  if 400 < v.toNat then ok s
  else ok (s.emit' fun x => { x with hmin := some (match x.hmin with | some h => min h v.toNat | none => v.toNat) })

/-- The headroom loop at an interval's closing strobe (R154), and the headroom collapse (R157): VREF is held while the condition lasts, and
tracks again with the first update outside it, HCOLL still set. DESIGN CHOICE (log 97). -/
def State.headroom (s : State) : State :=
  match s.emt.hmin with
  | none => s.set Fd.EMIT_LSUP_HMIN_NODATA 1
  | some h =>
    let s1 := (s.set Fd.EMIT_LSUP_HMIN_HMIN h |>.set Fd.EMIT_LSUP_HMIN_NODATA 0).emit' fun x => { x with hmin := none }
    if !s.lsupOn then s1
    else
      let vref : Int := s.get Fd.EMIT_LSUP_STAT_VREF
      let vmin : Int := s.get Fd.EMIT_LSUP_VLIM_VMIN
      let vmax : Int := s.get Fd.EMIT_LSUP_VLIM_VMAX
      let vstep : Int := s.get Fd.EMIT_LSUP_HDRM_VSTEP
      let e : Int := (s.get Fd.EMIT_LSUP_HDRM_TGT : Int) - h
      let step := max (-vstep) (min vstep (roundHalfAway (s.get Fd.EMIT_LSUP_HDRM_KH * e) 16))
      let run := if decide (h < 30) && vref == vmax then s.emt.lowRun + 1 else 0
      let s2 := s1.emit' fun x => { x with lowRun := run }
      if 3 ≤ run then
        if s.is Fd.EMIT_LSUP_STAT_HCOLL then s2
        else (s2.set Fd.EMIT_LSUP_STAT_HCOLL 1).err { level := 1, region := 3, block := 4, code := 0x0384, warning := true }
      else s2.set Fd.EMIT_LSUP_STAT_VREF (max vmin (min vmax (vref + step))).toNat

/-- The listening windows of a line, of every sector of every shot (R95, R156). -/
def State.windowsOf (l : LineRec) (s : State) : List (Wide × Wide) :=
  l.shots.flatMap fun h => (List.range 32).map fun c =>
    let w := s.windowOf l c
    (h.fire + BitVec.ofNat 64 w.startTicks, h.fire + BitVec.ofNat 64 (w.startTicks + w.lenTicks))

/-- The latest end of the windows that hold tick t; t itself outside every window. -/
def windowReach (t : Wide) (ws : List (Wide × Wide)) : Wide :=
  ws.foldl (fun e w => if !before t w.1 && before e w.2 then w.2 else e) t

/-- The end of the union of windows that holds tick t (R156), in at most n joined windows. -/
def unionEnd : Nat → Wide → List (Wide × Wide) → Wide
  | 0, t, _ => t
  | n + 1, t, ws => let e := windowReach t ws; if e = t then t else unionEnd n e ws

/-- The end of the quiet window that tick t lies in; none outside every window of the dwell under way (R156). -/
def State.quietEnd (t : Wide) (s : State) : Option Wide :=
  match s.dwellLine with
  | none => none
  | some l =>
    let ws := s.windowsOf l
    let e := unionEnd ws.length t ws
    if ws.any fun w => !before t w.1 && before t w.2 then some e else none

/-- Switching pauses in a quiet window (R156), at least 2 µs after the last pause, however that one ended. DESIGN CHOICE (log 97). -/
def execQuietPause (s : State) : Res :=
  let rested := match s.emt.pauseEnd with
    | some t => decide ((256000 : Int) ≤ ahead t s.tick)
    | none => true
  match s.dwellLine with
  | some l =>
    if s.is Fd.EMIT_LSUP_CTL_QEN && bitsOf l.d2 25 25 == 1 && s.is Fd.EMIT_LSUP_STAT_RUN && rested && !s.restarting 3
        && (s.quietEnd s.tick).isSome then
      ok (s.emit' fun x => { x with paused := true, pauseFrom := s.tick }).showLsup
    else ok s
  | none => ok s

/-- The pause ends: the supply switches again. -/
def State.endPause (broken : Bool) (s : State) : State :=
  ((s.emit' fun x => { x with paused := false, pauseEnd := some s.tick }).showLsup).onlyIf broken fun s =>
    (s.bump Fd.EMIT_LSUP_QBRK_COUNT 1).count 3 Src.EMIT_LSUP_QBRK 0 1

/-- The end of a pause without a droop (R156): its window's end, or QMAX µs after its start where that comes first, which breaks it. -/
def State.pauseStop (s : State) : Wide × Bool :=
  let close := (s.quietEnd s.emt.pauseFrom).getD s.tick
  let qmax := s.emt.pauseFrom + BitVec.ofNat 64 (128000 * s.get Fd.EMIT_LSUP_QUIET_QMAX)
  if before qmax close then (qmax, true) else (close, false)

/-- The pause ends (R156): at once when LSUP_VS, measured as `vs`, has fallen below VREF − DROOP, else at the window's end or when QMAX µs
have passed, whichever comes first; the window's end alone is no break. DEDUCED (log 39). -/
def execQuietPauseEnd (vs : BitVec 13) (s : State) : Res :=
  if !s.emt.paused then ok s
  else
    let s0 := s.set Fd.EMIT_LSUP_STAT_VOUT vs.toNat
    if vs.toNat + s.get Fd.EMIT_LSUP_QUIET_DROOP < s.get Fd.EMIT_LSUP_STAT_VREF then ok (s0.endPause true)
    else if !s.timely s.pauseStop.1 then ok s0
    else ok ((s0.reach s.pauseStop.1).endPause s.pauseStop.2)

/-- LSUP_VS as measured; above VMAX + 2 V switching stops and OV is set (R157). -/
def execLsupOv (v : BitVec 13) (s : State) : Res :=
  s.whenOn fun s =>
  let s1 := s.set Fd.EMIT_LSUP_STAT_VOUT v.toNat
  if v.toNat ≤ s.get Fd.EMIT_LSUP_VLIM_VMAX + 200 then ok s1
  else ok (((s1.set Fd.EMIT_LSUP_STAT_OV 1).emit' fun x => { x with ovHeld := true }).err
    { level := 1, region := 3, block := 4, code := 0x0383, action := 4 }).showLsup

/-- OV is cleared; switching resumes when the firmware clears it (R157). DEDUCED (log 39). -/
def execLsupOvClear (who : Actor) (s : State) : Res :=
  s.writeBy who Fd.EMIT_LSUP_STAT_OV.off fun s => ok ((s.set Fd.EMIT_LSUP_STAT_OV 0).emit' fun x => if who = .firmware then { x with ovHeld := false } else x).showLsup

/-! ## Line boundaries (R139, R150, R151, R154) -/

/-- The apply strobe is due at this line (R150, R152). -/
def State.applyDue (l : LineRec) (s : State) : Bool :=
  s.get Fd.EMIT_EW_STAT_STATE == 2 && !s.is Fd.EMIT_EW_STAT_GAVEUP && !s.emt.ewHeld
    && (l.isFrame || s.is Fd.EMIT_EW_CTL_APPLYAT) && decide (10 ≤ bitsOf l.d1 7 0)

/-- EMIT at a LINE tick: LSEL has changed 16 ns before it; the strobe, 64 ns wide when it applies the E-wire load; an unused diagnostic arm is cancelled;
the tracking interval closes; a frame may start (R139, R141, R150, R151, R154).  A line with no line before it counts as one of another
group. DESIGN CHOICE (log 97). -/
def State.emitLine (l : LineRec) (s : State) : State :=
  let a := bitsOf l.d0 5 0
  let grp := bitsOf l.d3 5 0
  let apply := s.applyDue l
  let s1 := s.set Fd.EMIT_LSEL_STAT_ADDR a |>.set Fd.EMIT_LSEL_STAT_ACTIVE 1 |>.emitPin (.lsel a (l.start - 2048))
    |>.emitPin (.strobe (if apply then 64 else 8) a)
  let s2 := s1.onlyIf apply fun s =>
    ((s.set Fd.EMIT_EW_APPLY_LINE_SEQ l.seq.toNat |>.set Fd.EMIT_EW_STAT_STATE 0).count 3 Src.EMIT_APPLY_STROBES 0 1).emit'
      fun x => { x with ewOpen := x.ewOpen.filter fun m => decide (s.get Fd.EMIT_EW_CTL_NMOD ≤ m) || !(s.ewQueue m).isEmpty }
  let s3 := s2.onlyIf (l.isFrame || s.is Fd.EMIT_LSUP_CTL_TRK) State.headroom
  let change := s.is Fd.EMIT_EW_CTL_LGB && s.emt.prevGrp != some grp
  s3.emit' fun x =>
    { x with arm := none, prevGrp := some grp, dueNew := if l.isFrame then [] else x.dueNew
             ewMay := if l.isFrame || (change && (s.ewLoading || s.emt.ewMore)) then some l.start else none }

/-- A line reaches L + D and stops being current (R90, R139): LSEL keeps its address. -/
def execLineEnd (s : State) : Res :=
  match s.dwellLine with
  | none => ok s
  | some l =>
    if !s.timely l.finish then ok s
    else ok ((((s.reach l.finish).markDwell l.seq).scan' fun c => c.onLine l.seq fun l => { l with ended := true }).set
      Fd.EMIT_LSEL_STAT_ACTIVE 0)

end Sys2Proof.Machine
end

