-- ==== Sys2Proof/Machine/HostIf.lean ====
section
/-!
DEFINITION. HOST (R297 to R317): posting, fetching, the states of the rings, moderation, interrupt causes, resets and
the link.
-/
namespace Sys2Proof.Machine

/-! ## Posting (R301) -/

/-- A POST doorbell write. -/
def execDoorbellPost (r : Fin 14) (post : Word) (s : State) : Res :=
  s.writeBy .host (0x04010000 + 0x1000 * r.val) fun s =>
  if s.ringState r = rOFF then ok s
  else
    let old : Word := s.reg (Fd.HOST_RING_POST_POST r).off
    let done : Word := s.reg (Fd.HOST_RING_DONE_DONE r).off
    if (post - done).toNat ≤ 2 ^ (s.ring r).dsz ∧ (post - old).toNat < 2 ^ 31 then
      ok (s.set (Fd.HOST_RING_POST_POST r) post.toNat)
    else
      ok (s.set (Fd.HOST_RING_STAT_RING_ERR r) 1 |>.err
        { level := 0, region := 13, block := 2, code := 0x0D81, cell := r })

/-- In the same cycle a record of `next` bytes does not fit in what remains of the current buffer (R303, R304). DEDUCED (log 55). -/
def State.fullToo (r next : Nat) (s : State) : Nat :=
  match (s.ring r).descs with
  | d :: _ => if next ≠ 0 ∧ d.size < (s.ring r).data.length + next then stFULL else 0
  | [] => 0

/-- The flush doorbell (R304); `next`: the length of the record that would enter the ring in the same cycle, 0 with none. -/
def execFlushDoorbell (r : Fin 14) (next : BitVec 21) (s : State) : Res :=
  s.writeBy .host (0x04010004 + 0x1000 * r.val) fun s =>
  if s.ringState r = rRUN then ok (s.closeBuffer r (stFLUSH ||| s.fullToo r next.toNat)) else ok s

/-! ## Fetching (R299, R302) -/

/-- A descriptor passes the check on fetch. -/
def descGood (addr : Wide) (size : Word) (tail : BitVec 128) : Bool :=
  decide (addr.toNat % 64 = 0 ∧ size.toNat % 64 = 0 ∧ 4096 ≤ size.toNat ∧ size.toNat ≤ 1048576 ∧ tail = 0)

/-- The ring has a posted descriptor to fetch, and holds fewer than 32. -/
def State.mayFetch (r : Nat) (s : State) : Bool :=
  let n := (s.ring r).descs.length
  s.ringState r == rRUN && decide (n < 32) &&
    decide (n < (s.reg (Fd.HOST_RING_POST_POST r).off - s.reg (Fd.HOST_RING_DONE_DONE r).off).toNat)

/-- PF0 reports an uncorrectable error of AER's bit n (R309): its status, Device Status and, where they are enabled, its message; the
first one not masked points to itself.  `hdr`: a header is logged, which the model does not know. PRESUMED (log 92). -/
def State.aer (n : Nat) (hdr : Bool) (s : State) : State :=
  let fatal := s.is (Fd.CFG_AER_SEV false n)
  let masked := s.is (Fd.CFG_AER_MASK false n)
  let first := s.reg (Fd.CFG_AER_UNC false 0).off &&& ~~~(s.reg (Fd.CFG_AER_MASK false 0).off) == 0
  let s1 := s.set (Fd.CFG_AER_UNC false n) 1 |>.set (if fatal then Fd.CFG_DEV_FED false else Fd.CFG_DEV_NFED false) 1
  if masked then s1
  else
    let s2 := s1.onlyIf first fun s =>
      (s.set (Fd.CFG_AER_FEP false) n).each (if hdr then [0, 1, 2, 3] else []) fun i s =>
        let (w, s') := s.drawWord
        s'.put (Fd.CFG_AER_HDR false i).off w
    s2.onlyIf (s.is (if fatal then Fd.CFG_DEV_FE false else Fd.CFG_DEV_NFE false)) (State.emit (.errMessage fatal))

/-- What a failed descriptor read leaves in configuration space (R309): a completion with UR or CA its status bit, poisoned data and a
timeout their AER bits. PRESUMED (log 92). -/
def State.readFail (f : ReadEnd) (s : State) : State :=
  match f with
  | .data => s
  | .ur => s.set (Fd.CFG_STATUS_RMA false) 1
  | .ca => s.set (Fd.CFG_STATUS_RTA false) 1
  | .poisoned => s.aer 12 true
  | .timeout => s.aer 14 false

/-- The next descriptor read ends: with data, which is checked, or not (READ_FAIL); a timeout needs Completion Timeout not disabled. -/
def execDescFetch (r : Fin 14) (fin : ReadEnd) (addr : Wide) (size cookie : Word) (tail : BitVec 128) (s : State) : Res :=
  if s.mayFetch r && !(fin == .timeout && s.is (Fd.CFG_DEV2_CTODIS false)) then
    let x := s.ring r
    let i := (s.get (Fd.HOST_RING_DONE_DONE r) + x.descs.length) % 2 ^ x.dsz
    let s1 := s.post 32 (.descRead r i (x.base + BitVec.ofNat 64 (32 * i)))
    if fin ≠ .data then ok ((s1.readFail fin).stopRing r 2 0x0D83)
    else if !descGood addr size tail then ok (s1.stopRing r 1 0x0D82)
    else
      ok ((s1.ring' r fun y => { y with descs := y.descs ++ [{ addr := addr, size := size.toNat, cookie := cookie }] }).showFetched r)
  else ok s

/-! ## Closing and moderation (R304, R312) -/

/-- IDLE µs have passed since the last record entered the buffer. -/
def execBufferIdleClose (r : Fin 14) (s : State) : Res :=
  if s.ringState r = rRUN ∧ !(s.ring r).data.isEmpty ∧ s.get (Fd.HOST_RING_CTL_IDLE r) ≠ 0 ∧ s.clockOk (s.idleAt r) then
    ok ((s.clockReach (s.idleAt r)).closeBuffer r stIDLE)
  else ok s

/-- COAL.T µs have passed since the first completion counted. -/
def execCoalTimer (r : Fin 14) (s : State) : Res :=
  let t := (s.ring r).coalAt + usTicks (s.get (Fd.HOST_RING_COAL_T r))
  if (s.ring r).coal ≠ 0 ∧ s.get (Fd.HOST_RING_COAL_T r) ≠ 0 ∧ s.clockOk t then
    ok (((s.clockReach t).ring' r fun x => { x with coal := 0 }).irq r)
  else ok s

/-! ## Ring states (R308, R309) -/

/-- EN goes from 0 to 1: BASE, DSZ and WB are latched, POST, DONE and UNIT are 0, the ring runs; completions counted towards its next
interrupt stay counted (R312). -/
def execRingEnable (r : Fin 14) (s : State) : Res :=
  s.writeRow (Fd.HOST_RING_CTL_EN r).off fun s =>
  if s.is (Fd.HOST_RING_CTL_EN r) then ok s
  else
    let base := BitVec.ofNat 64 (s.get (Fd.HOST_RING_BASE_LO_BASE r) * 64 + s.get (Fd.HOST_RING_BASE_HI_BASE r) * 2 ^ 32)
    let wb := BitVec.ofNat 64 (s.get (Fd.HOST_RING_WB_LO_WB r) * 16 + s.get (Fd.HOST_RING_WB_HI_WB r) * 2 ^ 32)
    let s1 := s.ring' r fun x =>
      { base := base, wb := wb, dsz := s.get (Fd.HOST_RING_CTL_DSZ r), dropped := x.dropped + x.drops, coal := x.coal, coalAt := x.coalAt }
    ok ((s1.set (Fd.HOST_RING_CTL_EN r) 1 |>.set (Fd.HOST_RING_POST_POST r) 0 |>.set (Fd.HOST_RING_DONE_DONE r) 0
      |>.set (Fd.HOST_RING_UNIT_UNIT r) 0 |>.set (Fd.HOST_RING_STAT_STATE r) rRUN |>.set (Fd.HOST_RING_STAT_CAUSE r) 0
      |>.showFetched r).statusBlock r)

/-- EN goes from 1 to 0: the current buffer closes with DISABLE, and with FLUSH and FULL where they hold in the same cycle; the ring is
OFF. -/
def execRingDisable (r : Fin 14) (flush : Bool) (next : BitVec 21) (s : State) : Res :=
  s.writeRow (Fd.HOST_RING_CTL_EN r).off fun s =>
  if s.is (Fd.HOST_RING_CTL_EN r) then
    let s1 := (s.closeBuffer r (stDISABLE ||| (if flush then stFLUSH else 0) ||| s.fullToo r next.toNat)).ring' r Ring.abandon
    ok ((s1.set (Fd.HOST_RING_CTL_EN r) 0 |>.set (Fd.HOST_RING_CTL_RESUME r) 0 |>.set (Fd.HOST_RING_STAT_STATE r) rOFF
      |>.set (Fd.HOST_RING_STAT_CAUSE r) 0 |>.showFetched r).statusBlock r)
  else ok s

/-- RESUME: a STOPPED ring runs again from descriptor DONE; elsewhere ignored. DEDUCED (log 55). -/
def execRingResume (r : Fin 14) (s : State) : Res :=
  s.writeRow (Fd.HOST_RING_CTL_RESUME r).off fun s =>
  let s1 := s.set (Fd.HOST_RING_CTL_RESUME r) 0
  if s.ringState r = rSTOPPED then
    ok ((s1.set (Fd.HOST_RING_STAT_STATE r) rRUN |>.set (Fd.HOST_RING_STAT_CAUSE r) 0).statusBlock r)
  else ok s1

/-- Every running ring stops, as PF0 has no bus mastering (cause 3) or is not in D0 (cause 4).  The codes of these records are not
given, so they are free. DESIGN CHOICE (log 56). -/
def State.stopRings (cause : Nat) (s : State) : State :=
  s.each allRings fun r s =>
    if s.ringState r = rRUN then
      let (code, s1) := s.drawNat 65536
      s1.stopRing r cause code
    else s

/-- Bus Master Enable of PF0 is cleared, or PF0 leaves D0 for D3hot: every running ring stops. -/
def execRingStop (pm : Bool) (s : State) : Res :=
  s.whenOn fun s =>
  if pm then
    if s.get (Fd.CFG_PM_STATE false) = 0 then ok ((s.set (Fd.CFG_PM_STATE false) 3).stopRings 4) else ok s
  else if s.is (Fd.CFG_CMD_BME false) then ok ((s.set (Fd.CFG_CMD_BME false) 0).stopRings 3)
  else ok s

/-! ## Interrupt causes (R36, R311) -/

/-- The interrupt sources R310 defines. -/
def definedSource (i : Nat) : Bool :=
  decide (i ≤ 13) || decide (16 ≤ i ∧ i ≤ 34) || decide (40 ≤ i ∧ i ≤ 51)

/-- The host writes ones to the causes in `mask` while the sources in `hw` fire: a bit that is set and cleared in one
cycle stays set, and sends a new message. DESIGN CHOICE (log 6). -/
def execIrqCauseClear (mask hw : Wide) (s : State) : Res :=
  s.writeRow Fd.HOST_IRQ_CAUSE_LO_CAUSE.off fun s =>
  let clear (f : Field) (m : Nat) (s : State) : State :=
    s.put f.off (s.reg f.off &&& ~~~(BitVec.ofNat 32 m))
  let s1 := clear Fd.HOST_IRQ_CAUSE_LO_CAUSE (mask.toNat % 2 ^ 32) s
  let s2 := clear Fd.HOST_IRQ_CAUSE_HI_CAUSE (mask.toNat / 2 ^ 32) s1
  ok (State.each ((List.range 64).filter fun i => hw.getLsbD i && definedSource i) State.irq s2)

/-! ## Resets (R316, R317) -/

/-- A conventional reset of HOST, recorded and counted. DEDUCED (log 58). -/
def State.linkDown (s : State) : State :=
  (s.resetHost.bump Fd.HOST_LINK_DOWNS_COUNT 1).err { level := 2, region := 13, block := 1, code := 0x0D84 }
    |>.count 13 Src.HOST_LINK_DOWNS 0 1

/-- PERST_N asserted, a hot reset received, or DL_Down; the last needs a link that is up. -/
def execConventionalReset (why : ResetCause) (s : State) : Res :=
  match why with
  | .perst => ok ((s.host' fun h => { h with perst := true }).onlyIf s.powered State.linkDown)
  | .hotReset | .dlDown => if s.is Fd.HOST_LINK_STAT_DL_UP then ok s.linkDown else ok s

/-- The sticky registers of PF0's configuration space, those of AER, which its Function Level Reset keeps (R317). PRESUMED (log 92). -/
def stickyCfg : List Nat := (List.range 10).map fun i => Fd.cfgBase false + 0x104 + 4 * i

/-- A Function Level Reset (R317): PF0 takes its configuration space, its MSI-X table, its PBA and the rings with it; PF1 its
configuration space, its MSI-X table, the mailboxes and DOE. -/
def execFlr (pf1 : Bool) (s : State) : Res :=
  if pf1 then
    ok (((s.orphanRequest.io' fun x => (x.resetRange 0x05000000 0x06000000 []).resetRange 0x06010000 0x06020000 []).safe'
      fun x => { x with smTx := [] }).host' fun h => { h with doe := {} })
  else
    ok (((s.io' fun x => (((x.resetRange 0x01A20000 0x01A30000 []).resetRange 0x01B20000 0x01B30000 []).resetRange 0x04080000 0x04090000
      []).resetRange 0x06000000 0x06010000 stickyCfg).showWarm).host' fun h =>
        { h with rings := h.rings.filterMap fun e =>
                   let n := e.2.dropped + e.2.drops
                   if n = 0 then none else some (e.1, { dropped := n }) })

/-! ## The link (R292, R315, R448) -/

/-- PERST_N is de-asserted: the link may train once the time-base PLL has locked. -/
def perstDeassertHost (s : State) : State := s.host' fun h => { h with perst := false }

/-- Rates and widths of R292, and FLIT mode at 64 GT/s. -/
def linkFits (speed width : Nat) (flit : Bool) : Bool :=
  decide (1 ≤ speed ∧ speed ≤ 6) && [1, 2, 4, 8].contains width && (speed != 6 || flit)

/-- The link has trained at a rate and width (R292, R316, R447, R448). -/
def execLinkTrained (speed : BitVec 3) (width : BitVec 4) (flit : Bool) (s : State) : Res :=
  if !linkFits speed.toNat width.toNat flit then .fault .illFormed
  else if !s.host.perst ∧ s.stageIs 6 ∧ s.chip.railPcie ∧ !s.is (Fd.CHIP_RESTARTING_MASK.bit 13) then
    ok ((s.set Fd.HOST_LINK_STAT_SPEED speed.toNat |>.set Fd.HOST_LINK_STAT_WIDTH width.toNat
      |>.setBit Fd.HOST_LINK_STAT_FLIT flit |>.set Fd.HOST_LINK_STAT_DL_UP 1).stageDone 7)
  else ok s

/-- The link enters Recovery with DL_Up held: outbound writes wait; `replays`: how often it has replayed since it last left Recovery
(R321). DEDUCED (log 58). -/
def execLinkRecovery (replays : BitVec 8) (s : State) : Res :=
  if s.is Fd.HOST_LINK_STAT_DL_UP ∧ !s.io.recovery then
    ok ((((s.io' fun x => { x with recovery := true }).bump Fd.HOST_LINK_RECOV_COUNT 1).count 13 Src.HOST_RECOVERIES 0 1).count 13
      Src.HOST_REPLAYS 0 replays.toNat)
  else ok s

/-- Recovery ends: the writes held leave in their order. -/
def execRecoveryExit (s : State) : Res :=
  ok (s.io' fun x =>
    if x.recovery then { x with recovery := false, held := [], heldBytes := 0, out := x.held ++ x.out } else x)

end Sys2Proof.Machine
end

