-- ==== Sys2Proof/Machine/Lanes.lean ====
section
/-!
DEFINITION. The detector lanes (R172 to R195): block reception, clock recovery, retraining, sleep and wake, eye scan.
-/
namespace Sys2Proof.Machine

/-! ## Blocks (R175 to R180) -/

/-- The receiver's descrambler (R176): d[n] = s[n] ^ s[n − 39] ^ s[n − 58], and the new history. DEDUCED (log 41). -/
def descramble (h : BitVec 58) (w : Wide) : Wide × BitVec 58 :=
  let x : BitVec 122 := w ++ h
  (((x >>> 58) ^^^ (x >>> 19) ^^^ x).truncate 64, (x >>> 64).truncate 58)

/-- The number of 1 bits. -/
def popcount {n : Nat} (x : BitVec n) : Nat := ((List.range n).filter fun i => x.getLsbD i).length

/-- The bit errors the PRBS checker finds in 66 received bits, and the new history (R194). -/
def prbsCheck (mode : Nat) (h : BitVec 31) (hdr : BitVec 2) (w : Wide) : Nat × BitVec 31 :=
  let x : BitVec 97 := (w ++ hdr) ++ h
  let e := if mode = 1 then (x >>> 31) ^^^ (x >>> 26) ^^^ (x >>> 22) else (x >>> 31) ^^^ (x >>> 3) ^^^ x
  (popcount (e.truncate 66 : BitVec 66), (x >>> 66).truncate 31)

/-- A valid header (R175). -/
def goodHdr (h : BitVec 2) : Bool := h == 1 || h == 2

/-- A control block's type, payload byte 0. -/
def blockType (w : Wide) : Nat := w.toNat % 256

/-- A block error (R177): an invalid header, a PHY block with a non-zero reserved byte, a WAKE_END of another
generation. -/
def blockError (gen : Nat) (hdr : BitVec 2) (w : Wide) : Bool :=
  let rest := w.toNat / 256
  if !goodHdr hdr then true
  else if hdr == 2 then
    if blockType w = 0x1E ∨ blockType w = 0x2D then rest != 0
    else if blockType w = 0x33 then rest != gen
    else false
  else false

/-- The control-block types a tile may send (R177, R205). -/
def knownType (ty : Nat) : Bool := [0x1E, 0x2D, 0x33, 0x4B, 0x66, 0x78, 0x93].contains ty

/-- An equaliser value after the sign-sign steps of one block (R184): `k` steps of 2^-MU from a value with its fraction of 2^-15, held
to [lo, hi]; the value and the fraction. -/
def lmsStep (lo hi : Int) (mu : Nat) (value : Int) (frac : Nat) (k : Int) : Int × Nat :=
  let x := max (lo * 2 ^ 15) (min (hi * 2 ^ 15 + 2 ^ 15 - 1) (value * 2 ^ 15 + frac + k * 2 ^ (15 - mu)))
  (x / 2 ^ 15, (x % 2 ^ 15).toNat)

/-- Coefficient i of lane l, CTLE 0 and DFE1 to DFE5: its field. -/
def eqField (l i : Nat) : Field :=
  match i with
  | 0 => Fd.LNK_LANE_EQ_VAL_CTLE l
  | 1 => Fd.LNK_LANE_EQ_VAL_DFE1 l
  | 2 => Fd.LNK_LANE_EQ_VAL_DFE2 l
  | 3 => Fd.LNK_LANE_EQ_VAL_DFE3 l
  | 4 => Fd.LNK_LANE_EQ_VAL2_DFE4 l
  | _ => Fd.LNK_LANE_EQ_VAL2_DFE5 l

/-- One coefficient adapts on a block of 66 UI: the signs of its steps are free. DESIGN CHOICE (log 40). -/
def State.adaptOne (l i : Nat) (s : State) : State :=
  let (n, s1) := s.drawNat 133
  let f := eqField l i
  let old : Int := if i = 0 then s.get f else signed 6 (s.get f)
  let (v, r) := lmsStep (if i = 0 then 0 else -32) (if i = 0 then 15 else 31) (s.get (Fd.LNK_LANE_EQ_CTL_MU l)) old
    (rd (fun _ => 0) (s.lane l).eqFrac i) ((n : Int) - 66)
  (s1.set f (unsigned (if i = 0 then 4 else 6) v)).lane' l fun x => { x with eqFrac := wr (fun _ => 0) x.eqFrac i r }

/-- Adaptation on one received block (R184, R185): by sign-sign LMS with step 2^-MU. -/
def State.adapt (l : Nat) (s : State) : State :=
  if s.is (Fd.LNK_LANE_STAT_FROZEN l) then s
  else
    let s1 := (s.holdCtle l).onlyIf (s.is (Fd.LNK_LANE_EQ_CTL_CTLE_AD l)) (State.adaptOne l 0)
    s1.onlyIf (s.is (Fd.LNK_LANE_EQ_CTL_DFE_EN l)) fun s => s.each [1, 2, 3, 4, 5] (State.adaptOne l)

/-- RX_BLOCKS counts a block received in LOCKED; its low word is readable (R195, R197). -/
def State.countBlock (l : Nat) (s : State) : State :=
  let v := ((s.wideOf (laneRgn l) (0x0100 + l % 32)).toNat + 1) % 2 ^ 48
  (s.setWide (laneRgn l) (0x0100 + l % 32) (BitVec.ofNat 64 v)).set (Fd.LNK_LANE_RXBLK_LO_LO l) (v % 2 ^ 32)

/-- One block time out of lock (R180). -/
def State.countUnlocked (l : Nat) (s : State) : State := s.bumpSat (Fd.LNK_LANE_UNLOCK_BLK_COUNT l) 1

/-- A block error is discarded and passed on as a missing block (R180, R213). -/
def State.countError (l : Nat) (s : State) : State :=
  ((s.bumpSat (Fd.LNK_LANE_BLK_ERR_COUNT l) 1).countLane l Src.LNK_BLK_ERR 1).countTile (l / 4) Src.LNK_EV_BLK_LOST 1

/-- A good block is delivered (R188, R205): SLEEP_ANN freezes and holds; a type of neither layer is counted. -/
def State.deliver (l : Nat) (hdr : BitVec 2) (w : Wide) (s : State) : State :=
  if hdr == 2 && blockType w == 0x2D then (s.lane' l fun x => { x with ann := true }).setFrozen l true
  else if hdr == 2 && !knownType (blockType w) then s.countTile (l / 4) Src.LNK_FR_TYPE 1
  else s

/-- A block in LOCKED (R179, R180): the 16th invalid header of a window loses lock, which freezes no adaptation (R185). -/
def State.lockedBlock (l : Nat) (hdr : BitVec 2) (w : Wide) (s : State) : State :=
  let x := s.lane l
  let bad := x.bad + if goodHdr hdr then 0 else 1
  let s1 := (if blockError (s.get (Fd.LNK_LANE_STAT_GEN l)) hdr w then s.countError l else s.deliver l hdr w).countBlock l
  if 16 ≤ bad then
    let s2 := ((s1.leaveLock l).setLane l lnHUNT |>.set (Fd.LNK_LANE_STAT_LOCK_LOST l) 1
      |>.bumpSat (Fd.LNK_LANE_LOCK_LOSS_COUNT l) 1).countLane l Src.LNK_LOCK_LOSS 1
    (s2.lane' l fun x => { x with good := 0, pos := 0, bad := 0, ann := false }).setFrozen l false
  else s1.lane' l fun x => { x with pos := (x.pos + 1) % 64, bad := if x.pos = 63 then 0 else bad }

/-- The candidate position after a header (R179): an invalid one moves it by one UI, from the next block on. -/
def nextCand (hdr : BitVec 2) (cand : Nat) : Nat := if goodHdr hdr then cand else (cand + 1) % 66

/-- A block while hunting (R179): the 64th consecutive valid header locks, and that block is the first delivered. -/
def State.huntBlock (l : Nat) (hdr : BitVec 2) (w : Wide) (s : State) : State :=
  let good := if goodHdr hdr then (s.lane l).good + 1 else 0
  if 64 ≤ good then
    let s1 := (s.setLane l lnLOCKED).lane' l fun x => { x with good := 0, pos := 0, bad := 0 }
    let s2 := s1.laneLocked l
    (if blockError (s.get (Fd.LNK_LANE_STAT_GEN l)) hdr w then s2.countError l else s2.deliver l hdr w).countBlock l
  else ((s.setLane l lnHUNT).lane' l fun x => { x with good := good, cand := nextCand hdr x.cand }).countUnlocked l

/-- A WAKE_END of the lane's generation. -/
def State.isWakeEnd (l : Nat) (hdr : BitVec 2) (w : Wide) (s : State) : Bool :=
  hdr == 2 && blockType w == 0x33 && !blockError (s.get (Fd.LNK_LANE_STAT_GEN l)) hdr w

/-- WAKE_END received in lock completes the wake (R190). -/
def State.wakeDone (l : Nat) (s : State) : State :=
  let s1 := ((s.setLane l lnLOCKED).lane' l fun x => { x with inner := false, good := 0, pos := 0, bad := 0 }).bump
    (Fd.LNK_LANE_WAKES_COUNT l) 1
  (s1.countLane l Src.LNK_WAKES 1).laneLocked l

/-- A block in WAKE after its clock pattern (R190): hunting runs inside, nothing is delivered, and WAKE_END received in lock, the block
that locks included, completes the wake.  Lock lost again inside WAKE is neither counted nor shown. DESIGN CHOICE (log 98). -/
def State.wakeBlock (l : Nat) (hdr : BitVec 2) (w : Wide) (s : State) : State :=
  let x := s.lane l
  if x.inner then
    let bad := x.bad + if goodHdr hdr then 0 else 1
    if s.isWakeEnd l hdr w then s.wakeDone l
    else if 16 ≤ bad then s.lane' l fun x => { x with inner := false, good := 0, pos := 0, bad := 0 }
    else s.lane' l fun x => { x with pos := (x.pos + 1) % 64, bad := if x.pos = 63 then 0 else bad }
  else
    let good := if goodHdr hdr then x.good + 1 else 0
    if 64 ≤ good && s.isWakeEnd l hdr w then s.wakeDone l
    else s.lane' l fun x =>
      if 64 ≤ good then { x with inner := true, good := 0, pos := 0, bad := 0 }
      else { x with good := good, cand := nextCand hdr x.cand }

/-- The 66 UI of a block in the order of the line (R175). -/
def uiOf (hdr : BitVec 2) (w : Wide) : List Bool :=
  [hdr.getLsbD 0, hdr.getLsbD 1] ++ (List.range 64).map fun i => w.getLsbD i

/-- What the receiver has seen of a clock pattern (R190): the UI of alternation so far, the last UI, and the place in the block of the UI
that ended it. -/
structure ClkScan where
  alt : Nat
  last : Option Bool
  ended : Option Nat := none

/-- Watch one more UI for the first that repeats the one before it, after at least 512 of alternation. -/
def clkUi (x : ClkScan) (y : Nat × Bool) : ClkScan :=
  if x.ended.isSome then x
  else if x.last = some y.2 then
    if 512 ≤ x.alt then { x with last := some y.2, ended := some y.1 } else { x with alt := 1, last := some y.2 }
  else { x with alt := min (x.alt + 1) 512, last := some y.2 }

/-- A block that arrives in WAKE during the clock pattern (R190): block lock is ignored up to the pattern's end, from which UI on the
lane adapts and hunts; the block that begins with that UI is the first hunted. DEDUCED (log 41). -/
def State.clkBlock (l : Nat) (hdr : BitVec 2) (raw w : Wide) (s : State) : State :=
  let x := s.lane l
  let y := ((uiOf hdr raw).mapIdx fun i b => (i, b)).foldl clkUi { alt := x.alt, last := x.lastUi }
  let s1 := s.lane' l fun x => { x with clk := y.ended.isNone, alt := y.alt, lastUi := y.last }
  match y.ended with
  | none => s1
  | some 0 => (((s1.freeze l).adapt l).wakeBlock l hdr w)
  | some _ => (s1.freeze l).adapt l

/-- What reaches the receiver of lane l: the block on the line, or under LOOP = 1 the next one of its own transmitter, while that is on
(R194). DEDUCED (log 41). -/
def State.atReceiver (l : Nat) (hdr : BitVec 2) (payload : Wide) (s : State) : Option (BitVec 2 × Wide × State) :=
  if s.get (Fd.LNK_LANE_CTL_LOOP l) ≠ 1 then some (hdr, payload, s)
  else if s.is (Fd.LNK_LANE_CTL_TX_EN l) && !s.is (Fd.LNK_LANE_STAT_TX_IDLE l) then
    let (b, s1) := s.loopedBlock l
    some (BitVec.ofNat 2 b.1, b.2, s1)
  else none

/-- A receiver takes one block at its candidate position (R176, R179, R180, R190, R194); not while its region restarts (R21).  Its
equalisers adapt on any traffic (R184). DEDUCED (log 41). -/
def execBlockReceive (l : Fin 128) (hdr : BitVec 2) (payload : Wide) (s : State) : Res :=
  let st := s.laneSt l
  if st = lnOFF ∨ st = lnIDLE ∨ s.restarting (laneRgn l) then ok s
  else match s.atReceiver l hdr payload with
    | none => ok s
    | some (rx, wire, s0) =>
      let pol := s.is (Fd.LNK_LANE_CTL_RX_POL l)
      let h := if pol then ~~~rx else rx
      let line := if pol then ~~~wire else wire
      let mode := s.get (Fd.LNK_LANE_CTL_PRBS l)
      let s1 := (s0.lane' l fun x => { x with squelch := false }).onlyIf
        (s.get (Fd.LNK_LANE_CTL_LOOP l) == 2 && s.is (Fd.LNK_LANE_CTL_TX_EN l)) (State.emit (.txRaw l hdr.toNat payload))
      if mode ≠ 0 then
        let (n, hist) := prbsCheck mode (s1.lane l).prbs h line
        let s2 := (s1.bumpSat (Fd.LNK_LANE_PRBS_ERR_COUNT l) n).lane' l fun x => { x with prbs := hist }
        ok ((s2.adapt l).onlyIf (st != lnLOCKED && st != lnWAKE) (State.countUnlocked l))
      else
        let (w, hist) := descramble (s1.lane l).hist line
        let s2 := s1.lane' l fun x => { x with hist := hist }
        if st = lnFAILED then ok ((s2.adapt l).countUnlocked l)
        else if st = lnLOCKED then ok ((s2.adapt l).lockedBlock l h w)
        else if st = lnWAKE then ok (if (s.lane l).clk then s2.clkBlock l h line w else (s2.adapt l).wakeBlock l h w)
        else ok ((s2.adapt l).huntBlock l h w)

/-! ## Clock recovery (R181 to R183) -/

/-- FI and PH after one update of the loop with a vote (R181): the new FI, the new PH, and the interpolator's steps. -/
def cdrStep (kp ki : Nat) (fi ph v : Int) : Int × Int × Int :=
  let f := max (-131071) (min 131071 (fi + v * 2 ^ ki))
  let p := ph + v * 2 ^ (kp + 8) + f
  let step := p / 2 ^ 18
  (f, p - step * 2 ^ 18, step)

/-- Every 32 UI the loop updates (R181), unless it is held (R183, R188); FREQ_ERR follows its condition (R182). -/
def execCdrUpdate (l : Fin 128) (vote : Int) (s : State) : Res :=
  let st := s.laneSt l
  let held := (s.lane l).ann || (s.lane l).squelch || st == lnOFF || s.restarting (laneRgn l)
  if vote < -1 ∨ 1 < vote then .fault .illFormed
  else if held then ok s
  else
    let (f, p, step) := cdrStep (s.get (Fd.LNK_LANE_CDR_KP l)) (s.get (Fd.LNK_LANE_CDR_KI l))
      (signed 18 (s.get (Fd.LNK_LANE_CDR_FOFS l))) (s.lane l).ph vote
    let s1 := (s.set (Fd.LNK_LANE_CDR_FOFS l) (unsigned 18 f)).lane' l fun x =>
      { x with ph := p, interp := (((x.interp : Int) + step) % 64).toNat }
    ok (s1.onlyIf (decide (f.natAbs ≤ 1074)) (State.set (Fd.LNK_LANE_STAT_FREQ_ERR l) 0))

/-- |FOFS| has stayed beyond 2.0 ppm for 1 ms in LOCKED (R182). -/
def execFreqErr (l : Fin 128) (s : State) : Res :=
  if s.restarting (laneRgn l) then ok s else
  let far := decide (1074 < (signed 18 (s.get (Fd.LNK_LANE_CDR_FOFS l))).natAbs)
  if s.laneSt l = lnLOCKED ∧ far ∧ !s.is (Fd.LNK_LANE_STAT_FREQ_ERR l) then
    ok ((s.set (Fd.LNK_LANE_STAT_FREQ_ERR l) 1 |>.set (Fd.LNK_LANE_STAT_FREQ_SEEN l) 1).laneRecord l 0x83)
  else ok s

/-! ## Retraining (R186) -/

/-- A RETRAIN write, or 100 µs out of lock, retrains the lane; a RETRAIN write takes it out of FAILED. -/
def execLaneRetrain (l : Fin 128) (s : State) : Res :=
  s.writeRow (Fd.LNK_LANE_CTL_RETRAIN l).off fun s =>
  if s.laneSt l = lnOFF then ok (s.set (Fd.LNK_LANE_CTL_RETRAIN l) 0)
  else
    let s1 := s.onlyIf (s.laneSt l == lnFAILED) (State.set (Fd.LNK_LANE_STAT_RETRIES l) 0)
    ok (s1.retrain l)

/-- A retrain has not locked within 2 ms: it is repeated, and the third failure in a row puts the lane in FAILED. -/
def execRetrainTimeout (l : Fin 128) (s : State) : Res :=
  if s.restarting (laneRgn l) then ok s else
  let st := s.laneSt l
  if st = lnTRAIN ∨ st = lnHUNT ∨ st = lnWAKE then
    let n := s.get (Fd.LNK_LANE_STAT_RETRIES l) + 1
    let s1 := s.set (Fd.LNK_LANE_STAT_RETRIES l) n
    ok (if 3 ≤ n then s1.laneFailed l else s1.retrain l)
  else ok s

/-! ## Sleep and wake (R187 to R191) -/

/-- TX_SLEEP: the clock lane's only while every upstream lane of its tile is idle (R174). -/
def execTxSleep (l : Fin 128) (s : State) : Res :=
  if s.restarting (laneRgn l) then ok s else
  let clock := s.clockLane (l / 4) == some l.toNat
  if s.is (Fd.LNK_LANE_CTL_TX_EN l) && !s.is (Fd.LNK_LANE_STAT_TX_IDLE l) && (!clock || s.tileQuiet (l / 4)) then
    ok (s.txSleep l)
  else ok s

/-- A transmitter leaves electrical idle, at least 2 µs after it entered, with its preamble (R187, R189); after the clock lane's wake the
tile's phase is measured afresh (R191). -/
def execTxWake (l : Fin 128) (s : State) : Res :=
  if s.restarting (laneRgn l) then ok s else
  ok (if s.is (Fd.LNK_LANE_STAT_TX_IDLE l) && s.txRested l then s.txWake l else s)

/-- Squelch has not asserted within 1 µs of SLEEP_ANN and valid blocks follow (R188). -/
def execSleepAnnExpire (l : Fin 128) (s : State) : Res :=
  if s.restarting (laneRgn l) then ok s else
  if s.laneSt l = lnLOCKED ∧ (s.lane l).ann then ok ((s.lane' l fun x => { x with ann := false }).setFrozen l false)
  else ok s

/-- Squelch asserts (R188): from LOCKED the receiver enters IDLE, which is no loss of lock; without SLEEP_ANN it sets
SQ_UNANN. -/
def execSquelchAssert (l : Fin 128) (s : State) : Res :=
  let s1 := s.lane' l fun x => { x with squelch := true, ann := false }
  if s.laneSt l = lnLOCKED ∧ !s.restarting (laneRgn l) then
    let s2 := ((s1.leaveLock l).setLane l lnIDLE).setFrozen l true
    ok (if (s.lane l).ann then s2 else (s2.set (Fd.LNK_LANE_STAT_SQ_UNANN l) 1).laneRecord l 0x84)
  else ok s1

/-- Squelch de-asserts (R190): from IDLE or TRAIN the receiver enters WAKE, its CDR running on, adaptation held to the
end of the clock pattern. -/
def execSquelchDeassert (l : Fin 128) (s : State) : Res :=
  let s1 := s.lane' l fun x =>
    { x with squelch := false, good := 0, inner := false, pos := 0, bad := 0, clk := true, alt := 0, lastUi := none }
  if (s.laneSt l = lnIDLE ∨ s.laneSt l = lnTRAIN) ∧ !s.restarting (laneRgn l) then ok ((s1.setLane l lnWAKE).setFrozen l true)
  else ok (s.lane' l fun x => { x with squelch := false })

/-- No WAKE_END within the limit (R190): WAKE_FAIL, a cell-level record, and the lane retrains. -/
def execWakeFail (l : Fin 128) (s : State) : Res :=
  if s.restarting (laneRgn l) then ok s else
  if s.laneSt l = lnWAKE then ok (((s.set (Fd.LNK_LANE_STAT_WAKE_FAIL l) 1).laneRecord l 0x85).retrain l) else ok s

/-! ## Eye scan (R192, R193) -/

/-- ES_CTL.GO starts or restarts a point with the values in ES_CTL; on a lane that is not in LOCKED it ends at once with ABORT. DESIGN CHOICE (log 98). -/
def execEsGo (l : Fin 128) (s : State) : Res :=
  s.writeRow (Fd.LNK_LANE_ES_CTL_GO l).off fun s =>
  let s1 := (s.set (Fd.LNK_LANE_ES_CTL_GO l) 0 |>.set (Fd.LNK_LANE_ES_ERRS_ERRS l) 0).lane' l fun x =>
    { x with es := s.reg (Fd.LNK_LANE_ES_CTL_GO l).off }
  ok (if s.laneSt l = lnLOCKED then s1.set (Fd.LNK_LANE_ES_STAT_BUSY l) 1
    else s1.set (Fd.LNK_LANE_ES_STAT_BUSY l) 0 |>.set (Fd.LNK_LANE_ES_STAT_ABORT l) 1 |>.tapEye l 0 true)

/-- A point ends after 2^DWELL UI with its count of disagreements. -/
def execEsDone (l : Fin 128) (errs : Word) (s : State) : Res :=
  if s.is (Fd.LNK_LANE_ES_STAT_BUSY l) then
    ok (s.set (Fd.LNK_LANE_ES_STAT_BUSY l) 0 |>.set (Fd.LNK_LANE_ES_STAT_DONE l) 1
      |>.set (Fd.LNK_LANE_ES_ERRS_ERRS l) errs.toNat |>.tapEye l errs.toNat false)
  else ok s

end Sys2Proof.Machine
end

