-- ==== Sys2Proof/Machine/PowerOps.lean ====
section
/-!
DEFINITION. The DVFS sequencer (R435 to R438).
-/
namespace Sys2Proof.Machine

/-- The core voltage of a performance point, in mV (R435). -/
def pointMv (n : Nat) : Nat := if n = 0 then 850 else if n = 1 then 750 else if n = 2 then 700 else 650

/-- One millisecond in ticks. -/
def ticksPerMs : Nat := 128000000

def State.point (s : State) : Nat := s.get Fd.CHIP_DVFS_STAT_PP
def State.dvfsStep (n : Nat) (s : State) : State := s.chip' fun c => { c with dvfs := n, dvfsAt := s.tick, dvfsTries := 0, dvfsAny := false }

/-- A change towards point n begins: raising writes the voltage first, lowering waits for the boundary (R436). -/
def State.startDvfs (n : Nat) (s : State) : State :=
  let s1 := (s.chip' fun c => { c with dvfsTo := n, dvfsNext := none }).set Fd.CHIP_DVFS_STAT_BUSY 1
  if n < s.point then s1.dvfsStep 1 else if s.point < n then s1.dvfsStep 4 else s1.dvfsStep 5

/-- The change is complete; a target written meanwhile takes effect (R437). -/
def State.endDvfs (s : State) : State :=
  let s1 := (s.dvfsStep 0).set Fd.CHIP_DVFS_STAT_BUSY 0
  match s.chip.dvfsNext with
  | some n => if n = s.point then s1.chip' fun c => { c with dvfsNext := none } else s1.startDvfs n
  | none => s1

/-- A step is complete: a new target replaces the rest of the change, or the next step follows (R437). -/
def State.afterStep (next : State → State) (s : State) : State :=
  match s.chip.dvfsNext with
  | some n => s.startDvfs n
  | none => next s

/-- A write of the target point (R436, R437). -/
def State.setTarget (n : Nat) (s : State) : State :=
  let s1 := s.set Fd.CHIP_DVFS_CTL_TARGET n
  if s.is Fd.CHIP_DVFS_STAT_BUSY then s1.chip' fun c => { c with dvfsNext := some n }
  else if n = s.point then s1 else s1.startDvfs n

/-- DVFS_FAIL (R437): the voltage returns to that of the point in force. -/
def State.dvfsFail (s : State) : State :=
  ((s.set Fd.CHIP_DVFS_STAT_FAIL 1).err { level := 1, region := 0, block := 2, code := 0x0083, count := s.chip.dvfsTries }).dvfsStep 7

/-- A die temperature has been read, in units of 1/16 °C from −64 °C (R362): at 150 °C chip safe state; above TLIM a
throttle step, at most one in 100 ms (R438). -/
def State.dieTemp (result : Nat) (s : State) : State :=
  let s1 := s.onlyIf (decide (3424 ≤ result)) (State.chipFault 0 0)
  let lim := (s.get Fd.CHIP_DVFS_CTL_TLIM + 64) * 16
  let rested := match s.chip.throtAt with
    | some t => decide ((100 * ticksPerMs : Int) < ahead t s.tick)
    | none => true
  let n := s.get Fd.CHIP_DVFS_CTL_TARGET
  if s.is Fd.CHIP_DVFS_CTL_AUTO_THROT && decide (lim < result) && rested && decide (n < 3) then
    ((s1.set Fd.CHIP_DVFS_STAT_THROT 1 |>.err { level := 0, region := 0, block := 2, code := 0x0084 }
      |>.count 0 Src.CHIP_THROTTLES 0 1).chip' fun c => { c with throtAt := some s.tick }).setTarget (n + 1)
  else s1

end Sys2Proof.Machine
end

