-- ==== Sys2Proof/Machine/Monitor.lean ====
section
/-!
DEFINITION. MONI (R351 to R368): comparators, slow chains, excitation, the housekeeping ADC; the ledger's true-up (R165).
-/
namespace Sys2Proof.Machine

/-- A comparator of an enabled input reports a crossing of a selected slope; one in a stop's window is TIU_STOP's (R352). -/
def execMonCrossing (m : Fin 16) (s : State) : Res :=
  if s.reportsCrossing m s.tick then ok (s.bump (Fd.MONI_IN_STAT_XINGS m) 1) else ok s

/-! ## Slow chains (R353 to R358) -/

/-- Periods of sinc³ and FIR outputs, and the group delays at each (R353, R355). -/
def sincPeriod : Nat := 6400000
def firPeriod : Nat := 64000000
def sincDelay : Nat := 9590625
def chainDelay : Nat := 412790625

def State.chain (k : Nat) (s : State) : MoniChain := rd (fun _ => {}) s.moni.chains k
def State.chain' (k : Nat) (f : MoniChain → MoniChain) (s : State) : State :=
  s.moni' fun m => { m with chains := wr (fun _ => {}) m.chains k (f (rd (fun _ => {}) m.chains k)) }

/-- The oven loop drives its sources, and reads sense chains 0 and 1 (R359, R361), as its last update took TBAS_OVN_CTL (R81). -/
def State.ovenDrives (s : State) : Bool := s.tbas.ovenCtl.getLsbD 0

/-- A chain delivers outputs: an enabled input whose slow chain runs, an enabled sense chain, or one the oven uses (R361); none
while MONI restarts (R21). DEDUCED (log 65). -/
def State.chainRuns (k : Nat) (s : State) : Bool :=
  if s.restarting 15 then false
  else if k < 16 then s.is (Fd.MONI_IN_CTL_EN k) && s.is (Fd.MONI_IN_CTL_SLOW_EN k)
  else s.is (Fd.MONI_SNS_CTL_EN (k - 16)) || (decide (k < 18) && s.ovenDrives)

/-- The number of the next output of period p after number n, not before now: the phase runs on whether or not the chain
delivers. -/
def State.nextOutput (base : Wide) (n p : Nat) (s : State) : Nat :=
  max (n + 1) (((ahead base s.tick).toNat + p - 1) / p)

/-- The XS pins that sense chain k, 16 to 19, reads: XS0 or XS1 for the oven loop, else those of PIN and REF (R361). -/
def State.snsPins (k : Nat) (s : State) : List Nat :=
  if k < 18 ∧ s.ovenDrives then [k - 16]
  else if s.is (Fd.MONI_SNS_CTL_EN (k - 16)) then
    [s.get (Fd.MONI_SNS_CTL_PIN (k - 16)), s.get (Fd.MONI_SNS_CTL_REF (k - 16))].filter fun p => decide (p < 16)
  else []

/-- The pin that source x drives: the oven's for sources 0 and 1, or its setting (R359). -/
def State.xsPin (x : Nat) (s : State) : Option Nat :=
  if x < 2 ∧ s.ovenDrives then some x else if s.is (Fd.MONI_XS_SRC_EN x) then some (s.get (Fd.MONI_XS_SRC_PIN x)) else none

/-- The current of source x, and whether it is the oven's (R359). -/
def State.xsCurrent (x : Nat) (s : State) : Bool × Nat :=
  if x < 2 ∧ s.ovenDrives then (true, bitsOf s.tbas.ovenCtl 3 1) else (false, s.get (Fd.MONI_XS_PAIR_I (x / 2)))

/-- A source that drives the pin is in compliance (R360). -/
def State.pinCompl (pin : Nat) (s : State) : Bool :=
  (List.range 8).any fun x => s.xsPin x == some pin && s.is (Fd.MONI_XS_STAT_COMPL.bit x)

/-- Source x is enabled, disabled, moved, or changes its current (R357). -/
def State.sourceChanged (s0 s : State) (x : Nat) : Bool := s0.xsPin x != s.xsPin x || ((s.xsPin x).isSome && s0.xsCurrent x != s.xsCurrent x)

/-- From one state to another the settings of sense chain k change, or a source on a pin that it reads does (R357). -/
def State.senseMoved (s0 s : State) (k : Nat) : Bool :=
  let f := Fd.MONI_SNS_CTL_EN (k - 16)
  s0.snsPins k != s.snsPins k || (!s0.chainRuns k && s.chainRuns k) || (s.is f && s0.reg f.off != s.reg f.off)
    || (List.range 8).any fun x => State.sourceChanged s0 s x
      && ((s.snsPins k).any fun p => s0.xsPin x == some p || s.xsPin x == some p)

/-- A source that no longer drives its pin is in compliance no more. -/
def State.varnishSource (s0 : State) (x : Nat) (s : State) : State :=
  if s0.xsPin x = s.xsPin x then s else s.set (Fd.MONI_XS_STAT_COMPL.bit x) 0

/-- A sinc³ output of chain k: it carries OPEN when a source of a pin that the chain reads has been in compliance in its period (R360), and
its instant is aligned by the group delay of its stage (R355).  Software meets its value through the FIR and the capture tap. -/
def execSincOutput (k : Fin 20) (v : BitVec 24) (s : State) : Res :=
  let c := s.chain k
  let n := s.nextOutput c.base c.sincs sincPeriod
  let t := c.base + BitVec.ofNat 64 (n * sincPeriod)
  if !s.chainRuns k || !s.timely t then ok s
  else
    let past := before c.settle t
    let after := if past then min (c.after + 1) 4 else 0
    let good := if past && decide (3 < after) then min (c.good + 1) 127 else 0
    let open_ := c.opened || (decide (16 ≤ k.val) && (s.snsPins k).any s.pinCompl)
    let s1 := (s.reach t).chain' k fun c =>
      { c with sincs := n, after := after, good := good, clean := if open_ then 0 else min (c.clean + 1) 127, opened := false }
    ok (if k.val < 16 then (s1.setBit (Fd.MONI_IN_STAT_SETTLING k) (good != 127)).tapMonitor 0 k v.toNat (good == 0) (t - BitVec.ofNat 64 sincDelay)
        else s1)

/-! ## True-up (R165, R166) -/

/-- A window sum of group g in window w exceeds its limit at some tick from the sample instant on. -/
def State.exceeds (w g : Nat) (t : Int) (s : State) : Bool :=
  s.scan.charges.any fun c =>
    c.win == w && c.grp == g && decide (bucket (s.get (winBsh w)) t ≤ bucket (s.get (winBsh w)) c.at_)
      && decide (s.get (Fd.SCAN_LEDG_LIM_LIM w g) * 1024 < s.windowSum w g c.at_)

/-- The true-up of group g, and the violation it may show. DEDUCED (log 38). -/
def State.trueUpGroup (t : Int) (cu g : Nat) (s : State) : State :=
  let s1 := (s.scan' (Scan.charge g t cu)).count 2 Src.SCAN_LEDG_TRUEUP g 1
  let s2 := match [0, 1, 2].find? fun w => s1.exceeds w g t with
    | some w => s1.violation false g w
    | none => s1
  s2.showRemain g

/-- The ledger takes a slow sample of monitor m at aligned instant t, in ticks of the count. -/
def State.trueUp (m : Nat) (v : Int) (t : Int) (unset ovr : Bool) (s : State) : State :=
  let e := ((max v 0).toNat * s.get (Fd.SCAN_LEDG_MONK_K m) + 65535) / 65536
  let mine := s.scan.modCharges.filter fun c =>
    c.mod_ == m && decide (4 * (t - firPeriod) < c.at_ ∧ c.at_ ≤ 4 * t)
  let ec := mine.foldl (fun n c => n + c.cu) 0
  let s1 := s.scan' fun x => { x with modCharges := x.modCharges.filter fun c => c.mod_ != m || decide (4 * t < c.at_) }
  let s2 :=
    if ec = 0 then
      s1.onlyIf (decide (s.get Fd.SCAN_LEDG_STRAY_CU < e) && (ovr || !unset)) (State.violation true m 0)
    else if !unset && s.is Fd.SCAN_LEDG_CTL_TRUEUP && decide (ec < e) then
      s1.each (List.range 64) fun g s =>
        let cg := (mine.filter fun c => c.grp == g).foldl (fun n c => n + c.cu) 0
        if cg = 0 then s else s.trueUpGroup t (((e - ec) * cg + ec - 1) / ec) g
    else s1
  s2.pruneCharges

/-- The ratio R_th / R_ref of two FIR outputs, in 2^-22 units within 24 bits, its fraction rounded either way; without a positive
reference the spec states none (R57, R361). DESIGN CHOICE (log 102). -/
def State.pairRatio (th ref : Int) (s : State) : Nat × State :=
  if ref ≤ 0 then s.drawNat (2 ^ 24)
  else
    let (up, s1) := s.drawBit
    ((max 0 (min (2 ^ 24 - 1) (eitherWay (th * 2 ^ 22) ref.toNat up))).toNat, s1)

/-- The oven loop takes the pair of chain 1's output and chain 0's last; an unsettled pair is skipped (R361). DEDUCED (log 26). -/
def State.ovenPair (v : BitVec 24) (unset : Bool) (s : State) : State :=
  if !s.ovenDrives || unset || s.is (Fd.MONI_SNS_LAST_UNSET 0) then s
  else
    let (r, s1) := s.pairRatio (signed 24 (s.get (Fd.MONI_SNS_LAST_VALUE 0))) v.toInt
    s1.tbas' fun b => { b with ratios := (r :: b.ratios).take 10 }

/-- A FIR output of chain k: shown with its marks, and handed to the ledger, the capture tap or the oven loop (R353, R356, R361). DEDUCED (log 65). -/
def execSlowSample (k : Fin 20) (v : BitVec 24) (s : State) : Res :=
  let c := s.chain k
  let n := s.nextOutput c.base c.firs firPeriod
  let t := c.base + BitVec.ofNat 64 (n * firPeriod)
  if !s.chainRuns k || !s.timely t then ok s
  else
    let ovr := v == 0x7FFFFF || v == 0x800000
    let unset := c.good != 127 || ovr
    let s1 := (s.reach t).chain' k (fun c => { c with firs := n })
      |>.setWide 15 (0x0100 + k) (t - BitVec.ofNat 64 chainDelay)
    if k.val < 16 then
      let fresh := ovr && !s.is (Fd.MONI_IN_LAST_OVR k)
      let s2 := s1.set (Fd.MONI_IN_LAST_VALUE k) v.toNat |>.setBit (Fd.MONI_IN_LAST_UNSET k) unset
        |>.setBit (Fd.MONI_IN_LAST_OVR k) ovr |>.bump (Fd.MONI_IN_LAST_CNT k) 1
        |>.onlyIf ovr (fun s => s.set (Fd.MONI_IN_STAT_OVR_SEEN k) 1 |>.count 15 Src.MONI_MON_OVR k 1)
        |>.onlyIf fresh (State.err { level := 0, region := 15, block := 1, code := 0x0F82, cell := k, action := 4 })
      let s3 := s2.tapMonitor 1 k v.toNat unset (t - BitVec.ofNat 64 chainDelay)
      ok (s3.trueUp k v.toInt ((t.toNat : Int) - chainDelay) unset ovr)
    else
      let j := k.val - 16
      ok (s1.set (Fd.MONI_SNS_LAST_VALUE j) v.toNat |>.setBit (Fd.MONI_SNS_LAST_UNSET j) unset
        |>.setBit (Fd.MONI_SNS_LAST_OVR j) ovr |>.setBit (Fd.MONI_SNS_LAST_OPEN j) (c.clean != 127)
        |>.bump (Fd.MONI_SNS_LAST_CNT j) 1 |>.onlyIf (j == 1) (State.ovenPair v unset))

/-- Chain k meets a change at tick c: its settle point moves (R357). -/
def State.moveSettle (k : Nat) (c : Wide) (s : State) : State :=
  let s1 := s.chain' k fun x =>
    { x with settle := c + BitVec.ofNat 64 (s.get Fd.MONI_SETTLE_TSETTLE * 10 * ticksPerUs), after := 0, good := 0 }
  if k < 16 then s1.set (Fd.MONI_IN_STAT_SETTLING k) 1 else s1

/-- Writing MONI_SYNC.GO: the reset falls at the first modulator edge at least 64 ticks on; each write has its own. DEDUCED (log 65). -/
def execMoniSync (s : State) : Res :=
  s.writeRow Fd.MONI_SYNC_GO.off fun s =>
  let t := (s.tick.toNat + 64 + 6249) / 6250 * 6250
  ok ((s.set Fd.MONI_SYNC_GO 1).moni' fun m => { m with syncs := m.syncs ++ [(BitVec.ofNat 64 t, s.get Fd.MONI_SYNC_MASK)] })

/-- The synchronising reset that falls due first. -/
def execMoniSyncReset (s : State) : Res :=
  match s.moni.syncs with
  | [] => ok s
  | (t, mask) :: rest =>
    if !s.timely t then ok s
    else
      let s1 := (s.reach t).each (List.range 20) fun k s =>
        if mask.testBit k then
          (s.chain' k fun _ => { base := t, settle := t }).onlyIf (decide (k < 16)) (State.set (Fd.MONI_IN_STAT_SETTLING k) 1)
        else s
      ok ((s1.setWide 15 0 t |>.setBit Fd.MONI_SYNC_GO (!rest.isEmpty)).moni' fun m => { m with syncs := rest })

/-! ## Excitation (R360) -/

/-- The XS pin of a housekeeping input: those of the sense muxes. -/
def State.hkPin (input : Nat) (s : State) : Option Nat :=
  if 40 ≤ input ∧ input < 44 then some (s.get Fd.MONI_HK_MUX_XS / 16 ^ (input - 40) % 16) else none

/-- A source of a pin enters compliance: the periods and conversions in progress that read the pin will carry OPEN. -/
def State.pinOpens (pin : Nat) (s : State) : State :=
  let hit (c : HkConv) : Bool := s.hkPin c.input == some pin
  (s.each [16, 17, 18, 19] fun k x => if (s.snsPins k).contains pin then x.chain' k fun c => { c with opened := true } else x).moni' fun m =>
    { m with busy := List.zipWith (fun (b : HkBusy) c => if hit c then { b with open_ := true } else b) m.busy m.hk }

/-- The compliance comparator of a driven source changes: it enters compliance, once recorded, or leaves it. DEDUCED (log 65). -/
def execXsOpen (x : Fin 8) (now : Bool) (s : State) : Res :=
  s.whenOn fun s =>
  match s.xsPin x with
  | none => ok s
  | some pin =>
    if s.restarting 15 || s.is (Fd.MONI_XS_STAT_COMPL.bit x) == now then ok s
    else if !now then ok (s.set (Fd.MONI_XS_STAT_COMPL.bit x) 0)
    else
      ok ((s.set (Fd.MONI_XS_STAT_COMPL.bit x) 1 |>.set (Fd.MONI_XS_STAT_OPEN_SEEN.bit x) 1
        |>.err { level := 0, region := 15, block := 3, code := 0x0F81, cell := x } |>.count 15 Src.MONI_XS_OPEN x 1).pinOpens pin)

/-! ## Housekeeping sequences (R364) -/

/-- The conversions of a sequence under the settings in force. -/
def State.hkEntries (s : State) : List HkConv :=
  (List.range 32).flatMap fun e =>
    if (s.get Fd.MONI_HK_EN_EN).testBit e then
      let avg := s.get (Fd.MONI_HK_ENT_AVG e)
      (List.range (2 ^ avg)).map fun i =>
        { port := none, entry := e, input := s.get (Fd.MONI_HK_ENT_INPUT e), avg := avg, last := i + 1 == 2 ^ avg
          alen := s.is (Fd.MONI_HK_ENT_ALEN e), lo := s.get (Fd.MONI_HK_LIM_LO e), hi := s.get (Fd.MONI_HK_LIM_HI e) }
    else []

/-- The slices in service (R363). -/
def State.hkActive (s : State) : List Nat :=
  if s.moni.hkOne then [s.get Fd.MONI_HK_STAT_ACT_A] else [s.get Fd.MONI_HK_STAT_ACT_A, s.get Fd.MONI_HK_STAT_ACT_B]

/-- The next conversion that waits starts on a free slice, when a slot is free; a slice that has been replaced finishes its own first
(R363, R364). -/
def State.hkSlot (s : State) : State :=
  let free := s.hkActive.filter fun x => !s.moni.busy.any fun b => b.slice == x
  match s.moni.hk[s.moni.busy.length]?, free with
  | some c, x :: _ =>
    if s.moni.busy.length < s.hkActive.length then
      let open_ := match s.hkPin c.input with
        | some p => s.pinCompl p
        | none => false
      s.moni' fun m => { m with busy := m.busy ++ [{ slice := x, start := s.tick, open_ := open_ }] }
    else s
  | _, _ => s
def State.hkFill (s : State) : State := s.hkSlot.hkSlot

/-- A sequence starts now; without an enabled entry there is none. -/
def State.startHk (s : State) : State :=
  let l := s.hkEntries
  let s1 := s.set Fd.MONI_HK_CMD_GO 0
  if l.isEmpty then s1
  else ((s1.set Fd.MONI_HK_STAT_RUNNING 1).moni' fun m =>
    { m with hk := m.hk ++ l, hkSum := 0, hkOpen := false, hkStart := s.tick }).hkFill

/-- No periodic start is due outside MODE 2: the first one of a later MODE 2 starts at once. DEDUCED (log 65). -/
def State.noPeriod (s : State) : State := s.moni' fun m => { m with hkDue := none, hkLate := false }

/-- The start of a sequence falls due: in MODE 1 when nothing else converts, in MODE 2 every PERIOD µs, or late behind a
request (R365), in MODE 3 on GO. DEDUCED (log 65). -/
def execHkSequenceStart (s : State) : Res :=
  if s.is Fd.MONI_HK_STAT_RUNNING || s.restarting 15 then ok s
  else
    match s.get Fd.MONI_HK_CTL_MODE with
    | 1 => ok (if s.moni.hk.isEmpty then s.startHk.noPeriod else s)
    | 2 =>
      let t := s.moni.hkDue.getD s.tick
      if s.moni.hkLate then
        if s.moni.hk.isEmpty then
          ok ((s.startHk.moni' fun m => { m with hkLate := false }).count 15 Src.MONI_HK_SEQ_LATE 0 1)
        else ok s
      else if !s.clockOk t then ok s
      else
        let s1 := (s.clockReach t).moni' fun m => { m with hkDue := some (t + usTicks (s.get Fd.MONI_HK_CTL_PERIOD)) }
        ok (if s.moni.hk.isEmpty then s1.startHk else s1.moni' fun m => { m with hkLate := true })
    | 3 => ok (if s.is Fd.MONI_HK_CMD_GO && s.moni.hk.isEmpty then s.startHk.noPeriod else s)
    | _ => ok s.noPeriod

/-- The last conversion of a sequence has ended: SEQ counts it, and the normal requests follow (R364, R365). -/
def State.endHk (s : State) : State :=
  if s.is Fd.MONI_HK_STAT_RUNNING && s.moni.hk.all fun c => c.port.isSome then
    (((s.set Fd.MONI_HK_STAT_RUNNING 0 |>.bump Fd.MONI_HK_STAT_SEQ 1).setWide 15 1 s.moni.hkStart).moni' fun m =>
      { m with hk := m.hk ++ m.hkWait, hkWait := [] }).hkFill
  else s

/-- An entry's result (R364, R366); its sample has the start of its last conversion (R333). DEDUCED (log 65). -/
def State.hkResult (c : HkConv) (sum : Nat) (open_ : Bool) (b : HkBusy) (s0 : State) : State :=
  let e := c.entry
  let r := (sum + 2 ^ c.avg / 2) / 2 ^ c.avg
  let s := s0.tapHk e r b.slice b.start
  let out := c.alen && decide (r < c.lo ∨ c.hi < r)
  let fresh := out && !s.moni.outside.testBit e
  let s1 := s.set (Fd.MONI_HK_RES_RESULT e) r |>.setBit (Fd.MONI_HK_RES_OPEN e) open_ |>.set (Fd.MONI_HK_RES_SLICE e) b.slice
    |>.set (Fd.MONI_HK_RES_VALID e) 1 |>.set (Fd.MONI_HK_RES_SEQ e) (s.get Fd.MONI_HK_STAT_SEQ + 1)
  let s2 := (s1.moni' fun m => { m with outside := if out then m.outside ||| 2 ^ e else m.outside &&& ((2 ^ 32 - 1) ^^^ 2 ^ e) }).onlyIf out
    fun s => (s.set (Fd.MONI_HK_ALARM_ALARM.bit e) 1).regionIrq 15
  let s3 := s2.onlyIf fresh fun s =>
    (s.err { level := 0, region := 15, block := 4, code := 0x0F84, cell := e }).count 15 Src.MONI_HK_ALARM 0 1
  (if c.input < 16 then s3.dieTemp r else s3).railRead c.input r

/-- A request's result (R365). -/
def State.reqResult (p : Nat) (c : HkConv) (r : Nat) (open_ : Bool) (slice : Nat) (s : State) : State :=
  let s1 := s.set (Fd.MONI_HK_REQ_BUSY p) 0 |>.set (Fd.MONI_HK_REQ_DONE p) 1 |>.set (Fd.MONI_HK_REQ_RES_RESULT p) r
    |>.setBit (Fd.MONI_HK_REQ_RES_OPEN p) open_ |>.set (Fd.MONI_HK_REQ_RES_SLICE p) slice
  (if c.input < 16 then s1.dieTemp r else s1).railRead c.input r

/-- The conversion in progress longest ends, 1 µs after its start, with a result; it carries OPEN when a source of its pin has been in
compliance during it (R360, R363).  The next conversion takes its slot. DEDUCED (log 65). -/
def execHkConversion (result : BitVec 12) (s : State) : Res :=
  match s.moni.hk, s.moni.busy with
  | c :: rest, b :: more =>
    let t := b.start + usTicks 1
    if !s.clockOk t then ok s
    else
      let s1 := (s.clockReach t).moni' fun m => { m with hk := rest, busy := more }
      match c.port with
      | some p => ok ((s1.reqResult p c result.toNat b.open_ b.slice).hkFill.endHk)
      | none =>
        let sum := s.moni.hkSum + result.toNat
        let op := s.moni.hkOpen || b.open_
        if c.last then ok (((s1.moni' fun m => { m with hkSum := 0, hkOpen := false }).hkResult c sum op b).hkFill.endHk)
        else ok (s1.moni' fun m => { m with hkSum := sum, hkOpen := op }).hkFill
  | _, _ => ok s

/-! ## Requests (R365) -/

/-- Where an urgent request enters: behind the conversions in progress and the earlier requests. -/
def State.urgentPlace (c : HkConv) (s : State) : List HkConv :=
  let n := s.moni.busy.length
  let rest := s.moni.hk.drop n
  s.moni.hk.take n ++ rest.takeWhile (fun x => x.port.isSome) ++ c :: rest.dropWhile (fun x => x.port.isSome)

/-- GO of a port: ignored while its request is outstanding, and while MONI restarts (R21). -/
def State.hkRequest (p : Nat) (s : State) : State :=
  if s.is (Fd.MONI_HK_REQ_BUSY p) || s.restarting 15 then s.set (Fd.MONI_HK_REQ_GO p) 0
  else
    let c : HkConv := { port := some p, input := s.get (Fd.MONI_HK_REQ_INPUT p) }
    let s1 := s.set (Fd.MONI_HK_REQ_GO p) 0 |>.set (Fd.MONI_HK_REQ_BUSY p) 1
    if s.is (Fd.MONI_HK_REQ_URGENT p) then
      (s1.moni' fun m => { m with hk := s.urgentPlace c }).hkFill.count 15 Src.MONI_HK_URGENT 0 1
    else if s.is Fd.MONI_HK_STAT_RUNNING then s1.moni' fun m => { m with hkWait := m.hkWait ++ [c] }
    else (s1.moni' fun m => { m with hk := m.hk ++ [c] }).hkFill

/-- GO of port p, or of both ports in one cycle, port 0 first. DEDUCED (log 65). -/
def execHkReqGo (p : Fin 2) (both : Bool) (s : State) : Res :=
  s.writeRow (Fd.MONI_HK_REQ_GO p).off fun s =>
  ok (if both then (s.hkRequest 0).hkRequest 1 else s.hkRequest p)

/-! ## Slices (R363) -/

/-- The calibrated slice enters service for the one that has served longest, ROT ms after the last rotation, and not before its
calibration of 20 ms has ended. DEDUCED (log 65). -/
def execHkRotate (s : State) : Res :=
  s.whenOn fun s =>
  let t := s.moni.rotAt + BitVec.ofNat 64 (max 20 (s.get Fd.MONI_HK_ROT_ROT) * ticksPerMs)
  if s.get Fd.MONI_HK_STAT_CAL = 3 ∨ s.restarting 15 ∨ !s.clockOk t then ok s
  else
    let a := s.get Fd.MONI_HK_STAT_ACT_A
    let s1 := (s.clockReach t)
    ok ((s1.set Fd.MONI_HK_STAT_ACT_A (s.get Fd.MONI_HK_STAT_ACT_B) |>.set Fd.MONI_HK_STAT_ACT_B (s.get Fd.MONI_HK_STAT_CAL)
      |>.set Fd.MONI_HK_STAT_CAL a |>.count 15 Src.MONI_SLICE_ROT 0 1).moni' fun m => { m with rotAt := s1.tick })

/-- A slice fails calibration and is retired; a second failure leaves one slice, and the region restarts. DEDUCED (log 65). -/
def execHkSliceFail (slice : Fin 3) (s : State) : Res :=
  let cal := s.get Fd.MONI_HK_STAT_CAL
  if cal = slice.val then
    ok (s.set Fd.MONI_HK_STAT_CAL 3 |>.set Fd.MONI_HK_STAT_SLICE_FAIL 1
      |>.err { level := 1, region := 15, block := 4, code := 0x0F83, action := 3, cell := slice })
  else if cal = 3 ∧ !s.moni.hkOne ∧ (s.get Fd.MONI_HK_STAT_ACT_A = slice.val ∨ s.get Fd.MONI_HK_STAT_ACT_B = slice.val) then
    let left := if s.get Fd.MONI_HK_STAT_ACT_A = slice.val then s.get Fd.MONI_HK_STAT_ACT_B else s.get Fd.MONI_HK_STAT_ACT_A
    ok ((((s.set Fd.MONI_HK_STAT_ACT_A left).set Fd.MONI_HK_STAT_SLICE_FAIL 1).moni' fun m => { m with hkOne := true }).startRestart 0 15)
  else ok s

end Sys2Proof.Machine
end

