-- ==== Sys2Proof/Machine/SecuOps.lean ====
section
/-!
DEFINITION. What the security services share (R395 to R421): anchors and signed objects, the SVN counter, the HSS state, the
keys, measurements, the debug session, the lifecycle, zeroisation.
-/
namespace Sys2Proof.Machine

/-- A number of bytes of zeros. -/
def zeros (n : Nat) : List Byte := List.replicate n 0
/-- A digest as its 48 bytes. -/
def hashBytes (h : BitVec 384) : List Byte := leBytes 48 h.toNat
/-- The UEID: 0x01 and 16 bytes (R405). -/
def ueidBytes : List Byte := 1 :: leBytes 16 Config.ueid.toNat

/-! ## Signed objects (R395 to R397, R416) -/

/-- The anchor of a key: vendor keys in boot ROM, owner keys in OTP, in the order OWNER_KEYS writes them. -/
def State.anchor (owner hss : Bool) (idx : Nat) (s : State) : BitVec 384 :=
  if owner then
    match s.secu.owner with
    | some l => l.getD (2 * idx + if hss then 1 else 0) 0
    | none => Config.ownerHash hss idx
  else Config.vendorHash hss idx

/-- A key index can accept an object: owner keys once their hashes are written, and in the states that hold them (R419). DEDUCED (log 74). -/
def State.keyUsable (owner : Bool) (idx : Nat) (s : State) : Bool :=
  decide (idx ≤ 1) && (if owner then s.is Fd.SECU_LC_OWNER_SET && decide (1 ≤ s.lifecycle ∧ s.lifecycle ≤ 3)
    else !Config.vendorRevoked idx)

/-- Both signatures verify against the same key index, and it is not revoked (R396). -/
def State.signedBy (owner : Bool) (idx : Nat) (msg : List Byte) (g : SigBlock) (s : State) : Bool :=
  s.keyUsable owner idx && Config.ecdsaVerifies (s.anchor owner false idx) (Config.sha384 msg) g.ecdsa
    && Config.hssVerifies (s.anchor owner true idx) msg g.hss

/-- A signature block: 96 bytes of ECDSA, the length of the HSS signature, and that many bytes (R396). -/
def sigBytes (ecdsa hss : List Byte) : List Byte := ecdsa ++ leBytes 4 hss.length ++ hss

/-- Bytes 127:0 of an image header (R397). -/
def imageMessage (i : Image) : List Byte :=
  leBytes 4 i.magic.toNat ++ leBytes 2 i.type.toNat ++ leBytes 2 i.hver.toNat ++ leBytes 4 i.svn.toNat
    ++ leBytes 4 i.bodyLen.toNat ++ leBytes 16 i.bind.toNat ++ hashBytes i.bodyHash ++ [i.signer, i.keyIdx] ++ zeros 46

/-- The header, the signature block padded to byte 4,095, and the body (R397, R409). -/
def imageBytes (i : Image) : List Byte :=
  let block := sigBytes i.sig.ecdsa i.sig.hss
  imageMessage i ++ block ++ zeros (3968 - block.length) ++ i.body

/-- An image of a type is well formed, meant for this device, whole, and signed by the set that its type requires (R397). -/
def State.imageGood (type : Nat) (i : Image) (s : State) : Bool :=
  i.magic == 0x4D495645 && i.type.toNat == type && i.hver == 1 && i.signer.toNat == (if type = 1 then 0 else 1)
    && i.bodyLen.toNat == i.body.length && decide (i.body.length ≤ 4 * 1024 * 1024)
    && (i.bind == 0 || i.bind == Config.ueid) && i.bodyHash == Config.sha384 i.body
    && s.signedBy (i.signer == 1) i.keyIdx.toNat (imageMessage i) i.sig

/-- A firmware image is accepted: its SVN is not below the fuse count (R399). -/
def State.fwGood (i : Image) (s : State) : Bool :=
  s.imageGood 1 i && decide (s.secu.svn ≤ i.svn.toNat ∧ i.svn.toNat ≤ 512)

/-- Bytes 127:0 of a token (R416). -/
def tokenMessage (t : Token) : List Byte :=
  leBytes 4 t.magic.toNat ++ [t.type, t.target, t.signer, t.keyIdx] ++ leBytes 16 t.ueid.toNat ++ leBytes 32 t.nonce.toNat
    ++ leBytes 2 t.duration.toNat ++ zeros 70

/-! ## The SVN counter (R399) -/

/-- Blow bits of the counter, n of them, one at a time; a bit that cannot be blown ends the counting there. -/
def State.blowBits : Nat → State → State
  | 0, s => s
  | n + 1, s =>
    if Config.svnStuck s.secu.svn then s.err { level := 1, region := 17, block := 1, code := 0x1182, count := 3 }
    else State.blowBits n (s.secu' fun u => { u with svn := u.svn + 1 })

/-- Blow the counter up to a target. -/
def State.blowSvn (target : Nat) (s : State) : State :=
  let s1 := State.blowBits (min target 512 - s.secu.svn) s
  s1.set Fd.SECU_BOOT_SVN_FUSE s1.secu.svn

/-! ## The HSS state (R402, R403) -/

/-- The valid copy with the higher SEQ. -/
def State.hss (s : State) : Option HssCopy :=
  if s.secu.hssA.valid then
    if s.secu.hssB.valid && decide (s.secu.hssA.seq < s.secu.hssB.seq) then some s.secu.hssB else some s.secu.hssA
  else if s.secu.hssB.valid then some s.secu.hssB
  else none

/-- The registers show the HSS state; with no valid copy LMS_STATE, and the leaves read 0 (R402, R425). DESIGN CHOICE (log 106). -/
def State.showHss (s : State) : State :=
  let s1 := s.setBit Fd.SECU_LMS_Q_REGEN s.secu.regen
  match s1.hss with
  | some c => s1.set Fd.SECU_LMS_Q_Q c.q |>.set Fd.SECU_LMS_TOP_TOPQ c.topq |>.set Fd.SECU_LMS_Q_LMS_STATE 0
  | none => s1.set Fd.SECU_LMS_Q_Q 0 |>.set Fd.SECU_LMS_TOP_TOPQ 0 |>.set Fd.SECU_LMS_Q_LMS_STATE 1

/-- New values go into the older copy, then into the other. -/
def State.writeHss (f : HssCopy → HssCopy) (s : State) : State :=
  match s.hss with
  | some c =>
    let n := { f c with valid := true, seq := c.seq + 1 }
    (s.secu' fun u => { u with hssA := n, hssB := n }).showHss
  | none => s

/-- Leaves of a bottom tree, and the leaf at which the next tree's generation starts (R401, R403). -/
def treeLeaves : Nat := 2 ^ 20
def regenLeaf : Nat := 2 ^ 20 - 2 ^ 16

/-- Generation starts: TOPQ + 1 is committed first. -/
def State.startTree (s : State) : State :=
  ((s.writeHss fun c => { c with topq := c.topq + 1 }).secu' fun u => { u with regen := true }).showHss

/-- The new tree comes into use. -/
def State.useTree (s : State) : State :=
  ((s.writeHss fun c => { c with bottom := c.bottom + 1, q := 0 }).secu' fun u => { u with treeReady := false }).showHss

/-- A leaf has been used. -/
def State.afterLeaf (q : Nat) (s : State) : State :=
  if q = regenLeaf then s.startTree else if q = treeLeaves ∧ s.secu.treeReady then s.useTree else s

/-- HSS has no valid state (R402). -/
def State.hssLost (s : State) : Bool := s.is Fd.SECU_LMS_Q_LMS_STATE

/-- An HSS signature can be made: a leaf of the tree in use is left. -/
def State.hssReady (s : State) : Bool :=
  match s.hss with
  | some c => decide (c.q < treeLeaves)
  | none => false

/-- The instant from which the next HSS signature may be issued (R404). -/
def State.sigFrom (s : State) : Wide :=
  match s.secu.sigAt with
  | some t => t + BitVec.ofNat 64 ticksPerS
  | none => s.tick
def State.sigTooSoon (s : State) : Bool := before s.tick s.sigFrom

/-- Sign with HSS: Q + 1 is stored before leaf Q is used (R402). -/
def State.signHss (msg : List Byte) (s : State) : List Byte × State :=
  match s.hss with
  | none => ([], s)
  | some c =>
    let s1 := (s.writeHss fun c => { c with q := c.q + 1 }).secu' fun u => { u with sigAt := some s.tick }
    (Config.hssSign c.bottom c.q msg, ((s1.bump Fd.SECU_SIGS_COUNT 1).count 17 Src.SECU_HSS_SIGN 0 1).afterLeaf (c.q + 1))

/-- At start-up the valid copy with the higher SEQ is taken and the other rewritten; without one, LMS_STATE; a generation that
power cut starts again (R402, R403). -/
def State.startHss (s : State) : State :=
  match s.hss with
  | some c =>
    let again := decide (regenLeaf ≤ c.q)
    (s.secu' fun u => { u with hssA := c, hssB := c, regen := again, treeReady := false }).showHss
  | none =>
    s.showHss.err { level := 1, region := 17, block := 1, code := 0x1183, action := 4 }

/-! ## Measurements (R409) -/

/-- The tag area in force: the copy with the higher SEQ (R412). -/
def State.tag (s : State) : TagCopy := if s.secu.tagA.seq < s.secu.tagB.seq then s.secu.tagB else s.secu.tagA
def State.tagBytes (s : State) : List Byte := (List.range 512).map (rd (fun _ => 0) s.tag.data)

/-- The 48-bit serial number of the last CAPS of a tile, 0 where none (R208, R409). -/
def State.serial (t : Nat) (s : State) : Nat := rd (fun _ => 0) s.secu.serials t
def State.serialBytes (s : State) : List Byte := (List.range 32).flatMap fun t => leBytes 6 (s.serial t)

/-- The OTP state: lifecycle, fuse count, revocations, owner hashes. -/
def State.otpBytes (s : State) : List Byte :=
  [BitVec.ofNat 8 s.secu.lcFuse, BitVec.ofNat 8 s.lifecycle] ++ leBytes 2 s.secu.svn
    ++ [0, 1].map (fun k => if Config.vendorRevoked k then 1 else 0)
    ++ ([false, true].flatMap fun h => [0, 1].flatMap fun k => hashBytes (s.anchor true h k))

/-- The debug state: level, signer, token hash. -/
def State.debugBytes (s : State) : List Byte :=
  leBytes 1 (s.get Fd.SECU_DBG_LEVEL) ++ leBytes 1 (s.get Fd.SECU_DBG_SIGNER) ++ hashBytes s.secu.tokHash

/-- Measurement i: those that follow their object, the boot ROM's, and those taken at their events. -/
def State.measurement (i : Nat) (s : State) : BitVec 384 :=
  if i = 1 then Config.romMeasure
  else if i = 14 then Config.sha384 s.serialBytes
  else if i = 15 then Config.sha384 s.tagBytes
  else if i = 16 then Config.sha384 s.debugBytes
  else rd (fun _ => 0) s.secu.meas i

def State.setMeasure (i : Nat) (h : BitVec 384) (s : State) : State :=
  s.secu' fun u => { u with meas := ins u.meas i h }
/-- Measurement 2 is taken: at boot and at each lifecycle change. -/
def State.measureOtp (s : State) : State := s.setMeasure 2 (Config.sha384 s.otpBytes)

/-! ## Keys (R405, R406, R419) -/

/-- DeviceID, Alias and HSS keys exist: PROVISIONED to FIELD_DEBUG. -/
def State.holdsKeys (s : State) : Bool := decide (1 ≤ s.lifecycle ∧ s.lifecycle ≤ 3) && !s.secu.udsGone

/-- The Alias certificate of a new CDI is issued with its HSS signature, one leaf; it waits while a leaf or its second is not yet there
(R403, R404, R406); without an HSS state it goes without (R402). DEDUCED (log 74). -/
def State.issueAlias (s : State) : State :=
  if s.secu.certCdi = some s.secu.cdi then s
  else if s.hssLost then s.secu' fun u => { u with certCdi := some u.cdi, aliasDue := false }
  else if !s.hssReady || (s.sigTooSoon && !s.clockOk s.sigFrom) then s.secu' fun u => { u with aliasDue := true }
  else
    let s1 := ((if s.sigTooSoon then s.clockReach s.sigFrom else s).signHss (Config.aliasCert s.secu.cdi)).2
    s1.secu' fun u => { u with certCdi := some u.cdi, aliasDue := false }

/-- A certificate that waits is issued as soon as it can be (R403, R404). -/
def State.issueDue (s : State) : State :=
  s.onlyIf (s.secu.aliasDue && s.secu.keys && (s.hssLost || s.hssReady && !s.sigTooSoon)) State.issueAlias

/-- The HSS state is taken, and the CDI and the keys are derived from the UDS and measurements 1, 2 and 3, where the lifecycle has
them (R402, R405). -/
def State.deriveKeys (s : State) : State :=
  let s0 := s.startHss
  if s0.holdsKeys then
    (s0.secu' fun u => { u with keys := true
                                cdi := Config.cdiOf [s0.measurement 1, s0.measurement 2, s0.measurement 3] }).issueAlias
  else s0.secu' fun u => { u with keys := false, cdi := 0, aliasDue := false }

/-- The keys are cleared (R420, R421). -/
def State.clearKeys (s : State) : State := s.secu' fun u => { u with keys := false, cdi := 0, held := [], aliasDue := false }

/-! ## The debug session (R417, R419) -/

/-- The level in force without a token. -/
def State.standing (s : State) : Nat := if s.lifecycle = 0 then 1 else 0

/-- Whole seconds up to a tick, a part counted as one. -/
def State.secondsTo (t : Wide) (s : State) : Nat := ((ahead s.tick t).toNat + ticksPerS - 1) / ticksPerS

/-- SECU_DBG.LEFT and MGMT_FW_STAT.LEFT follow the time. -/
def State.showLeft (s : State) : State :=
  let left (o : Option Wide) : Nat := match o with
    | some t => s.secondsTo t
    | none => 0
  (if s.secu.sessionEnd.isSome then s.set Fd.SECU_DBG_LEFT (left s.secu.sessionEnd) else s)
    |> fun s => if s.mgmt.healthEnd.isSome then s.set Fd.MGMT_FW_STAT_LEFT (left s.mgmt.healthEnd) else s

/-- What one clock of the counter adds: 128 ticks, in DOZE 3,200 (R67, R68). -/
def State.clockTicks (s : State) : Nat := if s.chip.coarse then 3200 else 128

/-- With no command waiting the time base goes on by one clock while it runs (R3, R67, R68): the next era is stored as the count
reaches 2^64 − 2^40, and a count that would pass its end wraps (R69); without a count a nanosecond since VSYS passes. DESIGN CHOICE (log 1). -/
def State.idle (s0 : State) : State :=
  let s := s0.setTck false
  if s.tbas.running then
    let n := s.tick.toNat / 128 * 128 + s.clockTicks
    (if 2 ^ 64 ≤ n then s.wrap
     else if s.tick.toNat < eraFence ∧ eraFence ≤ n then s.prewrap.io' fun x => { x with tick := BitVec.ofNat 64 n }
     else s.io' fun x => { x with tick := BitVec.ofNat 64 n }).showLeft.issueDue.drainStage
  else s.onlyIf s.powered fun s => s.io' fun x => { x with upBase := x.upBase + 128 }

/-- Every PERTURB field of every region is written to 0 (R417, R471). -/
def State.stopPerturb (s : State) : State :=
  s.each (List.range 19) fun r s =>
    s.set (Fd.PERTURB_HS_DELAY r) 0 |>.set (Fd.PERTURB_HS_MODE r) 0 |>.set (Fd.PERTURB_BP_PROB r) 0
      |>.set (Fd.PERTURB_BP_QSEL r) 0 |>.set (Fd.PERTURB_EV_EVDLY r) 0 |>.set (Fd.PERTURB_TB_SKEW r) 0
      |>.set (Fd.PERTURB_SEED_SEED r) 0

/-- A session in force ends: the level returns to the standing one, halted easels stay halted with their actions (R417). -/
def State.endSession (s : State) : State :=
  if s.secu.sessionEnd.isNone then s
  else
    (((s.set Fd.SECU_DBG_LEVEL s.standing |>.set Fd.SECU_DBG_SIGNER 0 |>.set Fd.SECU_DBG_LEFT 0).stopPerturb).secu' fun u =>
      { u with sessionEnd := none, tokHash := 0 }).err { level := 0, region := 17, block := 1, code := 0x1185 }

/-! ## Tokens (R416) -/

/-- A rejection: recorded and counted, the nonce is consumed; the fifth in 60 s closes DBG_CHALLENGE for 60 s. -/
def State.rejectToken (s : State) : State :=
  let recent := s.tick :: s.secu.rejects.filter fun t => decide (ahead t s.tick ≤ 60 * ticksPerS)
  let five := decide (5 ≤ recent.length)
  ((s.err { level := 0, region := 17, block := 1, code := 0x1184, action := 7 }).count 17 Src.SECU_TOKEN_REJECT 0 1).secu' fun u =>
    { u with nonce := none, rejects := if five then [] else recent
             busyTill := if five then some (s.tick + BitVec.ofNat 64 (60 * ticksPerS)) else u.busyTill }

/-- The nonce of a token is in force. -/
def State.nonceGood (n : BitVec 256) (s : State) : Bool :=
  match s.secu.nonce with
  | some (m, t) => m == n && decide (ahead t s.tick ≤ 60 * ticksPerS)
  | none => false

/-- The status of a token of a type whose target and signer are permitted or not. DEDUCED (log 74). -/
def State.judgeToken (type : Nat) (permitted : Bool) (t : Token) (s : State) : Nat :=
  if t.magic ≠ 0x4B545645 ∨ t.type.toNat ≠ type ∨ t.ueid ≠ Config.ueid ∨ !s.nonceGood t.nonce ∨ !permitted ∨
      2 ≤ t.signer.toNat ∨ (t.duration = 0) ≠ (type = 2) then stNOT_PERMITTED
  else if s.signedBy (t.signer == 1) t.keyIdx.toNat (tokenMessage t) t.sig then stOK
  else stSIGNATURE_FAIL

/-- The nonce of an accepted token is used up. -/
def State.useNonce (s : State) : State := s.secu' fun u => { u with nonce := none }

/-! ## Lifecycle (R413, R414) -/

/-- The lifecycle that OTP and the flag encode: FIELD_DEBUG only when both copies of the flag say so. -/
def State.storedLifecycle (s : State) : Nat :=
  if s.secu.lcFuse = 2 ∧ s.secu.flagA ∧ s.secu.flagB then 3 else s.secu.lcFuse

/-- Zeroisation (R421): keys, HSS copies, Alias certificate, tag area and profile copy are overwritten, the UDS and then the
ZEROISED fuse are blown. -/
def State.zeroise (s : State) : State :=
  ((((s.clearKeys.secu' fun u =>
      { u with hssA := { valid := false }, hssB := { valid := false }, certCdi := none, tagA := {}, tagB := {}
               udsGone := true, zeroised := true }).safe' fun x => { x with image := none, verified := false }).set
    Fd.SECU_LC_ZEROISED 1).showHss).err { level := 0, region := 17, block := 1, code := 0x1186 }

end Sys2Proof.Machine
end

