-- ==== Sys2Proof/Machine/Proof.lean ====
section
/-!
DEFINITION. The consistency checker (R40 to R42): the rules of every region over the sketches.
-/
namespace Sys2Proof.Machine

/-- A staged field as the sketch has it: the value that would be in force after the commit (R40). -/
def State.sk (f : Field) (s : State) : Nat := bitsOf (s.sketchWord f.off) f.hi f.lo
def State.skIs (f : Field) (s : State) : Bool := s.sk f == 1

/-- A failing rule: the BAR0 offset of the register it names, and its code. -/
abbrev Failure := Nat × Nat

/-- One rule. -/
def rule (fails : Bool) (f : Field) (code : Nat) : List Failure := if fails then [(f.off, code)] else []

/-- Rules 0x0001 and 0x0002 of a register whose sketch is not its reset value. -/
def State.fieldRules (a : Nat) (s : State) : List Failure :=
  match findRow a with
  | none => []
  | some (r, _) =>
    r.fields.flatMap fun f =>
      let v := bitsOf (s.sketchWord a) f.hi f.lo
      if f.acc ≠ .stg then []
      else if f.reserved v then [(a, 1)]
      else match f.rng with
        | some (lo, hi) => if v < lo ∨ hi < v then [(a, 2)] else []
        | none => []

/-! ## TBAS (R81) -/

/-- A MONI setting claims XS0, XS1 or pair 0 (R56). -/
def State.claimsOven (s : State) : Bool :=
  (List.range 8).any fun x => s.skIs (Fd.MONI_XS_SRC_EN x) && (decide (x < 2) || decide (s.sk (Fd.MONI_XS_SRC_PIN x) < 2))

def State.tbasRules (s : State) : List Failure :=
  rule (decide (s.sk Fd.TBAS_TIU_WIN_CLOSE ≤ s.sk Fd.TBAS_TIU_WIN_OPEN)) Fd.TBAS_TIU_WIN_CLOSE 0x0101
    ++ rule (s.sk Fd.TBAS_TIU_STOPS_STOP_EN &&& (0xFFFF ^^^ s.sk Fd.EMIT_MOD_EN_EN) != 0) Fd.TBAS_TIU_STOPS_STOP_EN 0x0102
    ++ rule (s.is Fd.TBAS_OVN_CTL_EN && s.claimsOven) Fd.TBAS_OVN_CTL_EN 0x0103

/-! ## SCAN (R110, R167, R171) -/

def State.descRules (i : Nat) (s : State) : List Failure :=
  rule (decide ((s.sk (Fd.SCAN_LD1_NBIN i) + 1) * 256 * 2 ^ s.sk (Fd.SCAN_LD1_KBIN i) < 32768)) (Fd.SCAN_LD1_KBIN i) 0x0201
    ++ rule (s.sk (Fd.SCAN_LD0_MODMASK i) &&& (0xFFFF ^^^ s.sk Fd.EMIT_MOD_EN_EN) != 0) (Fd.SCAN_LD0_MODMASK i) 0x0202

/-- Intervals in use below 25,600 ticks; interval j lies in word j. DESIGN CHOICE (log 20). -/
def State.codeRules (c : Nat) (s : State) : List Failure :=
  (List.range (s.sk (Fd.SCAN_CODE_NINT_NINT c))).flatMap fun j =>
    rule (decide (s.sk (Fd.SCAN_CODE_IVAL_IVAL c j) < 25600)) (Fd.SCAN_CODE_IVAL_IVAL c j) 0x0203

/-- SEL changed against what a pending commit brings. DESIGN CHOICE (log 20). -/
def State.bankRules (e : Nat) (s : State) : List Failure :=
  rule (s.is (Fd.SCAN_EASEL_STAT_SWAP_PEND e) && s.sk (Fd.SCAN_EASEL_PBANK_SEL e) != s.coming (Fd.SCAN_EASEL_PBANK_SEL e))
    (Fd.SCAN_EASEL_PBANK_SEL e) 0x0205

/-- BSH_w outside its range, or not above that of the window before it. -/
def State.widthRules (w : Nat) (s : State) : List Failure :=
  let b := s.sk (winBsh w)
  rule (decide (b < 17 ∨ 40 < b) || (decide (0 < w) && decide (b ≤ s.sk (winBsh (w - 1))))) (winBsh w) 0x0206

/-- The profile's ledger values beyond their OTP ceilings, from the first staging of a profile on. -/
def State.ledgerCeilings (s : State) : List Failure :=
  ([0, 1, 2].flatMap fun w =>
      rule (decide (s.sk (winBsh w) < Config.otpBshMin w)) (winBsh w) 6
        ++ (List.range 64).flatMap fun g =>
          rule (decide (Config.otpLimMax w < s.sk (Fd.SCAN_LEDG_LIM_LIM w g))) (Fd.SCAN_LEDG_LIM_LIM w g) 6)
    ++ rule (decide (Config.otpStrayMax < s.sk Fd.SCAN_LEDG_STRAY_CU)) Fd.SCAN_LEDG_STRAY_CU 6
    ++ (List.range 16).flatMap fun m =>
      rule (decide (s.sk (Fd.SCAN_LEDG_EDIAG_CU m) < Config.otpEdiagMin m)) (Fd.SCAN_LEDG_EDIAG_CU m) 6

def State.scanRules (s : State) : List Failure :=
  let n := s.sk Fd.SCAN_CODE_CTL_NDRAW
  rule (decide (n = 0 ∨ 256 < n)) Fd.SCAN_CODE_CTL_NDRAW 0x0204
    ++ (List.range 1024).flatMap (State.descRules · s)
    ++ (List.range 256).flatMap (State.codeRules · s)
    ++ (List.range 8).flatMap (State.bankRules · s)
    ++ [0, 1, 2].flatMap (State.widthRules · s)
    ++ if s.scan.profileStaged then s.ledgerCeilings else []

/-! ## EMIT (R170) -/

def State.emitRules (s : State) : List Failure :=
  let vmin := s.sk Fd.EMIT_LSUP_VLIM_VMIN
  let vmax := s.sk Fd.EMIT_LSUP_VLIM_VMAX
  let tgt := s.sk Fd.EMIT_LSUP_HDRM_TGT
  let qmax := s.sk Fd.EMIT_LSUP_QUIET_QMAX
  rule (decide (2 ^ s.sk Fd.EMIT_EW_CTL_NMOD ≤ s.sk Fd.EMIT_MOD_EN_EN)) Fd.EMIT_MOD_EN_EN 0x0301
    ++ rule (decide (vmin < 1000 ∨ 6000 < vmax ∨ vmax ≤ vmin)) Fd.EMIT_LSUP_VLIM_VMIN 0x0302
    ++ rule (decide (tgt < 80 ∨ 300 < tgt)) Fd.EMIT_LSUP_HDRM_TGT 0x0303
    ++ rule (decide (qmax < 1 ∨ 64 < qmax)) Fd.EMIT_LSUP_QUIET_QMAX 0x0303
    ++ rule (s.skIs Fd.EMIT_LSUP_CTL_EN && s.sk Fd.EMIT_MOD_EN_EN == 0) Fd.EMIT_LSUP_CTL_EN 0x0304

/-! ## LNK (R196, R220) -/

def State.laneRules (l : Nat) (s : State) : List Failure :=
  let r := laneRgn l * 256
  let loop := s.sk (Fd.LNK_LANE_CTL_LOOP l)
  let prbs := s.sk (Fd.LNK_LANE_CTL_PRBS l)
  let main := s.sk (Fd.LNK_LANE_TXFIR_MAIN l)
  let sum := s.sk (Fd.LNK_LANE_TXFIR_PRE l) + main + s.sk (Fd.LNK_LANE_TXFIR_POST l)
  rule ((loop != 0 || prbs != 0) && s.skIs (Fd.LNK_TILE_CTL_EN (l / 4))) (Fd.LNK_LANE_CTL_RX_EN l) (r + 1)
    ++ rule ((loop != 0 && prbs != 0)
        || (loop == 2 && !(s.skIs (Fd.LNK_LANE_CTL_RX_EN l) && s.skIs (Fd.LNK_LANE_CTL_TX_EN l)))) (Fd.LNK_LANE_CTL_RX_EN l) (r + 2)
    ++ rule (decide (main < 24 ∨ 63 < sum)) (Fd.LNK_LANE_TXFIR_MAIN l) (r + 3)

def State.tileRules (t : Nat) (s : State) : List Failure :=
  let r := tileRgn t * 256
  let rx := (tileLanes t).any fun l => s.skIs (Fd.LNK_LANE_CTL_RX_EN l)
  let tx := (tileLanes t).any fun l => s.skIs (Fd.LNK_LANE_CTL_TX_EN l)
  let gen := s.sk (Fd.LNK_TILE_CTL_GENMAX t)
  let dmax := s.sk (Fd.LNK_TILE_AMB2_DMAX t)
  let c := Fd.LNK_TILE_CTL_EN t
  rule (rx && !tx) (Fd.LNK_LANE_CTL_RX_EN (4 * t)) (r + 4)
    ++ rule (s.skIs c && (gen == 0 || s.sk (Fd.LNK_TILE_CTL_LATE t) == 0 || !rx)) c (r + 5)
    ++ rule (((s.skIs (Fd.LNK_TILE_CTL_ZOOM_EN t) || s.skIs (Fd.LNK_TILE_CTL_TAG_EN t)) && decide (gen < 3))
        || (s.skIs (Fd.LNK_TILE_CTL_AMB_EN t) && decide (gen < 2))) c (r + 6)
    ++ rule (decide (s.sk (Fd.LNK_TILE_AMB_AMB_HI t) ≤ s.sk (Fd.LNK_TILE_AMB_AMB_LO t))) (Fd.LNK_TILE_AMB_AMB_HI t) (r + 7)
    ++ rule (decide (dmax < 1 ∨ 8 < dmax)) (Fd.LNK_TILE_AMB2_DMAX t) (r + 7)

/-! ## HST (R248, R258, R272) -/

/-- The tiles of region n that would be enabled. -/
def State.skTiles (n : Nat) (s : State) : List Nat :=
  ((List.range 8).map (8 * n + ·)).filter fun t => s.skIs (Fd.LNK_TILE_CTL_EN t)

/-- The kernels HST_KSEL selects. -/
def State.skKernels (n : Nat) (s : State) : List Nat :=
  (List.range 8).filter fun k =>
    ((List.range 6).any fun i => s.sk (Fd.HST_KSEL_KMAIN n) / 8 ^ i % 8 == k)
      || (List.range 4).any fun i => s.sk (Fd.HST_KSEL_KZOOM n) / 8 ^ i % 8 == k

/-- The gain conditions of R258. -/
def Kernel.gainOk (k : Kernel) : Bool :=
  let sum := sumInt (k.h.map fun x => (x.natAbs : Int))
  decide (2 * sum * 65535 + 2 ^ k.osh < 2 ^ (24 + k.osh)) && decide (0 < k.ksum) && k.ksq != 0

def State.kernelRules (n q k : Nat) (s : State) : List Failure :=
  let len := s.get (Fd.HST_KHDR_L n q k)
  let f := Fd.HST_KHDR_L n q k
  rule (decide (len < 8 ∨ 64 < len ∨ 24 < s.get (Fd.HST_KHDR_OSH n q k))) f ((8 + n) * 256 + 4)
    ++ rule (!(s.kernel n q k).gainOk) f ((8 + n) * 256 + 5)

def State.hstRules (n : Nat) (s : State) : List Failure :=
  let r := (8 + n) * 256
  let tiles := s.skTiles n
  let q := s.sk (Fd.HST_FLT_CTL_LIVE n)
  let hmax := s.sk (Fd.HST_CTL_HMAX n)
  let maxe := s.sk (Fd.HST_DET_MAXE n)
  rule (tiles.any fun t => decide (s.sk (Fd.HST_CTL_DRAIN n) ≤ s.sk (Fd.LNK_TILE_CTL_LATE t))) (Fd.HST_CTL_DRAIN n) (r + 1)
    ++ (tiles.flatMap fun t => (List.range 32).flatMap fun k =>
      let f := Fd.HST_CHAN_MOD (32 * t + k)
      rule (!(s.sk Fd.TBAS_TIU_STOPS_STOP_EN).testBit (s.sk f)) f (r + 2))
    ++ rule (decide (hmax < 1 ∨ 8 < hmax)) (Fd.HST_CTL_HMAX n) (r + 3)
    ++ (if tiles.isEmpty then [] else (s.skKernels n).flatMap fun k => s.kernelRules n q k)
    ++ rule (decide (16 ≤ s.sk (Fd.HST_BG_TRLO n) + s.sk (Fd.HST_BG_TRHI n))) (Fd.HST_BG_TRLO n) (r + 6)
    ++ rule (decide (maxe < 1 ∨ 8 < maxe)) (Fd.HST_DET_MAXE n) (r + 6)
    ++ rule (decide (0 < n) && s.sk (Fd.HST_NAIR_NEXC n) != s.sk (Fd.HST_NAIR_NEXC 0)) (Fd.HST_NAIR_NEXC n) (r + 7)
    ++ rule (s.is (Fd.HST_FLT_STAT_PEND n) && q != s.coming (Fd.HST_FLT_CTL_LIVE n)) (Fd.HST_FLT_CTL_LIVE n) (r + 8)

/-! ## OUTP (R290) -/

def State.hexRules (r : Nat) (s : State) : List Failure :=
  let hi := s.sk (Fd.OUTP_HEX_CH_CH_HI r)
  let on := s.skIs (Fd.OUTP_HEX_CTL_EN r)
  rule (on && decide (hi < s.sk (Fd.OUTP_HEX_CH_CH_LO r) ∨ 1023 < hi)) (Fd.OUTP_HEX_CH_CH_LO r) 0x0C04
    ++ rule (on && decide (s.sk (Fd.OUTP_HEX_BIN_BIN_HI r) < s.sk (Fd.OUTP_HEX_BIN_BIN_LO r))) (Fd.OUTP_HEX_BIN_BIN_LO r) 0x0C04

def State.outpRules (s : State) : List Failure :=
  let gch := s.sk Fd.OUTP_CLS_CTL_GCH
  ((List.range 10).flatMap fun g => rule (s.sk (Fd.OUTP_CLS_WREF_WREF g) == 0) (Fd.OUTP_CLS_WREF_WREF g) 0x0C05)
    ++ rule (decide (10 * s.sk Fd.OUTP_CLS_RANGE_RAINR ≤ s.sk Fd.OUTP_CLS_RANGE_WINR)) Fd.OUTP_CLS_RANGE_WINR 0x0C01
    ++ rule (s.sk Fd.OUTP_CLS_CTL_CCRMIN == 0 || decide (gch < 1 ∨ 7 < gch) || decide (5 < s.sk Fd.OUTP_CLS_CTL_PRAIN))
        Fd.OUTP_CLS_CTL_CCRMIN 0x0C02
    ++ rule (s.sk Fd.OUTP_CLS_PERS_PTOL == 0 || s.sk Fd.OUTP_CLS_PERS_PGAP == 0) Fd.OUTP_CLS_PERS_PTOL 0x0C03
    ++ (List.range 4).flatMap (State.hexRules · s)

/-! ## HOST and MEMC (R249, R320, R331, R349) -/

def State.hostRules (s : State) : List Failure :=
  rule ((List.range 8).any fun e => decide (7 < s.sk Fd.HOST_PRING_MAP_RING / 8 ^ e % 8)) Fd.HOST_PRING_MAP_RING 0x0D01

/-- History slots that fit below the top of usable space; none before the density is known. -/
def slotsOf (dens : Nat) : Nat :=
  match dens with
  | 1 => 812
  | 2 => 1024
  | 3 => 1024
  | _ => 0

def State.memcRules (s : State) : List Failure :=
  let role := s.sk Fd.MEMC_SYNC_CTL_ROLE
  let nslot := s.sk Fd.MEMC_STK_CTL_NSLOT
  rule (s.sk Fd.MEMC_BW_WRR_MGMT == 0 && s.sk Fd.MEMC_BW_WRR_CAPX == 0 && s.sk Fd.MEMC_BW_WRR_SCRUB == 0)
      Fd.MEMC_BW_WRR_MGMT 0x0E01
    ++ rule (role == 3 || (role == 1 && s.skIs Fd.MEMC_SYNC_CTL_ARMIN)) Fd.MEMC_SYNC_CTL_ROLE 0x0E02
    ++ rule (s.skIs Fd.MEMC_SYNC_CTL_FEN && s.sk Fd.MEMC_SYNC_CTL_FSIG == 15) Fd.MEMC_SYNC_CTL_ROLE 0x0E03
    ++ rule (decide (511 < s.sk Fd.MEMC_SYNC_CTL_FWORD)) Fd.MEMC_SYNC_CTL_ROLE 0x0E04
    ++ rule (decide (slotsOf (s.get Fd.MEMC_MEM_STAT_DENS) < nslot)) Fd.MEMC_STK_CTL_EN 0x0E10
    ++ rule (s.skIs Fd.MEMC_STK_CTL_EN
        && (List.range 1024).any fun i => decide (nslot ≤ i) && s.skIs (Fd.SCAN_LD2_STACKEN i)) Fd.MEMC_STK_CTL_EN 0x0E11
    ++ rule (s.sk Fd.MEMC_STK_CTL_MAXGAP == 0) Fd.MEMC_STK_CTL_EN 0x0E12
    ++ rule (s.sk Fd.MEMC_STK_MAXAGE_MS == 0) Fd.MEMC_STK_MAXAGE_MS 0x0E12

/-! ## MONI (R351, R359, R361, R364, R367) -/

/-- Conversions of a sequence under the staged settings. -/
def State.skConversions (s : State) : Nat :=
  (List.range 32).foldl (fun n e => if (s.sk Fd.MONI_HK_EN_EN).testBit e then n + 2 ^ s.sk (Fd.MONI_HK_ENT_AVG e) else n) 0

def State.moniRules (s : State) : List Failure :=
  ((List.range 16).flatMap fun m =>
      rule ((s.sk Fd.TBAS_TIU_STOPS_STOP_EN).testBit m && decide (1 < s.sk (Fd.MONI_IN_CTL_RF m))) (Fd.MONI_IN_CTL_EN m) 0x0F03)
    ++ ([0, 1].flatMap fun k =>
      rule (s.is Fd.TBAS_OVN_CTL_EN && s.skIs (Fd.MONI_SNS_CTL_EN k)) (Fd.MONI_SNS_CTL_EN k) 0x0F02)
    ++ ((List.range 8).flatMap fun x =>
      rule (s.skIs (Fd.MONI_XS_SRC_EN x) && (List.range x).any fun y =>
        s.skIs (Fd.MONI_XS_SRC_EN y) && s.sk (Fd.MONI_XS_SRC_PIN y) == s.sk (Fd.MONI_XS_SRC_PIN x)) (Fd.MONI_XS_SRC_EN x) 0x0F01)
    ++ ((List.range 32).flatMap fun e =>
      rule (decide (47 < s.sk (Fd.MONI_HK_ENT_INPUT e) ∨ 4 < s.sk (Fd.MONI_HK_ENT_AVG e))) (Fd.MONI_HK_ENT_INPUT e) 0x0F04)
    ++ rule (s.sk Fd.MONI_HK_CTL_MODE == 2 && decide (s.sk Fd.MONI_HK_CTL_PERIOD < (s.skConversions + 1) / 2))
        Fd.MONI_HK_CTL_MODE 0x0F05

/-! ## SAFE (R390, R393) -/

/-- A profile value outside the range R390 gives. -/
def State.outside (f : Field) (lo hi : Nat) (s : State) : List Failure := rule (decide (s.sk f < lo ∨ hi < s.sk f)) f 2

/-- Two listed sources are equal, or PERMIT_SRC equals PROF_DEVSRC. -/
def State.sourceClash (s : State) : Bool :=
  let src (k : Nat) : Nat := s.sk (Fd.SAFE_PROF_SRC_SRC k)
  (src 0 != 0 && src 0 == src 4)
    || [(0, 1), (0, 2), (0, 3), (1, 2), (1, 3), (2, 3)].any fun (a, b) => src a != 0 && src a == src b

def State.zoneRules (n z : Nat) (s : State) : List Failure :=
  rule (decide (s.sk (Fd.SAFE_ZONE_D_DHI n z) < s.sk (Fd.SAFE_ZONE_D_DLO n z))) (Fd.SAFE_ZONE_D_DLO n z) 0x1201
    ++ rule (s.sk (Fd.SAFE_ZONE_N_NHIT n z) == 0) (Fd.SAFE_ZONE_N_NHIT n z) 0x1201

def State.safeRules (s : State) : List Failure :=
  s.outside Fd.SAFE_PROF_T_TMSG 20 500 ++ s.outside Fd.SAFE_PROF_T_WDOG 8 50 ++ s.outside Fd.SAFE_PROF_T_TSTAT 10 100
    ++ s.outside Fd.SAFE_PROF_T_VSNS_ON 10 100
    ++ rule (s.scan.profileStaged && decide (Config.otpTmsgMax < s.sk Fd.SAFE_PROF_T_TMSG)) Fd.SAFE_PROF_T_TMSG 6
    ++ rule (s.scan.profileStaged && decide (Config.otpWdogMax < s.sk Fd.SAFE_PROF_T_WDOG)) Fd.SAFE_PROF_T_WDOG 6
    ++ rule (decide (s.sk Fd.SAFE_PROF_T_TMSG ≤ s.sk Fd.SAFE_PROF_T_TSTAT)) Fd.SAFE_PROF_T_TMSG 0x1202
    ++ rule s.sourceClash (Fd.SAFE_PROF_SRC_SRC 0) 0x1203
    ++ (List.range 4).flatMap fun n => (List.range 8).flatMap fun z => s.zoneRules n z

/-! ## The result (R42) -/

/-- Every failing rule. DESIGN CHOICE (log 20). -/
def State.failures (s : State) : List Failure :=
  (s.io.sketch.flatMap fun e => s.fieldRules e.1)
    ++ s.tbasRules ++ s.scanRules ++ s.emitRules
    ++ (List.range 128).flatMap (State.laneRules · s) ++ (List.range 32).flatMap (State.tileRules · s)
    ++ [0, 1, 2, 3].flatMap (State.hstRules · s)
    ++ s.outpRules ++ s.hostRules ++ s.memcRules ++ s.moniRules ++ s.safeRules

/-- Failure a is reported before b: by region index and offset, then by code; regions lie in the order of offsets. DESIGN CHOICE (log 20). -/
def sooner (a b : Failure) : Bool := decide (a.1 < b.1) || (a.1 == b.1 && decide (a.2 < b.2))

/-- The first failing rule. DESIGN CHOICE (log 20). -/
def firstFailure : List Failure → Option Failure
  | [] => none
  | a :: l => match firstFailure l with
    | some b => some (if sooner b a then b else a)
    | none => some a

/-- The checker ends (R40 to R42). -/
def State.finishProof (s : State) : State :=
  let s1 := s.set Fd.CHIP_PROOF_GO 0
  match firstFailure s.failures with
  | none =>
    ((s1.set Fd.CHIP_PROOF_STATUS_STATE 2 |>.set Fd.CHIP_PROOF_STATUS_RULE 0 |>.set Fd.CHIP_PROOF_ADDR_OFFSET 0).chip' fun c =>
      { c with proofFresh := true }).showStale
  | some (a, code) =>
    (s1.set Fd.CHIP_PROOF_STATUS_STATE 3 |>.set Fd.CHIP_PROOF_STATUS_RULE code |>.set Fd.CHIP_PROOF_ADDR_OFFSET a).showStale

/-- The proof in progress completes. -/
def execProofComplete (s : State) : Res := if s.get Fd.CHIP_PROOF_STATUS_STATE = 1 then ok s.finishProof else ok s

end Sys2Proof.Machine
end

