-- ==== Sys2Proof/Machine/Varnish.lean ====
section
/-!
DEFINITION. The varnish tick (R14 to R16, R48): each region applies its commit shadow, and what a changed setting brings
about in its region.
-/
namespace Sys2Proof.Machine

/-! ## The shadow comes into force -/

/-- The locations a shadow changes in the regions of `which`, with the words they held. -/
def State.replaced (which : Nat → Bool) (s : State) : SMap Word :=
  let locs := s.io.shadow.map Prod.fst ++ s.io.regs.map Prod.fst
  locs.foldl (fun m a =>
    if which (regionOf a) && merge (stagedMask a) (s.reg a) (s.shadowWord a) != s.reg a then ins m a (s.reg a) else m) []

/-- The staged bits of the changed locations take the shadow's values; a tick before v keeps the old ones (R15). -/
def State.bringIn (v : Wide) (old : SMap Word) (s : State) : State :=
  (s.each old fun e s => s.put e.1 (merge (stagedMask e.1) (s.reg e.1) (s.shadowWord e.1))).chip' fun c =>
    { c with past := if old.isEmpty then c.past else (v, old) :: c.past }

/-! ## TBAS and SCAN -/

/-- An MDLY change discards the block in progress of its stop (R79). -/
def State.varnishTbas (s0 s : State) : State :=
  s.each (List.range 16) fun m s =>
    if s0.get (Fd.TBAS_TIU_MDLY_MDLY m) = s.get (Fd.TBAS_TIU_MDLY_MDLY m) then s else s.setBlock m {}

/-- A change of BSH_w moves the live charges of window w to the varnish tick; a later charge keeps its tick (R163). -/
def State.varnishWidth (s0 : State) (v : Wide) (w : Nat) (s : State) : State :=
  if s0.get (winBsh w) = s.get (winBsh w) then s
  else s.scan' fun x =>
    { x with charges := x.charges.filterMap fun c =>
        if c.win ≠ w then some c
        else if s0.liveCharge c then some { c with at_ := max c.at_ v.toNat } else none }

/-- The start charge of a limit that was 0 (R168), and the allowance that is left. DEDUCED (log 38). -/
def State.varnishLimit (s0 : State) (v : Wide) (g : Nat) (s : State) : State :=
  (s.each [0, 1, 2] fun w s =>
    let lim := s.get (Fd.SCAN_LEDG_LIM_LIM w g)
    if s0.get (Fd.SCAN_LEDG_LIM_LIM w g) = 0 ∧ lim ≠ 0 then
      s.scan' fun x => { x with charges := x.charges ++ [{ win := w, grp := g, at_ := v.toNat, cu := lim * 1024 }] }
    else s).showRemain g

/-- An easel that is halted at V swaps at V (R108). -/
def State.varnishBank (v : Wide) (e : Nat) (s : State) : State :=
  if s.isHalted e && s.is (Fd.SCAN_EASEL_STAT_SWAP_PEND e) && (s.easel e).swapFrom == some v then s.swapBank e v else s

def State.varnishScan (s0 : State) (v : Wide) (s : State) : State :=
  ((s.each [0, 1, 2] (State.varnishWidth s0 v)).each (List.range 64) (State.varnishLimit s0 v)).each easelList
    (State.varnishBank v)

/-! ## EMIT -/

/-- The stagger byte of module m (EMIT_STAG). -/
def stagByte (m : Nat) : Field := ⟨0x00610010 + 4 * (m / 4), 8 * (m % 4) + 7, 8 * (m % 4)⟩

/-- The E-wire write that a changed location calls for: the pair of EMIT_CUR, or the setting of EMIT_MSET (R150). -/
def ewItemAt (a : Nat) : Option (Nat × EwItem) :=
  if 0x00631000 ≤ a ∧ a < 0x00631800 then some ((a - 0x00631000) / 128, { set := false, addr := (a - 0x00631000) % 128 / 4 * 2 })
  else if 0x00633000 ≤ a ∧ a < 0x00634000 then some ((a - 0x00633000) / 256, { set := true, addr := (a - 0x00633000) % 256 / 4 })
  else none

/-- A change of a module's own byte ends a STAG of it from before the varnish tick (R126); changed currents and settings are queued
(R150), and a change of NMOD changes the load; the supply follows its settings, with a new frequency or threshold from now on (R155). -/
def State.varnishEmit (s0 : State) (v : Wide) (old : SMap Word) (s : State) : State :=
  let s1 := (s.applyStags (v - 1)).each (List.range 16) fun m s =>
    if s0.get (stagByte m) = s.get (stagByte m) then s
    else match look s.emt.stagAt m with
      | some t => if before t v then s.emit' fun x => { x with stag := del x.stag m } else s
      | none => s
  let s2 := s1.each old fun e s => match ewItemAt e.1 with
    | some (m, i) => s.ewLoad m i
    | none => s
  let s3 := s2.onlyIf (s0.get Fd.EMIT_EW_CTL_NMOD != s.get Fd.EMIT_EW_CTL_NMOD) State.ewChain
  let drives (x : State) : Nat × Nat := (x.get Fd.EMIT_LSUP_CTL_FSW, x.get Fd.EMIT_LSUP_ILIM_IPK)
  (s3.onlyIf (s3.is Fd.EMIT_LSUP_STAT_RUN && s3.lsupOn && drives s0 != drives s) (State.switchLsup true)).showLsup

/-! ## LNK -/

/-- A receiver is enabled, and trains; or disabled, and is off, a failed one too (R186). DESIGN CHOICE (log 98). -/
def State.varnishRx (s0 : State) (l : Nat) (s : State) : State :=
  let on := s.is (Fd.LNK_LANE_CTL_RX_EN l)
  if s0.is (Fd.LNK_LANE_CTL_RX_EN l) == on then s
  else if on then (s.retrain l).set (Fd.LNK_LANE_STAT_RETRIES l) 0
  else (s.leaveLock l).setLane l lnOFF

/-- A transmitter is enabled, and starts with the enable preamble (R189); or disabled, and its scrambler keeps the state that the IDLE blocks
up to then have left it (R176, R178). -/
def State.varnishTx (s0 : State) (l : Nat) (s : State) : State :=
  let on := s.is (Fd.LNK_LANE_CTL_TX_EN l)
  if s0.is (Fd.LNK_LANE_CTL_TX_EN l) == on then s
  else
    let s1 := ((s.onlyIf (s0.drives l) (State.fillIdle l)).set (Fd.LNK_LANE_STAT_TX_IDLE l) 0).lane' l fun x => { x with idleFrom := none, txAt := none, enable := false }
    s1.onlyIf on (State.preamble l true)

/-- A lane that is enabled starts at KL1, and stays there until its port's next relink or change of generation; one that is not enabled has no
generation (R172). DESIGN CHOICE (log 98). -/
def State.varnishGen (s0 : State) (l : Nat) (s : State) : State :=
  let en (x : State) : Bool := x.is (Fd.LNK_LANE_CTL_RX_EN l) || x.is (Fd.LNK_LANE_CTL_TX_EN l)
  if en s0 == en s then s else s.set (Fd.LNK_LANE_STAT_GEN l) (if en s then 1 else 0)

/-- A test mode begins, changes or ends (R194). -/
def State.varnishTest (s0 : State) (l : Nat) (s : State) : State :=
  let mode (x : State) : Nat × Nat := (x.get (Fd.LNK_LANE_CTL_PRBS l), x.get (Fd.LNK_LANE_CTL_LOOP l))
  if mode s0 = mode s then s
  else (s.onlyIf (s0.drives l && s.is (Fd.LNK_LANE_CTL_TX_EN l)) (State.fillIdle l)).emit (.txTest l (mode s).1 (mode s).2)

def State.varnishLane (s0 : State) (l : Nat) (s : State) : State :=
  (State.varnishTest s0 l (State.varnishTx s0 l (State.varnishRx s0 l (State.varnishGen s0 l s)))).holdCtle l

/-- The port returns to OFF (R198). -/
def State.portOff (t : Nat) (s : State) : State :=
  (s.set (Fd.LNK_TILE_STAT_STATE t) ptOFF |>.set (Fd.LNK_TILE_STAT_GEN t) 0 |>.set (Fd.LNK_TILE_STAT_UP_ACTIVE t) 0
    |>.set (Fd.LNK_TILE_STAT_DN_ACTIVE t) 0 |>.set (Fd.LNK_TILE_STAT_PHASE_OK t) 0).port' t fun _ => {}

/-- EN and ALLOW of a tile change (R198, R204); in HUSH, and without the lane rail, every port is held in OFF (R441, R447). -/
def State.varnishTile (s0 : State) (t : Nat) (s : State) : State :=
  let on := s.is (Fd.LNK_TILE_CTL_EN t)
  if s0.is (Fd.LNK_TILE_CTL_EN t) == on then
    if s0.get (Fd.LNK_TILE_SLEEP_ALLOW t) = s.get (Fd.LNK_TILE_SLEEP_ALLOW t) then s else s.sleepNow t
  else if !on then s.portOff t
  else if s.chip.hush = 4 || !s.chip.railLane then s
  else if s.portState t = ptOFF ∨ s.portState t = ptFAILED then
    (s.port' t fun p => { p with attempts := 0 }).enterLanes t
  else s

def State.varnishLnk (s0 s : State) : State :=
  (((s.each (List.range 128) (State.varnishLane s0)).each (List.range 32) (State.varnishTile s0)).each (List.range 32)
    State.keepClock).showBringUp

/-! ## HST and OUTP -/

def State.varnishHst (s : State) : State := s.each [0, 1, 2, 3] State.showPalettes

/-- A ring that starts to export counts its lines afresh (R288). -/
def State.varnishOutp (s0 s : State) : State :=
  s.each (List.range 4) fun r s =>
    if !s0.is (Fd.OUTP_HEX_CTL_EN r) && s.is (Fd.OUTP_HEX_CTL_EN r) then s.outp' fun o => { o with hex := del o.hex r } else s

/-! ## MONI (R357, R360) -/

/-- An input's feedback changes, or its chain is enabled. -/
def State.varnishInput (s0 : State) (v : Wide) (m : Nat) (s : State) : State :=
  if s0.get (Fd.MONI_IN_CTL_RF m) ≠ s.get (Fd.MONI_IN_CTL_RF m) ∨ (!s0.chainRuns m && s.chainRuns m) = true then s.moveSettle m v
  else s

/-- The settings of sense chain k change, or a source on a pin it reads does. -/
def State.varnishSense (s0 : State) (v : Wide) (k : Nat) (s : State) : State :=
  if State.senseMoved s0 s k then s.moveSettle k v else s

def State.varnishMoni (s0 : State) (v : Wide) (s : State) : State :=
  let s1 := ((s.each (List.range 16) (State.varnishInput s0 v)).each [16, 17, 18, 19] (State.varnishSense s0 v)).each (List.range 8)
    (State.varnishSource s0)
  s1.onlyIf (s1.get Fd.MONI_HK_CTL_MODE != 2) State.noPeriod

/-! ## SAFE (R391) -/

/-- A new PERMIT_SRC ends the permit in force, and SAFE_MSG_SEQ shows its SEQ_last; an activated profile's version, channel B's copy and the CAN
values come into force. -/
def State.varnishSafe (s0 s : State) : State :=
  let s1 := if s0.permitSrc = s.permitSrc then s
    else
      let s2 := if s.safeSt = stTESTING ∨ s.safeSt = stARMED then s.enterStopped else s.safe' fun x => { x with permit := false }
      s2.set Fd.SAFE_MSG_SEQ_SEQ (rd (fun _ => 0) s.safe.seqLast s.permitSrc).toNat
  match s.safe.activating with
  | none => s1
  | some (ver, hash) =>
    ((s1.set Fd.SAFE_PROF_VER_VER ver).safe' fun x => { x with activating := none, ownB := x.ownNext, can := x.canNext }).secu' fun u =>
      { u with meas := ins u.meas 4 hash }

/-! ## Application (R14, R16, R48) -/

/-- Each region of `which` applies its shadow at varnish tick v. -/
def State.applyShadow (which : Nat → Bool) (v : Wide) (s : State) : State :=
  let old := s.replaced which
  let s1 := s.bringIn v old
  let on (r : Nat) (f : State → State) (x : State) : State := x.onlyIf (which r) f
  on 1 (State.varnishTbas s) s1 |> on 2 (State.varnishScan s v) |> on 3 (State.varnishEmit s v old)
    |> (fun x => x.onlyIf ([4, 5, 6, 7].any which) (State.varnishLnk s)) |> State.varnishHst
    |> on 12 (State.varnishOutp s) |> on 15 (State.varnishMoni s v) |> on 18 (State.varnishSafe s)

/-- A FIXED commit is applied, and is DONE: a restarting region has taken its shadow for its resumption. -/
def State.varnish (v : Wide) (s : State) : State :=
  let held := (List.range 19).filter fun r => s.restarting r
  let s1 := s.applyShadow (fun r => !held.contains r) v
  ((s1.chip' fun c => { c with phase := 0, held := held }).set Fd.CHIP_COMMIT_STATUS_STATE 3 |>.secu' fun u =>
    { u with cfgDue := some v }).io' (fun x => { x with shadow := if held.isEmpty then [] else x.shadow }) |>.showPend

/-- The varnish tick. -/
def execVarnish (s : State) : Res :=
  if s.commitFixed && s.tbas.running && s.inCount s.varnishTick then ok ((s.reach s.varnishTick).varnish s.varnishTick) else ok s

/-- A region that resumes applies the shadow it has kept (R16). DEDUCED (log 22). -/
def State.takeHeld (r : Nat) (s : State) : State :=
  if s.chip.held.contains r then
    let s1 := (s.applyShadow (fun k => k == r) s.tick).chip' fun c => { c with held := c.held.erase r }
    s1.io' fun x => { x with shadow := if s1.chip.held.isEmpty then [] else x.shadow }
  else s

end Sys2Proof.Machine
end

