-- ==== Sys2Proof/Machine/TimeLoss.lean ====
section
/-!
DEFINITION. The loss of the time base (R71), its restart (R72), and the loss of a lane PLL (R173).
-/
namespace Sys2Proof.Machine

/-! ## The loss (R71, R433) -/

/-- The standing monitor's trip belongs to the first 10 ms after arming, before ROSC has been confirmed against XO: a failed
start-up attempt (R434). -/
def State.earlyTrip (s : State) : Bool :=
  !s.chip.started && decide (ahead s.chip.monAt s.tick ≤ 10 * ticksPerMs)

/-- The device has lost its time base: the count stops and holds, and chip safe state is entered; `blame`: 0 for a loss of PLL lock, else the
oscillator that a trip of the standing monitor blames, which the record has beside R488's DETAIL (R433). DEDUCED (log 32). DESIGN CHOICE (log 107). -/
def State.loseTime (blame : Nat) (s : State) : State :=
  let s1 := (s.closeShot.tbas' fun b => { b with running := false, lost := true, shot := none, ptmBusy := false }).releaseEvents
  let s2 := s1.set Fd.TBAS_TB_STAT_TB_LOSS 1 |>.set Fd.CHIP_OSC_STAT_MON_ARMED 0
  (s2.err { level := 3, region := 1, block := 1, code := 0x0181, action := 6, detail := if blame = 0 then 0 else 1 + 65536 * blame }).cause 9

/-- What the blamed oscillator takes with it: XO the PLL; ROSC the management, security and eMRAM islands, whose firmware
restarts (R433). -/
def State.blamed (blame : Nat) (s : State) : State :=
  let s1 := s.chip' fun c => { c with oscTrip := false, roscPass := 0, xoPass := 0, monBad := 0 }
  if blame = 2 then
    (s1.set Fd.CHIP_OSC_STAT_ROSC_OK 0).mgmt' fun m => { m with booted := false, recovery := false, hand := 0, resume := true }
  else s1.set Fd.CHIP_OSC_STAT_XO_OK 0 |>.set Fd.TBAS_TB_STAT_PLL_LOCK 0

/-- The PLL loses lock for more than 100 ns, or the standing monitor trips. DEDUCED (log 32). -/
def execTbLoss (monitor : Bool) (s : State) : Res :=
  if !s.tbas.running || s.chip.doze then ok s
  else if monitor then
    if s.chip.oscTrip && !s.earlyTrip then
      let b := s.get Fd.CHIP_OSC_STAT_BLAME
      ok ((s.loseTime b).blamed b).showIslands
    else ok s
  else if s.is Fd.TBAS_TB_STAT_PLL_LOCK then ok ((s.loseTime 0).set Fd.TBAS_TB_STAT_PLL_LOCK 0).showIslands
  else ok s

/-! ## The new count (R72)

Ticks that the device still compares are carried over: d, the last value of the old count, is taken off each, so that what
has passed stays as long past as it was. -/

def late (d : Wide) (o : Option Wide) : Option Wide := o.map fun t => t - d

def LineRec.rebase (d : Wide) (l : LineRec) : LineRec :=
  { l with start := l.start - d, shift := l.shift + d
           shots := l.shots.map fun h => { h with fire := h.fire - d }
           motion := l.motion.map fun m => { m with eff := m.eff - d } }

/-- A line in its dwell ends at the restart; its shots that have not been fired are gone.  `hit`: a bank that overlaps it was
accumulating; the record of either carries DEGRADED. -/
def LineRec.cut (d : Wide) (hit : Bool) (l : LineRec) : LineRec :=
  if l.ended then { l with broken := l.broken || hit }
  else { l with ended := true, broken := true, dwell := (d - l.start).toNat, shots := l.shots.filter ShotRec.fired }

def State.rebaseScan (d : Wide) (s : State) : State :=
  (s.scan' fun c =>
    { c with lines := c.lines.map (LineRec.rebase d), startDue := 0 }).set Fd.SCAN_START_MASK 0 |>.emit' fun x =>
      { x with pauseEnd := late d x.pauseEnd, pauseFrom := x.pauseFrom - d, lsupFrom := x.lsupFrom - d, ewMay := none
               stagAt := x.stagAt.map fun e => (e.1, e.2 - d)
               lastDiag := x.lastDiag.map (fun e => (e.1, e.2 - (d.toNat : Int))), diagFrom := x.diagFrom - d.toNat }

def State.rebaseHst (d : Wide) (s : State) : State :=
  (s.hst' fun h =>
    { h with acc := h.acc.map fun e => (e.1, { e.2 with from_ := late d e.2.from_ })
             reads := h.reads.map fun x =>
               { x with stop := x.stop - d, readAt := x.readAt - d, bank := { x.bank with from_ := late d x.bank.from_ } }
             cmb := [], zcmb := [] }).outp' fun o =>
    { o with units := o.units.map fun u => { u with stop := u.stop - d }
             prev := o.prev.map fun e => (e.1, e.2.map fun p => { p with finish := p.finish - d }) }

def State.rebaseMemc (d : Wide) (s : State) : State :=
  (s.memc' fun m =>
    { m with motion := m.motion.map fun x => { x with eff := x.eff - d }
             cPrev := late d m.cPrev, jobs := m.jobs.map fun j => { j with done := j.done - d }
             retrain := m.retrain.map fun e => (e.1, e.2 - d), scrubAt := m.scrubAt.map (· - (d.toNat : Int))
             pulseEnd := late d m.pulseEnd }).moni' fun m =>
    { m with chains := m.chains.map fun e => (e.1, { e.2 with base := e.2.base - d, settle := e.2.settle - d })
             hkStart := m.hkStart - d, hkDue := late d m.hkDue, rotAt := m.rotAt - d, syncs := []
             busy := m.busy.map fun x => { x with start := x.start - d } }

def State.rebaseHost (d : Wide) (s : State) : State :=
  ((s.host' fun h =>
    { h with rings := h.rings.map (fun e => (e.1, { e.2 with lastAt := e.2.lastAt - d, coalAt := e.2.coalAt - d }))
             stageAt := h.stageAt - d }).lnk' fun x =>
    { x with lanes := x.lanes.map fun e => (e.1, { e.2 with idleFrom := late d e.2.idleFrom })
             ports := x.ports.map fun e => (e.1, { e.2 with phAt := late d e.2.phAt }) }).tbas' fun b =>
    { b with rateGood := late d b.rateGood, trimBound := late d b.trimBound, trimAt := late d b.trimAt, ptmAt := late d b.ptmAt, ptm := [] }

def State.rebaseMgmt (d : Wide) (s : State) : State :=
  (s.mgmt' fun m =>
    { m with merging := m.merging.map fun x => { x with at_ := x.at_ - d }
             logAt := late d m.logAt, handAt := m.handAt - d, healthEnd := late d m.healthEnd
             calAt := m.calAt.map (fun e => (e.1, e.2 - d)), scrubWait := late d m.scrubWait
             calPendAt := m.calPendAt.map (fun e => (e.1, e.2 - d)), calWait := late d m.calWait, calStored := late d m.calStored }).secu' fun u =>
    { u with sigAt := late d u.sigAt, held := u.held.map (fun h => (h.1, h.2.1, h.2.2 - d))
             nonce := u.nonce.map (fun n => (n.1, n.2 - d)), rejects := u.rejects.map fun t => t - d
             busyTill := late d u.busyTill, sessionEnd := late d u.sessionEnd }

def State.rebaseSafe (d : Wide) (s : State) : State :=
  s.safe' fun x =>
    { x with testAt := x.testAt - d, servedAt := x.servedAt - d, permitAt := x.permitAt - d, txAt := x.txAt - d
             statusDue := late d x.statusDue, stopAt := late d x.stopAt
             waitA := x.waitA.map (fun c => { c with at_ := c.at_ - d }), waitB := x.waitB.map fun c => { c with at_ := c.at_ - d } }

def State.rebaseChip (d : Wide) (s : State) : State :=
  (s.set Fd.CHIP_SNAP_GO 0 |>.set Fd.MONI_SYNC_GO 0).chip' fun c =>
    { c with past := c.past.map (fun e => (e.1 - d, e.2)), snapDue := none, hushAt := c.hushAt - d
             sleepAt := c.sleepAt - d, dvfsAt := c.dvfsAt - d, throtAt := late d c.throtAt
             bist := c.bist.map (fun e => (e.1, e.2 - d)), restarts := c.restarts.map (fun e => (e.1, e.2 - d))
             clearedAt := late d c.clearedAt }

/-- Every tick the device still compares. DEDUCED (log 32). -/
def State.rebase (d : Wide) (s : State) : State :=
  s.rebaseScan d |>.rebaseHst d |>.rebaseMemc d |>.rebaseHost d |>.rebaseMgmt d |>.rebaseSafe d |>.rebaseChip d

/-! ## The restart (R72) -/

/-- The entries of both queues are discarded and counted; lines that have not begun go with them. -/
def State.flushQueues (s : State) : State :=
  let n := s.scan.shotQ.length + s.scan.actQ.length
  ((s.scan' fun c =>
    { c with shotQ := [], actQ := [], lastEnd := none, lines := c.lines.filter LineRec.started }).count 2 Src.SCAN_TB_FLUSH 0 n).showQueues

/-- No easel has a previous tick or a current line. -/
def State.forgetLines (s : State) : State :=
  s.each easelList fun e s => s.easel' e fun z =>
    { z with prev := none, cur := none, swapFrom := z.swapFrom.map fun _ => 0 }

/-- Every accumulating bank is swapped and read out under its last line, DEGRADED. -/
def State.swapAll (d : Wide) (s : State) : State :=
  let hit (l : LineRec) : Bool := (List.range 32).any fun k => l.overlaps (s.bank k).from_ d
  let s1 := s.each [0, 1, 2, 3] fun n s => s.degradeBanks n false
  let s2 := s1.each (List.range 32) fun k s => s.swapSector k d
  s2.scan' fun c => { c with lines := c.lines.map fun l => { l.cut d (hit l) with swapped := 2 ^ 32 - 1 } }

/-- The ledger's charges move into the current bucket of the new count (R168); the charges of the modules keep their age, for the
true-up of light from before (R165). DEDUCED (log 32). -/
def State.moveCharges (d : Wide) (s : State) : State :=
  s.scan' fun c =>
    { c with charges := c.charges.map (fun g => { g with at_ := 0 })
             modCharges := c.modCharges.map fun g => { g with at_ := g.at_ - 4 * (d.toNat : Int) } }

/-- A commit that waits is cancelled; one that is fixed is applied at the first tick. DEDUCED (log 21). -/
def State.commitAtRestart (s : State) : State :=
  if s.commitWaiting then s.cancelCommit
  else if s.commitFixed then (s.set Fd.CHIP_VARNISH_TICK_LO_TICK 0 |>.set Fd.CHIP_VARNISH_TICK_HI_TICK 0).varnish 0
  else s

/-- An easel that was running starts at PC 0, 2 µs into the new count. -/
def State.restartEasel (e : Nat) (s : State) : State :=
  if s.isHalted e then s else ((s.resetEasel e).setT e 0 256000).run e

/-- The time base is restored: XO and ROSC are judged and the PLL has locked. DEDUCED (log 32). -/
def State.restartTime (s : State) : State :=
  let d := s.tick
  let s1 := (((s.applyStags d).flushQueues.forgetLines.swapAll d).moveCharges d |>.rebase d).startCount
  let s2 := (s1.set Fd.TBAS_TB_STAT_PLL_LOCK 1 |>.set Fd.CHIP_OSC_STAT_MON_ARMED 1).chip' fun c =>
    { c with monAt := 0, monBad := 0 }
  ((s2.commitAtRestart.each easelList State.restartEasel).each [4, 5, 6, 7] (State.startRestart 0)).showIslands

def execTbRestart (s : State) : Res :=
  if s.tbas.lost && s.is Fd.CHIP_OSC_STAT_ROSC_OK && s.is Fd.CHIP_OSC_STAT_XO_OK then ok s.restartTime else ok s

/-! ## Lane PLLs (R173) -/

/-- LPLL_A or LPLL_B of region LNKn reports loss of lock: the region restarts, with a record at region level. -/
def execLpllUnlock (n : Fin 4) (b : Bool) (s : State) : Res :=
  let lock := if b then Fd.LNK_LPLL_STAT_LOCK_B n else Fd.LNK_LPLL_STAT_LOCK_A n
  if !s.is lock then ok s
  else
    let r := 4 + n.toNat
    let s1 := s.set lock 0 |>.set (Fd.LNK_LPLL_STAT_UNLOCK n) 1
    ok ((s1.err { level := 2, region := r, block := 2, code := r * 256 + 0x81, action := 5 }).startRestart 0 r)

end Sys2Proof.Machine
end

