-- ==== Sys2Proof/Machine/Power.lean ====
section
/-!
DEFINITION. Oscillators, performance points, power states and start-up (R427 to R449).
-/
namespace Sys2Proof.Machine

/-! ## Oscillators at start-up (R432 to R434) -/

/-- A window of n microseconds has passed that the tick counter does not count. DESIGN CHOICE (log 1). -/
def State.passUs (n : Nat) (s : State) : State :=
  if s.tbas.running then s else s.io' fun x => { x with upBase := x.upBase + n * 128000 }

/-- One judging window of ROSC; XO starts when it is judged (R432). -/
def State.judgeRosc (count : Nat) (s : State) : State :=
  let n := if 2880 ≤ count ∧ count ≤ 3520 then s.chip.roscPass + 1 else 0
  let s1 := (s.passUs 16).chip' fun c => { c with roscPass := n, xoOn := c.xoOn || decide (3 ≤ n) }
  if 3 ≤ n then s1.set Fd.CHIP_OSC_STAT_ROSC_OK 1 else s1

/-- One judging window of XO, with its amplitude detector; when it is judged the oven loop starts, and start-up stage 5 is
complete (R446). -/
def State.judgeXo (count : Nat) (amplitude : Bool) (s : State) : State :=
  let n := if 3960 ≤ count ∧ count ≤ 4040 then s.chip.xoPass + 1 else 0
  let s1 := (s.passUs 100).chip' fun c => { c with xoPass := n }
  if 8 ≤ n && amplitude then ((s1.set Fd.CHIP_OSC_STAT_XO_OK 1).tbas' fun b => { b with ovenOn := true }).stageDone 5 else s1

/-- After a failed attempt ROSC starts again when 10 ms have passed (R434): its first window is then judged. -/
def State.startRosc (s : State) : State :=
  if s.chip.roscOff then (s.passUs 10000).chip' fun c => { c with roscOff := false } else s

def execOscJudge (xo : Bool) (count : BitVec 16) (amplitude : Bool) (s0 : State) : Res :=
  let s := if xo then s0 else s0.startRosc
  if !s.onROSC then ok s0
  else if xo then
    if s.is Fd.CHIP_OSC_STAT_ROSC_OK && !s.is Fd.CHIP_OSC_STAT_XO_OK then ok (s.judgeXo count.toNat amplitude).showIslands else ok s0
  else if s.is Fd.CHIP_OSC_STAT_ROSC_OK then ok s0
  else ok (s.judgeRosc count.toNat).showIslands

/-- One window of the standing monitor: ROSC cycles over 4,000 XO cycles, and over 16 LFOSC cycles for the blame (R433). DEDUCED (log 77). -/
def execStandingMonitor (rosc lf : BitVec 16) (s : State) : Res :=
  if !s.is Fd.CHIP_OSC_STAT_MON_ARMED then ok s
  else
    let s1 := s.set Fd.CHIP_OSC_STAT_ROSC_CNT rosc.toNat
    if 19000 ≤ rosc.toNat ∧ rosc.toNat ≤ 21000 then ok (s1.chip' fun c => { c with monBad := 0, started := true })
    else if s.chip.monBad = 0 then ok (s1.chip' fun c => { c with monBad := 1 })
    else
      let blame := if 2880 ≤ lf.toNat ∧ lf.toNat ≤ 3520 then 1 else 2
      let s2 := s1.set Fd.CHIP_OSC_STAT_TRIP 1 |>.set Fd.CHIP_OSC_STAT_BLAME blame
      ok ((((s2.count 0 Src.CHIP_MON_TRIPS 0 1).err
        { level := 3, region := 0, block := 2, code := 0x0082, action := 6, detail := blame }).chip' fun c =>
          { c with monBad := c.monBad + 1, oscTrip := true }).set Fd.CHIP_OSC_STAT_MON_ARMED 0)

/-- The stages from k on are incomplete. DEDUCED (log 79). -/
def State.stagesFrom (k : Nat) (s : State) : State :=
  s.set Fd.CHIP_BOOT_STAT_DONE (s.get Fd.CHIP_BOOT_STAT_DONE % 2 ^ (k - 1))

/-- CLK_BOOT_FAIL (R434): a chip-level record, FAULT_N, SAFE in state 4 with cause CHIP. DEDUCED (log 77). -/
def State.clkBootFail (s : State) : State :=
  (((s.chip' fun c => { c with bootFail := true, faultOpen := true }).err
    { level := 3, region := 0, block := 2, code := 0x0081, action := 6, count := 8 }).driveFault true).cause 10

/-- The registers that run through DOZE: MONI, SAFE, the error log's, the boot's, the oven's, and CHIP's power, oscillator,
start-up and fault registers. DEDUCED (log 78). -/
def dozeKeeps (a : Nat) : Bool :=
  a / 0x200000 == 15 || a / 0x200000 == 18 || decide (0x02010000 ≤ a ∧ a ≤ 0x02010010)
    || decide (0x02210000 ≤ a ∧ a ≤ 0x02210010) || decide (0x00210000 ≤ a ∧ a < 0x00220000) || a == Fd.TBAS_ERA_ERA.off
    || a == Fd.CHIP_PWR_CTL_GO.off || a == Fd.CHIP_PWR_STAT_STATE.off || a == Fd.CHIP_OSC_STAT_TRIP.off
    || a == Fd.CHIP_BOOT_STAT_DONE.off || a == Fd.CHIP_ERR_STAT_CHIP_FAULT.off

/-- What the eMRAM and the always-on islands hold of MGMT and SECU; a report after a resume carries the same measurements
(R420). -/
def Mgmt.kept (m : Mgmt) : Mgmt :=
  { log := m.log, merging := m.merging, logAt := m.logAt, slotA := m.slotA, slotB := m.slotB, bootRec := m.bootRec
    bootOld := m.bootOld, healthEnd := m.healthEnd, calA := m.calA, calB := m.calB, calStored := m.calStored }
def Secu.kept (u : Secu) : Secu :=
  { lcFuse := u.lcFuse, flagA := u.flagA, flagB := u.flagB, udsGone := u.udsGone, zeroised := u.zeroised, owner := u.owner
    svn := u.svn, certCdi := u.certCdi, hssA := u.hssA, hssB := u.hssB, tagA := u.tagA, tagB := u.tagB, sigAt := u.sigAt
    meas := u.meas, cfgTick := u.cfgTick }

/-- The core islands lose their state: what the VSYS islands, the eMRAM and OTP hold stays. DEDUCED (log 78). -/
def State.coreOff (s : State) : State :=
  { s with
    io := { s.io with regs := s.io.regs.filter fun e => dozeKeeps e.1
                      sketch := s.io.sketch.filter fun e => dozeKeeps e.1
                      shadow := [], wide := s.io.wide.filter fun e => e.1 / 65536 == 15 || e.1 / 65536 == 18
                      recovery := false, held := [], heldBytes := 0 }
    tbas := { s.tbas with ptmBusy := false, ptm := [], ptmFails := 0, rateGood := none, trimBound := none
                          trimAt := none, blocks := [], shot := none }
    scan := {}, emt := {}, lnk := {}, hst := {}, outp := {}, host := { perst := s.host.perst, subsystem := s.host.subsystem }, memc := {}
    safe := { s.safe with activating := none }
    mgmt := s.mgmt.kept, secu := s.secu.kept
    chip := { throtAt := s.chip.throtAt, started := s.chip.started, bootFail := s.chip.bootFail, restarts := s.chip.restarts
              faultOpen := s.chip.faultOpen, stuck := [], okFrom := s.chip.okFrom, clearedAt := s.chip.clearedAt
              xoOn := s.chip.xoOn, railIo := s.chip.railIo, clkPin := s.chip.clkPin } }

/-- A start-up attempt fails (R434): the core islands are held in reset with their rails good, ROSC and the PLL stop, XO runs on; after
the eighth retry CLK_BOOT_FAIL. DEDUCED (log 77). -/
def execStartupRetry (s : State) : Res :=
  if s.chip.started || s.chip.bootFail || !s.stageIs 4 || (s.tbas.running && !(s.chip.oscTrip && s.earlyTrip)) then ok s
  else
    let s1 := (s.stagesFrom 5).set Fd.CHIP_OSC_STAT_ROSC_OK 0 |>.set Fd.CHIP_OSC_STAT_XO_OK 0
      |>.set Fd.CHIP_OSC_STAT_MON_ARMED 0 |>.set Fd.TBAS_TB_STAT_PLL_LOCK 0 |>.bump Fd.CHIP_OSC_STAT_RETRIES 1
    let s2 := (s1.coreOff.tbas' fun b => { b with running := false }).chip' fun c =>
      { c with roscOff := true, railLane := s.chip.railLane, railPcie := s.chip.railPcie, railMem := s.chip.railMem }
    ok (if 9 ≤ s2.get Fd.CHIP_OSC_STAT_RETRIES then s2.clkBootFail else s2).showIslands

/-! ## Forced gates (R430) -/

/-- An access meets a gate that is forced closed, and is not served within 1 µs: a read ends with Completer Abort, a write is
dropped. -/
def execGateAbort (who : Actor) (off : BitVec 32) (write : Bool) (s : State) : Res :=
  if s.gated off.toNat then ok (s.gateAbort who off.toNat write) else ok s

/-! ## CLKOUT (R431) -/

/-- The next falling edge of the old output: the pin follows CHIP_CLKOUT. -/
def execClkoutChange (s : State) : Res := s.whenOn fun s => ok (s.chip' fun c => { c with clkout := s.reg Fd.CHIP_CLKOUT_SEL.off }).showIslands

/-! ## Performance points (R435 to R437) -/

/-- A write of CHIP_DVFS_CTL (R436, R437). -/
def execDvfsTarget (who : Actor) (v : Word) (s : State) : Res :=
  s.writeBy who Fd.CHIP_DVFS_CTL_TARGET.off fun s =>
  ok ((s.set Fd.CHIP_DVFS_CTL_TLIM (bitsOf v 23 16) |>.set Fd.CHIP_DVFS_CTL_AUTO_THROT (bitsOf v 8 8)
    |>.set Fd.CHIP_DVFS_CTL_ENG (bitsOf v 6 4)).setTarget (bitsOf v 1 0))

/-- The voltage that the transaction in progress writes. -/
def State.avsMv (s : State) : Nat := pointMv (if s.chip.dvfs = 7 then s.point else s.chip.dvfsTo)

/-- An AVSBus write ends, with a good acknowledgement or without: retried three times (R437). -/
def execAvsTransaction (ack : Bool) (s : State) : Res :=
  let n := s.chip.dvfs
  if n ≠ 1 ∧ n ≠ 5 ∧ n ≠ 7 then ok s
  else
    let s1 := s.emit (.avsWrite s.avsMv)
    if ack then ok (if n = 7 then s1.endDvfs else s1.afterStep (State.dvfsStep (n + 1)))
    else if s.chip.dvfsTries < 3 then ok (s1.chip' fun c => { c with dvfsTries := c.dvfsTries + 1 })
    else ok (if n = 7 then s1.endDvfs else s1.dvfsFail)

/-- A reading is within 15 mV of a target (R436). -/
def within15 (want : Nat) (mv : BitVec 10) : Bool := decide (mv.toNat ≤ want + 15 ∧ want ≤ mv.toNat + 15)

/-- The PMIC's voltage is read, and whether its status reports the target; housekeeping inputs 20 to 23 read `mon`: the voltage is reached when
it does and each of them is within 15 mV (R436). DEDUCED (log 78). -/
def execDvfsVoltageReached (reported : Bool) (mv : BitVec 10) (mon : BitVec 10 × BitVec 10 × BitVec 10 × BitVec 10) (s : State) : Res :=
  let n := s.chip.dvfs
  if n ≠ 2 ∧ n ≠ 6 then ok s
  else
    let s1 := (s.emit .avsRead).set Fd.CHIP_DVFS_STAT_VMON mv.toNat
    let good := within15 (pointMv s.chip.dvfsTo)
    if reported && good mon.1 && good mon.2.1 && good mon.2.2.1 && good mon.2.2.2 then
      ok (s1.afterStep (if n = 2 then State.dvfsStep 3 else State.endDvfs))
    else ok s1

/-- The boundary: the DVFS islands switch frequency (R436). -/
def execDvfsSwitch (s : State) : Res :=
  let n := s.chip.dvfs
  if n ≠ 3 ∧ n ≠ 4 then ok s
  else
    match s.boundary (s.get Fd.CHIP_DVFS_CTL_ENG) s.chip.dvfsAt s.chip.dvfsAny with
    | none => ok s
    | some t =>
      if !s.clockOk t then ok s
      else
        let s1 := (s.clockReach t).set Fd.CHIP_DVFS_STAT_PP s.chip.dvfsTo |>.count 0 Src.CHIP_DVFS_CHANGES 0 1
        ok (if n = 3 then s1.endDvfs else s1.afterStep (State.dvfsStep 5))

/-- The voltage is not reached within 2 ms (R437). -/
def execDvfsFail (s : State) : Res :=
  let t := s.chip.dvfsAt + BitVec.ofNat 64 (2 * ticksPerMs)
  if (s.chip.dvfs = 2 ∨ s.chip.dvfs = 6) ∧ s.clockOk t then ok (s.clockReach t).dvfsFail else ok s

/-- FWAIT ms, as CHIP_PWR_CTL gives them. -/
def State.fwait (s : State) : Wide := BitVec.ofNat 64 (s.get Fd.CHIP_PWR_CTL_FWAIT * ticksPerMs)

/-- What waits for a frame start, with the instant its FWAIT ends and what follows (R436, R441, R459). -/
def State.fwaits (s : State) : List (Wide × (State → State)) :=
  (if s.chip.hush = 1 ∧ !s.chip.hushAny then [(s.chip.hushAt + s.fwait, State.chip' fun c => { c with hushAny := true })] else [])
    ++ (if (s.chip.dvfs = 3 ∨ s.chip.dvfs = 4) ∧ !s.chip.dvfsAny
        ∧ (s.boundary (s.get Fd.CHIP_DVFS_CTL_ENG) s.chip.dvfsAt false).isNone then
      let t := s.chip.dvfsAt + s.fwait
      [(t, State.chip' fun c => { c with dvfsAny := true, dvfsAt := t })] else [])
    ++ (if s.mgmt.hand = 1 ∧ !s.mgmt.handAny ∧ (s.boundary s.mgmt.handEng s.mgmt.handAt false).isNone then
      let t := s.mgmt.handAt + s.fwait
      [(t, State.mgmt' fun m => { m with handAny := true, handAt := t })] else [])

/-- No frame start has come within FWAIT: any LINE serves. DEDUCED (log 78). -/
def execFwaitExpire (s : State) : Res :=
  match s.fwaits.find? fun x => s.fwaits.all fun y => !before y.1 x.1 with
  | some (t, f) => if s.clockOk t then ok (f (s.clockReach t)) else ok s
  | none => ok s

/-! ## Power states (R440 to R444) -/

/-- The reason to refuse a request for a state (R440), 0 for none; the lowest code when several hold. DEDUCED (log 78). -/
def State.pwrRefusal (target : Nat) (s : State) : Nat :=
  if target = 2 ∧ (s.safeSt = stTESTING ∨ s.safeSt = stARMED) then 1
  else if s.commitWaiting || s.commitFixed then 2
  else if s.get Fd.CHIP_RESTARTING_MASK ≠ 0 then 3
  else if s.is Fd.CHIP_DVFS_STAT_BUSY then 4
  else if s.mgmt.hand ≠ 0 then 5
  else if s.is Fd.CHIP_PWR_STAT_BUSY then 6
  else if target = s.get Fd.CHIP_PWR_STAT_STATE then 7
  else 0

/-- Exit from HUSH: the lane islands restart, and every held port with EN enters LANES, its downstream lanes with the enable preamble (R189,
R441, R442). -/
def State.leaveHush (s : State) : State :=
  ((s.chip' fun c => { c with hush := 5 }).onlyIf s.chip.railLane State.releaseLanes).showIslands

/-- CHIP_PWR_CTL.GO: a state is requested (R440); 3 is a reserved encoding. -/
def execPwrGo (who : Actor) (s : State) : Res :=
  s.writeBy who Fd.CHIP_PWR_CTL_GO.off fun s =>
  let target := s.get Fd.CHIP_PWR_CTL_TARGET
  let s0 := s.set Fd.CHIP_PWR_CTL_GO 0
  if target = 3 then ok (s0.accRecord RSVD_ENC Fd.CHIP_PWR_CTL_GO.off)
  else
    let why := s.pwrRefusal target
    let s1 := s0.set Fd.CHIP_PWR_STAT_REFUSE why
    if why ≠ 0 then ok (s1.err { level := 0, region := 0, block := 2, code := 0x0085, action := 7, detail := why })
    else
      let s2 := (s1.set Fd.CHIP_PWR_STAT_BUSY 1).chip' fun c => { c with pwrTarget := target }
      if target = 0 then ok s2.leaveHush
      else if s.get Fd.CHIP_PWR_STAT_STATE = 1 then ok s2
      else ok (s2.chip' fun c => { c with hush := 1, hushAt := s.tick, hushAny := false, hushMask := 0 })

/-- The last admitted line has ended, and its read-outs, digests and units are complete (R441 step 2). -/
def State.drained (s : State) : Bool :=
  s.scan.lines.all LineRec.ended && s.hst.reads.isEmpty && s.outp.units.isEmpty && s.scan.shotQ.isEmpty

/-- Every easel has halted and the last line is complete: SLEEP goes to every port in RUN. -/
def execHushSleepSend (s : State) : Res :=
  if s.chip.hush = 1 ∧ easelList.all (fun e => s.isHalted e) ∧ s.drained then
    let s1 := s.each (List.range 32) fun t s =>
      if s.portRun t then (s.sendTile t 0x87 0xF []).port' t fun p => { p with allow := 0xF } else s
    ok (s1.chip' fun c => { c with hush := 3, sleepAt := s.tick })
  else ok s

/-- A downstream transmitter that is enabled and awake. -/
def State.txAwake (l : Nat) (s : State) : Bool := s.is (Fd.LNK_LANE_CTL_TX_EN l) && !s.is (Fd.LNK_LANE_STAT_TX_IDLE l)

/-- The downstream lanes of a tile go to sleep, the clock lane last. -/
def State.sleepTile (t : Nat) (s : State) : State :=
  let clock := s.clockLane t
  let lanes := (tileLanes t).filter fun l => s.txAwake l
  (s.each (lanes.filter fun l => some l != clock) State.txSleep).each (lanes.filter fun l => some l == clock) State.txSleep

/-- Every upstream lane is in electrical idle, or 1 ms has passed: the downstream lanes sleep and HUSH is reached (R441 steps 3
and 4). -/
def execHushLanesIdle (s : State) : Res :=
  if s.chip.hush ≠ 3 then ok s
  else
    let quiet := (List.range 32).all fun t => s.tileQuiet t
    let t := s.chip.sleepAt + BitVec.ofNat 64 ticksPerMs
    if !quiet && !s.clockOk t then ok s
    else
      let s1 := if quiet then s else s.clockReach t
      let s2 := (s1.each (List.range 32) State.sleepTile).each (List.range 32) State.portOff
      let s3 := (s2.set Fd.CHIP_PWR_STAT_STATE 1 |>.count 0 Src.CHIP_HUSH_ENTRIES 0 1).chip' fun c => { c with hush := 4 }
      ok (s3.onlyIf (s.chip.pwrTarget != 2) (State.set Fd.CHIP_PWR_STAT_BUSY 0)).showIslands

/-- An easel that HUSH halted runs at PC 0 of its active bank, T0 2 µs ahead. -/
def State.resumeEasel (e : Nat) (s : State) : State :=
  if s.chip.hushMask.testBit e && s.isHalted e then ((s.setPc e 0).setT e 0 (s.tick + 256000)).run e else s

/-- Every port has reached RUN or FAILED (R442 step 3). -/
def execHushResume (s : State) : Res :=
  let up := (List.range 32).all fun t =>
    !s.is (Fd.LNK_TILE_CTL_EN t) || s.portState t == ptRUN || s.portState t == ptFAILED
  if s.chip.hush = 5 ∧ up then
    let s1 := s.each easelList State.resumeEasel
    ok ((s1.set Fd.CHIP_PWR_STAT_STATE 0 |>.set Fd.CHIP_PWR_STAT_BUSY 0).chip' fun c => { c with hush := 0, hushMask := 0 })
  else ok s

/-! ## DOZE (R443, R444) -/

/-- Every ring closes its buffer as for DISABLE (R304, R443 step 1). -/
def State.closeRings (s : State) : State :=
  s.drainAll.each (List.range 14) fun r s => if s.ringState r = rRUN then s.closeBuffer r stDISABLE else s

/-- HUSH has been reached on the way to DOZE: the device drains, saves, clears its keys and turns the core off. DEDUCED (log 78). -/
def execDozeEnter (s : State) : Res :=
  if s.chip.hush = 4 ∧ s.chip.pwrTarget = 2 ∧ s.is Fd.CHIP_PWR_STAT_BUSY ∧ s.drained then
    let s1 := (s.closeRings.endSession.clearKeys.coreOff).safe' fun x => { x with suspended := true }
    let s2 := (s1.stagesFrom 4).set Fd.TBAS_TB_STAT_PLL_LOCK 0 |>.set Fd.CHIP_OSC_STAT_MON_ARMED 0
      |>.set Fd.CHIP_OSC_STAT_ROSC_OK 0 |>.set Fd.CHIP_PWR_STAT_BUSY 0 |>.bump Fd.CHIP_PWR_STAT_DOZES 1
      |>.count 0 Src.CHIP_DOZE_ENTRIES 0 1
    let s3 := (s2.chip' fun c => { c with doze := true, coarse := true }).mgmt' fun m => { m with resume := true }
    ok ((s3.each [Rail.lane, .pcie, .mem, .core] fun r s => s.emit (.railOff r)).emit (.pmicEn false)).showIslands
  else ok s

/-- DOZE is left: stages 4 to 10 run again, and XO is judged at once (R444). -/
def State.wake (cause : Nat) (s : State) : State :=
  let s1 := (s.set Fd.CHIP_PWR_STAT_WAKE cause |>.set Fd.CHIP_PWR_STAT_STATE 0 |>.set Fd.CHIP_OSC_STAT_XO_OK 0).chip' fun c =>
    { c with doze := false }
  ((s1.emit' fun x => { x with diagFrom := s.tick.toNat }).emit (.pmicEn true)).showIslands

/-- DOZE_WAKE_N has been low for 10 µs. -/
def execDozeWake (s : State) : Res :=
  if s.chip.doze && s.is Fd.CHIP_PWR_CTL_WAKE_PIN_EN then ok (s.wake 2) else ok s

/-- PERST_N rises (R316, R444): the link may train, and any DOZE is left. -/
def execPerstDeassert (s : State) : Res :=
  let s1 := perstDeassertHost s
  if s.chip.doze then ok (s1.wake 1) else ok s1.showIslands

/-! ## From VSYS to the time base (R445 to R448) -/

/-- OTP and eMRAM, as the registers show them. -/
def State.showOtp (s : State) : State :=
  (s.set Fd.SECU_LC_STATE s.storedLifecycle |>.setBit Fd.SECU_LC_ZEROISED s.secu.zeroised
    |>.setBit Fd.SECU_LC_OWNER_SET (s.secu.owner.isSome || s.is Fd.SECU_LC_OWNER_SET)
    |>.set Fd.SECU_BOOT_SVN_FUSE s.secu.svn).showHss

/-- A full log's oldest row has not been acknowledged (R453). -/
def State.logFullUnread (s : State) : Bool :=
  match s.mgmt.log.drop 4095 with
  | [] => false
  | e :: _ => decide (0 < (BitVec.ofNat 32 e.rseq - s.reg Fd.MGMT_LOG_ACK_RSEQ.off).toInt)

/-- A row of the log that the power failure tears: it is skipped on reading, and counts once in LOST (R452), as does the unread row in its place
(R453). -/
def State.tearRow (s : State) : State :=
  if s.io.fifo.isEmpty then s
  else (s.bumpSat Fd.MGMT_LOG_LOST_COUNT (if s.logFullUnread then 2 else 1)).mgmt' fun m => { m with log := m.log.take 4095 }

/-- VSYS falls below its reset threshold (R445): everything returns to its reset but OTP and eMRAM, every output goes to its reset level and the
switches open; `torn`: the log writer was storing a row (R452). DEDUCED (log 79). -/
def execVsysFall (torn : Bool) (s0 : State) : Res :=
  let s := if torn then s0.tearRow else s0
  let regs := s.io.regs.filter fun e =>
    e.1 == Fd.MGMT_LOG_HEAD_RSEQ.off || e.1 == Fd.MGMT_LOG_LOST_COUNT.off || e.1 == Fd.SECU_LC_STATE.off
  let off : State :=
    { io := { regs := regs, free := s.io.free, out := s.io.out }
      tbas := { slotA := s.tbas.slotA, slotB := s.tbas.slotB, oven := s.tbas.oven }
      safe := { image := s.safe.image, verified := s.safe.verified, verStored := s.safe.verStored }
      mgmt := { s.mgmt.kept with merging := [], logAt := none, healthEnd := none, calStored := none }
      secu := { s.secu.kept with sigAt := none, meas := [], cfgTick := 0 }
      pending := s.pending }
  ok ((((off.showOtp.emit (.pmicEn false)).emit (.switches false false)).emit (.faultN true)).emit .outputsReset)

/-- VSYS has been above 1.62 V for 1 ms: stages 1 and 2 (R446, R448). -/
def execPowerOn (s : State) : Res :=
  if s.stageIs 1 then ok s
  else ok ((((s.stageDone 1).stageDone 2).driveFault true).passUs 1000).showIslands

/-- The always-on part of the boot ROM: the oven record is loaded, PMIC_EN asserted; stage 3 (R58, R446, R448). -/
def execBootAlwaysOn (s : State) : Res :=
  if !s.stageIs 2 || s.stageIs 3 then ok s
  else
    let o := s.tbas.oven
    let s1 := if o.valid then
      s.set Fd.TBAS_OVN_SET_SETPT o.setpt |>.set Fd.TBAS_OVN_BAND_BAND o.band |>.set Fd.TBAS_OVN_GAIN_KP o.kp
        |>.set Fd.TBAS_OVN_GAIN_KI o.ki |>.set Fd.TBAS_OVN_CTL_IEXC o.iexc
      else s
    ok ((s1.emit (.pmicEn true)).stageDone 3)

/-- The PMIC reports a rail good: the core rail completes stage 4 and starts ROSC; each that follows it releases its interfaces (R446, R447). DEDUCED (log 79). -/
def execPmicPg (rail : Rail) (s : State) : Res :=
  if !s.stageIs 3 || s.chip.doze then ok s
  else if rail = .core then
    if s.stageIs 4 then ok s else ok ((s.stageDone 4).chip' fun c => { c with roscPass := 0, xoPass := 0, roscOff := false }).showIslands
  else if s.stageIs 4 then ok (s.railUp rail).showIslands
  else ok s

end Sys2Proof.Machine
end

