-- ==== Sys2Proof/Machine/Security.lean ====
section
/-!
DEFINITION. The security services (R391, R401 to R426): safety profiles, lifecycle, tokens, certificates, attestation, SPDM,
JTAG.
-/
namespace Sys2Proof.Machine

/-- Perform a management command whose request has the length its opcode asks for (R53, R54). -/
def State.command (op : Nat) (fits : Nat → Bool) (f : State → State) (s : State) : Res :=
  if s.serves op then ok (if fits s.mbxLength then f s else s.answer stBAD_LENGTH []) else ok s

/-- A command without a payload. -/
def noPayload (n : Nat) : Bool := n == 0

/-- A piece of an image arrives (R52): the bytes that the pieces of the command's tag have brought with it. DEDUCED (log 89). -/
def State.loadPiece (op : Nat) (s : State) : Nat × State :=
  let had := match s.mgmt.load with
    | some p => if p.opcode = op ∧ p.tag = s.mbxTag then p.bytes else 0
    | none => 0
  let n := had + s.mbxLength
  (n, s.mgmt' fun m => { m with load := if s.mbxContinued then some ⟨op, s.mbxTag, n⟩ else none })

/-- The status of a piece: `fits` says that the bytes so far are a whole image; `stored`, that the eMRAM write verified (R54). DEDUCED (log 89). -/
def State.pieceStatus (stored fits : Bool) (s : State) : Nat :=
  if !stored then stSTORAGE_FAIL else if s.mbxContinued || fits then stOK else stBAD_LENGTH

/-! ## Safety profiles (R390, R391) -/

/-- The registers a profile carries: the ledger's windows, limits, stray and diagnosis charges, and SAFE's values. -/
def profileLocs : List Nat :=
  [0, 1, 2].map (fun w => (winBsh w).off) ++ [Fd.SCAN_LEDG_STRAY_CU.off]
    ++ ([0, 1, 2].flatMap fun w => (List.range 64).map fun g => (Fd.SCAN_LEDG_LIM_LIM w g).off)
    ++ (List.range 16).map (fun m => (Fd.SCAN_LEDG_EDIAG_CU m).off)
    ++ [Fd.SAFE_PROF_T_TMSG.off] ++ (List.range 5).map (fun k => (Fd.SAFE_PROF_SRC_SRC k).off)
    ++ ([0, 1, 2, 3].flatMap fun n => (List.range 8).flatMap fun z =>
      [(Fd.SAFE_ZONE_SMASK n z).off, (Fd.SAFE_ZONE_D_DLO n z).off, (Fd.SAFE_ZONE_R_RMAX n z).off, (Fd.SAFE_ZONE_N_NHIT n z).off])

/-- PROFILE_LOAD: pieces go into eMRAM; with the last the signatures are verified. DEDUCED (log 70, 89). -/
def execProfileLoad (img : Image) (stored : Bool) (s : State) : Res :=
  s.command 0x0601 (fun _ => true) (fun s =>
    let (n, s1) := s.loadPiece 0x0601
    let st := s.pieceStatus stored (n == (imageBytes img).length)
    if st ≠ stOK || s.mbxContinued then (s1.safe' fun x => { x with verified := false }).answer st []
    else
      let good := s.imageGood 2 img
      (s1.safe' fun x => { x with image := some img, verified := good }).answer (if good then stOK else stSIGNATURE_FAIL) [])

/-- SAFE's own among them, of which channel B receives a copy. -/
def safeLocs : List Nat := profileLocs.filter fun a => a / 0x200000 == 18

/-- The CAN values of a profile. -/
def canOf (body : List Byte) : CanProf :=
  { nominal := Config.profileCan body 0, fd := Config.profileCan body 1, xl := Config.profileCan body 2, rxId := Config.profileCan body 3
    txId := Config.profileCan body 4, sdt := Config.profileCan body 5, af := Config.profileCan body 6 }

/-- The CAN values are within R387: 125 kbit/s to 1 Mbit/s, FD up to 8 Mbit/s, XL up to 20 Mbit/s, identifiers of 11 bits. -/
def CanProf.fits (c : CanProf) : Bool :=
  decide (125 ≤ c.nominal ∧ c.nominal ≤ 1000 ∧ c.fd ≤ 8000 ∧ c.xl ≤ 20000 ∧ c.rxId < 2048 ∧ c.txId < 2048 ∧ c.sdt < 256 ∧ c.af < 2 ^ 32)

/-- Channel B checks its own copy against OTP (R390): T_MSG and WDOG. -/
def ownFits (m : SMap Word) : Bool :=
  let w := rd (fun _ => 0) m Fd.SAFE_PROF_T_TMSG.off
  decide (bitsOf w Fd.SAFE_PROF_T_TMSG.hi Fd.SAFE_PROF_T_TMSG.lo ≤ Config.otpTmsgMax
    ∧ bitsOf w Fd.SAFE_PROF_T_WDOG.hi Fd.SAFE_PROF_T_WDOG.lo ≤ Config.otpWdogMax)

/-- Every value of a profile is staged, channel B's own copy of SAFE's values and the CAN values beside the registers. DESIGN CHOICE (log 69). -/
def State.stageProfile (i : Image) (s : State) : State :=
  ((s.each profileLocs fun a s => s.stage a (Config.profileWord i.body a)).scan' fun c => { c with profileStaged := true }).safe' fun x =>
    { x with ownNext := safeLocs.map fun a => (a, Config.profileWord i.body a), canNext := canOf i.body }

/-- The staged profile is proved; its version is stored, and it is committed at a tick (instant 3); once staged
it is past the step that cannot be aborted. DEDUCED (log 70, 89). -/
def State.activate (i : Image) (tick : Wide) (stored : Bool) (s : State) : State :=
  let s1 := (s.stageProfile i).startProof.finishProof
  if s1.get Fd.CHIP_PROOF_STATUS_STATE ≠ 2 || !ownFits s1.safe.ownNext || !s1.safe.canNext.fits || (s1.refusal 3 tick).1 ≠ 0 then s1.answerAs true stBAD_PARAM []
  else if !stored then s1.answerAs true stSTORAGE_FAIL []
  else
    let s2 := s1.safe' fun x =>
      { x with verStored := i.svn.toNat, activating := some (i.svn.toNat, Config.sha384 (imageBytes i)) }
    (s2.requestCommit 0 3 0 tick).answerAs true stOK []

/-- PROFILE_ACTIVATE. -/
def execProfileActivate (tick : Wide) (stored : Bool) (s : State) : Res :=
  s.command 0x0602 (· == 8) (fun s =>
    if s.get Fd.CHIP_SKETCH_GEN_GEN ≠ s.get Fd.CHIP_COMMIT_GEN_GEN then s.answer stBUSY []
    else
      match s.safe.image with
      | none => s.answer stBAD_PARAM []
      | some i =>
        if !s.safe.verified || decide (i.svn.toNat < s.safe.verStored) then s.answer stBAD_PARAM [] else s.activate i tick stored)

/-- PROFILE_INFO: VER, the image hash, the SAFE state. DEDUCED (log 25, 70). -/
def execProfileInfo (s : State) : Res :=
  s.command 0x0603 noPayload (fun s =>
    s.answer stOK (leBytes 4 (s.get Fd.SAFE_PROF_VER_VER) ++ hashBytes (s.measurement 4) ++ leBytes 1 s.safeSt))

/-- PROFILE_CEIL: the bounds in OTP. DEDUCED (log 25). -/
def execProfileCeil (s : State) : Res :=
  s.command 0x0604 noPayload (fun s =>
    s.answer stOK ([0, 1, 2].flatMap (fun w => leBytes 1 (Config.otpBshMin w)) ++ [0, 1, 2].flatMap (fun w => leBytes 4 (Config.otpLimMax w))
      ++ leBytes 2 Config.otpStrayMax ++ (List.range 16).flatMap (fun m => leBytes 2 (Config.otpEdiagMin m))
      ++ leBytes 2 Config.otpTmsgMax ++ leBytes 1 Config.otpWdogMax))

/-! ## HSS trees (R403) -/

/-- The next bottom tree is ready; it comes into use at once when the old one is used up. -/
def execHssTreeReady (s : State) : Res :=
  if !s.secu.regen then ok s
  else
    let s1 := (s.secu' fun u => { u with regen := false, treeReady := true }).showHss
    ok (if s.hssReady then s1 else s1.useTree).issueDue

/-! ## Lifecycle (R413, R423) -/

/-- LC_INFO: lifecycle, fuse count, UEID, debug level, signer, time left, HSS BOTTOM and Q. DEDUCED (log 25). -/
def execLcInfo (s : State) : Res :=
  s.command 0x0101 noPayload (fun s =>
    let h := s.hss.getD { valid := false }
    let left := match s.secu.sessionEnd with
      | some t => s.secondsTo t
      | none => 0
    s.answer stOK (leBytes 1 s.lifecycle ++ leBytes 2 s.secu.svn ++ ueidBytes ++ leBytes 1 (s.get Fd.SECU_DBG_LEVEL)
      ++ leBytes 1 (s.get Fd.SECU_DBG_SIGNER) ++ leBytes 2 left ++ leBytes 4 h.bottom ++ leBytes 4 h.q))

/-- Who may sign a lifecycle token for a transition: vendor, owner; none where R413 has no such transition by token. -/
def lcSigners (src dst : Nat) : List Nat :=
  if dst = 5 then (if src = 0 ∨ src = 1 ∨ src = 4 then [0] else if src = 2 ∨ src = 3 then [0, 1] else [])
  else if dst = 4 then (if src = 2 ∨ src = 3 then [0] else [])
  else if dst = 3 then (if src = 2 then [1] else [])
  else []

/-- The transition takes place: the fuse is blown first and takes effect at the next device reset, FIELD_DEBUG and zeroisation
at once (R413, R414). -/
def State.advance (dst : Nat) (s : State) : State :=
  let s1 := s.endSession
  let s2 :=
    if dst = 3 then (s1.secu' fun u => { u with flagA := true, flagB := true }).set Fd.SECU_LC_STATE 3
    else if s.lifecycle = 3 ∧ dst = 2 then (s1.secu' fun u => { u with flagA := false, flagB := false }).set Fd.SECU_LC_STATE 2
    else s1.secu' fun u => { u with lcFuse := max u.lcFuse dst }
  (if dst = 4 ∨ dst = 5 then s2.zeroise else s2).measureOtp

/-- A permitted transition: the eMRAM flag of FIELD_DEBUG must verify (R54); any other blows a fuse, past which nothing is aborted
(R55, R423).  The status, whether that step is reached, and the state. -/
def State.transit (dst : Nat) (stored : Bool) (s : State) : Nat × Bool × State :=
  let flag := dst == 3 || (s.lifecycle == 3 && dst == 2)
  if flag && !stored then (stSTORAGE_FAIL, false, s) else (stOK, !flag, s.advance dst)

/-- The transitions that need no token (R413). DEDUCED (log 74). -/
def State.freeTransit (dst : Nat) (s : State) : Bool :=
  (s.lifecycle == 0 && dst == 1 && !s.secu.udsGone) || (s.lifecycle == 1 && dst == 2 && s.is Fd.SECU_LC_OWNER_SET)
    || (s.lifecycle == 3 && dst == 2)

/-- LC_ADVANCE to a target, with or without a token (R413, R416). DEDUCED (log 74). -/
def State.lcAdvance (target : Byte) (tok : Option Token) (stored : Bool) (s : State) : Nat × Bool × State :=
  let dst := target.toNat
  if s.freeTransit dst then s.transit dst stored
  else
    match tok with
    | none => (if 6 ≤ dst then stBAD_PARAM else stNOT_PERMITTED, false, s)
    | some t =>
      let st := s.judgeToken 2 (t.target == target && (lcSigners s.lifecycle dst).contains t.signer.toNat) t
      if st = stOK then s.useNonce.transit dst stored else (st, false, s.rejectToken)

/-- A token presented through the JTAG debug mailbox, while SECU serves it (R416). DESIGN CHOICE (log 106). -/
def State.byJtag (s : State) (st : Nat) (t : State) : Res :=
  if s.chip.railIo && s.fwRuns && !s.mgmt.recovery && !s.restarting 17 && s.lifecycle != 5 then ok (t.emit (.tokenStatus st)) else ok s

/-- LC_ADVANCE, or a lifecycle token through the JTAG debug mailbox (R413, R416, R423). DEDUCED (log 74). -/
def execLcAdvance (target : Byte) (tok : Option Token) (stored jtag : Bool) (s : State) : Res :=
  if jtag then
    let (st, _, t) := s.lcAdvance target tok stored
    s.byJtag st t
  else
    s.command 0x0102 (fun n => n == 1 || n == 3833) (fun s =>
      let (st, past, t) := s.lcAdvance target tok stored
      t.answerAs past st [])

/-- OWNER_KEYS: once, in PROVISIONED. DEDUCED (log 74). -/
def execOwnerKeys (hashes : List (BitVec 384)) (s : State) : Res :=
  s.command 0x0103 (· == 192) (fun s =>
    if s.lifecycle ≠ 1 ∨ s.is Fd.SECU_LC_OWNER_SET then s.answer stNOT_PERMITTED []
    else if hashes.length ≠ 4 then s.answer stBAD_LENGTH []
    else ((s.secu' fun u => { u with owner := some hashes }).set Fd.SECU_LC_OWNER_SET 1).answer stOK [])

/-! ## Debug (R416, R417, R419) -/

/-- DBG_CHALLENGE: a fresh nonce, the only one in force. -/
def execDbgChallenge (s : State) : Res :=
  s.command 0x0104 noPayload (fun s =>
    let closed := match s.secu.busyTill with
      | some t => before s.tick t
      | none => false
    if closed then s.answer stBUSY []
    else
      let n := Config.freeNonce s.io.free
      let s1 := (s.io' fun x => { x with free := x.free + 1 }).secu' fun u => { u with nonce := some (n, s.tick) }
      s1.answer stOK (leBytes 32 n.toNat ++ ueidBytes))

/-- The signer whose token opens a level in a lifecycle state: 0 vendor, 1 owner (R419). -/
def dbgSigner (lc level : Nat) (zeroised : Bool) : Option Nat :=
  if lc = 0 then (if level = 2 then some 0 else none)
  else if lc = 1 then (if level = 1 ∨ level = 2 then some 0 else none)
  else if lc = 2 then (if level = 1 then some 1 else none)
  else if lc = 3 then (if level = 1 ∨ level = 2 then some 1 else none)
  else if lc = 4 then (if level = 1 ∨ level = 2 ∨ (level = 3 ∧ zeroised) then some 0 else none)
  else none

/-- A debug session opens; it replaces the one in force. -/
def State.openSession (t : Token) (s : State) : State :=
  let fin := s.tick + BitVec.ofNat 64 (t.duration.toNat * ticksPerS)
  ((s.set Fd.SECU_DBG_LEVEL t.target.toNat |>.set Fd.SECU_DBG_SIGNER t.signer.toNat
    |>.set Fd.SECU_DBG_LEFT t.duration.toNat).secu' fun u =>
      { u with sessionEnd := some fin, tokHash := Config.sha384 (tokenMessage t) }).count 17 Src.SECU_DBG_SESSIONS 0 1

/-- A debug token is judged, and opens its session or is rejected (R416, R419). -/
def State.unlock (tok : Token) (s : State) : Nat × State :=
  let allowed := dbgSigner s.lifecycle tok.target.toNat (s.is Fd.SECU_LC_ZEROISED) == some tok.signer.toNat
  let st := s.judgeToken 1 allowed tok
  (st, if st = stOK then s.useNonce.openSession tok else s.rejectToken)

/-- DBG_UNLOCK, or a debug token through the JTAG debug mailbox (R416, R423). -/
def execDbgUnlock (tok : Token) (jtag : Bool) (s : State) : Res :=
  if jtag then s.byJtag (s.unlock tok).1 (s.unlock tok).2
  else
    s.command 0x0105 (· == 3832) (fun s =>
      let (st, t) := s.unlock tok
      t.answer st (if st = stOK then [tok.target] else []))

/-- DBG_CLOSE. DEDUCED (log 74). -/
def execDbgClose (s : State) : Res := s.command 0x0106 noPayload (fun s => s.endSession.answer stOK [])

/-- The session reaches its DURATION. -/
def execDbgSessionExpire (s : State) : Res :=
  match s.secu.sessionEnd with
  | some t => if s.clockOk t then ok (s.clockReach t).endSession else ok s
  | none => ok s

/-! ## Certificates, the attestation token, the tag area (R406, R410, R412, R423, R424) -/

/-- CERT_READ: 0 DeviceID, 1 Alias, 2 manufacturing CA, 3 root; with no Alias certificate stored, STORAGE_FAIL. DESIGN CHOICE (log 101). -/
def execCertRead (which : Byte) (s : State) : Res :=
  s.command 0x0107 (· == 1) (fun s =>
    let n := which.toNat
    if 4 ≤ n then s.answer stBAD_PARAM []
    else if n = 1 then
      match s.secu.certCdi with
      | some c => s.answer stOK (Config.aliasCert c)
      | none => s.answer stSTORAGE_FAIL []
    else s.answer stOK (Config.cert n))

/-- The claims of an attestation token (R410). -/
def State.claims (nonce : BitVec 256) (leaf : HssCopy) (s : State) : List Byte :=
  leBytes 32 nonce.toNat ++ ueidBytes ++ leBytes 1 (s.get Fd.SECU_DBG_LEVEL)
    ++ ((List.range 16).flatMap fun k => hashBytes (s.measurement (k + 1)))
    ++ leBytes 1 s.lifecycle ++ leBytes 2 s.secu.svn ++ leBytes 4 s.io.era ++ leBytes 8 s.tick.toNat
    ++ leBytes 8 s.secu.cfgTick.toNat ++ s.tagBytes ++ s.serialBytes ++ leBytes 4 leaf.bottom ++ leBytes 4 leaf.q

/-- Both signatures over a message: ECDSA, and HSS unless its state is lost (R402, R408). -/
def State.signBoth (msg : List Byte) (s : State) : List Byte × List Byte × State :=
  let (h, s1) := if s.hssLost then ([], s) else s.signHss msg
  (Config.ecdsaSign s.secu.cdi msg, h, s1)

/-- EAT_GET: an earlier request waits until a second has passed since the last HSS signature, and for a leaf (R403, R404). -/
def execEatGet (nonce : BitVec 256) (s : State) : Res :=
  s.command 0x0108 (· == 32) (fun s =>
    if !s.secu.keys then s.answer stNOT_PERMITTED []
    else if !s.hssLost && (!s.hssReady || (s.sigTooSoon && !s.clockOk s.sigFrom)) then s
    else
      let s1 := if !s.hssLost && s.sigTooSoon then s.clockReach s.sigFrom else s
      let msg := s1.claims nonce (s1.hss.getD { valid := false })
      let (e, h, s2) := s1.signBoth msg
      s2.answer stOK (Config.coseSign msg e h))

/-- TAG_READ. -/
def execTagRead (off len : BitVec 16) (s : State) : Res :=
  s.command 0x0501 (· == 4) (fun s =>
    if 512 < off.toNat + len.toNat then s.answer stBAD_PARAM []
    else s.answer stOK ((s.tagBytes.drop off.toNat).take len.toNat))

/-- The older copy takes the new area and becomes current (R412). -/
def State.writeTag (off : Nat) (data : List Byte) (s : State) : State :=
  let cur := s.tag
  let new : TagCopy :=
    { data := (data.foldl (fun (x : Nat × SMap Byte) b => (x.1 + 1, wr (fun _ => 0) x.2 x.1 b)) (off, cur.data)).2
      seq := cur.seq + 1 }
  s.secu' fun u => if u.tagA.seq < u.tagB.seq then { u with tagA := new } else { u with tagB := new }

/-- TAG_WRITE: a write that does not verify leaves the area as it was. DEDUCED (log 89). -/
def execTagWrite (off len : BitVec 16) (data : List Byte) (stored : Bool) (s : State) : Res :=
  s.command 0x0502 (fun n => n == 4 + len.toNat && data.length == len.toNat) (fun s =>
    if 512 < off.toNat + len.toNat then s.answer stBAD_PARAM []
    else if !stored then s.answer stSTORAGE_FAIL []
    else (s.writeTag off.toNat data).answerAs true stOK [])

/-! ## SPDM (R407, R408) -/

/-- The Responder answers while the firmware's security services and SECU run (R456). -/
def State.attests (s : State) : Bool := s.fwRuns && !s.mgmt.recovery && !s.restarting 17

/-- The response of an SPDM request, over DOE: the object goes into the read mailbox, and the instance is ready and busy no longer
(R293, R310). PRESUMED (log 92). -/
def State.answerDoe (r : Spdm) (s : State) : State :=
  let w := Config.spdmWords r
  ((((s.emit (.spdm r)).host' fun h => { h with doe := { h.doe with rsp := [0x00010001, BitVec.ofNat 32 (2 + w.length)] ++ w } }).set
    Fd.CFG_DOE_BUSY 0).set Fd.CFG_DOE_READY 1).doeInterrupt

/-- A CMA/SPDM object is in the hand of the DOE instance, and the Responder serves it (R293, R407). -/
def State.spdmServes (s : State) : Bool := s.attests && s.is Fd.CFG_DOE_BUSY

/-- A response over DOE. -/
def State.respond (r : Spdm) (s : State) : Res := if s.spdmServes then ok (s.answerDoe r) else ok s

/-- The chain of slot 0: root, manufacturing CA, DeviceID, Alias (R406). -/
def State.certChain (s : State) : List Byte :=
  Config.cert 3 ++ Config.cert 2 ++ Config.cert 0 ++ Config.aliasCert s.secu.cdi

def execGetVersion (s : State) : Res := s.respond (.version 1 3)
def execGetCapabilities (s : State) : Res := s.respond (.capabilities [.cert, .chal, .measSig, .measFresh])
def execNegotiateAlgorithms (s : State) : Res := s.respond (.algorithms .ecdsaP384 .sha384 .sha384 .dmtf)

/-- A response that needs the device's keys. DEDUCED (log 74). -/
def State.keyed (f : State → State) (s : State) : Res :=
  if s.secu.keys then (if s.spdmServes then ok (f s) else ok s) else s.respond .invalidRequest

def execGetDigests (s : State) : Res := s.keyed (fun s => s.answerDoe (.digests (Config.sha384 s.certChain)))

def execGetCertificate (slot : Byte) (off len : BitVec 16) (s : State) : Res :=
  s.keyed (fun s =>
    let rest := s.certChain.drop off.toNat
    if slot ≠ 0 ∨ (rest.isEmpty ∧ len ≠ 0) then s.answerDoe .invalidRequest
    else s.answerDoe (.certificate (rest.take len.toNat) (rest.length - len.toNat)))

/-- A signature is held for 5 s (R408). -/
def State.holdSig (d : BitVec 384) (block : List Byte) (s : State) : State :=
  s.secu' fun u => { u with held := (d, block, s.tick) :: u.held.filter fun h => decide (ahead h.2.2 s.tick ≤ 5 * ticksPerS) }

/-- A signing request (R404, R408): Busy within a second of the last HSS signature, or while no leaf is left; otherwise both
signatures are made, and the HSS one is held. DESIGN CHOICE (log 75). -/
def State.signed (msg : List Byte) (f : List Byte → Spdm) (s : State) : State :=
  if !s.hssLost && (s.sigTooSoon || !s.hssReady) then (s.answerDoe .busy).count 17 Src.SECU_SPDM_BUSY 0 1
  else
    let (e, h, s1) := s.signBoth msg
    (s1.onlyIf (!s.hssLost) (State.holdSig (Config.sha384 msg) (sigBytes e h))).answerDoe (f e)

/-- The digest of all measurements. -/
def State.summary (s : State) : BitVec 384 :=
  Config.sha384 ((List.range 16).flatMap fun k => hashBytes (s.measurement (k + 1)))

/-- CHALLENGE, answered with both signatures. DESIGN CHOICE (log 75). -/
def execChallenge (nonce : BitVec 256) (s : State) : Res :=
  s.keyed (fun s =>
    let chain := Config.sha384 s.certChain
    s.signed (leBytes 32 nonce.toNat ++ hashBytes chain ++ hashBytes s.summary) (.challengeAuth nonce chain s.summary))

/-- The measurement blocks that an index asks for: one, or all with 0xFF; 0 asks for their number. -/
def State.blocks (index : Nat) (s : State) : List (Nat × BitVec 384) :=
  if index = 0 then []
  else if index = 255 then (List.range 16).map fun k => (k + 1, s.measurement (k + 1))
  else [(index, s.measurement index)]

/-- GET_MEASUREMENTS (R409). DESIGN CHOICE (log 75). -/
def execGetMeasurements (index : Byte) (signed : Bool) (nonce : BitVec 256) (s : State) : Res :=
  let n := index.toNat
  if 17 ≤ n ∧ n ≠ 255 then s.respond .invalidRequest
  else if signed then
    s.keyed (fun s =>
      let l := s.blocks n
      s.signed (leBytes 32 nonce.toNat ++ l.flatMap fun b => leBytes 1 b.1 ++ hashBytes b.2) fun e => .measurements 16 l (some e))
  else s.respond (.measurements 16 (s.blocks n) none)

/-- GET_HSS_SIG: the signature held for a message, for 5 s (R408). -/
def execGetHssSig (digest : BitVec 384) (s : State) : Res :=
  match s.secu.held.find? fun h => h.1 == digest && decide (ahead h.2.2 s.tick ≤ 5 * ticksPerS) with
  | some h => s.respond (.hssSig h.2.1)
  | none => s.respond .invalidRequest

def execUnsupportedSpdmRequest (code : Byte) (s : State) : Res := s.respond (.unsupportedRequest code.toNat)

/-! ## The configuration hash (R411) -/

/-- The offsets that a row's arrays repeat it at. -/
def spread : List (Nat × Nat) → Nat → List Nat
  | [], a => [a]
  | (st, n) :: ds, a => (List.range n).flatMap fun i => spread ds (a + i * st)

/-- Every location with an STG register, ascending. -/
def stgLocs : List Nat :=
  ((List.range 19).flatMap fun r => ((rowsOf r).filter RegRow.staged).flatMap fun x =>
    (spread x.dims x.base).filter fun a => a / 0x200000 == r).mergeSort

/-- After a commit is DONE, SECU hashes the value in force of every STG register, and labels the hash with the varnish tick. -/
def execConfigHash (s : State) : Res :=
  match s.secu.cfgDue with
  | none => ok s
  | some v =>
    ok ((s.setMeasure 13 (Config.sha384 (stgLocs.flatMap fun a => leBytes 4 (s.reg a).toNat))).secu' fun u =>
      { u with cfgDue := none, cfgTick := v })

/-! ## JTAG (R418) -/

/-- An instruction is executed, or refused: BYPASS, IDCODE, SAMPLE/PRELOAD and EXTEST outside SCRAPPED, EXTEST not while SAFE
is ARMED; any other at the debug level of its function. -/
def State.jtagOpen (k : Nat) (s : State) : Bool :=
  if s.lifecycle = 5 then false
  else if k < 3 then true
  else if k = 3 then !s.armed
  else s.opensD (min 3 (k - 3))

/-- DESIGN CHOICE (log 76). -/
def execJtagInstruction (code : BitVec 8) (s : State) : Res :=
  s.whenOn fun s =>
  if !s.chip.railIo then ok s
  else
    let k := Config.jtagKind code
    let open_ := s.jtagOpen k
    ok (((s.setTck true).emit (.jtag code.toNat open_)).onlyIf (open_ && (k == 2 || k == 3))
      (State.emit (.boundary (k == 3) (s.is Fd.SAFE_STAT_HS_EN) (s.is Fd.SAFE_STAT_LS_EN))))

end Sys2Proof.Machine
end

