-- ==== Sys2Proof/Machine/Maint.lean ====
section
/-!
DEFINITION. Calibration and background work (R462 to R467), boot (R398 to R400, R420), firmware update and handover (R458 to
R461), the start of the time base (R446 stage 6).
-/
namespace Sys2Proof.Machine

/-! ## Calibration (R462 to R465) -/

/-- The values of a kind. -/
def calFields (k : Nat) : List Field :=
  if k = 0 then (List.range 16).map Fd.EMIT_FDLY_FDLY
  else if k = 1 then (List.range 32).map Fd.LNK_TILE_ASYM_ASYM
  else if k = 2 then (List.range 16).map Fd.TBAS_TIU_MDLY_MDLY
  else if k = 3 then (List.range 16).map Fd.MONI_IN_CTL_THR
  else (List.range 1024).map Fd.HST_CHAN_DLY

/-- The largest change per application, in units of the field. -/
def calStep (k : Nat) : Nat := if k = 0 then 1 else if k = 1 then 4 else if k = 2 ∨ k = 3 then 2 else 8
/-- Phase offsets and channel delays are signed. -/
def calSigned (k : Nat) : Bool := k == 1 || k == 4

/-- A value moved by at most the step, within its field. DESIGN CHOICE (log 73). -/
def calMove (k : Nat) (f : Field) (old free : Nat) : Nat :=
  let w := f.hi - f.lo + 1
  let d : Int := (free % (2 * calStep k + 1) : Nat) - (calStep k : Int)
  if calSigned k then unsigned w (clampS w (signed w old + d)) else (max 0 (min ((old : Int) + d) (2 ^ w - 1))).toNat

/-- Stage the correction of one value: what the firmware finds is free within the step. DESIGN CHOICE (log 73). -/
def State.calStage (k : Nat) (f : Field) (s : State) : State :=
  let (w, s1) := s.drawWord
  let v := calMove k f (s.get f) w.toNat
  if v = s.get f then s1 else s1.stage f.off (putBits (s.sketchWord f.off) f.hi f.lo v)

def calPending (k : Nat) : Field := Fd.MGMT_BG_STAT_PENDING.bit k
def calReq (k : Nat) : Field := Fd.MGMT_BG_STAT_REQ.bit k

/-- Kind k waits for its application (R467). DESIGN CHOICE (log 73). -/
def State.calWaits (k : Nat) (s : State) : State :=
  if s.is (calPending k) then s else (s.set (calPending k) 1).mgmt' fun m => { m with calPendAt := ins m.calPendAt k s.tick }

/-- No STG write has been accepted since the last acceptance (R463). -/
def State.sketchClean (s : State) : Bool := s.get Fd.CHIP_SKETCH_GEN_GEN == s.get Fd.CHIP_COMMIT_GEN_GEN

/-- The sketch of every calibration register goes back to the value in force. -/
def State.calBack (k : Nat) (s : State) : State :=
  s.each (calFields k) fun f s => if s.sketchWord f.off = s.reg f.off then s else s.stage f.off (s.reg f.off)

/-- One application of kind k: staged, proved and committed at the next line (instant 1); a refused commit is taken back and
retried after the next accepted one (R463). DESIGN CHOICE (log 73). -/
def State.calApply (k : Nat) (temp : Nat) (s : State) : State :=
  let s1 := ((s.each (calFields k) (State.calStage k)).startProof).finishProof
  let s2 := s1.requestCommit 0 1 (s.get Fd.CHIP_COMMIT_ENG) 0
  if s2.commitWaiting || s2.commitFixed then
    (((s2.set (calPending k) 0 |>.set (calReq k) 0).mgmt' fun m =>
      { m with calAt := ins m.calAt k s.tick, calTemp := ins m.calTemp k temp, calPendAt := del m.calPendAt k
               calWait := none, calTold := false }).count
        16 Src.MGMT_CAL_APPLIED 0 1).err { level := 0, region := 16, block := 1, code := 0x1084, action := 1 }
  else (s2.calBack k).mgmt' fun m => { m with calRetry := true }

/-- Kind k falls due: by temperature, by time, or because it is still pending (R462). -/
def State.calFalls (k temp : Nat) (s : State) : Bool :=
  s.is (calPending k) ||
    match look s.mgmt.calAt k, look s.mgmt.calTemp k with
    | some t, some u =>
      decide (u + s.mgmt.calDt < temp ∨ temp + s.mgmt.calDt < u ∨ ((s.mgmt.calMax * ticksPerS : Nat) : Int) ≤ ahead t s.tick)
    | _, _ => true

/-- CAL_DUE: an application begins, or waits while the sketch is changed or a commit is in progress. -/
def execCalDue (k : Fin 5) (temp : BitVec 12) (s : State) : Res :=
  if !s.attests || !s.calFalls k temp.toNat then ok s
  else
    let s1 := s.calWaits k
    if !s.tbas.running || s.commitWaiting || s.commitFixed || s.mgmt.calRetry then ok s1
    else if s.sketchClean then ok (s1.calApply k temp.toNat)
    else ok (s1.mgmt' fun m => { m with calWait := some (m.calWait.getD s.tick) })

/-- Calibration has waited 10 s on a changed sketch: a warning, once per wait. -/
def execCalDeferred (s : State) : Res :=
  match s.mgmt.calWait with
  | none => ok s
  | some t =>
    let due := t + BitVec.ofNat 64 (10 * ticksPerS)
    if s.mgmt.calTold || s.sketchClean || !s.timely due then ok s
    else
      let s1 := (s.reach due).set Fd.MGMT_BG_STAT_CAL_DEFERRED 1 |>.count 16 Src.MGMT_CAL_DEFERRED 0 1
      ok ((s1.mgmt' fun m => { m with calTold := true }).err
        { level := 0, region := 16, block := 1, code := 0x1086, warning := true })

/-- The valid slot with the higher SEQ (R464). -/
def State.calSlot (s : State) : CalSlot :=
  if s.mgmt.calA.valid && (!s.mgmt.calB.valid || decide (s.mgmt.calB.seq ≤ s.mgmt.calA.seq)) then s.mgmt.calA else s.mgmt.calB

def calAll : List Field := [0, 1, 2, 3, 4].flatMap calFields

/-- CAL_STORE: the older slot is written, no more often than once per 10 s; a write that does not verify leaves it without a valid CRC
(R464). DEDUCED (log 89). -/
def execCalStore (stored : Bool) (s : State) : Res :=
  let early := match s.mgmt.calStored with
    | some t => decide (ahead t s.tick < 10 * ticksPerS)
    | none => false
  if !s.attests || early then ok s
  else
    let c := s.calSlot
    let n : CalSlot :=
      { valid := stored, seq := c.seq + 1, temps := s.mgmt.calTemp
        values := calAll.foldl (fun m f => wr resetWord m f.off (s.reg f.off)) []
        delays := s.mgmt.calDelays, coeffs := s.mgmt.calCoeffs, kedge := s.mgmt.calKedge }
    ok (s.mgmt' fun m =>
      let m1 := { m with calStored := some s.tick }
      if m.calA.valid && (!m.calB.valid || decide (m.calB.seq ≤ m.calA.seq)) then { m1 with calB := n } else { m1 with calA := n })

/-- The values of the slot in force are staged and committed before the first scan profile; with no valid slot every kind is
due at once (R464). DESIGN CHOICE (log 73). -/
def State.calRestore (s : State) : State :=
  let c := s.calSlot
  if !c.valid then
    (s.each [0, 1, 2, 3, 4] State.calWaits).err { level := 1, region := 16, block := 1, code := 0x1085 }
  else
    let s1 := s.mgmt' fun m => { m with calTemp := c.temps, calAt := c.temps.map (fun e => (e.1, s.tick))
                                        calDelays := c.delays, calCoeffs := c.coeffs, calKedge := c.kedge }
    if s.sketchClean && !s.commitWaiting && !s.commitFixed then
      let s2 := ((s1.each c.values fun e s => s.stage e.1 (merge (stagedMask e.1) (s.sketchWord e.1) e.2)).startProof).finishProof
      s2.requestCommit 0 0 0 0
    else s1

/-- CAL_INFO: by kind the tick and temperature of the last run and whether it is pending; SEQ of the slot. DEDUCED (log 25). -/
def execCalInfo (s : State) : Res :=
  s.command 0x0301 noPayload fun s =>
    s.answer stOK ([0, 1, 2, 3, 4].flatMap (fun k =>
      leBytes 8 (rd (fun _ => (0 : Wide)) s.mgmt.calAt k).toNat ++ leBytes 2 (rd (fun _ => 0) s.mgmt.calTemp k)
        ++ leBytes 1 (s.get (calPending k))) ++ leBytes 4 s.calSlot.seq)

/-- CAL_RUN: the kinds are due. -/
def execCalRun (mask : Byte) (s : State) : Res :=
  s.command 0x0302 (· == 1) fun s =>
    if 32 ≤ mask.toNat then s.answer stBAD_PARAM []
    else (s.each ([0, 1, 2, 3, 4].filter fun k => mask.toNat.testBit k) State.calWaits).answer stOK []

/-- CAL_CONFIG: CAL_DT and CAL_MAXINT. -/
def execCalConfig (dt maxint : BitVec 16) (s : State) : Res :=
  s.command 0x0303 (· == 4) fun s =>
    if 8 ≤ dt.toNat ∧ dt.toNat ≤ 320 ∧ 10 ≤ maxint.toNat ∧ maxint.toNat ≤ 3600 then
      (s.mgmt' fun m => { m with calDt := dt.toNat, calMax := maxint.toNat }).answer stOK []
    else s.answer stBAD_PARAM []

/-- CAL_READ: the slot in force; with no valid slot STORAGE_FAIL. DEDUCED (log 25). DESIGN CHOICE (log 101). -/
def execCalRead (s : State) : Res :=
  s.command 0x0304 noPayload fun s =>
    let c := s.calSlot
    if !c.valid then s.answer stSTORAGE_FAIL []
    else s.answer stOK (leBytes 4 c.seq ++ ([0, 1, 2, 3, 4].flatMap fun k => leBytes 2 (rd (fun _ => 0) c.temps k))
      ++ (calAll.flatMap fun f => leBytes 4 (rd resetWord c.values f.off).toNat)
      ++ ((c.delays ++ c.coeffs).flatMap fun d => leBytes 4 d.toNat) ++ c.kedge.flatMap fun d => leBytes 2 d.toNat)

/-- CAL_WRITE: the host's channel delays and coefficients, and its KEDGE checks, are stored, and the kind applies them (R465). DEDUCED (log 25). -/
def execCalWrite (delays coeffs : List (BitVec 20)) (kedge : List (BitVec 16)) (stored : Bool) (s : State) : Res :=
  s.command 0x0305 (fun _ => true) fun s =>
    if delays.length ≠ 1024 ∨ coeffs.length ≠ 1024 then s.answer stBAD_LENGTH []
    else if !stored then s.answer stSTORAGE_FAIL []
    else ((s.mgmt' fun m => { m with calDelays := delays, calCoeffs := coeffs, calKedge := kedge }).calWaits 4).answer stOK []

/-- BG_STARVED (R467): what has waited 1 s without service is starved: the scrub gets its share; a calibration kind requests an
idle gap. DESIGN CHOICE (log 73). -/
def execBgStarved (scrub : Bool) (k : Fin 5) (s : State) : Res :=
  let told := if scrub then s.mgmt.scrubShare else s.is (calReq k)
  match if scrub then s.mgmt.scrubWait else look s.mgmt.calPendAt k with
  | none => ok s
  | some t =>
    let due := t + BitVec.ofNat 64 ticksPerS
    if told || s.restarting 16 || !s.clockOk due then ok s
    else
      let s1 := (s.clockReach due).err { level := 0, region := 16, block := 1, code := 0x1087, detail := if scrub then 0 else k }
      ok (if scrub then
          (s1.set Fd.MGMT_BG_STAT_SCRUB_STARVED 1 |>.count 16 Src.MGMT_SCRUB_STARVE 0 1).mgmt' fun m => { m with scrubShare := true }
        else s1.set Fd.MGMT_BG_STAT_CAL_STARVED 1 |>.set (calReq k) 1 |>.count 16 Src.MGMT_CAL_STARVE 0 1)

/-! ## Running an image (R398, R405, R409) -/

/-- The slot is what the firmware runs from: it is measured, the keys are derived, the registers show it. -/
def State.runImage (n : Nat) (trial : Bool) (s : State) : State :=
  let other := (s.slotOf (1 - n)).hash.isSome
  let s1 := s.set Fd.MGMT_FW_STAT_SLOT n |>.set Fd.SECU_BOOT_SLOT n |>.setBit Fd.MGMT_FW_STAT_TRIAL trial
    |>.setBit Fd.SECU_BOOT_TRIAL trial |>.setBit Fd.MGMT_FW_STAT_VERIFIED other
    |>.set Fd.MGMT_FW_STAT_LEFT (if trial then 10 else 0)
  let s2 := match (s.slotOf n).img with
    | some i => (s1.setMeasure 3 (Config.sha384 (imageBytes i))).setSlot n { img := some i, hash := some i.bodyHash }
    | none => s1
  let s3 := ((s2.deriveKeys).safe' fun x => { x with suspended := false, servedAt := s.tick }).mgmt' fun m =>
    { m with booted := true, recovery := false, resume := false
             healthEnd := if trial then some (s.tick + BitVec.ofNat 64 (10 * ticksPerS)) else none }
  s3.onlyIf s3.chanA State.startA

/-- The recovery service runs (R400). -/
def State.enterRecovery (s : State) : State :=
  (s.safe' fun x => { x with suspended := false }).mgmt' fun m => { m with booted := false, recovery := true, resume := false }

/-- The slot holds an image that verifies (R398 step 3). -/
def State.slotVerifies (n : Nat) (s : State) : Bool :=
  match (s.slotOf n).img with
  | some i => s.fwGood i
  | none => false

/-- The candidate failed, and the other slot is tried (R398 step 4). -/
def State.slotFailed (n : Nat) (s : State) : State :=
  (s.set Fd.SECU_BOOT_FALLBACK 1).err { level := 1, region := 17, block := 1, code := 0x1181, action := 3, detail := n }

/-! ## Boot -/

/-- Step 1: a reset has ended the debug session; OTP is read; a pending zeroisation and a pending SVN count are completed (R399, R414, R421). -/
def State.bootOtp (s : State) : State :=
  let s1 := s.endSession.showOtp
  let s2 := if 4 ≤ s.secu.lcFuse && !s.secu.zeroised then s1.zeroise else s1
  ((if s.secu.svn < s.mgmt.bootRec.target then s2.blowSvn s.mgmt.bootRec.target else s2).set Fd.SECU_DBG_LEVEL s2.standing).measureOtp

/-- Steps 2 to 6 of a full boot. DEDUCED (log 72). -/
def State.bootFull (s : State) : State :=
  let r := s.mgmt.bootRec
  let first := if r.trial && r.tried then 1 - r.pref else r.pref
  let run (n : Nat) (s : State) : State :=
    let trial := r.trial && !r.tried && n == r.pref
    (s.onlyIf trial (State.writeBoot fun b => { b with tried := true })).runImage n trial
  if s.slotVerifies first then run first s
  else
    let s1 := s.slotFailed first
    if s.slotVerifies (1 - first) then run (1 - first) s1 else s1.enterRecovery

/-- Steps 3, 5 and 6 on the running slot, with no slot choice (R420, R456). -/
def State.bootRunning (s : State) : State :=
  if s.slotVerifies s.fwSlot then s.runImage s.fwSlot (s.is Fd.MGMT_FW_STAT_TRIAL) else (s.slotFailed s.fwSlot).enterRecovery

/-- The boot ROM runs; in SCRAPPED it halts after step 1 (R419). -/
def execBoot (s : State) : Res :=
  if !s.stageIs 4 || !s.is Fd.CHIP_OSC_STAT_ROSC_OK || s.mgmt.booted || s.mgmt.recovery || s.chip.doze || s.chip.bootFail then ok s
  else
    let s1 := s.bootOtp
    if s1.lifecycle = 5 then ok s1
    else
      let s2 := if s.mgmt.resume then s1.bootRunning else s1.bootFull
      ok (if s2.mgmt.booted && s2.tbas.running then s2.calRestore else s2)

/-- The time-base PLL locks (R69, R433, R446): the era is written and the count starts, or goes on after DOZE; the lane PLLs
follow. -/
def execTbStart (s : State) : Res :=
  if !s.stageIs 5 || s.stageIs 6 || s.tbas.lost || s.chip.bootFail || s.chip.doze then ok s
  else
    let s1 := if s.tbas.running then s else s.startCount
    let s2 := s1.each [0, 1, 2, 3] fun n s => s.set (Fd.LNK_LPLL_STAT_LOCK_A n) 1 |>.set (Fd.LNK_LPLL_STAT_LOCK_B n) 1
    let s3 := (s2.set Fd.TBAS_TB_STAT_PLL_LOCK 1 |>.set Fd.CHIP_OSC_STAT_MON_ARMED 1 |>.stageDone 6).chip' fun c =>
      { c with monAt := s1.tick, monBad := 0, oscTrip := false, coarse := false }
    ok (if s.mgmt.booted then s3.calRestore else s3).showIslands

/-! ## Update commands (R458) -/

/-- UPD_LOAD: pieces go into the slot that does not run, which is invalid until the last. DEDUCED (log 89). -/
def execUpdLoad (img : Image) (stored : Bool) (s : State) : Res :=
  s.command 0x0201 (fun _ => true) fun s =>
    if s.is Fd.MGMT_FW_STAT_TRIAL || s.mgmt.hand != 0 then s.answer stBUSY []
    else
      let (n, s1) := s.loadPiece 0x0201
      let st := s.pieceStatus stored (n == (imageBytes img).length)
      let s2 := s1.spoilSlot
      (if st = stOK && !s.mbxContinued then s2.setSlot s.otherSlot { img := some img } else s2).answer st []

/-- UPD_VERIFY: the loaded slot is checked and its body hash recorded; the recovery service reboots into it (R400). -/
def execUpdVerify (s : State) : Res :=
  s.command 0x0202 noPayload fun s =>
    let n := s.otherSlot
    match (s.slotOf n).img with
    | none => s.answer stBAD_PARAM []
    | some i =>
      if !s.fwGood i then s.answer stSIGNATURE_FAIL []
      else
        let s1 := ((s.setSlot n { img := some i, hash := some i.bodyHash }).set Fd.MGMT_FW_STAT_VERIFIED 1).answer stOK []
        if s.mgmt.recovery then
          (s1.writeBoot fun b => { b with pref := n, trial := false, tried := false }).mgmt' fun m => { m with recovery := false }
        else s1

/-- What makes an activation wait (R459). DEDUCED (log 72). -/
def State.handBusy (s : State) : Bool :=
  s.safeSt == stTESTING || s.get Fd.CHIP_RESTARTING_MASK != 0 || s.is Fd.CHIP_PWR_STAT_BUSY || s.is Fd.CHIP_DVFS_STAT_BUSY
    || s.commitWaiting || s.commitFixed || s.mgmt.hand != 0 || s.is Fd.MGMT_FW_STAT_TRIAL

/-- UPD_ACTIVATE: the boot record points to the new slot, and the handover waits for H. DEDUCED (log 89). -/
def execUpdActivate (e : Fin 8) (stored : Bool) (s : State) : Res :=
  s.command 0x0203 (· == 1) fun s =>
    if !s.is Fd.MGMT_FW_STAT_VERIFIED then s.answer stNOT_PERMITTED []
    else if s.handBusy then s.answer stBUSY []
    else if !stored then s.answer stSTORAGE_FAIL []
    else
      let n := s.otherSlot
      ((s.writeBoot fun b => { b with pref := n, trial := true, tried := false }).awaitHand n e false).answer stOK []

/-- UPD_STATUS: running slot, SVNs of both slots, TRIAL, seconds left in the health window. DEDUCED (log 25). -/
def execUpdStatus (s : State) : Res :=
  s.command 0x0204 noPayload fun s =>
    let svn (x : FwSlot) : Nat := match x.img with
      | some i => i.svn.toNat
      | none => 0
    let left := match s.mgmt.healthEnd with
      | some t => s.secondsTo t
      | none => 0
    s.answer stOK (leBytes 1 s.fwSlot ++ leBytes 4 (svn s.mgmt.slotA) ++ leBytes 4 (svn s.mgmt.slotB)
      ++ leBytes 1 (s.get Fd.MGMT_FW_STAT_TRIAL) ++ leBytes 1 left)

/-- UPD_REVERT: the boot record must verify (R54). DEDUCED (log 89). -/
def execUpdRevert (stored : Bool) (s : State) : Res :=
  s.command 0x0205 noPayload fun s =>
    if !s.is Fd.MGMT_FW_STAT_TRIAL then s.answer stNOT_PERMITTED []
    else if !stored then s.answer stSTORAGE_FAIL []
    else s.decideRevert.answer stOK []

/-! ## Handover (R459 to R461) -/

/-- H: LSW_HS_EN is latched, the cores are held; a command in progress is answered by the new image (R55). DEDUCED (log 72). -/
def execFwHandover (s : State) : Res :=
  if s.mgmt.hand ≠ 1 then ok s
  else
    match s.boundary s.mgmt.handEng s.mgmt.handAt s.mgmt.handAny with
    | none => ok s
    | some t =>
      if !s.clockOk t then ok s
      else ok ((s.clockReach t).mgmt' fun m =>
        { m with hand := 2, orphan := none, permitHeld := none, load := none
                 reply := if s.mbxBusy then some (m.reply.getD { status := stRESTARTED }) else none })

/-- The body of a slot's image has the hash that was recorded (R459 step 2). -/
def State.bodyGood (n : Nat) (s : State) : Bool :=
  match (s.slotOf n).img, (s.slotOf n).hash with
  | some i, some h => Config.sha384 i.body == h
  | _, _ => false

/-- The latch opens: channel A's copy is taken over and LSW_HS_EN follows it again (R371). -/
def State.releaseLatch (s : State) : State := (s.mgmt' fun m => { m with hand := 0, permitHeld := none }).startA

/-- The new image takes over channel A and services its watchdog; a held PERMIT takes effect (R459 step 4). DEDUCED (log 72). -/
def State.takeOver (n : Nat) (trial back : Bool) (s : State) : State :=
  let s1 := (s.runImage n trial).releaseLatch.safe' fun x => { x with serviced := true }
  let s2 := (s1.err { level := 0, region := 16, block := 1, code := 0x1081 }).count 16 Src.MGMT_HANDOVERS 0 1
  let s3 := if back then
      (s2.err { level := 2, region := 16, block := 1, code := 0x1082, action := 9 }).count 16 Src.MGMT_REVERTS 0 1
    else s2
  let s4 := s3.onlyIf trial (State.writeBoot fun b => { b with tried := true })
  match s.mgmt.permitHeld with
  | some (p, z) => s4.permitActs p z (if s4.permitted then s.safe.permitAt else s4.tick)
  | none => s4

/-- The boot ROM checks the slot and releases the cores; a slot that fails gives way to the other, and that to the recovery
service (R398, R400). -/
def execFwTakeover (s : State) : Res :=
  if s.mgmt.hand ≠ 2 then ok s
  else
    let n := s.mgmt.handTo
    if s.bodyGood n then ok (s.takeOver n (!s.mgmt.handBack) s.mgmt.handBack)
    else if s.bodyGood (1 - n) then
      ok (((s.slotFailed n).writeBoot fun b => { b with pref := 1 - n, trial := false, tried := false }).takeOver (1 - n) false false)
    else ok ((s.slotFailed n).releaseLatch).enterRecovery

/-- The new image has verified what R460 names, and confirms itself: TARGET_SVN, the fuses, FW_CONFIRM. -/
def execFwConfirm (s : State) : Res :=
  if s.is Fd.MGMT_FW_STAT_TRIAL && s.fwRuns && s.mgmt.hand == 0 && !s.is (Fd.SAFE_NOW_NOW.bit 2) && s.safe.serviced && s.calSlot.valid then
    let svn := match (s.slotOf s.fwSlot).img with
      | some i => i.svn.toNat
      | none => 0
    let s1 := s.writeBoot fun b => { b with trial := false, tried := false, target := max b.target svn }
    let s2 := ((s1.blowSvn svn).set Fd.MGMT_FW_STAT_TRIAL 0 |>.set Fd.SECU_BOOT_TRIAL 0 |>.set Fd.MGMT_FW_STAT_LEFT 0).mgmt' fun m =>
      { m with healthEnd := none }
    ok (s2.err { level := 0, region := 16, block := 1, code := 0x1083 })
  else ok s

/-- The health window ends unconfirmed: the image is reverted. DEDUCED (log 72). -/
def execHealthWindowExpire (s : State) : Res :=
  match s.mgmt.healthEnd with
  | some t => if s.clockOk t then ok (s.clockReach t).decideRevert else ok s
  | none => ok s

/-- The lockstep pair disagrees: recorded, counted, and an image on trial is reverted. -/
def execLockstepErr (s : State) : Res :=
  s.whenOn fun s =>
  ok ((s.err { level := 1, region := 16, block := 1, code := 0x1088 }).count 16 Src.MGMT_LOCKSTEP_ERR 0 1).decideRevert

end Sys2Proof.Machine
end

