-- ==== Sys2Proof/Machine/Faults.lean ====
section
/-!
DEFINITION. Error records and the log (R451 to R454), region restarts and chip level (R20, R21, R455 to R457), the tills'
configuration (R468 to R470), the CAN controller's errors (R387).
-/
namespace Sys2Proof.Machine

/-! ## The log writer (R452 to R454) -/

/-- A record from a region enters the FIFO. -/
def execErrorRecord (r : ErrRec) (s : State) : Res := s.whenOn fun s => ok (s.io' (Io.record { r with rep := 1, rseq := 0 }))

/-- An error record as its 32 bytes (R451). -/
def errBytes (e : ErrRec) : List Byte :=
  leBytes 1 (e.level % 4 + if e.warning then 4 else 0) ++ leBytes 1 e.region ++ leBytes 1 e.block ++ leBytes 1 e.action
    ++ leBytes 2 e.cell ++ leBytes 2 e.code ++ leBytes 8 e.tick ++ leBytes 4 e.era ++ leBytes 2 e.count
    ++ leBytes 2 e.rep ++ leBytes 4 e.detail ++ leBytes 4 e.rseq

/-- A record may be merged: level 0, no warning. -/
def errMergeable (e : ErrRec) : Bool := e.level == 0 && !e.warning

/-- Two records are equal for merging. -/
def errLike (a b : ErrRec) : Bool :=
  a.region == b.region && a.block == b.block && a.cell == b.cell && a.code == b.code

/-- The number of log entries. -/
def logSize : Nat := 4096

/-- A record is copied to the log ring, or, without room, is not, and counts as a drop of the ring (R305). -/
def State.copyRecord (b : List Byte) (s : State) : State :=
  if s.ringRoom 13 [b.length] then s.putItem 13 [b] else s.dropItem 13

/-- One record is stored: RSEQ, the ring of 4,096 entries, the copy to ring 13, the interrupt. DEDUCED (log 80). -/
def State.storeRecord (e : ErrRec) (s : State) : State :=
  let e1 := { e with rseq := s.get Fd.MGMT_LOG_HEAD_RSEQ }
  let lost := s.logFullUnread
  let s1 := (s.mgmt' fun m =>
      { m with log := e1 :: m.log.take (logSize - 1), logAt := some s.tick
               merging := m.merging ++ [{ first := e1, at_ := s.tick, last := e1 }] }).bump Fd.MGMT_LOG_HEAD_RSEQ 1
    |>.count 16 Src.MGMT_LOG_RECORDS 0 1
  ((s1.onlyIf lost (State.io' Io.lose)).onlyIf (decide (s.get Fd.MGMT_LOG_CTL_COPYLVL ≤ e.level)) (State.copyRecord (errBytes e1))).onlyIf
    (decide (s.get Fd.MGMT_LOG_CTL_ILVL ≤ e.level)) (State.regionIrq 16)

/-- The first second of merging that absorbs a record, counting it. DEDUCED (log 80). -/
def absorb (now : Wide) (e : ErrRec) : List MergeSlot → Option (List MergeSlot)
  | [] => none
  | m :: l =>
    if errLike m.first e ∧ ahead m.at_ now ≤ ticksPerS then some ({ m with n := m.n + 1, last := e } :: l)
    else (absorb now e l).map (m :: ·)

/-- The earliest tick of the next store: at most 100,000 records a second. DEDUCED (log 80). -/
def State.nextStore (s : State) : Wide := (s.mgmt.logAt.map (· + usTicks 10)).getD s.tick

/-- The log writer takes the oldest record of the FIFO: merged with an equal one of the last second, or stored. -/
def execLogStore (s : State) : Res :=
  if s.restarting 16 then ok s else
  match s.io.fifo with
  | [] => ok s
  | e :: rest =>
    let s1 := s.io' fun x => { x with fifo := rest }
    match if s.is Fd.MGMT_LOG_CTL_MERGE && errMergeable e then absorb s.tick e s.mgmt.merging else none with
    | some l => ok (s1.mgmt' fun m => { m with merging := l })
    | none => if s.clockOk s.nextStore then ok ((s1.clockReach s.nextStore).storeRecord e) else ok s

/-- The oldest second of merging ends: one follow-up record stands for what was merged in it. DEDUCED (log 80). -/
def execLogMergeFlush (s : State) : Res :=
  if s.restarting 16 then ok s else
  match s.mgmt.merging with
  | [] => ok s
  | m :: rest =>
    let second := m.at_ + BitVec.ofNat 64 ticksPerS
    let t := if before second s.nextStore then s.nextStore else second
    if !s.clockOk t then ok s
    else
      let s1 := (s.clockReach t).mgmt' fun x => { x with merging := rest }
      ok (if m.n = 0 then s1 else s1.storeRecord { m.last with rep := min m.n 65535 })

/-! ## Region restarts (R20, R21, R455, R456) -/

/-- A fault is passed up to region r, or r loses a clock it owns: it restarts, or cannot, and the fault is the chip's
(R17, R18).  `attempts`: those of the lower levels (R19). -/
def execRegionRestart (r : Fin 19) (attempts : BitVec 16) (s : State) : Res :=
  s.whenOn fun s =>
  ok (if restartsAlone r then s.startRestart attempts.toNat r else s.chipFault attempts.toNat r)

/-- The restart whose completion will clear a chip fault of its region (R457). DEDUCED (log 82). -/
def State.claimRestart (who : Actor) (r : Nat) (s : State) : State :=
  if who = .firmware ∧ s.chip.faultOpen ∧ s.get Fd.CHIP_ERR_STAT_FREGION = r then
    s.chip' fun c => { c with faultCmd := true }
  else s

/-- CHIP_RESTART_CMD.GO.  A region whose restart has failed starts afresh; TBAS, CHIP and SAFE are ignored. -/
def execRestartCmd (who : Actor) (s : State) : Res :=
  let a := Fd.CHIP_RESTART_CMD_GO.off
  s.writeBy who a fun s =>
  if s.withheld who a true (s.reg a) then ok (s.accError ACC_DENIED a)
  else
    let r := s.get Fd.CHIP_RESTART_CMD_REGION
    let s1 := s.set Fd.CHIP_RESTART_CMD_GO 0
    if !restartsAlone r then ok s1
    else
      let s2 := if s.chip.stuck.contains r then
          (s1.setRestarting r false).chip' fun c => { c with stuck := c.stuck.erase r } else s1
      ok ((s2.startRestart 0 r).claimRestart who r)

/-- A cell that fails its region's built-in test is handled as its block handles a failed cell: a stall is retired, a lane
fails, an easel does not run again, a slice fails, the memory is OFFLINE; other regions name no cell. -/
def State.bistCell (r n : Nat) (s : State) : State :=
  match r with
  | 2 => s.chip' fun c => { c with scanRun := if c.scanRun.testBit n then c.scanRun - 2 ^ n else c.scanRun }
  | 4 | 5 | 6 | 7 => if n < 32 then s.laneFailed (32 * (r - 4) + n) else s
  | 8 | 9 | 10 | 11 => s.stallFailed (r - 8) n
  | 14 => s.memOffline
  | 15 => if s.get Fd.MONI_HK_STAT_CAL = n then
      s.set Fd.MONI_HK_STAT_CAL 3 |>.set Fd.MONI_HK_STAT_SLICE_FAIL 1 else s
  | _ => s

/-- The built-in test ends (step 4). -/
def execRestartBistDone (r : Fin 19) (failed : List (BitVec 9)) (s : State) : Res :=
  if !s.restarting r || (look s.chip.bist r).isSome then ok s
  else ok ((s.each failed fun n s => s.bistCell r n.toNat).chip' fun c => { c with bist := ins c.bist r s.tick })

/-- An easel that SCAN's restart halted runs at PC 0, T0 2 µs ahead. -/
def State.rerunEasel (e : Nat) (s : State) : State :=
  if s.chip.scanRun.testBit e then ((s.resetEasel e).setT e 0 (s.tick + 256000)).run e else s

/-- A port takes part again from LANES, as after a relink; HUSH holds it. -/
def State.rejoin (t : Nat) (s : State) : State :=
  if s.chip.hush = 4 ∨ s.portState t = ptOFF then s else (s.port' t fun p => { p with attempts := 0 }).enterLanes t

/-- What region r does when it resumes. -/
def State.resumeRegion (r : Nat) (s : State) : State :=
  match r with
  | 2 => (s.each easelList State.rerunEasel).chip' fun c => { c with scanRun := 0 }
  | 4 | 5 | 6 | 7 =>
    (s.set (Fd.LNK_LPLL_STAT_LOCK_A (r - 4)) 1 |>.set (Fd.LNK_LPLL_STAT_LOCK_B (r - 4)) 1).each
      ((List.range 8).map (8 * (r - 4) + ·)) State.rejoin
  | 8 | 9 | 10 | 11 => s.substituteAll (r - 8)
  | 16 => s.bootRunning
  | 17 => s.deriveKeys
  | _ => s

/-- The tick of step 5: the first LINE tick at least 4 µs after the test; without one, 4 µs after it. DEDUCED (log 81). -/
def State.resumeAt (done : Wide) (s : State) : Wide :=
  let t := done + BitVec.ofNat 64 commitLead
  ((s.scan.lines.find? fun l => !before l.start t).map LineRec.start).getD t

/-- The region applies the shadow it has kept, and resumes (step 5). -/
def execRestartResume (r : Fin 19) (s : State) : Res :=
  match look s.chip.bist r with
  | none => ok s
  | some done =>
    let t := s.resumeAt done
    if !s.restarting r || s.chip.stuck.contains r || !s.clockOk t then ok s
    else
      let s1 := ((s.clockReach t).takeHeld r).setRestarting r false |>.resumeRegion r
      let s2 := s1.chip' fun c =>
        { c with bist := del c.bist r
                 okFrom := if c.faultCmd && c.faultOpen && s.get Fd.CHIP_ERR_STAT_FREGION == r then some c.frames else c.okFrom }
      ok (s2.err { level := 2, region := r, block := 0, code := 0x0011, action := 5, count := rd (fun _ => 0) s.chip.attempts r })

/-- A restart has not completed within one frame: the fault passes to chip level (R21), which records it once, with the restart as
the lower level's attempt (R19). DEDUCED (log 81). -/
def execRestartFail (r : Fin 19) (s : State) : Res :=
  if !s.restarting r || s.chip.stuck.contains r then ok s
  else
    ok ((s.chip' fun c => { c with stuck := r.val :: c.stuck }).chipFaultAs 0x0012 1 r)

/-! ## Chip level (R457) -/

/-- A fault that its region cannot contain, or that arises in CHIP, after `attempts` of the lower levels. -/
def execChipFault (r : Fin 19) (attempts : BitVec 16) (s : State) : Res := s.whenOn fun s => ok (s.chipFault attempts.toNat r)

/-- The firmware clears CHIP_FAULT; for a fault of CHIP itself the 100 ms without another begin. DEDUCED (log 82). -/
def execChipFaultClear (s : State) : Res :=
  s.writeBy .firmware Fd.CHIP_ERR_STAT_CHIP_FAULT.off fun s =>
  ok ((s.set Fd.CHIP_ERR_STAT_CHIP_FAULT 0).chip' fun c =>
    { c with clearedAt := if c.faultOpen && s.get Fd.CHIP_ERR_STAT_FREGION == 0 then some s.tick else c.clearedAt })

/-! ## Tills (R468 to R470) -/

/-- The region whose list of sources a CHIP till selects from; none for a reserved encoding. -/
def tillRegion (reg : Nat) : Option Nat :=
  if reg < 19 then some reg else if reg = 0x14 then some 4 else if reg = 0x15 then some 8 else none

/-- A word of TILL_CFG of region r carries a reserved encoding (R469, R470). DEDUCED (log 16). -/
def tillReserved (r : Nat) (v : Word) : Bool :=
  let inst := bitsOf v 17 8
  match if r = 0 then tillRegion (bitsOf v 28 24) else some r with
  | none => true
  | some k =>
    bitsOf v 18 18 == 0 && bitsOf v 7 0 != 0
      && (match (Src.instances k)[bitsOf v 7 0 - 1]? with
          | some n => decide (n ≤ inst)
          | none => false)

/-- A write changes SRC, INST, ALL or REGION. -/
def tillSelects (old v : Word) : Bool :=
  bitsOf old 18 0 != bitsOf v 18 0 || bitsOf old 28 24 != bitsOf v 28 24

/-- Clear the OVF bit of a till. -/
def tillOvf (r t : Nat) : Field := (if t < 32 then Fd.TILL_OVF_LO_OVF r else Fd.TILL_OVF_HI_OVF r).bit (t % 32)

/-- n events of its source reach till t of region r. -/
def State.tillEvents (r t n : Nat) (s : State) : State :=
  let (x, due) := s.io.tillStep r t n
  (s.io' fun _ => x).onlyIf due (State.regionIrq r)

/-- A write of TILL_CFG.  `events`: the events of that cycle that the new selection counts. DESIGN CHOICE (log 6). DEDUCED (log 16). -/
def execTillCfgWrite (who : Actor) (r : Fin 19) (t : Fin 64) (v : Word) (events : BitVec 16) (s : State) : Res :=
  let f := Fd.TILL_CFG_SRC r t
  s.writeBy who f.off fun s =>
  if s.withheld who f.off true v then ok (s.accError ACC_DENIED f.off)
  else if tillReserved r v then ok (s.accRecord RSVD_ENC f.off)
  else
    let s1 := s.put f.off (v &&& 0x1F37FFFF)
    if tillSelects (s.reg f.off) v then
      ok (((s1.setWide r (0x0F00 + t) 0).set (tillOvf r t) 0).onlyIf (bitsOf v 7 0 != 0) (State.tillEvents r t events.toNat))
    else ok s1

/-- A till at its limit takes one event more. DEDUCED (log 16). -/
def execTillOverflow (r : Fin 19) (t : Fin 64) (s : State) : Res :=
  if (s.wideOf r (0x0F00 + t)).toNat = tillMax ∧ s.get (Fd.TILL_CFG_SRC r t) ≠ 0 then ok (s.tillEvents r t 1) else ok s

/-! ## The CAN controller (R387) -/

/-- A bus error raises an error counter; a transmit counter above 255 takes the controller off the bus. -/
def execCanError (x : CanErr) (s : State) : Res :=
  s.whenOn fun s =>
  let s1 := s.count 18 Src.SAFE_CAN_ERR 0 1
  if !x.transmit then ok (s1.bumpSat Fd.SAFE_CAN_STAT_REC x.amount.toNat)
  else
    let off := decide (255 < s.get Fd.SAFE_CAN_STAT_TEC + x.amount.toNat) && !s.is Fd.SAFE_CAN_STAT_BUSOFF
    ok ((s1.bumpSat Fd.SAFE_CAN_STAT_TEC x.amount.toNat).onlyIf off fun s =>
      (s.set Fd.SAFE_CAN_STAT_BUSOFF 1).bumpSat Fd.SAFE_CAN_STAT_BUSOFFS 1)

/-- The controller has recovered and rejoins the bus. -/
def execBusOffRecovery (s : State) : Res :=
  if s.is Fd.SAFE_CAN_STAT_BUSOFF then
    ok (s.set Fd.SAFE_CAN_STAT_BUSOFF 0 |>.set Fd.SAFE_CAN_STAT_TEC 0 |>.set Fd.SAFE_CAN_STAT_REC 0)
  else ok s

end Sys2Proof.Machine
end

