-- ==== Sys2Proof/Machine/Lines.lean ====
section
/-!
DEFINITION. A LINE tick: what every region does at it (R88, R139, R218, R238, R243, R247, R298, R347).
-/
namespace Sys2Proof.Machine

/-! ## Zoom windows (R238) -/

/-- Windows of a region's zoom store per bank. -/
def zoomWindows : Nat := 512

/-- Allocate one window, or count that there is no room. -/
def State.armZoom (q : Word) (c slot : Nat) (x : State × Nat) : State × Nat :=
  let (s, n) := x
  if n < zoomWindows then
    (s.scan' fun k => k.onLine q fun l => { l with armed := ins l.armed (4 * c + slot) n }, n + 1)
  else ((s.countSec (c / 32) Src.HST_ZOOM_NOROOM 1).set (Fd.HST_STAT_ZNOROOM (c / 256)) 1, n)

/-- The windows of a line in region n, in ascending channel order and by slot. -/
def State.armRegion (l : LineRec) (n : Nat) (s : State) : State :=
  let asked := (List.range 256).flatMap fun k =>
    [0, 1, 2, 3].filterMap fun slot => (l.zoomOf (256 * n + k) slot).map fun _ => (256 * n + k, slot)
  let (s1, m) := asked.foldl (fun x a => State.armZoom l.seq a.1 a.2 x) (s, 0)
  s1.set (Fd.HST_ZOOM_STAT_ARMED n) m

/-! ## Stacking (R243, R247) -/

/-- The motion set in force at a tick. -/
def State.motionAt (t : Wide) (s : State) : Option Motion := s.memc.motion.find? fun m => !before t m.eff

/-- The set was published within MAXAGE ms before a tick; it was published 4 µs before it takes effect. DEDUCED (log 49). -/
def State.motionFresh (t : Wide) (m : Motion) (s : State) : Bool :=
  decide (ahead (m.eff - 512000) t ≤ (s.get Fd.MEMC_STK_MAXAGE_MS * 128000000 : Nat))

/-- The line asks for stacking: STACK's EN, or STACKEN, with MEMC_STK_CTL.EN. -/
def State.asksStack (l : LineRec) (s : State) : Bool :=
  s.is Fd.MEMC_STK_CTL_EN &&
    match l.stack with
    | some x => x.en
    | none => bitsOf l.d2 26 26 == 1

/-- The line is due for the engine's decision, or left unstacked with its cause counted. -/
def State.stackAsk (l : LineRec) (s : State) : State :=
  if !s.asksStack l then s
  else if s.get Fd.MEMC_STK_CTL_NSLOT ≤ l.desc then s.unstacked l Src.MEMC_STK_NOSLOT
  else
    let fresh := match s.motionAt l.start with
      | some m => s.motionFresh l.start m
      | none => false
    if fresh then s.scan' fun c => c.onLine l.seq fun k => { k with stk := 1 }
    else (s.unstacked l Src.MEMC_STK_NOMOTION).set Fd.MEMC_STK_STAT_NOMOTION 1

/-! ## The line (R15, R62, R298) -/

/-- What a line takes at its tick: the descriptor words, TB_WARM when it has no shot, its point ring, the motion set; its output
is DEGRADED while EMIT restarts (R21). DEDUCED (log 39). -/
def State.beginLine (l : LineRec) (s : State) : State :=
  s.scan' fun c => c.onLine l.seq fun k =>
    { k with started := true, degraded := k.degraded || s.restarting 3
             d0 := s.reg (Fd.SCAN_LD0_LSEL l.desc).off, d1 := s.reg (Fd.SCAN_LD1_BLANK l.desc).off
             d2 := s.reg (Fd.SCAN_LD2_CODE l.desc).off, d3 := s.reg (Fd.SCAN_LD3_LGRP l.desc).off
             warm := s.is Fd.TBAS_TB_STAT_TB_WARM
             ring := s.get Fd.HOST_PRING_MAP_RING / 8 ^ l.easel % 8
             motion := s.motionAt l.start }

/-- The action queue's entries of a line that act at its LINE tick. -/
def Act.atLine : Act → Bool
  | .line | .window | .zoom | .stack => true
  | _ => false

/-- The master's FRAME pulse (R347). -/
def State.sendFrame (l : LineRec) (s : State) : State :=
  if l.isFrame && s.get Fd.MEMC_SYNC_CTL_ROLE == 1 && s.is Fd.MEMC_SYNC_CTL_FEN && l.easel == s.get Fd.MEMC_SYNC_CTL_MENG then
    (s.emitPin (.syncPulse 100)).memc' fun m => { m with pulseEnd := some (l.start + nsTicks 100) }
  else s

/-- The next admitted line's LINE tick; the banks of a region whose stalls or link restart are DEGRADED (R21, R236). -/
def execLineStart (s : State) : Res :=
  match s.scan.lines.find? fun l => !l.started with
  | none => ok s
  | some l0 =>
    if !s.timely l0.start then ok s
    else
      let s1 := (((s.reach l0.start).beginLine l0).markDwell l0.seq).chip' fun c => if l0.isFrame then { c with frames := c.frames + 1 } else c
      let s2 := s1.dropActs fun a => a.line == l0.seq && a.act.atLine
      match s2.lineOf l0.seq with
      | none => ok s2
      | some l =>
        let s3 := ((s2.each (List.range 32) (State.takeOfs l.start)).emitLine l).sendFrame l
        let s4 := s3.each (List.range 4) fun n s =>
          (s.armRegion l n).onlyIf (s.restarting (8 + n) || s.restarting (4 + n)) (State.degradeBanks n false)
        ok (s4.stackAsk l)

end Sys2Proof.Machine
end

