-- ==== Sys2Proof/Machine/Output.lean ====
section
/-!
DEFINITION. OUTP (R274 to R289): classification and rejection, the digest, points, export records, line units.
-/
namespace Sys2Proof.Machine

/-! ## Marks of a line's channels (R76, R161, R214, R287) -/

/-- A channel's points of a line carry LOW_CONF (R287): a substituted emission time, the tile's own reasons, or its
histogram. -/
def State.lowConf (l : LineRec) (c : Nat) (hist : Bool) (s : State) : Bool :=
  let t := c / 32
  let (tagged, bad) := rd (fun _ => (0, 0)) l.tags t
  hist || l.low.testBit t || s.tileLow t || decide (tagged < 1024 * bad)
    || l.shots.any fun h => match s.chosen l c h with
      | some (m, _) => h.miss.testBit m
      | none => false

/-! ## Classes (R275 to R277) -/

/-- Settings of classification, as in force at a tick. -/
structure ClassCfg where
  wpart : Nat
  wdiff : Nat
  ccrmin : Nat
  prain : Nat
  gch : Nat
  winr : Nat
  rainr : Nat
  ptol : Nat
  retro : Nat
  gfrac : Nat
  edgesep : Nat
  wref : Nat → Nat

def State.classCfg (t : Wide) (s : State) : ClassCfg :=
  { wpart := s.getAt t Fd.OUTP_CLS_CTL_WPART, wdiff := s.getAt t Fd.OUTP_CLS_CTL_WDIFF
    ccrmin := s.getAt t Fd.OUTP_CLS_CTL_CCRMIN, prain := s.getAt t Fd.OUTP_CLS_CTL_PRAIN
    gch := s.getAt t Fd.OUTP_CLS_CTL_GCH, winr := s.getAt t Fd.OUTP_CLS_RANGE_WINR
    rainr := s.getAt t Fd.OUTP_CLS_RANGE_RAINR, ptol := s.getAt t Fd.OUTP_CLS_PERS_PTOL
    retro := s.getAt t Fd.OUTP_CLS_RETRO_RETRO, gfrac := s.getAt t Fd.OUTP_CLS_RETRO_GFRAC
    edgesep := s.getAt t Fd.OUTP_CLS_RETRO_EDGESEP, wref := fun g => s.getAt t (Fd.OUTP_CLS_WREF_WREF g) }

/-- Two ranges differ by no more than d. -/
def within (d a b : Nat) : Bool := decide (a ≤ b + d ∧ b ≤ a + d)

/-- Channels of a sector that have delivered, with their echoes. -/
abbrev Chans := SMap ChanOut

/-- Pass 1 (R277): class 5 or 4. -/
def ClassCfg.pass1 (cfg : ClassCfg) (sat : Bool) (e : Echo) : Option Nat :=
  if e.range ≤ 16 * cfg.winr then some 5 else if sat || decide (cfg.retro ≤ e.intensity) then some 4 else none

/-- A class-4 echo near enough to make this one its ghost (R277). -/
def ClassCfg.ghost (cfg : ClassCfg) (chans : Chans) (k : Nat) (e : Echo) : Bool :=
  chans.any fun y => within cfg.gch y.1 k && y.2.echoes.any fun g =>
    cfg.pass1 y.2.sat g == some 4 && within (16 * cfg.ptol) g.range e.range && decide (256 * e.amp < g.amp * cfg.gfrac)

/-- Persistence (R276): neighbours on this line and on the previous one with an echo within PTOL. -/
def ClassCfg.persistence (cfg : ClassCfg) (chans : Chans) (prev : SMap (List Nat)) (k : Nat) (e : Echo) : Nat :=
  let near (l : List Nat) : Nat := if l.any fun r => within (16 * cfg.ptol) r e.range then 1 else 0
  let here (i : Nat) : List Nat := ((look chans i).map fun y => y.echoes.map Echo.range).getD []
  let then_ (i : Nat) : List Nat := (look prev i).getD []
  let below (f : Nat → List Nat) : Nat := if k = 0 then 0 else near (f (k - 1))
  below here + near (here (k + 1)) + below then_ + near (then_ k) + near (then_ (k + 1))

/-- The class of an echo (R277). -/
def ClassCfg.classOf (cfg : ClassCfg) (chans : Chans) (prev : SMap (List Nat)) (kbin k : Nat) (y : ChanOut) (e : Echo) : Nat :=
  match cfg.pass1 y.sat e with
  | some c => c
  | none =>
    let w := cfg.wref (match e.zoom with
      | some z => 6 + z
      | none => kbin - 3)
    if cfg.ghost chans k e then 7
    else if e.ccr < cfg.ccrmin then 6
    else if w + cfg.wdiff ≤ e.width then 3
    else if e.range ≤ 160 * cfg.rainr ∧ cfg.persistence chans prev k e ≤ cfg.prain ∧ e.width < w + cfg.wpart then 2
    else if w + cfg.wpart ≤ e.width ∨ (y.echoes.erase e).any (fun f => within (160 * cfg.edgesep) f.range e.range) then 1
    else 0

/-- A classified echo of channel k. -/
structure Classed where
  k : Nat
  echo : Echo
  cls : Nat
  low : Bool
  /-- the source its rejection counts under, if it is rejected (R280) -/
  rej : Option Nat

/-- Rejection (R280). -/
def State.rejection (t : Wide) (cls : Nat) (unset low : Bool) (s : State) : Option Nat :=
  if (s.getAt t Fd.OUTP_REJ_MASK).testBit cls then some (Src.OUTP_REJ0 + cls)
  else if unset && s.getAt t Fd.OUTP_REJ_UNSET == 1 then some Src.OUTP_REJ_UNSET
  else if low && s.getAt t Fd.OUTP_REJ_LOWC == 1 then some Src.OUTP_REJ_LOWC
  else none

/-- The ranges of the previous line of a sector (R276). DEDUCED (log 52). -/
def State.previous (l : LineRec) (sec : Nat) (t : Wide) (s : State) : SMap (List Nat) :=
  let gap : Int := 128000 * s.getAt t Fd.OUTP_CLS_PERS_PGAP
  match (rd (fun _ => []) s.outp.prev sec).find? fun p =>
      p.line != l.seq && p.era == l.era && decide (ahead p.finish l.start ≤ gap) with
  | some p => if p.deg then [] else p.ranges
  | none => []

/-- The two lines most recently output for a sector, after one more read-out of a line. DEDUCED (log 52). -/
def pushPrev (p : PrevLine) : List PrevLine → List PrevLine
  | [] => [p]
  | q :: l =>
    if q.line == p.line then
      { p with deg := p.deg || q.deg, ranges := p.ranges.map fun e => (e.1, e.2 ++ rd (fun _ => []) q.ranges e.1) } :: l
    else p :: (q :: l).take 1

/-! ## Points (R281, R286, R287) -/

/-- T_OFS of a line (R286). -/
def LineRec.tOfs (l : LineRec) : Nat :=
  match l.shots with
  | [] => 65535
  | h :: _ => min 65535 ((ahead l.start h.fire).toNat / 2048)

/-- FLAGS of a point (R287). -/
def flagsOf (warm deg stacked zoomed interf sat unset low diag : Bool) : Nat :=
  let b (x : Bool) (n : Nat) : Nat := if x then 2 ^ n else 0
  b warm 0 + b deg 1 + b stacked 2 + b zoomed 3 + b interf 4 + b sat 5 + b unset 6 + b low 7 + b diag 8

/-- The point record of a kept echo. -/
def pointOf (l : LineRec) (c n : Nat) (last : Bool) (cls flags : Nat) (e : Echo) : PointRec :=
  { dw0 := BitVec.ofNat 32 (e.range + 2 ^ 28 * (n % 8) + if last then 2 ^ 31 else 0)
    dw1 := BitVec.ofNat 32 (e.intensity + 2 ^ 16 * c + 2 ^ 26 * cls)
    dw2 := BitVec.ofNat 32 (l.desc + 2 ^ 10 * e.snr + 2 ^ 18 * e.width)
    dw3 := BitVec.ofNat 32 (flags + 2 ^ 16 * l.tOfs) }

def PointRec.bytes (p : PointRec) : List Byte :=
  leBytes 4 p.dw0.toNat ++ leBytes 4 p.dw1.toNat ++ leBytes 4 p.dw2.toNat ++ leBytes 4 p.dw3.toNat

/-! ## The digest (R98, R282) -/

/-- A digest entry. -/
structure Digest where
  near : Nat := 0x0FFFFFFF
  interf : Bool := false
  sat : Bool := false
  deg : Bool := false
  echoes : Nat := 0
  snrmax : Nat := 0

/-- Write a sector's digest entry of a line as a whole; the SAFE channels evaluate it (R389). -/
def State.writeDigest (l : LineRec) (sec : Nat) (d : Digest) (s : State) : State :=
  let a := 0x004B0000 + 512 * (l.seq.toNat % 64) + 16 * sec
  let b (x : Bool) (n : Nat) : Nat := if x then 2 ^ n else 0
  let w1 := d.near + b d.interf 28 + b d.sat 29 + b d.deg 30 + 2 ^ 31
  let s1 := s.put a l.seq |>.put (a + 4) (BitVec.ofNat 32 w1) |>.put (a + 8) (BitVec.ofNat 32 (d.echoes + 2 ^ 16 * d.snrmax))
    |>.put (a + 12) (BitVec.ofNat 32 (l.desc + 2 ^ 16 * (l.frame.toNat % 65536)))
  (s1.scan' fun c => c.onLine l.seq fun k =>
    { k with dig := k.dig ||| 2 ^ sec, digDeg := k.digDeg || d.deg, digInterf := k.digInterf || d.interf }).zoneEntry
      (l.seq.toNat % 64) l.frame sec d.near l.desc d.deg

/-- A line sequence lies after SCAN_DSM_LAST. -/
def State.afterLast (q : Word) (s : State) : Bool :=
  let d := (q - BitVec.ofNat 32 (s.get Fd.SCAN_DSM_LAST_SEQ)).toNat
  decide (0 < d ∧ d < 2 ^ 31)

/-- SCAN_DSM_LAST advances over the lines whose entries are all written, and their waiters go on (R99, R282); sequences whose lines a time-base restart has discarded are passed over
(R72). -/
def State.advanceDigest : Nat → State → State
  | 0, s => s
  | n + 1, s =>
    match s.scan.lines.find? (s.afterLast ·.seq) with
    | some l =>
      if l.dig = allChans then
        State.advanceDigest n ((s.set Fd.SCAN_DSM_LAST_SEQ l.seq.toNat).zoneClose l.frame).sumwaitDone
      else s
    | none => s

/-- Lines before l whose entry of the sector is still to be written: their events were read out under l's label, so
they get an empty entry, and a line with no read-out of its own a unit of no points (R282). -/
def State.closeEarlier (l : LineRec) (sec : Nat) (s : State) : State :=
  s.each ((s.scan.lines.takeWhile fun k => k.seq ≠ l.seq).filter fun k => !k.dig.testBit sec) fun k s =>
    let s1 := s.writeDigest k sec {}
    match s1.lineOf k.seq with
    | some k1 =>
      if k1.own then s1
      else
        (s1.scan' fun c => c.onLine k.seq fun y => { y with own := true }).outp' fun o =>
          { o with units := (o.units.takeWhile fun u => u.line ≠ l.seq) ++ [{ line := k.seq, stop := k.finish }] ++
              o.units.dropWhile fun u => u.line ≠ l.seq }
    | none => s1

/-! ## Export (R288, R289, R314) -/

/-- The rings a unit of a line qualifies for, and the counts after it (R288). -/
def State.qualify (l : LineRec) (t : Wide) (s : State) : Nat × State :=
  (List.range 4).foldl (fun (st : Nat × State) r =>
    let (m, s) := st
    if s.getAt t (Fd.OUTP_HEX_CTL_EN r) = 1
        ∧ (s.getAt t (Fd.OUTP_HEX_CTL_DANY r) = 1 ∨ s.getAt t (Fd.OUTP_HEX_CTL_DESC r) = l.desc) then
      let due := match look s.outp.hex r with
        | none => true
        | some n => decide (s.getAt t (Fd.OUTP_HEX_CTL_EVERY r) ≤ n)
      (if due then m + 2 ^ r else m,
        s.outp' fun o => { o with hex := ins o.hex r (if due then 0 else rd (fun _ => 0) o.hex r + 1) })
    else (m, s)) (0, s)

/-- Zero bytes up to a multiple of 16. -/
def pad16 (b : List Byte) : List Byte := b ++ List.replicate ((16 - b.length % 16) % 16) 0

/-- An export record (R289). DEDUCED (log 53). -/
def exportRec (l : LineRec) (c kbin first : Nat) (filtered : Bool) (status : Nat) (bins : List (List Byte)) : List Byte :=
  pad16 ([0x02, if filtered then 1 else 0] ++ leBytes 2 status ++ leBytes 4 l.seq.toNat ++ leBytes 4 l.frame.toNat
    ++ leBytes 8 l.label.toNat ++ leBytes 4 l.era ++ leBytes 2 c ++ leBytes 2 first ++ leBytes 2 bins.length
    ++ leBytes 1 kbin ++ [0] ++ bins.flatten)

/-- One channel's record goes to export ring r, through the staging buffer, or is dropped (R288, R314). DEDUCED (log 53). -/
def State.exportChan (l : LineRec) (t : Wide) (r c kbin : Nat) (deg low : Bool) (y : ChanOut) (s : State) : State :=
  let lo := s.getAt t (Fd.OUTP_HEX_BIN_BIN_LO r)
  let hi := min (s.getAt t (Fd.OUTP_HEX_BIN_BIN_HI r)) (y.raw.length - 1)
  if c < s.getAt t (Fd.OUTP_HEX_CH_CH_LO r) ∨ s.getAt t (Fd.OUTP_HEX_CH_CH_HI r) < c ∨ hi < lo then s
  else
    let filtered := s.getAt t (Fd.OUTP_HEX_CTL_KIND r) == 1
    let raw := ((y.raw.drop lo).take (hi + 1 - lo)).map (leBytes 2)
    let out := ((y.out.drop lo).take (hi + 1 - lo)).map fun v =>
      leBytes 4 (unsigned 24 v.1 + if v.2 then 2 ^ 24 else 0)
    let b (x : Bool) (n : Nat) : Nat := if x then 2 ^ n else 0
    let status := b y.sat 0 + b deg 1 + b y.stacked 2 + b low 3 + b l.warm 4 + b y.zoomed 5
    let rec_ := exportRec l c kbin lo filtered status (if filtered then out else raw)
    s.drainStage.stageRecord { ring := r, chan := c, bytes := rec_ }

/-! ## One sector of one read-out (R274 to R283) -/

/-- The echoes of a channel classified and judged (R277, R280). DEDUCED (log 53). -/
def State.judge (cfg : ClassCfg) (x : ReadBank) (l : LineRec) (prev : SMap (List Nat)) (kbin : Nat) (s : State)
    (y : Nat × ChanOut) : List Classed :=
  let low := s.lowConf l (32 * x.sector + y.1) y.2.low
  y.2.echoes.map fun e =>
    let cls := cfg.classOf x.chans prev kbin y.1 y.2 e
    { k := y.1, echo := e, cls := cls, low := low, rej := s.rejection x.stop cls e.unset low }

/-- Points of the kept echoes of a channel (R281, R287). -/
def State.pointsOf (x : ReadBank) (l : LineRec) (interf : Bool) (all : List Classed) (s : State) (y : Nat × ChanOut) :
    List PointRec :=
  let c := 32 * x.sector + y.1
  let kept := all.filter fun e => e.k == y.1 && e.rej.isNone
  let deg := y.2.deg || l.degraded || s.stringFault l
  let diag := s.diagPending l
  kept.mapIdx fun i e =>
    pointOf l c i (i + 1 == kept.length) e.cls
      (flagsOf l.warm deg y.2.stacked y.2.zoomed (interf || e.cls == 6) y.2.sat e.echo.unset e.low diag) e.echo

/-- The digest of a sector (R278, R279, R282). -/
def State.digestOf (x : ReadBank) (listen off : Bool) (kept : List Echo) (cls6 : Bool) (s : State) : Digest :=
  let betas := x.chans.map fun y => y.2.beta
  { near := ((kept.map Echo.range).min?).getD 0x0FFFFFFF
    interf := if listen then !kept.isEmpty || decide (256 * betas.length * s.getAt x.stop Fd.OUTP_LO_BG_BGLIM < sumNat betas) else cls6
    sat := x.chans.any fun y => y.2.sat, deg := !off && (x.lost != 0 || x.chans.any fun y => y.2.deg)
    echoes := kept.length, snrmax := ((kept.map Echo.snr).max?).getD 0 }

/-- Count each classified echo, and each rejected one (R280, R291). -/
def State.countClassed (sec : Nat) (l : List Classed) (s : State) : State :=
  s.each l fun e s =>
    let s1 := s.count 12 (Src.OUTP_CLASS0 + e.cls) sec 1
    match e.rej with
    | some src => s1.count 12 src sec 1
    | none => s1

/-- Classify a complete read-out of a sector. -/
def State.classify (x0 : ReadBank) (l : LineRec) (s : State) : State :=
  let sec := x0.sector
  let off := s.getAt l.start (Fd.LNK_TILE_CTL_EN sec) == 0
  let x := if off then { x0 with lost := 0, chans := x0.chans.map fun y => (y.1, { y.2 with echoes := [], deg := false }) } else x0
  let listen := s.lineListens l
  let cfg := s.classCfg x.stop
  let w := s.windowOf l sec
  let prev := s.previous l sec x.stop
  let all := if listen then [] else x.chans.flatMap (s.judge cfg x l prev w.kbin)
  let kept := if listen then x.chans.flatMap fun y => y.2.echoes else (all.filter fun e => e.rej.isNone).map Classed.echo
  let d := s.digestOf x listen off kept (all.any fun e => e.cls == 6)
  let first := !l.dig.testBit sec
  let interf := if first then d.interf else s.is (Fd.SCAN_DSM1_INTERF (l.seq.toNat % 64) sec)
  let pts := if listen then [] else x.chans.flatMap (s.pointsOf x l interf all)
  let low := x.chans.any fun y => !y.2.echoes.isEmpty && s.lowConf l (32 * sec + y.1) y.2.low
  let s1 := (s.countClassed sec all).closeEarlier l sec
  let s2 := (s1.onlyIf first (State.writeDigest l sec d)).advanceDigest s.scan.lines.length
  let p : PrevLine :=
    { line := l.seq, era := l.era, finish := l.finish, deg := d.deg
      ranges := if listen then [] else x.chans.map fun y => (y.1, y.2.echoes.map Echo.range) }
  let s3 := s2.outp' fun o => { o with prev := ins o.prev sec (pushPrev p (rd (fun _ => []) o.prev sec)) }
  let (rings, s4) := match (s3.outp.units.find? fun u => u.line == x.line && u.stop == x.stop).bind OutUnit.hex with
    | some m => (m, s3)
    | none => s3.qualify l x.stop
  let s5 := s4.each ((List.range 4).filter fun r => rings.testBit r) fun r s =>
    s.each x.chans fun y s =>
      s.exportChan l x.stop r (32 * sec + y.1) w.kbin (y.2.deg || l.degraded || s.stringFault l)
        (s.lowConf l (32 * sec + y.1) y.2.low) y.2
  let s6 := s5.scan' fun c => c.onLine l.seq fun k =>
    { k with lowConf := k.lowConf || low, diag := k.diag || !pts.isEmpty && s.diagPending l }
  (s6.outp' fun o => { o with units := o.units.map fun u =>
      if u.line == x.line && u.stop == x.stop then
        { u with done := u.done ||| 2 ^ sec, points := ins u.points sec pts, hex := some rings }
      else u }).hst' fun h => { h with reads := h.reads.filter fun y => !(y.sector == x.sector && y.stop == x.stop) }

/-- All 32 channels of a sector's oldest read-out have been delivered or are lost. -/
def execSectorClassify (sec : Fin 32) (s : State) : Res :=
  match s.hst.reads.find? fun x => x.sector == sec.val with
  | none => ok s
  | some x =>
    if !x.undelivered.isEmpty || s.restarting 12 then ok s
    else match s.lineOf x.line with
      | some l => ok (s.classify x l)
      | none => ok s

/-! ## Line units (R284, R285) -/

/-- STATUS of a line record.  A line that was due for stacking and that no read-out has brought to a decision was not stacked. -/
def State.lineStatus (l : LineRec) (u : OutUnit) (s : State) : Nat :=
  let b (x : Bool) (n : Nat) : Nat := if x then 2 ^ n else 0
  b l.warm 0 + b (l.digDeg || l.broken) 1 + b l.overrun 2 + b (l.stk == 1 || l.stk == 2) 3 + b (s.lineListens l) 4 + b l.isFrame 5
    + b l.digInterf 6 + b l.diag 7 + b (l.denied != 0) 8 + b (l.shots.any fun h => h.miss != 0) 9
    + b u.later 10 + b l.lowConf 11

/-- The line record of a unit (R285). DEDUCED (log 53). -/
def State.lineRecord (l : LineRec) (u : OutUnit) (npts : Nat) (s : State) : List Byte :=
  [0x01, 1] ++ leBytes 2 (s.lineStatus l u) ++ leBytes 4 l.frame.toNat ++ leBytes 4 l.seq.toNat
    ++ leBytes 8 l.label.toNat ++ leBytes 4 l.era
    ++ leBytes 1 (if l.train then l.code else 0) ++ leBytes 1 (if l.train then l.len else 0)
    ++ leBytes 2 (min 65535 l.shots.length) ++ leBytes 2 npts ++ leBytes 2 (l.desc + 4096 * l.easel)

/-- A line that nothing refers to any more is forgotten: it has ended, its digest and its units are complete, SCAN_DSM_LAST has reached it, and no bank
that overlaps it accumulates. -/
def State.lineOver (l : LineRec) (s : State) : Bool :=
  l.dig == allChans && !s.afterLast l.seq && l.own && !(s.outp.units.any fun u => u.line == l.seq) && !(s.hst.reads.any fun x => x.line == l.seq)
    && !(s.memc.jobs.any fun j => j.line == l.seq) && !before s.tick l.finish
    && (l.era != s.io.era || (List.range 32).all fun k => match (s.bank k).from_ with
      | some f => !before f l.finish
      | none => false)

/-- DEDUCED (log 54). -/
def State.pruneLines (s : State) : State := s.scan' fun c => { c with lines := c.lines.filter fun l => !s.lineOver l }

/-- The oldest unit is complete: its line record and points are placed whole into the ring of its line's easel, or
dropped whole (R284, R298, R305). -/
def execLineUnitPlace (s : State) : Res :=
  match s.outp.units with
  | [] => ok s
  | u :: rest =>
    if u.done ≠ u.sectors || s.restarting 12
        || (List.range 32).any (fun k => (s.swapTicks k).any fun t => t == u.stop && u.sectors != 0) then ok s
    else match s.lineOf u.line with
      | none => ok (s.outp' fun o => { o with units := rest })
      | some l =>
        let pts := u.points.flatMap Prod.snd
        let recs := s.lineRecord l u pts.length :: pts.map PointRec.bytes
        let s1 := ((s.outp' fun o => { o with units := rest }).set Fd.OUTP_LAST_LINE_SEQ l.seq.toNat).count 12 Src.OUTP_LINES 0 1
        let s2 := s1.each u.points fun y s => s.count 12 Src.OUTP_POINTS y.1 y.2.length
        let s3 := s2.onlyIf u.later fun s => (s.set Fd.OUTP_STAT_SPLIT 1).count 12 Src.OUTP_SPLIT 0 1
        let s4 := if s3.ringRoom l.ring (recs.map List.length) then s3.putItem l.ring recs
          else ((s3.dropItem l.ring).set Fd.OUTP_STAT_LINE_DROP 1).count 12 Src.OUTP_LINE_DROP 0 1
        ok s4.pruneLines

end Sys2Proof.Machine
end

