-- ==== Sys2Proof/Machine/Oven.lean ====
section
/-!
DEFINITION. The update of the oven loop (R57 to R61), which takes its ratio from sense chains 0 and 1 (R361).
-/
namespace Sys2Proof.Machine

/-- The loop takes TBAS_OVN_CTL as it stands (R81): its excitation may start, stop or change its current, which moves the settle point of
the sense chains concerned (R357). DEDUCED (log 26). -/
def State.ovenLatch (s : State) : State :=
  let s1 := s.tbas' fun b => { b with ovenCtl := s.reg Fd.TBAS_OVN_CTL_EN.off }
  ((s1.each [16, 17, 18, 19] fun k x => if State.senseMoved s s1 k then x.moveSettle k s.tick else x)).each [0, 1]
    (State.varnishSource s)

/-- The ratio that an update measures: the settled pairs since the last one, decimated.  The spec does not give the filter: any value
from the least to the greatest of the ten ratios. DESIGN CHOICE (log 102). -/
def State.ovenRatio (s : State) : Option Nat × State :=
  match s.tbas.ratios with
  | [] => (none, s)
  | r :: l =>
    let lo := l.foldl min r
    let (n, s1) := s.drawNat (l.foldl max r - lo + 1)
    (some (lo + n), s1.tbas' fun b => { b with ratios := [] })

/-- A thermistor or reference wire is open (R59): its source is in compliance. -/
def State.ovenOpen (s : State) : Bool :=
  s.ovenDrives && (s.is (Fd.MONI_XS_STAT_COMPL.bit 0) || s.is (Fd.MONI_XS_STAT_COMPL.bit 1))

/-- One update of the oven loop (R57, R59): the latest measured ratio is stored whatever the loop does, and the times are counted; without a
settled pair the duty is held (R361). DEDUCED (log 26). -/
def execOvenUpdate (s : State) : Res :=
  if !s.tbas.ovenOn then ok s
  else
    let (ratio, s0) := s.ovenLatch.ovenRatio
    let s1 := match ratio with
      | some r => s0.set Fd.TBAS_OVN_MEAS_RATIO r
      | none => s0
    let short := match ratio with
      | some r => decide (r * 64 < s.get Fd.TBAS_OVN_SET_SETPT)
      | none => false
    let s2 := if !s.is Fd.TBAS_OVN_CTL_EN || s.tbas.ovenHeld then s1.heat 0
      else if s1.ovenOpen || short then s1.ovnFault
      else match ratio with
        | some r => s1.ovenLaw r
        | none => s1
    ok s2.ovenCount

end Sys2Proof.Machine
end

