-- ==== Sys2Proof/Machine/PciCfg.lean ====
section
/-!
DEFINITION. The configuration spaces of PF0 and PF1 (R293, R294): what a configuration read returns and what a write does, with the DOE
mailbox of PF1.  The features are the manual's; the places of the registers are those of PCI Express. PRESUMED (log 92).
-/
namespace Sys2Proof.Machine

/-- The window is a configuration space. -/
def isCfg : Space → Bool
  | .cfg0 | .cfg1 => true
  | .bar0 | .bar2 | .pf1 => false

/-! ## Reads -/

/-- The 64-bit Device Serial Number: the first 8 bytes of the UEID, which begins with 0x01 (R293, R405). PRESUMED (log 92). -/
def serialNumber : Nat := 1 + 256 * (Config.ueid.toNat % 2 ^ 56)

/-- Subsystem Vendor ID and Subsystem ID (R294). DEDUCED (log 96). -/
def State.subsystemWord (s : State) : Word :=
  match s.host.subsystem with
  | some (id, vendor) => BitVec.ofNat 32 (65536 * id.toNat + vendor.toNat)
  | none => 0

/-- The word a configuration read returns; a register that is not implemented reads 0. PRESUMED (log 92). -/
def State.cfgRead (a : Nat) (s : State) : Word :=
  let pf1 := decide (0x06010000 ≤ a)
  let o := a % 0x10000
  if o = 0 then BitVec.ofNat 32 (65536 * (if pf1 then 0x1025 else 0x1024) + Config.vendorId.toNat)
  else if o = 0x2C then s.subsystemWord
  else if o = 0x80 then
    s.reg a ||| BitVec.ofNat 32 (65536 * s.get Fd.HOST_LINK_STAT_SPEED + 1048576 * s.get Fd.HOST_LINK_STAT_WIDTH)
  else if o = 0x14C then BitVec.ofNat 32 serialNumber
  else if o = 0x150 then BitVec.ofNat 32 (serialNumber / 2 ^ 32)
  else if pf1 && o == 0x174 then s.host.doe.rsp.headD 0
  else s.reg a

/-! ## DOE (R293) -/

/-- The object that DOE Discovery returns for an index: DOE Discovery itself, CMA/SPDM, or no such index. -/
def doeProtocol (i : Nat) : Word :=
  match i with
  | 0 => 0x01000001
  | 1 => 0x00010001
  | _ => 0x0000FFFF

/-- GO: the object written is DOE Discovery, answered at once; CMA/SPDM, which the Responder answers (R407); or of another protocol, and
discarded.  A wrong length is an error. PRESUMED (log 92). -/
def State.doeGo (s : State) : State :=
  let q := s.host.doe.req
  let s1 := s.host' fun h => { h with doe := { h.doe with req := [] } }
  match q with
  | h :: len :: rest =>
    let kind := h.toNat % 2 ^ 24
    if len.toNat % 2 ^ 18 ≠ q.length then s1.set Fd.CFG_DOE_ERROR 1
    else if kind = 0x000001 then
      ((s1.host' fun h => { h with doe := { h.doe with rsp := [1, 3, doeProtocol ((rest.headD 0).toNat % 256)] } }).set
        Fd.CFG_DOE_READY 1).doeInterrupt
    else if kind = 0x010001 then s1.set Fd.CFG_DOE_BUSY 1
    else s1
  | _ => s1.set Fd.CFG_DOE_ERROR 1

/-- DOE Control: abort, the interrupt's enable, GO; GO is ignored while an object is in hand. -/
def State.doeControl (v : Word) (s : State) : State :=
  let s1 := s.set Fd.CFG_DOE_IEN (bitsOf v 1 1)
  if v.getLsbD 0 then
    (s1.host' fun h => { h with doe := {} }).set Fd.CFG_DOE_BUSY 0 |>.set Fd.CFG_DOE_ERROR 0 |>.set Fd.CFG_DOE_READY 0
  else if v.getLsbD 31 && !s.is Fd.CFG_DOE_BUSY && !s.is Fd.CFG_DOE_READY then s1.doeGo
  else s1

/-- A word of an object is written; the object has at most 16 KiB. -/
def State.doeWrite (v : Word) (s : State) : State :=
  if s.host.doe.req.length < 4096 then s.host' fun h => { h with doe := { h.doe with req := h.doe.req ++ [v] } }
  else s.set Fd.CFG_DOE_ERROR 1

/-- The word of the response that stands in the read mailbox has been read. -/
def State.doePop (s : State) : State :=
  (s.host' fun h => { h with doe := { h.doe with rsp := h.doe.rsp.tail } }).onlyIf (decide (s.host.doe.rsp.length ≤ 1))
    (State.set Fd.CFG_DOE_READY 0)

/-! ## Writes -/

/-- A vector is no longer masked: a message that was pending goes (R311). DEDUCED (log 86). -/
def State.unmask (pf1 : Bool) (v : Nat) (s : State) : State :=
  if !s.io.vecMasked pf1 v ∧ s.get (msixPend pf1 v) = 1 then
    s.io' fun x => Io.settleIrq ((x.set (msixPend pf1 v) 0).message pf1 v)
  else s

/-- The register after a write by its access types; one that is not implemented takes none. -/
def State.cfgLive (a : Nat) (v : Word) (s : State) : State :=
  match findRow a with
  | some (row, _) => s.put a (liveWord row v 0 (s.reg a))
  | none => s

/-- A configuration write: Bus Master Enable and the power state stop PF0's rings (R309), Initiate Function Level Reset resets the
function (R317), a write to MSI-X control releases pending messages, PTM Enable takes part in R60. PRESUMED (log 92). -/
def State.cfgWrite (a : Nat) (v : Word) (s : State) : Res :=
  let pf1 := decide (0x06010000 ≤ a)
  let o := a % 0x10000
  let t := s.cfgLive a v
  if o = 0x04 then
    ok (t.onlyIf (!pf1 && s.is (Fd.CFG_CMD_BME false) && !t.is (Fd.CFG_CMD_BME false)) (State.stopRings 3))
  else if o = 0x44 then
    if bitsOf v 1 0 = 1 ∨ bitsOf v 1 0 = 2 then ok s
    else ok (t.onlyIf (!pf1 && s.get (Fd.CFG_PM_STATE false) == 0 && t.get (Fd.CFG_PM_STATE false) != 0) (State.stopRings 4))
  else if o = 0x78 ∧ v.getLsbD 15 then execFlr pf1 s
  else if o = 0xB0 then ok (t.each (List.range (if pf1 then 32 else 224)) (State.unmask pf1))
  else if o = 0x168 then ok (if pf1 then s.doeControl v else t.showWarm)
  else if pf1 ∧ o = 0x170 then ok (s.doeWrite v)
  else if pf1 ∧ o = 0x174 then ok s.doePop
  else ok t

end Sys2Proof.Machine
end

