-- ==== Sys2Proof/Machine/SafeIsland.lean ====
section
/-!
DEFINITION. The commands of SAFE (R369 to R388): causes, the reset input, the switch test, messages.
-/
namespace Sys2Proof.Machine

/-- Milliseconds in ticks (R67). -/
def msTicks (n : Nat) : Wide := usTicks (1000 * n)

/-! ## Detections (R375) -/

/-- Channel A's watchdog expires (R371, R375): an image on trial is reverted (R461).  The check is suspended in DOZE (R443). DEDUCED (log 66). -/
def execWdogA (s : State) : Res :=
  s.whenOn fun s =>
  let t := s.safe.servedAt + msTicks (s.ownB Fd.SAFE_PROF_T_WDOG)
  if s.safe.suspended || !s.clockOk t then ok s
  else ok (((s.clockReach t).safe' fun x => { x with serviced := false }).cause 3).decideRevert

/-- SAFE_WDOG.SERVICE, cleared in the next cycle (R369, R378). -/
def execSafeWdogService (s : State) : Res := s.writeBy .firmware Fd.SAFE_WDOG_SERVICE.off fun s => ok (s.safe' fun x => { x with serviced := true, servedAt := s.tick })

/-- A channel's copy has read `copy` for 1 ms where the other's reads another state, its switch following it alone (R369); the check is suspended in
DOZE (R443). DEDUCED (log 108). -/
def execChDisagree (chanB : Bool) (copy : BitVec 3) (s : State) : Res :=
  s.whenOn fun s =>
  let mine := if chanB then Fd.SAFE_STAT_B_STATE else Fd.SAFE_STAT_A_STATE
  let other := if chanB then Fd.SAFE_STAT_A_STATE else Fd.SAFE_STAT_B_STATE
  if s.safe.suspended || copy.toNat == s.get other then ok s
  else
    let s1 := s.set mine copy.toNat
    ok ((if chanB then s1.driveLs else s1.driveHs).switched.cause 2)

/-- T_MSG passes without a renewing PERMIT (R385). -/
def execMsgTimeout (s : State) : Res :=
  s.whenOn fun s =>
  let t := s.safe.permitAt + msTicks (s.get Fd.SAFE_PROF_T_TMSG)
  if !s.clockOk t then ok s
  else if s.armed then ok ((s.clockReach t).cause 5)
  else if s.safeSt = stTESTING then ok (s.clockReach t).enterStopped
  else ok s

/-- A feedback differs from its command for 200 µs. -/
def execSwStuckHs (s : State) : Res :=
  s.whenOn fun s =>
  let fb := !s.is Fd.SAFE_STAT_HS_EN
  ok ((s.cause 6).setBit Fd.SAFE_STAT_HS_FB fb)

def execSwStuckLs (s : State) : Res :=
  s.whenOn fun s =>
  let fb := !s.is Fd.SAFE_STAT_LS_EN
  ok ((s.cause 7).setBit Fd.SAFE_STAT_LS_FB fb)

/-- LSW_VSNS has been at `mv` for 1 ms: the supply is present with either switch commanded open (R370). -/
def execSupplyPresent (mv : BitVec 16) (s : State) : Res :=
  s.whenOn fun s =>
  if s.switchesClosed || !s.supplySeen mv then ok s else ok ((s.cause 8).set Fd.SAFE_STAT_VSNS 1)

/-! ## SAFE_RST_N (R379, R380) -/

def execSafeRstFall (s : State) : Res := s.whenOn fun s => ok (s.set Fd.SAFE_RST_STAT_LOW 1)

/-- SAFE_RST_N has been low for more than 5 s. -/
def execRstStuck (s : State) : Res := if s.is Fd.SAFE_RST_STAT_LOW then ok (s.cause 11) else ok s

/-- A low is valid from 10.0 ms to 5 s, as channel B measures it in µs (R379). -/
def validLow (us : Nat) : Bool := decide (10000 ≤ us ∧ us ≤ 5000000)

/-- A rising edge (R380): accepted in state 4 after a valid low with every latched cause clear, into INIT; otherwise
ignored and counted, and EARLY is set in state 4 with a cause not clear.  `clearing` holds the causes whose condition ends in the
same cycle: they count as not clear. DEDUCED (log 66). -/
def execSafeRstRise (low : Nat) (clearing : BitVec 12) (s : State) : Res :=
  if !s.is Fd.SAFE_RST_STAT_LOW then ok s
  else
    let s1 := (s.set Fd.SAFE_RST_STAT_LOW 0).each ((List.range 12).filter clearing.toNat.testBit) State.clearCause
    let pending := s.get Fd.SAFE_CAUSE_CAUSE &&& s.get Fd.SAFE_NOW_NOW
    if s.safeSt = stSAFE ∧ validLow low ∧ pending = 0 then
      ok ((s1.set Fd.SAFE_CAUSE_CAUSE 0 |>.setSafeSt stINIT).safe' fun x => { x with testStep := 0 })
    else
      ok ((s1.bumpSat Fd.SAFE_RST_STAT_IGNORED 1).onlyIf (s.safeSt == stSAFE && pending != 0)
        (State.set Fd.SAFE_RST_STAT_EARLY 1))

/-- A latched cause's condition ends after its hold time (R378). -/
def execCauseClear (bit : Fin 12) (s : State) : Res := ok (s.clearCause bit)

/-- The firmware clears SCAN_LEDG_STAT.VIOL (R378). -/
def execViolClear (s : State) : Res :=
  s.writeBy .firmware Fd.SCAN_LEDG_STAT_VIOL.off fun s =>
  ok ((s.set Fd.SCAN_LEDG_STAT_VIOL 0).scan' fun c => { c with violHeld := false })

/-! ## The switch test (R373) -/

/-- The causes of a failing check of step n: 6 the high side, 7 the low side, 8 the supply. DEDUCED (log 66). -/
def testFails (init : Bool) (n : Nat) (hs ls v : Bool) : List Nat :=
  match n with
  | 2 => (if ls then [] else [7]) ++ (if v then [8] else [])
  | 4 => if ls then [7] else []
  | 5 => (if hs then [] else [6]) ++ (if v then [8] else [])
  | 7 =>
    if init then (if hs then [6] else [])
    else (if hs then [] else [6]) ++ (if ls then [] else [7]) ++ (if hs && ls && !v then [8] else [])
  | _ => []

/-- The test passes: INIT to STOPPED, or to SAFE with a cause present; TESTING to ARMED, the supply ramping from VMIN
(R372 to R374). -/
def State.testPassed (init : Bool) (s : State) : State :=
  if init then (if s.get Fd.SAFE_NOW_NOW = 0 then s.enterStopped else s.enterSafe (s.get Fd.SAFE_FIRST_BIT))
  else
    let s1 := (s.setSafeSt stARMED).safe' fun x => { x with testStep := 0 }
    (s1.set Fd.EMIT_LSUP_STAT_VREF (s.get Fd.EMIT_LSUP_VLIM_VMIN)).count 18 Src.SAFE_ARMINGS 0 1

/-- The time of step n of the test in µs (R373). -/
def testTime (init : Bool) (n : Nat) : Nat :=
  match n with
  | 1 => 0
  | 2 => 200
  | 3 => 500
  | 4 => 700
  | 5 => 900
  | 6 => 1200
  | _ => if init then 1400 else 3200

/-- A failed check leaves what it read of a stuck switch, or of the supply (R373, R393). -/
def State.asRead (bs : List Nat) (hsFb lsFb vsns : Bool) (s : State) : State :=
  (s.onlyIf (bs.contains 6) (State.setBit Fd.SAFE_STAT_HS_FB hsFb)).onlyIf (bs.contains 7) (State.setBit Fd.SAFE_STAT_LS_FB lsFb)
    |>.onlyIf (bs.contains 8) (State.setBit Fd.SAFE_STAT_VSNS vsns)

/-- Step 7 of TESTING comes later than 2 ms after step 6 (R373). -/
def State.testLate (due : Wide) (s : State) : Bool := s.tbas.running && before due s.tick

/-- One timed step of the switch test, with the feedbacks as they read and the sense in mV; the first starts the test, and the last
check of TESTING is good at any time within its limit, after which the supply is not in time. DEDUCED (log 66). -/
def execSwitchTestStep (hsFb lsFb : Bool) (mv : BitVec 16) (s : State) : Res :=
  s.whenOn fun s =>
  let vsns := s.supplySeen mv
  let init := s.safeSt == stINIT
  if !init && s.safeSt != stTESTING then ok s
  else
    let n := s.safe.testStep + 1
    let due := s.safe.testAt + usTicks (testTime init n)
    let late := n == 7 && !init && s.testLate due
    let bad := testFails init n hsFb lsFb (vsns && !late)
    let timed := decide (1 < n) && !late && !(n == 7 && !init && bad.isEmpty)
    if timed && !s.clockOk due then ok s
    else
    let s0 := if timed then s.clockReach due else if n = 1 then s.safe' fun x => { x with testAt := s.tick } else s
    let s1 := s0.setBit Fd.SAFE_STAT_HS_FB hsFb |>.setBit Fd.SAFE_STAT_LS_FB lsFb |>.setBit Fd.SAFE_STAT_VSNS vsns
    match bad with
    | [] =>
      if 7 ≤ n then ok (s1.testPassed init)
      else
        let s2 := s1.safe' fun x => { x with testStep := n }
        ok (if n = 2 ∨ n = 5 then s2 else s2.drive)
    | bs => ok ((s1.each bs fun b s => s.causeWith b 0x1282).asRead bs hsFb lsFb vsns)

/-! ## Messages (R382 to R388) -/

/-- The host hands a PDU copy to channel A, which takes it, or does so when it starts (R386): a GO while BUSY is ignored and sets DROP. DEDUCED (log 67). -/
def execSmRxGo (s : State) : Res :=
  s.writeBy .host Fd.SM_RX_CTL_GO.off fun s =>
  if s.is Fd.SM_RX_STAT_BUSY then ok (s.set Fd.SM_RX_STAT_DROP 1)
  else if s.chanA then ok s.takePdu
  else ok (s.set Fd.SM_RX_CTL_GO 1 |>.set Fd.SM_RX_STAT_BUSY 1)

/-- The controller takes a frame (R387): one with the receive identifier, an XL frame with SDT and acceptance field of the profile too. -/
def State.canTakes (fmt : CanFormat) (id : BitVec 11) (sdt : Byte) (af : Word) (s : State) : Bool :=
  let c := s.safe.can
  id.toNat == c.rxId && (fmt != .xl32 || (sdt.toNat == c.sdt && af.toNat == c.af))

/-- Channel B's controller receives a frame, unless it is off the bus (R387): XL and FD frames of 32 bytes with the receive identifier carry a PDU;
another length is discarded and counted CRC; frames of an unused kind or for others are ignored. DEDUCED (log 67). -/
def execCanFrameRx (fmt : CanFormat) (id : BitVec 11) (sdt : Byte) (af : Word) (p : Pdu) (s : State) : Res :=
  s.whenOn fun s =>
  if s.is Fd.SAFE_CAN_STAT_BUSOFF then ok s
  else
    let s1 := s.canGoodRx
    if !s.canTakes fmt id sdt af then ok s1
    else
      match fmt with
      | .xl32 | .fd32 => ok (s1.receiveCopy true p)
      | .otherLength => ok (s1.countDiscard true 1)
      | .unused => ok s1

/-- A copy's partner has not arrived within 20 ms (R383). -/
def execPduUnpaired (chanB : Bool) (src : BitVec 16) (seq : Word) (s : State) : Res :=
  let mine := if chanB then s.safe.waitB else s.safe.waitA
  match mine.find? (Copy.of src seq) with
  | none => ok s
  | some q =>
    let t := q.at_ + msTicks 20
    if !s.clockOk t then ok s
    else ok (((s.clockReach t).safe' fun x => if chanB then { x with waitB := mine.erase q } else { x with waitA := mine.erase q }).countUnpaired)

/-- A pair of good copies is fresh and its source listed (R383). -/
def State.fresh (src : Nat) (seq : Word) (stamp : Wide) (s : State) : Bool := s.listed src && !s.stale src seq stamp

/-- Two equal copies of a message arrive at once (R383): each channel checks its own, and discards and counts it; a good pair is accepted. -/
def State.agree (src : Nat) (seq : Word) (stamp : Wide) (act : State → State) (s : State) : State :=
  if !s.listed src then (s.countDiscard false 2).countDiscard true 2
  else if s.stale src seq stamp then (s.countDiscard false 3).countDiscard true 3
  else act (s.acceptPair src seq stamp)

/-- An agreed PERMIT (R384): one of another source is counted BADTYPE; a STOP accepted in the same cycle, from the source, with the SEQ and the
STAMP given, wins (R385). DEDUCED (log 67). -/
def execPermit (src : BitVec 16) (seq : Word) (stamp : Wide) (permitBit : Bool) (zset : BitVec 2)
    (withStop : Option (BitVec 16 × Word × Wide)) (s : State) : Res :=
  s.whenOn fun s =>
  let (s1, stopped) := match withStop with
    | some (a, b, c) => (s.agree a.toNat b c State.actStop, s.fresh a.toNat b c)
    | none => (s, false)
  ok (s1.agree src.toNat seq stamp fun s =>
    if src.toNat ≠ s.permitSrc then s.bumpSat Fd.SAFE_MSG_CNT1_BADTYPE 1
    else if stopped then s
    else s.actPermit permitBit zset.toNat)

/-- An agreed STOP (R384). DEDUCED (log 67). -/
def execStop (src : BitVec 16) (seq : Word) (stamp : Wide) (s : State) : Res :=
  s.whenOn fun s => ok (s.agree src.toNat seq stamp State.actStop)

/-- The STATUS PDU that a channel assembles (R388): STATE, ZALARM and the rest of its own, the ledger's byte, one shared SEQ and STAMP. DEDUCED (log 67). -/
def State.statusOf (chanB : Bool) (byte : Nat) (stamp : Wide) (s : State) : Pdu :=
  let payload := leBytes 1 (s.get (if chanB then Fd.SAFE_STAT_B_STATE else Fd.SAFE_STAT_A_STATE)) ++ leBytes 1 byte
    ++ leBytes 2 (s.get Fd.SAFE_CAUSE_CAUSE) ++ leBytes 1 (s.zones chanB).alarms ++ leBytes 1 (s.get Fd.SAFE_STAT_ZSET)
    ++ leBytes 2 ((rd (fun _ => 0) s.safe.seqLast s.permitSrc).toNat % 65536) ++ leBytes 4 s.safe.lastFrame.toNat
  let p0 : Pdu := { version := 1, mtype := 0x81, src := BitVec.ofNat 16 (s.get (Fd.SAFE_PROF_SRC_SRC 4))
                    seq := s.safe.seqTx + 1, stamp := stamp, payload := BitVec.ofNat 96 (leNat payload), crc := 0 }
  { p0 with crc := crc32c (pduBody p0) }

/-- Both channels send a STATUS PDU with STAMP `stamp` (R388), channel B on CAN and channel A, if it acts, to the mailbox: byte 17 is free while no
limit is set. DESIGN CHOICE (log 68). -/
def State.sendStatus (stamp : Wide) (s : State) : State :=
  let (byte, s0) := match s.ledgerByte with
    | some b => (b, s)
    | none => s.drawNat 256
  let s1 := s0.safe' fun x => { x with seqTx := x.seqTx + 1, statusDue := none }
  (s1.sendCan (s.statusOf true byte stamp)).onlyIf s.chanA (State.postStatus (s.statusOf false byte stamp))

/-- A STATUS PDU goes out (R388): for a change, stamped with the tick of the change, or TSTAT after the last periodic one. DEDUCED (log 67). -/
def execSafeStatusPdu (s : State) : Res :=
  s.whenOn fun s =>
  match s.safe.statusDue with
  | some t => ok (s.sendStatus t)
  | none =>
    let due := s.safe.txAt + msTicks (s.get Fd.SAFE_PROF_T_TSTAT)
    if !s.clockOk due then ok s
    else
      let s1 := s.clockReach due
      ok ((s1.sendStatus s1.tick).safe' fun x => { x with txAt := s1.tick })

/-- POP removes the oldest STATUS PDU (R386). -/
def execSmTxPop (s : State) : Res := s.writeBy .host Fd.SM_TX_CTL_POP.off fun s => ok ((s.safe' fun x => { x with smTx := x.smTx.drop 1 }).showTx)

end Sys2Proof.Machine
end

