-- ==== Sys2Proof/Machine/Tiu.lean ====
section
/-!
DEFINITION. The stops of the TIU (R73 to R76), and the events that wait for them (R227).
-/
namespace Sys2Proof.Machine

/-- A crossing of stop m that its comparator reports, `raw` quarter ticks after F as the interpolator corrects it: it is counted (R352), and
within the window it gives d = raw − MDLY, with MDLY as in force at F; a crossing outside the window, or after the first, is ignored (R73,
R74). DEDUCED (log 33). -/
def execTiuStop (m : Fin 16) (raw : BitVec 16) (s0 : State) : Res :=
  match s0.tbas.shot with
  | none => ok s0
  | some t =>
    if !s0.reportsCrossing m (t.fire + BitVec.ofNat 64 (raw.toNat / 4)) then ok s0 else
    let s := s0.bump (Fd.MONI_IN_STAT_XINGS m) 1
    if t.stops.testBit m && decide (512 * t.opens ≤ raw.toNat ∧ raw.toNat ≤ 512 * t.closes) then
      let d : Int := (raw.toNat : Int) - s.getAt t.fire (Fd.TBAS_TIU_MDLY_MDLY m)
      let s1 := (s.closeStop m |>.tiuLast m d t.diag false |>.count 1 Src.TBAS_TIU_SHOTS m 1).emission t m d false
      ok (if t.diag then s1 else s1.measure m d).releaseEvents
    else ok s

/-- The window of stop m closes without a crossing (R76). -/
def execTiuMiss (m : Fin 16) (s : State) : Res :=
  match s.tbas.shot with
  | none => ok s
  | some t => if t.stops.testBit m then ok (s.missStop t m).releaseEvents else ok s

end Sys2Proof.Machine
end

