-- ==== Sys2Proof/Machine/RegWrite.lean ====
section
/-!
DEFINITION. Accesses to the register space that have no row of their own (R28 to R37, R295, R296): the write of a live
register by its access type, the read, and the way a write takes to the meaning of a row that its location belongs to.
-/
namespace Sys2Proof.Machine

/-! ## The windows (R295) -/

/-- The size of a window. -/
def spaceSize : Space → Nat
  | .bar0 => 0x04000000
  | .bar2 => 0x00100000
  | .pf1 => 0x00010000
  | .cfg0 | .cfg1 => 0x00001000

/-- An accessor that reaches a window: the host reaches all, the firmware and the JTAG port BAR0's map, scan programs none
(R30, R100). -/
def reaches (who : Actor) (sp : Space) : Bool :=
  match who with
  | .host => true
  | .firmware | .jtag => sp == .bar0
  | .scan _ => false

/-- The registers of ring r at 0x100 × r of BAR2 are those of HOST block 2. -/
def homeAddr (a : Nat) : Nat := if 0x04000000 ≤ a ∧ a < 0x04000E00 then 0x01A20000 + (a - 0x04000000) else a

/-- A register that only takes writes (R32). -/
def RegRow.writeOnly (r : RegRow) : Bool := r.fields.all fun f => f.acc == .wo

/-! ## Access types (R34, R36) -/

/-- A live field would take an encoding its table marks reserved (R6). DEDUCED (log 18). -/
def RegRow.badWrite (r : RegRow) (v : Word) : Bool :=
  r.fields.any fun f => f.acc == .rw && f.reserved (bitsOf v f.hi f.lo)

/-- The frequency of the root clock of an island in Hz; none for TCK (R427, R435). -/
def islandHz (i point : Nat) : Option Nat :=
  if i = 0 then some 1000000 else if i = 1 ∨ i = 39 then some 200000000 else if i = 2 then some 40000000
  else if i = 4 then some 4000000000 else if 5 ≤ i ∧ i ≤ 8 then some 402832031
  else if 13 ≤ i ∧ i ≤ 20 then
    some (if point = 0 then 1200000000 else if point = 1 then 1000000000 else if point = 2 then 800000000 else 500000000)
  else if i = 21 ∨ i = 37 then some 800000000 else if 22 ≤ i ∧ i ≤ 31 then some 500000000
  else if i = 36 then some 1200000000 else if i = 38 then some 400000000 else if i = 40 then some 20480000
  else if i = 41 ∨ i = 43 then some 50000000 else if i = 42 then some 100000000 else if i = 44 then some 160000000
  else if i = 45 then some 80000000 else if i = 46 then none else some 1000000000

/-- A setting of CHIP_CLKOUT whose output would exceed 200 MHz (R431). -/
def State.clkoutTooFast (v : Word) (s : State) : Bool :=
  match islandHz (bitsOf v 5 0) s.point with
  | some f => decide (200000000 * (bitsOf v 19 8 + 1) < f)
  | none => false

/-- The index of a location in an array of n registers. -/
def inArray (a base stride n : Nat) : Option Nat :=
  if base ≤ a ∧ (a - base) % stride = 0 ∧ (a - base) / stride < n then some ((a - base) / stride) else none

/-- HOST_IRQ_MAP would name a vector past its function's table (R6, R311). -/
def badVector (a : Nat) (v : Word) : Bool :=
  (inArray a 0x01A10100 4 64).isSome && decide ((if v.getLsbD 8 then 32 else 224) ≤ bitsOf v 7 0)

/-- A write of a live register that is ignored whole (R6, R311, R431). DEDUCED (log 18). -/
def State.reservedWrite (r : RegRow) (a : Nat) (v : Word) (s : State) : Bool :=
  r.badWrite v || badVector a v || (a == Fd.CHIP_CLKOUT_SEL.off && s.clkoutTooFast v)

/-- The hardware's updates of RW fields that a software write of the same cycle wins over (R36). DESIGN CHOICE (log 88). -/
def RegRow.conflicts (r : RegRow) (hw : Word) : Nat :=
  (r.fields.filter fun f => f.acc == .rw && bitsOf hw f.hi f.lo != 0).length

/-- Count lost updates in the block of a location. DESIGN CHOICE (log 88). -/
def State.lostUpdates (a n : Nat) (s : State) : State :=
  s.io' fun x => { x with conflicts := wr (fun _ => 0) x.conflicts (a / 0x10000) (rd (fun _ => 0) x.conflicts (a / 0x10000) + n) }

/-! ## Writes -/

/-- Continue with the state a meaning has answered. -/
def andThen (r : Res) (f : State → Res) : Res :=
  match r with
  | .next s => f s
  | x => x

/-- A bit of the written word sets off a meaning. -/
def onBit (v : Word) (n : Nat) (f : State → Res) (r : Res) : Res := if v.getLsbD n then andThen r f else r

/-- A write on its way to its location. -/
structure Access where
  who : Actor
  a : Nat
  row : RegRow
  v : Word
  hw : Word

/-- The write by access type alone, without the bits of `skip`. -/
def Access.live (x : Access) (skip : Nat) (s : State) : Res :=
  ok (s.put x.a (liveWord x.row (x.v &&& ~~~(BitVec.ofNat 32 skip)) x.hw (s.reg x.a)))

/-- The staged bits of a register that has live ones too go to the sketch. -/
def Access.staged (x : Access) (s : State) : State := if x.row.staged then s.stage x.a x.v else s

/-- Registers every region has: the wide mailboxes, the tills (R51, R468). -/
def Access.common (x : Access) (s : State) : Res :=
  let r : Fin 19 := Fin.ofNat 19 (x.a / 0x200000)
  let o := x.a % 0x200000
  if o = 0x10 ∨ o = 0x30 then s.selectWide x.who (o == 0x30) r (BitVec.ofNat 16 x.v.toNat)
  else
    match inArray o 0xF0000 0x10 64, inArray o 0xF0004 0x10 64 with
    | some t, _ => execTillCfgWrite x.who r (Fin.ofNat 64 t) x.v (BitVec.ofNat 16 x.hw.toNat) s
    | none, some t => ok (s.setWide r (0x0F00 + t) (BitVec.ofNat 64 (x.v.toNat + x.hw.toNat)))
    | none, none => x.live 0 s

def Access.chip (x : Access) (s : State) : Res :=
  let go (n : Nat) (f : State → Res) : Res := onBit x.v n f (x.live (2 ^ n) s)
  if x.a = Fd.CHIP_PROOF_GO.off then go 0 (execProofGo x.who)
  else if x.a = Fd.CHIP_COMMIT_GO.off then
    onBit x.v 1 (execCommitAbort x.who) (onBit x.v 0 (execCommitGo x.who false) (x.live 3 s))
  else if x.a = Fd.CHIP_SNAP_GO.off then go 0 (execSnapGo x.who)
  else if x.a = Fd.CHIP_PWR_CTL_GO.off then go 4 (execPwrGo x.who)
  else if x.a = Fd.CHIP_DVFS_CTL_TARGET.off then execDvfsTarget x.who x.v s
  else if x.a = Fd.CHIP_ERR_STAT_CHIP_FAULT.off ∧ x.who = .firmware then go 0 execChipFaultClear
  else if x.a = Fd.CHIP_RESTART_CMD_GO.off then go 8 (execRestartCmd x.who)
  else x.common s

def Access.tbas (x : Access) (s : State) : Res :=
  if x.a = Fd.TBAS_OVN_STAT_OVN_FAULT.off then onBit x.v 13 (execOvnFaultClear x.who) (x.live 0x2000 s)
  else if x.a = Fd.TBAS_TB_STAT_PTM_DISAGREE.off then onBit x.v 5 (execPtmDisagreeClear x.who) (x.live 0x20 s)
  else if x.a = Fd.TBAS_TIU_CTL_NSTAT.off then execTiuCtlWrite x.who x.v s
  else if x.a = Fd.TBAS_PTM_CTL_EN.off then andThen (x.live 0 s) fun s => ok s.showWarm
  else x.common s

/-- Engine control (R109): RESET acts first, HALT prevails, then STEP. DEDUCED (log 19). -/
def Access.easelCtl (x : Access) (e : Fin 8) (s : State) : Res :=
  let r := onBit x.v 3 (execEaselReset e) (x.live 0xF s)
  if x.v.getLsbD 1 then andThen r (execEaselHalt e)
  else if x.v.getLsbD 2 then andThen r (execEaselStep x.who e)
  else onBit x.v 0 (execEaselRun e) r

/-- An easel's registers. -/
def Access.easel (x : Access) (e : Fin 8) (s : State) : Res :=
  let o := x.a % 0x10000
  if o = 0 then x.easelCtl e s
  else if o = 0x1C then
    andThen (x.live 0 s) fun t => ok (t.onlyIf (s.get (Fd.SCAN_EASEL_WDOG_LIMIT e) == 0) (State.wdogRestart e))
  else if o = 0x24 then execPmAddrWrite x.who e x.v s
  else if o = 0x28 then execPmDataWrite x.who e x.v s
  else if o = 0x30 then execDmDataWrite x.who e x.v s
  else x.live 0 s

def Access.scan (x : Access) (s : State) : Res :=
  if x.a = Fd.SCAN_START_MASK.off then execScanStart (BitVec.ofNat 8 x.v.toNat) s
  else if x.a = Fd.SCAN_SIG_SIG.off then execScanSigSet (BitVec.ofNat 16 x.v.toNat) s
  else if x.a = Fd.SCAN_SIG_CLR_SIG.off then
    execScanSigClear (BitVec.ofNat 16 x.v.toNat) (BitVec.ofNat 16 x.hw.toNat) s
  else if x.a = Fd.SCAN_LEDG_STAT_VIOL.off ∧ x.who = .firmware then onBit x.v 0 execViolClear (x.live 1 s)
  else if 0x00410000 ≤ x.a ∧ x.a < 0x00490000 then x.easel (Fin.ofNat 8 ((x.a - 0x00410000) / 0x10000)) s
  else x.common s

def Access.emit (x : Access) (s : State) : Res :=
  if x.a = Fd.EMIT_EW_STAT_GAVEUP.off then onBit x.v 5 (execGaveupClear x.who) (x.live 0x20 s)
  else if x.a = Fd.EMIT_LSUP_STAT_OV.off then onBit x.v 30 (execLsupOvClear x.who) (x.live 0x40000000 s)
  else x.common s

/-- The lanes and tile ports of region 4 + n. -/
def Access.lnk (x : Access) (s : State) : Res :=
  let n := (x.a - 0x00800000) / 0x200000
  let o := x.a % 0x200000
  let l : Fin 128 := Fin.ofNat 128 (32 * n + (o - 0x10000) / 0x400)
  let t : Fin 32 := Fin.ofNat 32 (8 * n + (o - 0x30000) / 0x100)
  if 0x10000 ≤ o ∧ o < 0x18000 then
    if o % 0x400 = 0 then
      onBit x.v 9 (execLaneRetrain l) (andThen (x.live 0x200 (x.staged s)) fun s => ok (s.freeze l))
    else if o % 0x400 = 0x20 then onBit x.v 0 (execEsGo l) (x.live 1 s)
    else x.live 0 s
  else if 0x30000 ≤ o ∧ o < 0x30800 then
    if o % 0x100 = 0 then onBit x.v 16 (execRelink t) (x.live 0x10000 (x.staged s))
    else if o % 0x100 = 0x20 then onBit x.v 17 (execTileRegGo t) (x.live 0x20000 s)
    else x.live 0 s
  else x.common s

def Access.hst (x : Access) (s : State) : Res :=
  let n : Fin 4 := Fin.ofNat 4 ((x.a - 0x01000000) / 0x200000)
  if x.a = (Fd.HST_SPARE_CMD_GO n).off then onBit x.v 16 (execStallRetireCmd n) (x.live 0x10000 s)
  else if (kernelAt x.a).isSome && (kernelMask (x.a % 0x100)).isSome then
    execKernelWrite x.who (BitVec.ofNat 32 x.a) x.v s
  else x.common s

/-- A ring's control register: EN enables or disables, RESUME leaves STOPPED (R308, R309). -/
def Access.ringCtl (x : Access) (r : Fin 14) (s : State) : Res :=
  let set (s : State) : Res :=
    ok (s.set (Fd.HOST_RING_CTL_DSZ r) (bitsOf x.v 7 4) |>.set (Fd.HOST_RING_CTL_IDLE r) (bitsOf x.v 31 16))
  let en := andThen (set s) (if x.v.getLsbD 0 then execRingEnable r else execRingDisable r false 0)
  onBit x.v 1 (execRingResume r) en

def Access.host (x : Access) (s : State) : Res :=
  match inArray x.a Fd.HOST_IRQ_CAUSE_LO_CAUSE.off 4 2, inArray x.a 0x01A20000 0x100 14 with
  | some k, _ =>
    execIrqCauseClear (BitVec.ofNat 64 (x.v.toNat * 2 ^ (32 * k))) (BitVec.ofNat 64 (x.hw.toNat * 2 ^ (32 * k))) s
  | none, some r => x.ringCtl (Fin.ofNat 14 r) s
  | none, none => if x.a = Fd.HOST_EXP_BW_RATE.off then x.live 0 s.drainStage else x.common s

/-- PF0 BAR2: the doorbells and PF0's MSI-X table. -/
def Access.bar2 (x : Access) (s : State) : Res :=
  match inArray x.a 0x04010000 0x1000 14, inArray x.a 0x04010004 0x1000 14, inArray x.a 0x0408000C 0x10 224 with
  | some r, _, _ => execDoorbellPost (Fin.ofNat 14 r) x.v s
  | none, some r, _ => onBit x.v 0 (execFlushDoorbell (Fin.ofNat 14 r) 0) (ok s)
  | none, none, some v => andThen (x.live 0 s) fun s => ok (s.unmask false v)
  | none, none, none => x.live 0 s

/-- PF1 BAR0: the mailboxes and PF1's MSI-X table. -/
def Access.pf1 (x : Access) (s : State) : Res :=
  if x.a = Fd.MBX_CTL_GO.off then onBit x.v 1 execMbxAbort (onBit x.v 0 execMbxGo (ok s))
  else if (inArray x.a 0x05001000 4 1028).isSome then if s.mbxBusy then ok s else x.live 0 s
  else if x.a = Fd.SM_RX_CTL_GO.off then onBit x.v 0 execSmRxGo (ok s)
  else if x.a = Fd.SM_TX_CTL_POP.off then onBit x.v 0 execSmTxPop (ok s)
  else
    match inArray x.a 0x0500C00C 0x10 32 with
    | some v => andThen (x.live 0 s) fun s => ok (s.unmask true v)
    | none => x.live 0 s

def Access.memc (x : Access) (s : State) : Res :=
  if x.a = Fd.MEMC_CAP_CMD_ARM.off then
    onBit x.v 2 execCapTrig (onBit x.v 1 execCapAbort (onBit x.v 0 execCapArm (ok s)))
  else if x.a = Fd.MEMC_CAP_PTC_PTC.off then andThen (x.live 0 s) fun s => ok s.clampPtc
  else if x.a = Fd.MEMC_STK_PUB_GO.off then onBit x.v 0 execMotionPublish (ok s)
  else if x.a = Fd.MEMC_SYNC_CMD_ARM.off then onBit x.v 1 execSyncDisarmCmd (onBit x.v 0 execSyncArmCmd (ok s))
  else x.common s

def Access.moni (x : Access) (s : State) : Res :=
  if x.a = Fd.MONI_SYNC_GO.off then onBit x.v 20 execMoniSync (x.live 0x100000 s)
  else
    match inArray x.a (Fd.MONI_HK_REQ_GO 0).off 8 2 with
    | some p => onBit x.v 9 (execHkReqGo (Fin.ofNat 2 p) false) (x.live 0x200 s)
    | none => x.common s

def Access.safe (x : Access) (s : State) : Res :=
  if x.a = Fd.SAFE_WDOG_SERVICE.off then onBit x.v 0 execSafeWdogService (ok s) else x.common s

/-- A write that is decoded, open and free of reserved encodings: the meaning of the row its location belongs to, or its
access type. -/
def Access.run (x : Access) (s : State) : Res :=
  match x.a / 0x200000 with
  | 0 => x.chip s
  | 1 => x.tbas s
  | 2 => x.scan s
  | 3 => x.emit s
  | 4 | 5 | 6 | 7 => x.lnk s
  | 8 | 9 | 10 | 11 => x.hst s
  | 13 => x.host s
  | 14 => x.memc s
  | 15 => x.moni s
  | 18 => x.safe s
  | 32 => x.bar2 s
  | 40 => x.pf1 s
  | _ => x.common s

/-- A register with no live field: a write is a write of the sketch (R38). -/
def RegRow.onlyStaged (r : RegRow) : Bool := r.staged && r.fields.all fun f => f.acc == .stg || f.acc == .ro

/-- The write reaches the register map (R31, R32, R38). DEDUCED (log 19). -/
def State.writeMap (who : Actor) (a0 : Nat) (v hw : Word) (s : State) : Res :=
  let a := homeAddr a0
  if isSketchView a && !isSecuClosed a then execStgWrite who (BitVec.ofNat 32 a) v s
  else if s.withheld who a true v then ok (s.accError ACC_DENIED a0)
  else
    match findRow a with
    | none => ok (s.accError ACC_RSVD_WR a0)
    | some (row, _) =>
      if row.onlyStaged then execStgWrite who (BitVec.ofNat 32 a) v s
      else if s.reservedWrite row a v then ok (s.accRecord RSVD_ENC a0)
      else Access.run { who := who, a := a, row := row, v := v, hw := hw } (s.lostUpdates a (row.conflicts hw))

/-- An access by an actor that does not reach the window cannot be made; one outside every BAR of the host's completes with
Unsupported Request, and a posted write has no completion (R295). DESIGN CHOICE (log 6). -/
def State.pastBar (who : Actor) (sp : Space) (off : Nat) (write : Bool) (s : State) : State :=
  s.onlyIf (!write && who == .host) (State.emit (.unsupported sp off))

/-- An access has a size that its location takes: one whole aligned double word, or in the MSI-X tables and PBAs an aligned quad word
(R31, R296). -/
def sizeFits (size : AccSize) (a : Nat) : Bool :=
  match size with
  | .dword => a % 4 == 0
  | .qword => a % 8 == 0 && ((inArray a 0x04080000 8 448).isSome || (inArray a 0x04081000 8 4).isSome
      || (inArray a 0x0500C000 8 64).isSome || (inArray a 0x0500D000 8 1).isSome)
  | .other => false

/-- A register write, granted by the fabric among the requests of its cycle: one that is not of a size the location takes is ACC_SIZE;
one that meets a closed gate is aborted (R28, R430).  `vhi`: the upper double word of a quad word. DESIGN CHOICE (log 6). DEDUCED (log 18, 19). -/
def execRegisterWrite (who : Actor) (sp : Space) (off : BitVec 32) (size : AccSize) (v vhi hw : Word) (rivals : List FabReq)
    (s : State) : Res :=
  let a := spaceKey sp off.toNat
  if !s.attends who then ok s
  else if spaceSize sp ≤ off.toNat || !reaches who sp then ok (s.pastBar who sp off.toNat true)
  else if isCfg sp then s.cfgWrite a v
  else
    let s := s.fabricGrant who rivals
    if !sizeFits size a then ok (s.accError ACC_SIZE a)
    else if s.gated a then ok (s.gateAbort who a true)
    else if size = .qword then andThen (s.writeMap who a v hw) (State.writeMap who (a + 4) vhi 0)
    else s.writeMap who a v hw

/-! ## Reads -/

/-- LSEL as the bus stands now: from 16 ns before a LINE tick it holds the next line's address (R139). -/
def State.lselNow (s : State) : Word :=
  let w := s.reg Fd.EMIT_LSEL_STAT_ADDR.off
  match s.scan.lines.find? fun l => !l.started with
  | some l =>
    if s.tbas.running && decide (0 ≤ ahead s.tick l.start ∧ ahead s.tick l.start ≤ 2048) then
      putBits w 5 0 (s.getAt l.start (Fd.SCAN_LD0_LSEL l.desc))
    else w
  | none => w

/-- The value a read returns (R34, R38): a counter above 32 bits gives its low word, SCAN_SIG_CLR the signals; what
follows the time is shown as it stands now; VALID reads 0 in a snapshot-mode region (R51). DEDUCED (log 18). -/
def State.readWord (a : Nat) (s : State) : Word :=
  if isSketchView a then s.sketchWord (normalAddr a) &&& BitVec.ofNat 32 (stagedMask (normalAddr a))
  else if a = Fd.SCAN_SIG_CLR_SIG.off then s.reg Fd.SCAN_SIG_SIG.off
  else if a = Fd.TBAS_TIME_LO_TIME_LO.off then (s.wideValue 1 0).truncate 32
  else if a = Fd.EMIT_LSEL_STAT_ADDR.off then s.lselNow
  else if a = Fd.SECU_DBG_LEFT.off ∨ a = Fd.MGMT_FW_STAT_LEFT.off then s.showLeft.reg a
  else if a = Fd.HOST_EXP_STAT_FILL.off then s.drainStage.reg a
  else if (a % 0x200000 = 0x1C ∨ a % 0x200000 = 0x3C) ∧ a < 0x02600000 ∧ s.is (Fd.RGN_CTL_SNAP_MODE (a / 0x200000)) then 0
  else
    match inArray (a % 0x200000) 0xF0004 0x10 64 with
    | some t => if a < 0x02600000 then BitVec.ofNat 32 (s.wideOf (a / 0x200000) (0x0F00 + t)).toNat else s.reg a
    | none => s.reg a

/-- A read ends with Completer Abort and a record (R32). -/
def State.badRead (who : Actor) (code a : Nat) (s : State) : Res := ok ((s.accError code a).emit (.abort who a))

/-- A location that a read finds reserved. -/
def reservedToRead (a : Nat) : Bool :=
  if isSketchView a then stagedMask (normalAddr a) == 0
  else
    match findRow a with
    | none => true
    | some (row, _) => row.writeOnly

/-- The read of an open location: the program and data windows move their pointers (R107). -/
def State.readMap (who : Actor) (a : Nat) (s : State) : Res :=
  match inArray a 0x00410028 0x10000 8, inArray a 0x00410030 0x10000 8 with
  | some e, _ => execPmDataRead who (Fin.ofNat 8 e) s
  | none, some e => execDmDataRead who (Fin.ofNat 8 e) s
  | none, none => ok (s.emit (.readData who a (s.readWord a)))

/-- A read of the register space: one of a reserved or withheld location is aborted and recorded; any other completes with
data. -/
def execReservedRead (who : Actor) (sp : Space) (off : BitVec 32) (size : AccSize) (rivals : List FabReq) (s : State) : Res :=
  let a0 := spaceKey sp off.toNat
  let a := homeAddr a0
  if !s.attends who then ok s
  else if spaceSize sp ≤ off.toNat || !reaches who sp then ok (s.pastBar who sp off.toNat false)
  else if isCfg sp then ok (s.emit (.readData who a0 (s.cfgRead a0)))
  else
    let s := s.fabricGrant who rivals
    if !sizeFits size a0 then s.badRead who ACC_SIZE a0
    else if s.gated a0 then ok (s.gateAbort who a0 false)
    else if s.withheld who (normalAddr a) false 0 then s.badRead who ACC_DENIED a0
    else if reservedToRead a then s.badRead who ACC_RSVD_RD a0
    else if size = .qword then andThen (s.readMap who a) (State.readMap who (a + 4))
    else s.readMap who a

end Sys2Proof.Machine
end

