-- ==== Sys2Proof/Machine/Dispatch.lean ====
section
/-!
DEFINITION. The dispatch of a command to its meaning: one arm per constructor of `Instr`.
-/
namespace Sys2Proof.Machine

def exec (i : Instr) (s : State) : Host.Outcome State Fault Refusal :=
  match i with
  | .registerWrite who sp off size v vhi hw rivals => Sys2Proof.Machine.execRegisterWrite who sp off size v vhi hw rivals s
  | .reservedRead who sp off size rivals => Sys2Proof.Machine.execReservedRead who sp off size rivals s
  | .stgWrite who off v => Sys2Proof.Machine.execStgWrite who off v s
  | .proofGo who => Sys2Proof.Machine.execProofGo who s
  | .proofComplete => Sys2Proof.Machine.execProofComplete s
  | .commitGo who both => Sys2Proof.Machine.execCommitGo who both s
  | .commitAbort who => Sys2Proof.Machine.execCommitAbort who s
  | .varnish => Sys2Proof.Machine.execVarnish s
  | .snapGo who => Sys2Proof.Machine.execSnapGo who s
  | .snapshotTake => Sys2Proof.Machine.execSnapshotTake s
  | .wideSel fw r idx => Sys2Proof.Machine.execWideSel fw r idx s
  | .wideLatch fw r => Sys2Proof.Machine.execWideLatch fw r s
  | .mbxGo => Sys2Proof.Machine.execMbxGo s
  | .mbxAbort => Sys2Proof.Machine.execMbxAbort s
  | .mbxResponse => Sys2Proof.Machine.execMbxResponse s
  | .ovenUpdate => Sys2Proof.Machine.execOvenUpdate s
  | .ovnSat => Sys2Proof.Machine.execOvnSat s
  | .ovnFaultClear who => Sys2Proof.Machine.execOvnFaultClear who s
  | .tbWarmClear => Sys2Proof.Machine.execTbWarmClear s
  | .tbWarmSet => Sys2Proof.Machine.execTbWarmSet s
  | .ptmDialog => Sys2Proof.Machine.execPtmDialog s
  | .ptmDialogEnd good t1 t4 host turn => Sys2Proof.Machine.execPtmDialogEnd good t1 t4 host turn s
  | .ptmDisagree => Sys2Proof.Machine.execPtmDisagree s
  | .ptmDisagreeClear who => Sys2Proof.Machine.execPtmDisagreeClear who s
  | .eraPrewrap => Sys2Proof.Machine.execEraPrewrap s
  | .tickWrap => Sys2Proof.Machine.execTickWrap s
  | .tbLoss monitor => Sys2Proof.Machine.execTbLoss monitor s
  | .tbRestart => Sys2Proof.Machine.execTbRestart s
  | .tiuStop m raw => Sys2Proof.Machine.execTiuStop m raw s
  | .tiuMiss m => Sys2Proof.Machine.execTiuMiss m s
  | .tiuCtlWrite who v => Sys2Proof.Machine.execTiuCtlWrite who v s
  | .add e f => Sys2Proof.Machine.execAdd e f s
  | .sub e f => Sys2Proof.Machine.execSub e f s
  | .and e f => Sys2Proof.Machine.execAnd e f s
  | .or e f => Sys2Proof.Machine.execOr e f s
  | .xor e f => Sys2Proof.Machine.execXor e f s
  | .mul e f => Sys2Proof.Machine.execMul e f s
  | .minu e f => Sys2Proof.Machine.execMinu e f s
  | .maxu e f => Sys2Proof.Machine.execMaxu e f s
  | .shl e f => Sys2Proof.Machine.execShl e f s
  | .shr e f => Sys2Proof.Machine.execShr e f s
  | .sar e f => Sys2Proof.Machine.execSar e f s
  | .cmp e f => Sys2Proof.Machine.execCmp e f s
  | .plog e f => Sys2Proof.Machine.execPlog e f s
  | .mfs e f => Sys2Proof.Machine.execMfs e f s
  | .mts e f => Sys2Proof.Machine.execMts e f s
  | .br e f => Sys2Proof.Machine.execBr e f s
  | .jal e f => Sys2Proof.Machine.execJal e f s
  | .jr e f => Sys2Proof.Machine.execJr e f s
  | .loop e f => Sys2Proof.Machine.execLoop e f s
  | .rete e f => Sys2Proof.Machine.execRete e f s
  | .ld e f => Sys2Proof.Machine.execLd e f s
  | .st e f => Sys2Proof.Machine.execSt e f s
  | .ldt e f => Sys2Proof.Machine.execLdt e f s
  | .stt e f => Sys2Proof.Machine.execStt e f s
  | .now e f => Sys2Proof.Machine.execNow e f s
  | .waitt e f => Sys2Proof.Machine.execWaitt e f s
  | .waittResume e => Sys2Proof.Machine.execWaittResume e s
  | .sett e f => Sys2Proof.Machine.execSett e f s
  | .tcmp e f => Sys2Proof.Machine.execTcmp e f s
  | .tget e f => Sys2Proof.Machine.execTget e f s
  | .tput e f => Sys2Proof.Machine.execTput e f s
  | .line e f => Sys2Proof.Machine.execLine e f s
  | .shot e f => Sys2Proof.Machine.execShot e f s
  | .train e f => Sys2Proof.Machine.execTrain e f s
  | .stag e f => Sys2Proof.Machine.execStag e f s
  | .listenonly e f => Sys2Proof.Machine.execListenonly e f s
  | .window e f => Sys2Proof.Machine.execWindow e f s
  | .zoom e f => Sys2Proof.Machine.execZoom e f s
  | .hswap e f => Sys2Proof.Machine.execHswap e f s
  | .stack e f => Sys2Proof.Machine.execStack e f s
  | .peek e f => Sys2Proof.Machine.execPeek e f s
  | .sumwait e f => Sys2Proof.Machine.execSumwait e f s
  | .sketch e f => Sys2Proof.Machine.execSketch e f s
  | .proof e f => Sys2Proof.Machine.execProof e f s
  | .commit e f preempted => Sys2Proof.Machine.execCommit e f preempted s
  | .signal e f => Sys2Proof.Machine.execSignal e f s
  | .waitsig e f => Sys2Proof.Machine.execWaitsig e f s
  | .semaphore e f => Sys2Proof.Machine.execSemaphore e f s
  | .ledger e f => Sys2Proof.Machine.execLedger e f s
  | .trap e f => Sys2Proof.Machine.execTrap e f s
  | .yield e f => Sys2Proof.Machine.execYield e f s
  | .halt e f => Sys2Proof.Machine.execHalt e f s
  | .undefinedOpcode e w => Sys2Proof.Machine.execUndefinedOpcode e w s
  | .watchdog e => Sys2Proof.Machine.execWatchdog e s
  | .arbiterRequest => Sys2Proof.Machine.execArbiterRequest s
  | .easelRun e => Sys2Proof.Machine.execEaselRun e s
  | .easelHalt e => Sys2Proof.Machine.execEaselHalt e s
  | .easelStep who e => Sys2Proof.Machine.execEaselStep who e s
  | .easelReset e => Sys2Proof.Machine.execEaselReset e s
  | .scanStart mask => Sys2Proof.Machine.execScanStart mask s
  | .scanStartDue => Sys2Proof.Machine.execScanStartDue s
  | .pmAddrWrite who e v => Sys2Proof.Machine.execPmAddrWrite who e v s
  | .pmDataRead who e => Sys2Proof.Machine.execPmDataRead who e s
  | .pmDataWrite who e v => Sys2Proof.Machine.execPmDataWrite who e v s
  | .dmDataRead who e => Sys2Proof.Machine.execDmDataRead who e s
  | .dmDataWrite who e v => Sys2Proof.Machine.execDmDataWrite who e v s
  | .scanSigSet mask => Sys2Proof.Machine.execScanSigSet mask s
  | .scanSigClear mask hw => Sys2Proof.Machine.execScanSigClear mask hw s
  | .lineStart => Sys2Proof.Machine.execLineStart s
  | .lineEnd => Sys2Proof.Machine.execLineEnd s
  | .shotFire => Sys2Proof.Machine.execShotFire s
  | .diagDue m a => Sys2Proof.Machine.execDiagDue m a s
  | .diagArmStrobe => Sys2Proof.Machine.execDiagArmStrobe s
  | .diagPulse => Sys2Proof.Machine.execDiagPulse s
  | .ewireFrameStart => Sys2Proof.Machine.execEwireFrameStart s
  | .ewireReturn words => Sys2Proof.Machine.execEwireReturn words s
  | .ewireReturnTimeout => Sys2Proof.Machine.execEwireReturnTimeout s
  | .gaveupClear who => Sys2Proof.Machine.execGaveupClear who s
  | .hdrmSample v => Sys2Proof.Machine.execHdrmSample v s
  | .quietPause => Sys2Proof.Machine.execQuietPause s
  | .quietPauseEnd vs => Sys2Proof.Machine.execQuietPauseEnd vs s
  | .lsupOv v => Sys2Proof.Machine.execLsupOv v s
  | .lsupOvClear who => Sys2Proof.Machine.execLsupOvClear who s
  | .lpllUnlock n b => Sys2Proof.Machine.execLpllUnlock n b s
  | .blockReceive l hdr payload => Sys2Proof.Machine.execBlockReceive l hdr payload s
  | .cdrUpdate l vote => Sys2Proof.Machine.execCdrUpdate l vote s
  | .freqErr l => Sys2Proof.Machine.execFreqErr l s
  | .laneRetrain l => Sys2Proof.Machine.execLaneRetrain l s
  | .retrainTimeout l => Sys2Proof.Machine.execRetrainTimeout l s
  | .txSleep l => Sys2Proof.Machine.execTxSleep l s
  | .txWake l => Sys2Proof.Machine.execTxWake l s
  | .sleepAnnExpire l => Sys2Proof.Machine.execSleepAnnExpire l s
  | .squelchAssert l => Sys2Proof.Machine.execSquelchAssert l s
  | .squelchDeassert l => Sys2Proof.Machine.execSquelchDeassert l s
  | .wakeFail l => Sys2Proof.Machine.execWakeFail l s
  | .esGo l => Sys2Proof.Machine.execEsGo l s
  | .esDone l errs => Sys2Proof.Machine.execEsDone l errs s
  | .linkStateTimeout t => Sys2Proof.Machine.execLinkStateTimeout t s
  | .relink t => Sys2Proof.Machine.execRelink t s
  | .genSwitch t => Sys2Proof.Machine.execGenSwitch t s
  | .genFallback t => Sys2Proof.Machine.execGenFallback t s
  | .am l bidx active amseq late => Sys2Proof.Machine.execAm l bidx active amseq late s
  | .slot t num => Sys2Proof.Machine.execSlot t num s
  | .eventBlock l arrival full w0 w1 errs => Sys2Proof.Machine.execEventBlock l arrival full w0 w1 errs s
  | .status t h payload => Sys2Proof.Machine.execStatus t h payload s
  | .ambient t h hdata counts => Sys2Proof.Machine.execAmbient t h hdata counts s
  | .regRsp t h addr data rstat => Sys2Proof.Machine.execRegRsp t h addr data rstat s
  | .caps t h payload => Sys2Proof.Machine.execCaps t h payload s
  | .epochEcho t h beacon t2 t3 t4 => Sys2Proof.Machine.execEpochEcho t h beacon t2 t3 t4 s
  | .phaseMeasure t temp => Sys2Proof.Machine.execPhaseMeasure t temp s
  | .phaseExchange t t1 => Sys2Proof.Machine.execPhaseExchange t t1 s
  | .epochTimeout t => Sys2Proof.Machine.execEpochTimeout t s
  | .phaseCandidate t => Sys2Proof.Machine.execPhaseCandidate t s
  | .tileRegGo t => Sys2Proof.Machine.execTileRegGo t s
  | .tileRegTimeout t => Sys2Proof.Machine.execTileRegTimeout t s
  | .bankSwap sec => Sys2Proof.Machine.execBankSwap sec s
  | .readoutStart sec => Sys2Proof.Machine.execReadoutStart sec s
  | .stackComplete => Sys2Proof.Machine.execStackComplete s
  | .stallRetireCmd n => Sys2Proof.Machine.execStallRetireCmd n s
  | .motionPublish => Sys2Proof.Machine.execMotionPublish s
  | .kernelWrite who off v => Sys2Proof.Machine.execKernelWrite who off v s
  | .fltRestart c zoom bin => Sys2Proof.Machine.execFltRestart c zoom bin s
  | .echoDelivery c errs => Sys2Proof.Machine.execEchoDelivery c errs s
  | .sectorClassify sec => Sys2Proof.Machine.execSectorClassify sec s
  | .lineUnitPlace => Sys2Proof.Machine.execLineUnitPlace s
  | .doorbellPost r post => Sys2Proof.Machine.execDoorbellPost r post s
  | .flushDoorbell r next => Sys2Proof.Machine.execFlushDoorbell r next s
  | .descFetch r fin addr size cookie tail => Sys2Proof.Machine.execDescFetch r fin addr size cookie tail s
  | .bufferIdleClose r => Sys2Proof.Machine.execBufferIdleClose r s
  | .ringEnable r => Sys2Proof.Machine.execRingEnable r s
  | .ringDisable r flush next => Sys2Proof.Machine.execRingDisable r flush next s
  | .ringResume r => Sys2Proof.Machine.execRingResume r s
  | .ringStop pm => Sys2Proof.Machine.execRingStop pm s
  | .coalTimer r => Sys2Proof.Machine.execCoalTimer r s
  | .irqCauseClear mask hw => Sys2Proof.Machine.execIrqCauseClear mask hw s
  | .conventionalReset why => Sys2Proof.Machine.execConventionalReset why s
  | .perstDeassert => Sys2Proof.Machine.execPerstDeassert s
  | .flr pf1 => Sys2Proof.Machine.execFlr pf1 s
  | .linkRecovery replays => Sys2Proof.Machine.execLinkRecovery replays s
  | .memcTraining densities pass => Sys2Proof.Machine.execMemcTraining densities pass s
  | .memcInitDone => Sys2Proof.Machine.execMemcInitDone s
  | .memcRetrain => Sys2Proof.Machine.execMemcRetrain s
  | .crcRetryFail ch good => Sys2Proof.Machine.execCrcRetryFail ch good s
  | .channelRetrainDone ch pass => Sys2Proof.Machine.execChannelRetrainDone ch pass s
  | .memUe da oneSymbol => Sys2Proof.Machine.execMemUe da oneSymbol s
  | .memcPeriod load => Sys2Proof.Machine.execMemcPeriod load s
  | .scrubPass corrected => Sys2Proof.Machine.execScrubPass corrected s
  | .capArm => Sys2Proof.Machine.execCapArm s
  | .capAbort => Sys2Proof.Machine.execCapAbort s
  | .capTrig => Sys2Proof.Machine.execCapTrig s
  | .capSample => Sys2Proof.Machine.execCapSample s
  | .capPostEnd => Sys2Proof.Machine.execCapPostEnd s
  | .capExportRecord => Sys2Proof.Machine.execCapExportRecord s
  | .syncArmCmd => Sys2Proof.Machine.execSyncArmCmd s
  | .syncDisarmCmd => Sys2Proof.Machine.execSyncDisarmCmd s
  | .syncPulseDeferred => Sys2Proof.Machine.execSyncPulseDeferred s
  | .syncPulseRx edge width => Sys2Proof.Machine.execSyncPulseRx edge width s
  | .syncTrigRx edge => Sys2Proof.Machine.execSyncTrigRx edge s
  | .monCrossing m => Sys2Proof.Machine.execMonCrossing m s
  | .sincOutput k v => Sys2Proof.Machine.execSincOutput k v s
  | .slowSample k v => Sys2Proof.Machine.execSlowSample k v s
  | .moniSync => Sys2Proof.Machine.execMoniSync s
  | .moniSyncReset => Sys2Proof.Machine.execMoniSyncReset s
  | .xsOpen x now => Sys2Proof.Machine.execXsOpen x now s
  | .hkSequenceStart => Sys2Proof.Machine.execHkSequenceStart s
  | .hkConversion result => Sys2Proof.Machine.execHkConversion result s
  | .hkReqGo p both => Sys2Proof.Machine.execHkReqGo p both s
  | .hkRotate => Sys2Proof.Machine.execHkRotate s
  | .hkSliceFail slice => Sys2Proof.Machine.execHkSliceFail slice s
  | .wdogA => Sys2Proof.Machine.execWdogA s
  | .safeWdogService => Sys2Proof.Machine.execSafeWdogService s
  | .chDisagree chanB copy => Sys2Proof.Machine.execChDisagree chanB copy s
  | .msgTimeout => Sys2Proof.Machine.execMsgTimeout s
  | .swStuckHs => Sys2Proof.Machine.execSwStuckHs s
  | .swStuckLs => Sys2Proof.Machine.execSwStuckLs s
  | .supplyPresent mv => Sys2Proof.Machine.execSupplyPresent mv s
  | .rstStuck => Sys2Proof.Machine.execRstStuck s
  | .safeRstFall => Sys2Proof.Machine.execSafeRstFall s
  | .safeRstRise low clearing => Sys2Proof.Machine.execSafeRstRise low clearing s
  | .causeClear bit => Sys2Proof.Machine.execCauseClear bit s
  | .switchTestStep hsFb lsFb mv => Sys2Proof.Machine.execSwitchTestStep hsFb lsFb mv s
  | .smRxGo => Sys2Proof.Machine.execSmRxGo s
  | .canFrameRx fmt id sdt af p => Sys2Proof.Machine.execCanFrameRx fmt id sdt af p s
  | .pduUnpaired chanB src seq => Sys2Proof.Machine.execPduUnpaired chanB src seq s
  | .permit src seq stamp permitBit zset withStop => Sys2Proof.Machine.execPermit src seq stamp permitBit zset withStop s
  | .stop src seq stamp => Sys2Proof.Machine.execStop src seq stamp s
  | .safeStatusPdu => Sys2Proof.Machine.execSafeStatusPdu s
  | .smTxPop => Sys2Proof.Machine.execSmTxPop s
  | .violClear => Sys2Proof.Machine.execViolClear s
  | .profileLoad img stored => Sys2Proof.Machine.execProfileLoad img stored s
  | .profileActivate tick stored => Sys2Proof.Machine.execProfileActivate tick stored s
  | .profileInfo => Sys2Proof.Machine.execProfileInfo s
  | .profileCeil => Sys2Proof.Machine.execProfileCeil s
  | .boot => Sys2Proof.Machine.execBoot s
  | .hssTreeReady => Sys2Proof.Machine.execHssTreeReady s
  | .lcInfo => Sys2Proof.Machine.execLcInfo s
  | .lcAdvance target tok stored jtag => Sys2Proof.Machine.execLcAdvance target tok stored jtag s
  | .ownerKeys hashes => Sys2Proof.Machine.execOwnerKeys hashes s
  | .dbgChallenge => Sys2Proof.Machine.execDbgChallenge s
  | .dbgUnlock tok jtag => Sys2Proof.Machine.execDbgUnlock tok jtag s
  | .dbgClose => Sys2Proof.Machine.execDbgClose s
  | .dbgSessionExpire => Sys2Proof.Machine.execDbgSessionExpire s
  | .certRead which => Sys2Proof.Machine.execCertRead which s
  | .eatGet nonce => Sys2Proof.Machine.execEatGet nonce s
  | .tagRead off len => Sys2Proof.Machine.execTagRead off len s
  | .tagWrite off len data stored => Sys2Proof.Machine.execTagWrite off len data stored s
  | .getVersion => Sys2Proof.Machine.execGetVersion s
  | .getCapabilities => Sys2Proof.Machine.execGetCapabilities s
  | .negotiateAlgorithms => Sys2Proof.Machine.execNegotiateAlgorithms s
  | .getDigests => Sys2Proof.Machine.execGetDigests s
  | .getCertificate slot off len => Sys2Proof.Machine.execGetCertificate slot off len s
  | .challenge nonce => Sys2Proof.Machine.execChallenge nonce s
  | .getMeasurements index signed nonce => Sys2Proof.Machine.execGetMeasurements index signed nonce s
  | .getHssSig digest => Sys2Proof.Machine.execGetHssSig digest s
  | .unsupportedSpdmRequest code => Sys2Proof.Machine.execUnsupportedSpdmRequest code s
  | .configHash => Sys2Proof.Machine.execConfigHash s
  | .jtagInstruction code => Sys2Proof.Machine.execJtagInstruction code s
  | .oscJudge xo count amplitude => Sys2Proof.Machine.execOscJudge xo count amplitude s
  | .standingMonitor rosc lf => Sys2Proof.Machine.execStandingMonitor rosc lf s
  | .startupRetry => Sys2Proof.Machine.execStartupRetry s
  | .gateAbort who off write => Sys2Proof.Machine.execGateAbort who off write s
  | .clkoutChange => Sys2Proof.Machine.execClkoutChange s
  | .dvfsTarget who v => Sys2Proof.Machine.execDvfsTarget who v s
  | .avsTransaction ack => Sys2Proof.Machine.execAvsTransaction ack s
  | .dvfsVoltageReached reported mv mon => Sys2Proof.Machine.execDvfsVoltageReached reported mv mon s
  | .dvfsSwitch => Sys2Proof.Machine.execDvfsSwitch s
  | .dvfsFail => Sys2Proof.Machine.execDvfsFail s
  | .fwaitExpire => Sys2Proof.Machine.execFwaitExpire s
  | .pwrGo who => Sys2Proof.Machine.execPwrGo who s
  | .hushSleepSend => Sys2Proof.Machine.execHushSleepSend s
  | .hushLanesIdle => Sys2Proof.Machine.execHushLanesIdle s
  | .hushResume => Sys2Proof.Machine.execHushResume s
  | .dozeEnter => Sys2Proof.Machine.execDozeEnter s
  | .dozeWake => Sys2Proof.Machine.execDozeWake s
  | .vsysFall torn => Sys2Proof.Machine.execVsysFall torn s
  | .powerOn => Sys2Proof.Machine.execPowerOn s
  | .bootAlwaysOn => Sys2Proof.Machine.execBootAlwaysOn s
  | .pmicPg rail => Sys2Proof.Machine.execPmicPg rail s
  | .tbStart => Sys2Proof.Machine.execTbStart s
  | .errorRecord r => Sys2Proof.Machine.execErrorRecord r s
  | .logStore => Sys2Proof.Machine.execLogStore s
  | .logMergeFlush => Sys2Proof.Machine.execLogMergeFlush s
  | .regionRestart r attempts => Sys2Proof.Machine.execRegionRestart r attempts s
  | .restartCmd who => Sys2Proof.Machine.execRestartCmd who s
  | .restartBistDone r failed => Sys2Proof.Machine.execRestartBistDone r failed s
  | .restartResume r => Sys2Proof.Machine.execRestartResume r s
  | .restartFail r => Sys2Proof.Machine.execRestartFail r s
  | .chipFault r attempts => Sys2Proof.Machine.execChipFault r attempts s
  | .chipFaultClear => Sys2Proof.Machine.execChipFaultClear s
  | .updLoad img stored => Sys2Proof.Machine.execUpdLoad img stored s
  | .updVerify => Sys2Proof.Machine.execUpdVerify s
  | .updActivate e stored => Sys2Proof.Machine.execUpdActivate e stored s
  | .updStatus => Sys2Proof.Machine.execUpdStatus s
  | .updRevert stored => Sys2Proof.Machine.execUpdRevert stored s
  | .fwHandover => Sys2Proof.Machine.execFwHandover s
  | .fwTakeover => Sys2Proof.Machine.execFwTakeover s
  | .fwConfirm => Sys2Proof.Machine.execFwConfirm s
  | .healthWindowExpire => Sys2Proof.Machine.execHealthWindowExpire s
  | .calDue k temp => Sys2Proof.Machine.execCalDue k temp s
  | .calDeferred => Sys2Proof.Machine.execCalDeferred s
  | .calStore stored => Sys2Proof.Machine.execCalStore stored s
  | .calInfo => Sys2Proof.Machine.execCalInfo s
  | .calRun mask => Sys2Proof.Machine.execCalRun mask s
  | .calConfig dt maxint => Sys2Proof.Machine.execCalConfig dt maxint s
  | .calRead => Sys2Proof.Machine.execCalRead s
  | .calWrite delays coeffs kedge stored => Sys2Proof.Machine.execCalWrite delays coeffs kedge stored s
  | .bgStarved scrub k => Sys2Proof.Machine.execBgStarved scrub k s
  | .tillCfgWrite who r t v events => Sys2Proof.Machine.execTillCfgWrite who r t v events s
  | .tillOverflow r t => Sys2Proof.Machine.execTillOverflow r t s
  | .linkTrained speed width flit => Sys2Proof.Machine.execLinkTrained speed width flit s
  | .recoveryExit => Sys2Proof.Machine.execRecoveryExit s
  | .alignmentMarkerSend t => Sys2Proof.Machine.execAlignmentMarkerSend t s
  | .tilePortRun t => Sys2Proof.Machine.execTilePortRun t s
  | .canError x => Sys2Proof.Machine.execCanError x s
  | .busOffRecovery => Sys2Proof.Machine.execBusOffRecovery s
  | .lockstepErr => Sys2Proof.Machine.execLockstepErr s

end Sys2Proof.Machine
end

