-- ==== Sys2Proof/Safety.lean ====
section
/-!
DEFINITION. What counts as a sound state and a safe run: the tables keep their canonical form, and no step of a run faults
or refuses.
-/
namespace Sys2Proof.Machine

/-- The registers and the values behind indices keep their canonical form, so that equal contents are equal data. -/
def State.tablesOk (s : State) : Bool :=
  canonical resetWord s.io.regs && canonical resetWord s.io.sketch && canonical (fun _ => 0) s.io.wide
    && canonical (fun _ => 0) s.scan.pm && canonical (fun _ => 0) s.scan.dm

/-- A fire pulse on a laser output (R142). -/
def Out.isFire : Out → Bool
  | .fire .. => true
  | _ => false

/-- No queue holds more than the manual gives it: the 256-entry error FIFO (R452), the 4,096 records of the log (R453), the 16
PTM samples (R64), the 16 triggers that wait (R340), the four STATUS PDUs (R386) and the four copies of a channel (R383); what
the link holds back in Recovery (R315) is no pulse. -/
def State.queuesOk (s : State) : Bool :=
  decide (s.io.fifo.length ≤ 256) && decide (s.mgmt.log.length ≤ 4096) && decide (s.tbas.ptm.length ≤ 16)
    && decide (s.memc.capQ.length ≤ 16) && decide (s.safe.smTx.length ≤ 4) && decide (s.safe.waitA.length ≤ 4)
    && decide (s.safe.waitB.length ≤ 4) && s.io.held.all fun o => !o.isFire

/-- The registers that an alarm may change: the cause bits (R310), the pending bits of masked vectors (R311), the overflow bits
of the tills (R468). -/
def alarmReg (a : Nat) : Bool :=
  a == 0x01A10020 || a == 0x01A10024 || decide (0x04081000 ≤ a ∧ a < 0x04081020)
    || decide (0x0500D000 ≤ a ∧ a < 0x0500D020) || a % 0x200000 == 0xF0400 || a % 0x200000 == 0xF0404

/-- The fire pulses that have left the device, newest first. -/
def State.pulses (s : State) : List Out := s.io.out.filter Out.isFire

/-- t differs from s at most in the registers at `regs` and in the records of the easels: what an instruction that acts on its
easel alone leaves as it was. -/
def State.easelFrame (regs : List Nat) (s t : State) : Prop :=
  (∀ a, a ∉ regs → t.reg a = s.reg a) ∧
    t = { s with io := { s.io with regs := t.io.regs }, scan := { s.scan with easels := t.scan.easels } }

/-- t has every register of s but those at `regs` and those that alarms may change. -/
def State.onlyRegs (regs : List Nat) (s t : State) : Prop :=
  ∀ a, a ∉ regs → alarmReg a = false → a ≠ Fd.MGMT_LOG_LOST_COUNT.off → t.reg a = s.reg a

/-- t has every register of s but those of the regions `rs` and those that alarms may change. -/
def State.onlyRegions (rs : List Nat) (s t : State) : Prop :=
  ∀ a, a / 0x200000 ∉ rs → alarmReg a = false → a ≠ Fd.MGMT_LOG_LOST_COUNT.off → t.reg a = s.reg a

/-- The records of State: what all regions share, and each region's own. -/
inductive Part where
  | io | tbas | scan | emt | safe | lnk | hst | outp | host | memc | moni | mgmt | secu | chip
  deriving DecidableEq, Repr

/-- t differs from s at most in the records `u`: every other region's record and the queue of commands are as they were. -/
def State.within (u : List Part) (s t : State) : Prop :=
  t.pending = s.pending ∧ (.io ∉ u → t.io = s.io) ∧ (.tbas ∉ u → t.tbas = s.tbas) ∧ (.scan ∉ u → t.scan = s.scan) ∧
    (.emt ∉ u → t.emt = s.emt) ∧ (.safe ∉ u → t.safe = s.safe) ∧ (.lnk ∉ u → t.lnk = s.lnk) ∧ (.hst ∉ u → t.hst = s.hst) ∧
    (.outp ∉ u → t.outp = s.outp) ∧ (.host ∉ u → t.host = s.host) ∧ (.memc ∉ u → t.memc = s.memc) ∧
    (.moni ∉ u → t.moni = s.moni) ∧ (.mgmt ∉ u → t.mgmt = s.mgmt) ∧ (.secu ∉ u → t.secu = s.secu) ∧
    (.chip ∉ u → t.chip = s.chip)

/-- Easel e runs, its predicate lets instruction f execute, and f has the shape of its opcode (R84, R115). -/
def State.runs (h : Shape) (e : Fin 8) (f : Fields) (s : State) : Prop :=
  s.isRunning e = true ∧ s.executes e f = true ∧ h.legal f = true

/-- A detection of cause b has been handled (R375, R376): the cause is latched and present, SAFE is in state 4, and an entry from
another state opened the switches, drove FAULT_N, and kept the cause and its tick. -/
def State.caught (b : Nat) (s t : State) : Prop :=
  t.get (Fd.SAFE_CAUSE_CAUSE.bit b) = 1 ∧ t.get (Fd.SAFE_NOW_NOW.bit b) = 1 ∧ t.safeSt = stSAFE ∧
    if s.safeSt = stSAFE then t.get Fd.SAFE_FIRST_BIT = s.get Fd.SAFE_FIRST_BIT
    else t.get Fd.SAFE_FIRST_BIT = b ∧ t.wideOf 18 0 = s.tick ∧ t.get Fd.SAFE_STAT_LS_EN = 0 ∧ t.get Fd.SAFE_STAT_FAULT = 1 ∧
      t.get Fd.SAFE_STAT_B_STATE = stSAFE ∧ t.safe.permit = false ∧
        (s.chanA = true → t.get Fd.SAFE_STAT_A_STATE = stSAFE ∧ t.get Fd.SAFE_STAT_HS_EN = 0)

/-- The request of opcode op with len bytes is in progress, and its result will go to the host (R53). -/
def State.asks (op len : Nat) (s : State) : Prop :=
  s.serves op = true ∧ s.mgmt.orphan = none ∧ s.mbxLength = len

/-- The request has its result (R53). -/
def State.answered (status : Nat) (payload : List Byte) (t : State) : Prop :=
  t.mgmt.reply = some { status := status, payload := payload }

/-- The request has its result, and has passed the step that cannot be aborted (R55). -/
def State.answeredLate (status : Nat) (payload : List Byte) (t : State) : Prop :=
  t.mgmt.reply = some { status := status, payload := payload, past := true }

/-- A run of n steps ends in a state, without a fault or a refusal. -/
def runsTo : Nat → State → State → Prop
  | 0, s, t => s = t
  | n + 1, s, t => ∃ u, step s = .next u ∧ runsTo n u t

end Sys2Proof.Machine
end

