-- ==== Sys2Proof/WellFormed.lean ====
section
/-!
DEFINITION. Which commands are well formed: those whose operands name an occurrence the device can see.  Every other operand
is as wide as its field, so that the syntax already bounds it.
-/
namespace Sys2Proof

open Machine

/-- A command is well formed.  An early-late vote is −1, 0 or 1 (R181); AMBIENT carries 32 counts (R208); a kernel write names a
kernel register (R254); a link comes up at a speed and width of R292; a training reads four densities (R322); the word of an
undefined opcode has one (R114). DESIGN CHOICE (log 85). -/
def Instr.wf : Instr → Bool
  | .cdrUpdate _ vote => decide (-1 ≤ vote ∧ vote ≤ 1)
  | .ambient _ _ _ counts => counts.length == 32
  | .kernelWrite _ off _ => (kernelAt off.toNat).isSome && (kernelMask (off.toNat % 0x100)).isSome
  | .linkTrained speed width flit => linkFits speed.toNat width.toNat flit
  | .memcTraining densities _ => densities.length == 4
  | .undefinedOpcode _ w => !definedOpcodes.contains (opcOf w)
  | _ => true

end Sys2Proof
end

