-- ==== Sys2Proof/Certificates/Slice0/Obligations.lean ====
section
/-!
DEFINITION. The statements for the provers.  A completion statement names, for each command, the hypotheses on the state and
the operands under which the command has its own effect, and what its next state then holds.
-/

open Sys2Proof Sys2Proof.Machine

/-- What a command needs to be there before it acts: nothing, the device powered, an open gate of the register that any accessor writes,
or an accessor that is there and an open gate (R28, R318, R430, R445, R448).  The model's reading is log 19. -/
inductive Sys2Proof.Machine.Gate where
  | free
  | event
  | row (a : Nat)
  | access (who : Actor) (a : Nat) (write : Bool)
  deriving DecidableEq, Repr

/-- What each command needs.  The accesses REGISTER_WRITE, RESERVED_READ, STG_WRITE and the management commands state their own
conditions. -/
def Sys2Proof.Instr.gate : Instr → Gate
  | .proofGo who => .access who Fd.CHIP_PROOF_GO.off true
  | .commitGo who _ => .access who Fd.CHIP_COMMIT_GO.off true
  | .commitAbort who => .access who Fd.CHIP_COMMIT_ABORT.off true
  | .snapGo who => .access who Fd.CHIP_SNAP_GO.off true
  | .wideSel fw r _ => .access (wideActor fw) (wideSelF fw r).off true
  | .mbxGo => .access .host Fd.MBX_CTL_GO.off true
  | .mbxAbort => .access .host Fd.MBX_CTL_ABORT.off true
  | .ovnFaultClear who => .access who Fd.TBAS_OVN_STAT_OVN_FAULT.off true
  | .ptmDisagreeClear who => .access who Fd.TBAS_TB_STAT_PTM_DISAGREE.off true
  | .tiuCtlWrite who _ => .access who Fd.TBAS_TIU_CTL_NSTAT.off true
  | .easelRun e => .row (Fd.SCAN_EASEL_CTL_RUN e).off
  | .easelHalt e => .row (Fd.SCAN_EASEL_CTL_HALT e).off
  | .easelStep who e => .access who (Fd.SCAN_EASEL_CTL_STEP e).off true
  | .easelReset e => .row (Fd.SCAN_EASEL_CTL_RESET e).off
  | .scanStart _ => .row Fd.SCAN_START_MASK.off
  | .pmAddrWrite who e _ => .access who (Fd.SCAN_EASEL_PM_ADDR_INDEX e).off true
  | .pmDataRead who e => .access who (Fd.SCAN_EASEL_PM_DATA_DATA e).off false
  | .pmDataWrite who e _ => .access who (Fd.SCAN_EASEL_PM_DATA_DATA e).off true
  | .dmDataRead who e => .access who (Fd.SCAN_EASEL_DM_DATA_DATA e).off false
  | .dmDataWrite who e _ => .access who (Fd.SCAN_EASEL_DM_DATA_DATA e).off true
  | .scanSigSet _ => .row Fd.SCAN_SIG_SIG.off
  | .scanSigClear _ _ => .row Fd.SCAN_SIG_CLR_SIG.off
  | .gaveupClear who => .access who Fd.EMIT_EW_STAT_GAVEUP.off true
  | .hdrmSample _ => .event
  | .lsupOv _ => .event
  | .lsupOvClear who => .access who Fd.EMIT_LSUP_STAT_OV.off true
  | .laneRetrain l => .row (Fd.LNK_LANE_CTL_RETRAIN l).off
  | .esGo l => .row (Fd.LNK_LANE_ES_CTL_GO l).off
  | .relink t => .row (Fd.LNK_TILE_CTL_RELINK t).off
  | .tileRegGo t => .row (Fd.LNK_TILE_REGCMD_GO t).off
  | .stallRetireCmd n => .row (Fd.HST_SPARE_CMD_GO n).off
  | .motionPublish => .row Fd.MEMC_STK_PUB_GO.off
  | .kernelWrite who off _ => .access who off.toNat true
  | .doorbellPost r _ => .access .host (0x04010000 + 0x1000 * r.val) true
  | .flushDoorbell r _ => .access .host (0x04010004 + 0x1000 * r.val) true
  | .ringEnable r => .row (Fd.HOST_RING_CTL_EN r).off
  | .ringDisable r _ _ => .row (Fd.HOST_RING_CTL_EN r).off
  | .ringResume r => .row (Fd.HOST_RING_CTL_RESUME r).off
  | .ringStop _ => .event
  | .irqCauseClear _ _ => .row Fd.HOST_IRQ_CAUSE_LO_CAUSE.off
  | .memcRetrain => .row Fd.MEMC_MEM_CTL_RETRAIN.off
  | .memcPeriod _ => .event
  | .capArm => .row Fd.MEMC_CAP_CMD_ARM.off
  | .capAbort => .row Fd.MEMC_CAP_CMD_ABORT.off
  | .capTrig => .row Fd.MEMC_CAP_CMD_TRIG.off
  | .syncArmCmd => .row Fd.MEMC_SYNC_CMD_ARM.off
  | .syncDisarmCmd => .row Fd.MEMC_SYNC_CMD_DISARM.off
  | .moniSync => .row Fd.MONI_SYNC_GO.off
  | .xsOpen _ _ => .event
  | .hkReqGo p _ => .row (Fd.MONI_HK_REQ_GO p).off
  | .hkRotate => .event
  | .wdogA => .event
  | .safeWdogService => .access .firmware Fd.SAFE_WDOG_SERVICE.off true
  | .chDisagree _ _ => .event
  | .msgTimeout => .event
  | .swStuckHs => .event
  | .swStuckLs => .event
  | .supplyPresent _ => .event
  | .safeRstFall => .event
  | .switchTestStep _ _ _ => .event
  | .smRxGo => .access .host Fd.SM_RX_CTL_GO.off true
  | .canFrameRx _ _ _ _ _ => .event
  | .permit _ _ _ _ _ _ => .event
  | .stop _ _ _ => .event
  | .safeStatusPdu => .event
  | .smTxPop => .access .host Fd.SM_TX_CTL_POP.off true
  | .violClear => .access .firmware Fd.SCAN_LEDG_STAT_VIOL.off true
  | .jtagInstruction _ => .event
  | .clkoutChange => .event
  | .dvfsTarget who _ => .access who Fd.CHIP_DVFS_CTL_TARGET.off true
  | .pwrGo who => .access who Fd.CHIP_PWR_CTL_GO.off true
  | .errorRecord _ => .event
  | .regionRestart _ _ => .event
  | .restartCmd who => .access who Fd.CHIP_RESTART_CMD_GO.off true
  | .chipFault _ _ => .event
  | .chipFaultClear => .access .firmware Fd.CHIP_ERR_STAT_CHIP_FAULT.off true
  | .tillCfgWrite who r t _ _ => .access who (Fd.TILL_CFG_SRC r t).off true
  | .canError _ => .event
  | .lockstepErr => .event
  | _ => .free

/-- Nothing keeps the command from acting. -/
def Sys2Proof.Machine.State.admits (i : Instr) (s : State) : Bool :=
  match i.gate with
  | .free => true
  | .event => s.powered
  | .row a => s.powered && !s.gated a
  | .access who a _ => s.attends who && !s.gated a
/-! ## The control model -/

/-- REGISTER_WRITE, RESERVED_READ, STG_WRITE (R32, R34, R38): an open write of a region's control register puts its two fields,
one of a live register of OUTP or MGMT each live field by its access type, and neither changes another register; a quad word
reaches both double words of an MSI-X address; a read of a reserved location ends with Completer Abort, leaves a record and
sets ACC_ERR, and a size the location does not take is recorded; a staged write reaches the sketch alone; one that is gated
ends as a gate abort, one that is withheld or names no staged register is recorded, and neither changes a sketch. An accessor
that is not there makes no access, and what a gate closes or a missing supply holds has no effect of its own (R28, R430, R448;
the model's reading is log 19). Choices of the model in it: log 6, 14, 18, 83, 87, 92. -/
def Obligations.AccessesComplete : Prop :=
  (∀ (who : Actor) (v vhi hw : Word) (rivals : List FabReq) (r : Fin 19) (s : State),
    s.attends who = true → reaches who .bar0 = true → s.gated (0x200000 * r) = false → s.withheld who (0x200000 * r) true v = false →
    ∃ t, exec (.registerWrite who .bar0 (BitVec.ofNat 32 (0x200000 * r)) .dword v vhi hw rivals) s = .next t ∧
      s.within [.io, .chip] t ∧
      t.get (Fd.RGN_CTL_SNAP_MODE r) = bitsOf v 0 0 ∧ t.get (Fd.RGN_CTL_AEIE r) = bitsOf v 1 1 ∧
      (∀ a, a ≠ 0x200000 * r → t.reg a = s.reg a) ∧ t.io.sketch = s.io.sketch) ∧
  (∀ (who : Actor) (off : BitVec 32) (v vhi hw : Word) (rivals : List FabReq) (s : State) (row : RegRow) (idx : Nat),
    s.attends who = true → reaches who .bar0 = true → off.toNat / 0x200000 = 12 ∨ off.toNat / 0x200000 = 16 → off.toNat % 4 = 0 →
    isSketchView off.toNat = false → 0x10000 ≤ off.toNat % 0x200000 → off.toNat % 0x200000 < 0xF0000 →
    findRow off.toNat = some (row, idx) → row.onlyStaged = false → s.reservedWrite row off.toNat v = false →
    s.gated off.toNat = false → s.withheld who off.toNat true v = false →
    ∃ t, exec (.registerWrite who .bar0 off .dword v vhi hw rivals) s = .next t ∧ s.within [.io, .chip] t ∧
      t.reg off.toNat = liveWord row v hw (s.reg off.toNat) ∧ (∀ a, a ≠ off.toNat → t.reg a = s.reg a) ∧
      t.io.sketch = s.io.sketch) ∧
  (∀ (who : Actor) (off : BitVec 32) (rivals : List FabReq) (s : State),
    s.attends who = true → reaches who .bar0 = true → off.toNat < 0x04000000 → off.toNat % 4 = 0 → s.gated off.toNat = false →
    s.withheld who (normalAddr off.toNat) false 0 = false → reservedToRead off.toNat = true →
    ∃ t, exec (.reservedRead who .bar0 off .dword rivals) s = .next t ∧ s.within [.io, .chip] t ∧
      s.onlyRegs [(Fd.RGN_STAT_ACC_ERR (regionOf off.toNat)).off] t ∧
      t.io.out.head? = some (.abort who off.toNat) ∧ t.get (Fd.RGN_STAT_ACC_ERR (regionOf off.toNat)) = 1) ∧
  (∀ (k : Fin 224) (v vhi hw : Word) (rivals : List FabReq) (s : State),
    s.attends .host = true → s.gated (0x04080000 + 16 * k) = false →
    (∃ t, exec (.registerWrite .host .bar2 (BitVec.ofNat 32 (0x80000 + 16 * k)) .qword v vhi hw rivals) s = .next t ∧
      s.within [.io, .chip] t ∧ t.reg (0x04080000 + 16 * k) = v ∧ t.reg (0x04080004 + 16 * k) = vhi ∧
      s.onlyRegs [0x04080000 + 16 * k, 0x04080004 + 16 * k] t) ∧
    ∃ t, exec (.registerWrite .host .bar2 (BitVec.ofNat 32 (0x80008 + 16 * k)) .qword v vhi hw rivals) s = .next t ∧
      s.within [.io, .chip] t ∧ t.reg (0x04080008 + 16 * k) = v ∧ t.get (Fd.PF0_MSIX_CTRL_MASK k) = bitsOf vhi 0 0 ∧
      s.onlyRegs [0x04080008 + 16 * k, 0x0408000C + 16 * k] t) ∧
  (∀ (who : Actor) (off : BitVec 32) (size : AccSize) (v vhi hw : Word) (rivals : List FabReq) (s : State),
    s.attends who = true → reaches who .bar0 = true → off.toNat < 0x04000000 → sizeFits size off.toNat = false →
    ∃ t u, exec (.registerWrite who .bar0 off size v vhi hw rivals) s = .next t ∧
      exec (.reservedRead who .bar0 off size rivals) s = .next u ∧ s.within [.io, .chip] t ∧
      u = t.emit (.abort who off.toNat) ∧
      s.onlyRegs [(Fd.RGN_STAT_ACC_ERR (regionOf off.toNat)).off] t ∧ t.get (Fd.RGN_STAT_ACC_ERR (regionOf off.toNat)) = 1) ∧
  (∀ (who : Actor) (sp : Space) (off : BitVec 32) (size : AccSize) (v vhi hw : Word) (rivals : List FabReq) (s : State),
    s.attends who = false →
    exec (.registerWrite who sp off size v vhi hw rivals) s = .next s ∧
      exec (.reservedRead who sp off size rivals) s = .next s ∧
      exec (.stgWrite who off v) s = .next s) ∧
  (∀ (i : Instr) (s : State), i.wf = true → s.admits i = false →
    match i.gate with
    | .free => True
    | .event => exec i s = .next s
    | .row a => exec i s = .next (if s.powered then s.gateAbort .host a true else s)
    | .access who a write => exec i s = .next (if s.attends who then s.gateAbort who a write else s)) ∧
  (∀ (who : Actor) (off : BitVec 32) (v : Word) (s : State), s.attends who = true →
    stagedMask (normalAddr off.toNat) ≠ 0 → s.gated (normalAddr off.toNat) = false →
    s.withheld who (normalAddr off.toNat) true v = false →
    ∃ t, exec (.stgWrite who off v) s = .next t ∧ s.within [.io, .scan, .chip] t ∧
      t.sketchWord (normalAddr off.toNat)
        = merge (stagedMask (normalAddr off.toNat)) (s.sketchWord (normalAddr off.toNat)) v ∧
      t.get Fd.CHIP_SKETCH_GEN_GEN = (s.get Fd.CHIP_SKETCH_GEN_GEN + 1) % 2 ^ 32 ∧
      (∀ a, a ≠ normalAddr off.toNat → t.sketchWord a = s.sketchWord a) ∧
      (∀ a, a ≠ Fd.CHIP_SKETCH_GEN_GEN.off → a ≠ Fd.CHIP_PROOF_STATUS_STALE.off → t.reg a = s.reg a)) ∧
  (∀ (who : Actor) (off : BitVec 32) (v : Word) (s : State), s.attends who = true →
    (s.gated (normalAddr off.toNat) = true → exec (.stgWrite who off v) s = .next (s.gateAbort who off.toNat true)) ∧
    (s.gated (normalAddr off.toNat) = false →
      s.withheld who (normalAddr off.toNat) true v = true ∨ stagedMask (normalAddr off.toNat) = 0 →
      ∃ t, exec (.stgWrite who off v) s = .next t ∧ s.within [.io, .chip] t ∧ t.io.sketch = s.io.sketch ∧
        s.onlyRegs [(Fd.RGN_STAT_ACC_ERR (regionOf off.toNat)).off] t))

/-- PROOF_GO, PROOF_COMPLETE, COMMIT_GO, COMMIT_ABORT, VARNISH (R40 to R47): a proof judges the sketch of its start; an accepted
commit has the sketch as its shadow, and is FIXED 4 µs ahead, at the tick given, or at the line that qualifies, else waits; a
refused one leaves its reason and a cleared GO; an abort cancels a waiting commit, is too late for a fixed one, and is nothing
without one; the varnish ends it. Choices of the model in it: log 1, 3, 19, 22, 103. -/
def Obligations.ProofAndCommitComplete : Prop :=
  (∀ (who : Actor) (s : State),
    s.admits (.proofGo who) = true →
    ∃ t, exec (.proofGo who) s = .next t ∧ s.within [.io, .chip] t ∧
      t.get Fd.CHIP_PROOF_STATUS_STATE = 1 ∧ t.get Fd.CHIP_PROOF_STATUS_STALE = 0 ∧
      t.chip.proofGen = s.get Fd.CHIP_SKETCH_GEN_GEN ∧
      (∀ a, a ≠ Fd.CHIP_PROOF_GO.off → a ≠ Fd.CHIP_PROOF_STATUS_STATE.off → t.reg a = s.reg a)) ∧
  (∀ s : State, s.get Fd.CHIP_PROOF_STATUS_STATE = 1 →
    ∃ t, exec .proofComplete s = .next t ∧ s.within [.io, .chip] t ∧
      s.onlyRegs [Fd.CHIP_PROOF_GO.off, Fd.CHIP_PROOF_ADDR_OFFSET.off, Fd.CHIP_PROOF_STATUS_RULE.off] t ∧
      t.get Fd.CHIP_PROOF_GO = 0 ∧
      match firstFailure s.failures with
      | none => t.get Fd.CHIP_PROOF_STATUS_STATE = 2 ∧ t.chip.proofFresh = true
      | some (a, code) => t.get Fd.CHIP_PROOF_STATUS_STATE = 3 ∧ t.get Fd.CHIP_PROOF_STATUS_RULE = code % 2 ^ 16 ∧
          t.get Fd.CHIP_PROOF_ADDR_OFFSET = a % 2 ^ 26) ∧
  (∀ (who : Actor) (s : State),
        s.admits (.commitGo who false) = true → s.refusal (s.get Fd.CHIP_COMMIT_INSTANT) s.commitTick = (0, 0) →
    ∃ t, exec (.commitGo who false) s = .next t ∧ s.within [.io, .scan, .mgmt, .secu, .chip] t ∧
      s.onlyRegions [0, 2, 8, 9, 10, 11] t ∧
      t.get Fd.CHIP_COMMIT_STATUS_SRC = srcOf who ∧ t.io.shadow = s.io.sketch ∧
      t.get Fd.CHIP_COMMIT_GEN_GEN = s.get Fd.CHIP_SKETCH_GEN_GEN ∧
      match if s.get Fd.CHIP_COMMIT_INSTANT = 0 then some (s.tick + 512000)
        else if s.get Fd.CHIP_COMMIT_INSTANT = 3 then some s.commitTick
        else (s.scan.lines.find? (qualifies (s.get Fd.CHIP_COMMIT_ENG) (s.get Fd.CHIP_COMMIT_INSTANT == 2) s.tick)).map
          LineRec.start with
      | some v => t.get Fd.CHIP_COMMIT_STATUS_STATE = 2 ∧ t.varnishTick = v
      | none => t.get Fd.CHIP_COMMIT_STATUS_STATE = 1 ∧ t.commitWaiting = true) ∧
  (∀ (who : Actor) (both : Bool) (s : State),
    s.admits (.commitGo who both) = true →
    let why := s.refusal (s.get Fd.CHIP_COMMIT_INSTANT) s.commitTick
    why.1 ≠ 0 →
    ∃ t, exec (.commitGo who both) s = .next t ∧ s.within [.io] t ∧ t.io.sketch = s.io.sketch ∧ t.io.shadow = s.io.shadow ∧
      s.onlyRegs [Fd.CHIP_COMMIT_GO.off, Fd.CHIP_COMMIT_STATUS_STATE.off] t ∧ t.get Fd.CHIP_COMMIT_GO = 0 ∧
      t.get Fd.CHIP_COMMIT_STATUS_STATE = 4 ∧ t.get Fd.CHIP_COMMIT_STATUS_REASON = why.1 ∧
      t.get Fd.CHIP_COMMIT_STATUS_SRC = (if both then 0 else srcOf who)) ∧
  (∀ (who : Actor) (s : State),
        s.admits (.commitGo who true) = true → s.admits (.commitGo .firmware false) = true → s.refusal (s.get Fd.CHIP_COMMIT_INSTANT) s.commitTick = (0, 0) → srcOf who ≠ 0 →
    ∃ t u, exec (.commitGo who true) s = .next t ∧ exec (.commitGo .firmware false) s = .next u ∧
      t = u.count 0 Src.CHIP_COMMIT_REFUSED 0 1) ∧
  (∀ (who : Actor) (s : State), s.admits (.commitAbort who) = true → s.commitWaiting = false →
    ∃ t, exec (.commitAbort who) s = .next t ∧ s.within [.io] t ∧ t.io.sketch = s.io.sketch ∧ t.io.shadow = s.io.shadow ∧
      s.onlyRegs [Fd.CHIP_COMMIT_ABORT.off, Fd.CHIP_COMMIT_STATUS_ABORT_LATE.off] t ∧
      (s.commitFixed = true → t.get Fd.CHIP_COMMIT_STATUS_ABORT_LATE = 1)) ∧
  (∀ (who : Actor) (s : State), s.admits (.commitAbort who) = true → s.commitWaiting = true →
    ∃ t, exec (.commitAbort who) s = .next t ∧ s.within [.io, .chip] t ∧ s.onlyRegions [0, 8, 9, 10, 11] t ∧
      t.get Fd.CHIP_COMMIT_STATUS_STATE = 5 ∧ t.io.shadow = [] ∧ t.commitWaiting = false ∧ t.commitFixed = false) ∧
  (∀ s : State, s.commitFixed = true → s.tbas.running = true → s.inCount s.varnishTick = true →
    ∃ t, exec .varnish s = .next t ∧ s.within [.io, .tbas, .scan, .emt, .safe, .lnk, .outp, .moni, .secu, .chip] t ∧
      t.get Fd.CHIP_COMMIT_STATUS_STATE = 3 ∧ t.commitFixed = false ∧ t.secu.cfgDue = some s.varnishTick) ∧
  (∀ s : State,
        s.commitFixed = false ∨ s.tbas.running = false ∨ s.inCount s.varnishTick = false → exec .varnish s = .next s) ∧
  (∀ s : State, s.get Fd.CHIP_PROOF_STATUS_STATE ≠ 1 → exec .proofComplete s = .next s)

/-- The opcode of a management command, and whether it takes a payload of n bytes (R391, R423, R424, R458, R465). -/
def Sys2Proof.Machine.mbxForm (n : Nat) : Instr → Option (Nat × Bool)
  | .lcInfo => some (0x0101, n == 0)
  | .lcAdvance .. => some (0x0102, n == 1 || n == 3833)
  | .ownerKeys _ => some (0x0103, n == 192)
  | .dbgChallenge => some (0x0104, n == 0)
  | .dbgUnlock .. => some (0x0105, n == 3832)
  | .dbgClose => some (0x0106, n == 0)
  | .certRead _ => some (0x0107, n == 1)
  | .eatGet _ => some (0x0108, n == 32)
  | .updLoad .. => some (0x0201, true)
  | .updVerify => some (0x0202, n == 0)
  | .updActivate .. => some (0x0203, n == 1)
  | .updStatus => some (0x0204, n == 0)
  | .updRevert _ => some (0x0205, n == 0)
  | .calInfo => some (0x0301, n == 0)
  | .calRun _ => some (0x0302, n == 1)
  | .calConfig .. => some (0x0303, n == 4)
  | .calRead => some (0x0304, n == 0)
  | .calWrite .. => some (0x0305, true)
  | .tagRead .. => some (0x0501, n == 4)
  | .tagWrite _ len data _ => some (0x0502, n == 4 + len.toNat && data.length == len.toNat)
  | .profileLoad .. => some (0x0601, true)
  | .profileActivate .. => some (0x0602, n == 8)
  | .profileInfo => some (0x0603, n == 0)
  | .profileCeil => some (0x0604, n == 0)
  | _ => none

/-- SNAP_GO, SNAPSHOT_TAKE, WIDE_SEL, WIDE_LATCH, MBX_GO, MBX_ABORT, MBX_RESPONSE (R50, R51, R53, R55): a snapshot falls at least
64 ticks ahead, copies the wide values of the snapshot-mode regions to their holding pairs, and leaves its tick and a sequence
number; an index that names a value is latched into the holding registers, and VALID says so; in a snapshot-mode region the
write is ignored and VALID reads 0; GO while not busy sets BUSY, and while busy OVERRUN; a management command with a payload
of another length is answered BAD_LENGTH, and one that is not the request in progress does nothing; an abort before the result
ends the command with ABORTED; publishing a result clears BUSY and sets DONE. Choices of the model in it: log 1, 3, 14, 19,
23, 24, 25. -/
def Obligations.WideReadsAndMailboxComplete : Prop :=
  (∀ (who : Actor) (s : State),
    s.admits (.snapGo who) = true →
    ∃ t, exec (.snapGo who) s = .next t ∧ s.within [.io, .chip] t ∧ s.onlyRegs [Fd.CHIP_SNAP_GO.off] t ∧
      t.get Fd.CHIP_SNAP_GO = 1 ∧ t.chip.snapDue = some (s.tick + 64)) ∧
  (∀ (s : State) (d : Wide), s.chip.snapDue = some d → s.timely d = true →
    ∃ t, exec .snapshotTake s = .next t ∧ s.within [.io, .chip] t ∧ t.chip.snapDue = none ∧ t.get Fd.CHIP_SNAP_GO = 0 ∧
      t.get Fd.CHIP_SNAP_TICK_LO_TICK = t.tick.toNat % 2 ^ 32 ∧
      t.get Fd.CHIP_SNAP_TICK_HI_TICK = t.tick.toNat / 2 ^ 32 ∧
      t.tick = (s.reach d).tick ∧ t.get Fd.CHIP_SNAP_SEQ = (s.get Fd.CHIP_SNAP_SEQ + 1) % 2 ^ 16 ∧
      ∀ r : Fin 19, s.get (Fd.RGN_CTL_SNAP_MODE r) = 1 → ∀ i ∈ heldIndices r, ∀ a, holdingPair r i = some a →
        t.reg a = BitVec.ofNat 32 ((s.reach d).wideValue r i).toNat ∧
        t.reg (a + 4) = BitVec.ofNat 32 (((s.reach d).wideValue r i).toNat / 2 ^ 32)) ∧
  (∀ (fw : Bool) (r : Fin 19) (idx : BitVec 16) (s : State), s.admits (.wideSel fw r idx) = true →
    s.withheld (wideActor fw) (wideSelF fw r).off true 0 = false → s.tillIndexClosed (wideActor fw) idx.toNat = false →
    s.get (Fd.RGN_CTL_SNAP_MODE r) = 0 → wideNamed r idx.toNat = true →
    ∃ t, exec (.wideSel fw r idx) s = .next t ∧ s.within [.io, .chip] t ∧
      s.onlyRegs [(wideSelF fw r).off, (wideValidF fw r).off] t ∧ t.get (wideSelF fw r) = idx.toNat ∧
      t.get (wideValidF fw r) = 0 ∧
      t.chip.latch.contains (latchKey fw r) = true) ∧
  (∀ (fw : Bool) (r : Fin 19) (idx : BitVec 16) (s : State), s.admits (.wideSel fw r idx) = true →
    s.withheld (wideActor fw) (wideSelF fw r).off true 0 = false → s.tillIndexClosed (wideActor fw) idx.toNat = false →
    s.get (Fd.RGN_CTL_SNAP_MODE r) = 0 → wideNamed r idx.toNat = false →
    ∃ t, exec (.wideSel fw r idx) s = .next t ∧ s.within [.io, .chip] t ∧
      s.onlyRegs [(wideSelF fw r).off, (wideValidF fw r).off, (Fd.RGN_STAT_ACC_ERR r).off] t ∧ t.get (wideValidF fw r) = 0) ∧
  (∀ (fw : Bool) (r : Fin 19) (idx : BitVec 16) (s : State), s.admits (.wideSel fw r idx) = true →
    s.withheld (wideActor fw) (wideSelF fw r).off true 0 = false → s.tillIndexClosed (wideActor fw) idx.toNat = false →
    s.get (Fd.RGN_CTL_SNAP_MODE r) = 1 → exec (.wideSel fw r idx) s = .next s ∧ s.readWord (wideValidF fw r).off = 0) ∧
  (∀ (fw : Bool) (r : Fin 19) (s : State),
    s.chip.latch.contains (latchKey fw r) = true → s.restarting r = false →
    ∃ t, exec (.wideLatch fw r) s = .next t ∧ s.within [.io, .chip] t ∧
      t.get (wideLoF fw r) = (s.wideValue r (s.get (wideSelF fw r))).toNat % 2 ^ 32 ∧
      t.get (wideHiF fw r) = (s.wideValue r (s.get (wideSelF fw r))).toNat / 2 ^ 32 ∧ t.get (wideValidF fw r) = 1) ∧
  (∀ s : State, s.admits .mbxGo = true → s.get Fd.MBX_STAT_BUSY = 0 →
    ∃ t, exec .mbxGo s = .next t ∧ s.within [.io, .mgmt] t ∧ s.onlyRegs [Fd.MBX_STAT_OVERRUN.off, Fd.MBX_CTL_GO.off] t ∧
      t.get Fd.MBX_STAT_BUSY = 1 ∧ t.get Fd.MBX_CTL_GO = 0 ∧
      (s.mgmt.rest = [] → t.mgmt.reply = none) ∧
      (s.mgmt.rest ≠ [] → s.get (Fd.MBX_RSP_WORD 1) / 65536 = s.reqTag →
        t.mgmt.reply = some { status := stOK, payload := s.mgmt.rest })) ∧
  (∀ s : State, s.admits .mbxGo = true → s.get Fd.MBX_STAT_BUSY = 1 →
    ∃ t, exec .mbxGo s = .next t ∧ s.within [.io] t ∧ s.onlyRegs [Fd.MBX_STAT_OVERRUN.off] t ∧
      t.get Fd.MBX_STAT_OVERRUN = 1) ∧
  (∀ (i : Instr) (n op : Nat) (fits : Bool) (s : State), mbxForm n i = some (op, fits) →
    (s.serves op = false → exec i s = .next s) ∧
    (fits = false → s.asks op n → ∃ t, exec i s = .next t ∧ s.within [.mgmt] t ∧ t.answered stBAD_LENGTH [])) ∧
  (∀ (r : Reply) (s : State), s.admits .mbxAbort = true → s.get Fd.MBX_STAT_BUSY = 1 → s.mgmt.reply = some r → r.past = true →
    s.reqOpcode ≠ 0x0201 →
    ∃ t, exec .mbxAbort s = .next t ∧ s.within [.io, .mgmt] t ∧ s.onlyRegs [Fd.MBX_CTL_ABORT.off] t ∧
      t.mgmt.reply = some { r with detail := r.detail ||| 0x8000 }) ∧
  (∀ s : State, s.admits .mbxAbort = true → s.get Fd.MBX_STAT_BUSY = 1 → s.mgmt.reply.any Reply.past = false →
    ∃ t, exec .mbxAbort s = .next t ∧ s.within [.io, .mgmt] t ∧
      s.onlyRegs [Fd.MBX_CTL_ABORT.off, Fd.MGMT_FW_STAT_VERIFIED.off] t ∧ t.get Fd.MBX_CTL_ABORT = 0 ∧
      t.mgmt.reply = some { status := stABORTED, detail := 0, payload := [] }) ∧
  (∀ (s : State) (r : Reply), s.get Fd.MBX_STAT_BUSY = 1 → s.fwRuns = true → s.mbxResult = some r →
    ∃ t, exec .mbxResponse s = .next t ∧ s.within [.io, .mgmt] t ∧ t.get Fd.MBX_STAT_BUSY = 0 ∧ t.get Fd.MBX_STAT_DONE = 1 ∧
      t.mgmt.reply = none ∧ t.mgmt.rest = r.payload.drop 4096 ∧ t.get (Fd.MBX_RSP_WORD 1) / 65536 = s.reqTag)

/-! ## The time base -/

/-- The registers that an update of the oven loop may change: what it measures, drives and counts, and the compliance of XS0 and XS1,
whose sources the loop takes. -/
def Sys2Proof.Machine.ovenRegs : List Nat :=
  [Fd.TBAS_TB_STAT_WARM_S.off, Fd.TBAS_OVN_STAT_INBAND.off, Fd.TBAS_OVN_MEAS_RATIO.off, Fd.TBAS_PTM_STAT_ACTIVE.off,
    Fd.MONI_XS_STAT_COMPL.off]

/-- A source of the oven is in compliance (R59). -/
def Sys2Proof.Machine.State.ovenOpens (s : State) : Bool :=
  s.is (Fd.MONI_XS_STAT_COMPL.bit 0) || s.is (Fd.MONI_XS_STAT_COMPL.bit 1)

/-- OVEN_UPDATE, OVN_SAT, OVN_FAULT_CLEAR, TB_WARM_CLEAR, TB_WARM_SET (R57 to R61): the ratio that every settled pair since the
last update shows is stored, whatever the loop does; more than 2 K below the set point the duty is MAXDUTY and the integral
stands, else the integral takes in the error and the duty stays within MAXDUTY; without a settled pair the duty is held, a
short stops the heater with OVN_FAULT, and a loop that is off or held keeps the heater low and still counts; 60 s at MAXDUTY
after the band was entered set OVN_SAT, and the loop goes on; a clear of OVN_FAULT lets the loop start again only where the
firmware makes it; TB_WARM clears when both conditions hold and is set again when the oven or the rate leaves its bounds.
Choices of the model in it: log 15, 19, 26, 27, 28, 102. -/
def Obligations.OvenAndWarmUpComplete : Prop :=
  (∀ (ratio : Nat) (s : State), s.tbas.ovenOn = true → s.get Fd.TBAS_OVN_CTL_EN = 1 → s.tbas.ovenHeld = false →
    ratio ∈ s.tbas.ratios → (∀ x ∈ s.tbas.ratios, x = ratio) → ratio < 2 ^ 24 → s.ovenOpens = false →
    s.get Fd.TBAS_OVN_SET_SETPT + 20 * s.get Fd.TBAS_OVN_BAND_BAND < ratio →
    ∃ t, exec .ovenUpdate s = .next t ∧ s.within [.io, .tbas, .moni] t ∧ s.onlyRegs ovenRegs t ∧
      t.get Fd.TBAS_OVN_MEAS_RATIO = ratio ∧
      t.get Fd.TBAS_OVN_STAT_DUTY = s.get Fd.TBAS_OVN_CTL_MAXDUTY ∧ t.tbas.integral = s.tbas.integral ∧
      t.tbas.ovenUpd = s.tbas.ovenUpd + 1 ∧ t.tbas.ratios = []) ∧
  (∀ (ratio : Nat) (s : State), s.tbas.ovenOn = true → s.get Fd.TBAS_OVN_CTL_EN = 1 → s.tbas.ovenHeld = false →
    ratio ∈ s.tbas.ratios → (∀ x ∈ s.tbas.ratios, x = ratio) → ratio < 2 ^ 24 → s.ovenOpens = false →
    ratio ≤ s.get Fd.TBAS_OVN_SET_SETPT + 20 * s.get Fd.TBAS_OVN_BAND_BAND →
    s.get Fd.TBAS_OVN_SET_SETPT ≤ ratio * 64 →
    ∃ t, exec .ovenUpdate s = .next t ∧ s.within [.io, .tbas, .moni] t ∧ s.onlyRegs ovenRegs t ∧
      t.get Fd.TBAS_OVN_MEAS_RATIO = ratio ∧ t.tbas.ovenUpd = s.tbas.ovenUpd + 1 ∧
      t.get Fd.TBAS_OVN_STAT_DUTY ≤ s.get Fd.TBAS_OVN_CTL_MAXDUTY ∧
      t.tbas.integral = s.tbas.integral
        + s.get Fd.TBAS_OVN_GAIN_KI * ((ratio : Int) - s.get Fd.TBAS_OVN_SET_SETPT)) ∧
  (∀ s : State, s.tbas.ovenOn = true → s.get Fd.TBAS_OVN_CTL_EN = 1 → s.tbas.ovenHeld = false → s.tbas.ratios = [] →
    s.ovenOpens = false →
    ∃ t, exec .ovenUpdate s = .next t ∧ s.within [.io, .tbas, .moni] t ∧ s.onlyRegs ovenRegs t ∧
      t.get Fd.TBAS_OVN_MEAS_RATIO = s.get Fd.TBAS_OVN_MEAS_RATIO ∧
      t.get Fd.TBAS_OVN_STAT_DUTY = s.get Fd.TBAS_OVN_STAT_DUTY ∧
      t.tbas.integral = s.tbas.integral ∧ t.tbas.ovenUpd = s.tbas.ovenUpd + 1) ∧
  (∀ (ratio : Nat) (s : State), s.tbas.ovenOn = true → s.get Fd.TBAS_OVN_CTL_EN = 1 → s.tbas.ovenHeld = false →
    ratio ∈ s.tbas.ratios → (∀ x ∈ s.tbas.ratios, x = ratio) → ratio < 2 ^ 24 → ratio * 64 < s.get Fd.TBAS_OVN_SET_SETPT →
    ∃ t, exec .ovenUpdate s = .next t ∧ s.within [.io, .tbas, .moni] t ∧
      s.onlyRegs ([Fd.TBAS_OVN_STAT_OVN_FAULT.off, Fd.TBAS_TB_STAT_TB_WARM.off] ++ ovenRegs) t ∧
      t.get Fd.TBAS_OVN_MEAS_RATIO = ratio ∧ t.get Fd.TBAS_OVN_STAT_DUTY = 0 ∧ t.get Fd.TBAS_OVN_STAT_OVN_FAULT = 1 ∧
      t.get Fd.TBAS_TB_STAT_TB_WARM = 1 ∧ t.tbas.ovenHeld = true) ∧
  (∀ (ratio : Nat) (s : State), s.tbas.ovenOn = true → s.get Fd.TBAS_OVN_CTL_EN = 0 ∨ s.tbas.ovenHeld = true →
    ratio ∈ s.tbas.ratios → (∀ x ∈ s.tbas.ratios, x = ratio) → ratio < 2 ^ 24 →
    ∃ t, exec .ovenUpdate s = .next t ∧ s.within [.io, .tbas, .moni] t ∧ s.onlyRegs ovenRegs t ∧
      t.get Fd.TBAS_OVN_MEAS_RATIO = ratio ∧ t.get Fd.TBAS_OVN_STAT_DUTY = 0 ∧ t.tbas.integral = s.tbas.integral ∧
      t.tbas.ovenUpd = s.tbas.ovenUpd + 1) ∧
  (∀ s : State, s.tbas.entered = true → 12000 ≤ s.tbas.atMax → s.get Fd.TBAS_OVN_STAT_OVN_SAT = 0 →
    ∃ t, exec .ovnSat s = .next t ∧ s.within [.io, .tbas] t ∧ s.onlyRegs [Fd.TBAS_OVN_STAT_OVN_SAT.off] t ∧
      t.get Fd.TBAS_OVN_STAT_OVN_SAT = 1 ∧ t.tbas.atMax = 0 ∧
      t.tbas.ovenHeld = s.tbas.ovenHeld) ∧
  (∀ (who : Actor) (s : State),
    s.admits (.ovnFaultClear who) = true →
    ∃ t, exec (.ovnFaultClear who) s = .next t ∧ s.within [.io, .tbas] t ∧ t.get Fd.TBAS_OVN_STAT_OVN_FAULT = 0 ∧
      t.tbas.ovenHeld = (if who = .firmware then false else s.tbas.ovenHeld) ∧
      ∀ a, a ≠ Fd.TBAS_OVN_STAT_OVN_FAULT.off → t.reg a = s.reg a) ∧
  (∀ s : State, s.ovenOk = true → s.freqOk = true → s.tbas.oven.valid = true → s.get Fd.TBAS_OVN_STAT_OVN_FAULT = 0 →
    ∃ t, exec .tbWarmClear s = .next t ∧ s.within [.io, .tbas] t ∧
      s.onlyRegs [Fd.TBAS_PTM_STAT_ACTIVE.off, Fd.TBAS_TB_STAT_FREQ_OK.off] t ∧ t.get Fd.TBAS_TB_STAT_TB_WARM = 0 ∧
      t.get Fd.TBAS_TB_STAT_OVEN_OK = 1 ∧
      t.get Fd.TBAS_TB_STAT_FREQ_OK = 1) ∧
  (∀ s : State, s.get Fd.TBAS_TB_STAT_TB_WARM = 0 →
    200 < s.tbas.outBand ∨ (s.holdMode = false ∧ ppm1 < s.rate.natAbs) →
    ∃ t, exec .tbWarmSet s = .next t ∧ s.within [.io, .tbas] t ∧
      s.onlyRegs [Fd.TBAS_PTM_STAT_ACTIVE.off, Fd.TBAS_TB_STAT_FREQ_OK.off] t ∧ t.get Fd.TBAS_TB_STAT_TB_WARM = 1 ∧
      t.tbas.inBand = 0 ∧ t.tbas.outBand = 0)

/-- PTM_DIALOG, PTM_DIALOG_END, PTM_DISAGREE, PTM_DISAGREE_CLEAR (R63 to R66): a dialog that is due is requested; a good one
enters the last 16, publishes its tick, counts as an exchange and clears the count of failures; a failed one counts, and the
tenth in a row sets LOST; while a reset of HOST keeps PTM from its dialogs each one due fails; 10 s at the trim bound set
PTM_DISAGREE and hold mode, and a clear lifts it. Choices of the model in it: log 1, 3, 4, 13, 15, 19, 28, 29, 30, 32, 75,
        93. -/
def Obligations.PtmCompletes : Prop :=
  (∀ s : State, s.ptmActive = true → s.tbas.ptmBusy = false → s.timely s.ptmDue = true →
    ∃ t, exec .ptmDialog s = .next t ∧ s.within [.io, .tbas] t ∧ s.onlyRegs [] t ∧ t.tbas.ptmBusy = true ∧
      t.io.out = .ptmDialog :: s.io.out ∧ t.tick = (s.reach s.ptmDue).tick ∧ t.tbas.ptmAt = some t.tick) ∧
  (∀ (t1 t4 host : Wide) (turn : Word) (s : State), s.tbas.ptmBusy = true → s.ptmActive = true →
    ∃ t, exec (.ptmDialogEnd true t1 t4 host turn) s = .next t ∧ s.within [.io, .tbas] t ∧
      s.onlyRegs [Fd.TBAS_PTM_STAT_LOST.off, Fd.TBAS_TB_STAT_FREQ_OK.off, Fd.TBAS_PLL_TRIM_TRIM.off] t ∧
      t.tbas.ptmBusy = false ∧ t.tbas.ptmFails = 0 ∧
      t.tbas.ptm = (ptmSample t1 t4 host turn :: s.tbas.ptm).take 16 ∧ t.wideOf 1 1 = t1 ∧ t.get Fd.TBAS_PTM_STAT_LOST = 0 ∧
      t.get Fd.TBAS_PTM_STAT_EXCH = (s.get Fd.TBAS_PTM_STAT_EXCH + 1) % 2 ^ 16) ∧
  (∀ (good : Bool) (t1 t4 host : Wide) (turn : Word) (s : State), s.tbas.ptmBusy = true → good = false ∨ s.ptmActive = false →
    ∃ t, exec (.ptmDialogEnd good t1 t4 host turn) s = .next t ∧ s.within [.io, .tbas] t ∧
      s.onlyRegs [Fd.TBAS_PTM_STAT_LOST.off, Fd.TBAS_TB_STAT_FREQ_OK.off] t ∧ t.tbas.ptmBusy = false ∧
      t.tbas.ptmFails = s.tbas.ptmFails + 1 ∧ t.tbas.ptm = s.tbas.ptm ∧
      (9 ≤ s.tbas.ptmFails → t.get Fd.TBAS_PTM_STAT_LOST = 1)) ∧
  (∀ s : State, s.ptmActive = false → s.tbas.ptmDown = true → s.timely s.ptmDue = true →
    ∃ t, exec .ptmDialog s = .next t ∧ s.within [.io, .tbas] t ∧
      s.onlyRegs [Fd.TBAS_PTM_STAT_LOST.off, Fd.TBAS_TB_STAT_FREQ_OK.off] t ∧ t.tbas.ptmBusy = false ∧
      t.tbas.ptmFails = s.tbas.ptmFails + 1 ∧ t.tick = (s.reach s.ptmDue).tick ∧
      (9 ≤ s.tbas.ptmFails → t.get Fd.TBAS_PTM_STAT_LOST = 1 ∧ t.tbas.ptmDown = false)) ∧
  (∀ (s : State) (b : Wide), s.tbas.trimBound = some b → s.holdMode = false → s.get Fd.TBAS_PTM_CTL_STEER = 1 →
    (10 * ticksPerS : Int) ≤ ahead b s.tick →
    ∃ t, exec .ptmDisagree s = .next t ∧ s.within [.io] t ∧
      s.onlyRegs [Fd.TBAS_TB_STAT_PTM_DISAGREE.off, Fd.TBAS_PTM_STAT_ACTIVE.off] t ∧
      t.get Fd.TBAS_TB_STAT_PTM_DISAGREE = 1 ∧ t.get Fd.TBAS_TB_STAT_HOLD_MODE = 1) ∧
  (∀ (who : Actor) (s : State),
    s.admits (.ptmDisagreeClear who) = true →
    ∃ t, exec (.ptmDisagreeClear who) s = .next t ∧ s.within [.io, .tbas] t ∧
      s.onlyRegs [Fd.TBAS_TB_STAT_PTM_DISAGREE.off, Fd.TBAS_PTM_STAT_ACTIVE.off] t ∧
      t.get Fd.TBAS_TB_STAT_PTM_DISAGREE = 0 ∧ t.tbas.trimBound = none)

/-- ERA_PREWRAP, TICK_WRAP, TB_LOSS, TB_RESTART (R69, R71, R72): the next era is stored 2^40 ticks before the wrap, at which the
count passes to 0 and the era increments; a lost lock, or a trip of the standing monitor, stops the count where it is, and
SAFE goes to its safe state with the cause of the lost time base; a restart counts again from 0 in the era after the highest
stored one, which it has stored, with both queues empty and the link regions restarting. Choices of the model in it: log 31,
32, 107. -/
def Obligations.CountAndEraComplete : Prop :=
  (∀ s : State,
        s.tbas.running = true → s.tick.toNat < 2 ^ 64 - 2 ^ 40 → s.appliedBy (BitVec.ofNat 64 (2 ^ 64 - 2 ^ 40)) = false →
    ∃ t, exec .eraPrewrap s = .next t ∧ s.within [.io, .tbas] t ∧ (∀ a, t.reg a = s.reg a) ∧ t.tick.toNat = 2 ^ 64 - 2 ^ 40 ∧
      t.tbas = s.tbas.storeEra (min (s.get Fd.TBAS_ERA_ERA + 1) (2 ^ 32 - 1))) ∧
  (∀ s : State, s.tbas.running = true → s.appliedBy 0 = false →
    ∃ t, exec .tickWrap s = .next t ∧ s.within [.io, .tbas, .scan, .memc] t ∧ t.tick = 0 ∧
      t.get Fd.TBAS_ERA_ERA = min (s.get Fd.TBAS_ERA_ERA + 1) (2 ^ 32 - 1) ∧
      t.tbas = (if s.tick.toNat < 2 ^ 64 - 2 ^ 40 then s.tbas.storeEra (min (s.get Fd.TBAS_ERA_ERA + 1) (2 ^ 32 - 1)) else s.tbas) ∧
      ∀ a, a ≠ Fd.TBAS_ERA_ERA.off → t.reg a = s.reg a) ∧
  (∀ s : State, s.tbas.running = true → s.chip.doze = false → s.get Fd.TBAS_TB_STAT_PLL_LOCK = 1 →
    ∃ t, exec (.tbLoss false) s = .next t ∧ t.pending = s.pending ∧ t.tbas.running = false ∧ t.tbas.lost = true ∧
      t.tick = s.tick ∧
      t.get Fd.TBAS_TB_STAT_TB_LOSS = 1 ∧ t.get Fd.TBAS_TB_STAT_PLL_LOCK = 0 ∧ t.get (Fd.SAFE_CAUSE_CAUSE.bit 9) = 1 ∧
      t.safeSt = stSAFE) ∧
  (∀ s : State, s.tbas.running = true → s.chip.doze = false → s.chip.oscTrip = true → s.earlyTrip = false →
    ∃ t, exec (.tbLoss true) s = .next t ∧ t.pending = s.pending ∧ t.tbas.running = false ∧ t.tbas.lost = true ∧
      t.tick = s.tick ∧
      t.get Fd.TBAS_TB_STAT_TB_LOSS = 1 ∧ t.get (Fd.SAFE_CAUSE_CAUSE.bit 9) = 1 ∧ t.safeSt = stSAFE ∧ t.chip.oscTrip = false ∧
      if s.get Fd.CHIP_OSC_STAT_BLAME = 2 then t.get Fd.CHIP_OSC_STAT_ROSC_OK = 0 ∧ t.mgmt.booted = false ∧ t.fwRuns = false
      else t.get Fd.CHIP_OSC_STAT_XO_OK = 0 ∧ t.get Fd.TBAS_TB_STAT_PLL_LOCK = 0) ∧
  (∀ s : State, s.tbas.lost = true → s.get Fd.CHIP_OSC_STAT_ROSC_OK = 1 → s.get Fd.CHIP_OSC_STAT_XO_OK = 1 →
    ∃ t, exec .tbRestart s = .next t ∧ t.pending = s.pending ∧ t.tbas.running = true ∧ t.tbas.lost = false ∧ t.tick = 0 ∧
      t.scan.shotQ = [] ∧ t.scan.actQ = [] ∧ t.get Fd.TBAS_TB_STAT_PLL_LOCK = 1 ∧
      t.get Fd.TBAS_ERA_ERA = min (s.tbas.bestEra + 1) (2 ^ 32 - 1) ∧
      t.tbas.bestEra = max s.tbas.bestEra (min (s.tbas.bestEra + 1) (2 ^ 32 - 1)) ∧
      ∀ r ∈ [4, 5, 6, 7], t.restarting r = true)

/-- TIU_STOP, TIU_MISS, TIU_CTL_WRITE (R74, R76, R79): a crossing inside the window gives d = raw − MDLY, with MDLY as at the fire
tick, and closes the stop, and one that the comparator does not report is no stop; a window that closes without one counts a
miss with the mean substituted; a write of NSTAT up to 16 takes it, and STAT_CLR starts every block afresh. Choices of the
model in it: log 15, 19, 33, 100. -/
def Obligations.TiuCompletes : Prop :=
  (∀ (m : Fin 16) (raw : BitVec 16) (s : State) (x : TiuShot), s.tbas.shot = some x → x.stops.testBit m = true →
    s.reportsCrossing m (x.fire + BitVec.ofNat 64 (raw.toNat / 4)) = true → 512 * x.opens ≤ raw.toNat → raw.toNat ≤ 512 * x.closes →
    ∃ t, exec (.tiuStop m raw) s = .next t ∧ s.within [.io, .tbas, .scan, .hst] t ∧
      s.onlyRegs [(Fd.TBAS_TIU_LAST_MISS m).off, (Fd.TBAS_TIU_SEQ_MISSES m).off, (Fd.TBAS_TIU_MAX_MAX m).off,
        (Fd.TBAS_TIU_MIN_MIN m).off, (Fd.TBAS_TIU_SD_SD m).off, (Fd.TBAS_TIU_MEAN_MEAN m).off,
          (Fd.MONI_IN_STAT_XINGS m).off] t ∧
      t.get (Fd.MONI_IN_STAT_XINGS m) = (s.get (Fd.MONI_IN_STAT_XINGS m) + 1) % 2 ^ 16 ∧
      t.get (Fd.TBAS_TIU_LAST_D m) = unsigned 18 ((raw.toNat : Int) - s.getAt x.fire (Fd.TBAS_TIU_MDLY_MDLY m)) ∧
      t.get (Fd.TBAS_TIU_LAST_MISS m) = 0 ∧ t.get (Fd.TBAS_TIU_LAST_DIAG m) = (if x.diag then 1 else 0) ∧
      t.tbas.shot = some { x with stops := x.stops &&& (0xFFFF ^^^ 2 ^ (m : Nat)) }) ∧
  (∀ (m : Fin 16) (raw : BitVec 16) (s : State) (x : TiuShot), s.tbas.shot = some x →
    s.reportsCrossing m (x.fire + BitVec.ofNat 64 (raw.toNat / 4)) = false → exec (.tiuStop m raw) s = .next s) ∧
  (∀ (m : Fin 16) (s : State) (x : TiuShot), s.tbas.shot = some x → x.stops.testBit m = true →
    ∃ t, exec (.tiuMiss m) s = .next t ∧ s.within [.io, .tbas, .scan, .hst] t ∧
      s.onlyRegs [(Fd.TBAS_TIU_LAST_MISS m).off] t ∧ t.get (Fd.TBAS_TIU_LAST_MISS m) = 1 ∧
      t.get (Fd.TBAS_TIU_LAST_D m) = unsigned 18 (roundHalfAway (signed 26 (s.get (Fd.TBAS_TIU_MEAN_MEAN m))) 256) ∧
      (t.block m).misses = (s.block m).misses + 1 ∧
      t.tbas.shot = some { x with stops := x.stops &&& (0xFFFF ^^^ 2 ^ (m : Nat)) }) ∧
  (∀ (who : Actor) (v : Word) (s : State), s.admits (.tiuCtlWrite who v) = true → bitsOf v 4 0 ≤ 16 →
    ∃ t, exec (.tiuCtlWrite who v) s = .next t ∧ s.within [.io, .tbas] t ∧ t.get Fd.TBAS_TIU_CTL_NSTAT = bitsOf v 4 0 ∧
      (bitsOf v 8 8 = 1 → t.tbas.blocks = []) ∧ ∀ a, a ≠ Fd.TBAS_TIU_CTL_NSTAT.off → t.reg a = s.reg a)

/-! ## Ponos -/

/-- The eleven ALU instructions with their shapes and operations (R116). -/
def Sys2Proof.aluRows (e : Fin 8) (f : Fields) : List (Instr × Shape × (Word → Word → Word)) :=
  [(.add e f, shAlu 0x10, fun a b => a + b), (.sub e f, shAlu 0x11, fun a b => a - b),
   (.and e f, shAlu 0x12, fun a b => a &&& b), (.or e f, shAlu 0x13, fun a b => a ||| b),
   (.xor e f, shAlu 0x14, fun a b => a ^^^ b), (.mul e f, shAlu 0x15, fun a b => a * b),
   (.minu e f, shAlu 0x16, fun a b => if a.toNat ≤ b.toNat then a else b),
   (.maxu e f, shAlu 0x17, fun a b => if a.toNat ≤ b.toNat then b else a),
   (.shl e f, shAlu 0x18, fun a b => a <<< (b.toNat % 32)), (.shr e f, shAlu 0x19, fun a b => a >>> (b.toNat % 32)),
   (.sar e f, shAlu 0x1A, fun a b => a.sshiftRight (b.toNat % 32))]

/-- ADD, SUB, AND, OR, XOR, MUL, MINU, MAXU, SHL, SHR, SAR (R116): Gd takes the result modulo 2^32, G0 stays 0, the easel goes on
at the next index; nothing else changes but, for an easel that is stepped, that it halts. -/
def Obligations.AluInstructionsComplete : Prop :=
  ∀ (e : Fin 8) (f : Fields) (s : State), ∀ row ∈ aluRows e f, s.runs row.2.1 e f →
    ∃ t, exec row.1 s = .next t ∧
      t.g e f.d.toNat = (if f.d = 0 then 0 else row.2.2 (s.g e f.a.toNat) (s.opB e f)) ∧
      t.pc e = (s.pc e + 1) % 4096 ∧
      s.easelFrame ((if f.d = 0 then [] else [(Fd.SCAN_EASEL_G_G e f.d.toNat).off]) ++
        [(Fd.SCAN_EASEL_PC_PC e).off, (Fd.SCAN_EASEL_STAT_STATE e).off]) t

/-- CMP, PLOG, MFS, MTS (R117, R118): the condition goes to P[PD] and the special value to Gd; MTS writes HOP or EPC. Choices of
the model in it: log 34. -/
def Obligations.PredicatesAndSpecialsComplete : Prop :=
  (∀ (e : Fin 8) (f : Fields) (s : State), s.runs shCMP e f → f.d.toNat < 6 →
    ∃ t, exec (.cmp e f) s = .next t ∧
      t.p e (pdOf f) = (pdOf f == 0 || cmpCond f.d.toNat (s.g e f.a.toNat) (s.opB e f)) ∧ t.pc e = (s.pc e + 1) % 4096 ∧
      s.easelFrame [(Fd.SCAN_EASEL_PRED_P e).off, (Fd.SCAN_EASEL_PC_PC e).off, (Fd.SCAN_EASEL_STAT_STATE e).off] t) ∧
  (∀ (e : Fin 8) (f : Fields) (s : State), s.runs shPLOG e f → f.d.toNat < 4 →
    ∃ t, exec (.plog e f) s = .next t ∧
      t.p e (pdOf f) = (pdOf f == 0 || plogOp f.d.toNat (s.p e f.a.toNat) (s.p e f.b.toNat)) ∧
      t.pc e = (s.pc e + 1) % 4096 ∧
      s.easelFrame [(Fd.SCAN_EASEL_PRED_P e).off, (Fd.SCAN_EASEL_PC_PC e).off, (Fd.SCAN_EASEL_STAT_STATE e).off] t) ∧
  (∀ (e : Fin 8) (f : Fields) (s : State), s.runs shMFS e f → selOf f < 13 →
    ∃ t, exec (.mfs e f) s = .next t ∧
      t.g e f.d.toNat = (if f.d = 0 then 0 else s.special e (selOf f)) ∧ t.pc e = (s.pc e + 1) % 4096 ∧
      s.easelFrame [(Fd.SCAN_EASEL_G_G e f.d.toNat).off, (Fd.SCAN_EASEL_PC_PC e).off, (Fd.SCAN_EASEL_STAT_STATE e).off] t) ∧
  (∀ (e : Fin 8) (f : Fields) (s : State), s.runs shMTS e f → selOf f = 1 →
    ∃ t, exec (.mts e f) s = .next t ∧
      t.get (Fd.SCAN_EASEL_STAT_HOP e) = (s.g e f.a.toNat).toNat % 256 ∧ t.pc e = (s.pc e + 1) % 4096 ∧
      s.easelFrame [(Fd.SCAN_EASEL_PC_PC e).off, (Fd.SCAN_EASEL_STAT_STATE e).off] t) ∧
  (∀ (e : Fin 8) (f : Fields) (s : State), s.runs shMTS e f → selOf f = 2 →
    ∃ t, exec (.mts e f) s = .next t ∧
      t.get (Fd.SCAN_EASEL_PC_EPC e) = (s.g e f.a.toNat).toNat % 4096 ∧ t.pc e = (s.pc e + 1) % 4096 ∧
      s.easelFrame [(Fd.SCAN_EASEL_PC_PC e).off, (Fd.SCAN_EASEL_STAT_STATE e).off] t)

/-- BR, JAL, JR, LOOP, RETE (R104, R119): the target, the link, the count, and the return from an exception. Choices of the model
in it: log 34, 36. -/
def Obligations.BranchesComplete : Prop :=
  (∀ (e : Fin 8) (f : Fields) (s : State), s.runs shBR e f →
    ∃ t, exec (.br e f) s = .next t ∧ t.pc e = target f ∧
      s.easelFrame [(Fd.SCAN_EASEL_PC_PC e).off, (Fd.SCAN_EASEL_STAT_STATE e).off] t) ∧
  (∀ (e : Fin 8) (f : Fields) (s : State), s.runs shJAL e f →
    ∃ t, exec (.jal e f) s = .next t ∧ t.pc e = target f ∧
      t.g e f.d.toNat = (if f.d = 0 then 0 else BitVec.ofNat 32 ((s.pc e + 1) % 4096)) ∧
      s.easelFrame [(Fd.SCAN_EASEL_G_G e f.d.toNat).off, (Fd.SCAN_EASEL_PC_PC e).off, (Fd.SCAN_EASEL_STAT_STATE e).off] t) ∧
  (∀ (e : Fin 8) (f : Fields) (s : State), s.runs shJR e f →
    ∃ t, exec (.jr e f) s = .next t ∧ t.pc e = (s.g e f.a.toNat).toNat % 4096 ∧
      s.easelFrame [(Fd.SCAN_EASEL_PC_PC e).off, (Fd.SCAN_EASEL_STAT_STATE e).off] t) ∧
  (∀ (e : Fin 8) (f : Fields) (s : State), s.runs shLOOP e f →
    ∃ t, exec (.loop e f) s = .next t ∧
      t.g e f.a.toNat = (if f.a = 0 then 0 else s.g e f.a.toNat - 1) ∧
      t.pc e = (if s.g e f.a.toNat = 1 then (s.pc e + 1) % 4096 else target f) ∧
      s.easelFrame [(Fd.SCAN_EASEL_G_G e f.a.toNat).off, (Fd.SCAN_EASEL_PC_PC e).off, (Fd.SCAN_EASEL_STAT_STATE e).off] t) ∧
  (∀ (e : Fin 8) (f : Fields) (s : State), s.runs shRETE e f → s.get (Fd.SCAN_EASEL_STAT_EXL e) = 1 →
    ∃ t, exec (.rete e f) s = .next t ∧ t.pc e = s.get (Fd.SCAN_EASEL_PC_EPC e) ∧
      t.get (Fd.SCAN_EASEL_STAT_EXL e) = 0 ∧ t.get (Fd.SCAN_EASEL_PRED_P e) = ((s.easel e).epred ||| 1) % 256 ∧
      s.easelFrame [(Fd.SCAN_EASEL_PRED_P e).off, (Fd.SCAN_EASEL_PC_PC e).off, (Fd.SCAN_EASEL_STAT_STATE e).off] t)

/-- LD, ST, LDT, STT (R85, R120): an aligned access inside the data space loads the register, or stores the bytes in data memory and
no other byte, or the words in the shared scratch and no other word. -/
def Obligations.LoadsAndStoresComplete : Prop :=
  (∀ (e : Fin 8) (f : Fields) (s : State), s.runs shLD e f → accessCause (s.addr e f) 4 false = none →
    ∃ t, exec (.ld e f) s = .next t ∧
      t.g e f.d.toNat = (if f.d = 0 then 0 else BitVec.ofNat 32 (s.load e (s.addr e f) 4)) ∧
      t.pc e = (s.pc e + 1) % 4096 ∧
      s.easelFrame [(Fd.SCAN_EASEL_G_G e f.d.toNat).off, (Fd.SCAN_EASEL_PC_PC e).off, (Fd.SCAN_EASEL_STAT_STATE e).off] t) ∧
  (∀ (e : Fin 8) (f : Fields) (s : State), s.runs shST e f → s.addr e f % 4 = 0 → isDataMem (s.addr e f) = true →
    ∃ t, exec (.st e f) s = .next t ∧ s.within [.io, .scan] t ∧ t.pc e = (s.pc e + 1) % 4096 ∧
      (∀ i, i < 4 → t.dmByte e (s.addr e f + i) = BitVec.ofNat 8 ((s.g e f.b.toNat).toNat / 256 ^ i)) ∧
      (∀ k, (∀ i, i < 4 → k ≠ e * 16384 + s.addr e f + i) →
        rd (fun _ => 0) t.scan.dm k = rd (fun _ => 0) s.scan.dm k) ∧
      (∀ a, a ∉ [(Fd.SCAN_EASEL_PC_PC e).off, (Fd.SCAN_EASEL_STAT_STATE e).off] → t.reg a = s.reg a)) ∧
  (∀ (e : Fin 8) (f : Fields) (s : State), s.runs shST e f → s.addr e f % 4 = 0 → isScratch (s.addr e f) = true →
    ∃ t, exec (.st e f) s = .next t ∧ s.within [.io, .scan] t ∧ t.pc e = (s.pc e + 1) % 4096 ∧ t.scan.dm = s.scan.dm ∧
      t.reg (0x004E0000 + (s.addr e f - 0x00040000)) = s.g e f.b.toNat ∧
      (∀ a, a ∉ [0x004E0000 + (s.addr e f - 0x00040000), (Fd.SCAN_EASEL_PC_PC e).off, (Fd.SCAN_EASEL_STAT_STATE e).off] →
        t.reg a = s.reg a)) ∧
  (∀ (e : Fin 8) (f : Fields) (s : State), s.runs shLDT e f → accessCause (s.addr e f) 8 false = none →
    ∃ t, exec (.ldt e f) s = .next t ∧
      t.t e f.d.toNat = BitVec.ofNat 64 (s.load e (s.addr e f) 8) ∧ t.pc e = (s.pc e + 1) % 4096 ∧
      s.easelFrame [(Fd.SCAN_EASEL_T_WORD e (2 * f.d.toNat)).off, (Fd.SCAN_EASEL_T_WORD e (2 * f.d.toNat + 1)).off,
        (Fd.SCAN_EASEL_PC_PC e).off, (Fd.SCAN_EASEL_STAT_STATE e).off] t) ∧
  (∀ (e : Fin 8) (f : Fields) (s : State), s.runs shSTT e f → s.addr e f % 8 = 0 → isDataMem (s.addr e f) = true →
    ∃ t, exec (.stt e f) s = .next t ∧ s.within [.io, .scan] t ∧ t.pc e = (s.pc e + 1) % 4096 ∧
      (∀ i, i < 8 → t.dmByte e (s.addr e f + i) = BitVec.ofNat 8 ((s.t e f.b.toNat).toNat / 256 ^ i)) ∧
      (∀ k, (∀ i, i < 8 → k ≠ e * 16384 + s.addr e f + i) →
        rd (fun _ => 0) t.scan.dm k = rd (fun _ => 0) s.scan.dm k) ∧
      (∀ a, a ∉ [(Fd.SCAN_EASEL_PC_PC e).off, (Fd.SCAN_EASEL_STAT_STATE e).off] → t.reg a = s.reg a)) ∧
  (∀ (e : Fin 8) (f : Fields) (s : State), s.runs shSTT e f → s.addr e f % 8 = 0 → isScratch (s.addr e f) = true →
    ∃ t, exec (.stt e f) s = .next t ∧ s.within [.io, .scan] t ∧ t.pc e = (s.pc e + 1) % 4096 ∧
      t.reg (0x004E0000 + (s.addr e f - 0x00040000)) = BitVec.ofNat 32 (s.t e f.b.toNat).toNat ∧
      t.reg (0x004E0000 + (s.addr e f - 0x00040000) + 4) = BitVec.ofNat 32 ((s.t e f.b.toNat).toNat / 2 ^ 32) ∧
      t.scan.dm = s.scan.dm ∧
      (∀ a, a ∉ [0x004E0000 + (s.addr e f - 0x00040000), 0x004E0000 + (s.addr e f - 0x00040000) + 4,
        (Fd.SCAN_EASEL_PC_PC e).off, (Fd.SCAN_EASEL_STAT_STATE e).off] → t.reg a = s.reg a))

/-- NOW, WAITT, WAITT_RESUME, SETT, TCMP, TGET, TPUT (R121): the time of day with its low 7 bits 0; a tick already reached
completes WAITT at once, one not yet reached is waited for, and reaching it lets the easel go on; sums, comparisons and halves
of time registers. Choices of the model in it: log 1, 3, 34. -/
def Obligations.TimeInstructionsComplete : Prop :=
  (∀ (e : Fin 8) (f : Fields) (s : State), s.runs shNOW e f →
    ∃ t, exec (.now e f) s = .next t ∧
      s.easelFrame [(Fd.SCAN_EASEL_T_WORD e (2 * f.d.toNat)).off, (Fd.SCAN_EASEL_T_WORD e (2 * f.d.toNat + 1)).off,
        (Fd.SCAN_EASEL_PC_PC e).off, (Fd.SCAN_EASEL_STAT_STATE e).off] t ∧
      t.t e f.d.toNat = s.tick &&& BitVec.ofNat 64 (2 ^ 64 - 128) ∧ t.pc e = (s.pc e + 1) % 4096) ∧
  (∀ (e : Fin 8) (f : Fields) (s : State), s.runs shWAITT e f → (s.t e f.a.toNat).toNat ≤ s.tick.toNat →
    ∃ t, exec (.waitt e f) s = .next t ∧ s.easelFrame [(Fd.SCAN_EASEL_PC_PC e).off, (Fd.SCAN_EASEL_STAT_STATE e).off] t ∧
      t.pc e = (s.pc e + 1) % 4096) ∧
  (∀ (e : Fin 8) (f : Fields) (s : State), s.runs shWAITT e f → s.tick.toNat < (s.t e f.a.toNat).toNat →
    ∃ t, exec (.waitt e f) s = .next t ∧ s.easelFrame [(Fd.SCAN_EASEL_STAT_STATE e).off] t ∧
      (t.easel e).wait = .time (s.t e f.a.toNat) ∧ t.isWaiting e = true ∧
      t.pc e = s.pc e) ∧
  (∀ (e : Fin 8) (s : State) (w : Wide), (s.easel e).wait = .time w → (s.easel e).stepping = false → s.timely w = true →
    ∃ t, exec (.waittResume e) s = .next t ∧ s.within [.io, .scan] t ∧
      s.onlyRegs [(Fd.SCAN_EASEL_STAT_STATE e).off, (Fd.SCAN_EASEL_PC_PC e).off] t ∧ t.tick = (s.reach w).tick ∧
      (t.easel e).wait = .none ∧
      t.isRunning e = true ∧ t.pc e = (s.pc e + 1) % 4096) ∧
  (∀ (e : Fin 8) (f : Fields) (s : State), s.runs shSETT e f → xbits f 32 32 = 0 ∨ f.a = 0 →
    ∃ t, exec (.sett e f) s = .next t ∧
      s.easelFrame [(Fd.SCAN_EASEL_T_WORD e (2 * f.d.toNat)).off, (Fd.SCAN_EASEL_T_WORD e (2 * f.d.toNat + 1)).off,
        (Fd.SCAN_EASEL_PC_PC e).off, (Fd.SCAN_EASEL_STAT_STATE e).off] t ∧ t.pc e = (s.pc e + 1) % 4096 ∧
      t.t e f.d.toNat = (if xbits f 32 32 = 1 then 0 else s.t e f.a.toNat)
        + (if immForm f then (imm f).signExtend 64 else (s.g e f.b.toNat).zeroExtend 64) <<< (8 * xbits f 35 34)) ∧
  (∀ (e : Fin 8) (f : Fields) (s : State), s.runs shTCMP e f → f.d.toNat < 4 →
    ∃ t, exec (.tcmp e f) s = .next t ∧
      s.easelFrame [(Fd.SCAN_EASEL_PRED_P e).off, (Fd.SCAN_EASEL_PC_PC e).off, (Fd.SCAN_EASEL_STAT_STATE e).off] t ∧
      t.pc e = (s.pc e + 1) % 4096 ∧
      t.p e (pdOf f) = (pdOf f == 0 || tcmpCond f.d.toNat (s.t e f.a.toNat) (s.t e f.b.toNat))) ∧
  (∀ (e : Fin 8) (f : Fields) (s : State), s.runs shTGET e f →
    ∃ t, exec (.tget e f) s = .next t ∧
      s.easelFrame [(Fd.SCAN_EASEL_G_G e f.d.toNat).off, (Fd.SCAN_EASEL_PC_PC e).off, (Fd.SCAN_EASEL_STAT_STATE e).off] t ∧
      t.pc e = (s.pc e + 1) % 4096 ∧
      t.g e f.d.toNat = (if f.d = 0 then 0 else
        BitVec.ofNat 32 ((s.t e f.a.toNat).toNat / (if xbits f 32 32 = 1 then 2 ^ 32 else 1)))) ∧
  (∀ (e : Fin 8) (f : Fields) (s : State), s.runs shTPUT e f →
    ∃ t, exec (.tput e f) s = .next t ∧
      s.easelFrame [(Fd.SCAN_EASEL_T_WORD e (2 * f.d.toNat)).off, (Fd.SCAN_EASEL_T_WORD e (2 * f.d.toNat + 1)).off,
        (Fd.SCAN_EASEL_PC_PC e).off, (Fd.SCAN_EASEL_STAT_STATE e).off] t ∧ t.pc e = (s.pc e + 1) % 4096 ∧
      (t.t e f.d.toNat).toNat = (s.g e f.b.toNat).toNat * 2 ^ 32 + (s.g e f.a.toNat).toNat)

/-- SHOT, TRAIN, LISTENONLY, STAG, WINDOW, ZOOM, HSWAP, STACK, LINE (R87, R122 to R129): a legal timed action presents its request
at the easel's port and waits for the arbiter; ARBITER_REQUEST answers the first easel of the round robin whose request can
enter, and a line that passes the checks (R89 to R92) takes the line sequence, becomes the easel's current line, and its
instruction completes. Choices of the model in it: log 34, 36. -/
def Obligations.TimedActionsComplete : Prop :=
  (∀ (e : Fin 8) (f : Fields) (s : State), ∀ row ∈ (
      [(.shot e f, shSHOT, true, .shot (s.t e f.a.toNat)),
       (.window e f, shWINDOW, decide (3 ≤ (windowIn (s.g e f.a.toNat)).kbin ∧ (windowIn (s.g e f.a.toNat)).kbin ≤ 8)
          && decide (32768 ≤ (windowIn (s.g e f.a.toNat)).lenTicks),
        .window (windowIn (s.g e f.a.toNat)) (imm f).toNat),
       (.zoom e f, shZOOM, decide ((zoomIn f (s.g e f.a.toNat) (s.g e f.b.toNat)).first
          + (zoomIn f (s.g e f.a.toNat) (s.g e f.b.toNat)).count ≤ 1024),
        .zoom (zoomIn f (s.g e f.a.toNat) (s.g e f.b.toNat))),
       (.hswap e f, shHSWAP, true, .swap (s.t e f.a.toNat) (imm f).toNat),
       (.stack e f, shSTACK, true, .stack { en := (s.g e f.a.toNat).getLsbD 0,
                                            depth := bitsOf (s.g e f.a.toNat) 4 1 + 1,
                                            clr := (s.g e f.a.toNat).getLsbD 5 }),
       (.stag e f, shSTAG, (s.g e f.b.toNat).toNat % 16 == 0 && decide ((s.g e f.b.toNat).toNat ≤ 0x3FF0),
        .stag (s.t e f.a.toNat) ((List.range 16).map fun i => (s.dmByte e ((s.g e f.b.toNat).toNat + i)).toNat)),
       (.train e f, shTRAIN, true, .train (s.t e f.a.toNat) (xbits f 5 0 + 1) (xbits f 8 8 == 1) (xbits f 9 9 == 1) false
          ((s.g e f.b.toNat).toNat % 256)),
       (.listenonly e f, shLISTENONLY, true, .train (s.t e f.a.toNat) (xbits f 5 0 + 1) (xbits f 8 8 == 1)
          (xbits f 9 9 == 1) true ((s.g e f.b.toNat).toNat % 256)),
       (.line e f, shLINE, decide (128000 ≤ xbits f 27 0 ∧ xbits f 27 0 ≤ 134217728) && xbits f 29 28 != 3
          && !s.isSwapPoint e (s.t e f.a.toNat) (xbits f 30 30 == 1) && !s.isHushPoint (s.t e f.a.toNat) (xbits f 30 30 == 1),
        .line ((s.g e f.b.toNat).toNat % 1024) (s.t e f.a.toNat) (xbits f 27 0) (xbits f 30 30 == 1) (xbits f 29 28))] :
      List (Instr × Shape × Bool × Request)),
    s.runs row.2.1 e f → row.2.2.1 = true →
    ∃ t, exec row.1 s = .next t ∧ t.isWaiting e = true ∧ (t.easel e).wait = .arbiter ∧
      (t.easel e).port = some { req := row.2.2.2, gd := f.d.toNat, pd := pdOf f } ∧ t.pc e = s.pc e ∧
      s.easelFrame [(Fd.SCAN_EASEL_STAT_STATE e).off] t) ∧
  (∀ (e : Fin 8) (s : State) (p : Port) (desc : Nat) (l : Wide) (d : Nat) (frame : Bool) (lmode : Nat),
    (s.easel e).port = some p → p.req = .line desc l d frame lmode → p.gd < 32 → (s.easel e).stepping = false →
    s.tbas.running = true → s.restarting 2 = false → s.turns.find? s.canEnter = some e →
    s.isLate l = false → s.isOutOfOrder e l = false → s.isLineBusy l = false →
    ∃ t, exec .arbiterRequest s = .next t ∧ s.within [.io, .scan, .lnk, .secu, .chip] t ∧ s.onlyRegions [0, 2] t ∧
      t.g e p.gd = (if p.gd = 0 then 0 else BitVec.ofNat 32 (s.get Fd.SCAN_LINE_SEQ_SEQ)) ∧
      t.get Fd.SCAN_LINE_SEQ_SEQ = (s.get Fd.SCAN_LINE_SEQ_SEQ + 1) % 2 ^ 32 ∧
      (t.easel e).cur = some (BitVec.ofNat 32 (s.get Fd.SCAN_LINE_SEQ_SEQ)) ∧ (t.easel e).prev = some l ∧
      (t.easel e).port = none ∧ t.isRunning e = true ∧ t.pc e = (s.pc e + 1) % 4096 ∧
      t.scan.actQ.length = s.scan.actQ.length + 1 ∧ t.scan.lastServed = e) ∧
  (∀ (e : Fin 8) (s : State), s.tbas.running = true → s.restarting 2 = false → s.turns.find? s.canEnter = some e.val →
    ∃ t, exec .arbiterRequest s = .next t ∧ (t.easel e).port = none ∧ (t.easel e).wait = .none ∧ t.scan.lastServed = e)

/-- PEEK, SUMWAIT, SKETCH, PROOF, COMMIT (R130 to R132): a digest entry is read whole; a complete digest completes SUMWAIT, one
not yet complete is waited for; an open staged register of a region scan programs reach is staged; a proof starts; an accepted
commit answers with the status, and is FIXED as its instant says, or waits. Choices of the model in it: log 18, 19, 21, 34,
83. -/
def Obligations.FeedbackAndConfigurationComplete : Prop :=
  (∀ (e : Fin 8) (f : Fields) (s : State), s.runs shPEEK e f → f.d.toNat % 4 = 0 → 4 ≤ f.d.toNat → f.d.toNat ≤ 28 →
    ∃ t, exec (.peek e f) s = .next t ∧
      s.easelFrame [(Fd.SCAN_EASEL_G_G e (f.d.toNat + 0)).off, (Fd.SCAN_EASEL_G_G e (f.d.toNat + 1)).off,
        (Fd.SCAN_EASEL_G_G e (f.d.toNat + 2)).off, (Fd.SCAN_EASEL_G_G e (f.d.toNat + 3)).off, (Fd.SCAN_EASEL_PRED_P e).off,
          (Fd.SCAN_EASEL_PC_PC e).off, (Fd.SCAN_EASEL_STAT_STATE e).off] t ∧ t.pc e = (s.pc e + 1) % 4096 ∧
      (∀ i, i < 4 → t.g e (f.d.toNat + i) =
        s.reg (digestAddr (s.g e f.a.toNat) ((s.g e f.b.toNat).toNat % 32) + 4 * i)) ∧
      t.p e (pdOf f) = (pdOf f == 0 ||
        (bitsOf (s.reg (digestAddr (s.g e f.a.toNat) ((s.g e f.b.toNat).toNat % 32) + 4)) 31 31 == 1
          && s.reg (digestAddr (s.g e f.a.toNat) ((s.g e f.b.toNat).toNat % 32)) == s.g e f.a.toNat))) ∧
  (∀ (e : Fin 8) (f : Fields) (s : State), s.runs shSUMWAIT e f → s.digestDone (s.g e f.a.toNat) = true →
    ∃ t, exec (.sumwait e f) s = .next t ∧ s.easelFrame [(Fd.SCAN_EASEL_PC_PC e).off, (Fd.SCAN_EASEL_STAT_STATE e).off] t ∧
      t.pc e = (s.pc e + 1) % 4096) ∧
  (∀ (e : Fin 8) (f : Fields) (s : State), s.runs shSUMWAIT e f → s.digestDone (s.g e f.a.toNat) = false →
    ∃ t, exec (.sumwait e f) s = .next t ∧ s.easelFrame [(Fd.SCAN_EASEL_STAT_STATE e).off] t ∧ t.isWaiting e = true ∧
      (t.easel e).wait = .digest (s.g e f.a.toNat) ∧
      t.pc e = s.pc e) ∧
  (∀ (e : Fin 8) (f : Fields) (s : State), s.runs shSKETCH e f → s.addr e f % 4 = 0 → sketchRegion (s.addr e f) = true →
    stagedMask (normalAddr (s.addr e f)) ≠ 0 → s.gated (normalAddr (s.addr e f)) = false →
    s.withheld .host (normalAddr (s.addr e f)) true (s.g e f.b.toNat) = false →
    ∃ t, exec (.sketch e f) s = .next t ∧ s.within [.io, .scan, .chip] t ∧
      s.onlyRegs [Fd.CHIP_SKETCH_GEN_GEN.off, Fd.CHIP_PROOF_STATUS_STALE.off, (Fd.SCAN_EASEL_PC_PC e).off,
        (Fd.SCAN_EASEL_STAT_STATE e).off] t ∧ t.pc e = (s.pc e + 1) % 4096 ∧
      t.sketchWord (normalAddr (s.addr e f)) = merge (stagedMask (normalAddr (s.addr e f)))
        (s.sketchWord (normalAddr (s.addr e f))) (s.g e f.b.toNat)) ∧
  (∀ (e : Fin 8) (f : Fields) (s : State), s.runs shPROOF e f →
    ∃ t, exec (.proof e f) s = .next t ∧ s.within [.io, .scan, .chip] t ∧
      s.onlyRegs [Fd.CHIP_PROOF_GO.off, Fd.CHIP_PROOF_STATUS_STATE.off, (Fd.SCAN_EASEL_PC_PC e).off,
        (Fd.SCAN_EASEL_STAT_STATE e).off] t ∧ t.pc e = (s.pc e + 1) % 4096 ∧ t.get Fd.CHIP_PROOF_STATUS_STATE = 1 ∧
      t.chip.proofGen = s.get Fd.CHIP_SKETCH_GEN_GEN) ∧
  (∀ (e : Fin 8) (f : Fields) (s : State), s.runs shCOMMIT e f → xbits f 1 0 = 3 ∨ f.a = 0 →
    s.refusal (xbits f 1 0) (s.t e f.a.toNat) = (0, 0) →
    ∃ t, exec (.commit e f false) s = .next t ∧ s.within [.io, .scan, .mgmt, .secu, .chip] t ∧
      s.onlyRegions [0, 2, 8, 9, 10, 11] t ∧ t.pc e = (s.pc e + 1) % 4096 ∧
      t.get Fd.CHIP_COMMIT_STATUS_SRC = 2 + e ∧ t.p e (pdOf f) = true ∧
      (f.d ≠ 0 → t.g e f.d.toNat = t.reg Fd.CHIP_COMMIT_STATUS_STATE.off) ∧
      match if xbits f 1 0 = 0 then some (s.tick + 512000)
        else if xbits f 1 0 = 3 then some (s.t e f.a.toNat)
        else (s.scan.lines.find? (qualifies e (xbits f 1 0 == 2) s.tick)).map LineRec.start with
      | some v => t.get Fd.CHIP_COMMIT_STATUS_STATE = 2 ∧ t.varnishTick = v
      | none => t.get Fd.CHIP_COMMIT_STATUS_STATE = 1 ∧ t.commitWaiting = true)

/-- SIGNAL, WAITSIG, SEMAPHORE, LEDGER, YIELD, HALT (R101, R102, R133 to R135): a signal nobody waits for stays set, and one
waited for lets the lowest waiter go on; WAITSIG consumes a set signal and waits for one that is not; a semaphore counts down,
never waits at 0, and counts up to 255; LEDGER reads the published allowance and compares it; YIELD goes on; HALT halts at the
next index. Choices of the model in it: log 34. -/
def Obligations.SynchronisationComplete : Prop :=
  (∀ (e : Fin 8) (f : Fields) (s : State), s.runs shSIGNAL e f →
    (∀ k ∈ easelList, (s.easel k).wait ≠ .signal (xbits f 3 0)) →
    ∃ t, exec (.signal e f) s = .next t ∧ s.within [.io, .scan] t ∧
      s.onlyRegs [Fd.SCAN_SIG_SIG.off, (Fd.SCAN_EASEL_PC_PC e).off, (Fd.SCAN_EASEL_STAT_STATE e).off] t ∧
      t.get (Fd.SCAN_SIG_SIG.bit (xbits f 3 0)) = 1 ∧
      t.pc e = (s.pc e + 1) % 4096) ∧
  (∀ (e k : Fin 8) (f : Fields) (s : State), s.runs shSIGNAL e f → k ≠ e → (s.easel k).stepping = false →
    easelList.find? (fun k => (s.easel k).wait = .signal (xbits f 3 0)) = some k.val →
    ∃ t, exec (.signal e f) s = .next t ∧ s.within [.io, .scan] t ∧ s.onlyRegions [2] t ∧
      t.get (Fd.SCAN_SIG_SIG.bit (xbits f 3 0)) = 0 ∧ t.pc e = (s.pc e + 1) % 4096 ∧
      (t.easel k).wait = .none ∧ t.isRunning k = true ∧ t.pc k = (s.pc k + 1) % 4096) ∧
  (∀ (e : Fin 8) (f : Fields) (s : State), s.runs shWAITSIG e f → s.get (Fd.SCAN_SIG_SIG.bit (xbits f 3 0)) = 0 →
    ∃ t, exec (.waitsig e f) s = .next t ∧ s.easelFrame [(Fd.SCAN_EASEL_STAT_STATE e).off] t ∧
      (t.easel e).wait = .signal (xbits f 3 0) ∧ t.isWaiting e = true ∧ t.pc e = s.pc e) ∧
  (∀ (e : Fin 8) (f : Fields) (s : State), s.runs shWAITSIG e f → s.get (Fd.SCAN_SIG_SIG.bit (xbits f 3 0)) = 1 →
    ∃ t, exec (.waitsig e f) s = .next t ∧ s.within [.io, .scan] t ∧
      s.onlyRegs [Fd.SCAN_SIG_SIG.off, (Fd.SCAN_EASEL_PC_PC e).off, (Fd.SCAN_EASEL_STAT_STATE e).off] t ∧
      t.get (Fd.SCAN_SIG_SIG.bit (xbits f 3 0)) = 0 ∧
      t.pc e = (s.pc e + 1) % 4096) ∧
  (∀ (e : Fin 8) (f : Fields) (s : State), s.runs shSEMAPHORE e f → xbits f 32 32 = 1 → pdOf f = 0 →
    ∃ t, exec (.semaphore e f) s = .next t ∧ s.within [.io, .scan] t ∧ s.onlyRegions [2] t ∧ t.pc e = (s.pc e + 1) % 4096 ∧
      t.get (Fd.SCAN_SEM_COUNT (xbits f 2 0)) = min (s.get (Fd.SCAN_SEM_COUNT (xbits f 2 0)) + 1) 255) ∧
  (∀ (e : Fin 8) (f : Fields) (s : State), s.runs shSEMAPHORE e f → xbits f 32 32 = 0 →
    s.get (Fd.SCAN_SEM_COUNT (xbits f 2 0)) ≠ 0 →
    ∃ t, exec (.semaphore e f) s = .next t ∧ s.within [.io, .scan] t ∧ s.onlyRegions [2] t ∧ t.pc e = (s.pc e + 1) % 4096 ∧
      t.p e (pdOf f) = true ∧
      t.get (Fd.SCAN_SEM_COUNT (xbits f 2 0)) = s.get (Fd.SCAN_SEM_COUNT (xbits f 2 0)) - 1) ∧
  (∀ (e : Fin 8) (f : Fields) (s : State), s.runs shSEMAPHORE e f → xbits f 32 32 = 0 →
    s.get (Fd.SCAN_SEM_COUNT (xbits f 2 0)) = 0 →
    ∃ t, exec (.semaphore e f) s = .next t ∧
      s.easelFrame [(Fd.SCAN_EASEL_PRED_P e).off, (Fd.SCAN_EASEL_PC_PC e).off, (Fd.SCAN_EASEL_STAT_STATE e).off] t ∧
      t.pc e = (s.pc e + 1) % 4096 ∧ t.p e (pdOf f) = (pdOf f == 0)) ∧
  (∀ (e : Fin 8) (f : Fields) (s : State), s.runs shLEDGER e f → bitsOf (s.g e f.a.toNat) 9 8 ≠ 3 →
    ∃ t, exec (.ledger e f) s = .next t ∧ t.pc e = (s.pc e + 1) % 4096 ∧
      s.easelFrame [(Fd.SCAN_EASEL_G_G e f.d.toNat).off, (Fd.SCAN_EASEL_PRED_P e).off, (Fd.SCAN_EASEL_PC_PC e).off,
        (Fd.SCAN_EASEL_STAT_STATE e).off] t ∧
      t.p e (pdOf f) = (pdOf f == 0 || decide ((s.opB e f).toNat
        ≤ s.get (Fd.SCAN_LEDG_REMAIN_CU (bitsOf (s.g e f.a.toNat) 9 8) (bitsOf (s.g e f.a.toNat) 5 0)))) ∧
      (t.g e f.d.toNat).toNat = if f.d = 0 then 0
        else s.get (Fd.SCAN_LEDG_REMAIN_CU (bitsOf (s.g e f.a.toNat) 9 8) (bitsOf (s.g e f.a.toNat) 5 0))) ∧
  (∀ (e : Fin 8) (f : Fields) (s : State), s.runs shYIELD e f →
    ∃ t, exec (.yield e f) s = .next t ∧ t.pc e = (s.pc e + 1) % 4096 ∧
      s.easelFrame [(Fd.SCAN_EASEL_PC_PC e).off, (Fd.SCAN_EASEL_STAT_STATE e).off] t) ∧
  (∀ (e : Fin 8) (f : Fields) (s : State), s.runs shHALT e f →
    ∃ t, exec (.halt e f) s = .next t ∧ s.within [.io, .scan] t ∧
      s.onlyRegs [(Fd.SCAN_EASEL_PC_PC e).off, (Fd.SCAN_EASEL_STAT_STATE e).off] t ∧ t.isHalted e = true ∧
      t.pc e = (s.pc e + 1) % 4096 ∧ (t.easel e).wait = .none)

/-- TRAP, UNDEFINED_OPCODE, WATCHDOG (R84, R104, R106, R135): outside an exception each enters the handler at 16 × EVB.BASE +
cause with EXL set, the raising and the return index saved, and the cause in ECAUSE. Choices of the model in it: log 1, 3,
        34. -/
def Obligations.ExceptionsAreTaken : Prop :=
  (∀ (e : Fin 8) (f : Fields) (s : State), s.runs shTRAP e f → s.get (Fd.SCAN_EASEL_STAT_EXL e) = 0 →
    ∃ t, exec (.trap e f) s = .next t ∧ s.within [.io, .scan] t ∧
      s.onlyRegs [(Fd.SCAN_EASEL_STAT_STATE e).off, (Fd.SCAN_EASEL_EDETAIL_DETAIL e).off, (Fd.SCAN_EASEL_ECAUSE_FPC e).off,
        (Fd.SCAN_EASEL_PC_EPC e).off] t ∧ t.get (Fd.SCAN_EASEL_ECAUSE_CAUSE e) = 8 ∧
      t.get (Fd.SCAN_EASEL_STAT_EXL e) = 1 ∧ t.get (Fd.SCAN_EASEL_EDETAIL_DETAIL e) = (imm f).toNat ∧
      t.pc e = (16 * s.get (Fd.SCAN_EASEL_EVB_BASE e) + 8) % 4096 ∧
      t.get (Fd.SCAN_EASEL_PC_EPC e) = (s.pc e + 1) % 4096 ∧ t.get (Fd.SCAN_EASEL_ECAUSE_FPC e) = s.pc e ∧
      (t.easel e).epred = s.get (Fd.SCAN_EASEL_PRED_P e)) ∧
  (∀ (e : Fin 8) (w : Wide) (s : State), definedOpcodes.contains (opcOf w) = false → s.isRunning e = true →
    s.get (Fd.SCAN_EASEL_STAT_EXL e) = 0 →
    ∃ t, exec (.undefinedOpcode e w) s = .next t ∧ s.within [.io, .scan] t ∧
      s.onlyRegs [(Fd.SCAN_EASEL_STAT_STATE e).off, (Fd.SCAN_EASEL_EDETAIL_DETAIL e).off, (Fd.SCAN_EASEL_ECAUSE_FPC e).off,
        (Fd.SCAN_EASEL_PC_EPC e).off] t ∧ t.get (Fd.SCAN_EASEL_ECAUSE_CAUSE e) = 1 ∧
      t.get (Fd.SCAN_EASEL_STAT_EXL e) = 1 ∧ t.get (Fd.SCAN_EASEL_EDETAIL_DETAIL e) = w.toNat % 2 ^ 32 ∧
      t.pc e = (16 * s.get (Fd.SCAN_EASEL_EVB_BASE e) + 1) % 4096 ∧
      t.get (Fd.SCAN_EASEL_PC_EPC e) = (s.pc e + 1) % 4096) ∧
  (∀ (e : Fin 8) (s : State), s.isHalted e = false → s.get (Fd.SCAN_EASEL_WDOG_LIMIT e) ≠ 0 →
    s.timely (s.wdogTick e) = true → s.get (Fd.SCAN_EASEL_STAT_EXL e) = 0 →
    ∃ t, exec (.watchdog e) s = .next t ∧ s.within [.io, .scan] t ∧
      s.onlyRegs [(Fd.SCAN_EASEL_STAT_STATE e).off, (Fd.SCAN_EASEL_EDETAIL_DETAIL e).off, (Fd.SCAN_EASEL_ECAUSE_FPC e).off,
        (Fd.SCAN_EASEL_PC_EPC e).off] t ∧ t.get (Fd.SCAN_EASEL_ECAUSE_CAUSE e) = 7 ∧
      t.get (Fd.SCAN_EASEL_STAT_WDOG e) = 1 ∧ t.get (Fd.SCAN_EASEL_STAT_EXL e) = 1 ∧
      t.pc e = (16 * s.get (Fd.SCAN_EASEL_EVB_BASE e) + 7) % 4096 ∧
      t.get (Fd.SCAN_EASEL_PC_EPC e) = (if s.isWaiting e then (s.pc e + 1) % 4096 else s.pc e) ∧
      (t.easel e).wdogFrom = t.tick ∧ t.tick = (s.reach (s.wdogTick e)).tick)

/-- EASEL_RUN, EASEL_HALT, EASEL_STEP, EASEL_RESET, SCAN_START, SCAN_START_DUE (R109, R110): a halted easel runs at its PC, though
in HUSH it stays halted (R439; when HUSH begins and ends for it is log 104's choice); a halt leaves PC where it is and
abandons a wait; a step runs the instruction at PC, after which the easel is halted or waits for what that instruction waits
for; a reset halts at PC 0 and clears the registers and the exception state; SCAN_START lets the halted easels of its mask go
together 64 ticks later. Choices of the model in it: log 1, 3, 14, 19, 34, 35, 83. -/
def Obligations.EaselControlCompletes : Prop :=
  (∀ (e : Fin 8) (s : State), s.admits (.easelRun e) = true → s.isHalted e = true → s.chip.hush = 0 →
    ∃ t, exec (.easelRun e) s = .next t ∧ t.isRunning e = true ∧ t.pc e = s.pc e ∧
      s.easelFrame [(Fd.SCAN_EASEL_STAT_STATE e).off] t) ∧
  (∀ (e : Fin 8) (s : State), s.admits (.easelRun e) = true → s.chip.hush ≠ 0 → exec (.easelRun e) s = .next s) ∧
  (∀ (e : Fin 8) (s : State), s.admits (.easelHalt e) = true → s.isHalted e = false →
    ∃ t, exec (.easelHalt e) s = .next t ∧ s.within [.io, .scan] t ∧ s.onlyRegs [(Fd.SCAN_EASEL_STAT_STATE e).off] t ∧
      t.isHalted e = true ∧ t.pc e = s.pc e ∧ (t.easel e).port = none ∧
      (t.easel e).wait = .none) ∧
  (∀ (who : Actor) (e : Fin 8) (s : State), s.admits (.easelStep who e) = true → s.isHalted e = true → s.chip.hush = 0 →
    s.withheld who (Fd.SCAN_EASEL_CTL_STEP e).off true 4 = false →
    ∃ t, exec (.easelStep who e) s = .next t ∧
      runWord e (s.fetchWord e) ((s.run e).easel' e fun z => { z with stepping := true }) = .next t ∧
      (t.isHalted e = true ∨ t.isWaiting e = true)) ∧
  (∀ (who : Actor) (e : Fin 8) (s : State), s.admits (.easelStep who e) = true → s.isHalted e = true → s.chip.hush = 0 →
    s.withheld who (Fd.SCAN_EASEL_CTL_STEP e).off true 4 = false → opcOf (s.fetchWord e) = 0x20 →
    shBR.legal (fieldsOf (s.fetchWord e)) = true → s.executes e (fieldsOf (s.fetchWord e)) = true →
    ∃ t, exec (.easelStep who e) s = .next t ∧
      s.easelFrame [(Fd.SCAN_EASEL_STAT_STATE e).off, (Fd.SCAN_EASEL_PC_PC e).off] t ∧
      t.isHalted e = true ∧ t.pc e = target (fieldsOf (s.fetchWord e))) ∧
  (∀ (e : Fin 8) (s : State), s.admits (.easelReset e) = true →
    ∃ t, exec (.easelReset e) s = .next t ∧ s.within [.io, .scan] t ∧ s.onlyRegions [2] t ∧ t.isHalted e = true ∧ t.pc e = 0 ∧
      t.get (Fd.SCAN_EASEL_STAT_HOP e) = 0 ∧ t.get (Fd.SCAN_EASEL_STAT_EXL e) = 0 ∧
      (∀ i, i < 32 → t.g e i = 0) ∧ (∀ i, i < 4 → t.t e i = 0) ∧ (t.easel e).astat = 0 ∧ (t.easel e).epred = 0 ∧
      t.get (Fd.SCAN_EASEL_PRED_P e) = 1 ∧ t.get (Fd.SCAN_EASEL_PC_EPC e) = 0 ∧ t.reg (Fd.SCAN_EASEL_ECAUSE_CAUSE e).off = 0 ∧
      t.reg (Fd.SCAN_EASEL_EDETAIL_DETAIL e).off = 0 ∧ t.scan.dm = s.scan.dm ∧
      t.get (Fd.SCAN_EASEL_STAT_BANK e) = s.get (Fd.SCAN_EASEL_STAT_BANK e)) ∧
  (∀ (mask : Byte) (s : State), s.admits (.scanStart mask) = true → mask ≠ 0 →
    ∃ t, exec (.scanStart mask) s = .next t ∧ s.within [.io, .scan] t ∧ s.onlyRegs [Fd.SCAN_START_MASK.off] t ∧
      t.scan.startDue = s.scan.startDue ||| mask.toNat ∧
      t.scan.startAt = s.tick + 64) ∧
  (∀ (e : Fin 8) (s : State), s.scan.startDue.testBit e = true → s.timely s.scan.startAt = true → s.isHalted e = true →
    s.chip.hush = 0 →
    ∃ t, exec .scanStartDue s = .next t ∧ s.within [.io, .scan] t ∧
      s.onlyRegs (Fd.SCAN_START_MASK.off :: easelList.map fun k => (Fd.SCAN_EASEL_STAT_STATE k).off) t ∧
      t.isRunning e = true ∧
      t.scan.startDue = 0 ∧
      t.get Fd.SCAN_START_MASK = 0 ∧ t.tick = (s.reach s.scan.startAt).tick)

/-- PM_ADDR_WRITE, PM_DATA_READ, PM_DATA_WRITE, DM_DATA_READ, DM_DATA_WRITE, SCAN_SIG_SET, SCAN_SIG_CLEAR (R36, R101, R107): the
windows into the memories move as they are used; the second write of a pair stores the instruction in the inactive bank; of a
clear and a set in one cycle the set wins. Choices of the model in it: log 6, 14, 19, 34, 35. -/
def Obligations.EaselWindowsComplete : Prop :=
  (∀ (who : Actor) (e : Fin 8) (v : Word) (s : State), s.admits (.pmAddrWrite who e v) = true →
    ∃ t, exec (.pmAddrWrite who e v) s = .next t ∧ t.get (Fd.SCAN_EASEL_PM_ADDR_INDEX e) = bitsOf v 11 0 ∧
      t.get (Fd.SCAN_EASEL_PM_ADDR_BANK e) = bitsOf v 12 12 ∧ (t.easel e).pmHigh = false ∧
      s.easelFrame [(Fd.SCAN_EASEL_PM_ADDR_INDEX e).off] t) ∧
  (∀ (who : Actor) (e : Fin 8) (s : State), s.admits (.pmDataRead who e) = true → (s.easel e).pmHigh = false →
    ∃ t, exec (.pmDataRead who e) s = .next t ∧ s.within [.io, .scan] t ∧ (∀ a, t.reg a = s.reg a) ∧
      (t.easel e).pmHigh = true ∧ t.scan.pm = s.scan.pm ∧
      (t.easel e).pmBuf = rd (fun _ => 0) s.scan.pm (s.pmKey e) ∧
      t.io.out = .readData who (Fd.SCAN_EASEL_PM_DATA_DATA e).off
        (BitVec.ofNat 32 (rd (fun _ => 0) s.scan.pm (s.pmKey e)).toNat) :: s.io.out) ∧
  (∀ (who : Actor) (e : Fin 8) (s : State), s.admits (.pmDataRead who e) = true → (s.easel e).pmHigh = true →
    ∃ t, exec (.pmDataRead who e) s = .next t ∧ s.within [.io, .scan] t ∧ s.onlyRegs [(Fd.SCAN_EASEL_PM_ADDR_INDEX e).off] t ∧
      (t.easel e).pmHigh = false ∧ t.scan.pm = s.scan.pm ∧
      t.get (Fd.SCAN_EASEL_PM_ADDR_INDEX e) = (s.get (Fd.SCAN_EASEL_PM_ADDR_INDEX e) + 1) % 4096 ∧
      t.io.out = .readData who (Fd.SCAN_EASEL_PM_DATA_DATA e).off
        (BitVec.ofNat 32 ((s.easel e).pmBuf.toNat / 2 ^ 32)) :: s.io.out) ∧
  (∀ (who : Actor) (e : Fin 8) (v : Word) (s : State), s.admits (.pmDataWrite who e v) = true →
    s.bankLocked e = false → (s.easel e).pmHigh = false →
    ∃ t, exec (.pmDataWrite who e v) s = .next t ∧ s.within [.scan] t ∧ (t.easel e).pmHigh = true ∧ t.scan.pm = s.scan.pm ∧
      (t.easel e).pmBuf.toNat % 2 ^ 32 = v.toNat) ∧
  (∀ (who : Actor) (e : Fin 8) (v : Word) (s : State), s.admits (.pmDataWrite who e v) = true →
    s.bankLocked e = false → (s.easel e).pmHigh = true →
    ∃ t, exec (.pmDataWrite who e v) s = .next t ∧ s.within [.io, .scan] t ∧
      s.onlyRegs [(Fd.SCAN_EASEL_PM_ADDR_INDEX e).off] t ∧ (t.easel e).pmHigh = false ∧
      rd (fun _ => 0) t.scan.pm (s.pmKey e) = BitVec.ofNat 64 ((s.easel e).pmBuf.toNat % 2 ^ 32 + v.toNat * 2 ^ 32) ∧
      (∀ k, k ≠ s.pmKey e → rd (fun _ => 0) t.scan.pm k = rd (fun _ => 0) s.scan.pm k) ∧
      t.get (Fd.SCAN_EASEL_PM_ADDR_INDEX e) = (s.get (Fd.SCAN_EASEL_PM_ADDR_INDEX e) + 1) % 4096) ∧
  (∀ (who : Actor) (e : Fin 8) (s : State), s.admits (.dmDataRead who e) = true →
    ∃ t, exec (.dmDataRead who e) s = .next t ∧ s.within [.io] t ∧ s.onlyRegs [(Fd.SCAN_EASEL_DM_ADDR_WORD e).off] t ∧
      t.scan = s.scan ∧
      t.io.out = .readData who (Fd.SCAN_EASEL_DM_DATA_DATA e).off (BitVec.ofNat 32 (s.dmRead e (s.dmWord e) 4)) :: s.io.out ∧
      t.get (Fd.SCAN_EASEL_DM_ADDR_WORD e) = (s.get (Fd.SCAN_EASEL_DM_ADDR_WORD e) + 1) % 4096) ∧
  (∀ (who : Actor) (e : Fin 8) (v : Word) (s : State), s.admits (.dmDataWrite who e v) = true →
    ∃ t, exec (.dmDataWrite who e v) s = .next t ∧ s.within [.io, .scan] t ∧
      s.onlyRegs [(Fd.SCAN_EASEL_DM_ADDR_WORD e).off] t ∧
      (∀ i, i < 4 → t.dmByte e (s.dmWord e + i) = BitVec.ofNat 8 (v.toNat / 256 ^ i)) ∧
      (∀ k, (∀ i, i < 4 → k ≠ e * 16384 + s.dmWord e + i) →
        rd (fun _ => 0) t.scan.dm k = rd (fun _ => 0) s.scan.dm k) ∧
      t.get (Fd.SCAN_EASEL_DM_ADDR_WORD e) = (s.get (Fd.SCAN_EASEL_DM_ADDR_WORD e) + 1) % 4096) ∧
  (∀ (mask : BitVec 16) (s : State), s.admits (.scanSigSet mask) = true → (∀ k ∈ easelList, ∀ n < 16,
        (s.easel k).wait ≠ .signal n) →
    ∃ t, exec (.scanSigSet mask) s = .next t ∧ s.within [.io] t ∧ s.onlyRegs [Fd.SCAN_SIG_SIG.off] t ∧
      t.get Fd.SCAN_SIG_SIG = s.get Fd.SCAN_SIG_SIG ||| mask.toNat) ∧
  (∀ (mask hw : BitVec 16) (s : State), s.admits (.scanSigClear mask hw) = true →
    (∀ k ∈ easelList, ∀ n < 16, (s.easel k).wait ≠ .signal n) →
    ∃ t, exec (.scanSigClear mask hw) s = .next t ∧ s.within [.io] t ∧ s.onlyRegs [Fd.SCAN_SIG_SIG.off] t ∧
      t.get Fd.SCAN_SIG_SIG = s.get Fd.SCAN_SIG_SIG &&& (~~~mask).toNat ||| hw.toNat)


/-! ## Emission -/

/-- LINE_START, LINE_END, SHOT_FIRE (R15, R88, R90, R139, R142, R374): LSEL changes to the line's matrix address 16 ns before the
LINE tick, which strobes it; at L + D the line stops being current and LSEL keeps its address; an armed shot sends one pulse
on each selected module, whose rise and width are those of its stagger, delay and width code, and starts the TIU; a
listen-only or unarmed shot sends none, and without the rail of the I/O pins none leaves the device (R447). Choices of the
model in it: log 1, 3, 33, 39, 45, 97. -/
def Obligations.LinesAndShotsComplete : Prop :=
  (∀ (s : State) (l : LineRec), s.scan.lines.find? (fun k => !k.started) = some l → s.timely l.start = true →
    s.chip.railIo = true →
    ∃ t, exec .lineStart s = .next t ∧ s.within [.io, .scan, .emt, .lnk, .hst, .memc, .chip] t ∧
      s.onlyRegions [2, 3, 8, 9, 10, 11, 14] t ∧ t.tick = (s.reach l.start).tick ∧ t.get Fd.EMIT_LSEL_STAT_ACTIVE = 1 ∧
      t.get Fd.EMIT_LSEL_STAT_ADDR = s.get (Fd.SCAN_LD0_LSEL l.desc) ∧
      Out.lsel (s.get (Fd.SCAN_LD0_LSEL l.desc)) (l.start - 2048) ∈ t.io.out ∧
      (Out.strobe 8 (s.get (Fd.SCAN_LD0_LSEL l.desc)) ∈ t.io.out ∨ Out.strobe 64 (s.get (Fd.SCAN_LD0_LSEL l.desc)) ∈ t.io.out) ∧
      (∀ k ∈ t.scan.lines, k.seq = l.seq → k.started = true)) ∧
  (∀ (s : State) (l : LineRec), s.dwellLine = some l → s.timely l.finish = true →
    ∃ t, exec .lineEnd s = .next t ∧ s.within [.io, .scan] t ∧ t.tick = (s.reach l.finish).tick ∧
      t.get Fd.EMIT_LSEL_STAT_ACTIVE = 0 ∧
      t.get Fd.EMIT_LSEL_STAT_ADDR = s.get Fd.EMIT_LSEL_STAT_ADDR ∧
      (∀ k ∈ t.scan.lines, k.seq = l.seq → k.ended = true) ∧ ∀ a, a ≠ Fd.EMIT_LSEL_STAT_ACTIVE.off → t.reg a = s.reg a) ∧
  (∀ (s : State) (h : Shot) (rest : List Shot) (l : LineRec), s.scan.shotQ = h :: rest → s.lineOf h.line = some l →
    s.timely h.fire = true → s.armed = true → h.listen = false → s.chip.railIo = true →
    let u := (s.reach h.fire).applyStags h.fire
    let pw := u.getAt h.desc0 (Fd.SCAN_LD0_PW l.desc)
    ∃ t, exec .shotFire s = .next t ∧ s.within [.io, .tbas, .scan, .emt, .hst] t ∧
      s.onlyRegions [1, 2, 3, 8, 9, 10, 11] t ∧ t.tick = (s.reach h.fire).tick ∧ t.scan.shotQ = rest ∧
      t.pulses.length = s.pulses.length + (u.modulesAt h.fire l.desc).length ∧
      (∀ m ∈ u.modulesAt h.fire l.desc,
        let rise := ceilEven (h.fire.toNat + 32 * u.stagOf m + 2 * u.get (Fd.EMIT_FDLY_FDLY m))
        Out.fire m rise (rise + 128 + 16 * pw) ∈ t.io.out) ∧
      ∃ x, t.tbas.shot = some x ∧ x.fire = h.fire ∧ x.line = h.line ∧ x.index = h.index ∧ x.diag = false) ∧
  (∀ (s : State) (h : Shot) (rest : List Shot) (l : LineRec), s.scan.shotQ = h :: rest → s.lineOf h.line = some l →
    s.timely h.fire = true → (s.armed = false ∨ h.listen = true ∨ s.chip.railIo = false) →
    ∃ t, exec .shotFire s = .next t ∧ s.within [.io, .tbas, .scan, .emt, .hst] t ∧
      s.onlyRegions [1, 2, 3, 8, 9, 10, 11] t ∧ t.tick = (s.reach h.fire).tick ∧ t.scan.shotQ = rest ∧ t.pulses = s.pulses)

/-- DIAG_DUE, DIAG_ARM_STROBE, DIAG_PULSE (R141, R158, R159): a line 1 s old is due; the strobe arms the due modules of the dwell;
at G the first armed module, where the ledger admits its charge, is pulsed with no stagger and width code 32, and the TIU
measures it. Choices of the model in it: log 1, 3, 33. -/
def Obligations.DiagnosisCompletes : Prop :=
  (∀ (m : Fin 16) (a : Fin 64) (s : State), s.isDue m a = false →
    s.timely (BitVec.ofInt 64 ((look s.emt.lastDiag (64 * m + a)).getD s.emt.diagFrom + ticksPerS)) = true →
    ∃ t, exec (.diagDue m a) s = .next t ∧ s.within [.io, .emt] t ∧ s.onlyRegions [3] t ∧ t.isDue m a = true ∧
      t.get Fd.EMIT_DIAG_STAT_NDUE = (s.get Fd.EMIT_DIAG_STAT_NDUE + 1) % 2 ^ 11) ∧
  (∀ (s : State) (l : LineRec), s.dwellLine = some l → s.get Fd.EMIT_DIAG_CTL_EN = 1 → s.lineListens l = false →
    s.diagRoom l = true → l.diagClear = true → s.restarting 3 = false → s.dueModules l ≠ [] → s.emt.arm = none → s.timely (l.diagTick - 12800) = true →
    s.chip.railIo = true →
    ∃ t, exec .diagArmStrobe s = .next t ∧ s.within [.io, .emt] t ∧ t.io.out = .strobe 32 (bitsOf l.d0 5 0) :: s.io.out ∧
      t.emt.arm = some { line := l.seq, g := l.diagTick, mods := s.dueModules l } ∧ t.io.regs = s.io.regs) ∧
  (∀ (s : State) (d : DiagArm) (l : LineRec) (m : Nat) (rest : List Nat), s.emt.arm = some d → s.dwellLine = some l →
    d.line = l.seq → d.mods = m :: rest → s.timely d.g = true → s.armed = true → s.chip.railIo = true →
    (s.reach d.g).ledgerAdmits (s.get (Fd.SCAN_LD3_LGRP l.desc)) d.g (s.get (Fd.SCAN_LEDG_EDIAG_CU m)) = true →
    ∃ t, exec .diagPulse s = .next t ∧ s.within [.io, .tbas, .scan, .emt, .hst] t ∧
      s.onlyRegions [1, 2, 3, 8, 9, 10, 11] t ∧ t.emt.arm = none ∧ t.tick = (s.reach d.g).tick ∧
      (let rise := ceilEven (d.g.toNat + 2 * s.get (Fd.EMIT_FDLY_FDLY m))
       Out.fire m rise (rise + 128 + 16 * 32) ∈ t.io.out) ∧
      ∃ x, t.tbas.shot = some x ∧ x.fire = d.g ∧ x.diag = true)

/-- EWIRE_FRAME_START, EWIRE_RETURN, EWIRE_RETURN_TIMEOUT, GAVEUP_CLEAR, HDRM_SAMPLE, QUIET_PAUSE, QUIET_PAUSE_END, LSUP_OV,
LSUP_OV_CLEAR (R145 to R157): at a permitted LINE tick a frame carries one word for each module, the marker and the words that
clock the return; a good return copies each status word; a bad or late one is a frame not delivered, the third in a row of
which sets GAVEUP; the firmware's clear lets frames go on; the headroom keeps its least sample, of those with data; a pause
stops the switching in a quiet window and ends at once by droop, else at the window's end or at QMAX; an overvoltage stops the
switching until the firmware clears it. Choices of the model in it: log 1, 3, 15, 19, 39, 97. -/
def Obligations.EwireAndSupplyComplete : Prop :=
  (∀ s : State,
        s.emt.ewMay = some s.tick → s.restarting 3 = false → s.emt.ewFrame = none → s.get Fd.EMIT_EW_CTL_NMOD ≠ 0 → s.emt.ewHeld = false →
    s.get Fd.EMIT_EW_STAT_GAVEUP = 0 → s.chip.railIo = true →
    ∃ t sent words, exec .ewireFrameStart s = .next t ∧ s.within [.io, .emt] t ∧ s.onlyRegions [] t ∧
      t.emt.ewFrame = some sent ∧ t.io.out = .ewire words :: s.io.out ∧
      sent.length = s.get Fd.EMIT_EW_CTL_NMOD ∧ words.length = 2 * s.get Fd.EMIT_EW_CTL_NMOD + 1 ∧
      words[s.get Fd.EMIT_EW_CTL_NMOD]? = some ewMarker ∧ t.emt.ewMay = none) ∧
  (∀ (words st : List (BitVec 48)) (s : State) (sent : List EwSent), s.emt.ewFrame = some sent →
    ewStatuses sent.length words = some st →
    ∃ t, exec (.ewireReturn words) s = .next t ∧ s.within [.io, .emt] t ∧ s.onlyRegions [3] t ∧ t.emt.ewFrame = none ∧
      t.emt.ewFails = 0 ∧
      t.get Fd.EMIT_EW_STAT_FRAMES = (s.get Fd.EMIT_EW_STAT_FRAMES + 1) % 2 ^ 16 ∧
      ∀ (m : Nat) (w : BitVec 48), st[m]? = some w → t.get (Fd.EMIT_EW_MSTAT_STATUS m) = ewBits w 39 8) ∧
  (∀ (words : List (BitVec 48)) (s : State) (sent : List EwSent), s.emt.ewFrame = some sent →
    ewStatuses sent.length words = none →
    ∃ t, exec (.ewireReturn words) s = .next t ∧ t.emt.ewFrame = none ∧ t.emt.ewFails = s.emt.ewFails + 1 ∧
      t.get Fd.EMIT_EW_STAT_CHAIN_ERR = 1 ∧ (s.emt.ewFails = 2 → t.get Fd.EMIT_EW_STAT_GAVEUP = 1 ∧ t.emt.ewHeld = true)) ∧
  (∀ (s : State) (sent : List EwSent), s.emt.ewFrame = some sent →
    ∃ t, exec .ewireReturnTimeout s = .next t ∧ t.emt.ewFrame = none ∧ t.emt.ewFails = s.emt.ewFails + 1 ∧
      t.get Fd.EMIT_EW_STAT_CHAIN_ERR = 1 ∧ (s.emt.ewFails = 2 → t.get Fd.EMIT_EW_STAT_GAVEUP = 1 ∧ t.emt.ewHeld = true)) ∧
  (∀ (who : Actor) (s : State), s.admits (.gaveupClear who) = true →
    ∃ t, exec (.gaveupClear who) s = .next t ∧ s.within [.io, .emt] t ∧ t.get Fd.EMIT_EW_STAT_GAVEUP = 0 ∧
      (who = .firmware → t.emt.ewHeld = false ∧ t.emt.ewFails = 0) ∧ (who ≠ .firmware → t.emt = s.emt) ∧
      t.get Fd.EMIT_EW_STAT_FRAMES = s.get Fd.EMIT_EW_STAT_FRAMES ∧ ∀ a, a ≠ Fd.EMIT_EW_STAT_GAVEUP.off → t.reg a = s.reg a) ∧
  (∀ (v : BitVec 9) (s : State), s.admits (.hdrmSample v) = true → v.toNat ≤ 400 →
    ∃ t, exec (.hdrmSample v) s = .next t ∧ s.within [.emt] t ∧ t.emt.hmin = some (min (s.emt.hmin.getD v.toNat) v.toNat) ∧
      t.io = s.io) ∧
  (∀ (v : BitVec 9) (s : State), 400 < v.toNat → exec (.hdrmSample v) s = .next s) ∧
  (∀ (s : State) (l : LineRec), s.dwellLine = some l → s.get Fd.EMIT_LSUP_CTL_QEN = 1 → bitsOf l.d2 25 25 = 1 →
    s.get Fd.EMIT_LSUP_STAT_RUN = 1 → s.lsupOn = true → s.restarting 3 = false → (s.quietEnd s.tick).isSome = true →
    (∀ p, s.emt.pauseEnd = some p → (256000 : Int) ≤ ahead p s.tick) → s.chip.railIo = true →
    ∃ t, exec .quietPause s = .next t ∧ s.within [.io, .emt] t ∧ s.onlyRegs [Fd.EMIT_LSUP_STAT_VREF.off] t ∧
      t.emt.paused = true ∧
      t.emt.pauseFrom = s.tick ∧ t.get Fd.EMIT_LSUP_STAT_RUN = 0 ∧
      t.io.out = .lsupPwm false (s.get Fd.EMIT_LSUP_CTL_FSW) (s.get Fd.EMIT_LSUP_ILIM_IPK) :: s.io.out) ∧
  (∀ (vs : BitVec 13) (s : State), s.emt.paused = true →
    vs.toNat + s.get Fd.EMIT_LSUP_QUIET_DROOP < s.get Fd.EMIT_LSUP_STAT_VREF →
    ∃ t, exec (.quietPauseEnd vs) s = .next t ∧ s.within [.io, .emt] t ∧
      s.onlyRegs [Fd.EMIT_LSUP_STAT_VREF.off, Fd.EMIT_LSUP_QBRK_COUNT.off] t ∧ t.emt.paused = false ∧ t.tick = s.tick ∧
      t.emt.pauseEnd = some s.tick ∧ t.get Fd.EMIT_LSUP_STAT_VOUT = vs.toNat ∧
      t.get Fd.EMIT_LSUP_QBRK_COUNT = (s.get Fd.EMIT_LSUP_QBRK_COUNT + 1) % 2 ^ 32) ∧
  (∀ (vs : BitVec 13) (s : State), s.emt.paused = true →
    s.get Fd.EMIT_LSUP_STAT_VREF ≤ vs.toNat + s.get Fd.EMIT_LSUP_QUIET_DROOP → s.timely s.pauseStop.1 = true →
    ∃ t, exec (.quietPauseEnd vs) s = .next t ∧ s.within [.io, .emt] t ∧
      s.onlyRegs [Fd.EMIT_LSUP_STAT_VREF.off, Fd.EMIT_LSUP_QBRK_COUNT.off] t ∧ t.emt.paused = false ∧
      t.tick = (s.reach s.pauseStop.1).tick ∧ t.emt.pauseEnd = some t.tick ∧ t.get Fd.EMIT_LSUP_STAT_VOUT = vs.toNat ∧
      t.get Fd.EMIT_LSUP_QBRK_COUNT = (s.get Fd.EMIT_LSUP_QBRK_COUNT + if s.pauseStop.2 then 1 else 0) % 2 ^ 32) ∧
  (∀ (v : BitVec 13) (s : State), s.admits (.lsupOv v) = true → s.get Fd.EMIT_LSUP_VLIM_VMAX + 200 < v.toNat →
    ∃ t, exec (.lsupOv v) s = .next t ∧ s.within [.io, .emt] t ∧ s.onlyRegs [Fd.EMIT_LSUP_STAT_VREF.off] t ∧
      t.get Fd.EMIT_LSUP_STAT_VOUT = v.toNat ∧ t.get Fd.EMIT_LSUP_STAT_OV = 1 ∧
      t.get Fd.EMIT_LSUP_STAT_RUN = 0 ∧ t.emt.ovHeld = true) ∧
  (∀ (v : BitVec 13) (s : State), s.admits (.lsupOv v) = true → v.toNat ≤ s.get Fd.EMIT_LSUP_VLIM_VMAX + 200 →
    ∃ t, exec (.lsupOv v) s = .next t ∧ t.get Fd.EMIT_LSUP_STAT_VOUT = v.toNat ∧
      t.get Fd.EMIT_LSUP_STAT_OV = s.get Fd.EMIT_LSUP_STAT_OV ∧ t.emt = s.emt) ∧
  (∀ (who : Actor) (s : State), s.admits (.lsupOvClear who) = true →
    ∃ t, exec (.lsupOvClear who) s = .next t ∧ s.within [.io, .emt] t ∧ s.onlyRegs [Fd.EMIT_LSUP_STAT_OV.off] t ∧
      t.get Fd.EMIT_LSUP_STAT_OV = 0 ∧
      t.emt.ovHeld = (if who = .firmware then false else s.emt.ovHeld) ∧
      t.get Fd.EMIT_LSUP_STAT_VOUT = s.get Fd.EMIT_LSUP_STAT_VOUT)

/-! ## Lanes -/

/-- What the receiver of lane l takes from the line: RX_POL inverts header and payload (R175). -/
def Sys2Proof.Machine.State.rxHdr (l : Nat) (hdr : BitVec 2) (s : State) : BitVec 2 :=
  if s.get (Fd.LNK_LANE_CTL_RX_POL l) = 1 then ~~~hdr else hdr
def Sys2Proof.Machine.State.rxPay (l : Nat) (w : Wide) (s : State) : Wide :=
  if s.get (Fd.LNK_LANE_CTL_RX_POL l) = 1 then ~~~w else w

/-- LPLL_UNLOCK, BLOCK_RECEIVE, CDR_UPDATE, FREQ_ERR (R173, R176, R179 to R183, R188, R190, R194): a lost lock of a link clock
restarts the region. A block received in LOCKED is descrambled and counted in RX_BLOCKS, and the 16th invalid header of a
window loses lock; in TRAIN and HUNT the 64th consecutive valid header locks, and any other counts a block out of lock; in a
wake after its clock pattern, WAKE_END in lock completes the wake; FAILED counts the block out of lock; a PRBS mode counts bit
errors; OFF and IDLE receive nothing. The loop takes its step in every state but OFF, and keeps FI and PH in electrical idle
and after SLEEP_ANN; FREQ_ERR clears when |FOFS| is at most 2.0 ppm; a frequency beyond that in LOCKED sets FREQ_ERR and
FREQ_SEEN. Choices of the model in it: log 1, 15, 41, 75, 81, 98. -/
def Obligations.ReceiversComplete : Prop :=
  (∀ (n : Fin 4) (b : Bool) (s : State),
    let lock := if b then Fd.LNK_LPLL_STAT_LOCK_B n else Fd.LNK_LPLL_STAT_LOCK_A n
    s.get lock = 1 →
    ∃ t, exec (.lpllUnlock n b) s = .next t ∧ t.get lock = 0 ∧ t.get (Fd.LNK_LPLL_STAT_UNLOCK n) = 1 ∧
      t.restarting (4 + n) = true) ∧
  (∀ (l : Fin 128) (hdr : BitVec 2) (payload : Wide) (s : State), s.restarting (laneRgn l) = false →
    s.get (Fd.LNK_LANE_CTL_PRBS l) = 0 → s.laneSt l = lnLOCKED →
    ∃ t, exec (.blockReceive l hdr payload) s = .next t ∧ s.within [.io, .lnk, .memc] t ∧ s.onlyRegions [4, 5, 6, 7, 14] t ∧
      t.wideOf (laneRgn l) (0x0100 + l % 32)
        = BitVec.ofNat 64 (((s.wideOf (laneRgn l) (0x0100 + l % 32)).toNat + 1) % 2 ^ 48) ∧
      (t.lane l).hist = (descramble (s.lane l).hist (s.rxPay l payload)).2 ∧ (t.lane l).squelch = false ∧
      (goodHdr (s.rxHdr l hdr) = true → (s.lane l).bad < 16 → t.laneSt l = lnLOCKED) ∧
      (goodHdr (s.rxHdr l hdr) = false → (s.lane l).bad < 15 → t.laneSt l = lnLOCKED) ∧
      (goodHdr (s.rxHdr l hdr) = false → (s.lane l).bad = 15 →
        t.laneSt l = lnHUNT ∧ t.get (Fd.LNK_LANE_STAT_LOCK_LOST l) = 1)) ∧
  (∀ (l : Fin 128) (hdr : BitVec 2) (payload : Wide) (s : State), s.restarting (laneRgn l) = false →
    s.get (Fd.LNK_LANE_CTL_PRBS l) = 0 → (s.laneSt l = lnHUNT ∨ s.laneSt l = lnTRAIN) →
    ∃ t, exec (.blockReceive l hdr payload) s = .next t ∧ s.within [.io, .lnk] t ∧ s.onlyRegions [4, 5, 6, 7] t ∧
      (t.lane l).hist = (descramble (s.lane l).hist (s.rxPay l payload)).2 ∧ (t.lane l).squelch = false ∧
      (goodHdr (s.rxHdr l hdr) = true → 63 ≤ (s.lane l).good → t.laneSt l = lnLOCKED ∧ (t.lane l).good = 0) ∧
      (goodHdr (s.rxHdr l hdr) = true → (s.lane l).good < 63 →
        t.laneSt l = lnHUNT ∧ (t.lane l).good = (s.lane l).good + 1 ∧ (t.lane l).cand = (s.lane l).cand) ∧
      (goodHdr (s.rxHdr l hdr) = false →
        t.laneSt l = lnHUNT ∧ (t.lane l).good = 0 ∧ (t.lane l).cand = ((s.lane l).cand + 1) % 66)) ∧
  (∀ (l : Fin 128) (hdr : BitVec 2) (payload : Wide) (s : State), s.restarting (laneRgn l) = false →
    s.get (Fd.LNK_LANE_CTL_PRBS l) = 0 → s.laneSt l = lnWAKE → (s.lane l).clk = false →
    ∃ t, exec (.blockReceive l hdr payload) s = .next t ∧ s.within [.io, .lnk] t ∧ s.onlyRegions [4, 5, 6, 7] t ∧
      t.laneSt l = (if s.isWakeEnd l (s.rxHdr l hdr) (descramble (s.lane l).hist (s.rxPay l payload)).1 = true ∧
        ((s.lane l).inner = true ∨ 63 ≤ (s.lane l).good) then lnLOCKED else lnWAKE)) ∧
  (∀ (l : Fin 128) (hdr : BitVec 2) (payload : Wide) (s : State), s.restarting (laneRgn l) = false →
    s.get (Fd.LNK_LANE_CTL_PRBS l) = 0 → s.laneSt l = lnFAILED →
    ∃ t, exec (.blockReceive l hdr payload) s = .next t ∧ s.within [.io, .lnk] t ∧
      s.onlyRegs [(Fd.LNK_LANE_UNLOCK_BLK_COUNT l).off, (Fd.LNK_LANE_EQ_VAL_DFE3 l).off, (Fd.LNK_LANE_EQ_VAL2_DFE5 l).off] t ∧
      t.laneSt l = lnFAILED ∧
      t.get (Fd.LNK_LANE_UNLOCK_BLK_COUNT l) = min (s.get (Fd.LNK_LANE_UNLOCK_BLK_COUNT l) + 1) (2 ^ 32 - 1)) ∧
  (∀ (l : Fin 128) (hdr : BitVec 2) (payload : Wide) (s : State), s.restarting (laneRgn l) = false →
    s.get (Fd.LNK_LANE_CTL_PRBS l) ≠ 0 → s.laneSt l ≠ lnOFF → s.laneSt l ≠ lnIDLE →
    ∃ t, exec (.blockReceive l hdr payload) s = .next t ∧ s.within [.io, .lnk] t ∧
      s.onlyRegs [(Fd.LNK_LANE_PRBS_ERR_COUNT l).off, (Fd.LNK_LANE_UNLOCK_BLK_COUNT l).off, (Fd.LNK_LANE_EQ_VAL_DFE3 l).off,
        (Fd.LNK_LANE_EQ_VAL2_DFE5 l).off] t ∧
      t.get (Fd.LNK_LANE_PRBS_ERR_COUNT l) = min (s.get (Fd.LNK_LANE_PRBS_ERR_COUNT l) +
        (prbsCheck (s.get (Fd.LNK_LANE_CTL_PRBS l)) (s.lane l).prbs (s.rxHdr l hdr) (s.rxPay l payload)).1) (2 ^ 32 - 1)) ∧
  (∀ (l : Fin 128) (hdr : BitVec 2) (payload : Wide) (s : State), (s.laneSt l = lnOFF ∨ s.laneSt l = lnIDLE) →
    exec (.blockReceive l hdr payload) s = .next s) ∧
  (∀ (l : Fin 128) (vote : Int) (s : State), -1 ≤ vote → vote ≤ 1 → s.restarting (laneRgn l) = false →
    (s.lane l).ann = false → (s.lane l).squelch = false → s.laneSt l ≠ lnOFF →
    let n := cdrStep (s.get (Fd.LNK_LANE_CDR_KP l)) (s.get (Fd.LNK_LANE_CDR_KI l))
      (signed 18 (s.get (Fd.LNK_LANE_CDR_FOFS l))) (s.lane l).ph vote
    ∃ t, exec (.cdrUpdate l vote) s = .next t ∧ s.within [.io, .lnk] t ∧
      s.onlyRegs [(Fd.LNK_LANE_CDR_FOFS l).off, (Fd.LNK_LANE_STAT_FREQ_ERR l).off] t ∧
      t.get (Fd.LNK_LANE_CDR_FOFS l) = unsigned 18 n.1 ∧
      (t.lane l).ph = n.2.1 ∧ (n.1.natAbs ≤ 1074 → t.get (Fd.LNK_LANE_STAT_FREQ_ERR l) = 0) ∧
      (1074 < n.1.natAbs → t.get (Fd.LNK_LANE_STAT_FREQ_ERR l) = s.get (Fd.LNK_LANE_STAT_FREQ_ERR l))) ∧
  (∀ (l : Fin 128) (vote : Int) (s : State), -1 ≤ vote → vote ≤ 1 →
    ((s.lane l).ann = true ∨ (s.lane l).squelch = true ∨ s.laneSt l = lnOFF) → exec (.cdrUpdate l vote) s = .next s) ∧
  (∀ (l : Fin 128) (s : State), s.restarting (laneRgn l) = false → s.laneSt l = lnLOCKED →
    1074 < (signed 18 (s.get (Fd.LNK_LANE_CDR_FOFS l))).natAbs → s.get (Fd.LNK_LANE_STAT_FREQ_ERR l) = 0 →
    ∃ t, exec (.freqErr l) s = .next t ∧ s.within [.io] t ∧ s.onlyRegs [(Fd.LNK_LANE_STAT_FREQ_SEEN l).off] t ∧
      t.get (Fd.LNK_LANE_STAT_FREQ_ERR l) = 1 ∧
      t.get (Fd.LNK_LANE_STAT_FREQ_SEEN l) = 1 ∧ t.laneSt l = lnLOCKED)

/-- The registers that a retrain of lane l writes. -/
def Sys2Proof.retrainRegs (l : Fin 128) : List Nat :=
  [(Fd.LNK_LANE_CTL_RETRAIN l).off, (Fd.LNK_LANE_STAT_RETRIES l).off, (Fd.LNK_LANE_CDR_FOFS l).off,
        (Fd.LNK_LANE_EQ_VAL2_DFE5 l).off,
    (Fd.LNK_LANE_EQ_VAL_DFE3 l).off, (Fd.LNK_LANE_ES_STAT_ABORT l).off, Fd.MEMC_CAP_STAT_GAP.off]

/-- Lane l has just entered a retrain from s: the start values, FI and PH 0, TRAIN (R186). -/
def Sys2Proof.Machine.State.retrained (l : Fin 128) (s t : State) : Prop :=
  t.laneSt l = lnTRAIN ∧ t.get (Fd.LNK_LANE_CTL_RETRAIN l) = 0 ∧
    t.get (Fd.LNK_LANE_EQ_VAL_CTLE l) = s.get (Fd.LNK_LANE_EQ_CTL_CTLE_START l) ∧
    t.get (Fd.LNK_LANE_EQ_VAL_DFE1 l) = 0 ∧ t.get (Fd.LNK_LANE_EQ_VAL_DFE2 l) = 0 ∧ t.get (Fd.LNK_LANE_EQ_VAL_DFE3 l) = 0 ∧
    t.get (Fd.LNK_LANE_EQ_VAL2_DFE4 l) = 0 ∧ t.get (Fd.LNK_LANE_EQ_VAL2_DFE5 l) = 0 ∧ t.get (Fd.LNK_LANE_CDR_FOFS l) = 0 ∧
    (t.lane l).ph = 0

/-- LANE_RETRAIN, RETRAIN_TIMEOUT, ES_GO, ES_DONE (R186, R193): a retrain starts at the start values in TRAIN, and is ignored in
OFF; a timeout counts and repeats it, and the third puts the lane in FAILED with LANE_FAIL; an eye-scan point needs LOCKED,
and ends with its count. Choices of the model in it: log 19, 98. -/
def Obligations.RetrainingCompletes : Prop :=
  (∀ (l : Fin 128) (s : State), s.admits (.laneRetrain l) = true → s.laneSt l ≠ lnOFF →
    ∃ t, exec (.laneRetrain l) s = .next t ∧ s.within [.io, .lnk, .memc] t ∧ s.onlyRegs (retrainRegs l) t ∧ s.retrained l t ∧
      t.get (Fd.LNK_LANE_STAT_RETRIES l) = if s.laneSt l = lnFAILED then 0 else s.get (Fd.LNK_LANE_STAT_RETRIES l)) ∧
  (∀ (l : Fin 128) (s : State), s.admits (.laneRetrain l) = true → s.laneSt l = lnOFF →
    ∃ t, exec (.laneRetrain l) s = .next t ∧ s.within [.io] t ∧ s.onlyRegs [(Fd.LNK_LANE_CTL_RETRAIN l).off] t ∧
      t.get (Fd.LNK_LANE_CTL_RETRAIN l) = 0 ∧ t.laneSt l = lnOFF) ∧
  (∀ (l : Fin 128) (s : State), s.restarting (laneRgn l) = false →
    (s.laneSt l = lnTRAIN ∨ s.laneSt l = lnHUNT ∨ s.laneSt l = lnWAKE) → s.get (Fd.LNK_LANE_STAT_RETRIES l) < 2 →
    ∃ t, exec (.retrainTimeout l) s = .next t ∧ s.within [.io, .lnk, .memc] t ∧ s.onlyRegs (retrainRegs l) t ∧
      s.retrained l t ∧
      t.get (Fd.LNK_LANE_STAT_RETRIES l) = s.get (Fd.LNK_LANE_STAT_RETRIES l) + 1) ∧
  (∀ (l : Fin 128) (s : State), s.restarting (laneRgn l) = false →
    (s.laneSt l = lnTRAIN ∨ s.laneSt l = lnHUNT ∨ s.laneSt l = lnWAKE) → 2 ≤ s.get (Fd.LNK_LANE_STAT_RETRIES l) →
    ∃ t, exec (.retrainTimeout l) s = .next t ∧ s.within [.io, .lnk, .memc] t ∧ s.onlyRegions [0, 4, 5, 6, 7, 14] t ∧
      t.laneSt l = lnFAILED ∧ t.get (Fd.LNK_LANE_STAT_LANE_FAIL l) = 1) ∧
  (∀ (l : Fin 128) (s : State), s.admits (.esGo l) = true → s.laneSt l = lnLOCKED →
    ∃ t, exec (.esGo l) s = .next t ∧ s.within [.io, .lnk] t ∧ (t.lane l).es = s.reg (Fd.LNK_LANE_ES_CTL_GO l).off ∧
      s.onlyRegs [(Fd.LNK_LANE_ES_ERRS_ERRS l).off, (Fd.LNK_LANE_ES_CTL_GO l).off, (Fd.LNK_LANE_ES_STAT_BUSY l).off] t ∧
      t.get (Fd.LNK_LANE_ES_CTL_GO l) = 0 ∧ t.get (Fd.LNK_LANE_ES_STAT_BUSY l) = 1 ∧
      t.get (Fd.LNK_LANE_ES_ERRS_ERRS l) = 0) ∧
  (∀ (l : Fin 128) (s : State), s.admits (.esGo l) = true → s.laneSt l ≠ lnLOCKED →
    ∃ t, exec (.esGo l) s = .next t ∧ s.within [.io, .lnk, .memc] t ∧
      s.onlyRegs [(Fd.LNK_LANE_ES_ERRS_ERRS l).off, (Fd.LNK_LANE_ES_CTL_GO l).off, (Fd.LNK_LANE_ES_STAT_BUSY l).off,
        Fd.MEMC_CAP_STAT_GAP.off] t ∧ t.get (Fd.LNK_LANE_ES_CTL_GO l) = 0 ∧ t.get (Fd.LNK_LANE_ES_STAT_BUSY l) = 0 ∧
      t.get (Fd.LNK_LANE_ES_STAT_ABORT l) = 1) ∧
  (∀ (l : Fin 128) (errs : Word) (s : State), s.get (Fd.LNK_LANE_ES_STAT_BUSY l) = 1 →
    ∃ t, exec (.esDone l errs) s = .next t ∧ s.within [.io, .memc] t ∧
      s.onlyRegs [(Fd.LNK_LANE_ES_ERRS_ERRS l).off, (Fd.LNK_LANE_ES_STAT_DONE l).off, Fd.MEMC_CAP_STAT_GAP.off] t ∧
      t.get (Fd.LNK_LANE_ES_STAT_BUSY l) = 0 ∧
      t.get (Fd.LNK_LANE_ES_STAT_DONE l) = 1 ∧ t.get (Fd.LNK_LANE_ES_ERRS_ERRS l) = errs.toNat) ∧
  (∀ (l : Fin 128) (errs : Word) (s : State), s.get (Fd.LNK_LANE_ES_STAT_BUSY l) = 0 → exec (.esDone l errs) s = .next s)

/-- TX_SLEEP, TX_WAKE, SLEEP_ANN_EXPIRE, SQUELCH_ASSERT, SQUELCH_DEASSERT, WAKE_FAIL (R174, R187 to R191): a transmitter enters
electrical idle, the clock lane's only while every upstream lane of its tile is in it, and leaves it after at least 2 µs with
its preamble; after the clock lane's wake a port in RUN is in PHASE; squelch in LOCKED brings IDLE, no loss of lock, with
SQ_UNANN where nothing announced it; from IDLE and TRAIN its end brings WAKE with adaptation held; a wake without WAKE_END
sets WAKE_FAIL and retrains. Choices of the model in it: log 43, 91. -/
def Obligations.SleepAndWakeComplete : Prop :=
  (∀ (l : Fin 128) (s : State), s.restarting (laneRgn l) = false →
    s.get (Fd.LNK_LANE_CTL_TX_EN l) = 1 → s.get (Fd.LNK_LANE_STAT_TX_IDLE l) = 0 →
    (s.clockLane (l / 4) = some (l : Nat) → s.tileQuiet (l / 4) = true) →
    ∃ t, exec (.txSleep l) s = .next t ∧ s.within [.io, .lnk] t ∧ s.onlyRegs [(Fd.LNK_LANE_STAT_TX_IDLE l).off] t ∧
      t.get (Fd.LNK_LANE_STAT_TX_IDLE l) = 1 ∧
      t.io.out.head? = some (.txIdle l true) ∧ (t.lane l).idleFrom = some s.tick) ∧
  (∀ (l : Fin 128) (s : State), s.clockLane (l / 4) = some (l : Nat) → s.tileQuiet (l / 4) = false →
    exec (.txSleep l) s = .next s) ∧
  (∀ (l : Fin 128) (s : State), s.restarting (laneRgn l) = false → s.get (Fd.LNK_LANE_STAT_TX_IDLE l) = 1 →
    (∀ x, (s.lane l).idleFrom = some x → (256000 : Int) ≤ ahead x s.tick) →
    ∃ t, exec (.txWake l) s = .next t ∧ s.within [.io, .lnk] t ∧
      s.onlyRegs [(Fd.LNK_LANE_STAT_TX_IDLE l).off, (Fd.LNK_TILE_STAT_PHASE_OK (l / 4)).off] t ∧
      t.get (Fd.LNK_LANE_STAT_TX_IDLE l) = 0 ∧
      (t.lane l).idleFrom = none ∧ Out.txIdle l false ∈ t.io.out ∧
      (s.clockLane (l / 4) = some (l : Nat) → (s.portState (l / 4) = ptRUN ∨ s.portState (l / 4) = ptPHASE) →
        t.portState (l / 4) = ptPHASE ∧ (t.port (l / 4)).phase = {} ∧ (t.port (l / 4)).runAt = none)) ∧
  (∀ (l : Fin 128) (s : State), s.restarting (laneRgn l) = false → s.laneSt l = lnLOCKED → (s.lane l).ann = true →
    ∃ t, exec (.sleepAnnExpire l) s = .next t ∧ s.within [.io, .lnk] t ∧ s.onlyRegs [(Fd.LNK_LANE_STAT_FROZEN l).off] t ∧
      (t.lane l).ann = false ∧ t.laneSt l = lnLOCKED ∧
      t.get (Fd.LNK_LANE_STAT_FROZEN l) = s.get (Fd.LNK_LANE_CTL_FREEZE l)) ∧
  (∀ (l : Fin 128) (s : State), s.restarting (laneRgn l) = false → s.laneSt l = lnLOCKED →
    ∃ t, exec (.squelchAssert l) s = .next t ∧ s.within [.io, .lnk, .memc] t ∧
      s.onlyRegs [(Fd.LNK_LANE_STAT_SQ_UNANN l).off, (Fd.LNK_LANE_ES_STAT_ABORT l).off, Fd.MEMC_CAP_STAT_GAP.off] t ∧
      t.laneSt l = lnIDLE ∧ t.get (Fd.LNK_LANE_STAT_FROZEN l) = 1 ∧
      (t.lane l).squelch = true ∧ t.get (Fd.LNK_LANE_STAT_LOCK_LOST l) = s.get (Fd.LNK_LANE_STAT_LOCK_LOST l) ∧
      t.get (Fd.LNK_LANE_LOCK_LOSS_COUNT l) = s.get (Fd.LNK_LANE_LOCK_LOSS_COUNT l) ∧
      t.get (Fd.LNK_LANE_STAT_SQ_UNANN l) = if (s.lane l).ann then s.get (Fd.LNK_LANE_STAT_SQ_UNANN l) else 1) ∧
  (∀ (l : Fin 128) (s : State), s.laneSt l ≠ lnLOCKED →
    ∃ t, exec (.squelchAssert l) s = .next t ∧ s.within [.lnk] t ∧ t.io = s.io ∧ (t.lane l).squelch = true) ∧
  (∀ (l : Fin 128) (s : State), s.restarting (laneRgn l) = false → (s.laneSt l = lnIDLE ∨ s.laneSt l = lnTRAIN) →
    ∃ t, exec (.squelchDeassert l) s = .next t ∧ s.within [.io, .lnk] t ∧ s.onlyRegs [(Fd.LNK_LANE_STAT_STATE l).off] t ∧
      t.laneSt l = lnWAKE ∧ (t.lane l).squelch = false ∧
      (t.lane l).clk = true ∧ t.get (Fd.LNK_LANE_STAT_FROZEN l) = 1) ∧
  (∀ (l : Fin 128) (s : State), s.laneSt l ≠ lnIDLE → s.laneSt l ≠ lnTRAIN →
    ∃ t, exec (.squelchDeassert l) s = .next t ∧ s.within [.lnk] t ∧ t.io = s.io ∧ (t.lane l).squelch = false) ∧
  (∀ (l : Fin 128) (s : State), s.restarting (laneRgn l) = false → s.laneSt l = lnWAKE →
    ∃ t, exec (.wakeFail l) s = .next t ∧ s.within [.io, .lnk, .memc] t ∧ s.onlyRegs (retrainRegs l) t ∧
      t.get (Fd.LNK_LANE_STAT_WAKE_FAIL l) = 1 ∧ s.retrained l t)

/-! ## The tile link -/

/-- Port n has started its link afresh from s: LANES at KL1, with every enabled lane that has not failed in a retrain (R198). -/
def Sys2Proof.Machine.State.relinked (n : Fin 32) (s t : State) : Prop :=
  t.portState n = ptLANES ∧ t.get (Fd.LNK_TILE_STAT_GEN n) = 1 ∧ t.get (Fd.LNK_TILE_CTL_RELINK n) = 0 ∧
    (t.port n).phase = {} ∧ (t.port n).tsw = none ∧
    ∀ l ∈ s.rxLanes n, t.laneSt l = lnTRAIN ∧ t.get (Fd.LNK_LANE_STAT_GEN l) = 1

/-- LINK_STATE_TIMEOUT, RELINK, GEN_SWITCH, GEN_FALLBACK (R198, R199): a failed attempt goes back to LANES at KL1 and the third in
a row to FAILED with TILE_FAIL; a RELINK write starts afresh from RUN and from FAILED, counts an attempt in any other state
but OFF, where it is ignored; at the switch tick every receiving lane retrains at the target generation and every transmitter
sleeps; GEN without BOND within its limit tries one generation lower, at least 20 µs ahead, and a failure at KL1 is a failed
relink. Choices of the model in it: log 1, 3, 19, 42, 43, 91, 98. -/
def Obligations.LinkStatesComplete : Prop :=
  (∀ (n : Fin 32) (s : State), s.restarting (tileRgn n) = false →
    (s.portState n = ptLANES ∨ s.portState n = ptBOND ∨ s.portState n = ptCAPS) →
    ∃ t, exec (.linkStateTimeout n) s = .next t ∧ s.within [.io, .lnk, .memc] t ∧ s.onlyRegions [0, 4, 5, 6, 7, 14] t ∧
      (t.port n).attempts = (s.port n).attempts + 1 ∧
      ((s.port n).attempts < 2 → s.relinked n t) ∧
      (2 ≤ (s.port n).attempts → t.portState n = ptFAILED ∧ t.get (Fd.LNK_TILE_STAT_TILE_FAIL n) = 1)) ∧
  (∀ (n : Fin 32) (s : State), s.admits (.relink n) = true → (s.portState n = ptRUN ∨ s.portState n = ptFAILED) →
    ∃ t, exec (.relink n) s = .next t ∧ s.within [.io, .lnk, .memc] t ∧ s.onlyRegions [4, 5, 6, 7, 14] t ∧ s.relinked n t ∧
      (t.port n).attempts = if s.portState n = ptFAILED then 0 else (s.port n).attempts) ∧
  (∀ (n : Fin 32) (s : State), s.admits (.relink n) = true → s.portState n ≠ ptOFF → s.portState n ≠ ptRUN →
    s.portState n ≠ ptFAILED →
    ∃ t, exec (.relink n) s = .next t ∧ s.within [.io, .lnk, .memc] t ∧ s.onlyRegions [0, 4, 5, 6, 7, 14] t ∧
      (t.port n).attempts = (s.port n).attempts + 1 ∧
      ((s.port n).attempts < 2 → s.relinked n t) ∧
      (2 ≤ (s.port n).attempts → t.portState n = ptFAILED ∧ t.get (Fd.LNK_TILE_STAT_TILE_FAIL n) = 1)) ∧
  (∀ (n : Fin 32) (s : State), s.admits (.relink n) = true → s.portState n = ptOFF →
    ∃ t, exec (.relink n) s = .next t ∧ s.within [.io] t ∧ s.onlyRegs [(Fd.LNK_TILE_CTL_RELINK n).off] t ∧
      t.portState n = ptOFF ∧
      t.get (Fd.LNK_TILE_CTL_RELINK n) = 0) ∧
  (∀ (n : Fin 32) (s : State) (x : Wide), s.portState n = ptGEN → (s.port n).tsw = some x → s.timely x = true →
    ∃ t, exec (.genSwitch n) s = .next t ∧ s.within [.io, .lnk, .memc] t ∧ s.onlyRegions [4, 5, 6, 7, 14] t ∧
      t.tick = (s.reach x).tick ∧ (t.port n).tsw = none ∧
      t.get (Fd.LNK_TILE_STAT_GEN n) = (s.port n).target % 4 ∧
      (∀ l ∈ s.rxLanes n, t.laneSt l = (if s.laneSt l = lnLOCKED then lnIDLE else s.laneSt l) ∧
        t.get (Fd.LNK_LANE_STAT_GEN l) = (s.port n).target % 4 ∧
        t.get (Fd.LNK_LANE_CDR_FOFS l) = s.get (Fd.LNK_LANE_CDR_FOFS l) ∧
        (t.lane l).ph = (s.lane l).ph) ∧
      ∀ l ∈ tileLanes n, s.get (Fd.LNK_LANE_CTL_TX_EN l) = 1 →
        t.get (Fd.LNK_LANE_STAT_TX_IDLE l) = 1 ∧ t.get (Fd.LNK_LANE_STAT_GEN l) = (s.port n).target % 4) ∧
  (∀ (n : Fin 32) (s : State), s.portState n = ptGEN →
    ∃ t, exec (.genFallback n) s = .next t ∧ s.within [.io, .lnk, .memc] t ∧ s.onlyRegions [0, 4, 5, 6, 7, 14] t ∧
      t.get (Fd.LNK_TILE_STAT_GEN_FALLBACK n) = 1 ∧
      (1 < (s.port n).target → t.portState n = ptGEN ∧ (t.port n).target = (s.port n).target - 1 ∧
        (t.port n).genCap = (s.port n).target - 1 ∧
        ∃ k, k < 2 ^ 24 ∧ (t.port n).tsw = some (s.tick + BitVec.ofNat 64 (2560000 + k))) ∧
      ((s.port n).target ≤ 1 → (t.port n).attempts = (s.port n).attempts + 1 ∧
        (t.portState n = ptLANES ∨ t.portState n = ptFAILED)))

/-- AM, SLOT, ALIGNMENT_MARKER_SEND (R202, R203, R212): a marker of the next period, where the last was released, opens it with
its ACTIVE and its lane; a further one of the same period adds its lane; a late or unrelated one of a lane that the previous
marker named excludes the lane, and of another lane changes nothing; slot marks count on from the last, and a gap is shown;
the device's own marker names the clock lane and the lanes that were awake at the last. Choices of the model in it: log 1, 3,
41, 43. -/
def Obligations.MarkersComplete : Prop :=
  (∀ (l : Fin 128) (bidx : BitVec 2) (active : BitVec 4) (amseq : Byte) (late : Bool) (s : State),
    s.laneSt l = lnLOCKED → s.testMode l = false → (∀ n, (s.port (l / 4)).amSeq = some n → amseq.toNat = (n + 1) % 256) →
    (s.port (l / 4)).amDone = true → active ≠ 0 →
    (∀ j, j < 4 → j ≠ bidx.toNat → (s.get (Fd.LNK_TILE_STAT_UP_ACTIVE (l / 4))).testBit j = false) →
    ∃ t, exec (.am l bidx active amseq late) s = .next t ∧ s.within [.io, .lnk, .memc] t ∧
      s.onlyRegions [0, 4, 5, 6, 7, 14] t ∧ (t.port (l / 4)).amSeq = some amseq.toNat ∧
      t.get (Fd.LNK_TILE_STAT_UP_ACTIVE (l / 4)) = active.toNat ∧ (t.port (l / 4)).amDone = true ∧ t.bidxOf l = bidx.toNat ∧
      (t.port (l / 4)).upExcl.testBit (l % 4) = false ∧
      (s.portState (l / 4) ≠ ptBOND → t.portState (l / 4) = s.portState (l / 4))) ∧
  (∀ (l : Fin 128) (bidx : BitVec 2) (active : BitVec 4) (amseq : Byte) (s : State),
    s.laneSt l = lnLOCKED → s.testMode l = false → (s.port (l / 4)).amSeq = some amseq.toNat → (s.port (l / 4)).amDone = true →
    ∃ t, exec (.am l bidx active amseq false) s = .next t ∧ s.within [.io, .lnk, .memc] t ∧
      s.onlyRegions [0, 4, 5, 6, 7, 14] t ∧
      (t.port (l / 4)).amSeen = (s.port (l / 4)).amSeen ||| 2 ^ bidx.toNat ∧ t.bidxOf l = bidx.toNat ∧
      (t.port (l / 4)).upExcl.testBit (l % 4) = false) ∧
  (∀ (l : Fin 128) (bidx : BitVec 2) (active : BitVec 4) (amseq : Byte) (late : Bool) (n : Nat) (s : State),
    s.laneSt l = lnLOCKED → s.testMode l = false → (s.port (l / 4)).amSeq = some n → amseq.toNat ≠ (n + 1) % 256 →
    (amseq.toNat ≠ n ∨ late = true) → (s.port (l / 4)).amDone = true →
    ∃ t, exec (.am l bidx active amseq late) s = .next t ∧ s.within [.io, .lnk, .memc] t ∧
      s.onlyRegions [0, 4, 5, 6, 7, 14] t ∧
      ((s.get (Fd.LNK_TILE_STAT_UP_ACTIVE (l / 4))).testBit bidx.toNat = true → (t.port (l / 4)).upExcl.testBit (l % 4) = true) ∧
      ((s.get (Fd.LNK_TILE_STAT_UP_ACTIVE (l / 4))).testBit bidx.toNat = false →
        t.io = s.io ∧ (t.port (l / 4)).upExcl = (s.port (l / 4)).upExcl ∧ (t.port (l / 4)).amSeq = some n)) ∧
  (∀ (l : Fin 128) (bidx : BitVec 2) (active : BitVec 4) (amseq : Byte) (late : Bool) (s : State),
    s.laneSt l ≠ lnLOCKED → exec (.am l bidx active amseq late) s = .next s) ∧
  (∀ (n : Fin 32) (num : BitVec 25) (k : Int) (s : State), s.portState n = ptRUN → (s.port n).slot = some k →
    let step := ((num.toNat : Int) - k) % 2 ^ 25
    ∃ t, exec (.slot n num) s = .next t ∧ s.within [.io, .lnk] t ∧ s.onlyRegs [(Fd.LNK_TILE_STAT_SLOT_GAP n).off] t ∧
      (t.port n).slot = some (k + step) ∧
      t.get (Fd.LNK_TILE_STAT_SLOT_GAP n) = if step = 1 then s.get (Fd.LNK_TILE_STAT_SLOT_GAP n) else 1) ∧
  (∀ (n : Fin 32) (num : BitVec 25) (s : State), s.portState n = ptRUN → (s.port n).slot = none →
    ∃ t k, exec (.slot n num) s = .next t ∧ s.within [.lnk] t ∧ (t.port n).slot = some k ∧ k % 2 ^ 25 = (num.toNat : Int) ∧
      t.io = s.io) ∧
  (∀ (n : Fin 32) (num : BitVec 25) (s : State), s.portState n ≠ ptRUN → exec (.slot n num) s = .next s) ∧
  (∀ (n : Fin 32) (s : State) (l : Nat), s.portState n ≠ ptOFF → s.portState n ≠ ptFAILED → s.restarting (tileRgn n) = false →
    s.clockLane n = some l → s.drives l = true →
    ∃ t, exec (.alignmentMarkerSend n) s = .next t ∧ s.within [.io, .lnk] t ∧
      s.onlyRegs [(Fd.LNK_TILE_STAT_DN_ACTIVE n).off] t ∧
      (t.port n).dnSeq = ((s.port n).dnSeq + 1) % 256 ∧ (t.get (Fd.LNK_TILE_STAT_DN_ACTIVE n)).testBit (l % 4) = true ∧
      (t.get (Fd.LNK_TILE_STAT_DN_ACTIVE n) &&& (0xF ^^^ 2 ^ (l % 4)) &&&
        ((0xF ^^^ (s.port n).dnAwake) ||| (s.port n).dnExcl ||| (s.port n).dnOut)) = 0)

/-- The bytes of an upstream message's payload pass as R207 asks, with the type of the command. -/
def Sys2Proof.wholeMsg (h : MsgHdr) (own hdata : Nat) (payload : List Wide) : Prop :=
  (1 ≤ h.mtype.toNat ∧ h.mtype.toNat ≤ 5) ∧ h.nblk.toNat = payload.length ∧ payload.length ≤ 34 ∧ h.broken = false ∧
    h.crc = messageCrc own payload.length h.mseq.toNat hdata payload

/-- STATUS, CAPS, AMBIENT, TILE_REG_GO, REG_RSP, TILE_REG_TIMEOUT (R207, R208, R215, R219): a whole message of a bonded tile is
kept where the host reads it; CAPS fixes the next state; every channel's depth follows its ambient count once for a line; a
register transaction is one request and one answer, or RSTAT 3 at its limit; an answer to another address completes nothing; a
broken message changes no register but the tills' alarms. Choices of the model in it: log 19, 43, 99. -/
def Obligations.TileMessagesComplete : Prop :=
  (∀ (n : Fin 32) (h : MsgHdr) (w : Wide) (s : State), s.hears n = true → wholeMsg h 1 0 [w] →
    s.get (Fd.LNK_TILE_STAT_GEN n) ≠ 0 →
    ∃ t, exec (.status n h w) s = .next t ∧ s.within [.io, .scan, .lnk] t ∧ s.onlyRegions [0, 4, 5, 6, 7] t ∧
      t.get (Fd.LNK_TILE_STATUS_LO_STATUS n) = w.toNat % 2 ^ 32 ∧
      t.get (Fd.LNK_TILE_STATUS_HI_STATUS n) = w.toNat / 2 ^ 32 ∧
      t.get (Fd.LNK_TILE_STAT_UNGATED n) = if w.toNat.testBit 26 then 1 else s.get (Fd.LNK_TILE_STAT_UNGATED n)) ∧
  (∀ (n : Fin 32) (h : MsgHdr) (w : Wide) (s : State), s.portState n = ptCAPS → wholeMsg h 5 0 [w] →
    s.get (Fd.LNK_TILE_STAT_GEN n) ≠ 0 → validCaps w.toNat = true →
    let target := min (s.port n).genCap (min (s.get (Fd.LNK_TILE_CTL_GENMAX n)) (w.toNat % 4))
    ∃ t, exec (.caps n h w) s = .next t ∧ s.within [.io, .lnk] t ∧
      s.onlyRegs [(Fd.LNK_TILE_CAPS_HI_CAPS n).off, (Fd.LNK_TILE_CAPS_LO_CAPS n).off, (Fd.LNK_TILE_STAT_STATE n).off] t ∧
      t.get (Fd.LNK_TILE_CAPS_LO_CAPS n) = w.toNat % 2 ^ 32 ∧
      t.get (Fd.LNK_TILE_CAPS_HI_CAPS n) = w.toNat / 2 ^ 32 ∧
      (s.get (Fd.LNK_TILE_STAT_GEN n) < target → t.portState n = ptGEN ∧ (t.port n).target = target) ∧
      (target ≤ s.get (Fd.LNK_TILE_STAT_GEN n) → t.portState n = ptPHASE)) ∧
  (∀ (n : Fin 32) (h : MsgHdr) (w : Wide) (s : State), s.hears n = true → s.portState n ≠ ptCAPS → wholeMsg h 5 0 [w] →
    s.get (Fd.LNK_TILE_STAT_GEN n) ≠ 0 →
    ∃ t, exec (.caps n h w) s = .next t ∧ s.within [.io, .lnk] t ∧
      s.onlyRegs [(Fd.LNK_TILE_CAPS_HI_CAPS n).off, (Fd.LNK_TILE_CAPS_LO_CAPS n).off] t ∧
      t.get (Fd.LNK_TILE_CAPS_LO_CAPS n) = w.toNat % 2 ^ 32 ∧
      t.get (Fd.LNK_TILE_CAPS_HI_CAPS n) = w.toNat / 2 ^ 32 ∧ t.portState n = s.portState n) ∧
  (∀ (n : Fin 32) (h : MsgHdr) (hdata : BitVec 16) (counts : List (BitVec 16)) (l : LineRec) (s : State), counts.length = 32 →
    s.hears n = true → wholeMsg h 2 hdata.toNat (countBlocks counts) → 2 ≤ s.get (Fd.LNK_TILE_STAT_GEN n) →
    s.get (Fd.LNK_TILE_CTL_AMB_EN n) = 1 → s.ambientLine n hdata.toNat = some l →
    ∃ t, exec (.ambient n h hdata counts) s = .next t ∧ s.within [.io, .scan, .lnk] t ∧ s.onlyRegions [4, 5, 6, 7] t ∧
      (∀ k ∈ t.scan.lines, k.seq = l.seq → k.ambient.testBit n = true) ∧
      ∀ (c : Nat) (k : BitVec 16), counts[c]? = some k →
        t.get (depthField n c) = newDepth (s.get (Fd.LNK_TILE_AMB_AMB_HI n)) (s.get (Fd.LNK_TILE_AMB_AMB_LO n))
          (s.get (Fd.LNK_TILE_AMB2_DMAX n)) (s.get (depthField n c) + 1) k.toNat - 1) ∧
  (∀ (n : Fin 32) (s : State), s.admits (.tileRegGo n) = true → s.get (Fd.LNK_TILE_REGCMD_BUSY n) = 0 →
    ∃ t, exec (.tileRegGo n) s = .next t ∧ s.within [.io, .lnk] t ∧ s.onlyRegs [(Fd.LNK_TILE_REGCMD_GO n).off] t ∧
      t.get (Fd.LNK_TILE_REGCMD_BUSY n) = 1 ∧ t.get (Fd.LNK_TILE_REGCMD_GO n) = 0 ∧
      (t.port n).regAddr = some (s.get (Fd.LNK_TILE_REGCMD_ADDR n)) ∧
      t.io.out.head? = some (.tileMsg n (if s.get (Fd.LNK_TILE_REGCMD_WR n) = 1 then 0x86 else 0x85)
        (s.get (Fd.LNK_TILE_REGCMD_ADDR n)) (s.port n).txSeq
        (if s.get (Fd.LNK_TILE_REGCMD_WR n) = 1 then [BitVec.ofNat 64 (s.get (Fd.LNK_TILE_REGDATA_DATA n))] else []))) ∧
  (∀ (n : Fin 32) (s : State), s.admits (.tileRegGo n) = true → s.get (Fd.LNK_TILE_REGCMD_BUSY n) = 1 →
    ∃ t, exec (.tileRegGo n) s = .next t ∧ s.within [.io] t ∧ s.onlyRegs [(Fd.LNK_TILE_REGCMD_GO n).off] t ∧
      t.get (Fd.LNK_TILE_REGCMD_GO n) = 0 ∧ t.get (Fd.LNK_TILE_REGCMD_BUSY n) = 1) ∧
  (∀ (n : Fin 32) (h : MsgHdr) (addr : BitVec 16) (data : Word) (rstat : Byte) (s : State), s.hears n = true →
    wholeMsg h 3 addr.toNat [BitVec.ofNat 64 (data.toNat + rstat.toNat * 2 ^ 32)] →
    s.get (Fd.LNK_TILE_STAT_GEN n) ≠ 0 → s.get (Fd.LNK_TILE_REGCMD_BUSY n) = 1 → (s.port n).regAddr = some addr.toNat →
    ∃ t, exec (.regRsp n h addr data rstat) s = .next t ∧ s.within [.io, .lnk] t ∧
      s.onlyRegs [(Fd.LNK_TILE_REGDATA_DATA n).off, (Fd.LNK_TILE_REGCMD_RSTAT n).off] t ∧
      t.get (Fd.LNK_TILE_REGDATA_DATA n) = data.toNat ∧
      t.get (Fd.LNK_TILE_REGCMD_BUSY n) = 0 ∧ t.get (Fd.LNK_TILE_REGCMD_DONE n) = 1 ∧
      t.get (Fd.LNK_TILE_REGCMD_RSTAT n) = rstat.toNat) ∧
  (∀ (n : Fin 32) (h : MsgHdr) (addr : BitVec 16) (data : Word) (rstat : Byte) (s : State), s.hears n = true →
    h.broken = true ∨ s.get (Fd.LNK_TILE_REGCMD_BUSY n) = 0 ∨ (s.port n).regAddr ≠ some addr.toNat →
    ∃ t, exec (.regRsp n h addr data rstat) s = .next t ∧ s.within [.io, .lnk] t ∧ s.onlyRegs [] t) ∧
  (∀ (n : Fin 32) (s : State), s.get (Fd.LNK_TILE_REGCMD_BUSY n) = 1 →
    ∃ t, exec (.tileRegTimeout n) s = .next t ∧ s.within [.io] t ∧ s.onlyRegs [(Fd.LNK_TILE_REGCMD_RSTAT n).off] t ∧
      t.get (Fd.LNK_TILE_REGCMD_BUSY n) = 0 ∧
      t.get (Fd.LNK_TILE_REGCMD_DONE n) = 1 ∧ t.get (Fd.LNK_TILE_REGCMD_RSTAT n) = 3) ∧
  (∀ (n : Fin 32) (s : State), s.get (Fd.LNK_TILE_REGCMD_BUSY n) = 0 → exec (.tileRegTimeout n) s = .next s)

/-- PHASE_MEASURE, PHASE_EXCHANGE, EPOCH_ECHO, EPOCH_TIMEOUT, PHASE_CANDIDATE, TILE_PORT_RUN (R215 to R218): a measurement that is
due starts in PHASE or RUN, one at a time; each of its 16 exchanges sends an EPOCH; an echo within 10 µs gives one offset; at
least 12 good ones give the candidate, adopted at once in PHASE; fewer count a failed measurement, the third of which sets
PHASE_STALE; the port enters RUN at the tick of its initial AMBIENT_SET. Choices of the model in it: log 1, 3, 43, 44, 45,
        99. -/
def Obligations.TilePhaseCompletes : Prop :=
  (∀ (n : Fin 32) (temp : BitVec 12) (s : State),
        (s.portState n = ptPHASE ∨ s.portState n = ptRUN) → (s.port n).phase.busy = false →
    (s.port n).runAt = none → s.phaseDue n temp.toInt = true →
    ∃ t, exec (.phaseMeasure n temp) s = .next t ∧ s.within [.lnk] t ∧
      (t.port n).phase = { busy := true, temp := temp.toInt } ∧ (t.port n).phAt = some s.tick ∧
      t.io = s.io) ∧
  (∀ (n : Fin 32) (temp : BitVec 12) (s : State), (s.port n).phase.busy = true ∨ s.phaseDue n temp.toInt = false →
    exec (.phaseMeasure n temp) s = .next s) ∧
  (∀ (n : Fin 32) (t1 : BitVec 68) (s : State), (s.port n).phase.busy = true → (s.port n).phase.sent < 16 →
    ∃ t, exec (.phaseExchange n t1) s = .next t ∧ s.within [.io, .lnk] t ∧ s.onlyRegs [] t ∧
      t.io.out.head? = some (.epoch n (s.port n).beacon) ∧
      (t.port n).phase.sent = (s.port n).phase.sent + 1 ∧
      (t.port n).phase.wait = (s.port n).phase.wait ++ [((s.port n).beacon, (t1.toNat : Int))] ∧
      (t.port n).beacon = ((s.port n).beacon + 1) % 256) ∧
  (∀ (n : Fin 32) (h : MsgHdr) (beacon : Byte) (t2 t3 : BitVec 52) (t4 : BitVec 68) (w : Nat × Int) (s : State),
    s.hears n = true → wholeMsg h 4 beacon.toNat [t2.zeroExtend 64, t3.zeroExtend 64] → s.get (Fd.LNK_TILE_STAT_GEN n) ≠ 0 →
    (s.port n).phase.wait.find? (fun x => decide (x.1 = beacon.toNat)) = some w →
    ∃ t, exec (.epochEcho n h beacon t2 t3 t4) s = .next t ∧ s.within [.io, .lnk] t ∧ s.onlyRegs [] t ∧
      (t.port n).phase.wait = (s.port n).phase.wait.erase w ∧
      (t.port n).phase.ofs2 = (s.port n).phase.ofs2 ++ (if (t4.toNat : Int) - w.2 ≤ 20480000 then
        [((t4.toNat : Int) - s.extendTile n t3 t4.toNat) - (s.extendTile n t2 t4.toNat - w.2)
          - signed 16 (s.get (Fd.LNK_TILE_ASYM_ASYM n))] else [])) ∧
  (∀ (n : Fin 32) (s : State),
    ∃ t, exec (.epochTimeout n) s = .next t ∧ s.within [.lnk] t ∧ (t.port n).phase.wait = (s.port n).phase.wait.drop 1 ∧
      (t.port n).phase.ofs2 = (s.port n).phase.ofs2 ∧ t.io = s.io) ∧
  (∀ (n : Fin 32) (s : State), (s.port n).phase.busy = true → 16 ≤ (s.port n).phase.sent → (s.port n).phase.wait = [] →
    12 ≤ (s.port n).phase.ofs2.length → s.portState n = ptPHASE →
    ∃ t, exec (.phaseCandidate n) s = .next t ∧ s.within [.io, .lnk, .memc] t ∧ s.onlyRegions [0, 4, 5, 6, 7, 14] t ∧
      t.get (Fd.LNK_TILE_STAT_PHASE_OK n) = 1 ∧ (t.port n).phase = {} ∧
      t.wideOf (tileRgn n) (0x0200 + n % 8)
        = BitVec.ofInt 64 (roundHalfAway ((s.port n).phase.ofs2.foldl (· + ·) 0) (2 * (s.port n).phase.ofs2.length)) ∧
      (s.get (Fd.LNK_TILE_STAT_GEN n) < 2 → t.portState n = ptRUN) ∧
      (2 ≤ s.get (Fd.LNK_TILE_STAT_GEN n) → (t.port n).runAt = some (s.tick + 128000))) ∧
  (∀ (n : Fin 32) (s : State), (s.port n).phase.busy = true → 16 ≤ (s.port n).phase.sent → (s.port n).phase.wait = [] →
    (s.port n).phase.ofs2.length < 12 → (s.port n).phFails < 99 →
    ∃ t, exec (.phaseCandidate n) s = .next t ∧ s.within [.io, .lnk, .memc] t ∧ s.onlyRegions [0, 4, 5, 6, 7, 14] t ∧
      (t.port n).phFails = (s.port n).phFails + 1 ∧
      t.get (Fd.LNK_TILE_PHMEAS_GOOD n) = (s.port n).phase.ofs2.length ∧ (t.port n).phase = {} ∧
      (2 ≤ (s.port n).phFails → t.get (Fd.LNK_TILE_STAT_PHASE_STALE n) = 1)) ∧
  (∀ (n : Fin 32) (s : State) (x : Wide), s.portState n = ptPHASE → (s.port n).runAt = some x → s.timely x = true →
    ∃ t, exec (.tilePortRun n) s = .next t ∧ s.within [.io, .lnk] t ∧ t.tick = (s.reach x).tick ∧ t.portState n = ptRUN ∧
      (t.port n).attempts = 0)

/-! ## The histogram engine -/

/-- EVENT_BLOCK (R211 to R214, R225 to R230): a lane that delivers blocks hands both words of an event block to ingest, after the
events that waited and the bin errors found; a PAD word changes nothing, a LOST word adds its value to TILE_LOST, an event of
a port out of RUN counts NOPHASE, an event that ingest has no room for, or refuses (R471), counts INGEST_DROP, and one that
passes every check enters its channel's stall; an update that finds room adds one count to its bin, below 65,535, and to no
other, and one that is refused to none; a lane that delivers none changes nothing. Choices of the model in it: log 3, 33,
        43. -/
def Obligations.EventsEnterTheStalls : Prop :=
  (∀ (l : Fin 128) (arrival : Wide) (full : Bool) (w0 w1 : Word) (errs : List BinErr) (s : State),
    s.laneSt l = lnLOCKED → s.testMode l = false → (s.port (l / 4)).upExcl.testBit (l % 4) = false → s.clockOk arrival = true →
    exec (.eventBlock l arrival full w0 w1 errs) s
      = .next (((((s.clockReach arrival).releaseEvents).blockErrors (l / 4) errs).eventWord l arrival full w0).eventWord l arrival
          full w1)) ∧
  (∀ (l : Fin 128) (arrival : Wide) (full : Bool) (w0 w1 : Word) (errs : List BinErr) (s : State),
    (s.laneSt l ≠ lnLOCKED ∨ s.testMode l = true ∨ (s.port (l / 4)).upExcl.testBit (l % 4) = true) →
    exec (.eventBlock l arrival full w0 w1 errs) s = .next s) ∧
  (∀ (l : Fin 128) (arrival : Wide) (full : Bool) (w : Word) (s : State),
    let tile := l.val / 4
    (bitsOf w 26 24 = 1 → s.eventWord l arrival full w = s) ∧
    (bitsOf w 26 24 = 2 → s.eventWord l arrival full w = s.countTile tile Src.LNK_TILE_LOST (bitsOf w 23 0)) ∧
    (bitsOf w 26 24 ≠ 1 → bitsOf w 26 24 ≠ 2 → s.portState tile ≠ ptRUN →
      s.eventWord l arrival full w = (s.countLane l Src.LNK_EVENTS 1).countTile tile Src.LNK_NOPHASE 1) ∧
    (∀ k : Nat, bitsOf w 26 24 = 0 → s.portState tile = ptRUN → s.tbas.running = true → (s.port tile).slot = some k →
      s.restarting (8 + (32 * tile + bitsOf w 31 27) / 256) = false →
      s.eventLate tile (s.eventTime tile (bitsOf w 23 0) k) arrival = false → full = false → s.refuses (tileRgn tile) (tile % 8) = false →
      s.eventWord l arrival full w = ((s.countLane l Src.LNK_EVENTS 1).tapEvent tile (bitsOf w 31 27) 0
          (s.eventTime tile (bitsOf w 23 0) k)).hstEvent (32 * tile + bitsOf w 31 27) 0
        (s.eventTime tile (bitsOf w 23 0) k) arrival) ∧
    (∀ k : Nat, bitsOf w 26 24 = 0 → s.portState tile = ptRUN → s.tbas.running = true → (s.port tile).slot = some k →
      s.eventLate tile (s.eventTime tile (bitsOf w 23 0) k) arrival = false → full = true ∨ s.refuses (tileRgn tile) (tile % 8) = true →
      s.eventWord l arrival full w = (s.countLane l Src.LNK_EVENTS 1).countTile tile Src.LNK_INGEST_DROP 1)) ∧
  (∀ (c bin : Nat) (v : Int) (now : Wide) (b : CmbBuf) (s : State), bin < 4096 →
    CmbBuf.place (s.bank (c / 32)).from_ bin ((rd (fun _ => {}) s.hst.cmb c).at' now s.hstRate (· % 4)) = some b →
    let key := 4096 * (c % 32) + bin
    let n := rd (fun _ => 0) (s.bank (c / 32)).bins key
    let t := s.mainUpdate c none v bin now
    rd (fun _ => 0) (t.bank (c / 32)).bins key = (if s.refuses (8 + c / 256) (c % 256) = false ∧
      n < 65535 then n + 1 else n) ∧
      (∀ j, j ≠ key → rd (fun _ => 0) (t.bank (c / 32)).bins j = rd (fun _ => 0) (s.bank (c / 32)).bins j) ∧
      ∀ sec, sec ≠ c / 32 → t.bank sec = s.bank sec)

/-- BANK_SWAP, READOUT_START, STACK_COMPLETE (R233, R234, R236, R245): at the earliest swap tick the other bank starts empty, and
the one that stopped is kept for its read-out under the label of the last line it overlaps, with the counts of a line it has
to itself; an interval that overlaps no line is read out by nobody; a read-out starts after DRAIN, when no event of its bank
still waits for a stop; the engine's oldest line is complete, with its header written, once all its channels are. Choices of
the model in it: log 1, 3, 33, 47, 48, 49. -/
def Obligations.BanksComplete : Prop :=
  (∀ (sec : Fin 32) (x : Wide) (s : State), earliest (s.swapTicks sec) = some x → s.timely x = true →
    ∃ t, exec (.bankSwap sec) s = .next t ∧ s.within [.io, .scan, .hst, .outp] t ∧ s.onlyRegions [2, 8, 9, 10, 11] t ∧
      t.tick = (s.reach x).tick ∧
      (t.bank sec).from_ = some x ∧ (t.bank sec).bins = [] ∧ (t.bank sec).zbins = [] ∧
      (∀ l ∈ t.scan.lines, l.finish = x → l.swapped.testBit sec = true) ∧
      (∀ l older, (s.scan.lines.filter fun l => l.overlaps (s.bank sec).from_ x).reverse = l :: older →
        ∃ r ∈ t.hst.reads, r.sector = sec ∧ r.stop = x ∧ r.line = l.seq ∧ r.started = false ∧
          (older = [] → r.bank.bins = (s.bank sec).bins)) ∧
      ((s.scan.lines.filter fun l => l.overlaps (s.bank sec).from_ x) = [] → t.hst.reads.length = s.hst.reads.length)) ∧
  (∀ (sec : Fin 32) (x : ReadBank) (s : State),
    s.hst.reads.find? (fun y => y.sector == sec.val && !y.started) = some x → s.timely x.readAt = true →
    s.releaseEvents.timely x.readAt = true →
    (∀ e ∈ s.releaseEvents.hst.wait, e.chan / 32 = x.sector → before (BitVec.ofInt 64 (e.x / 16)) x.stop = false) →
    ∃ t, exec (.readoutStart sec) s = .next t ∧ s.within [.io, .scan, .hst, .memc] t ∧ s.onlyRegions [8, 9, 10, 11, 14] t ∧
      t.tick = (s.reach x.readAt).tick ∧ ∀ y ∈ t.hst.reads, y.sector = x.sector → y.stop = x.stop → y.started = true) ∧
  (∀ (j : StkJob) (rest : List StkJob) (s : State), s.memc.jobs = j :: rest → s.timely j.done = true → s.memc.retrain = [] →
    (∀ x ∈ s.hst.reads, x.line = j.line → x.stack = true → x.undelivered = []) →
    ∃ t, exec .stackComplete s = .next t ∧ s.within [.io, .memc] t ∧ s.onlyRegs [Fd.MEMC_STK_STAT_BUSY.off] t ∧
      t.tick = (s.reach j.done).tick ∧ t.memc.jobs = rest ∧
      look t.memc.headers j.slot = some j.header ∧ t.get Fd.MEMC_STK_STAT_BUSY = if rest = [] then 0 else 1)

/-- STALL_RETIRE_CMD, MOTION_PUBLISH, KERNEL_WRITE, FLT_RESTART (R240, R247, R254, R255, R261): a spare is chosen for the channel,
or none is left and the region restarts, and a channel with one already chosen keeps it; a motion set takes effect 4 µs on; a
kernel of an unlocked palette takes the write and its sums follow, that of a locked one does not; a failed check restarts the
filter at that bin of that histogram, and the third within it brings the spare filter, or, in use already, restarts the
region. Choices of the model in it: log 14, 15, 19, 47, 51, 75, 81. -/
def Obligations.EngineSettingsComplete : Prop :=
  (∀ (n : Fin 4) (q : Nat) (s : State), s.admits (.stallRetireCmd n) = true →
    let c := 256 * n + s.get (Fd.HST_SPARE_CMD_CHAN n)
    look s.hst.subst c = none → s.freeSpare n = some q →
    ∃ t, exec (.stallRetireCmd n) s = .next t ∧ s.within [.io, .hst] t ∧ s.onlyRegions [0, 8, 9, 10, 11] t ∧
      t.get (Fd.HST_SPARE_CMD_GO n) = 0 ∧ look t.hst.subst c = some q ∧
      t.get (stRetired n (s.stallOf c)) = 1 ∧ t.get (Fd.HST_STAT_SPARES n) = s.get (Fd.HST_STAT_SPARES n) - 1) ∧
  (∀ (n : Fin 4) (s : State), s.admits (.stallRetireCmd n) = true →
    let c := 256 * n + s.get (Fd.HST_SPARE_CMD_CHAN n)
    look s.hst.subst c = none → s.freeSpare n = none →
    ∃ t, exec (.stallRetireCmd n) s = .next t ∧ t.get (Fd.HST_SPARE_CMD_GO n) = 0 ∧ t.get (Fd.HST_STAT_NOSPARE n) = 1 ∧
      t.restarting (8 + n) = true) ∧
  (∀ (n : Fin 4) (s : State), s.admits (.stallRetireCmd n) = true →
    (look s.hst.subst (256 * n + s.get (Fd.HST_SPARE_CMD_CHAN n))).isSome = true →
    ∃ t, exec (.stallRetireCmd n) s = .next t ∧ s.within [.io] t ∧ s.onlyRegs [(Fd.HST_SPARE_CMD_GO n).off] t ∧
      t.get (Fd.HST_SPARE_CMD_GO n) = 0) ∧
  (∀ s : State, s.admits .motionPublish = true →
    ∃ t m, exec .motionPublish s = .next t ∧ s.within [.io, .memc] t ∧
      s.onlyRegs [Fd.MEMC_STK_STAT_NOMOTION.off, Fd.MEMC_STK_PUB_GO.off, Fd.MEMC_STK_MOT_TICK_HI_HI.off,
        Fd.MEMC_STK_MOT_TICK_LO_LO.off] t ∧ t.memc.motion.head? = some m ∧ m.eff = s.tick + 512000 ∧
      m.vx = signed 32 (s.get Fd.MEMC_STK_VX_V) ∧ m.vy = signed 32 (s.get Fd.MEMC_STK_VY_V) ∧
      m.vz = signed 32 (s.get Fd.MEMC_STK_VZ_V) ∧ m.yaw = signed 32 (s.get Fd.MEMC_STK_YAW_W) ∧
      t.get Fd.MEMC_STK_MOT_TICK_LO_LO = m.eff.toNat % 2 ^ 32 ∧ t.get Fd.MEMC_STK_MOT_TICK_HI_HI = m.eff.toNat / 2 ^ 32 ∧
      t.get Fd.MEMC_STK_PUB_GO = 0 ∧ t.get Fd.MEMC_STK_STAT_NOMOTION = 0) ∧
  (∀ (who : Actor) (off : BitVec 32) (v : Word) (n q k o m : Nat) (s : State),
        s.admits (.kernelWrite who off v) = true → kernelAt off.toNat = some (n, q, k, o) →
    kernelMask (off.toNat % 0x100) = some m → s.paletteLocked n q = false →
    ∃ t, exec (.kernelWrite who off v) s = .next t ∧ s.within [.io] t ∧ t.reg off.toNat = merge m (s.reg off.toNat) v ∧
      t.get (Fd.HST_KSUM_KSUM n q k) = unsigned 24 (kernelSum (t.kernel n q k).h) ∧
      t.get (Fd.HST_KSQ_KSQ n q k) = kernelSq (t.kernel n q k).h % 2 ^ 32 ∧
      ∀ a, a ≠ off.toNat → a ≠ (Fd.HST_KSUM_KSUM n q k).off → a ≠ (Fd.HST_KSQ_KSQ n q k).off → t.reg a = s.reg a) ∧
  (∀ (who : Actor) (off : BitVec 32) (v : Word) (n q k o m : Nat) (s : State),
        s.admits (.kernelWrite who off v) = true → kernelAt off.toNat = some (n, q, k, o) →
    kernelMask (off.toNat % 0x100) = some m → s.paletteLocked n q = true →
    ∃ t, exec (.kernelWrite who off v) s = .next t ∧ t.reg off.toNat = s.reg off.toNat) ∧
  (∀ (c : Fin 1024) (zoom : Option (Fin 4)) (bin : BitVec 12) (x : ReadBank) (k' : Nat) (s : State),
    let n := c.val / 256
    let eng := c.val % 8
    let i := histNum (c.val % 32) (zoom.map Fin.val)
    s.engineTakes n eng = some (x, k') → x.sector = c / 32 → s.mayTake x (c.val % 32) k' (zoom.map Fin.val) = true →
    ∃ t, exec (.fltRestart c zoom bin) s = .next t ∧ t.get (Fd.HST_FLT_STAT_RESTART n) = 1 ∧
      (rd (fun _ => 0) x.fails i < 2 → s.within [.io, .hst] t ∧
        ∃ y ∈ t.hst.reads, y.sector = x.sector ∧ y.stop = x.stop ∧ rd (fun _ => 0) y.fails i = rd (fun _ => 0) x.fails i + 1 ∧
          rd (fun _ => []) y.restarts i = rd (fun _ => []) x.restarts i ++ [bin.toNat]) ∧
      (2 ≤ rd (fun _ => 0) x.fails i → s.get (Fd.HST_FLT_STAT_REPL n) = 15 →
        t.get (Fd.HST_FLT_STAT_REPL n) = eng ∧ t.get (Fd.HST_FLT_STAT_SUBST n) = 1) ∧
      (2 ≤ rd (fun _ => 0) x.fails i → s.get (Fd.HST_FLT_STAT_REPL n) ≠ 15 →
        t.get (Fd.HST_FLT_STAT_NOSPARE n) = 1 ∧ t.restarting (8 + n) = true))

/-! ## Detection and output -/

/-- ECHO_DELIVERY, SECTOR_CLASSIFY, LINE_UNIT_PLACE (R251, R269, R282 to R284): the channel that its engine completes next is
delivered, as detection gives it where nothing was stacked, unless it is lost, and OUTP loses it while it restarts; a complete
read-out is classified, its digest entry written and its bank released; a complete unit leaves the queue. Choices of the model
in it: log 47, 48, 51, 53, 54, 55, 95. -/
def Obligations.OutputCompletes : Prop :=
  (∀ (c : Fin 1024) (errs : List BinErr) (x : ReadBank) (l : LineRec) (s : State),
    s.engineTakes (c / 256) (c % 8) = some (x, c.val % 32) → x.sector = c / 32 → s.lineOf x.line = some l →
    (∀ e ∈ errs, e.double = false) → s.restarting 12 = false →
    (∀ y ∈ s.hst.reads, y.sector = x.sector → y.stop = x.stop → y.lost.testBit (c % 32) = false) →
    ∃ t, exec (.echoDelivery c errs) s = .next t ∧
      ∃ y ∈ t.hst.reads, y.sector = x.sector ∧ y.stop = x.stop ∧ (look y.chans (c % 32)).isSome = true) ∧
  (∀ (c : Fin 1024) (x : ReadBank) (l : LineRec) (s : State),
    s.engineTakes (c / 256) (c % 8) = some (x, c.val % 32) → x.sector = c / 32 → s.lineOf x.line = some l →
    s.hst.reads.find? (fun y => y.sector == c.val / 32 && y.stop == x.stop) = some x →
    s.restarting 12 = false → x.lost.testBit (c % 32) = false → x.stack = false →
    ∃ t, exec (.echoDelivery c []) s = .next t ∧
      ∃ y ∈ t.hst.reads, y.sector = x.sector ∧ y.stop = x.stop ∧ look y.chans (c % 32) = some (s.detect x l (c % 32)
        ((List.range (256 * ((s.windowOf l (c.val / 32)).nbin + 1))).map fun b =>
          rd (fun _ => 0) x.bank.bins (4096 * (c.val % 32) + b)) false).1) ∧
  (∀ (c : Fin 1024) (x : ReadBank) (l : LineRec) (s : State),
    s.engineTakes (c / 256) (c % 8) = some (x, c.val % 32) → x.sector = c / 32 → s.lineOf x.line = some l →
    s.hst.reads.find? (fun y => y.sector == c.val / 32 && y.stop == x.stop) = some x → s.restarting 12 = true →
    ∃ t, exec (.echoDelivery c []) s = .next t ∧
      ∃ y ∈ t.hst.reads, y.sector = x.sector ∧ y.stop = x.stop ∧ y.lost.testBit (c % 32) = true) ∧
  (∀ (sec : Fin 32) (x : ReadBank) (l : LineRec) (s : State),
    s.hst.reads.find? (fun y => y.sector == sec.val) = some x → x.undelivered = [] → s.restarting 12 = false →
    s.lineOf x.line = some l →
    ∃ t, exec (.sectorClassify sec) s = .next t ∧ s.within [.io, .scan, .safe, .hst, .outp, .host] t ∧
      s.onlyRegions [2, 12, 13, 18] t ∧ (∀ y ∈ t.hst.reads, y.sector = x.sector → y.stop ≠ x.stop) ∧
      ∃ k, t.lineOf x.line = some k ∧ k.dig.testBit sec = true) ∧
  (∀ (u : OutUnit) (rest : List OutUnit) (l : LineRec) (s : State), s.outp.units = u :: rest → u.done = u.sectors →
    s.restarting 12 = false → (∀ k < 32, u.stop ∈ s.swapTicks k → u.sectors = 0) → s.lineOf u.line = some l →
    ∃ t, exec .lineUnitPlace s = .next t ∧ s.within [.io, .scan, .outp, .host] t ∧ s.onlyRegions [12, 13] t ∧
      t.outp.units = rest ∧ t.get Fd.OUTP_LAST_LINE_SEQ = l.seq.toNat)

/-! ## The host interface -/

/-- The current buffer of ring r, which s fills, has completed for the reasons in `why`: its write-back is on its way to the host (R304,
R306). -/
def Sys2Proof.Machine.State.wroteBack (r : Fin 14) (why : Nat) (s t : State) : Prop :=
  let x := s.ring r
  let done := s.get (Fd.HOST_RING_DONE_DONE r)
  t.get (Fd.HOST_RING_DONE_DONE r) = (done + 1) % 2 ^ 32 ∧
    t.get (Fd.HOST_RING_UNIT_UNIT r) = (s.get (Fd.HOST_RING_UNIT_UNIT r) + x.data.length / 16) % 2 ^ 32 ∧
    Out.dma r (x.base + BitVec.ofNat 64 (32 * (done % 2 ^ x.dsz) + 16)) false s.mps
      (leBytes 4 (s.get (Fd.HOST_RING_UNIT_UNIT r)) ++ leBytes 4 (x.data.length / 16)
        ++ leBytes 2 (if x.begun then min x.drops 65535 else 0)
        ++ leBytes 2 (1 + (why ||| if s.idleDue r then stIDLE else 0)) ++ leBytes 4 0) ∈ t.io.held ++ t.io.out

/-- DOORBELL_POST, FLUSH_DOORBELL, DESC_FETCH, BUFFER_IDLE_CLOSE, COAL_TIMER (R299 to R304, R306, R309, R312): a good POST is
taken and a bad one sets RING_ERR; a descriptor that arrives is held if it is good and stops the ring if it is not, and a read
that fails stops the ring; a record that fits is written at its place in the buffer; a buffer with data completes with its
write-back; the timer ends the count with the ring's interrupt cause; none of these acts on a ring in the wrong state. Choices
of the model in it: log 3, 15, 19, 55, 92. -/
def Obligations.BuffersComplete : Prop :=
  (∀ (r : Fin 14) (post : Word) (s : State), s.admits (.doorbellPost r post) = true → s.ringState r ≠ rOFF →
    ∃ t, exec (.doorbellPost r post) s = .next t ∧ s.within [.io] t ∧
      s.onlyRegs [(Fd.HOST_RING_POST_POST r).off, (Fd.HOST_RING_STAT_RING_ERR r).off] t ∧
      if (post - s.reg (Fd.HOST_RING_DONE_DONE r).off).toNat ≤ 2 ^ (s.ring r).dsz ∧
          (post - s.reg (Fd.HOST_RING_POST_POST r).off).toNat < 2 ^ 31 then
        t.get (Fd.HOST_RING_POST_POST r) = post.toNat
      else t.get (Fd.HOST_RING_POST_POST r) = s.get (Fd.HOST_RING_POST_POST r) ∧ t.get (Fd.HOST_RING_STAT_RING_ERR r) = 1) ∧
  (∀ (r : Fin 14) (post : Word) (s : State),
        s.admits (.doorbellPost r post) = true → s.ringState r = rOFF → exec (.doorbellPost r post) s = .next s) ∧
  (∀ (r : Fin 14) (next : BitVec 21) (d : Desc) (rest : List Desc) (s : State),
        s.admits (.flushDoorbell r next) = true → s.ringState r = rRUN →
    (s.ring r).descs = d :: rest → (s.ring r).data ≠ [] →
    ∃ t, exec (.flushDoorbell r next) s = .next t ∧ s.within [.io, .host] t ∧ s.onlyRegions [13] t ∧
      (t.ring r).descs = rest ∧ (t.ring r).data = [] ∧
      s.wroteBack r (stFLUSH ||| if next ≠ 0 ∧ d.size < (s.ring r).data.length + next.toNat then stFULL else 0) t) ∧
  (∀ (r : Fin 14) (first : Bool) (b : List Byte) (d : Desc) (rest : List Desc) (s : State), (s.ring r).descs = d :: rest →
    (s.ring r).data.length + b.length ≤ d.size →
    let t := (s.putRecord r first b).1
    s.within [.io, .host] t ∧ t.io.regs = s.io.regs ∧ (t.ring r).data = (s.ring r).data ++ b ∧ (t.ring r).descs = d :: rest ∧
      Out.dma r (d.addr + BitVec.ofNat 64 (s.ring r).data.length) (s.is (Fd.CFG_DEV_ERO false)) s.mps b ∈ t.io.held ++ t.io.out) ∧
  (∀ (r : Fin 14) (next : BitVec 21) (s : State),
        s.admits (.flushDoorbell r next) = true → s.ringState r ≠ rRUN ∨ (s.ring r).data = [] →
    exec (.flushDoorbell r next) s = .next s) ∧
  (∀ (r : Fin 14) (d : Desc) (rest : List Desc) (s : State), s.ringState r = rRUN → (s.ring r).descs = d :: rest →
    (s.ring r).data ≠ [] → s.get (Fd.HOST_RING_CTL_IDLE r) ≠ 0 → s.clockOk (s.idleAt r) = true →
    ∃ t, exec (.bufferIdleClose r) s = .next t ∧ s.within [.io, .host] t ∧ s.onlyRegions [13] t ∧ (t.ring r).descs = rest ∧
      (t.ring r).data = [] ∧
      (s.clockReach (s.idleAt r)).wroteBack r stIDLE t) ∧
  (∀ (r : Fin 14) (fin : ReadEnd) (addr : Wide) (size cookie : Word) (tail : BitVec 128) (s : State), s.mayFetch r = true →
    (fin = .timeout → s.get (Fd.CFG_DEV2_CTODIS false) = 0) →
    ∃ t, exec (.descFetch r fin addr size cookie tail) s = .next t ∧ s.within [.io, .host] t ∧ s.onlyRegions [13, 48] t ∧
      if fin = .data ∧ descGood addr size tail = true then
        (t.ring r).descs = (s.ring r).descs ++ [{ addr := addr, size := size.toNat, cookie := cookie }] ∧
          t.ringState r = rRUN ∧ t.get (Fd.HOST_RING_STAT_FETCHED r) = (s.ring r).descs.length + 1
      else t.ringState r = rSTOPPED ∧ t.get (Fd.HOST_RING_STAT_CAUSE r) = (if fin = .data then 1 else 2) ∧
      (t.ring r).descs = [] ∧
        (fin = .poisoned → t.get (Fd.CFG_AER_UNC false 12) = 1) ∧ (fin = .timeout → t.get (Fd.CFG_AER_UNC false 14) = 1) ∧
        (fin = .ur → t.get (Fd.CFG_STATUS_RMA false) = 1) ∧ (fin = .ca → t.get (Fd.CFG_STATUS_RTA false) = 1)) ∧
  (∀ (r : Fin 14) (s : State),
    let x := (s.ring r).coalAt + usTicks (s.get (Fd.HOST_RING_COAL_T r))
    (s.ring r).coal ≠ 0 → s.get (Fd.HOST_RING_COAL_T r) ≠ 0 → s.clockOk x = true →
    ∃ t, exec (.coalTimer r) s = .next t ∧ s.within [.io, .host] t ∧ s.onlyRegs [] t ∧ (t.ring r).coal = 0 ∧
      t.get (causeBit r) = 1)

/-- RING_ENABLE, RING_DISABLE, RING_RESUME, RING_STOP, IRQ_CAUSE_CLEAR (R36, R308, R309, R311): enabling a ring latches its base
and size and clears its counts but that of its completions towards an interrupt; disabling it closes its buffer and turns it
OFF; a STOPPED ring resumes, and RESUME is ignored elsewhere; loss of bus mastering and of D0 stop every running ring; a cause
that is cleared reads 0 unless its source fires in the same cycle. Choices of the model in it: log 6, 19, 55, 56. -/
def Obligations.RingStatesComplete : Prop :=
  (∀ (r : Fin 14) (s : State), s.admits (.ringEnable r) = true → s.get (Fd.HOST_RING_CTL_EN r) = 0 →
    ∃ t, exec (.ringEnable r) s = .next t ∧ s.within [.io, .host] t ∧ s.onlyRegions [13] t ∧
      t.get (Fd.HOST_RING_CTL_EN r) = 1 ∧ t.ringState r = rRUN ∧
      t.get (Fd.HOST_RING_POST_POST r) = 0 ∧ t.get (Fd.HOST_RING_DONE_DONE r) = 0 ∧ t.get (Fd.HOST_RING_UNIT_UNIT r) = 0 ∧
      (t.ring r).base
        = BitVec.ofNat 64 (s.get (Fd.HOST_RING_BASE_LO_BASE r) * 64 + s.get (Fd.HOST_RING_BASE_HI_BASE r) * 2 ^ 32) ∧
      (t.ring r).dsz = s.get (Fd.HOST_RING_CTL_DSZ r) ∧ (t.ring r).coal = (s.ring r).coal ∧
      (t.ring r).coalAt = (s.ring r).coalAt) ∧
  (∀ (r : Fin 14) (s : State),
        s.admits (.ringEnable r) = true → s.get (Fd.HOST_RING_CTL_EN r) = 1 → exec (.ringEnable r) s = .next s) ∧
  (∀ (r : Fin 14) (flush : Bool) (next : BitVec 21) (s : State),
        s.admits (.ringDisable r flush next) = true → s.get (Fd.HOST_RING_CTL_EN r) = 0 →
    exec (.ringDisable r flush next) s = .next s) ∧
  (∀ (r : Fin 14) (flush : Bool) (next : BitVec 21) (s : State),
        s.admits (.ringDisable r flush next) = true → s.get (Fd.HOST_RING_CTL_EN r) = 1 →
    ∃ t, exec (.ringDisable r flush next) s = .next t ∧ s.within [.io, .host] t ∧ s.onlyRegions [13] t ∧
      t.get (Fd.HOST_RING_CTL_EN r) = 0 ∧ t.ringState r = rOFF ∧
      (t.ring r).descs = [] ∧ (t.ring r).data = [] ∧ t.get (Fd.HOST_RING_STAT_CAUSE r) = 0 ∧
      ((s.ring r).descs ≠ [] → (s.ring r).data ≠ [] →
        s.wroteBack r (stDISABLE ||| (if flush then stFLUSH else 0) ||| s.fullToo r next.toNat) t)) ∧
  (∀ (r : Fin 14) (s : State), s.admits (.ringResume r) = true → s.ringState r = rSTOPPED →
    ∃ t, exec (.ringResume r) s = .next t ∧ s.within [.io] t ∧ s.onlyRegions [13] t ∧ t.ringState r = rRUN ∧
      t.get (Fd.HOST_RING_CTL_RESUME r) = 0 ∧
      t.get (Fd.HOST_RING_STAT_CAUSE r) = 0) ∧
  (∀ (r : Fin 14) (s : State), s.admits (.ringResume r) = true → s.ringState r ≠ rSTOPPED →
    ∃ t, exec (.ringResume r) s = .next t ∧ s.within [.io] t ∧ s.onlyRegs [(Fd.HOST_RING_CTL_RESUME r).off] t ∧
      t.ringState r = s.ringState r ∧ t.get (Fd.HOST_RING_CTL_RESUME r) = 0) ∧
  (∀ (pm : Bool) (s : State),
        s.admits (.ringStop pm) = true → (if pm then s.get (Fd.CFG_PM_STATE false) = 0 else s.get (Fd.CFG_CMD_BME false) = 1) →
    ∃ t, exec (.ringStop pm) s = .next t ∧ s.within [.io, .host] t ∧ s.onlyRegions [13, 48] t ∧
      (if pm then t.get (Fd.CFG_PM_STATE false) = 3 else t.get (Fd.CFG_CMD_BME false) = 0) ∧
      ∀ r : Fin 14, t.ringState r = (if s.ringState r = rRUN then rSTOPPED else s.ringState r) ∧
        (s.ringState r = rRUN → t.get (Fd.HOST_RING_STAT_CAUSE r) = if pm then 4 else 3)) ∧
  (∀ (mask : Wide) (s : State), s.admits (.irqCauseClear mask 0) = true →
    ∃ t, exec (.irqCauseClear mask 0) s = .next t ∧ s.within [.io] t ∧
      ∀ i : Fin 64, t.get (causeBit i) = if mask.getLsbD i then 0 else s.get (causeBit i)) ∧
  (∀ (mask hw : Wide) (i : Fin 64) (s : State),
        s.admits (.irqCauseClear mask hw) = true → hw.getLsbD i = true → definedSource i = true →
    ∃ t, exec (.irqCauseClear mask hw) s = .next t ∧ s.within [.io] t ∧ t.get (causeBit i) = 1)

/-- CONVENTIONAL_RESET, PERST_DEASSERT, FLR, LINK_TRAINED, LINK_RECOVERY, RECOVERY_EXIT (R292, R315 to R317, R448): what a reset
of the host interface and of each function returns to its reset value; a reset needs a link that is up, but for PERST_N; the
link as it trained; the writes held in Recovery leave in order. Choices of the model in it: log 58, 79, 92. -/
def Obligations.LinkAndResetsComplete : Prop :=
  (∀ (why : ResetCause) (s : State), (if why = .perst then s.powered = true else s.get Fd.HOST_LINK_STAT_DL_UP = 1) →
    ∃ t, exec (.conventionalReset why) s = .next t ∧ s.within [.io, .tbas, .safe, .host, .mgmt] t ∧
      t.host.perst = (s.host.perst || why == .perst) ∧
      t.tbas = { s.tbas with ptmDown := s.tbas.ptmDown || s.ptmActive } ∧ t.get Fd.HOST_LINK_STAT_DL_UP = 0 ∧
      (∀ r : Fin 14, t.ringState r = rOFF) ∧ t.get Fd.CFG_PTM_EN = 0 ∧ t.safe.smTx = [] ∧
      t.host.doe = {} ∧ t.get Fd.HOST_LINK_DOWNS_COUNT = (s.get Fd.HOST_LINK_DOWNS_COUNT + 1) % 2 ^ 32) ∧
  (∀ s : State, ∃ t, exec .perstDeassert s = .next t ∧ s.within [.io, .emt, .host, .chip] t ∧
      s.onlyRegs [Fd.CHIP_OSC_STAT_XO_OK.off, Fd.CHIP_PWR_STAT_STATE.off, Fd.CHIP_ISLAND_RUN_HI_RUN.off,
        Fd.CHIP_ISLAND_RUN_LO_RUN.off] t ∧ t.host.perst = false) ∧
  (∀ s : State, s.powered = false → exec (.conventionalReset .perst) s = .next (s.host' fun h => { h with perst := true })) ∧
  (∀ (why : ResetCause) (s : State),
        why ≠ .perst → s.get Fd.HOST_LINK_STAT_DL_UP = 0 → exec (.conventionalReset why) s = .next s) ∧
  (∀ s : State,
    ∃ t, exec (.flr false) s = .next t ∧ s.within [.io, .host] t ∧ (∀ r : Fin 14, t.ringState r = rOFF) ∧
      t.get Fd.CFG_PTM_EN = 0 ∧
      ∀ a, (a < 0x01A20000 ∨ 0x01A30000 ≤ a) → (a < 0x01B20000 ∨ 0x01B30000 ≤ a) → (a < 0x04080000 ∨ 0x04090000 ≤ a) →
        (a < 0x06000000 ∨ 0x06010000 ≤ a) → a ∉ [Fd.TBAS_TB_STAT_HOLD_MODE.off,
          Fd.TBAS_PTM_STAT_ACTIVE.off] → t.reg a = s.reg a) ∧
  (∀ s : State,
    ∃ t, exec (.flr true) s = .next t ∧ s.within [.io, .safe, .host, .mgmt] t ∧ t.safe.smTx = [] ∧ t.host.doe = {} ∧
      t.get Fd.MBX_STAT_BUSY = 0 ∧
      ∀ a, a < 0x05000000 → t.reg a = s.reg a) ∧
  (∀ (speed : BitVec 3) (width : BitVec 4) (flit : Bool) (s : State), linkFits speed.toNat width.toNat flit = true →
    s.host.perst = false → s.stageIs 6 = true → s.chip.railPcie = true → s.restarting 13 = false →
    ∃ t, exec (.linkTrained speed width flit) s = .next t ∧ s.within [.io] t ∧
      s.onlyRegs [Fd.CHIP_BOOT_STAT_DONE.off, Fd.HOST_LINK_STAT_DL_UP.off] t ∧ t.get Fd.HOST_LINK_STAT_DL_UP = 1 ∧
      t.get Fd.HOST_LINK_STAT_SPEED = speed.toNat ∧ t.get Fd.HOST_LINK_STAT_WIDTH = width.toNat ∧
      t.get Fd.HOST_LINK_STAT_FLIT = if flit then 1 else 0) ∧
  (∀ (replays : BitVec 8) (s : State), s.get Fd.HOST_LINK_STAT_DL_UP = 1 → s.io.recovery = false →
    ∃ t, exec (.linkRecovery replays) s = .next t ∧ s.within [.io] t ∧ s.onlyRegions [13] t ∧ t.io.recovery = true ∧
      t.get Fd.HOST_LINK_RECOV_COUNT = (s.get Fd.HOST_LINK_RECOV_COUNT + 1) % 2 ^ 32) ∧
  (∀ s : State, s.io.recovery = true →
    ∃ t, exec .recoveryExit s = .next t ∧ t.io.recovery = false ∧ t.io.out = s.io.held ++ s.io.out ∧ t.io.held = [] ∧
      t.io.regs = s.io.regs)

/-! ## Memory -/

/-- MEMC_TRAINING, MEMC_INIT_DONE, MEMC_RETRAIN, CRC_RETRY_FAIL, CHANNEL_RETRAIN_DONE, MEM_UE, MEMC_PERIOD, SCRUB_PASS (R322 to
R329): training empties the memory and passes with four like devices, or it is OFFLINE; the write of every sector makes it
ready; a retry that succeeds changes nothing, and when the third one fails the channel retrains alone; a sector in error in
one symbol is corrected, beyond that it is uncorrectable and handled by its area; the owners of a period's slots are served up
to their credits, and what every client got is traced; a scrub pass with the sectors it corrects. Choices of the model in it:
log 1, 15, 19, 59, 60, 61, 79. -/
def Obligations.MemoryCompletes : Prop :=
  (∀ (a : BitVec 2) (pass : Bool) (s : State), s.trainDue = true → a ≠ 0 →
    ∃ t, exec (.memcTraining [a, a, a, a] pass) s = .next t ∧ s.within [.io, .scan, .hst, .memc] t ∧
      s.onlyRegs [Fd.MEMC_CAP_STAT_QUEUED.off, Fd.MEMC_MEM_STAT_OFFLINE.off, Fd.MEMC_MEM_CTL_RETRAIN.off,
        Fd.MEMC_STK_STAT_BUSY.off] t ∧ t.memc.jobs = [] ∧
      (s.memc.jobs ≠ [] → t.get Fd.MEMC_STK_STAT_SKIP = 1) ∧ t.get Fd.MEMC_MEM_CTL_RETRAIN = 0 ∧
      t.get Fd.MEMC_MEM_STAT_INIT_DONE = 0 ∧ t.memc.hist = [] ∧ t.memc.headers = [] ∧
      t.get Fd.MEMC_MEM_STAT_DENS = a.toNat ∧ t.get Fd.MEMC_MEM_STAT_TRAINED = (if pass then 1 else 0) ∧
      (pass = false → t.get Fd.MEMC_MEM_STAT_OFFLINE = 1)) ∧
  (∀ (d : List (BitVec 2)) (pass : Bool) (s : State), s.trainDue = true → d.length = 4 → commonDensity d = none →
    ∃ t, exec (.memcTraining d pass) s = .next t ∧ s.within [.io, .scan, .hst, .memc] t ∧
      s.onlyRegs [Fd.MEMC_CAP_STAT_QUEUED.off, Fd.MEMC_MEM_STAT_OFFLINE.off, Fd.MEMC_MEM_CTL_RETRAIN.off,
        Fd.MEMC_STK_STAT_BUSY.off] t ∧ t.memc.jobs = [] ∧ t.get Fd.MEMC_MEM_STAT_OFFLINE = 1 ∧
      t.get Fd.MEMC_MEM_STAT_TRAINED = 0 ∧ t.get Fd.MEMC_MEM_STAT_DENS = 0) ∧
  (∀ s : State, s.get Fd.MEMC_MEM_STAT_TRAINED = 1 → s.get Fd.MEMC_MEM_STAT_INIT_DONE = 0 →
    ∃ t, exec .memcInitDone s = .next t ∧ s.within [.io] t ∧
      s.onlyRegs [Fd.CHIP_BOOT_STAT_DONE.off, Fd.MEMC_CAP_STAT_STATE.off, Fd.MEMC_MEM_STAT_OFFLINE.off] t ∧
      t.memReady = true ∧
      t.capState = if s.capState = 4 then capIDLE else s.capState) ∧
  (∀ s : State, s.admits .memcRetrain = true → ∃ t, exec .memcRetrain s = .next t ∧ s.within [.io] t ∧
      t.get Fd.MEMC_MEM_CTL_RETRAIN = 1 ∧
    ∀ a, a ≠ Fd.MEMC_MEM_CTL_RETRAIN.off → t.reg a = s.reg a) ∧
  (∀ (ch : Fin 4) (s : State), s.get Fd.MEMC_MEM_STAT_TRAINED = 1 → look s.memc.retrain ch = none →
    ∃ t, exec (.crcRetryFail ch none) s = .next t ∧ s.within [.io, .memc] t ∧ s.onlyRegs [] t ∧
      look t.memc.retrain ch = some s.tick) ∧
  (∀ (ch : Fin 4) (k : Fin 3) (s : State), s.get Fd.MEMC_MEM_STAT_TRAINED = 1 → look s.memc.retrain ch = none →
    ∃ t, exec (.crcRetryFail ch (some k)) s = .next t ∧ s.within [.io] t ∧ s.onlyRegs [] t) ∧
  (∀ (ch : Fin 4) (pass : Bool) (x : Wide) (s : State), look s.memc.retrain ch = some x →
    ∃ t, exec (.channelRetrainDone ch pass) s = .next t ∧ s.within [.io, .scan, .hst, .memc] t ∧
      s.onlyRegs [Fd.MEMC_CAP_STAT_QUEUED.off, Fd.MEMC_MEM_STAT_OFFLINE.off, Fd.MEMC_STK_STAT_BUSY.off] t ∧
      look t.memc.retrain ch = none ∧
      t.memc.cPrev = s.memc.cPrev.map (· + (s.tick - x)) ∧
      (if pass then t.get (Fd.MEMC_MEM_STAT_CH_RETRAIN.bit ch) = 1
       else t.get Fd.MEMC_MEM_STAT_OFFLINE = 1 ∧ t.get Fd.MEMC_MEM_STAT_TRAINED = 0)) ∧
  (∀ (da : BitVec 34) (s : State), s.memReady = true → da.toNat < s.memTop →
    ∃ t, exec (.memUe da false) s = .next t ∧ s.within [.io, .memc] t ∧ s.onlyRegs [Fd.MEMC_MEM_UE_COUNT.off] t ∧
      t.get Fd.MEMC_MEM_UE_COUNT = min (s.get Fd.MEMC_MEM_UE_COUNT + 1) (2 ^ 32 - 1) ∧
      match areaOf (s.get Fd.MEMC_STK_CTL_NSLOT) da.toNat with
      | .stackBins slot c => (slot * 1024 + c : Nat) ∈ t.memc.badBins
      | .stackHeader slot => ∃ h, look t.memc.headers slot = some h ∧ h.bad = true
      | .capture k => (k, s.memc.stored) ∈ t.memc.badCap
      | .management => t.memc = s.memc
      | .unused => t.memc = s.memc) ∧
  (∀ (da : BitVec 34) (s : State), s.memReady = true → da.toNat < s.memTop →
    ∃ t, exec (.memUe da true) s = .next t ∧ s.within [.io] t ∧ s.onlyRegs [Fd.MEMC_MEM_CE_COUNT.off] t ∧
      t.get Fd.MEMC_MEM_CE_COUNT = (s.get Fd.MEMC_MEM_CE_COUNT + 1) % 2 ^ 32) ∧
  (∀ (da : BitVec 34) (oneSymbol : Bool) (s : State), (s.memReady = false ∨ s.memTop ≤ da.toNat) →
    exec (.memUe da oneSymbol) s = .next s) ∧
  (∀ (load : MemLoad) (s : State), s.admits (.memcPeriod load) = true → s.memReady = true →
    let stk := min load.stk.toNat (min 1792 (256 * s.memc.rate))
    let cap := min load.cap.toNat (min 768 (256 * s.memc.rate - stk))
    ∃ t check mgmt capx scrub, exec (.memcPeriod load) s = .next t ∧ s.within [.io, .memc, .mgmt] t ∧ s.onlyRegs [] t ∧
      t.memc.stkCredit = 1792 - stk ∧ t.memc.capCredit = 768 - cap ∧
      t.io.out = .memServed stk cap check mgmt capx scrub :: s.io.out) ∧
  (∀ (load : MemLoad) (s : State), s.admits (.memcPeriod load) = true → (s.memReady = false ∨ s.restarting 14 = true) →
    ∃ t, exec (.memcPeriod load) s = .next t ∧ s.within [.memc] t ∧ t.memc.stkCredit = 1792 ∧ t.memc.capCredit = 768 ∧
      t.io = s.io) ∧
  (∀ (corrected : List (Fin 4)) (s : State), s.memReady = true → (∀ x, s.memc.scrubAt = some x → x ≤ (s.tick.toNat : Int)) →
    ∃ t, exec (.scrubPass corrected) s = .next t ∧ s.within [.io, .memc, .mgmt] t ∧ s.onlyRegs [Fd.MEMC_MEM_CE_COUNT.off] t ∧
      t.get Fd.MEMC_MEM_CE_COUNT = (s.get Fd.MEMC_MEM_CE_COUNT + corrected.length) % 2 ^ 32 ∧
      t.memc.scrubAt = some ((s.tick.toNat + s.get Fd.MEMC_SCRUB_PERIOD * ticksPerHour : Nat) : Int) ∧
      t.mgmt.scrubShare = false ∧ t.mgmt.scrubWait = none)

/-! ## Capture and the sync bus -/

/-- CAP_ARM, CAP_ABORT, CAP_TRIG, CAP_SAMPLE, CAP_POST_END, CAP_EXPORT_RECORD (R333 to R345): an ARM opens segment 0 or shows why
not; ABORT by state, and in the cycle of the completion the completion wins; the soft trigger starts POST, waits for the first
sample, or does nothing where its condition is off; the oldest sample of the FIFO is stored, or enters its reduction interval,
and waits while a channel retrains; the post-trigger count opens the next segment or the export; a record goes out once ring
12 has room. Choices of the model in it: log 19, 57, 62. -/
def Obligations.CaptureCompletes : Prop :=
  (∀ s : State, s.admits .capArm = true → s.capRefusal = 0 →
    ∃ t, exec .capArm s = .next t ∧ s.within [.io, .memc] t ∧
      s.onlyRegs [Fd.MEMC_CAP_STAT_STATE.off, Fd.MEMC_CAP_CMD_ARM.off, Fd.MEMC_CAP_SEQ_CAPSEQ.off,
        Fd.MEMC_CAP_PTC_PTC.off] t ∧ t.capState = capARMED ∧ t.get Fd.MEMC_CAP_CMD_ARM = 0 ∧
      t.get Fd.MEMC_CAP_STAT_REFUSE = 0 ∧ t.memc.segs = [{ base := 0 }] ∧ t.memc.stored = 0 ∧ t.memc.capQ = [] ∧
      t.get Fd.MEMC_CAP_SEQ_CAPSEQ = (s.get Fd.MEMC_CAP_SEQ_CAPSEQ + 1) % 2 ^ 32) ∧
  (∀ s : State, s.admits .capArm = true → s.capRefusal ≠ 0 →
    ∃ t, exec .capArm s = .next t ∧ s.within [.io, .memc] t ∧
      s.onlyRegs [Fd.MEMC_CAP_STAT_STATE.off, Fd.MEMC_CAP_CMD_ARM.off, Fd.MEMC_CAP_SEQ_CAPSEQ.off,
        Fd.MEMC_CAP_PTC_PTC.off] t ∧ t.capState = s.capState ∧ t.get Fd.MEMC_CAP_CMD_ARM = 0 ∧
      t.get Fd.MEMC_CAP_STAT_REFUSE = s.capRefusal ∧ t.memc = s.memc) ∧
  (∀ s : State, s.admits .capAbort = true → (s.capState = capARMED ∨ s.capState = capEXPORT) →
    ∃ t, exec .capAbort s = .next t ∧ s.within [.io, .memc] t ∧
      s.onlyRegs [Fd.MEMC_CAP_TRIG_MISSED_COUNT.off, Fd.MEMC_CAP_STAT_STATE.off, Fd.MEMC_CAP_CMD_ABORT.off] t ∧
      t.capState = capIDLE ∧ t.memc.segs = [] ∧ t.get Fd.MEMC_CAP_CMD_ABORT = 0) ∧
  (∀ s : State,
        s.admits .capAbort = true → s.capState = capPOST → (s.memc.postFull = false ∨ s.memc.segs.length < s.memc.nseg) →
    ∃ t, exec .capAbort s = .next t ∧ s.within [.io, .memc] t ∧
      s.onlyRegs [Fd.MEMC_CAP_TRIG_MISSED_COUNT.off, Fd.MEMC_CAP_STAT_STATE.off, Fd.MEMC_CAP_CMD_ABORT.off] t ∧
      t.capState = capEXPORT ∧ t.memc.capQ = [] ∧
      t.memc.segs.length = s.memc.segs.length ∧ t.get Fd.MEMC_CAP_CMD_ABORT = 0) ∧
  (∀ s : State, s.admits .capAbort = true → s.capState = capPOST → s.memc.postFull = true → s.memc.nseg ≤ s.memc.segs.length →
    ∃ t, exec .capAbort s = .next t ∧ s.within [.io] t ∧
      s.onlyRegs [Fd.MEMC_CAP_STAT_STATE.off, Fd.MEMC_CAP_CMD_ABORT.off] t ∧
      t.capState = capPOST ∧ t.get Fd.MEMC_CAP_STAT_ABORT_LATE = 1 ∧ t.get Fd.MEMC_CAP_CMD_ABORT = 0) ∧
  (∀ s : State, s.admits .capAbort = true → s.capState ≠ capARMED → s.capState ≠ capPOST → s.capState ≠ capEXPORT →
    ∃ t, exec .capAbort s = .next t ∧ s.within [.io] t ∧ s.onlyRegs [Fd.MEMC_CAP_CMD_ABORT.off] t ∧
      t.get Fd.MEMC_CAP_CMD_ABORT = 0) ∧
  (∀ (x : Sample) (s : State),
        s.admits .capTrig = true → s.capState = capARMED → s.memc.condOn 5 = true → s.memc.last = some x →
    (s.memc.opening = false ∨ s.memc.capQ = []) → s.memc.hit = .none →
    ∃ t, exec .capTrig s = .next t ∧ s.within [.io, .memc] t ∧
      s.onlyRegs [Fd.MEMC_CAP_TRIG_MISSED_COUNT.off, Fd.MEMC_CAP_STAT_PRIMARY.off, Fd.MEMC_CAP_CMD_TRIG.off] t ∧
      t.capState = capPOST ∧ t.get Fd.MEMC_CAP_STAT_TRIG_CAUSE = 32 ∧
      t.get Fd.MEMC_CAP_STAT_PRIMARY = 5 ∧ t.get Fd.MEMC_CAP_CMD_TRIG = 0) ∧
  (∀ s : State,
        s.admits .capTrig = true → (s.capState = capARMED ∨ s.capState = capPOST) → s.memc.condOn 5 = true → s.memc.last = none →
    ∃ t, exec .capTrig s = .next t ∧ s.within [.io, .memc] t ∧ s.onlyRegs [Fd.MEMC_CAP_CMD_TRIG.off] t ∧
      t.memc.early = s.memc.early ++ [(5, none)] ∧ t.get Fd.MEMC_CAP_CMD_TRIG = 0) ∧
  (∀ s : State, s.admits .capTrig = true → (s.capState ≠ capARMED ∧ s.capState ≠ capPOST ∨ s.memc.condOn 5 = false) →
    ∃ t, exec .capTrig s = .next t ∧ s.within [.io] t ∧ s.onlyRegs [Fd.MEMC_CAP_CMD_TRIG.off] t ∧
      t.get Fd.MEMC_CAP_CMD_TRIG = 0) ∧
  (∀ (y : CapIn) (rest : List CapIn) (s : State), (s.capState = capARMED ∨ s.capState = capPOST ∧ s.memc.postFull = false) →
    s.memc.retrain = [] → s.memc.fifo = y :: rest → s.capGet Fd.MEMC_CAP_BUF_RED = 0 →
    ∃ t, exec .capSample s = .next t ∧ s.within [.io, .memc] t ∧
      s.onlyRegs [Fd.MEMC_CAP_TRIG_MISSED_COUNT.off, Fd.MEMC_CAP_STAT_PRIMARY.off] t ∧ t.memc.stored = s.memc.stored + 1 ∧
      t.memc.fifo = rest ∧ t.memc.last = some y.x ∧ look t.memc.prev y.x.sub = some y.x) ∧
  (∀ (y : CapIn) (rest : List CapIn) (s : State), (s.capState = capARMED ∨ s.capState = capPOST ∧ s.memc.postFull = false) →
    s.memc.retrain = [] → s.memc.fifo = y :: rest → s.capGet Fd.MEMC_CAP_BUF_RED ≠ 0 →
    ∃ t, exec .capSample s = .next t ∧ s.within [.io, .memc] t ∧
      s.onlyRegs [Fd.MEMC_CAP_TRIG_MISSED_COUNT.off, Fd.MEMC_CAP_STAT_PRIMARY.off] t ∧ t.memc.fifo = rest ∧
      t.memc.last = some y.x ∧ look t.memc.prev y.x.sub = some y.x ∧
      t.memc.stored = s.memc.stored +
        (if ((look s.memc.red y.x.sub).map CapRed.n).getD 0 + 1 = 2 ^ s.capGet Fd.MEMC_CAP_BUF_RED then 1 else 0)) ∧
  (∀ s : State, (s.capRuns = false ∨ s.memc.retrain ≠ [] ∨ s.memc.fifo = [] ∨ s.capState = capPOST ∧ s.memc.postFull = true) →
    exec .capSample s = .next s) ∧
  (∀ s : State, s.capState = capPOST → s.memc.postFull = true → s.memc.segs.length < s.memc.nseg →
    ∃ t, exec .capPostEnd s = .next t ∧ s.within [.io, .memc] t ∧
      s.onlyRegs [Fd.MEMC_CAP_TRIG_MISSED_COUNT.off, Fd.MEMC_CAP_STAT_STATE.off] t ∧ t.capState = capARMED ∧
      t.memc.segs = s.memc.segs ++ [{ base := s.memc.stored }]) ∧
  (∀ s : State, s.capState = capPOST → s.memc.postFull = true → s.memc.nseg ≤ s.memc.segs.length →
    ∃ t, exec .capPostEnd s = .next t ∧ s.within [.io, .memc] t ∧
      s.onlyRegs [Fd.MEMC_CAP_TRIG_MISSED_COUNT.off, Fd.MEMC_CAP_STAT_STATE.off] t ∧ t.capState = capEXPORT ∧
      t.memc.segs = s.memc.segs ∧ t.memc.expSeg = 0 ∧
      t.memc.expAt = none) ∧
  (∀ (z : CapSeg) (d : Desc) (rest : List Desc) (s : State), s.capState = capEXPORT → s.memc.retrain = [] →
    s.host.staged = [] → s.memc.segs[s.memc.expSeg]? = some z → s.memc.expAt = none →
    s.ringRoom 12 [(s.capSummary s.memc.expSeg z).length] = true → (s.ring 12).descs = d :: rest →
    (s.ring 12).data.length + (s.capSummary s.memc.expSeg z).length ≤ d.size →
    ∃ t, exec .capExportRecord s = .next t ∧ s.within [.io, .host, .memc] t ∧ s.onlyRegions [13, 14] t ∧
      (t.ring 12).data = (s.ring 12).data ++ s.capSummary s.memc.expSeg z ∧
      (s.memc.kept z ≠ [] → t.memc.expAt = some 0 ∧ t.memc.expSeg = s.memc.expSeg)) ∧
  (∀ (z : CapSeg) (k : Nat) (s : State), s.capState = capEXPORT → s.memc.retrain = [] → s.host.staged = [] →
    s.memc.segs[s.memc.expSeg]? = some z → s.memc.expAt = some k → s.ringRoom 12 [(s.capData s.memc.expSeg k z).1.length] = true →
    k + max (s.capData s.memc.expSeg k z).2.1 1 < (s.memc.kept z).length →
    ∃ t, exec .capExportRecord s = .next t ∧ s.within [.io, .host, .memc] t ∧ s.onlyRegions [13, 14] t ∧
      t.memc.expSeg = s.memc.expSeg ∧
      t.memc.expAt = some (k + max (s.capData s.memc.expSeg k z).2.1 1)) ∧
  (∀ (z : CapSeg) (s : State), s.capState = capEXPORT → s.memc.retrain = [] → s.host.staged = [] →
    s.memc.segs[s.memc.expSeg]? = some z → s.memc.expAt = none → s.ringRoom 12 [(s.capSummary s.memc.expSeg z).length] = false →
    ∃ t, exec .capExportRecord s = .next t ∧ s.within [.io, .host] t ∧ s.onlyRegs [Fd.HOST_EXP_STAT_FILL.off] t) ∧
  (∀ s : State, (s.capState ≠ capEXPORT ∨ s.memc.retrain ≠ []) → exec .capExportRecord s = .next s)

/-- SYNC_ARM_CMD, SYNC_DISARM_CMD, SYNC_PULSE_DEFERRED, SYNC_PULSE_RX, SYNC_TRIG_RX (R346 to R348): the master's pulse goes at
once or after the FRAME pulse in its way, driven while the I/O rail is up, and any other unit only clears its command and
drops what it deferred; a receiver tells FRAME, ARM and DISARM by width and counts what is none; another unit's trigger is
condition 4. Choices of the model in it: log 1, 3, 19, 62, 64. -/
def Obligations.SyncBusCompletes : Prop :=
  (∀ s : State, s.admits .syncArmCmd = true → s.get Fd.MEMC_SYNC_CTL_ROLE = 1 → s.frameInWay (s.tick + nsTicks 600) = none →
    ∃ t, exec .syncArmCmd s = .next t ∧ s.within [.io, .memc] t ∧
      s.onlyRegs [Fd.MEMC_CAP_TRIG_MISSED_COUNT.off, Fd.MEMC_SYNC_STAT_SEND_PEND.off, Fd.MEMC_CAP_STAT_STATE.off,
        Fd.MEMC_CAP_CMD_ARM.off, Fd.MEMC_CAP_SEQ_CAPSEQ.off, Fd.MEMC_CAP_PTC_PTC.off, Fd.MEMC_SYNC_CMD_ARM.off] t ∧
        t.get Fd.MEMC_SYNC_CMD_ARM = 0 ∧
      t.io.out = if s.chip.railIo then .syncPulse 400 :: s.io.out else s.io.out) ∧
  (∀ (e : Wide) (s : State),
        s.admits .syncArmCmd = true → s.get Fd.MEMC_SYNC_CTL_ROLE = 1 → s.frameInWay (s.tick + nsTicks 600) = some e →
    ∃ t, exec .syncArmCmd s = .next t ∧ t.get Fd.MEMC_SYNC_CMD_ARM = 0 ∧ t.memc.deferred = some true ∧
      t.get Fd.MEMC_SYNC_STAT_SEND_PEND = 1 ∧ t.io.out = s.io.out) ∧
  (∀ s : State,
        s.admits .syncDisarmCmd = true → s.get Fd.MEMC_SYNC_CTL_ROLE = 1 → s.frameInWay (s.tick + nsTicks 1800) = none →
    ∃ t, exec .syncDisarmCmd s = .next t ∧ s.within [.io, .memc] t ∧
      s.onlyRegs [Fd.MEMC_SYNC_CMD_DISARM.off, Fd.MEMC_CAP_TRIG_MISSED_COUNT.off, Fd.MEMC_SYNC_STAT_SEND_PEND.off,
        Fd.MEMC_CAP_STAT_STATE.off, Fd.MEMC_CAP_CMD_ARM.off, Fd.MEMC_CAP_SEQ_CAPSEQ.off, Fd.MEMC_CAP_PTC_PTC.off] t ∧
        t.get Fd.MEMC_SYNC_CMD_DISARM = 0 ∧
      (s.chip.railIo = true → Out.syncPulse 1600 ∈ t.io.out)) ∧
  (∀ (e : Wide) (s : State),
        s.admits .syncDisarmCmd = true → s.get Fd.MEMC_SYNC_CTL_ROLE = 1 → s.frameInWay (s.tick + nsTicks 1800) = some e →
    ∃ t, exec .syncDisarmCmd s = .next t ∧ t.get Fd.MEMC_SYNC_CMD_DISARM = 0 ∧ t.memc.deferred = some false ∧
      t.get Fd.MEMC_SYNC_STAT_SEND_PEND = 1 ∧ t.io.out = s.io.out) ∧
  (∀ s : State, s.admits .syncArmCmd = true → s.admits .syncDisarmCmd = true → s.get Fd.MEMC_SYNC_CTL_ROLE ≠ 1 →
    ∃ t u, exec .syncArmCmd s = .next t ∧ exec .syncDisarmCmd s = .next u ∧ s.within [.io] t ∧ s.within [.io] u ∧
      s.onlyRegs [Fd.MEMC_SYNC_CMD_ARM.off] t ∧ s.onlyRegs [Fd.MEMC_SYNC_CMD_DISARM.off] u ∧ t.io.out = s.io.out ∧
      u.io.out = s.io.out) ∧
  (∀ (arm : Bool) (e : Wide) (s : State), s.restarting 14 = false → s.get Fd.MEMC_SYNC_CTL_ROLE = 1 →
    s.memc.deferred = some arm → s.memc.pulseEnd = some e → s.timely (e + nsTicks 200) = true →
    ∃ t, exec .syncPulseDeferred s = .next t ∧ s.within [.io, .memc] t ∧
      s.onlyRegs [Fd.MEMC_CAP_TRIG_MISSED_COUNT.off, Fd.MEMC_SYNC_STAT_SEND_PEND.off, Fd.MEMC_CAP_STAT_STATE.off,
        Fd.MEMC_CAP_CMD_ARM.off, Fd.MEMC_CAP_SEQ_CAPSEQ.off, Fd.MEMC_CAP_PTC_PTC.off] t ∧
        t.tick = (s.reach (e + nsTicks 200)).tick ∧ t.memc.deferred = none ∧
      t.get Fd.MEMC_SYNC_STAT_SEND_PEND = 0 ∧ (s.chip.railIo = true → Out.syncPulse (if arm then 400 else 1600) ∈ t.io.out)) ∧
  (∀ (arm : Bool) (e : Wide) (s : State), s.restarting 14 = false → s.get Fd.MEMC_SYNC_CTL_ROLE ≠ 1 →
    s.memc.deferred = some arm → s.memc.pulseEnd = some e →
    ∃ t, exec .syncPulseDeferred s = .next t ∧ s.within [.io, .memc] t ∧ s.onlyRegs [Fd.MEMC_SYNC_STAT_SEND_PEND.off] t ∧
      t.memc.deferred = none ∧ t.get Fd.MEMC_SYNC_STAT_SEND_PEND = 0 ∧ t.io.out = s.io.out) ∧
  (∀ (edge : Wide) (width : BitVec 16) (s : State),
        s.restarting 14 = false → s.tbas.running = true → s.get Fd.MEMC_SYNC_CTL_ROLE = 0 → width.toNat < 200 →
    s.get Fd.MEMC_SYNC_CTL_FEN = 1 →
    ∃ t, exec (.syncPulseRx edge width) s = .next t ∧ s.within [.io, .scan, .memc] t ∧ s.onlyRegions [2, 14] t ∧
      t.wideOf 14 0x0021 = stamp edge - BitVec.ofNat 64 (s.get Fd.MEMC_SYNC_DLY_ARM_DLY)) ∧
  (∀ (edge : Wide) (width : BitVec 16) (s : State),
        s.restarting 14 = false → s.tbas.running = true → s.get Fd.MEMC_SYNC_CTL_ROLE = 0 → 250 ≤ width.toNat →
    width.toNat ≤ 800 → s.get Fd.MEMC_SYNC_CTL_ARMIN = 1 → s.capOpen = true → s.capRefusal = 0 →
    ∃ t, exec (.syncPulseRx edge width) s = .next t ∧ s.within [.io, .scan, .memc] t ∧ s.onlyRegions [2, 14] t ∧
      t.capState = capARMED) ∧
  (∀ (edge : Wide) (width : BitVec 16) (s : State),
        s.restarting 14 = false → s.tbas.running = true → s.get Fd.MEMC_SYNC_CTL_ROLE = 0 → 1000 ≤ width.toNat →
    s.get Fd.MEMC_SYNC_CTL_ARMIN = 1 → s.capOpen = true → s.capState = capARMED →
    ∃ t, exec (.syncPulseRx edge width) s = .next t ∧ s.within [.io, .scan, .memc] t ∧ s.onlyRegions [2, 14] t ∧
      t.capState = capIDLE) ∧
  (∀ (edge : Wide) (width : BitVec 16) (s : State),
        s.restarting 14 = false → s.tbas.running = true → s.get Fd.MEMC_SYNC_CTL_ROLE = 0 →
    (200 ≤ width.toNat ∧ width.toNat < 250 ∨ 800 < width.toNat ∧ width.toNat < 1000) →
    ∃ t, exec (.syncPulseRx edge width) s = .next t ∧ s.within [.io, .scan, .memc] t ∧ s.onlyRegions [2, 14] t ∧
      t.get Fd.MEMC_SYNC_STAT_PULSE_BAD = 1 ∧ t.memc = s.memc) ∧
  (∀ (edge : Wide) (width : BitVec 16) (s : State), (s.get Fd.MEMC_SYNC_CTL_ROLE ≠ 0 ∨ s.tbas.running = false) →
    exec (.syncPulseRx edge width) s = .next s) ∧
  (∀ (edge : Wide) (x : Sample) (s : State),
        s.restarting 14 = false → s.tbas.running = true → s.get Fd.MEMC_SYNC_CTL_ROLE ≠ 2 →
    s.capOpen = true →
    s.capState = capARMED → s.memc.condOn 4 = true → s.memc.last = some x → (s.memc.opening = false ∨ s.memc.capQ = []) →
    s.memc.hit = .none →
    ∃ t, exec (.syncTrigRx edge) s = .next t ∧ s.within [.io, .memc] t ∧
      s.onlyRegs [Fd.MEMC_CAP_TRIG_MISSED_COUNT.off, Fd.MEMC_CAP_STAT_PRIMARY.off] t ∧ t.capState = capPOST ∧
      t.get Fd.MEMC_CAP_STAT_TRIG_CAUSE = 16 ∧
      t.wideOf 14 0x0020 = stamp edge - BitVec.ofNat 64 (s.get Fd.MEMC_SYNC_DLY_TRIG_DLY)) ∧
  (∀ (edge : Wide) (s : State),
        (s.get Fd.MEMC_SYNC_CTL_ROLE = 2 ∨ s.tbas.running = false) → exec (.syncTrigRx edge) s = .next s)

/-! ## The monitor front end -/

/-- MON_CROSSING, SINC_OUTPUT, SLOW_SAMPLE, MONI_SYNC, MONI_SYNC_RESET, XS_OPEN (R352 to R361): crossings are counted; the outputs
of a slow chain fall at its period, are shown and stamped less the group delay, and go to the capture that records them; the
oven's pair of sense outputs gives a ratio; a synchronising reset starts the chains of its mask afresh, each write's at its
own edge; a source that enters compliance, or leaves it, is shown. Choices of the model in it: log 1, 3, 15, 19, 26, 65. -/
def Obligations.SlowChainsComplete : Prop :=
  (∀ (m : Fin 16) (s : State), s.reportsCrossing m s.tick = true →
    ∃ t, exec (.monCrossing m) s = .next t ∧ s.within [.io] t ∧
      t.get (Fd.MONI_IN_STAT_XINGS m) = (s.get (Fd.MONI_IN_STAT_XINGS m) + 1) % 2 ^ 16 ∧
      ∀ a, a ≠ (Fd.MONI_IN_STAT_XINGS m).off → t.reg a = s.reg a) ∧
  (∀ (m : Fin 16) (s : State), s.reportsCrossing m s.tick = false → exec (.monCrossing m) s = .next s) ∧
  (∀ (k : Fin 20) (v : BitVec 24) (s : State),
    let n := s.nextOutput (s.chain k).base (s.chain k).sincs sincPeriod
    let x := (s.chain k).base + BitVec.ofNat 64 (n * sincPeriod)
    let open_ := (s.chain k).opened || (decide (16 ≤ k.val) && (s.snsPins k).any s.pinCompl)
    s.chainRuns k = true → s.timely x = true →
    ∃ t, exec (.sincOutput k v) s = .next t ∧ s.within [.io, .memc, .moni] t ∧
      s.onlyRegs [(Fd.MONI_IN_STAT_SETTLING k).off, Fd.MEMC_CAP_STAT_GAP.off] t ∧ t.tick = (s.reach x).tick ∧
      (t.chain k).sincs = n ∧ (t.chain k).clean = (if open_ then 0 else min ((s.chain k).clean + 1) 127) ∧
      (t.chain k).opened = false ∧ (before (s.chain k).settle x = false → (t.chain k).good = 0) ∧
      (k.val < 16 → s.capRuns = true → s.capGet Fd.MEMC_CAP_SRC_STREAM = 3 → s.capGet Fd.MEMC_CAP_SRC_TAP = 0 →
        (s.capGet Fd.MEMC_CAP_MASK_MASK).testBit k = true → if (s.memc.fifoFull || (s.reach x).refuses 14 0) = true then t.get Fd.MEMC_CAP_STAT_GAP = 1 ∧ t.memc.fifo = s.memc.fifo
        else ∃ e, t.memc.fifo = s.memc.fifo ++ [e] ∧ e.x.tick = (x - BitVec.ofNat 64 sincDelay).toNat ∧ e.x.sub = k.val ∧
          e.x.bits.toNat % 2 ^ 24 = v.toNat ∧ e.gap = s.memc.gapIn)) ∧
  (∀ (k : Fin 20) (v : BitVec 24) (s : State),
    let n := s.nextOutput (s.chain k).base (s.chain k).firs firPeriod
    let x := (s.chain k).base + BitVec.ofNat 64 (n * firPeriod)
    let unset := (s.chain k).good ≠ 127 ∨ v = 0x7FFFFF ∨ v = 0x800000
    s.chainRuns k = true → s.timely x = true →
    ∃ t, exec (.slowSample k v) s = .next t ∧ s.within [.io, .tbas, .scan, .emt, .safe, .memc, .moni] t ∧
      s.onlyRegions [2, 3, 14, 15, 18] t ∧ t.tick = (s.reach x).tick ∧ (t.chain k).firs = n ∧
      t.wideOf 15 (0x0100 + k) = x - BitVec.ofNat 64 chainDelay ∧
      if (k : Nat) < 16 then
        t.get (Fd.MONI_IN_LAST_VALUE k) = v.toNat ∧
          t.get (Fd.MONI_IN_LAST_CNT k) = (s.get (Fd.MONI_IN_LAST_CNT k) + 1) % 2 ^ 6 ∧
          (unset → t.get (Fd.MONI_IN_LAST_UNSET k) = 1) ∧ (¬unset → t.get (Fd.MONI_IN_LAST_UNSET k) = 0)
      else
        t.get (Fd.MONI_SNS_LAST_VALUE (k - 16)) = v.toNat ∧
          t.get (Fd.MONI_SNS_LAST_CNT (k - 16)) = (s.get (Fd.MONI_SNS_LAST_CNT (k - 16)) + 1) % 2 ^ 5 ∧
          (unset → t.get (Fd.MONI_SNS_LAST_UNSET (k - 16)) = 1) ∧ (¬unset → t.get (Fd.MONI_SNS_LAST_UNSET (k - 16)) = 0)) ∧
  (∀ (v : BitVec 24) (s : State),
    let x := (s.chain 17).base + BitVec.ofNat 64 (s.nextOutput (s.chain 17).base (s.chain 17).firs firPeriod * firPeriod)
    let th := s.get (Fd.MONI_SNS_LAST_VALUE 0)
    s.chainRuns 17 = true → s.timely x = true → s.ovenDrives = true → (s.chain 17).good = 127 → s.get (Fd.MONI_SNS_LAST_UNSET 0) = 0 →
    0 < v.toInt → v ≠ 0x7FFFFF → th < 2 ^ 23 → th * 2 ^ 22 / v.toNat + 1 < 2 ^ 24 →
    ∃ t, exec (.slowSample 17 v) s = .next t ∧ (t.tbas.ratios = (th * 2 ^ 22 / v.toNat :: s.tbas.ratios).take 10 ∨
      th * 2 ^ 22 % v.toNat ≠ 0 ∧ t.tbas.ratios = ((th * 2 ^ 22 / v.toNat + 1) :: s.tbas.ratios).take 10)) ∧
  (∀ s : State, s.admits .moniSync = true →
    ∃ t x, exec .moniSync s = .next t ∧ s.within [.io, .moni] t ∧ s.onlyRegs [Fd.MONI_SYNC_GO.off] t ∧
      t.moni.syncs = s.moni.syncs ++ [(BitVec.ofNat 64 x, s.get Fd.MONI_SYNC_MASK)] ∧
      x % 6250 = 0 ∧ s.tick.toNat + 64 ≤ x ∧ x < s.tick.toNat + 64 + 6250 ∧
      t.get Fd.MONI_SYNC_GO = 1) ∧
  (∀ (x : Wide) (mask : Nat) (rest : List (Wide × Nat)) (s : State), s.moni.syncs = (x, mask) :: rest → s.timely x = true →
    ∃ t, exec .moniSyncReset s = .next t ∧ s.within [.io, .moni] t ∧ s.onlyRegions [15] t ∧ t.tick = (s.reach x).tick ∧
      t.moni.syncs = rest ∧ t.get Fd.MONI_SYNC_GO = (if rest = [] then 0 else 1) ∧ t.wideOf 15 0 = x ∧
      ∀ k, k < 20 → t.chain k = if mask.testBit k then { base := x, settle := x } else s.chain k) ∧
  (∀ (x : Fin 8) (p : Nat) (s : State), s.admits (.xsOpen x true) = true → s.xsPin x = some p →
    s.get (Fd.MONI_XS_STAT_COMPL.bit x) = 0 → s.restarting 15 = false →
    ∃ t, exec (.xsOpen x true) s = .next t ∧ s.within [.io, .moni] t ∧ s.onlyRegs [Fd.MONI_XS_STAT_OPEN_SEEN.off] t ∧
      t.get (Fd.MONI_XS_STAT_COMPL.bit x) = 1 ∧ t.get (Fd.MONI_XS_STAT_OPEN_SEEN.bit x) = 1 ∧
      ∀ k, 16 ≤ k → k < 20 → p ∈ s.snsPins k → (t.chain k).opened = true) ∧
  (∀ (x : Fin 8) (s : State), s.admits (.xsOpen x false) = true → (s.xsPin x).isSome = true →
    s.get (Fd.MONI_XS_STAT_COMPL.bit x) = 1 → s.restarting 15 = false →
    ∃ t, exec (.xsOpen x false) s = .next t ∧ s.within [.io] t ∧ s.onlyRegs [Fd.MONI_XS_STAT_COMPL.off] t ∧
      t.get (Fd.MONI_XS_STAT_COMPL.bit x) = 0) ∧
  (∀ (x : Fin 8) (now : Bool) (s : State), s.xsPin x = none → exec (.xsOpen x now) s = .next s)

/-- HK_SEQUENCE_START, HK_CONVERSION, HK_REQ_GO, HK_ROTATE, HK_SLICE_FAIL (R363 to R366): a sequence converts the enabled entries;
a conversion ends 1 µs after its start; the last one of an entry gives its rounded mean and the slice that made it, a
request's its result; the slices change places in turn, not before a calibration of 20 ms; the second failure restarts the
region. Choices of the model in it: log 3, 15, 19, 65, 81. -/
def Obligations.HousekeepingCompletes : Prop :=
  (∀ s : State, s.restarting 15 = false → s.get Fd.MONI_HK_STAT_RUNNING = 0 → s.moni.hk = [] → s.hkEntries ≠ [] →
    (s.get Fd.MONI_HK_CTL_MODE = 1 ∨ s.get Fd.MONI_HK_CTL_MODE = 3 ∧ s.get Fd.MONI_HK_CMD_GO = 1) →
    ∃ t, exec .hkSequenceStart s = .next t ∧ s.within [.io, .moni] t ∧
      s.onlyRegs [Fd.MONI_HK_CMD_GO.off, Fd.MONI_HK_STAT_RUNNING.off] t ∧
      t.get Fd.MONI_HK_STAT_RUNNING = 1 ∧ t.moni.hk = s.hkEntries ∧ t.moni.hkDue = none ∧ t.moni.hkStart = s.tick ∧
      t.get Fd.MONI_HK_CMD_GO = 0) ∧
  (∀ s : State,
        s.restarting 15 = false → s.get Fd.MONI_HK_STAT_RUNNING = 0 → s.moni.hk = [] → s.hkEntries ≠ [] → s.get Fd.MONI_HK_CTL_MODE = 2 →
    s.moni.hkLate = false → s.clockOk (s.moni.hkDue.getD s.tick) = true →
    ∃ t, exec .hkSequenceStart s = .next t ∧ s.within [.io, .moni] t ∧
      s.onlyRegs [Fd.MONI_HK_CMD_GO.off, Fd.MONI_HK_STAT_RUNNING.off] t ∧ t.get Fd.MONI_HK_STAT_RUNNING = 1 ∧
      t.moni.hk = s.hkEntries ∧
      t.moni.hkDue = some (s.moni.hkDue.getD s.tick + usTicks (s.get Fd.MONI_HK_CTL_PERIOD))) ∧
  (∀ (result : BitVec 12) (c : HkConv) (rest : List HkConv) (b : HkBusy) (more : List HkBusy) (s : State),
        s.moni.hk = c :: rest →
    s.moni.busy = b :: more → s.clockOk (b.start + usTicks 1) = true → c.port = none → c.last = true → c.entry < 32 →
    ∃ t, exec (.hkConversion result) s = .next t ∧
      ((c.input < 24 ∨ 35 < c.input) → s.within [.io, .emt, .safe, .memc, .moni, .chip] t ∧
      s.onlyRegions [0, 3, 14, 15, 18] t) ∧
      t.get (Fd.MONI_HK_RES_RESULT c.entry) = (s.moni.hkSum + result.toNat + 2 ^ c.avg / 2) / 2 ^ c.avg % 2 ^ 12 ∧
      t.get (Fd.MONI_HK_RES_OPEN c.entry) = (if s.moni.hkOpen || b.open_ then 1 else 0) ∧
      t.get (Fd.MONI_HK_RES_SLICE c.entry) = b.slice % 4 ∧ t.get (Fd.MONI_HK_RES_VALID c.entry) = 1 ∧ t.moni.hkSum = 0) ∧
  (∀ (result : BitVec 12) (c : HkConv) (rest : List HkConv) (b : HkBusy) (more : List HkBusy) (s : State),
        s.moni.hk = c :: rest →
    s.moni.busy = b :: more → s.clockOk (b.start + usTicks 1) = true → c.port = none → c.last = false →
    ∃ t, exec (.hkConversion result) s = .next t ∧ s.within [.io, .moni] t ∧ s.onlyRegs [] t ∧
      t.tick = (s.clockReach (b.start + usTicks 1)).tick ∧ t.moni.hk = rest ∧ t.moni.hkSum = s.moni.hkSum + result.toNat ∧
      t.moni.hkOpen = (s.moni.hkOpen || b.open_)) ∧
  (∀ (result : BitVec 12) (c : HkConv) (rest : List HkConv) (b : HkBusy) (more : List HkBusy) (p : Nat) (s : State),
    s.moni.hk = c :: rest → s.moni.busy = b :: more → s.clockOk (b.start + usTicks 1) = true → c.port = some p → p < 2 →
    ∃ t, exec (.hkConversion result) s = .next t ∧
      ((c.input < 24 ∨ 35 < c.input) → s.within [.io, .emt, .safe, .moni, .chip] t ∧ s.onlyRegions [0, 3, 15, 18] t) ∧
      t.get (Fd.MONI_HK_REQ_BUSY p) = 0 ∧ t.get (Fd.MONI_HK_REQ_DONE p) = 1 ∧
      t.get (Fd.MONI_HK_REQ_RES_RESULT p) = result.toNat ∧
      t.get (Fd.MONI_HK_REQ_RES_SLICE p) = b.slice % 4 ∧ t.get (Fd.MONI_HK_REQ_RES_OPEN p) = if b.open_ then 1 else 0) ∧
  (∀ (p : Fin 2) (s : State), s.admits (.hkReqGo p false) = true → s.get (Fd.MONI_HK_REQ_BUSY p) = 0 →
    let c : HkConv := { port := some p, input := s.get (Fd.MONI_HK_REQ_INPUT p) }
    ∃ t, exec (.hkReqGo p false) s = .next t ∧ s.within [.io, .moni] t ∧ s.onlyRegs [(Fd.MONI_HK_REQ_GO p).off] t ∧
      t.get (Fd.MONI_HK_REQ_BUSY p) = 1 ∧ t.get (Fd.MONI_HK_REQ_GO p) = 0 ∧
      c ∈ t.moni.hk ++ t.moni.hkWait) ∧
  (∀ (p : Fin 2) (s : State), s.admits (.hkReqGo p false) = true → s.get (Fd.MONI_HK_REQ_BUSY p) = 1 →
    ∃ t, exec (.hkReqGo p false) s = .next t ∧ s.within [.io] t ∧ s.onlyRegs [(Fd.MONI_HK_REQ_GO p).off] t ∧
      t.get (Fd.MONI_HK_REQ_BUSY p) = 1 ∧ t.get (Fd.MONI_HK_REQ_GO p) = 0) ∧
  (∀ (p : Fin 2) (s : State), s.admits (.hkReqGo p true) = true →
    ∃ t, exec (.hkReqGo p true) s = .next t ∧ s.within [.io, .moni] t ∧
      ∀ q : Fin 2, t.get (Fd.MONI_HK_REQ_BUSY q) = 1 ∧ t.get (Fd.MONI_HK_REQ_GO q) = 0) ∧
  (∀ s : State,
    s.admits .hkRotate = true →
    let x := s.moni.rotAt + BitVec.ofNat 64 (max 20 (s.get Fd.MONI_HK_ROT_ROT) * ticksPerMs)
    s.restarting 15 = false → s.get Fd.MONI_HK_STAT_CAL ≠ 3 → s.clockOk x = true →
    ∃ t, exec .hkRotate s = .next t ∧ s.within [.io, .moni] t ∧ s.onlyRegs [Fd.MONI_HK_STAT_CAL.off] t ∧
      t.get Fd.MONI_HK_STAT_ACT_A = s.get Fd.MONI_HK_STAT_ACT_B ∧
      t.get Fd.MONI_HK_STAT_ACT_B = s.get Fd.MONI_HK_STAT_CAL ∧ t.get Fd.MONI_HK_STAT_CAL = s.get Fd.MONI_HK_STAT_ACT_A ∧
      t.moni.rotAt = (s.clockReach x).tick) ∧
  (∀ (n : Fin 3) (s : State), s.get Fd.MONI_HK_STAT_CAL = n →
    ∃ t, exec (.hkSliceFail n) s = .next t ∧ t.get Fd.MONI_HK_STAT_CAL = 3 ∧ t.get Fd.MONI_HK_STAT_SLICE_FAIL = 1 ∧
      t.get Fd.MONI_HK_STAT_ACT_A = s.get Fd.MONI_HK_STAT_ACT_A ∧ t.get Fd.MONI_HK_STAT_ACT_B = s.get Fd.MONI_HK_STAT_ACT_B) ∧
  (∀ (n : Fin 3) (s : State), s.get Fd.MONI_HK_STAT_CAL = 3 → s.moni.hkOne = false →
    (s.get Fd.MONI_HK_STAT_ACT_A = n ∨ s.get Fd.MONI_HK_STAT_ACT_B = n) →
    ∃ t, exec (.hkSliceFail n) s = .next t ∧ t.restarting 15 = true ∧ t.get Fd.MONI_HK_STAT_SLICE_FAIL = 1 ∧
      t.moni.hkOne = true)

/-! ## The safety island -/

/-- The registers that show a cause, the entry into state 4 and the switches. -/
def Sys2Proof.Machine.safeRegs : List Nat :=
  [Fd.SAFE_STAT_STATE, Fd.SAFE_NOW_NOW, Fd.SAFE_CAUSE_CAUSE, Fd.SAFE_ENTRIES_COUNT, Fd.SAFE_FIRST_BIT,
        Fd.EMIT_LSUP_STAT_VREF].map Field.off

/-- WDOG_A, CH_DISAGREE, MSG_TIMEOUT, SW_STUCK_HS, SW_STUCK_LS, SUPPLY_PRESENT, RST_STUCK (R375, R376, R379, R385): each detection
latches its cause and enters state 4, each channel in its own copy, channel A's if it acts; the supply is present above
VSNS_ON; T_MSG that passes in TESTING stops the test; outside its state, before its time or while its check is suspended a
detection changes nothing. Choices of the model in it: log 3, 66, 72, 108. -/
def Obligations.DetectionsEnterSafe : Prop :=
  (∀ s : State,
    s.admits .wdogA = true →
    let x := s.safe.servedAt + msTicks (s.ownB Fd.SAFE_PROF_T_WDOG)
    (s.safe.suspended = false → s.clockOk x = true → ∃ t, exec .wdogA s = .next t ∧ s.within [.io, .emt, .safe, .mgmt] t ∧
      s.onlyRegions [3, 16, 18] t ∧ (s.clockReach x).caught 3 t ∧ t.safe.serviced = false) ∧
    (s.safe.suspended = true ∨ s.clockOk x = false → exec .wdogA s = .next s)) ∧
  (∀ (chanB : Bool) (copy : BitVec 3) (s : State), s.admits (.chDisagree chanB copy) = true →
    let mine := if chanB then Fd.SAFE_STAT_B_STATE else Fd.SAFE_STAT_A_STATE
    let other := if chanB then Fd.SAFE_STAT_A_STATE else Fd.SAFE_STAT_B_STATE
    (s.safe.suspended = false → copy.toNat ≠ s.get other →
      ∃ t, exec (.chDisagree chanB copy) s = .next t ∧ s.within [.io, .emt, .safe] t ∧ s.onlyRegs safeRegs t ∧ s.caught 2 t ∧
        (s.safeSt = stSAFE → t.get mine = copy.toNat ∧ t.get other = s.get other)) ∧
    (s.safe.suspended = true ∨ copy.toNat = s.get other → exec (.chDisagree chanB copy) s = .next s)) ∧
  (∀ s : State,
    s.admits .msgTimeout = true →
    let x := s.safe.permitAt + msTicks (s.get Fd.SAFE_PROF_T_TMSG)
    s.clockOk x = true →
      (s.safeSt = stARMED → ∃ t, exec .msgTimeout s = .next t ∧ s.within [.io, .emt, .safe] t ∧ s.onlyRegs safeRegs t ∧
        (s.clockReach x).caught 5 t) ∧
      (s.safeSt = stTESTING → ∃ t, exec .msgTimeout s = .next t ∧ s.within [.io, .emt, .safe] t ∧ s.onlyRegs safeRegs t ∧
        t.safeSt = stSTOPPED ∧ t.get Fd.SAFE_STAT_LS_EN = 0 ∧ t.safe.permit = false ∧
        (s.chanA = true → t.get Fd.SAFE_STAT_HS_EN = 0)) ∧
      (s.safeSt ≠ stARMED → s.safeSt ≠ stTESTING → exec .msgTimeout s = .next s)) ∧
  (∀ s : State,
    s.admits .swStuckHs = true →
    ∃ t, exec .swStuckHs s = .next t ∧ s.within [.io, .emt, .safe] t ∧
      s.onlyRegs safeRegs t ∧ s.caught 6 t ∧
      t.get Fd.SAFE_STAT_HS_FB = if s.get Fd.SAFE_STAT_HS_EN = 1 then 0 else 1) ∧
  (∀ s : State,
    s.admits .swStuckLs = true →
    ∃ t, exec .swStuckLs s = .next t ∧ s.within [.io, .emt, .safe] t ∧
      s.onlyRegs safeRegs t ∧ s.caught 7 t ∧
      t.get Fd.SAFE_STAT_LS_FB = if s.get Fd.SAFE_STAT_LS_EN = 1 then 0 else 1) ∧
  (∀ (mv : BitVec 16) (s : State),
        s.admits (.supplyPresent mv) = true → s.get Fd.SAFE_STAT_HS_EN = 0 ∨ s.get Fd.SAFE_STAT_LS_EN = 0 →
    s.get Fd.SAFE_PROF_T_VSNS_ON * 100 < mv.toNat →
    ∃ t, exec (.supplyPresent mv) s = .next t ∧ s.within [.io, .emt, .safe] t ∧
      s.onlyRegs safeRegs t ∧ s.caught 8 t ∧ t.get Fd.SAFE_STAT_VSNS = 1) ∧
  (∀ (mv : BitVec 16) (s : State),
    (s.get Fd.SAFE_STAT_HS_EN = 1 ∧ s.get Fd.SAFE_STAT_LS_EN = 1) ∨ mv.toNat ≤ s.get Fd.SAFE_PROF_T_VSNS_ON * 100 →
    exec (.supplyPresent mv) s = .next s) ∧
  (∀ s : State, s.get Fd.SAFE_RST_STAT_LOW = 1 → ∃ t, exec .rstStuck s = .next t ∧ s.within [.io, .emt, .safe] t ∧
      s.onlyRegs safeRegs t ∧ s.caught 11 t) ∧
  (∀ s : State, s.get Fd.SAFE_RST_STAT_LOW = 0 → exec .rstStuck s = .next s)

/-- SAFE_WDOG_SERVICE, SAFE_RST_FALL, SAFE_RST_RISE, CAUSE_CLEAR, VIOL_CLEAR, SWITCH_TEST_STEP (R369, R373, R378 to R380): the
service; the reset input, whose valid low leaves state 4 when no cause is both latched and present, one whose condition ends
in the same cycle among them; the end of a cause, which leaves the latched bit; the switch test, each step at its time, in
which each channel drives its switch from its own copy, and which ends in STOPPED, in ARMED or in state 4, a failed check
leaving what it read; the last step of TESTING is good at any time within its limit. Choices of the model in it: log 3, 19,
66, 108. -/
def Obligations.SafetyIslandCompletes : Prop :=
  (∀ s : State, s.admits .safeWdogService = true → ∃ t, exec .safeWdogService s = .next t ∧ s.within [.safe] t ∧
      t.safe.serviced = true ∧ t.safe.servedAt = s.tick ∧ t.io = s.io) ∧
  (∀ s : State,
    s.admits .safeRstFall = true →
    ∃ t, exec .safeRstFall s = .next t ∧ s.within [.io] t ∧ t.get Fd.SAFE_RST_STAT_LOW = 1 ∧
      ∀ a, a ≠ Fd.SAFE_RST_STAT_LOW.off → t.reg a = s.reg a) ∧
  (∀ (low : Nat) (clearing : BitVec 12) (s : State),
        s.get Fd.SAFE_RST_STAT_LOW = 0 → exec (.safeRstRise low clearing) s = .next s) ∧
  (∀ (low : Nat) (clearing : BitVec 12) (s : State), s.get Fd.SAFE_RST_STAT_LOW = 1 →
    ∃ t, exec (.safeRstRise low clearing) s = .next t ∧ s.within [.io, .safe] t ∧ t.get Fd.SAFE_RST_STAT_LOW = 0 ∧
      let clear := s.get Fd.SAFE_CAUSE_CAUSE &&& s.get Fd.SAFE_NOW_NOW = 0
      (s.safeSt = stSAFE ∧ 10000 ≤ low ∧ low ≤ 5000000 ∧ clear → t.safeSt = stINIT ∧ t.get Fd.SAFE_CAUSE_CAUSE = 0) ∧
      (¬(s.safeSt = stSAFE ∧ 10000 ≤ low ∧ low ≤ 5000000 ∧ clear) →
        t.safeSt = s.safeSt ∧ t.get Fd.SAFE_CAUSE_CAUSE = s.get Fd.SAFE_CAUSE_CAUSE ∧
        t.get Fd.SAFE_RST_STAT_IGNORED = min (s.get Fd.SAFE_RST_STAT_IGNORED + 1) 65535 ∧
        t.get Fd.SAFE_RST_STAT_EARLY = if s.safeSt = stSAFE ∧ ¬clear then 1 else s.get Fd.SAFE_RST_STAT_EARLY)) ∧
  (∀ (b : Fin 12) (s : State), s.get (Fd.SAFE_NOW_NOW.bit b) = 1 → s.mayClear b = true →
    ∃ t, exec (.causeClear b) s = .next t ∧ t.get (Fd.SAFE_NOW_NOW.bit b) = 0 ∧
      t.get Fd.SAFE_CAUSE_CAUSE = s.get Fd.SAFE_CAUSE_CAUSE ∧ t.safeSt = s.safeSt) ∧
  (∀ (b : Fin 12) (s : State), s.get (Fd.SAFE_NOW_NOW.bit b) = 0 ∨ s.mayClear b = false → exec (.causeClear b) s = .next s) ∧
  (∀ s : State,
    s.admits .violClear = true →
    ∃ t, exec .violClear s = .next t ∧ s.within [.io, .scan] t ∧ t.get Fd.SCAN_LEDG_STAT_VIOL = 0 ∧ t.scan.violHeld = false ∧
      ∀ a, a ≠ Fd.SCAN_LEDG_STAT_VIOL.off → t.reg a = s.reg a) ∧
  (∀ (hs ls : Bool) (mv : BitVec 16) (s : State), s.admits (.switchTestStep hs ls mv) = true →
    let init := s.safeSt == stINIT
    let n := s.safe.testStep + 1
    let due := s.safe.testAt + usTicks (testTime init n)
    let late := n == 7 && !init && s.testLate due
    let v := decide (s.get Fd.SAFE_PROF_T_VSNS_ON * 100 < mv.toNat)
    let bad := testFails init n hs ls (v && !late)
    s.safeSt = stINIT ∨ s.safeSt = stTESTING →
    n ≤ 1 ∨ late = true ∨ (n = 7 ∧ init = false ∧ bad = []) ∨ s.clockOk due = true →
    ∃ t, exec (.switchTestStep hs ls mv) s = .next t ∧ s.within [.io, .emt, .safe] t ∧
      (bad = [] → n < 7 → t.safe.testStep = n ∧ t.safeSt = s.safeSt ∧
        (n ≠ 2 → n ≠ 5 → t.is Fd.SAFE_STAT_LS_EN = lsCommand (s.get Fd.SAFE_STAT_B_STATE) n ∧
          (s.chanA = true → t.is Fd.SAFE_STAT_HS_EN = hsCommand (s.get Fd.SAFE_STAT_A_STATE) n) ∧
          (s.chanA = false → t.get Fd.SAFE_STAT_HS_EN = s.get Fd.SAFE_STAT_HS_EN))) ∧
      (bad = [] → 7 ≤ n → s.get Fd.SAFE_NOW_NOW = 0 →
        t.safeSt = (if init then stSTOPPED else stARMED) ∧ t.safe.testStep = 0) ∧
      (bad ≠ [] → t.safeSt = stSAFE ∧ ∀ b ∈ bad, t.get (Fd.SAFE_CAUSE_CAUSE.bit b) = 1 ∧
        (b = 6 → t.is Fd.SAFE_STAT_HS_FB = hs) ∧ (b = 7 → t.is Fd.SAFE_STAT_LS_FB = ls) ∧
        (b = 8 → t.is Fd.SAFE_STAT_VSNS = v))) ∧
  (∀ (hs ls : Bool) (mv : BitVec 16) (s : State), s.safeSt ≠ stINIT → s.safeSt ≠ stTESTING →
    exec (.switchTestStep hs ls mv) s = .next s)

/-- SM_RX_GO, CAN_FRAME_RX, PDU_UNPAIRED, PERMIT, STOP, SAFE_STATUS_PDU, SM_TX_POP, CAN_ERROR, BUS_OFF_RECOVERY (R382 to R388): a
good copy waits for its partner, at most 20 ms; equal copies are accepted, unequal ones are cause 4; a message that is not
listed, is stale or comes from a source that may not send it is counted, by each channel that discards its copy; what an
accepted message does, a STOP of the same cycle before a PERMIT; a PDU handed to a channel A that does not act waits, BUSY
set; frames that are not for the controller, or come while it is off the bus, carry nothing; each channel's STATUS PDU with
its own state, the sequence number, tick and check value, for a change or at its period; the controller's counters, whose fall
from above 127 is the log's (105). Choices of the model in it: log 3, 19, 64, 67, 68, 105, 108. -/
def Obligations.SafetyMessagesComplete : Prop :=
  (∀ s : State, s.admits .smRxGo = true → s.chanA = true →
    let p := pduOf ((List.range 8).flatMap fun k => leBytes 4 (s.get (Fd.SM_RX_WORD k)))
    s.get Fd.SM_RX_STAT_BUSY = 0 → s.checkCopy p = 0 → s.safe.waitB.find? (Copy.of p.src p.seq) = none →
    s.safe.waitA.length < 4 →
    ∃ t, exec .smRxGo s = .next t ∧ s.within [.io, .safe] t ∧ s.onlyRegs [Fd.SM_RX_CTL_GO.off] t ∧
      t.safe = { s.safe with waitA := s.safe.waitA ++ [{ pdu := p, at_ := s.tick }] } ∧
      t.get Fd.SM_RX_CTL_GO = 0 ∧ t.get Fd.SM_RX_STAT_BUSY = 0) ∧
  (∀ s : State, s.admits .smRxGo = true → s.chanA = false → s.get Fd.SM_RX_STAT_BUSY = 0 →
    ∃ t, exec .smRxGo s = .next t ∧ s.within [.io] t ∧ s.onlyRegs [Fd.SM_RX_CTL_GO.off, Fd.SM_RX_STAT_BUSY.off] t ∧
      t.get Fd.SM_RX_CTL_GO = 1 ∧ t.get Fd.SM_RX_STAT_BUSY = 1) ∧
  (∀ s : State, s.admits .smRxGo = true → s.get Fd.SM_RX_STAT_BUSY = 1 →
    ∃ t, exec .smRxGo s = .next t ∧ s.within [.io] t ∧ s.onlyRegs [Fd.SM_RX_STAT_DROP.off] t ∧ t.get Fd.SM_RX_STAT_DROP = 1) ∧
  (∀ (fd : Bool) (id : BitVec 11) (sdt : Byte) (af : Word) (p : Pdu) (q : Copy) (s : State), s.powered = true →
    s.get Fd.SAFE_CAN_STAT_BUSOFF = 0 → s.canTakes (if fd then .fd32 else .xl32) id sdt af = true →
    s.checkCopy p = 0 → s.safe.waitA = [q] → q.pdu.src = p.src → q.pdu.seq = p.seq → s.safe.stopAt ≠ some s.tick →
    ∃ t, exec (.canFrameRx (if fd then .fd32 else .xl32) id sdt af p) s = .next t ∧ s.within [.io, .emt, .safe, .mgmt] t ∧
      s.onlyRegions [3, 18] t ∧ t.safe.waitA = [] ∧
      if q.pdu = p then rd (fun _ => 0) t.safe.seqLast p.src.toNat = p.seq ∧
        t.get Fd.SAFE_MSG_CNT0_ACCEPTED = (s.get Fd.SAFE_MSG_CNT0_ACCEPTED + 1) % 65536
      else s.caught 4 t) ∧
  (∀ (fmt : CanFormat) (id : BitVec 11) (sdt : Byte) (af : Word) (p : Pdu) (s : State), s.powered = true →
    s.get Fd.SAFE_CAN_STAT_BUSOFF = 0 → s.canTakes fmt id sdt af = false ∨ fmt = .unused ∨ fmt = .otherLength →
    ∃ t, exec (.canFrameRx fmt id sdt af p) s = .next t ∧ s.within [.io] t ∧
      s.onlyRegs [Fd.SAFE_CAN_STAT_REC.off, Fd.SAFE_MSG_CNT1_CRC_B.off] t ∧
      (s.get Fd.SAFE_CAN_STAT_REC ≤ 127 → t.get Fd.SAFE_CAN_STAT_REC = s.get Fd.SAFE_CAN_STAT_REC - 1) ∧
      (127 < s.get Fd.SAFE_CAN_STAT_REC → 119 ≤ t.get Fd.SAFE_CAN_STAT_REC ∧ t.get Fd.SAFE_CAN_STAT_REC ≤ 127) ∧
      t.get Fd.SAFE_MSG_CNT1_CRC_B = (if s.canTakes fmt id sdt af = true ∧ fmt = .otherLength then
        min (s.get Fd.SAFE_MSG_CNT1_CRC_B + 1) 255 else s.get Fd.SAFE_MSG_CNT1_CRC_B) ∧
      (∀ f ∈ [Fd.SAFE_MSG_CNT1_CRC_A, Fd.SAFE_MSG_CNT1_STALE, Fd.SAFE_MSG_CNT1_BADTYPE, Fd.SAFE_CAN_STAT_TEC,
        Fd.SAFE_CAN_STAT_BUSOFFS],
        t.get f = s.get f)) ∧
  (∀ (fmt : CanFormat) (id : BitVec 11) (sdt : Byte) (af : Word) (p : Pdu) (s : State), s.get Fd.SAFE_CAN_STAT_BUSOFF = 1 →
    exec (.canFrameRx fmt id sdt af p) s = .next s) ∧
  (∀ (chanB : Bool) (q : Copy) (s : State), (if chanB then s.safe.waitB else s.safe.waitA) = [q] →
    s.clockOk (q.at_ + msTicks 20) = true →
    ∃ t, exec (.pduUnpaired chanB q.pdu.src q.pdu.seq) s = .next t ∧ s.within [.io, .safe] t ∧
      s.onlyRegs [Fd.SAFE_MSG_CNT0_UNPAIRED.off] t ∧ (if chanB then t.safe.waitB else t.safe.waitA) = [] ∧
      t.get Fd.SAFE_MSG_CNT0_UNPAIRED = min (s.get Fd.SAFE_MSG_CNT0_UNPAIRED + 1) 65535) ∧
  (∀ (src : BitVec 16) (seq : Word) (stamp : Wide) (zset : BitVec 2) (s : State),
        s.powered = true → s.listed src.toNat = true →
    s.stale src.toNat seq stamp = false → src.toNat = s.permitSrc → s.chip.doze = false → s.mgmt.hand ≠ 2 → s.stoppedNow = false →
    ∃ t, exec (.permit src seq stamp true zset none) s = .next t ∧
      (s.safeSt = stSTOPPED → s.get Fd.SAFE_PROF_VER_VER ≠ 0 → s.get Fd.SAFE_CAUSE_CAUSE = 0 →
        t.safeSt = stTESTING ∧ t.get Fd.SAFE_STAT_ZSET = zset.toNat ∧ t.safe.permit = true ∧ t.safe.testStep = 0 ∧
          t.safe.permitAt = s.tick) ∧
      (s.safeSt = stTESTING ∨ s.safeSt = stARMED →
        t.safeSt = s.safeSt ∧ t.get Fd.SAFE_STAT_ZSET = zset.toNat ∧ t.safe.permit = true ∧ t.safe.permitAt = s.tick) ∧
      rd (fun _ => 0) t.safe.seqLast src.toNat = seq) ∧
  (∀ (src : BitVec 16) (seq : Word) (stamp : Wide) (zset : BitVec 2) (s : State),
        s.powered = true → s.listed src.toNat = true →
    s.stale src.toNat seq stamp = false → src.toNat = s.permitSrc → s.chip.doze = false → s.mgmt.hand = 2 → s.stoppedNow = false →
    s.safeSt = stTESTING ∨ s.safeSt = stARMED →
    ∃ t, exec (.permit src seq stamp true zset none) s = .next t ∧ t.safeSt = s.safeSt ∧
      t.mgmt.permitHeld = some (true, zset.toNat) ∧
      t.safe.permitAt = s.tick) ∧
  (∀ (src : BitVec 16) (seq : Word) (stamp : Wide) (zset : BitVec 2) (s : State),
        s.powered = true → s.listed src.toNat = true →
    s.stale src.toNat seq stamp = false → src.toNat = s.permitSrc → s.chip.doze = false → s.mgmt.hand ≠ 2 → s.stoppedNow = false →
    s.safeSt = stTESTING ∨ s.safeSt = stARMED →
    ∃ t, exec (.permit src seq stamp false zset none) s = .next t ∧ s.within [.io, .emt, .safe, .mgmt] t ∧
      s.onlyRegions [3, 18] t ∧
      t.safeSt = stSTOPPED ∧ t.get Fd.SAFE_STAT_LS_EN = 0 ∧ (s.chanA = true → t.get Fd.SAFE_STAT_HS_EN = 0)) ∧
  (∀ (src : BitVec 16) (seq : Word) (stamp : Wide) (b : Bool) (zset : BitVec 2) (s : State), s.powered = true →
    (s.listed src.toNat = false →
      ∃ t, exec (.permit src seq stamp b zset none) s = .next t ∧ exec (.stop src seq stamp) s = .next t ∧ s.within [.io] t ∧
        s.onlyRegs [Fd.SAFE_MSG_CNT1_BADTYPE.off] t ∧
        t.get Fd.SAFE_MSG_CNT1_BADTYPE = min (s.get Fd.SAFE_MSG_CNT1_BADTYPE + 2) 255) ∧
    (s.listed src.toNat = true → s.stale src.toNat seq stamp = true →
      ∃ t, exec (.permit src seq stamp b zset none) s = .next t ∧ exec (.stop src seq stamp) s = .next t ∧ s.within [.io] t ∧
        s.onlyRegs [Fd.SAFE_MSG_CNT1_STALE.off] t ∧
        t.get Fd.SAFE_MSG_CNT1_STALE = min (s.get Fd.SAFE_MSG_CNT1_STALE + 2) 255) ∧
    (s.listed src.toNat = true → s.stale src.toNat seq stamp = false → src.toNat ≠ s.permitSrc →
      ∃ t, exec (.permit src seq stamp b zset none) s = .next t ∧ s.within [.io, .safe] t ∧ t.safeSt = s.safeSt ∧
        rd (fun _ => 0) t.safe.seqLast src.toNat = seq ∧
        t.get Fd.SAFE_MSG_CNT1_BADTYPE = min (s.get Fd.SAFE_MSG_CNT1_BADTYPE + 1) 255) ∧
    (s.listed src.toNat = true → s.stale src.toNat seq stamp = false → src.toNat = s.permitSrc → s.stoppedNow = true →
      ∃ t, exec (.permit src seq stamp b zset none) s = .next t ∧ s.within [.io, .safe] t ∧ t.safeSt = s.safeSt)) ∧
  (∀ (src by_ : BitVec 16) (seq n : Word) (stamp x : Wide) (b : Bool) (zset : BitVec 2) (s : State), s.powered = true →
    s.listed by_.toNat = true → s.stale by_.toNat n x = false →
    ∃ t, exec (.permit src seq stamp b zset (some (by_, n, x))) s = .next t ∧
      (s.safeSt = stTESTING ∨ s.safeSt = stARMED → t.safeSt = stSTOPPED ∧ t.get Fd.SAFE_STAT_LS_EN = 0) ∧
      (s.safeSt ≠ stTESTING → s.safeSt ≠ stARMED → t.safeSt = s.safeSt) ∧
      (src ≠ by_ → rd (fun _ => 0) t.safe.seqLast by_.toNat = n)) ∧
  (∀ (src : BitVec 16) (seq : Word) (stamp : Wide) (s : State),
        s.admits (.stop src seq stamp) = true → s.listed src.toNat = true →
    s.stale src.toNat seq stamp = false →
    ∃ t, exec (.stop src seq stamp) s = .next t ∧ s.within [.io, .emt, .safe] t ∧
      rd (fun _ => 0) t.safe.seqLast src.toNat = seq ∧
      (s.safeSt = stTESTING ∨ s.safeSt = stARMED → t.safeSt = stSTOPPED ∧ t.get Fd.SAFE_STAT_LS_EN = 0) ∧
      (s.safeSt ≠ stTESTING → s.safeSt ≠ stARMED → t.safeSt = s.safeSt)) ∧
  (∀ s : State,
    s.admits .safeStatusPdu = true →
    let x := s.safe.txAt + msTicks (s.get Fd.SAFE_PROF_T_TSTAT)
    (s.safe.statusDue.isSome = true ∨ s.clockOk x = true →
      ∃ t p q, exec .safeStatusPdu s = .next t ∧ s.within [.io, .safe] t ∧
        (s.get Fd.SAFE_CAN_STAT_BUSOFF = 0 → Out.statusPdu s.safe.can.txId p ∈ t.io.out) ∧
        (s.chanA = true → t.safe.smTx = (if 4 ≤ s.safe.smTx.length then s.safe.smTx.drop 1 else s.safe.smTx) ++ [q]) ∧
        (s.chanA = false → t.safe.smTx = s.safe.smTx) ∧
        (∀ r ∈ [p, q], r.version = 1 ∧ r.mtype = 0x81 ∧ r.seq = s.safe.seqTx + 1 ∧ r.crc = crc32c (pduBody r) ∧
          r.stamp = s.safe.statusDue.getD (s.clockReach x).tick) ∧
        p.payload.toNat % 256 = s.get Fd.SAFE_STAT_B_STATE ∧ q.payload.toNat % 256 = s.get Fd.SAFE_STAT_A_STATE ∧
        t.safe.seqTx = s.safe.seqTx + 1 ∧ (s.safe.statusDue = none → t.safe.txAt = p.stamp) ∧ t.safe.statusDue = none) ∧
    (s.safe.statusDue = none → s.clockOk x = false → exec .safeStatusPdu s = .next s)) ∧
  (∀ (p : Pdu) (rest : List Pdu) (s : State), s.admits .smTxPop = true → s.safe.smTx = p :: rest → rest.length < 4 →
    ∃ t, exec .smTxPop s = .next t ∧ s.within [.io, .safe] t ∧ t.safe.smTx = rest ∧ t.get Fd.SM_TX_STAT_COUNT = rest.length) ∧
  (∀ (n : Byte) (s : State),
    s.admits (.canError { transmit := false, amount := n }) = true →
    ∃ t, exec (.canError { transmit := false, amount := n }) s = .next t ∧ s.within [.io] t ∧
      s.onlyRegs [Fd.SAFE_CAN_STAT_REC.off] t ∧
      t.get Fd.SAFE_CAN_STAT_REC = min (s.get Fd.SAFE_CAN_STAT_REC + n.toNat) 255) ∧
  (∀ (n : Byte) (s : State),
    s.admits (.canError { transmit := true, amount := n }) = true →
    ∃ t, exec (.canError { transmit := true, amount := n }) s = .next t ∧ s.within [.io] t ∧
      s.onlyRegs [Fd.SAFE_CAN_STAT_REC.off] t ∧ t.get Fd.SAFE_CAN_STAT_TEC = min (s.get Fd.SAFE_CAN_STAT_TEC + n.toNat) 255 ∧
      t.get Fd.SAFE_CAN_STAT_BUSOFF = if s.get Fd.SAFE_CAN_STAT_BUSOFF = 1 ∨ 255 < s.get Fd.SAFE_CAN_STAT_TEC + n.toNat then 1 else 0) ∧
  (∀ s : State, s.get Fd.SAFE_CAN_STAT_BUSOFF = 0 → exec .busOffRecovery s = .next s) ∧
  (∀ s : State, s.get Fd.SAFE_CAN_STAT_BUSOFF = 1 →
    ∃ t, exec .busOffRecovery s = .next t ∧ s.within [.io] t ∧ s.onlyRegs [Fd.SAFE_CAN_STAT_REC.off] t ∧
      t.get Fd.SAFE_CAN_STAT_BUSOFF = 0 ∧ t.get Fd.SAFE_CAN_STAT_TEC = 0 ∧
      t.get Fd.SAFE_CAN_STAT_REC = 0)

/-- PROFILE_LOAD, PROFILE_ACTIVATE, PROFILE_INFO, PROFILE_CEIL (R52, R54, R391): the pieces of a whole image are counted by their
tag, and the last one has it verified; a verified one that is no older than the stored version is staged, proved and committed
at the tick given; a write that does not verify is STORAGE_FAIL; the two reports change no register. Choices of the model in
it: log 25, 70, 89. -/
def Obligations.ProfilesComplete : Prop :=
  (∀ (img : Image) (stored : Bool) (n : Nat) (s : State), s.asks 0x0601 n →
    let had := match s.mgmt.load with
      | some p => if p.opcode = 0x0601 ∧ p.tag = s.mbxTag then p.bytes else 0
      | none => 0
    ∃ t, exec (.profileLoad img stored) s = .next t ∧ s.within [.safe, .mgmt] t ∧ s.onlyRegs [] t ∧
      if stored = false then t.safe.verified = false ∧ t.answered stSTORAGE_FAIL []
      else if s.mbxContinued = true then
        t.safe.verified = false ∧ t.mgmt.load.map (·.bytes) = some (had + n) ∧ t.answered stOK []
      else if had + n ≠ (imageBytes img).length then t.safe.verified = false ∧ t.answered stBAD_LENGTH []
      else t.safe.image = some img ∧ t.safe.verified = s.imageGood 2 img ∧ t.mgmt.load = none ∧
        t.answered (if s.imageGood 2 img then stOK else stSIGNATURE_FAIL) []) ∧
  (∀ (i : Image) (tick : Wide) (stored : Bool) (s : State), s.asks 0x0602 8 →
    s.get Fd.CHIP_SKETCH_GEN_GEN = s.get Fd.CHIP_COMMIT_GEN_GEN → s.safe.image = some i → s.safe.verified = true →
    s.safe.verStored ≤ i.svn.toNat →
    let s1 := (s.stageProfile i).startProof.finishProof
    ∃ t, exec (.profileActivate tick stored) s = .next t ∧ s.within [.io, .scan, .safe, .mgmt, .secu, .chip] t ∧
      s.onlyRegions [0, 2, 8, 9, 10, 11] t ∧
      if s1.get Fd.CHIP_PROOF_STATUS_STATE ≠ 2 ∨ ownFits s1.safe.ownNext = false ∨ s1.safe.canNext.fits = false ∨
          (s1.refusal 3 tick).1 ≠ 0 then
        t.answeredLate stBAD_PARAM [] ∧ t.safe.verStored = s.safe.verStored
      else if stored = false then t.answeredLate stSTORAGE_FAIL [] ∧ t.safe.verStored = s.safe.verStored
      else t.answeredLate stOK [] ∧ t.safe.verStored = i.svn.toNat ∧
        t.safe.activating = some (i.svn.toNat, Config.sha384 (imageBytes i))) ∧
  (∀ (tick : Wide) (stored : Bool) (s : State), s.asks 0x0602 8 →
    (s.get Fd.CHIP_SKETCH_GEN_GEN ≠ s.get Fd.CHIP_COMMIT_GEN_GEN →
      ∃ t, exec (.profileActivate tick stored) s = .next t ∧ s.within [.mgmt] t ∧ t.answered stBUSY []) ∧
    (s.get Fd.CHIP_SKETCH_GEN_GEN = s.get Fd.CHIP_COMMIT_GEN_GEN →
      (∀ i, s.safe.image = some i → s.safe.verified = false ∨ i.svn.toNat < s.safe.verStored) →
      ∃ t, exec (.profileActivate tick stored) s = .next t ∧ s.within [.mgmt] t ∧ t.answered stBAD_PARAM [])) ∧
  (∀ s : State, s.asks 0x0603 0 →
    ∃ t, exec .profileInfo s = .next t ∧ s.within [.mgmt] t ∧ t.io = s.io ∧
      t.answered stOK (leBytes 4 (s.get Fd.SAFE_PROF_VER_VER) ++ hashBytes (s.measurement 4) ++ leBytes 1 s.safeSt)) ∧
  (∀ s : State, s.asks 0x0604 0 →
    ∃ t bytes, exec .profileCeil s = .next t ∧ s.within [.mgmt] t ∧ t.io = s.io ∧ t.answered stOK bytes ∧
      bytes.take 3 = [0, 1, 2].flatMap fun w => leBytes 1 (Config.otpBshMin w))

/-! ## Security -/

/-- BOOT, HSS_TREE_READY, LC_INFO, LC_ADVANCE, OWNER_KEYS, CONFIG_HASH, JTAG_INSTRUCTION (R398 to R400, R403, R411, R413 to R415,
R418): the boot ROM runs the preferred slot that verifies, else the other, else the recovery service; a new tree comes into
use; a lifecycle transition blows its fuse or its flags, whose write may not verify, and one that the lifecycle or the token
does not permit is refused, a token with its nonce used up; the JTAG debug mailbox takes tokens too; a certificate that waits
for a leaf gets the first one; owner keys are written once; the hash of the settings in force carries the varnish tick; a
refused JTAG instruction is not executed. Choices of the model in it: log 9, 21, 25, 72, 73, 74, 76, 77, 78, 106. -/
def Obligations.BootAndLifecycleComplete : Prop :=
  (∀ s : State, s.stageIs 4 = true → s.get Fd.CHIP_OSC_STAT_ROSC_OK = 1 → s.mgmt.booted = false → s.mgmt.recovery = false →
    s.chip.doze = false → s.chip.bootFail = false → s.mgmt.resume = false → s.mgmt.bootRec.pref ≤ 1 →
    let u := s.bootOtp
    let n := if s.mgmt.bootRec.trial && s.mgmt.bootRec.tried then 1 - s.mgmt.bootRec.pref else s.mgmt.bootRec.pref
    (u.lifecycle = 5 → exec .boot s = .next u) ∧ (u.lifecycle ≠ 5 →
    ∃ t, exec .boot s = .next t ∧
      s.within [.io, .scan, .emt, .safe, .mgmt, .secu, .chip] t ∧
      (s.secu.sessionEnd = none → s.onlyRegions [0, 2, 3, 8, 9, 10, 11, 16, 17, 18, 40] t) ∧
      t.secu.sessionEnd = none ∧
      if u.slotVerifies n = true then t.mgmt.booted = true ∧ t.get Fd.MGMT_FW_STAT_SLOT = n
      else if u.slotVerifies (1 - n) = true then
        t.mgmt.booted = true ∧ t.get Fd.MGMT_FW_STAT_SLOT = 1 - n ∧ t.get Fd.SECU_BOOT_FALLBACK = 1
      else t.mgmt.booted = false ∧ t.mgmt.recovery = true ∧ t.get Fd.SECU_BOOT_FALLBACK = 1)) ∧
  (∀ s : State, s.secu.regen = true → s.secu.aliasDue = false →
    ∃ t, exec .hssTreeReady s = .next t ∧ s.within [.io, .secu] t ∧
      s.onlyRegs [Fd.SECU_LMS_Q_REGEN.off, Fd.SECU_LMS_TOP_TOPQ.off] t ∧ t.secu.regen = false ∧
      t.get Fd.SECU_LMS_Q_REGEN = 0 ∧
      t.secu.treeReady = s.hssReady) ∧
  (∀ (c : HssCopy) (s : State), s.secu.regen = true → s.secu.aliasDue = true → s.secu.keys = true → s.hss = some c →
    treeLeaves ≤ c.q → s.sigTooSoon = false → s.secu.certCdi ≠ some s.secu.cdi →
    ∃ t, exec .hssTreeReady s = .next t ∧ s.within [.io, .secu] t ∧ t.secu.certCdi = some s.secu.cdi ∧
      t.secu.aliasDue = false ∧ t.get Fd.SECU_LMS_Q_Q = 1 ∧ t.secu.sigAt = some s.tick ∧
      t.get Fd.SECU_SIGS_COUNT = (s.get Fd.SECU_SIGS_COUNT + 1) % 2 ^ 32) ∧
  (∀ s : State, s.secu.regen = false → exec .hssTreeReady s = .next s) ∧
  (∀ s : State, s.asks 0x0101 0 →
    ∃ t bytes, exec .lcInfo s = .next t ∧ s.within [.mgmt] t ∧ t.io = s.io ∧ t.secu = s.secu ∧ t.answered stOK bytes ∧
      bytes.take 3 = leBytes 1 s.lifecycle ++ leBytes 2 s.secu.svn) ∧
  (∀ (tok : Option Token) (n : Nat) (stored : Bool) (s : State), s.asks 0x0102 n → n = 1 ∨ n = 3833 →
    (s.lifecycle = 0 → s.secu.udsGone = false →
      ∃ t, exec (.lcAdvance 1 tok stored false) s = .next t ∧ s.within [.io, .safe, .mgmt, .secu] t ∧ t.answeredLate stOK [] ∧
        t.secu.lcFuse = max s.secu.lcFuse 1 ∧ t.secu.sessionEnd = none) ∧
    (s.lifecycle = 1 → s.get Fd.SECU_LC_OWNER_SET = 1 →
      ∃ t, exec (.lcAdvance 2 tok stored false) s = .next t ∧ s.within [.io, .safe, .mgmt, .secu] t ∧ t.answeredLate stOK [] ∧
        t.secu.lcFuse = max s.secu.lcFuse 2 ∧ t.lifecycle = s.lifecycle) ∧
    (s.lifecycle = 3 → stored = true →
      ∃ t, exec (.lcAdvance 2 tok stored false) s = .next t ∧ s.within [.io, .safe, .mgmt, .secu] t ∧ t.answered stOK [] ∧
        t.secu.flagA = false ∧ t.secu.flagB = false ∧ t.lifecycle = 2) ∧
    (s.lifecycle = 3 → stored = false →
      ∃ t, exec (.lcAdvance 2 tok stored false) s = .next t ∧ s.within [.mgmt] t ∧ t.answered stSTORAGE_FAIL [])) ∧
  (∀ (target : Byte) (tok : Token) (stored : Bool) (s : State), s.asks 0x0102 3833 → s.freeTransit target.toNat = false →
    let st := s.judgeToken 2 (tok.target == target && (lcSigners s.lifecycle target.toNat).contains tok.signer.toNat) tok
    ∃ t, exec (.lcAdvance target (some tok) stored false) s = .next t ∧ s.within [.io, .safe, .mgmt, .secu] t ∧
      t.secu.nonce = none ∧
      if st = stOK then
        if target = 3 ∧ stored = false then t.answered stSTORAGE_FAIL [] ∧ t.lifecycle = s.lifecycle
        else
          (if target = 3 then t.answered stOK [] else t.answeredLate stOK []) ∧
          (target = 3 → t.lifecycle = 3 ∧ t.secu.flagA = true ∧ t.secu.flagB = true) ∧
          (target = 4 ∨ target = 5 → t.secu.lcFuse = max s.secu.lcFuse target.toNat ∧ t.secu.zeroised = true ∧
            t.secu.udsGone = true ∧ t.secu.keys = false ∧ t.get Fd.SECU_LC_ZEROISED = 1)
      else t.answered st [] ∧ t.lifecycle = s.lifecycle ∧ t.secu.lcFuse = s.secu.lcFuse ∧
        ((∃ x, t.secu.busyTill = some x) ∨ t.secu.rejects.head? = some s.tick)) ∧
  (∀ (target : Byte) (n : Nat) (stored : Bool) (s : State),
        s.asks 0x0102 n → n = 1 ∨ n = 3833 → s.freeTransit target.toNat = false →
    ∃ t, exec (.lcAdvance target none stored false) s = .next t ∧ s.within [.mgmt] t ∧
      t.answered (if 6 ≤ target.toNat then stBAD_PARAM else stNOT_PERMITTED) []) ∧
  (∀ (target : Byte) (tok : Option Token) (stored : Bool) (s : State),
    (s.chip.railIo = true → s.fwRuns = true → s.mgmt.recovery = false → s.restarting 17 = false → s.lifecycle ≠ 5 →
      ∃ t, exec (.lcAdvance target tok stored true) s = .next t ∧ s.within [.io, .safe, .secu] t ∧
        t.io.out.head? = some (.tokenStatus (s.lcAdvance target tok stored).1)) ∧
    ((s.chip.railIo = false ∨ s.fwRuns = false ∨ s.mgmt.recovery = true ∨ s.restarting 17 = true ∨ s.lifecycle = 5) →
      exec (.lcAdvance target tok stored true) s = .next s)) ∧
  (∀ (hashes : List (BitVec 384)) (s : State), s.asks 0x0103 192 → s.lifecycle ≠ 1 ∨ s.get Fd.SECU_LC_OWNER_SET = 1 →
    ∃ t, exec (.ownerKeys hashes) s = .next t ∧ s.within [.mgmt] t ∧ t.answered stNOT_PERMITTED []) ∧
  (∀ (hashes : List (BitVec 384)) (s : State), s.asks 0x0103 192 → s.lifecycle = 1 → s.get Fd.SECU_LC_OWNER_SET = 0 →
    hashes.length = 4 →
    ∃ t, exec (.ownerKeys hashes) s = .next t ∧ s.within [.io, .mgmt, .secu] t ∧ s.onlyRegs [Fd.SECU_LC_OWNER_SET.off] t ∧
      t.answered stOK [] ∧ t.secu.owner = some hashes ∧
      t.get Fd.SECU_LC_OWNER_SET = 1) ∧
  (∀ (v : Wide) (s : State), s.secu.cfgDue = some v →
    ∃ t, exec .configHash s = .next t ∧ s.within [.secu] t ∧ t.secu.cfgDue = none ∧ t.secu.cfgTick = v ∧ t.io = s.io ∧
      t.measurement 13 = Config.sha384 (stgLocs.flatMap fun a => leBytes 4 (s.reg a).toNat)) ∧
  (∀ s : State, s.secu.cfgDue = none → exec .configHash s = .next s) ∧
  (∀ (code : BitVec 8) (s : State),
    s.admits (.jtagInstruction code) = true →
    s.chip.railIo = true →
    let k := Config.jtagKind code
    let pins := Out.boundary (k == 3) (s.is Fd.SAFE_STAT_HS_EN) (s.is Fd.SAFE_STAT_LS_EN)
    ∃ t, exec (.jtagInstruction code) s = .next t ∧ s.within [.io, .chip] t ∧ s.onlyRegions [0] t ∧
      t.io.out = (if s.jtagOpen k = true ∧
      (k = 2 ∨ k = 3) then [pins] else []) ++ .jtag code.toNat (s.jtagOpen k) :: s.io.out ∧
      (s.lifecycle = 5 → s.jtagOpen k = false) ∧ (k = 3 → s.armed = true → s.jtagOpen k = false)) ∧
  (∀ (code : BitVec 8) (s : State), s.chip.railIo = false → exec (.jtagInstruction code) s = .next s)

/-- DBG_CHALLENGE, DBG_UNLOCK, DBG_CLOSE, DBG_SESSION_EXPIRE, CERT_READ, EAT_GET, TAG_READ, TAG_WRITE (R404, R406, R410, R412,
R416, R417, R423, R424): a fresh nonce is the only one in force; a good token opens its level and uses the nonce up, a bad one
opens none; a session ends at the standing level; an attestation token uses an HSS signature; the tag area reads what was
written. Choices of the model in it: log 3, 25, 74, 89, 101, 106. -/
def Obligations.DebugAndAttestationComplete : Prop :=
  (∀ s : State, s.asks 0x0104 0 → (∀ x, s.secu.busyTill = some x → before s.tick x = false) →
    ∃ t n, exec .dbgChallenge s = .next t ∧ s.within [.io, .mgmt, .secu] t ∧ s.onlyRegs [] t ∧
      t.secu.nonce = some (n, s.tick) ∧
      t.answered stOK (leBytes 32 n.toNat ++ ueidBytes)) ∧
  (∀ (x : Wide) (s : State), s.asks 0x0104 0 → s.secu.busyTill = some x → before s.tick x = true →
    ∃ t, exec .dbgChallenge s = .next t ∧ s.within [.mgmt] t ∧ t.answered stBUSY []) ∧
  (∀ (tok : Token) (s : State),
    let st := (s.unlock tok).1
    (s.chip.railIo = true → s.fwRuns = true → s.mgmt.recovery = false → s.restarting 17 = false → s.lifecycle ≠ 5 →
      ∃ t, exec (.dbgUnlock tok true) s = .next t ∧ s.within [.io, .secu] t ∧ t.io.out.head? = some (.tokenStatus st) ∧
        t.secu.nonce = none ∧ (st = stOK → t.get Fd.SECU_DBG_LEVEL = tok.target.toNat % 4)) ∧
    ((s.chip.railIo = false ∨ s.fwRuns = false ∨ s.mgmt.recovery = true ∨ s.restarting 17 = true ∨ s.lifecycle = 5) →
      exec (.dbgUnlock tok true) s = .next s)) ∧
  (∀ (tok : Token) (s : State), s.asks 0x0105 3832 →
    let st := s.judgeToken 1 (dbgSigner s.lifecycle tok.target.toNat (s.is Fd.SECU_LC_ZEROISED) == some tok.signer.toNat) tok
    ∃ t, exec (.dbgUnlock tok false) s = .next t ∧ s.within [.io, .mgmt, .secu] t ∧ s.onlyRegs [Fd.SECU_DBG_LEFT.off] t ∧
      t.secu.nonce = none ∧
      if st = stOK then t.answered stOK [tok.target] ∧ t.get Fd.SECU_DBG_LEVEL = tok.target.toNat ∧
        t.get Fd.SECU_DBG_SIGNER = tok.signer.toNat ∧ t.get Fd.SECU_DBG_LEFT = tok.duration.toNat ∧
        t.secu.sessionEnd = some (s.tick + BitVec.ofNat 64 (tok.duration.toNat * ticksPerS))
      else t.answered st [] ∧ t.get Fd.SECU_DBG_LEVEL = s.get Fd.SECU_DBG_LEVEL ∧ t.secu.sessionEnd = s.secu.sessionEnd) ∧
  (∀ s : State, s.asks 0x0106 0 →
    ∃ t, exec .dbgClose s = .next t ∧ s.within [.io, .mgmt, .secu] t ∧ t.answered stOK [] ∧ t.secu.sessionEnd = none ∧
      (s.secu.sessionEnd.isSome = true → t.get Fd.SECU_DBG_LEVEL = s.standing ∧ t.get Fd.SECU_DBG_LEFT = 0 ∧
        ∀ r : Fin 19, t.get (Fd.PERTURB_HS_DELAY r) = 0 ∧ t.get (Fd.PERTURB_SEED_SEED r) = 0)) ∧
  (∀ (x : Wide) (s : State), s.secu.sessionEnd = some x → s.clockOk x = true →
    ∃ t, exec .dbgSessionExpire s = .next t ∧ s.within [.io, .secu] t ∧ t.tick = (s.clockReach x).tick ∧
      t.secu.sessionEnd = none ∧
      t.get Fd.SECU_DBG_LEVEL = (s.clockReach x).standing) ∧
  (∀ s : State, (∀ x, s.secu.sessionEnd = some x → s.clockOk x = false) → exec .dbgSessionExpire s = .next s) ∧
  (∀ (n : Byte) (s : State), s.asks 0x0107 1 → 4 ≤ n.toNat →
    ∃ t, exec (.certRead n) s = .next t ∧ s.within [.mgmt] t ∧ t.answered stBAD_PARAM []) ∧
  (∀ (n : Byte) (s : State), s.asks 0x0107 1 → n.toNat < 4 →
    ∃ t, exec (.certRead n) s = .next t ∧ s.within [.mgmt] t ∧ t.io = s.io ∧ t.secu = s.secu ∧
      if n = 1 then
        match s.secu.certCdi with
        | some c => t.answered stOK (Config.aliasCert c)
        | none => t.answered stSTORAGE_FAIL []
      else t.answered stOK (Config.cert n.toNat)) ∧
  (∀ (nonce : BitVec 256) (s : State), s.asks 0x0108 32 →
    (s.secu.keys = false → ∃ t, exec (.eatGet nonce) s = .next t ∧ s.within [.mgmt] t ∧ t.answered stNOT_PERMITTED []) ∧
    (s.secu.keys = true → s.hssLost = true →
      ∃ t, exec (.eatGet nonce) s = .next t ∧ s.within [.mgmt] t ∧
        let msg := s.claims nonce (s.hss.getD { valid := false })
        t.answered stOK (Config.coseSign msg (Config.ecdsaSign s.secu.cdi msg) [])) ∧
    (s.secu.keys = true → s.hssLost = false → (s.hssReady = false ∨ (s.sigTooSoon = true ∧ s.clockOk s.sigFrom = false)) →
      exec (.eatGet nonce) s = .next s) ∧
    (∀ c : HssCopy, s.secu.keys = true → s.hssLost = false → s.hss = some c → c.q < treeLeaves →
      s.sigTooSoon = false ∨ s.clockOk s.sigFrom = true →
      let s1 := if s.sigTooSoon then s.clockReach s.sigFrom else s
      ∃ t, exec (.eatGet nonce) s = .next t ∧ s.within [.io, .mgmt, .secu] t ∧
        s.onlyRegs [Fd.SECU_LMS_Q_REGEN.off, Fd.SECU_LMS_TOP_TOPQ.off, Fd.SECU_SIGS_COUNT.off] t ∧
        t.answered stOK (Config.coseSign (s1.claims nonce c) (Config.ecdsaSign s.secu.cdi (s1.claims nonce c))
          (Config.hssSign c.bottom c.q (s1.claims nonce c))) ∧
        t.secu.sigAt = some s1.tick ∧ t.get Fd.SECU_SIGS_COUNT = (s.get Fd.SECU_SIGS_COUNT + 1) % 2 ^ 32)) ∧
  (∀ (off len : BitVec 16) (s : State), s.asks 0x0501 4 → off.toNat + len.toNat ≤ 512 →
    ∃ t, exec (.tagRead off len) s = .next t ∧ s.within [.mgmt] t ∧ t.io = s.io ∧ t.secu = s.secu ∧
      t.answered stOK ((s.tagBytes.drop off.toNat).take len.toNat)) ∧
  (∀ (off len : BitVec 16) (s : State), s.asks 0x0501 4 → 512 < off.toNat + len.toNat →
    ∃ t, exec (.tagRead off len) s = .next t ∧ s.within [.mgmt] t ∧ t.answered stBAD_PARAM []) ∧
  (∀ (off len : BitVec 16) (data : List Byte) (stored : Bool) (s : State),
        s.asks 0x0502 (4 + len.toNat) → data.length = len.toNat →
    (512 < off.toNat + len.toNat →
      ∃ t, exec (.tagWrite off len data stored) s = .next t ∧ s.within [.mgmt] t ∧ t.answered stBAD_PARAM []) ∧
    (off.toNat + len.toNat ≤ 512 → stored = false →
      ∃ t, exec (.tagWrite off len data stored) s = .next t ∧ s.within [.mgmt] t ∧ t.answered stSTORAGE_FAIL []) ∧
    (off.toNat + len.toNat ≤ 512 → stored = true →
      ∃ t, exec (.tagWrite off len data stored) s = .next t ∧ s.within [.mgmt, .secu] t ∧ t.answeredLate stOK [] ∧
        t.tag.seq = s.tag.seq + 1 ∧
        t.tagBytes = s.tagBytes.take off.toNat ++ data ++ s.tagBytes.drop (off.toNat + len.toNat)))

/-- The answer r to an SPDM request, and no other, has gone out over DOE: its object is in the read mailbox, READY set and BUSY clear;
registers change only at the DOE status and at those of `regs`. -/
def Sys2Proof.Machine.State.spdmAnswer (r : Spdm) (parts : List Part) (regs : List Nat) (s t : State) : Prop :=
  s.within parts t ∧ s.onlyRegs (Fd.CFG_DOE_BUSY.off :: regs) t ∧ t.get Fd.CFG_DOE_BUSY = 0 ∧
    t.get Fd.CFG_DOE_READY = 1 ∧ t.host.doe.rsp.drop 2 = Config.spdmWords r ∧
    ∃ l k, t.io.out = l ++ .spdm r :: k ++ s.io.out ∧ ∀ x, .spdm x ∉ l ++ k

/-- The message of a CHALLENGE, and of a signed GET_MEASUREMENTS, with the answer that carries its ECDSA signature. -/
def Sys2Proof.Machine.State.signedRequest (nonce : BitVec 256) (s : State) : Option Byte → List Byte × (List Byte → Spdm)
  | none => (leBytes 32 nonce.toNat ++ hashBytes (Config.sha384 s.certChain) ++ hashBytes s.summary,
      .challengeAuth nonce (Config.sha384 s.certChain) s.summary)
  | some n => (leBytes 32 nonce.toNat ++ (s.blocks n.toNat).flatMap fun b => leBytes 1 b.1 ++ hashBytes b.2,
      fun e => .measurements 16 (s.blocks n.toNat) (some e))

/-- The SPDM requests (R404, R406 to R409): each is answered over DOE while the firmware's security services run; what needs keys
that are absent, an absent slot, an offset past the chain and an index of no measurement are invalid requests; a signing
request makes both signatures and holds the HSS one, or is answered Busy; each signature held is given for 5 s. Choices of the
model in it: log 74, 75, 92. -/
def Obligations.SpdmCompletes : Prop :=
  (∀ (n code slot : Byte) (sign : Bool) (nonce : BitVec 256) (digest : BitVec 384) (off len : BitVec 16) (i : Instr) (s : State),
    s.spdmServes = false →
    i ∈ [.getVersion, .getCapabilities, .negotiateAlgorithms, .unsupportedSpdmRequest code, .getDigests,
        .getCertificate slot off len,
      .challenge nonce, .getMeasurements n sign nonce, .getHssSig digest] → exec i s = .next s) ∧
  (∀ (i : Instr) (r : Spdm) (s : State), s.spdmServes = true →
    (i, r) ∈ [(Instr.getVersion, Spdm.version 1 3), (.getCapabilities, .capabilities [.cert, .chal, .measSig, .measFresh]),
      (.negotiateAlgorithms, .algorithms .ecdsaP384 .sha384 .sha384 .dmtf)] →
    ∃ t, exec i s = .next t ∧ s.spdmAnswer r [.io, .host] [] t) ∧
  (∀ (code : Byte) (s : State), s.spdmServes = true →
    ∃ t, exec (.unsupportedSpdmRequest code) s = .next t ∧ s.spdmAnswer (.unsupportedRequest code.toNat) [.io, .host] [] t) ∧
  (∀ s : State, s.spdmServes = true → s.secu.keys = true →
    ∃ t, exec .getDigests s = .next t ∧ s.spdmAnswer (.digests (Config.sha384 s.certChain)) [.io, .host] [] t) ∧
  (∀ (slot : Byte) (off len : BitVec 16) (s : State), s.spdmServes = true → s.secu.keys = true →
    ∃ t, exec (.getCertificate slot off len) s = .next t ∧
      s.spdmAnswer (if slot ≠ 0 ∨ (s.certChain.length ≤ off.toNat ∧ len ≠ 0) then .invalidRequest
        else .certificate ((s.certChain.drop off.toNat).take len.toNat) (s.certChain.length - off.toNat - len.toNat)) [.io,
          .host] [] t) ∧
  (∀ (n : Byte) (nonce : BitVec 256) (slot : Byte) (off len : BitVec 16) (i : Instr) (s : State), s.spdmServes = true →
    s.secu.keys = false → n.toNat ≤ 16 ∨ n = 255 →
    i ∈ [.getDigests, .getCertificate slot off len, .challenge nonce, .getMeasurements n true nonce] →
    ∃ t, exec i s = .next t ∧ s.spdmAnswer .invalidRequest [.io, .host] [] t) ∧
  (∀ (i : Instr) (n : Option Byte) (nonce : BitVec 256) (s : State), s.spdmServes = true → s.secu.keys = true →
    (i = .challenge nonce ∧ n = none ∨ ∃ k, i = .getMeasurements k true nonce ∧ n = some k ∧ (k.toNat ≤ 16 ∨ k = 255)) →
    let (msg, answer) := s.signedRequest nonce n
    let sig := Config.ecdsaSign s.secu.cdi msg
    (s.hssLost = false → s.sigTooSoon = true ∨ s.hssReady = false →
      ∃ t, exec i s = .next t ∧ s.spdmAnswer .busy [.io, .host] [] t) ∧
    (s.hssLost = true → ∃ t, exec i s = .next t ∧ s.spdmAnswer (answer sig) [.io, .host, .secu] [] t ∧
      t.secu.held = s.secu.held) ∧
    (∀ c : HssCopy, s.hssLost = false → s.sigTooSoon = false → s.hss = some c → c.q < treeLeaves →
      ∃ t, exec i s = .next t ∧
        s.spdmAnswer (answer sig) [.io, .host, .secu]
          [Fd.SECU_LMS_Q_REGEN.off, Fd.SECU_LMS_TOP_TOPQ.off, Fd.SECU_SIGS_COUNT.off] t ∧
        t.secu.held.head? = some (Config.sha384 msg, sigBytes sig (Config.hssSign c.bottom c.q msg), s.tick) ∧
        (∀ h ∈ s.secu.held, ahead h.2.2 s.tick ≤ 5 * ticksPerS → h ∈ t.secu.held) ∧
        t.secu.sigAt = some s.tick ∧ t.get Fd.SECU_SIGS_COUNT = (s.get Fd.SECU_SIGS_COUNT + 1) % 2 ^ 32)) ∧
  (∀ (n : Byte) (sign : Bool) (nonce : BitVec 256) (s : State), s.spdmServes = true →
    (n.toNat ≤ 16 ∨ n = 255 → ∃ t, exec (.getMeasurements n false nonce) s = .next t ∧
      s.spdmAnswer (.measurements 16 (s.blocks n.toNat) none) [.io, .host] [] t) ∧
    (16 < n.toNat → n ≠ 255 → ∃ t, exec (.getMeasurements n sign nonce) s = .next t ∧
      s.spdmAnswer .invalidRequest [.io, .host] [] t)) ∧
  (∀ (digest : BitVec 384) (s : State), s.spdmServes = true →
    (∀ h, (s.secu.held.find? fun h => h.1 == digest && decide (ahead h.2.2 s.tick ≤ 5 * ticksPerS)) = some h →
      ∃ t, exec (.getHssSig digest) s = .next t ∧ s.spdmAnswer (.hssSig h.2.1) [.io, .host] [] t) ∧
    ((∀ h ∈ s.secu.held, h.1 ≠ digest ∨ 5 * (ticksPerS : Int) < ahead h.2.2 s.tick) →
      ∃ t, exec (.getHssSig digest) s = .next t ∧ s.spdmAnswer .invalidRequest [.io, .host] [] t))

/-! ## Clocks, power, start-up -/

/-- OSC_JUDGE, STANDING_MONITOR, STARTUP_RETRY, VSYS_FALL, POWER_ON, BOOT_ALWAYS_ON, PMIC_PG, TB_START (R432 to R434, R445 to
R449): three good windows pass ROSC and start XO, eight and the amplitude pass XO; a failed attempt takes the core islands
into their reset with the rails on, and ROSC starts 10 ms later; the second bad monitor window trips; the ninth failed
start-up is CLK_BOOT_FAIL; a fall of VSYS leaves what eMRAM and OTP hold, less a torn row, with every output at its reset
level; the stages follow each other, a good rail releases its interfaces, and the count starts from 0; out of its place in the
start-up a command changes nothing. Choices of the model in it: log 1, 15, 31, 73, 77, 79. -/
def Obligations.StartUpCompletes : Prop :=
  (∀ (n : BitVec 16) (amp : Bool) (s : State), s.startRosc.onROSC = true → s.get Fd.CHIP_OSC_STAT_ROSC_OK = 0 →
    ∃ t, exec (.oscJudge false n amp) s = .next t ∧ t.chip.roscOff = false ∧
      t.io.upBase = s.io.upBase + (if s.tbas.running = true then 0 else 128000 * (16 + if s.chip.roscOff = true then 10000 else 0)) ∧ s.within [.io, .tbas, .chip] t ∧
      s.onlyRegs [Fd.CHIP_BOOT_STAT_DONE.off, Fd.CHIP_ISLAND_RUN_HI_RUN.off, Fd.CHIP_ISLAND_RUN_LO_RUN.off,
        Fd.CHIP_OSC_STAT_XO_OK.off] t ∧
      if 2880 ≤ n.toNat ∧ n.toNat ≤ 3520 then t.chip.roscPass = s.chip.roscPass + 1 ∧
      (2 ≤ s.chip.roscPass → t.chip.xoOn = true) ∧
        t.get Fd.CHIP_OSC_STAT_ROSC_OK = if 3 ≤ s.chip.roscPass + 1 then 1 else 0
      else t.chip.roscPass = 0 ∧ t.get Fd.CHIP_OSC_STAT_ROSC_OK = 0) ∧
  (∀ (xo amp : Bool) (n : BitVec 16) (s : State),
    (if xo then s else s.startRosc).onROSC = false ∨ (if xo then s.get Fd.CHIP_OSC_STAT_ROSC_OK = 0 ∨ s.get Fd.CHIP_OSC_STAT_XO_OK = 1 else s.get Fd.CHIP_OSC_STAT_ROSC_OK = 1) →
    exec (.oscJudge xo n amp) s = .next s) ∧
  (∀ (rosc lf : BitVec 16) (s : State), s.get Fd.CHIP_OSC_STAT_MON_ARMED = 0 → exec (.standingMonitor rosc lf) s = .next s) ∧
  (∀ (n : BitVec 16) (amp : Bool) (s : State), s.onROSC = true → s.get Fd.CHIP_OSC_STAT_ROSC_OK = 1 →
    s.get Fd.CHIP_OSC_STAT_XO_OK = 0 →
    ∃ t, exec (.oscJudge true n amp) s = .next t ∧ s.within [.io, .tbas, .chip] t ∧
      s.onlyRegs [Fd.CHIP_BOOT_STAT_DONE.off, Fd.CHIP_ISLAND_RUN_HI_RUN.off, Fd.CHIP_ISLAND_RUN_LO_RUN.off,
        Fd.CHIP_OSC_STAT_XO_OK.off] t ∧
      t.chip.xoPass = (if 3960 ≤ n.toNat ∧ n.toNat ≤ 4040 then s.chip.xoPass + 1 else 0) ∧
      if 8 ≤ t.chip.xoPass ∧ amp = true then t.get Fd.CHIP_OSC_STAT_XO_OK = 1 ∧ t.tbas.ovenOn = true ∧ t.stageIs 5 = true
      else t.get Fd.CHIP_OSC_STAT_XO_OK = 0 ∧ t.tbas = s.tbas) ∧
  (∀ (rosc lf : BitVec 16) (s : State), s.get Fd.CHIP_OSC_STAT_MON_ARMED = 1 →
    ∃ t, exec (.standingMonitor rosc lf) s = .next t ∧ s.within [.io, .chip] t ∧
      s.onlyRegs [Fd.CHIP_OSC_STAT_ROSC_CNT.off] t ∧ t.get Fd.CHIP_OSC_STAT_ROSC_CNT = rosc.toNat ∧
      if 19000 ≤ rosc.toNat ∧ rosc.toNat ≤ 21000 then t.chip.monBad = 0 ∧ t.get Fd.CHIP_OSC_STAT_MON_ARMED = 1
      else if s.chip.monBad = 0 then t.chip.monBad = 1 ∧ t.get Fd.CHIP_OSC_STAT_MON_ARMED = 1
      else t.get Fd.CHIP_OSC_STAT_TRIP = 1 ∧ t.get Fd.CHIP_OSC_STAT_MON_ARMED = 0 ∧ t.chip.oscTrip = true ∧
        t.get Fd.CHIP_OSC_STAT_BLAME = if 2880 ≤ lf.toNat ∧ lf.toNat ≤ 3520 then 1 else 2) ∧
  (∀ s : State, s.chip.started = false → s.chip.bootFail = false → s.stageIs 4 = true →
    s.tbas.running = false ∨ (s.chip.oscTrip = true ∧ s.earlyTrip = true) →
    ∃ t, exec .startupRetry s = .next t ∧ t.pending = s.pending ∧ t.moni = s.moni ∧ t.secu.lcFuse = s.secu.lcFuse ∧
      t.mgmt.log = s.mgmt.log ∧
      (∀ a, dozeKeeps a = false → alarmReg a = false → a ≠ Fd.CHIP_ISLAND_RUN_LO_RUN.off → a ≠ Fd.CHIP_ISLAND_RUN_HI_RUN.off →
        t.reg a = resetWord a) ∧ t.scan = {} ∧ t.hst = {} ∧ t.outp = {} ∧ t.memc = {} ∧ t.tbas.running = false ∧
      t.chip.roscOff = true ∧ t.chip.xoOn = s.chip.xoOn ∧ t.chip.railLane = s.chip.railLane ∧
      t.chip.railPcie = s.chip.railPcie ∧
      t.chip.railMem = s.chip.railMem ∧ t.chip.railIo = s.chip.railIo ∧ t.stageIs 4 = true ∧ t.stageIs 5 = false ∧
      t.get Fd.CHIP_OSC_STAT_RETRIES = (s.get Fd.CHIP_OSC_STAT_RETRIES + 1) % 16 ∧
      t.get Fd.CHIP_OSC_STAT_ROSC_OK = 0 ∧ t.get Fd.CHIP_OSC_STAT_XO_OK = 0 ∧ t.get Fd.TBAS_TB_STAT_PLL_LOCK = 0 ∧
      t.mgmt.booted = false ∧
      (9 ≤ (s.get Fd.CHIP_OSC_STAT_RETRIES + 1) % 16 → t.chip.bootFail = true ∧ t.get (Fd.SAFE_CAUSE_CAUSE.bit 10) = 1 ∧
        t.get (Fd.SAFE_NOW_NOW.bit 10) = 1 ∧ t.safeSt = stSAFE ∧ t.get Fd.SAFE_STAT_LS_EN = 0 ∧
        t.get Fd.SAFE_STAT_FAULT = 1)) ∧
  (∀ s : State, s.chip.started = true ∨ s.chip.bootFail = true ∨ s.stageIs 4 = false →
    exec .startupRetry s = .next s) ∧
  (∀ s : State, s.tbas.running = true → s.chip.oscTrip = false ∨ s.earlyTrip = false → exec .startupRetry s = .next s) ∧
  (∀ (rail : Rail) (s : State),
    s.stageIs 3 = false ∨ s.chip.doze = true ∨ (rail = .core ∧ s.stageIs 4 = true) ∨ (rail ≠ .core ∧ s.stageIs 4 = false) →
    exec (.pmicPg rail) s = .next s) ∧
  (∀ s : State, (s.stageIs 1 = true → exec .powerOn s = .next s) ∧
    (s.stageIs 2 = false ∨ s.stageIs 3 = true → exec .bootAlwaysOn s = .next s) ∧
    (s.stageIs 5 = false ∨ s.stageIs 6 = true ∨ s.tbas.lost = true ∨ s.chip.bootFail = true ∨ s.chip.doze = true →
      exec .tbStart s = .next s)) ∧
  (∀ (torn : Bool) (s : State),
    ∃ t, exec (.vsysFall torn) s = .next t ∧
      t.io.out = .outputsReset :: .faultN true :: .switches false false :: .pmicEn false :: s.io.out ∧
      t.secu.lcFuse = s.secu.lcFuse ∧ t.secu.svn = s.secu.svn ∧ t.mgmt.slotA = s.mgmt.slotA ∧
      t.mgmt.log = (if torn = true ∧ s.io.fifo ≠ [] then s.mgmt.log.take 4095 else s.mgmt.log) ∧
      t.get Fd.MGMT_LOG_LOST_COUNT = (if torn = true ∧ s.io.fifo ≠ [] then
        min (s.get Fd.MGMT_LOG_LOST_COUNT + if s.logFullUnread = true then 2 else 1) (2 ^ 32 - 1) else s.get Fd.MGMT_LOG_LOST_COUNT) ∧
      t.pending = s.pending ∧ t.scan = {} ∧ t.host = {} ∧ t.lnk = {} ∧ t.emt = {} ∧ t.powered = false ∧
      ∀ a, a / 0x10000 ≠ 0x0201 → a / 0x10000 ≠ 0x0221 → t.reg a = resetWord a) ∧
  (∀ s : State, s.stageIs 1 = false →
    ∃ t, exec .powerOn s = .next t ∧ s.within [.io, .chip] t ∧ t.powered = true ∧
      (s.tbas.running = false → t.io.upBase = s.io.upBase + 128000000) ∧
      s.onlyRegs [Fd.CHIP_BOOT_STAT_DONE.off, Fd.SAFE_STAT_FAULT.off, Fd.CHIP_ISLAND_RUN_HI_RUN.off,
        Fd.CHIP_ISLAND_RUN_LO_RUN.off] t ∧ t.stageIs 1 = true ∧ t.stageIs 2 = true ∧ t.get Fd.SAFE_STAT_FAULT = 1) ∧
  (∀ s : State, s.stageIs 2 = true → s.stageIs 3 = false →
    ∃ t, exec .bootAlwaysOn s = .next t ∧ s.within [.io] t ∧
      s.onlyRegs [Fd.CHIP_BOOT_STAT_DONE.off, Fd.TBAS_OVN_CTL_IEXC.off, Fd.TBAS_OVN_GAIN_KI.off, Fd.TBAS_OVN_BAND_BAND.off,
        Fd.TBAS_OVN_SET_SETPT.off] t ∧ t.stageIs 3 = true ∧ t.io.out = .pmicEn true :: s.io.out) ∧
  (∀ s : State, s.stageIs 3 = true → s.chip.doze = false → s.stageIs 4 = false →
    ∃ t, exec (.pmicPg .core) s = .next t ∧ s.within [.io, .chip] t ∧
      s.onlyRegs [Fd.CHIP_BOOT_STAT_DONE.off, Fd.CHIP_ISLAND_RUN_HI_RUN.off, Fd.CHIP_ISLAND_RUN_LO_RUN.off] t ∧
      t.stageIs 4 = true ∧
      t.chip.roscOff = false ∧ t.chip.roscPass = 0) ∧
  (∀ (rail : Rail) (s : State), s.stageIs 3 = true → s.chip.doze = false → s.stageIs 4 = true → rail ≠ .core →
    ∃ t, exec (.pmicPg rail) s = .next t ∧ s.within [.io, .lnk, .chip] t ∧ s.onlyRegions [0, 4, 5, 6, 7] t ∧
      t.chip.railLane = (s.chip.railLane || rail == .lane) ∧ t.chip.railPcie = (s.chip.railPcie || rail == .pcie) ∧
      t.chip.railMem = (s.chip.railMem || rail == .mem) ∧ t.chip.railIo = (s.chip.railIo || rail == .io) ∧
      (rail ≠ .lane → t.lnk = s.lnk ∧
        s.onlyRegs [Fd.CHIP_ISLAND_RUN_HI_RUN.off, Fd.CHIP_ISLAND_RUN_LO_RUN.off] t) ∧
      (rail = .lane → s.chip.railLane = false → s.chip.hush ≠ 4 → ∀ n : Fin 32,
        s.get (Fd.LNK_TILE_CTL_EN n) = 1 → t.portState n = ptLANES)) ∧
  (∀ s : State, s.stageIs 5 = true → s.stageIs 6 = false → s.tbas.lost = false → s.chip.bootFail = false →
    s.chip.doze = false →
    ∃ t, exec .tbStart s = .next t ∧ s.within [.io, .tbas, .scan, .mgmt, .secu, .chip] t ∧ t.stageIs 6 = true ∧
      t.tbas.running = true ∧ t.get Fd.TBAS_TB_STAT_PLL_LOCK = 1 ∧
      t.get Fd.CHIP_OSC_STAT_MON_ARMED = 1 ∧
      if s.tbas.running = true then t.tick = s.tick else t.tick = 0 ∧ t.io.era = min (s.tbas.bestEra + 1) eraMax)

/-- The step after one of a change of the performance point: step n, 0 for its end, or the change to a target written meanwhile (R436,
R437). -/
def Sys2Proof.Machine.State.dvfsGoes (n : Nat) (s t : State) : Prop :=
  match s.chip.dvfsNext with
  | none => t.chip.dvfs = n ∧ t.get Fd.CHIP_DVFS_STAT_BUSY = if n = 0 then 0 else s.get Fd.CHIP_DVFS_STAT_BUSY
  | some m => t.chip.dvfsTo = m ∧ t.chip.dvfsNext = none ∧ t.get Fd.CHIP_DVFS_STAT_BUSY = 1 ∧
      t.chip.dvfs = if m < t.point then 1 else if t.point < m then 4 else 5

/-- The end of a change of the performance point: a target written meanwhile that is not the point in force starts another (R437). -/
def Sys2Proof.Machine.State.dvfsEnds (s t : State) : Prop :=
  if s.chip.dvfsNext = some t.point then t.chip.dvfs = 0 ∧ t.chip.dvfsNext = none ∧
      t.get Fd.CHIP_DVFS_STAT_BUSY = 0 else s.dvfsGoes 0 t

/-- GATE_ABORT, CLKOUT_CHANGE, DVFS_TARGET, AVS_TRANSACTION, DVFS_VOLTAGE_REACHED, DVFS_SWITCH, DVFS_FAIL, FWAIT_EXPIRE (R430,
R431, R435 to R437, R441, R459): an access to a gated region leaves a record and changes no register; a change of the
performance point goes voltage first when it rises and frequency first when it falls, and turns to a target written meanwhile;
the fourth failed transaction, or 2 ms without the voltage, ends it; the voltage is reached when the PMIC reports it and the
four monitors are within 15 mV; CLKOUT follows its register; after FWAIT any line serves; what does not belong to the step in
progress changes nothing. Choices of the model in it: log 3, 19, 21, 78. -/
def Obligations.PointsAndGatesComplete : Prop :=
  (∀ (who : Actor) (off : BitVec 32) (write : Bool) (s : State), s.gated off.toNat = true →
    ∃ t, exec (.gateAbort who off write) s = .next t ∧ s.within [.io] t ∧ s.onlyRegs [] t ∧ t.io.sketch = s.io.sketch ∧
      t.io.out = (if who = .firmware then [.busError off.toNat] else if write then [] else [.abort who off.toNat]) ++ s.io.out) ∧
  (∀ (who : Actor) (off : BitVec 32) (write : Bool) (s : State),
        s.gated off.toNat = false → exec (.gateAbort who off write) s = .next s) ∧
  (∀ s : State,
    s.admits .clkoutChange = true →
    ∃ t, exec .clkoutChange s = .next t ∧ s.within [.io, .chip] t ∧
      s.onlyRegs [Fd.CHIP_ISLAND_RUN_HI_RUN.off, Fd.CHIP_ISLAND_RUN_LO_RUN.off] t ∧
      t.chip.clkout = s.reg Fd.CHIP_CLKOUT_SEL.off ∧ t.chip.clkPin = t.clkoutNow ∧
      (t.chip.clkPin ≠ s.chip.clkPin → t.io.out.head? = some (let p := t.clkoutNow.getD (0, 0,
        0); .clkout p.1 p.2.1 p.2.2))) ∧
  (∀ (who : Actor) (v : Word) (s : State),
    s.admits (.dvfsTarget who v) = true →
    ∃ t, exec (.dvfsTarget who v) s = .next t ∧ s.within [.io, .chip] t ∧
      s.onlyRegs [Fd.CHIP_DVFS_CTL_TARGET.off, Fd.CHIP_DVFS_STAT_BUSY.off] t ∧ t.get Fd.CHIP_DVFS_CTL_TARGET = bitsOf v 1 0 ∧
      t.get Fd.CHIP_DVFS_CTL_TLIM = bitsOf v 23 16 ∧ t.get Fd.CHIP_DVFS_CTL_ENG = bitsOf v 6 4 ∧
      t.get Fd.CHIP_DVFS_CTL_AUTO_THROT = bitsOf v 8 8 ∧
      if s.get Fd.CHIP_DVFS_STAT_BUSY = 1 then t.chip.dvfsNext = some (bitsOf v 1 0) ∧ t.chip.dvfs = s.chip.dvfs
      else if bitsOf v 1 0 = s.point then t.chip = s.chip ∧ t.get Fd.CHIP_DVFS_STAT_BUSY = 0
      else t.get Fd.CHIP_DVFS_STAT_BUSY = 1 ∧ t.chip.dvfsTo = bitsOf v 1 0 ∧
        t.chip.dvfs = if bitsOf v 1 0 < s.point then 1 else 4) ∧
  (∀ (n : Nat) (s : State), s.chip.dvfs = n → n = 1 ∨ n = 5 ∨ n = 7 →
    ∃ t, exec (.avsTransaction true) s = .next t ∧ s.within [.io, .chip] t ∧ s.onlyRegs [Fd.CHIP_DVFS_STAT_BUSY.off] t ∧
      t.io.out = .avsWrite (pointMv (if n = 7 then s.point else s.chip.dvfsTo)) :: s.io.out ∧
      if n = 7 then s.dvfsEnds t else s.dvfsGoes (n + 1) t) ∧
  (∀ s : State, s.chip.dvfs = 1 ∨ s.chip.dvfs = 5 ∨ s.chip.dvfs = 7 →
    ∃ t, exec (.avsTransaction false) s = .next t ∧ s.within [.io, .chip] t ∧ s.onlyRegs [Fd.CHIP_DVFS_STAT_BUSY.off] t ∧
      if s.chip.dvfsTries < 3 then t.chip.dvfs = s.chip.dvfs ∧ t.chip.dvfsTries = s.chip.dvfsTries + 1
      else if s.chip.dvfs = 7 then s.dvfsEnds t
      else t.chip.dvfs = 7 ∧ t.get Fd.CHIP_DVFS_STAT_FAIL = 1) ∧
  (∀ (ack reported : Bool) (mv : BitVec 10) (mon : BitVec 10 × BitVec 10 × BitVec 10 × BitVec 10) (s : State),
    (s.chip.dvfs ≠ 1 → s.chip.dvfs ≠ 5 → s.chip.dvfs ≠ 7 → exec (.avsTransaction ack) s = .next s) ∧
    (s.chip.dvfs ≠ 2 → s.chip.dvfs ≠ 6 → exec (.dvfsVoltageReached reported mv mon) s = .next s ∧
      exec .dvfsFail s = .next s) ∧
    (s.chip.dvfs ≠ 3 → s.chip.dvfs ≠ 4 → exec .dvfsSwitch s = .next s)) ∧
  (∀ (reported : Bool) (mv : BitVec 10) (mon : BitVec 10 × BitVec 10 × BitVec 10 × BitVec 10) (s : State),
    s.chip.dvfs = 2 ∨ s.chip.dvfs = 6 →
    ∃ t, exec (.dvfsVoltageReached reported mv mon) s = .next t ∧ s.within [.io, .chip] t ∧
      s.onlyRegs [Fd.CHIP_DVFS_STAT_BUSY.off] t ∧ t.get Fd.CHIP_DVFS_STAT_VMON = mv.toNat ∧ t.io.out = .avsRead :: s.io.out ∧
      if reported = true ∧ ∀ v ∈ [mon.1, mon.2.1, mon.2.2.1, mon.2.2.2],
          v.toNat ≤ pointMv s.chip.dvfsTo + 15 ∧ pointMv s.chip.dvfsTo ≤ v.toNat + 15 then
        s.dvfsGoes (if s.chip.dvfs = 2 then 3 else 0) t
      else t.chip = s.chip) ∧
  (∀ (x : Wide) (s : State), s.chip.dvfs = 3 ∨ s.chip.dvfs = 4 → s.chip.dvfsTo < 4 →
    s.boundary (s.get Fd.CHIP_DVFS_CTL_ENG) s.chip.dvfsAt s.chip.dvfsAny = some x → s.clockOk x = true →
    ∃ t, exec .dvfsSwitch s = .next t ∧ s.within [.io, .chip] t ∧ s.onlyRegs [Fd.CHIP_DVFS_STAT_BUSY.off] t ∧
      t.tick = (s.clockReach x).tick ∧ t.get Fd.CHIP_DVFS_STAT_PP = s.chip.dvfsTo ∧
      if s.chip.dvfs = 3 then s.dvfsEnds t else s.dvfsGoes 5 t) ∧
  (∀ s : State,
    let x := s.chip.dvfsAt + BitVec.ofNat 64 (2 * ticksPerMs)
    s.chip.dvfs = 2 ∨ s.chip.dvfs = 6 → s.clockOk x = true →
    ∃ t, exec .dvfsFail s = .next t ∧ s.within [.io, .chip] t ∧ s.onlyRegs [Fd.CHIP_DVFS_STAT_FAIL.off] t ∧
      t.tick = (s.clockReach x).tick ∧ t.get Fd.CHIP_DVFS_STAT_FAIL = 1 ∧ t.chip.dvfs = 7) ∧
  (∀ s : State, s.fwaits = [] → exec .fwaitExpire s = .next s) ∧
  (∀ s : State,
    let x := s.chip.hushAt + s.fwait
    s.chip.hush = 1 → s.chip.hushAny = false → (∀ w ∈ s.fwaits, before w.1 x = false) → s.clockOk x = true →
    ∃ t, exec .fwaitExpire s = .next t ∧ s.within [.io, .chip] t ∧ s.onlyRegs [] t ∧ t.chip.hushAny = true ∧
      t.tick = (s.clockReach x).tick) ∧
  (∀ s : State,
    let x := s.chip.dvfsAt + s.fwait
    s.chip.dvfs = 3 ∨ s.chip.dvfs = 4 → s.chip.dvfsAny = false →
    s.boundary (s.get Fd.CHIP_DVFS_CTL_ENG) s.chip.dvfsAt false = none → (∀ w ∈ s.fwaits, before w.1 x = false) →
    (s.chip.hush = 1 → s.chip.hushAny = false → before x (s.chip.hushAt + s.fwait) = true) → s.clockOk x = true →
    ∃ t, exec .fwaitExpire s = .next t ∧ s.within [.io, .chip] t ∧ s.onlyRegs [] t ∧ t.chip.dvfsAny = true ∧
      t.chip.dvfsAt = x ∧
      t.tick = (s.clockReach x).tick) ∧
  (∀ s : State,
    let x := s.mgmt.handAt + s.fwait
    s.mgmt.hand = 1 → s.mgmt.handAny = false → s.boundary s.mgmt.handEng s.mgmt.handAt false = none →
    (∀ w ∈ s.fwaits, w.1 = x ∨ before x w.1 = true) → s.fwaits.length = 1 ∨ (∀ w ∈ s.fwaits.dropLast, before x w.1 = true) →
    s.clockOk x = true →
    ∃ t, exec .fwaitExpire s = .next t ∧ s.within [.io, .mgmt] t ∧ s.onlyRegs [] t ∧ t.mgmt.handAny = true ∧
      t.mgmt.handAt = x ∧
      t.tick = (s.clockReach x).tick)

/-- PWR_GO, HUSH_SLEEP_SEND, HUSH_LANES_IDLE, HUSH_RESUME, DOZE_ENTER, DOZE_WAKE (R440 to R444): a request that meets no reason of
R440 begins, another leaves its reason, and the reserved target is recorded; HUSH puts the tiles and the lanes to sleep; the
easels it halted run again from PC 0; DOZE clears the keys, stops the clock and turns the rails off in their order; the pin
wakes; out of its place in the sequence a command changes nothing. Choices of the model in it: log 3, 14, 15, 19, 78, 79. -/
def Obligations.PowerStatesComplete : Prop :=
  (∀ (who : Actor) (s : State),
    s.admits (.pwrGo who) = true →
    let k := s.get Fd.CHIP_PWR_CTL_TARGET
    k < 3 →
    ∃ t, exec (.pwrGo who) s = .next t ∧ s.within [.io, .lnk, .chip] t ∧ s.onlyRegions [0, 4, 5, 6, 7] t ∧
      t.get Fd.CHIP_PWR_CTL_GO = 0 ∧ t.get Fd.CHIP_PWR_STAT_REFUSE = s.pwrRefusal k ∧
      if s.pwrRefusal k ≠ 0 then t.chip = s.chip ∧ t.get Fd.CHIP_PWR_STAT_BUSY = s.get Fd.CHIP_PWR_STAT_BUSY
      else t.get Fd.CHIP_PWR_STAT_BUSY = 1 ∧ t.chip.pwrTarget = k ∧ (k = 0 → t.chip.hush = 5 ∧
          (s.chip.railLane = true → ∀ n : Fin 32, s.get (Fd.LNK_TILE_CTL_EN n) = 1 → t.portState n = ptLANES)) ∧
        (k ≠ 0 → s.get Fd.CHIP_PWR_STAT_STATE = 0 → t.chip.hush = 1 ∧ t.chip.hushAt = s.tick)) ∧
  (∀ (who : Actor) (s : State), s.admits (.pwrGo who) = true → s.get Fd.CHIP_PWR_CTL_TARGET = 3 →
    ∃ t, exec (.pwrGo who) s = .next t ∧ s.within [.io] t ∧
      s.onlyRegs [Fd.CHIP_PWR_CTL_GO.off, (Fd.RGN_STAT_ACC_ERR 0).off] t ∧
      t.get Fd.CHIP_PWR_CTL_GO = 0) ∧
  (∀ s : State,
    (s.chip.hush ≠ 1 ∨ (∃ e : Fin 8, s.isHalted e = false) ∨ s.drained = false → exec .hushSleepSend s = .next s) ∧
    (s.chip.hush ≠ 3 ∨ ((∃ n < 32, s.tileQuiet n = false) ∧ s.clockOk (s.chip.sleepAt + BitVec.ofNat 64 ticksPerMs) = false) →
      exec .hushLanesIdle s = .next s) ∧
    (s.chip.hush ≠ 5 ∨
        (∃ n < 32, s.get (Fd.LNK_TILE_CTL_EN n) = 1 ∧ s.portState n ≠ ptRUN ∧ s.portState n ≠ ptFAILED) →
      exec .hushResume s = .next s) ∧
    (s.chip.hush ≠ 4 ∨ s.chip.pwrTarget ≠ 2 ∨ s.get Fd.CHIP_PWR_STAT_BUSY = 0 ∨ s.drained = false → exec .dozeEnter s = .next s) ∧
    (s.chip.doze = false ∨ s.get Fd.CHIP_PWR_CTL_WAKE_PIN_EN = 0 → exec .dozeWake s = .next s)) ∧
  (∀ s : State, s.chip.hush = 1 → (∀ e : Fin 8, s.isHalted e = true) → s.drained = true →
    ∃ t, exec .hushSleepSend s = .next t ∧ s.within [.io, .lnk, .chip] t ∧ t.chip.hush = 3 ∧ t.chip.sleepAt = s.tick ∧
      (∀ n : Fin 32, s.portRun n = true → (t.port n).allow = 0xF) ∧ t.io.regs = s.io.regs) ∧
  (∀ s : State,
    let x := s.chip.sleepAt + BitVec.ofNat 64 ticksPerMs
    s.chip.hush = 3 → (∀ n < 32, s.tileQuiet n = true) ∨ s.clockOk x = true →
    ∃ t, exec .hushLanesIdle s = .next t ∧ s.within [.io, .lnk, .chip] t ∧ s.onlyRegions [0, 4, 5, 6, 7] t ∧
      t.chip.hush = 4 ∧ t.get Fd.CHIP_PWR_STAT_STATE = 1 ∧
      (s.chip.pwrTarget ≠ 2 → t.get Fd.CHIP_PWR_STAT_BUSY = 0)) ∧
  (∀ s : State, s.chip.hush = 5 →
    (∀ n < 32, s.get (Fd.LNK_TILE_CTL_EN n) = 1 → s.portState n = ptRUN ∨ s.portState n = ptFAILED) →
    ∃ t, exec .hushResume s = .next t ∧ s.within [.io, .scan, .chip] t ∧ s.onlyRegions [0, 2] t ∧ t.chip.hush = 0 ∧
      t.get Fd.CHIP_PWR_STAT_STATE = 0 ∧
      t.get Fd.CHIP_PWR_STAT_BUSY = 0 ∧
      ∀ e : Fin 8, s.chip.hushMask.testBit e = true → s.isHalted e = true → t.isRunning e = true ∧ t.pc e = 0) ∧
  (∀ s : State, s.chip.hush = 4 → s.chip.pwrTarget = 2 → s.get Fd.CHIP_PWR_STAT_BUSY = 1 → s.drained = true →
    ∃ t, exec .dozeEnter s = .next t ∧ t.moni = s.moni ∧ t.pending = s.pending ∧ t.chip.doze = true ∧
      t.get Fd.TBAS_TB_STAT_PLL_LOCK = 0 ∧ t.secu.keys = false ∧
      [.pmicEn false, .railOff .core, .railOff .mem, .railOff .pcie, .railOff .lane] <:+: t.io.out ∧ t.chip.railLane = false ∧
      t.chip.railPcie = false ∧ t.chip.railMem = false ∧ t.secu.sessionEnd = none ∧ t.stageIs 4 = false ∧
      t.secu.lcFuse = s.secu.lcFuse ∧
      t.get Fd.CHIP_PWR_STAT_DOZES = (s.get Fd.CHIP_PWR_STAT_DOZES + 1) % 65536) ∧
  (∀ s : State, s.chip.doze = true → s.get Fd.CHIP_PWR_CTL_WAKE_PIN_EN = 1 →
    ∃ t, exec .dozeWake s = .next t ∧ s.within [.io, .emt, .chip] t ∧
      s.onlyRegs [Fd.CHIP_OSC_STAT_XO_OK.off, Fd.CHIP_PWR_STAT_STATE.off, Fd.CHIP_ISLAND_RUN_HI_RUN.off,
        Fd.CHIP_ISLAND_RUN_LO_RUN.off] t ∧ t.chip.doze = false ∧ t.get Fd.CHIP_PWR_STAT_WAKE = 2 ∧
      t.io.out = .pmicEn true :: s.io.out)

/-! ## Faults, maintenance, counters -/

/-- ERROR_RECORD, LOG_STORE, LOG_MERGE_FLUSH, TILL_CFG_WRITE, TILL_OVERFLOW (R451 to R453, R468 to R470): a record enters the FIFO
unless it is full; the oldest is stored with the next RSEQ, or absorbed; a write of a till's selection empties it and counts
what follows, and one with a reserved encoding, or withheld, changes nothing of it; a till at its limit overflows. Choices of
the model in it: log 3, 6, 14, 16, 19, 80, 83. -/
def Obligations.LogAndTillsComplete : Prop :=
  (∀ (r : ErrRec) (s : State), s.admits (.errorRecord r) = true → s.io.fifo.length < 256 →
    ∃ t, exec (.errorRecord r) s = .next t ∧ s.within [.io] t ∧ t.io.fifo = s.io.fifo ++ [{ r with rep := 1, rseq := 0 }] ∧
      s.onlyRegs [] t) ∧
  (∀ (r : ErrRec) (s : State), s.admits (.errorRecord r) = true → s.io.fifo.length = 256 →
    ∃ t, exec (.errorRecord r) s = .next t ∧ s.within [.io] t ∧ s.onlyRegions [16] t ∧ t.io.fifo = s.io.fifo ∧
      t.get Fd.MGMT_LOG_LOST_COUNT = min (s.get Fd.MGMT_LOG_LOST_COUNT + 1) (2 ^ 32 - 1)) ∧
  (∀ (e : ErrRec) (rest : List ErrRec) (s : State), s.io.fifo = e :: rest →
    s.restarting 16 = false → s.get Fd.MGMT_LOG_CTL_MERGE = 0 ∨ errMergeable e = false ∨ absorb s.tick e s.mgmt.merging = none →
    s.clockOk s.nextStore = true → s.mgmt.log.length < 4096 →
    ∃ t, exec .logStore s = .next t ∧ s.within [.io, .host, .mgmt] t ∧ s.onlyRegions [13, 16] t ∧ rest <+: t.io.fifo ∧
      (e.level < s.get Fd.MGMT_LOG_CTL_COPYLVL → t.io.fifo = rest) ∧
      t.mgmt.log = { e with rseq := s.get Fd.MGMT_LOG_HEAD_RSEQ } :: s.mgmt.log ∧
      t.get Fd.MGMT_LOG_HEAD_RSEQ = (s.get Fd.MGMT_LOG_HEAD_RSEQ + 1) % 2 ^ 32) ∧
  (∀ (e : ErrRec) (rest : List ErrRec) (l : List MergeSlot) (s : State), s.io.fifo = e :: rest →
    s.restarting 16 = false → s.get Fd.MGMT_LOG_CTL_MERGE = 1 → errMergeable e = true → absorb s.tick e s.mgmt.merging = some l →
    ∃ t, exec .logStore s = .next t ∧ s.within [.io, .host, .mgmt] t ∧ s.onlyRegions [13, 16] t ∧ t.io.fifo = rest ∧
      t.mgmt.merging = l ∧ t.mgmt.log = s.mgmt.log) ∧
  (∀ (m : MergeSlot) (rest : List MergeSlot) (s : State),
    let second := m.at_ + BitVec.ofNat 64 ticksPerS
    let x := if before second s.nextStore then s.nextStore else second
    s.restarting 16 = false → s.mgmt.merging = m :: rest → s.clockOk x = true → s.mgmt.log.length < 4096 →
    ∃ t, exec .logMergeFlush s = .next t ∧ s.within [.io, .host, .mgmt] t ∧ s.onlyRegions [13, 16] t ∧
      t.tick = (s.clockReach x).tick ∧
      if m.n = 0 then t.mgmt.log = s.mgmt.log ∧ t.mgmt.merging = rest
      else t.mgmt.log.head?.map ErrRec.rep = some (min m.n 65535) ∧ t.mgmt.log.tail = s.mgmt.log) ∧
  (∀ s : State, (s.restarting 16 = true ∨ s.io.fifo = [] → exec .logStore s = .next s) ∧
    (s.restarting 16 = true ∨ s.mgmt.merging = [] → exec .logMergeFlush s = .next s)) ∧
  (∀ (who : Actor) (r : Fin 19) (n : Fin 64) (v : Word) (k : BitVec 16) (s : State),
    s.admits (.tillCfgWrite who r n v k) = true →
    let a := (Fd.TILL_CFG_SRC r n).off
    s.withheld who a true v = false → tillReserved r v = false →
    ∃ t, exec (.tillCfgWrite who r n v k) s = .next t ∧ s.within [.io] t ∧ s.onlyRegs [a] t ∧ t.reg a = v &&& 0x1F37FFFF ∧
      (tillSelects (s.reg a) v = true → t.get (tillOvf r n) = 0 ∧
        t.wideOf r (0x0F00 + n) = if bitsOf v 7 0 = 0 then 0 else BitVec.ofNat 64 k.toNat) ∧
      (tillSelects (s.reg a) v = false → t.wideOf r (0x0F00 + n) = s.wideOf r (0x0F00 + n))) ∧
  (∀ (who : Actor) (r : Fin 19) (n : Fin 64) (v : Word) (k : BitVec 16) (s : State),
    s.admits (.tillCfgWrite who r n v k) = true →
    let a := (Fd.TILL_CFG_SRC r n).off
    (s.withheld who a true v = true ∨ tillReserved r v = true →
      ∃ t, exec (.tillCfgWrite who r n v k) s = .next t ∧ s.within [.io, .chip] t ∧
      s.onlyRegs [(Fd.RGN_STAT_ACC_ERR r).off] t ∧
        t.get (Fd.RGN_STAT_ACC_ERR r) = 1)) ∧
  (∀ (r : Fin 19) (n : Fin 64) (s : State), (s.wideOf r (0x0F00 + n)).toNat ≠ tillMax ∨ s.get (Fd.TILL_CFG_SRC r n) = 0 →
    exec (.tillOverflow r n) s = .next s) ∧
  (∀ (r : Fin 19) (n : Fin 64) (s : State), (s.wideOf r (0x0F00 + n)).toNat = tillMax → s.get (Fd.TILL_CFG_SRC r n) ≠ 0 →
    ∃ t, exec (.tillOverflow r n) s = .next t ∧ s.within [.io] t ∧ s.onlyRegs [] t ∧ t.get (tillOvf r n) = 1)

/-- REGION_RESTART, RESTART_CMD, RESTART_BIST_DONE, RESTART_RESUME, RESTART_FAIL, CHIP_FAULT, CHIP_FAULT_CLEAR (R17 to R21, R455
to R457): a region that can restart alone does, with the attempts of the lower levels; a fault of another is the chip's and
enters state 4; the command restarts one whose restart had failed, too; the test's end and the resume tick end a restart; what
finds no restart in progress changes nothing. Choices of the model in it: log 3, 14, 15, 19, 22, 81, 82, 83. -/
def Obligations.RestartsComplete : Prop :=
  (∀ (r : Fin 19) (n : BitVec 16) (s : State),
        s.admits (.regionRestart r n) = true → restartsAlone r = true → s.restarting r = false →
    ∃ t, exec (.regionRestart r n) s = .next t ∧ t.pending = s.pending ∧ t.restarting r = true ∧
      t.get (Fd.RGN_STAT_RESTARTING r) = 1 ∧
      t.chip.restarts.head? = some ((r : Nat), s.tick) ∧ look t.chip.bist r = none ∧
      rd (fun _ => 0) t.chip.attempts r = n.toNat ∧
      (2 ≤ s.recentRestarts r → t.chip.faultOpen = true ∧ t.safeSt = stSAFE)) ∧
  (∀ (r : Fin 19) (n : BitVec 16) (s : State), restartsAlone r = true → s.restarting r = true →
    exec (.regionRestart r n) s = .next s) ∧
  (∀ (r : Fin 19) (n : BitVec 16) (s : State), s.admits (.regionRestart r n) = true → restartsAlone r = false →
    ∃ t, exec (.regionRestart r n) s = .next t ∧ s.within [.io, .emt, .safe, .chip] t ∧ s.onlyRegions [0, 3, 18] t ∧
      t.get Fd.CHIP_ERR_STAT_CHIP_FAULT = 1 ∧ t.get Fd.CHIP_ERR_STAT_FREGION = r ∧ s.caught 10 t) ∧
  (∀ (who : Actor) (s : State),
    s.admits (.restartCmd who) = true →
    let r := s.get Fd.CHIP_RESTART_CMD_REGION
    s.withheld who Fd.CHIP_RESTART_CMD_GO.off true (s.reg Fd.CHIP_RESTART_CMD_GO.off) = false →
    (restartsAlone r = true → s.restarting r = false ∨ s.chip.stuck.contains r = true →
      ∃ t, exec (.restartCmd who) s = .next t ∧ t.pending = s.pending ∧ t.get Fd.CHIP_RESTART_CMD_GO = 0 ∧
      t.restarting r = true ∧
        t.chip.restarts.head? = some (r, s.tick) ∧ rd (fun _ => 0) t.chip.attempts r = 0) ∧
    (restartsAlone r = false ∨ (s.restarting r = true ∧ s.chip.stuck.contains r = false) →
      ∃ t, exec (.restartCmd who) s = .next t ∧ s.within [.io, .chip] t ∧ s.onlyRegs [Fd.CHIP_RESTART_CMD_GO.off] t ∧
        t.get Fd.CHIP_RESTART_CMD_GO = 0 ∧ t.chip.restarts = s.chip.restarts)) ∧
  (∀ (r : Fin 19) (failed : List (BitVec 9)) (s : State), s.restarting r = true → look s.chip.bist r = none →
    ∃ t, exec (.restartBistDone r failed) s = .next t ∧ t.pending = s.pending ∧ look t.chip.bist r = some s.tick ∧
      (r = 2 → ∀ n ∈ failed, n.toNat < 8 → t.chip.scanRun.testBit n.toNat = false) ∧ (failed = [] → s.within [.chip] t)) ∧
  (∀ (r : Fin 19) (failed : List (BitVec 9)) (s : State),
    (s.restarting r = false ∨ (look s.chip.bist r).isSome = true → exec (.restartBistDone r failed) s = .next s) ∧
    (s.restarting r = false ∨ look s.chip.bist r = none ∨ s.chip.stuck.contains r.val = true → exec (.restartResume r) s = .next s) ∧
    (s.restarting r = false ∨ s.chip.stuck.contains r.val = true → exec (.restartFail r) s = .next s)) ∧
  (∀ (r : Fin 19) (x : Wide) (s : State), s.restarting r = true → look s.chip.bist r = some x →
    s.chip.stuck.contains r.val = false → s.clockOk (s.resumeAt x) = true →
    ∃ t, exec (.restartResume r) s = .next t ∧
      s.within [.io, .tbas, .scan, .emt, .safe, .lnk, .hst, .outp, .moni, .mgmt, .secu, .chip] t ∧ t.restarting r = false ∧
      t.get (Fd.RGN_STAT_RESTARTING r) = 0 ∧
      look t.chip.bist r = none) ∧
  (∀ (r : Fin 19) (s : State), s.restarting r = true → s.chip.stuck.contains r.val = false →
    ∃ t, exec (.restartFail r) s = .next t ∧ s.within [.io, .emt, .safe, .chip] t ∧ s.onlyRegions [0, 3, 18] t ∧
      r.val ∈ t.chip.stuck ∧ t.get Fd.CHIP_ERR_STAT_FREGION = r ∧ s.caught 10 t) ∧
  (∀ (r : Fin 19) (n : BitVec 16) (s : State),
    s.admits (.chipFault r n) = true →
    ∃ t, exec (.chipFault r n) s = .next t ∧ s.within [.io, .emt, .safe, .chip] t ∧ s.onlyRegions [0, 3, 18] t ∧
      t.get Fd.CHIP_ERR_STAT_CHIP_FAULT = 1 ∧ t.get Fd.CHIP_ERR_STAT_FREGION = r ∧
      t.chip.faultOpen = true ∧ s.caught 10 t) ∧
  (∀ s : State,
    s.admits .chipFaultClear = true →
    ∃ t, exec .chipFaultClear s = .next t ∧ s.within [.io, .chip] t ∧ t.get Fd.CHIP_ERR_STAT_CHIP_FAULT = 0 ∧
      (s.chip.faultOpen = true → s.get Fd.CHIP_ERR_STAT_FREGION = 0 → t.chip.clearedAt = some s.tick) ∧
      ∀ a, a ≠ Fd.CHIP_ERR_STAT_CHIP_FAULT.off → t.reg a = s.reg a)

/-- UPD_LOAD, UPD_VERIFY, UPD_ACTIVATE, UPD_STATUS, UPD_REVERT, FW_HANDOVER, FW_TAKEOVER, FW_CONFIRM, HEALTH_WINDOW_EXPIRE,
LOCKSTEP_ERR (R52, R54, R456, R458 to R461): the pieces of an image go into the slot that does not run, which is invalid until
the last; it is verified, and is handed over at the boundary; the new image runs on trial until it confirms itself, and is
reverted when its window ends or it is asked to; a command that its state does not allow is answered BUSY, BAD_PARAM or
NOT_PERMITTED, and a write that does not verify STORAGE_FAIL. Choices of the model in it: log 3, 15, 21, 25, 72, 78, 89. -/
def Obligations.UpdatesComplete : Prop :=
  (∀ (img : Image) (stored : Bool) (n : Nat) (s : State),
        s.asks 0x0201 n → s.get Fd.MGMT_FW_STAT_TRIAL = 0 → s.mgmt.hand = 0 →
    let had := match s.mgmt.load with
      | some p => if p.opcode = 0x0201 ∧ p.tag = s.mbxTag then p.bytes else 0
      | none => 0
    ∃ t, exec (.updLoad img stored) s = .next t ∧ s.within [.io, .mgmt] t ∧ s.onlyRegs [Fd.MGMT_FW_STAT_VERIFIED.off] t ∧
      t.get Fd.MGMT_FW_STAT_VERIFIED = 0 ∧ t.slotOf s.fwSlot = s.slotOf s.fwSlot ∧
      if stored = false then t.answered stSTORAGE_FAIL [] ∧ t.slotOf s.otherSlot = {}
      else if s.mbxContinued = true then
        t.answered stOK [] ∧ t.slotOf s.otherSlot = {} ∧ t.mgmt.load.map (·.bytes) = some (had + n)
      else if had + n ≠ (imageBytes img).length then t.answered stBAD_LENGTH [] ∧ t.slotOf s.otherSlot = {}
      else t.answered stOK [] ∧ t.slotOf s.otherSlot = { img := some img } ∧ t.mgmt.load = none) ∧
  (∀ (img : Image) (stored : Bool) (n : Nat) (s : State),
        s.asks 0x0201 n → s.get Fd.MGMT_FW_STAT_TRIAL = 1 ∨ s.mgmt.hand ≠ 0 →
    ∃ t, exec (.updLoad img stored) s = .next t ∧ s.within [.mgmt] t ∧ t.answered stBUSY []) ∧
  (∀ s : State, s.asks 0x0202 0 → (s.slotOf s.otherSlot).img = none →
    ∃ t, exec .updVerify s = .next t ∧ s.within [.mgmt] t ∧ t.answered stBAD_PARAM []) ∧
  (∀ (i : Image) (s : State), s.asks 0x0202 0 → (s.slotOf s.otherSlot).img = some i →
    ∃ t, exec .updVerify s = .next t ∧ s.within [.io, .mgmt] t ∧
      if s.fwGood i = true then t.answered stOK [] ∧ t.get Fd.MGMT_FW_STAT_VERIFIED = 1 ∧
        (t.slotOf s.otherSlot).hash = some i.bodyHash ∧
        (s.mgmt.recovery = true → t.mgmt.recovery = false ∧ t.mgmt.bootRec.pref = s.otherSlot)
      else t.answered stSIGNATURE_FAIL [] ∧ t.io = s.io) ∧
  (∀ (e : Fin 8) (stored : Bool) (s : State), s.asks 0x0203 1 →
    ∃ t, exec (.updActivate e stored) s = .next t ∧ s.within [.mgmt] t ∧
      if s.get Fd.MGMT_FW_STAT_VERIFIED = 0 then t.answered stNOT_PERMITTED [] ∧ t.mgmt.hand = s.mgmt.hand
      else if s.handBusy = true then t.answered stBUSY [] ∧ t.mgmt.hand = s.mgmt.hand
      else if stored = false then t.answered stSTORAGE_FAIL [] ∧ t.mgmt.bootRec = s.mgmt.bootRec ∧ t.mgmt.hand = s.mgmt.hand
      else t.answered stOK [] ∧ t.mgmt.hand = 1 ∧ t.mgmt.handTo = s.otherSlot ∧ t.mgmt.handEng = e ∧ t.mgmt.handAt = s.tick ∧
        t.mgmt.bootRec.pref = s.otherSlot ∧ t.mgmt.bootRec.trial = true ∧ t.mgmt.bootRec.tried = false) ∧
  (∀ s : State, s.asks 0x0204 0 →
    ∃ t bytes, exec .updStatus s = .next t ∧ s.within [.mgmt] t ∧ t.io = s.io ∧ t.answered stOK bytes ∧ bytes.length = 11 ∧
      bytes.take 1 = leBytes 1 s.fwSlot ∧ (bytes.drop 9).take 1 = leBytes 1 (s.get Fd.MGMT_FW_STAT_TRIAL)) ∧
  (∀ s : State, s.asks 0x0205 0 → s.get Fd.MGMT_FW_STAT_TRIAL = 0 →
    ∀ stored, ∃ t, exec (.updRevert stored) s = .next t ∧ s.within [.mgmt] t ∧ t.answered stNOT_PERMITTED []) ∧
  (∀ s : State, s.asks 0x0205 0 → s.get Fd.MGMT_FW_STAT_TRIAL = 1 →
    ∃ t, exec (.updRevert false) s = .next t ∧ s.within [.mgmt] t ∧ t.answered stSTORAGE_FAIL [] ∧
      t.mgmt.hand = s.mgmt.hand) ∧
  (∀ s : State, s.asks 0x0205 0 → s.get Fd.MGMT_FW_STAT_TRIAL = 1 → s.mgmt.hand = 0 →
    ∃ t, exec (.updRevert true) s = .next t ∧ s.within [.io, .mgmt] t ∧ s.onlyRegs [Fd.MGMT_FW_STAT_LEFT.off] t ∧
      t.answered stOK [] ∧ t.get Fd.MGMT_FW_STAT_TRIAL = 0 ∧ t.mgmt.hand = 1 ∧
      t.mgmt.handTo = s.otherSlot ∧ t.mgmt.handBack = true ∧ t.mgmt.bootRec.pref = s.otherSlot ∧
      t.mgmt.bootRec.trial = false) ∧
  (∀ (x : Wide) (s : State), s.mgmt.hand = 1 → s.boundary s.mgmt.handEng s.mgmt.handAt s.mgmt.handAny = some x →
    s.clockOk x = true →
    ∃ t, exec .fwHandover s = .next t ∧ s.within [.io, .mgmt] t ∧ s.onlyRegs [] t ∧ t.mgmt.hand = 2 ∧
      t.io = (s.clockReach x).io ∧ t.mgmt.load = none ∧
      t.mgmt.reply = if s.mbxBusy = true then some (s.mgmt.reply.getD { status := stRESTARTED }) else none) ∧
  (∀ s : State, (s.mgmt.hand ≠ 1 → exec .fwHandover s = .next s) ∧ (s.mgmt.hand ≠ 2 → exec .fwTakeover s = .next s) ∧
    (s.get Fd.MGMT_FW_STAT_TRIAL = 0 ∨ s.fwRuns = false ∨ s.mgmt.hand ≠ 0 ∨ s.get (Fd.SAFE_NOW_NOW.bit 2) = 1 ∨
      s.safe.serviced = false ∨ s.calSlot.valid = false → exec .fwConfirm s = .next s) ∧
    ((∀ x, s.mgmt.healthEnd = some x → s.clockOk x = false) → exec .healthWindowExpire s = .next s)) ∧
  (∀ s : State, s.mgmt.hand = 2 → s.mgmt.handTo ≤ 1 →
    ∃ t, exec .fwTakeover s = .next t ∧ s.within [.io, .emt, .safe, .mgmt, .secu] t ∧ s.onlyRegions [3, 16, 17, 18, 40] t ∧
      (s.bodyGood s.mgmt.handTo = true →
      t.mgmt.hand = 0 ∧ t.mgmt.booted = true ∧ t.safe.serviced = true ∧ t.get Fd.MGMT_FW_STAT_SLOT = s.mgmt.handTo ∧
      t.get Fd.MGMT_FW_STAT_TRIAL = if s.mgmt.handBack then 0 else 1) ∧
      (s.bodyGood s.mgmt.handTo = false → s.bodyGood (1 - s.mgmt.handTo) = false → t.mgmt.recovery = true)) ∧
  (∀ s : State, s.get Fd.MGMT_FW_STAT_TRIAL = 1 → s.fwRuns = true → s.mgmt.hand = 0 → s.get (Fd.SAFE_NOW_NOW.bit 2) = 0 →
    s.safe.serviced = true → s.calSlot.valid = true →
    ∃ t, exec .fwConfirm s = .next t ∧ s.within [.io, .mgmt, .secu] t ∧
      s.onlyRegs [Fd.SECU_BOOT_SVN_FUSE.off, Fd.MGMT_FW_STAT_LEFT.off] t ∧ t.get Fd.MGMT_FW_STAT_TRIAL = 0 ∧
      t.get Fd.SECU_BOOT_TRIAL = 0 ∧
      t.mgmt.bootRec.trial = false ∧ t.mgmt.healthEnd = none) ∧
  (∀ (x : Wide) (s : State), s.mgmt.healthEnd = some x → s.clockOk x = true → s.get Fd.MGMT_FW_STAT_TRIAL = 1 →
    s.mgmt.hand = 0 →
    ∃ t, exec .healthWindowExpire s = .next t ∧ s.within [.io, .mgmt] t ∧ s.onlyRegs [Fd.MGMT_FW_STAT_LEFT.off] t ∧
      t.tick = (s.clockReach x).tick ∧ t.get Fd.MGMT_FW_STAT_TRIAL = 0 ∧
      t.mgmt.hand = 1 ∧ t.mgmt.handBack = true ∧ t.mgmt.healthEnd = none) ∧
  (∀ s : State, s.admits .lockstepErr = true → s.io.fifo.length < 256 →
    ∃ t, exec .lockstepErr s = .next t ∧ s.within [.io, .mgmt] t ∧ (∃ e ∈ t.io.fifo, e.code = 0x1088 ∧ e.region = 16) ∧
      (s.get Fd.MGMT_FW_STAT_TRIAL = 0 → t.mgmt.hand = s.mgmt.hand ∧ s.onlyRegs [] t) ∧
      (s.get Fd.MGMT_FW_STAT_TRIAL = 1 → s.mgmt.hand = 0 → t.mgmt.hand = 1 ∧ t.mgmt.handBack = true))

/-- CAL_DUE, CAL_DEFERRED, CAL_STORE, CAL_INFO, CAL_RUN, CAL_CONFIG, CAL_READ, CAL_WRITE, BG_STARVED (R462 to R467): a kind that
falls due is applied by a commit, waits while the sketch is changed or a commit is in hand, and is reported once when it has
waited 10 s; the older slot takes every value in force, and the valid one stays where its write does not verify; a parameter
out of its range is refused; what has waited 1 s without service is starved. Choices of the model in it: log 1, 3, 15, 25, 73,
89, 101. -/
def Obligations.CalibrationCompletes : Prop :=
  (∀ (k : Fin 5) (temp : BitVec 12) (s : State), s.attests = true → s.calFalls k temp.toNat = true → s.tbas.running = true →
    s.commitWaiting = false → s.commitFixed = false → s.mgmt.calRetry = false → s.sketchClean = true →
    ∃ t, exec (.calDue k temp) s = .next t ∧ s.within [.io, .scan, .mgmt, .secu, .chip] t ∧
      s.onlyRegions [0, 2, 8, 9, 10, 11, 16] t ∧
      ((t.commitWaiting || t.commitFixed) = true →
        t.get (calPending k) = 0 ∧ look t.mgmt.calAt k = some s.tick ∧ look t.mgmt.calTemp k = some temp.toNat) ∧
      ((t.commitWaiting || t.commitFixed) = false → t.get (calPending k) = 1 ∧ t.mgmt.calRetry = true)) ∧
  (∀ (k : Fin 5) (temp : BitVec 12) (s : State), s.attests = true → s.calFalls k temp.toNat = true → s.tbas.running = true →
    s.commitWaiting = false → s.commitFixed = false → s.mgmt.calRetry = false → s.sketchClean = false →
    ∃ t, exec (.calDue k temp) s = .next t ∧ s.within [.io, .mgmt] t ∧ s.onlyRegs [Fd.MGMT_BG_STAT_PENDING.off] t ∧
      t.get (calPending k) = 1 ∧ t.mgmt.calWait = some (s.mgmt.calWait.getD s.tick)) ∧
  (∀ (k : Fin 5) (temp : BitVec 12) (s : State), s.attests = true → s.calFalls k temp.toNat = true →
    s.tbas.running = false ∨ s.commitWaiting = true ∨ s.commitFixed = true ∨ s.mgmt.calRetry = true →
    ∃ t, exec (.calDue k temp) s = .next t ∧ s.within [.io, .mgmt] t ∧ s.onlyRegs [Fd.MGMT_BG_STAT_PENDING.off] t ∧
      t.get (calPending k) = 1) ∧
  (∀ (k : Fin 5) (temp : BitVec 12) (s : State), s.attests = false ∨ s.calFalls k temp.toNat = false →
    exec (.calDue k temp) s = .next s) ∧
  (∀ s : State, s.mgmt.calWait = none ∨ s.mgmt.calTold = true ∨ s.sketchClean = true → exec .calDeferred s = .next s) ∧
  (∀ (stored : Bool) (s : State), s.attests = false ∨ (∃ x, s.mgmt.calStored = some x ∧ ahead x s.tick < 10 * ticksPerS) →
    exec (.calStore stored) s = .next s) ∧
  (∀ (x : Wide) (s : State), s.mgmt.calWait = some x → s.mgmt.calTold = false → s.sketchClean = false →
    s.timely (x + BitVec.ofNat 64 (10 * ticksPerS)) = true →
    ∃ t, exec .calDeferred s = .next t ∧ s.within [.io, .mgmt] t ∧ s.onlyRegs [Fd.MGMT_BG_STAT_CAL_DEFERRED.off] t ∧
      t.tick = (s.reach (x + BitVec.ofNat 64 (10 * ticksPerS))).tick ∧
      t.get Fd.MGMT_BG_STAT_CAL_DEFERRED = 1 ∧ t.mgmt.calTold = true) ∧
  (∀ s : State, s.attests = true → (∀ x, s.mgmt.calStored = some x → 10 * ticksPerS ≤ ahead x s.tick) →
    ∃ t, exec (.calStore true) s = .next t ∧ s.within [.mgmt] t ∧ t.io = s.io ∧ t.mgmt.calStored = some s.tick ∧
      t.calSlot.valid = true ∧
      t.calSlot.seq = s.calSlot.seq + 1 ∧ ∀ f ∈ calAll, rd resetWord t.calSlot.values f.off = s.reg f.off) ∧
  (∀ s : State, s.attests = true → (∀ x, s.mgmt.calStored = some x → 10 * ticksPerS ≤ ahead x s.tick) →
    ∃ t, exec (.calStore false) s = .next t ∧ s.within [.mgmt] t ∧ t.io = s.io ∧ t.calSlot = s.calSlot) ∧
  (∀ s : State, s.asks 0x0301 0 → ∃ t bytes, exec .calInfo s = .next t ∧ s.within [.mgmt] t ∧ t.answered stOK bytes ∧
      (∀ k : Fin 5, (bytes.drop (11 * k)).take 11 = leBytes 8 (rd (fun _ => (0 : Wide)) s.mgmt.calAt k).toNat ++
        leBytes 2 (rd (fun _ => 0) s.mgmt.calTemp k) ++ leBytes 1 (s.get (calPending k))) ∧
        bytes.drop 55 = leBytes 4 s.calSlot.seq) ∧
  (∀ (mask : Byte) (s : State), s.asks 0x0302 1 → 32 ≤ mask.toNat →
    ∃ t, exec (.calRun mask) s = .next t ∧ s.within [.mgmt] t ∧ t.answered stBAD_PARAM []) ∧
  (∀ (dt maxint : BitVec 16) (s : State), s.asks 0x0303 4 →
    dt.toNat < 8 ∨ 320 < dt.toNat ∨ maxint.toNat < 10 ∨ 3600 < maxint.toNat →
    ∃ t, exec (.calConfig dt maxint) s = .next t ∧ s.within [.mgmt] t ∧ t.answered stBAD_PARAM [] ∧
      t.mgmt.calDt = s.mgmt.calDt ∧
      t.mgmt.calMax = s.mgmt.calMax) ∧
  (∀ s : State, s.asks 0x0304 0 → s.calSlot.valid = false →
    ∃ t, exec .calRead s = .next t ∧ s.within [.mgmt] t ∧ t.answered stSTORAGE_FAIL []) ∧
  (∀ (n : Nat) (delays coeffs : List (BitVec 20)) (kedge : List (BitVec 16)) (stored : Bool) (s : State), s.asks 0x0305 n →
    delays.length ≠ 1024 ∨ coeffs.length ≠ 1024 →
    ∃ t, exec (.calWrite delays coeffs kedge stored) s = .next t ∧ s.within [.mgmt] t ∧ t.answered stBAD_LENGTH []) ∧
  (∀ (n : Nat) (delays coeffs : List (BitVec 20)) (kedge : List (BitVec 16)) (s : State),
        s.asks 0x0305 n → delays.length = 1024 →
    coeffs.length = 1024 →
    ∃ t, exec (.calWrite delays coeffs kedge false) s = .next t ∧ s.within [.mgmt] t ∧ t.answered stSTORAGE_FAIL []) ∧
  (∀ (mask : Byte) (s : State), s.asks 0x0302 1 → mask.toNat < 32 →
    ∃ t, exec (.calRun mask) s = .next t ∧ s.within [.io, .mgmt] t ∧ s.onlyRegs [Fd.MGMT_BG_STAT_PENDING.off] t ∧
      t.answered stOK [] ∧
      t.get Fd.MGMT_BG_STAT_PENDING = s.get Fd.MGMT_BG_STAT_PENDING ||| mask.toNat) ∧
  (∀ (dt maxint : BitVec 16) (s : State), s.asks 0x0303 4 → 8 ≤ dt.toNat → dt.toNat ≤ 320 → 10 ≤ maxint.toNat →
    maxint.toNat ≤ 3600 →
    ∃ t, exec (.calConfig dt maxint) s = .next t ∧ s.within [.mgmt] t ∧ t.answered stOK [] ∧ t.mgmt.calDt = dt.toNat ∧
      t.mgmt.calMax = maxint.toNat ∧ t.io = s.io) ∧
  (∀ s : State, s.asks 0x0304 0 → s.calSlot.valid = true →
    ∃ t bytes, exec .calRead s = .next t ∧ s.within [.mgmt] t ∧ t.io = s.io ∧ t.answered stOK bytes ∧
      bytes.take 4 = leBytes 4 s.calSlot.seq ∧
      (∀ k : Fin 5, (bytes.drop (4 + 2 * k)).take 2 = leBytes 2 (rd (fun _ => 0) s.calSlot.temps k)) ∧
      ∀ i, ∀ h : i < calAll.length,
        (bytes.drop (14 + 4 * i)).take 4 = leBytes 4 (rd resetWord s.calSlot.values (calAll[i].off)).toNat) ∧
  (∀ (n : Nat) (delays coeffs : List (BitVec 20)) (kedge : List (BitVec 16)) (s : State),
        s.asks 0x0305 n → delays.length = 1024 →
    coeffs.length = 1024 →
    ∃ t, exec (.calWrite delays coeffs kedge true) s = .next t ∧ s.within [.io, .mgmt] t ∧ s.onlyRegions [16] t ∧
      t.answered stOK [] ∧ t.mgmt.calDelays = delays ∧
      t.mgmt.calCoeffs = coeffs ∧ t.mgmt.calKedge = kedge ∧ t.get (calPending 4) = 1) ∧
  (∀ (k : Fin 5) (x : Wide) (s : State), s.mgmt.scrubWait = some x → s.mgmt.scrubShare = false → s.restarting 16 = false →
    s.clockOk (x + BitVec.ofNat 64 ticksPerS) = true →
    ∃ t, exec (.bgStarved true k) s = .next t ∧ s.within [.io, .mgmt] t ∧ s.onlyRegions [16] t ∧
      t.tick = (s.clockReach (x + BitVec.ofNat 64 ticksPerS)).tick ∧ t.get Fd.MGMT_BG_STAT_SCRUB_STARVED = 1 ∧
      t.mgmt.scrubShare = true) ∧
  (∀ (k : Fin 5) (x : Wide) (s : State), look s.mgmt.calPendAt k = some x → s.get (calReq k) = 0 → s.restarting 16 = false →
    s.clockOk (x + BitVec.ofNat 64 ticksPerS) = true →
    ∃ t, exec (.bgStarved false k) s = .next t ∧ s.within [.io] t ∧ s.onlyRegions [16] t ∧
      t.tick = (s.clockReach (x + BitVec.ofNat 64 ticksPerS)).tick ∧ t.get Fd.MGMT_BG_STAT_CAL_STARVED = 1 ∧
      t.get (calReq k) = 1) ∧
  (∀ (k : Fin 5) (s : State),
    (s.mgmt.scrubWait = none ∨ s.mgmt.scrubShare = true ∨ s.restarting 16 = true → exec (.bgStarved true k) s = .next s) ∧
    (look s.mgmt.calPendAt k = none ∨ s.get (calReq k) = 1 ∨ s.restarting 16 = true → exec (.bgStarved false k) s = .next s))

/-! ## The machine -/

/-- Any register with STG fields alone (R38): a read of its address returns the value in force, a read of its sketch view returns
the sketch value, and a write to either address writes the sketch. Choices of the model in it: log 6, 14, 18, 19, 83, 87,
        92. -/
def Obligations.StagedRegistersReadAndWrite : Prop :=
  ∀ (who : Actor) (off view : BitVec 32) (row : RegRow) (k : Nat) (v vhi hw : Word) (rivals : List FabReq) (s : State),
    s.attends who = true → reaches who .bar0 = true → off.toNat % 4 = 0 → off.toNat % 0x200000 < 0x100000 → view = off + 0x100000 →
    findRow off.toNat = some (row, k) → row.onlyStaged = true → stagedMask off.toNat ≠ 0 →
    s.gated off.toNat = false → s.withheld who off.toNat false 0 = false → s.withheld who off.toNat true v = false →
    (∃ t, exec (.reservedRead who .bar0 off .dword rivals) s = .next t ∧
      t.io.out = .readData who off.toNat (s.reg off.toNat) :: s.io.out ∧ t.io.regs = s.io.regs) ∧
    (∃ t, exec (.reservedRead who .bar0 view .dword rivals) s = .next t ∧
      t.io.out = .readData who view.toNat (s.sketchWord off.toNat &&& BitVec.ofNat 32 (stagedMask off.toNat)) :: s.io.out ∧
      t.io.regs = s.io.regs) ∧
    ∀ a, a = off ∨ a = view →
      ∃ t, exec (.registerWrite who .bar0 a .dword v vhi hw rivals) s = .next t ∧
        t.sketchWord off.toNat = merge (stagedMask off.toNat) (s.sketchWord off.toNat) v ∧
        t.reg off.toNat = s.reg off.toNat ∧ ∀ b, b ≠ off.toNat → t.sketchWord b = s.sketchWord b

/-- A step takes the command at the front of the queue and performs it with the queue's rest; with no command waiting the block only
lets its time base count on, and its export records leave the staging memory as the tokens come (a choice of the model,
        log entry 1). -/
def Obligations.StepTakesTheFrontCommand : Prop :=
  (∀ (c : Instr) (rest : List Instr) (s : State), s.pending = c :: rest → step s = exec c { s with pending := rest }) ∧
  (∀ (c : Instr) (s : State), step { s with pending := c :: s.pending } = exec c s) ∧
  (∀ s : State, s.pending = [] →
    ∃ t, step s = .next t ∧ t.pending = [] ∧
      (s.tbas.running = false → s.powered = false → s.chip.tck = false → t = s) ∧
      (s.tbas.running = false → t.tick = s.tick ∧ t.io.out = s.io.out) ∧
      let n := s.tick.toNat / 128 * 128 + if s.chip.coarse then 3200 else 128
      (s.tbas.running = true → n < 2 ^ 64 → t.tick.toNat = n) ∧
      (s.tbas.running = true → n < 2 ^ 64 → s.host.staged = [] → t.io.out = s.io.out))

/-- Whatever the state, a well-formed command has a next state, and an ill-formed one, which no hardware has, is the one fault. -/
def Obligations.EveryCommandCompletes : Prop :=
  ∀ (c : Instr) (s : State),
    (c.wf = true → ∃ t, exec c s = .next t) ∧ (c.wf = false → exec c s = .fault .illFormed)

/-- At reset every register has its reset value, SAFE is in INIT with its switches open, no easel runs, every ring and port is off, the
count stands at 0, no pulse has left, and the tables and queues are sound (R34, R372, R374, R446). -/
def Obligations.ResetIsSound : Prop :=
  (∀ a, State.reset.reg a = resetWord a) ∧ (∀ a, State.reset.sketchWord a = resetWord a) ∧
    State.reset.safeSt = stINIT ∧ State.reset.get Fd.SAFE_STAT_HS_EN = 0 ∧ State.reset.get Fd.SAFE_STAT_LS_EN = 0 ∧
    (∀ e : Fin 8, State.reset.isHalted e = true) ∧ (∀ r : Fin 14, State.reset.ringState r = rOFF) ∧
    (∀ n : Fin 32, State.reset.portState n = ptOFF) ∧ State.reset.tick = 0 ∧ State.reset.tbas.running = false ∧
    State.reset.pulses = [] ∧ State.reset.tablesOk = true ∧ State.reset.queuesOk = true ∧ State.reset.pending = []

/-- From every sound state a step leads to a sound one: the tables of registers, sketches, wide values, program and data memory keep
their canonical form, and no queue passes the capacity that R64, R340, R383, R386,
        R452 and R453 give it; a command changes nothing
of the queue of commands. -/
def Obligations.EveryStepKeepsTheTables : Prop :=
  (∀ s t : State, s.tablesOk = true → s.queuesOk = true → step s = .next t → t.tablesOk = true ∧ t.queuesOk = true) ∧
  (∀ (c : Instr) (s t : State), s.tablesOk = true → s.queuesOk = true → exec c s = .next t → t.pending = s.pending)

/-- From a sound state no command but SHOT_FIRE and DIAG_PULSE lets a fire pulse leave, and while SAFE is not ARMED neither do
these (R374, R376): every step of an unarmed device leaves the fire outputs still. Choices of the model in it: log 1, 3, 33,
39. -/
def Obligations.NothingFiresUnlessArmed : Prop :=
  (∀ s t : State, s.tablesOk = true → s.queuesOk = true → s.armed = false → step s = .next t → t.pulses = s.pulses) ∧
  (∀ (c : Instr) (s t : State), s.tablesOk = true → s.queuesOk = true → c ≠ .shotFire → c ≠ .diagPulse → exec c s = .next t →
    t.pulses = s.pulses)
end

