-- ==== Sys2Proof/Laws/State.lean ====
section
/-!
SUPPORT. One lemma per field of the state per update of it, true by definition, so that no proof unfolds a record update.
-/
namespace Sys2Proof.Machine

variable (s : State)

/-! ## The shared part -/

@[simp] theorem State.io_upd_io (f : Io → Io) : (s.io' f).io = f s.io := rfl
@[simp] theorem State.io_upd_tbas (f : Io → Io) : (s.io' f).tbas = s.tbas := rfl
@[simp] theorem State.io_upd_scan (f : Io → Io) : (s.io' f).scan = s.scan := rfl
@[simp] theorem State.io_upd_emt (f : Io → Io) : (s.io' f).emt = s.emt := rfl
@[simp] theorem State.io_upd_lnk (f : Io → Io) : (s.io' f).lnk = s.lnk := rfl
@[simp] theorem State.io_upd_hst (f : Io → Io) : (s.io' f).hst = s.hst := rfl
@[simp] theorem State.io_upd_outp (f : Io → Io) : (s.io' f).outp = s.outp := rfl
@[simp] theorem State.io_upd_host (f : Io → Io) : (s.io' f).host = s.host := rfl
@[simp] theorem State.io_upd_memc (f : Io → Io) : (s.io' f).memc = s.memc := rfl
@[simp] theorem State.io_upd_moni (f : Io → Io) : (s.io' f).moni = s.moni := rfl
@[simp] theorem State.io_upd_safe (f : Io → Io) : (s.io' f).safe = s.safe := rfl
@[simp] theorem State.io_upd_mgmt (f : Io → Io) : (s.io' f).mgmt = s.mgmt := rfl
@[simp] theorem State.io_upd_secu (f : Io → Io) : (s.io' f).secu = s.secu := rfl
@[simp] theorem State.io_upd_chip (f : Io → Io) : (s.io' f).chip = s.chip := rfl
@[simp] theorem State.io_upd_pending (f : Io → Io) : (s.io' f).pending = s.pending := rfl

@[simp] theorem State.put_io (a : Nat) (w : Word) : (s.put a w).io = s.io.put a w := rfl
@[simp] theorem State.put_tbas (a : Nat) (w : Word) : (s.put a w).tbas = s.tbas := rfl
@[simp] theorem State.put_scan (a : Nat) (w : Word) : (s.put a w).scan = s.scan := rfl
@[simp] theorem State.put_emt (a : Nat) (w : Word) : (s.put a w).emt = s.emt := rfl
@[simp] theorem State.put_lnk (a : Nat) (w : Word) : (s.put a w).lnk = s.lnk := rfl
@[simp] theorem State.put_hst (a : Nat) (w : Word) : (s.put a w).hst = s.hst := rfl
@[simp] theorem State.put_outp (a : Nat) (w : Word) : (s.put a w).outp = s.outp := rfl
@[simp] theorem State.put_host (a : Nat) (w : Word) : (s.put a w).host = s.host := rfl
@[simp] theorem State.put_memc (a : Nat) (w : Word) : (s.put a w).memc = s.memc := rfl
@[simp] theorem State.put_moni (a : Nat) (w : Word) : (s.put a w).moni = s.moni := rfl
@[simp] theorem State.put_safe (a : Nat) (w : Word) : (s.put a w).safe = s.safe := rfl
@[simp] theorem State.put_mgmt (a : Nat) (w : Word) : (s.put a w).mgmt = s.mgmt := rfl
@[simp] theorem State.put_secu (a : Nat) (w : Word) : (s.put a w).secu = s.secu := rfl
@[simp] theorem State.put_chip (a : Nat) (w : Word) : (s.put a w).chip = s.chip := rfl
@[simp] theorem State.put_pending (a : Nat) (w : Word) : (s.put a w).pending = s.pending := rfl

@[simp] theorem State.set_io (f : Field) (v : Nat) : (s.set f v).io = s.io.set f v := rfl
@[simp] theorem State.set_tbas (f : Field) (v : Nat) : (s.set f v).tbas = s.tbas := rfl
@[simp] theorem State.set_scan (f : Field) (v : Nat) : (s.set f v).scan = s.scan := rfl
@[simp] theorem State.set_emt (f : Field) (v : Nat) : (s.set f v).emt = s.emt := rfl
@[simp] theorem State.set_lnk (f : Field) (v : Nat) : (s.set f v).lnk = s.lnk := rfl
@[simp] theorem State.set_hst (f : Field) (v : Nat) : (s.set f v).hst = s.hst := rfl
@[simp] theorem State.set_outp (f : Field) (v : Nat) : (s.set f v).outp = s.outp := rfl
@[simp] theorem State.set_host (f : Field) (v : Nat) : (s.set f v).host = s.host := rfl
@[simp] theorem State.set_memc (f : Field) (v : Nat) : (s.set f v).memc = s.memc := rfl
@[simp] theorem State.set_moni (f : Field) (v : Nat) : (s.set f v).moni = s.moni := rfl
@[simp] theorem State.set_safe (f : Field) (v : Nat) : (s.set f v).safe = s.safe := rfl
@[simp] theorem State.set_mgmt (f : Field) (v : Nat) : (s.set f v).mgmt = s.mgmt := rfl
@[simp] theorem State.set_secu (f : Field) (v : Nat) : (s.set f v).secu = s.secu := rfl
@[simp] theorem State.set_chip (f : Field) (v : Nat) : (s.set f v).chip = s.chip := rfl
@[simp] theorem State.set_pending (f : Field) (v : Nat) : (s.set f v).pending = s.pending := rfl

@[simp] theorem State.setWide_io (r i : Nat) (v : Wide) : (s.setWide r i v).io = s.io.setWide r i v := rfl
@[simp] theorem State.setWide_tbas (r i : Nat) (v : Wide) : (s.setWide r i v).tbas = s.tbas := rfl
@[simp] theorem State.setWide_scan (r i : Nat) (v : Wide) : (s.setWide r i v).scan = s.scan := rfl
@[simp] theorem State.setWide_emt (r i : Nat) (v : Wide) : (s.setWide r i v).emt = s.emt := rfl
@[simp] theorem State.setWide_lnk (r i : Nat) (v : Wide) : (s.setWide r i v).lnk = s.lnk := rfl
@[simp] theorem State.setWide_hst (r i : Nat) (v : Wide) : (s.setWide r i v).hst = s.hst := rfl
@[simp] theorem State.setWide_outp (r i : Nat) (v : Wide) : (s.setWide r i v).outp = s.outp := rfl
@[simp] theorem State.setWide_host (r i : Nat) (v : Wide) : (s.setWide r i v).host = s.host := rfl
@[simp] theorem State.setWide_memc (r i : Nat) (v : Wide) : (s.setWide r i v).memc = s.memc := rfl
@[simp] theorem State.setWide_moni (r i : Nat) (v : Wide) : (s.setWide r i v).moni = s.moni := rfl
@[simp] theorem State.setWide_safe (r i : Nat) (v : Wide) : (s.setWide r i v).safe = s.safe := rfl
@[simp] theorem State.setWide_mgmt (r i : Nat) (v : Wide) : (s.setWide r i v).mgmt = s.mgmt := rfl
@[simp] theorem State.setWide_secu (r i : Nat) (v : Wide) : (s.setWide r i v).secu = s.secu := rfl
@[simp] theorem State.setWide_chip (r i : Nat) (v : Wide) : (s.setWide r i v).chip = s.chip := rfl
@[simp] theorem State.setWide_pending (r i : Nat) (v : Wide) : (s.setWide r i v).pending = s.pending := rfl

@[simp] theorem State.emit_io (o : Out) : (s.emit o).io = s.io.emit o := rfl
@[simp] theorem State.emit_tbas (o : Out) : (s.emit o).tbas = s.tbas := rfl
@[simp] theorem State.emit_scan (o : Out) : (s.emit o).scan = s.scan := rfl
@[simp] theorem State.emit_emt (o : Out) : (s.emit o).emt = s.emt := rfl
@[simp] theorem State.emit_lnk (o : Out) : (s.emit o).lnk = s.lnk := rfl
@[simp] theorem State.emit_hst (o : Out) : (s.emit o).hst = s.hst := rfl
@[simp] theorem State.emit_outp (o : Out) : (s.emit o).outp = s.outp := rfl
@[simp] theorem State.emit_host (o : Out) : (s.emit o).host = s.host := rfl
@[simp] theorem State.emit_memc (o : Out) : (s.emit o).memc = s.memc := rfl
@[simp] theorem State.emit_moni (o : Out) : (s.emit o).moni = s.moni := rfl
@[simp] theorem State.emit_safe (o : Out) : (s.emit o).safe = s.safe := rfl
@[simp] theorem State.emit_mgmt (o : Out) : (s.emit o).mgmt = s.mgmt := rfl
@[simp] theorem State.emit_secu (o : Out) : (s.emit o).secu = s.secu := rfl
@[simp] theorem State.emit_chip (o : Out) : (s.emit o).chip = s.chip := rfl
@[simp] theorem State.emit_pending (o : Out) : (s.emit o).pending = s.pending := rfl

@[simp] theorem State.irq_io (n : Nat) : (s.irq n).io = s.io.irq n := rfl
@[simp] theorem State.irq_tbas (n : Nat) : (s.irq n).tbas = s.tbas := rfl
@[simp] theorem State.irq_scan (n : Nat) : (s.irq n).scan = s.scan := rfl
@[simp] theorem State.irq_emt (n : Nat) : (s.irq n).emt = s.emt := rfl
@[simp] theorem State.irq_lnk (n : Nat) : (s.irq n).lnk = s.lnk := rfl
@[simp] theorem State.irq_hst (n : Nat) : (s.irq n).hst = s.hst := rfl
@[simp] theorem State.irq_outp (n : Nat) : (s.irq n).outp = s.outp := rfl
@[simp] theorem State.irq_host (n : Nat) : (s.irq n).host = s.host := rfl
@[simp] theorem State.irq_memc (n : Nat) : (s.irq n).memc = s.memc := rfl
@[simp] theorem State.irq_moni (n : Nat) : (s.irq n).moni = s.moni := rfl
@[simp] theorem State.irq_safe (n : Nat) : (s.irq n).safe = s.safe := rfl
@[simp] theorem State.irq_mgmt (n : Nat) : (s.irq n).mgmt = s.mgmt := rfl
@[simp] theorem State.irq_secu (n : Nat) : (s.irq n).secu = s.secu := rfl
@[simp] theorem State.irq_chip (n : Nat) : (s.irq n).chip = s.chip := rfl
@[simp] theorem State.irq_pending (n : Nat) : (s.irq n).pending = s.pending := rfl

@[simp] theorem State.regionIrq_io (r : Nat) : (s.regionIrq r).io = s.io.regionIrq r := rfl
@[simp] theorem State.regionIrq_tbas (r : Nat) : (s.regionIrq r).tbas = s.tbas := rfl
@[simp] theorem State.regionIrq_scan (r : Nat) : (s.regionIrq r).scan = s.scan := rfl
@[simp] theorem State.regionIrq_emt (r : Nat) : (s.regionIrq r).emt = s.emt := rfl
@[simp] theorem State.regionIrq_lnk (r : Nat) : (s.regionIrq r).lnk = s.lnk := rfl
@[simp] theorem State.regionIrq_hst (r : Nat) : (s.regionIrq r).hst = s.hst := rfl
@[simp] theorem State.regionIrq_outp (r : Nat) : (s.regionIrq r).outp = s.outp := rfl
@[simp] theorem State.regionIrq_host (r : Nat) : (s.regionIrq r).host = s.host := rfl
@[simp] theorem State.regionIrq_memc (r : Nat) : (s.regionIrq r).memc = s.memc := rfl
@[simp] theorem State.regionIrq_moni (r : Nat) : (s.regionIrq r).moni = s.moni := rfl
@[simp] theorem State.regionIrq_safe (r : Nat) : (s.regionIrq r).safe = s.safe := rfl
@[simp] theorem State.regionIrq_mgmt (r : Nat) : (s.regionIrq r).mgmt = s.mgmt := rfl
@[simp] theorem State.regionIrq_secu (r : Nat) : (s.regionIrq r).secu = s.secu := rfl
@[simp] theorem State.regionIrq_chip (r : Nat) : (s.regionIrq r).chip = s.chip := rfl
@[simp] theorem State.regionIrq_pending (r : Nat) : (s.regionIrq r).pending = s.pending := rfl

@[simp] theorem State.count_io (r c i n : Nat) : (s.count r c i n).io = s.io.count r c i n := rfl
@[simp] theorem State.count_tbas (r c i n : Nat) : (s.count r c i n).tbas = s.tbas := rfl
@[simp] theorem State.count_scan (r c i n : Nat) : (s.count r c i n).scan = s.scan := rfl
@[simp] theorem State.count_emt (r c i n : Nat) : (s.count r c i n).emt = s.emt := rfl
@[simp] theorem State.count_lnk (r c i n : Nat) : (s.count r c i n).lnk = s.lnk := rfl
@[simp] theorem State.count_hst (r c i n : Nat) : (s.count r c i n).hst = s.hst := rfl
@[simp] theorem State.count_outp (r c i n : Nat) : (s.count r c i n).outp = s.outp := rfl
@[simp] theorem State.count_host (r c i n : Nat) : (s.count r c i n).host = s.host := rfl
@[simp] theorem State.count_memc (r c i n : Nat) : (s.count r c i n).memc = s.memc := rfl
@[simp] theorem State.count_moni (r c i n : Nat) : (s.count r c i n).moni = s.moni := rfl
@[simp] theorem State.count_safe (r c i n : Nat) : (s.count r c i n).safe = s.safe := rfl
@[simp] theorem State.count_mgmt (r c i n : Nat) : (s.count r c i n).mgmt = s.mgmt := rfl
@[simp] theorem State.count_secu (r c i n : Nat) : (s.count r c i n).secu = s.secu := rfl
@[simp] theorem State.count_chip (r c i n : Nat) : (s.count r c i n).chip = s.chip := rfl
@[simp] theorem State.count_pending (r c i n : Nat) : (s.count r c i n).pending = s.pending := rfl

@[simp] theorem State.err_io (e : Err) : (s.err e).io = s.io.err e := rfl
@[simp] theorem State.err_tbas (e : Err) : (s.err e).tbas = s.tbas := rfl
@[simp] theorem State.err_scan (e : Err) : (s.err e).scan = s.scan := rfl
@[simp] theorem State.err_emt (e : Err) : (s.err e).emt = s.emt := rfl
@[simp] theorem State.err_lnk (e : Err) : (s.err e).lnk = s.lnk := rfl
@[simp] theorem State.err_hst (e : Err) : (s.err e).hst = s.hst := rfl
@[simp] theorem State.err_outp (e : Err) : (s.err e).outp = s.outp := rfl
@[simp] theorem State.err_host (e : Err) : (s.err e).host = s.host := rfl
@[simp] theorem State.err_memc (e : Err) : (s.err e).memc = s.memc := rfl
@[simp] theorem State.err_moni (e : Err) : (s.err e).moni = s.moni := rfl
@[simp] theorem State.err_safe (e : Err) : (s.err e).safe = s.safe := rfl
@[simp] theorem State.err_mgmt (e : Err) : (s.err e).mgmt = s.mgmt := rfl
@[simp] theorem State.err_secu (e : Err) : (s.err e).secu = s.secu := rfl
@[simp] theorem State.err_chip (e : Err) : (s.err e).chip = s.chip := rfl
@[simp] theorem State.err_pending (e : Err) : (s.err e).pending = s.pending := rfl

@[simp] theorem State.setBit_io (f : Field) (b : Bool) : (s.setBit f b).io = s.io.set f (if b then 1 else 0) := rfl
@[simp] theorem State.setBit_tbas (f : Field) (b : Bool) : (s.setBit f b).tbas = s.tbas := rfl
@[simp] theorem State.setBit_scan (f : Field) (b : Bool) : (s.setBit f b).scan = s.scan := rfl
@[simp] theorem State.setBit_emt (f : Field) (b : Bool) : (s.setBit f b).emt = s.emt := rfl
@[simp] theorem State.setBit_lnk (f : Field) (b : Bool) : (s.setBit f b).lnk = s.lnk := rfl
@[simp] theorem State.setBit_hst (f : Field) (b : Bool) : (s.setBit f b).hst = s.hst := rfl
@[simp] theorem State.setBit_outp (f : Field) (b : Bool) : (s.setBit f b).outp = s.outp := rfl
@[simp] theorem State.setBit_host (f : Field) (b : Bool) : (s.setBit f b).host = s.host := rfl
@[simp] theorem State.setBit_memc (f : Field) (b : Bool) : (s.setBit f b).memc = s.memc := rfl
@[simp] theorem State.setBit_moni (f : Field) (b : Bool) : (s.setBit f b).moni = s.moni := rfl
@[simp] theorem State.setBit_safe (f : Field) (b : Bool) : (s.setBit f b).safe = s.safe := rfl
@[simp] theorem State.setBit_mgmt (f : Field) (b : Bool) : (s.setBit f b).mgmt = s.mgmt := rfl
@[simp] theorem State.setBit_secu (f : Field) (b : Bool) : (s.setBit f b).secu = s.secu := rfl
@[simp] theorem State.setBit_chip (f : Field) (b : Bool) : (s.setBit f b).chip = s.chip := rfl
@[simp] theorem State.setBit_pending (f : Field) (b : Bool) : (s.setBit f b).pending = s.pending := rfl

@[simp] theorem State.bump_io (f : Field) (n : Nat) : (s.bump f n).io = s.io.set f (s.get f + n) := rfl
@[simp] theorem State.bump_tbas (f : Field) (n : Nat) : (s.bump f n).tbas = s.tbas := rfl
@[simp] theorem State.bump_scan (f : Field) (n : Nat) : (s.bump f n).scan = s.scan := rfl
@[simp] theorem State.bump_emt (f : Field) (n : Nat) : (s.bump f n).emt = s.emt := rfl
@[simp] theorem State.bump_lnk (f : Field) (n : Nat) : (s.bump f n).lnk = s.lnk := rfl
@[simp] theorem State.bump_hst (f : Field) (n : Nat) : (s.bump f n).hst = s.hst := rfl
@[simp] theorem State.bump_outp (f : Field) (n : Nat) : (s.bump f n).outp = s.outp := rfl
@[simp] theorem State.bump_host (f : Field) (n : Nat) : (s.bump f n).host = s.host := rfl
@[simp] theorem State.bump_memc (f : Field) (n : Nat) : (s.bump f n).memc = s.memc := rfl
@[simp] theorem State.bump_moni (f : Field) (n : Nat) : (s.bump f n).moni = s.moni := rfl
@[simp] theorem State.bump_safe (f : Field) (n : Nat) : (s.bump f n).safe = s.safe := rfl
@[simp] theorem State.bump_mgmt (f : Field) (n : Nat) : (s.bump f n).mgmt = s.mgmt := rfl
@[simp] theorem State.bump_secu (f : Field) (n : Nat) : (s.bump f n).secu = s.secu := rfl
@[simp] theorem State.bump_chip (f : Field) (n : Nat) : (s.bump f n).chip = s.chip := rfl
@[simp] theorem State.bump_pending (f : Field) (n : Nat) : (s.bump f n).pending = s.pending := rfl

@[simp] theorem State.bumpSat_io (f : Field) (n : Nat) : (s.bumpSat f n).io = s.io.set f (min (s.get f + n) (2 ^ (f.hi - f.lo + 1) - 1)) := rfl
@[simp] theorem State.bumpSat_tbas (f : Field) (n : Nat) : (s.bumpSat f n).tbas = s.tbas := rfl
@[simp] theorem State.bumpSat_scan (f : Field) (n : Nat) : (s.bumpSat f n).scan = s.scan := rfl
@[simp] theorem State.bumpSat_emt (f : Field) (n : Nat) : (s.bumpSat f n).emt = s.emt := rfl
@[simp] theorem State.bumpSat_lnk (f : Field) (n : Nat) : (s.bumpSat f n).lnk = s.lnk := rfl
@[simp] theorem State.bumpSat_hst (f : Field) (n : Nat) : (s.bumpSat f n).hst = s.hst := rfl
@[simp] theorem State.bumpSat_outp (f : Field) (n : Nat) : (s.bumpSat f n).outp = s.outp := rfl
@[simp] theorem State.bumpSat_host (f : Field) (n : Nat) : (s.bumpSat f n).host = s.host := rfl
@[simp] theorem State.bumpSat_memc (f : Field) (n : Nat) : (s.bumpSat f n).memc = s.memc := rfl
@[simp] theorem State.bumpSat_moni (f : Field) (n : Nat) : (s.bumpSat f n).moni = s.moni := rfl
@[simp] theorem State.bumpSat_safe (f : Field) (n : Nat) : (s.bumpSat f n).safe = s.safe := rfl
@[simp] theorem State.bumpSat_mgmt (f : Field) (n : Nat) : (s.bumpSat f n).mgmt = s.mgmt := rfl
@[simp] theorem State.bumpSat_secu (f : Field) (n : Nat) : (s.bumpSat f n).secu = s.secu := rfl
@[simp] theorem State.bumpSat_chip (f : Field) (n : Nat) : (s.bumpSat f n).chip = s.chip := rfl
@[simp] theorem State.bumpSat_pending (f : Field) (n : Nat) : (s.bumpSat f n).pending = s.pending := rfl

@[simp] theorem State.reach_io (t : Wide) : (s.reach t).io = if before s.io.tick t then { s.io with tick := s.shownAt t } else s.io := rfl
@[simp] theorem State.reach_tbas (t : Wide) : (s.reach t).tbas = s.tbas := rfl
@[simp] theorem State.reach_scan (t : Wide) : (s.reach t).scan = s.scan := rfl
@[simp] theorem State.reach_emt (t : Wide) : (s.reach t).emt = s.emt := rfl
@[simp] theorem State.reach_lnk (t : Wide) : (s.reach t).lnk = s.lnk := rfl
@[simp] theorem State.reach_hst (t : Wide) : (s.reach t).hst = s.hst := rfl
@[simp] theorem State.reach_outp (t : Wide) : (s.reach t).outp = s.outp := rfl
@[simp] theorem State.reach_host (t : Wide) : (s.reach t).host = s.host := rfl
@[simp] theorem State.reach_memc (t : Wide) : (s.reach t).memc = s.memc := rfl
@[simp] theorem State.reach_moni (t : Wide) : (s.reach t).moni = s.moni := rfl
@[simp] theorem State.reach_safe (t : Wide) : (s.reach t).safe = s.safe := rfl
@[simp] theorem State.reach_mgmt (t : Wide) : (s.reach t).mgmt = s.mgmt := rfl
@[simp] theorem State.reach_secu (t : Wide) : (s.reach t).secu = s.secu := rfl
@[simp] theorem State.reach_chip (t : Wide) : (s.reach t).chip = s.chip := rfl
@[simp] theorem State.reach_pending (t : Wide) : (s.reach t).pending = s.pending := rfl

/-! ## The regions -/

@[simp] theorem State.tbas_upd_io (f : Tbas → Tbas) : (s.tbas' f).io = s.io := rfl
@[simp] theorem State.tbas_upd_tbas (f : Tbas → Tbas) : (s.tbas' f).tbas = f s.tbas := rfl
@[simp] theorem State.tbas_upd_scan (f : Tbas → Tbas) : (s.tbas' f).scan = s.scan := rfl
@[simp] theorem State.tbas_upd_emt (f : Tbas → Tbas) : (s.tbas' f).emt = s.emt := rfl
@[simp] theorem State.tbas_upd_lnk (f : Tbas → Tbas) : (s.tbas' f).lnk = s.lnk := rfl
@[simp] theorem State.tbas_upd_hst (f : Tbas → Tbas) : (s.tbas' f).hst = s.hst := rfl
@[simp] theorem State.tbas_upd_outp (f : Tbas → Tbas) : (s.tbas' f).outp = s.outp := rfl
@[simp] theorem State.tbas_upd_host (f : Tbas → Tbas) : (s.tbas' f).host = s.host := rfl
@[simp] theorem State.tbas_upd_memc (f : Tbas → Tbas) : (s.tbas' f).memc = s.memc := rfl
@[simp] theorem State.tbas_upd_moni (f : Tbas → Tbas) : (s.tbas' f).moni = s.moni := rfl
@[simp] theorem State.tbas_upd_safe (f : Tbas → Tbas) : (s.tbas' f).safe = s.safe := rfl
@[simp] theorem State.tbas_upd_mgmt (f : Tbas → Tbas) : (s.tbas' f).mgmt = s.mgmt := rfl
@[simp] theorem State.tbas_upd_secu (f : Tbas → Tbas) : (s.tbas' f).secu = s.secu := rfl
@[simp] theorem State.tbas_upd_chip (f : Tbas → Tbas) : (s.tbas' f).chip = s.chip := rfl
@[simp] theorem State.tbas_upd_pending (f : Tbas → Tbas) : (s.tbas' f).pending = s.pending := rfl

@[simp] theorem State.scan_upd_io (f : Scan → Scan) : (s.scan' f).io = s.io := rfl
@[simp] theorem State.scan_upd_tbas (f : Scan → Scan) : (s.scan' f).tbas = s.tbas := rfl
@[simp] theorem State.scan_upd_scan (f : Scan → Scan) : (s.scan' f).scan = f s.scan := rfl
@[simp] theorem State.scan_upd_emt (f : Scan → Scan) : (s.scan' f).emt = s.emt := rfl
@[simp] theorem State.scan_upd_lnk (f : Scan → Scan) : (s.scan' f).lnk = s.lnk := rfl
@[simp] theorem State.scan_upd_hst (f : Scan → Scan) : (s.scan' f).hst = s.hst := rfl
@[simp] theorem State.scan_upd_outp (f : Scan → Scan) : (s.scan' f).outp = s.outp := rfl
@[simp] theorem State.scan_upd_host (f : Scan → Scan) : (s.scan' f).host = s.host := rfl
@[simp] theorem State.scan_upd_memc (f : Scan → Scan) : (s.scan' f).memc = s.memc := rfl
@[simp] theorem State.scan_upd_moni (f : Scan → Scan) : (s.scan' f).moni = s.moni := rfl
@[simp] theorem State.scan_upd_safe (f : Scan → Scan) : (s.scan' f).safe = s.safe := rfl
@[simp] theorem State.scan_upd_mgmt (f : Scan → Scan) : (s.scan' f).mgmt = s.mgmt := rfl
@[simp] theorem State.scan_upd_secu (f : Scan → Scan) : (s.scan' f).secu = s.secu := rfl
@[simp] theorem State.scan_upd_chip (f : Scan → Scan) : (s.scan' f).chip = s.chip := rfl
@[simp] theorem State.scan_upd_pending (f : Scan → Scan) : (s.scan' f).pending = s.pending := rfl

@[simp] theorem State.emit_upd_io (f : Emit → Emit) : (s.emit' f).io = s.io := rfl
@[simp] theorem State.emit_upd_tbas (f : Emit → Emit) : (s.emit' f).tbas = s.tbas := rfl
@[simp] theorem State.emit_upd_scan (f : Emit → Emit) : (s.emit' f).scan = s.scan := rfl
@[simp] theorem State.emit_upd_emt (f : Emit → Emit) : (s.emit' f).emt = f s.emt := rfl
@[simp] theorem State.emit_upd_lnk (f : Emit → Emit) : (s.emit' f).lnk = s.lnk := rfl
@[simp] theorem State.emit_upd_hst (f : Emit → Emit) : (s.emit' f).hst = s.hst := rfl
@[simp] theorem State.emit_upd_outp (f : Emit → Emit) : (s.emit' f).outp = s.outp := rfl
@[simp] theorem State.emit_upd_host (f : Emit → Emit) : (s.emit' f).host = s.host := rfl
@[simp] theorem State.emit_upd_memc (f : Emit → Emit) : (s.emit' f).memc = s.memc := rfl
@[simp] theorem State.emit_upd_moni (f : Emit → Emit) : (s.emit' f).moni = s.moni := rfl
@[simp] theorem State.emit_upd_safe (f : Emit → Emit) : (s.emit' f).safe = s.safe := rfl
@[simp] theorem State.emit_upd_mgmt (f : Emit → Emit) : (s.emit' f).mgmt = s.mgmt := rfl
@[simp] theorem State.emit_upd_secu (f : Emit → Emit) : (s.emit' f).secu = s.secu := rfl
@[simp] theorem State.emit_upd_chip (f : Emit → Emit) : (s.emit' f).chip = s.chip := rfl
@[simp] theorem State.emit_upd_pending (f : Emit → Emit) : (s.emit' f).pending = s.pending := rfl

@[simp] theorem State.lnk_upd_io (f : Lnk → Lnk) : (s.lnk' f).io = s.io := rfl
@[simp] theorem State.lnk_upd_tbas (f : Lnk → Lnk) : (s.lnk' f).tbas = s.tbas := rfl
@[simp] theorem State.lnk_upd_scan (f : Lnk → Lnk) : (s.lnk' f).scan = s.scan := rfl
@[simp] theorem State.lnk_upd_emt (f : Lnk → Lnk) : (s.lnk' f).emt = s.emt := rfl
@[simp] theorem State.lnk_upd_lnk (f : Lnk → Lnk) : (s.lnk' f).lnk = f s.lnk := rfl
@[simp] theorem State.lnk_upd_hst (f : Lnk → Lnk) : (s.lnk' f).hst = s.hst := rfl
@[simp] theorem State.lnk_upd_outp (f : Lnk → Lnk) : (s.lnk' f).outp = s.outp := rfl
@[simp] theorem State.lnk_upd_host (f : Lnk → Lnk) : (s.lnk' f).host = s.host := rfl
@[simp] theorem State.lnk_upd_memc (f : Lnk → Lnk) : (s.lnk' f).memc = s.memc := rfl
@[simp] theorem State.lnk_upd_moni (f : Lnk → Lnk) : (s.lnk' f).moni = s.moni := rfl
@[simp] theorem State.lnk_upd_safe (f : Lnk → Lnk) : (s.lnk' f).safe = s.safe := rfl
@[simp] theorem State.lnk_upd_mgmt (f : Lnk → Lnk) : (s.lnk' f).mgmt = s.mgmt := rfl
@[simp] theorem State.lnk_upd_secu (f : Lnk → Lnk) : (s.lnk' f).secu = s.secu := rfl
@[simp] theorem State.lnk_upd_chip (f : Lnk → Lnk) : (s.lnk' f).chip = s.chip := rfl
@[simp] theorem State.lnk_upd_pending (f : Lnk → Lnk) : (s.lnk' f).pending = s.pending := rfl

@[simp] theorem State.hst_upd_io (f : Hst → Hst) : (s.hst' f).io = s.io := rfl
@[simp] theorem State.hst_upd_tbas (f : Hst → Hst) : (s.hst' f).tbas = s.tbas := rfl
@[simp] theorem State.hst_upd_scan (f : Hst → Hst) : (s.hst' f).scan = s.scan := rfl
@[simp] theorem State.hst_upd_emt (f : Hst → Hst) : (s.hst' f).emt = s.emt := rfl
@[simp] theorem State.hst_upd_lnk (f : Hst → Hst) : (s.hst' f).lnk = s.lnk := rfl
@[simp] theorem State.hst_upd_hst (f : Hst → Hst) : (s.hst' f).hst = f s.hst := rfl
@[simp] theorem State.hst_upd_outp (f : Hst → Hst) : (s.hst' f).outp = s.outp := rfl
@[simp] theorem State.hst_upd_host (f : Hst → Hst) : (s.hst' f).host = s.host := rfl
@[simp] theorem State.hst_upd_memc (f : Hst → Hst) : (s.hst' f).memc = s.memc := rfl
@[simp] theorem State.hst_upd_moni (f : Hst → Hst) : (s.hst' f).moni = s.moni := rfl
@[simp] theorem State.hst_upd_safe (f : Hst → Hst) : (s.hst' f).safe = s.safe := rfl
@[simp] theorem State.hst_upd_mgmt (f : Hst → Hst) : (s.hst' f).mgmt = s.mgmt := rfl
@[simp] theorem State.hst_upd_secu (f : Hst → Hst) : (s.hst' f).secu = s.secu := rfl
@[simp] theorem State.hst_upd_chip (f : Hst → Hst) : (s.hst' f).chip = s.chip := rfl
@[simp] theorem State.hst_upd_pending (f : Hst → Hst) : (s.hst' f).pending = s.pending := rfl

@[simp] theorem State.outp_upd_io (f : Outp → Outp) : (s.outp' f).io = s.io := rfl
@[simp] theorem State.outp_upd_tbas (f : Outp → Outp) : (s.outp' f).tbas = s.tbas := rfl
@[simp] theorem State.outp_upd_scan (f : Outp → Outp) : (s.outp' f).scan = s.scan := rfl
@[simp] theorem State.outp_upd_emt (f : Outp → Outp) : (s.outp' f).emt = s.emt := rfl
@[simp] theorem State.outp_upd_lnk (f : Outp → Outp) : (s.outp' f).lnk = s.lnk := rfl
@[simp] theorem State.outp_upd_hst (f : Outp → Outp) : (s.outp' f).hst = s.hst := rfl
@[simp] theorem State.outp_upd_outp (f : Outp → Outp) : (s.outp' f).outp = f s.outp := rfl
@[simp] theorem State.outp_upd_host (f : Outp → Outp) : (s.outp' f).host = s.host := rfl
@[simp] theorem State.outp_upd_memc (f : Outp → Outp) : (s.outp' f).memc = s.memc := rfl
@[simp] theorem State.outp_upd_moni (f : Outp → Outp) : (s.outp' f).moni = s.moni := rfl
@[simp] theorem State.outp_upd_safe (f : Outp → Outp) : (s.outp' f).safe = s.safe := rfl
@[simp] theorem State.outp_upd_mgmt (f : Outp → Outp) : (s.outp' f).mgmt = s.mgmt := rfl
@[simp] theorem State.outp_upd_secu (f : Outp → Outp) : (s.outp' f).secu = s.secu := rfl
@[simp] theorem State.outp_upd_chip (f : Outp → Outp) : (s.outp' f).chip = s.chip := rfl
@[simp] theorem State.outp_upd_pending (f : Outp → Outp) : (s.outp' f).pending = s.pending := rfl

@[simp] theorem State.host_upd_io (f : HostIf → HostIf) : (s.host' f).io = s.io := rfl
@[simp] theorem State.host_upd_tbas (f : HostIf → HostIf) : (s.host' f).tbas = s.tbas := rfl
@[simp] theorem State.host_upd_scan (f : HostIf → HostIf) : (s.host' f).scan = s.scan := rfl
@[simp] theorem State.host_upd_emt (f : HostIf → HostIf) : (s.host' f).emt = s.emt := rfl
@[simp] theorem State.host_upd_lnk (f : HostIf → HostIf) : (s.host' f).lnk = s.lnk := rfl
@[simp] theorem State.host_upd_hst (f : HostIf → HostIf) : (s.host' f).hst = s.hst := rfl
@[simp] theorem State.host_upd_outp (f : HostIf → HostIf) : (s.host' f).outp = s.outp := rfl
@[simp] theorem State.host_upd_host (f : HostIf → HostIf) : (s.host' f).host = f s.host := rfl
@[simp] theorem State.host_upd_memc (f : HostIf → HostIf) : (s.host' f).memc = s.memc := rfl
@[simp] theorem State.host_upd_moni (f : HostIf → HostIf) : (s.host' f).moni = s.moni := rfl
@[simp] theorem State.host_upd_safe (f : HostIf → HostIf) : (s.host' f).safe = s.safe := rfl
@[simp] theorem State.host_upd_mgmt (f : HostIf → HostIf) : (s.host' f).mgmt = s.mgmt := rfl
@[simp] theorem State.host_upd_secu (f : HostIf → HostIf) : (s.host' f).secu = s.secu := rfl
@[simp] theorem State.host_upd_chip (f : HostIf → HostIf) : (s.host' f).chip = s.chip := rfl
@[simp] theorem State.host_upd_pending (f : HostIf → HostIf) : (s.host' f).pending = s.pending := rfl

@[simp] theorem State.memc_upd_io (f : Memc → Memc) : (s.memc' f).io = s.io := rfl
@[simp] theorem State.memc_upd_tbas (f : Memc → Memc) : (s.memc' f).tbas = s.tbas := rfl
@[simp] theorem State.memc_upd_scan (f : Memc → Memc) : (s.memc' f).scan = s.scan := rfl
@[simp] theorem State.memc_upd_emt (f : Memc → Memc) : (s.memc' f).emt = s.emt := rfl
@[simp] theorem State.memc_upd_lnk (f : Memc → Memc) : (s.memc' f).lnk = s.lnk := rfl
@[simp] theorem State.memc_upd_hst (f : Memc → Memc) : (s.memc' f).hst = s.hst := rfl
@[simp] theorem State.memc_upd_outp (f : Memc → Memc) : (s.memc' f).outp = s.outp := rfl
@[simp] theorem State.memc_upd_host (f : Memc → Memc) : (s.memc' f).host = s.host := rfl
@[simp] theorem State.memc_upd_memc (f : Memc → Memc) : (s.memc' f).memc = f s.memc := rfl
@[simp] theorem State.memc_upd_moni (f : Memc → Memc) : (s.memc' f).moni = s.moni := rfl
@[simp] theorem State.memc_upd_safe (f : Memc → Memc) : (s.memc' f).safe = s.safe := rfl
@[simp] theorem State.memc_upd_mgmt (f : Memc → Memc) : (s.memc' f).mgmt = s.mgmt := rfl
@[simp] theorem State.memc_upd_secu (f : Memc → Memc) : (s.memc' f).secu = s.secu := rfl
@[simp] theorem State.memc_upd_chip (f : Memc → Memc) : (s.memc' f).chip = s.chip := rfl
@[simp] theorem State.memc_upd_pending (f : Memc → Memc) : (s.memc' f).pending = s.pending := rfl

@[simp] theorem State.moni_upd_io (f : Moni → Moni) : (s.moni' f).io = s.io := rfl
@[simp] theorem State.moni_upd_tbas (f : Moni → Moni) : (s.moni' f).tbas = s.tbas := rfl
@[simp] theorem State.moni_upd_scan (f : Moni → Moni) : (s.moni' f).scan = s.scan := rfl
@[simp] theorem State.moni_upd_emt (f : Moni → Moni) : (s.moni' f).emt = s.emt := rfl
@[simp] theorem State.moni_upd_lnk (f : Moni → Moni) : (s.moni' f).lnk = s.lnk := rfl
@[simp] theorem State.moni_upd_hst (f : Moni → Moni) : (s.moni' f).hst = s.hst := rfl
@[simp] theorem State.moni_upd_outp (f : Moni → Moni) : (s.moni' f).outp = s.outp := rfl
@[simp] theorem State.moni_upd_host (f : Moni → Moni) : (s.moni' f).host = s.host := rfl
@[simp] theorem State.moni_upd_memc (f : Moni → Moni) : (s.moni' f).memc = s.memc := rfl
@[simp] theorem State.moni_upd_moni (f : Moni → Moni) : (s.moni' f).moni = f s.moni := rfl
@[simp] theorem State.moni_upd_safe (f : Moni → Moni) : (s.moni' f).safe = s.safe := rfl
@[simp] theorem State.moni_upd_mgmt (f : Moni → Moni) : (s.moni' f).mgmt = s.mgmt := rfl
@[simp] theorem State.moni_upd_secu (f : Moni → Moni) : (s.moni' f).secu = s.secu := rfl
@[simp] theorem State.moni_upd_chip (f : Moni → Moni) : (s.moni' f).chip = s.chip := rfl
@[simp] theorem State.moni_upd_pending (f : Moni → Moni) : (s.moni' f).pending = s.pending := rfl

@[simp] theorem State.safe_upd_io (f : Safe → Safe) : (s.safe' f).io = s.io := rfl
@[simp] theorem State.safe_upd_tbas (f : Safe → Safe) : (s.safe' f).tbas = s.tbas := rfl
@[simp] theorem State.safe_upd_scan (f : Safe → Safe) : (s.safe' f).scan = s.scan := rfl
@[simp] theorem State.safe_upd_emt (f : Safe → Safe) : (s.safe' f).emt = s.emt := rfl
@[simp] theorem State.safe_upd_lnk (f : Safe → Safe) : (s.safe' f).lnk = s.lnk := rfl
@[simp] theorem State.safe_upd_hst (f : Safe → Safe) : (s.safe' f).hst = s.hst := rfl
@[simp] theorem State.safe_upd_outp (f : Safe → Safe) : (s.safe' f).outp = s.outp := rfl
@[simp] theorem State.safe_upd_host (f : Safe → Safe) : (s.safe' f).host = s.host := rfl
@[simp] theorem State.safe_upd_memc (f : Safe → Safe) : (s.safe' f).memc = s.memc := rfl
@[simp] theorem State.safe_upd_moni (f : Safe → Safe) : (s.safe' f).moni = s.moni := rfl
@[simp] theorem State.safe_upd_safe (f : Safe → Safe) : (s.safe' f).safe = f s.safe := rfl
@[simp] theorem State.safe_upd_mgmt (f : Safe → Safe) : (s.safe' f).mgmt = s.mgmt := rfl
@[simp] theorem State.safe_upd_secu (f : Safe → Safe) : (s.safe' f).secu = s.secu := rfl
@[simp] theorem State.safe_upd_chip (f : Safe → Safe) : (s.safe' f).chip = s.chip := rfl
@[simp] theorem State.safe_upd_pending (f : Safe → Safe) : (s.safe' f).pending = s.pending := rfl

@[simp] theorem State.mgmt_upd_io (f : Mgmt → Mgmt) : (s.mgmt' f).io = s.io := rfl
@[simp] theorem State.mgmt_upd_tbas (f : Mgmt → Mgmt) : (s.mgmt' f).tbas = s.tbas := rfl
@[simp] theorem State.mgmt_upd_scan (f : Mgmt → Mgmt) : (s.mgmt' f).scan = s.scan := rfl
@[simp] theorem State.mgmt_upd_emt (f : Mgmt → Mgmt) : (s.mgmt' f).emt = s.emt := rfl
@[simp] theorem State.mgmt_upd_lnk (f : Mgmt → Mgmt) : (s.mgmt' f).lnk = s.lnk := rfl
@[simp] theorem State.mgmt_upd_hst (f : Mgmt → Mgmt) : (s.mgmt' f).hst = s.hst := rfl
@[simp] theorem State.mgmt_upd_outp (f : Mgmt → Mgmt) : (s.mgmt' f).outp = s.outp := rfl
@[simp] theorem State.mgmt_upd_host (f : Mgmt → Mgmt) : (s.mgmt' f).host = s.host := rfl
@[simp] theorem State.mgmt_upd_memc (f : Mgmt → Mgmt) : (s.mgmt' f).memc = s.memc := rfl
@[simp] theorem State.mgmt_upd_moni (f : Mgmt → Mgmt) : (s.mgmt' f).moni = s.moni := rfl
@[simp] theorem State.mgmt_upd_safe (f : Mgmt → Mgmt) : (s.mgmt' f).safe = s.safe := rfl
@[simp] theorem State.mgmt_upd_mgmt (f : Mgmt → Mgmt) : (s.mgmt' f).mgmt = f s.mgmt := rfl
@[simp] theorem State.mgmt_upd_secu (f : Mgmt → Mgmt) : (s.mgmt' f).secu = s.secu := rfl
@[simp] theorem State.mgmt_upd_chip (f : Mgmt → Mgmt) : (s.mgmt' f).chip = s.chip := rfl
@[simp] theorem State.mgmt_upd_pending (f : Mgmt → Mgmt) : (s.mgmt' f).pending = s.pending := rfl

@[simp] theorem State.secu_upd_io (f : Secu → Secu) : (s.secu' f).io = s.io := rfl
@[simp] theorem State.secu_upd_tbas (f : Secu → Secu) : (s.secu' f).tbas = s.tbas := rfl
@[simp] theorem State.secu_upd_scan (f : Secu → Secu) : (s.secu' f).scan = s.scan := rfl
@[simp] theorem State.secu_upd_emt (f : Secu → Secu) : (s.secu' f).emt = s.emt := rfl
@[simp] theorem State.secu_upd_lnk (f : Secu → Secu) : (s.secu' f).lnk = s.lnk := rfl
@[simp] theorem State.secu_upd_hst (f : Secu → Secu) : (s.secu' f).hst = s.hst := rfl
@[simp] theorem State.secu_upd_outp (f : Secu → Secu) : (s.secu' f).outp = s.outp := rfl
@[simp] theorem State.secu_upd_host (f : Secu → Secu) : (s.secu' f).host = s.host := rfl
@[simp] theorem State.secu_upd_memc (f : Secu → Secu) : (s.secu' f).memc = s.memc := rfl
@[simp] theorem State.secu_upd_moni (f : Secu → Secu) : (s.secu' f).moni = s.moni := rfl
@[simp] theorem State.secu_upd_safe (f : Secu → Secu) : (s.secu' f).safe = s.safe := rfl
@[simp] theorem State.secu_upd_mgmt (f : Secu → Secu) : (s.secu' f).mgmt = s.mgmt := rfl
@[simp] theorem State.secu_upd_secu (f : Secu → Secu) : (s.secu' f).secu = f s.secu := rfl
@[simp] theorem State.secu_upd_chip (f : Secu → Secu) : (s.secu' f).chip = s.chip := rfl
@[simp] theorem State.secu_upd_pending (f : Secu → Secu) : (s.secu' f).pending = s.pending := rfl

@[simp] theorem State.chip_upd_io (f : Chip → Chip) : (s.chip' f).io = s.io := rfl
@[simp] theorem State.chip_upd_tbas (f : Chip → Chip) : (s.chip' f).tbas = s.tbas := rfl
@[simp] theorem State.chip_upd_scan (f : Chip → Chip) : (s.chip' f).scan = s.scan := rfl
@[simp] theorem State.chip_upd_emt (f : Chip → Chip) : (s.chip' f).emt = s.emt := rfl
@[simp] theorem State.chip_upd_lnk (f : Chip → Chip) : (s.chip' f).lnk = s.lnk := rfl
@[simp] theorem State.chip_upd_hst (f : Chip → Chip) : (s.chip' f).hst = s.hst := rfl
@[simp] theorem State.chip_upd_outp (f : Chip → Chip) : (s.chip' f).outp = s.outp := rfl
@[simp] theorem State.chip_upd_host (f : Chip → Chip) : (s.chip' f).host = s.host := rfl
@[simp] theorem State.chip_upd_memc (f : Chip → Chip) : (s.chip' f).memc = s.memc := rfl
@[simp] theorem State.chip_upd_moni (f : Chip → Chip) : (s.chip' f).moni = s.moni := rfl
@[simp] theorem State.chip_upd_safe (f : Chip → Chip) : (s.chip' f).safe = s.safe := rfl
@[simp] theorem State.chip_upd_mgmt (f : Chip → Chip) : (s.chip' f).mgmt = s.mgmt := rfl
@[simp] theorem State.chip_upd_secu (f : Chip → Chip) : (s.chip' f).secu = s.secu := rfl
@[simp] theorem State.chip_upd_chip (f : Chip → Chip) : (s.chip' f).chip = f s.chip := rfl
@[simp] theorem State.chip_upd_pending (f : Chip → Chip) : (s.chip' f).pending = s.pending := rfl

/-! ## Conditional and repeated updates -/

@[simp] theorem State.onlyIf_true (f : State → State) : s.onlyIf true f = f s := rfl
@[simp] theorem State.onlyIf_false (f : State → State) : s.onlyIf false f = s := rfl
@[simp] theorem State.each_nil {α : Type} (f : α → State → State) : s.each [] f = s := rfl
@[simp] theorem State.each_cons {α : Type} (x : α) (l : List α) (f : α → State → State) :
    s.each (x :: l) f = (f x s).each l f := rfl

end Sys2Proof.Machine
end

