-- ==== Sys2Proof/Laws/Store.lean ====
section
/-!
SUPPORT. The laws of the sparse tables and of register fields: a read after a write, the canonical form kept, a field
replaced without touching its neighbours.
-/
namespace Sys2Proof.Machine

variable {β : Type}

/-! ## Tables -/

theorem look_filter_same (m : SMap β) (k : Nat) : look (del m k) k = none := by
  induction m with
  | nil => rfl
  | cons e m ih =>
    by_cases h : e.1 = k
    · simpa [del, h] using ih
    · simpa [del, h, look] using ih

theorem look_filter_other (m : SMap β) {j k : Nat} (h : j ≠ k) : look (del m k) j = look m j := by
  induction m with
  | nil => rfl
  | cons e m ih =>
    obtain ⟨a, b⟩ := e
    by_cases ha : a = k
    · subst ha
      simpa [del, look, Ne.symm h] using ih
    · simp only [del, List.filter_cons, bne_iff_ne, ne_eq, ha, not_false_eq_true, if_true, look]
      split
      · rfl
      · exact ih

theorem look_ins_same (m : SMap β) (k : Nat) (v : β) : look (ins m k v) k = some v := by
  induction m with
  | nil => simp [ins, look]
  | cons e m ih =>
    obtain ⟨a, b⟩ := e
    simp only [ins]
    split
    · simp [look]
    · split
      · simp [look]
      · simp [look, *]

theorem look_ins_other (m : SMap β) {j k : Nat} (v : β) (h : j ≠ k) : look (ins m k v) j = look m j := by
  induction m with
  | nil => simp [ins, look, Ne.symm h]
  | cons e m ih =>
    obtain ⟨a, b⟩ := e
    simp only [ins]
    split
    · simp [look, Ne.symm h]
    · split
      · rename_i ha; subst ha
        simp [look, Ne.symm h]
      · simp only [look, ih]

/-- A read after a write of the same key gives the value written. -/
theorem rd_wr_same [DecidableEq β] (d : Nat → β) (m : SMap β) (k : Nat) (v : β) : rd d (wr d m k v) k = v := by
  unfold rd wr
  split
  · simp [look_filter_same, *]
  · simp [look_ins_same]

/-- A write leaves every other key alone. -/
theorem rd_wr_other [DecidableEq β] (d : Nat → β) (m : SMap β) {j k : Nat} (v : β) (h : j ≠ k) :
    rd d (wr d m k v) j = rd d m j := by
  unfold rd wr
  split
  · rw [look_filter_other m h]
  · rw [look_ins_other m v h]

theorem risesFrom_mono {m : SMap β} : ∀ {j k : Nat}, j ≤ k → risesFrom k m = true → risesFrom j m = true := by
  cases m with
  | nil => intros; rfl
  | cons e m =>
    obtain ⟨a, b⟩ := e
    intro j k h
    simp only [risesFrom, Bool.and_eq_true, decide_eq_true_eq]
    exact fun ⟨x, y⟩ => ⟨le_trans h x, y⟩

theorem risesFrom_filter (p : Nat × β → Bool) {m : SMap β} :
    ∀ {k : Nat}, risesFrom k m = true → risesFrom k (m.filter p) = true := by
  induction m with
  | nil => intros; rfl
  | cons e m ih =>
    obtain ⟨a, b⟩ := e
    intro k
    simp only [risesFrom, Bool.and_eq_true, decide_eq_true_eq, List.filter_cons]
    rintro ⟨x, y⟩
    split
    · simp [risesFrom, x, ih y]
    · exact risesFrom_mono (by omega) (ih y)

theorem risesFrom_ins (v : β) {m : SMap β} :
    ∀ {j k : Nat}, j ≤ k → risesFrom j m = true → risesFrom j (ins m k v) = true := by
  induction m with
  | nil => intro j k h _; simp [ins, risesFrom, h]
  | cons e m ih =>
    obtain ⟨a, b⟩ := e
    intro j k h
    simp only [risesFrom, Bool.and_eq_true, decide_eq_true_eq, ins]
    rintro ⟨x, y⟩
    split
    · rename_i hk; simp [risesFrom, h, y, Nat.succ_le_of_lt hk]
    · split
      · rename_i ha; subst ha; simp [risesFrom, h, y]
      · simp only [risesFrom, Bool.and_eq_true, decide_eq_true_eq]
        exact ⟨x, ih (by omega) y⟩

theorem canonical_nil [DecidableEq β] (d : Nat → β) : canonical d [] = true := rfl

theorem canonical_filter [DecidableEq β] {d : Nat → β} {m : SMap β} (p : Nat × β → Bool) (h : canonical d m = true) :
    canonical d (m.filter p) = true := by
  simp only [canonical, Bool.and_eq_true, List.all_eq_true] at *
  exact ⟨risesFrom_filter p h.1, fun e he => h.2 e (List.mem_filter.1 he).1⟩

theorem mem_ins {m : SMap β} {k : Nat} {v : β} {e : Nat × β} (h : e ∈ ins m k v) : e = (k, v) ∨ e ∈ m := by
  induction m with
  | nil => simpa [ins] using h
  | cons c m ih =>
    obtain ⟨a, b⟩ := c
    simp only [ins] at h
    split at h
    · simpa using h
    · split at h
      · rcases List.mem_cons.1 h with h | h
        · exact .inl h
        · exact .inr (List.mem_cons_of_mem _ h)
      · rcases List.mem_cons.1 h with h | h
        · exact .inr (h ▸ List.mem_cons_self ..)
        · exact (ih h).imp_right (List.mem_cons_of_mem _)

/-- A write keeps the canonical form. -/
theorem canonical_wr [DecidableEq β] {d : Nat → β} {m : SMap β} (k : Nat) (v : β) (h : canonical d m = true) :
    canonical d (wr d m k v) = true := by
  unfold wr
  split
  · exact canonical_filter _ h
  · rename_i hv
    simp only [canonical, Bool.and_eq_true, List.all_eq_true] at *
    refine ⟨risesFrom_ins v (Nat.zero_le k) h.1, fun e he => ?_⟩
    rcases mem_ins he with rfl | he
    · simpa using hv
    · exact h.2 e he

/-! ## Fields of a word -/

theorem mul_add_lt_mul {a n r m : Nat} (ha : a < n) (hr : r < m) : a * m + r < m * n := by
  calc a * m + r < (a + 1) * m := by rw [Nat.add_mul, Nat.one_mul]; omega
    _ ≤ n * m := Nat.mul_le_mul_right m ha
    _ = m * n := Nat.mul_comm n m

theorem toNat_putBits (w : Word) {hi lo : Nat} (v : Nat) (hl : lo ≤ hi) (hh : hi < 32) :
    (putBits w hi lo v).toNat
      = w.toNat / 2 ^ (hi + 1) * 2 ^ (hi + 1) + v % 2 ^ (hi - lo + 1) * 2 ^ lo + w.toNat % 2 ^ lo := by
  have hp : 2 ^ (hi + 1) = 2 ^ lo * 2 ^ (hi - lo + 1) := by rw [← pow_add]; congr 1; omega
  have hw := w.isLt
  have hd : 2 ^ 32 = 2 ^ (hi + 1) * 2 ^ (31 - hi) := by rw [← pow_add]; congr 1; omega
  have h1 : w.toNat = w.toNat / 2 ^ (hi + 1) * 2 ^ (hi + 1) + bitsOf w hi lo * 2 ^ lo + w.toNat % 2 ^ lo := by
    unfold bitsOf
    have a := Nat.div_add_mod w.toNat (2 ^ lo)
    have b := Nat.div_add_mod (w.toNat / 2 ^ lo) (2 ^ (hi - lo + 1))
    rw [Nat.div_div_eq_div_mul] at b
    rw [hp]
    generalize w.toNat / (2 ^ lo * 2 ^ (hi - lo + 1)) = q at *
    generalize w.toNat / 2 ^ lo % 2 ^ (hi - lo + 1) = x at *
    rw [← b, Nat.mul_add] at a
    rw [← a, Nat.mul_comm x, Nat.mul_comm q]
    simp only [Nat.mul_assoc, a]
  have hq : w.toNat / 2 ^ (hi + 1) < 2 ^ (31 - hi) := by
    rw [Nat.div_lt_iff_lt_mul (by positivity), mul_comm, ← hd]; exact hw
  have hv : v % 2 ^ (hi - lo + 1) < 2 ^ (hi - lo + 1) := Nat.mod_lt _ (by positivity)
  have hr : w.toNat % 2 ^ lo < 2 ^ lo := Nat.mod_lt _ (by positivity)
  have hs : v % 2 ^ (hi - lo + 1) * 2 ^ lo + w.toNat % 2 ^ lo < 2 ^ (hi + 1) := by
    rw [hp]; exact mul_add_lt_mul hv hr
  have hb : w.toNat / 2 ^ (hi + 1) * 2 ^ (hi + 1) + v % 2 ^ (hi - lo + 1) * 2 ^ lo + w.toNat % 2 ^ lo < 2 ^ 32 := by
    rw [hd, Nat.add_assoc]; exact mul_add_lt_mul hq hs
  unfold putBits
  rw [BitVec.toNat_ofNat, Nat.mod_eq_of_lt]
  · omega
  · omega

/-- A field reads what was put into it, cut to its width. -/
theorem bitsOf_putBits (w : Word) {hi lo : Nat} (v : Nat) (hl : lo ≤ hi) (hh : hi < 32) :
    bitsOf (putBits w hi lo v) hi lo = v % 2 ^ (hi - lo + 1) := by
  have hp : 2 ^ (hi + 1) = 2 ^ lo * 2 ^ (hi - lo + 1) := by rw [← pow_add]; congr 1; omega
  have hr : w.toNat % 2 ^ lo < 2 ^ lo := Nat.mod_lt _ (by positivity)
  unfold bitsOf
  rw [toNat_putBits w v hl hh, hp, ← mul_assoc, mul_right_comm, ← add_mul, Nat.add_comm,
    Nat.add_mul_div_right _ _ (by positivity), Nat.div_eq_of_lt hr, Nat.zero_add, Nat.add_comm, Nat.add_mul_mod_self_right,
    Nat.mod_mod]

/-- The fields beside it keep their values. -/
theorem bitsOf_putBits_other (w : Word) {hi lo a b : Nat} (v : Nat) (hl : lo ≤ hi) (hh : hi < 32) (hb : b ≤ a)
    (hd : a < lo ∨ hi < b) : bitsOf (putBits w hi lo v) a b = bitsOf w a b := by
  have hr : w.toNat % 2 ^ lo < 2 ^ lo := Nat.mod_lt _ (by positivity)
  have hp : 2 ^ (hi + 1) = 2 ^ lo * 2 ^ (hi - lo + 1) := by rw [← pow_add]; congr 1; omega
  have key : ∀ n : Nat, n / 2 ^ b % 2 ^ (a - b + 1) = n % 2 ^ (a + 1) / 2 ^ b := by
    intro n
    rw [show 2 ^ (a + 1) = 2 ^ b * 2 ^ (a - b + 1) by rw [← pow_add]; congr 1; omega, Nat.mod_mul_right_div_self]
  rcases hd with hd | hd
  · unfold bitsOf
    rw [key, key, toNat_putBits w v hl hh]
    have hm : ∀ n : Nat, n % 2 ^ lo % 2 ^ (a + 1) = n % 2 ^ (a + 1) := fun n =>
      Nat.mod_mod_of_dvd n (pow_dvd_pow 2 (by omega))
    rw [← hm, hp, ← mul_assoc, mul_right_comm, ← add_mul, Nat.mul_add_mod_self_right, Nat.mod_mod, hm]
  · have hs : v % 2 ^ (hi - lo + 1) * 2 ^ lo + w.toNat % 2 ^ lo < 2 ^ (hi + 1) := by
      have hv : v % 2 ^ (hi - lo + 1) < 2 ^ (hi - lo + 1) := Nat.mod_lt _ (by positivity)
      rw [hp]; exact mul_add_lt_mul hv hr
    have hq : ∀ n : Nat, n / 2 ^ b = n / 2 ^ (hi + 1) / 2 ^ (b - (hi + 1)) := fun n => by
      rw [Nat.div_div_eq_div_mul, ← pow_add]; congr 2; omega
    unfold bitsOf
    rw [hq (putBits w hi lo v).toNat, hq w.toNat, toNat_putBits w v hl hh, add_assoc,
      Nat.add_comm (w.toNat / 2 ^ (hi + 1) * 2 ^ (hi + 1)), Nat.add_mul_div_right _ _ (by positivity), Nat.div_eq_of_lt hs,
      Nat.zero_add]

end Sys2Proof.Machine
end

