-- ==== Sys2Proof/Laws/Ops.lean ====
section
/-!
SUPPORT. What each shared operation can do: a register write changes one register, a field write one field; counting an event,
an interrupt and an error record change the alarm registers and nothing a command's own registers hold.
-/
namespace Sys2Proof.Machine

variable (x : Io)

/-! ## Registers and fields -/

@[simp] theorem Io.reg_put (a : Nat) (w : Word) : (x.put a w).reg a = w := rd_wr_same _ _ _ _

theorem Io.reg_put_other {a b : Nat} (w : Word) (h : b ≠ a) : (x.put a w).reg b = x.reg b := rd_wr_other _ _ _ h

theorem Io.get_set (f : Field) (v : Nat) (hl : f.lo ≤ f.hi) (hh : f.hi < 32) :
    (x.set f v).get f = v % 2 ^ (f.hi - f.lo + 1) := by
  simp [Io.set, Io.get, bitsOf_putBits, hl, hh]

theorem Io.reg_set_other {f : Field} {a : Nat} (v : Nat) (h : a ≠ f.off) : (x.set f v).reg a = x.reg a :=
  Io.reg_put_other x _ h

theorem Io.get_set_off {f g : Field} (v : Nat) (h : g.off ≠ f.off) : (x.set f v).get g = x.get g := by
  simp only [Io.get, Io.reg_set_other x v h]

theorem Io.get_set_bits {f g : Field} (v : Nat) (hl : f.lo ≤ f.hi) (hh : f.hi < 32) (hg : g.lo ≤ g.hi)
    (hd : g.hi < f.lo ∨ f.hi < g.lo) : (x.set f v).get g = x.get g := by
  by_cases h : g.off = f.off
  · simp only [Io.get, Io.set, h, Io.reg_put, bitsOf_putBits_other _ v hl hh hg hd]
  · exact Io.get_set_off x v h

theorem Io.get_lt (f : Field) : x.get f < 2 ^ (f.hi - f.lo + 1) := Nat.mod_lt _ (by positivity)

theorem Io.get_congr {x y : Io} {f : Field} (h : x.reg f.off = y.reg f.off) : x.get f = y.get f := by
  simp only [Io.get, h]

theorem Io.wideOf_setWide (r i : Nat) (v : Wide) : (x.setWide r i v).wideOf r i = v := rd_wr_same _ _ _ _

theorem Io.wideOf_setWide_other {r i q j : Nat} (v : Wide) (h : q * 65536 + j ≠ r * 65536 + i) :
    (x.setWide r i v).wideOf q j = x.wideOf q j := rd_wr_other _ _ _ h

@[simp] theorem Io.reg_setWide (r i : Nat) (v : Wide) (a : Nat) : (x.setWide r i v).reg a = x.reg a := rfl
@[simp] theorem Io.reg_emit (o : Out) (a : Nat) : (x.emit o).reg a = x.reg a := rfl
@[simp] theorem Io.get_setWide (r i : Nat) (v : Wide) (f : Field) : (x.setWide r i v).get f = x.get f := rfl
@[simp] theorem Io.get_emit (o : Out) (f : Field) : (x.emit o).get f = x.get f := rfl
@[simp] theorem Io.reg_post (n : Nat) (o : Out) (a : Nat) : (x.post n o).reg a = x.reg a := by
  unfold Io.post; split <;> rfl

/-- Two fields that share no bit. -/
def Field.apart (f g : Field) : Bool :=
  f.off != g.off || (decide (f.lo ≤ f.hi ∧ f.hi < 32 ∧ g.lo ≤ g.hi) && (decide (g.hi < f.lo) || decide (f.hi < g.lo)))

theorem Io.get_set_apart {f g : Field} (v : Nat) (h : f.apart g = true) : (x.set f v).get g = x.get g := by
  simp only [Field.apart, Bool.or_eq_true, Bool.and_eq_true, decide_eq_true_eq, bne_iff_ne] at h
  rcases h with h | ⟨⟨a, b, c⟩, d⟩
  · exact Io.get_set_off x v (Ne.symm h)
  · exact Io.get_set_bits x v a b c d

/-- A field lies in no alarm register and is not the count of lost records. -/
def Field.steady (f : Field) : Bool := !alarmReg f.off && f.off != Fd.MGMT_LOG_LOST_COUNT.off

/-! ## What alarms leave alone

`Io.Calm x y` says that y differs from x at most in the alarm registers, the wide values, the free counter's neighbours that
carry messages away, and the error FIFO. -/

/-- y has the tick, the sketch and every register of x but for the alarm registers and the lost-record count. -/
structure Io.Calm (x y : Io) : Prop where
  tick : y.tick = x.tick
  sketch : y.sketch = x.sketch
  shadow : y.shadow = x.shadow
  free : y.free = x.free
  reg : ∀ a, alarmReg a = false → a ≠ Fd.MGMT_LOG_LOST_COUNT.off → y.reg a = x.reg a

theorem Io.Calm.refl : Io.Calm x x := ⟨rfl, rfl, rfl, rfl, fun _ _ _ => rfl⟩

theorem Io.Calm.trans {x y z : Io} (h : Io.Calm x y) (k : Io.Calm y z) : Io.Calm x z :=
  ⟨k.tick.trans h.tick, k.sketch.trans h.sketch, k.shadow.trans h.shadow, k.free.trans h.free,
    fun a p q => (k.reg a p q).trans (h.reg a p q)⟩

theorem Io.Calm.get {x y : Io} (h : Io.Calm x y) {f : Field} (p : alarmReg f.off = false)
    (q : f.off ≠ Fd.MGMT_LOG_LOST_COUNT.off) : y.get f = x.get f := Io.get_congr (h.reg _ p q)

theorem Io.Calm.steady {x y : Io} (h : Io.Calm x y) {f : Field} (p : f.steady = true) : y.get f = x.get f := by
  simp only [Field.steady, Bool.and_eq_true, Bool.not_eq_true', bne_iff_ne] at p
  exact h.get p.1 p.2

theorem Io.calm_set {f : Field} (v : Nat) (h : alarmReg f.off = true) : Io.Calm x (x.set f v) :=
  ⟨rfl, rfl, rfl, rfl, fun a p _ => Io.reg_set_other x v fun e => by simp [← e, p] at h⟩

theorem Io.calm_setWide (r i : Nat) (v : Wide) : Io.Calm x (x.setWide r i v) := ⟨rfl, rfl, rfl, rfl, fun _ _ _ => rfl⟩

theorem Io.calm_post (n : Nat) (o : Out) : Io.Calm x (x.post n o) := by
  unfold Io.post; split <;> exact ⟨rfl, rfl, rfl, rfl, fun _ _ _ => rfl⟩

theorem foldl_keeps {α γ : Type} (P : α → Prop) (f : α → γ → α) (h : ∀ a c, P a → P (f a c)) (l : List γ) :
    ∀ a, P a → P (l.foldl f a) := by
  induction l with
  | nil => exact fun _ p => p
  | cons c l ih => exact fun a p => ih _ (h a c p)

theorem alarmReg_ovf (r t : Nat) :
    alarmReg ((if t < 32 then Fd.TILL_OVF_LO_OVF r else Fd.TILL_OVF_HI_OVF r).bit (t % 32)).off = true := by
  have h : ∀ c r : Nat, c < 0x200000 → (c + 0x200000 * r) % 0x200000 = c := by intro c r h; omega
  split <;> simp [alarmReg, Field.bit, Fd.TILL_OVF_LO_OVF, Fd.TILL_OVF_HI_OVF, h]

theorem alarmReg_cause (n : Nat) : alarmReg (causeBit n).off = true := by
  unfold causeBit; split <;> simp [alarmReg]

theorem alarmReg_pend (b : Bool) {v : Nat} (h : v < 256) : alarmReg (msixPend b v).off = true := by
  unfold msixPend
  split
  · have : alarmReg (0x0500D000 + 4 * (v / 32)) = true := by
      have : decide (0x0500D000 ≤ 0x0500D000 + 4 * (v / 32) ∧ 0x0500D000 + 4 * (v / 32) < 0x0500D020) = true := by
        rw [decide_eq_true_eq]; omega
      simp only [alarmReg, this, Bool.or_true, Bool.true_or]
    exact this
  · have : alarmReg (0x04081000 + 4 * (v / 32)) = true := by
      have : decide (0x04081000 ≤ 0x04081000 + 4 * (v / 32) ∧ 0x04081000 + 4 * (v / 32) < 0x04081020) = true := by
        rw [decide_eq_true_eq]; omega
      simp only [alarmReg, this, Bool.or_true, Bool.true_or]
    exact this

theorem Io.calm_tillStep (r t n : Nat) : Io.Calm x (x.tillStep r t n).1 := by
  unfold Io.tillStep
  simp only
  split
  · exact Io.calm_setWide ..
  · exact (Io.calm_setWide ..).trans (Io.calm_set _ _ (alarmReg_ovf r t))

theorem Io.calm_tillFeed (a o c i n : Nat) (y : Io × List Nat) (t : Nat) (h : Io.Calm x y.1) :
    Io.Calm x (Io.tillFeed a o c i n y t).1 := by
  unfold Io.tillFeed
  split
  · exact h.trans (Io.calm_tillStep ..)
  · exact h

theorem Io.calm_countOnly (r c i n : Nat) : Io.Calm x (x.countOnly r c i n).1 := by
  unfold Io.countOnly
  split
  · exact .refl x
  · apply foldl_keeps fun y : Io × List Nat => Io.Calm x y.1
    · exact fun y t h => Io.calm_tillFeed x _ _ _ _ _ y t h
    · split
      · exact .refl x
      · exact foldl_keeps (fun y : Io × List Nat => Io.Calm x y.1) _
          (fun y t h => Io.calm_tillFeed x _ _ _ _ _ y t h) _ _ (.refl x)

theorem Io.calm_message (b : Bool) {v : Nat} (h : v < 256) : Io.Calm x (x.message b v).1 := by
  unfold Io.message
  split
  · exact Io.calm_set _ _ (alarmReg_pend b h)
  · exact (Io.calm_countOnly x 13 Src.HOST_MSIX_SENT 0 1).trans (Io.calm_post ..)

theorem Io.calm_sendIrq (n : Nat) : Io.Calm x (x.sendIrq n).1 := by
  unfold Io.sendIrq
  split
  · exact Io.calm_message _ _ (Io.get_lt x (irqMap n 7 0))
  · exact .refl x

theorem Io.calm_irqOnce (n : Nat) : Io.Calm x (x.irqOnce n).1 := by
  unfold Io.irqOnce
  split
  · exact .refl x
  · exact (Io.calm_set _ _ (alarmReg_cause n)).trans (Io.calm_sendIrq ..)

theorem Io.calm_irq (n : Nat) : Io.Calm x (x.irq n) := by
  unfold Io.irq Io.settleIrq
  exact foldl_keeps (Io.Calm x) _ (fun y r h => h.trans (Io.calm_irqOnce y _)) _ _ (Io.calm_irqOnce x n)

/-- An interrupt changes alarm registers only (R311). -/
theorem Io.calm_regionIrq (r : Nat) : Io.Calm x (x.regionIrq r) := Io.calm_irq x _

/-- Counting an event changes alarm registers and tills only (R468). -/
theorem Io.calm_count (r c i n : Nat) : Io.Calm x (x.count r c i n) := by
  unfold Io.count
  exact foldl_keeps (Io.Calm x) _ (fun y q h => h.trans (Io.calm_regionIrq y q)) _ _ (Io.calm_countOnly x r c i n)

theorem Io.calm_lose : Io.Calm x x.lose := by
  unfold Io.lose
  simp only
  have h : Io.Calm x (x.set Fd.MGMT_LOG_LOST_COUNT (min (x.get Fd.MGMT_LOG_LOST_COUNT + 1) (2 ^ 32 - 1))) :=
    ⟨rfl, rfl, rfl, rfl, fun a _ q => Io.reg_set_other x _ q⟩
  refine h.trans ?_
  exact (Io.calm_count _ 16 Src.MGMT_LOG_LOST 0 1).trans (Io.calm_regionIrq ..)

theorem Io.calm_record (e : ErrRec) : Io.Calm x (x.record e) := by
  unfold Io.record
  simp only
  split
  · exact (Io.calm_count x 0 Src.CHIP_ERR_RECORDS (e.level % 4) 1).trans ⟨rfl, rfl, rfl, rfl, fun _ _ _ => rfl⟩
  · exact (Io.calm_count ..).trans (Io.calm_lose _)

/-- Reporting an error changes alarm registers, the FIFO and the count of lost records only (R451, R452). -/
theorem Io.calm_err (e : Err) : Io.Calm x (x.err e) := Io.calm_record x _

/-! ## The same on the whole state -/

section
variable (s : State)

theorem State.get_put_other {f : Field} {a : Nat} (w : Word) (h : f.off ≠ a) : (s.put a w).get f = s.get f :=
  Io.get_congr (Io.reg_put_other _ w h)

theorem State.get_set (f : Field) (v : Nat) (hl : f.lo ≤ f.hi) (hh : f.hi < 32) :
    (s.set f v).get f = v % 2 ^ (f.hi - f.lo + 1) := Io.get_set _ f v hl hh

theorem State.get_set_apart {f g : Field} (v : Nat) (h : f.apart g = true) : (s.set f v).get g = s.get g :=
  Io.get_set_apart _ v h

theorem State.get_setBit (f : Field) (b : Bool) (hl : f.lo ≤ f.hi) (hh : f.hi < 32) :
    (s.setBit f b).get f = if b then 1 else 0 := by
  cases b
  · exact (State.get_set s f 0 hl hh).trans (Nat.zero_mod _)
  · refine (State.get_set s f 1 hl hh).trans (Nat.mod_eq_of_lt ?_)
    exact Nat.one_lt_two_pow (by omega)

theorem State.get_setBit_apart {f g : Field} (b : Bool) (h : f.apart g = true) : (s.setBit f b).get g = s.get g :=
  Io.get_set_apart _ _ h

theorem State.get_bump (f : Field) (n : Nat) (hl : f.lo ≤ f.hi) (hh : f.hi < 32) :
    (s.bump f n).get f = (s.get f + n) % 2 ^ (f.hi - f.lo + 1) := State.get_set s f _ hl hh

theorem State.get_bump_apart {f g : Field} (n : Nat) (h : f.apart g = true) : (s.bump f n).get g = s.get g :=
  Io.get_set_apart _ _ h

theorem State.get_bumpSat (f : Field) (n : Nat) (hl : f.lo ≤ f.hi) (hh : f.hi < 32) :
    (s.bumpSat f n).get f = min (s.get f + n) (2 ^ (f.hi - f.lo + 1) - 1) := by
  refine (State.get_set s f _ hl hh).trans (Nat.mod_eq_of_lt ?_)
  have : 0 < 2 ^ (f.hi - f.lo + 1) := by positivity
  omega

theorem State.get_bumpSat_apart {f g : Field} (n : Nat) (h : f.apart g = true) : (s.bumpSat f n).get g = s.get g :=
  Io.get_set_apart _ _ h

theorem State.get_set_off {f g : Field} (v : Nat) (h : g.off ≠ f.off) : (s.set f v).get g = s.get g :=
  Io.get_set_off _ v h

theorem State.get_set_bits {f g : Field} (v : Nat) (hl : f.lo ≤ f.hi) (hh : f.hi < 32) (hg : g.lo ≤ g.hi)
    (hd : g.hi < f.lo ∨ f.hi < g.lo) : (s.set f v).get g = s.get g := Io.get_set_bits _ v hl hh hg hd

theorem State.get_count {f : Field} (r c i n : Nat) (p : f.steady = true) :
    (s.count r c i n).get f = s.get f := (Io.calm_count ..).steady p

theorem State.get_irq {f : Field} (n : Nat) (p : f.steady = true) :
    (s.irq n).get f = s.get f := (Io.calm_irq ..).steady p

theorem State.get_regionIrq {f : Field} (r : Nat) (p : f.steady = true) :
    (s.regionIrq r).get f = s.get f := (Io.calm_regionIrq ..).steady p

theorem State.get_err {f : Field} (e : Err) (p : f.steady = true) :
    (s.err e).get f = s.get f := (Io.calm_err ..).steady p

@[simp] theorem State.get_emit (o : Out) (f : Field) : (s.emit o).get f = s.get f := rfl
@[simp] theorem State.get_setWide (r i : Nat) (v : Wide) (f : Field) : (s.setWide r i v).get f = s.get f := rfl

@[simp] theorem State.get_reach (t : Wide) (f : Field) : (s.reach t).get f = s.get f := by
  simp only [State.get, State.reach_io]; split <;> rfl
@[simp] theorem State.get_tbas_upd (g : Tbas → Tbas) (f : Field) : (s.tbas' g).get f = s.get f := rfl
@[simp] theorem State.get_scan_upd (g : Scan → Scan) (f : Field) : (s.scan' g).get f = s.get f := rfl
@[simp] theorem State.get_emit_upd (g : Emit → Emit) (f : Field) : (s.emit' g).get f = s.get f := rfl
@[simp] theorem State.get_safe_upd (g : Safe → Safe) (f : Field) : (s.safe' g).get f = s.get f := rfl
@[simp] theorem State.get_lnk_upd (g : Lnk → Lnk) (f : Field) : (s.lnk' g).get f = s.get f := rfl
@[simp] theorem State.get_hst_upd (g : Hst → Hst) (f : Field) : (s.hst' g).get f = s.get f := rfl
@[simp] theorem State.get_outp_upd (g : Outp → Outp) (f : Field) : (s.outp' g).get f = s.get f := rfl
@[simp] theorem State.get_host_upd (g : HostIf → HostIf) (f : Field) : (s.host' g).get f = s.get f := rfl
@[simp] theorem State.get_memc_upd (g : Memc → Memc) (f : Field) : (s.memc' g).get f = s.get f := rfl
@[simp] theorem State.get_moni_upd (g : Moni → Moni) (f : Field) : (s.moni' g).get f = s.get f := rfl
@[simp] theorem State.get_mgmt_upd (g : Mgmt → Mgmt) (f : Field) : (s.mgmt' g).get f = s.get f := rfl
@[simp] theorem State.get_secu_upd (g : Secu → Secu) (f : Field) : (s.secu' g).get f = s.get f := rfl
@[simp] theorem State.get_chip_upd (g : Chip → Chip) (f : Field) : (s.chip' g).get f = s.get f := rfl

/-! ## The rest of the shared record -/

@[simp] theorem Io.put_sketch (x : Io) (a : Nat) (w : Word) : (x.put a w).sketch = x.sketch := rfl
@[simp] theorem Io.put_shadow (x : Io) (a : Nat) (w : Word) : (x.put a w).shadow = x.shadow := rfl
@[simp] theorem Io.put_wide (x : Io) (a : Nat) (w : Word) : (x.put a w).wide = x.wide := rfl
@[simp] theorem Io.put_tick (x : Io) (a : Nat) (w : Word) : (x.put a w).tick = x.tick := rfl
@[simp] theorem Io.put_fifo (x : Io) (a : Nat) (w : Word) : (x.put a w).fifo = x.fifo := rfl
@[simp] theorem Io.put_free (x : Io) (a : Nat) (w : Word) : (x.put a w).free = x.free := rfl
@[simp] theorem Io.put_recovery (x : Io) (a : Nat) (w : Word) : (x.put a w).recovery = x.recovery := rfl
@[simp] theorem Io.put_held (x : Io) (a : Nat) (w : Word) : (x.put a w).held = x.held := rfl
@[simp] theorem Io.put_heldBytes (x : Io) (a : Nat) (w : Word) : (x.put a w).heldBytes = x.heldBytes := rfl
@[simp] theorem Io.put_out (x : Io) (a : Nat) (w : Word) : (x.put a w).out = x.out := rfl
@[simp] theorem Io.set_sketch (x : Io) (f : Field) (v : Nat) : (x.set f v).sketch = x.sketch := rfl
@[simp] theorem Io.set_shadow (x : Io) (f : Field) (v : Nat) : (x.set f v).shadow = x.shadow := rfl
@[simp] theorem Io.set_wide (x : Io) (f : Field) (v : Nat) : (x.set f v).wide = x.wide := rfl
@[simp] theorem Io.set_tick (x : Io) (f : Field) (v : Nat) : (x.set f v).tick = x.tick := rfl
@[simp] theorem Io.set_fifo (x : Io) (f : Field) (v : Nat) : (x.set f v).fifo = x.fifo := rfl
@[simp] theorem Io.set_free (x : Io) (f : Field) (v : Nat) : (x.set f v).free = x.free := rfl
@[simp] theorem Io.set_recovery (x : Io) (f : Field) (v : Nat) : (x.set f v).recovery = x.recovery := rfl
@[simp] theorem Io.set_held (x : Io) (f : Field) (v : Nat) : (x.set f v).held = x.held := rfl
@[simp] theorem Io.set_heldBytes (x : Io) (f : Field) (v : Nat) : (x.set f v).heldBytes = x.heldBytes := rfl
@[simp] theorem Io.set_out (x : Io) (f : Field) (v : Nat) : (x.set f v).out = x.out := rfl
@[simp] theorem Io.setWide_sketch (x : Io) (r i : Nat) (v : Wide) : (x.setWide r i v).sketch = x.sketch := rfl
@[simp] theorem Io.setWide_shadow (x : Io) (r i : Nat) (v : Wide) : (x.setWide r i v).shadow = x.shadow := rfl
@[simp] theorem Io.setWide_tick (x : Io) (r i : Nat) (v : Wide) : (x.setWide r i v).tick = x.tick := rfl
@[simp] theorem Io.setWide_fifo (x : Io) (r i : Nat) (v : Wide) : (x.setWide r i v).fifo = x.fifo := rfl
@[simp] theorem Io.setWide_free (x : Io) (r i : Nat) (v : Wide) : (x.setWide r i v).free = x.free := rfl
@[simp] theorem Io.setWide_recovery (x : Io) (r i : Nat) (v : Wide) : (x.setWide r i v).recovery = x.recovery := rfl
@[simp] theorem Io.setWide_held (x : Io) (r i : Nat) (v : Wide) : (x.setWide r i v).held = x.held := rfl
@[simp] theorem Io.setWide_heldBytes (x : Io) (r i : Nat) (v : Wide) : (x.setWide r i v).heldBytes = x.heldBytes := rfl
@[simp] theorem Io.setWide_out (x : Io) (r i : Nat) (v : Wide) : (x.setWide r i v).out = x.out := rfl
@[simp] theorem Io.emit_sketch (x : Io) (o : Out) : (x.emit o).sketch = x.sketch := rfl
@[simp] theorem Io.emit_shadow (x : Io) (o : Out) : (x.emit o).shadow = x.shadow := rfl
@[simp] theorem Io.emit_wide (x : Io) (o : Out) : (x.emit o).wide = x.wide := rfl
@[simp] theorem Io.emit_tick (x : Io) (o : Out) : (x.emit o).tick = x.tick := rfl
@[simp] theorem Io.emit_fifo (x : Io) (o : Out) : (x.emit o).fifo = x.fifo := rfl
@[simp] theorem Io.emit_free (x : Io) (o : Out) : (x.emit o).free = x.free := rfl
@[simp] theorem Io.emit_recovery (x : Io) (o : Out) : (x.emit o).recovery = x.recovery := rfl
@[simp] theorem Io.emit_held (x : Io) (o : Out) : (x.emit o).held = x.held := rfl
@[simp] theorem Io.emit_heldBytes (x : Io) (o : Out) : (x.emit o).heldBytes = x.heldBytes := rfl
@[simp] theorem Io.count_tick (x : Io) (r c i n : Nat) : (x.count r c i n).tick = x.tick := (Io.calm_count x r c i n).tick
@[simp] theorem Io.count_sketch (x : Io) (r c i n : Nat) : (x.count r c i n).sketch = x.sketch := (Io.calm_count x r c i n).sketch
@[simp] theorem Io.count_shadow (x : Io) (r c i n : Nat) : (x.count r c i n).shadow = x.shadow := (Io.calm_count x r c i n).shadow
@[simp] theorem Io.count_free (x : Io) (r c i n : Nat) : (x.count r c i n).free = x.free := (Io.calm_count x r c i n).free
@[simp] theorem Io.irq_tick (x : Io) (n : Nat) : (x.irq n).tick = x.tick := (Io.calm_irq x n).tick
@[simp] theorem Io.irq_sketch (x : Io) (n : Nat) : (x.irq n).sketch = x.sketch := (Io.calm_irq x n).sketch
@[simp] theorem Io.irq_shadow (x : Io) (n : Nat) : (x.irq n).shadow = x.shadow := (Io.calm_irq x n).shadow
@[simp] theorem Io.irq_free (x : Io) (n : Nat) : (x.irq n).free = x.free := (Io.calm_irq x n).free
@[simp] theorem Io.regionIrq_tick (x : Io) (r : Nat) : (x.regionIrq r).tick = x.tick := (Io.calm_regionIrq x r).tick
@[simp] theorem Io.regionIrq_sketch (x : Io) (r : Nat) : (x.regionIrq r).sketch = x.sketch := (Io.calm_regionIrq x r).sketch
@[simp] theorem Io.regionIrq_shadow (x : Io) (r : Nat) : (x.regionIrq r).shadow = x.shadow := (Io.calm_regionIrq x r).shadow
@[simp] theorem Io.regionIrq_free (x : Io) (r : Nat) : (x.regionIrq r).free = x.free := (Io.calm_regionIrq x r).free
@[simp] theorem Io.err_tick (x : Io) (e : Err) : (x.err e).tick = x.tick := (Io.calm_err x e).tick
@[simp] theorem Io.err_sketch (x : Io) (e : Err) : (x.err e).sketch = x.sketch := (Io.calm_err x e).sketch
@[simp] theorem Io.err_shadow (x : Io) (e : Err) : (x.err e).shadow = x.shadow := (Io.calm_err x e).shadow
@[simp] theorem Io.err_free (x : Io) (e : Err) : (x.err e).free = x.free := (Io.calm_err x e).free

@[simp] theorem State.tick_eq : s.tick = s.io.tick := rfl
theorem State.reg_set_other {f : Field} {a : Nat} (v : Nat) (h : a ≠ f.off) : (s.set f v).reg a = s.reg a :=
  Io.reg_set_other _ v h
theorem State.reg_put_other {a b : Nat} (w : Word) (h : b ≠ a) : (s.put a w).reg b = s.reg b := Io.reg_put_other _ w h
@[simp] theorem State.reg_put (a : Nat) (w : Word) : (s.put a w).reg a = w := Io.reg_put _ a w
@[simp] theorem State.reg_emit (o : Out) (a : Nat) : (s.emit o).reg a = s.reg a := rfl
@[simp] theorem State.reg_setWide (r i : Nat) (v : Wide) (a : Nat) : (s.setWide r i v).reg a = s.reg a := rfl
@[simp] theorem State.reg_reach (t : Wide) (a : Nat) : (s.reach t).reg a = s.reg a := by
  simp only [State.reg, State.reach_io]; split <;> rfl
theorem State.reg_count {a : Nat} (r c i n : Nat) (p : alarmReg a = false) (q : a ≠ Fd.MGMT_LOG_LOST_COUNT.off) :
    (s.count r c i n).reg a = s.reg a := (Io.calm_count ..).reg a p q
theorem State.reg_irq {a : Nat} (n : Nat) (p : alarmReg a = false) (q : a ≠ Fd.MGMT_LOG_LOST_COUNT.off) :
    (s.irq n).reg a = s.reg a := (Io.calm_irq ..).reg a p q
theorem State.reg_regionIrq {a : Nat} (r : Nat) (p : alarmReg a = false) (q : a ≠ Fd.MGMT_LOG_LOST_COUNT.off) :
    (s.regionIrq r).reg a = s.reg a := (Io.calm_regionIrq ..).reg a p q
theorem State.reg_err {a : Nat} (e : Err) (p : alarmReg a = false) (q : a ≠ Fd.MGMT_LOG_LOST_COUNT.off) :
    (s.err e).reg a = s.reg a := (Io.calm_err ..).reg a p q
@[simp] theorem State.reg_tbas_upd (g : Tbas → Tbas) (a : Nat) : (s.tbas' g).reg a = s.reg a := rfl
@[simp] theorem State.reg_scan_upd (g : Scan → Scan) (a : Nat) : (s.scan' g).reg a = s.reg a := rfl
@[simp] theorem State.reg_emit_upd (g : Emit → Emit) (a : Nat) : (s.emit' g).reg a = s.reg a := rfl
@[simp] theorem State.reg_safe_upd (g : Safe → Safe) (a : Nat) : (s.safe' g).reg a = s.reg a := rfl
@[simp] theorem State.reg_lnk_upd (g : Lnk → Lnk) (a : Nat) : (s.lnk' g).reg a = s.reg a := rfl
@[simp] theorem State.reg_hst_upd (g : Hst → Hst) (a : Nat) : (s.hst' g).reg a = s.reg a := rfl
@[simp] theorem State.reg_outp_upd (g : Outp → Outp) (a : Nat) : (s.outp' g).reg a = s.reg a := rfl
@[simp] theorem State.reg_host_upd (g : HostIf → HostIf) (a : Nat) : (s.host' g).reg a = s.reg a := rfl
@[simp] theorem State.reg_memc_upd (g : Memc → Memc) (a : Nat) : (s.memc' g).reg a = s.reg a := rfl
@[simp] theorem State.reg_moni_upd (g : Moni → Moni) (a : Nat) : (s.moni' g).reg a = s.reg a := rfl
@[simp] theorem State.reg_mgmt_upd (g : Mgmt → Mgmt) (a : Nat) : (s.mgmt' g).reg a = s.reg a := rfl
@[simp] theorem State.reg_secu_upd (g : Secu → Secu) (a : Nat) : (s.secu' g).reg a = s.reg a := rfl
@[simp] theorem State.reg_chip_upd (g : Chip → Chip) (a : Nat) : (s.chip' g).reg a = s.reg a := rfl

theorem State.reach_tick (t : Wide) : (s.reach t).io.tick = if before s.io.tick t then s.shownAt t else s.io.tick := by
  simp only [State.reach_io]; split <;> rfl

/-- Unless the counter counts XO cycles the tick shown at an instant is the instant's (R68). -/
theorem State.shownAt_awake (t : Wide) (h : s.chip.coarse = false) : s.shownAt t = t := by simp [State.shownAt, h]

end

end Sys2Proof.Machine
end

