-- ==== Sys2Proof/Laws/Kept.lean ====
section
/-!
SUPPORT. What every operation keeps: the queue of waiting commands, the canonical form of the tables, the capacities of the
queues.  One lemma per shared operation; a meaning keeps them because the operations it is made of do.
-/
namespace Sys2Proof.Machine

/-! ## What leaves the device besides pulses -/

@[simp] theorem isFire_readData (who : Actor) (off : Nat) (w : Word) : (Out.readData who off w).isFire = false := (rfl)
@[simp] theorem isFire_abort (who : Actor) (off : Nat) : (Out.abort who off).isFire = false := (rfl)
@[simp] theorem isFire_busError (off : Nat) : (Out.busError off).isFire = false := (rfl)
@[simp] theorem isFire_unsupported (sp : Space) (off : Nat) : (Out.unsupported sp off).isFire = false := (rfl)
@[simp] theorem isFire_granted (ports : List Nat) : (Out.granted ports).isFire = false := (rfl)
@[simp] theorem isFire_msix (pf1 : Bool) (vec : Nat) : (Out.msix pf1 vec).isFire = false := (rfl)
@[simp] theorem isFire_ptmDialog : Out.ptmDialog.isFire = false := (rfl)
@[simp] theorem isFire_ovnHtr (duty pwmf : Nat) : (Out.ovnHtr duty pwmf).isFire = false := (rfl)
@[simp] theorem isFire_tileMsg (tile mtype hdata mseq : Nat) (payload : List Wide) : (Out.tileMsg tile mtype hdata mseq payload).isFire = false := (rfl)
@[simp] theorem isFire_strobe (ns addr : Nat) : (Out.strobe ns addr).isFire = false := (rfl)
@[simp] theorem isFire_ewire (words : List (BitVec 48)) : (Out.ewire words).isFire = false := (rfl)
@[simp] theorem isFire_lsel (addr : Nat) (at_ : Wide) : (Out.lsel addr at_).isFire = false := (rfl)
@[simp] theorem isFire_lsupPwm (on : Bool) (fsw ipk : Nat) : (Out.lsupPwm on fsw ipk).isFire = false := (rfl)
@[simp] theorem isFire_lsupEdge (on : Bool) (at_ : Wide) : (Out.lsupEdge on at_).isFire = false := (rfl)
@[simp] theorem isFire_clkout (sel div high : Nat) : (Out.clkout sel div high).isFire = false := (rfl)
@[simp] theorem isFire_railOff (rail : Rail) : (Out.railOff rail).isFire = false := (rfl)
@[simp] theorem isFire_avsRead : Out.avsRead.isFire = false := (rfl)
@[simp] theorem isFire_outputsReset : Out.outputsReset.isFire = false := (rfl)
@[simp] theorem isFire_switches (hs ls : Bool) : (Out.switches hs ls).isFire = false := (rfl)
@[simp] theorem isFire_faultN (asserted : Bool) : (Out.faultN asserted).isFire = false := (rfl)
@[simp] theorem isFire_statusPdu (id : Nat) (p : Pdu) : (Out.statusPdu id p).isFire = false := (rfl)
@[simp] theorem isFire_alignMarker (tile active amseq : Nat) : (Out.alignMarker tile active amseq).isFire = false := (rfl)
@[simp] theorem isFire_idleFill (lane : Nat) : (Out.idleFill lane).isFire = false := (rfl)
@[simp] theorem isFire_txBlocks (lane : Nat) (blocks : List (Nat × Wide)) : (Out.txBlocks lane blocks).isFire = false := (rfl)
@[simp] theorem isFire_preamble (lane groups idle : Nat) (wakeEnd : Wide) : (Out.preamble lane groups idle wakeEnd).isFire = false := (rfl)
@[simp] theorem isFire_txTest (lane prbs loop_ : Nat) : (Out.txTest lane prbs loop_).isFire = false := (rfl)
@[simp] theorem isFire_txRaw (lane hdr : Nat) (payload : Wide) : (Out.txRaw lane hdr payload).isFire = false := (rfl)
@[simp] theorem isFire_epoch (tile beacon : Nat) : (Out.epoch tile beacon).isFire = false := (rfl)
@[simp] theorem isFire_txIdle (lane : Nat) (idle : Bool) : (Out.txIdle lane idle).isFire = false := (rfl)
@[simp] theorem isFire_dma (ring : Nat) (addr : Wide) (ro : Bool) (mps : Nat) (bytes : List Byte) : (Out.dma ring addr ro mps bytes).isFire = false := (rfl)
@[simp] theorem isFire_errMessage (fatal : Bool) : (Out.errMessage fatal).isFire = false := (rfl)
@[simp] theorem isFire_descRead (ring i : Nat) (addr : Wide) : (Out.descRead ring i addr).isFire = false := (rfl)
@[simp] theorem isFire_syncPulse (ns : Nat) : (Out.syncPulse ns).isFire = false := (rfl)
@[simp] theorem isFire_memServed (stk cap check mgmt export_ scrub : Nat) : (Out.memServed stk cap check mgmt export_ scrub).isFire = false := (rfl)
@[simp] theorem isFire_syncTrig : Out.syncTrig.isFire = false := (rfl)
@[simp] theorem isFire_pmicEn (on : Bool) : (Out.pmicEn on).isFire = false := (rfl)
@[simp] theorem isFire_avsWrite (mv : Nat) : (Out.avsWrite mv).isFire = false := (rfl)
@[simp] theorem isFire_spdm (r : Spdm) : (Out.spdm r).isFire = false := (rfl)
@[simp] theorem isFire_jtag (code : Nat) (done : Bool) : (Out.jtag code done).isFire = false := (rfl)
@[simp] theorem isFire_tokenStatus (status : Nat) : (Out.tokenStatus status).isFire = false := (rfl)
@[simp] theorem isFire_boundary (drive hs ls : Bool) : (Out.boundary drive hs ls).isFire = false := (rfl)

/-- The part of the shared record that every operation keeps sound; l, where it is given, are the fire pulses that have left. -/
structure Io.Kept (l : Option (List Out)) (x : Io) : Prop where
  regs : canonical resetWord x.regs = true
  sketch : canonical resetWord x.sketch = true
  wide : canonical (fun _ => 0) x.wide = true
  fifo : x.fifo.length ≤ 256
  held : x.held.all (fun o => !o.isFire) = true
  fires : ∀ k, l = some k → x.out.filter Out.isFire = k

/-- The waiting commands and, where they are given, the pulses that have left are p; the tables are canonical and no queue is over
its capacity. -/
structure State.Kept (p : List Instr × Option (List Out)) (s : State) : Prop where
  io : s.io.Kept p.2
  pm : canonical (fun _ => 0) s.scan.pm = true
  dm : canonical (fun _ => 0) s.scan.dm = true
  log : s.mgmt.log.length ≤ 4096
  ptm : s.tbas.ptm.length ≤ 16
  capQ : s.memc.capQ.length ≤ 16
  smTx : s.safe.smTx.length ≤ 4
  waitA : s.safe.waitA.length ≤ 4
  waitB : s.safe.waitB.length ≤ 4
  pending : s.pending = p.1

theorem State.kept_iff (q : List Instr) (l : Option (List Out)) (s : State) :
    s.Kept (q, l) ↔ s.tablesOk = true ∧ s.queuesOk = true ∧ s.pending = q ∧ ∀ k, l = some k → s.pulses = k := by
  simp only [State.tablesOk, State.queuesOk, State.pulses, Bool.and_eq_true, decide_eq_true_eq]
  constructor
  · rintro ⟨⟨a, b, c, d, o, n⟩, e, f, g, h, i, j, k, l, m⟩
    exact ⟨⟨⟨⟨⟨a, b⟩, c⟩, e⟩, f⟩, ⟨⟨⟨⟨⟨⟨⟨d, g⟩, h⟩, i⟩, j⟩, k⟩, l⟩, o⟩, m, n⟩
  · rintro ⟨⟨⟨⟨⟨a, b⟩, c⟩, e⟩, f⟩, ⟨⟨⟨⟨⟨⟨⟨d, g⟩, h⟩, i⟩, j⟩, k⟩, l⟩, o⟩, m, n⟩
    exact ⟨⟨a, b, c, d, o, n⟩, e, f, g, h, i, j, k, l, m⟩

/-! ## The shared record -/

variable {l : Option (List Out)} {x : Io}

theorem Io.Kept.wide_lit {l : Option (List Out)} {x : Io} (h : x.Kept l) : canonical (fun _ => 0#64) x.wide = true := h.wide

theorem Io.kept_mk (a b c : SMap Word) (d : SMap Wide) (e : Wide) (f : List ErrRec) (c' : SMap Nat) (g : Nat) (i : Bool) (j : List Out) (k u : Nat)
    (m : List Out) (q : Option (List Out)) :
    Io.Kept q ⟨a, b, c, d, e, f, c', g, i, j, k, u, m⟩ ↔
      canonical resetWord a = true ∧ canonical resetWord b = true ∧ canonical (fun _ => 0) d = true ∧ f.length ≤ 256 ∧
        j.all (fun o => !o.isFire) = true ∧ ∀ k, q = some k → m.filter Out.isFire = k :=
  ⟨fun h => ⟨h.regs, h.sketch, h.wide, h.fifo, h.held, h.fires⟩, fun ⟨a, b, c, d, e, f⟩ => ⟨a, b, c, d, e, f⟩⟩

@[simp] theorem Io.Kept.free (h : x.Kept l) (n : Nat) : Io.Kept l { x with free := n } := ⟨h.regs, h.sketch, h.wide, h.fifo, h.held, h.fires⟩
@[simp] theorem Io.Kept.tick (h : x.Kept l) (t : Wide) : Io.Kept l { x with tick := t } := ⟨h.regs, h.sketch, h.wide, h.fifo, h.held, h.fires⟩
@[simp] theorem Io.Kept.shadow (h : x.Kept l) (m : SMap Word) : Io.Kept l { x with shadow := m } :=
  ⟨h.regs, h.sketch, h.wide, h.fifo, h.held, h.fires⟩

@[simp] theorem Io.Kept.put (h : x.Kept l) (a : Nat) (w : Word) : (x.put a w).Kept l :=
  ⟨canonical_wr a w h.regs, h.sketch, h.wide, h.fifo, h.held, h.fires⟩
@[simp] theorem Io.Kept.set (h : x.Kept l) (f : Field) (v : Nat) : (x.set f v).Kept l := h.put _ _
@[simp] theorem Io.Kept.setWide (h : x.Kept l) (r i : Nat) (v : Wide) : (x.setWide r i v).Kept l :=
  ⟨h.regs, h.sketch, canonical_wr _ v h.wide, h.fifo, h.held, h.fires⟩
@[simp] theorem Io.Kept.emit (h : x.Kept l) (o : Out) (ho : o.isFire = false) : (x.emit o).Kept l :=
  ⟨h.regs, h.sketch, h.wide, h.fifo, h.held, fun k e => by simpa [Io.emit, ho] using h.fires k e⟩
theorem Io.Kept.emit_any (h : x.Kept none) (o : Out) : (x.emit o).Kept none :=
  ⟨h.regs, h.sketch, h.wide, h.fifo, h.held, fun _ e => by cases e⟩
@[simp] theorem Io.Kept.post (h : x.Kept l) (n : Nat) (o : Out) (ho : o.isFire = false) :
    (x.post n o).Kept l := by
  unfold Io.post
  split
  · exact ⟨h.regs, h.sketch, h.wide, h.fifo, by simpa [ho] using h.held, h.fires⟩
  · exact h.emit o ho
@[simp] theorem Io.Kept.resetRange (h : x.Kept l) (lo hi : Nat) (keep : List Nat) : (x.resetRange lo hi keep).Kept l :=
  ⟨canonical_filter _ h.regs, canonical_filter _ h.sketch, h.wide, h.fifo, h.held, h.fires⟩
@[simp] theorem Io.Kept.tillStep (h : x.Kept l) (r t n : Nat) : (x.tillStep r t n).1.Kept l := by
  unfold Io.tillStep; simp only
  split
  · exact h.setWide ..
  · exact (h.setWide ..).set ..
@[simp] theorem Io.Kept.tillFeed {y : Io × List Nat} (h : y.1.Kept l) (a o c i n t : Nat) : (Io.tillFeed a o c i n y t).1.Kept l := by
  unfold Io.tillFeed
  split
  · exact h.tillStep ..
  · exact h
@[simp] theorem Io.Kept.countOnly (h : x.Kept l) (r c i n : Nat) : (x.countOnly r c i n).1.Kept l := by
  unfold Io.countOnly
  have key : ∀ (r0 : Nat) (q : List Nat) (y : Io × List Nat), y.1.Kept l → (q.foldl (Io.tillFeed r0 r c i n) y).1.Kept l :=
    fun r0 q y hy => foldl_keeps (fun y : Io × List Nat => y.1.Kept l) _ (fun y t hy => hy.tillFeed ..) q y hy
  split
  · exact h
  · apply key
    split
    · exact h
    · exact key _ _ _ h
@[simp] theorem Io.Kept.message (h : x.Kept l) (b : Bool) (v : Nat) : (x.message b v).1.Kept l := by
  unfold Io.message
  split
  · exact h.set ..
  · exact (h.countOnly 13 Src.HOST_MSIX_SENT 0 1).post _ _ rfl
@[simp] theorem Io.Kept.sendIrq (h : x.Kept l) (n : Nat) : (x.sendIrq n).1.Kept l := by
  unfold Io.sendIrq
  split
  · exact h.message ..
  · exact h
@[simp] theorem Io.Kept.irqOnce (h : x.Kept l) (n : Nat) : (x.irqOnce n).1.Kept l := by
  unfold Io.irqOnce
  split
  · exact h
  · exact (h.set ..).sendIrq ..
@[simp] theorem Io.Kept.settleIrq {y : Io × List Nat} (h : y.1.Kept l) : (Io.settleIrq y).Kept l :=
  foldl_keeps (Io.Kept l) _ (fun _ _ h => h.irqOnce _) _ _ h
@[simp] theorem Io.Kept.irq (h : x.Kept l) (n : Nat) : (x.irq n).Kept l := (h.irqOnce n).settleIrq
@[simp] theorem Io.Kept.regionIrq (h : x.Kept l) (r : Nat) : (x.regionIrq r).Kept l := h.irq _
@[simp] theorem Io.Kept.count (h : x.Kept l) (r c i n : Nat) : (x.count r c i n).Kept l :=
  foldl_keeps (Io.Kept l) _ (fun _ _ h => h.regionIrq _) _ _ (h.countOnly r c i n)
@[simp] theorem Io.Kept.lose (h : x.Kept l) : x.lose.Kept l := ((h.set ..).count ..).regionIrq _
@[simp] theorem Io.Kept.record (h : x.Kept l) (e : ErrRec) : (x.record e).Kept l := by
  unfold Io.record; simp only
  split
  · rename_i k
    have c := h.count 0 Src.CHIP_ERR_RECORDS (e.level % 4) 1
    exact ⟨c.regs, c.sketch, c.wide, by simp only [List.length_append, List.length_singleton]; omega, c.held, c.fires⟩
  · exact (h.count ..).lose
@[simp] theorem Io.Kept.err (h : x.Kept l) (e : Err) : (x.err e).Kept l := h.record _

/-! ## The whole state -/

variable {p : List Instr × Option (List Out)} {s : State}

@[simp] theorem State.kept_io (f : Io → Io) (h : s.Kept p) (k : ∀ x : Io, x.Kept p.2 → (f x).Kept p.2) : (s.io' f).Kept p :=
  ⟨k _ h.io, h.pm, h.dm, h.log, h.ptm, h.capQ, h.smTx, h.waitA, h.waitB, h.pending⟩

@[simp] theorem State.kept_put (h : s.Kept p) (a : Nat) (w : Word) : (s.put a w).Kept p := State.kept_io _ h fun _ k => (k.put a w)
@[simp] theorem State.kept_set (h : s.Kept p) (f : Field) (v : Nat) : (s.set f v).Kept p := State.kept_io _ h fun _ k => (k.set f v)
@[simp] theorem State.kept_setBit (h : s.Kept p) (f : Field) (b : Bool) : (s.setBit f b).Kept p := State.kept_set h f _
@[simp] theorem State.kept_setWide (h : s.Kept p) (r i : Nat) (v : Wide) : (s.setWide r i v).Kept p := State.kept_io _ h fun _ k => (k.setWide r i v)
@[simp] theorem State.kept_emit (h : s.Kept p) (o : Out) (ho : o.isFire = false) : (s.emit o).Kept p :=
  State.kept_io _ h fun _ k => k.emit o ho
theorem State.kept_emit_any {q : List Instr} (h : s.Kept (q, none)) (o : Out) : (s.emit o).Kept (q, none) :=
  State.kept_io _ h fun _ k => k.emit_any o
theorem State.Kept.forget {q : List Instr} {l : Option (List Out)} (h : s.Kept (q, l)) : s.Kept (q, none) :=
  ⟨⟨h.io.regs, h.io.sketch, h.io.wide, h.io.fifo, h.io.held, fun _ e => by cases e⟩, h.pm, h.dm, h.log, h.ptm, h.capQ, h.smTx,
    h.waitA, h.waitB, h.pending⟩
@[simp] theorem State.kept_irq (h : s.Kept p) (n : Nat) : (s.irq n).Kept p := State.kept_io _ h fun _ k => (k.irq n)
@[simp] theorem State.kept_regionIrq (h : s.Kept p) (r : Nat) : (s.regionIrq r).Kept p := State.kept_io _ h fun _ k => (k.regionIrq r)
@[simp] theorem State.kept_count (h : s.Kept p) (r c i n : Nat) : (s.count r c i n).Kept p := State.kept_io _ h fun _ k => (k.count r c i n)
@[simp] theorem State.kept_err (h : s.Kept p) (e : Err) : (s.err e).Kept p := State.kept_io _ h fun _ k => (k.err e)
@[simp] theorem State.kept_bump (h : s.Kept p) (f : Field) (n : Nat) : (s.bump f n).Kept p := State.kept_set h f _
@[simp] theorem State.kept_bumpSat (h : s.Kept p) (f : Field) (n : Nat) : (s.bumpSat f n).Kept p := State.kept_set h f _
@[simp] theorem State.kept_reach (h : s.Kept p) (t : Wide) : (s.reach t).Kept p :=
  State.kept_io _ h fun _ k => by split <;> exact ⟨k.regs, k.sketch, k.wide, k.fifo, k.held, k.fires⟩
@[simp] theorem State.kept_drawWord (h : s.Kept p) : s.drawWord.2.Kept p :=
  State.kept_io (fun x => { x with free := x.free + 1 }) h fun _ k => k.free _
@[simp] theorem State.kept_drawNat (h : s.Kept p) (n : Nat) : (s.drawNat n).2.Kept p :=
  State.kept_io (fun x => { x with free := x.free + 1 }) h fun _ k => k.free _
@[simp] theorem State.kept_drawBit (h : s.Kept p) : s.drawBit.2.Kept p :=
  State.kept_io (fun x => { x with free := x.free + 1 }) h fun _ k => k.free _
@[simp] theorem State.kept_onlyIf (b : Bool) (f : State → State) (h : s.Kept p) (k : (f s).Kept p) :
    (s.onlyIf b f).Kept p := by
  cases b
  · exact h
  · exact k
@[simp] theorem State.kept_each {α : Type} (l : List α) (f : α → State → State) (h : s.Kept p)
    (k : ∀ (a : α) (s : State), s.Kept p → (f a s).Kept p) : (s.each l f).Kept p :=
  foldl_keeps (State.Kept p) _ (fun s a h => k a s h) l s h
@[simp] theorem State.kept_foldl {α : Type} (l : List α) (f : State → α → State) (h : s.Kept p)
    (k : ∀ (s : State) (a : α), s.Kept p → (f s a).Kept p) : (l.foldl f s).Kept p :=
  foldl_keeps (State.Kept p) _ k l s h
@[simp] theorem State.kept_ite (c : Prop) [Decidable c] {a b : State} (h : a.Kept p) (k : b.Kept p) :
    (if c then a else b).Kept p := by
  split
  · exact h
  · exact k

@[simp] theorem State.kept_tbas_upd (f : Tbas → Tbas) (h : s.Kept p) (k_ptm : ∀ x : Tbas, x.ptm.length ≤ 16 → (f x).ptm.length ≤ 16) :
    (s.tbas' f).Kept p := ⟨h.io, h.pm, h.dm, h.log, k_ptm _ h.ptm, h.capQ, h.smTx, h.waitA, h.waitB, h.pending⟩
@[simp] theorem State.kept_scan_upd (f : Scan → Scan) (h : s.Kept p) (k_pm : ∀ x : Scan, canonical (fun _ => 0) x.pm = true → canonical (fun _ => 0) (f x).pm = true) (k_dm : ∀ x : Scan, canonical (fun _ => 0) x.dm = true → canonical (fun _ => 0) (f x).dm = true) :
    (s.scan' f).Kept p := ⟨h.io, k_pm _ h.pm, k_dm _ h.dm, h.log, h.ptm, h.capQ, h.smTx, h.waitA, h.waitB, h.pending⟩
@[simp] theorem State.kept_emit_upd (f : Emit → Emit) (h : s.Kept p) :
    (s.emit' f).Kept p := ⟨h.io, h.pm, h.dm, h.log, h.ptm, h.capQ, h.smTx, h.waitA, h.waitB, h.pending⟩
@[simp] theorem State.kept_lnk_upd (f : Lnk → Lnk) (h : s.Kept p) :
    (s.lnk' f).Kept p := ⟨h.io, h.pm, h.dm, h.log, h.ptm, h.capQ, h.smTx, h.waitA, h.waitB, h.pending⟩
@[simp] theorem State.kept_hst_upd (f : Hst → Hst) (h : s.Kept p) :
    (s.hst' f).Kept p := ⟨h.io, h.pm, h.dm, h.log, h.ptm, h.capQ, h.smTx, h.waitA, h.waitB, h.pending⟩
@[simp] theorem State.kept_outp_upd (f : Outp → Outp) (h : s.Kept p) :
    (s.outp' f).Kept p := ⟨h.io, h.pm, h.dm, h.log, h.ptm, h.capQ, h.smTx, h.waitA, h.waitB, h.pending⟩
@[simp] theorem State.kept_host_upd (f : HostIf → HostIf) (h : s.Kept p) :
    (s.host' f).Kept p := ⟨h.io, h.pm, h.dm, h.log, h.ptm, h.capQ, h.smTx, h.waitA, h.waitB, h.pending⟩
@[simp] theorem State.kept_memc_upd (f : Memc → Memc) (h : s.Kept p) (k_capQ : ∀ x : Memc, x.capQ.length ≤ 16 → (f x).capQ.length ≤ 16) :
    (s.memc' f).Kept p := ⟨h.io, h.pm, h.dm, h.log, h.ptm, k_capQ _ h.capQ, h.smTx, h.waitA, h.waitB, h.pending⟩
@[simp] theorem State.kept_moni_upd (f : Moni → Moni) (h : s.Kept p) :
    (s.moni' f).Kept p := ⟨h.io, h.pm, h.dm, h.log, h.ptm, h.capQ, h.smTx, h.waitA, h.waitB, h.pending⟩
@[simp] theorem State.kept_safe_upd (f : Safe → Safe) (h : s.Kept p) (k_smTx : ∀ x : Safe, x.smTx.length ≤ 4 → (f x).smTx.length ≤ 4) (k_waitA : ∀ x : Safe, x.waitA.length ≤ 4 → (f x).waitA.length ≤ 4) (k_waitB : ∀ x : Safe, x.waitB.length ≤ 4 → (f x).waitB.length ≤ 4) :
    (s.safe' f).Kept p := ⟨h.io, h.pm, h.dm, h.log, h.ptm, h.capQ, k_smTx _ h.smTx, k_waitA _ h.waitA, k_waitB _ h.waitB, h.pending⟩
@[simp] theorem State.kept_mgmt_upd (f : Mgmt → Mgmt) (h : s.Kept p) (k_log : ∀ x : Mgmt, x.log.length ≤ 4096 → (f x).log.length ≤ 4096) :
    (s.mgmt' f).Kept p := ⟨h.io, h.pm, h.dm, k_log _ h.log, h.ptm, h.capQ, h.smTx, h.waitA, h.waitB, h.pending⟩
@[simp] theorem State.kept_secu_upd (f : Secu → Secu) (h : s.Kept p) :
    (s.secu' f).Kept p := ⟨h.io, h.pm, h.dm, h.log, h.ptm, h.capQ, h.smTx, h.waitA, h.waitB, h.pending⟩
@[simp] theorem State.kept_chip_upd (f : Chip → Chip) (h : s.Kept p) :
    (s.chip' f).Kept p := ⟨h.io, h.pm, h.dm, h.log, h.ptm, h.capQ, h.smTx, h.waitA, h.waitB, h.pending⟩

/-! ## Answers -/

/-- An answer is a next state that keeps them, or the command was ill formed. -/
def Res.Kept (p : List Instr × Option (List Out)) (r : Res) : Prop := (∃ t, r = .next t ∧ t.Kept p) ∨ r = .fault .illFormed

@[simp] theorem Res.kept_next (h : s.Kept p) : Res.Kept p (.next s) := .inl ⟨s, rfl, h⟩
@[simp] theorem Res.kept_ok (h : s.Kept p) : Res.Kept p (ok s) := Res.kept_next h
@[simp] theorem Res.kept_fault : Res.Kept p (.fault .illFormed) := .inr rfl
@[simp] theorem Res.kept_ite (c : Prop) [Decidable c] {a b : Res} (h : Res.Kept p a) (k : Res.Kept p b) :
    Res.Kept p (if c then a else b) := by
  split
  · exact h
  · exact k

end Sys2Proof.Machine
end

