-- ==== Sys2Proof/Laws/Access.lean ====
section
/-!
SUPPORT. How an access reaches its register, or ends (R28, R430, R448), what an event and an output pin need, and when a queue refuses
nothing (R471): one equation per case.
-/
namespace Sys2Proof.Machine

variable {s : State} {who : Actor} {a : Nat} {f : State → Res}

/-! ## Accesses -/

theorem State.writeBy_served (h : s.attends who = true) (g : s.gated a = false) : s.writeBy who a f = f s := by
  simp [State.writeBy, h, g]

theorem State.writeBy_gated (h : s.attends who = true) (g : s.gated a = true) : s.writeBy who a f = ok (s.gateAbort who a true) := by
  simp [State.writeBy, h, g]

theorem State.writeBy_absent (h : s.attends who = false) : s.writeBy who a f = ok s := by simp [State.writeBy, h]

theorem State.readBy_served (h : s.attends who = true) (g : s.gated a = false) : s.readBy who a f = f s := by
  simp [State.readBy, h, g]

theorem State.readBy_gated (h : s.attends who = true) (g : s.gated a = true) : s.readBy who a f = ok (s.gateAbort who a false) := by
  simp [State.readBy, h, g]

theorem State.readBy_absent (h : s.attends who = false) : s.readBy who a f = ok s := by simp [State.readBy, h]

theorem State.writeRow_served (h : s.powered = true) (g : s.gated a = false) : s.writeRow a f = f s := by
  simp [State.writeRow, h, g]

theorem State.writeRow_gated (h : s.powered = true) (g : s.gated a = true) : s.writeRow a f = ok (s.gateAbort .host a true) := by
  simp [State.writeRow, h, g]

theorem State.writeRow_unpowered (h : s.powered = false) : s.writeRow a f = ok s := by simp [State.writeRow, h]

theorem State.whenOn_powered (h : s.powered = true) : s.whenOn f = f s := by simp [State.whenOn, h]

theorem State.whenOn_unpowered (h : s.powered = false) : s.whenOn f = ok s := by simp [State.whenOn, h]

/-! ## Pins and queues -/

theorem State.emitPin_driven (h : s.chip.railIo = true) (o : Out) : s.emitPin o = s.emit o := by simp [State.emitPin, h, State.onlyIf]

theorem State.emitPin_still (h : s.chip.railIo = false) (o : Out) : s.emitPin o = s := by simp [State.emitPin, h, State.onlyIf]

/-- A region whose PROB is 0 refuses nothing. -/
theorem State.refuses_calm {r : Nat} (h : s.get (Fd.PERTURB_BP_PROB r) = 0) (q : Nat) : s.refuses r q = false := by
  simp [State.refuses, h]

/-! ## What they keep -/

variable {p : List Instr × Option (List Out)}

@[simp] theorem State.kept_emitPin (h : s.Kept p) (o : Out) (ho : o.isFire = false) : (s.emitPin o).Kept p :=
  State.kept_onlyIf _ _ h (State.kept_emit h o ho)

theorem State.kept_whenOn (h : s.Kept p) (k : Res.Kept p (f s)) : Res.Kept p (s.whenOn f) := by
  unfold State.whenOn
  split
  · exact k
  · exact Res.kept_ok h

end Sys2Proof.Machine
end

