-- ==== Sys2Proof/Tests/Slice0.lean ====
section
/-!
SUPPORT. For each statement with hypotheses, inputs that meet them, clause by clause; a term that each check of well-formedness
refuses; the worked examples of the manual that bear on one operation; and single steps.
-/

namespace Sys2Proof.Tests

open Sys2Proof Sys2Proof.Machine

set_option Elab.async false

/-! ## States and operands for the witnesses -/

/-- Powered, the firmware runs, and the link is up. -/
def up : State :=
  ((State.reset.set Fd.CHIP_BOOT_STAT_DONE 1).set Fd.HOST_LINK_STAT_DL_UP 1).mgmt' fun m => { m with booted := true }
def run0 : State := up.set (Fd.SCAN_EASEL_STAT_STATE 0) 1
def fields (d a b x : Nat) : Fields := ⟨BitVec.ofNat 5 d, BitVec.ofNat 5 a, BitVec.ofNat 5 b, 0, false, BitVec.ofNat 37 x⟩
def aLine : LineRec :=
  { seq := 1, frame := 0, era := 0, easel := 0, desc := 0, start := 1000, dwell := 128000, isFrame := true, lmode := 0 }
def aShot : Shot := { fire := 2000, line := 1, index := 0, easel := 0, listen := false, desc0 := 2000 }
def aPdu : Pdu := { version := 1, mtype := 2, src := 5, seq := 1, stamp := 9, payload := 0, crc := 0 }
def goodPdu : Pdu := { aPdu with crc := crc32c (pduBody aPdu) }
def anImage : Image :=
  { magic := 0x4D495645, type := 2, hver := 1, svn := 1, bodyLen := 1, bind := 0, bodyHash := 0, signer := 1, keyIdx := 0
    sig := ⟨[], []⟩, body := [7] }
def aToken : Token :=
  { magic := 0x4B545645, type := 1, target := 1, signer := 1, keyIdx := 0, ueid := 0, nonce := 0, duration := 60, sig := ⟨[], []⟩ }
def anErr : ErrRec :=
  { level := 1, warning := false, region := 2, block := 1, action := 3, cell := 4, code := 0x0201, tick := 0, era := 0, count := 1
    rep := 1, detail := 0, rseq := 0 }
def aConv : HkConv := { port := none, input := 1 }
def aTiu : TiuShot := { fire := 100, line := 1, index := 0, stops := 2, diag := false, opens := 1, closes := 20 }
def aRead : ReadBank := { sector := 0, line := 1, stop := 500, readAt := 900, pal := 0, bank := { from_ := none } }
def aPort : Port := { req := .line 3 5000000 128000 true 0, gd := 4, pd := 2 }
def aJob : StkJob := { line := 1, slot := 0, depth := 3, fresh := true, dt := 0, done := 900, header := {} }
def asking (op len : Nat) (s : State) : State :=
  { (s.set (mbxReq 0) op |>.set (mbxReq 1) len |>.set Fd.MBX_STAT_BUSY 1) with mgmt := { s.mgmt with booted := true } }
def rxCopy (s : State) : State :=
  s.each (List.range 8) fun k s => s.set (Fd.SM_RX_WORD k) (leNat (((pduBytes goodPdu).drop (4 * k)).take 4))
def capReady : State :=
  (((up.set Fd.MEMC_MEM_STAT_INIT_DONE 1).set Fd.MEMC_CAP_BUF_MIB 1).set Fd.MEMC_CAP_SRC_STREAM 1).set Fd.MEMC_CAP_MASK_MASK 1
def ARMCAP : State :=
  ((capReady.latchCap).set Fd.MEMC_CAP_STAT_STATE capARMED).memc' fun m =>
    { m with segs := [{ base := 0, n := 1 }], last := some ⟨900, 0, 0⟩ }
def POSTCAP (n : Nat) : State :=
  (((capReady.set Fd.MEMC_CAP_BUF_NSEG n).latchCap).set Fd.MEMC_CAP_STAT_STATE capPOST).memc' fun m =>
    { m with segs := [{ base := 0, n := 10, from_ := some 5 }], stored := 2000 }
def capSeg : CapSeg := { samples := (List.range 520).map fun k => ⟨1000 + k, 0, 5⟩, n := 520, base := 0, from_ := some 0 }
def EXPCAP (at_ : Option Nat) : State :=
  (((((capReady.set Fd.MEMC_CAP_PTC_PTC 520).set Fd.MEMC_CAP_CTL_CHUNK 2).latchCap).set Fd.MEMC_CAP_STAT_STATE capEXPORT).memc' fun m => { m with segs := [capSeg], expAt := at_ }).set
    (Fd.HOST_RING_STAT_STATE 12) rRUN |>.ring' 12 fun x => { x with descs := [⟨0x1000, 16384, 7⟩] }
/-- A message without error, with MSEQ 0. -/
def msgOf (own hdata : Nat) (payload : List Wide) : MsgHdr :=
  ⟨1, BitVec.ofNat 8 payload.length, 0, messageCrc own payload.length 0 hdata payload, false⟩
/-- The time base runs. -/
def live (s : State) : State := s.tbas' fun b => { b with running := true }
/-- A tile port in state n, at KL2. -/
def portIn (n : Nat) (f : TilePort → TilePort) : State :=
  ((up.set (Fd.LNK_TILE_STAT_STATE 0) n).set (Fd.LNK_TILE_STAT_GEN 0) 2).port' 0 f

/-! ## Witnesses -/

/-- Inputs that meet the hypotheses of AccessesComplete, clause by clause. -/
theorem witness_AccessesComplete :
    (∃ (who : Actor) (v : Word) (r : Fin 19) (s : State), s.attends who = true ∧ reaches who .bar0 = true ∧
        s.gated (0x200000 * r) = false ∧ s.withheld who (0x200000 * r) true v = false) ∧
    (∃ (who : Actor) (off : BitVec 32) (v : Word) (row : RegRow) (idx : Nat) (s : State), s.attends who = true ∧
        reaches who .bar0 = true ∧ (off.toNat / 0x200000 = 12 ∨ off.toNat / 0x200000 = 16) ∧ off.toNat % 4 = 0 ∧
        isSketchView off.toNat = false ∧ 0x10000 ≤ off.toNat % 0x200000 ∧ off.toNat % 0x200000 < 0xF0000 ∧
        findRow off.toNat = some (row, idx) ∧ row.onlyStaged = false ∧ s.reservedWrite row off.toNat v = false ∧
        s.gated off.toNat = false ∧ s.withheld who off.toNat true v = false) ∧
    (∃ (who : Actor) (off : BitVec 32) (s : State), s.attends who = true ∧ reaches who .bar0 = true ∧ off.toNat < 0x04000000 ∧
        off.toNat % 4 = 0 ∧ s.gated off.toNat = false ∧ s.withheld who (normalAddr off.toNat) false 0 = false ∧
        reservedToRead off.toNat = true) ∧
    (∃ (k : Fin 224) (s : State), s.attends .host = true ∧ s.gated (0x04080000 + 16 * k) = false) ∧
    (∃ (who : Actor) (off : BitVec 32) (size : AccSize) (s : State), s.attends who = true ∧ reaches who .bar0 = true ∧
        off.toNat < 0x04000000 ∧ sizeFits size off.toNat = false) ∧
    (∃ (who : Actor) (s : State), s.attends who = false) ∧
    (∃ (i : Instr) (s : State), i.wf = true ∧ s.admits i = false) ∧
    (∃ (who : Actor) (off : BitVec 32) (v : Word) (s : State), s.attends who = true ∧ stagedMask (normalAddr off.toNat) ≠ 0 ∧
        s.gated (normalAddr off.toNat) = false ∧ s.withheld who (normalAddr off.toNat) true v = false) ∧
    (∃ (who : Actor) (off : BitVec 32) (s : State), s.attends who = true ∧ s.gated (normalAddr off.toNat) = true) ∧
    (∃ (who : Actor) (off : BitVec 32) (v : Word) (s : State), s.attends who = true ∧ s.gated (normalAddr off.toNat) = false ∧
        (s.withheld who (normalAddr off.toNat) true v = true ∨ stagedMask (normalAddr off.toNat) = 0)) :=
  ⟨⟨.host, 3, 0, up, by decide +kernel⟩,
   ⟨.host, 0x02010000, 1, ((findRow 0x02010000).map Prod.fst).getD ⟨0, [], []⟩, 0, up, by decide +kernel⟩,
   ⟨.host, 0x02A00000, up, by decide +kernel⟩,
   ⟨0, up, by decide +kernel⟩,
   ⟨.host, 0x02A00000, .qword, up, by decide +kernel⟩,
   ⟨.host, State.reset, by decide +kernel⟩,
   ⟨.proofGo .host, State.reset, by decide +kernel⟩,
   ⟨.host, 0x00490000, 3, up, by decide +kernel⟩,
   ⟨.host, 0x00800000, ((up).chip' fun y => { y with hush := 4 }), by decide +kernel⟩,
   ⟨.host, 0x02A00000, 3, up, by decide +kernel⟩⟩

/-- Inputs that meet the hypotheses of ProofAndCommitComplete, clause by clause. -/
theorem witness_ProofAndCommitComplete :
    (∃ (who : Actor) (s : State), s.admits (.proofGo who) = true) ∧
    (∃ (s : State), s.get Fd.CHIP_PROOF_STATUS_STATE = 1) ∧
    (∃ (who : Actor) (s : State), s.admits (.commitGo who false) = true ∧
        s.refusal (s.get Fd.CHIP_COMMIT_INSTANT) s.commitTick = (0, 0)) ∧
    (∃ (who : Actor) (both : Bool) (s : State), s.admits (.commitGo who both) = true ∧
        (s.refusal (s.get Fd.CHIP_COMMIT_INSTANT) s.commitTick).1 ≠ 0) ∧
    (∃ (who : Actor) (s : State), s.admits (.commitGo who true) = true ∧ s.admits (.commitGo .firmware false) = true ∧
        s.refusal (s.get Fd.CHIP_COMMIT_INSTANT) s.commitTick = (0, 0) ∧ srcOf who ≠ 0) ∧
    (∃ (who : Actor) (s : State), s.admits (.commitAbort who) = true ∧ s.commitWaiting = false) ∧
    (∃ (who : Actor) (s : State), s.admits (.commitAbort who) = true ∧ s.commitWaiting = true) ∧
    (∃ (s : State), s.commitFixed = true ∧ s.tbas.running = true ∧ s.inCount s.varnishTick = true) ∧
    (∃ (s : State), (s.commitFixed = false ∨ s.tbas.running = false ∨ s.inCount s.varnishTick = false)) ∧
    (∃ (s : State), s.get Fd.CHIP_PROOF_STATUS_STATE ≠ 1) :=
  ⟨⟨.firmware, up, by decide +kernel⟩,
   ⟨((State.reset).set Fd.CHIP_PROOF_STATUS_STATE (1)), by decide +kernel⟩,
   ⟨.firmware, (((up).set Fd.CHIP_PROOF_STATUS_STATE 2).chip' fun y => { y with proofFresh := true }), by decide +kernel⟩,
   ⟨.firmware, true, up, by decide +kernel⟩,
   ⟨.host, (((up).set Fd.CHIP_PROOF_STATUS_STATE 2).chip' fun y => { y with proofFresh := true }), by decide +kernel⟩,
   ⟨.firmware, up, by decide +kernel⟩,
   ⟨.firmware, (((up).chip' fun y => { y with phase := 1 })), by decide +kernel⟩,
   ⟨((((((State.reset).chip' fun y => { y with phase := 2 }))).tbas' fun y => { y with running := true })), by decide +kernel⟩,
   ⟨State.reset, by decide +kernel⟩,
   ⟨State.reset, by decide +kernel⟩⟩

/-- Inputs that meet the hypotheses of WideReadsAndMailboxComplete, clause by clause. -/
theorem witness_WideReadsAndMailboxComplete :
    (∃ (who : Actor) (s : State), s.admits (.snapGo who) = true) ∧
    (∃ (d : Wide) (s : State), s.chip.snapDue = some d ∧ s.timely d = true) ∧
    (∃ (fw : Bool) (r : Fin 19) (idx : BitVec 16) (s : State), s.admits (.wideSel fw r idx) = true ∧
        s.withheld (wideActor fw) (wideSelF fw r).off true 0 = false ∧ s.tillIndexClosed (wideActor fw) idx.toNat = false ∧
        s.get (Fd.RGN_CTL_SNAP_MODE r) = 0 ∧ wideNamed r idx.toNat = true) ∧
    (∃ (fw : Bool) (r : Fin 19) (idx : BitVec 16) (s : State), s.admits (.wideSel fw r idx) = true ∧
        s.withheld (wideActor fw) (wideSelF fw r).off true 0 = false ∧ s.tillIndexClosed (wideActor fw) idx.toNat = false ∧
        s.get (Fd.RGN_CTL_SNAP_MODE r) = 0 ∧ wideNamed r idx.toNat = false) ∧
    (∃ (fw : Bool) (r : Fin 19) (idx : BitVec 16) (s : State), s.admits (.wideSel fw r idx) = true ∧
        s.withheld (wideActor fw) (wideSelF fw r).off true 0 = false ∧ s.tillIndexClosed (wideActor fw) idx.toNat = false ∧
        s.get (Fd.RGN_CTL_SNAP_MODE r) = 1) ∧
    (∃ (fw : Bool) (r : Fin 19) (s : State), s.chip.latch.contains (latchKey fw r) = true ∧ s.restarting r = false) ∧
    (∃ (s : State), s.admits .mbxGo = true ∧ s.get Fd.MBX_STAT_BUSY = 0) ∧
    (∃ (s : State), s.admits .mbxGo = true ∧ s.get Fd.MBX_STAT_BUSY = 1) ∧
    (∃ (i : Instr) (n : Nat) (op : Nat) (fits : Bool) (s : State), mbxForm n i = some (op, fits) ∧ s.serves op = false) ∧
    (∃ (i : Instr) (n : Nat) (op : Nat) (fits : Bool) (s : State), mbxForm n i = some (op, fits) ∧ fits = false ∧ s.asks op n) ∧
    (∃ (r : Reply) (s : State), s.admits .mbxAbort = true ∧ s.get Fd.MBX_STAT_BUSY = 1 ∧ s.mgmt.reply = some r ∧
        r.past = true ∧ s.reqOpcode ≠ 0x0201) ∧
    (∃ (s : State), s.admits .mbxAbort = true ∧ s.get Fd.MBX_STAT_BUSY = 1 ∧ s.mgmt.reply.any Reply.past = false) ∧
    (∃ (r : Reply) (s : State), s.get Fd.MBX_STAT_BUSY = 1 ∧ s.fwRuns = true ∧ s.mbxResult = some r) :=
  ⟨⟨.firmware, up, by decide +kernel⟩,
   ⟨777, ((((((State.reset).chip' fun y => { y with snapDue := some (777 : Wide) }))).tbas' fun y =>
       { y with running := true })), by decide +kernel⟩,
   ⟨true, 1, 0, ((up).set (Fd.RGN_CTL_SNAP_MODE (1 : Fin 19)) (0)), by decide +kernel⟩,
   ⟨true, 1, 5, ((up).set (Fd.RGN_CTL_SNAP_MODE (1 : Fin 19)) (0)), by decide +kernel⟩,
   ⟨true, 1, 0, ((up).set (Fd.RGN_CTL_SNAP_MODE (1 : Fin 19)) (1)), by decide +kernel⟩,
   ⟨true, 1, (((State.reset).chip' fun y => { y with latch := [(latchKey (true : Bool) (1 : Fin 19))] })), by decide +kernel⟩,
   ⟨((up).set Fd.MBX_STAT_BUSY (0)), by decide +kernel⟩,
   ⟨((up).set Fd.MBX_STAT_BUSY (1)), by decide +kernel⟩,
   ⟨.lcInfo, 0, 0x0101, true, State.reset, by decide +kernel⟩,
   ⟨.lcInfo, 5, 0x0101, false, asking 0x0101 5 State.reset, by unfold State.asks; decide +kernel⟩,
   ⟨{ status := stOK, past := true },
       (((up.set Fd.MBX_STAT_BUSY 1).set (mbxReq 0) 0x0102).mgmt' fun y_ =>
       { y_ with reply := some { status := stOK, past := true } }), by decide +kernel⟩,
   ⟨(((((up).set Fd.MBX_STAT_BUSY (1))).mgmt' fun y => { y with reply := none })), by decide +kernel⟩,
   ⟨{ status := stOK },
       (((((up.set Fd.MBX_STAT_BUSY 1).set (mbxReq 0) 0x0102).mgmt' fun y =>
       { y with reply := some { status := stOK } })).mgmt' fun y => { y with booted := true }), by decide +kernel⟩⟩

/-- Inputs that meet the hypotheses of OvenAndWarmUpComplete, clause by clause. -/
theorem witness_OvenAndWarmUpComplete :
    (∃ (ratio : Nat) (s : State), s.tbas.ovenOn = true ∧ s.get Fd.TBAS_OVN_CTL_EN = 1 ∧ s.tbas.ovenHeld = false ∧
        ratio ∈ s.tbas.ratios ∧ (∀ x ∈ s.tbas.ratios, x = ratio) ∧ ratio < 2 ^ 24 ∧ s.ovenOpens = false ∧
        s.get Fd.TBAS_OVN_SET_SETPT + 20 * s.get Fd.TBAS_OVN_BAND_BAND < ratio) ∧
    (∃ (ratio : Nat) (s : State), s.tbas.ovenOn = true ∧ s.get Fd.TBAS_OVN_CTL_EN = 1 ∧ s.tbas.ovenHeld = false ∧
        ratio ∈ s.tbas.ratios ∧ (∀ x ∈ s.tbas.ratios, x = ratio) ∧ ratio < 2 ^ 24 ∧ s.ovenOpens = false ∧
        ratio ≤ s.get Fd.TBAS_OVN_SET_SETPT + 20 * s.get Fd.TBAS_OVN_BAND_BAND ∧ s.get Fd.TBAS_OVN_SET_SETPT ≤ ratio * 64) ∧
    (∃ (s : State), s.tbas.ovenOn = true ∧ s.get Fd.TBAS_OVN_CTL_EN = 1 ∧ s.tbas.ovenHeld = false ∧ s.tbas.ratios = [] ∧
        s.ovenOpens = false) ∧
    (∃ (ratio : Nat) (s : State), s.tbas.ovenOn = true ∧ s.get Fd.TBAS_OVN_CTL_EN = 1 ∧ s.tbas.ovenHeld = false ∧
        ratio ∈ s.tbas.ratios ∧ (∀ x ∈ s.tbas.ratios, x = ratio) ∧ ratio < 2 ^ 24 ∧ ratio * 64 < s.get Fd.TBAS_OVN_SET_SETPT) ∧
    (∃ (ratio : Nat) (s : State), s.tbas.ovenOn = true ∧ (s.get Fd.TBAS_OVN_CTL_EN = 0 ∨ s.tbas.ovenHeld = true) ∧
        ratio ∈ s.tbas.ratios ∧ (∀ x ∈ s.tbas.ratios, x = ratio) ∧ ratio < 2 ^ 24) ∧
    (∃ (s : State), s.tbas.entered = true ∧ 12000 ≤ s.tbas.atMax ∧ s.get Fd.TBAS_OVN_STAT_OVN_SAT = 0) ∧
    (∃ (who : Actor) (s : State), s.admits (.ovnFaultClear who) = true) ∧
    (∃ (s : State), s.ovenOk = true ∧ s.freqOk = true ∧ s.tbas.oven.valid = true ∧ s.get Fd.TBAS_OVN_STAT_OVN_FAULT = 0) ∧
    (∃ (s : State), s.get Fd.TBAS_TB_STAT_TB_WARM = 0 ∧ (200 < s.tbas.outBand ∨ (s.holdMode = false ∧ ppm1 < s.rate.natAbs))) :=
  ⟨⟨0x480000, ((((State.reset.set Fd.TBAS_OVN_CTL_EN 1).tbas' fun y_ => { y_ with ovenOn := true })).tbas' fun y_ =>
      { y_ with ratios := [(0x480000 : Nat)] }), by decide +kernel⟩,
   ⟨0x20000, ((((State.reset.set Fd.TBAS_OVN_CTL_EN 1).tbas' fun y_ => { y_ with ovenOn := true })).tbas' fun y_ =>
       { y_ with ratios := [(0x20000 : Nat)] }), by decide +kernel⟩,
   ⟨((((((((State.reset).tbas' fun y => { y with ovenOn := true }))).set Fd.TBAS_OVN_CTL_EN (1))).tbas' fun y =>
       { y with ovenHeld := false })), by decide +kernel⟩,
   ⟨0x100, (((((State.reset.set Fd.TBAS_OVN_CTL_EN 1).tbas' fun y_ => { y_ with ovenOn := true })).tbas' fun y_ =>
       { y_ with ratios := [(0x100 : Nat)] })).set Fd.TBAS_OVN_SET_SETPT 0x20000, by decide +kernel⟩,
   ⟨0x20000, ((((((State.reset).tbas' fun y_ => { y_ with ovenOn := true })).tbas' fun y_ =>
       { y_ with ratios := [(0x20000 : Nat)] })).tbas' fun y_ => { y_ with ovenHeld := true }), by decide +kernel⟩,
   ⟨(((((((State.reset).tbas' fun y => { y with entered := true }))).set Fd.TBAS_OVN_STAT_OVN_SAT (0))).tbas' fun y =>
       { y with atMax := 12000 }), by decide +kernel⟩,
   ⟨.firmware, up, by decide +kernel⟩,
   ⟨((((((State.reset).tbas' fun y => { y with inBand := 6000 })).tbas' fun y => { y with oven := { valid := true } })).tbas'
       fun y => { y with ovenUpd := 24000 }), by decide +kernel⟩,
   ⟨((((State.reset).set Fd.TBAS_TB_STAT_TB_WARM (0))).tbas' fun y => { y with outBand := 201 }), by decide +kernel⟩⟩

/-- Inputs that meet the hypotheses of PtmCompletes, clause by clause. -/
theorem witness_PtmCompletes :
    (∃ (s : State), s.ptmActive = true ∧ s.tbas.ptmBusy = false ∧ s.timely s.ptmDue = true) ∧
    (∃ (s : State), s.tbas.ptmBusy = true ∧ s.ptmActive = true) ∧
    (∃ (good : Bool) (s : State), s.tbas.ptmBusy = true ∧ (good = false ∨ s.ptmActive = false)) ∧
    (∃ (s : State), s.ptmActive = false ∧ s.tbas.ptmDown = true ∧ s.timely s.ptmDue = true) ∧
    (∃ (b : Wide) (s : State), s.tbas.trimBound = some b ∧ s.holdMode = false ∧ s.get Fd.TBAS_PTM_CTL_STEER = 1 ∧
        (10 * ticksPerS : Int) ≤ ahead b s.tick) ∧
    (∃ (who : Actor) (s : State), s.admits (.ptmDisagreeClear who) = true) :=
  ⟨⟨((((State.reset.set Fd.CFG_PTM_EN 1).set Fd.TBAS_PTM_CTL_EN 1)).tbas' fun y => { y with running := true }),
      by decide +kernel⟩,
   ⟨((((((((up.set Fd.CFG_PTM_EN 1).set Fd.TBAS_PTM_CTL_EN 1)).tbas' fun y_ => { y_ with running := true })).chip' fun y_ =>
       { y_ with railPcie := true })).tbas' fun y_ => { y_ with ptmBusy := true }), by decide +kernel⟩,
   ⟨true, (((State.reset).tbas' fun y => { y with ptmBusy := true })), by decide +kernel⟩,
   ⟨((((((State.reset).tbas' fun y_ => { y_ with ptmDown := true }))).tbas' fun y_ => { y_ with running := true })),
       by decide +kernel⟩,
   ⟨0, (((((((((((up.set Fd.CFG_PTM_EN 1).set Fd.TBAS_PTM_CTL_EN 1)).tbas' fun y_ => { y_ with running := true })).chip' fun
       y_ => { y_ with railPcie := true }).set Fd.TBAS_PTM_CTL_STEER 1)).tbas' fun y_ => { y_ with trimBound := some 0 })).io'
       fun y_ => { y_ with tick := 1280000000000 }), by decide +kernel⟩,
   ⟨.firmware, (((up).tbas' fun y => { y with ptmBusy := true })), by decide +kernel⟩⟩

/-- Inputs that meet the hypotheses of CountAndEraComplete, clause by clause. -/
theorem witness_CountAndEraComplete :
    (∃ (s : State), s.tbas.running = true ∧ s.tick.toNat < 2 ^ 64 - 2 ^ 40 ∧
        s.appliedBy (BitVec.ofNat 64 (2 ^ 64 - 2 ^ 40)) = false) ∧
    (∃ (s : State), s.tbas.running = true ∧ s.appliedBy 0 = false) ∧
    (∃ (s : State), s.tbas.running = true ∧ s.chip.doze = false ∧ s.get Fd.TBAS_TB_STAT_PLL_LOCK = 1) ∧
    (∃ (s : State), s.tbas.running = true ∧ s.chip.doze = false ∧ s.chip.oscTrip = true ∧ s.earlyTrip = false) ∧
    (∃ (s : State), s.tbas.lost = true ∧ s.get Fd.CHIP_OSC_STAT_ROSC_OK = 1 ∧ s.get Fd.CHIP_OSC_STAT_XO_OK = 1) :=
  ⟨⟨(((State.reset).tbas' fun y => { y with running := true })), by decide +kernel⟩,
   ⟨(((State.reset).tbas' fun y => { y with running := true })), by decide +kernel⟩,
   ⟨((((((((State.reset).tbas' fun y => { y with running := true }))).chip' fun y => { y with doze := false }))).set
       Fd.TBAS_TB_STAT_PLL_LOCK (1)), by decide +kernel⟩,
   ⟨((((((State.reset).tbas' fun y => { y with running := true })).chip' fun y => { y with oscTrip := true })).chip' fun y =>
       { y with started := true }), by decide +kernel⟩,
   ⟨(((((((State.reset).tbas' fun y => { y with lost := true }))).set Fd.CHIP_OSC_STAT_ROSC_OK (1))).set
       Fd.CHIP_OSC_STAT_XO_OK (1)), by decide +kernel⟩⟩

/-- Inputs that meet the hypotheses of TiuCompletes, clause by clause. -/
theorem witness_TiuCompletes :
    (∃ (m : Fin 16) (raw : BitVec 16) (x : TiuShot) (s : State), s.tbas.shot = some x ∧ x.stops.testBit m = true ∧
        s.reportsCrossing m (x.fire + BitVec.ofNat 64 (raw.toNat / 4)) = true ∧ 512 * x.opens ≤ raw.toNat ∧
        raw.toNat ≤ 512 * x.closes) ∧
    (∃ (m : Fin 16) (raw : BitVec 16) (x : TiuShot) (s : State), s.tbas.shot = some x ∧
        s.reportsCrossing m (x.fire + BitVec.ofNat 64 (raw.toNat / 4)) = false) ∧
    (∃ (m : Fin 16) (x : TiuShot) (s : State), s.tbas.shot = some x ∧ x.stops.testBit m = true) ∧
    (∃ (who : Actor) (v : Word) (s : State), s.admits (.tiuCtlWrite who v) = true ∧ bitsOf v 4 0 ≤ 16) :=
  ⟨⟨1, 600, { aTiu with fire := 100 },
      ((((State.reset.set (Fd.MONI_IN_CTL_EN 1) 1).set (Fd.MONI_IN_CTL_SLOPE 1) 1)).tbas' fun y_ =>
      { y_ with shot := some aTiu }), by decide +kernel⟩,
   ⟨1, 600, aTiu, (((State.reset).tbas' fun y => { y with shot := some (aTiu : TiuShot) })), by decide +kernel⟩,
   ⟨1, aTiu, (((State.reset).tbas' fun y => { y with shot := some (aTiu : TiuShot) })), by decide +kernel⟩,
   ⟨.firmware, 0x0010, up, by decide +kernel⟩⟩

/-- Inputs that meet the hypotheses of AluInstructionsComplete, clause by clause. -/
theorem witness_AluInstructionsComplete :
    ∃ (e : Fin 8) (f : Fields) (s : State), ∀ row ∈ aluRows e f, s.runs row.2.1 e f :=
  ⟨0, fields 1 2 3 0, run0, by unfold State.runs; decide +kernel⟩

/-- Inputs that meet the hypotheses of PredicatesAndSpecialsComplete, clause by clause. -/
theorem witness_PredicatesAndSpecialsComplete :
    (∃ (e : Fin 8) (f : Fields) (s : State), s.runs shCMP e f ∧ f.d.toNat < 6) ∧
    (∃ (e : Fin 8) (f : Fields) (s : State), s.runs shPLOG e f ∧ f.d.toNat < 4) ∧
    (∃ (e : Fin 8) (f : Fields) (s : State), s.runs shMFS e f ∧ selOf f < 13) ∧
    (∃ (e : Fin 8) (f : Fields) (s : State), s.runs shMTS e f ∧ selOf f = 1) ∧
    (∃ (e : Fin 8) (f : Fields) (s : State), s.runs shMTS e f ∧ selOf f = 2) :=
  ⟨⟨0, fields 5 1 2 0x400000000, ((State.reset).set (Fd.SCAN_EASEL_STAT_STATE (0 : Fin 8)) 1),
      by unfold State.runs; decide +kernel⟩,
   ⟨0, fields 3 1 2 0x400000000, ((State.reset).set (Fd.SCAN_EASEL_STAT_STATE (0 : Fin 8)) 1),
       by unfold State.runs; decide +kernel⟩,
   ⟨0, fields 1 0 0 12, ((State.reset).set (Fd.SCAN_EASEL_STAT_STATE (0 : Fin 8)) 1), by unfold State.runs; decide +kernel⟩,
   ⟨0, fields 0 1 0 1, ((State.reset).set (Fd.SCAN_EASEL_STAT_STATE (0 : Fin 8)) 1), by unfold State.runs; decide +kernel⟩,
   ⟨0, fields 0 1 0 2, ((State.reset).set (Fd.SCAN_EASEL_STAT_STATE (0 : Fin 8)) 1), by unfold State.runs; decide +kernel⟩⟩

/-- Inputs that meet the hypotheses of BranchesComplete, clause by clause. -/
theorem witness_BranchesComplete :
    (∃ (e : Fin 8) (f : Fields) (s : State), s.runs shBR e f) ∧
    (∃ (e : Fin 8) (f : Fields) (s : State), s.runs shJAL e f) ∧
    (∃ (e : Fin 8) (f : Fields) (s : State), s.runs shJR e f) ∧
    (∃ (e : Fin 8) (f : Fields) (s : State), s.runs shLOOP e f) ∧
    (∃ (e : Fin 8) (f : Fields) (s : State), s.runs shRETE e f ∧ s.get (Fd.SCAN_EASEL_STAT_EXL e) = 1) :=
  ⟨⟨0, fields 0 0 0 9, ((State.reset).set (Fd.SCAN_EASEL_STAT_STATE (0 : Fin 8)) 1), by unfold State.runs; decide +kernel⟩,
   ⟨0, fields 0 0 0 9, ((State.reset).set (Fd.SCAN_EASEL_STAT_STATE (0 : Fin 8)) 1), by unfold State.runs; decide +kernel⟩,
   ⟨0, fields 0 3 0 0, ((State.reset).set (Fd.SCAN_EASEL_STAT_STATE (0 : Fin 8)) 1), by unfold State.runs; decide +kernel⟩,
   ⟨0, fields 0 0 0 9, ((State.reset).set (Fd.SCAN_EASEL_STAT_STATE (0 : Fin 8)) 1), by unfold State.runs; decide +kernel⟩,
   ⟨0, fields 0 0 0 0,
       ((((State.reset).set (Fd.SCAN_EASEL_STAT_STATE (0 : Fin 8)) 1)).set (Fd.SCAN_EASEL_STAT_EXL (0 : Fin 8)) (1)),
       by unfold State.runs; decide +kernel⟩⟩

/-- Inputs that meet the hypotheses of LoadsAndStoresComplete, clause by clause. -/
theorem witness_LoadsAndStoresComplete :
    (∃ (e : Fin 8) (f : Fields) (s : State), s.runs shLD e f ∧ accessCause (s.addr e f) 4 false = none) ∧
    (∃ (e : Fin 8) (f : Fields) (s : State), s.runs shST e f ∧ s.addr e f % 4 = 0 ∧ isDataMem (s.addr e f) = true) ∧
    (∃ (e : Fin 8) (f : Fields) (s : State), s.runs shST e f ∧ s.addr e f % 4 = 0 ∧ isScratch (s.addr e f) = true) ∧
    (∃ (e : Fin 8) (f : Fields) (s : State), s.runs shLDT e f ∧ accessCause (s.addr e f) 8 false = none) ∧
    (∃ (e : Fin 8) (f : Fields) (s : State), s.runs shSTT e f ∧ s.addr e f % 8 = 0 ∧ isDataMem (s.addr e f) = true) ∧
    (∃ (e : Fin 8) (f : Fields) (s : State), s.runs shSTT e f ∧ s.addr e f % 8 = 0 ∧ isScratch (s.addr e f) = true) :=
  ⟨⟨0, fields 2 0 0 4, ((State.reset).set (Fd.SCAN_EASEL_STAT_STATE (0 : Fin 8)) 1), by unfold State.runs; decide +kernel⟩,
   ⟨0, fields 0 0 2 4, ((State.reset).set (Fd.SCAN_EASEL_STAT_STATE (0 : Fin 8)) 1), by unfold State.runs; decide +kernel⟩,
   ⟨0, fields 0 0 2 0x40008, ((State.reset).set (Fd.SCAN_EASEL_STAT_STATE (0 : Fin 8)) 1), by unfold State.runs; decide +kernel⟩,
   ⟨0, fields 2 0 0 8, ((State.reset).set (Fd.SCAN_EASEL_STAT_STATE (0 : Fin 8)) 1), by unfold State.runs; decide +kernel⟩,
   ⟨0, fields 0 0 0 0, ((State.reset).set (Fd.SCAN_EASEL_STAT_STATE (0 : Fin 8)) 1), by unfold State.runs; decide +kernel⟩,
   ⟨0, fields 0 0 2 0x40008, ((State.reset).set (Fd.SCAN_EASEL_STAT_STATE (0 : Fin 8)) 1), by unfold State.runs; decide +kernel⟩⟩

/-- Inputs that meet the hypotheses of TimeInstructionsComplete, clause by clause. -/
theorem witness_TimeInstructionsComplete :
    (∃ (e : Fin 8) (f : Fields) (s : State), s.runs shNOW e f) ∧
    (∃ (e : Fin 8) (f : Fields) (s : State), s.runs shWAITT e f ∧ (s.t e f.a.toNat).toNat ≤ s.tick.toNat) ∧
    (∃ (e : Fin 8) (f : Fields) (s : State), s.runs shWAITT e f ∧ s.tick.toNat < (s.t e f.a.toNat).toNat) ∧
    (∃ (e : Fin 8) (w : Wide) (s : State), (s.easel e).wait = .time w ∧ (s.easel e).stepping = false ∧ s.timely w = true) ∧
    (∃ (e : Fin 8) (f : Fields) (s : State), s.runs shSETT e f ∧ (xbits f 32 32 = 0 ∨ f.a = 0)) ∧
    (∃ (e : Fin 8) (f : Fields) (s : State), s.runs shTCMP e f ∧ f.d.toNat < 4) ∧
    (∃ (e : Fin 8) (f : Fields) (s : State), s.runs shTGET e f) ∧
    (∃ (e : Fin 8) (f : Fields) (s : State), s.runs shTPUT e f) :=
  ⟨⟨0, fields 2 0 0 0, ((State.reset).set (Fd.SCAN_EASEL_STAT_STATE (0 : Fin 8)) 1), by unfold State.runs; decide +kernel⟩,
   ⟨0, fields 0 2 0 0, ((State.reset).set (Fd.SCAN_EASEL_STAT_STATE (0 : Fin 8)) 1), by unfold State.runs; decide +kernel⟩,
   ⟨0, fields 0 2 0 0, run0.setT 0 2 5000, by unfold State.runs; decide +kernel⟩,
   ⟨0, 5000, (((((((((State.reset).easel' (0 : Fin 8) fun y => { y with wait := .time (5000 : Wide) }))).easel' (0 : Fin 8)
       fun y => { y with stepping := false }))).tbas' fun y => { y with running := true })), by decide +kernel⟩,
   ⟨0, fields 2 0 0 0, ((State.reset).set (Fd.SCAN_EASEL_STAT_STATE (0 : Fin 8)) 1), by unfold State.runs; decide +kernel⟩,
   ⟨0, fields 2 0 0 0, ((State.reset).set (Fd.SCAN_EASEL_STAT_STATE (0 : Fin 8)) 1), by unfold State.runs; decide +kernel⟩,
   ⟨0, fields 2 0 0 0, ((State.reset).set (Fd.SCAN_EASEL_STAT_STATE (0 : Fin 8)) 1), by unfold State.runs; decide +kernel⟩,
   ⟨0, fields 2 0 0 0, ((State.reset).set (Fd.SCAN_EASEL_STAT_STATE (0 : Fin 8)) 1), by unfold State.runs; decide +kernel⟩⟩

/-- Inputs that meet the hypotheses of TimedActionsComplete, clause by clause. -/
theorem witness_TimedActionsComplete :
    (∃ (f : Fields) (s : State), s.runs shSHOT 0 f) ∧
    (∃ (f : Fields) (s : State), s.runs shWINDOW 0 f ∧ (3 ≤ (windowIn (s.g 0 f.a.toNat)).kbin ∧
        (windowIn (s.g 0 f.a.toNat)).kbin ≤ 8) ∧ 32768 ≤ (windowIn (s.g 0 f.a.toNat)).lenTicks) ∧
    (∃ (f : Fields) (s : State), s.runs shZOOM 0 f ∧
        (zoomIn f (s.g 0 f.a.toNat) (s.g 0 f.b.toNat)).first + (zoomIn f (s.g 0 f.a.toNat) (s.g 0 f.b.toNat)).count ≤ 1024) ∧
    (∃ (f : Fields) (s : State), s.runs shHSWAP 0 f) ∧
    (∃ (f : Fields) (s : State), s.runs shSTACK 0 f) ∧
    (∃ (f : Fields) (s : State), s.runs shSTAG 0 f ∧ (s.g 0 f.b.toNat).toNat % 16 = 0 ∧ (s.g 0 f.b.toNat).toNat ≤ 0x3FF0) ∧
    (∃ (f : Fields) (s : State), s.runs shTRAIN 0 f) ∧
    (∃ (f : Fields) (s : State), s.runs shLISTENONLY 0 f) ∧
    (∃ (f : Fields) (s : State), s.runs shLINE 0 f ∧ (128000 ≤ xbits f 27 0 ∧ xbits f 27 0 ≤ 134217728) ∧ xbits f 29 28 ≠ 3) ∧
    (∃ (e : Fin 8) (p : Port) (desc : Nat) (l : Wide) (d : Nat) (frame : Bool) (lmode : Nat) (s : State),
        (s.easel e).port = some p ∧ p.req = .line desc l d frame lmode ∧ p.gd < 32 ∧ (s.easel e).stepping = false ∧
        s.tbas.running = true ∧ s.restarting 2 = false ∧ s.turns.find? s.canEnter = some e ∧ s.isLate l = false ∧
        s.isOutOfOrder e l = false ∧ s.isLineBusy l = false) ∧
    (∃ (e : Fin 8) (s : State), s.tbas.running = true ∧ s.restarting 2 = false ∧ s.turns.find? s.canEnter = some e.val) :=
  ⟨⟨fields 0 1 0 0, run0, by unfold State.runs; decide +kernel⟩,
   ⟨fields 0 1 0 0, run0.setG 0 1 (BitVec.ofNat 32 0xF80000), by unfold State.runs; decide +kernel⟩,
   ⟨fields 0 0 0 2, run0, by unfold State.runs; decide +kernel⟩,
   ⟨fields 0 2 0 0, run0, by unfold State.runs; decide +kernel⟩,
   ⟨fields 0 3 0 0, run0, by unfold State.runs; decide +kernel⟩,
   ⟨fields 0 1 0 0, run0, by unfold State.runs; decide +kernel⟩,
   ⟨fields 0 0 0 4, run0, by unfold State.runs; decide +kernel⟩,
   ⟨fields 0 3 0 0, run0, by unfold State.runs; decide +kernel⟩,
   ⟨fields 0 0 0 128000, run0, by unfold State.runs; decide +kernel⟩,
   ⟨0, aPort, 3, 5000000, 128000, true, 0,
       (((((((((State.reset).easel' (0 : Fin 8) fun y => { y with port := some (aPort : Port) }))).easel' (0 : Fin 8) fun y =>
       { y with stepping := false }))).tbas' fun y => { y with running := true })), by decide +kernel⟩,
   ⟨0, (live State.reset).easel' 0 fun x => { x with port := some aPort }, by decide +kernel⟩⟩

/-- Inputs that meet the hypotheses of FeedbackAndConfigurationComplete, clause by clause. -/
theorem witness_FeedbackAndConfigurationComplete :
    (∃ (e : Fin 8) (f : Fields) (s : State), s.runs shPEEK e f ∧ f.d.toNat % 4 = 0 ∧ 4 ≤ f.d.toNat ∧ f.d.toNat ≤ 28) ∧
    (∃ (e : Fin 8) (f : Fields) (s : State), s.runs shSUMWAIT e f ∧ s.digestDone (s.g e f.a.toNat) = true) ∧
    (∃ (e : Fin 8) (f : Fields) (s : State), s.runs shSUMWAIT e f ∧ s.digestDone (s.g e f.a.toNat) = false) ∧
    (∃ (e : Fin 8) (f : Fields) (s : State), s.runs shSKETCH e f ∧ s.addr e f % 4 = 0 ∧ sketchRegion (s.addr e f) = true ∧
        stagedMask (normalAddr (s.addr e f)) ≠ 0 ∧ s.gated (normalAddr (s.addr e f)) = false ∧
        s.withheld .host (normalAddr (s.addr e f)) true (s.g e f.b.toNat) = false) ∧
    (∃ (e : Fin 8) (f : Fields) (s : State), s.runs shPROOF e f) ∧
    (∃ (e : Fin 8) (f : Fields) (s : State), s.runs shCOMMIT e f ∧ (xbits f 1 0 = 3 ∨ f.a = 0) ∧
        s.refusal (xbits f 1 0) (s.t e f.a.toNat) = (0, 0)) :=
  ⟨⟨0, fields 28 1 2 0, ((State.reset).set (Fd.SCAN_EASEL_STAT_STATE (0 : Fin 8)) 1), by unfold State.runs; decide +kernel⟩,
   ⟨0, fields 0 1 0 0, run0.set Fd.SCAN_DSM_LAST_SEQ 7, by unfold State.runs; decide +kernel⟩,
   ⟨0, fields 0 1 0 0, ((State.reset).set (Fd.SCAN_EASEL_STAT_STATE (0 : Fin 8)) 1), by unfold State.runs; decide +kernel⟩,
   ⟨0, fields 0 0 2 0x490000, ((State.reset).set (Fd.SCAN_EASEL_STAT_STATE (0 : Fin 8)) 1), by unfold State.runs; decide +kernel⟩,
   ⟨0, fields 0 0 0 0, ((State.reset).set (Fd.SCAN_EASEL_STAT_STATE (0 : Fin 8)) 1), by unfold State.runs; decide +kernel⟩,
   ⟨0, fields 0 0 0 0, ((run0.set Fd.CHIP_PROOF_STATUS_STATE 2).chip' fun y => { y with proofFresh := true }),
       by unfold State.runs; decide +kernel⟩⟩

/-- Inputs that meet the hypotheses of SynchronisationComplete, clause by clause. -/
theorem witness_SynchronisationComplete :
    (∃ (e : Fin 8) (f : Fields) (s : State), s.runs shSIGNAL e f ∧ (∀ k ∈ easelList, (s.easel k).wait ≠ .signal (xbits f 3 0))) ∧
    (∃ (e : Fin 8) (k : Fin 8) (f : Fields) (s : State), s.runs shSIGNAL e f ∧ k ≠ e ∧ (s.easel k).stepping = false ∧
        easelList.find? (fun k => (s.easel k).wait = .signal (xbits f 3 0)) = some k.val) ∧
    (∃ (e : Fin 8) (f : Fields) (s : State), s.runs shWAITSIG e f ∧ s.get (Fd.SCAN_SIG_SIG.bit (xbits f 3 0)) = 0) ∧
    (∃ (e : Fin 8) (f : Fields) (s : State), s.runs shWAITSIG e f ∧ s.get (Fd.SCAN_SIG_SIG.bit (xbits f 3 0)) = 1) ∧
    (∃ (e : Fin 8) (f : Fields) (s : State), s.runs shSEMAPHORE e f ∧ xbits f 32 32 = 1 ∧ pdOf f = 0) ∧
    (∃ (e : Fin 8) (f : Fields) (s : State), s.runs shSEMAPHORE e f ∧ xbits f 32 32 = 0 ∧
        s.get (Fd.SCAN_SEM_COUNT (xbits f 2 0)) ≠ 0) ∧
    (∃ (e : Fin 8) (f : Fields) (s : State), s.runs shSEMAPHORE e f ∧ xbits f 32 32 = 0 ∧
        s.get (Fd.SCAN_SEM_COUNT (xbits f 2 0)) = 0) ∧
    (∃ (e : Fin 8) (f : Fields) (s : State), s.runs shLEDGER e f ∧ bitsOf (s.g e f.a.toNat) 9 8 ≠ 3) ∧
    (∃ (e : Fin 8) (f : Fields) (s : State), s.runs shYIELD e f) ∧
    (∃ (e : Fin 8) (f : Fields) (s : State), s.runs shHALT e f) :=
  ⟨⟨0, fields 0 0 0 5, ((State.reset).set (Fd.SCAN_EASEL_STAT_STATE (0 : Fin 8)) 1), by unfold State.runs; decide +kernel⟩,
   ⟨0, 1, fields 0 0 0 5, run0.easel' 1 fun x => { x with wait := .signal 5 }, by unfold State.runs; decide +kernel⟩,
   ⟨0, fields 0 0 0 5,
       ((((State.reset).set (Fd.SCAN_EASEL_STAT_STATE (0 : Fin 8)) 1)).set (Fd.SCAN_SIG_SIG.bit (xbits (fields 0 0 0 5 :
       Fields) 3 0)) (0)), by unfold State.runs; decide +kernel⟩,
   ⟨0, fields 0 0 0 5,
       ((((State.reset).set (Fd.SCAN_EASEL_STAT_STATE (0 : Fin 8)) 1)).set (Fd.SCAN_SIG_SIG.bit (xbits (fields 0 0 0 5 :
       Fields) 3 0)) (1)), by unfold State.runs; decide +kernel⟩,
   ⟨0, fields 0 0 0 0x100000003, ((State.reset).set (Fd.SCAN_EASEL_STAT_STATE (0 : Fin 8)) 1),
       by unfold State.runs; decide +kernel⟩,
   ⟨0, fields 0 0 0 5,
       ((((State.reset).set (Fd.SCAN_EASEL_STAT_STATE (0 : Fin 8)) 1)).set (Fd.SCAN_SEM_COUNT (xbits (fields 0 0 0 5 : Fields)
       2 0)) 1), by unfold State.runs; decide +kernel⟩,
   ⟨0, fields 0 0 0 5,
       ((((State.reset).set (Fd.SCAN_EASEL_STAT_STATE (0 : Fin 8)) 1)).set (Fd.SCAN_SEM_COUNT (xbits (fields 0 0 0 5 : Fields)
       2 0)) (0)), by unfold State.runs; decide +kernel⟩,
   ⟨0, fields 0 0 0 5, ((State.reset).set (Fd.SCAN_EASEL_STAT_STATE (0 : Fin 8)) 1), by unfold State.runs; decide +kernel⟩,
   ⟨0, fields 0 0 0 5, ((State.reset).set (Fd.SCAN_EASEL_STAT_STATE (0 : Fin 8)) 1), by unfold State.runs; decide +kernel⟩,
   ⟨0, fields 0 0 0 0, ((State.reset).set (Fd.SCAN_EASEL_STAT_STATE (0 : Fin 8)) 1), by unfold State.runs; decide +kernel⟩⟩

/-- Inputs that meet the hypotheses of ExceptionsAreTaken, clause by clause. -/
theorem witness_ExceptionsAreTaken :
    (∃ (e : Fin 8) (f : Fields) (s : State), s.runs shTRAP e f ∧ s.get (Fd.SCAN_EASEL_STAT_EXL e) = 0) ∧
    (∃ (e : Fin 8) (w : Wide) (s : State), definedOpcodes.contains (opcOf w) = false ∧ s.isRunning e = true ∧
        s.get (Fd.SCAN_EASEL_STAT_EXL e) = 0) ∧
    (∃ (e : Fin 8) (s : State), s.isHalted e = false ∧ s.get (Fd.SCAN_EASEL_WDOG_LIMIT e) ≠ 0 ∧
        s.timely (s.wdogTick e) = true ∧ s.get (Fd.SCAN_EASEL_STAT_EXL e) = 0) :=
  ⟨⟨0, fields 0 0 0 77,
      ((((State.reset).set (Fd.SCAN_EASEL_STAT_STATE (0 : Fin 8)) 1)).set (Fd.SCAN_EASEL_STAT_EXL (0 : Fin 8)) (0)),
      by unfold State.runs; decide +kernel⟩,
   ⟨0, 0x7F00000000000001,
       ((((State.reset).set (Fd.SCAN_EASEL_STAT_STATE (0 : Fin 8)) 1)).set (Fd.SCAN_EASEL_STAT_EXL (0 : Fin 8)) (0)),
       by decide +kernel⟩,
   ⟨0, ((((((((State.reset).set (Fd.SCAN_EASEL_WDOG_LIMIT (0 : Fin 8)) 1)).tbas' fun y => { y with running := true }))).set
       (Fd.SCAN_EASEL_STAT_EXL (0 : Fin 8)) (0))).set (Fd.SCAN_EASEL_STAT_STATE 0) 1, by decide +kernel⟩⟩

/-- Inputs that meet the hypotheses of EaselControlCompletes, clause by clause. -/
theorem witness_EaselControlCompletes :
    (∃ (e : Fin 8) (s : State), s.admits (.easelRun e) = true ∧ s.isHalted e = true ∧ s.chip.hush = 0) ∧
    (∃ (e : Fin 8) (s : State), s.admits (.easelRun e) = true ∧ s.chip.hush ≠ 0) ∧
    (∃ (e : Fin 8) (s : State), s.admits (.easelHalt e) = true ∧ s.isHalted e = false) ∧
    (∃ (who : Actor) (e : Fin 8) (s : State), s.admits (.easelStep who e) = true ∧ s.isHalted e = true ∧ s.chip.hush = 0 ∧
        s.withheld who (Fd.SCAN_EASEL_CTL_STEP e).off true 4 = false) ∧
    (∃ (who : Actor) (e : Fin 8) (s : State), s.admits (.easelStep who e) = true ∧ s.isHalted e = true ∧ s.chip.hush = 0 ∧
        s.withheld who (Fd.SCAN_EASEL_CTL_STEP e).off true 4 = false ∧ opcOf (s.fetchWord e) = 0x20 ∧
        shBR.legal (fieldsOf (s.fetchWord e)) = true ∧ s.executes e (fieldsOf (s.fetchWord e)) = true) ∧
    (∃ (e : Fin 8) (s : State), s.admits (.easelReset e) = true) ∧
    (∃ (mask : Byte) (s : State), s.admits (.scanStart mask) = true ∧ mask ≠ 0) ∧
    (∃ (e : Fin 8) (s : State), s.scan.startDue.testBit e = true ∧ s.timely s.scan.startAt = true ∧ s.isHalted e = true ∧
        s.chip.hush = 0) :=
  ⟨⟨0, (((up).chip' fun y_ => { y_ with hush := 0 })), by decide +kernel⟩,
   ⟨0, (((up).chip' fun y_ => { y_ with hush := 1 })), by decide +kernel⟩,
   ⟨0, (up).set (Fd.SCAN_EASEL_STAT_STATE 0) 1, by decide +kernel⟩,
   ⟨.firmware, 0, up, by decide +kernel⟩,
   ⟨.firmware, 0, ((up).scan' fun y_ => { y_ with pm := [(0, 0x2000000000000123)] }), by decide +kernel⟩,
   ⟨0, up, by decide +kernel⟩,
   ⟨1, up, by decide +kernel⟩,
   ⟨0, ((((((State.reset).scan' fun y => { y with startDue := 1 })).scan' fun y => { y with startAt := 5000 })).tbas' fun y =>
       { y with running := true }), by decide +kernel⟩⟩

/-- Inputs that meet the hypotheses of EaselWindowsComplete, clause by clause. -/
theorem witness_EaselWindowsComplete :
    (∃ (who : Actor) (e : Fin 8) (v : Word) (s : State), s.admits (.pmAddrWrite who e v) = true) ∧
    (∃ (who : Actor) (e : Fin 8) (s : State), s.admits (.pmDataRead who e) = true ∧ (s.easel e).pmHigh = false) ∧
    (∃ (who : Actor) (e : Fin 8) (s : State), s.admits (.pmDataRead who e) = true ∧ (s.easel e).pmHigh = true) ∧
    (∃ (who : Actor) (e : Fin 8) (v : Word) (s : State), s.admits (.pmDataWrite who e v) = true ∧ s.bankLocked e = false ∧
        (s.easel e).pmHigh = false) ∧
    (∃ (who : Actor) (e : Fin 8) (v : Word) (s : State), s.admits (.pmDataWrite who e v) = true ∧ s.bankLocked e = false ∧
        (s.easel e).pmHigh = true) ∧
    (∃ (who : Actor) (e : Fin 8) (s : State), s.admits (.dmDataRead who e) = true) ∧
    (∃ (who : Actor) (e : Fin 8) (v : Word) (s : State), s.admits (.dmDataWrite who e v) = true) ∧
    (∃ (mask : BitVec 16) (s : State), s.admits (.scanSigSet mask) = true ∧ (∀ k ∈ easelList, ∀ n < 16,
        (s.easel k).wait ≠ .signal n)) ∧
    (∃ (mask : BitVec 16) (hw : BitVec 16) (s : State), s.admits (.scanSigClear mask hw) = true ∧ (∀ k ∈ easelList, ∀ n < 16,
        (s.easel k).wait ≠ .signal n)) :=
  ⟨⟨.firmware, 0, 5, up, by decide +kernel⟩,
   ⟨.firmware, 0, (((up).easel' (0 : Fin 8) fun y => { y with pmHigh := false })), by decide +kernel⟩,
   ⟨.firmware, 0, (((up).easel' (0 : Fin 8) fun y => { y with pmHigh := true })), by decide +kernel⟩,
   ⟨.firmware, 0, 5, up.set (Fd.SCAN_EASEL_PM_ADDR_BANK 0) 1, by decide +kernel⟩,
   ⟨.firmware, 0, 5, (up.set (Fd.SCAN_EASEL_PM_ADDR_BANK 0) 1).easel' 0 fun x => { x with pmHigh := true }, by decide +kernel⟩,
   ⟨.firmware, 0, up, by decide +kernel⟩,
   ⟨.firmware, 0, 5, up, by decide +kernel⟩,
   ⟨0, up, by decide +kernel⟩,
   ⟨0, 0, up, by decide +kernel⟩⟩

/-- Inputs that meet the hypotheses of LinesAndShotsComplete, clause by clause. -/
theorem witness_LinesAndShotsComplete :
    (∃ (l : LineRec) (s : State), s.scan.lines.find? (fun k => !k.started) = some l ∧ s.timely l.start = true ∧
        s.chip.railIo = true) ∧
    (∃ (l : LineRec) (s : State), s.dwellLine = some l ∧ s.timely l.finish = true) ∧
    (∃ (h : Shot) (rest : List Shot) (l : LineRec) (s : State), s.scan.shotQ = h :: rest ∧ s.lineOf h.line = some l ∧
        s.timely h.fire = true ∧ s.armed = true ∧ h.listen = false ∧ s.chip.railIo = true) ∧
    (∃ (h : Shot) (rest : List Shot) (l : LineRec) (s : State), s.scan.shotQ = h :: rest ∧ s.lineOf h.line = some l ∧
        s.timely h.fire = true ∧ (s.armed = false ∨ h.listen = true ∨ s.chip.railIo = false)) :=
  ⟨⟨aLine, ((((((up).scan' fun y_ => { y_ with lines := [aLine] })).tbas' fun y_ => { y_ with running := true })).chip' fun y_
      => { y_ with railIo := true }), by decide +kernel⟩,
   ⟨{ aLine with started := true },
       ((((State.reset).scan' fun y => { y with lines := [{ aLine with started := true }] })).tbas' fun y =>
       { y with running := true }), by decide +kernel⟩,
   ⟨aShot, [], aLine,
       ((((((((up.set Fd.SAFE_STAT_STATE stARMED).scan' fun y_ => { y_ with shotQ := [aShot] })).scan' fun y_ =>
       { y_ with lines := [aLine] })).tbas' fun y_ => { y_ with running := true })).chip' fun y_ =>
       { y_ with railIo := true }), by decide +kernel⟩,
   ⟨aShot, [], { aLine with started := true, shots := [{ fire := 2000, listen := false }] },
       ((((((State.reset).scan' fun y =>
       { y with lines := [{ aLine with started := true, shots := [{ fire := 2000, listen := false }] }] })).scan' fun y =>
       { y with shotQ := [aShot] })).tbas' fun y => { y with running := true }), by decide +kernel⟩⟩

/-- Inputs that meet the hypotheses of DiagnosisCompletes, clause by clause. -/
theorem witness_DiagnosisCompletes :
    (∃ (m : Fin 16) (a : Fin 64) (s : State), s.isDue m a = false ∧
        s.timely (BitVec.ofInt 64 ((look s.emt.lastDiag (64 * m + a)).getD s.emt.diagFrom + ticksPerS)) = true) ∧
    (∃ (l : LineRec) (s : State), s.dwellLine = some l ∧ s.get Fd.EMIT_DIAG_CTL_EN = 1 ∧ s.lineListens l = false ∧
        s.diagRoom l = true ∧ l.diagClear = true ∧ s.restarting 3 = false ∧ s.dueModules l ≠ [] ∧ s.emt.arm = none ∧
        s.timely (l.diagTick - 12800) = true ∧ s.chip.railIo = true) ∧
    (∃ (d : DiagArm) (l : LineRec) (m : Nat) (rest : List Nat) (s : State), s.emt.arm = some d ∧ s.dwellLine = some l ∧
        d.line = l.seq ∧ d.mods = m :: rest ∧ s.timely d.g = true ∧ s.armed = true ∧ s.chip.railIo = true ∧
        (s.reach d.g).ledgerAdmits (s.get (Fd.SCAN_LD3_LGRP l.desc)) d.g (s.get (Fd.SCAN_LEDG_EDIAG_CU m)) = true) :=
  ⟨⟨0, 0, (((State.reset).tbas' fun y => { y with running := true })), by decide +kernel⟩,
   ⟨{ aLine with started := true },
       ((((((((((up.set Fd.EMIT_DIAG_CTL_EN 1).set (Fd.SCAN_LD0_MODMASK 0) 1).set Fd.EMIT_MOD_EN_EN 1).set (dueBit 0 0)
       1)).scan' fun y_ => { y_ with lines := [{ aLine with started := true }] })).tbas' fun y_ =>
       { y_ with running := true })).chip' fun y_ => { y_ with railIo := true }), by decide +kernel⟩,
   ⟨{ line := 1, g := 5000, mods := [0] }, { aLine with started := true }, 0, [],
       ((((((((((((up.set (Fd.SCAN_LEDG_LIM_LIM 0 0) 1000).set (Fd.SCAN_LEDG_LIM_LIM 1 0) 1000).set (Fd.SCAN_LEDG_LIM_LIM 2 0)
       1000).set Fd.SAFE_STAT_STATE stARMED)).emit' fun y_ =>
       { y_ with arm := some { line := 1, g := 5000, mods := [0] } })).scan' fun y_ =>
       { y_ with lines := [{ aLine with started := true }] })).tbas' fun y_ => { y_ with running := true })).chip' fun y_ =>
       { y_ with railIo := true }), by decide +kernel⟩⟩

/-- Inputs that meet the hypotheses of EwireAndSupplyComplete, clause by clause. -/
theorem witness_EwireAndSupplyComplete :
    (∃ (s : State), s.emt.ewMay = some s.tick ∧ s.restarting 3 = false ∧ s.emt.ewFrame = none ∧ s.get Fd.EMIT_EW_CTL_NMOD ≠ 0 ∧
        s.emt.ewHeld = false ∧ s.get Fd.EMIT_EW_STAT_GAVEUP = 0 ∧ s.chip.railIo = true) ∧
    (∃ (words : List (BitVec 48)) (st : List (BitVec 48)) (sent : List EwSent) (s : State), s.emt.ewFrame = some sent ∧
        ewStatuses sent.length words = some st) ∧
    (∃ (words : List (BitVec 48)) (sent : List EwSent) (s : State), s.emt.ewFrame = some sent ∧
        ewStatuses sent.length words = none) ∧
    (∃ (sent : List EwSent) (s : State), s.emt.ewFrame = some sent) ∧
    (∃ (who : Actor) (s : State), s.admits (.gaveupClear who) = true) ∧
    (∃ (v : BitVec 9) (s : State), s.admits (.hdrmSample v) = true ∧ v.toNat ≤ 400) ∧
    (∃ (v : BitVec 9), 400 < v.toNat) ∧
    (∃ (l : LineRec) (s : State), s.dwellLine = some l ∧ s.get Fd.EMIT_LSUP_CTL_QEN = 1 ∧ bitsOf l.d2 25 25 = 1 ∧
        s.get Fd.EMIT_LSUP_STAT_RUN = 1 ∧ s.lsupOn = true ∧ s.restarting 3 = false ∧ (s.quietEnd s.tick).isSome = true ∧ (∀ p,
        s.emt.pauseEnd = some p → (256000 : Int) ≤ ahead p s.tick) ∧ s.chip.railIo = true) ∧
    (∃ (vs : BitVec 13) (s : State), s.emt.paused = true ∧
        vs.toNat + s.get Fd.EMIT_LSUP_QUIET_DROOP < s.get Fd.EMIT_LSUP_STAT_VREF) ∧
    (∃ (vs : BitVec 13) (s : State), s.emt.paused = true ∧
        s.get Fd.EMIT_LSUP_STAT_VREF ≤ vs.toNat + s.get Fd.EMIT_LSUP_QUIET_DROOP ∧ s.timely s.pauseStop.1 = true) ∧
    (∃ (v : BitVec 13) (s : State), s.admits (.lsupOv v) = true ∧ s.get Fd.EMIT_LSUP_VLIM_VMAX + 200 < v.toNat) ∧
    (∃ (v : BitVec 13) (s : State), s.admits (.lsupOv v) = true ∧ v.toNat ≤ s.get Fd.EMIT_LSUP_VLIM_VMAX + 200) ∧
    (∃ (who : Actor) (s : State), s.admits (.lsupOvClear who) = true) :=
  ⟨⟨((((up.set Fd.EMIT_EW_CTL_NMOD 2).emit' fun y_ => { y_ with ewMay := some 0 })).chip' fun y_ =>
      { y_ with railIo := true }), by decide +kernel⟩,
   ⟨[ewMarker, withCrc 0x800000000000], [withCrc 0x800000000000], [⟨none, false⟩],
       (((State.reset).emit' fun y => { y with ewFrame := some ([⟨none, false⟩] : List EwSent) })), by decide +kernel⟩,
   ⟨[ewMarker, withCrc 0x800000000000], [], (((State.reset).emit' fun y => { y with ewFrame := some ([] : List EwSent) })),
       by decide +kernel⟩,
   ⟨[⟨none, false⟩], (((State.reset).emit' fun y => { y with ewFrame := some ([⟨none, false⟩] : List EwSent) })),
       by decide +kernel⟩,
   ⟨.firmware, up, by decide +kernel⟩,
   ⟨400, up, by decide +kernel⟩,
   ⟨401, by decide +kernel⟩,
   ⟨{ aLine with started := true, d2 := 2 ^ 25, start := 0, shots := [{ fire := 0, listen := true }], win := [(0, { wstart := 0, kbin := 4, nbin := 3 })] }, ((((((((((up.set Fd.EMIT_LSUP_CTL_QEN 1).set Fd.EMIT_LSUP_STAT_RUN 1).set Fd.EMIT_LSUP_CTL_EN 1).set Fd.SAFE_STAT_HS_EN 1 |>.set Fd.SAFE_STAT_LS_EN 1)).scan' fun y_ => { y_ with lines := [{ aLine with started := true, d2 := 2 ^ 25, start := 0, shots := [{ fire := 0, listen := true }], win := [(0, { wstart := 0, kbin := 4, nbin := 3 })] }] })).tbas' fun y_ => { y_ with running := true })).chip' fun y_ => { y_ with railIo := true }), by decide +kernel, by decide +kernel, by decide +kernel, by decide +kernel, by decide +kernel, by decide +kernel, by decide +kernel, (fun x h => nomatch h.symm.trans (show _ = none by decide +kernel)), by decide +kernel⟩,
   ⟨0, (((State.reset).emit' fun y => { y with paused := true })), by decide +kernel⟩,
   ⟨5000, ((((State.reset).emit' fun y => { y with paused := true })).tbas' fun y => { y with running := true }),
       by decide +kernel⟩,
   ⟨6201, up, by decide +kernel⟩,
   ⟨400, up, by decide +kernel⟩,
   ⟨.firmware, up, by decide +kernel⟩⟩

/-- Inputs that meet the hypotheses of ReceiversComplete, clause by clause. -/
theorem witness_ReceiversComplete :
    (∃ (n : Fin 4) (b : Bool) (s : State), s.get (if b then Fd.LNK_LPLL_STAT_LOCK_B n else Fd.LNK_LPLL_STAT_LOCK_A n) = 1) ∧
    (∃ (l : Fin 128) (s : State), s.restarting (laneRgn l) = false ∧ s.get (Fd.LNK_LANE_CTL_PRBS l) = 0 ∧ s.laneSt l = lnLOCKED) ∧
    (∃ (l : Fin 128) (s : State), s.restarting (laneRgn l) = false ∧ s.get (Fd.LNK_LANE_CTL_PRBS l) = 0 ∧
        (s.laneSt l = lnHUNT ∨ s.laneSt l = lnTRAIN)) ∧
    (∃ (l : Fin 128) (s : State), s.restarting (laneRgn l) = false ∧ s.get (Fd.LNK_LANE_CTL_PRBS l) = 0 ∧ s.laneSt l = lnWAKE ∧
        (s.lane l).clk = false) ∧
    (∃ (l : Fin 128) (s : State), s.restarting (laneRgn l) = false ∧ s.get (Fd.LNK_LANE_CTL_PRBS l) = 0 ∧ s.laneSt l = lnFAILED) ∧
    (∃ (l : Fin 128) (s : State), s.restarting (laneRgn l) = false ∧ s.get (Fd.LNK_LANE_CTL_PRBS l) ≠ 0 ∧ s.laneSt l ≠ lnOFF ∧
        s.laneSt l ≠ lnIDLE) ∧
    (∃ (l : Fin 128) (s : State), (s.laneSt l = lnOFF ∨ s.laneSt l = lnIDLE)) ∧
    (∃ (l : Fin 128) (vote : Int) (s : State), -1 ≤ vote ∧ vote ≤ 1 ∧ s.restarting (laneRgn l) = false ∧
        (s.lane l).ann = false ∧ (s.lane l).squelch = false ∧ s.laneSt l ≠ lnOFF) ∧
    (∃ (l : Fin 128) (vote : Int) (s : State), -1 ≤ vote ∧ vote ≤ 1 ∧
        ((s.lane l).ann = true ∨ (s.lane l).squelch = true ∨ s.laneSt l = lnOFF)) ∧
    (∃ (l : Fin 128) (s : State), s.restarting (laneRgn l) = false ∧ s.laneSt l = lnLOCKED ∧
        1074 < (signed 18 (s.get (Fd.LNK_LANE_CDR_FOFS l))).natAbs ∧ s.get (Fd.LNK_LANE_STAT_FREQ_ERR l) = 0) :=
  ⟨⟨0, false, ((State.reset).set (if (false : Bool) then Fd.LNK_LPLL_STAT_LOCK_B (0 : Fin 4) else Fd.LNK_LPLL_STAT_LOCK_A (0 :
      Fin 4)) (1)), by decide +kernel⟩,
   ⟨0, ((((State.reset).set (Fd.LNK_LANE_CTL_PRBS (0 : Fin 128)) (0))).set (Fd.LNK_LANE_STAT_STATE (0 : Fin 128)) lnLOCKED),
       by decide +kernel⟩,
   ⟨0, ((((State.reset).set (Fd.LNK_LANE_CTL_PRBS (0 : Fin 128)) (0))).set (Fd.LNK_LANE_STAT_STATE (0 : Fin 128)) lnHUNT),
       by decide +kernel⟩,
   ⟨0, (((((((State.reset).set (Fd.LNK_LANE_CTL_PRBS (0 : Fin 128)) (0))).set (Fd.LNK_LANE_STAT_STATE (0 : Fin 128))
       lnWAKE)).lane' (0 : Fin 128) fun y => { y with clk := false })), by decide +kernel⟩,
   ⟨0, ((((State.reset).set (Fd.LNK_LANE_CTL_PRBS (0 : Fin 128)) (0))).set (Fd.LNK_LANE_STAT_STATE (0 : Fin 128)) lnFAILED),
       by decide +kernel⟩,
   ⟨0, ((((State.reset).set (Fd.LNK_LANE_CTL_PRBS (0 : Fin 128)) 1)).set (Fd.LNK_LANE_STAT_STATE (0 : Fin 128)) lnLOCKED),
       by decide +kernel⟩,
   ⟨0, ((State.reset).set (Fd.LNK_LANE_STAT_STATE (0 : Fin 128)) lnOFF), by decide +kernel⟩,
   ⟨0, 1, ((((((((State.reset).lane' (0 : Fin 128) fun y => { y with ann := false }))).lane' (0 : Fin 128) fun y =>
       { y with squelch := false }))).set (Fd.LNK_LANE_STAT_STATE (0 : Fin 128)) lnLOCKED), by decide +kernel⟩,
   ⟨0, 1, (((State.reset).lane' (0 : Fin 128) fun y => { y with ann := true })), by decide +kernel⟩,
   ⟨0, ((((State.reset).set (Fd.LNK_LANE_STAT_STATE (0 : Fin 128)) lnLOCKED)).set (Fd.LNK_LANE_STAT_FREQ_ERR (0 : Fin 128))
       (0)).set (Fd.LNK_LANE_CDR_FOFS 0) 1075, by decide +kernel⟩⟩

/-- Inputs that meet the hypotheses of RetrainingCompletes, clause by clause. -/
theorem witness_RetrainingCompletes :
    (∃ (l : Fin 128) (s : State), s.admits (.laneRetrain l) = true ∧ s.laneSt l ≠ lnOFF) ∧
    (∃ (l : Fin 128) (s : State), s.admits (.laneRetrain l) = true ∧ s.laneSt l = lnOFF) ∧
    (∃ (l : Fin 128) (s : State), s.restarting (laneRgn l) = false ∧
        (s.laneSt l = lnTRAIN ∨ s.laneSt l = lnHUNT ∨ s.laneSt l = lnWAKE) ∧ s.get (Fd.LNK_LANE_STAT_RETRIES l) < 2) ∧
    (∃ (l : Fin 128) (s : State), s.restarting (laneRgn l) = false ∧
        (s.laneSt l = lnTRAIN ∨ s.laneSt l = lnHUNT ∨ s.laneSt l = lnWAKE) ∧ 2 ≤ s.get (Fd.LNK_LANE_STAT_RETRIES l)) ∧
    (∃ (l : Fin 128) (s : State), s.admits (.esGo l) = true ∧ s.laneSt l = lnLOCKED) ∧
    (∃ (l : Fin 128) (s : State), s.admits (.esGo l) = true ∧ s.laneSt l ≠ lnLOCKED) ∧
    (∃ (l : Fin 128) (s : State), s.get (Fd.LNK_LANE_ES_STAT_BUSY l) = 1) ∧
    (∃ (l : Fin 128) (s : State), s.get (Fd.LNK_LANE_ES_STAT_BUSY l) = 0) :=
  ⟨⟨0, ((up).set (Fd.LNK_LANE_STAT_STATE (0 : Fin 128)) lnLOCKED), by decide +kernel⟩,
   ⟨0, ((up).set (Fd.LNK_LANE_STAT_STATE (0 : Fin 128)) lnOFF), by decide +kernel⟩,
   ⟨0, ((State.reset).set (Fd.LNK_LANE_STAT_STATE (0 : Fin 128)) lnTRAIN), by decide +kernel⟩,
   ⟨0, (State.reset.set (Fd.LNK_LANE_STAT_STATE 0) lnHUNT).set (Fd.LNK_LANE_STAT_RETRIES 0) 2, by decide +kernel⟩,
   ⟨0, ((up).set (Fd.LNK_LANE_STAT_STATE (0 : Fin 128)) lnLOCKED), by decide +kernel⟩,
   ⟨0, up, by decide +kernel⟩,
   ⟨0, ((State.reset).set (Fd.LNK_LANE_ES_STAT_BUSY (0 : Fin 128)) (1)), by decide +kernel⟩,
   ⟨0, ((State.reset).set (Fd.LNK_LANE_ES_STAT_BUSY (0 : Fin 128)) (0)), by decide +kernel⟩⟩

/-- Inputs that meet the hypotheses of SleepAndWakeComplete, clause by clause. -/
theorem witness_SleepAndWakeComplete :
    (∃ (l : Fin 128) (s : State), s.restarting (laneRgn l) = false ∧ s.get (Fd.LNK_LANE_CTL_TX_EN l) = 1 ∧
        s.get (Fd.LNK_LANE_STAT_TX_IDLE l) = 0 ∧ (s.clockLane (l / 4) = some (l : Nat) → s.tileQuiet (l / 4) = true)) ∧
    (∃ (l : Fin 128) (s : State), s.clockLane (l / 4) = some (l : Nat) ∧ s.tileQuiet (l / 4) = false) ∧
    (∃ (l : Fin 128) (s : State), s.restarting (laneRgn l) = false ∧ s.get (Fd.LNK_LANE_STAT_TX_IDLE l) = 1 ∧ (∀ x,
        (s.lane l).idleFrom = some x → (256000 : Int) ≤ ahead x s.tick)) ∧
    (∃ (l : Fin 128) (s : State), s.restarting (laneRgn l) = false ∧ s.laneSt l = lnLOCKED ∧ (s.lane l).ann = true) ∧
    (∃ (l : Fin 128) (s : State), s.restarting (laneRgn l) = false ∧ s.laneSt l = lnLOCKED) ∧
    (∃ (l : Fin 128) (s : State), s.laneSt l ≠ lnLOCKED) ∧
    (∃ (l : Fin 128) (s : State), s.restarting (laneRgn l) = false ∧ (s.laneSt l = lnIDLE ∨ s.laneSt l = lnTRAIN)) ∧
    (∃ (l : Fin 128) (s : State), s.laneSt l ≠ lnIDLE ∧ s.laneSt l ≠ lnTRAIN) ∧
    (∃ (l : Fin 128) (s : State), s.restarting (laneRgn l) = false ∧ s.laneSt l = lnWAKE) :=
  ⟨⟨1, ((((State.reset).set (Fd.LNK_LANE_CTL_TX_EN (1 : Fin 128)) (1))).set (Fd.LNK_LANE_STAT_TX_IDLE (1 : Fin 128)) (0)),
      by decide +kernel⟩,
   ⟨0, ((State.reset.set (Fd.LNK_LANE_CTL_TX_EN 0) 1).lane' 0 fun y => { y with squelch := false }), by decide +kernel⟩,
   ⟨1, ((State.reset).set (Fd.LNK_LANE_STAT_TX_IDLE (1 : Fin 128)) (1)), by decide +kernel, by decide +kernel,
       (fun x h => nomatch h.symm.trans (show _ = none by decide +kernel))⟩,
   ⟨1, (((((State.reset).set (Fd.LNK_LANE_STAT_STATE (1 : Fin 128)) lnLOCKED)).lane' (1 : Fin 128) fun y =>
       { y with ann := true })), by decide +kernel⟩,
   ⟨1, ((State.reset).set (Fd.LNK_LANE_STAT_STATE (1 : Fin 128)) lnLOCKED), by decide +kernel⟩,
   ⟨1, State.reset, by decide +kernel⟩,
   ⟨1, ((State.reset).set (Fd.LNK_LANE_STAT_STATE (1 : Fin 128)) lnIDLE), by decide +kernel⟩,
   ⟨1, State.reset, by decide +kernel⟩,
   ⟨1, ((State.reset).set (Fd.LNK_LANE_STAT_STATE (1 : Fin 128)) lnWAKE), by decide +kernel⟩⟩

/-- Inputs that meet the hypotheses of LinkStatesComplete, clause by clause. -/
theorem witness_LinkStatesComplete :
    (∃ (n : Fin 32) (s : State), s.restarting (tileRgn n) = false ∧
        (s.portState n = ptLANES ∨ s.portState n = ptBOND ∨ s.portState n = ptCAPS)) ∧
    (∃ (n : Fin 32) (s : State), s.admits (.relink n) = true ∧ (s.portState n = ptRUN ∨ s.portState n = ptFAILED)) ∧
    (∃ (n : Fin 32) (s : State), s.admits (.relink n) = true ∧ s.portState n ≠ ptOFF ∧ s.portState n ≠ ptRUN ∧
        s.portState n ≠ ptFAILED) ∧
    (∃ (n : Fin 32) (s : State), s.admits (.relink n) = true ∧ s.portState n = ptOFF) ∧
    (∃ (n : Fin 32) (x : Wide) (s : State), s.portState n = ptGEN ∧ (s.port n).tsw = some x ∧ s.timely x = true) ∧
    (∃ (n : Fin 32) (s : State), s.portState n = ptGEN) :=
  ⟨⟨0, ((State.reset).set (Fd.LNK_TILE_STAT_STATE (0 : Fin 32)) ptLANES), by decide +kernel⟩,
   ⟨0, ((up).set (Fd.LNK_TILE_STAT_STATE (0 : Fin 32)) ptRUN), by decide +kernel⟩,
   ⟨0, ((up).set (Fd.LNK_TILE_STAT_STATE (0 : Fin 32)) ptBOND), by decide +kernel⟩,
   ⟨0, ((up).set (Fd.LNK_TILE_STAT_STATE (0 : Fin 32)) ptOFF), by decide +kernel⟩,
   ⟨0, 5000, ((((((((State.reset).set (Fd.LNK_TILE_STAT_STATE (0 : Fin 32)) ptGEN)).port' (0 : Fin 32) fun y =>
       { y with tsw := some (5000 : Wide) }))).tbas' fun y => { y with running := true })), by decide +kernel⟩,
   ⟨0, ((State.reset).set (Fd.LNK_TILE_STAT_STATE (0 : Fin 32)) ptGEN), by decide +kernel⟩⟩

/-- Inputs that meet the hypotheses of MarkersComplete, clause by clause. -/
theorem witness_MarkersComplete :
    (∃ (l : Fin 128) (bidx : BitVec 2) (active : BitVec 4) (amseq : Byte) (s : State), s.laneSt l = lnLOCKED ∧
        s.testMode l = false ∧ (∀ n, (s.port (l / 4)).amSeq = some n → amseq.toNat = (n + 1) % 256) ∧
        (s.port (l / 4)).amDone = true ∧ active ≠ 0 ∧ (∀ j,
        j < 4 → j ≠ bidx.toNat → (s.get (Fd.LNK_TILE_STAT_UP_ACTIVE (l / 4))).testBit j = false)) ∧
    (∃ (l : Fin 128) (amseq : Byte) (s : State), s.laneSt l = lnLOCKED ∧ s.testMode l = false ∧
        (s.port (l / 4)).amSeq = some amseq.toNat ∧ (s.port (l / 4)).amDone = true) ∧
    (∃ (l : Fin 128) (amseq : Byte) (late : Bool) (n : Nat) (s : State), s.laneSt l = lnLOCKED ∧ s.testMode l = false ∧
        (s.port (l / 4)).amSeq = some n ∧ amseq.toNat ≠ (n + 1) % 256 ∧ (amseq.toNat ≠ n ∨ late = true) ∧
        (s.port (l / 4)).amDone = true) ∧
    (∃ (l : Fin 128) (s : State), s.laneSt l ≠ lnLOCKED) ∧
    (∃ (n : Fin 32) (k : Int) (s : State), s.portState n = ptRUN ∧ (s.port n).slot = some k) ∧
    (∃ (n : Fin 32) (s : State), s.portState n = ptRUN ∧ (s.port n).slot = none) ∧
    (∃ (n : Fin 32) (s : State), s.portState n ≠ ptRUN) ∧
    (∃ (n : Fin 32) (l : Nat) (s : State), s.portState n ≠ ptOFF ∧ s.portState n ≠ ptFAILED ∧
        s.restarting (tileRgn n) = false ∧ s.clockLane n = some l ∧ s.drives l = true) :=
  ⟨⟨0, 0, 1, 7, (((((State.reset).set (Fd.LNK_LANE_STAT_STATE (0 : Fin 128)) lnLOCKED)).port' ((0 : Fin 128) / 4) fun y =>
      { y with amDone := true })), by decide +kernel, by decide +kernel,
      (fun x h => nomatch h.symm.trans (show _ = none by decide +kernel)), by decide +kernel, by decide +kernel,
      by decide +kernel⟩,
   ⟨0, 7, ((((((((State.reset).set (Fd.LNK_LANE_STAT_STATE (0 : Fin 128)) lnLOCKED)).port' ((0 : Fin 128) / 4) fun y =>
       { y with amSeq := some (7 : Byte).toNat }))).port' ((0 : Fin 128) / 4) fun y => { y with amDone := true })),
       by decide +kernel⟩,
   ⟨0, 7, false, 0,
       ((((((((State.reset).set (Fd.LNK_LANE_STAT_STATE (0 : Fin 128)) lnLOCKED)).port' ((0 : Fin 128) / 4) fun y =>
       { y with amSeq := some (0 : Nat) }))).port' ((0 : Fin 128) / 4) fun y => { y with amDone := true })), by decide +kernel⟩,
   ⟨0, State.reset, by decide +kernel⟩,
   ⟨7, 12, (((((State.reset).set (Fd.LNK_TILE_STAT_STATE (7 : Fin 32)) ptRUN)).port' (7 : Fin 32) fun y_ =>
       { y_ with slot := some (12 : Int) })), by decide +kernel⟩,
   ⟨7, (((((State.reset).set (Fd.LNK_TILE_STAT_STATE (7 : Fin 32)) ptRUN)).port' (7 : Fin 32) fun y_ =>
       { y_ with slot := none })), by decide +kernel⟩,
   ⟨7, State.reset, by decide +kernel⟩,
   ⟨0, 0, ((((up.set (Fd.LNK_TILE_STAT_STATE 0) ptBOND).set (Fd.LNK_LANE_CTL_TX_EN 0) 1)).chip' fun y_ =>
       { y_ with railLane := true }), by decide +kernel⟩⟩

/-- Inputs that meet the hypotheses of TileMessagesComplete, clause by clause. -/
theorem witness_TileMessagesComplete :
    (∃ (n : Fin 32) (h : MsgHdr) (w : Wide) (s : State), s.hears n = true ∧ wholeMsg h 1 0 [w] ∧
        s.get (Fd.LNK_TILE_STAT_GEN n) ≠ 0) ∧
    (∃ (n : Fin 32) (h : MsgHdr) (w : Wide) (s : State), s.portState n = ptCAPS ∧ wholeMsg h 5 0 [w] ∧
        s.get (Fd.LNK_TILE_STAT_GEN n) ≠ 0 ∧ validCaps w.toNat = true) ∧
    (∃ (n : Fin 32) (h : MsgHdr) (w : Wide) (s : State), s.hears n = true ∧ s.portState n ≠ ptCAPS ∧ wholeMsg h 5 0 [w] ∧
        s.get (Fd.LNK_TILE_STAT_GEN n) ≠ 0) ∧
    (∃ (n : Fin 32) (h : MsgHdr) (hdata : BitVec 16) (counts : List (BitVec 16)) (l : LineRec) (s : State),
        counts.length = 32 ∧ s.hears n = true ∧ wholeMsg h 2 hdata.toNat (countBlocks counts) ∧
        2 ≤ s.get (Fd.LNK_TILE_STAT_GEN n) ∧ s.get (Fd.LNK_TILE_CTL_AMB_EN n) = 1 ∧ s.ambientLine n hdata.toNat = some l) ∧
    (∃ (n : Fin 32) (s : State), s.admits (.tileRegGo n) = true ∧ s.get (Fd.LNK_TILE_REGCMD_BUSY n) = 0) ∧
    (∃ (n : Fin 32) (s : State), s.admits (.tileRegGo n) = true ∧ s.get (Fd.LNK_TILE_REGCMD_BUSY n) = 1) ∧
    (∃ (n : Fin 32) (h : MsgHdr) (addr : BitVec 16) (data : Word) (rstat : Byte) (s : State), s.hears n = true ∧
        wholeMsg h 3 addr.toNat [BitVec.ofNat 64 (data.toNat + rstat.toNat * 2 ^ 32)] ∧ s.get (Fd.LNK_TILE_STAT_GEN n) ≠ 0 ∧
        s.get (Fd.LNK_TILE_REGCMD_BUSY n) = 1 ∧ (s.port n).regAddr = some addr.toNat) ∧
    (∃ (n : Fin 32) (h : MsgHdr) (addr : BitVec 16) (s : State), s.hears n = true ∧
        (h.broken = true ∨ s.get (Fd.LNK_TILE_REGCMD_BUSY n) = 0 ∨ (s.port n).regAddr ≠ some addr.toNat)) ∧
    (∃ (n : Fin 32) (s : State), s.get (Fd.LNK_TILE_REGCMD_BUSY n) = 1) ∧
    (∃ (n : Fin 32) (s : State), s.get (Fd.LNK_TILE_REGCMD_BUSY n) = 0) :=
  ⟨⟨0, msgOf 1 0 [5], 5, ((State.reset.set (Fd.LNK_TILE_STAT_STATE 0) ptRUN).set (Fd.LNK_TILE_STAT_GEN 0) 2),
      by unfold wholeMsg; decide +kernel⟩,
   ⟨0, msgOf 5 0 [0x105], 0x105,
       ((((State.reset).set (Fd.LNK_TILE_STAT_STATE (0 : Fin 32)) ptCAPS)).set (Fd.LNK_TILE_STAT_GEN (0 : Fin 32)) 1),
       by unfold wholeMsg; decide +kernel⟩,
   ⟨0, msgOf 5 0 [0x105], 0x105, ((State.reset.set (Fd.LNK_TILE_STAT_STATE 0) ptRUN).set (Fd.LNK_TILE_STAT_GEN 0) 2),
       by unfold wholeMsg; decide +kernel⟩,
   ⟨0, msgOf 2 3 (countBlocks (List.replicate 32 0)), 3, List.replicate 32 0,
       { aLine with started := true, ended := true, selects := [(0, 3)] },
       (((portIn ptRUN id).set (Fd.LNK_TILE_CTL_AMB_EN 0) 1).scan' fun y_ =>
       { y_ with lines := [{ aLine with started := true, ended := true, selects := [(0, 3)] }] }),
       by unfold wholeMsg; decide +kernel⟩,
   ⟨0, ((up).set (Fd.LNK_TILE_REGCMD_BUSY (0 : Fin 32)) (0)), by decide +kernel⟩,
   ⟨0, ((up).set (Fd.LNK_TILE_REGCMD_BUSY (0 : Fin 32)) (1)), by decide +kernel⟩,
   ⟨0, msgOf 3 7 [9], 7, 9, 0, (portIn ptRUN fun p => { p with regAddr := some 7 }).set (Fd.LNK_TILE_REGCMD_BUSY 0) 1,
       by unfold wholeMsg; decide +kernel⟩,
   ⟨0, ⟨1, 0, 0, 0, false⟩, 0, ((State.reset.set (Fd.LNK_TILE_STAT_STATE 0) ptRUN).set (Fd.LNK_TILE_STAT_GEN 0) 2),
       by decide +kernel⟩,
   ⟨0, ((State.reset).set (Fd.LNK_TILE_REGCMD_BUSY (0 : Fin 32)) (1)), by decide +kernel⟩,
   ⟨0, ((State.reset).set (Fd.LNK_TILE_REGCMD_BUSY (0 : Fin 32)) (0)), by decide +kernel⟩⟩

/-- Inputs that meet the hypotheses of TilePhaseCompletes, clause by clause. -/
theorem witness_TilePhaseCompletes :
    (∃ (n : Fin 32) (temp : BitVec 12) (s : State), (s.portState n = ptPHASE ∨ s.portState n = ptRUN) ∧
        (s.port n).phase.busy = false ∧ (s.port n).runAt = none ∧ s.phaseDue n temp.toInt = true) ∧
    (∃ (n : Fin 32) (temp : BitVec 12) (s : State), ((s.port n).phase.busy = true ∨ s.phaseDue n temp.toInt = false)) ∧
    (∃ (n : Fin 32) (s : State), (s.port n).phase.busy = true ∧ (s.port n).phase.sent < 16) ∧
    (∃ (n : Fin 32) (h : MsgHdr) (beacon : Byte) (t2 : BitVec 52) (t3 : BitVec 52) (w : Nat × Int) (s : State),
        s.hears n = true ∧ wholeMsg h 4 beacon.toNat [t2.zeroExtend 64, t3.zeroExtend 64] ∧
        s.get (Fd.LNK_TILE_STAT_GEN n) ≠ 0 ∧ (s.port n).phase.wait.find? (fun x => decide (x.1 = beacon.toNat)) = some w) ∧
    (∃ (n : Fin 32) (s : State), (s.port n).phase.busy = true ∧ 16 ≤ (s.port n).phase.sent ∧ (s.port n).phase.wait = [] ∧
        12 ≤ (s.port n).phase.ofs2.length ∧ s.portState n = ptPHASE) ∧
    (∃ (n : Fin 32) (s : State), (s.port n).phase.busy = true ∧ 16 ≤ (s.port n).phase.sent ∧ (s.port n).phase.wait = [] ∧
        (s.port n).phase.ofs2.length < 12 ∧ (s.port n).phFails < 99) ∧
    (∃ (n : Fin 32) (x : Wide) (s : State), s.portState n = ptPHASE ∧ (s.port n).runAt = some x ∧ s.timely x = true) :=
  ⟨⟨0, 0, (((((State.reset).set (Fd.LNK_TILE_STAT_STATE (0 : Fin 32)) ptPHASE)).port' (0 : Fin 32) fun y =>
      { y with runAt := none })), by decide +kernel⟩,
   ⟨0, 0, portIn ptRUN fun p => { p with phase := { busy := true } }, by decide +kernel⟩,
   ⟨0, portIn ptPHASE fun p => { p with phase := { busy := true } }, by decide +kernel⟩,
   ⟨0, msgOf 4 3 [5, 6], 3, 5, 6, (3, 0),
       portIn ptPHASE fun p_ => { p_ with phase := { busy := true, sent := 1, wait := [(3, 0)] } },
       by unfold wholeMsg; decide +kernel⟩,
   ⟨0, portIn ptPHASE fun p_ => { p_ with phase := { busy := true, sent := 16, ofs2 := List.replicate 12 4 } },
       by decide +kernel⟩,
   ⟨0, portIn ptPHASE fun p_ => { p_ with phase := { busy := true, sent := 16, ofs2 := [4] } }, by decide +kernel⟩,
   ⟨0, 0, ((((((((State.reset).set (Fd.LNK_TILE_STAT_STATE (0 : Fin 32)) ptPHASE)).port' (0 : Fin 32) fun y =>
       { y with runAt := some (0 : Wide) }))).tbas' fun y => { y with running := true })), by decide +kernel⟩⟩

/-- Inputs that meet the hypotheses of EventsEnterTheStalls, clause by clause. -/
theorem witness_EventsEnterTheStalls :
    (∃ (l : Fin 128) (arrival : Wide) (s : State), s.laneSt l = lnLOCKED ∧ s.testMode l = false ∧
        (s.port (l / 4)).upExcl.testBit (l % 4) = false ∧ s.clockOk arrival = true) ∧
    (∃ (l : Fin 128) (s : State),
        (s.laneSt l ≠ lnLOCKED ∨ s.testMode l = true ∨ (s.port (l / 4)).upExcl.testBit (l % 4) = true)) ∧
    (∃ (w : Word), bitsOf w 26 24 = 1) ∧
    (∃ (w : Word), bitsOf w 26 24 = 2) ∧
    (∃ (l : Fin 128) (w : Word) (s : State), bitsOf w 26 24 ≠ 1 ∧ bitsOf w 26 24 ≠ 2 ∧ s.portState (l.val / 4) ≠ ptRUN) ∧
    (∃ (l : Fin 128) (arrival : Wide) (full : Bool) (w : Word) (k : Nat) (s : State), bitsOf w 26 24 = 0 ∧
        s.portState (l.val / 4) = ptRUN ∧ s.tbas.running = true ∧ (s.port (l.val / 4)).slot = some k ∧
        s.restarting (8 + (32 * (l.val / 4) + bitsOf w 31 27) / 256) = false ∧
        s.eventLate (l.val / 4) (s.eventTime (l.val / 4) (bitsOf w 23 0) k) arrival = false ∧ full = false ∧
        s.refuses (tileRgn (l.val / 4)) ((l.val / 4) % 8) = false) ∧
    (∃ (l : Fin 128) (arrival : Wide) (full : Bool) (w : Word) (k : Nat) (s : State), bitsOf w 26 24 = 0 ∧
        s.portState (l.val / 4) = ptRUN ∧ s.tbas.running = true ∧ (s.port (l.val / 4)).slot = some k ∧
        s.eventLate (l.val / 4) (s.eventTime (l.val / 4) (bitsOf w 23 0) k) arrival = false ∧
        (full = true ∨ s.refuses (tileRgn (l.val / 4)) ((l.val / 4) % 8) = true)) ∧
    (∃ (c : Nat) (bin : Nat) (now : Wide) (b : CmbBuf) (s : State), bin < 4096 ∧
        CmbBuf.place (s.bank (c / 32)).from_ bin ((rd (fun _ => {}) s.hst.cmb c).at' now s.hstRate (· % 4)) = some b) :=
  ⟨⟨0, 1000, ((State.reset).set (Fd.LNK_LANE_STAT_STATE (0 : Fin 128)) lnLOCKED), by decide +kernel⟩,
   ⟨0, State.reset, by decide +kernel⟩,
   ⟨0x01000000, by decide +kernel⟩,
   ⟨0x02000005, by decide +kernel⟩,
   ⟨0, 0x00000005, State.reset, by decide +kernel⟩,
   ⟨0, 100, false, 0, 0,
       ((((((((State.reset).set (Fd.LNK_TILE_STAT_STATE ((0 : Fin 128).val / 4)) ptRUN)).tbas' fun y_ =>
       { y_ with running := true }))).port' ((0 : Fin 128).val / 4) fun y_ => { y_ with slot := some (0 : Nat) })),
       by decide +kernel⟩,
   ⟨0, 100, true, 0, 0,
       ((((((((State.reset).set (Fd.LNK_TILE_STAT_STATE ((0 : Fin 128).val / 4)) ptRUN)).tbas' fun y_ =>
       { y_ with running := true }))).port' ((0 : Fin 128).val / 4) fun y_ => { y_ with slot := some (0 : Nat) })),
       by decide +kernel⟩,
   ⟨0, 0, 0, (CmbBuf.place none 0 (({} : CmbBuf).at' 0 State.reset.hstRate (· % 4))).getD {}, State.reset, by decide +kernel⟩⟩

/-- Inputs that meet the hypotheses of BanksComplete, clause by clause. -/
theorem witness_BanksComplete :
    (∃ (sec : Fin 32) (x : Wide) (s : State), earliest (s.swapTicks sec) = some x ∧ s.timely x = true) ∧
    (∃ (sec : Fin 32) (x : ReadBank) (s : State), s.hst.reads.find? (fun y => y.sector == sec.val && !y.started) = some x ∧
        s.timely x.readAt = true ∧ s.releaseEvents.timely x.readAt = true ∧ (∀ e ∈ s.releaseEvents.hst.wait,
        e.chan / 32 = x.sector → before (BitVec.ofInt 64 (e.x / 16)) x.stop = false)) ∧
    (∃ (j : StkJob) (rest : List StkJob) (s : State), s.memc.jobs = j :: rest ∧ s.timely j.done = true ∧ s.memc.retrain = [] ∧
        (∀ x ∈ s.hst.reads, x.line = j.line → x.stack = true → x.undelivered = [])) :=
  ⟨⟨0, 129000, ((((State.reset).scan' fun y => { y with lines := [{ aLine with started := true }] })).tbas' fun y =>
      { y with running := true }), by decide +kernel⟩,
   ⟨0, aRead, ((live State.reset).hst' fun y => { y with reads := [aRead] }), by decide +kernel⟩,
   ⟨aJob, [], ((((((State.reset).memc' fun y => { y with jobs := (aJob : StkJob) :: ([] : List StkJob) }))).tbas' fun y =>
       { y with running := true })), by decide +kernel⟩⟩

/-- Inputs that meet the hypotheses of EngineSettingsComplete, clause by clause. -/
theorem witness_EngineSettingsComplete :
    (∃ (n : Fin 4) (q : Nat) (s : State), s.admits (.stallRetireCmd n) = true ∧
        look s.hst.subst (256 * n + s.get (Fd.HST_SPARE_CMD_CHAN n)) = none ∧ s.freeSpare n = some q) ∧
    (∃ (n : Fin 4) (s : State), s.admits (.stallRetireCmd n) = true ∧
        look s.hst.subst (256 * n + s.get (Fd.HST_SPARE_CMD_CHAN n)) = none ∧ s.freeSpare n = none) ∧
    (∃ (n : Fin 4) (s : State), s.admits (.stallRetireCmd n) = true ∧
        (look s.hst.subst (256 * n + s.get (Fd.HST_SPARE_CMD_CHAN n))).isSome = true) ∧
    (∃ (s : State), s.admits .motionPublish = true) ∧
    (∃ (who : Actor) (off : BitVec 32) (v : Word) (n : Nat) (q : Nat) (k : Nat) (o : Nat) (m : Nat) (s : State),
        s.admits (.kernelWrite who off v) = true ∧ kernelAt off.toNat = some (n, q, k, o) ∧
        kernelMask (off.toNat % 0x100) = some m ∧ s.paletteLocked n q = false) ∧
    (∃ (who : Actor) (off : BitVec 32) (v : Word) (n : Nat) (q : Nat) (k : Nat) (o : Nat) (m : Nat) (s : State),
        s.admits (.kernelWrite who off v) = true ∧ kernelAt off.toNat = some (n, q, k, o) ∧
        kernelMask (off.toNat % 0x100) = some m ∧ s.paletteLocked n q = true) ∧
    (∃ (c : Fin 1024) (zoom : Option (Fin 4)) (x : ReadBank) (k' : Nat) (s : State),
        s.engineTakes (c.val / 256) (c.val % 8) = some (x, k') ∧ x.sector = c / 32 ∧
        s.mayTake x (c.val % 32) k' (zoom.map Fin.val) = true) :=
  ⟨⟨0, 0, up, by decide +kernel⟩,
   ⟨0, (List.range 8).foldl (fun (z_ : State) p_ => z_.set (Fd.HST_STALL_SPARE_RETIRED 0 p_) 1) up, by decide +kernel⟩,
   ⟨0, ((up).hst' fun y => { y with subst := [(0, 2)] }), by decide +kernel⟩,
   ⟨up, by decide +kernel⟩,
   ⟨.firmware, 0x01051000, 0x1F7F, 0, 1, 0, 0, 0x1F7F, up, by decide +kernel⟩,
   ⟨.firmware, 0x01050000, 0x1F7F, 0, 0, 0, 0, 0x1F7F, up, by decide +kernel⟩,
   ⟨0, none, { aRead with started := true }, 0,
       ((State.reset).hst' fun y => { y with reads := [{ aRead with started := true }] }), by decide +kernel⟩⟩

/-- Inputs that meet the hypotheses of OutputCompletes, clause by clause. -/
theorem witness_OutputCompletes :
    (∃ (c : Fin 1024) (errs : List BinErr) (x : ReadBank) (l : LineRec) (s : State), s.engineTakes (c / 256) (c % 8) = some (x,
        c.val % 32) ∧ x.sector = c / 32 ∧ s.lineOf x.line = some l ∧ (∀ e ∈ errs, e.double = false) ∧ s.restarting 12 = false ∧
        (∀ y ∈ s.hst.reads, y.sector = x.sector → y.stop = x.stop → y.lost.testBit (c % 32) = false)) ∧
    (∃ (c : Fin 1024) (x : ReadBank) (l : LineRec) (s : State), s.engineTakes (c / 256) (c % 8) = some (x, c.val % 32) ∧
        x.sector = c / 32 ∧ s.lineOf x.line = some l ∧
        s.hst.reads.find? (fun y => y.sector == c.val / 32 && y.stop == x.stop) = some x ∧ s.restarting 12 = false ∧
        x.lost.testBit (c % 32) = false ∧ x.stack = false) ∧
    (∃ (c : Fin 1024) (x : ReadBank) (l : LineRec) (s : State), s.engineTakes (c / 256) (c % 8) = some (x, c.val % 32) ∧
        x.sector = c / 32 ∧ s.lineOf x.line = some l ∧
        s.hst.reads.find? (fun y => y.sector == c.val / 32 && y.stop == x.stop) = some x ∧ s.restarting 12 = true) ∧
    (∃ (sec : Fin 32) (x : ReadBank) (l : LineRec) (s : State), s.hst.reads.find? (fun y => y.sector == sec.val) = some x ∧
        x.undelivered = [] ∧ s.restarting 12 = false ∧ s.lineOf x.line = some l) ∧
    (∃ (u : OutUnit) (rest : List OutUnit) (l : LineRec) (s : State), s.outp.units = u :: rest ∧ u.done = u.sectors ∧
        s.restarting 12 = false ∧ (∀ k < 32, u.stop ∈ s.swapTicks k → u.sectors = 0) ∧ s.lineOf u.line = some l) :=
  ⟨⟨0, [], { aRead with started := true }, aLine,
      ((((State.reset).hst' fun y => { y with reads := [{ aRead with started := true }] })).scan' fun y =>
      { y with lines := [aLine] }), by decide +kernel⟩,
   ⟨0, { aRead with started := true }, { aLine with started := true },
       ((((State.reset).hst' fun y => { y with reads := [{ aRead with started := true }] })).scan' fun y =>
       { y with lines := [{ aLine with started := true }] }), by decide +kernel⟩,
   ⟨0, { aRead with started := true }, aLine,
       ((((State.reset.setRestarting 12 true).hst' fun y => { y with reads := [{ aRead with started := true }] })).scan' fun y
       => { y with lines := [aLine] }), by decide +kernel⟩,
   ⟨0, { aRead with started := true, lost := allChans }, { aLine with started := true },
       ((((State.reset).hst' fun y => { y with reads := [{ aRead with started := true, lost := allChans }] })).scan' fun y =>
       { y with lines := [{ aLine with started := true }] }), by decide +kernel⟩,
   ⟨{ line := 1, stop := 0 }, [], { aLine with started := true },
       ((((State.reset).outp' fun y => { y with units := [{ line := 1, stop := 0 }] })).scan' fun y =>
       { y with lines := [{ aLine with started := true }] }), by decide +kernel⟩⟩

/-- Inputs that meet the hypotheses of BuffersComplete, clause by clause. -/
theorem witness_BuffersComplete :
    (∃ (r : Fin 14) (post : Word) (s : State), s.admits (.doorbellPost r post) = true ∧ s.ringState r ≠ rOFF) ∧
    (∃ (r : Fin 14) (post : Word) (s : State), s.admits (.doorbellPost r post) = true ∧ s.ringState r = rOFF) ∧
    (∃ (r : Fin 14) (next : BitVec 21) (d : Desc) (rest : List Desc) (s : State), s.admits (.flushDoorbell r next) = true ∧
        s.ringState r = rRUN ∧ (s.ring r).descs = d :: rest ∧ (s.ring r).data ≠ []) ∧
    (∃ (r : Fin 14) (b : List Byte) (d : Desc) (rest : List Desc) (s : State), (s.ring r).descs = d :: rest ∧
        (s.ring r).data.length + b.length ≤ d.size) ∧
    (∃ (r : Fin 14) (next : BitVec 21) (s : State), s.admits (.flushDoorbell r next) = true ∧
        (s.ringState r ≠ rRUN ∨ (s.ring r).data = [])) ∧
    (∃ (r : Fin 14) (d : Desc) (rest : List Desc) (s : State), s.ringState r = rRUN ∧ (s.ring r).descs = d :: rest ∧
        (s.ring r).data ≠ [] ∧ s.get (Fd.HOST_RING_CTL_IDLE r) ≠ 0 ∧ s.clockOk (s.idleAt r) = true) ∧
    (∃ (r : Fin 14) (fin : ReadEnd) (s : State), s.mayFetch r = true ∧ (fin = .timeout → s.get (Fd.CFG_DEV2_CTODIS false) = 0)) ∧
    (∃ (r : Fin 14) (s : State), (s.ring r).coal ≠ 0 ∧ s.get (Fd.HOST_RING_COAL_T r) ≠ 0 ∧
        s.clockOk ((s.ring r).coalAt + usTicks (s.get (Fd.HOST_RING_COAL_T r))) = true) :=
  ⟨⟨0, 5, ((up.set (Fd.HOST_RING_STAT_STATE 0) rRUN).ring' 0 fun x_ => { x_ with descs := [⟨0x1000, 4096, 7⟩], data := [1] }),
      by decide +kernel⟩,
   ⟨0, 5, up, by decide +kernel⟩,
   ⟨0, 5, ⟨0x1000, 4096, 7⟩, [],
       ((up.set (Fd.HOST_RING_STAT_STATE 0) rRUN).ring' 0 fun x_ => { x_ with descs := [⟨0x1000, 4096, 7⟩], data := [1] }),
       by decide +kernel⟩,
   ⟨0, [], ⟨0x1000, 4096, 7⟩, [],
       (((State.reset).ring' (0 : Fin 14) fun y_ => { y_ with descs := (⟨0x1000, 4096, 7⟩ : Desc) :: ([] : List Desc) })),
       by decide +kernel⟩,
   ⟨0, 0, up, by decide +kernel⟩,
   ⟨0, ⟨0x1000, 4096, 7⟩, [],
       ((up.set (Fd.HOST_RING_STAT_STATE 0) rRUN).ring' 0 fun x_ => { x_ with descs := [⟨0x1000, 4096, 7⟩], data := [1] }).set
       (Fd.HOST_RING_CTL_IDLE 0) 5, by decide +kernel⟩,
   ⟨0, .data, (State.reset.set (Fd.HOST_RING_STAT_STATE 0) rRUN).set (Fd.HOST_RING_POST_POST 0) 3, by decide +kernel⟩,
   ⟨0, ((State.reset.set (Fd.HOST_RING_COAL_T 0) 5).ring' 0 fun x => { x with coal := 1 }), by decide +kernel⟩⟩

/-- Inputs that meet the hypotheses of RingStatesComplete, clause by clause. -/
theorem witness_RingStatesComplete :
    (∃ (r : Fin 14) (s : State), s.admits (.ringEnable r) = true ∧ s.get (Fd.HOST_RING_CTL_EN r) = 0) ∧
    (∃ (r : Fin 14) (s : State), s.admits (.ringEnable r) = true ∧ s.get (Fd.HOST_RING_CTL_EN r) = 1) ∧
    (∃ (r : Fin 14) (flush : Bool) (next : BitVec 21) (s : State), s.admits (.ringDisable r flush next) = true ∧
        s.get (Fd.HOST_RING_CTL_EN r) = 0) ∧
    (∃ (r : Fin 14) (flush : Bool) (next : BitVec 21) (s : State), s.admits (.ringDisable r flush next) = true ∧
        s.get (Fd.HOST_RING_CTL_EN r) = 1) ∧
    (∃ (r : Fin 14) (s : State), s.admits (.ringResume r) = true ∧ s.ringState r = rSTOPPED) ∧
    (∃ (r : Fin 14) (s : State), s.admits (.ringResume r) = true ∧ s.ringState r ≠ rSTOPPED) ∧
    (∃ (pm : Bool) (s : State), s.admits (.ringStop pm) = true ∧
        (if pm then s.get (Fd.CFG_PM_STATE false) = 0 else s.get (Fd.CFG_CMD_BME false) = 1)) ∧
    (∃ (mask : Wide) (s : State), s.admits (.irqCauseClear mask 0) = true) ∧
    (∃ (mask : Wide) (hw : Wide) (i : Fin 64) (s : State), s.admits (.irqCauseClear mask hw) = true ∧ hw.getLsbD i = true ∧
        definedSource i = true) :=
  ⟨⟨0, ((up).set (Fd.HOST_RING_CTL_EN (0 : Fin 14)) (0)), by decide +kernel⟩,
   ⟨0, ((up).set (Fd.HOST_RING_CTL_EN (0 : Fin 14)) (1)), by decide +kernel⟩,
   ⟨0, true, 0, ((up).set (Fd.HOST_RING_CTL_EN (0 : Fin 14)) (0)), by decide +kernel⟩,
   ⟨0, true, 0, ((up).set (Fd.HOST_RING_CTL_EN (0 : Fin 14)) (1)), by decide +kernel⟩,
   ⟨0, ((up).set (Fd.HOST_RING_STAT_STATE (0 : Fin 14)) rSTOPPED), by decide +kernel⟩,
   ⟨0, up, by decide +kernel⟩,
   ⟨true, up, by decide +kernel⟩,
   ⟨1, up, by decide +kernel⟩,
   ⟨1, 1, 0, up, by decide +kernel⟩⟩

/-- Inputs that meet the hypotheses of LinkAndResetsComplete, clause by clause. -/
theorem witness_LinkAndResetsComplete :
    (∃ (why : ResetCause) (s : State), (if why = .perst then s.powered = true else s.get Fd.HOST_LINK_STAT_DL_UP = 1)) ∧
    (∃ (s : State), s.powered = false) ∧
    (∃ (why : ResetCause) (s : State), why ≠ .perst ∧ s.get Fd.HOST_LINK_STAT_DL_UP = 0) ∧
    (∃ (speed : BitVec 3) (width : BitVec 4) (flit : Bool) (s : State), linkFits speed.toNat width.toNat flit = true ∧
        s.host.perst = false ∧ s.stageIs 6 = true ∧ s.chip.railPcie = true ∧ s.restarting 13 = false) ∧
    (∃ (s : State), s.get Fd.HOST_LINK_STAT_DL_UP = 1 ∧ s.io.recovery = false) ∧
    (∃ (s : State), s.io.recovery = true) :=
  ⟨⟨.hotReset, up.set Fd.HOST_LINK_STAT_DL_UP 1, by decide +kernel⟩,
   ⟨State.reset.set Fd.HOST_LINK_STAT_DL_UP 1, by decide +kernel⟩,
   ⟨.hotReset, ((State.reset).set Fd.HOST_LINK_STAT_DL_UP (0)), by decide +kernel⟩,
   ⟨6, 8, true, ((((((((State.reset).host' fun y_ => { y_ with perst := false }))).stageDone 6)).chip' fun y_ =>
       { y_ with railPcie := true })), by decide +kernel⟩,
   ⟨(((((State.reset).set Fd.HOST_LINK_STAT_DL_UP (1))).io' fun y => { y with recovery := false })), by decide +kernel⟩,
   ⟨(((State.reset).io' fun y => { y with recovery := true })), by decide +kernel⟩⟩

/-- Inputs that meet the hypotheses of MemoryCompletes, clause by clause. -/
theorem witness_MemoryCompletes :
    (∃ (a : BitVec 2) (s : State), s.trainDue = true ∧ a ≠ 0) ∧
    (∃ (d : List (BitVec 2)) (s : State), s.trainDue = true ∧ d.length = 4 ∧ commonDensity d = none) ∧
    (∃ (s : State), s.get Fd.MEMC_MEM_STAT_TRAINED = 1 ∧ s.get Fd.MEMC_MEM_STAT_INIT_DONE = 0) ∧
    (∃ (s : State), s.admits .memcRetrain = true) ∧
    (∃ (ch : Fin 4) (s : State), s.get Fd.MEMC_MEM_STAT_TRAINED = 1 ∧ look s.memc.retrain ch = none) ∧
    (∃ (ch : Fin 4) (x : Wide) (s : State), look s.memc.retrain ch = some x) ∧
    (∃ (da : BitVec 34) (s : State), s.memReady = true ∧ da.toNat < s.memTop) ∧
    (∃ (da : BitVec 34) (s : State), (s.memReady = false ∨ s.memTop ≤ da.toNat)) ∧
    (∃ (load : MemLoad) (s : State), s.admits (.memcPeriod load) = true ∧ s.memReady = true) ∧
    (∃ (load : MemLoad) (s : State), s.admits (.memcPeriod load) = true ∧ (s.memReady = false ∨ s.restarting 14 = true)) ∧
    (∃ (s : State), s.memReady = true ∧ (∀ x, s.memc.scrubAt = some x → x ≤ (s.tick.toNat : Int))) :=
  ⟨⟨2, State.reset.set Fd.MEMC_MEM_CTL_RETRAIN 1, by decide +kernel⟩,
   ⟨[1, 2, 1, 1], State.reset.set Fd.MEMC_MEM_CTL_RETRAIN 1, by decide +kernel⟩,
   ⟨((((State.reset).set Fd.MEMC_MEM_STAT_TRAINED (1))).set Fd.MEMC_MEM_STAT_INIT_DONE (0)), by decide +kernel⟩,
   ⟨up.set Fd.MEMC_MEM_STAT_INIT_DONE 1, by decide +kernel⟩,
   ⟨0, ((State.reset).set Fd.MEMC_MEM_STAT_TRAINED (1)), by decide +kernel⟩,
   ⟨0, 500, (((State.reset).memc' fun y => { y with retrain := [((0 : Fin 4), (500 : Wide))] })), by decide +kernel⟩,
   ⟨5, (up.set Fd.MEMC_MEM_STAT_INIT_DONE 1).set Fd.MEMC_MEM_STAT_DENS 1, by decide +kernel⟩,
   ⟨0, State.reset, by decide +kernel⟩,
   ⟨⟨0, 0, 0, 0, 0, 0, 0, 0, 0⟩, up.set Fd.MEMC_MEM_STAT_INIT_DONE 1, by decide +kernel⟩,
   ⟨⟨0, 0, 0, 0, 0, 0, 0, 0, 0⟩, up, by decide +kernel⟩,
   ⟨State.reset.set Fd.MEMC_MEM_STAT_INIT_DONE 1, by decide +kernel,
       (fun x h => nomatch h.symm.trans (show _ = none by decide +kernel))⟩⟩

/-- Inputs that meet the hypotheses of CaptureCompletes, clause by clause. -/
theorem witness_CaptureCompletes :
    (∃ (s : State), s.admits .capArm = true ∧ s.capRefusal = 0) ∧
    (∃ (s : State), s.admits .capArm = true ∧ s.capRefusal ≠ 0) ∧
    (∃ (s : State), s.admits .capAbort = true ∧ (s.capState = capARMED ∨ s.capState = capEXPORT)) ∧
    (∃ (s : State), s.admits .capAbort = true ∧ s.capState = capPOST ∧
        (s.memc.postFull = false ∨ s.memc.segs.length < s.memc.nseg)) ∧
    (∃ (s : State), s.admits .capAbort = true ∧ s.capState = capPOST ∧ s.memc.postFull = true ∧
        s.memc.nseg ≤ s.memc.segs.length) ∧
    (∃ (s : State), s.admits .capAbort = true ∧ s.capState ≠ capARMED ∧ s.capState ≠ capPOST ∧ s.capState ≠ capEXPORT) ∧
    (∃ (x : Sample) (s : State), s.admits .capTrig = true ∧ s.capState = capARMED ∧ s.memc.condOn 5 = true ∧
        s.memc.last = some x ∧ (s.memc.opening = false ∨ s.memc.capQ = []) ∧ s.memc.hit = .none) ∧
    (∃ (s : State), s.admits .capTrig = true ∧ (s.capState = capARMED ∨ s.capState = capPOST) ∧ s.memc.condOn 5 = true ∧
        s.memc.last = none) ∧
    (∃ (s : State), s.admits .capTrig = true ∧ (s.capState ≠ capARMED ∧ s.capState ≠ capPOST ∨ s.memc.condOn 5 = false)) ∧
    (∃ (y : CapIn) (rest : List CapIn) (s : State), (s.capState = capARMED ∨ s.capState = capPOST ∧ s.memc.postFull = false) ∧
        s.memc.retrain = [] ∧ s.memc.fifo = y :: rest ∧ s.capGet Fd.MEMC_CAP_BUF_RED = 0) ∧
    (∃ (y : CapIn) (rest : List CapIn) (s : State), (s.capState = capARMED ∨ s.capState = capPOST ∧ s.memc.postFull = false) ∧
        s.memc.retrain = [] ∧ s.memc.fifo = y :: rest ∧ s.capGet Fd.MEMC_CAP_BUF_RED ≠ 0) ∧
    (∃ (s : State), (s.capRuns = false ∨ s.memc.retrain ≠ [] ∨ s.memc.fifo = [] ∨ s.capState = capPOST ∧
        s.memc.postFull = true)) ∧
    (∃ (s : State), s.capState = capPOST ∧ s.memc.postFull = true ∧ s.memc.segs.length < s.memc.nseg) ∧
    (∃ (s : State), s.capState = capPOST ∧ s.memc.postFull = true ∧ s.memc.nseg ≤ s.memc.segs.length) ∧
    (∃ (z : CapSeg) (d : Desc) (rest : List Desc) (s : State), s.capState = capEXPORT ∧ s.memc.retrain = [] ∧
        s.host.staged = [] ∧ s.memc.segs[s.memc.expSeg]? = some z ∧ s.memc.expAt = none ∧
        s.ringRoom 12 [(s.capSummary s.memc.expSeg z).length] = true ∧ (s.ring 12).descs = d :: rest ∧
        (s.ring 12).data.length + (s.capSummary s.memc.expSeg z).length ≤ d.size) ∧
    (∃ (z : CapSeg) (k : Nat) (s : State), s.capState = capEXPORT ∧ s.memc.retrain = [] ∧ s.host.staged = [] ∧
        s.memc.segs[s.memc.expSeg]? = some z ∧ s.memc.expAt = some k ∧
        s.ringRoom 12 [(s.capData s.memc.expSeg k z).1.length] = true ∧
        k + max (s.capData s.memc.expSeg k z).2.1 1 < (s.memc.kept z).length) ∧
    (∃ (z : CapSeg) (s : State), s.capState = capEXPORT ∧ s.memc.retrain = [] ∧ s.host.staged = [] ∧
        s.memc.segs[s.memc.expSeg]? = some z ∧ s.memc.expAt = none ∧
        s.ringRoom 12 [(s.capSummary s.memc.expSeg z).length] = false) ∧
    (∃ (s : State), (s.capState ≠ capEXPORT ∨ s.memc.retrain ≠ [])) :=
  ⟨⟨capReady, by decide +kernel⟩,
   ⟨up, by decide +kernel⟩,
   ⟨((up).set Fd.MEMC_CAP_STAT_STATE capARMED), by decide +kernel⟩,
   ⟨((up).set Fd.MEMC_CAP_STAT_STATE capPOST), by decide +kernel⟩,
   ⟨POSTCAP 1, by decide +kernel⟩,
   ⟨up, by decide +kernel⟩,
   ⟨⟨900, 0, 0⟩, ((((capReady.set Fd.MEMC_CAP_CTL_CEN 32).latchCap).set Fd.MEMC_CAP_STAT_STATE capARMED).memc' fun m_ =>
       { m_ with segs := [{ base := 0, n := 1 }], last := some ⟨900, 0, 0⟩ }), by decide +kernel⟩,
   ⟨(((((up).set Fd.MEMC_CAP_STAT_STATE capARMED)).memc' fun y => { y with last := none })), by decide +kernel⟩,
   ⟨up, by decide +kernel⟩,
   ⟨{ x := ⟨1000, 0, 0⟩ }, [], (ARMCAP.memc' fun m_ => { m_ with fifo := [{ x := ⟨1000, 0, 0⟩ }] }), by decide +kernel⟩,
   ⟨{ x := ⟨1000, 0, 0⟩ }, [],
       (((capReady.set Fd.MEMC_CAP_BUF_RED 1).latchCap).set Fd.MEMC_CAP_STAT_STATE capARMED).memc' fun m_ =>
       { m_ with segs := [{ base := 0 }], fifo := [{ x := ⟨1000, 0, 0⟩ }] }, by decide +kernel⟩,
   ⟨up, by decide +kernel⟩,
   ⟨POSTCAP 2, by decide +kernel⟩,
   ⟨POSTCAP 1, by decide +kernel⟩,
   ⟨capSeg, ⟨0x1000, 16384, 7⟩, [], EXPCAP none, by decide +kernel⟩,
   ⟨capSeg, 0, EXPCAP (some 0), by decide +kernel⟩,
   ⟨capSeg, ((EXPCAP none).ring' 12 fun x_ => { x_ with descs := [] }), by decide +kernel⟩,
   ⟨POSTCAP 2, by decide +kernel⟩⟩

/-- Inputs that meet the hypotheses of SyncBusCompletes, clause by clause. -/
theorem witness_SyncBusCompletes :
    (∃ (s : State), s.admits .syncArmCmd = true ∧ s.get Fd.MEMC_SYNC_CTL_ROLE = 1 ∧ s.frameInWay (s.tick + nsTicks 600) = none) ∧
    (∃ (e : Wide) (s : State), s.admits .syncArmCmd = true ∧ s.get Fd.MEMC_SYNC_CTL_ROLE = 1 ∧
        s.frameInWay (s.tick + nsTicks 600) = some e) ∧
    (∃ (s : State), s.admits .syncDisarmCmd = true ∧ s.get Fd.MEMC_SYNC_CTL_ROLE = 1 ∧
        s.frameInWay (s.tick + nsTicks 1800) = none) ∧
    (∃ (e : Wide) (s : State), s.admits .syncDisarmCmd = true ∧ s.get Fd.MEMC_SYNC_CTL_ROLE = 1 ∧
        s.frameInWay (s.tick + nsTicks 1800) = some e) ∧
    (∃ (s : State), s.admits .syncArmCmd = true ∧ s.admits .syncDisarmCmd = true ∧ s.get Fd.MEMC_SYNC_CTL_ROLE ≠ 1) ∧
    (∃ (arm : Bool) (e : Wide) (s : State), s.restarting 14 = false ∧ s.get Fd.MEMC_SYNC_CTL_ROLE = 1 ∧
        s.memc.deferred = some arm ∧ s.memc.pulseEnd = some e ∧ s.timely (e + nsTicks 200) = true) ∧
    (∃ (arm : Bool) (e : Wide) (s : State), s.restarting 14 = false ∧ s.get Fd.MEMC_SYNC_CTL_ROLE ≠ 1 ∧
        s.memc.deferred = some arm ∧ s.memc.pulseEnd = some e) ∧
    (∃ (width : BitVec 16) (s : State), s.restarting 14 = false ∧ s.tbas.running = true ∧ s.get Fd.MEMC_SYNC_CTL_ROLE = 0 ∧
        width.toNat < 200 ∧ s.get Fd.MEMC_SYNC_CTL_FEN = 1) ∧
    (∃ (width : BitVec 16) (s : State), s.restarting 14 = false ∧ s.tbas.running = true ∧ s.get Fd.MEMC_SYNC_CTL_ROLE = 0 ∧
        250 ≤ width.toNat ∧ width.toNat ≤ 800 ∧ s.get Fd.MEMC_SYNC_CTL_ARMIN = 1 ∧ s.capOpen = true ∧ s.capRefusal = 0) ∧
    (∃ (width : BitVec 16) (s : State), s.restarting 14 = false ∧ s.tbas.running = true ∧ s.get Fd.MEMC_SYNC_CTL_ROLE = 0 ∧
        1000 ≤ width.toNat ∧ s.get Fd.MEMC_SYNC_CTL_ARMIN = 1 ∧ s.capOpen = true ∧ s.capState = capARMED) ∧
    (∃ (width : BitVec 16) (s : State), s.restarting 14 = false ∧ s.tbas.running = true ∧ s.get Fd.MEMC_SYNC_CTL_ROLE = 0 ∧
        (200 ≤ width.toNat ∧ width.toNat < 250 ∨ 800 < width.toNat ∧ width.toNat < 1000)) ∧
    (∃ (s : State), (s.get Fd.MEMC_SYNC_CTL_ROLE ≠ 0 ∨ s.tbas.running = false)) ∧
    (∃ (x : Sample) (s : State), s.restarting 14 = false ∧ s.tbas.running = true ∧ s.get Fd.MEMC_SYNC_CTL_ROLE ≠ 2 ∧
        s.capOpen = true ∧ s.capState = capARMED ∧ s.memc.condOn 4 = true ∧ s.memc.last = some x ∧
        (s.memc.opening = false ∨ s.memc.capQ = []) ∧ s.memc.hit = .none) ∧
    (∃ (s : State), (s.get Fd.MEMC_SYNC_CTL_ROLE = 2 ∨ s.tbas.running = false)) :=
  ⟨⟨((up).set Fd.MEMC_SYNC_CTL_ROLE (1)), by decide +kernel⟩,
   ⟨900, ((((up).set Fd.MEMC_SYNC_CTL_ROLE (1)).set Fd.MEMC_SYNC_CTL_ROLE 1).memc' fun y => { y with pulseEnd := some 900 }),
       by decide +kernel⟩,
   ⟨((up).set Fd.MEMC_SYNC_CTL_ROLE (1)), by decide +kernel⟩,
   ⟨900, ((((up).set Fd.MEMC_SYNC_CTL_ROLE (1)).set Fd.MEMC_SYNC_CTL_ROLE 1).memc' fun y => { y with pulseEnd := some 900 }),
       by decide +kernel⟩,
   ⟨up, by decide +kernel⟩,
   ⟨true, 900, (((((((((((State.reset).set Fd.MEMC_SYNC_CTL_ROLE (1))).memc' fun y_ =>
       { y_ with deferred := some (true : Bool) }))).memc' fun y_ => { y_ with pulseEnd := some (900 : Wide) }))).tbas' fun y_
       => { y_ with running := true })), by decide +kernel⟩,
   ⟨true, 900, (((((((((State.reset).memc' fun y => { y with deferred := some (true : Bool) }))).memc' fun y =>
       { y with pulseEnd := some (900 : Wide) }))).tbas' fun y => { y with running := true })), by decide +kernel⟩,
   ⟨199, (((((((State.reset).tbas' fun y_ => { y_ with running := true }))).set Fd.MEMC_SYNC_CTL_ROLE (0))).set
       Fd.MEMC_SYNC_CTL_FEN (1)), by decide +kernel⟩,
   ⟨400, ((((capReady.set Fd.SECU_DBG_LEVEL 3).set Fd.MEMC_SYNC_CTL_ARMIN 1).tbas' fun y_ => { y_ with running := true })).set
       Fd.MEMC_CAP_CTL_CEN 32 |>.set Fd.MEMC_CAP_BUF_NSEG 1 |>.set Fd.MEMC_SYNC_CTL_ROLE 0, by decide +kernel⟩,
   ⟨1600, ((((capReady.set Fd.SECU_DBG_LEVEL 3).set Fd.MEMC_SYNC_CTL_ARMIN 1).tbas' fun y_ =>
       { y_ with running := true })).set Fd.MEMC_CAP_STAT_STATE capARMED |>.set Fd.MEMC_SYNC_CTL_ROLE 0, by decide +kernel⟩,
   ⟨200, (((((State.reset).tbas' fun y_ => { y_ with running := true }))).set Fd.MEMC_SYNC_CTL_ROLE (0)), by decide +kernel⟩,
   ⟨((State.reset).set Fd.MEMC_SYNC_CTL_ROLE 1), by decide +kernel⟩,
   ⟨⟨900, 0, 0⟩, ((((((((capReady.set Fd.MEMC_SYNC_CTL_ROLE 1).set Fd.MEMC_CAP_CTL_CEN 16).latchCap).set
       Fd.MEMC_CAP_STAT_STATE capARMED).set Fd.SECU_DBG_LEVEL 3).memc' fun m_ =>
       { m_ with segs := [{ base := 0, n := 1 }], last := some ⟨900, 0, 0⟩ })).tbas' fun y_ => { y_ with running := true }),
       by decide +kernel⟩,
   ⟨((State.reset).set Fd.MEMC_SYNC_CTL_ROLE 1), by decide +kernel⟩⟩

/-- Inputs that meet the hypotheses of SlowChainsComplete, clause by clause. -/
theorem witness_SlowChainsComplete :
    (∃ (m : Fin 16) (s : State), s.reportsCrossing m s.tick = true) ∧
    (∃ (m : Fin 16) (s : State), s.reportsCrossing m s.tick = false) ∧
    (∃ (k : Fin 20) (s : State), s.chainRuns k = true ∧
        s.timely ((s.chain k).base + BitVec.ofNat 64 ((s.nextOutput (s.chain k).base (s.chain k).sincs sincPeriod) *
        sincPeriod)) = true) ∧
    (∃ (k : Fin 20) (s : State), s.chainRuns k = true ∧
        s.timely ((s.chain k).base + BitVec.ofNat 64 ((s.nextOutput (s.chain k).base (s.chain k).firs firPeriod) * firPeriod))
        = true) ∧
    (∃ (v : BitVec 24) (s : State), s.chainRuns 17 = true ∧
        s.timely ((s.chain 17).base + BitVec.ofNat 64 (s.nextOutput (s.chain 17).base (s.chain 17).firs firPeriod *
        firPeriod)) = true ∧ s.ovenDrives = true ∧ (s.chain 17).good = 127 ∧ s.get (Fd.MONI_SNS_LAST_UNSET 0) = 0 ∧
        0 < v.toInt ∧ v ≠ 0x7FFFFF ∧ (s.get (Fd.MONI_SNS_LAST_VALUE 0)) < 2 ^ 23 ∧
        (s.get (Fd.MONI_SNS_LAST_VALUE 0)) * 2 ^ 22 / v.toNat + 1 < 2 ^ 24) ∧
    (∃ (s : State), s.admits .moniSync = true) ∧
    (∃ (x : Wide) (mask : Nat) (rest : List (Wide × Nat)) (s : State), s.moni.syncs = (x, mask) :: rest ∧ s.timely x = true) ∧
    (∃ (x : Fin 8) (p : Nat) (s : State), s.admits (.xsOpen x true) = true ∧ s.xsPin x = some p ∧
        s.get (Fd.MONI_XS_STAT_COMPL.bit x) = 0 ∧ s.restarting 15 = false) ∧
    (∃ (x : Fin 8) (s : State), s.admits (.xsOpen x false) = true ∧ (s.xsPin x).isSome = true ∧
        s.get (Fd.MONI_XS_STAT_COMPL.bit x) = 1 ∧ s.restarting 15 = false) ∧
    (∃ (x : Fin 8) (s : State), s.xsPin x = none) :=
  ⟨⟨0, (((State.reset).set (Fd.MONI_IN_CTL_EN (0 : Fin 16)) 1).set (Fd.MONI_IN_CTL_SLOPE (0 : Fin 16)) 1), by decide +kernel⟩,
   ⟨0, State.reset, by decide +kernel⟩,
   ⟨0, (((State.reset.set (Fd.MONI_IN_CTL_EN 0) 1).set (Fd.MONI_IN_CTL_SLOW_EN 0) 1).tbas' fun y =>
       { y with running := true }), by decide +kernel⟩,
   ⟨0, (((State.reset.set (Fd.MONI_IN_CTL_EN 0) 1).set (Fd.MONI_IN_CTL_SLOW_EN 0) 1).tbas' fun y =>
       { y with running := true }), by decide +kernel⟩,
   ⟨1000, ((((live State.reset).chain' 17 fun c_ => { c_ with good := 127 }).set (Fd.MONI_SNS_LAST_VALUE 0) 3001 |>.set
       (Fd.MONI_SNS_LAST_UNSET 0) 0).tbas' fun y_ => { y_ with ovenCtl := 1 }), by decide +kernel⟩,
   ⟨up, by decide +kernel⟩,
   ⟨900, 7, [], ((live State.reset).moni' fun y_ => { y_ with syncs := [(900, 7)] }), by decide +kernel⟩,
   ⟨0, 0, ((up).set (Fd.MONI_XS_STAT_COMPL.bit (0 : Fin 8)) (0)), by decide +kernel⟩,
   ⟨0, ((((up).set (Fd.MONI_XS_SRC_EN (0 : Fin 8)) 1)).set (Fd.MONI_XS_STAT_COMPL.bit (0 : Fin 8)) (1)), by decide +kernel⟩,
   ⟨900, State.reset, by decide +kernel⟩⟩

/-- Inputs that meet the hypotheses of HousekeepingCompletes, clause by clause. -/
theorem witness_HousekeepingCompletes :
    (∃ (s : State), s.restarting 15 = false ∧ s.get Fd.MONI_HK_STAT_RUNNING = 0 ∧ s.moni.hk = [] ∧ s.hkEntries ≠ [] ∧
        (s.get Fd.MONI_HK_CTL_MODE = 1 ∨ s.get Fd.MONI_HK_CTL_MODE = 3 ∧ s.get Fd.MONI_HK_CMD_GO = 1)) ∧
    (∃ (s : State), s.restarting 15 = false ∧ s.get Fd.MONI_HK_STAT_RUNNING = 0 ∧ s.moni.hk = [] ∧ s.hkEntries ≠ [] ∧
        s.get Fd.MONI_HK_CTL_MODE = 2 ∧ s.moni.hkLate = false ∧ s.clockOk (s.moni.hkDue.getD s.tick) = true) ∧
    (∃ (c : HkConv) (rest : List HkConv) (b : HkBusy) (more : List HkBusy) (s : State), s.moni.hk = c :: rest ∧
        s.moni.busy = b :: more ∧ s.clockOk (b.start + usTicks 1) = true ∧ c.port = none ∧ c.last = true ∧ c.entry < 32) ∧
    (∃ (c : HkConv) (rest : List HkConv) (b : HkBusy) (more : List HkBusy) (s : State), s.moni.hk = c :: rest ∧
        s.moni.busy = b :: more ∧ s.clockOk (b.start + usTicks 1) = true ∧ c.port = none ∧ c.last = false) ∧
    (∃ (c : HkConv) (rest : List HkConv) (b : HkBusy) (more : List HkBusy) (p : Nat) (s : State), s.moni.hk = c :: rest ∧
        s.moni.busy = b :: more ∧ s.clockOk (b.start + usTicks 1) = true ∧ c.port = some p ∧ p < 2) ∧
    (∃ (p : Fin 2) (s : State), s.admits (.hkReqGo p false) = true ∧ s.get (Fd.MONI_HK_REQ_BUSY p) = 0) ∧
    (∃ (p : Fin 2) (s : State), s.admits (.hkReqGo p false) = true ∧ s.get (Fd.MONI_HK_REQ_BUSY p) = 1) ∧
    (∃ (p : Fin 2) (s : State), s.admits (.hkReqGo p true) = true) ∧
    (∃ (s : State), s.admits .hkRotate = true ∧ s.restarting 15 = false ∧ s.get Fd.MONI_HK_STAT_CAL ≠ 3 ∧
        s.clockOk (s.moni.rotAt + BitVec.ofNat 64 (max 20 (s.get Fd.MONI_HK_ROT_ROT) * ticksPerMs)) = true) ∧
    (∃ (n : Fin 3) (s : State), s.get Fd.MONI_HK_STAT_CAL = n) ∧
    (∃ (n : Fin 3) (s : State), s.get Fd.MONI_HK_STAT_CAL = 3 ∧ s.moni.hkOne = false ∧
        (s.get Fd.MONI_HK_STAT_ACT_A = n ∨ s.get Fd.MONI_HK_STAT_ACT_B = n)) :=
  ⟨⟨(State.reset.set Fd.MONI_HK_EN_EN 1).set Fd.MONI_HK_CTL_MODE 1, by decide +kernel⟩,
   ⟨(State.reset.set Fd.MONI_HK_EN_EN 1).set Fd.MONI_HK_CTL_MODE 2, by decide +kernel⟩,
   ⟨aConv, [], { slice := 0, start := 0 }, [],
       ((((((State.reset).moni' fun y_ => { y_ with hk := (aConv : HkConv) :: ([] : List HkConv) }))).moni' fun y_ =>
       { y_ with busy := ({ slice := 0, start := 0 } : HkBusy) :: ([] : List HkBusy) })), by decide +kernel⟩,
   ⟨{ aConv with last := false }, [], { slice := 0, start := 0 }, [],
       ((((((State.reset).moni' fun y_ =>
       { y_ with hk := ({ aConv with last := false } : HkConv) :: ([] : List HkConv) }))).moni' fun y_ =>
       { y_ with busy := ({ slice := 0, start := 0 } : HkBusy) :: ([] : List HkBusy) })), by decide +kernel⟩,
   ⟨{ aConv with port := some 1 }, [], { slice := 0, start := 0 }, [], 1,
       ((((((State.reset).moni' fun y_ =>
       { y_ with hk := ({ aConv with port := some 1 } : HkConv) :: ([] : List HkConv) }))).moni' fun y_ =>
       { y_ with busy := ({ slice := 0, start := 0 } : HkBusy) :: ([] : List HkBusy) })), by decide +kernel⟩,
   ⟨1, ((up).set (Fd.MONI_HK_REQ_BUSY (1 : Fin 2)) (0)), by decide +kernel⟩,
   ⟨1, ((up).set (Fd.MONI_HK_REQ_BUSY (1 : Fin 2)) (1)), by decide +kernel⟩,
   ⟨1, up, by decide +kernel⟩,
   ⟨up, by decide +kernel⟩,
   ⟨0, ((State.reset).set Fd.MONI_HK_STAT_CAL (0 : Fin 3)), by decide +kernel⟩,
   ⟨0, (((((((State.reset).set Fd.MONI_HK_STAT_CAL (3))).moni' fun y => { y with hkOne := false }))).set Fd.MONI_HK_STAT_ACT_A
       (0 : Fin 3)), by decide +kernel⟩⟩

/-- Inputs that meet the hypotheses of DetectionsEnterSafe, clause by clause. -/
theorem witness_DetectionsEnterSafe :
    (∃ (s : State), s.admits .wdogA = true ∧ s.safe.suspended = false ∧
        s.clockOk (s.safe.servedAt + msTicks (s.ownB Fd.SAFE_PROF_T_WDOG)) = true) ∧
    (∃ (s : State), s.admits .wdogA = true ∧
        (s.safe.suspended = true ∨ s.clockOk (s.safe.servedAt + msTicks (s.ownB Fd.SAFE_PROF_T_WDOG)) = false)) ∧
    (∃ (chanB : Bool) (copy : BitVec 3) (s : State), s.admits (.chDisagree chanB copy) = true ∧ s.safe.suspended = false ∧
        copy.toNat ≠ s.get (if chanB then Fd.SAFE_STAT_A_STATE else Fd.SAFE_STAT_B_STATE)) ∧
    (∃ (chanB : Bool) (copy : BitVec 3) (s : State), s.admits (.chDisagree chanB copy) = true ∧
        (s.safe.suspended = true ∨ copy.toNat = s.get (if chanB then Fd.SAFE_STAT_A_STATE else Fd.SAFE_STAT_B_STATE))) ∧
    (∃ (s : State), s.admits .msgTimeout = true ∧ s.clockOk (s.safe.permitAt + msTicks (s.get Fd.SAFE_PROF_T_TMSG)) = true ∧
        s.safeSt = stARMED) ∧
    (∃ (s : State), s.admits .msgTimeout = true ∧ s.clockOk (s.safe.permitAt + msTicks (s.get Fd.SAFE_PROF_T_TMSG)) = true ∧
        s.safeSt = stTESTING) ∧
    (∃ (s : State), s.admits .msgTimeout = true ∧ s.clockOk (s.safe.permitAt + msTicks (s.get Fd.SAFE_PROF_T_TMSG)) = true ∧
        s.safeSt ≠ stARMED ∧ s.safeSt ≠ stTESTING) ∧
    (∃ (s : State), s.admits .swStuckHs = true) ∧
    (∃ (s : State), s.admits .swStuckLs = true) ∧
    (∃ (mv : BitVec 16) (s : State), s.admits (.supplyPresent mv) = true ∧
        (s.get Fd.SAFE_STAT_HS_EN = 0 ∨ s.get Fd.SAFE_STAT_LS_EN = 0) ∧ s.get Fd.SAFE_PROF_T_VSNS_ON * 100 < mv.toNat) ∧
    (∃ (mv : BitVec 16) (s : State), ((s.get Fd.SAFE_STAT_HS_EN = 1 ∧
        s.get Fd.SAFE_STAT_LS_EN = 1) ∨ mv.toNat ≤ s.get Fd.SAFE_PROF_T_VSNS_ON * 100)) ∧
    (∃ (s : State), s.get Fd.SAFE_RST_STAT_LOW = 1) ∧
    (∃ (s : State), s.get Fd.SAFE_RST_STAT_LOW = 0) :=
  ⟨⟨(((up).safe' fun y => { y with suspended := false })), by decide +kernel⟩,
   ⟨(((up).safe' fun y => { y with suspended := true })), by decide +kernel⟩,
   ⟨true, 1, (((up).safe' fun y_ => { y_ with suspended := false })), by decide +kernel⟩,
   ⟨true, 0, (((up).safe' fun y_ => { y_ with suspended := true })), by decide +kernel⟩,
   ⟨((up).set Fd.SAFE_STAT_STATE stARMED), by decide +kernel⟩,
   ⟨((up).set Fd.SAFE_STAT_STATE stTESTING), by decide +kernel⟩,
   ⟨((((up).set Fd.SAFE_STAT_STATE stSAFE)).set Fd.SAFE_STAT_STATE stSAFE), by decide +kernel⟩,
   ⟨(((up).safe' fun y => { y with suspended := true })), by decide +kernel⟩,
   ⟨(((up).safe' fun y => { y with suspended := true })), by decide +kernel⟩,
   ⟨5000, up.set Fd.SAFE_PROF_T_VSNS_ON 20, by decide +kernel⟩,
   ⟨0, ((((State.reset).set Fd.SAFE_STAT_HS_EN (1))).set Fd.SAFE_STAT_LS_EN (1)), by decide +kernel⟩,
   ⟨((State.reset).set Fd.SAFE_RST_STAT_LOW (1)), by decide +kernel⟩,
   ⟨((State.reset).set Fd.SAFE_RST_STAT_LOW (0)), by decide +kernel⟩⟩

/-- Inputs that meet the hypotheses of SafetyIslandCompletes, clause by clause. -/
theorem witness_SafetyIslandCompletes :
    (∃ (s : State), s.admits .safeWdogService = true) ∧
    (∃ (s : State), s.admits .safeRstFall = true) ∧
    (∃ (s : State), s.get Fd.SAFE_RST_STAT_LOW = 0) ∧
    (∃ (s : State), s.get Fd.SAFE_RST_STAT_LOW = 1) ∧
    (∃ (b : Fin 12) (s : State), s.get (Fd.SAFE_NOW_NOW.bit b) = 1 ∧ s.mayClear b = true) ∧
    (∃ (b : Fin 12) (s : State), (s.get (Fd.SAFE_NOW_NOW.bit b) = 0 ∨ s.mayClear b = false)) ∧
    (∃ (s : State), s.admits .violClear = true) ∧
    (∃ (hs : Bool) (ls : Bool) (mv : BitVec 16) (s : State), s.admits (.switchTestStep hs ls mv) = true ∧
        (s.safeSt = stINIT ∨ s.safeSt = stTESTING) ∧
        ((s.safe.testStep + 1) ≤ 1 ∨ ((s.safe.testStep + 1) == 7 && !(s.safeSt == stINIT) && s.testLate (s.safe.testAt +
        usTicks (testTime (s.safeSt == stINIT) (s.safe.testStep + 1)))) = true ∨ ((s.safe.testStep + 1) = 7 ∧
        (s.safeSt == stINIT) = false ∧
        (testFails (s.safeSt == stINIT) (s.safe.testStep + 1) hs ls ((decide (s.get Fd.SAFE_PROF_T_VSNS_ON * 100 < mv.toNat))
        && !((s.safe.testStep + 1) == 7 && !(s.safeSt == stINIT) && s.testLate (s.safe.testAt + usTicks (testTime (s.safeSt ==
        stINIT) (s.safe.testStep + 1)))))) = []) ∨ s.clockOk (s.safe.testAt + usTicks (testTime (s.safeSt == stINIT)
        (s.safe.testStep + 1))) = true)) ∧
    (∃ (s : State), s.safeSt ≠ stINIT ∧ s.safeSt ≠ stTESTING) :=
  ⟨⟨up, by decide +kernel⟩,
   ⟨up, by decide +kernel⟩,
   ⟨((State.reset).set Fd.SAFE_RST_STAT_LOW (0)), by decide +kernel⟩,
   ⟨((State.reset).set Fd.SAFE_RST_STAT_LOW (1)), by decide +kernel⟩,
   ⟨6, ((State.reset).set (Fd.SAFE_NOW_NOW.bit (6 : Fin 12)) (1)), by decide +kernel⟩,
   ⟨6, ((State.reset).set (Fd.SAFE_NOW_NOW.bit (6 : Fin 12)) (0)), by decide +kernel⟩,
   ⟨up, by decide +kernel⟩,
   ⟨true, true, 0, ((up).set Fd.SAFE_STAT_STATE stINIT), by decide +kernel⟩,
   ⟨((((State.reset).set Fd.SAFE_STAT_STATE stSAFE)).set Fd.SAFE_STAT_STATE stSAFE), by decide +kernel⟩⟩

/-- Inputs that meet the hypotheses of SafetyMessagesComplete, clause by clause. -/
theorem witness_SafetyMessagesComplete :
    (∃ (s : State), s.admits .smRxGo = true ∧ s.chanA = true ∧ s.get Fd.SM_RX_STAT_BUSY = 0 ∧
        s.checkCopy (pduOf ((List.range 8).flatMap fun k => leBytes 4 (s.get (Fd.SM_RX_WORD k)))) = 0 ∧
        s.safe.waitB.find? (Copy.of (pduOf ((List.range 8).flatMap fun k => leBytes 4 (s.get (Fd.SM_RX_WORD k)))).src (pduOf
        ((List.range 8).flatMap fun k => leBytes 4 (s.get (Fd.SM_RX_WORD k)))).seq) = none ∧ s.safe.waitA.length < 4) ∧
    (∃ (s : State), s.admits .smRxGo = true ∧ s.chanA = false ∧ s.get Fd.SM_RX_STAT_BUSY = 0) ∧
    (∃ (s : State), s.admits .smRxGo = true ∧ s.get Fd.SM_RX_STAT_BUSY = 1) ∧
    (∃ (fd : Bool) (id : BitVec 11) (sdt : Byte) (af : Word) (p : Pdu) (q : Copy) (s : State), s.powered = true ∧
        s.get Fd.SAFE_CAN_STAT_BUSOFF = 0 ∧ s.canTakes (if fd then .fd32 else .xl32) id sdt af = true ∧ s.checkCopy p = 0 ∧
        s.safe.waitA = [q] ∧ q.pdu.src = p.src ∧ q.pdu.seq = p.seq ∧ s.safe.stopAt ≠ some s.tick) ∧
    (∃ (fmt : CanFormat) (id : BitVec 11) (sdt : Byte) (af : Word) (s : State), s.powered = true ∧
        s.get Fd.SAFE_CAN_STAT_BUSOFF = 0 ∧ (s.canTakes fmt id sdt af = false ∨ fmt = .unused ∨ fmt = .otherLength)) ∧
    (∃ (s : State), s.get Fd.SAFE_CAN_STAT_BUSOFF = 1) ∧
    (∃ (chanB : Bool) (q : Copy) (s : State), (if chanB then s.safe.waitB else s.safe.waitA) = [q] ∧
        s.clockOk (q.at_ + msTicks 20) = true) ∧
    (∃ (src : BitVec 16) (seq : Word) (stamp : Wide) (s : State), s.powered = true ∧ s.listed src.toNat = true ∧
        s.stale src.toNat seq stamp = false ∧ src.toNat = s.permitSrc ∧ s.chip.doze = false ∧ s.mgmt.hand ≠ 2 ∧
        s.stoppedNow = false) ∧
    (∃ (src : BitVec 16) (seq : Word) (stamp : Wide) (s : State), s.powered = true ∧ s.listed src.toNat = true ∧
        s.stale src.toNat seq stamp = false ∧ src.toNat = s.permitSrc ∧ s.chip.doze = false ∧ s.mgmt.hand = 2 ∧
        s.stoppedNow = false ∧ (s.safeSt = stTESTING ∨ s.safeSt = stARMED)) ∧
    (∃ (src : BitVec 16) (seq : Word) (stamp : Wide) (s : State), s.powered = true ∧ s.listed src.toNat = true ∧
        s.stale src.toNat seq stamp = false ∧ src.toNat = s.permitSrc ∧ s.chip.doze = false ∧ s.mgmt.hand ≠ 2 ∧
        s.stoppedNow = false ∧ (s.safeSt = stTESTING ∨ s.safeSt = stARMED)) ∧
    (∃ (src : BitVec 16) (s : State), s.powered = true ∧ s.listed src.toNat = false) ∧
    (∃ (src : BitVec 16) (seq : Word) (stamp : Wide) (s : State), s.powered = true ∧ s.listed src.toNat = true ∧
        s.stale src.toNat seq stamp = true) ∧
    (∃ (src : BitVec 16) (seq : Word) (stamp : Wide) (s : State), s.powered = true ∧ s.listed src.toNat = true ∧
        s.stale src.toNat seq stamp = false ∧ src.toNat ≠ s.permitSrc) ∧
    (∃ (src : BitVec 16) (seq : Word) (stamp : Wide) (s : State), s.powered = true ∧ s.listed src.toNat = true ∧
        s.stale src.toNat seq stamp = false ∧ src.toNat = s.permitSrc ∧ s.stoppedNow = true) ∧
    (∃ (by_ : BitVec 16) (n : Word) (x : Wide) (s : State), s.powered = true ∧ s.listed by_.toNat = true ∧
        s.stale by_.toNat n x = false) ∧
    (∃ (src : BitVec 16) (seq : Word) (stamp : Wide) (s : State), s.admits (.stop src seq stamp) = true ∧
        s.listed src.toNat = true ∧ s.stale src.toNat seq stamp = false) ∧
    (∃ (s : State), s.admits .safeStatusPdu = true ∧
        (s.safe.statusDue.isSome = true ∨ s.clockOk (s.safe.txAt + msTicks (s.get Fd.SAFE_PROF_T_TSTAT)) = true)) ∧
    (∃ (s : State), s.admits .safeStatusPdu = true ∧ s.safe.statusDue = none ∧
        s.clockOk (s.safe.txAt + msTicks (s.get Fd.SAFE_PROF_T_TSTAT)) = false) ∧
    (∃ (p : Pdu) (rest : List Pdu) (s : State), s.admits .smTxPop = true ∧ s.safe.smTx = p :: rest ∧ rest.length < 4) ∧
    (∃ (n : Byte) (s : State), s.admits (.canError { transmit := false, amount := n }) = true) ∧
    (∃ (n : Byte) (s : State), s.admits (.canError { transmit := true, amount := n }) = true) ∧
    (∃ (s : State), s.get Fd.SAFE_CAN_STAT_BUSOFF = 0) :=
  ⟨⟨rxCopy ((up.set (Fd.SAFE_PROF_SRC_SRC 0) 5).set (Fd.SAFE_PROF_SRC_SRC 1) 6), by decide +kernel⟩,
   ⟨((State.reset.set Fd.HOST_LINK_STAT_DL_UP 1).chip' fun y_ => { y_ with railIo := true }), by decide +kernel⟩,
   ⟨((up).set Fd.SM_RX_STAT_BUSY (1)), by decide +kernel⟩,
   ⟨false, 0, 0, 0, goodPdu, { pdu := goodPdu, at_ := 0 },
       ((((up.set (Fd.SAFE_PROF_SRC_SRC 0) 5).set (Fd.SAFE_PROF_SRC_SRC 1) 6)).safe' fun y =>
       { y with waitA := [{ pdu := goodPdu, at_ := 0 }] }), by decide +kernel⟩,
   ⟨.xl32, 0, 0, 1, ((up).set Fd.SAFE_CAN_STAT_BUSOFF (0)), by decide +kernel⟩,
   ⟨((State.reset).set Fd.SAFE_CAN_STAT_BUSOFF (1)), by decide +kernel⟩,
   ⟨false, { pdu := goodPdu, at_ := 0 },
       ((((State.reset.set (Fd.SAFE_PROF_SRC_SRC 0) 5).set (Fd.SAFE_PROF_SRC_SRC 1) 6)).safe' fun y =>
       { y with waitA := [{ pdu := goodPdu, at_ := 0 }] }), by decide +kernel⟩,
   ⟨5, 1, 9, rxCopy ((up.set (Fd.SAFE_PROF_SRC_SRC 0) 5).set (Fd.SAFE_PROF_SRC_SRC 1) 6), by decide +kernel⟩,
   ⟨5, 1, 0, ((((up.set (Fd.SAFE_PROF_SRC_SRC 0) 5).set (Fd.SAFE_PROF_SRC_SRC 1) 6).set Fd.SAFE_STAT_STATE stARMED).mgmt' fun
       y_ => { y_ with hand := 2 }), by decide +kernel⟩,
   ⟨5, 1, 9, ((up.set (Fd.SAFE_PROF_SRC_SRC 0) 5).set (Fd.SAFE_PROF_SRC_SRC 1) 6).set Fd.SAFE_STAT_STATE stARMED,
       by decide +kernel⟩,
   ⟨5, up, by decide +kernel⟩,
   ⟨5, 0, 9, rxCopy ((up.set (Fd.SAFE_PROF_SRC_SRC 0) 5).set (Fd.SAFE_PROF_SRC_SRC 1) 6), by decide +kernel⟩,
   ⟨6, 1, 9, rxCopy ((up.set (Fd.SAFE_PROF_SRC_SRC 0) 5).set (Fd.SAFE_PROF_SRC_SRC 1) 6), by decide +kernel⟩,
   ⟨5, 1, 0, ((((((up.set (Fd.SAFE_PROF_SRC_SRC 0) 5).set (Fd.SAFE_PROF_SRC_SRC 1) 6)).safe' fun y_ =>
       { y_ with stopAt := some 0 })).tbas' fun y_ => { y_ with running := true }), by decide +kernel⟩,
   ⟨5, 1, 0, rxCopy ((up.set (Fd.SAFE_PROF_SRC_SRC 0) 5).set (Fd.SAFE_PROF_SRC_SRC 1) 6), by decide +kernel⟩,
   ⟨5, 1, 9, rxCopy ((up.set (Fd.SAFE_PROF_SRC_SRC 0) 5).set (Fd.SAFE_PROF_SRC_SRC 1) 6), by decide +kernel⟩,
   ⟨up, by decide +kernel⟩,
   ⟨((live up).chip' fun y => { y with phase := 2 }), by decide +kernel⟩,
   ⟨goodPdu, [], (((up).safe' fun y => { y with smTx := (goodPdu : Pdu) :: ([] : List Pdu) })), by decide +kernel⟩,
   ⟨0, up, by decide +kernel⟩,
   ⟨0, up, by decide +kernel⟩,
   ⟨((State.reset).set Fd.SAFE_CAN_STAT_BUSOFF (0)), by decide +kernel⟩⟩

/-- Inputs that meet the hypotheses of ProfilesComplete, clause by clause. -/
theorem witness_ProfilesComplete :
    (∃ (n : Nat) (s : State), s.asks 0x0601 n) ∧
    (∃ (i : Image) (s : State), s.asks 0x0602 8 ∧ s.get Fd.CHIP_SKETCH_GEN_GEN = s.get Fd.CHIP_COMMIT_GEN_GEN ∧
        s.safe.image = some i ∧ s.safe.verified = true ∧ s.safe.verStored ≤ i.svn.toNat) ∧
    (∃ (s : State), s.asks 0x0602 8 ∧ s.get Fd.CHIP_SKETCH_GEN_GEN ≠ s.get Fd.CHIP_COMMIT_GEN_GEN) ∧
    (∃ (s : State), s.asks 0x0602 8 ∧ s.get Fd.CHIP_SKETCH_GEN_GEN = s.get Fd.CHIP_COMMIT_GEN_GEN ∧ (∀ i,
        s.safe.image = some i → s.safe.verified = false ∨ i.svn.toNat < s.safe.verStored)) ∧
    (∃ (s : State), s.asks 0x0603 0) ∧
    (∃ (s : State), s.asks 0x0604 0) :=
  ⟨⟨64, ((asking 0x0601 (64 : Nat) (State.reset))), by unfold State.asks; decide +kernel⟩,
   ⟨anImage, ((((((((asking 0x0602 8 (State.reset)))).safe' fun y => { y with image := some (anImage : Image) }))).safe' fun y
       => { y with verified := true })), by unfold State.asks; decide +kernel⟩,
   ⟨(asking 0x0602 8 State.reset).set Fd.CHIP_SKETCH_GEN_GEN 5, by unfold State.asks; decide +kernel⟩,
   ⟨((asking 0x0602 8 (State.reset))), by unfold State.asks; decide +kernel, by decide +kernel,
       (fun x h => nomatch h.symm.trans (show _ = none by decide +kernel))⟩,
   ⟨((asking 0x0603 0 (State.reset))), by unfold State.asks; decide +kernel⟩,
   ⟨((asking 0x0604 0 (State.reset))), by unfold State.asks; decide +kernel⟩⟩

/-- Inputs that meet the hypotheses of BootAndLifecycleComplete, clause by clause. -/
theorem witness_BootAndLifecycleComplete :
    (∃ (s : State), s.stageIs 4 = true ∧ s.get Fd.CHIP_OSC_STAT_ROSC_OK = 1 ∧ s.mgmt.booted = false ∧ s.mgmt.recovery = false ∧
        s.chip.doze = false ∧ s.chip.bootFail = false ∧ s.mgmt.resume = false ∧ s.mgmt.bootRec.pref ≤ 1 ∧
        (s.bootOtp).lifecycle = 5) ∧
    (∃ (s : State), s.stageIs 4 = true ∧ s.get Fd.CHIP_OSC_STAT_ROSC_OK = 1 ∧ s.mgmt.booted = false ∧ s.mgmt.recovery = false ∧
        s.chip.doze = false ∧ s.chip.bootFail = false ∧ s.mgmt.resume = false ∧ s.mgmt.bootRec.pref ≤ 1 ∧
        (s.bootOtp).lifecycle ≠ 5) ∧
    (∃ (s : State), s.secu.regen = true ∧ s.secu.aliasDue = false) ∧
    (∃ (c : HssCopy) (s : State), s.secu.regen = true ∧ s.secu.aliasDue = true ∧ s.secu.keys = true ∧ s.hss = some c ∧
        treeLeaves ≤ c.q ∧ s.sigTooSoon = false ∧ s.secu.certCdi ≠ some s.secu.cdi) ∧
    (∃ (s : State), s.secu.regen = false) ∧
    (∃ (s : State), s.asks 0x0101 0) ∧
    (∃ (n : Nat) (s : State), s.asks 0x0102 n ∧ (n = 1 ∨ n = 3833) ∧ s.lifecycle = 0 ∧ s.secu.udsGone = false) ∧
    (∃ (n : Nat) (s : State), s.asks 0x0102 n ∧ (n = 1 ∨ n = 3833) ∧ s.lifecycle = 1 ∧ s.get Fd.SECU_LC_OWNER_SET = 1) ∧
    (∃ (n : Nat) (stored : Bool) (s : State), s.asks 0x0102 n ∧ (n = 1 ∨ n = 3833) ∧ s.lifecycle = 3 ∧ stored = true) ∧
    (∃ (n : Nat) (stored : Bool) (s : State), s.asks 0x0102 n ∧ (n = 1 ∨ n = 3833) ∧ s.lifecycle = 3 ∧ stored = false) ∧
    (∃ (target : Byte) (s : State), s.asks 0x0102 3833 ∧ s.freeTransit target.toNat = false) ∧
    (∃ (target : Byte) (n : Nat) (s : State), s.asks 0x0102 n ∧ (n = 1 ∨ n = 3833) ∧ s.freeTransit target.toNat = false) ∧
    (∃ (s : State), s.chip.railIo = true ∧ s.fwRuns = true ∧ s.mgmt.recovery = false ∧ s.restarting 17 = false ∧
        s.lifecycle ≠ 5) ∧
    (∃ (s : State),
        (s.chip.railIo = false ∨ s.fwRuns = false ∨ s.mgmt.recovery = true ∨ s.restarting 17 = true ∨ s.lifecycle = 5)) ∧
    (∃ (s : State), s.asks 0x0103 192 ∧ (s.lifecycle ≠ 1 ∨ s.get Fd.SECU_LC_OWNER_SET = 1)) ∧
    (∃ (hashes : List (BitVec 384)) (s : State), s.asks 0x0103 192 ∧ s.lifecycle = 1 ∧ s.get Fd.SECU_LC_OWNER_SET = 0 ∧
        hashes.length = 4) ∧
    (∃ (v : Wide) (s : State), s.secu.cfgDue = some v) ∧
    (∃ (s : State), s.secu.cfgDue = none) ∧
    (∃ (code : BitVec 8) (s : State), s.admits (.jtagInstruction code) = true ∧ s.chip.railIo = true) ∧
    (∃ (s : State), s.chip.railIo = false) :=
  ⟨⟨(((State.reset.stageDone 4).set Fd.CHIP_OSC_STAT_ROSC_OK 1).secu' fun y_ => { y_ with lcFuse := 5 }), by decide +kernel⟩,
   ⟨(((((((((((((((((((State.reset).stageDone 4)).set Fd.CHIP_OSC_STAT_ROSC_OK (1))).mgmt' fun y =>
       { y with booted := false }))).mgmt' fun y => { y with recovery := false }))).chip' fun y =>
       { y with doze := false }))).chip' fun y => { y with bootFail := false }))).mgmt' fun y => { y with resume := false })),
       by decide +kernel⟩,
   ⟨(((State.reset).secu' fun y => { y with regen := true })), by decide +kernel⟩,
   ⟨{ q := treeLeaves },
       ((((((((((up).secu' fun y_ => { y_ with regen := true })).secu' fun y_ => { y_ with aliasDue := true })).secu' fun y_
       => { y_ with keys := true })).secu' fun y_ => { y_ with hssA := { q := treeLeaves } })).secu' fun y_ =>
       { y_ with cdi := 5 }), by decide +kernel⟩,
   ⟨(((State.reset).secu' fun y => { y with regen := false })), by decide +kernel⟩,
   ⟨((asking 0x0101 0 (State.reset))), by unfold State.asks; decide +kernel⟩,
   ⟨1, (((((((asking 0x0102 (1 : Nat) (State.reset)))).set Fd.SECU_LC_STATE 0)).secu' fun y_ => { y_ with udsGone := false })),
       by unfold State.asks; decide +kernel⟩,
   ⟨1, ((((((asking 0x0102 1 (State.reset)))).set Fd.SECU_LC_STATE 1)).set Fd.SECU_LC_OWNER_SET (1)),
       by unfold State.asks; decide +kernel⟩,
   ⟨1, true, ((((asking 0x0102 1 (State.reset)))).set Fd.SECU_LC_STATE 3), by unfold State.asks; decide +kernel⟩,
   ⟨1, false, ((((asking 0x0102 1 (State.reset)))).set Fd.SECU_LC_STATE 3), by unfold State.asks; decide +kernel⟩,
   ⟨5, ((asking 0x0102 3833 (State.reset))), by unfold State.asks; decide +kernel⟩,
   ⟨255, 1, ((asking 0x0102 (1 : Nat) (State.reset))), by unfold State.asks; decide +kernel⟩,
   ⟨(((((((((up).chip' fun y_ => { y_ with railIo := true }))).mgmt' fun y_ => { y_ with booted := true }))).mgmt' fun y_ =>
       { y_ with recovery := false })), by decide +kernel⟩,
   ⟨(((up).chip' fun y_ => { y_ with railIo := false })), by decide +kernel⟩,
   ⟨((asking 0x0103 192 (State.reset))), by unfold State.asks; decide +kernel⟩,
   ⟨[1, 2, 3, 4], ((((((asking 0x0103 192 (State.reset)))).set Fd.SECU_LC_STATE 1)).set Fd.SECU_LC_OWNER_SET (0)),
       by unfold State.asks; decide +kernel⟩,
   ⟨0, (((State.reset).secu' fun y => { y with cfgDue := some (0 : Wide) })), by decide +kernel⟩,
   ⟨(((State.reset).secu' fun y => { y with cfgDue := none })), by decide +kernel⟩,
   ⟨0, (((up).chip' fun y_ => { y_ with railIo := true })), by decide +kernel⟩,
   ⟨(((State.reset).secu' fun y => { y with regen := false })), by decide +kernel⟩⟩

/-- Inputs that meet the hypotheses of DebugAndAttestationComplete, clause by clause. -/
theorem witness_DebugAndAttestationComplete :
    (∃ (s : State), s.asks 0x0104 0 ∧ (∀ x, s.secu.busyTill = some x → before s.tick x = false)) ∧
    (∃ (x : Wide) (s : State), s.asks 0x0104 0 ∧ s.secu.busyTill = some x ∧ before s.tick x = true) ∧
    (∃ (s : State), s.chip.railIo = true ∧ s.fwRuns = true ∧ s.mgmt.recovery = false ∧ s.restarting 17 = false ∧
        s.lifecycle ≠ 5) ∧
    (∃ (s : State),
        (s.chip.railIo = false ∨ s.fwRuns = false ∨ s.mgmt.recovery = true ∨ s.restarting 17 = true ∨ s.lifecycle = 5)) ∧
    (∃ (s : State), s.asks 0x0105 3832) ∧
    (∃ (s : State), s.asks 0x0106 0) ∧
    (∃ (x : Wide) (s : State), s.secu.sessionEnd = some x ∧ s.clockOk x = true) ∧
    (∃ (s : State), (∀ x, s.secu.sessionEnd = some x → s.clockOk x = false)) ∧
    (∃ (n : Byte) (s : State), s.asks 0x0107 1 ∧ 4 ≤ n.toNat) ∧
    (∃ (n : Byte) (s : State), s.asks 0x0107 1 ∧ n.toNat < 4) ∧
    (∃ (s : State), s.asks 0x0108 32 ∧ s.secu.keys = false) ∧
    (∃ (s : State), s.asks 0x0108 32 ∧ s.secu.keys = true ∧ s.hssLost = true) ∧
    (∃ (s : State), s.asks 0x0108 32 ∧ s.secu.keys = true ∧ s.hssLost = false ∧ (s.hssReady = false ∨ (s.sigTooSoon = true ∧
        s.clockOk s.sigFrom = false))) ∧
    (∃ (c : HssCopy) (s : State), s.asks 0x0108 32 ∧ s.secu.keys = true ∧ s.hssLost = false ∧ s.hss = some c ∧
        c.q < treeLeaves ∧ (s.sigTooSoon = false ∨ s.clockOk s.sigFrom = true)) ∧
    (∃ (off : BitVec 16) (len : BitVec 16) (s : State), s.asks 0x0501 4 ∧ off.toNat + len.toNat ≤ 512) ∧
    (∃ (off : BitVec 16) (len : BitVec 16) (s : State), s.asks 0x0501 4 ∧ 512 < off.toNat + len.toNat) ∧
    (∃ (off : BitVec 16) (len : BitVec 16) (data : List Byte) (s : State), s.asks 0x0502 (4 + len.toNat) ∧
        data.length = len.toNat ∧ 512 < off.toNat + len.toNat) ∧
    (∃ (off : BitVec 16) (len : BitVec 16) (data : List Byte) (stored : Bool) (s : State), s.asks 0x0502 (4 + len.toNat) ∧
        data.length = len.toNat ∧ off.toNat + len.toNat ≤ 512 ∧ stored = false) ∧
    (∃ (off : BitVec 16) (len : BitVec 16) (data : List Byte) (stored : Bool) (s : State), s.asks 0x0502 (4 + len.toNat) ∧
        data.length = len.toNat ∧ off.toNat + len.toNat ≤ 512 ∧ stored = true) :=
  ⟨⟨((asking 0x0104 0 (State.reset))), by unfold State.asks; decide +kernel,
      (fun x h => nomatch h.symm.trans (show _ = none by decide +kernel))⟩,
   ⟨900, (((((asking 0x0104 0 (State.reset)))).secu' fun y => { y with busyTill := some (900 : Wide) })),
       by unfold State.asks; decide +kernel⟩,
   ⟨(((((((((up).chip' fun y_ => { y_ with railIo := true }))).mgmt' fun y_ => { y_ with booted := true }))).mgmt' fun y_ =>
       { y_ with recovery := false })), by decide +kernel⟩,
   ⟨(((up).chip' fun y_ => { y_ with railIo := false })), by decide +kernel⟩,
   ⟨((asking 0x0105 3832 (State.reset))), by unfold State.asks; decide +kernel⟩,
   ⟨((asking 0x0106 0 (State.reset))), by unfold State.asks; decide +kernel⟩,
   ⟨900, (((State.reset).secu' fun y => { y with sessionEnd := some (900 : Wide) })), by decide +kernel⟩,
   ⟨State.reset, (fun x h => nomatch h.symm.trans (show _ = none by decide +kernel))⟩,
   ⟨5, ((asking 0x0107 1 (State.reset))), by unfold State.asks; decide +kernel⟩,
   ⟨3, ((asking 0x0107 1 (State.reset))), by unfold State.asks; decide +kernel⟩,
   ⟨(((((asking 0x0108 32 (State.reset)))).secu' fun y => { y with keys := false })), by unfold State.asks; decide +kernel⟩,
   ⟨(((((((asking 0x0108 32 (State.reset)))).secu' fun y => { y with keys := true }))).set Fd.SECU_LMS_Q_LMS_STATE 1),
       by unfold State.asks; decide +kernel⟩,
   ⟨((((asking 0x0108 32 State.reset).secu' fun y_ => { y_ with keys := true })).secu' fun y_ =>
       { y_ with hssA := { valid := true, q := treeLeaves } }), by unfold State.asks; decide +kernel⟩,
   ⟨{ seq := 1 }, (((((asking 0x0108 32 (State.reset)))).secu' fun y => { y with keys := true })),
       by unfold State.asks; decide +kernel⟩,
   ⟨500, 12, ((asking 0x0501 4 (State.reset))), by unfold State.asks; decide +kernel⟩,
   ⟨500, 13, asking 0x0501 4 State.reset, by unfold State.asks; decide +kernel⟩,
   ⟨512, 1, [7], asking 0x0502 5 State.reset, by unfold State.asks; decide +kernel⟩,
   ⟨500, 2, [1, 2], false, ((asking 0x0502 (4 + (2 : BitVec 16).toNat) (State.reset))), by unfold State.asks; decide +kernel⟩,
   ⟨500, 2, [1, 2], true, ((asking 0x0502 (4 + (2 : BitVec 16).toNat) (State.reset))), by unfold State.asks; decide +kernel⟩⟩

/-- Inputs that meet the hypotheses of SpdmCompletes, clause by clause. -/
theorem witness_SpdmCompletes :
    (∃ (s : State), s.spdmServes = false) ∧
    (∃ (i : Instr) (r : Spdm) (s : State), s.spdmServes = true ∧ (i, r) ∈ [(Instr.getVersion, Spdm.version 1 3),
        (.getCapabilities, .capabilities [.cert, .chal, .measSig, .measFresh]), (.negotiateAlgorithms,
        .algorithms .ecdsaP384 .sha384 .sha384 .dmtf)]) ∧
    (∃ (s : State), s.spdmServes = true) ∧
    (∃ (s : State), s.spdmServes = true ∧ s.secu.keys = true) ∧
    (∃ (n : Byte) (nonce : BitVec 256) (slot : Byte) (off : BitVec 16) (len : BitVec 16) (i : Instr) (s : State),
        s.spdmServes = true ∧ s.secu.keys = false ∧ (n.toNat ≤ 16 ∨ n = 255) ∧ i ∈ [.getDigests, .getCertificate slot off len,
        .challenge nonce, .getMeasurements n true nonce]) ∧
    (∃ (i : Instr) (n : Option Byte) (nonce : BitVec 256) (s : State), s.spdmServes = true ∧ s.secu.keys = true ∧
        (i = .challenge nonce ∧ n = none ∨ ∃ k, i = .getMeasurements k true nonce ∧ n = some k ∧ (k.toNat ≤ 16 ∨ k = 255)) ∧
        s.hssLost = false ∧ (s.sigTooSoon = true ∨ s.hssReady = false)) ∧
    (∃ (i : Instr) (n : Option Byte) (nonce : BitVec 256) (s : State), s.spdmServes = true ∧ s.secu.keys = true ∧
        (i = .challenge nonce ∧ n = none ∨ ∃ k, i = .getMeasurements k true nonce ∧ n = some k ∧ (k.toNat ≤ 16 ∨ k = 255)) ∧
        s.hssLost = true) ∧
    (∃ (i : Instr) (n : Option Byte) (nonce : BitVec 256) (c : HssCopy) (s : State), s.spdmServes = true ∧ s.secu.keys = true ∧
        (i = .challenge nonce ∧ n = none ∨ ∃ k, i = .getMeasurements k true nonce ∧ n = some k ∧ (k.toNat ≤ 16 ∨ k = 255)) ∧
        s.hssLost = false ∧ s.sigTooSoon = false ∧ s.hss = some c ∧ c.q < treeLeaves) ∧
    (∃ (n : Byte) (s : State), s.spdmServes = true ∧ (n.toNat ≤ 16 ∨ n = 255)) ∧
    (∃ (n : Byte) (s : State), s.spdmServes = true ∧ 16 < n.toNat ∧ n ≠ 255) ∧
    (∃ (digest : BitVec 384) (s : State), s.spdmServes = true ∧ (∀ h ∈ s.secu.held,
        h.1 ≠ digest ∨ 5 * (ticksPerS : Int) < ahead h.2.2 s.tick)) :=
  ⟨⟨State.reset, by decide +kernel⟩,
   ⟨.getVersion, .version 1 3,
       ((((up.set Fd.CFG_DOE_BUSY 1).mgmt' fun y_ => { y_ with booted := true })).secu' fun y_ => { y_ with keys := true }),
       by decide +kernel⟩,
   ⟨((((up.set Fd.CFG_DOE_BUSY 1).mgmt' fun y_ => { y_ with booted := true })).secu' fun y_ => { y_ with keys := true }),
       by decide +kernel⟩,
   ⟨((((up.set Fd.CFG_DOE_BUSY 1).mgmt' fun y_ => { y_ with booted := true })).secu' fun y_ => { y_ with keys := true }),
       by decide +kernel⟩,
   ⟨0, 0, 0, 0, 0, .getDigests, ((up.set Fd.CFG_DOE_BUSY 1).secu' fun y_ => { y_ with keys := false }), by decide +kernel⟩,
   ⟨.challenge 0, none, 0,
       ((((((up.set Fd.CFG_DOE_BUSY 1).mgmt' fun y_ => { y_ with booted := true })).secu' fun y_ =>
       { y_ with keys := true })).secu' fun y_ => { y_ with sigAt := some 0 }), by decide +kernel⟩,
   ⟨.challenge 0, none, 0,
       (((((up.set Fd.CFG_DOE_BUSY 1).mgmt' fun y_ => { y_ with booted := true })).secu' fun y_ =>
       { y_ with keys := true })).set Fd.SECU_LMS_Q_LMS_STATE 1, by decide +kernel⟩,
   ⟨.challenge 0, none, 0, State.reset.secu.hssA,
       ((((up.set Fd.CFG_DOE_BUSY 1).mgmt' fun y_ => { y_ with booted := true })).secu' fun y_ => { y_ with keys := true }),
       by decide +kernel⟩,
   ⟨1, ((((up.set Fd.CFG_DOE_BUSY 1).mgmt' fun y_ => { y_ with booted := true })).secu' fun y_ => { y_ with keys := true }),
       by decide +kernel⟩,
   ⟨17, ((((up.set Fd.CFG_DOE_BUSY 1).mgmt' fun y_ => { y_ with booted := true })).secu' fun y_ => { y_ with keys := true }),
       by decide +kernel⟩,
   ⟨6, ((((((up.set Fd.CFG_DOE_BUSY 1).mgmt' fun y_ => { y_ with booted := true })).secu' fun y_ =>
       { y_ with keys := true })).secu' fun y_ => { y_ with held := [(5, [7], 0)] }), by decide +kernel⟩⟩

/-- Inputs that meet the hypotheses of StartUpCompletes, clause by clause. -/
theorem witness_StartUpCompletes :
    (∃ (s : State), s.startRosc.onROSC = true ∧ s.get Fd.CHIP_OSC_STAT_ROSC_OK = 0) ∧
    (∃ (xo : Bool) (s : State),
        (if xo then s else s.startRosc).onROSC = false ∨ (if xo then s.get Fd.CHIP_OSC_STAT_ROSC_OK = 0 ∨ s.get
        Fd.CHIP_OSC_STAT_XO_OK = 1 else s.get Fd.CHIP_OSC_STAT_ROSC_OK = 1)) ∧
    (∃ (s : State), s.get Fd.CHIP_OSC_STAT_MON_ARMED = 0) ∧
    (∃ (s : State), s.onROSC = true ∧ s.get Fd.CHIP_OSC_STAT_ROSC_OK = 1 ∧ s.get Fd.CHIP_OSC_STAT_XO_OK = 0) ∧
    (∃ (s : State), s.get Fd.CHIP_OSC_STAT_MON_ARMED = 1) ∧
    (∃ (s : State), s.chip.started = false ∧ s.chip.bootFail = false ∧ s.stageIs 4 = true ∧
        (s.tbas.running = false ∨ (s.chip.oscTrip = true ∧ s.earlyTrip = true))) ∧
    (∃ (s : State), (s.chip.started = true ∨ s.chip.bootFail = true ∨ s.stageIs 4 = false)) ∧
    (∃ (s : State), s.tbas.running = true ∧ (s.chip.oscTrip = false ∨ s.earlyTrip = false)) ∧
    (∃ (rail : Rail) (s : State), (s.stageIs 3 = false ∨ s.chip.doze = true ∨ (rail = .core ∧
        s.stageIs 4 = true) ∨ (rail ≠ .core ∧ s.stageIs 4 = false))) ∧
    (∃ (s : State), s.stageIs 1 = true) ∧
    (∃ (s : State), (s.stageIs 2 = false ∨ s.stageIs 3 = true)) ∧
    (∃ (s : State),
        (s.stageIs 5 = false ∨ s.stageIs 6 = true ∨ s.tbas.lost = true ∨ s.chip.bootFail = true ∨ s.chip.doze = true)) ∧
    (∃ (s : State), s.stageIs 1 = false) ∧
    (∃ (s : State), s.stageIs 2 = true ∧ s.stageIs 3 = false) ∧
    (∃ (s : State), s.stageIs 3 = true ∧ s.chip.doze = false ∧ s.stageIs 4 = false) ∧
    (∃ (rail : Rail) (s : State), s.stageIs 3 = true ∧ s.chip.doze = false ∧ s.stageIs 4 = true ∧ rail ≠ .core) ∧
    (∃ (s : State), s.stageIs 5 = true ∧ s.stageIs 6 = false ∧ s.tbas.lost = false ∧ s.chip.bootFail = false ∧
        s.chip.doze = false) :=
  ⟨⟨((((State.reset).stageDone 4)).set Fd.CHIP_OSC_STAT_ROSC_OK (0)), by decide +kernel⟩,
   ⟨true, State.reset, by decide +kernel⟩,
   ⟨((State.reset).set Fd.CHIP_OSC_STAT_MON_ARMED (0)), by decide +kernel⟩,
   ⟨((((((State.reset).stageDone 4)).set Fd.CHIP_OSC_STAT_ROSC_OK (1))).set Fd.CHIP_OSC_STAT_XO_OK (0)), by decide +kernel⟩,
   ⟨((State.reset).set Fd.CHIP_OSC_STAT_MON_ARMED (1)), by decide +kernel⟩,
   ⟨(((((((((((State.reset).chip' fun y => { y with started := false }))).chip' fun y =>
       { y with bootFail := false }))).stageDone 4)).tbas' fun y => { y with running := false })), by decide +kernel⟩,
   ⟨(((State.reset).chip' fun y => { y with started := true })), by decide +kernel⟩,
   ⟨((((((State.reset).tbas' fun y_ => { y_ with running := true }))).chip' fun y_ => { y_ with oscTrip := false })),
       by decide +kernel⟩,
   ⟨.lane, State.reset, by decide +kernel⟩,
   ⟨((State.reset).stageDone 1), by decide +kernel⟩,
   ⟨State.reset, by decide +kernel⟩,
   ⟨State.reset, by decide +kernel⟩,
   ⟨State.reset, by decide +kernel⟩,
   ⟨((State.reset).stageDone 2), by decide +kernel⟩,
   ⟨(((((State.reset).stageDone 3)).chip' fun y => { y with doze := false })), by decide +kernel⟩,
   ⟨.lane, (((((((State.reset).stageDone 3)).chip' fun y_ => { y_ with doze := false }))).stageDone 4), by decide +kernel⟩,
   ⟨(((((((((((State.reset).stageDone 5)).tbas' fun y => { y with lost := false }))).chip' fun y =>
       { y with bootFail := false }))).chip' fun y => { y with doze := false })), by decide +kernel⟩⟩

/-- Inputs that meet the hypotheses of PointsAndGatesComplete, clause by clause. -/
theorem witness_PointsAndGatesComplete :
    (∃ (off : BitVec 32) (s : State), s.gated off.toNat = true) ∧
    (∃ (off : BitVec 32) (s : State), s.gated off.toNat = false) ∧
    (∃ (s : State), s.admits .clkoutChange = true) ∧
    (∃ (who : Actor) (v : Word) (s : State), s.admits (.dvfsTarget who v) = true) ∧
    (∃ (n : Nat) (s : State), s.chip.dvfs = n ∧ (n = 1 ∨ n = 5 ∨ n = 7)) ∧
    (∃ (s : State), (s.chip.dvfs = 1 ∨ s.chip.dvfs = 5 ∨ s.chip.dvfs = 7)) ∧
    (∃ (s : State), s.chip.dvfs ≠ 1 ∧ s.chip.dvfs ≠ 5 ∧ s.chip.dvfs ≠ 7) ∧
    (∃ (s : State), s.chip.dvfs ≠ 2 ∧ s.chip.dvfs ≠ 6) ∧
    (∃ (s : State), s.chip.dvfs ≠ 3 ∧ s.chip.dvfs ≠ 4) ∧
    (∃ (s : State), (s.chip.dvfs = 2 ∨ s.chip.dvfs = 6)) ∧
    (∃ (x : Wide) (s : State), (s.chip.dvfs = 3 ∨ s.chip.dvfs = 4) ∧ s.chip.dvfsTo < 4 ∧
        s.boundary (s.get Fd.CHIP_DVFS_CTL_ENG) s.chip.dvfsAt s.chip.dvfsAny = some x ∧ s.clockOk x = true) ∧
    (∃ (s : State), (s.chip.dvfs = 2 ∨ s.chip.dvfs = 6) ∧ s.clockOk (s.chip.dvfsAt + BitVec.ofNat 64 (2 * ticksPerMs)) = true) ∧
    (∃ (s : State), s.fwaits = []) ∧
    (∃ (s : State), s.chip.hush = 1 ∧ s.chip.hushAny = false ∧ (∀ w ∈ s.fwaits, before w.1 (s.chip.hushAt + s.fwait) = false) ∧
        s.clockOk (s.chip.hushAt + s.fwait) = true) ∧
    (∃ (s : State), (s.chip.dvfs = 3 ∨ s.chip.dvfs = 4) ∧ s.chip.dvfsAny = false ∧
        s.boundary (s.get Fd.CHIP_DVFS_CTL_ENG) s.chip.dvfsAt false = none ∧ (∀ w ∈ s.fwaits,
        before w.1 (s.chip.dvfsAt + s.fwait) = false) ∧
        (s.chip.hush = 1 → s.chip.hushAny = false → before (s.chip.dvfsAt + s.fwait) (s.chip.hushAt + s.fwait) = true) ∧
        s.clockOk (s.chip.dvfsAt + s.fwait) = true) ∧
    (∃ (s : State), s.mgmt.hand = 1 ∧ s.mgmt.handAny = false ∧ s.boundary s.mgmt.handEng s.mgmt.handAt false = none ∧
        (∀ w ∈ s.fwaits, w.1 = (s.mgmt.handAt + s.fwait) ∨ before (s.mgmt.handAt + s.fwait) w.1 = true) ∧
        (s.fwaits.length = 1 ∨ (∀ w ∈ s.fwaits.dropLast, before (s.mgmt.handAt + s.fwait) w.1 = true)) ∧
        s.clockOk (s.mgmt.handAt + s.fwait) = true) :=
  ⟨⟨0x00800000, (((State.reset).chip' fun y => { y with hush := 4 })), by decide +kernel⟩,
   ⟨0x00800000, State.reset, by decide +kernel⟩,
   ⟨(((up).chip' fun y => { y with hush := 4 })), by decide +kernel⟩,
   ⟨.firmware, 2, up, by decide +kernel⟩,
   ⟨1, (((State.reset).chip' fun y => { y with dvfs := (1 : Nat) })), by decide +kernel⟩,
   ⟨(((State.reset).chip' fun y => { y with dvfs := 1 })), by decide +kernel⟩,
   ⟨State.reset, by decide +kernel⟩,
   ⟨State.reset, by decide +kernel⟩,
   ⟨State.reset, by decide +kernel⟩,
   ⟨(((State.reset).chip' fun y => { y with dvfs := 2 })), by decide +kernel⟩,
   ⟨0, (((State.reset).chip' fun y => { y with dvfs := 3 })), by decide +kernel⟩,
   ⟨(((State.reset).chip' fun y => { y with dvfs := 2 })), by decide +kernel⟩,
   ⟨State.reset, by decide +kernel⟩,
   ⟨((live State.reset).chip' fun y => { y with hush := 1 }), by decide +kernel⟩,
   ⟨((((live State.reset).chip' fun y => { y with dvfs := 3 })).scan' fun y =>
       { y with lines := [{ aLine with start := 5000, started := false }] }), by decide +kernel⟩,
   ⟨((((live State.reset).mgmt' fun y => { y with hand := 1 })).scan' fun y =>
       { y with lines := [{ aLine with start := 5000, started := false }] }), by decide +kernel⟩⟩

/-- Inputs that meet the hypotheses of PowerStatesComplete, clause by clause. -/
theorem witness_PowerStatesComplete :
    (∃ (who : Actor) (s : State), s.admits (.pwrGo who) = true ∧ (s.get Fd.CHIP_PWR_CTL_TARGET) < 3) ∧
    (∃ (who : Actor) (s : State), s.admits (.pwrGo who) = true ∧ s.get Fd.CHIP_PWR_CTL_TARGET = 3) ∧
    (∃ (s : State), (s.chip.hush ≠ 1 ∨ (∃ e : Fin 8, s.isHalted e = false) ∨ s.drained = false)) ∧
    (∃ (s : State), (s.chip.hush ≠ 3 ∨ ((∃ n < 32, s.tileQuiet n = false) ∧
        s.clockOk (s.chip.sleepAt + BitVec.ofNat 64 ticksPerMs) = false))) ∧
    (∃ (s : State), (s.chip.hush ≠ 5 ∨ (∃ n < 32, s.get (Fd.LNK_TILE_CTL_EN n) = 1 ∧ s.portState n ≠ ptRUN ∧
        s.portState n ≠ ptFAILED))) ∧
    (∃ (s : State), (s.chip.hush ≠ 4 ∨ s.chip.pwrTarget ≠ 2 ∨ s.get Fd.CHIP_PWR_STAT_BUSY = 0 ∨ s.drained = false)) ∧
    (∃ (s : State), (s.chip.doze = false ∨ s.get Fd.CHIP_PWR_CTL_WAKE_PIN_EN = 0)) ∧
    (∃ (s : State), s.chip.hush = 1 ∧ (∀ e : Fin 8, s.isHalted e = true) ∧ s.drained = true) ∧
    (∃ (s : State), s.chip.hush = 3 ∧ ((∀ n < 32,
        s.tileQuiet n = true) ∨ s.clockOk (s.chip.sleepAt + BitVec.ofNat 64 ticksPerMs) = true)) ∧
    (∃ (s : State), s.chip.hush = 5 ∧ (∀ n < 32,
        s.get (Fd.LNK_TILE_CTL_EN n) = 1 → s.portState n = ptRUN ∨ s.portState n = ptFAILED)) ∧
    (∃ (s : State), s.chip.hush = 4 ∧ s.chip.pwrTarget = 2 ∧ s.get Fd.CHIP_PWR_STAT_BUSY = 1 ∧ s.drained = true) ∧
    (∃ (s : State), s.chip.doze = true ∧ s.get Fd.CHIP_PWR_CTL_WAKE_PIN_EN = 1) :=
  ⟨⟨.firmware, up, by decide +kernel⟩,
   ⟨.firmware, ((up).set Fd.CHIP_PWR_CTL_TARGET (3)), by decide +kernel⟩,
   ⟨State.reset, by decide +kernel⟩,
   ⟨State.reset, by decide +kernel⟩,
   ⟨State.reset, by decide +kernel⟩,
   ⟨State.reset, by decide +kernel⟩,
   ⟨(((State.reset).chip' fun y => { y with doze := false })), by decide +kernel⟩,
   ⟨(((State.reset).chip' fun y => { y with hush := 1 })), by decide +kernel⟩,
   ⟨(((State.reset).chip' fun y => { y with hush := 3 })), by decide +kernel⟩,
   ⟨(((State.reset).chip' fun y => { y with hush := 5 })), by decide +kernel⟩,
   ⟨((((((((State.reset).chip' fun y => { y with hush := 4 }))).chip' fun y => { y with pwrTarget := 2 }))).set
       Fd.CHIP_PWR_STAT_BUSY (1)), by decide +kernel⟩,
   ⟨(((((State.reset).chip' fun y => { y with doze := true }))).set Fd.CHIP_PWR_CTL_WAKE_PIN_EN (1)), by decide +kernel⟩⟩

/-- Inputs that meet the hypotheses of LogAndTillsComplete, clause by clause. -/
theorem witness_LogAndTillsComplete :
    (∃ (r : ErrRec) (s : State), s.admits (.errorRecord r) = true ∧ s.io.fifo.length < 256) ∧
    (∃ (r : ErrRec) (s : State), s.admits (.errorRecord r) = true ∧ s.io.fifo.length = 256) ∧
    (∃ (e : ErrRec) (rest : List ErrRec) (s : State), s.io.fifo = e :: rest ∧ s.restarting 16 = false ∧
        (s.get Fd.MGMT_LOG_CTL_MERGE = 0 ∨ errMergeable e = false ∨ absorb s.tick e s.mgmt.merging = none) ∧
        s.clockOk s.nextStore = true ∧ s.mgmt.log.length < 4096) ∧
    (∃ (e : ErrRec) (rest : List ErrRec) (l : List MergeSlot) (s : State), s.io.fifo = e :: rest ∧ s.restarting 16 = false ∧
        s.get Fd.MGMT_LOG_CTL_MERGE = 1 ∧ errMergeable e = true ∧ absorb s.tick e s.mgmt.merging = some l) ∧
    (∃ (m : MergeSlot) (rest : List MergeSlot) (s : State), s.restarting 16 = false ∧ s.mgmt.merging = m :: rest ∧
        s.clockOk (if before (m.at_ + BitVec.ofNat 64 ticksPerS) s.nextStore then s.nextStore else (m.at_ + BitVec.ofNat 64
        ticksPerS)) = true ∧ s.mgmt.log.length < 4096) ∧
    (∃ (s : State), (s.restarting 16 = true ∨ s.io.fifo = [])) ∧
    (∃ (s : State), (s.restarting 16 = true ∨ s.mgmt.merging = [])) ∧
    (∃ (who : Actor) (r : Fin 19) (n : Fin 64) (v : Word) (k : BitVec 16) (s : State),
        s.admits (.tillCfgWrite who r n v k) = true ∧ s.withheld who ((Fd.TILL_CFG_SRC r n).off) true v = false ∧
        tillReserved r v = false) ∧
    (∃ (who : Actor) (r : Fin 19) (n : Fin 64) (v : Word) (k : BitVec 16) (s : State),
        s.admits (.tillCfgWrite who r n v k) = true ∧
        (s.withheld who ((Fd.TILL_CFG_SRC r n).off) true v = true ∨ tillReserved r v = true)) ∧
    (∃ (r : Fin 19) (n : Fin 64) (s : State), ((s.wideOf r (0x0F00 + n)).toNat ≠ tillMax ∨ s.get (Fd.TILL_CFG_SRC r n) = 0)) ∧
    (∃ (r : Fin 19) (n : Fin 64) (s : State), (s.wideOf r (0x0F00 + n)).toNat = tillMax ∧ s.get (Fd.TILL_CFG_SRC r n) ≠ 0) :=
  ⟨⟨anErr, up, by decide +kernel⟩,
   ⟨anErr, ((up).io' fun y => { y with fifo := List.replicate 256 anErr }), by decide +kernel⟩,
   ⟨{ anErr with level := 0 }, [],
       (((((State.reset).io' fun y => { y with fifo := ({ anErr with level := 0 } : ErrRec) :: ([] : List ErrRec) }))).set
       Fd.MGMT_LOG_CTL_MERGE (0)), by decide +kernel⟩,
   ⟨{ anErr with level := 0 }, [],
       [{ first := { anErr with level := 0 }, at_ := 0, last := { anErr with level := 0 }, n := 1 }],
       ((((up.set Fd.MGMT_LOG_CTL_MERGE 1).io' fun y_ => { y_ with fifo := [{ anErr with level := 0 }] })).mgmt' fun y_ =>
       { y_ with merging := [{ first := { anErr with level := 0 }, at_ := 0, last := { anErr with level := 0 } }] }),
       by decide +kernel⟩,
   ⟨{ first := anErr, at_ := 0, last := anErr }, [],
       (((State.reset).mgmt' fun y =>
       { y with merging := ({ first := anErr, at_ := 0, last := anErr } : MergeSlot) :: ([] : List MergeSlot) })),
       by decide +kernel⟩,
   ⟨((State.reset).setRestarting 16 true), by decide +kernel⟩,
   ⟨((State.reset).setRestarting 16 true), by decide +kernel⟩,
   ⟨.firmware, 1, 0, 1, 0, up, by decide +kernel⟩,
   ⟨.host, 1, 0, 1, 0, up, by decide +kernel⟩,
   ⟨1, 0, State.reset, by decide +kernel⟩,
   ⟨1, 0, ((State.reset.set (Fd.TILL_CFG_SRC 1 0) 1).setWide 1 0x0F00 (BitVec.ofNat 64 tillMax)), by decide +kernel⟩⟩

/-- Inputs that meet the hypotheses of RestartsComplete, clause by clause. -/
theorem witness_RestartsComplete :
    (∃ (r : Fin 19) (n : BitVec 16) (s : State), s.admits (.regionRestart r n) = true ∧ restartsAlone r = true ∧
        s.restarting r = false) ∧
    (∃ (r : Fin 19) (s : State), restartsAlone r = true ∧ s.restarting r = true) ∧
    (∃ (r : Fin 19) (n : BitVec 16) (s : State), s.admits (.regionRestart r n) = true ∧ restartsAlone r = false) ∧
    (∃ (who : Actor) (s : State), s.admits (.restartCmd who) = true ∧
        s.withheld who Fd.CHIP_RESTART_CMD_GO.off true (s.reg Fd.CHIP_RESTART_CMD_GO.off) = false ∧
        restartsAlone (s.get Fd.CHIP_RESTART_CMD_REGION) = true ∧
        (s.restarting (s.get Fd.CHIP_RESTART_CMD_REGION) = false ∨ s.chip.stuck.contains (s.get Fd.CHIP_RESTART_CMD_REGION) =
        true)) ∧
    (∃ (who : Actor) (s : State), s.admits (.restartCmd who) = true ∧
        s.withheld who Fd.CHIP_RESTART_CMD_GO.off true (s.reg Fd.CHIP_RESTART_CMD_GO.off) = false ∧
        (restartsAlone (s.get Fd.CHIP_RESTART_CMD_REGION) = false ∨ (s.restarting (s.get Fd.CHIP_RESTART_CMD_REGION) = true ∧
        s.chip.stuck.contains (s.get Fd.CHIP_RESTART_CMD_REGION) = false))) ∧
    (∃ (r : Fin 19) (s : State), s.restarting r = true ∧ look s.chip.bist r = none) ∧
    (∃ (r : Fin 19) (s : State), (s.restarting r = false ∨ (look s.chip.bist r).isSome = true)) ∧
    (∃ (r : Fin 19) (s : State), (s.restarting r = false ∨ look s.chip.bist r = none ∨ s.chip.stuck.contains r.val = true)) ∧
    (∃ (r : Fin 19) (s : State), (s.restarting r = false ∨ s.chip.stuck.contains r.val = true)) ∧
    (∃ (r : Fin 19) (x : Wide) (s : State), s.restarting r = true ∧ look s.chip.bist r = some x ∧
        s.chip.stuck.contains r.val = false ∧ s.clockOk (s.resumeAt x) = true) ∧
    (∃ (r : Fin 19) (s : State), s.restarting r = true ∧ s.chip.stuck.contains r.val = false) ∧
    (∃ (r : Fin 19) (n : BitVec 16) (s : State), s.admits (.chipFault r n) = true) ∧
    (∃ (s : State), s.admits .chipFaultClear = true) :=
  ⟨⟨2, 0, up, by decide +kernel⟩,
   ⟨2, ((State.reset).setRestarting (2 : Fin 19) true), by decide +kernel⟩,
   ⟨0, 0, ((up).setRestarting (0 : Fin 19) true), by decide +kernel⟩,
   ⟨.firmware, up.set Fd.CHIP_RESTART_CMD_REGION 3, by decide +kernel⟩,
   ⟨.firmware, up.set Fd.CHIP_RESTART_CMD_REGION 1, by decide +kernel⟩,
   ⟨2, ((State.reset).setRestarting (2 : Fin 19) true), by decide +kernel⟩,
   ⟨2, State.reset, by decide +kernel⟩,
   ⟨2, State.reset, by decide +kernel⟩,
   ⟨2, State.reset, by decide +kernel⟩,
   ⟨2, 0, (((((State.reset).setRestarting (2 : Fin 19) true)).chip' fun y => { y with bist := [((2 : Fin 19), (0 : Wide))] })),
       by decide +kernel⟩,
   ⟨2, ((State.reset).setRestarting (2 : Fin 19) true), by decide +kernel⟩,
   ⟨2, 0, up, by decide +kernel⟩,
   ⟨up, by decide +kernel⟩⟩

/-- Inputs that meet the hypotheses of UpdatesComplete, clause by clause. -/
theorem witness_UpdatesComplete :
    (∃ (n : Nat) (s : State), s.asks 0x0201 n ∧ s.get Fd.MGMT_FW_STAT_TRIAL = 0 ∧ s.mgmt.hand = 0) ∧
    (∃ (n : Nat) (s : State), s.asks 0x0201 n ∧ (s.get Fd.MGMT_FW_STAT_TRIAL = 1 ∨ s.mgmt.hand ≠ 0)) ∧
    (∃ (s : State), s.asks 0x0202 0 ∧ (s.slotOf s.otherSlot).img = none) ∧
    (∃ (i : Image) (s : State), s.asks 0x0202 0 ∧ (s.slotOf s.otherSlot).img = some i) ∧
    (∃ (s : State), s.asks 0x0203 1) ∧
    (∃ (s : State), s.asks 0x0204 0) ∧
    (∃ (s : State), s.asks 0x0205 0 ∧ s.get Fd.MGMT_FW_STAT_TRIAL = 0) ∧
    (∃ (s : State), s.asks 0x0205 0 ∧ s.get Fd.MGMT_FW_STAT_TRIAL = 1) ∧
    (∃ (s : State), s.asks 0x0205 0 ∧ s.get Fd.MGMT_FW_STAT_TRIAL = 1 ∧ s.mgmt.hand = 0) ∧
    (∃ (x : Wide) (s : State), s.mgmt.hand = 1 ∧ s.boundary s.mgmt.handEng s.mgmt.handAt s.mgmt.handAny = some x ∧
        s.clockOk x = true) ∧
    (∃ (s : State), s.mgmt.hand ≠ 1) ∧
    (∃ (s : State), s.mgmt.hand ≠ 2) ∧
    (∃ (s : State),
        (s.get Fd.MGMT_FW_STAT_TRIAL = 0 ∨ s.fwRuns = false ∨ s.mgmt.hand ≠ 0 ∨ s.get (Fd.SAFE_NOW_NOW.bit 2) = 1 ∨
        s.safe.serviced = false ∨ s.calSlot.valid = false)) ∧
    (∃ (s : State), (∀ x, s.mgmt.healthEnd = some x → s.clockOk x = false)) ∧
    (∃ (s : State), s.mgmt.hand = 2 ∧ s.mgmt.handTo ≤ 1) ∧
    (∃ (s : State), s.get Fd.MGMT_FW_STAT_TRIAL = 1 ∧ s.fwRuns = true ∧ s.mgmt.hand = 0 ∧ s.get (Fd.SAFE_NOW_NOW.bit 2) = 0 ∧
        s.safe.serviced = true ∧ s.calSlot.valid = true) ∧
    (∃ (x : Wide) (s : State), s.mgmt.healthEnd = some x ∧ s.clockOk x = true ∧ s.get Fd.MGMT_FW_STAT_TRIAL = 1 ∧
        s.mgmt.hand = 0) ∧
    (∃ (s : State), s.admits .lockstepErr = true ∧ s.io.fifo.length < 256) :=
  ⟨⟨64, (((((((asking 0x0201 (64 : Nat) (State.reset)))).set Fd.MGMT_FW_STAT_TRIAL (0))).mgmt' fun y => { y with hand := 0 })),
      by unfold State.asks; decide +kernel⟩,
   ⟨64, ((((asking 0x0201 (64 : Nat) (State.reset)))).set Fd.MGMT_FW_STAT_TRIAL (1)), by unfold State.asks; decide +kernel⟩,
   ⟨((asking 0x0202 0 (State.reset))), by unfold State.asks; decide +kernel⟩,
   ⟨anImage, ((asking 0x0202 0 State.reset).mgmt' fun y_ => { y_ with slotB := { img := some anImage } }),
       by unfold State.asks; decide +kernel⟩,
   ⟨((asking 0x0203 1 (State.reset))), by unfold State.asks; decide +kernel⟩,
   ⟨((asking 0x0204 0 (State.reset))), by unfold State.asks; decide +kernel⟩,
   ⟨((((asking 0x0205 0 (State.reset)))).set Fd.MGMT_FW_STAT_TRIAL (0)), by unfold State.asks; decide +kernel⟩,
   ⟨(((((((asking 0x0205 0 (State.reset)))).set Fd.MGMT_FW_STAT_TRIAL (1))).mgmt' fun y => { y with hand := 0 })),
       by unfold State.asks; decide +kernel⟩,
   ⟨(((((((asking 0x0205 0 (State.reset)))).set Fd.MGMT_FW_STAT_TRIAL (1))).mgmt' fun y => { y with hand := 0 })),
       by unfold State.asks; decide +kernel⟩,
   ⟨0, (((State.reset).mgmt' fun y => { y with hand := 1 })), by decide +kernel⟩,
   ⟨State.reset, by decide +kernel⟩,
   ⟨State.reset, by decide +kernel⟩,
   ⟨((up).set Fd.MGMT_FW_STAT_TRIAL (0)), by decide +kernel⟩,
   ⟨State.reset, (fun x h => nomatch h.symm.trans (show _ = none by decide +kernel))⟩,
   ⟨(((State.reset).mgmt' fun y => { y with hand := 2 })), by decide +kernel⟩,
   ⟨((((up.set Fd.MGMT_FW_STAT_TRIAL 1).mgmt' fun y => { y with booted := true })).mgmt' fun y =>
       { y with calA := { valid := true } }), by decide +kernel⟩,
   ⟨0, ((((((((State.reset).mgmt' fun y => { y with healthEnd := some (0 : Wide) }))).set Fd.MGMT_FW_STAT_TRIAL (1))).mgmt'
       fun y => { y with hand := 0 })), by decide +kernel⟩,
   ⟨up, by decide +kernel⟩⟩

/-- Inputs that meet the hypotheses of CalibrationCompletes, clause by clause. -/
theorem witness_CalibrationCompletes :
    (∃ (k : Fin 5) (temp : BitVec 12) (s : State), s.attests = true ∧ s.calFalls k temp.toNat = true ∧ s.tbas.running = true ∧
        s.commitWaiting = false ∧ s.commitFixed = false ∧ s.mgmt.calRetry = false ∧ s.sketchClean = true) ∧
    (∃ (k : Fin 5) (temp : BitVec 12) (s : State), s.attests = true ∧ s.calFalls k temp.toNat = true ∧ s.tbas.running = true ∧
        s.commitWaiting = false ∧ s.commitFixed = false ∧ s.mgmt.calRetry = false ∧ s.sketchClean = false) ∧
    (∃ (k : Fin 5) (temp : BitVec 12) (s : State), s.attests = true ∧ s.calFalls k temp.toNat = true ∧
        (s.tbas.running = false ∨ s.commitWaiting = true ∨ s.commitFixed = true ∨ s.mgmt.calRetry = true)) ∧
    (∃ (k : Fin 5) (temp : BitVec 12) (s : State), (s.attests = false ∨ s.calFalls k temp.toNat = false)) ∧
    (∃ (s : State), (s.mgmt.calWait = none ∨ s.mgmt.calTold = true ∨ s.sketchClean = true)) ∧
    (∃ (s : State), (s.attests = false ∨ (∃ x, s.mgmt.calStored = some x ∧ ahead x s.tick < 10 * ticksPerS))) ∧
    (∃ (x : Wide) (s : State), s.mgmt.calWait = some x ∧ s.mgmt.calTold = false ∧ s.sketchClean = false ∧
        s.timely (x + BitVec.ofNat 64 (10 * ticksPerS)) = true) ∧
    (∃ (s : State), s.attests = true ∧ (∀ x, s.mgmt.calStored = some x → 10 * ticksPerS ≤ ahead x s.tick)) ∧
    (∃ (s : State), s.asks 0x0301 0) ∧
    (∃ (mask : Byte) (s : State), s.asks 0x0302 1 ∧ 32 ≤ mask.toNat) ∧
    (∃ (dt : BitVec 16) (maxint : BitVec 16) (s : State), s.asks 0x0303 4 ∧
        (dt.toNat < 8 ∨ 320 < dt.toNat ∨ maxint.toNat < 10 ∨ 3600 < maxint.toNat)) ∧
    (∃ (s : State), s.asks 0x0304 0 ∧ s.calSlot.valid = false) ∧
    (∃ (n : Nat) (delays : List (BitVec 20)) (coeffs : List (BitVec 20)) (s : State), s.asks 0x0305 n ∧
        (delays.length ≠ 1024 ∨ coeffs.length ≠ 1024)) ∧
    (∃ (n : Nat) (delays : List (BitVec 20)) (coeffs : List (BitVec 20)) (s : State), s.asks 0x0305 n ∧ delays.length = 1024 ∧
        coeffs.length = 1024) ∧
    (∃ (mask : Byte) (s : State), s.asks 0x0302 1 ∧ mask.toNat < 32) ∧
    (∃ (dt : BitVec 16) (maxint : BitVec 16) (s : State), s.asks 0x0303 4 ∧ 8 ≤ dt.toNat ∧ dt.toNat ≤ 320 ∧ 10 ≤ maxint.toNat ∧
        maxint.toNat ≤ 3600) ∧
    (∃ (s : State), s.asks 0x0304 0 ∧ s.calSlot.valid = true) ∧
    (∃ (x : Wide) (s : State), s.mgmt.scrubWait = some x ∧ s.mgmt.scrubShare = false ∧ s.restarting 16 = false ∧
        s.clockOk (x + BitVec.ofNat 64 ticksPerS) = true) ∧
    (∃ (k : Fin 5) (x : Wide) (s : State), look s.mgmt.calPendAt k = some x ∧ s.get (calReq k) = 0 ∧ s.restarting 16 = false ∧
        s.clockOk (x + BitVec.ofNat 64 ticksPerS) = true) ∧
    (∃ (s : State), (s.mgmt.scrubWait = none ∨ s.mgmt.scrubShare = true ∨ s.restarting 16 = true)) ∧
    (∃ (k : Fin 5) (s : State), (look s.mgmt.calPendAt k = none ∨ s.get (calReq k) = 1 ∨ s.restarting 16 = true)) :=
  ⟨⟨0, 400, (((((((((State.reset).mgmt' fun y => { y with booted := true }))).tbas' fun y =>
      { y with running := true }))).mgmt' fun y => { y with calRetry := false })), by decide +kernel⟩,
   ⟨0, 400, ((((State.reset).mgmt' fun y => { y with booted := true })).tbas' fun y => { y with running := true }).set
       Fd.CHIP_SKETCH_GEN_GEN 5, by decide +kernel⟩,
   ⟨0, 400, ((((((State.reset).mgmt' fun y => { y with booted := true }))).tbas' fun y => { y with running := false })),
       by decide +kernel⟩,
   ⟨0, 400, State.reset, by decide +kernel⟩,
   ⟨(((State.reset).mgmt' fun y => { y with calWait := none })), by decide +kernel⟩,
   ⟨State.reset, by decide +kernel⟩,
   ⟨0, ((((State.reset.set Fd.CHIP_SKETCH_GEN_GEN 5).mgmt' fun y => { y with calWait := some 0 })).tbas' fun y =>
       { y with running := true }), by decide +kernel⟩,
   ⟨(((State.reset).mgmt' fun y => { y with booted := true })), by decide +kernel,
       (fun x h => nomatch h.symm.trans (show _ = none by decide +kernel))⟩,
   ⟨((asking 0x0301 0 (State.reset))), by unfold State.asks; decide +kernel⟩,
   ⟨255, ((asking 0x0302 1 (State.reset))), by unfold State.asks; decide +kernel⟩,
   ⟨8, 0, ((asking 0x0303 4 (State.reset))), by unfold State.asks; decide +kernel⟩,
   ⟨((asking 0x0304 0 (State.reset))), by unfold State.asks; decide +kernel⟩,
   ⟨4096, List.replicate 1024 0, [], ((asking 0x0305 (4096 : Nat) (State.reset))), by unfold State.asks; decide +kernel⟩,
   ⟨4096, List.replicate 1024 0, List.replicate 1024 0, ((asking 0x0305 (4096 : Nat) (State.reset))),
       by unfold State.asks; decide +kernel⟩,
   ⟨31, ((asking 0x0302 1 (State.reset))), by unfold State.asks; decide +kernel⟩,
   ⟨8, 3600, ((asking 0x0303 4 (State.reset))), by unfold State.asks; decide +kernel⟩,
   ⟨((asking 0x0304 0 State.reset).mgmt' fun y => { y with calA := { valid := true } }), by unfold State.asks; decide +kernel⟩,
   ⟨0, ((((((State.reset).mgmt' fun y => { y with scrubWait := some (0 : Wide) }))).mgmt' fun y =>
       { y with scrubShare := false })), by decide +kernel⟩,
   ⟨0, 0, (((((State.reset).mgmt' fun y => { y with calPendAt := [((0 : Fin 5), (0 : Wide))] }))).set (calReq (0 : Fin 5))
       (0)), by decide +kernel⟩,
   ⟨(((State.reset).mgmt' fun y => { y with scrubWait := none })), by decide +kernel⟩,
   ⟨0, State.reset, by decide +kernel⟩⟩

/-- Inputs that meet the hypotheses of StagedRegistersReadAndWrite, clause by clause. -/
theorem witness_StagedRegistersReadAndWrite :
    ∃ (who : Actor) (off : BitVec 32) (view : BitVec 32) (row : RegRow) (k : Nat) (v : Word) (s : State),
        s.attends who = true ∧ reaches who .bar0 = true ∧ off.toNat % 4 = 0 ∧ off.toNat % 0x200000 < 0x100000 ∧
        view = off + 0x100000 ∧ findRow off.toNat = some (row, k) ∧ row.onlyStaged = true ∧ stagedMask off.toNat ≠ 0 ∧
        s.gated off.toNat = false ∧ s.withheld who off.toNat false 0 = false ∧ s.withheld who off.toNat true v = false :=
  ⟨.host, 0x00490000, 0x00590000, ((findRow 0x00490000).map Prod.fst).getD ⟨0, [], []⟩, 0, 0x25, up, by decide +kernel⟩

/-! ## Witnesses of the statements about every command -/

/-- The queue of a state may hold a command, and may be empty while the time base runs. -/
theorem witness_StepTakesTheFrontCommand :
    (∃ c rest, ∃ s : State, s.pending = c :: rest) ∧
    (∃ s : State, s.pending = [] ∧ s.tbas.running = false ∧ s.powered = false ∧ s.chip.tck = false) ∧
    (∃ s : State, s.pending = [] ∧ s.tbas.running = true ∧ s.chip.coarse = false ∧ s.host.staged = [] ∧
      s.tick.toNat / 128 * 128 + 128 < 2 ^ 64) ∧
    (∃ s : State, s.pending = [] ∧ s.tbas.running = true ∧ s.chip.coarse = true ∧ s.host.staged = [] ∧
      s.tick.toNat / 128 * 128 + 3200 < 2 ^ 64) :=
  ⟨⟨.proofComplete, [], { State.reset with pending := [.proofComplete] }, rfl⟩,
    ⟨State.reset, rfl, rfl, by decide +kernel, rfl⟩,
    ⟨State.reset.tbas' fun b => { b with running := true }, rfl, rfl, by decide +kernel, rfl, by decide +kernel⟩,
    ⟨(State.reset.tbas' fun b => { b with running := true }).chip' fun c => { c with coarse := true }, rfl, rfl, rfl, rfl,
      by decide +kernel⟩⟩

/-- A well-formed command and an ill-formed one. -/
theorem witness_EveryCommandCompletes :
    (∃ c : Instr, c.wf = true) ∧ (∃ c : Instr, c.wf = false) :=
  ⟨⟨.cdrUpdate 127 1, by decide +kernel⟩, ⟨.cdrUpdate 127 2, by decide +kernel⟩⟩

/-- The state after reset is sound and takes a step. -/
theorem witness_EveryStepKeepsTheTables :
    (∃ s t : State, s.tablesOk = true ∧ s.queuesOk = true ∧ step s = .next t) ∧
    (∃ c, ∃ s t : State, s.tablesOk = true ∧ s.queuesOk = true ∧ exec c s = .next t) :=
  ⟨⟨State.reset, _, by decide +kernel, by decide +kernel, rfl⟩,
    ⟨.powerOn, State.reset, _, by decide +kernel, by decide +kernel, rfl⟩⟩

/-- The state after reset is sound and not armed, and takes a step; a command other than the two that fire has a next state. -/
theorem witness_NothingFiresUnlessArmed :
    (∃ s t : State, s.tablesOk = true ∧ s.queuesOk = true ∧ s.armed = false ∧ step s = .next t) ∧
    (∃ c, ∃ s t : State, s.tablesOk = true ∧ s.queuesOk = true ∧ c ≠ Instr.shotFire ∧ c ≠ Instr.diagPulse ∧ exec c s = .next t) :=
  ⟨⟨State.reset, _, by decide +kernel, by decide +kernel, by decide +kernel, rfl⟩,
    ⟨.powerOn, State.reset, _, by decide +kernel, by decide +kernel, nofun, nofun, rfl⟩⟩

/-! ## Ill-formed commands are refused, and the bounds of each check hold -/

theorem test_wf_vote : (Instr.cdrUpdate 0 2).wf = false ∧ (Instr.cdrUpdate 0 (-1)).wf = true := by decide +kernel

theorem test_wf_ambient :
    (Instr.ambient 0 (msgOf 2 0 []) 0 (List.replicate 31 0)).wf = false ∧
    (Instr.ambient 0 (msgOf 2 0 []) 0 (List.replicate 32 0)).wf = true := by decide +kernel

theorem test_wf_kernel : (Instr.kernelWrite .firmware 0x00490000 0).wf = false := by decide +kernel

theorem test_wf_link : (Instr.linkTrained 7 8 true).wf = false ∧ (Instr.linkTrained 6 8 true).wf = true := by decide +kernel

theorem test_wf_training :
    (Instr.memcTraining [1, 1, 1] true).wf = false ∧ (Instr.memcTraining [1, 1, 1, 1] true).wf = true := by decide +kernel

theorem test_wf_opcode :
    (Instr.undefinedOpcode 0 0x1000000000000000).wf = false ∧ (Instr.undefinedOpcode 0 0x7F00000000000000).wf = true := by
  decide +kernel

theorem test_ill_formed_faults : exec (.cdrUpdate 0 2) State.reset = .fault .illFormed := by rfl

/-! ## The manual's worked examples -/

/-- spec/05_ponos_instructions.md, Worked example: encoding an instruction. -/
theorem test_fields :
    opcOf 0x5220812000000103 = 0x52 ∧
    fieldsOf 0x5220812000000103 = { d := 4, a := 2, b := 0, psel := 4, pneg := true, x := 0x103 } := by decide +kernel

/-- spec/10_matched_filter.md, Worked example: from bins to a point record: the kernel of its first list. -/
def exKernel : Kernel :=
  let h := mirror 8 [4096, 8192, 12288, 16384]
  { h := h, osh := 12, edge := 552, ksum := kernelSum h, ksq := kernelSq h }

/-- KSUM and KSQ of the example. -/
theorem test_kernel_sums : exKernel.ksum = 81920 ∧ exKernel.ksq = 245760 := by decide +kernel

/-- The trimmed background of 3 counts a bin, in 1/256 count. -/
theorem test_background : background (List.replicate 256 3) 4 4 = 768 := by decide +kernel

/-- The outputs of the example around its echo; the inputs start 10 bins before it. -/
theorem test_filter_outputs :
    (((exKernel.filter [] (List.replicate 10 3 ++ [9, 27, 33, 15, 5] ++ List.replicate 6 3)).drop 11).take 9).map Prod.fst
      = [96, 156, 228, 296, 334, 318, 260, 188, 120] := by decide +kernel

/-- The range of the example. -/
theorem test_range : rangeOf 19689088 27000 = some 1440685 := by decide +kernel

/-- spec/09_histogram_engine.md, Worked example: one event, three hypotheses. -/
theorem test_bin_of_event :
    binOf 719929 6 = 703 ∧ binOf 1846321 6 = 1803 := by decide +kernel

/-- spec/09_histogram_engine.md, Worked example: shifting a history: the sum in bin 993. -/
theorem test_stack_sum : stackSum 8 [24] [5] = [26] := by decide +kernel

/-- spec/09_histogram_engine.md, Worked example: shifting a history: 7 bins down, the bins that come in are 0. -/
theorem test_shifted : shifted (-7) [1, 2, 3, 4, 5, 6, 7, 8, 9] = [8, 9, 0, 0, 0, 0, 0, 0, 0] := by decide +kernel

/-- spec/11_echoes_points.md, Worked example: the echo of channel 300: its line, its echo and its record. -/
theorem test_point_record :
    pointOf { aLine with desc := 40, shots := [{ fire := 13800, listen := false }] } 300 0 true 0 0
        { range := 1440685, intensity := 296, width := 42, snr := 105, amp := 70144, bf := 15360, s2num := 0, s2exp := 0, ccr := 209, unset := false }
      = { dw0 := 0x8015FBAD, dw1 := 0x012C0128, dw2 := 0x00A9A428, dw3 := 0x00060000 } := by decide +kernel

/-- The same example: round_half_up(16 × 274 / 21). -/
theorem test_ccr : roundHalfUp (16 * 274) 21 = 209 := by decide +kernel

/-- spec/03_time_base.md, Worked example: one module's emission: the latched results of four intervals. -/
def exBlock : State :=
  (State.reset.set Fd.TBAS_TIU_CTL_NSTAT 2).measure 3 2220 |>.measure 3 2222 |>.measure 3 2219 |>.measure 3 2223

theorem test_tiu_block :
    exBlock.get (Fd.TBAS_TIU_MEAN_MEAN 3) = 568576 ∧ exBlock.get (Fd.TBAS_TIU_SD_SD 3) = 405 ∧
    exBlock.get (Fd.TBAS_TIU_MIN_MIN 3) = 2219 ∧ exBlock.get (Fd.TBAS_TIU_MAX_MAX 3) = 2223 := by decide +kernel

/-- spec/13_memory_capture.md, Worked example: a monitor trigger shared by two heads, step 3; and a pair across the wrap of the count. -/
theorem test_crossing :
    crossing 1300 1000 1700 900000000000 900064000000 = (110, 900027500000) ∧
    crossing 1300 1000 1600 (2 ^ 64 - 64) 64 = (128, 0) := by decide +kernel

/-- R242, R325, R331: the channel of a device address is its bits 9:8; the areas, with two slots. -/
theorem test_areas :
    channelOf 0x48000300 = 3 ∧ areaOf 2 0x07FFFFFF = .management ∧ areaOf 2 0x08000040 = .capture 1 ∧
    areaOf 2 0x48000800 = .stackHeader 1 ∧ areaOf 2 0x4A802000 = .stackBins 1 1 ∧ areaOf 2 0x4B000000 = .unused := by
  decide +kernel

/-! ## Single steps -/

/-- R116: ADD wraps, and the immediate form takes the immediate. -/
theorem test_add_wraps :
    ∃ t, exec (.add 0 (fields 1 2 0 0x200000001)) (run0.setG 0 2 0xFFFFFFFF) = .next t ∧ t.g 0 1 = 0 ∧ t.pc 0 = 1 :=
  ⟨_, rfl, by decide +kernel, by decide +kernel⟩

/-- R116: SUB with a source that is the destination. -/
theorem test_sub :
    ∃ t, exec (.sub 0 (fields 2 2 3 0)) ((run0.setG 0 2 5).setG 0 3 7) = .next t ∧ t.g 0 2 = 0xFFFFFFFE :=
  ⟨_, rfl, by decide +kernel⟩

/-- R116: SAR keeps the sign. -/
theorem test_sar :
    ∃ t, exec (.sar 0 (fields 1 2 0 0x200000004)) (run0.setG 0 2 0x80000000) = .next t ∧ t.g 0 1 = 0xF8000000 :=
  ⟨_, rfl, by decide +kernel⟩

/-- A step takes the command at the front, and leaves the rest of the queue (log 2). -/
theorem test_step_front :
    ∃ t, step { State.reset with pending := [.powerOn, .proofComplete] } = .next t ∧ t.stageIs 1 = true ∧
      t.pending = [.proofComplete] :=
  ⟨_, rfl, by decide +kernel, by decide +kernel⟩

/-- No row of the table has an encoding in bits (log 2). -/
theorem test_no_words : decodeTableWord 32 0 = none ∧ State.reset.withFetchWord 32 0 = State.reset := by decide +kernel


end Sys2Proof.Tests
end

section
/-!
SUPPORT. The read of a staged register that is granted among rivals of its cycle (R38, log 87): its data is not the only item
that the access adds to the trace.
-/
namespace Sys2Proof.Machine.ContendedRead

/-! ## The counterexample -/

/-- Word 0 of the first line descriptor, whose fields are all STG. -/
def lineWord : BitVec 32 := 0x00490000

/-- Its row of the register table. -/
def lineRow : RegRow :=
  ⟨0x00490000, [(0x10, 1024)], [⟨5, 0, .stg, 0, [], none, false⟩, ⟨23, 8, .stg, 0, [], none, false⟩,
    ⟨31, 24, .stg, 0, [(153, 255)], none, false⟩]⟩

/-- The power-on reset has ended, so that the JTAG port is served (R448). -/
def poweredUp : State := State.reset.stageDone 1

/-- A request of the host that reaches the fabric in the same cycle. -/
def hostRequest : FabReq := { port := portOf .host, reserved := false, block := 0, cell := 0 }

/-! ## The model on it -/

theorem findRow_lineWord : findRow lineWord.toNat = some (lineRow, 0) := by decide +kernel

theorem open_lineWord :
    poweredUp.gated lineWord.toNat = false ∧ ∀ write, poweredUp.withheld .jtag lineWord.toNat write 0 = false := by
  decide +kernel

/-- The fabric grants JTAG's port 0 and then the host's port 13, and says so below the data. -/
theorem out_contendedRead {t : State}
    (h : exec (.reservedRead .jtag .bar0 lineWord .dword [hostRequest]) poweredUp = .next t) :
    t.io.out = [.readData .jtag lineWord.toNat 0, .granted [0, 13]] := by
  obtain rfl := Host.Outcome.next.inj h
  decide +kernel

/-- Refutes O55: a read that is granted among rivals leaves the order of the grants on the trace below its data (R18, R28, log 87),
so the trace is not the data on top of the old one. -/
theorem not_stagedRegistersReadAndWrite : ¬ Obligations.StagedRegistersReadAndWrite := by
  unfold Obligations.StagedRegistersReadAndWrite
  intro h
  obtain ⟨hgate, hopen⟩ := open_lineWord
  obtain ⟨⟨t, hread, hout, -⟩, -, -⟩ :=
    h .jtag lineWord _ lineRow 0 0 0 0 [hostRequest] poweredUp (by decide +kernel) rfl rfl (by decide) rfl
      findRow_lineWord rfl (by decide +kernel) hgate (hopen false) (hopen true)
  have hold : poweredUp.io.out = [] := rfl
  rw [out_contendedRead hread, hold] at hout
  exact absurd (congrArg List.length hout) (by decide)

end Sys2Proof.Machine.ContendedRead
end

section
/-!
SUPPORT. What an instruction that acts on its easel alone leaves: the fields of the easel after each shared operation (R83, R84, R109),
and the frame that these operations stay in.
-/
namespace Sys2Proof.Machine

variable {s t : State} {e : Nat} {regs : List Nat}

/-! ## The easel's registers are apart -/

theorem off_PC_ne_STAT (e : Nat) : (Fd.SCAN_EASEL_PC_PC e).off ≠ (Fd.SCAN_EASEL_STAT_STATE e).off := by
  simp [Fd.SCAN_EASEL_PC_PC, Fd.SCAN_EASEL_STAT_STATE]

theorem off_G_ne_STAT (e i : Nat) : (Fd.SCAN_EASEL_G_G e i).off ≠ (Fd.SCAN_EASEL_STAT_STATE e).off := by
  simp only [Fd.SCAN_EASEL_G_G, Fd.SCAN_EASEL_STAT_STATE]
  omega

theorem off_G_ne_PC (e i : Nat) : (Fd.SCAN_EASEL_G_G e i).off ≠ (Fd.SCAN_EASEL_PC_PC e).off := by
  simp only [Fd.SCAN_EASEL_G_G, Fd.SCAN_EASEL_PC_PC]
  omega

/-! ## The easel's fields after the shared operations -/

/-- A stepped easel that halts writes STATE and no other register. -/
theorem State.get_settle {fd : Field} (h : fd.off ≠ (Fd.SCAN_EASEL_STAT_STATE e).off) : (s.settle e).get fd = s.get fd := by
  unfold State.settle
  split
  · exact State.get_set_off s 0 h
  · rfl

theorem State.pc_settle : (s.settle e).pc e = s.pc e := State.get_settle (off_PC_ne_STAT e)

theorem State.pc_nextPc : (s.nextPc e).pc e = (s.pc e + 1) % 4096 :=
  State.get_set s (Fd.SCAN_EASEL_PC_PC e) _ (Nat.zero_le 11) (by simp [Fd.SCAN_EASEL_PC_PC])

theorem State.pc_setG (i : Nat) (v : Word) : (s.setG e i v).pc e = s.pc e := by
  unfold State.setG
  split
  · rfl
  · exact State.get_set_off s _ (off_G_ne_PC e i).symm

/-- A general register is known by its field. -/
theorem State.g_congr {i : Nat} (h : t.get (Fd.SCAN_EASEL_G_G e i) = s.get (Fd.SCAN_EASEL_G_G e i)) : t.g e i = s.g e i := by
  simp only [State.g, h]

theorem State.g_settle (i : Nat) : (s.settle e).g e i = s.g e i := State.g_congr (State.get_settle (off_G_ne_STAT e i))

theorem State.g_nextPc (i : Nat) : (s.nextPc e).g e i = s.g e i :=
  State.g_congr (State.get_set_off s _ (off_G_ne_PC e i))

/-- A general register reads what was written to it; G0 reads 0 (R83). -/
theorem State.g_setG_same (i : Nat) (v : Word) : (s.setG e i v).g e i = if i = 0 then 0 else v := by
  by_cases hi : i = 0
  · simp only [State.g, hi, if_true]
  · have hread : (s.set (Fd.SCAN_EASEL_G_G e i) v.toNat).get (Fd.SCAN_EASEL_G_G e i) = v.toNat % 2 ^ 32 :=
      State.get_set s (Fd.SCAN_EASEL_G_G e i) _ (Nat.zero_le 31) (by simp [Fd.SCAN_EASEL_G_G])
    simp only [State.g, State.setG, hi, if_false, hread, Nat.mod_eq_of_lt v.isLt, BitVec.ofNat_toNat, BitVec.setWidth_eq]

/-! ## The frame of an easel's instruction -/

theorem State.easelFrame_refl (s : State) (regs : List Nat) : s.easelFrame regs s := ⟨fun _ _ => rfl, rfl⟩

/-- A field write stays in the frame when its register is listed. -/
theorem State.easelFrame.set (h : s.easelFrame regs t) {fd : Field} (hfd : fd.off ∈ regs) (v : Nat) :
    s.easelFrame regs (t.set fd v) := by
  obtain ⟨hreg, hrest⟩ := h
  refine ⟨fun a ha => ?_, ?_⟩
  · rw [State.reg_set_other t v (ne_of_mem_of_not_mem hfd ha).symm, hreg a ha]
  · rw [hrest]; rfl

theorem State.easelFrame.easel_upd (h : s.easelFrame regs t) (e : Nat) (z : Easel → Easel) :
    s.easelFrame regs (t.easel' e z) := by
  obtain ⟨hreg, hrest⟩ := h
  exact ⟨hreg, by rw [hrest]; rfl⟩

theorem State.easelFrame.setG (h : s.easelFrame regs t) {i : Nat} (hi : i ≠ 0 → (Fd.SCAN_EASEL_G_G e i).off ∈ regs)
    (v : Word) : s.easelFrame regs (t.setG e i v) := by
  unfold State.setG
  split
  case isTrue => exact h
  case isFalse hne => exact h.set (hi hne) _

theorem State.easelFrame.nextPc (h : s.easelFrame regs t) (hpc : (Fd.SCAN_EASEL_PC_PC e).off ∈ regs) :
    s.easelFrame regs (t.nextPc e) := h.set hpc _

theorem State.easelFrame.settle (h : s.easelFrame regs t) (hstat : (Fd.SCAN_EASEL_STAT_STATE e).off ∈ regs) :
    s.easelFrame regs (t.settle e) := by
  unfold State.settle
  split
  · exact (h.set hstat 0).easel_upd e _
  · exact h

/-! ## One instruction -/

/-- An instruction that runs, with its values in range, has its effect; then a stepped easel halts. -/
theorem instr_of_runs {e : Fin 8} {f : Fields} {h : Shape} {range : State → Bool} (hs : s.runs h e f) (hr : range s = true)
    (body : State → State) : instr e f h range body s = .next ((body s).settle e) := by
  obtain ⟨hrun, hexec, hlegal⟩ := hs
  simp [instr, ok, hrun, hexec, hlegal, hr]

end Sys2Proof.Machine
end

section
/-!
SUPPORT. The ALU instructions (R116): each is the common form `alu` at its own operation, and that form completes.
-/
namespace Sys2Proof.Machine.AluInstructions

variable {e : Fin 8} {f : Fields} {s : State}

/-! ## The eleven rows -/

/-- Where both branches agree on equal words, less and at most choose alike: so the model's MINU and MAXU are the minimum and the
maximum. -/
theorem ite_ult_eq_ite_le {a b x y : Word} (h : a = b → x = y) :
    (if a.ult b then x else y) = if a.toNat ≤ b.toNat then x else y := by
  obtain hlt | heq | hgt := lt_trichotomy a.toNat b.toNat
  · simp [BitVec.ult, hlt, hlt.le]
  · simp [h (BitVec.eq_of_toNat_eq heq)]
  · simp [BitVec.ult, hgt.not_gt, hgt.not_ge]

theorem execMinu_eq_alu (e : Fin 8) (f : Fields) :
    execMinu e f = alu 0x16 (fun a b => if a.toNat ≤ b.toNat then a else b) e f :=
  funext fun s => by simp only [execMinu, ite_ult_eq_ite_le id]

theorem execMaxu_eq_alu (e : Fin 8) (f : Fields) :
    execMaxu e f = alu 0x17 (fun a b => if a.toNat ≤ b.toNat then b else a) e f :=
  funext fun s => by simp only [execMaxu, ite_ult_eq_ite_le Eq.symm]

/-- The command of each row is executed as `alu`, at the row's shape and operation. -/
theorem exec_aluRow (e : Fin 8) (f : Fields) :
    ∀ row ∈ aluRows e f, ∃ opc, row.2.1 = shAlu opc ∧ exec row.1 = alu opc row.2.2 e f := by
  simp only [aluRows, List.forall_mem_cons]
  exact ⟨⟨_, rfl, rfl⟩, ⟨_, rfl, rfl⟩, ⟨_, rfl, rfl⟩, ⟨_, rfl, rfl⟩, ⟨_, rfl, rfl⟩, ⟨_, rfl, rfl⟩,
    ⟨_, rfl, execMinu_eq_alu e f⟩, ⟨_, rfl, execMaxu_eq_alu e f⟩, ⟨_, rfl, rfl⟩, ⟨_, rfl, rfl⟩, ⟨_, rfl, rfl⟩,
    List.forall_mem_nil _⟩

/-! ## The common form -/

/-- The state after an ALU instruction whose result is v. -/
def result (e : Fin 8) (f : Fields) (v : Word) (s : State) : State := ((s.setG e f.d.toNat v).nextPc e).settle e

theorem alu_of_runs {opc : Nat} (op : Word → Word → Word) (hs : s.runs (shAlu opc) e f) :
    alu opc op e f s = .next (result e f (op (s.g e f.a.toNat) (s.opB e f)) s) :=
  instr_of_runs (range := anyRange) hs rfl _

theorem d_eq_zero_iff : f.d.toNat = 0 ↔ f.d = 0 := BitVec.toNat_inj (y := 0)

theorem g_result (v : Word) : (result e f v s).g e f.d.toNat = if f.d = 0 then 0 else v := by
  simp only [result, State.g_settle, State.g_nextPc, State.g_setG_same, d_eq_zero_iff]

theorem pc_result (v : Word) : (result e f v s).pc e = (s.pc e + 1) % 4096 := by
  rw [result, State.pc_settle, State.pc_nextPc, State.pc_setG]

/-- The registers that an ALU instruction may write: G[D], unless it is G0, PC and STAT. -/
def written (e : Fin 8) (f : Fields) : List Nat :=
  (if f.d = 0 then [] else [(Fd.SCAN_EASEL_G_G e f.d.toNat).off]) ++
    [(Fd.SCAN_EASEL_PC_PC e).off, (Fd.SCAN_EASEL_STAT_STATE e).off]

theorem off_G_mem_written (hd : f.d.toNat ≠ 0) : (Fd.SCAN_EASEL_G_G e f.d.toNat).off ∈ written e f := by
  simp only [written, if_neg (mt d_eq_zero_iff.2 hd)]
  exact List.mem_cons_self

theorem easelFrame_result (v : Word) : s.easelFrame (written e f) (result e f v s) :=
  (((s.easelFrame_refl _).setG off_G_mem_written v).nextPc (by simp [written])).settle (by simp [written])

/-- Settles O8: the row's command is `alu` at the row's operation, whose next state is `result`. -/
theorem aluInstructionsComplete : Obligations.AluInstructionsComplete := by
  unfold Obligations.AluInstructionsComplete
  intro e f s row hrow hs
  obtain ⟨opc, hshape, hexec⟩ := exec_aluRow e f row hrow
  rw [hshape] at hs
  exact ⟨_, (congrFun hexec s).trans (alu_of_runs _ hs), g_result _, pc_result _, easelFrame_result _⟩

end Sys2Proof.Machine.AluInstructions
end

section
/-!
SUPPORT. The frame `within`: which records of the state an operation may change.
-/
namespace Sys2Proof.Machine

variable {s t v : State} {u : List Part}

/-- The record of a part is as it was. -/
def State.samePart (s t : State) : Part → Prop
  | .io => t.io = s.io
  | .tbas => t.tbas = s.tbas
  | .scan => t.scan = s.scan
  | .emt => t.emt = s.emt
  | .safe => t.safe = s.safe
  | .lnk => t.lnk = s.lnk
  | .hst => t.hst = s.hst
  | .outp => t.outp = s.outp
  | .host => t.host = s.host
  | .memc => t.memc = s.memc
  | .moni => t.moni = s.moni
  | .mgmt => t.mgmt = s.mgmt
  | .secu => t.secu = s.secu
  | .chip => t.chip = s.chip

theorem State.samePart_refl (s : State) (p : Part) : s.samePart s p := by cases p <;> rfl

theorem State.samePart.trans {p : Part} (h : s.samePart t p) (k : t.samePart v p) : s.samePart v p := by
  cases p <;> exact Eq.trans k h

theorem State.within_iff : s.within u t ↔ t.pending = s.pending ∧ ∀ p, p ∉ u → s.samePart t p := by
  constructor
  · rintro ⟨h, hio, htbas, hscan, hemt, hsafe, hlnk, hhst, houtp, hhost, hmemc, hmoni, hmgmt, hsecu, hchip⟩
    refine ⟨h, fun p => ?_⟩
    cases p
    all_goals assumption
  · rintro ⟨h, k⟩
    exact ⟨h, k .io, k .tbas, k .scan, k .emt, k .safe, k .lnk, k .hst, k .outp, k .host, k .memc, k .moni, k .mgmt,
      k .secu, k .chip⟩

theorem State.within_refl (s : State) (u : List Part) : s.within u s :=
  State.within_iff.2 ⟨rfl, fun p _ => s.samePart_refl p⟩

theorem State.within.trans (h : s.within u t) (k : t.within u v) : s.within u v := by
  rw [State.within_iff] at *
  exact ⟨k.1.trans h.1, fun p hp => (h.2 p hp).trans (k.2 p hp)⟩

theorem State.within.mono {u' : List Part} (h : s.within u t) (hu : ∀ p ∈ u, p ∈ u') : s.within u' t := by
  rw [State.within_iff] at *
  exact ⟨h.1, fun p hp => h.2 p fun k => hp (hu p k)⟩

/-! ## Each record's update, where the record is listed -/

theorem State.within.io_upd (h : s.within u t) (f : Io → Io) (k : .io ∈ u := by decide) : s.within u (t.io' f) :=
  h.trans (by simp [State.within, k])
theorem State.within.tbas_upd (h : s.within u t) (f : Tbas → Tbas) (k : .tbas ∈ u := by decide) : s.within u (t.tbas' f) :=
  h.trans (by simp [State.within, k])
theorem State.within.scan_upd (h : s.within u t) (f : Scan → Scan) (k : .scan ∈ u := by decide) : s.within u (t.scan' f) :=
  h.trans (by simp [State.within, k])
theorem State.within.emt_upd (h : s.within u t) (f : Emit → Emit) (k : .emt ∈ u := by decide) : s.within u (t.emit' f) :=
  h.trans (by simp [State.within, k])
theorem State.within.safe_upd (h : s.within u t) (f : Safe → Safe) (k : .safe ∈ u := by decide) : s.within u (t.safe' f) :=
  h.trans (by simp [State.within, k])
theorem State.within.lnk_upd (h : s.within u t) (f : Lnk → Lnk) (k : .lnk ∈ u := by decide) : s.within u (t.lnk' f) :=
  h.trans (by simp [State.within, k])
theorem State.within.hst_upd (h : s.within u t) (f : Hst → Hst) (k : .hst ∈ u := by decide) : s.within u (t.hst' f) :=
  h.trans (by simp [State.within, k])
theorem State.within.outp_upd (h : s.within u t) (f : Outp → Outp) (k : .outp ∈ u := by decide) : s.within u (t.outp' f) :=
  h.trans (by simp [State.within, k])
theorem State.within.host_upd (h : s.within u t) (f : HostIf → HostIf) (k : .host ∈ u := by decide) :
    s.within u (t.host' f) := h.trans (by simp [State.within, k])
theorem State.within.memc_upd (h : s.within u t) (f : Memc → Memc) (k : .memc ∈ u := by decide) : s.within u (t.memc' f) :=
  h.trans (by simp [State.within, k])
theorem State.within.moni_upd (h : s.within u t) (f : Moni → Moni) (k : .moni ∈ u := by decide) : s.within u (t.moni' f) :=
  h.trans (by simp [State.within, k])
theorem State.within.mgmt_upd (h : s.within u t) (f : Mgmt → Mgmt) (k : .mgmt ∈ u := by decide) : s.within u (t.mgmt' f) :=
  h.trans (by simp [State.within, k])
theorem State.within.secu_upd (h : s.within u t) (f : Secu → Secu) (k : .secu ∈ u := by decide) : s.within u (t.secu' f) :=
  h.trans (by simp [State.within, k])
theorem State.within.chip_upd (h : s.within u t) (f : Chip → Chip) (k : .chip ∈ u := by decide) : s.within u (t.chip' f) :=
  h.trans (by simp [State.within, k])

/-! ## The operations on the shared record -/

theorem State.within.put (h : s.within u t) (a : Nat) (w : Word) (k : .io ∈ u := by decide) : s.within u (t.put a w) :=
  h.io_upd _ k
theorem State.within.set (h : s.within u t) (f : Field) (n : Nat) (k : .io ∈ u := by decide) : s.within u (t.set f n) :=
  h.io_upd _ k
theorem State.within.emit (h : s.within u t) (o : Out) (k : .io ∈ u := by decide) : s.within u (t.emit o) := h.io_upd _ k

end Sys2Proof.Machine
end

section
/-!
SUPPORT. What an easel's time registers, predicates and special registers read after a write (R83), what leaves the frame of an easel's
instruction, and what settling a stepped easel leaves (R109).
-/
namespace Sys2Proof.Machine

variable {s t : State} {e : Nat} {regs : List Nat}

/-! ## Reading rules -/

theorem State.get_nextPc {fd : Field} (h : fd.off ≠ (Fd.SCAN_EASEL_PC_PC e).off) : (s.nextPc e).get fd = s.get fd :=
  State.get_set_off s _ h

theorem State.pc_setPc (n : Nat) : (s.setPc e n).pc e = n % 4096 :=
  State.get_set s (Fd.SCAN_EASEL_PC_PC e) n (Nat.zero_le 11) (by simp [Fd.SCAN_EASEL_PC_PC])

theorem State.pc_lt : s.pc e < 4096 := Io.get_lt _ _

theorem State.pc_setP (i : Nat) (b : Bool) : (s.setP e i b).pc e = s.pc e := by
  unfold State.setP
  split
  · rfl
  · exact State.get_set_off s _ (by simp [Fd.SCAN_EASEL_PC_PC, Fd.SCAN_EASEL_PRED_P, Field.bit])

theorem off_T_ne_PC (e i : Nat) : (Fd.SCAN_EASEL_T_WORD e i).off ≠ (Fd.SCAN_EASEL_PC_PC e).off := by
  simp only [Fd.SCAN_EASEL_T_WORD, Fd.SCAN_EASEL_PC_PC]
  omega

theorem off_T_ne_STAT (e i : Nat) : (Fd.SCAN_EASEL_T_WORD e i).off ≠ (Fd.SCAN_EASEL_STAT_STATE e).off := by
  simp only [Fd.SCAN_EASEL_T_WORD, Fd.SCAN_EASEL_STAT_STATE]
  omega

theorem State.pc_setT (i : Nat) (v : Wide) : (s.setT e i v).pc e = s.pc e :=
  (State.get_set_off _ _ (off_T_ne_PC e _).symm).trans (State.get_set_off s _ (off_T_ne_PC e _).symm)

/-- A time register is known by its two words. -/
theorem State.t_congr {i : Nat} (h : ∀ j, t.get (Fd.SCAN_EASEL_T_WORD e j) = s.get (Fd.SCAN_EASEL_T_WORD e j)) :
    t.t e i = s.t e i := by
  simp only [State.t, h]

theorem State.t_settle (i : Nat) : (s.settle e).t e i = s.t e i :=
  State.t_congr fun j => State.get_settle (off_T_ne_STAT e j)

theorem State.t_nextPc (i : Nat) : (s.nextPc e).t e i = s.t e i := State.t_congr fun j => State.get_nextPc (off_T_ne_PC e j)

/-- A time register reads what was written to it. -/
theorem State.t_setT_same (i : Nat) (v : Wide) : (s.setT e i v).t e i = v := by
  have hlow : (s.setT e i v).get (Fd.SCAN_EASEL_T_WORD e (2 * i)) = v.toNat % 2 ^ 32 := by
    refine (State.get_set_off _ _ (by simp [Fd.SCAN_EASEL_T_WORD])).trans ?_
    exact (State.get_set s _ _ (Nat.zero_le 31) (by simp [Fd.SCAN_EASEL_T_WORD])).trans (by simp [Fd.SCAN_EASEL_T_WORD])
  have hhigh : (s.setT e i v).get (Fd.SCAN_EASEL_T_WORD e (2 * i + 1)) = v.toNat / 2 ^ 32 := by
    refine (State.get_set _ _ _ (Nat.zero_le 31) (by simp [Fd.SCAN_EASEL_T_WORD])).trans ?_
    have hv := v.isLt
    simp only [Fd.SCAN_EASEL_T_WORD]
    omega
  apply BitVec.eq_of_toNat_eq
  have hv := v.isLt
  simp only [State.t, hlow, hhigh, BitVec.toNat_ofNat]
  omega

/-- A predicate is known by its field. -/
theorem State.p_congr {i : Nat} (h : t.get ((Fd.SCAN_EASEL_PRED_P e).bit i) = s.get ((Fd.SCAN_EASEL_PRED_P e).bit i)) :
    t.p e i = s.p e i := congrArg (fun n : Nat => i == 0 || n == 1) h

theorem off_P_ne_PC (e i : Nat) : ((Fd.SCAN_EASEL_PRED_P e).bit i).off ≠ (Fd.SCAN_EASEL_PC_PC e).off := by
  simp [Field.bit, Fd.SCAN_EASEL_PRED_P, Fd.SCAN_EASEL_PC_PC]

theorem off_P_ne_STAT (e i : Nat) : ((Fd.SCAN_EASEL_PRED_P e).bit i).off ≠ (Fd.SCAN_EASEL_STAT_STATE e).off := by
  simp [Field.bit, Fd.SCAN_EASEL_PRED_P, Fd.SCAN_EASEL_STAT_STATE]

theorem State.p_settle (i : Nat) : (s.settle e).p e i = s.p e i := State.p_congr (State.get_settle (off_P_ne_STAT e i))

theorem State.p_nextPc (i : Nat) : (s.nextPc e).p e i = s.p e i := State.p_congr (State.get_nextPc (off_P_ne_PC e i))

/-- A predicate reads what was written to it; P0 reads true (R83). -/
theorem State.p_setP_same {i : Nat} (hi : i < 8) (b : Bool) : (s.setP e i b).p e i = (i == 0 || b) := by
  unfold State.setP State.p
  split
  case isTrue h => simp [h]
  case isFalse =>
    have hbit := State.get_setBit s ((Fd.SCAN_EASEL_PRED_P e).bit i) b (Nat.le_refl _)
      (by simp [Field.bit, Fd.SCAN_EASEL_PRED_P]; omega)
    change (_ || (State.get _ _ == 1)) = _
    rw [hbit]
    cases b <;> simp

theorem pdOf_lt (f : Fields) : pdOf f < 8 := Nat.mod_lt _ (by decide)

theorem xbits_lt (f : Fields) (hi lo : Nat) : xbits f hi lo < 2 ^ (hi - lo + 1) := Nat.mod_lt _ (by positivity)

theorem State.get_halt {fd : Field} (h : (Fd.SCAN_EASEL_STAT_STATE e).apart fd = true) : (s.halt e).get fd = s.get fd :=
  State.get_set_apart s 0 h

/-- A stepped easel that halts changes STATE and no other field. -/
theorem State.get_settle_apart {fd : Field} (h : (Fd.SCAN_EASEL_STAT_STATE e).apart fd = true) :
    (s.settle e).get fd = s.get fd := by
  unfold State.settle
  split
  · exact State.get_halt h
  · rfl

/-! ## The frame -/

theorem State.easelFrame.setPc (h : s.easelFrame regs t) (hpc : (Fd.SCAN_EASEL_PC_PC e).off ∈ regs) (n : Nat) :
    s.easelFrame regs (t.setPc e n) := h.set hpc _

theorem State.easelFrame.setP (h : s.easelFrame regs t) (hp : (Fd.SCAN_EASEL_PRED_P e).off ∈ regs) (i : Nat) (b : Bool) :
    s.easelFrame regs (t.setP e i b) := by
  unfold State.setP
  split
  · exact h
  · exact h.set (fd := (Fd.SCAN_EASEL_PRED_P e).bit i) hp _

theorem State.easelFrame.setT (h : s.easelFrame regs t) {i : Nat} (h0 : (Fd.SCAN_EASEL_T_WORD e (2 * i)).off ∈ regs)
    (h1 : (Fd.SCAN_EASEL_T_WORD e (2 * i + 1)).off ∈ regs) (v : Wide) : s.easelFrame regs (t.setT e i v) :=
  (h.set h0 _).set h1 _

end Sys2Proof.Machine
end

section
/-!
PROOF. The easel's comparisons, special registers and branches (R104, R117 to R119).
-/
namespace Sys2Proof.Machine.EaselBranches

variable {e : Fin 8} {f : Fields} {s : State}

/-! ## Results in a predicate and in a general register -/

theorem p_result (i : Nat) (hi : i < 8) (b : Bool) : (((s.setP e i b).nextPc e).settle e).p e i = (i == 0 || b) := by
  rw [State.p_settle, State.p_nextPc, State.p_setP_same hi]

theorem pc_predicate (i : Nat) (b : Bool) : (((s.setP e i b).nextPc e).settle e).pc e = (s.pc e + 1) % 4096 := by
  rw [State.pc_settle, State.pc_nextPc, State.pc_setP]

theorem easelFrame_predicate (i : Nat) (b : Bool) :
    s.easelFrame [(Fd.SCAN_EASEL_PRED_P e).off, (Fd.SCAN_EASEL_PC_PC e).off, (Fd.SCAN_EASEL_STAT_STATE e).off]
      (((s.setP e i b).nextPc e).settle e) :=
  (((s.easelFrame_refl _).setP (by simp) i b).nextPc (by simp)).settle (by simp)

theorem g_result (d : BitVec 5) (v : Word) :
    (((s.setG e d.toNat v).nextPc e).settle e).g e d.toNat = if d = 0 then 0 else v := by
  rw [State.g_settle, State.g_nextPc, State.g_setG_same]
  exact if_congr (BitVec.toNat_inj (y := 0)) rfl rfl

theorem pc_general (i : Nat) (v : Word) : (((s.setG e i v).nextPc e).settle e).pc e = (s.pc e + 1) % 4096 := by
  rw [State.pc_settle, State.pc_nextPc, State.pc_setG]

theorem easelFrame_general (i : Nat) (v : Word) :
    s.easelFrame [(Fd.SCAN_EASEL_G_G e i).off, (Fd.SCAN_EASEL_PC_PC e).off, (Fd.SCAN_EASEL_STAT_STATE e).off]
      (((s.setG e i v).nextPc e).settle e) :=
  (((s.easelFrame_refl _).setG (by simp) v).nextPc (by simp)).settle (by simp)

/-! ## The instructions -/

theorem cmp_next (hs : s.runs shCMP e f) (hd : f.d.toNat < 6) :
    exec (.cmp e f) s =
      .next (((s.setP e (pdOf f) (cmpCond f.d.toNat (s.g e f.a.toNat) (s.opB e f))).nextPc e).settle e) := by
  change execCmp e f s = _
  unfold execCmp
  exact instr_of_runs hs (decide_eq_true hd) _

theorem plog_next (hs : s.runs shPLOG e f) (hd : f.d.toNat < 4) :
    exec (.plog e f) s =
      .next (((s.setP e (pdOf f) (plogOp f.d.toNat (s.p e f.a.toNat) (s.p e f.b.toNat))).nextPc e).settle e) := by
  change execPlog e f s = _
  unfold execPlog
  exact instr_of_runs hs (decide_eq_true hd) _

theorem mfs_next (hs : s.runs shMFS e f) (hd : selOf f < 13) :
    exec (.mfs e f) s = .next (((s.setG e f.d.toNat (s.special e (selOf f))).nextPc e).settle e) := by
  change execMfs e f s = _
  unfold execMfs
  exact instr_of_runs hs (decide_eq_true hd) _

theorem mts_hop_next (hs : s.runs shMTS e f) (hsel : selOf f = 1) :
    exec (.mts e f) s = .next (((s.set (Fd.SCAN_EASEL_STAT_HOP e) (s.g e f.a.toNat).toNat).nextPc e).settle e) := by
  change execMts e f s = _
  unfold execMts
  rw [instr_of_runs hs (by simp [hsel])]
  simp only [hsel, if_true]

theorem mts_epc_next (hs : s.runs shMTS e f) (hsel : selOf f = 2) :
    exec (.mts e f) s = .next (((s.set (Fd.SCAN_EASEL_PC_EPC e) (s.g e f.a.toNat).toNat).nextPc e).settle e) := by
  change execMts e f s = _
  unfold execMts
  rw [instr_of_runs hs (by simp [hsel])]
  simp only [hsel, if_neg (show (2 : Nat) ≠ 1 by decide)]

theorem hop_mts (v : Nat) :
    (((s.set (Fd.SCAN_EASEL_STAT_HOP e) v).nextPc e).settle e).get (Fd.SCAN_EASEL_STAT_HOP e) = v % 256 := by
  rw [State.get_settle_apart (by simp [Field.apart, Fd.SCAN_EASEL_STAT_STATE, Fd.SCAN_EASEL_STAT_HOP]),
    State.get_nextPc (by simp [Fd.SCAN_EASEL_STAT_HOP, Fd.SCAN_EASEL_PC_PC])]
  exact State.get_set s _ v (by simp [Fd.SCAN_EASEL_STAT_HOP]) (by simp [Fd.SCAN_EASEL_STAT_HOP])

theorem epc_mts (v : Nat) :
    (((s.set (Fd.SCAN_EASEL_PC_EPC e) v).nextPc e).settle e).get (Fd.SCAN_EASEL_PC_EPC e) = v % 4096 := by
  rw [State.get_settle (by simp [Fd.SCAN_EASEL_STAT_STATE, Fd.SCAN_EASEL_PC_EPC])]
  refine (State.get_set_apart _ _ (by simp [Field.apart, Fd.SCAN_EASEL_PC_EPC, Fd.SCAN_EASEL_PC_PC])).trans ?_
  exact State.get_set s _ v (by simp [Fd.SCAN_EASEL_PC_EPC]) (by simp [Fd.SCAN_EASEL_PC_EPC])

/-- A write of another register than PC, or of other bits of it, leaves the program counter to the instruction. -/
theorem pc_of_set {fd : Field} (h : fd.apart (Fd.SCAN_EASEL_PC_PC e) = true) (v : Nat) :
    (((s.set fd v).nextPc e).settle e).pc e = (s.pc e + 1) % 4096 := by
  rw [State.pc_settle, State.pc_nextPc]
  exact congrArg (fun n => (n + 1) % 4096) (State.get_set_apart s v h)

theorem easelFrame_of_set {fd : Field} {regs : List Nat} (hfd : fd.off ∈ regs) (hpc : (Fd.SCAN_EASEL_PC_PC e).off ∈ regs)
    (hstat : (Fd.SCAN_EASEL_STAT_STATE e).off ∈ regs) (v : Nat) :
    s.easelFrame regs (((s.set fd v).nextPc e).settle e) :=
  (((s.easelFrame_refl _).set hfd v).nextPc hpc).settle hstat

/-- Settles O9: each instruction runs to its own next state, whose predicate, register and program counter are read above. -/
theorem predicatesAndSpecialsComplete : Obligations.PredicatesAndSpecialsComplete := by
  unfold Obligations.PredicatesAndSpecialsComplete
  refine ⟨?cmp, ?plog, ?mfs, ?hop, ?epc⟩
  case cmp =>
    intro e f s hs hd
    exact ⟨_, cmp_next hs hd, p_result _ (pdOf_lt f) _, pc_predicate _ _, easelFrame_predicate _ _⟩
  case plog =>
    intro e f s hs hd
    exact ⟨_, plog_next hs hd, p_result _ (pdOf_lt f) _, pc_predicate _ _, easelFrame_predicate _ _⟩
  case mfs =>
    intro e f s hs hd
    exact ⟨_, mfs_next hs hd, g_result _ _, pc_general _ _, easelFrame_general _ _⟩
  case hop =>
    intro e f s hs hsel
    exact ⟨_, mts_hop_next hs hsel, hop_mts _,
      pc_of_set (by simp [Field.apart, Fd.SCAN_EASEL_STAT_HOP, Fd.SCAN_EASEL_PC_PC]) _,
      easelFrame_of_set (by simp [Fd.SCAN_EASEL_STAT_HOP, Fd.SCAN_EASEL_STAT_STATE]) (by simp) (by simp) _⟩
  case epc =>
    intro e f s hs hsel
    exact ⟨_, mts_epc_next hs hsel, epc_mts _,
      pc_of_set (by simp [Field.apart, Fd.SCAN_EASEL_PC_EPC, Fd.SCAN_EASEL_PC_PC]) _,
      easelFrame_of_set (by simp [Fd.SCAN_EASEL_PC_EPC, Fd.SCAN_EASEL_PC_PC]) (by simp) (by simp) _⟩

/-! ## The branches -/

/-- The program counter goes to n and a stepped easel halts. -/
theorem pc_jump (n : Nat) : ((s.setPc e n).settle e).pc e = n % 4096 := by
  rw [State.pc_settle, State.pc_setPc]

theorem target_lt (f : Fields) : target f < 4096 := xbits_lt f 11 0

theorem pc_target (f : Fields) : ((s.setPc e (target f)).settle e).pc e = target f :=
  (pc_jump _).trans (Nat.mod_eq_of_lt (target_lt f))

theorem easelFrame_jump (n : Nat) :
    s.easelFrame [(Fd.SCAN_EASEL_PC_PC e).off, (Fd.SCAN_EASEL_STAT_STATE e).off] ((s.setPc e n).settle e) :=
  ((s.easelFrame_refl _).setPc (by simp) n).settle (by simp)

theorem g_link (d : BitVec 5) (v : Word) (n : Nat) :
    (((s.setG e d.toNat v).setPc e n).settle e).g e d.toNat = if d = 0 then 0 else v := by
  rw [State.g_settle]
  refine (State.g_congr (State.get_set_off _ n (off_G_ne_PC e _))).trans ?_
  rw [State.g_setG_same]
  exact if_congr (BitVec.toNat_inj (y := 0)) rfl rfl

theorem easelFrame_link (i : Nat) (v : Word) (n : Nat) :
    s.easelFrame [(Fd.SCAN_EASEL_G_G e i).off, (Fd.SCAN_EASEL_PC_PC e).off, (Fd.SCAN_EASEL_STAT_STATE e).off]
      (((s.setG e i v).setPc e n).settle e) :=
  (((s.easelFrame_refl _).setG (by simp) v).setPc (by simp) n).settle (by simp)

theorem br_next (hs : s.runs shBR e f) : exec (.br e f) s = .next ((s.setPc e (target f)).settle e) :=
  instr_of_runs (range := anyRange) hs rfl fun s => s.setPc e (target f)

theorem jal_next (hs : s.runs shJAL e f) : exec (.jal e f) s = .next
    (((s.setG e f.d.toNat (BitVec.ofNat 32 ((s.pc e + 1) % 4096))).setPc e (target f)).settle e) :=
  instr_of_runs (range := anyRange) hs rfl fun s =>
    (s.setG e f.d.toNat (BitVec.ofNat 32 ((s.pc e + 1) % 4096))).setPc e (target f)

theorem jr_next (hs : s.runs shJR e f) :
    exec (.jr e f) s = .next ((s.setPc e ((s.g e f.a.toNat).toNat % 4096)).settle e) :=
  instr_of_runs (range := anyRange) hs rfl fun s => s.setPc e ((s.g e f.a.toNat).toNat % 4096)

/-- LOOP counts down, and goes on where the count was 1. -/
theorem loop_next (hs : s.runs shLOOP e f) :
    exec (.loop e f) s = .next
      (((s.setG e f.a.toNat (s.g e f.a.toNat - 1)).setPc e
        (if s.g e f.a.toNat = 1 then s.pc e + 1 else target f)).settle e) := by
  change execLoop e f s = _
  unfold execLoop
  rw [instr_of_runs hs rfl]
  have hone : s.g e f.a.toNat - 1 = 0 ↔ s.g e f.a.toNat = 1 := by rw [sub_eq_iff_eq_add, zero_add]
  by_cases h : s.g e f.a.toNat = 1
  · simp only [h, State.nextPc, State.pc_setG, if_true, show (1 : Word) - 1 = 0 from rfl]
  · simp only [h, mt hone.1 h, if_false]

/-- RETE reads EPC, puts the saved predicates back and clears EXL (R104). -/
def returned (e : Fin 8) (s : State) : State :=
  (s.setPc e (s.get (Fd.SCAN_EASEL_PC_EPC e)) |>.set (Fd.SCAN_EASEL_PRED_P e) ((s.easel e).epred ||| 1)).set
    (Fd.SCAN_EASEL_STAT_EXL e) 0

theorem rete_next (hs : s.runs shRETE e f) (hexl : s.get (Fd.SCAN_EASEL_STAT_EXL e) = 1) :
    exec (.rete e f) s = .next ((returned e s).settle e) := by
  change execRete e f s = _
  unfold execRete
  exact instr_of_runs hs (show s.is (Fd.SCAN_EASEL_STAT_EXL e) = true from beq_iff_eq.2 hexl) _

theorem pc_returned : ((returned e s).settle e).pc e = s.get (Fd.SCAN_EASEL_PC_EPC e) := by
  rw [State.pc_settle]
  refine (State.get_set_off _ _ (by simp [Fd.SCAN_EASEL_PC_PC, Fd.SCAN_EASEL_STAT_EXL])).trans ?_
  refine (State.get_set_off _ _ (by simp [Fd.SCAN_EASEL_PC_PC, Fd.SCAN_EASEL_PRED_P])).trans ?_
  exact State.pc_setPc _ |>.trans (Nat.mod_eq_of_lt (Io.get_lt _ (Fd.SCAN_EASEL_PC_EPC e)))

theorem exl_returned : ((returned e s).settle e).get (Fd.SCAN_EASEL_STAT_EXL e) = 0 := by
  rw [State.get_settle_apart (by simp [Field.apart, Fd.SCAN_EASEL_STAT_STATE, Fd.SCAN_EASEL_STAT_EXL])]
  exact State.get_set _ _ 0 (Nat.le_refl 2) (by simp [Fd.SCAN_EASEL_STAT_EXL])

theorem pred_returned : ((returned e s).settle e).get (Fd.SCAN_EASEL_PRED_P e) = ((s.easel e).epred ||| 1) % 256 := by
  rw [State.get_settle (by simp [Fd.SCAN_EASEL_STAT_STATE, Fd.SCAN_EASEL_PRED_P])]
  refine (State.get_set_off _ 0 (by simp [Fd.SCAN_EASEL_PRED_P, Fd.SCAN_EASEL_STAT_EXL])).trans ?_
  exact State.get_set _ _ _ (Nat.zero_le 7) (by simp [Fd.SCAN_EASEL_PRED_P])

theorem easelFrame_returned :
    s.easelFrame [(Fd.SCAN_EASEL_PRED_P e).off, (Fd.SCAN_EASEL_PC_PC e).off, (Fd.SCAN_EASEL_STAT_STATE e).off]
      ((returned e s).settle e) :=
  ((((s.easelFrame_refl _).setPc (by simp) _).set (by simp) _).set
    (by simp [Fd.SCAN_EASEL_STAT_EXL, Fd.SCAN_EASEL_STAT_STATE]) _).settle (by simp)

/-- Settles O10: each branch writes the program counter once, LOOP after its count and RETE before its other registers. -/
theorem branchesComplete : Obligations.BranchesComplete := by
  unfold Obligations.BranchesComplete
  refine ⟨?br, ?jal, ?jr, ?loop, ?rete⟩
  case br =>
    intro e f s hs
    exact ⟨_, br_next hs, pc_target f, easelFrame_jump _⟩
  case jal =>
    intro e f s hs
    exact ⟨_, jal_next hs, pc_target f, g_link _ _ _, easelFrame_link _ _ _⟩
  case jr =>
    intro e f s hs
    exact ⟨_, jr_next hs, (pc_jump _).trans (Nat.mod_mod _ _), easelFrame_jump _⟩
  case loop =>
    intro e f s hs
    refine ⟨_, loop_next hs, ?_, ?_, easelFrame_link _ _ _⟩
    · exact g_link _ _ _
    · rw [pc_jump]
      split
      · rfl
      · exact Nat.mod_eq_of_lt (target_lt f)
  case rete =>
    intro e f s hs hexl
    exact ⟨_, rete_next hs hexl, pc_returned, exl_returned, pred_returned, easelFrame_returned⟩

end Sys2Proof.Machine.EaselBranches
end

section
/-!
PROOF. The easel's loads and stores (R85, R120).
-/
namespace Sys2Proof.Machine.EaselMemory

variable {e : Fin 8} {f : Fields} {s : State}

/-! ## Data memory -/

theorem State.dmByte_setDmByte_same (s : State) (e a : Nat) (v : Byte) : (s.setDmByte e a v).dmByte e a = v :=
  rd_wr_same _ _ _ _

theorem dm_setDmByte_other (s : State) (e a : Nat) (v : Byte) {k : Nat} (h : k ≠ e * 16384 + a) :
    rd (fun _ => 0) (s.setDmByte e a v).scan.dm k = rd (fun _ => 0) s.scan.dm k := rd_wr_other _ _ _ h

/-- A write of n + 1 bytes is one of n, then the last byte. -/
theorem dmWrite_succ (s : State) (e a n v : Nat) :
    s.dmWrite e a (n + 1) v = (s.dmWrite e a n v).setDmByte e (a + n) (BitVec.ofNat 8 (v / 256 ^ n)) := by
  simp [State.dmWrite, List.range_succ]

/-- A write of bytes leaves every record but that of the easels' memories. -/
theorem dmWrite_frame (s : State) (e a n v : Nat) :
    s.dmWrite e a n v = s.scan' fun c => { c with dm := (s.dmWrite e a n v).scan.dm } := by
  induction n with
  | zero => rfl
  | succ n ih => rw [dmWrite_succ]; rw [ih]; rfl

theorem dm_dmWrite_other (s : State) (e a n v : Nat) {k : Nat} (h : ∀ i, i < n → k ≠ e * 16384 + a + i) :
    rd (fun _ => 0) (s.dmWrite e a n v).scan.dm k = rd (fun _ => 0) s.scan.dm k := by
  induction n with
  | zero => rfl
  | succ n ih =>
    have hlast : k ≠ e * 16384 + (a + n) := by
      rw [← Nat.add_assoc]
      exact h n n.lt_succ_self
    rw [dmWrite_succ, dm_setDmByte_other _ _ _ _ hlast]
    exact ih fun i hi => h i (hi.trans n.lt_succ_self)

theorem dmByte_dmWrite (s : State) (e a n v : Nat) : ∀ i, i < n →
    (s.dmWrite e a n v).dmByte e (a + i) = BitVec.ofNat 8 (v / 256 ^ i) := by
  induction n with
  | zero => intro i hi; exact absurd hi (Nat.not_lt_zero i)
  | succ n ih =>
    intro i hi
    rw [dmWrite_succ]
    obtain hlt | rfl := Nat.lt_succ_iff_lt_or_eq.1 hi
    · exact (dm_setDmByte_other _ _ _ _ (by omega)).trans (ih i hlt)
    · exact State.dmByte_setDmByte_same _ _ _ _

/-! ## Where an address leads -/

theorem tableReg_dataMem {a : Nat} (h : isDataMem a = true) : tableReg a = none := by
  simp only [isDataMem, decide_eq_true_eq] at h
  simp only [tableReg]
  repeat rw [if_neg (by omega)]

theorem tableReg_scratch {a : Nat} (h : isScratch a = true) : tableReg a = some (0x004E0000 + (a - 0x00040000)) := by
  simp only [isScratch, decide_eq_true_eq] at h
  simp only [tableReg]
  rw [if_neg (by omega), if_neg (by omega), if_neg (by omega), if_pos h]

theorem accessCause_aligned {a n : Nat} (st : Bool) (ha : a % n = 0) (h : (isDataMem a || isScratch a) = true) :
    accessCause a n st = none := by
  rw [accessCause, if_neg (by simp [ha]), if_pos h]

theorem store_dataMem {a n v : Nat} (h : isDataMem a = true) : s.store e a n v = s.dmWrite e a n v := by
  simp only [State.store, tableReg_dataMem h]

/-- The registers of the shared scratch are none of an easel's own. -/
theorem scratch_ne_PC (e : Fin 8) (k : Nat) : 0x004E0000 + k ≠ (Fd.SCAN_EASEL_PC_PC e).off := by
  have := e.isLt
  simp only [Fd.SCAN_EASEL_PC_PC]
  omega

theorem scratch_ne_STAT (e : Fin 8) (k : Nat) : 0x004E0000 + k ≠ (Fd.SCAN_EASEL_STAT_STATE e).off := by
  have := e.isLt
  simp only [Fd.SCAN_EASEL_STAT_STATE]
  omega

/-! ## The common form -/

theorem memory_of_runs {h : Shape} {n : Nat} {st : Bool} (act : Nat → State → State) (hs : s.runs h e f)
    (ha : accessCause (s.addr e f) n st = none) :
    memory h n st e f act s = .next (((act (s.addr e f) s).nextPc e).settle e) := by
  unfold memory
  rw [instr_of_runs hs rfl]
  simp only [ha]

theorem reg_settle {a : Nat} (h : a ≠ (Fd.SCAN_EASEL_STAT_STATE e).off) : (s.settle e).reg a = s.reg a := by
  unfold State.settle
  split
  · exact State.reg_set_other s 0 h
  · rfl

/-- After the program counter has advanced and a stepped easel has halted, the other registers are as they were. -/
theorem reg_advance {a : Nat} (hpc : a ≠ (Fd.SCAN_EASEL_PC_PC e).off) (hst : a ≠ (Fd.SCAN_EASEL_STAT_STATE e).off) :
    ((s.nextPc e).settle e).reg a = s.reg a := (reg_settle hst).trans (State.reg_set_other s _ hpc)

theorem pc_advance : ((s.nextPc e).settle e).pc e = (s.pc e + 1) % 4096 := by rw [State.pc_settle, State.pc_nextPc]

theorem dm_advance : ((s.nextPc e).settle e).scan.dm = s.scan.dm := by
  unfold State.settle
  split <;> rfl

theorem within_of_easelFrame {regs : List Nat} {t : State} (h : s.easelFrame regs t) : s.within [.io, .scan] t := by
  rw [h.2]
  simp [State.within]

theorem within_advance : s.within [.io, .scan] ((s.nextPc e).settle e) :=
  within_of_easelFrame (regs := [(Fd.SCAN_EASEL_PC_PC e).off, (Fd.SCAN_EASEL_STAT_STATE e).off])
    (((s.easelFrame_refl _).nextPc (by simp)).settle (by simp))

/-! ## A store in data memory -/

section
variable {n v : Nat}

theorem pc_dmWrite (a : Nat) : (s.dmWrite e a n v).pc e = s.pc e := by rw [dmWrite_frame]; rfl

theorem within_dmWrite (a : Nat) : s.within [.io, .scan] (((s.dmWrite e a n v).nextPc e).settle e) := by
  refine State.within.trans ?_ within_advance
  rw [dmWrite_frame]
  exact (s.within_refl _).scan_upd _

theorem dmByte_stored (a : Nat) {i : Nat} (hi : i < n) :
    (((s.dmWrite e a n v).nextPc e).settle e).dmByte e (a + i) = BitVec.ofNat 8 (v / 256 ^ i) := by
  rw [State.dmByte, dm_advance]
  exact dmByte_dmWrite s e a n v i hi

theorem dm_stored_other (a : Nat) {k : Nat} (hk : ∀ i, i < n → k ≠ e * 16384 + a + i) :
    rd (fun _ => 0) (((s.dmWrite e a n v).nextPc e).settle e).scan.dm k = rd (fun _ => 0) s.scan.dm k := by
  rw [dm_advance]
  exact dm_dmWrite_other s e a n v hk

theorem reg_stored (a : Nat) {r : Nat} (h : r ∉ [(Fd.SCAN_EASEL_PC_PC e).off, (Fd.SCAN_EASEL_STAT_STATE e).off]) :
    (((s.dmWrite e a n v).nextPc e).settle e).reg r = s.reg r := by
  simp only [List.mem_cons, List.not_mem_nil, or_false, not_or] at h
  rw [reg_advance h.1 h.2, dmWrite_frame]
  rfl

end

/-! ## The loads -/

theorem load_next (hs : s.runs shLD e f) (ha : accessCause (s.addr e f) 4 false = none) :
    exec (.ld e f) s =
      .next (((s.setG e f.d.toNat (BitVec.ofNat 32 (s.load e (s.addr e f) 4))).nextPc e).settle e) :=
  memory_of_runs (fun a s => s.setG e f.d.toNat (BitVec.ofNat 32 (s.load e a 4))) hs ha

theorem loadWide_next (hs : s.runs shLDT e f) (ha : accessCause (s.addr e f) 8 false = none) :
    exec (.ldt e f) s =
      .next (((s.setT e f.d.toNat (BitVec.ofNat 64 (s.load e (s.addr e f) 8))).nextPc e).settle e) :=
  memory_of_runs (fun a s => s.setT e f.d.toNat (BitVec.ofNat 64 (s.load e a 8))) hs ha

/-! ## The stores -/

theorem store_next (hs : s.runs shST e f) (ha : s.addr e f % 4 = 0)
    (hsp : (isDataMem (s.addr e f) || isScratch (s.addr e f)) = true) :
    exec (.st e f) s = .next (((s.store e (s.addr e f) 4 (s.g e f.b.toNat).toNat).nextPc e).settle e) :=
  memory_of_runs (fun a s => s.store e a 4 (s.g e f.b.toNat).toNat) hs (accessCause_aligned true ha hsp)

theorem storeWide_next (hs : s.runs shSTT e f) (ha : s.addr e f % 8 = 0)
    (hsp : (isDataMem (s.addr e f) || isScratch (s.addr e f)) = true) :
    exec (.stt e f) s = .next (((s.store e (s.addr e f) 8 (s.t e f.b.toNat).toNat).nextPc e).settle e) :=
  memory_of_runs (fun a s => s.store e a 8 (s.t e f.b.toNat).toNat) hs (accessCause_aligned true ha hsp)

/-! ## A store in the shared scratch -/

theorem store_scratch_word {a v : Nat} (h : isScratch a = true) :
    s.store e a 4 v = s.put (0x004E0000 + (a - 0x00040000)) (BitVec.ofNat 32 v) := by
  simp only [State.store, tableReg_scratch h]
  rfl

theorem store_scratch_wide {a v : Nat} (h : isScratch a = true) :
    s.store e a 8 v = (s.put (0x004E0000 + (a - 0x00040000)) (BitVec.ofNat 32 v)).put
      (0x004E0000 + (a - 0x00040000) + 4) (BitVec.ofNat 32 (v / 2 ^ 32)) := by
  simp only [State.store, tableReg_scratch h]
  rfl

theorem pc_put_scratch (k : Nat) (w : Word) : (s.put (0x004E0000 + k) w).pc e = s.pc e :=
  State.get_put_other s w (scratch_ne_PC e k).symm

/-- Settles O11: the access is granted, and what it stores is read byte by byte or word by word. -/
theorem loadsAndStoresComplete : Obligations.LoadsAndStoresComplete := by
  unfold Obligations.LoadsAndStoresComplete
  refine ⟨?ld, ?st, ?stScratch, ?ldt, ?stt, ?sttScratch⟩
  case ld =>
    intro e f s hs ha
    exact ⟨_, load_next hs ha, EaselBranches.g_result _ _, EaselBranches.pc_general _ _,
      EaselBranches.easelFrame_general _ _⟩
  case st =>
    intro e f s hs ha hsp
    refine ⟨_, store_next hs ha (by simp [hsp]), ?_⟩
    rw [store_dataMem hsp]
    exact ⟨within_dmWrite _, pc_advance.trans (by rw [pc_dmWrite]), fun i hi => dmByte_stored _ hi,
      fun k hk => dm_stored_other _ hk, fun a ha => reg_stored _ ha⟩
  case stScratch =>
    intro e f s hs ha hsp
    refine ⟨_, store_next hs ha (by simp [hsp]), ?_⟩
    rw [store_scratch_word hsp]
    refine ⟨((s.within_refl _).put _ _).trans within_advance, pc_advance.trans (by rw [pc_put_scratch]),
      by rw [dm_advance, State.put_scan], ?_, ?_⟩
    · rw [reg_advance (scratch_ne_PC e _) (scratch_ne_STAT e _), State.reg_put, BitVec.ofNat_toNat, BitVec.setWidth_eq]
    · intro a ha
      simp only [List.mem_cons, List.not_mem_nil, or_false, not_or] at ha
      obtain ⟨hword, hpc, hst⟩ := ha
      rw [reg_advance hpc hst, State.reg_put_other s _ hword]
  case ldt =>
    intro e f s hs ha
    refine ⟨_, loadWide_next hs ha, ?_, ?_, ?_⟩
    · rw [State.t_settle, State.t_nextPc, State.t_setT_same]
    · rw [pc_advance, State.pc_setT]
    · exact (((s.easelFrame_refl _).setT (by simp) (by simp) _).nextPc (by simp)).settle (by simp)
  case stt =>
    intro e f s hs ha hsp
    refine ⟨_, storeWide_next hs ha (by simp [hsp]), ?_⟩
    rw [store_dataMem hsp]
    exact ⟨within_dmWrite _, pc_advance.trans (by rw [pc_dmWrite]), fun i hi => dmByte_stored _ hi,
      fun k hk => dm_stored_other _ hk, fun a ha => reg_stored _ ha⟩
  case sttScratch =>
    intro e f s hs ha hsp
    refine ⟨_, storeWide_next hs ha (by simp [hsp]), ?_⟩
    rw [store_scratch_wide hsp]
    refine ⟨(((s.within_refl _).put _ _).put _ _).trans within_advance, pc_advance.trans ?_, ?_, ?_,
      by rw [dm_advance, State.put_scan, State.put_scan], ?_⟩
    · rw [Nat.add_assoc, pc_put_scratch, pc_put_scratch]
    · rw [reg_advance (scratch_ne_PC e _) (scratch_ne_STAT e _), State.reg_put_other _ _ (by omega), State.reg_put]
    · rw [reg_advance (by rw [Nat.add_assoc]; exact scratch_ne_PC e _) (by rw [Nat.add_assoc]; exact scratch_ne_STAT e _),
        State.reg_put]
    · intro a ha
      simp only [List.mem_cons, List.not_mem_nil, or_false, not_or] at ha
      obtain ⟨hlow, hhigh, hpc, hst⟩ := ha
      rw [reg_advance hpc hst, State.reg_put_other _ _ hhigh, State.reg_put_other s _ hlow]

end Sys2Proof.Machine.EaselMemory
end

section
/-!
PROOF. The easel's time instructions (R121): WAITT_RESUME where a commit that is fixed takes effect between the tick waited for and now.
-/
namespace Sys2Proof.Machine.EaselTime

/-- At tick 10 easel 0 waits for tick 3, while a commit that is FIXED for tick 5 has not been performed. -/
def overdue : State :=
  let s := ((({ tbas := { running := true }, chip := { phase := 2 } } : State).io' fun x => { x with tick := 10 }).set
    Fd.CHIP_VARNISH_TICK_LO_TICK 5)
  s.easel' 0 fun z => { z with wait := .time 3 }

theorem timely_overdue : overdue.timely 3 = true := by decide

/-- The model resumes at the present tick, which the commit comes before: nothing happens. -/
theorem waittResume_overdue : exec (.waittResume 0) overdue = .next overdue := by rfl

/-- Refutes O12: WAITT_RESUME asks that the present tick, and not the tick waited for, comes before a commit that is FIXED; so an
easel whose tick has passed goes on waiting. -/
theorem not_timeInstructionsComplete : ¬ Obligations.TimeInstructionsComplete := by
  unfold Obligations.TimeInstructionsComplete
  rintro ⟨-, -, -, hresume, -⟩
  obtain ⟨t, hnext, -, -, -, hwait, -⟩ := hresume 0 overdue 3 rfl rfl timely_overdue
  cases waittResume_overdue.symm.trans hnext
  exact absurd hwait (by decide)

end Sys2Proof.Machine.EaselTime
end

section
/-!
PROOF. A step with no command waiting (log 1).
-/
namespace Sys2Proof.Machine.IdleStep

/-- The time base stands, a TCK edge has just passed, and CLKOUT shows the island that TCK clocks. -/
def tckAtClkout : State := { chip := { tck := true, railIo := true, clkout := 0xAE, clkPin := some (46, 1, 1) } }

theorem clkPin_tckAtClkout : tckAtClkout.clkoutNow = tckAtClkout.chip.clkPin := by decide

/-- The idle step lets TCK fall, and with it CLKOUT. -/
theorem idle_tckAtClkout : tckAtClkout.idle.io.out = [.clkout 0 0 0] := by decide

/-- Refutes O56: with the time base stopped a step without a command can still emit, where CLKOUT shows the island of TCK, which
falls in that step. -/
theorem not_stepTakesTheFrontCommand : ¬ Obligations.StepTakesTheFrontCommand := by
  unfold Obligations.StepTakesTheFrontCommand
  rintro ⟨-, -, hidle⟩
  obtain ⟨t, hnext, -, -, hstill, -⟩ := hidle tckAtClkout rfl
  have ht : t = tckAtClkout.idle := (Host.Outcome.next.inj hnext).symm
  have hout := (hstill rfl).2
  rw [ht, idle_tckAtClkout] at hout
  exact absurd hout (by decide)

end Sys2Proof.Machine.IdleStep
end

section
/-!
PROOF. The state at reset.
-/
namespace Sys2Proof.Machine.AtReset

/-- Every table is empty at reset, so each register reads its reset value. -/
theorem reg_reset (a : Nat) : State.reset.reg a = resetWord a := rfl

theorem sketchWord_reset (a : Nat) : State.reset.sketchWord a = resetWord a := rfl

theorem isHalted_reset : ∀ e : Fin 8, State.reset.isHalted e = true := by decide

theorem ringState_reset : ∀ r : Fin 14, State.reset.ringState r = rOFF := by decide

theorem portState_reset : ∀ n : Fin 32, State.reset.portState n = ptOFF := by decide

/-- Settles O58: the tables are empty at reset, and the finitely many states of the blocks are read off the register table. -/
theorem resetIsSound : Obligations.ResetIsSound := by
  unfold Obligations.ResetIsSound
  exact ⟨reg_reset, sketchWord_reset, by decide, by decide, by decide, isHalted_reset, ringState_reset, portState_reset, rfl, rfl,
    rfl, by decide, by decide, rfl⟩

end Sys2Proof.Machine.AtReset
end

section
/-!
SUPPORT. What every operation of the model keeps: the canonical form of the tables, the queues within their capacity, the commands that
wait and, but for the two that fire, the pulses that have left. One lemma for each operation, in the order of the model, each from the
lemmas about the operations that it is made of.
-/
-- Many short lemmas: one thread for all of them, since a thread for each would ask for more memory than a build may have.
set_option Elab.async false

namespace Sys2Proof.Machine

variable {p : List Instr × Option (List Out)} {s : State}

/-! ## Answers -/

theorem Res.Kept.ite {c : Prop} [Decidable c] {a b : Res} (h : Res.Kept p a) (k : Res.Kept p b) :
    Res.Kept p (if c then a else b) := Res.kept_ite c h k

theorem Res.Kept.andThen {r : Res} {f : State → Res} (h : Res.Kept p r) (k : ∀ t : State, t.Kept p → Res.Kept p (f t)) :
    Res.Kept p (andThen r f) := by
  obtain ⟨t, rfl, ht⟩ | rfl := h
  · exact k t ht
  · exact Res.kept_fault

theorem Res.Kept.onBit {r : Res} {f : State → Res} {v : Word} {n : Nat} (h : Res.Kept p r)
    (k : ∀ t : State, t.Kept p → Res.Kept p (f t)) : Res.Kept p (onBit v n f r) := (h.andThen k).ite h

end Sys2Proof.Machine

namespace Sys2Proof.Machine.State.Kept

variable {p : List Instr × Option (List Out)} {s : State}

theorem ok (h : s.Kept p) : Res.Kept p (Machine.ok s) := Res.kept_ok h

theorem next (h : s.Kept p) : Res.Kept p (.next s) := Res.kept_next h

/-! ## The shared operations, so that a chain of them reads as the model's own -/

theorem put {a : Nat} {w : Word} (h : s.Kept p) : (s.put a w).Kept p := kept_put h a w
theorem set {f : Field} {v : Nat} (h : s.Kept p) : (s.set f v).Kept p := kept_set h f v
theorem setBit {f : Field} {b : Bool} (h : s.Kept p) : (s.setBit f b).Kept p := kept_setBit h f b
theorem setWide {r i : Nat} {v : Wide} (h : s.Kept p) : (s.setWide r i v).Kept p := kept_setWide h r i v
theorem bump {f : Field} {n : Nat} (h : s.Kept p) : (s.bump f n).Kept p := kept_bump h f n
theorem bumpSat {f : Field} {n : Nat} (h : s.Kept p) : (s.bumpSat f n).Kept p := kept_bumpSat h f n
theorem irq {n : Nat} (h : s.Kept p) : (s.irq n).Kept p := kept_irq h n
theorem regionIrq {r : Nat} (h : s.Kept p) : (s.regionIrq r).Kept p := kept_regionIrq h r
theorem count {r c i n : Nat} (h : s.Kept p) : (s.count r c i n).Kept p := kept_count h r c i n
theorem err {e : Err} (h : s.Kept p) : (s.err e).Kept p := kept_err h e
theorem reach {t : Wide} (h : s.Kept p) : (s.reach t).Kept p := kept_reach h t
theorem drawNat {n : Nat} (h : s.Kept p) : (s.drawNat n).2.Kept p := kept_drawNat h n
theorem drawBit (h : s.Kept p) : s.drawBit.2.Kept p := kept_drawBit h
theorem drawWord (h : s.Kept p) : s.drawWord.2.Kept p := kept_drawWord h
theorem emit {o : Out} (h : s.Kept p) (ho : o.isFire = false := by rfl) : (s.emit o).Kept p := kept_emit h o ho
theorem emitPin {o : Out} (h : s.Kept p) (ho : o.isFire = false := by rfl) : (s.emitPin o).Kept p := kept_emitPin h o ho
theorem io_upd {f : Io → Io} (h : s.Kept p) (k : ∀ x : Io, x.Kept p.2 → (f x).Kept p.2) : (s.io' f).Kept p := kept_io f h k
theorem when {b : Bool} {f : State → State} (h : s.Kept p) (k : ∀ t : State, t.Kept p → (f t).Kept p) :
    (s.onlyIf b f).Kept p :=
  kept_onlyIf b f h (k s h)
theorem ite {c : Prop} [Decidable c] {a b : State} (h : a.Kept p) (k : b.Kept p) :
    (if c then a else b).Kept p := kept_ite c h k
theorem each {α : Type} {l : List α} {f : α → State → State} (h : s.Kept p) (k : ∀ a (t : State), t.Kept p → (f a t).Kept p) :
    (s.each l f).Kept p := kept_each l f h k
theorem foldl {α : Type} {l : List α} {f : State → α → State} (h : s.Kept p) (k : ∀ (t : State) a, t.Kept p → (f t a).Kept
    p) :
    (l.foldl f s).Kept p := kept_foldl l f h k

theorem whenOn {f : State → Res} (h : s.Kept p) (k : Res.Kept p (f s)) : Res.Kept p (s.whenOn f) := kept_whenOn h k

theorem post {n : Nat} {o : Out} (h : s.Kept p) (ho : o.isFire = false := by rfl) : (s.post n o).Kept p :=
  h.io_upd fun _ k => k.post n o ho

theorem emit_any {q : List Instr} {o : Out} (h : s.Kept (q, none)) : (s.emit o).Kept (q, none) := kept_emit_any h o

theorem optionElim {α : Type} {o : Option α} {f : α → State} (h : s.Kept p) (k : ∀ a, (f a).Kept p) :
    ((o.map f).getD s).Kept p := by
  cases o
  · exact h
  · exact k _

/-! ## Region records: an update that leaves the queues and tables of the record alone -/

theorem tbas_upd {f : Tbas → Tbas} (h : s.Kept p) (k : ∀ x, (f x).ptm = x.ptm := by intro; rfl) : (s.tbas' f).Kept p :=
  kept_tbas_upd f h fun x hx => (k x).symm ▸ hx
theorem scan_upd {f : Scan → Scan} (h : s.Kept p) (kp : ∀ x, (f x).pm = x.pm := by intro; rfl)
    (kd : ∀ x, (f x).dm = x.dm := by intro; rfl) : (s.scan' f).Kept p :=
  kept_scan_upd f h (fun x hx => (kp x).symm ▸ hx) fun x hx => (kd x).symm ▸ hx
theorem emit_upd {f : Emit → Emit} (h : s.Kept p) : (s.emit' f).Kept p := kept_emit_upd f h
theorem lnk_upd {f : Lnk → Lnk} (h : s.Kept p) : (s.lnk' f).Kept p := kept_lnk_upd f h
theorem hst_upd {f : Hst → Hst} (h : s.Kept p) : (s.hst' f).Kept p := kept_hst_upd f h
theorem outp_upd {f : Outp → Outp} (h : s.Kept p) : (s.outp' f).Kept p := kept_outp_upd f h
theorem host_upd {f : HostIf → HostIf} (h : s.Kept p) : (s.host' f).Kept p := kept_host_upd f h
theorem moni_upd {f : Moni → Moni} (h : s.Kept p) : (s.moni' f).Kept p := kept_moni_upd f h
theorem secu_upd {f : Secu → Secu} (h : s.Kept p) : (s.secu' f).Kept p := kept_secu_upd f h
theorem chip_upd {f : Chip → Chip} (h : s.Kept p) : (s.chip' f).Kept p := kept_chip_upd f h
theorem tbas_bounded {f : Tbas → Tbas} (h : s.Kept p) (k : ∀ x, x.ptm.length ≤ 16 → (f x).ptm.length ≤ 16) :
    (s.tbas' f).Kept p := kept_tbas_upd f h k
theorem memc_bounded {f : Memc → Memc} (h : s.Kept p) (k : ∀ x, x.capQ.length ≤ 16 → (f x).capQ.length ≤ 16) :
    (s.memc' f).Kept p := kept_memc_upd f h k
theorem mgmt_bounded {f : Mgmt → Mgmt} (h : s.Kept p) (k : ∀ x, x.log.length ≤ 4096 → (f x).log.length ≤ 4096) :
    (s.mgmt' f).Kept p := kept_mgmt_upd f h k
theorem safe_bounded {f : Safe → Safe} (h : s.Kept p) (kt : ∀ x, x.smTx.length ≤ 4 → (f x).smTx.length ≤ 4)
    (ka : ∀ x, x.waitA.length ≤ 4 → (f x).waitA.length ≤ 4) (kb : ∀ x, x.waitB.length ≤ 4 → (f x).waitB.length ≤ 4) :
    (s.safe' f).Kept p := kept_safe_upd f h kt ka kb
theorem memc_upd {f : Memc → Memc} (h : s.Kept p) (k : ∀ x, (f x).capQ = x.capQ := by intro; rfl) : (s.memc' f).Kept p :=
  kept_memc_upd f h fun x hx => (k x).symm ▸ hx
theorem mgmt_upd {f : Mgmt → Mgmt} (h : s.Kept p) (k : ∀ x, (f x).log = x.log := by intro; rfl) : (s.mgmt' f).Kept p :=
  kept_mgmt_upd f h fun x hx => (k x).symm ▸ hx
theorem safe_upd {f : Safe → Safe} (h : s.Kept p) (kt : ∀ x, (f x).smTx = x.smTx := by intro; rfl)
    (ka : ∀ x, (f x).waitA = x.waitA := by intro; rfl) (kb : ∀ x, (f x).waitB = x.waitB := by intro; rfl) : (s.safe'
        f).Kept p :=
  kept_safe_upd f h (fun x hx => (kt x).symm ▸ hx) (fun x hx => (ka x).symm ▸ hx) fun x hx => (kb x).symm ▸ hx

/-! ## Access -/

theorem fabricGrant {who : Actor} {rivals : List FabReq} (h : s.Kept p) : (s.fabricGrant who rivals).Kept p :=
  h.chip_upd.when (fun _ h1 => h1.emit)

theorem stageDone {k : ℕ} (h : s.Kept p) : (s.stageDone k).Kept p := h.set

theorem accRecord {code a : ℕ} (h : s.Kept p) : (s.accRecord code a).Kept p := h.err

theorem accError {code a : ℕ} (h : s.Kept p) : (s.accError code a).Kept p :=
  h.accRecord.set.when (fun _ h1 => h1.regionIrq)

theorem gateAbort {who : Actor} {a : Nat} {write : Bool} (h : s.Kept p) : (s.gateAbort who a write).Kept p := by
  have hrec : ((s.accRecord ACC_GATE_ABORT a).count 0 Src.CHIP_GATE_ABORT 0 1).Kept p := h.accRecord.count
  unfold State.gateAbort accessEnd
  dsimp only
  split_ifs
  · exact hrec.emit
  · exact hrec
  · exact hrec.emit

theorem writeBy {f : State → Res} {who : Actor} {a : Nat} (h : s.Kept p) (k : Res.Kept p (f s)) :
    Res.Kept p (s.writeBy who a f) :=
  h.ok.ite (h.gateAbort.ok.ite k)

theorem readBy {f : State → Res} {who : Actor} {a : Nat} (h : s.Kept p) (k : Res.Kept p (f s)) :
    Res.Kept p (s.readBy who a f) :=
  h.ok.ite (h.gateAbort.ok.ite k)

theorem writeRow {f : State → Res} {a : Nat} (h : s.Kept p) (k : Res.Kept p (f s)) : Res.Kept p (s.writeRow a f) :=
  h.ok.ite (h.gateAbort.ok.ite k)

theorem showStale (h : s.Kept p) : s.showStale.Kept p := h.setBit

theorem stage {a : Nat} {v : Word} (h : s.Kept p) : (s.stage a v).Kept p :=
  (h.io_upd fun _ k => by exact
    ⟨k.regs, canonical_wr a _ k.sketch, k.wide, k.fifo, k.held, k.fires⟩).chip_upd.bump.showStale

/-! ## Operands -/

theorem setG {e i : ℕ} {v : Word} (h : s.Kept p) : (s.setG e i v).Kept p := h.ite h.set

theorem setT {e i : ℕ} {v : Wide} (h : s.Kept p) : (s.setT e i v).Kept p := h.set.set

theorem setP {e i : ℕ} {b : Bool} (h : s.Kept p) : (s.setP e i b).Kept p := h.ite h.setBit

/-! ## Easel -/

theorem easel_upd {e : ℕ} {f : Easel → Easel} (h : s.Kept p) : (s.easel' e f).Kept p := h.scan_upd

theorem setPc {e n : ℕ} (h : s.Kept p) : (s.setPc e n).Kept p := h.set

theorem nextPc {e : ℕ} (h : s.Kept p) : (s.nextPc e).Kept p := h.setPc

theorem wdogRestart {e : ℕ} (h : s.Kept p) : (s.wdogRestart e).Kept p := h.easel_upd

theorem halt {e : ℕ} (h : s.Kept p) : (s.halt e).Kept p := h.set.easel_upd

theorem haltIrq {e : ℕ} (h : s.Kept p) : (s.haltIrq e).Kept p := h.when (fun _ h1 => h1.irq)

theorem run {e : ℕ} (h : s.Kept p) : (s.run e).Kept p := h.set.easel_upd.ite h

theorem doubleFault {e cause fpc : ℕ} (h : s.Kept p) : (s.doubleFault e cause fpc).Kept p := h.halt.set.err.haltIrq

theorem enter {e cause sub : ℕ} {detail : Word} {fpc epc : ℕ} (h : s.Kept p) : (s.enter e cause sub detail fpc epc).Kept p :=
  h.set.set.set.set.set.set.set.setPc.easel_upd.count.when (fun _ h1 => h1.irq)

theorem raise {e cause sub : ℕ} {detail : Word} {fpc epc : ℕ} (h : s.Kept p) : (s.raise e cause sub detail fpc epc).Kept p :=
  h.doubleFault.ite h.enter

theorem raiseHere {e cause sub : ℕ} {detail : Word} (h : s.Kept p) : (s.raiseHere e cause sub detail).Kept p := h.raise

theorem illegal {e : ℕ} {f : Fields} (h : s.Kept p) : (s.illegal e f).Kept p := h.raiseHere

theorem settle {e : ℕ} (h : s.Kept p) : (s.settle e).Kept p := h.halt.ite h

theorem instr {body : State → State} {e : Nat} {f : Fields} {sh : Shape} {range : State → Bool} (h : s.Kept p) (k : ∀ t :
    State, t.Kept p → (body t).Kept p) :
    Res.Kept p (instr e f sh range body s) :=
  h.ok.ite (h.nextPc.settle.ok.ite ((k s h).settle.ok.ite h.illegal.settle.ok))

theorem waitFor {e : ℕ} {w : Wait} (h : s.Kept p) : (s.waitFor e w).Kept p := h.set.easel_upd

theorem complete {e : ℕ} (h : s.Kept p) : (s.complete e).Kept p := h.set.nextPc.easel_upd.settle

theorem sumwaitDone (h : s.Kept p) : s.sumwaitDone.Kept p := by
  exact h.foldl (fun _ _ h1 => (by split; exacts [(h1.complete.ite h1), h1]))

theorem releaseSig {n : ℕ} (h : s.Kept p) : (s.releaseSig n).Kept p := by
  refine Kept.ite ?_ h
  split
  · exact h.set.complete
  · exact h

theorem setSig {n : ℕ} (h : s.Kept p) : (s.setSig n).Kept p := h.set.releaseSig

theorem setSigs {mask : ℕ} (h : s.Kept p) : (s.setSigs mask).Kept p := h.foldl (fun _ _ h1 => (h1.setSig.ite h1))

/-! ## TimeBase -/

theorem showWarm (h : s.Kept p) : s.showWarm.Kept p := h.setBit.setBit.setBit.setBit

theorem setWarm (h : s.Kept p) : s.setWarm.Kept p := (h.ite h.count).set.tbas_upd.showWarm

theorem execTbWarmClear (h : s.Kept p) : Res.Kept p (execTbWarmClear s) :=
  (h.showWarm.set.tbas_upd (by intro; split <;> rfl)).ok.ite h.ok

theorem execTbWarmSet (h : s.Kept p) : Res.Kept p (execTbWarmSet s) := h.setWarm.ok.ite h.ok

theorem heat {duty : ℕ} (h : s.Kept p) : (s.heat duty).Kept p := h.set.emit

theorem ovnFault (h : s.Kept p) : s.ovnFault.Kept p := h.heat.set.setWarm.tbas_upd.err

theorem ovenLaw {ratio : ℕ} (h : s.Kept p) : (s.ovenLaw ratio).Kept p := h.heat.ite h.drawBit.tbas_upd.heat

theorem ovenCount (h : s.Kept p) : s.ovenCount.Kept p := h.tbas_upd.setBit.set.showWarm

theorem execOvnSat (h : s.Kept p) : Res.Kept p (execOvnSat s) := h.set.tbas_upd.err.ok.ite h.ok

theorem execOvnFaultClear {who : Actor} (h : s.Kept p) : Res.Kept p (execOvnFaultClear who s) :=
  h.writeBy (h.set.tbas_upd (by intro; split <;> rfl)).ok

theorem ptmFail (h : s.Kept p) : s.ptmFail.Kept p := h.tbas_upd.count.set.tbas_upd.showWarm.ite h.tbas_upd.count.showWarm

theorem execPtmDialog (h : s.Kept p) : Res.Kept p (execPtmDialog s) :=
  (h.reach.tbas_upd.ptmFail.ok.ite h.ok).ite (h.ok.ite h.reach.tbas_upd.emit.ok)

theorem steer (h : s.Kept p) : s.steer.Kept p := by
  unfold State.steer
  dsimp only
  exact h.drawNat.set.tbas_upd.ite h

theorem judgeRate (h : s.Kept p) : s.judgeRate.Kept p := by
  unfold State.judgeRate
  dsimp only
  exact h.tbas_upd

theorem execPtmDialogEnd {good : Bool} {t1 t4 host : Wide} {turn : Word} (h : s.Kept p) :
    Res.Kept p (execPtmDialogEnd good t1 t4 host turn s) := by
  have hfit := (h.drawBit.drawWord.tbas_bounded (f := fun b =>
    { b with ptmBusy := false, ptmFails := 0, ptm := (ptmSample t1 t4 host turn :: s.tbas.ptm).take 16
             rate := clampS 32 (ptmFit ((ptmSample t1 t4 host turn :: s.tbas.ptm).take 16) (ptmSample t1 t4 host turn)
               s.drawBit.1 (Machine.signed 32 s.drawBit.2.drawWord.1.toNat)).1 })
    fun _ _ => List.length_take_le _ _)
  exact h.ok.ite (hfit.setWide.setWide.bump.set.count.judgeRate.steer.showWarm.ok.ite h.ptmFail.ok)

theorem execPtmDisagree (h : s.Kept p) : Res.Kept p (execPtmDisagree s) := by
  unfold Machine.execPtmDisagree
  split
  · exact h.set.err.showWarm.ok.ite h.ok
  · exact h.ok

theorem execPtmDisagreeClear {who : Actor} (h : s.Kept p) : Res.Kept p (execPtmDisagreeClear who s) :=
  h.writeBy h.set.tbas_upd.showWarm.ok

theorem startCount (h : s.Kept p) : (s.startCount).Kept p := by
  have hera : ∀ (b : Tbas) n, (b.storeEra n).ptm = b.ptm := fun b n => by unfold Tbas.storeEra; dsimp only; split <;> rfl
  have hcount := ((h.tbas_upd (f := fun b =>
    { b.storeEra (min (s.tbas.bestEra + 1) eraMax) with running := true, lost := false, warmLog := [] }) fun b => hera b
        _).set
      (f := Fd.TBAS_ERA_ERA) (v := min (s.tbas.bestEra + 1) eraMax)).chip_upd (f := fun c => { c with coarse := false })
  unfold State.startCount
  dsimp only
  split
  · exact (hcount.io_upd fun _ k => by exact ⟨k.regs, k.sketch, k.wide, k.fifo, k.held, k.fires⟩).memc_upd.err
  · exact (hcount.io_upd fun _ k => by exact ⟨k.regs, k.sketch, k.wide, k.fifo, k.held, k.fires⟩).memc_upd

theorem prewrap (h : s.Kept p) : (s.prewrap).Kept p :=
  (h.io_upd fun _ k => k.tick _).tbas_upd (by intro; unfold Tbas.storeEra; dsimp only; split <;> rfl)

theorem execEraPrewrap (h : s.Kept p) : Res.Kept p (execEraPrewrap s) := h.prewrap.ok.ite h.ok

theorem wrap (h : s.Kept p) : (s.wrap).Kept p := by
  unfold State.wrap
  exact (h.io_upd fun _ k => by exact ⟨k.regs, k.sketch, k.wide, k.fifo, k.held, k.fires⟩).set.scan_upd.memc_upd

theorem execTickWrap (h : s.Kept p) : Res.Kept p (execTickWrap s) := (h.prewrap.wrap.ite h.wrap).ok.ite h.ok

theorem emission {t : TiuShot} {m : ℕ} {d : ℤ} {miss : Bool} (h : s.Kept p) : (s.emission t m d miss).Kept p :=
  h.scan_upd (by intro; unfold Scan.placeCharge; split <;> rfl) (by intro; unfold Scan.placeCharge; split <;> rfl)

theorem latchBlock {m : ℕ} {b : TiuBlock} (h : s.Kept p) : (s.latchBlock m b).Kept p := h.set.set.set.set.bump.set

theorem setBlock {m : ℕ} {b : TiuBlock} (h : s.Kept p) : (s.setBlock m b).Kept p := h.tbas_upd

theorem measure {m : ℕ} {d : ℤ} (h : s.Kept p) : (s.measure m d).Kept p := h.latchBlock.setBlock.ite h.setBlock

theorem closeStop {m : ℕ} (h : s.Kept p) : (s.closeStop m).Kept p := h.tbas_upd

theorem tiuLast {m : ℕ} {d : ℤ} {diag miss : Bool} (h : s.Kept p) : (s.tiuLast m d diag miss).Kept p := h.set.setBit.setBit

theorem missStop {t : TiuShot} {m : ℕ} (h : s.Kept p) : (s.missStop t m).Kept p :=
  h.closeStop.tiuLast.count.setBlock.emission

theorem closeShot (h : s.Kept p) : s.closeShot.Kept p := by
  unfold State.closeShot
  split
  · exact h
  · exact h.each (fun _ _ h1 => h1.missStop)

theorem startTiu {f : Wide} {line : Word} {idx : ℕ} {diag : Bool} (h : s.Kept p) : (s.startTiu f line idx diag).Kept p :=
  h.closeShot.tbas_upd

theorem execTiuCtlWrite {who : Actor} {v : Word} (h : s.Kept p) : Res.Kept p (execTiuCtlWrite who v s) :=
  h.writeBy (h.err.ok.ite (h.set.tbas_upd (by intro; split <;> rfl)).ok)

/-! ## Ctl -/

theorem execStgWrite {who : Actor} {off : BitVec 32} {v : Word} (h : s.Kept p) : Res.Kept p (execStgWrite who off v s) :=
  h.ok.ite (h.gateAbort.ok.ite (h.accError.ok.ite (h.accError.ok.ite ((h.stage.scan_upd.ite h.stage).ok))))

theorem startProof (h : s.Kept p) : s.startProof.Kept p := h.set.set.set.chip_upd

theorem execProofGo {who : Actor} (h : s.Kept p) : Res.Kept p (execProofGo who s) := h.writeBy h.startProof.ok

theorem pendSwap {v : Wide} {e : ℕ} (h : s.Kept p) : (s.pendSwap v e).Kept p := h.ite h.set.easel_upd.secu_upd

theorem fixCommit {v : Wide} (h : s.Kept p) : (s.fixCommit v).Kept p :=
  h.chip_upd.set.set.set.foldl (fun _ _ h1 => h1.pendSwap)

theorem showPend (h : s.Kept p) : s.showPend.Kept p := h.foldl (fun _ _ h1 => h1.setBit)

theorem acceptCommit {instant eng : Nat} {tick : Wide} (h : s.Kept p) : (s.acceptCommit instant eng tick).Kept p := by
  unfold State.acceptCommit
  extract_lets s1
  have h1 : s1.Kept p := (h.io_upd fun _ k => k.shadow _).chip_upd.set.set.count.showPend.mgmt_upd
  split
  · exact h1.fixCommit
  · exact h1.fixCommit
  · split
    · exact h1.fixCommit
    · exact h1

theorem requestCommit {src instant eng : ℕ} {tick : Wide} (h : s.Kept p) : (s.requestCommit src instant eng tick).Kept p :=
  h.set.set.set.acceptCommit.ite h.set.set.set.set.count

theorem firstProfile (h : s.Kept p) : s.firstProfile.Kept p := h.stageDone.set.ite h

theorem execCommitGo {who : Actor} {both : Bool} (h : s.Kept p) : Res.Kept p (execCommitGo who both s) :=
  h.writeBy ((h.requestCommit.set.firstProfile.count.ite h.requestCommit.set.firstProfile).ok)

theorem cancelCommit (h : s.Kept p) : (s.cancelCommit).Kept p := by
  unfold State.cancelCommit
  refine showPend (set (io_upd h.chip_upd fun x k => ?_))
  refine ⟨k.regs, foldl_keeps (fun m => canonical resetWord m = true) _ (fun m e hm => ?_) _ _ k.sketch, k.wide, k.fifo,
      k.held,
    k.fires⟩
  dsimp only
  split
  · exact hm
  · exact canonical_wr _ _ hm

theorem execCommitAbort {who : Actor} (h : s.Kept p) : Res.Kept p (execCommitAbort who s) :=
  h.writeBy (h.set.cancelCommit.ok.ite (h.set.set.ok.ite h.set.ok))

theorem commitFixedBy {l : LineRec} (h : s.Kept p) : (s.commitFixedBy l).Kept p := h.fixCommit.ite h

theorem hold {r i : ℕ} (h : s.Kept p) : (s.hold r i).Kept p := by
  unfold State.hold
  split
  · exact h.put.put
  · exact h

theorem companions {r i : ℕ} (h : s.Kept p) : (s.companions r i).Kept p := h.set.ite (h.hold.hold.set.ite h)

theorem execSnapGo {who : Actor} (h : s.Kept p) : Res.Kept p (execSnapGo who s) := h.writeBy h.set.chip_upd.ok

theorem execSnapshotTake (h : s.Kept p) : Res.Kept p (execSnapshotTake s) := by
  unfold Machine.execSnapshotTake
  split
  · exact h.ok
  · exact h.ok.ite ((h.reach.foldl (fun _ _ h1 => ((h1.foldl (fun _ _ h2 => h2.hold.companions)).ite
        h1))).set.set.bump.set.chip_upd.ok)

theorem selectWide {who : Actor} {fw : Bool} {r : Fin 19} {idx : BitVec 16} (h : s.Kept p) :
    Res.Kept p (State.selectWide who fw r idx s) :=
  h.accError.ok.ite (h.ok.ite (h.set.set.chip_upd.ok.ite h.set.set.chip_upd.accRecord.ok))

theorem execWideSel {fw : Bool} {r : Fin 19} {idx : BitVec 16} (h : s.Kept p) : Res.Kept p (execWideSel fw r idx s) :=
  h.writeBy h.selectWide

theorem execWideLatch {fw : Bool} {r : Fin 19} (h : s.Kept p) : Res.Kept p (execWideLatch fw r s) :=
  h.ok.ite (h.set.set.set.companions.chip_upd.ok.ite h.ok)

theorem spoilSlot (h : s.Kept p) : s.spoilSlot.Kept p := (h.mgmt_upd (by intro; split <;> rfl)).set

theorem answerAs {past : Bool} {status : ℕ} {payload : List Byte} (h : s.Kept p) : (s.answerAs past status payload).Kept p :=
  h.mgmt_upd (by intro; split <;> rfl)

theorem answer {status : ℕ} {payload : List Byte} (h : s.Kept p) : (s.answer status payload).Kept p := h.answerAs

theorem execMbxGo (h : s.Kept p) : Res.Kept p (execMbxGo s) := h.writeBy (h.set.ok.ite h.set.set.mgmt_upd.ok)

theorem execMbxAbort (h : s.Kept p) : Res.Kept p (execMbxAbort s) :=
  h.writeBy (h.set.ok.ite ((h.set.mgmt_upd.when (fun _ h1 => h1.spoilSlot)).ok))

theorem putRsp {l : List Word} (h : s.Kept p) (k : Nat) : (s.putRsp k l).Kept p :=
  foldl_keeps (fun x : Nat × State => x.2.Kept p) _ (fun _ _ hx => hx.set) l (k, s) h

theorem publish {r : Reply} (h : s.Kept p) : (s.publish r).Kept p := (h.putRsp _).mgmt_upd.set.set.irq

theorem execMbxResponse (h : s.Kept p) : Res.Kept p (execMbxResponse s) := by
  refine Res.Kept.ite ?_ h.ok
  split
  · exact h.publish.ok
  · exact h.ok

/-! ## LaneTx -/

theorem lane_upd {l : ℕ} {f : Lane → Lane} (h : s.Kept p) : (s.lane' l f).Kept p := h.lnk_upd

theorem fillIdle {l : ℕ} (h : s.Kept p) : (s.fillIdle l).Kept p := h.ite h.drawWord.drawWord.emit.lane_upd

theorem txBlocks {l : ℕ} {blocks : List (ℕ × Wide)} (h : s.Kept p) : (s.txBlocks l blocks).Kept p :=
  h.ite h.fillIdle.emit.lane_upd

theorem preamble {l : ℕ} {enable : Bool} (h : s.Kept p) : (s.preamble l enable).Kept p := h.ite h.emit.lane_upd

theorem loopedBlock {l : Nat} (h : s.Kept p) : (s.loopedBlock l).2.Kept p := by
  unfold State.loopedBlock
  dsimp only
  split
  all_goals
    dsimp only
    exact h.lane_upd

/-! ## TileMsg -/

theorem port_upd {t : ℕ} {f : TilePort → TilePort} (h : s.Kept p) : (s.port' t f).Kept p := h.lnk_upd

theorem txPeriod {t : ℕ} {blocks : List (ℕ × Wide)} (h : s.Kept p) : (s.txPeriod t blocks).Kept p :=
  h.ite ((h.foldl (fun _ _ h1 => h1.txBlocks)).port_upd)

theorem sendMarker {t : ℕ} (h : s.Kept p) : (s.sendMarker t).Kept p := by
  unfold State.sendMarker
  dsimp only
  exact (h.each (fun _ _ h1 => h1.txBlocks)).set.emit.port_upd

theorem txStream {t : ℕ} {blocks : List (ℕ × Wide)} (h : s.Kept p) : (s.txStream t blocks).Kept p :=
  h.txPeriod.ite h.txPeriod.sendMarker.txPeriod

theorem txSlotOn {t l : ℕ} {b : ℕ × Wide} (h : s.Kept p) : (s.txSlotOn t l b).Kept p := by
  have hmark : (if s.streamLeft t < 4 then s.sendMarker t else s).Kept p := h.sendMarker.ite h
  unfold State.txSlotOn
  dsimp only
  split
  · exact hmark.txBlocks
  · exact hmark.txBlocks.port_upd

theorem sendTile {t mtype hdata : ℕ} {payload : List Wide} (h : s.Kept p) : (s.sendTile t mtype hdata payload).Kept p :=
  h.txStream.emit.port_upd

theorem lineSelect {l : LineRec} (h : s.Kept p) : (s.lineSelect l).Kept p :=
  h.foldl (fun _ _ h1 => h1.sendTile.port_upd.scan_upd)

theorem trainMsg {l : LineRec} {fires : List Wide} (h : s.Kept p) : (s.trainMsg l fires).Kept p := by
  unfold State.trainMsg
  split
  · exact h
  · exact h.foldl (fun _ _ h1 => h1.sendTile)

theorem zoomGate {l : LineRec} {z : Zoom} (h : s.Kept p) : (s.zoomGate l z).Kept p :=
  h.foldl (fun _ _ h1 => (h1.sendTile.ite h1))

theorem ambientSet {t : ℕ} {x : Wide} (h : s.Kept p) : (s.ambientSet t x).Kept p := h.sendTile

theorem ambientDue {t : ℕ} (h : s.Kept p) : (s.ambientDue t).Kept p := by
  unfold State.ambientDue
  split
  · exact h.ambientSet.port_upd
  · exact h

/-! ## Ledger -/

theorem showRemain {g : ℕ} (h : s.Kept p) : (s.showRemain g).Kept p := h.foldl (fun _ _ h1 => h1.set)

theorem chargeShot {l : LineRec} {idx g : ℕ} {t : Wide} (h : s.Kept p) : (s.chargeShot l idx g t).Kept p :=
  h.scan_upd.showRemain

theorem pruneCharges (h : s.Kept p) : s.pruneCharges.Kept p := h.scan_upd

/-! ## Arbiter -/

theorem showQueues (h : s.Kept p) : s.showQueues.Kept p := h.set.set

theorem queueAct {a : Machine.Action} (h : s.Kept p) : (s.queueAct a).Kept p := h.scan_upd.showQueues

theorem admitted {e : ℕ} {t : Wide} (h : s.Kept p) : (s.admitted e t).Kept p := h.easel_upd.wdogRestart

theorem report {e : ℕ} {p0 : Port} {w : Word} {toGd ok : Bool} (h : s.Kept p) : (s.report e p0 w toGd ok).Kept p :=
  h.easel_upd.setP.when (fun _ h1 => h1.setG)

theorem completeWith {e cause sub : ℕ} {detail : Word} (h : s.Kept p) : (s.completeWith e cause sub detail).Kept p :=
  h.easel_upd.set.raise.settle.ite h.count.complete

theorem refuse {e sub : ℕ} {p0 : Port} {toGd : Bool} {code : ℕ} {detail : Word} (h : s.Kept p) :
    (s.refuse e sub p0 toGd code detail).Kept p :=
  h.count.report.completeWith

theorem grant {e : ℕ} {p0 : Port} {w : Word} {toGd : Bool} (h : s.Kept p) : (s.grant e p0 w toGd).Kept p := h.report.complete

theorem admitLine {e desc : Nat} {t : Wide} {d : Nat} {frame : Bool} {lmode : Nat} (h : s.Kept p) :
    (s.admitLine e desc t d frame lmode).1.Kept p :=
  ((h.bump.when fun _ h1 => h1.bump).scan_upd.queueAct.easel_upd.admitted.count.foldl fun _ _ h1 => h1.port_upd.ite
      h1).commitFixedBy.lineSelect.each fun _ _ h1 => h1.ambientDue

theorem takeLine {e : ℕ} {p0 : Port} {desc : ℕ} {t : Wide} {d : ℕ} {frame : Bool} {lmode : ℕ} (h : s.Kept p) :
    (s.takeLine e p0 desc t d frame lmode).Kept p :=
  h.refuse.ite (h.refuse.ite (h.refuse.ite h.admitLine.setG.grant))

theorem takeShot {x : State × List Wide × Nat} {e : Nat} {q : Word} {g : Nat} {listen : Bool} {f0 f : Wide} (h : x.1.Kept
    p) :
    (State.takeShot e q g listen f0 x f).1.Kept p := by
  unfold State.takeShot
  dsimp only
  split
  · exact h
  · split
    · exact (h.scan_upd.ite h.scan_upd.chargeShot).count
    · exact h.count

theorem admitShots {e : Nat} {q : Port} {l : LineRec} {listen : Bool} {fires : List Wide} {code : Nat} (h : s.Kept p) :
    (s.admitShots e q l listen fires code).Kept p := by
  have hx : ∀ g, (fires.foldl (State.takeShot e l.seq g listen (fires.headD 0)) (s, [], 0)).1.Kept p := fun _ =>
    foldl_keeps (fun x : State × List Wide × Nat => x.1.Kept p) _ (fun _ _ hx => hx.takeShot) fires (s, [], 0) h
  unfold State.admitShots
  dsimp only
  refine Kept.ite (trainMsg ?_).report.complete (trainMsg ?_).report.completeWith
  all_goals split
  case h_1 => exact (hx _).scan_upd.showQueues.admitted
  case h_2 => exact (hx _).scan_upd.showQueues
  case h_1 => exact (hx _).scan_upd.showQueues.admitted
  case h_2 => exact (hx _).scan_upd.showQueues

theorem takeSingle {e : ℕ} {p0 : Port} {t : Wide} (h : s.Kept p) : (s.takeSingle e p0 t).Kept p := by
  unfold State.takeSingle
  split
  · exact h.refuse
  · exact h.admitShots
  · exact h

theorem takeTrain {e : ℕ} {p0 : Port} {t : Wide} {len : ℕ} {key deflt listen : Bool} {code : ℕ} (h : s.Kept p) :
    (s.takeTrain e p0 t len key deflt listen code).Kept p := by
  unfold State.takeTrain
  split
  · exact h.refuse
  · refine h.report.completeWith.ite ?_
    dsimp only
    split
    · exact h.refuse
    · exact h.scan_upd.admitShots

theorem takeAct {e : ℕ} {p0 : Port} {t : Wide} {a : Act} (h : s.Kept p) : (s.takeAct e p0 t a).Kept p := by
  unfold State.takeAct
  split
  · exact h.refuse
  · exact h.queueAct.admitted.grant
  · exact h

theorem takeSetting {post : LineRec → State → State} {e : Nat} {q : Port} {a : Act} {f : LineRec → LineRec} (h : s.Kept p)
    (k : ∀ (l : LineRec) (t : State), t.Kept p → (post l t).Kept p) :
    (s.takeSetting e q a f post).Kept p := by
  unfold State.takeSetting
  split
  · exact h.refuse
  · exact h.refuse
  · exact (k _ _ h.queueAct.admitted.scan_upd).grant
  · exact h

theorem take {e : ℕ} {p0 : Port} (h : s.Kept p) : (s.take e p0).Kept p := by
  unfold State.take
  split
  · exact h.takeLine
  · exact h.takeSingle
  · exact h.takeTrain
  · exact h.takeAct
  · exact h.takeSetting (fun _ _ h1 => h1)
  · exact h.takeSetting (fun _ _ h1 => h1.zoomGate)
  · exact h.takeAct
  · exact h.takeSetting (fun _ _ h1 => h1)

theorem holdBack {e : ℕ} (h : s.Kept p) : (s.holdBack e).Kept p := by
  unfold State.holdBack
  split
  · exact h.ite h.count.easel_upd
  · exact h

theorem execArbiterRequest (h : s.Kept p) : Res.Kept p (execArbiterRequest s) := by
  have hback := h.each (l := easelList.filter s.cannotEnter) (f := State.holdBack) fun _ _ h1 => h1.holdBack
  refine h.ok.ite ?_
  dsimp only
  split
  · exact hback.ok
  · split
    · exact hback.ok
    · exact hback.scan_upd.take.ok

/-! ## Islands -/

theorem showClkout (h : s.Kept p) : s.showClkout.Kept p := h.ite h.chip_upd.emit

theorem showIslands (h : s.Kept p) : s.showIslands.Kept p := h.set.set.showClkout

theorem setTck {on : Bool} (h : s.Kept p) : (s.setTck on).Kept p := h.ite h.chip_upd.showIslands

/-! ## Lsup -/

theorem switchLsup {run : Bool} (h : s.Kept p) : (s.switchLsup run).Kept p :=
  h.setBit.emit_upd.emitPin.when (fun _ h1 => h1.emitPin)

theorem showLsup (h : s.Kept p) : s.showLsup.Kept p :=
  (h.when (fun _ h1 => h1.set.emit_upd)).ite ((h.when (fun _ h1 => h1.set.emit_upd)).switchLsup)

/-! ## SafeOps -/

theorem statusDue (h : s.Kept p) : s.statusDue.Kept p := h.safe_upd

theorem setSafeSt {n : ℕ} (h : s.Kept p) : (s.setSafeSt n).Kept p := (h.set.set.when (fun _ h1 => h1.set)).statusDue

theorem driveHs (h : s.Kept p) : s.driveHs.Kept p := h.setBit.setBit

theorem driveLs (h : s.Kept p) : s.driveLs.Kept p := h.setBit.setBit

theorem switched (h : s.Kept p) : s.switched.Kept p := (h.when (fun _ h1 => h1.set)).emit.showLsup

theorem drive (h : s.Kept p) : s.drive.Kept p := (h.when (fun _ h1 => h1.driveHs)).driveLs.switched

theorem driveFault {b : Bool} (h : s.Kept p) : (s.driveFault b).Kept p := h.setBit.emit

theorem enterStopped (h : s.Kept p) : s.enterStopped.Kept p := h.setSafeSt.safe_upd.drive.driveFault

theorem causeRecord {b code : ℕ} (h : s.Kept p) : (s.causeRecord b code).Kept p := h.ite h.err

theorem enterSafe {b : ℕ} (h : s.Kept p) : (s.enterSafe b).Kept p :=
  h.setSafeSt.set.bumpSat.setWide.setWide.safe_upd.drive.driveFault.count

theorem causeWith {b code : ℕ} (h : s.Kept p) : (s.causeWith b code).Kept p :=
  ((h.set.set.when (fun _ h1 => h1.causeRecord)).statusDue.safe_upd.ite ((h.set.set.when (fun _ h1 =>
      h1.causeRecord)).statusDue)).ite (((h.set.set.when (fun _ h1 => h1.causeRecord)).statusDue.safe_upd.ite
      ((h.set.set.when (fun _ h1 => h1.causeRecord)).statusDue)).enterSafe)

theorem cause {b : ℕ} (h : s.Kept p) : (s.cause b).Kept p := h.causeWith

theorem clearCause {b : ℕ} (h : s.Kept p) : (s.clearCause b).Kept p :=
  (h.set.set.set.set.ite (h.set.set.set.drive.ite h.set)).ite h

theorem violation {stray : Bool} {grp win : ℕ} (h : s.Kept p) : (s.violation stray grp win).Kept p :=
  (h.ite h.set.setBit.set.set).count.scan_upd.cause

theorem countDiscard {chanB : Bool} {why : ℕ} (h : s.Kept p) : (s.countDiscard chanB why).Kept p := by
  unfold State.countDiscard
  split
  · exact h.bumpSat
  · exact h.bumpSat
  · exact h.bumpSat.count
  · exact h

theorem countUnpaired (h : s.Kept p) : s.countUnpaired.Kept p := h.bumpSat.count

theorem acceptPair {src : ℕ} {seq : Word} {stamp : Wide} (h : s.Kept p) : (s.acceptPair src seq stamp).Kept p :=
  h.bump.safe_upd.set.safe_upd.ite h.bump.safe_upd

theorem takeZset {z : ℕ} (h : s.Kept p) : (s.takeZset z).Kept p := h.ite h.set.safe_upd

theorem permitActs {permit : Bool} {zset : ℕ} {t : Wide} (h : s.Kept p) : (s.permitActs permit zset t).Kept p :=
  (h.takeZset.setSafeSt.safe_upd.ite h).ite ((h.takeZset.safe_upd.ite h.enterStopped).ite h)

theorem actPermit {permit : Bool} {zset : ℕ} (h : s.Kept p) : (s.actPermit permit zset).Kept p :=
  h.ite ((h.mgmt_upd.when (fun _ h1 => h1.safe_upd)).ite h.permitActs)

theorem actStop (h : s.Kept p) : s.actStop.Kept p :=
  (h.safe_upd.when (fun _ h1 => h1.mgmt_upd)).enterStopped.ite (h.safe_upd.when (fun _ h1 => h1.mgmt_upd))

theorem actMessage {p0 : Pdu} (h : s.Kept p) : (s.actMessage p0).Kept p := h.actPermit.ite (h.actStop.ite h.bumpSat)

theorem receiveCopy {chanB : Bool} {p0 : Pdu} (h : s.Kept p) : (s.receiveCopy chanB p0).Kept p := by
  have hA := h.waitA
  have hB := h.waitB
  unfold State.receiveCopy
  refine h.countDiscard.ite ?_
  dsimp only
  split
  case h_1 q _ =>
    have hrest : ∀ l : List Copy, l.length ≤ 4 → (l.erase q).length ≤ 4 := fun l hl => List.length_erase_le.trans hl
    have htaken : (s.safe' fun x => if chanB then { x with waitA := (if chanB then s.safe.waitA else s.safe.waitB).erase q }
        else { x with waitB := (if chanB then s.safe.waitA else s.safe.waitB).erase q }).Kept p := by
      refine h.safe_bounded ?_ ?_ ?_
      all_goals
        intro x hx
        cases chanB
      case refine_2.true => exact hrest _ hA
      case refine_3.false => exact hrest _ hB
      all_goals exact hx
    exact htaken.acceptPair.actMessage.ite htaken.cause
  case h_2 =>
    have hroom : ∀ l : List Copy, l.length ≤ 4 → ∀ c,
        ((if decide (4 ≤ l.length) then l.drop 1 else l) ++ [c]).length ≤ 4 := fun l hl c => by
      rw [List.length_append, List.length_singleton]
      by_cases hfull : 4 ≤ l.length
      · simp only [hfull, decide_true, if_true, List.length_drop]
        omega
      · simp only [hfull, decide_false, Bool.false_eq_true, if_false]
        omega
    refine (h.when fun _ h1 => h1.countUnpaired).safe_bounded ?_ ?_ ?_
    all_goals
      intro x hx
      cases chanB
    case refine_2.false => exact hroom _ hA _
    case refine_3.true => exact hroom _ hB _
    all_goals exact hx

theorem showTx (h : s.Kept p) : s.showTx.Kept p := (h.each (fun _ _ h1 => h1.set)).set

theorem postStatus {p0 : Pdu} (h : s.Kept p) : (s.postStatus p0).Kept p := by
  have hroom : ((if decide (4 ≤ s.safe.smTx.length) then s.safe.smTx.drop 1 else s.safe.smTx) ++ [p0]).length ≤ 4 := by
    have := h.smTx
    rw [List.length_append, List.length_singleton]
    by_cases hfull : 4 ≤ s.safe.smTx.length
    · simp only [hfull, decide_true, if_true, List.length_drop]
      omega
    · simp only [hfull, decide_false, Bool.false_eq_true, if_false]
      omega
  unfold State.postStatus
  dsimp only
  exact ((h.safe_bounded (by intro _ _; exact hroom) (by intro _ hx; exact hx) (by intro _ hx; exact hx)).when fun _ h1 =>
    h1.set).showTx.when fun _ h1 => h1.irq

theorem canGoodRx (h : s.Kept p) : s.canGoodRx.Kept p := by
  unfold State.canGoodRx
  dsimp only
  exact h.drawNat.set.ite h.set

theorem canGoodTx (h : s.Kept p) : s.canGoodTx.Kept p := h.set

theorem sendCan {p0 : Pdu} (h : s.Kept p) : (s.sendCan p0).Kept p := h.ite h.emit.canGoodTx

theorem zones_upd {chanB : Bool} {c : ZoneChan} (h : s.Kept p) : (s.zones' chanB c).Kept p :=
  h.safe_upd (by intro; split <;> rfl) (by intro; split <;> rfl) (by intro; split <;> rfl)

theorem showAlarms (h : s.Kept p) : s.showAlarms.Kept p := h.ite h.set.statusDue

theorem zoneItem {chanB : Bool} {i : ZoneItem} (h : s.Kept p) : (State.zoneItem chanB s i).Kept p := by
  unfold State.zoneItem
  dsimp only
  split
  · exact h.zones_upd
  · exact h.zones_upd
  · split
    · exact h.zones_upd
    · exact h.ite h.zones_upd.safe_upd.showAlarms

theorem zoneBoth {i : ZoneItem} (h : s.Kept p) : (s.zoneBoth i).Kept p := h.zoneItem.zoneItem.ite h.zoneItem.safe_upd

theorem zoneEntry {slot : ℕ} {frame : Word} {sector near line : ℕ} {degraded : Bool} (h : s.Kept p) :
    (s.zoneEntry slot frame sector near line degraded).Kept p :=
  h.safe_upd.zoneBoth

theorem zoneClose {frame : Word} (h : s.Kept p) : (s.zoneClose frame).Kept p := h.zoneBoth

theorem takePdu (h : s.Kept p) : s.takePdu.Kept p := h.set.set.receiveCopy

theorem startA (h : s.Kept p) : s.startA.Kept p :=
  ((h.ite h.set.driveHs.switched).foldl (fun _ _ h1 => h1.zoneItem)).safe_upd.when (fun _ h1 => h1.takePdu)

/-! ## HostOps -/

theorem clockReach {t : Wide} (h : s.Kept p) : (s.clockReach t).Kept p := h.reach.ite h

theorem ring_upd {r : ℕ} {f : Machine.Ring → Machine.Ring} (h : s.Kept p) : (s.ring' r f).Kept p := h.host_upd

theorem showFetched {r : ℕ} (h : s.Kept p) : (s.showFetched r).Kept p := h.set

theorem postBack {r : ℕ} {addr : Wide} {b : List Byte} (h : s.Kept p) : (s.postBack r addr b).Kept p := h.post

theorem postData {r : ℕ} {addr : Wide} {b : List Byte} (h : s.Kept p) : (s.postData r addr b).Kept p := h.post

theorem statusBlock {r : ℕ} (h : s.Kept p) : (s.statusBlock r).Kept p := h.postBack

theorem moderate {r : ℕ} (h : s.Kept p) : (s.moderate r).Kept p := h.ring_upd.irq.ite h.ring_upd

theorem closeBuffer {r why : ℕ} (h : s.Kept p) : (s.closeBuffer r why).Kept p := by
  unfold State.closeBuffer
  dsimp only
  split
  · exact h
  · exact h.ite h.postBack.set.set.ring_upd.showFetched.statusBlock.count.moderate

theorem dropItem {r : ℕ} (h : s.Kept p) : (s.dropItem r).Kept p := h.ring_upd.count

theorem tooBig {r : ℕ} (h : s.Kept p) : (s.tooBig r).Kept p := h.set.err.count.dropItem

theorem enterRecord {r : ℕ} {first : Bool} {b : List Byte} (h : s.Kept p) : (s.enterRecord r first b).Kept p := by
  unfold State.enterRecord
  dsimp only
  exact h.postData.ring_upd

theorem putRecord {r : Nat} {first : Bool} {b : List Byte} (h : s.Kept p) : (s.putRecord r first b).1.Kept p := by
  have hclose : (s.closeBuffer r stFULL).Kept p := h.closeBuffer
  unfold State.putRecord
  dsimp only
  split
  · exact h
  · split
    · exact h.enterRecord
    · split
      · exact hclose
      · split
        · exact hclose.enterRecord
        · exact hclose.tooBig

theorem putItem {r : Nat} {recs : List (List Byte)} (h : s.Kept p) : (s.putItem r recs).Kept p :=
  foldl_keeps (fun x : Bool × State => x.2.Kept p) _ (fun _ _ hx => hx.putRecord) recs (true, s) h

theorem stopRing {r cause code : ℕ} (h : s.Kept p) : (s.stopRing r cause code).Kept p :=
  h.ring_upd.set.set.showFetched.err.statusBlock.count.irq

theorem hexDrop {c : ℕ} (h : s.Kept p) : (s.hexDrop c).Kept p := h.set.count

theorem showStage (h : s.Kept p) : s.showStage.Kept p := h.set

theorem fillTokens (h : s.Kept p) : s.fillTokens.Kept p := by
  unfold State.fillTokens
  dsimp only
  exact h.host_upd

theorem placeExport {x : Staged} (h : s.Kept p) : (s.placeExport x).Kept p :=
  (h.putRecord.hexDrop.ite h.putRecord).ite h.dropItem.hexDrop

theorem exportOne (h : s.Kept p) : s.exportOne.Kept p := by
  unfold State.exportOne
  split
  · exact h
  · exact h.ite h.host_upd.placeExport

theorem drainStage (h : s.Kept p) : s.drainStage.Kept p := (h.fillTokens.each (fun _ _ h1 => h1.exportOne)).showStage

theorem drainAll (h : s.Kept p) : s.drainAll.Kept p := (h.host_upd.foldl (fun _ _ h1 => h1.placeExport)).showStage

theorem stageRecord {x : Staged} (h : s.Kept p) : (s.stageRecord x).Kept p := h.host_upd.drainStage.ite h.dropItem.hexDrop

theorem doeInterrupt (h : s.Kept p) : s.doeInterrupt.Kept p := h.when (fun _ h1 => h1.set.irq)

theorem orphanRequest (h : s.Kept p) : s.orphanRequest.Kept p := by
  unfold State.orphanRequest
  dsimp only
  exact h.mgmt_upd

theorem resetHost (h : s.Kept p) : (s.resetHost).Kept p := by
  unfold State.resetHost
  dsimp only
  refine showWarm (tbas_upd (safe_bounded (host_upd (io_upd h.orphanRequest fun _ k => ?_))
    (by intro _ _; exact Nat.zero_le _) (by intro _ hx; exact hx) (by intro _ hx; exact hx)))
  have kr := (k.resetRange 0x01A00000 0x01C00000 [Fd.HOST_LINK_DOWNS_COUNT.off]).resetRange 0x04000000 0x06020000 []
  exact ⟨kr.regs, kr.sketch, canonical_filter _ kr.wide, kr.fifo, rfl, kr.fires⟩

/-! ## Taps -/

theorem capTo {n : ℕ} (h : s.Kept p) : (s.capTo n).Kept p := h.set

theorem capGap (h : s.Kept p) : s.capGap.Kept p := h.set.memc_upd

theorem intoFifo {x : Sample} (h : s.Kept p) : (s.intoFifo x).Kept p := h.capGap.ite h.memc_upd

theorem taps {stream : ℕ} {mine : Bool} {l : List Sample} (h : s.Kept p) : (s.taps stream mine l).Kept p :=
  (h.each (fun _ _ h1 => h1.intoFifo)).ite h

theorem tapEye {l errs : ℕ} {abort : Bool} (h : s.Kept p) : (s.tapEye l errs abort).Kept p := h.taps

theorem tapEvent {t chan typ : ℕ} {x : ℤ} (h : s.Kept p) : (s.tapEvent t chan typ x).Kept p := h.taps

theorem tapHist {sec c seq : ℕ} {label : Wide} {bins : List ℕ} (h : s.Kept p) : (s.tapHist sec c seq label bins).Kept p :=
  h.taps

theorem tapMonitor {tap k v : ℕ} {unset : Bool} {aligned : Wide} (h : s.Kept p) :
    (s.tapMonitor tap k v unset aligned).Kept p :=
  h.taps

theorem tapHk {entry result slice : ℕ} {start : Wide} (h : s.Kept p) : (s.tapHk entry result slice start).Kept p := h.taps

/-! ## LinkOps -/

theorem setLane {l n : ℕ} (h : s.Kept p) : (s.setLane l n).Kept p := h.set

theorem countTile {t src n : ℕ} (h : s.Kept p) : (s.countTile t src n).Kept p := h.count

theorem countLane {l src n : ℕ} (h : s.Kept p) : (s.countLane l src n).Kept p := h.count

theorem laneRecord {l code : ℕ} (h : s.Kept p) : (s.laneRecord l code).Kept p := h.err

theorem tileRecord {t code level : ℕ} {warning : Bool} (h : s.Kept p) : (s.tileRecord t code level warning).Kept p := h.err

theorem setFrozen {l : ℕ} {b : Bool} (h : s.Kept p) : (s.setFrozen l b).Kept p := h.setBit

theorem freeze {l : ℕ} (h : s.Kept p) : (s.freeze l).Kept p := h.setFrozen

theorem startValues {l : ℕ} (h : s.Kept p) : (s.startValues l).Kept p := h.set.set.set.set.set.set.lane_upd

theorem holdCtle {l : ℕ} (h : s.Kept p) : (s.holdCtle l).Kept p := h.ite h.set.lane_upd

theorem leaveLock {l : ℕ} (h : s.Kept p) : (s.leaveLock l).Kept p := h.set.when (fun _ h1 => h1.set.set.tapEye)

theorem retrain {l : ℕ} (h : s.Kept p) : (s.retrain l).Kept p := h.leaveLock.startValues.setLane.set.set.lane_upd.setFrozen

theorem setGen {t g : ℕ} (h : s.Kept p) : (s.setGen t g).Kept p := h.each (fun _ _ h1 => h1.set)

theorem enterLanes {t : ℕ} (h : s.Kept p) : (s.enterLanes t).Kept p := by
  unfold State.enterLanes
  dsimp only
  exact (h.each (fun _ _ h1 => h1.retrain)).setGen.set.set.set.set.set.set.port_upd

theorem showBringUp (h : s.Kept p) : s.showBringUp.Kept p := h.when (fun _ h1 => h1.stageDone)

theorem portFailed {t : ℕ} (h : s.Kept p) : (s.portFailed t).Kept p := h.ite h.set.set.tileRecord.showBringUp

theorem relink {t : ℕ} (h : s.Kept p) : (s.relink t).Kept p :=
  h.ite (h.enterLanes.ite (h.port_upd.portFailed.ite h.port_upd.enterLanes))

theorem enterRun {t : ℕ} (h : s.Kept p) : (s.enterRun t).Kept p := h.set.port_upd.showBringUp

theorem enterPhase {t : ℕ} (h : s.Kept p) : (s.enterPhase t).Kept p := h.set.set.port_upd

theorem tryBond {t : ℕ} (h : s.Kept p) : (s.tryBond t).Kept p := h.set.set.set.port_upd.ite h

theorem laneLocked {l : ℕ} (h : s.Kept p) : (s.laneLocked l).Kept p := h.set.port_upd.tryBond

theorem txSleep {l : ℕ} (h : s.Kept p) : (s.txSleep l).Kept p := h.txBlocks.set.emit.lane_upd

theorem txWake {l : ℕ} (h : s.Kept p) : (s.txWake l).Kept p :=
  h.set.emit.lane_upd.preamble.enterPhase.ite h.set.emit.lane_upd.preamble

theorem releaseLanes (h : s.Kept p) : s.releaseLanes.Kept p :=
  h.each (fun _ _ h1 => ((h1.port_upd.enterLanes.each (fun _ _ h2 => (h2.when (fun _ h3 => h3.lane_upd.txWake)))).ite h1))

theorem railUp {rail : Rail} (h : s.Kept p) : (s.railUp rail).Kept p := by
  unfold State.railUp
  split
  · exact h
  · exact h.ite (h.chip_upd.when (fun _ h1 => h1.releaseLanes))
  · exact h.chip_upd
  · exact h.chip_upd
  · exact h.chip_upd

theorem railRead {input result : ℕ} (h : s.Kept p) : (s.railRead input result).Kept p :=
  h.ite (((((h.chip_upd.when (fun _ h1 => h1.railUp)).when (fun _ h1 => h1.railUp)).when (fun _ h1 => h1.railUp)).when (fun
      _ h1 => h1.railUp)).showIslands)

theorem keepClock {t : ℕ} (h : s.Kept p) : (s.keepClock t).Kept p := by
  unfold State.keepClock
  split
  · exact h.when (fun _ h1 => h1.txWake)
  · exact h

theorem sendSleep {t allow : ℕ} (h : s.Kept p) : (s.sendSleep t allow).Kept p := h.sendTile.port_upd.ite h

theorem sleepNow {t : ℕ} (h : s.Kept p) : (s.sleepNow t).Kept p := h.sendSleep

theorem loseClock {l : ℕ} (h : s.Kept p) : (s.loseClock l).Kept p :=
  h.port_upd.portFailed.ite h.port_upd.relink.port_upd.keepClock

theorem laneFailed {l : ℕ} (h : s.Kept p) : (s.laneFailed l).Kept p :=
  h.leaveLock.setLane.set.err.loseClock.ite h.leaveLock.setLane.set.err.sleepNow.tryBond

/-! ## MgmtOps -/

theorem setSlot {n : ℕ} {x : FwSlot} (h : s.Kept p) : (s.setSlot n x).Kept p := h.mgmt_upd (by intro; split <;> rfl)

theorem writeBoot {f : BootRec → BootRec} (h : s.Kept p) : (s.writeBoot f).Kept p := h.mgmt_upd

theorem awaitHand {slot eng : ℕ} {back : Bool} (h : s.Kept p) : (s.awaitHand slot eng back).Kept p := h.mgmt_upd

theorem decideRevert (h : s.Kept p) : s.decideRevert.Kept p := h.set.set.mgmt_upd.writeBoot.awaitHand.ite h

/-! ## Restart -/

theorem setRestarting {r : ℕ} {b : Bool} (h : s.Kept p) : (s.setRestarting r b).Kept p := h.setBit.setBit

theorem chipFaultAs {code attempts r : ℕ} (h : s.Kept p) : (s.chipFaultAs code attempts r).Kept p :=
  h.set.set.chip_upd.err.cause

theorem chipFault {attempts r : ℕ} (h : s.Kept p) : (s.chipFault attempts r).Kept p := h.chipFaultAs

theorem degradeLines {p0 : LineRec → Bool} (h : s.Kept p) : (s.degradeLines p0).Kept p := h.scan_upd

theorem degradeBanks {n : ℕ} {empty : Bool} (h : s.Kept p) : (s.degradeBanks n empty).Kept p := h.hst_upd

theorem showPalettes {n : ℕ} (h : s.Kept p) : (s.showPalettes n).Kept p := h.set

theorem unitLoses {p0 : OutUnit → Bool} (h : s.Kept p) : (s.unitLoses p0).Kept p := by
  unfold State.unitLoses
  dsimp only
  exact h.count.outp_upd

theorem discardHst {n : ℕ} (h : s.Kept p) : (s.discardHst n).Kept p :=
  ((h.each (fun _ _ h1 => h1.count)).each (fun _ _ h1 => h1.count)).hst_upd.degradeBanks.showPalettes

theorem discardOutp (h : s.Kept p) : s.discardOutp.Kept p :=
  h.unitLoses.hst_upd.outp_upd.degradeLines.each (fun _ _ h1 => h1.showPalettes)

theorem discardLnk {n : ℕ} (h : s.Kept p) : (s.discardLnk n).Kept p :=
  (h.each (fun _ _ h1 => (h1.ite h1.port_upd.enterLanes))).degradeBanks

theorem discardScan (h : s.Kept p) : s.discardScan.Kept p := by
  unfold State.discardScan
  dsimp only
  exact (h.each (fun _ _ h1 => h1.halt)).chip_upd

theorem discardEmit (h : s.Kept p) : s.discardEmit.Kept p := h.emit_upd.degradeLines

theorem dropJobs (h : s.Kept p) : s.dropJobs.Kept p := by
  unfold State.dropJobs
  dsimp only
  exact h.set.memc_upd.hst_upd.scan_upd

theorem discardMemc (h : s.Kept p) : s.discardMemc.Kept p := by
  unfold State.discardMemc
  dsimp only
  exact ((h.when fun _ h1 => h1.err).set.set.set.memc_bounded (by intro _ _; exact Nat.zero_le _)).dropJobs.scan_upd

theorem capGapFrom {r : ℕ} (h : s.Kept p) : (s.capGapFrom r).Kept p := h.when (fun _ h1 => h1.capGap)

theorem discardMoni (h : s.Kept p) : s.discardMoni.Kept p :=
  ((h.moni_upd.each (fun _ _ h1 => h1.set.set)).each (fun _ _ h1 => h1.set)).set.set.set.set

theorem discardMgmt (h : s.Kept p) : (s.discardMgmt).Kept p := by
  unfold State.discardMgmt
  dsimp only
  refine mgmt_upd (when (count (bumpSat (io_upd h fun _ k => ?_))) fun _ h1 => h1.regionIrq)
  exact ⟨k.regs, k.sketch, k.wide, Nat.zero_le _, k.held, k.fires⟩

theorem discard {r : ℕ} (h : s.Kept p) : (s.discard r).Kept p := by
  unfold State.discard
  split
  · exact h.discardScan
  · exact h.discardEmit
  · exact h.discardLnk
  · exact h.discardLnk
  · exact h.discardLnk
  · exact h.discardLnk
  · exact h.discardHst
  · exact h.discardHst
  · exact h.discardHst
  · exact h.discardHst
  · exact h.discardOutp
  · exact h.resetHost.bump.err.count
  · exact h.discardMemc
  · exact h.discardMoni
  · exact h.discardMgmt
  · exact h

theorem startRestart {attempts r : ℕ} (h : s.Kept p) : (s.startRestart attempts r).Kept p :=
  h.ite ((h.decideRevert.ite h).discard.capGapFrom.setRestarting.count.chip_upd.chipFault.ite ((h.decideRevert.ite
      h).discard.capGapFrom.setRestarting.count.chip_upd))

/-! ## TileLink -/

theorem execLinkStateTimeout {t : Fin 32} (h : s.Kept p) : Res.Kept p (execLinkStateTimeout t s) := (h.relink.ite h).ok

theorem execRelink {t : Fin 32} (h : s.Kept p) : Res.Kept p (execRelink t s) :=
  h.writeRow (h.set.ok.ite (h.set.port_upd.enterLanes.ok.ite h.set.relink.ok))

theorem genSet {t target : ℕ} (h : s.Kept p) : (s.genSet t target).Kept p := by
  unfold State.genSet
  dsimp only
  exact h.drawNat.sendTile.set.port_upd

theorem execGenSwitch {t : Fin 32} (h : s.Kept p) : Res.Kept p (execGenSwitch t s) := by
  unfold Machine.execGenSwitch
  split
  · exact ((h.reach.each (fun _ _ h1 => (h1.when (fun _ h2 => ((h2.when (fun _ h3 => h3.txSleep)).lane_upd))))).each (fun _
        _ h1 => (h1.startValues.leaveLock.setLane.lane_upd.setFrozen.ite h1.startValues))).setGen.set.port_upd.ok.ite h.ok
  · exact h.ok

theorem execGenFallback {t : Fin 32} (h : s.Kept p) : Res.Kept p (execGenFallback t s) :=
  (h.set.tileRecord.relink.ite h.set.tileRecord.port_upd.genSet).ok.ite h.ok

theorem excludeLane {l : ℕ} (h : s.Kept p) : (s.excludeLane l).Kept p := h.countTile.laneRecord.port_upd.sleepNow

theorem includeLane {l : ℕ} (h : s.Kept p) : (s.includeLane l).Kept p := h.port_upd.sleepNow.ite h

theorem tryCaps {t : ℕ} (h : s.Kept p) : (s.tryCaps t).Kept p := (h.set.when (fun _ h1 => h1.sleepNow)).ite h

theorem amRelease {t : ℕ} (h : s.Kept p) : (s.amRelease t).Kept p :=
  h.ite ((h.set.port_upd.ite h.set.port_upd.relink).ite h.set.port_upd.countTile.tryCaps)

theorem amOdd {l : ℕ} (h : s.Kept p) : (s.amOdd l).Kept p :=
  h.ite (h.excludeLane.amRelease.port_upd.ite h.excludeLane.amRelease)

theorem execAm {l : Fin 128} {bidx : BitVec 2} {active : BitVec 4} {amseq : Byte} {late : Bool} (h : s.Kept p) :
    Res.Kept p (execAm l bidx active amseq late s) :=
  h.ok.ite (((h.port_upd.each (fun _ _ h1 => h1.excludeLane)).amRelease.ok.ite ((h.port_upd.each (fun _ _ h1 =>
      h1.excludeLane)).amRelease.port_upd.includeLane.amRelease.ok)).ite ((h.port_upd.when (fun _ h1 =>
      h1.countTile)).port_upd.includeLane.amRelease.ok.ite h.port_upd.amOdd.ok))

theorem execAlignmentMarkerSend {t : Fin 32} (h : s.Kept p) : Res.Kept p (execAlignmentMarkerSend t s) := by
  have hnext : ∀ r : State, r.Kept p → Res.Kept p (if r.awakeMask t = 0 then Machine.ok r
      else if r.nextActive t = 0 then Machine.ok (if s.portState t = ptLANES then r else r.relink t)
      else Machine.ok ((r.sendMarker t).tryCaps t)) := fun r hr =>
    hr.ok.ite ((hr.ite hr.relink).ok.ite hr.sendMarker.tryCaps.ok)
  unfold Machine.execAlignmentMarkerSend
  dsimp only
  refine h.ok.ite (hnext _ ?_)
  split
  · exact h.reach
  · exact h

theorem upMessage {body : State → State} {t : Nat} {m : MsgHdr} {own hdata : Nat} {payload : List Wide} {minGen : Nat} (h :
    s.Kept p) (k : ∀ t : State, t.Kept p → (body t).Kept p) :
    Res.Kept p (upMessage t m own hdata payload minGen body s) := by
  have hgap : ∀ n f, ((s.countTile t Src.LNK_MSG_GAP n).port' t f).Kept p := fun n f => h.countTile.port_upd
  exact h.ok.ite (h.countTile.ok.ite ((hgap ..).countTile.ok.ite ((k _ (hgap ..)).ok)))

theorem lowLine {t : ℕ} (h : s.Kept p) : (s.lowLine t).Kept p := h.scan_upd

theorem takeStatus {t : ℕ} {w : Wide} (h : s.Kept p) : (s.takeStatus t w).Kept p := by
  unfold State.takeStatus
  dsimp only
  split
  · exact (h.set.set.port_upd.when fun _ h1 => h1.set.lowLine).loseClock.ite
      (h.set.set.port_upd.when fun _ h1 => h1.set.lowLine).tryCaps
  · exact h.set.set.port_upd.when fun _ h1 => h1.set.lowLine

theorem execStatus {t : Fin 32} {h0 : MsgHdr} {payload : Wide} (h : s.Kept p) : Res.Kept p (execStatus t h0 payload s) :=
  h.upMessage (fun _ h1 => h1.takeStatus)

theorem takeCaps {t : ℕ} {w : Wide} (h : s.Kept p) : (s.takeCaps t w).Kept p :=
  (h.set.set.secu_upd.tileRecord.ite h.set.set.secu_upd).ite ((h.set.set.secu_upd.genSet.ite
      h.set.set.secu_upd.enterPhase).ite h.set.set.secu_upd)

theorem execCaps {t : Fin 32} {h0 : MsgHdr} {payload : Wide} (h : s.Kept p) : Res.Kept p (execCaps t h0 payload s) :=
  h.upMessage (fun _ h1 => h1.takeCaps)

theorem takeAmbient {t hdata : Nat} {counts : List (BitVec 16)} (h : s.Kept p) : (s.takeAmbient t hdata counts).Kept p := by
  unfold State.takeAmbient
  split
  · exact h
  · have hx : ∀ f : Nat × State → BitVec 16 → Nat × State, (∀ x n, x.2.Kept p → (f x n).2.Kept p) →
        (counts.foldl f (0, s)).2.Kept p := fun f hf => foldl_keeps (fun x : Nat × State => x.2.Kept p) f hf counts (0, s) h
    refine h.ite ?_
    dsimp only
    refine Kept.ite (scan_upd (hx _ ?_)) (ambientDue (port_upd (scan_upd (hx _ ?_))))
    all_goals exact fun _ _ hx => hx.set

theorem execAmbient {t : Fin 32} {h0 : MsgHdr} {hdata : BitVec 16} {counts : List (BitVec 16)} (h : s.Kept p) :
    Res.Kept p (execAmbient t h0 hdata counts s) := Res.kept_fault.ite (h.upMessage fun _ h1 => h1.takeAmbient)

theorem execPhaseMeasure {t : Fin 32} {temp : BitVec 12} (h : s.Kept p) : Res.Kept p (execPhaseMeasure t temp s) :=
  h.port_upd.ok.ite h.ok

theorem execPhaseExchange {t : Fin 32} {t1 : BitVec 68} (h : s.Kept p) : Res.Kept p (execPhaseExchange t t1 s) := by
  refine Res.Kept.ite (ok (port_upd (emit ?_))) h.ok
  split
  · exact h.txSlotOn
  · exact h

theorem takeEcho {t : ℕ} {beacon : Byte} {t2 t3 : BitVec 52} {t4 : BitVec 68} (h : s.Kept p) :
    (s.takeEcho t beacon t2 t3 t4).Kept p := by
  unfold State.takeEcho
  split
  · exact h
  · exact h.port_upd

theorem execEpochEcho {t : Fin 32} {h0 : MsgHdr} {beacon : Byte} {t2 t3 : BitVec 52} {t4 : BitVec 68} (h : s.Kept p) :
    Res.Kept p (execEpochEcho t h0 beacon t2 t3 t4 s) :=
  h.upMessage (fun _ h1 => h1.takeEcho)

theorem execEpochTimeout {t : Fin 32} (h : s.Kept p) : Res.Kept p (execEpochTimeout t s) := h.port_upd.ok

theorem adopt {t : ℕ} {cand temp : ℤ} (h : s.Kept p) : (s.adopt t cand temp).Kept p :=
  (h.port_upd.setWide.set.port_upd.enterRun.ite ((h.port_upd.setWide.set.port_upd.each (fun _ _ h1 =>
      h1.set)).ambientSet.port_upd)).ite h.port_upd.port_upd

theorem phaseFailed {t : ℕ} (h : s.Kept p) : (s.phaseFailed t).Kept p :=
  (h.port_upd.when (fun _ h1 => h1.set)).relink.ite (h.port_upd.when (fun _ h1 => h1.set))

theorem phaseSpread {l : List Int} (h : s.Kept p) : (s.phaseSpread l).2.Kept p := by
  unfold State.phaseSpread
  split
  · exact h.drawBit
  · exact h.drawNat

theorem execPhaseCandidate {t : Fin 32} (h : s.Kept p) : Res.Kept p (execPhaseCandidate t s) := by
  refine h.ok.ite (h.phaseSpread.set.bump.set.port_upd.phaseFailed.ok.ite (h.phaseSpread.set.bump.set.port_upd.adopt.ok.ite
      ?_))
  split
  · exact (h.phaseSpread.set.bump.set.port_upd.adopt.ite h.phaseSpread.set.bump.set.port_upd.port_upd).ok
  · exact h.phaseSpread.set.bump.set.port_upd.port_upd.ok

theorem execTilePortRun {t : Fin 32} (h : s.Kept p) : Res.Kept p (execTilePortRun t s) := by
  unfold Machine.execTilePortRun
  split
  · exact h.reach.enterRun.ok.ite h.ok
  · exact h.ok

theorem takeOfs {l : Wide} {t : ℕ} (h : s.Kept p) : (s.takeOfs l t).Kept p := by
  unfold State.takeOfs
  dsimp only
  split
  · exact h.setWide.port_upd
  · exact h

theorem execSlot {t : Fin 32} {num : BitVec 25} (h : s.Kept p) : Res.Kept p (execSlot t num s) := by
  refine h.ok.ite ?_
  split
  · exact h.port_upd.ok
  · exact (h.port_upd.ite h.port_upd.set.countTile).ok

theorem execTileRegGo {t : Fin 32} (h : s.Kept p) : Res.Kept p (execTileRegGo t s) :=
  h.writeRow (h.set.ok.ite ((h.set.set.port_upd.sendTile.ite h.set.set.port_upd.sendTile).ok))

theorem regDone {t rstat : ℕ} (h : s.Kept p) : (s.regDone t rstat).Kept p := h.set.set.set

theorem execRegRsp {t : Fin 32} {h0 : MsgHdr} {addr : BitVec 16} {data : Word} {rstat : Byte} (h : s.Kept p) :
    Res.Kept p (execRegRsp t h0 addr data rstat s) :=
  h.upMessage (fun _ h1 => (h1.set.regDone.ite h1.countTile))

theorem execTileRegTimeout {t : Fin 32} (h : s.Kept p) : Res.Kept p (execTileRegTimeout t s) := (h.regDone.ite h).ok

/-! ## HistOps -/

theorem bank_upd {sec : ℕ} {f : Bank → Bank} (h : s.Kept p) : (s.bank' sec f).Kept p := h.hst_upd

theorem bankAt_upd {sec : ℕ} {which : Option Wide} {f : Bank → Bank} (h : s.Kept p) : (s.bankAt' sec which f).Kept p := by
  unfold State.bankAt'
  split
  · exact h.bank_upd
  · exact h.hst_upd

theorem countSec {sec src n : ℕ} (h : s.Kept p) : (s.countSec sec src n).Kept p := h.count

theorem retireStall {c : ℕ} (h : s.Kept p) : (s.retireStall c).Kept p := by
  refine h.ite ?_
  split
  · exact h.set.set.hst_upd.err
  · exact h.set.startRestart

theorem substitute {sec : Nat} (h : s.Kept p) : (s.substitute sec).1.Kept p :=
  foldl_keeps (fun x : State × SMap Nat => x.1.Kept p) _
    (fun _ _ hx => hx.set.set.set.hst_upd.countSec) _ (s, []) h

theorem substituteAll {n : ℕ} (h : s.Kept p) : (s.substituteAll n).Kept p := h.each (fun _ _ h1 => h1.substitute)

theorem stallFailed {n p0 : ℕ} (h : s.Kept p) : (s.stallFailed n p0).Kept p := by
  unfold State.stallFailed
  split
  · exact h.retireStall
  · refine h.ite ?_
    split
    · exact h.set.set
    · exact h.set.hst_upd.retireStall

theorem binError {sec : ℕ} {which : Option Wide} {x : BinErr} (h : s.Kept p) : (s.binError sec which x).Kept p :=
  (h.countSec.set.bumpSat.bankAt_upd.retireStall.ite h.countSec.set.bumpSat.bankAt_upd.err).ite h.countSec.bumpSat.err

theorem applyUpdate {sec : ℕ} {which : Option Wide} {f : Bank → Bank × Bool} (h : s.Kept p) :
    (s.applyUpdate sec which f).Kept p :=
  h.bankAt_upd.when (fun _ h1 => h1.countSec)

theorem keepUpdate {c : ℕ} {which : Option Wide} {v : ℤ} {bin : ℕ} (h : s.Kept p) : (s.keepUpdate c which v bin).Kept p :=
  h.bankAt_upd

theorem mainUpdate {c : ℕ} {which : Option Wide} {v : ℤ} {bin : ℕ} {now : Wide} (h : s.Kept p) :
    (s.mainUpdate c which v bin now).Kept p := by
  unfold State.mainUpdate
  dsimp only
  split
  · exact h.hst_upd.countSec
  · exact h.hst_upd.keepUpdate.applyUpdate.countSec

theorem zoomUpdate {c slot w : ℕ} {which : Option Wide} {z : ℕ} {now : Wide} (h : s.Kept p) :
    (s.zoomUpdate c slot w which z now).Kept p := by
  unfold State.zoomUpdate
  dsimp only
  split
  · exact h.hst_upd.countSec
  · exact h.hst_upd.applyUpdate

/-! ## Events -/

theorem enterHypothesis {l : LineRec} {w : Window} {c typ : Nat} {which : Option Wide} {r : Int} {now : Wide} {zen : Bool}
    {x : ShotRec} (h : s.Kept p) : (State.enterHypothesis l w c typ which r now zen s x).Kept p := by
  unfold State.enterHypothesis
  dsimp only
  refine Kept.ite (each (Kept.ite h ?_) fun _ _ h2 => Kept.ite h2.zoomUpdate h2) (Kept.ite h ?_)
  all_goals split
  case h_1 => exact h.mainUpdate
  case h_2 => exact h.keepUpdate.countSec
  case h_1 => exact h.mainUpdate
  case h_2 => exact h.keepUpdate.countSec

theorem enterEvent {c typ : ℕ} {x : ℤ} {arrival : Wide} (h : s.Kept p) : (s.enterEvent c typ x arrival).Kept p := by
  unfold State.enterEvent
  dsimp only
  split
  · exact h.countSec
  · refine h.countSec.ite ?_
    split
    · exact h.countSec
    · exact ((h.when fun _ h1 => h1.countSec).when fun _ h1 => h1.bankAt_upd).foldl fun _ _ h1 => h1.enterHypothesis

theorem admitEvent {e : Waiting} (h : s.Kept p) : (s.admitEvent e).Kept p := h.hst_upd.ite h.enterEvent

theorem releaseEvents (h : s.Kept p) : s.releaseEvents.Kept p := h.hst_upd.each (fun _ _ h1 => h1.admitEvent)

theorem hstEvent {c typ : ℕ} {x : ℤ} {arrival : Wide} (h : s.Kept p) : (s.hstEvent c typ x arrival).Kept p :=
  h.countSec.admitEvent

theorem checkTag {t c typ : ℕ} {x : ℤ} (h : s.Kept p) : (s.checkTag t c typ x).Kept p := by
  unfold State.checkTag
  split
  · exact h
  · exact h.ite ((h.when (fun _ h1 => h1.countTile)).scan_upd)

theorem eventWord {l : ℕ} {arrival : Wide} {full : Bool} {w : Word} (h : s.Kept p) :
    (s.eventWord l arrival full w).Kept p := by
  refine h.ite (h.countTile.ite ?_)
  split
  · exact h.countLane.countTile.ite (h.countLane.countTile.ite (h.countLane.countTile.ite ((h.countLane.when (fun _ h1 =>
        h1.checkTag)).countTile.ite ((h.countLane.when (fun _ h1 => h1.checkTag)).tapEvent.hstEvent))))
  · exact h.countLane.countTile

theorem blockErrors {sec : ℕ} {errs : List BinErr} (h : s.Kept p) : (s.blockErrors sec errs).Kept p := by
  exact h.ite (h.each (fun _ _ h1 => (h1.binError.ite (by split; exacts [h1.binError, h1]))))

theorem execEventBlock {l : Fin 128} {arrival : Wide} {full : Bool} {w0 w1 : Word} {errs : List BinErr} (h : s.Kept p) :
    Res.Kept p (execEventBlock l arrival full w0 w1 errs s) :=
  h.ok.ite h.clockReach.releaseEvents.blockErrors.eventWord.eventWord.ok

/-! ## Hist -/

theorem spendSwap {sec : ℕ} {t : Wide} (h : s.Kept p) : (s.spendSwap sec t).Kept p := h.scan_upd.showQueues

theorem discardRead {sec : ℕ} (h : s.Kept p) : (s.discardRead sec).Kept p :=
  h.each (fun _ _ h1 => h1.countSec.set.hst_upd.scan_upd)

theorem swapSector {sec : ℕ} {t : Wide} (h : s.Kept p) : (s.swapSector sec t).Kept p := by
  have hsub : ∀ b : Bool, (if b then ((s.spendSwap sec t).discardRead sec, ([] : List (Nat × Nat)))
      else ((s.spendSwap sec t).discardRead sec).substitute sec).1.Kept p := fun b => by
    cases b
    · exact h.spendSwap.discardRead.substitute
    · exact h.spendSwap.discardRead
  unfold State.swapSector
  dsimp only
  split
  · exact (hsub _).hst_upd.showPalettes
  · exact ((hsub _).hst_upd.showPalettes.when fun _ h1 => h1.countSec.set).hst_upd.outp_upd.scan_upd.set.showPalettes

theorem execBankSwap {sec : Fin 32} (h : s.Kept p) : Res.Kept p (execBankSwap sec s) := by
  unfold Machine.execBankSwap
  split
  · exact h.ok
  · exact h.reach.swapSector.ok.ite h.ok

theorem execStallRetireCmd {n : Fin 4} (h : s.Kept p) : Res.Kept p (execStallRetireCmd n s) :=
  h.writeRow h.set.retireStall.ok

theorem execMotionPublish (h : s.Kept p) : Res.Kept p (execMotionPublish s) :=
  h.writeRow h.memc_upd.set.set.bump.set.set.ok

theorem unstacked {l : LineRec} {src : ℕ} (h : s.Kept p) : (s.unstacked l src).Kept p := h.scan_upd.count

theorem stackLine {l : LineRec} {done : Wide} (h : s.Kept p) : (s.stackLine l done).Kept p :=
  (h.scan_upd.memc_upd.hst_upd.when (fun _ h1 => h1.count)).set

theorem stackDecide {l : LineRec} {now : Wide} (h : s.Kept p) : (s.stackDecide l now).Kept p :=
  h.scan_upd.ite (h.unstacked.set.ite h.stackLine)

theorem execReadoutStart {sec : Fin 32} (h : s.Kept p) : Res.Kept p (execReadoutStart sec s) := by
  unfold Machine.execReadoutStart
  split
  · exact h.ok
  · refine h.releaseEvents.ok.ite ?_
    dsimp only
    split
    · exact h.releaseEvents.reach.hst_upd.stackDecide.ok.ite h.releaseEvents.reach.hst_upd.ok
    · exact h.releaseEvents.reach.hst_upd.ok

theorem stackChannel {l : LineRec} {j : StkJob} {c kbin nexc : Nat} {b : List Nat} (h : s.Kept p) :
    (s.stackChannel l j c kbin nexc b).1.Kept p := by
  unfold State.stackChannel
  dsimp only
  exact (h.drawNat (n := 3)).memc_upd

theorem execStackComplete (h : s.Kept p) : Res.Kept p (execStackComplete s) := by
  unfold Machine.execStackComplete
  split
  · exact h.ok
  · exact h.ok.ite h.reach.memc_upd.setBit.ok

theorem execKernelWrite {who : Actor} {off : BitVec 32} {v : Word} (h : s.Kept p) :
    Res.Kept p (execKernelWrite who off v s) := by
  unfold Machine.execKernelWrite
  split
  · exact h.writeBy (h.accRecord.ok.ite h.put.set.set.ok)
  · exact Res.kept_fault

theorem onRead {sec : ℕ} {stop : Wide} {f : ReadBank → ReadBank} (h : s.Kept p) : (s.onRead sec stop f).Kept p := h.hst_upd

theorem execFltRestart {c : Fin 1024} {zoom : Option (Fin 4)} {bin : BitVec 12} (h : s.Kept p) :
    Res.Kept p (execFltRestart c zoom bin s) := by
  unfold Machine.execFltRestart
  dsimp only
  split
  · exact h.ok
  · exact h.ok.ite (h.set.countSec.onRead.err.ok.ite (h.set.countSec.onRead.set.set.set.countSec.err.ok.ite
      h.set.countSec.onRead.set.startRestart.ok))

/-- The stacking of a channel's histogram, where its line is stacked. -/
theorem stackedOr {l : LineRec} {c kbin nexc : Nat} {b : List Nat} (h : s.Kept p) (o : Option StkJob) :
    (match o with
      | some j => s.stackChannel l j c kbin nexc b
      | none => (s, b, false)).1.Kept p := by
  cases o
  · exact h
  · exact h.stackChannel

theorem execEchoDelivery {c : Fin 1024} {errs : List BinErr} (h : s.Kept p) : Res.Kept p (execEchoDelivery c errs s) := by
  unfold Machine.execEchoDelivery
  dsimp only
  split
  · exact h.ok
  case h_2 x k' _ =>
    have hbins := h.each (l := errs.filter fun e => e.chan.toNat == c.val % 32) (f := State.binError (c.val / 32) (some
        x.stop))
      fun _ _ h1 => h1.binError
    refine h.ok.ite ?_
    split
    · refine hbins.ok.ite (hbins.ok.ite ?_)
      refine ok (showPalettes (when (countSec (countSec (Kept.ite ?_ ?_))) fun _ h1 => h1.set))
      · exact (hbins.stackedOr _).tapHist.onRead.unitLoses
      · exact (hbins.stackedOr _).tapHist.onRead
    · exact hbins.ok

/-! ## Memory -/

theorem captureFault (h : s.Kept p) : s.captureFault.Kept p := h.set.set.memc_bounded (by intro _ _; exact Nat.zero_le _)

theorem skipJobs (h : s.Kept p) : s.skipJobs.Kept p := h.when (fun _ h1 => h1.dropJobs.set.count)

theorem memOffline (h : s.Kept p) : s.memOffline.Kept p := h.set.skipJobs.captureFault

theorem execMemcTraining {densities : List (BitVec 2)} {pass : Bool} (h : s.Kept p) :
    Res.Kept p (execMemcTraining densities pass s) := by
  have hcap : ((((s.skipJobs.set Fd.MEMC_MEM_CTL_RETRAIN 0).set Fd.MEMC_MEM_STAT_TRAINED 0).set Fd.MEMC_MEM_STAT_INIT_DONE
      0).memc'
      fun m => { m.forget with rate := s.get Fd.MEMC_MEM_CTL_RATE }).Kept p := h.skipJobs.set.set.set.memc_upd
  refine Res.kept_fault.ite (h.ok.ite ?_)
  dsimp only
  split
  · exact (hcap.when fun _ h1 => h1.captureFault).set.memOffline.err.ok
  · exact (hcap.when fun _ h1 => h1.captureFault).set.set.ok.ite (hcap.when fun _ h1 => h1.captureFault).set.memOffline.err.ok

theorem execMemcInitDone (h : s.Kept p) : Res.Kept p (execMemcInitDone s) :=
  (h.set.set.when (fun _ h1 => h1.set)).stageDone.ok.ite h.ok

theorem execMemcRetrain (h : s.Kept p) : Res.Kept p (execMemcRetrain s) := h.writeRow h.set.ok

theorem execCrcRetryFail {ch : Fin 4} {good : Option (Fin 3)} (h : s.Kept p) : Res.Kept p (execCrcRetryFail ch good s) := by
  refine h.ok.ite ?_
  split
  · exact h.count.ok
  · exact h.count.err.memc_upd.ok

theorem execChannelRetrainDone {ch : Fin 4} {pass : Bool} (h : s.Kept p) : Res.Kept p (execChannelRetrainDone ch pass s) := by
  unfold Machine.execChannelRetrainDone
  split
  · exact h.ok
  · exact h.memc_upd.set.ok.ite h.memc_upd.set.memOffline.err.ok

theorem capQ_spoil {m : Memc} {x : MemArea} : (m.spoil x).capQ = m.capQ := by
  unfold Memc.spoil
  dsimp only
  split <;> rfl

theorem execMemUe {da : BitVec 34} {oneSymbol : Bool} (h : s.Kept p) : Res.Kept p (execMemUe da oneSymbol s) :=
  h.ok.ite (h.bump.count.ok.ite (h.bumpSat.count.err.memc_upd fun _ => capQ_spoil).ok)

theorem execMemcPeriod {load : MemLoad} (h : s.Kept p) : Res.Kept p (execMemcPeriod load s) :=
  h.whenOn (h.memc_upd.ok.ite h.memc_upd.mgmt_upd.emit.ok)

theorem execScrubPass {corrected : List (Fin 4)} (h : s.Kept p) : Res.Kept p (execScrubPass corrected s) :=
  h.ok.ite ((h.memc_upd.mgmt_upd.count.each (fun _ _ h1 => h1.bump.count)).ok)

/-! ## PonosMem -/

theorem setDmByte {e a : ℕ} {v : Byte} (h : s.Kept p) : (s.setDmByte e a v).Kept p :=
  kept_scan_upd _ h (fun _ hx => hx) fun _ hx => canonical_wr _ v hx

theorem dmWrite {e a n v : ℕ} (h : s.Kept p) : (s.dmWrite e a n v).Kept p := h.foldl (fun _ _ h1 => h1.setDmByte)

theorem store {e a n v : ℕ} (h : s.Kept p) : (s.store e a n v).Kept p := by
  unfold State.store
  split
  · exact h.put.put.ite h.put
  · exact h.dmWrite

theorem memory {act : Nat → State → State} {sh : Shape} {n : Nat} {store : Bool} {e : Fin 8} {f : Fields} (h : s.Kept p) (k
    : ∀ (a : Nat) (t : State), t.Kept p → (act a t).Kept p) :
    Res.Kept p (memory sh n store e f act s) :=
  h.instr (fun t ht => by
    dsimp only
    split
    · exact ht.raiseHere
    · exact (k _ _ ht).nextPc)

theorem execLd {e : Fin 8} {f : Fields} (h : s.Kept p) : Res.Kept p (execLd e f s) := h.memory (fun _ _ h1 => h1.setG)

theorem execSt {e : Fin 8} {f : Fields} (h : s.Kept p) : Res.Kept p (execSt e f s) := h.memory (fun _ _ h1 => h1.store)

theorem execLdt {e : Fin 8} {f : Fields} (h : s.Kept p) : Res.Kept p (execLdt e f s) := h.memory (fun _ _ h1 => h1.setT)

theorem execStt {e : Fin 8} {f : Fields} (h : s.Kept p) : Res.Kept p (execStt e f s) := h.memory (fun _ _ h1 => h1.store)

theorem execNow {e : Fin 8} {f : Fields} (h : s.Kept p) : Res.Kept p (execNow e f s) :=
  h.instr (fun _ h1 => h1.setT.nextPc)

theorem execWaitt {e : Fin 8} {f : Fields} (h : s.Kept p) : Res.Kept p (execWaitt e f s) :=
  h.instr (fun _ h1 => (h1.nextPc.ite h1.waitFor))

theorem execWaittResume {e : Fin 8} (h : s.Kept p) : Res.Kept p (execWaittResume e s) := by
  unfold Machine.execWaittResume
  split
  · exact (h.complete.ok.ite h.ok).ite (h.reach.complete.ok.ite h.ok)
  · exact h.ok

theorem execSett {e : Fin 8} {f : Fields} (h : s.Kept p) : Res.Kept p (execSett e f s) :=
  h.instr (fun _ h1 => h1.setT.nextPc)

theorem execTcmp {e : Fin 8} {f : Fields} (h : s.Kept p) : Res.Kept p (execTcmp e f s) :=
  h.instr (fun _ h1 => h1.setP.nextPc)

theorem execTget {e : Fin 8} {f : Fields} (h : s.Kept p) : Res.Kept p (execTget e f s) :=
  h.instr (fun _ h1 => h1.setG.nextPc)

theorem execTput {e : Fin 8} {f : Fields} (h : s.Kept p) : Res.Kept p (execTput e f s) :=
  h.instr (fun _ h1 => h1.setT.nextPc)

/-! ## Capture -/

theorem latchCap (h : s.Kept p) : s.latchCap.Kept p := h.memc_upd

theorem clampPtc (h : s.Kept p) : s.clampPtc.Kept p := h.set.set.ite h

theorem arm (h : s.Kept p) : s.arm.Kept p :=
  h.set.set.ite (h.set.set.clampPtc.latchCap.bump.capTo.memc_bounded (by intro _ _; exact Nat.zero_le _))

theorem execCapArm (h : s.Kept p) : Res.Kept p (execCapArm s) := h.writeRow h.arm.ok

theorem assertSync {g : CapTrig} (h : s.Kept p) : (s.assertSync g).Kept p := h.setWide.emitPin.ite h

theorem showTrig {g : CapTrig} (h : s.Kept p) : (s.showTrig g).Kept p := h.set.set.setWide

theorem missTrigs {n : ℕ} (h : s.Kept p) : (s.missTrigs n).Kept p := h.bump.count

theorem showCapQ (h : s.Kept p) : s.showCapQ.Kept p := h.set

theorem trigger {g : CapTrig} (h : s.Kept p) : (s.trigger g).Kept p := by
  unfold State.trigger
  split
  · exact h.capTo.memc_upd.showTrig.assertSync
  · split
    case isTrue hroom =>
      have hlen : s.memc.capQ.length < 16 := by
        rw [Bool.and_eq_true] at hroom
        exact of_decide_eq_true hroom.2
      refine assertSync (showTrig (showCapQ ?_))
      exact ⟨h.io, h.pm, h.dm, h.log, h.ptm, by simpa using hlen, h.smTx, h.waitA, h.waitB, h.pending⟩
    case isFalse => exact h.missTrigs.memc_upd

theorem length_onLast {α : Type} {f : α → α} {l : List α} : (onLast f l).length = l.length := by
  unfold onLast
  split
  next hl => simp [List.reverse_eq_nil_iff.1 hl]
  next a r hl => simpa using (congrArg List.length hl).symm

theorem asyncTrig {i : Nat} {t : Option Wide} (h : s.Kept p) : (s.asyncTrig i t).Kept p := by
  refine Kept.ite ?_ h
  split
  · exact h.memc_upd
  · extract_lets g s1 s2
    have h1 : s1.Kept p := h.memc_upd
    have h2 : s2.Kept p := h.memc_bounded (by intro _ k; exact length_onLast.trans_le k)
    split
    · exact h.trigger
    · exact h
    · exact h1.optionElim fun _ => h1.showTrig
    · exact h2.optionElim fun _ => h2.showTrig

theorem execCapTrig (h : s.Kept p) : Res.Kept p (execCapTrig s) := h.writeRow h.set.asyncTrig.ok

theorem takeQueued (h : s.Kept p) : (s.takeQueued).Kept p := by
  unfold State.takeQueued
  split
  · exact h
  case h_2 g rest hq =>
    have hrest : rest.length ≤ 16 := by have := h.capQ; rw [hq] at this; exact (Nat.le_succ _).trans this
    exact (h.capTo.memc_bounded (by intro _ _; exact hrest)).showCapQ.showTrig

theorem capQ_reduce {m : Memc} {x : Sample} : (m.reduce x).1.capQ = m.capQ := by
  unfold Memc.reduce
  extract_lets _ _ r
  generalize r = r
  split <;> rfl

theorem writeSample {x : Sample} (h : s.Kept p) : (s.writeSample x).Kept p := by
  have hcap : (if s.capGet Fd.MEMC_CAP_BUF_RED = 0 then (s.memc, some x) else s.memc.reduce x).1.capQ.length ≤ 16 := by
    split
    · exact h.capQ
    · exact capQ_reduce.symm ▸ h.capQ
  unfold State.writeSample
  generalize (if s.capGet Fd.MEMC_CAP_BUF_RED = 0 then (s.memc, some x) else s.memc.reduce x) = y at hcap ⊢
  obtain ⟨m, y⟩ := y
  have h1 : State.Kept p { s with memc := { m with last := some x, hit := .none } } :=
    ⟨h.io, h.pm, h.dm, h.log, h.ptm, hcap, h.smTx, h.waitA, h.waitB, h.pending⟩
  dsimp only
  split
  · exact h1
  · exact (h1.takeQueued.ite h1).memc_bounded fun _ k => (List.length_map _).trans_le k

theorem execCapSample (h : s.Kept p) : Res.Kept p (execCapSample s) := by
  refine h.ok.ite ?_
  split
  · exact h.ok
  · exact (h.memc_upd.writeSample.memc_upd.ite h.memc_upd.writeSample.memc_upd.trigger).ok

theorem beginExport (h : s.Kept p) : s.beginExport.Kept p :=
  (h.capTo.missTrigs.memc_bounded (by intro _ _; exact Nat.zero_le _)).showCapQ

theorem execCapPostEnd (h : s.Kept p) : Res.Kept p (execCapPostEnd s) :=
  (h.capTo.memc_upd.ok.ite h.beginExport.ok).ite h.ok

theorem abortCap (h : s.Kept p) : s.abortCap.Kept p :=
  (h.set.capTo.memc_bounded (by intro _ _; exact Nat.zero_le _)).showCapQ.ite ((h.set.set.ite h.set.memc_upd.beginExport).ite
    (h.set.capTo.memc_upd.ite h.set))

theorem execCapAbort (h : s.Kept p) : Res.Kept p (execCapAbort s) := h.writeRow h.abortCap.ok

theorem nextRecord {k : ℕ} {z : CapSeg} (h : s.Kept p) : (s.nextRecord k z).Kept p :=
  h.memc_upd.ite (h.memc_upd.ite h.memc_upd.capTo.memc_upd)

theorem execCapExportRecord (h : s.Kept p) : Res.Kept p (execCapExportRecord s) := by
  have hnext : ∀ b : Bool, ∀ u v : State, u.Kept p → v.Kept p → Res.Kept p (Machine.ok (if b then u else v)) :=
    fun b u v hu hv => (hu.ite hv).ok
  unfold Machine.execCapExportRecord
  refine h.ok.ite ?_
  dsimp only
  split
  · exact h.drainStage.capTo.ok
  · split
    · exact hnext _ _ _ h.drainStage.putItem.nextRecord h.drainStage
    · exact hnext _ _ _ (h.drainStage.putItem.when fun _ h1 => h1.count).nextRecord h.drainStage

theorem sendSync {arm : Bool} (h : s.Kept p) : (s.sendSync arm).Kept p :=
  (h.emitPin rfl).when fun _ h1 => by
    cases arm
    · exact h1.abortCap
    · exact h1.arm

theorem syncCmd {arm : Bool} (h : s.Kept p) : (s.syncCmd arm).Kept p := by
  refine h.ite ?_
  split
  · exact h.sendSync
  · exact h.memc_upd.set

theorem execSyncArmCmd (h : s.Kept p) : Res.Kept p (execSyncArmCmd s) := h.writeRow h.set.syncCmd.ok

theorem execSyncDisarmCmd (h : s.Kept p) : Res.Kept p (execSyncDisarmCmd s) := h.writeRow h.set.syncCmd.ok

theorem execSyncPulseDeferred (h : s.Kept p) : Res.Kept p (execSyncPulseDeferred s) := by
  refine h.ok.ite ?_
  split
  · exact h.memc_upd.set.ok.ite (h.reach.memc_upd.set.sendSync.ok.ite h.ok)
  · exact h.ok

theorem takeFrame {edge : Wide} (h : s.Kept p) : (s.takeFrame edge).Kept p := h.setWide.store.setSig

theorem execSyncPulseRx {edge : Wide} {width : BitVec 16} (h : s.Kept p) : Res.Kept p (execSyncPulseRx edge width s) :=
  h.ok.ite (h.ok.ite ((h.takeFrame.ite h).ok.ite ((h.arm.ite h).ok.ite ((h.abortCap.ite h).ok.ite h.set.count.ok))))

theorem execSyncTrigRx {edge : Wide} (h : s.Kept p) : Res.Kept p (execSyncTrigRx edge s) :=
  h.ok.ite (h.asyncTrig.ok.ite h.ok)

/-! ## PonosAct -/

theorem present {e : ℕ} {f : Fields} {r : Request} (h : s.Kept p) : (s.present e f r).Kept p := h.waitFor.easel_upd

theorem swapBank {e : ℕ} {t : Wide} (h : s.Kept p) : (s.swapBank e t).Kept p := by
  unfold State.swapBank
  dsimp only
  exact h.set.set.setPc.set.setT.easel_upd.secu_upd

theorem execLine {e : Fin 8} {f : Fields} (h : s.Kept p) : Res.Kept p (execLine e f s) :=
  h.instr (fun _ h1 => (h1.swapBank.ite (h1.halt.haltIrq.chip_upd.ite h1.present)))

theorem execShot {e : Fin 8} {f : Fields} (h : s.Kept p) : Res.Kept p (execShot e f s) := h.instr (fun _ h1 => h1.present)

theorem train {h0 : Shape} {listen : Bool} {e : Fin 8} {f : Fields} (h : s.Kept p) : Res.Kept p (train h0 listen e f s) :=
  h.instr (fun _ h1 => ((h1.bump.ite h1).present))

theorem execTrain {e : Fin 8} {f : Fields} (h : s.Kept p) : Res.Kept p (execTrain e f s) := h.train

theorem execListenonly {e : Fin 8} {f : Fields} (h : s.Kept p) : Res.Kept p (execListenonly e f s) := h.train

theorem execStag {e : Fin 8} {f : Fields} (h : s.Kept p) : Res.Kept p (execStag e f s) :=
  h.instr (fun _ h1 => (h1.raiseHere.ite (h1.raiseHere.ite h1.present)))

theorem execWindow {e : Fin 8} {f : Fields} (h : s.Kept p) : Res.Kept p (execWindow e f s) :=
  h.instr (fun _ h1 => h1.present)

theorem execZoom {e : Fin 8} {f : Fields} (h : s.Kept p) : Res.Kept p (execZoom e f s) := h.instr (fun _ h1 => h1.present)

theorem execHswap {e : Fin 8} {f : Fields} (h : s.Kept p) : Res.Kept p (execHswap e f s) :=
  h.instr (fun _ h1 => h1.present)

theorem execStack {e : Fin 8} {f : Fields} (h : s.Kept p) : Res.Kept p (execStack e f s) :=
  h.instr (fun _ h1 => h1.present)

/-! ## PonosAlu -/

theorem alu {opc : ℕ} {op : Word → Word → Word} {e : Fin 8} {f : Fields} (h : s.Kept p) : Res.Kept p (alu opc op e f s) :=
  h.instr (fun _ h1 => h1.setG.nextPc)

theorem execAdd {e : Fin 8} {f : Fields} (h : s.Kept p) : Res.Kept p (execAdd e f s) := h.alu

theorem execSub {e : Fin 8} {f : Fields} (h : s.Kept p) : Res.Kept p (execSub e f s) := h.alu

theorem execAnd {e : Fin 8} {f : Fields} (h : s.Kept p) : Res.Kept p (execAnd e f s) := h.alu

theorem execOr {e : Fin 8} {f : Fields} (h : s.Kept p) : Res.Kept p (execOr e f s) := h.alu

theorem execXor {e : Fin 8} {f : Fields} (h : s.Kept p) : Res.Kept p (execXor e f s) := h.alu

theorem execMul {e : Fin 8} {f : Fields} (h : s.Kept p) : Res.Kept p (execMul e f s) := h.alu

theorem execMinu {e : Fin 8} {f : Fields} (h : s.Kept p) : Res.Kept p (execMinu e f s) := h.alu

theorem execMaxu {e : Fin 8} {f : Fields} (h : s.Kept p) : Res.Kept p (execMaxu e f s) := h.alu

theorem execShl {e : Fin 8} {f : Fields} (h : s.Kept p) : Res.Kept p (execShl e f s) := h.alu

theorem execShr {e : Fin 8} {f : Fields} (h : s.Kept p) : Res.Kept p (execShr e f s) := h.alu

theorem execSar {e : Fin 8} {f : Fields} (h : s.Kept p) : Res.Kept p (execSar e f s) := h.alu

theorem execCmp {e : Fin 8} {f : Fields} (h : s.Kept p) : Res.Kept p (execCmp e f s) :=
  h.instr (fun _ h1 => h1.setP.nextPc)

theorem execPlog {e : Fin 8} {f : Fields} (h : s.Kept p) : Res.Kept p (execPlog e f s) :=
  h.instr (fun _ h1 => h1.setP.nextPc)

theorem execMfs {e : Fin 8} {f : Fields} (h : s.Kept p) : Res.Kept p (execMfs e f s) :=
  h.instr (fun _ h1 => h1.setG.nextPc)

theorem execMts {e : Fin 8} {f : Fields} (h : s.Kept p) : Res.Kept p (execMts e f s) :=
  h.instr (fun _ h1 => ((h1.set.ite h1.set).nextPc))

theorem execBr {e : Fin 8} {f : Fields} (h : s.Kept p) : Res.Kept p (execBr e f s) := h.instr (fun _ h1 => h1.setPc)

theorem execJal {e : Fin 8} {f : Fields} (h : s.Kept p) : Res.Kept p (execJal e f s) := h.instr (fun _ h1 => h1.setG.setPc)

theorem execJr {e : Fin 8} {f : Fields} (h : s.Kept p) : Res.Kept p (execJr e f s) := h.instr (fun _ h1 => h1.setPc)

theorem execLoop {e : Fin 8} {f : Fields} (h : s.Kept p) : Res.Kept p (execLoop e f s) :=
  h.instr (fun _ h1 => (h1.setG.nextPc.ite h1.setG.setPc))

theorem execRete {e : Fin 8} {f : Fields} (h : s.Kept p) : Res.Kept p (execRete e f s) :=
  h.instr (fun _ h1 => h1.setPc.set.set)

/-! ## PonosSys -/

theorem execPeek {e : Fin 8} {f : Fields} (h : s.Kept p) : Res.Kept p (execPeek e f s) :=
  h.instr (fun _ h1 => h1.setG.setG.setG.setG.setP.nextPc)

theorem execSumwait {e : Fin 8} {f : Fields} (h : s.Kept p) : Res.Kept p (execSumwait e f s) :=
  h.instr (fun _ h1 => (h1.nextPc.ite h1.waitFor))

theorem execSketch {e : Fin 8} {f : Fields} (h : s.Kept p) : Res.Kept p (execSketch e f s) :=
  h.instr (fun _ h1 => (h1.raiseHere.ite ((h1.gateAbort.ite h1.stage).nextPc.ite h1.raiseHere)))

theorem execProof {e : Fin 8} {f : Fields} (h : s.Kept p) : Res.Kept p (execProof e f s) :=
  h.instr (fun _ h1 => h1.startProof.nextPc)

theorem execCommit {e : Fin 8} {f : Fields} {preempted : Bool} (h : s.Kept p) : Res.Kept p (execCommit e f preempted s) :=
  h.instr (fun _ h1 => (h1.count.setG.setP.nextPc.ite h1.requestCommit.setG.setP.nextPc))

theorem execSignal {e : Fin 8} {f : Fields} (h : s.Kept p) : Res.Kept p (execSignal e f s) :=
  h.instr (fun _ h1 => h1.nextPc.setSig)

theorem execWaitsig {e : Fin 8} {f : Fields} (h : s.Kept p) : Res.Kept p (execWaitsig e f s) :=
  h.instr (fun _ h1 => (h1.set.nextPc.ite h1.waitFor))

theorem execSemaphore {e : Fin 8} {f : Fields} (h : s.Kept p) : Res.Kept p (execSemaphore e f s) :=
  h.instr (fun _ h1 => (h1.set.nextPc.ite (h1.setP.nextPc.ite h1.set.setP.nextPc)))

theorem execLedger {e : Fin 8} {f : Fields} (h : s.Kept p) : Res.Kept p (execLedger e f s) :=
  h.instr (fun _ h1 => h1.setG.setP.nextPc)

theorem execTrap {e : Fin 8} {f : Fields} (h : s.Kept p) : Res.Kept p (execTrap e f s) :=
  h.instr (fun _ h1 => h1.raiseHere)

theorem execYield {e : Fin 8} {f : Fields} (h : s.Kept p) : Res.Kept p (execYield e f s) := h.instr (fun _ h1 => h1.nextPc)

theorem execHalt {e : Fin 8} {f : Fields} (h : s.Kept p) : Res.Kept p (execHalt e f s) :=
  h.instr (fun _ h1 => h1.nextPc.halt.haltIrq)

theorem execUndefinedOpcode {e : Fin 8} {w : Wide} (h : s.Kept p) : Res.Kept p (execUndefinedOpcode e w s) :=
  Res.kept_fault.ite (h.raiseHere.settle.ok.ite h.ok)

theorem runWord {e : Fin 8} {w : Wide} (h : s.Kept p) : Res.Kept p (runWord e w s) := by
  unfold Machine.runWord
  split
  · exact h.execAdd
  · exact h.execSub
  · exact h.execAnd
  · exact h.execOr
  · exact h.execXor
  · exact h.execMul
  · exact h.execMinu
  · exact h.execMaxu
  · exact h.execShl
  · exact h.execShr
  · exact h.execSar
  · exact h.execCmp
  · exact h.execPlog
  · exact h.execMfs
  · exact h.execMts
  · exact h.execBr
  · exact h.execJal
  · exact h.execJr
  · exact h.execLoop
  · exact h.execRete
  · exact h.execLd
  · exact h.execSt
  · exact h.execLdt
  · exact h.execStt
  · exact h.execNow
  · exact h.execWaitt
  · exact h.execSett
  · exact h.execTcmp
  · exact h.execTget
  · exact h.execTput
  · exact h.execLine
  · exact h.execShot
  · exact h.execTrain
  · exact h.execStag
  · exact h.execListenonly
  · exact h.execWindow
  · exact h.execZoom
  · exact h.execHswap
  · exact h.execStack
  · exact h.execPeek
  · exact h.execSumwait
  · exact h.execSketch
  · exact h.execProof
  · exact h.execCommit
  · exact h.execSignal
  · exact h.execWaitsig
  · exact h.execSemaphore
  · exact h.execLedger
  · exact h.execTrap
  · exact h.execYield
  · exact h.execHalt
  · exact h.raiseHere.settle.ok

/-! ## EaselCtl -/

theorem execWatchdog {e : Fin 8} (h : s.Kept p) : Res.Kept p (execWatchdog e s) :=
  h.ok.ite h.reach.set.raise.settle.wdogRestart.ok

theorem runAsked {e : ℕ} (h : s.Kept p) : (s.runAsked e).Kept p := h.run.ite h

theorem execEaselRun {e : Fin 8} (h : s.Kept p) : Res.Kept p (execEaselRun e s) := h.writeRow h.runAsked.ok

theorem execEaselHalt {e : Fin 8} (h : s.Kept p) : Res.Kept p (execEaselHalt e s) := h.writeRow ((h.ite h.halt.haltIrq).ok)

theorem resetEasel {e : ℕ} (h : s.Kept p) : (s.resetEasel e).Kept p := by
  unfold State.resetEasel
  dsimp only
  exact ((h.halt.setPc.set.set.set.put.put.set.foldl (fun _ _ h1 => h1.set)).foldl (fun _ _ h1 => h1.setT)).easel_upd

theorem execEaselReset {e : Fin 8} (h : s.Kept p) : Res.Kept p (execEaselReset e s) := h.writeRow h.resetEasel.ok

theorem execEaselStep {who : Actor} {e : Fin 8} (h : s.Kept p) : Res.Kept p (execEaselStep who e s) := by
  unfold Machine.execEaselStep
  dsimp only
  exact h.writeBy (h.accError.ok.ite (h.run.easel_upd.runWord.ite h.ok))

theorem execScanStart {mask : Byte} (h : s.Kept p) : Res.Kept p (execScanStart mask s) :=
  h.writeRow (h.ok.ite h.set.scan_upd.ok)

theorem execScanStartDue (h : s.Kept p) : Res.Kept p (execScanStartDue s) :=
  h.ok.ite ((h.reach.foldl (fun _ _ h1 => (h1.runAsked.ite h1))).set.scan_upd.ok)

theorem pmPhase {e : ℕ} (h : s.Kept p) : (s.pmPhase e).Kept p := h.bump.easel_upd.ite h.easel_upd

theorem execPmAddrWrite {who : Actor} {e : Fin 8} {v : Word} (h : s.Kept p) : Res.Kept p (execPmAddrWrite who e v s) :=
  h.writeBy h.set.set.easel_upd.ok

theorem execPmDataRead {who : Actor} {e : Fin 8} (h : s.Kept p) : Res.Kept p (execPmDataRead who e s) := by
  unfold Machine.execPmDataRead
  dsimp only
  exact h.readBy (h.emit.pmPhase.ok.ite h.easel_upd.emit.pmPhase.ok)

theorem execPmDataWrite {who : Actor} {e : Fin 8} {v : Word} (h : s.Kept p) : Res.Kept p (execPmDataWrite who e v s) := by
  have hpm : ∀ f k w, ((s.easel' e f).scan' fun c => { c with pm := wr (fun _ => 0) c.pm k w }).Kept p := fun _ _ w =>
    kept_scan_upd _ h.easel_upd (fun _ hx => canonical_wr _ w hx) fun _ hx => hx
  unfold Machine.execPmDataWrite
  dsimp only
  exact h.writeBy (h.accRecord.ok.ite ((hpm _ _ _).pmPhase.ok.ite h.easel_upd.pmPhase.ok))

theorem execDmDataRead {who : Actor} {e : Fin 8} (h : s.Kept p) : Res.Kept p (execDmDataRead who e s) := by
  unfold Machine.execDmDataRead
  dsimp only
  exact h.readBy h.emit.bump.ok

theorem execDmDataWrite {who : Actor} {e : Fin 8} {v : Word} (h : s.Kept p) : Res.Kept p (execDmDataWrite who e v s) :=
  h.writeBy h.dmWrite.bump.ok

theorem execScanSigSet {mask : BitVec 16} (h : s.Kept p) : Res.Kept p (execScanSigSet mask s) := h.writeRow h.setSigs.ok

theorem execScanSigClear {mask hw : BitVec 16} (h : s.Kept p) : Res.Kept p (execScanSigClear mask hw s) :=
  h.writeRow h.set.setSigs.ok

/-! ## Emission -/

theorem dropActs {p0 : Machine.Action → Bool} (h : s.Kept p) : (s.dropActs p0).Kept p := h.scan_upd.showQueues

theorem applyStags {t : Wide} (h : s.Kept p) : (s.applyStags t).Kept p := h.emit_upd.dropActs

theorem pulse {q : List Instr} {m f sg pw : Nat} (h : s.Kept (q, none)) : (s.pulse m f sg pw).Kept (q, none) :=
  h.when fun _ ht => ht.emit_any

theorem diagnosed {m a : ℕ} {t : Wide} (h : s.Kept p) : (s.diagnosed m a t).Kept p :=
  h.emit_upd.set.set.emit_upd.ite h.emit_upd

theorem execDiagDue {m : Fin 16} {a : Fin 64} (h : s.Kept p) : Res.Kept p (execDiagDue m a s) :=
  h.ok.ite h.reach.set.bump.emit_upd.ok

theorem markDwell {q : Word} (h : s.Kept p) : (s.markDwell q).Kept p := h.scan_upd

theorem markShot {q : Word} {idx : ℕ} {f : ShotRec → ShotRec} (h : s.Kept p) : (s.markShot q idx f).Kept p := h.scan_upd

theorem moveEdge {on : Bool} {f : Wide} {back : ℕ} (h : s.Kept p) : (s.moveEdge on f back).Kept p :=
  h.when (fun _ h1 => h1.emitPin)

theorem placeEdges {f : Wide} (h : s.Kept p) : (s.placeEdges f).Kept p := by
  unfold State.placeEdges
  dsimp only
  exact h.ite h.drawNat.moveEdge.moveEdge

theorem emitShot {q : List Instr} {x : Shot} {l : LineRec} (h : s.Kept (q, none)) : (s.emitShot x l).Kept (q, none) :=
  (h.each fun _ _ h1 => h1.pulse.count.when fun _ h2 => h2.diagnosed).placeEdges.startTiu.markShot

theorem firstShot {h0 : Shot} (h : s.Kept p) : (s.firstShot h0).Kept p := h.scan_upd.ite h

theorem execShotFire {q : List Instr} (h : s.Kept (q, none)) : Res.Kept (q, none) (execShotFire s) := by
  unfold Machine.execShotFire
  split
  · exact h.ok
  · refine h.ok.ite ?_
    extract_lets s1 s2
    have h2 : s2.Kept (q, none) := h.reach.applyStags.scan_upd.showQueues.firstShot.markDwell
    split
    · exact h2.releaseEvents.ok
    · exact h2.markShot.releaseEvents.ok.ite h2.emitShot.releaseEvents.ok

theorem execDiagArmStrobe (h : s.Kept p) : Res.Kept p (execDiagArmStrobe s) := by
  unfold Machine.execDiagArmStrobe
  split
  · exact h.ok
  · exact h.reach.emitPin.emit_upd.ok.ite h.ok

theorem diagModule {q : List Instr} {x : State × List Nat} {l : LineRec} {g : Wide} {m : Nat} (h : x.1.Kept (q, none)) :
    (State.diagModule l g x m).1.Kept (q, none) := by
  unfold State.diagModule
  dsimp only
  split
  · exact h.scan_upd.showRemain.pulse.count.diagnosed
  · exact h.count

theorem execDiagPulse {q : List Instr} (h : s.Kept (q, none)) : Res.Kept (q, none) (execDiagPulse s) := by
  unfold Machine.execDiagPulse
  split
  case h_1 d l _ _ =>
    refine h.ok.ite ?_
    have h1 : ((s.reach d.g).emit' fun x => { x with arm := none }).Kept (q, none) := h.reach.emit_upd
    have hx : (d.mods.foldl (State.diagModule l d.g) ((s.reach d.g).emit' fun x => { x with arm := none }, [])).1.Kept
        (q, none) :=
      foldl_keeps (fun x : State × List Nat => x.1.Kept (q, none)) _ (fun _ _ hx => hx.diagModule) d.mods _ h1
    exact h1.ok.ite (hx.ite hx.startTiu.releaseEvents).ok
  case h_2 => exact h.ok

theorem execEwireFrameStart (h : s.Kept p) : Res.Kept p (execEwireFrameStart s) := h.ok.ite h.emitPin.emit_upd.ok

theorem ewLost (h : s.Kept p) : s.ewLost.Kept p :=
  h.set.err.count.emit_upd.set.emit_upd.err.startRestart.ite h.set.err.count.emit_upd

theorem diagFault {m a : ℕ} {short : Bool} (h : s.Kept p) : (s.diagFault m a short).Kept p :=
  h.set.set.err.count.when (fun _ h1 => h1.regionIrq)

theorem ewStatus {m : ℕ} {sent : EwSent} {w : BitVec 48} (h : s.Kept p) : (s.ewStatus m sent w).Kept p := by
  unfold State.ewStatus
  dsimp only
  exact ((h.set.when (fun _ h1 => h1.diagFault)).when (fun _ h1 => h1.diagFault)).emit_upd

theorem ewAll {m : Nat} {xs : List EwSent} {ws : List (BitVec 48)} (h : s.Kept p) : (s.ewAll m xs ws).Kept p := by
  induction xs generalizing s m ws with
  | nil => exact h
  | cons x xs ih =>
    cases ws with
    | nil => exact h
    | cons w ws => exact ih h.ewStatus ..

theorem ewAccept {sent : List EwSent} {st : List (BitVec 48)} (h : s.Kept p) : (s.ewAccept sent st).Kept p :=
  h.bump.count.emit_upd.ewAll.set.ite h.bump.count.emit_upd.ewAll

theorem execEwireReturn {words : List (BitVec 48)} (h : s.Kept p) : Res.Kept p (execEwireReturn words s) := by
  unfold Machine.execEwireReturn
  split
  · exact h.ok
  · split
    · exact h.ewAccept.ok
    · exact h.ewLost.ok

theorem execEwireReturnTimeout (h : s.Kept p) : Res.Kept p (execEwireReturnTimeout s) := h.ewLost.ok.ite h.ok

theorem execGaveupClear {who : Actor} (h : s.Kept p) : Res.Kept p (execGaveupClear who s) := h.writeBy h.set.emit_upd.ok

theorem ewLoad {m : ℕ} {i : EwItem} (h : s.Kept p) : (s.ewLoad m i).Kept p := h.emit_upd.when (fun _ h1 => h1.set)

theorem ewChain (h : s.Kept p) : s.ewChain.Kept p := h.set.ite (h.when (fun _ h1 => h1.set))

theorem execHdrmSample {v : BitVec 9} (h : s.Kept p) : Res.Kept p (execHdrmSample v s) := h.whenOn (h.ok.ite h.emit_upd.ok)

theorem headroom (h : s.Kept p) : s.headroom.Kept p := by
  unfold State.headroom
  split
  · exact h.set
  · exact h.set.set.emit_upd.ite ((h.set.set.emit_upd.emit_upd.ite h.set.set.emit_upd.emit_upd.set.err).ite
        h.set.set.emit_upd.emit_upd.set)

theorem execQuietPause (h : s.Kept p) : Res.Kept p (execQuietPause s) := by
  unfold Machine.execQuietPause
  dsimp only
  split
  · exact h.emit_upd.showLsup.ok.ite h.ok
  · exact h.ok

theorem endPause {broken : Bool} (h : s.Kept p) : (s.endPause broken).Kept p :=
  h.emit_upd.showLsup.when (fun _ h1 => h1.bump.count)

theorem execQuietPauseEnd {vs : BitVec 13} (h : s.Kept p) : Res.Kept p (execQuietPauseEnd vs s) :=
  h.ok.ite (h.set.endPause.ok.ite (h.set.ok.ite h.set.reach.endPause.ok))

theorem execLsupOv {v : BitVec 13} (h : s.Kept p) : Res.Kept p (execLsupOv v s) :=
  h.whenOn (h.set.ok.ite h.set.set.emit_upd.err.showLsup.ok)

theorem execLsupOvClear {who : Actor} (h : s.Kept p) : Res.Kept p (execLsupOvClear who s) :=
  h.writeBy h.set.emit_upd.showLsup.ok

theorem emitLine {l : LineRec} (h : s.Kept p) : (s.emitLine l).Kept p := by
  unfold State.emitLine
  dsimp only
  exact ((h.set.set.emitPin.emitPin.when (fun _ h1 => h1.set.set.count.emit_upd)).when (fun _ h1 => h1.headroom)).emit_upd

theorem execLineEnd (h : s.Kept p) : Res.Kept p (execLineEnd s) := by
  unfold Machine.execLineEnd
  split
  · exact h.ok
  · exact h.ok.ite h.reach.markDwell.scan_upd.set.ok

/-! ## HostIf -/

theorem execDoorbellPost {r : Fin 14} {post : Word} (h : s.Kept p) : Res.Kept p (execDoorbellPost r post s) :=
  h.writeBy (h.ok.ite (h.set.ok.ite h.set.err.ok))

theorem execFlushDoorbell {r : Fin 14} {next : BitVec 21} (h : s.Kept p) : Res.Kept p (execFlushDoorbell r next s) :=
  h.writeBy (h.closeBuffer.ok.ite h.ok)

theorem aer {n : ℕ} {hdr : Bool} (h : s.Kept p) : (s.aer n hdr).Kept p :=
  h.set.set.ite ((h.set.set.when (fun _ h1 => (h1.set.each (fun _ _ h2 => h2.drawWord.put)))).when (fun _ h1 => h1.emit))

theorem readFail {f : ReadEnd} (h : s.Kept p) : (s.readFail f).Kept p := by
  unfold State.readFail
  split
  · exact h
  · exact h.set
  · exact h.set
  · exact h.aer
  · exact h.aer

theorem execDescFetch {r : Fin 14} {fin : ReadEnd} {addr : Wide} {size cookie : Word} {tail : BitVec 128} (h : s.Kept p) :
    Res.Kept p (execDescFetch r fin addr size cookie tail s) :=
  (h.post.readFail.stopRing.ok.ite (h.post.stopRing.ok.ite h.post.ring_upd.showFetched.ok)).ite h.ok

theorem execBufferIdleClose {r : Fin 14} (h : s.Kept p) : Res.Kept p (execBufferIdleClose r s) :=
  h.clockReach.closeBuffer.ok.ite h.ok

theorem execCoalTimer {r : Fin 14} (h : s.Kept p) : Res.Kept p (execCoalTimer r s) := h.clockReach.ring_upd.irq.ok.ite h.ok

theorem execRingEnable {r : Fin 14} (h : s.Kept p) : Res.Kept p (execRingEnable r s) :=
  h.writeRow (h.ok.ite h.ring_upd.set.set.set.set.set.set.showFetched.statusBlock.ok)

theorem execRingDisable {r : Fin 14} {flush : Bool} {next : BitVec 21} (h : s.Kept p) :
    Res.Kept p (execRingDisable r flush next s) :=
  h.writeRow (h.closeBuffer.ring_upd.set.set.set.set.showFetched.statusBlock.ok.ite h.ok)

theorem execRingResume {r : Fin 14} (h : s.Kept p) : Res.Kept p (execRingResume r s) :=
  h.writeRow (h.set.set.set.statusBlock.ok.ite h.set.ok)

theorem stopRings {cause : ℕ} (h : s.Kept p) : (s.stopRings cause).Kept p := by
  unfold State.stopRings
  dsimp only
  exact h.each (fun _ _ h1 => (h1.drawNat.stopRing.ite h1))

theorem execRingStop {pm : Bool} (h : s.Kept p) : Res.Kept p (execRingStop pm s) :=
  h.whenOn ((h.set.stopRings.ok.ite h.ok).ite (h.set.stopRings.ok.ite h.ok))

theorem execIrqCauseClear {mask hw : Wide} (h : s.Kept p) : Res.Kept p (execIrqCauseClear mask hw s) :=
  h.writeRow ((h.put.put.each (fun _ _ h1 => h1.irq)).ok)

theorem linkDown (h : s.Kept p) : s.linkDown.Kept p := h.resetHost.bump.err.count

theorem execConventionalReset {why : ResetCause} (h : s.Kept p) : Res.Kept p (execConventionalReset why s) := by
  unfold Machine.execConventionalReset
  split
  · exact (h.host_upd.when (fun _ h1 => h1.linkDown)).ok
  · exact h.linkDown.ok.ite h.ok
  · exact h.linkDown.ok.ite h.ok

theorem execFlr {pf1 : Bool} (h : s.Kept p) : Res.Kept p (execFlr pf1 s) := by
  refine Res.Kept.ite (ok (host_upd (safe_bounded (io_upd h.orphanRequest fun _ k => ?_) ?_ ?_ ?_)))
    (ok (host_upd (showWarm (io_upd h fun _ k => ?_))))
  · exact (k.resetRange ..).resetRange ..
  · exact fun _ _ => Nat.zero_le _
  · exact fun _ hx => hx
  · exact fun _ hx => hx
  · exact (((k.resetRange ..).resetRange ..).resetRange ..).resetRange ..

theorem perstDeassertHost (h : s.Kept p) : (perstDeassertHost s).Kept p := h.host_upd

theorem execLinkTrained {speed : BitVec 3} {width : BitVec 4} {flit : Bool} (h : s.Kept p) :
    Res.Kept p (execLinkTrained speed width flit s) := Res.kept_fault.ite (h.set.set.setBit.set.stageDone.ok.ite h.ok)

theorem execLinkRecovery {replays : BitVec 8} (h : s.Kept p) : Res.Kept p (execLinkRecovery replays s) := by
  have hio : (s.io' fun x => { x with recovery := true }).Kept p :=
    h.io_upd fun _ k => by exact ⟨k.regs, k.sketch, k.wide, k.fifo, k.held, k.fires⟩
  exact hio.bump.count.count.ok.ite h.ok

/-- What Recovery held back is no pulse, so the pulses that have left stay the same. -/
theorem execRecoveryExit (h : s.Kept p) : Res.Kept p (execRecoveryExit s) :=
  (h.io_upd fun x k => by
    have hheld : x.held.filter Out.isFire = [] := by simpa using k.held
    split
    · exact ⟨k.regs, k.sketch, k.wide, k.fifo, rfl, fun l e => by simpa [hheld] using k.fires l e⟩
    · exact k).ok

/-! ## Lanes -/

theorem adaptOne {l i : ℕ} (h : s.Kept p) : (s.adaptOne l i).Kept p := by
  unfold State.adaptOne
  dsimp only
  exact h.drawNat.set.lane_upd

theorem adapt {l : ℕ} (h : s.Kept p) : (s.adapt l).Kept p :=
  h.ite ((h.holdCtle.when (fun _ h1 => h1.adaptOne)).when (fun _ h1 => (h1.each (fun _ _ h2 => h2.adaptOne))))

theorem countBlock {l : ℕ} (h : s.Kept p) : (s.countBlock l).Kept p := h.setWide.set

theorem countUnlocked {l : ℕ} (h : s.Kept p) : (s.countUnlocked l).Kept p := h.bumpSat

theorem countError {l : ℕ} (h : s.Kept p) : (s.countError l).Kept p := h.bumpSat.countLane.countTile

theorem deliver {l : ℕ} {hdr : BitVec 2} {w : Wide} (h : s.Kept p) : (s.deliver l hdr w).Kept p :=
  h.lane_upd.setFrozen.ite (h.countTile.ite h)

theorem lockedBlock {l : ℕ} {hdr : BitVec 2} {w : Wide} (h : s.Kept p) : (s.lockedBlock l hdr w).Kept p :=
  (h.countError.ite h.deliver).countBlock.leaveLock.setLane.set.bumpSat.countLane.lane_upd.setFrozen.ite ((h.countError.ite
      h.deliver).countBlock.lane_upd)

theorem huntBlock {l : ℕ} {hdr : BitVec 2} {w : Wide} (h : s.Kept p) : (s.huntBlock l hdr w).Kept p :=
  (h.setLane.lane_upd.laneLocked.countError.ite h.setLane.lane_upd.laneLocked.deliver).countBlock.ite
      h.setLane.lane_upd.countUnlocked

theorem wakeDone {l : ℕ} (h : s.Kept p) : (s.wakeDone l).Kept p := h.setLane.lane_upd.bump.countLane.laneLocked

theorem wakeBlock {l : ℕ} {hdr : BitVec 2} {w : Wide} (h : s.Kept p) : (s.wakeBlock l hdr w).Kept p :=
  (h.wakeDone.ite (h.lane_upd.ite h.lane_upd)).ite (h.wakeDone.ite h.lane_upd)

theorem clkBlock {l : Nat} {hdr : BitVec 2} {raw w : Wide} (h : s.Kept p) : (s.clkBlock l hdr raw w).Kept p := by
  unfold State.clkBlock
  extract_lets x y s1
  have h1 : s1.Kept p := h.lane_upd
  split
  · exact h1
  · exact h1.freeze.adapt.wakeBlock
  · exact h1.freeze.adapt

theorem atReceiver {l : Nat} {hdr : BitVec 2} {w : Wide} (h : s.Kept p) :
    ∀ x ∈ s.atReceiver l hdr w, x.2.2.Kept p := by
  unfold State.atReceiver
  dsimp only
  intro x hx
  split_ifs at hx
  · obtain rfl := Option.some.inj hx
    exact h
  · obtain rfl := Option.some.inj hx
    exact h.loopedBlock
  · exact absurd hx (Option.not_mem_none _)

theorem execBlockReceive {l : Fin 128} {hdr : BitVec 2} {payload : Wide} (h : s.Kept p) :
    Res.Kept p (execBlockReceive l hdr payload s) := by
  unfold Machine.execBlockReceive
  dsimp only
  refine h.ok.ite ?_
  split
  · exact h.ok
  case h_2 rx wire s0 hrx =>
    have h0 : s0.Kept p := h.atReceiver (rx, wire, s0) hrx
    have h1 : ∀ b f o, o.isFire = false → ((s0.lane' l f).onlyIf b (State.emit o)).Kept p := fun b f o ho =>
      h0.lane_upd.when fun _ ht => ht.emit ho
    have h2 : ∀ b f g, (((s0.lane' l f).onlyIf b (State.emit (.txRaw l hdr.toNat payload))).lane' l g).Kept p := fun b f g =>
      (h1 b f _ rfl).lane_upd
    refine ((h1 _ _ _ rfl).bumpSat.lane_upd.adapt.when fun _ ht => ht.countUnlocked).ok.ite ?_
    exact (h2 ..).adapt.countUnlocked.ok.ite ((h2 ..).adapt.lockedBlock.ok.ite
      (((h2 ..).clkBlock.ite (h2 ..).adapt.wakeBlock).ok.ite (h2 ..).adapt.huntBlock.ok))

theorem execCdrUpdate {l : Fin 128} {vote : ℤ} (h : s.Kept p) : Res.Kept p (execCdrUpdate l vote s) :=
  Res.kept_fault.ite (h.ok.ite (h.set.lane_upd.when fun _ h1 => h1.set).ok)

theorem execFreqErr {l : Fin 128} (h : s.Kept p) : Res.Kept p (execFreqErr l s) :=
  h.ok.ite (h.set.set.laneRecord.ok.ite h.ok)

theorem execLaneRetrain {l : Fin 128} (h : s.Kept p) : Res.Kept p (execLaneRetrain l s) :=
  h.writeRow (h.set.ok.ite ((h.when (fun _ h1 => h1.set)).retrain.ok))

theorem execRetrainTimeout {l : Fin 128} (h : s.Kept p) : Res.Kept p (execRetrainTimeout l s) :=
  h.ok.ite ((h.set.laneFailed.ite h.set.retrain).ok.ite h.ok)

theorem execTxSleep {l : Fin 128} (h : s.Kept p) : Res.Kept p (execTxSleep l s) := h.ok.ite (h.txSleep.ok.ite h.ok)

theorem execTxWake {l : Fin 128} (h : s.Kept p) : Res.Kept p (execTxWake l s) := h.ok.ite ((h.txWake.ite h).ok)

theorem execSleepAnnExpire {l : Fin 128} (h : s.Kept p) : Res.Kept p (execSleepAnnExpire l s) :=
  h.ok.ite (h.lane_upd.setFrozen.ok.ite h.ok)

theorem execSquelchAssert {l : Fin 128} (h : s.Kept p) : Res.Kept p (execSquelchAssert l s) :=
  (h.lane_upd.leaveLock.setLane.setFrozen.ite h.lane_upd.leaveLock.setLane.setFrozen.set.laneRecord).ok.ite h.lane_upd.ok

theorem execSquelchDeassert {l : Fin 128} (h : s.Kept p) : Res.Kept p (execSquelchDeassert l s) :=
  h.lane_upd.setLane.setFrozen.ok.ite h.lane_upd.ok

theorem execWakeFail {l : Fin 128} (h : s.Kept p) : Res.Kept p (execWakeFail l s) :=
  h.ok.ite (h.set.laneRecord.retrain.ok.ite h.ok)

theorem execEsGo {l : Fin 128} (h : s.Kept p) : Res.Kept p (execEsGo l s) :=
  h.writeRow ((h.set.set.lane_upd.set.ite h.set.set.lane_upd.set.set.tapEye).ok)

theorem execEsDone {l : Fin 128} {errs : Word} (h : s.Kept p) : Res.Kept p (execEsDone l errs s) :=
  h.set.set.set.tapEye.ok.ite h.ok

/-! ## PowerOps -/

theorem dvfsStep {n : ℕ} (h : s.Kept p) : (s.dvfsStep n).Kept p := h.chip_upd

theorem startDvfs {n : ℕ} (h : s.Kept p) : (s.startDvfs n).Kept p :=
  h.chip_upd.set.dvfsStep.ite (h.chip_upd.set.dvfsStep.ite h.chip_upd.set.dvfsStep)

theorem endDvfs (h : s.Kept p) : s.endDvfs.Kept p := by
  unfold State.endDvfs
  split
  · exact h.dvfsStep.set.chip_upd.ite h.dvfsStep.set.startDvfs
  · exact h.dvfsStep.set

theorem afterStep {next : State → State} (h : s.Kept p) (k : ∀ t : State, t.Kept p → (next t).Kept p) :
    (s.afterStep next).Kept p := by
  unfold State.afterStep
  split
  · exact h.startDvfs
  · exact k s h

theorem setTarget {n : ℕ} (h : s.Kept p) : (s.setTarget n).Kept p := h.set.chip_upd.ite (h.set.ite h.set.startDvfs)

theorem dvfsFail (h : s.Kept p) : s.dvfsFail.Kept p := h.set.err.dvfsStep

theorem dieTemp {result : ℕ} (h : s.Kept p) : (s.dieTemp result).Kept p :=
  (h.when (fun _ h1 => h1.chipFault)).set.err.count.chip_upd.setTarget.ite (h.when (fun _ h1 => h1.chipFault))

/-! ## Monitor -/

theorem execMonCrossing {m : Fin 16} (h : s.Kept p) : Res.Kept p (execMonCrossing m s) := h.bump.ok.ite h.ok

theorem chain_upd {k : ℕ} {f : MoniChain → MoniChain} (h : s.Kept p) : (s.chain' k f).Kept p := h.moni_upd

theorem varnishSource {s0 : State} {x : ℕ} (h : s.Kept p) : (State.varnishSource s0 x s).Kept p := h.ite h.set

theorem execSincOutput {k : Fin 20} {v : BitVec 24} (h : s.Kept p) : Res.Kept p (execSincOutput k v s) :=
  h.ok.ite ((h.reach.chain_upd.setBit.tapMonitor.ite h.reach.chain_upd).ok)

theorem trueUpGroup {t : ℤ} {cu g : ℕ} (h : s.Kept p) : (s.trueUpGroup t cu g).Kept p := by
  unfold State.trueUpGroup
  dsimp only
  refine showRemain ?_
  split
  · exact h.scan_upd.count.violation
  · exact h.scan_upd.count

theorem trueUp {m : ℕ} {v t : ℤ} {unset ovr : Bool} (h : s.Kept p) : (s.trueUp m v t unset ovr).Kept p :=
  ((h.scan_upd.when (fun _ h1 => h1.violation)).ite ((h.scan_upd.each (fun _ _ h1 => (h1.ite h1.trueUpGroup))).ite
      h.scan_upd)).pruneCharges

theorem pairRatio {th ref : Int} (h : s.Kept p) : (s.pairRatio th ref).2.Kept p := by
  unfold State.pairRatio
  split
  · exact h.drawNat
  · exact h.drawBit

theorem ovenPair {v : BitVec 24} {unset : Bool} (h : s.Kept p) : (s.ovenPair v unset).Kept p := h.ite h.pairRatio.tbas_upd

theorem execSlowSample {k : Fin 20} {v : BitVec 24} (h : s.Kept p) : Res.Kept p (execSlowSample k v s) :=
  h.ok.ite (((h.reach.chain_upd.setWide.set.setBit.setBit.bump.when (fun _ h1 => h1.set.count)).when (fun _ h1 =>
      h1.err)).tapMonitor.trueUp.ok.ite ((h.reach.chain_upd.setWide.set.setBit.setBit.setBit.bump.when (fun _ h1 =>
      h1.ovenPair)).ok))

theorem moveSettle {k : ℕ} {c : Wide} (h : s.Kept p) : (s.moveSettle k c).Kept p := h.chain_upd.set.ite h.chain_upd

theorem execMoniSync (h : s.Kept p) : Res.Kept p (execMoniSync s) := h.writeRow h.set.moni_upd.ok

theorem execMoniSyncReset (h : s.Kept p) : Res.Kept p (execMoniSyncReset s) := by
  unfold Machine.execMoniSyncReset
  split
  · exact h.ok
  · exact h.ok.ite ((h.reach.each (fun _ _ h1 => ((h1.chain_upd.when (fun _ h2 => h2.set)).ite
        h1))).setWide.setBit.moni_upd.ok)

theorem pinOpens {pin : ℕ} (h : s.Kept p) : (s.pinOpens pin).Kept p := by
  unfold State.pinOpens
  dsimp only
  exact (h.each (fun _ _ h1 => (h1.chain_upd.ite h1))).moni_upd

theorem execXsOpen {x : Fin 8} {now : Bool} (h : s.Kept p) : Res.Kept p (execXsOpen x now s) := by
  refine h.whenOn ?_
  split
  · exact h.ok
  · exact h.ok.ite (h.set.ok.ite h.set.set.err.count.pinOpens.ok)

theorem hkSlot (h : s.Kept p) : s.hkSlot.Kept p := by
  unfold State.hkSlot
  dsimp only
  split
  · exact h.moni_upd.ite h
  · exact h

theorem hkFill (h : s.Kept p) : s.hkFill.Kept p := h.hkSlot.hkSlot

theorem startHk (h : s.Kept p) : s.startHk.Kept p := h.set.ite h.set.set.moni_upd.hkFill

theorem noPeriod (h : s.Kept p) : s.noPeriod.Kept p := h.moni_upd

theorem execHkSequenceStart (h : s.Kept p) : Res.Kept p (execHkSequenceStart s) := by
  refine h.ok.ite ?_
  split
  · exact (h.startHk.noPeriod.ite h).ok
  · exact (h.startHk.moni_upd.count.ok.ite h.ok).ite (h.ok.ite ((h.clockReach.moni_upd.startHk.ite
        h.clockReach.moni_upd.moni_upd).ok))
  · exact (h.startHk.noPeriod.ite h).ok
  · exact h.noPeriod.ok

theorem endHk (h : s.Kept p) : s.endHk.Kept p := h.set.bump.setWide.moni_upd.hkFill.ite h

theorem hkResult {c : HkConv} {sum : ℕ} {open_ : Bool} {b : HkBusy} (h : s.Kept p) : (s.hkResult c sum open_ b).Kept p :=
  (((h.tapHk.set.setBit.set.set.set.moni_upd.when (fun _ h1 => h1.set.regionIrq)).when (fun _ h1 =>
      h1.err.count)).dieTemp.ite ((h.tapHk.set.setBit.set.set.set.moni_upd.when (fun _ h1 => h1.set.regionIrq)).when (fun _
      h1 => h1.err.count))).railRead

theorem reqResult {p0 : ℕ} {c : HkConv} {r : ℕ} {open_ : Bool} {slice : ℕ} (h : s.Kept p) :
    (s.reqResult p0 c r open_ slice).Kept p :=
  (h.set.set.set.setBit.set.dieTemp.ite h.set.set.set.setBit.set).railRead

theorem execHkConversion {result : BitVec 12} (h : s.Kept p) : Res.Kept p (execHkConversion result s) := by
  unfold Machine.execHkConversion
  split
  · refine h.ok.ite ?_
    split
    · exact h.clockReach.moni_upd.reqResult.hkFill.endHk.ok
    · exact h.clockReach.moni_upd.moni_upd.hkResult.hkFill.endHk.ok.ite h.clockReach.moni_upd.moni_upd.hkFill.ok
  · exact h.ok

theorem hkRequest {p0 : ℕ} (h : s.Kept p) : (s.hkRequest p0).Kept p :=
  h.set.ite (h.set.set.moni_upd.hkFill.count.ite (h.set.set.moni_upd.ite h.set.set.moni_upd.hkFill))

theorem execHkReqGo {p0 : Fin 2} {both : Bool} (h : s.Kept p) : Res.Kept p (execHkReqGo p0 both s) :=
  h.writeRow ((h.hkRequest.hkRequest.ite h.hkRequest).ok)

theorem execHkRotate (h : s.Kept p) : Res.Kept p (execHkRotate s) :=
  h.whenOn (h.ok.ite h.clockReach.set.set.set.count.moni_upd.ok)

theorem execHkSliceFail {slice : Fin 3} (h : s.Kept p) : Res.Kept p (execHkSliceFail slice s) :=
  h.set.set.err.ok.ite (h.set.set.moni_upd.startRestart.ok.ite h.ok)

/-! ## SecuOps -/

theorem blowBits {n : Nat} (h : s.Kept p) : (State.blowBits n s).Kept p := by
  induction n generalizing s with
  | zero => exact h
  | succ n ih => exact h.err.ite (ih h.secu_upd)

theorem blowSvn {target : ℕ} (h : s.Kept p) : (s.blowSvn target).Kept p := h.blowBits.set

theorem showHss (h : s.Kept p) : s.showHss.Kept p := by
  unfold State.showHss
  dsimp only
  split <;> exact h.setBit.set.set.set

theorem writeHss {f : HssCopy → HssCopy} (h : s.Kept p) : (s.writeHss f).Kept p := by
  unfold State.writeHss
  split
  · exact h.secu_upd.showHss
  · exact h

theorem startTree (h : s.Kept p) : s.startTree.Kept p := h.writeHss.secu_upd.showHss

theorem useTree (h : s.Kept p) : s.useTree.Kept p := h.writeHss.secu_upd.showHss

theorem afterLeaf {q : ℕ} (h : s.Kept p) : (s.afterLeaf q).Kept p := h.startTree.ite (h.useTree.ite h)

theorem signHss {msg : List Byte} (h : s.Kept p) : (s.signHss msg).2.Kept p := by
  unfold State.signHss
  split
  · exact h
  · exact h.writeHss.secu_upd.bump.count.afterLeaf

theorem startHss (h : s.Kept p) : s.startHss.Kept p := by
  unfold State.startHss
  split
  · exact h.secu_upd.showHss
  · exact h.showHss.err

theorem setMeasure {i : ℕ} {h0 : BitVec 384} (h : s.Kept p) : (s.setMeasure i h0).Kept p := h.secu_upd

theorem measureOtp (h : s.Kept p) : s.measureOtp.Kept p := h.setMeasure

theorem issueAlias (h : s.Kept p) : s.issueAlias.Kept p :=
  h.ite (h.secu_upd.ite (h.secu_upd.ite ((h.clockReach.ite h).signHss.secu_upd)))

theorem issueDue (h : s.Kept p) : s.issueDue.Kept p := h.when (fun _ h1 => h1.issueAlias)

theorem deriveKeys (h : s.Kept p) : s.deriveKeys.Kept p := h.startHss.secu_upd.issueAlias.ite h.startHss.secu_upd

theorem clearKeys (h : s.Kept p) : s.clearKeys.Kept p := h.secu_upd

theorem showLeft (h : s.Kept p) : s.showLeft.Kept p := (h.set.ite h).set.ite (h.set.ite h)

theorem idle (h : s.Kept p) : (s.idle).Kept p := by
  have htck : (s.setTck false).Kept p := h.setTck
  exact (htck.wrap.ite ((htck.prewrap.io_upd fun _ k => k.tick _).ite (htck.io_upd fun _ k => k.tick
      _))).showLeft.issueDue.drainStage.ite (htck.when fun _ h1 => h1.io_upd fun _ k => ⟨k.regs, k.sketch, k.wide, k.fifo,
      k.held, k.fires⟩)

theorem stopPerturb (h : s.Kept p) : s.stopPerturb.Kept p := h.each (fun _ _ h1 => h1.set.set.set.set.set.set.set)

theorem endSession (h : s.Kept p) : s.endSession.Kept p := h.ite h.set.set.set.stopPerturb.secu_upd.err

theorem rejectToken (h : s.Kept p) : s.rejectToken.Kept p := by
  unfold State.rejectToken
  dsimp only
  exact h.err.count.secu_upd

theorem useNonce (h : s.Kept p) : s.useNonce.Kept p := h.secu_upd

theorem zeroise (h : s.Kept p) : s.zeroise.Kept p := h.clearKeys.secu_upd.safe_upd.set.showHss.err

/-! ## Proof -/

theorem finishProof (h : s.Kept p) : s.finishProof.Kept p := by
  unfold State.finishProof
  split
  · exact h.set.set.set.set.chip_upd.showStale
  · exact h.set.set.set.set.showStale

theorem execProofComplete (h : s.Kept p) : Res.Kept p (execProofComplete s) := h.finishProof.ok.ite h.ok

/-! ## Varnish -/

theorem bringIn {v : Wide} {old : Sys2Proof.SMap Word} (h : s.Kept p) : (s.bringIn v old).Kept p :=
  (h.each (fun _ _ h1 => h1.put)).chip_upd

theorem varnishTbas {s0 : State} (h : s.Kept p) : (State.varnishTbas s0 s).Kept p := by
  unfold State.varnishTbas
  exact h.each fun _ _ h1 => h1.ite h1.setBlock

theorem varnishWidth {s0 : State} {v : Wide} {w : ℕ} (h : s.Kept p) : (State.varnishWidth s0 v w s).Kept p := h.ite h.scan_upd

theorem varnishLimit {s0 : State} {v : Wide} {g : ℕ} (h : s.Kept p) : (State.varnishLimit s0 v g s).Kept p :=
  (h.each (fun _ _ h1 => (h1.scan_upd.ite h1))).showRemain

theorem varnishBank {v : Wide} {e : ℕ} (h : s.Kept p) : (s.varnishBank v e).Kept p := h.swapBank.ite h

theorem varnishScan {s0 : State} {v : Wide} (h : s.Kept p) : (State.varnishScan s0 v s).Kept p :=
  ((h.each (fun _ _ h1 => h1.varnishWidth)).each (fun _ _ h1 => h1.varnishLimit)).each (fun _ _ h1 => h1.varnishBank)

theorem varnishEmit {s0 : State} {v : Wide} {old : Sys2Proof.SMap Word} (h : s.Kept p) :
    (State.varnishEmit s0 v old s).Kept p := by
  refine showLsup (when (when (each (each h.applyStags ?_) ?_) fun _ h1 => h1.ewChain) fun _ h1 => h1.switchLsup)
  · refine fun _ _ h1 => h1.ite ?_
    split
    · exact h1.emit_upd.ite h1
    · exact h1
  · intro _ _ h1
    split
    · exact h1.ewLoad
    · exact h1

theorem varnishRx {s0 : State} {l : ℕ} (h : s.Kept p) : (State.varnishRx s0 l s).Kept p :=
  h.ite (h.retrain.set.ite h.leaveLock.setLane)

theorem varnishTx {s0 : State} {l : ℕ} (h : s.Kept p) : (State.varnishTx s0 l s).Kept p :=
  h.ite ((h.when (fun _ h1 => h1.fillIdle)).set.lane_upd.when (fun _ h1 => h1.preamble))

theorem varnishGen {s0 : State} {l : ℕ} (h : s.Kept p) : (State.varnishGen s0 l s).Kept p := h.ite h.set

theorem varnishTest {s0 : State} {l : ℕ} (h : s.Kept p) : (State.varnishTest s0 l s).Kept p :=
  h.ite ((h.when (fun _ h1 => h1.fillIdle)).emit)

theorem varnishLane {s0 : State} {l : ℕ} (h : s.Kept p) : (State.varnishLane s0 l s).Kept p :=
  h.varnishGen.varnishRx.varnishTx.varnishTest.holdCtle

theorem portOff {t : ℕ} (h : s.Kept p) : (s.portOff t).Kept p := h.set.set.set.set.set.port_upd

theorem varnishTile {s0 : State} {t : ℕ} (h : s.Kept p) : (State.varnishTile s0 t s).Kept p :=
  (h.ite h.sleepNow).ite (h.portOff.ite (h.ite (h.port_upd.enterLanes.ite h)))

theorem varnishLnk {s0 : State} (h : s.Kept p) : (State.varnishLnk s0 s).Kept p :=
  (((h.each (fun _ _ h1 => h1.varnishLane)).each (fun _ _ h1 => h1.varnishTile)).each (fun _ _ h1 =>
      h1.keepClock)).showBringUp

theorem varnishHst (h : s.Kept p) : s.varnishHst.Kept p := h.each (fun _ _ h1 => h1.showPalettes)

theorem varnishOutp {s0 : State} (h : s.Kept p) : (State.varnishOutp s0 s).Kept p := by
  unfold State.varnishOutp
  exact h.each fun _ _ h1 => h1.outp_upd.ite h1

theorem varnishInput {s0 : State} {v : Wide} {m : ℕ} (h : s.Kept p) :
    (State.varnishInput s0 v m s).Kept p := h.moveSettle.ite h

theorem varnishSense {s0 : State} {v : Wide} {k : ℕ} (h : s.Kept p) :
    (State.varnishSense s0 v k s).Kept p := h.moveSettle.ite h

theorem varnishMoni {s0 : State} {v : Wide} (h : s.Kept p) : (State.varnishMoni s0 v s).Kept p :=
  (((h.each (fun _ _ h1 => h1.varnishInput)).each (fun _ _ h1 => h1.varnishSense)).each (fun _ _ h1 =>
      h1.varnishSource)).when (fun _ h1 => h1.noPeriod)

theorem varnishSafe {s0 : State} (h : s.Kept p) : (State.varnishSafe s0 s).Kept p := by
  have hsrc : ∀ n, (if s0.permitSrc = s.permitSrc then s else
      (if s.safeSt = stTESTING ∨ s.safeSt = stARMED then s.enterStopped else s.safe' fun x => { x with permit := false }).set
        Fd.SAFE_MSG_SEQ_SEQ n).Kept p := fun _ => h.ite (h.enterStopped.ite h.safe_upd).set
  unfold State.varnishSafe
  dsimp only
  split
  · exact hsrc _
  · exact (hsrc _).set.safe_upd.secu_upd

theorem applyShadow {which : ℕ → Bool} {v : Wide} (h : s.Kept p) : (s.applyShadow which v).Kept p :=
  ((((((h.bringIn.when (fun _ h1 => h1.varnishTbas)).when (fun _ h1 => h1.varnishScan)).when (fun _ h1 =>
      h1.varnishEmit)).when (fun _ h1 => h1.varnishLnk)).varnishHst.when (fun _ h1 => h1.varnishOutp)).when (fun _ h1 =>
      h1.varnishMoni)).when (fun _ h1 => h1.varnishSafe)

theorem varnish {v : Wide} (h : s.Kept p) : (s.varnish v).Kept p :=
  (h.applyShadow.chip_upd.set.secu_upd.io_upd fun _ k => k.shadow _).showPend

theorem execVarnish (h : s.Kept p) : Res.Kept p (execVarnish s) := h.reach.varnish.ok.ite h.ok

theorem takeHeld {r : Nat} (h : s.Kept p) : (s.takeHeld r).Kept p :=
  (h.applyShadow.chip_upd.io_upd fun _ k => k.shadow _).ite h

/-! ## TimeLoss -/

theorem loseTime {blame : ℕ} (h : s.Kept p) : (s.loseTime blame).Kept p :=
  h.closeShot.tbas_upd.releaseEvents.set.set.err.cause

theorem blamed {blame : ℕ} (h : s.Kept p) : (s.blamed blame).Kept p := h.chip_upd.set.mgmt_upd.ite h.chip_upd.set.set

theorem execTbLoss {monitor : Bool} (h : s.Kept p) : Res.Kept p (execTbLoss monitor s) :=
  h.ok.ite ((h.loseTime.blamed.showIslands.ok.ite h.ok).ite (h.loseTime.set.showIslands.ok.ite h.ok))

theorem rebaseScan {d : Wide} (h : s.Kept p) : (s.rebaseScan d).Kept p := h.scan_upd.set.emit_upd

theorem rebaseHst {d : Wide} (h : s.Kept p) : (s.rebaseHst d).Kept p := h.hst_upd.outp_upd

theorem rebaseMemc {d : Wide} (h : s.Kept p) : (s.rebaseMemc d).Kept p := h.memc_upd.moni_upd

theorem rebaseHost {d : Wide} (h : s.Kept p) : (s.rebaseHost d).Kept p :=
  h.host_upd.lnk_upd.tbas_bounded (by intro _ _; exact Nat.zero_le _)

theorem rebaseMgmt {d : Wide} (h : s.Kept p) : (s.rebaseMgmt d).Kept p := h.mgmt_upd.secu_upd

theorem rebaseSafe {d : Wide} (h : s.Kept p) : (s.rebaseSafe d).Kept p :=
  h.safe_bounded (by intro _ hx; exact hx) (by intro _ hx; exact (List.length_map _).trans_le hx)
    (by intro _ hx; exact (List.length_map _).trans_le hx)

theorem rebaseChip {d : Wide} (h : s.Kept p) : (s.rebaseChip d).Kept p := h.set.set.chip_upd

theorem rebase {d : Wide} (h : s.Kept p) : (s.rebase d).Kept p :=
  h.rebaseScan.rebaseHst.rebaseMemc.rebaseHost.rebaseMgmt.rebaseSafe.rebaseChip

theorem flushQueues (h : s.Kept p) : s.flushQueues.Kept p := h.scan_upd.count.showQueues

theorem forgetLines (h : s.Kept p) : s.forgetLines.Kept p := h.each (fun _ _ h1 => h1.easel_upd)

theorem swapAll {d : Wide} (h : s.Kept p) : (s.swapAll d).Kept p := by
  unfold State.swapAll
  dsimp only
  exact ((h.each (fun _ _ h1 => h1.degradeBanks)).each (fun _ _ h1 => h1.swapSector)).scan_upd

theorem moveCharges {d : Wide} (h : s.Kept p) : (s.moveCharges d).Kept p := h.scan_upd

theorem commitAtRestart (h : s.Kept p) : s.commitAtRestart.Kept p := h.cancelCommit.ite (h.set.set.varnish.ite h)

theorem restartEasel {e : ℕ} (h : s.Kept p) : (s.restartEasel e).Kept p := h.ite h.resetEasel.setT.run

theorem restartTime (h : s.Kept p) : s.restartTime.Kept p :=
  ((h.applyStags.flushQueues.forgetLines.swapAll.moveCharges.rebase.startCount.set.set.chip_upd.commitAtRestart.each (fun _
      _ h1 => h1.restartEasel)).each (fun _ _ h1 => h1.startRestart)).showIslands

theorem execTbRestart (h : s.Kept p) : Res.Kept p (execTbRestart s) := h.restartTime.ok.ite h.ok

theorem execLpllUnlock {n : Fin 4} {b : Bool} (h : s.Kept p) : Res.Kept p (execLpllUnlock n b s) :=
  h.ok.ite h.set.set.err.startRestart.ok

/-! ## Power -/

theorem passUs {n : Nat} (h : s.Kept p) : (s.passUs n).Kept p :=
  h.ite (h.io_upd fun _ k => ⟨k.regs, k.sketch, k.wide, k.fifo, k.held, k.fires⟩)

theorem judgeRosc {count : ℕ} (h : s.Kept p) : (s.judgeRosc count).Kept p := h.passUs.chip_upd.set.ite h.passUs.chip_upd

theorem judgeXo {count : ℕ} {amplitude : Bool} (h : s.Kept p) : (s.judgeXo count amplitude).Kept p :=
  h.passUs.chip_upd.set.tbas_upd.stageDone.ite h.passUs.chip_upd

theorem startRosc (h : s.Kept p) : s.startRosc.Kept p := h.passUs.chip_upd.ite h

theorem execOscJudge {xo : Bool} {count : BitVec 16} {amplitude : Bool} (h : s.Kept p) :
    Res.Kept p (execOscJudge xo count amplitude s) :=
  h.ok.ite (((h.ite h.startRosc).judgeXo.showIslands.ok.ite h.ok).ite (h.ok.ite ((h.ite
      h.startRosc).judgeRosc.showIslands.ok)))

theorem execStandingMonitor {rosc lf : BitVec 16} (h : s.Kept p) : Res.Kept p (execStandingMonitor rosc lf s) :=
  h.ok.ite (h.set.chip_upd.ok.ite (h.set.chip_upd.ok.ite h.set.set.set.count.err.chip_upd.set.ok))

theorem stagesFrom {k : ℕ} (h : s.Kept p) : (s.stagesFrom k).Kept p := h.set

theorem clkBootFail (h : s.Kept p) : s.clkBootFail.Kept p := h.chip_upd.err.driveFault.cause

theorem coreOff (h : s.Kept p) : (s.coreOff).Kept p where
  io := ⟨canonical_filter _ h.io.regs, canonical_filter _ h.io.sketch, canonical_filter _ h.io.wide, h.io.fifo, rfl,
      h.io.fires⟩
  pm := rfl
  dm := rfl
  log := h.log
  ptm := Nat.zero_le _
  capQ := Nat.zero_le _
  smTx := h.smTx
  waitA := h.waitA
  waitB := h.waitB
  pending := h.pending

theorem execStartupRetry (h : s.Kept p) : Res.Kept p (execStartupRetry s) :=
  h.ok.ite ((h.stagesFrom.set.set.set.set.bump.coreOff.tbas_upd.chip_upd.clkBootFail.ite
      h.stagesFrom.set.set.set.set.bump.coreOff.tbas_upd.chip_upd).showIslands.ok)

theorem execGateAbort {who : Actor} {off : BitVec 32} {write : Bool} (h : s.Kept p) :
    Res.Kept p (execGateAbort who off write s) :=
  h.gateAbort.ok.ite h.ok

theorem execClkoutChange (h : s.Kept p) : Res.Kept p (execClkoutChange s) := h.whenOn h.chip_upd.showIslands.ok

theorem execDvfsTarget {who : Actor} {v : Word} (h : s.Kept p) : Res.Kept p (execDvfsTarget who v s) :=
  h.writeBy h.set.set.set.setTarget.ok

theorem execAvsTransaction {ack : Bool} (h : s.Kept p) : Res.Kept p (execAvsTransaction ack s) :=
  h.ok.ite ((h.emit.endDvfs.ite (h.emit.afterStep (fun _ h1 => h1.dvfsStep))).ok.ite (h.emit.chip_upd.ok.ite
      ((h.emit.endDvfs.ite h.emit.dvfsFail).ok)))

theorem execDvfsVoltageReached {reported : Bool} {mv : BitVec 10} {mon : BitVec 10 × BitVec 10 × BitVec 10 × BitVec 10} (h
    : s.Kept p) :
    Res.Kept p (execDvfsVoltageReached reported mv mon s) := by
  have h1 : ((s.emit .avsRead).set Fd.CHIP_DVFS_STAT_VMON mv.toNat).Kept p := h.emit.set
  refine h.ok.ite ((h1.afterStep fun t ht => ?_).ok.ite h1.ok)
  split
  · exact ht.dvfsStep
  · exact ht.endDvfs

theorem execDvfsSwitch (h : s.Kept p) : Res.Kept p (execDvfsSwitch s) := by
  refine h.ok.ite ?_
  split
  · exact h.ok
  · exact h.ok.ite ((h.clockReach.set.count.endDvfs.ite (h.clockReach.set.count.afterStep (fun _ h1 => h1.dvfsStep))).ok)

theorem execDvfsFail (h : s.Kept p) : Res.Kept p (execDvfsFail s) := h.clockReach.dvfsFail.ok.ite h.ok

theorem fwaits {s : State} : ∀ x ∈ s.fwaits, ∀ t : State, t.Kept p → (x.2 t).Kept p := by
  have hone : ∀ (b : Prop) [Decidable b] (w : Wide) (f : State → State), (∀ t : State, t.Kept p → (f t).Kept p) →
      ∀ x ∈ (if b then [(w, f)] else []), ∀ t : State, t.Kept p → (x.2 t).Kept p := fun b _ w f hf x hx t ht => by
    split at hx
    · rw [List.mem_singleton.1 hx]; exact hf t ht
    · cases hx
  intro x hx
  simp only [State.fwaits, List.mem_append] at hx
  obtain (hx | hx) | hx := hx
  · exact hone _ _ _ (fun _ ht => ht.chip_upd) x hx
  · exact hone _ _ _ (fun _ ht => ht.chip_upd) x hx
  · exact hone _ _ _ (fun _ ht => ht.mgmt_upd) x hx

theorem execFwaitExpire (h : s.Kept p) : Res.Kept p (execFwaitExpire s) := by
  unfold Machine.execFwaitExpire
  split
  case h_1 t f hfind => exact (fwaits _ (List.mem_of_find?_eq_some hfind) _ h.clockReach).ok.ite h.ok
  case h_2 => exact h.ok

theorem leaveHush (h : s.Kept p) : s.leaveHush.Kept p := (h.chip_upd.when (fun _ h1 => h1.releaseLanes)).showIslands

theorem execPwrGo {who : Actor} (h : s.Kept p) : Res.Kept p (execPwrGo who s) :=
  h.writeBy (h.set.accRecord.ok.ite (h.set.set.err.ok.ite (h.set.set.set.chip_upd.leaveHush.ok.ite
      (h.set.set.set.chip_upd.ok.ite h.set.set.set.chip_upd.chip_upd.ok))))

theorem execHushSleepSend (h : s.Kept p) : Res.Kept p (execHushSleepSend s) :=
  (h.each (fun _ _ h1 => (h1.sendTile.port_upd.ite h1))).chip_upd.ok.ite h.ok

theorem sleepTile {t : ℕ} (h : s.Kept p) : (s.sleepTile t).Kept p :=
  (h.each (fun _ _ h1 => h1.txSleep)).each (fun _ _ h1 => h1.txSleep)

theorem execHushLanesIdle (h : s.Kept p) : Res.Kept p (execHushLanesIdle s) :=
  h.ok.ite (h.ok.ite (((((h.ite h.clockReach).each (fun _ _ h1 => h1.sleepTile)).each (fun _ _ h1 =>
      h1.portOff)).set.count.chip_upd.when (fun _ h1 => h1.set)).showIslands.ok))

theorem resumeEasel {e : ℕ} (h : s.Kept p) : (s.resumeEasel e).Kept p := h.setPc.setT.run.ite h

theorem execHushResume (h : s.Kept p) : Res.Kept p (execHushResume s) :=
  (h.each (fun _ _ h1 => h1.resumeEasel)).set.set.chip_upd.ok.ite h.ok

theorem closeRings (h : s.Kept p) : s.closeRings.Kept p := h.drainAll.each (fun _ _ h1 => (h1.closeBuffer.ite h1))

theorem execDozeEnter (h : s.Kept p) : Res.Kept p (execDozeEnter s) :=
  (h.closeRings.endSession.clearKeys.coreOff.safe_upd.stagesFrom.set.set.set.set.bump.count.chip_upd.mgmt_upd.each (fun _ _
      h1 => h1.emit)).emit.showIslands.ok.ite h.ok

theorem wake {cause : ℕ} (h : s.Kept p) : (s.wake cause).Kept p := h.set.set.set.chip_upd.emit_upd.emit.showIslands

theorem execDozeWake (h : s.Kept p) : Res.Kept p (execDozeWake s) := h.wake.ok.ite h.ok

theorem execPerstDeassert (h : s.Kept p) : Res.Kept p (execPerstDeassert s) :=
  h.perstDeassertHost.wake.ok.ite h.perstDeassertHost.showIslands.ok

theorem showOtp (h : s.Kept p) : s.showOtp.Kept p := h.set.setBit.setBit.set.showHss

theorem tearRow (h : s.Kept p) : (s.tearRow).Kept p :=
  h.ite (h.bumpSat.mgmt_bounded (by intro _ hx; exact (List.length_take_le' ..).trans hx))

theorem execVsysFall {torn : Bool} (h : s.Kept p) : Res.Kept p (execVsysFall torn s) := by
  have hs : (if torn then s.tearRow else s).Kept p := h.tearRow.ite h
  refine ok (emit (emit (emit (emit (showOtp ?_)))))
  exact ⟨⟨canonical_filter _ hs.io.regs, rfl, rfl, Nat.zero_le _, rfl, hs.io.fires⟩, rfl, rfl, hs.log, Nat.zero_le _,
    Nat.zero_le _, Nat.zero_le _, Nat.zero_le _, Nat.zero_le _, hs.pending⟩

theorem execPowerOn (h : s.Kept p) : Res.Kept p (execPowerOn s) :=
  h.ok.ite h.stageDone.stageDone.driveFault.passUs.showIslands.ok

theorem execBootAlwaysOn (h : s.Kept p) : Res.Kept p (execBootAlwaysOn s) :=
  h.ok.ite ((h.set.set.set.set.set.ite h).emit.stageDone.ok)

theorem execPmicPg {rail : Rail} (h : s.Kept p) : Res.Kept p (execPmicPg rail s) :=
  h.ok.ite ((h.ok.ite h.stageDone.chip_upd.showIslands.ok).ite (h.railUp.showIslands.ok.ite h.ok))

/-! ## Security -/

theorem command {f : State → State} {op : Nat} {fits : Nat → Bool} (h : s.Kept p) (k : ∀ t : State, t.Kept p → (f t).Kept p) :
    Res.Kept p (s.command op fits f) :=
  ((k s h).ite h.answer).ok.ite h.ok

theorem loadPiece {op : Nat} (h : s.Kept p) : (s.loadPiece op).2.Kept p := by
  unfold State.loadPiece
  dsimp only
  exact h.mgmt_upd

theorem execProfileLoad {img : Image} {stored : Bool} (h : s.Kept p) : Res.Kept p (execProfileLoad img stored s) :=
  h.command (fun _ h1 => (h1.loadPiece.safe_upd.answer.ite h1.loadPiece.safe_upd.answer))

theorem stageProfile {i : Image} (h : s.Kept p) : (s.stageProfile i).Kept p :=
  (h.each (fun _ _ h1 => h1.stage)).scan_upd.safe_upd

theorem activate {i : Image} {tick : Wide} {stored : Bool} (h : s.Kept p) : (s.activate i tick stored).Kept p :=
  h.stageProfile.startProof.finishProof.answerAs.ite (h.stageProfile.startProof.finishProof.answerAs.ite
      h.stageProfile.startProof.finishProof.safe_upd.requestCommit.answerAs)

theorem execProfileActivate {tick : Wide} {stored : Bool} (h : s.Kept p) :
    Res.Kept p (execProfileActivate tick stored s) := by
  exact h.command (fun _ h1 => (h1.answer.ite (by split; exacts [h1.answer, (h1.answer.ite h1.activate)])))

theorem execProfileInfo (h : s.Kept p) : Res.Kept p (execProfileInfo s) := h.command (fun _ h1 => h1.answer)

theorem execProfileCeil (h : s.Kept p) : Res.Kept p (execProfileCeil s) := h.command (fun _ h1 => h1.answer)

theorem execHssTreeReady (h : s.Kept p) : Res.Kept p (execHssTreeReady s) :=
  h.ok.ite ((h.secu_upd.showHss.ite h.secu_upd.showHss.useTree).issueDue.ok)

theorem execLcInfo (h : s.Kept p) : Res.Kept p (execLcInfo s) := h.command (fun _ h1 => h1.answer)

theorem advance {dst : ℕ} (h : s.Kept p) : (s.advance dst).Kept p :=
  ((h.endSession.secu_upd.set.ite (h.endSession.secu_upd.set.ite h.endSession.secu_upd)).zeroise.ite
      (h.endSession.secu_upd.set.ite (h.endSession.secu_upd.set.ite h.endSession.secu_upd))).measureOtp

theorem transit {dst : Nat} {stored : Bool} (h : s.Kept p) : (s.transit dst stored).2.2.Kept p := by
  unfold State.transit
  dsimp only
  split
  · exact h
  · exact h.advance

theorem lcAdvance {target : Byte} {tok : Option Token} {stored : Bool} (h : s.Kept p) :
    (s.lcAdvance target tok stored).2.2.Kept p := by
  unfold State.lcAdvance
  dsimp only
  split
  · exact h.transit
  · split
    · exact h
    · split
      · exact h.useNonce.transit
      · exact h.rejectToken

theorem byJtag {t : State} {st : Nat} (h : s.Kept p) (ht : t.Kept p) : Res.Kept p (s.byJtag st t) :=
  ht.emit.ok.ite h.ok

theorem execLcAdvance {target : Byte} {tok : Option Token} {stored jtag : Bool} (h : s.Kept p) :
    Res.Kept p (execLcAdvance target tok stored jtag s) :=
  Res.Kept.ite (h.byJtag h.lcAdvance) (h.command fun _ h1 => h1.lcAdvance.answerAs)

theorem execOwnerKeys {hashes : List (BitVec 384)} (h : s.Kept p) : Res.Kept p (execOwnerKeys hashes s) :=
  h.command (fun _ h1 => (h1.answer.ite (h1.answer.ite h1.secu_upd.set.answer)))

theorem execDbgChallenge (h : s.Kept p) : Res.Kept p (execDbgChallenge s) :=
  h.command (fun _ h1 => h1.answer.ite ((h1.io_upd fun _ k => k.free _).secu_upd.answer))

theorem openSession {t : Token} (h : s.Kept p) : (s.openSession t).Kept p := h.set.set.set.secu_upd.count

theorem unlock {tok : Token} (h : s.Kept p) : (s.unlock tok).2.Kept p :=
  h.useNonce.openSession.ite h.rejectToken

theorem execDbgUnlock {tok : Token} {jtag : Bool} (h : s.Kept p) : Res.Kept p (execDbgUnlock tok jtag s) :=
  Res.Kept.ite (h.byJtag h.unlock) (h.command fun _ h1 => h1.unlock.answer)

theorem execDbgClose (h : s.Kept p) : Res.Kept p (execDbgClose s) := h.command (fun _ h1 => h1.endSession.answer)

theorem execDbgSessionExpire (h : s.Kept p) : Res.Kept p (execDbgSessionExpire s) := by
  unfold Machine.execDbgSessionExpire
  split
  · exact h.clockReach.endSession.ok.ite h.ok
  · exact h.ok

theorem execCertRead {which : Byte} (h : s.Kept p) : Res.Kept p (execCertRead which s) := by
  refine h.command fun _ h1 => h1.answer.ite (Kept.ite ?_ h1.answer)
  split
  · exact h1.answer
  · exact h1.answer

theorem signBoth {msg : List Byte} (h : s.Kept p) : (s.signBoth msg).2.2.Kept p := by
  unfold State.signBoth
  cases s.hssLost
  · exact h.signHss
  · exact h

theorem execEatGet {nonce : BitVec 256} (h : s.Kept p) : Res.Kept p (execEatGet nonce s) :=
  h.command (fun _ h1 => (h1.answer.ite (h1.ite ((h1.clockReach.ite h1).signBoth.answer))))

theorem execTagRead {off len : BitVec 16} (h : s.Kept p) : Res.Kept p (execTagRead off len s) :=
  h.command (fun _ h1 => (h1.answer.ite h1.answer))

theorem writeTag {off : ℕ} {data : List Byte} (h : s.Kept p) : (s.writeTag off data).Kept p := by
  unfold State.writeTag
  dsimp only
  exact h.secu_upd

theorem execTagWrite {off len : BitVec 16} {data : List Byte} {stored : Bool} (h : s.Kept p) :
    Res.Kept p (execTagWrite off len data stored s) :=
  h.command (fun _ h1 => (h1.answer.ite (h1.answer.ite h1.writeTag.answerAs)))

theorem answerDoe {r : Spdm} (h : s.Kept p) : (s.answerDoe r).Kept p := h.emit.host_upd.set.set.doeInterrupt

theorem respond {r : Spdm} (h : s.Kept p) : Res.Kept p (State.respond r s) := h.answerDoe.ok.ite h.ok

theorem execGetVersion (h : s.Kept p) : Res.Kept p (execGetVersion s) := h.respond

theorem execGetCapabilities (h : s.Kept p) : Res.Kept p (execGetCapabilities s) := h.respond

theorem execNegotiateAlgorithms (h : s.Kept p) : Res.Kept p (execNegotiateAlgorithms s) := h.respond

theorem keyed {f : State → State} (h : s.Kept p) (k : ∀ t : State, t.Kept p → (f t).Kept p) : Res.Kept p (s.keyed f) :=
  ((k s h).ok.ite h.ok).ite h.respond

theorem execGetDigests (h : s.Kept p) : Res.Kept p (execGetDigests s) := h.keyed (fun _ h1 => h1.answerDoe)

theorem execGetCertificate {slot : Byte} {off len : BitVec 16} (h : s.Kept p) :
    Res.Kept p (execGetCertificate slot off len s) :=
  h.keyed (fun _ h1 => (h1.answerDoe.ite h1.answerDoe))

theorem holdSig {d : BitVec 384} {block : List Byte} (h : s.Kept p) : (s.holdSig d block).Kept p := h.secu_upd

theorem signed {msg : List Byte} {f : List Byte → Spdm} (h : s.Kept p) : (s.signed msg f).Kept p :=
  h.answerDoe.count.ite ((h.signBoth.when (fun _ h1 => h1.holdSig)).answerDoe)

theorem execChallenge {nonce : BitVec 256} (h : s.Kept p) : Res.Kept p (execChallenge nonce s) :=
  h.keyed (fun _ h1 => h1.signed)

theorem execGetMeasurements {index : Byte} {signed : Bool} {nonce : BitVec 256} (h : s.Kept p) :
    Res.Kept p (execGetMeasurements index signed nonce s) :=
  h.respond.ite ((h.keyed (fun _ h1 => h1.signed)).ite h.respond)

theorem execGetHssSig {digest : BitVec 384} (h : s.Kept p) : Res.Kept p (execGetHssSig digest s) := by
  unfold Machine.execGetHssSig
  split <;> exact h.respond

theorem execUnsupportedSpdmRequest {code : Byte} (h : s.Kept p) : Res.Kept p (execUnsupportedSpdmRequest code s) := h.respond

theorem execConfigHash (h : s.Kept p) : Res.Kept p (execConfigHash s) := by
  unfold Machine.execConfigHash
  split
  · exact h.ok
  · exact h.setMeasure.secu_upd.ok

theorem execJtagInstruction {code : BitVec 8} (h : s.Kept p) : Res.Kept p (execJtagInstruction code s) :=
  h.whenOn (h.ok.ite ((h.setTck.emit.when (fun _ h1 => h1.emit)).ok))

/-! ## Maint -/

theorem calStage {k : ℕ} {f : Machine.Field} (h : s.Kept p) : (s.calStage k f).Kept p := h.drawWord.ite h.drawWord.stage

theorem calWaits {k : ℕ} (h : s.Kept p) : (s.calWaits k).Kept p := h.ite h.set.mgmt_upd

theorem calBack {k : ℕ} (h : s.Kept p) : (s.calBack k).Kept p := h.each (fun _ _ h1 => (h1.ite h1.stage))

theorem calApply {k temp : ℕ} (h : s.Kept p) : (s.calApply k temp).Kept p :=
  (h.each (fun _ _ h1 => h1.calStage)).startProof.finishProof.requestCommit.set.set.mgmt_upd.count.err.ite ((h.each (fun _
      _ h1 => h1.calStage)).startProof.finishProof.requestCommit.calBack.mgmt_upd)

theorem execCalDue {k : Fin 5} {temp : BitVec 12} (h : s.Kept p) : Res.Kept p (execCalDue k temp s) :=
  h.ok.ite (h.calWaits.ok.ite (h.calWaits.calApply.ok.ite h.calWaits.mgmt_upd.ok))

theorem execCalDeferred (h : s.Kept p) : Res.Kept p (execCalDeferred s) := by
  unfold Machine.execCalDeferred
  split
  · exact h.ok
  · exact h.ok.ite h.reach.set.count.mgmt_upd.err.ok

theorem execCalStore {stored : Bool} (h : s.Kept p) : Res.Kept p (execCalStore stored s) := by
  unfold Machine.execCalStore
  dsimp only
  exact h.ok.ite (h.mgmt_upd (by intro; split <;> rfl)).ok

theorem calRestore (h : s.Kept p) : s.calRestore.Kept p :=
  (h.each (fun _ _ h1 => h1.calWaits)).err.ite ((h.mgmt_upd.each (fun _ _ h1 =>
      h1.stage)).startProof.finishProof.requestCommit.ite h.mgmt_upd)

theorem execCalInfo (h : s.Kept p) : Res.Kept p (execCalInfo s) := h.command (fun _ h1 => h1.answer)

theorem execCalRun {mask : Byte} (h : s.Kept p) : Res.Kept p (execCalRun mask s) :=
  h.command (fun _ h1 => (h1.answer.ite ((h1.each (fun _ _ h2 => h2.calWaits)).answer)))

theorem execCalConfig {dt maxint : BitVec 16} (h : s.Kept p) : Res.Kept p (execCalConfig dt maxint s) :=
  h.command (fun _ h1 => (h1.mgmt_upd.answer.ite h1.answer))

theorem execCalRead (h : s.Kept p) : Res.Kept p (execCalRead s) := h.command (fun _ h1 => (h1.answer.ite h1.answer))

theorem execCalWrite {delays coeffs : List (BitVec 20)} {kedge : List (BitVec 16)} {stored : Bool} (h : s.Kept p) :
    Res.Kept p (execCalWrite delays coeffs kedge stored s) :=
  h.command (fun _ h1 => (h1.answer.ite (h1.answer.ite h1.mgmt_upd.calWaits.answer)))

theorem execBgStarved {scrub : Bool} {k : Fin 5} (h : s.Kept p) : Res.Kept p (execBgStarved scrub k s) := by
  unfold Machine.execBgStarved
  dsimp only
  split
  · exact h.ok
  · exact h.ok.ite (h.clockReach.err.set.count.mgmt_upd.ite h.clockReach.err.set.set.count).ok

theorem runImage {n : ℕ} {trial : Bool} (h : s.Kept p) : (s.runImage n trial).Kept p := by
  unfold State.runImage
  dsimp only
  refine when (mgmt_upd (safe_upd (deriveKeys ?_))) fun _ h1 => h1.startA
  split
  · exact h.set.set.setBit.setBit.setBit.set.setMeasure.setSlot
  · exact h.set.set.setBit.setBit.setBit.set

theorem enterRecovery (h : s.Kept p) : s.enterRecovery.Kept p := h.safe_upd.mgmt_upd

theorem slotFailed {n : ℕ} (h : s.Kept p) : (s.slotFailed n).Kept p := h.set.err

theorem bootOtp (h : s.Kept p) : s.bootOtp.Kept p :=
  ((h.endSession.showOtp.zeroise.ite h.endSession.showOtp).blowSvn.ite (h.endSession.showOtp.zeroise.ite
      h.endSession.showOtp)).set.measureOtp

theorem bootFull (h : s.Kept p) : s.bootFull.Kept p :=
  (h.when (fun _ h1 => h1.writeBoot)).runImage.ite ((h.slotFailed.when (fun _ h1 => h1.writeBoot)).runImage.ite
      h.slotFailed.enterRecovery)

theorem bootRunning (h : s.Kept p) : s.bootRunning.Kept p := h.runImage.ite h.slotFailed.enterRecovery

theorem execBoot (h : s.Kept p) : Res.Kept p (execBoot s) :=
  h.ok.ite (h.bootOtp.ok.ite (((h.bootOtp.bootRunning.ite h.bootOtp.bootFull).calRestore.ite (h.bootOtp.bootRunning.ite
      h.bootOtp.bootFull)).ok))

theorem execTbStart (h : s.Kept p) : Res.Kept p (execTbStart s) :=
  h.ok.ite ((((h.ite h.startCount).each (fun _ _ h1 => h1.set.set)).set.set.stageDone.chip_upd.calRestore.ite (((h.ite
      h.startCount).each (fun _ _ h1 => h1.set.set)).set.set.stageDone.chip_upd)).showIslands.ok)

theorem execUpdLoad {img : Image} {stored : Bool} (h : s.Kept p) : Res.Kept p (execUpdLoad img stored s) :=
  h.command (fun _ h1 => (h1.answer.ite ((h1.loadPiece.spoilSlot.setSlot.ite h1.loadPiece.spoilSlot).answer)))

theorem execUpdVerify (h : s.Kept p) : Res.Kept p (execUpdVerify s) := by
  unfold Machine.execUpdVerify
  dsimp only
  exact h.command (fun _ h1 => (by split; exacts [h1.answer, (h1.answer.ite (h1.setSlot.set.answer.writeBoot.mgmt_upd.ite
      h1.setSlot.set.answer))]))

theorem execUpdActivate {e : Fin 8} {stored : Bool} (h : s.Kept p) : Res.Kept p (execUpdActivate e stored s) :=
  h.command (fun _ h1 => (h1.answer.ite (h1.answer.ite (h1.answer.ite h1.writeBoot.awaitHand.answer))))

theorem execUpdStatus (h : s.Kept p) : Res.Kept p (execUpdStatus s) := h.command (fun _ h1 => h1.answer)

theorem execUpdRevert {stored : Bool} (h : s.Kept p) : Res.Kept p (execUpdRevert stored s) :=
  h.command (fun _ h1 => (h1.answer.ite (h1.answer.ite h1.decideRevert.answer)))

theorem execFwHandover (h : s.Kept p) : Res.Kept p (execFwHandover s) := by
  refine h.ok.ite ?_
  split
  · exact h.ok
  · exact h.ok.ite h.clockReach.mgmt_upd.ok

theorem releaseLatch (h : s.Kept p) : s.releaseLatch.Kept p := h.mgmt_upd.startA

theorem takeOver {n : ℕ} {trial back : Bool} (h : s.Kept p) : (s.takeOver n trial back).Kept p := by
  have hrun : ((((s.runImage n trial).releaseLatch.safe' fun x => { x with serviced := true }).err
      { level := 0, region := 16, block := 1, code := 0x1081 }).count 16 Src.MGMT_HANDOVERS 0 1).Kept p :=
    h.runImage.releaseLatch.safe_upd.err.count
  unfold State.takeOver
  dsimp only
  split
  · exact ((hrun.err.count.ite hrun).when fun _ h1 => h1.writeBoot).permitActs
  · exact (hrun.err.count.ite hrun).when fun _ h1 => h1.writeBoot

theorem execFwTakeover (h : s.Kept p) : Res.Kept p (execFwTakeover s) :=
  h.ok.ite (h.takeOver.ok.ite (h.slotFailed.writeBoot.takeOver.ok.ite h.slotFailed.releaseLatch.enterRecovery.ok))

theorem execFwConfirm (h : s.Kept p) : Res.Kept p (execFwConfirm s) :=
  h.writeBoot.blowSvn.set.set.set.mgmt_upd.err.ok.ite h.ok

theorem execHealthWindowExpire (h : s.Kept p) : Res.Kept p (execHealthWindowExpire s) := by
  unfold Machine.execHealthWindowExpire
  split
  · exact h.clockReach.decideRevert.ok.ite h.ok
  · exact h.ok

theorem execLockstepErr (h : s.Kept p) : Res.Kept p (execLockstepErr s) := h.whenOn h.err.count.decideRevert.ok

/-! ## Faults -/

theorem execErrorRecord {r : ErrRec} (h : s.Kept p) : Res.Kept p (execErrorRecord r s) :=
  h.whenOn ((h.io_upd fun _ k => k.record _).ok)

theorem copyRecord {b : List Byte} (h : s.Kept p) : (s.copyRecord b).Kept p := h.putItem.ite h.dropItem

theorem storeRecord {e : ErrRec} (h : s.Kept p) : (s.storeRecord e).Kept p := by
  refine when (when (when (count (bump (mgmt_bounded h ?_))) fun _ h1 => h1.io_upd fun _ k => k.lose) fun _ h1 =>
    h1.copyRecord) fun _ h1 => h1.regionIrq
  intro x _
  simp only [List.length_cons, List.length_take, logSize]
  omega

theorem execLogStore (h : s.Kept p) : Res.Kept p (execLogStore s) := by
  refine h.ok.ite ?_
  split
  · exact h.ok
  next e rest hfifo =>
    have h1 : (s.io' fun x => { x with fifo := rest }).Kept p :=
      ⟨⟨h.io.regs, h.io.sketch, h.io.wide, by have := h.io.fifo; rw [hfifo] at this; exact (Nat.le_succ _).trans this,
        h.io.held, h.io.fires⟩, h.pm, h.dm, h.log, h.ptm, h.capQ, h.smTx, h.waitA, h.waitB, h.pending⟩
    dsimp only
    split
    · exact h1.mgmt_upd.ok
    · exact h1.clockReach.storeRecord.ok.ite h.ok

theorem execLogMergeFlush (h : s.Kept p) : Res.Kept p (execLogMergeFlush s) := by
  refine h.ok.ite ?_
  split
  · exact h.ok
  · exact h.ok.ite ((h.clockReach.mgmt_upd.ite h.clockReach.mgmt_upd.storeRecord).ok)

theorem execRegionRestart {r : Fin 19} {attempts : BitVec 16} (h : s.Kept p) : Res.Kept p (execRegionRestart r attempts s) :=
  h.whenOn ((h.startRestart.ite h.chipFault).ok)

theorem claimRestart {who : Actor} {r : ℕ} (h : s.Kept p) : (s.claimRestart who r).Kept p := h.chip_upd.ite h

theorem execRestartCmd {who : Actor} (h : s.Kept p) : Res.Kept p (execRestartCmd who s) := by
  unfold Machine.execRestartCmd
  dsimp only
  exact h.writeBy (h.accError.ok.ite (h.set.ok.ite ((h.set.setRestarting.chip_upd.ite h.set).startRestart.claimRestart.ok)))

theorem bistCell {r n : ℕ} (h : s.Kept p) : (s.bistCell r n).Kept p := by
  unfold State.bistCell
  split
  · exact h.chip_upd
  · exact h.laneFailed.ite h
  · exact h.laneFailed.ite h
  · exact h.laneFailed.ite h
  · exact h.laneFailed.ite h
  · exact h.stallFailed
  · exact h.stallFailed
  · exact h.stallFailed
  · exact h.stallFailed
  · exact h.memOffline
  · exact h.set.set.ite h
  · exact h

theorem execRestartBistDone {r : Fin 19} {failed : List (BitVec 9)} (h : s.Kept p) :
    Res.Kept p (execRestartBistDone r failed s) :=
  h.ok.ite ((h.each (fun _ _ h1 => h1.bistCell)).chip_upd.ok)

theorem rerunEasel {e : ℕ} (h : s.Kept p) : (s.rerunEasel e).Kept p := h.resetEasel.setT.run.ite h

theorem rejoin {t : ℕ} (h : s.Kept p) : (s.rejoin t).Kept p := h.ite h.port_upd.enterLanes

theorem resumeRegion {r : ℕ} (h : s.Kept p) : (s.resumeRegion r).Kept p := by
  unfold State.resumeRegion
  split
  · exact (h.each (fun _ _ h1 => h1.rerunEasel)).chip_upd
  · exact h.set.set.each (fun _ _ h1 => h1.rejoin)
  · exact h.set.set.each (fun _ _ h1 => h1.rejoin)
  · exact h.set.set.each (fun _ _ h1 => h1.rejoin)
  · exact h.set.set.each (fun _ _ h1 => h1.rejoin)
  · exact h.substituteAll
  · exact h.substituteAll
  · exact h.substituteAll
  · exact h.substituteAll
  · exact h.bootRunning
  · exact h.deriveKeys
  · exact h

theorem execRestartResume {r : Fin 19} (h : s.Kept p) : Res.Kept p (execRestartResume r s) := by
  unfold Machine.execRestartResume
  split
  · exact h.ok
  · exact h.ok.ite h.clockReach.takeHeld.setRestarting.resumeRegion.chip_upd.err.ok

theorem execRestartFail {r : Fin 19} (h : s.Kept p) : Res.Kept p (execRestartFail r s) :=
  h.ok.ite h.chip_upd.chipFaultAs.ok

theorem execChipFault {r : Fin 19} {attempts : BitVec 16} (h : s.Kept p) : Res.Kept p (execChipFault r attempts s) :=
  h.whenOn h.chipFault.ok

theorem execChipFaultClear (h : s.Kept p) : Res.Kept p (execChipFaultClear s) := h.writeBy h.set.chip_upd.ok

theorem tillEvents {r t n : Nat} (h : s.Kept p) : (s.tillEvents r t n).Kept p :=
  (h.io_upd fun _ _ => h.io.tillStep ..).when fun _ h1 => h1.regionIrq

theorem execTillCfgWrite {who : Actor} {r : Fin 19} {t : Fin 64} {v : Word} {events : BitVec 16} (h : s.Kept p) :
    Res.Kept p (execTillCfgWrite who r t v events s) := by
  unfold Machine.execTillCfgWrite
  dsimp only
  exact h.writeBy (h.accError.ok.ite (h.accRecord.ok.ite ((h.put.setWide.set.when (fun _ h1 => h1.tillEvents)).ok.ite
      h.put.ok)))

theorem execTillOverflow {r : Fin 19} {t : Fin 64} (h : s.Kept p) : Res.Kept p (execTillOverflow r t s) :=
  h.tillEvents.ok.ite h.ok

theorem execCanError {x : CanErr} (h : s.Kept p) : Res.Kept p (execCanError x s) :=
  h.whenOn (h.count.bumpSat.ok.ite ((h.count.bumpSat.when (fun _ h1 => h1.set.bumpSat)).ok))

theorem execBusOffRecovery (h : s.Kept p) : Res.Kept p (execBusOffRecovery s) := h.set.set.set.ok.ite h.ok

/-! ## Lines -/

theorem armZoom {x : State × Nat} {q : Word} {c slot : Nat} (h : x.1.Kept p) : (State.armZoom q c slot x).1.Kept p := by
  unfold State.armZoom
  dsimp only
  split
  · exact h.scan_upd
  · exact h.countSec.set

theorem armRegion {l : LineRec} {n : Nat} (h : s.Kept p) : (s.armRegion l n).Kept p :=
  (foldl_keeps (fun x : State × Nat => x.1.Kept p) _ (fun _ _ hx => hx.armZoom) _ (s, 0) h).set

theorem stackAsk {l : LineRec} (h : s.Kept p) : (s.stackAsk l).Kept p :=
  h.ite (h.unstacked.ite (h.scan_upd.ite h.unstacked.set))

theorem beginLine {l : LineRec} (h : s.Kept p) : (s.beginLine l).Kept p := h.scan_upd

theorem sendFrame {l : LineRec} (h : s.Kept p) : (s.sendFrame l).Kept p := h.emitPin.memc_upd.ite h

theorem execLineStart (h : s.Kept p) : Res.Kept p (execLineStart s) := by
  unfold Machine.execLineStart
  dsimp only
  split
  · exact h.ok
  · refine h.ok.ite ?_
    split
    · exact h.reach.beginLine.markDwell.chip_upd.dropActs.ok
    · exact (((h.reach.beginLine.markDwell.chip_upd.dropActs.each fun _ _ h1 => h1.takeOfs).emitLine.sendFrame).each
        fun _ _ h1 => h1.armRegion.when fun _ h2 => h2.degradeBanks).stackAsk.ok

/-! ## Output -/

theorem writeDigest {l : LineRec} {sec : ℕ} {d : Digest} (h : s.Kept p) : (s.writeDigest l sec d).Kept p :=
  h.put.put.put.put.scan_upd.zoneEntry

theorem advanceDigest {n : Nat} (h : s.Kept p) : (State.advanceDigest n s).Kept p := by
  induction n generalizing s with
  | zero => exact h
  | succ n ih =>
    unfold State.advanceDigest
    split
    · exact (ih h.set.zoneClose.sumwaitDone).ite h
    · exact h

theorem closeEarlier {l : LineRec} {sec : ℕ} (h : s.Kept p) : (s.closeEarlier l sec).Kept p := by
  refine h.each fun _ _ h1 => ?_
  dsimp only
  split
  · exact h1.writeDigest.ite h1.writeDigest.scan_upd.outp_upd
  · exact h1.writeDigest

theorem qualify {l : LineRec} {t : Wide} (h : s.Kept p) : (s.qualify l t).2.Kept p := by
  refine foldl_keeps (fun x : Nat × State => x.2.Kept p) _ (fun x _ hx => ?_) _ (0, s) h
  obtain ⟨n, t⟩ := x
  dsimp only at hx ⊢
  split
  · dsimp only
    exact hx.outp_upd
  · exact hx

theorem exportChan {l : LineRec} {t : Wide} {r c kbin : ℕ} {deg low : Bool} {y : ChanOut} (h : s.Kept p) :
    (s.exportChan l t r c kbin deg low y).Kept p :=
  h.ite h.drainStage.stageRecord

theorem countClassed {sec : ℕ} {l : List Classed} (h : s.Kept p) : (s.countClassed sec l).Kept p := by
  exact h.each (fun _ _ h1 => (by split; exacts [h1.count.count, h1.count]))

theorem qualifyOr {l : LineRec} {t : Wide} (h : s.Kept p) (o : Option Nat) :
    (match o with
      | some m => (m, s)
      | none => s.qualify l t).2.Kept p := by
  cases o
  · exact h.qualify
  · exact h

theorem classify {x0 : ReadBank} {l : LineRec} (h : s.Kept p) : (s.classify x0 l).Kept p := by
  unfold State.classify
  extract_lets sec off x listen cfg w prev all kept d first interf pts low s1 s2 q s3
  have h3 : s3.Kept p := (h.countClassed.closeEarlier.when fun _ h1 => h1.writeDigest).advanceDigest.outp_upd
  dsimp only
  exact ((h3.qualifyOr _).each fun _ _ h1 => h1.each fun _ _ h2 => h2.exportChan).scan_upd.outp_upd.hst_upd

theorem execSectorClassify {sec : Fin 32} (h : s.Kept p) : Res.Kept p (execSectorClassify sec s) := by
  unfold Machine.execSectorClassify
  split
  · exact h.ok
  · refine h.ok.ite ?_
    split
    · exact h.classify.ok
    · exact h.ok

theorem pruneLines (h : s.Kept p) : s.pruneLines.Kept p := h.scan_upd

theorem execLineUnitPlace (h : s.Kept p) : Res.Kept p (execLineUnitPlace s) := by
  unfold Machine.execLineUnitPlace
  split
  · exact h.ok
  · refine h.ok.ite ?_
    split
    · exact h.outp_upd.ok
    · exact (((h.outp_upd.set.count.each (fun _ _ h1 => h1.count)).when (fun _ h1 => h1.set.count)).putItem.ite
          (((h.outp_upd.set.count.each (fun _ _ h1 => h1.count)).when (fun _ h1 =>
          h1.set.count)).dropItem.set.count)).pruneLines.ok

/-! ## Oven -/

theorem ovenLatch (h : s.Kept p) : s.ovenLatch.Kept p :=
  (h.tbas_upd.each (fun _ _ h1 => (h1.moveSettle.ite h1))).each (fun _ _ h1 => h1.varnishSource)

theorem ovenRatio (h : s.Kept p) : (s.ovenRatio).2.Kept p := by
  unfold State.ovenRatio
  split
  · exact h
  · dsimp only
    exact h.drawNat.tbas_upd

theorem execOvenUpdate (h : s.Kept p) : Res.Kept p (execOvenUpdate s) := by
  have hlatch : s.ovenLatch.ovenRatio.2.Kept p := h.ovenLatch.ovenRatio
  unfold Machine.execOvenUpdate
  refine h.ok.ite ?_
  generalize s.ovenLatch.ovenRatio = x at hlatch
  obtain ⟨ratio, t⟩ := x
  dsimp only at hlatch ⊢
  cases ratio
  case none => exact (hlatch.heat.ite (hlatch.ovnFault.ite hlatch)).ovenCount.ok
  case some r => exact (hlatch.set.heat.ite (hlatch.set.ovnFault.ite hlatch.set.ovenLaw)).ovenCount.ok

/-! ## PciCfg -/

theorem doeGo (h : s.Kept p) : s.doeGo.Kept p := by
  unfold State.doeGo
  dsimp only
  split
  · exact h.host_upd.set.ite (h.host_upd.host_upd.set.doeInterrupt.ite (h.host_upd.set.ite h.host_upd))
  · exact h.host_upd.set

theorem doeControl {v : Word} (h : s.Kept p) : (s.doeControl v).Kept p :=
  h.set.host_upd.set.set.set.ite (h.set.doeGo.ite h.set)

theorem doeWrite {v : Word} (h : s.Kept p) : (s.doeWrite v).Kept p := h.host_upd.ite h.set

theorem doePop (h : s.Kept p) : s.doePop.Kept p := h.host_upd.when (fun _ h1 => h1.set)

theorem unmask {pf1 : Bool} {v : Nat} (h : s.Kept p) : (s.unmask pf1 v).Kept p :=
  (h.io_upd fun _ k => ((k.set ..).message ..).settleIrq).ite h

theorem cfgLive {a : ℕ} {v : Word} (h : s.Kept p) : (s.cfgLive a v).Kept p := by
  unfold State.cfgLive
  split
  · exact h.put
  · exact h

theorem cfgWrite {a : ℕ} {v : Word} (h : s.Kept p) : Res.Kept p (State.cfgWrite a v s) :=
  (h.cfgLive.when (fun _ h1 => h1.stopRings)).ok.ite ((h.ok.ite ((h.cfgLive.when (fun _ h1 => h1.stopRings)).ok)).ite
      (h.execFlr.ite ((h.cfgLive.each (fun _ _ h1 => h1.unmask)).ok.ite ((h.doeControl.ite h.cfgLive.showWarm).ok.ite
      (h.doeWrite.ok.ite (h.doePop.ok.ite h.cfgLive.ok))))))

/-! ## SafeIsland -/

theorem execWdogA (h : s.Kept p) : Res.Kept p (execWdogA s) :=
  h.whenOn (h.ok.ite h.clockReach.safe_upd.cause.decideRevert.ok)

theorem execSafeWdogService (h : s.Kept p) : Res.Kept p (execSafeWdogService s) := h.writeBy h.safe_upd.ok

theorem execChDisagree {chanB : Bool} {copy : BitVec 3} (h : s.Kept p) : Res.Kept p (execChDisagree chanB copy s) :=
  h.whenOn (h.ok.ite ((h.set.driveLs.ite h.set.driveHs).switched.cause.ok))

theorem execMsgTimeout (h : s.Kept p) : Res.Kept p (execMsgTimeout s) :=
  h.whenOn (h.ok.ite (h.clockReach.cause.ok.ite (h.clockReach.enterStopped.ok.ite h.ok)))

theorem execSwStuckHs (h : s.Kept p) : Res.Kept p (execSwStuckHs s) := h.whenOn h.cause.setBit.ok

theorem execSwStuckLs (h : s.Kept p) : Res.Kept p (execSwStuckLs s) := h.whenOn h.cause.setBit.ok

theorem execSupplyPresent {mv : BitVec 16} (h : s.Kept p) : Res.Kept p (execSupplyPresent mv s) :=
  h.whenOn (h.ok.ite h.cause.set.ok)

theorem execSafeRstFall (h : s.Kept p) : Res.Kept p (execSafeRstFall s) := h.whenOn h.set.ok

theorem execRstStuck (h : s.Kept p) : Res.Kept p (execRstStuck s) := h.cause.ok.ite h.ok

theorem execSafeRstRise {low : ℕ} {clearing : BitVec 12} (h : s.Kept p) : Res.Kept p (execSafeRstRise low clearing s) :=
  h.ok.ite ((h.set.each (fun _ _ h1 => h1.clearCause)).set.setSafeSt.safe_upd.ok.ite (((h.set.each (fun _ _ h1 =>
      h1.clearCause)).bumpSat.when (fun _ h1 => h1.set)).ok))

theorem execCauseClear {bit : Fin 12} (h : s.Kept p) : Res.Kept p (execCauseClear bit s) := h.clearCause.ok

theorem execViolClear (h : s.Kept p) : Res.Kept p (execViolClear s) := h.writeBy h.set.scan_upd.ok

theorem testPassed {init : Bool} (h : s.Kept p) : (s.testPassed init).Kept p :=
  (h.enterStopped.ite h.enterSafe).ite h.setSafeSt.safe_upd.set.count

theorem asRead {bs : List ℕ} {hsFb lsFb vsns : Bool} (h : s.Kept p) : (s.asRead bs hsFb lsFb vsns).Kept p :=
  ((h.when (fun _ h1 => h1.setBit)).when (fun _ h1 => h1.setBit)).when (fun _ h1 => h1.setBit)

theorem execSwitchTestStep {hsFb lsFb : Bool} {mv : BitVec 16} (h : s.Kept p) :
    Res.Kept p (execSwitchTestStep hsFb lsFb mv s) := by
  refine h.whenOn ?_
  dsimp only
  refine h.ok.ite (h.ok.ite ?_)
  split
  · exact Res.Kept.ite (h.clockReach.ite (h.safe_upd.ite h)).setBit.setBit.setBit.testPassed.ok
      ((h.clockReach.ite (h.safe_upd.ite h)).setBit.setBit.setBit.safe_upd.ite
        (h.clockReach.ite (h.safe_upd.ite h)).setBit.setBit.setBit.safe_upd.drive).ok
  · exact ((h.clockReach.ite (h.safe_upd.ite h)).setBit.setBit.setBit.each fun _ _ h1 => h1.causeWith).asRead.ok

theorem execSmRxGo (h : s.Kept p) : Res.Kept p (execSmRxGo s) := h.writeBy (h.set.ok.ite (h.takePdu.ok.ite h.set.set.ok))

theorem execCanFrameRx {fmt : CanFormat} {id : BitVec 11} {sdt : Byte} {af : Word} {p0 : Pdu} (h : s.Kept p) :
    Res.Kept p (execCanFrameRx fmt id sdt af p0 s) := by
  refine h.whenOn (h.ok.ite (h.canGoodRx.ok.ite ?_))
  split
  · exact h.canGoodRx.receiveCopy.ok
  · exact h.canGoodRx.receiveCopy.ok
  · exact h.canGoodRx.countDiscard.ok
  · exact h.canGoodRx.ok

theorem execPduUnpaired {chanB : Bool} {src : BitVec 16} {seq : Word} (h : s.Kept p) :
    Res.Kept p (execPduUnpaired chanB src seq s) := by
  have hrest : ∀ (l : List Copy) q, l.length ≤ 4 → (l.erase q).length ≤ 4 := fun l q hl => List.length_erase_le.trans hl
  have hA := h.waitA
  have hB := h.waitB
  unfold Machine.execPduUnpaired
  dsimp only
  split
  · exact h.ok
  · refine h.ok.ite (ok (countUnpaired (safe_bounded h.clockReach ?_ ?_ ?_)))
    all_goals
      intro x hx
      cases chanB
    case refine_2.false => exact hrest _ _ hA
    case refine_3.true => exact hrest _ _ hB
    all_goals exact hx

theorem agree {act : State → State} {src : Nat} {seq : Word} {stamp : Wide} (h : s.Kept p) (k : ∀ t : State, t.Kept p →
    (act t).Kept p) :
    (s.agree src seq stamp act).Kept p :=
  h.countDiscard.countDiscard.ite (h.countDiscard.countDiscard.ite (k _ h.acceptPair))

theorem execPermit {src : BitVec 16} {seq : Word} {stamp : Wide} {permitBit : Bool} {zset : BitVec 2}
    {withStop : Option (BitVec 16 × Word × Wide)} (h : s.Kept p) :
    Res.Kept p (execPermit src seq stamp permitBit zset withStop s) := by
  refine h.whenOn ?_
  cases withStop
  case none => exact (h.agree fun _ h1 => h1.bumpSat.ite (h1.ite h1.actPermit)).ok
  case some x => exact ((h.agree fun _ h1 => h1.actStop).agree fun _ h1 => h1.bumpSat.ite (h1.ite h1.actPermit)).ok

theorem execStop {src : BitVec 16} {seq : Word} {stamp : Wide} (h : s.Kept p) : Res.Kept p (execStop src seq stamp s) :=
  h.whenOn ((h.agree (fun _ h1 => h1.actStop)).ok)

theorem sendStatus {stamp : Wide} (h : s.Kept p) : (s.sendStatus stamp).Kept p := by
  unfold State.sendStatus
  cases s.ledgerByte
  case none =>
    refine when (sendCan (safe_upd ?_)) fun _ h1 => h1.postStatus
    exact h.drawNat (n := 256)
  case some b =>
    refine when (sendCan (safe_upd ?_)) fun _ h1 => h1.postStatus
    exact h

theorem execSafeStatusPdu (h : s.Kept p) : Res.Kept p (execSafeStatusPdu s) := by
  refine h.whenOn ?_
  split
  · exact h.sendStatus.ok
  · exact h.ok.ite h.clockReach.sendStatus.safe_upd.ok

theorem execSmTxPop (h : s.Kept p) : Res.Kept p (execSmTxPop s) :=
  h.writeBy (h.safe_bounded (by intro x hx; exact (List.drop_sublist 1 _).length_le.trans hx) (by intro _ hx; exact hx)
    (by intro _ hx; exact hx)).showTx.ok

/-! ## Tiu -/

theorem execTiuStop {m : Fin 16} {raw : BitVec 16} (h : s.Kept p) : Res.Kept p (execTiuStop m raw s) := by
  unfold Machine.execTiuStop
  split
  · exact h.ok
  · exact h.ok.ite ((h.bump.closeStop.tiuLast.count.emission.ite
        h.bump.closeStop.tiuLast.count.emission.measure).releaseEvents.ok.ite h.bump.ok)

theorem execTiuMiss {m : Fin 16} (h : s.Kept p) : Res.Kept p (execTiuMiss m s) := by
  unfold Machine.execTiuMiss
  split
  · exact h.ok
  · exact h.missStop.releaseEvents.ok.ite h.ok

/-! ## RegWrite -/

theorem lostUpdates {a n : Nat} (h : s.Kept p) : (s.lostUpdates a n).Kept p :=
  h.io_upd fun _ k => ⟨k.regs, k.sketch, k.wide, k.fifo, k.held, k.fires⟩

theorem accessLive {x : Access} {skip : ℕ} (h : s.Kept p) : Res.Kept p (Access.live x skip s) := h.put.ok

theorem accessStaged {x : Access} (h : s.Kept p) : (Access.staged x s).Kept p := h.stage.ite h

theorem accessCommon {x : Access} (h : s.Kept p) : Res.Kept p (Access.common x s) := by
  refine h.selectWide.ite ?_
  split
  · exact h.execTillCfgWrite
  · exact h.setWide.ok
  · exact h.accessLive

variable {x : Access}

theorem accessChip (h : s.Kept p) : Res.Kept p (x.chip s) := by
  have hgo : ∀ n (f : State → Res), (∀ t : State, t.Kept p → Res.Kept p (f t)) → Res.Kept p (onBit x.v n f (x.live (2 ^ n)
      s)) :=
    fun n f k => h.accessLive.onBit k
  exact (hgo _ _ fun _ ht => ht.execProofGo).ite (((h.accessLive.onBit fun _ ht => ht.execCommitGo).onBit fun _ ht =>
      ht.execCommitAbort).ite ((hgo _ _ fun _ ht => ht.execSnapGo).ite ((hgo _ _ fun _ ht => ht.execPwrGo).ite
      (h.execDvfsTarget.ite ((hgo _ _ fun _ ht => ht.execChipFaultClear).ite ((hgo _ _ fun _ ht => ht.execRestartCmd).ite
      h.accessCommon))))))

theorem accessTbas (h : s.Kept p) : Res.Kept p (x.tbas s) :=
  (h.accessLive.onBit fun _ ht => ht.execOvnFaultClear).ite ((h.accessLive.onBit fun _ ht => ht.execPtmDisagreeClear).ite
      (h.execTiuCtlWrite.ite ((h.accessLive.andThen fun _ ht => ht.showWarm.ok).ite h.accessCommon)))

theorem accessEaselCtl {e : Fin 8} (h : s.Kept p) : Res.Kept p (x.easelCtl e s) := by
  unfold Access.easelCtl
  extract_lets r
  have hr : Res.Kept p r := h.accessLive.onBit fun _ ht => ht.execEaselReset
  exact (hr.andThen fun _ ht => ht.execEaselHalt).ite ((hr.andThen fun _ ht => ht.execEaselStep).ite (hr.onBit fun _ ht =>
      ht.execEaselRun))

theorem accessEasel {e : Fin 8} (h : s.Kept p) : Res.Kept p (x.easel e s) :=
  h.accessEaselCtl.ite ((h.accessLive.andThen fun _ ht => (ht.when fun _ hu => hu.wdogRestart).ok).ite
    (h.execPmAddrWrite.ite (h.execPmDataWrite.ite (h.execDmDataWrite.ite h.accessLive))))

theorem accessScan (h : s.Kept p) : Res.Kept p (x.scan s) :=
  h.execScanStart.ite (h.execScanSigSet.ite (h.execScanSigClear.ite ((h.accessLive.onBit fun _ ht => ht.execViolClear).ite
      (h.accessEasel.ite h.accessCommon))))

theorem accessEmit (h : s.Kept p) : Res.Kept p (x.emit s) :=
  (h.accessLive.onBit fun _ ht => ht.execGaveupClear).ite ((h.accessLive.onBit fun _ ht => ht.execLsupOvClear).ite
      h.accessCommon)

theorem accessLnk (h : s.Kept p) : Res.Kept p (x.lnk s) := by
  have hlive : ∀ n, Res.Kept p (x.live n s) := fun _ => h.accessLive
  have hstaged : ∀ n, Res.Kept p (x.live n (x.staged s)) := fun _ => h.accessStaged.accessLive
  exact ((((hstaged _).andThen fun _ ht => ht.freeze.ok).onBit fun _ ht => ht.execLaneRetrain).ite
      (((hlive _).onBit fun _ ht => ht.execEsGo).ite (hlive _))).ite
    ((((hstaged _).onBit fun _ ht => ht.execRelink).ite (((hlive _).onBit fun _ ht => ht.execTileRegGo).ite (hlive _))).ite
      h.accessCommon)

theorem accessHst (h : s.Kept p) : Res.Kept p (x.hst s) :=
  (h.accessLive.onBit fun _ ht => ht.execStallRetireCmd).ite (h.execKernelWrite.ite h.accessCommon)

theorem accessRingCtl {r : Fin 14} (h : s.Kept p) : Res.Kept p (x.ringCtl r s) :=
  (h.set.set.ok.andThen fun _ ht => by
    split
    · exact ht.execRingEnable
    · exact ht.execRingDisable).onBit fun _ ht => ht.execRingResume

theorem accessHost (h : s.Kept p) : Res.Kept p (x.host s) := by
  unfold Access.host
  split
  · exact h.execIrqCauseClear
  · exact h.accessRingCtl
  · exact h.drainStage.accessLive.ite h.accessCommon

theorem accessBar2 (h : s.Kept p) : Res.Kept p (x.bar2 s) := by
  unfold Access.bar2
  split
  · exact h.execDoorbellPost
  · exact h.ok.onBit fun _ ht => ht.execFlushDoorbell
  · exact h.accessLive.andThen fun _ ht => ht.unmask.ok
  · exact h.accessLive

theorem accessPf1 (h : s.Kept p) : Res.Kept p (x.pf1 s) := by
  refine ((h.ok.onBit fun _ ht => ht.execMbxGo).onBit fun _ ht => ht.execMbxAbort).ite ((h.ok.ite h.accessLive).ite
      ((h.ok.onBit fun _ ht => ht.execSmRxGo).ite ((h.ok.onBit fun _ ht => ht.execSmTxPop).ite ?_)))
  split
  · exact h.accessLive.andThen fun _ ht => ht.unmask.ok
  · exact h.accessLive

theorem accessMemc (h : s.Kept p) : Res.Kept p (x.memc s) :=
  (((h.ok.onBit fun _ ht => ht.execCapArm).onBit fun _ ht => ht.execCapAbort).onBit fun _ ht => ht.execCapTrig).ite
      ((h.accessLive.andThen fun _ ht => ht.clampPtc.ok).ite ((h.ok.onBit fun _ ht => ht.execMotionPublish).ite
      (((h.ok.onBit fun _ ht => ht.execSyncArmCmd).onBit fun _ ht => ht.execSyncDisarmCmd).ite h.accessCommon)))

theorem accessMoni (h : s.Kept p) : Res.Kept p (x.moni s) := by
  refine (h.accessLive.onBit fun _ ht => ht.execMoniSync).ite ?_
  split
  · exact h.accessLive.onBit fun _ ht => ht.execHkReqGo
  · exact h.accessCommon

theorem accessSafe (h : s.Kept p) : Res.Kept p (x.safe s) :=
  (h.ok.onBit fun _ ht => ht.execSafeWdogService).ite h.accessCommon

theorem accessRun (h : s.Kept p) : Res.Kept p (x.run s) := by
  unfold Access.run
  split
  · exact h.accessChip
  · exact h.accessTbas
  · exact h.accessScan
  · exact h.accessEmit
  · exact h.accessLnk
  · exact h.accessLnk
  · exact h.accessLnk
  · exact h.accessLnk
  · exact h.accessHst
  · exact h.accessHst
  · exact h.accessHst
  · exact h.accessHst
  · exact h.accessHost
  · exact h.accessMemc
  · exact h.accessMoni
  · exact h.accessSafe
  · exact h.accessBar2
  · exact h.accessPf1
  · exact h.accessCommon

theorem writeMap {who : Actor} {a0 : ℕ} {v hw : Word} (h : s.Kept p) : Res.Kept p (State.writeMap who a0 v hw s) := by
  refine h.execStgWrite.ite (h.accError.ok.ite ?_)
  split
  · exact h.accError.ok
  · exact h.execStgWrite.ite (h.accRecord.ok.ite h.lostUpdates.accessRun)

theorem pastBar {who : Actor} {sp : Space} {off : ℕ} {write : Bool} (h : s.Kept p) : (s.pastBar who sp off write).Kept p :=
  h.when (fun _ h1 => h1.emit)

theorem execRegisterWrite {who : Actor} {sp : Space} {off : BitVec 32} {size : AccSize} {v vhi hw : Word} {rivals : List
    FabReq} (h : s.Kept p) :
    Res.Kept p (execRegisterWrite who sp off size v vhi hw rivals s) := by
  have hg : (s.fabricGrant who rivals).Kept p := h.fabricGrant
  exact h.ok.ite (h.pastBar.ok.ite (h.cfgWrite.ite (hg.accError.ok.ite (hg.gateAbort.ok.ite ((hg.writeMap.andThen fun _ ht
      => ht.writeMap).ite hg.writeMap)))))

theorem badRead {who : Actor} {code a : ℕ} (h : s.Kept p) : Res.Kept p (State.badRead who code a s) := h.accError.emit.ok

theorem readMap {who : Actor} {a : ℕ} (h : s.Kept p) : Res.Kept p (State.readMap who a s) := by
  unfold State.readMap
  split
  · exact h.execPmDataRead
  · exact h.execDmDataRead
  · exact h.emit.ok

theorem execReservedRead {who : Actor} {sp : Space} {off : BitVec 32} {size : AccSize} {rivals : List FabReq} (h : s.Kept
    p) :
    Res.Kept p (execReservedRead who sp off size rivals s) := by
  have hg : (s.fabricGrant who rivals).Kept p := h.fabricGrant
  exact h.ok.ite (h.pastBar.ok.ite (h.emit.ok.ite (hg.badRead.ite (hg.gateAbort.ok.ite (hg.badRead.ite (hg.badRead.ite
      ((hg.readMap.andThen fun _ ht => ht.readMap).ite hg.readMap)))))))

/-! ## Dispatch -/

theorem exec {c : Instr} (hc : c ≠ .shotFire) (hd : c ≠ .diagPulse) (h : s.Kept p) : Res.Kept p (exec c s) := by
  cases c
  case shotFire => exact absurd rfl hc
  case diagPulse => exact absurd rfl hd
  all_goals clear hc hd
  exacts [h.execRegisterWrite, h.execReservedRead, h.execStgWrite, h.execProofGo, h.execProofComplete, h.execCommitGo,
    h.execCommitAbort, h.execVarnish, h.execSnapGo, h.execSnapshotTake, h.execWideSel, h.execWideLatch, h.execMbxGo,
    h.execMbxAbort, h.execMbxResponse, h.execOvenUpdate, h.execOvnSat, h.execOvnFaultClear, h.execTbWarmClear,
    h.execTbWarmSet, h.execPtmDialog, h.execPtmDialogEnd, h.execPtmDisagree, h.execPtmDisagreeClear, h.execEraPrewrap,
    h.execTickWrap, h.execTbLoss, h.execTbRestart, h.execTiuStop, h.execTiuMiss, h.execTiuCtlWrite, h.execAdd, h.execSub,
    h.execAnd, h.execOr, h.execXor, h.execMul, h.execMinu, h.execMaxu, h.execShl, h.execShr, h.execSar, h.execCmp,
    h.execPlog, h.execMfs, h.execMts, h.execBr, h.execJal, h.execJr, h.execLoop, h.execRete, h.execLd, h.execSt,
    h.execLdt, h.execStt, h.execNow, h.execWaitt, h.execWaittResume, h.execSett, h.execTcmp, h.execTget, h.execTput,
    h.execLine, h.execShot, h.execTrain, h.execStag, h.execListenonly, h.execWindow, h.execZoom, h.execHswap,
    h.execStack, h.execPeek, h.execSumwait, h.execSketch, h.execProof, h.execCommit, h.execSignal, h.execWaitsig,
    h.execSemaphore, h.execLedger, h.execTrap, h.execYield, h.execHalt, h.execUndefinedOpcode, h.execWatchdog,
    h.execArbiterRequest, h.execEaselRun, h.execEaselHalt, h.execEaselStep, h.execEaselReset, h.execScanStart,
    h.execScanStartDue, h.execPmAddrWrite, h.execPmDataRead, h.execPmDataWrite, h.execDmDataRead, h.execDmDataWrite,
    h.execScanSigSet, h.execScanSigClear, h.execLineStart, h.execLineEnd, h.execDiagDue, h.execDiagArmStrobe,
    h.execEwireFrameStart, h.execEwireReturn, h.execEwireReturnTimeout, h.execGaveupClear, h.execHdrmSample,
    h.execQuietPause, h.execQuietPauseEnd, h.execLsupOv, h.execLsupOvClear, h.execLpllUnlock, h.execBlockReceive,
    h.execCdrUpdate, h.execFreqErr, h.execLaneRetrain, h.execRetrainTimeout, h.execTxSleep, h.execTxWake,
    h.execSleepAnnExpire, h.execSquelchAssert, h.execSquelchDeassert, h.execWakeFail, h.execEsGo, h.execEsDone,
    h.execLinkStateTimeout, h.execRelink, h.execGenSwitch, h.execGenFallback, h.execAm, h.execSlot, h.execEventBlock,
    h.execStatus, h.execAmbient, h.execRegRsp, h.execCaps, h.execEpochEcho, h.execPhaseMeasure, h.execPhaseExchange,
    h.execEpochTimeout, h.execPhaseCandidate, h.execTileRegGo, h.execTileRegTimeout, h.execBankSwap, h.execReadoutStart,
    h.execStackComplete, h.execStallRetireCmd, h.execMotionPublish, h.execKernelWrite, h.execFltRestart,
    h.execEchoDelivery, h.execSectorClassify, h.execLineUnitPlace, h.execDoorbellPost, h.execFlushDoorbell,
    h.execDescFetch, h.execBufferIdleClose, h.execRingEnable, h.execRingDisable, h.execRingResume, h.execRingStop,
    h.execCoalTimer, h.execIrqCauseClear, h.execConventionalReset, h.execPerstDeassert, h.execFlr, h.execLinkRecovery,
    h.execMemcTraining, h.execMemcInitDone, h.execMemcRetrain, h.execCrcRetryFail, h.execChannelRetrainDone, h.execMemUe,
    h.execMemcPeriod, h.execScrubPass, h.execCapArm, h.execCapAbort, h.execCapTrig, h.execCapSample, h.execCapPostEnd,
    h.execCapExportRecord, h.execSyncArmCmd, h.execSyncDisarmCmd, h.execSyncPulseDeferred, h.execSyncPulseRx,
    h.execSyncTrigRx, h.execMonCrossing, h.execSincOutput, h.execSlowSample, h.execMoniSync, h.execMoniSyncReset,
    h.execXsOpen, h.execHkSequenceStart, h.execHkConversion, h.execHkReqGo, h.execHkRotate, h.execHkSliceFail,
    h.execWdogA, h.execSafeWdogService, h.execChDisagree, h.execMsgTimeout, h.execSwStuckHs, h.execSwStuckLs,
    h.execSupplyPresent, h.execRstStuck, h.execSafeRstFall, h.execSafeRstRise, h.execCauseClear, h.execSwitchTestStep,
    h.execSmRxGo, h.execCanFrameRx, h.execPduUnpaired, h.execPermit, h.execStop, h.execSafeStatusPdu, h.execSmTxPop,
    h.execViolClear, h.execProfileLoad, h.execProfileActivate, h.execProfileInfo, h.execProfileCeil, h.execBoot,
    h.execHssTreeReady, h.execLcInfo, h.execLcAdvance, h.execOwnerKeys, h.execDbgChallenge, h.execDbgUnlock,
    h.execDbgClose, h.execDbgSessionExpire, h.execCertRead, h.execEatGet, h.execTagRead, h.execTagWrite,
    h.execGetVersion, h.execGetCapabilities, h.execNegotiateAlgorithms, h.execGetDigests, h.execGetCertificate,
    h.execChallenge, h.execGetMeasurements, h.execGetHssSig, h.execUnsupportedSpdmRequest, h.execConfigHash,
    h.execJtagInstruction, h.execOscJudge, h.execStandingMonitor, h.execStartupRetry, h.execGateAbort,
    h.execClkoutChange, h.execDvfsTarget, h.execAvsTransaction, h.execDvfsVoltageReached, h.execDvfsSwitch,
    h.execDvfsFail, h.execFwaitExpire, h.execPwrGo, h.execHushSleepSend, h.execHushLanesIdle, h.execHushResume,
    h.execDozeEnter, h.execDozeWake, h.execVsysFall, h.execPowerOn, h.execBootAlwaysOn, h.execPmicPg, h.execTbStart,
    h.execErrorRecord, h.execLogStore, h.execLogMergeFlush, h.execRegionRestart, h.execRestartCmd, h.execRestartBistDone,
    h.execRestartResume, h.execRestartFail, h.execChipFault, h.execChipFaultClear, h.execUpdLoad, h.execUpdVerify,
    h.execUpdActivate, h.execUpdStatus, h.execUpdRevert, h.execFwHandover, h.execFwTakeover, h.execFwConfirm,
    h.execHealthWindowExpire, h.execCalDue, h.execCalDeferred, h.execCalStore, h.execCalInfo, h.execCalRun,
    h.execCalConfig, h.execCalRead, h.execCalWrite, h.execBgStarved, h.execTillCfgWrite, h.execTillOverflow,
    h.execLinkTrained, h.execRecoveryExit, h.execAlignmentMarkerSend, h.execTilePortRun, h.execCanError,
    h.execBusOffRecovery, h.execLockstepErr]

end Sys2Proof.Machine.State.Kept
end

section
/-!
PROOF. Every step keeps the tables and the queues, and an unarmed device fires nothing (R374, R376).
-/
namespace Sys2Proof.Machine.State.Kept

variable {p : List Instr × Option (List Out)} {s : State}

/-! ## The two commands that fire -/

theorem armed_set {f : Field} {v : Nat} (h : f.apart Fd.SAFE_STAT_STATE = true) : (s.set f v).armed = s.armed :=
  congrArg (· == stARMED) (State.get_set_apart s v h)

theorem armed_reach {t : Wide} : (s.reach t).armed = s.armed := congrArg (· == stARMED) (State.get_reach s t _)

theorem armed_showQueues : s.showQueues.armed = s.armed := (armed_set (by decide)).trans (armed_set (by decide))

theorem armed_applyStags {t : Wide} : (s.applyStags t).armed = s.armed := armed_showQueues

theorem armed_firstShot {x : Shot} : (s.firstShot x).armed = s.armed := by
  unfold State.firstShot
  split <;> rfl

/-- What SHOT_FIRE does before it asks whether SAFE is ARMED leaves that as it was. -/
theorem armed_takenShot {x : Shot} {f : Scan → Scan} :
    ((((((s.reach x.fire).applyStags x.fire).scan' f).showQueues).firstShot x).markDwell x.line).armed = s.armed :=
  armed_firstShot.trans (armed_showQueues.trans (armed_applyStags.trans armed_reach))

/-- An unarmed device takes the shot from its queue as one that only listens (R374). -/
theorem execShotFire_unarmed (h : s.Kept p) (ha : s.armed = false) : Res.Kept p (Machine.execShotFire s) := by
  unfold Machine.execShotFire
  split
  · exact h.ok
  · refine h.ok.ite ?_
    dsimp only
    split
    · exact h.reach.applyStags.scan_upd.showQueues.firstShot.markDwell.releaseEvents.ok
    · rw [armed_takenShot, ha, Bool.not_false, Bool.or_true, if_pos rfl]
      exact h.reach.applyStags.scan_upd.showQueues.firstShot.markDwell.markShot.releaseEvents.ok

/-- An unarmed device gives up the diagnosis pulse that its strobe armed. -/
theorem execDiagPulse_unarmed (h : s.Kept p) (ha : s.armed = false) : Res.Kept p (Machine.execDiagPulse s) := by
  unfold Machine.execDiagPulse
  split
  case h_1 d l _ _ =>
    have hun : ((s.reach d.g).emit' fun x => { x with arm := none }).armed = false := armed_reach.trans ha
    refine h.ok.ite ?_
    dsimp only
    rw [hun, Bool.not_false, if_pos rfl]
    exact h.reach.emit_upd.ok
  case h_2 => exact h.ok

/-- Every command keeps the tables and the queues. -/
theorem exec_any {q : List Instr} {c : Instr} (h : s.Kept (q, none)) : Res.Kept (q, none) (Machine.exec c s) := by
  by_cases hc : c = .shotFire
  · subst hc
    exact h.execShotFire
  · by_cases hd : c = .diagPulse
    · subst hd
      exact h.execDiagPulse
    · exact h.exec hc hd

/-- Every command of an unarmed device leaves the fire outputs still, too. -/
theorem exec_unarmed {c : Instr} (h : s.Kept p) (ha : s.armed = false) : Res.Kept p (Machine.exec c s) := by
  by_cases hc : c = .shotFire
  · subst hc
    exact h.execShotFire_unarmed ha
  · by_cases hd : c = .diagPulse
    · subst hd
      exact h.execDiagPulse_unarmed ha
    · exact h.exec hc hd


end Sys2Proof.Machine.State.Kept

namespace Sys2Proof.Machine

/-! ## From the invariant to a step -/

section
variable {s t : State} {c : Instr} {q : List Instr} {l : Option (List Out)}

theorem Res.Kept.of_next {p : List Instr × Option (List Out)} {r : Res} (h : Res.Kept p r) (hr : r = .next t) : t.Kept p := by
  obtain ⟨u, rfl, hu⟩ | rfl := h
  · cases hr
    exact hu
  · cases hr

/-- A sound state keeps its own commands and its own pulses. -/
theorem State.kept_self (ht : s.tablesOk = true) (hq : s.queuesOk = true) : s.Kept (s.pending, some s.pulses) :=
  (State.kept_iff _ _ _).2 ⟨ht, hq, rfl, fun _ h => Option.some.inj h⟩

theorem State.Kept.pulses_eq {k : List Out} (h : s.Kept (q, some k)) : s.pulses = k :=
  ((State.kept_iff _ _ _).1 h).2.2.2 k rfl

/-- Taking the front command leaves the rest to its own invariant. -/
theorem State.Kept.drop_pending (h : s.Kept (q, l)) (rest : List Instr) :
    State.Kept (rest, l) { s with pending := rest } :=
  ⟨h.io, h.pm, h.dm, h.log, h.ptm, h.capQ, h.smTx, h.waitA, h.waitB, rfl⟩

/-- A step performs its front command, or idles. -/
theorem step_cases (s : State) :
    (s.pending = [] ∧ step s = .next s.idle) ∨
      ∃ c rest, s.pending = c :: rest ∧ step s = exec c { s with pending := rest } := by
  unfold step
  split
  case h_1 h => exact .inl ⟨h, rfl⟩
  case h_2 c rest h => exact .inr ⟨c, rest, h, rfl⟩

theorem step_keeps (ht : s.tablesOk = true) (hq : s.queuesOk = true) (h : step s = .next t) :
    ∃ rest, t.Kept (rest, none) := by
  have hs := State.kept_self ht hq
  obtain ⟨-, hidle⟩ | ⟨c, rest, -, hexec⟩ := step_cases s
  · exact ⟨_, hs.forget.idle.next.of_next (hidle.symm.trans h)⟩
  · exact ⟨rest, (hs.drop_pending rest).forget.exec_any.of_next (hexec.symm.trans h)⟩

theorem step_unarmed_keeps (ht : s.tablesOk = true) (hq : s.queuesOk = true) (ha : s.armed = false) (h : step s = .next t) :
    ∃ rest, t.Kept (rest, some s.pulses) := by
  have hs := State.kept_self ht hq
  obtain ⟨-, hidle⟩ | ⟨c, rest, -, hexec⟩ := step_cases s
  · exact ⟨_, hs.idle.next.of_next (hidle.symm.trans h)⟩
  · exact ⟨rest, ((hs.drop_pending rest).exec_unarmed ha).of_next (hexec.symm.trans h)⟩

end

/-- Settles O59, by `State.Kept`, which every operation of the model keeps: a step takes one command or idles. -/
theorem everyStepKeepsTheTables : Obligations.EveryStepKeepsTheTables := by
  unfold Obligations.EveryStepKeepsTheTables
  refine ⟨fun s t ht hq h => ?_, fun c s t ht hq h => ?_⟩
  · obtain ⟨rest, hkept⟩ := step_keeps ht hq h
    obtain ⟨htables, hqueues, -, -⟩ := (State.kept_iff _ _ _).1 hkept
    exact ⟨htables, hqueues⟩
  · exact ((State.kept_self ht hq).forget.exec_any.of_next h).pending

/-- Settles O60: only a pulse of SHOT_FIRE or DIAG_PULSE adds to the fire outputs, and each asks first whether SAFE is
    ARMED. -/
theorem nothingFiresUnlessArmed : Obligations.NothingFiresUnlessArmed := by
  unfold Obligations.NothingFiresUnlessArmed
  refine ⟨fun s t ht hq ha h => ?_, fun c s t ht hq hc hd h => ?_⟩
  · obtain ⟨rest, hkept⟩ := step_unarmed_keeps ht hq ha h
    exact hkept.pulses_eq
  · exact (((State.kept_self ht hq).exec hc hd).of_next h).pulses_eq

end Sys2Proof.Machine
end

section
/-!
SUPPORT. Every command has a next state, whatever the state: each of its branches ends with one. The tree of a command's
    branches is
the term that proves it.
-/
-- Many short lemmas: one thread for all of them, since a thread for each would ask for more memory than a build may have.
set_option Elab.async false

namespace Sys2Proof.Machine

/-- The command has a next state. -/
def Res.Answers (r : Res) : Prop := ∃ t, r = .next t

end Sys2Proof.Machine

namespace Sys2Proof.Machine.Res.Answers

variable {s : State}

theorem ok : (ok s).Answers := ⟨s, rfl⟩

theorem ite {c : Prop} [Decidable c] {a b : Res} (h : a.Answers) (k : b.Answers) : (if c then a else b).Answers := by
  split
  · exact h
  · exact k

theorem andThen {r : Res} {f : State → Res} (h : r.Answers) (k : ∀ {t : State}, (f t).Answers) : (andThen r f).Answers := by
  obtain ⟨t, rfl⟩ := h
  exact k

theorem onBit {r : Res} {f : State → Res} {v : Word} {n : ℕ} (h : r.Answers) (k : ∀ {t : State}, (f t).Answers) :
    (onBit v n f r).Answers := ite (andThen h k) h

theorem writeBy {who : Actor} {a : ℕ} {f : State → Res} (k : (f s).Answers) : (s.writeBy who a f).Answers := ite ok (ite ok k)

theorem readBy {who : Actor} {a : ℕ} {f : State → Res} (k : (f s).Answers) : (s.readBy who a f).Answers := ite ok (ite ok k)

theorem writeRow {a : ℕ} {f : State → Res} (k : (f s).Answers) : (s.writeRow a f).Answers := ite ok (ite ok k)

theorem whenOn {f : State → Res} (k : (f s).Answers) : (s.whenOn f).Answers := ite k ok

theorem instr {e : ℕ} {f : Fields} {h0 : Shape} {range : State → Bool} {body : State → State} :
    (instr e f h0 range body s).Answers := ite ok (ite ok (ite ok ok))

theorem execTbWarmClear : (execTbWarmClear s).Answers := ite ok ok

theorem execTbWarmSet : (execTbWarmSet s).Answers := ite ok ok

theorem execOvnSat : (execOvnSat s).Answers := ite ok ok

theorem execOvnFaultClear {who : Actor} : (execOvnFaultClear who s).Answers := writeBy ok

theorem execPtmDialog : (execPtmDialog s).Answers := ite (ite ok ok) (ite ok ok)

theorem execPtmDialogEnd {good : Bool} {t1 t4 host : Wide} {turn : Word} : (execPtmDialogEnd good t1 t4 host turn s).Answers :=
  ite ok (ite ok ok)

theorem execPtmDisagree : (execPtmDisagree s).Answers := by
  unfold Machine.execPtmDisagree
  split; exacts [ite ok ok, ok]

theorem execPtmDisagreeClear {who : Actor} : (execPtmDisagreeClear who s).Answers := writeBy ok

theorem execEraPrewrap : (execEraPrewrap s).Answers := ite ok ok

theorem execTickWrap : (execTickWrap s).Answers := ite ok ok

theorem execTiuCtlWrite {who : Actor} {v : Word} : (execTiuCtlWrite who v s).Answers := writeBy (ite ok ok)

theorem execStgWrite {who : Actor} {off : BitVec 32} {v : Word} : (execStgWrite who off v s).Answers :=
  ite ok (ite ok (ite ok (ite ok ok)))

theorem execProofGo {who : Actor} : (execProofGo who s).Answers := writeBy ok

theorem execCommitGo {who : Actor} {both : Bool} : (execCommitGo who both s).Answers := writeBy ok

theorem execCommitAbort {who : Actor} : (execCommitAbort who s).Answers := writeBy (ite ok (ite ok ok))

theorem execSnapGo {who : Actor} : (execSnapGo who s).Answers := writeBy ok

theorem execSnapshotTake : (execSnapshotTake s).Answers := by
  unfold Machine.execSnapshotTake
  split; exacts [ok, ite ok ok]

theorem selectWide {who : Actor} {fw : Bool} {r : Fin 19} {idx : BitVec 16} : (State.selectWide who fw r idx s).Answers :=
  ite ok (ite ok (ite ok ok))

theorem execWideSel {fw : Bool} {r : Fin 19} {idx : BitVec 16} : (execWideSel fw r idx s).Answers := writeBy selectWide

theorem execWideLatch {fw : Bool} {r : Fin 19} : (execWideLatch fw r s).Answers := ite ok (ite ok ok)

theorem execMbxGo : (execMbxGo s).Answers := writeBy (ite ok ok)

theorem execMbxAbort : (execMbxAbort s).Answers := writeBy (ite ok ok)

theorem execMbxResponse : (execMbxResponse s).Answers := ite (by split; exacts [ok, ok]) ok

theorem execArbiterRequest : (execArbiterRequest s).Answers := by
  unfold Machine.execArbiterRequest
  dsimp only
  refine ite ok ?_
  split
  · exact ok
  · split
    · exact ok
    · exact ok

theorem execLinkStateTimeout {t : Fin 32} : (execLinkStateTimeout t s).Answers := ok

theorem execRelink {t : Fin 32} : (execRelink t s).Answers := writeRow (ite ok (ite ok ok))

theorem execGenSwitch {t : Fin 32} : (execGenSwitch t s).Answers := by
  unfold Machine.execGenSwitch
  split; exacts [ite ok ok, ok]

theorem execGenFallback {t : Fin 32} : (execGenFallback t s).Answers := ite ok ok

theorem execAm {l : Fin 128} {bidx : BitVec 2} {active : BitVec 4} {amseq : Byte} {late : Bool} : (execAm l bidx active
    amseq late s).Answers :=
  ite ok (ite (ite ok ok) (ite ok ok))

theorem execAlignmentMarkerSend {t : Fin 32} : (execAlignmentMarkerSend t s).Answers := ite ok (ite ok (ite ok ok))

theorem upMessage {t : ℕ} {m : MsgHdr} {own hdata : ℕ} {l : List Wide} {minGen : ℕ} {body : State → State} :
    (upMessage t m own hdata l minGen body s).Answers := ite ok (ite ok (ite ok ok))

theorem execStatus {t : Fin 32} {h0 : MsgHdr} {payload : Wide} : (execStatus t h0 payload s).Answers := upMessage

theorem execCaps {t : Fin 32} {h0 : MsgHdr} {payload : Wide} : (execCaps t h0 payload s).Answers := upMessage

theorem execAmbient {t : Fin 32} {m : MsgHdr} {hdata : BitVec 16} {counts : List (BitVec 16)} (h : counts.length = 32) :
    (execAmbient t m hdata counts s).Answers := by
  unfold Machine.execAmbient
  rw [if_neg (not_not.2 h)]
  exact upMessage

theorem execPhaseMeasure {t : Fin 32} {temp : BitVec 12} : (execPhaseMeasure t temp s).Answers := ite ok ok

theorem execPhaseExchange {t : Fin 32} {t1 : BitVec 68} : (execPhaseExchange t t1 s).Answers := ite ok ok

theorem execEpochEcho {t : Fin 32} {h0 : MsgHdr} {beacon : Byte} {t2 t3 : BitVec 52} {t4 : BitVec 68} : (execEpochEcho t h0
    beacon t2 t3 t4 s).Answers :=
  upMessage

theorem execEpochTimeout {t : Fin 32} : (execEpochTimeout t s).Answers := ok

theorem execPhaseCandidate {t : Fin 32} : (execPhaseCandidate t s).Answers :=
  ite ok (ite ok (ite ok (by split; exacts [ok, ok])))

theorem execTilePortRun {t : Fin 32} : (execTilePortRun t s).Answers := by
  unfold Machine.execTilePortRun
  split; exacts [ite ok ok, ok]

theorem execSlot {t : Fin 32} {num : BitVec 25} : (execSlot t num s).Answers := ite ok (by split; exacts [ok, ok])

theorem execTileRegGo {t : Fin 32} : (execTileRegGo t s).Answers := writeRow (ite ok ok)

theorem execRegRsp {t : Fin 32} {h0 : MsgHdr} {addr : BitVec 16} {data : Word} {rstat : Byte} : (execRegRsp t h0 addr data
    rstat s).Answers :=
  upMessage

theorem execTileRegTimeout {t : Fin 32} : (execTileRegTimeout t s).Answers := ok

theorem execEventBlock {l : Fin 128} {arrival : Wide} {full : Bool} {w0 w1 : Word} {errs : List BinErr} : (execEventBlock l
    arrival full w0 w1 errs s).Answers :=
  ite ok ok

theorem execBankSwap {sec : Fin 32} : (execBankSwap sec s).Answers := by
  unfold Machine.execBankSwap
  split; exacts [ok, ite ok ok]

theorem execStallRetireCmd {n : Fin 4} : (execStallRetireCmd n s).Answers := writeRow ok

theorem execMotionPublish : (execMotionPublish s).Answers := writeRow ok

theorem execReadoutStart {sec : Fin 32} : (execReadoutStart sec s).Answers := by
  unfold Machine.execReadoutStart
  split
  · exact ok
  · refine ite ok ?_
    dsimp only
    split
    · exact ite ok ok
    · exact ok

theorem execStackComplete : (execStackComplete s).Answers := by
  unfold Machine.execStackComplete
  split; exacts [ok, ite ok ok]

theorem execKernelWrite {who : Actor} {off : BitVec 32} {v : Word} (h : (kernelAt off.toNat).isSome = true)
    (hm : (kernelMask (off.toNat % 0x100)).isSome = true) : (execKernelWrite who off v s).Answers := by
  obtain ⟨k, hk⟩ := Option.isSome_iff_exists.1 h
  obtain ⟨m, hm⟩ := Option.isSome_iff_exists.1 hm
  unfold Machine.execKernelWrite
  rw [hk, hm]
  exact writeBy (ite ok ok)

theorem execFltRestart {c : Fin 1024} {zoom : Option (Fin 4)} {bin : BitVec 12} : (execFltRestart c zoom bin s).Answers := by
  unfold Machine.execFltRestart
  dsimp only
  split
  · exact ok
  · exact ite ok (ite ok (ite ok ok))

theorem execEchoDelivery {c : Fin 1024} {errs : List BinErr} : (execEchoDelivery c errs s).Answers := by
  unfold Machine.execEchoDelivery
  dsimp only
  split
  · exact ok
  · refine ite ok ?_
    split
    · exact ite ok (ite ok ok)
    · exact ok

theorem execMemcTraining {densities : List (BitVec 2)} {pass : Bool} (h : densities.length = 4) :
    (execMemcTraining densities pass s).Answers := by
  unfold Machine.execMemcTraining
  rw [if_neg (not_not.2 h)]
  refine ite ok ?_
  dsimp only
  split; exacts [ok, ite ok ok]

theorem execMemcInitDone : (execMemcInitDone s).Answers := ite ok ok

theorem execMemcRetrain : (execMemcRetrain s).Answers := writeRow ok

theorem execCrcRetryFail {ch : Fin 4} {good : Option (Fin 3)} : (execCrcRetryFail ch good s).Answers :=
  ite ok (by split; exacts [ok, ok])

theorem execChannelRetrainDone {ch : Fin 4} {pass : Bool} : (execChannelRetrainDone ch pass s).Answers := by
  unfold Machine.execChannelRetrainDone
  split; exacts [ok, ite ok ok]

theorem execMemUe {da : BitVec 34} {oneSymbol : Bool} : (execMemUe da oneSymbol s).Answers := ite ok (ite ok ok)

theorem execMemcPeriod {load : MemLoad} : (execMemcPeriod load s).Answers := whenOn (ite ok ok)

theorem execScrubPass {corrected : List (Fin 4)} : (execScrubPass corrected s).Answers := ite ok ok

theorem memory {h0 : Shape} {n : ℕ} {store : Bool} {e : Fin 8} {f : Fields} {act : ℕ → State → State} :
    (memory h0 n store e f act s).Answers := instr

theorem execLd {e : Fin 8} {f : Fields} : (execLd e f s).Answers := memory

theorem execSt {e : Fin 8} {f : Fields} : (execSt e f s).Answers := memory

theorem execLdt {e : Fin 8} {f : Fields} : (execLdt e f s).Answers := memory

theorem execStt {e : Fin 8} {f : Fields} : (execStt e f s).Answers := memory

theorem execNow {e : Fin 8} {f : Fields} : (execNow e f s).Answers := instr

theorem execWaitt {e : Fin 8} {f : Fields} : (execWaitt e f s).Answers := instr

theorem execWaittResume {e : Fin 8} : (execWaittResume e s).Answers := by
  unfold Machine.execWaittResume
  split; exacts [ite (ite ok ok) (ite ok ok), ok]

theorem execSett {e : Fin 8} {f : Fields} : (execSett e f s).Answers := instr

theorem execTcmp {e : Fin 8} {f : Fields} : (execTcmp e f s).Answers := instr

theorem execTget {e : Fin 8} {f : Fields} : (execTget e f s).Answers := instr

theorem execTput {e : Fin 8} {f : Fields} : (execTput e f s).Answers := instr

theorem execCapArm : (execCapArm s).Answers := writeRow ok

theorem execCapTrig : (execCapTrig s).Answers := writeRow ok

theorem execCapSample : (execCapSample s).Answers := ite ok (by split; exacts [ok, ok])

theorem execCapPostEnd : (execCapPostEnd s).Answers := ite (ite ok ok) ok

theorem execCapAbort : (execCapAbort s).Answers := writeRow ok

theorem execCapExportRecord : (execCapExportRecord s).Answers := by
  refine ite ok ?_
  dsimp only
  split
  · exact ok
  · split
    · exact ok
    · exact ok

theorem execSyncArmCmd : (execSyncArmCmd s).Answers := writeRow ok

theorem execSyncDisarmCmd : (execSyncDisarmCmd s).Answers := writeRow ok

theorem execSyncPulseDeferred : (execSyncPulseDeferred s).Answers := ite ok (by split; exacts [ite ok (ite ok ok), ok])

theorem execSyncPulseRx {edge : Wide} {width : BitVec 16} : (execSyncPulseRx edge width s).Answers :=
  ite ok (ite ok (ite ok (ite ok (ite ok ok))))

theorem execSyncTrigRx {edge : Wide} : (execSyncTrigRx edge s).Answers := ite ok (ite ok ok)

theorem execLine {e : Fin 8} {f : Fields} : (execLine e f s).Answers := instr

theorem execShot {e : Fin 8} {f : Fields} : (execShot e f s).Answers := instr

theorem train {h0 : Shape} {listen : Bool} {e : Fin 8} {f : Fields} : (train h0 listen e f s).Answers := instr

theorem execTrain {e : Fin 8} {f : Fields} : (execTrain e f s).Answers := train

theorem execListenonly {e : Fin 8} {f : Fields} : (execListenonly e f s).Answers := train

theorem execStag {e : Fin 8} {f : Fields} : (execStag e f s).Answers := instr

theorem execWindow {e : Fin 8} {f : Fields} : (execWindow e f s).Answers := instr

theorem execZoom {e : Fin 8} {f : Fields} : (execZoom e f s).Answers := instr

theorem execHswap {e : Fin 8} {f : Fields} : (execHswap e f s).Answers := instr

theorem execStack {e : Fin 8} {f : Fields} : (execStack e f s).Answers := instr

theorem alu {opc : ℕ} {op : Word → Word → Word} {e : Fin 8} {f : Fields} : (alu opc op e f s).Answers := instr

theorem execAdd {e : Fin 8} {f : Fields} : (execAdd e f s).Answers := alu

theorem execSub {e : Fin 8} {f : Fields} : (execSub e f s).Answers := alu

theorem execAnd {e : Fin 8} {f : Fields} : (execAnd e f s).Answers := alu

theorem execOr {e : Fin 8} {f : Fields} : (execOr e f s).Answers := alu

theorem execXor {e : Fin 8} {f : Fields} : (execXor e f s).Answers := alu

theorem execMul {e : Fin 8} {f : Fields} : (execMul e f s).Answers := alu

theorem execMinu {e : Fin 8} {f : Fields} : (execMinu e f s).Answers := alu

theorem execMaxu {e : Fin 8} {f : Fields} : (execMaxu e f s).Answers := alu

theorem execShl {e : Fin 8} {f : Fields} : (execShl e f s).Answers := alu

theorem execShr {e : Fin 8} {f : Fields} : (execShr e f s).Answers := alu

theorem execSar {e : Fin 8} {f : Fields} : (execSar e f s).Answers := alu

theorem execCmp {e : Fin 8} {f : Fields} : (execCmp e f s).Answers := instr

theorem execPlog {e : Fin 8} {f : Fields} : (execPlog e f s).Answers := instr

theorem execMfs {e : Fin 8} {f : Fields} : (execMfs e f s).Answers := instr

theorem execMts {e : Fin 8} {f : Fields} : (execMts e f s).Answers := instr

theorem execBr {e : Fin 8} {f : Fields} : (execBr e f s).Answers := instr

theorem execJal {e : Fin 8} {f : Fields} : (execJal e f s).Answers := instr

theorem execJr {e : Fin 8} {f : Fields} : (execJr e f s).Answers := instr

theorem execLoop {e : Fin 8} {f : Fields} : (execLoop e f s).Answers := instr

theorem execRete {e : Fin 8} {f : Fields} : (execRete e f s).Answers := instr

theorem execPeek {e : Fin 8} {f : Fields} : (execPeek e f s).Answers := instr

theorem execSumwait {e : Fin 8} {f : Fields} : (execSumwait e f s).Answers := instr

theorem execSketch {e : Fin 8} {f : Fields} : (execSketch e f s).Answers := instr

theorem execProof {e : Fin 8} {f : Fields} : (execProof e f s).Answers := instr

theorem execCommit {e : Fin 8} {f : Fields} {preempted : Bool} : (execCommit e f preempted s).Answers := instr

theorem execSignal {e : Fin 8} {f : Fields} : (execSignal e f s).Answers := instr

theorem execWaitsig {e : Fin 8} {f : Fields} : (execWaitsig e f s).Answers := instr

theorem execSemaphore {e : Fin 8} {f : Fields} : (execSemaphore e f s).Answers := instr

theorem execLedger {e : Fin 8} {f : Fields} : (execLedger e f s).Answers := instr

theorem execTrap {e : Fin 8} {f : Fields} : (execTrap e f s).Answers := instr

theorem execYield {e : Fin 8} {f : Fields} : (execYield e f s).Answers := instr

theorem execHalt {e : Fin 8} {f : Fields} : (execHalt e f s).Answers := instr

theorem execUndefinedOpcode {e : Fin 8} {w : Wide} (h : definedOpcodes.contains (opcOf w) = false) :
    (execUndefinedOpcode e w s).Answers := by
  unfold Machine.execUndefinedOpcode
  rw [if_neg (by rw [h]; exact Bool.false_ne_true)]
  exact ite ok ok

theorem runWord {e : Fin 8} {w : Wide} : (runWord e w s).Answers := by
  unfold Machine.runWord
  split; exacts [execAdd, execSub, execAnd, execOr, execXor, execMul, execMinu, execMaxu, execShl, execShr, execSar,
      execCmp, execPlog, execMfs, execMts, execBr, execJal, execJr, execLoop, execRete, execLd, execSt, execLdt, execStt,
      execNow, execWaitt, execSett, execTcmp, execTget, execTput, execLine, execShot, execTrain, execStag, execListenonly,
      execWindow, execZoom, execHswap, execStack, execPeek, execSumwait, execSketch, execProof, execCommit, execSignal,
      execWaitsig, execSemaphore, execLedger, execTrap, execYield, execHalt, ok]

theorem execWatchdog {e : Fin 8} : (execWatchdog e s).Answers := ite ok ok

theorem execEaselRun {e : Fin 8} : (execEaselRun e s).Answers := writeRow ok

theorem execEaselHalt {e : Fin 8} : (execEaselHalt e s).Answers := writeRow ok

theorem execEaselReset {e : Fin 8} : (execEaselReset e s).Answers := writeRow ok

theorem execEaselStep {who : Actor} {e : Fin 8} : (execEaselStep who e s).Answers := by
  unfold Machine.execEaselStep
  exact writeBy (ite ok (ite runWord ok))

theorem execScanStart {mask : Byte} : (execScanStart mask s).Answers := writeRow (ite ok ok)

theorem execScanStartDue : (execScanStartDue s).Answers := ite ok ok

theorem execPmAddrWrite {who : Actor} {e : Fin 8} {v : Word} : (execPmAddrWrite who e v s).Answers := writeBy ok

theorem execPmDataRead {who : Actor} {e : Fin 8} : (execPmDataRead who e s).Answers := by
  unfold Machine.execPmDataRead
  exact readBy (ite ok ok)

theorem execPmDataWrite {who : Actor} {e : Fin 8} {v : Word} : (execPmDataWrite who e v s).Answers := by
  unfold Machine.execPmDataWrite
  exact writeBy (ite ok (ite ok ok))

theorem execDmDataRead {who : Actor} {e : Fin 8} : (execDmDataRead who e s).Answers := by
  unfold Machine.execDmDataRead
  exact readBy ok

theorem execDmDataWrite {who : Actor} {e : Fin 8} {v : Word} : (execDmDataWrite who e v s).Answers := writeBy ok

theorem execScanSigSet {mask : BitVec 16} : (execScanSigSet mask s).Answers := writeRow ok

theorem execScanSigClear {mask hw : BitVec 16} : (execScanSigClear mask hw s).Answers := writeRow ok

theorem execDiagDue {m : Fin 16} {a : Fin 64} : (execDiagDue m a s).Answers := ite ok ok

theorem execShotFire : (execShotFire s).Answers := by
  unfold Machine.execShotFire
  split
  · exact ok
  · refine ite ok ?_
    dsimp only
    split
    · exact ok
    · exact ite ok ok

theorem execDiagArmStrobe : (execDiagArmStrobe s).Answers := by
  unfold Machine.execDiagArmStrobe
  split; exacts [ok, ite ok ok]

theorem execDiagPulse : (execDiagPulse s).Answers := by
  unfold Machine.execDiagPulse
  split; exacts [ite ok (ite ok ok), ok]

theorem execEwireFrameStart : (execEwireFrameStart s).Answers := ite ok ok

theorem execEwireReturn {words : List (BitVec 48)} : (execEwireReturn words s).Answers := by
  unfold Machine.execEwireReturn
  split; exacts [ok, (by split; exacts [ok, ok])]

theorem execEwireReturnTimeout : (execEwireReturnTimeout s).Answers := ite ok ok

theorem execGaveupClear {who : Actor} : (execGaveupClear who s).Answers := writeBy ok

theorem execHdrmSample {v : BitVec 9} : (execHdrmSample v s).Answers := whenOn (ite ok ok)

theorem execQuietPause : (execQuietPause s).Answers := by
  unfold Machine.execQuietPause
  dsimp only
  split
  · exact ite ok ok
  · exact ok

theorem execQuietPauseEnd {vs : BitVec 13} : (execQuietPauseEnd vs s).Answers := ite ok (ite ok (ite ok ok))

theorem execLsupOv {v : BitVec 13} : (execLsupOv v s).Answers := whenOn (ite ok ok)

theorem execLsupOvClear {who : Actor} : (execLsupOvClear who s).Answers := writeBy ok

theorem execLineEnd : (execLineEnd s).Answers := by
  unfold Machine.execLineEnd
  split; exacts [ok, ite ok ok]

theorem execDoorbellPost {r : Fin 14} {post : Word} : (execDoorbellPost r post s).Answers := writeBy (ite ok (ite ok ok))

theorem execFlushDoorbell {r : Fin 14} {next : BitVec 21} : (execFlushDoorbell r next s).Answers := writeBy (ite ok ok)

theorem execDescFetch {r : Fin 14} {fin : ReadEnd} {addr : Wide} {size cookie : Word} {tail : BitVec 128} : (execDescFetch
    r fin addr size cookie tail s).Answers :=
  ite (ite ok (ite ok ok)) ok

theorem execBufferIdleClose {r : Fin 14} : (execBufferIdleClose r s).Answers := ite ok ok

theorem execCoalTimer {r : Fin 14} : (execCoalTimer r s).Answers := ite ok ok

theorem execRingEnable {r : Fin 14} : (execRingEnable r s).Answers := writeRow (ite ok ok)

theorem execRingDisable {r : Fin 14} {flush : Bool} {next : BitVec 21} : (execRingDisable r flush next s).Answers :=
  writeRow (ite ok ok)

theorem execRingResume {r : Fin 14} : (execRingResume r s).Answers := writeRow (ite ok ok)

theorem execRingStop {pm : Bool} : (execRingStop pm s).Answers := whenOn (ite (ite ok ok) (ite ok ok))

theorem execIrqCauseClear {mask hw : Wide} : (execIrqCauseClear mask hw s).Answers := writeRow ok

theorem execConventionalReset {why : ResetCause} : (execConventionalReset why s).Answers := by
  unfold Machine.execConventionalReset
  split; exacts [ok, ite ok ok, ite ok ok]

theorem execFlr {pf1 : Bool} : (execFlr pf1 s).Answers := ite ok ok

theorem execLinkTrained {speed : BitVec 3} {width : BitVec 4} {flit : Bool}
    (h : linkFits speed.toNat width.toNat flit = true) : (execLinkTrained speed width flit s).Answers := by
  unfold Machine.execLinkTrained
  rw [if_neg (by simp [h])]
  exact ite ok ok

theorem execLinkRecovery {replays : BitVec 8} : (execLinkRecovery replays s).Answers := ite ok ok

theorem execRecoveryExit : (execRecoveryExit s).Answers := ok

theorem execBlockReceive {l : Fin 128} {hdr : BitVec 2} {payload : Wide} : (execBlockReceive l hdr payload s).Answers := by
  refine ite ok ?_
  split; exacts [ok, ite ok (ite ok (ite ok (ite ok ok)))]

theorem execCdrUpdate {l : Fin 128} {vote : ℤ} (h : -1 ≤ vote ∧ vote ≤ 1) : (execCdrUpdate l vote s).Answers := by
  unfold Machine.execCdrUpdate
  rw [if_neg (by omega)]
  exact ite ok ok

theorem execFreqErr {l : Fin 128} : (execFreqErr l s).Answers := ite ok (ite ok ok)

theorem execLaneRetrain {l : Fin 128} : (execLaneRetrain l s).Answers := writeRow (ite ok ok)

theorem execRetrainTimeout {l : Fin 128} : (execRetrainTimeout l s).Answers := ite ok (ite ok ok)

theorem execTxSleep {l : Fin 128} : (execTxSleep l s).Answers := ite ok (ite ok ok)

theorem execTxWake {l : Fin 128} : (execTxWake l s).Answers := ite ok ok

theorem execSleepAnnExpire {l : Fin 128} : (execSleepAnnExpire l s).Answers := ite ok (ite ok ok)

theorem execSquelchAssert {l : Fin 128} : (execSquelchAssert l s).Answers := ite ok ok

theorem execSquelchDeassert {l : Fin 128} : (execSquelchDeassert l s).Answers := ite ok ok

theorem execWakeFail {l : Fin 128} : (execWakeFail l s).Answers := ite ok (ite ok ok)

theorem execEsGo {l : Fin 128} : (execEsGo l s).Answers := writeRow ok

theorem execEsDone {l : Fin 128} {errs : Word} : (execEsDone l errs s).Answers := ite ok ok

theorem execMonCrossing {m : Fin 16} : (execMonCrossing m s).Answers := ite ok ok

theorem execSincOutput {k : Fin 20} {v : BitVec 24} : (execSincOutput k v s).Answers := ite ok ok

theorem execSlowSample {k : Fin 20} {v : BitVec 24} : (execSlowSample k v s).Answers := ite ok (ite ok ok)

theorem execMoniSync : (execMoniSync s).Answers := writeRow ok

theorem execMoniSyncReset : (execMoniSyncReset s).Answers := by
  unfold Machine.execMoniSyncReset
  split; exacts [ok, ite ok ok]

theorem execXsOpen {x : Fin 8} {now : Bool} : (execXsOpen x now s).Answers :=
  whenOn (by split; exacts [ok, ite ok (ite ok ok)])

theorem execHkSequenceStart : (execHkSequenceStart s).Answers :=
  ite ok (by split; exacts [ok, ite (ite ok ok) (ite ok ok), ok, ok])

theorem execHkConversion {result : BitVec 12} : (execHkConversion result s).Answers := by
  unfold Machine.execHkConversion
  split; exacts [ite ok (by split; exacts [ok, ite ok ok]), ok]

theorem execHkReqGo {p0 : Fin 2} {both : Bool} : (execHkReqGo p0 both s).Answers := writeRow ok

theorem execHkRotate : (execHkRotate s).Answers := whenOn (ite ok ok)

theorem execHkSliceFail {slice : Fin 3} : (execHkSliceFail slice s).Answers := ite ok (ite ok ok)

theorem execProofComplete : (execProofComplete s).Answers := ite ok ok

theorem execVarnish : (execVarnish s).Answers := ite ok ok

theorem execTbLoss {monitor : Bool} : (execTbLoss monitor s).Answers := ite ok (ite (ite ok ok) (ite ok ok))

theorem execTbRestart : (execTbRestart s).Answers := ite ok ok

theorem execLpllUnlock {n : Fin 4} {b : Bool} : (execLpllUnlock n b s).Answers := ite ok ok

theorem execOscJudge {xo : Bool} {count : BitVec 16} {amplitude : Bool} : (execOscJudge xo count amplitude s).Answers :=
  ite ok (ite (ite ok ok) (ite ok ok))

theorem execStandingMonitor {rosc lf : BitVec 16} : (execStandingMonitor rosc lf s).Answers := ite ok (ite ok (ite ok ok))

theorem execStartupRetry : (execStartupRetry s).Answers := ite ok ok

theorem execGateAbort {who : Actor} {off : BitVec 32} {write : Bool} : (execGateAbort who off write s).Answers := ite ok ok

theorem execClkoutChange : (execClkoutChange s).Answers := whenOn ok

theorem execDvfsTarget {who : Actor} {v : Word} : (execDvfsTarget who v s).Answers := writeBy ok

theorem execAvsTransaction {ack : Bool} : (execAvsTransaction ack s).Answers := ite ok (ite ok (ite ok ok))

theorem execDvfsVoltageReached {reported : Bool} {mv : BitVec 10} {mon : BitVec 10 × BitVec 10 × BitVec 10 × BitVec 10} :
    (execDvfsVoltageReached reported mv mon s).Answers := ite ok (ite ok ok)

theorem execDvfsSwitch : (execDvfsSwitch s).Answers := ite ok (by split; exacts [ok, ite ok ok])

theorem execDvfsFail : (execDvfsFail s).Answers := ite ok ok

theorem execFwaitExpire : (execFwaitExpire s).Answers := by
  unfold Machine.execFwaitExpire
  split; exacts [ite ok ok, ok]

theorem execPwrGo {who : Actor} : (execPwrGo who s).Answers := writeBy (ite ok (ite ok (ite ok (ite ok ok))))

theorem execHushSleepSend : (execHushSleepSend s).Answers := ite ok ok

theorem execHushLanesIdle : (execHushLanesIdle s).Answers := ite ok (ite ok ok)

theorem execHushResume : (execHushResume s).Answers := ite ok ok

theorem execDozeEnter : (execDozeEnter s).Answers := ite ok ok

theorem execDozeWake : (execDozeWake s).Answers := ite ok ok

theorem execPerstDeassert : (execPerstDeassert s).Answers := ite ok ok

theorem execVsysFall {torn : Bool} : (execVsysFall torn s).Answers := ok

theorem execPowerOn : (execPowerOn s).Answers := ite ok ok

theorem execBootAlwaysOn : (execBootAlwaysOn s).Answers := ite ok ok

theorem execPmicPg {rail : Rail} : (execPmicPg rail s).Answers := ite ok (ite (ite ok ok) (ite ok ok))

theorem command {op : ℕ} {fits : ℕ → Bool} {f : State → State} : (s.command op fits f).Answers := ite ok ok

theorem execProfileLoad {img : Image} {stored : Bool} : (execProfileLoad img stored s).Answers := command

theorem execProfileActivate {tick : Wide} {stored : Bool} : (execProfileActivate tick stored s).Answers := command

theorem execProfileInfo : (execProfileInfo s).Answers := command

theorem execProfileCeil : (execProfileCeil s).Answers := command

theorem execHssTreeReady : (execHssTreeReady s).Answers := ite ok ok

theorem execLcInfo : (execLcInfo s).Answers := command

theorem byJtag {st : ℕ} {t : State} : (s.byJtag st t).Answers := ite ok ok

theorem execLcAdvance {target : Byte} {tok : Option Token} {stored jtag : Bool} : (execLcAdvance target tok stored jtag
    s).Answers :=
  ite byJtag command

theorem execOwnerKeys {hashes : List (BitVec 384)} : (execOwnerKeys hashes s).Answers := command

theorem execDbgChallenge : (execDbgChallenge s).Answers := command

theorem execDbgUnlock {tok : Token} {jtag : Bool} : (execDbgUnlock tok jtag s).Answers := ite byJtag command

theorem execDbgClose : (execDbgClose s).Answers := command

theorem execDbgSessionExpire : (execDbgSessionExpire s).Answers := by
  unfold Machine.execDbgSessionExpire
  split; exacts [ite ok ok, ok]

theorem execCertRead {which : Byte} : (execCertRead which s).Answers := command

theorem execEatGet {nonce : BitVec 256} : (execEatGet nonce s).Answers := command

theorem execTagRead {off len : BitVec 16} : (execTagRead off len s).Answers := command

theorem execTagWrite {off len : BitVec 16} {data : List Byte} {stored : Bool} : (execTagWrite off len data stored s).Answers :=
  command

theorem respond {r : Spdm} : (State.respond r s).Answers := ite ok ok

theorem execGetVersion : (execGetVersion s).Answers := respond

theorem execGetCapabilities : (execGetCapabilities s).Answers := respond

theorem execNegotiateAlgorithms : (execNegotiateAlgorithms s).Answers := respond

theorem keyed {f : State → State} : (State.keyed f s).Answers := ite (ite ok ok) respond

theorem execGetDigests : (execGetDigests s).Answers := keyed

theorem execGetCertificate {slot : Byte} {off len : BitVec 16} : (execGetCertificate slot off len s).Answers := keyed

theorem execChallenge {nonce : BitVec 256} : (execChallenge nonce s).Answers := keyed

theorem execGetMeasurements {index : Byte} {signed : Bool} {nonce : BitVec 256} : (execGetMeasurements index signed nonce
    s).Answers :=
  ite respond (ite keyed respond)

theorem execGetHssSig {digest : BitVec 384} : (execGetHssSig digest s).Answers := by
  unfold Machine.execGetHssSig
  split; exacts [respond, respond]

theorem execUnsupportedSpdmRequest {code : Byte} : (execUnsupportedSpdmRequest code s).Answers := respond

theorem execConfigHash : (execConfigHash s).Answers := by
  unfold Machine.execConfigHash
  split; exacts [ok, ok]

theorem execJtagInstruction {code : BitVec 8} : (execJtagInstruction code s).Answers := whenOn (ite ok ok)

theorem execCalDue {k : Fin 5} {temp : BitVec 12} : (execCalDue k temp s).Answers := ite ok (ite ok (ite ok ok))

theorem execCalDeferred : (execCalDeferred s).Answers := by
  unfold Machine.execCalDeferred
  split; exacts [ok, ite ok ok]

theorem execCalStore {stored : Bool} : (execCalStore stored s).Answers := ite ok ok

theorem execCalInfo : (execCalInfo s).Answers := command

theorem execCalRun {mask : Byte} : (execCalRun mask s).Answers := command

theorem execCalConfig {dt maxint : BitVec 16} : (execCalConfig dt maxint s).Answers := command

theorem execCalRead : (execCalRead s).Answers := command

theorem execCalWrite {delays coeffs : List (BitVec 20)} {kedge : List (BitVec 16)} {stored : Bool} : (execCalWrite delays
    coeffs kedge stored s).Answers :=
  command

theorem execBgStarved {scrub : Bool} {k : Fin 5} : (execBgStarved scrub k s).Answers := by
  unfold Machine.execBgStarved
  dsimp only
  split
  · exact ok
  · exact ite ok ok

theorem execBoot : (execBoot s).Answers := ite ok (ite ok ok)

theorem execTbStart : (execTbStart s).Answers := ite ok ok

theorem execUpdLoad {img : Image} {stored : Bool} : (execUpdLoad img stored s).Answers := command

theorem execUpdVerify : (execUpdVerify s).Answers := command

theorem execUpdActivate {e : Fin 8} {stored : Bool} : (execUpdActivate e stored s).Answers := command

theorem execUpdStatus : (execUpdStatus s).Answers := command

theorem execUpdRevert {stored : Bool} : (execUpdRevert stored s).Answers := command

theorem execFwHandover : (execFwHandover s).Answers := ite ok (by split; exacts [ok, ite ok ok])

theorem execFwTakeover : (execFwTakeover s).Answers := ite ok (ite ok (ite ok ok))

theorem execFwConfirm : (execFwConfirm s).Answers := ite ok ok

theorem execHealthWindowExpire : (execHealthWindowExpire s).Answers := by
  unfold Machine.execHealthWindowExpire
  split; exacts [ite ok ok, ok]

theorem execLockstepErr : (execLockstepErr s).Answers := whenOn ok

theorem execErrorRecord {r : ErrRec} : (execErrorRecord r s).Answers := whenOn ok

theorem execLogStore : (execLogStore s).Answers := by
  refine ite ok ?_
  split
  · exact ok
  · dsimp only
    split; exacts [ok, ite ok ok]

theorem execLogMergeFlush : (execLogMergeFlush s).Answers := ite ok (by split; exacts [ok, ite ok ok])

theorem execRegionRestart {r : Fin 19} {attempts : BitVec 16} : (execRegionRestart r attempts s).Answers := whenOn ok

theorem execRestartCmd {who : Actor} : (execRestartCmd who s).Answers := by
  unfold Machine.execRestartCmd
  exact writeBy (ite ok (ite ok ok))

theorem execRestartBistDone {r : Fin 19} {failed : List (BitVec 9)} : (execRestartBistDone r failed s).Answers := ite ok ok

theorem execRestartResume {r : Fin 19} : (execRestartResume r s).Answers := by
  unfold Machine.execRestartResume
  split; exacts [ok, ite ok ok]

theorem execRestartFail {r : Fin 19} : (execRestartFail r s).Answers := ite ok ok

theorem execChipFault {r : Fin 19} {attempts : BitVec 16} : (execChipFault r attempts s).Answers := whenOn ok

theorem execChipFaultClear : (execChipFaultClear s).Answers := writeBy ok

theorem execTillCfgWrite {who : Actor} {r : Fin 19} {t : Fin 64} {v : Word} {events : BitVec 16} :
    (execTillCfgWrite who r t v events s).Answers := by
  unfold Machine.execTillCfgWrite
  exact writeBy (ite ok (ite ok (ite ok ok)))

theorem execTillOverflow {r : Fin 19} {t : Fin 64} : (execTillOverflow r t s).Answers := ite ok ok

theorem execCanError {x : CanErr} : (execCanError x s).Answers := whenOn (ite ok ok)

theorem execBusOffRecovery : (execBusOffRecovery s).Answers := ite ok ok

theorem execLineStart : (execLineStart s).Answers := by
  unfold Machine.execLineStart
  split
  · exact ok
  · refine ite ok ?_
    dsimp only
    split
    · exact ok
    · exact ok

theorem execSectorClassify {sec : Fin 32} : (execSectorClassify sec s).Answers := by
  unfold Machine.execSectorClassify
  split; exacts [ok, ite ok (by split; exacts [ok, ok])]

theorem execLineUnitPlace : (execLineUnitPlace s).Answers := by
  unfold Machine.execLineUnitPlace
  split; exacts [ok, ite ok (by split; exacts [ok, ok])]

theorem execOvenUpdate : (execOvenUpdate s).Answers := ite ok ok

theorem cfgWrite {a : ℕ} {v : Word} : (State.cfgWrite a v s).Answers :=
  ite ok (ite (ite ok ok) (ite execFlr (ite ok (ite ok (ite ok (ite ok ok))))))

theorem execWdogA : (execWdogA s).Answers := whenOn (ite ok ok)

theorem execSafeWdogService : (execSafeWdogService s).Answers := writeBy ok

theorem execChDisagree {chanB : Bool} {copy : BitVec 3} : (execChDisagree chanB copy s).Answers := whenOn (ite ok ok)

theorem execMsgTimeout : (execMsgTimeout s).Answers := whenOn (ite ok (ite ok (ite ok ok)))

theorem execSwStuckHs : (execSwStuckHs s).Answers := whenOn ok

theorem execSwStuckLs : (execSwStuckLs s).Answers := whenOn ok

theorem execSupplyPresent {mv : BitVec 16} : (execSupplyPresent mv s).Answers := whenOn (ite ok ok)

theorem execSafeRstFall : (execSafeRstFall s).Answers := whenOn ok

theorem execRstStuck : (execRstStuck s).Answers := ite ok ok

theorem execSafeRstRise {low : ℕ} {clearing : BitVec 12} : (execSafeRstRise low clearing s).Answers := ite ok (ite ok ok)

theorem execCauseClear {bit : Fin 12} : (execCauseClear bit s).Answers := ok

theorem execViolClear : (execViolClear s).Answers := writeBy ok

theorem execSwitchTestStep {hsFb lsFb : Bool} {mv : BitVec 16} : (execSwitchTestStep hsFb lsFb mv s).Answers := by
  unfold Machine.execSwitchTestStep
  refine whenOn ?_
  dsimp only
  refine ite ok (ite ok ?_)
  split
  · exact ite ok ok
  · exact ok

theorem execSmRxGo : (execSmRxGo s).Answers := writeBy (ite ok (ite ok ok))

theorem execCanFrameRx {fmt : CanFormat} {id : BitVec 11} {sdt : Byte} {af : Word} {p0 : Pdu} : (execCanFrameRx fmt id sdt
    af p0 s).Answers :=
  whenOn (ite ok (ite ok (by split; exacts [ok, ok, ok, ok])))

theorem execPduUnpaired {chanB : Bool} {src : BitVec 16} {seq : Word} : (execPduUnpaired chanB src seq s).Answers := by
  unfold Machine.execPduUnpaired
  dsimp only
  split
  · exact ok
  · exact ite ok ok

theorem execPermit {src : BitVec 16} {seq : Word} {stamp : Wide} {permitBit : Bool} {zset : BitVec 2} {withStop : Option
    (BitVec 16 × Word × Wide)} : (execPermit src seq stamp permitBit zset withStop s).Answers :=
  whenOn ok

theorem execStop {src : BitVec 16} {seq : Word} {stamp : Wide} : (execStop src seq stamp s).Answers := whenOn ok

theorem execSafeStatusPdu : (execSafeStatusPdu s).Answers := whenOn (by split; exacts [ok, ite ok ok])

theorem execSmTxPop : (execSmTxPop s).Answers := writeBy ok

theorem execTiuStop {m : Fin 16} {raw : BitVec 16} : (execTiuStop m raw s).Answers := by
  unfold Machine.execTiuStop
  split; exacts [ok, ite ok (ite ok ok)]

theorem execTiuMiss {m : Fin 16} : (execTiuMiss m s).Answers := by
  unfold Machine.execTiuMiss
  split; exacts [ok, ite ok ok]

theorem accessLive {x : Access} {skip : ℕ} : (Access.live x skip s).Answers := ok

theorem accessCommon {x : Access} : (Access.common x s).Answers :=
  ite selectWide (by split; exacts [execTillCfgWrite, ok, accessLive])

theorem accessChip {x : Access} : (x.chip s).Answers :=
  ite (onBit accessLive execProofGo) (ite (onBit (onBit accessLive execCommitGo) execCommitAbort) (ite
    (onBit accessLive execSnapGo) (ite (onBit accessLive execPwrGo) (ite execDvfsTarget (ite
    (onBit accessLive execChipFaultClear) (ite (onBit accessLive execRestartCmd) accessCommon))))))

theorem accessTbas {x : Access} : (x.tbas s).Answers :=
  ite (onBit accessLive execOvnFaultClear) (ite (onBit accessLive execPtmDisagreeClear) (ite execTiuCtlWrite
    (ite (andThen accessLive ok) accessCommon)))

theorem accessEaselCtl {x : Access} {e : Fin 8} : (x.easelCtl e s).Answers :=
  ite (andThen (onBit accessLive execEaselReset) execEaselHalt) (ite (andThen (onBit accessLive execEaselReset) execEaselStep)
    (onBit (onBit accessLive execEaselReset) execEaselRun))

theorem accessEasel {x : Access} {e : Fin 8} : (x.easel e s).Answers :=
  ite accessEaselCtl (ite (andThen accessLive ok) (ite execPmAddrWrite (ite execPmDataWrite (ite execDmDataWrite accessLive))))

theorem accessScan {x : Access} : (x.scan s).Answers :=
  ite execScanStart (ite execScanSigSet (ite execScanSigClear (ite (onBit accessLive execViolClear)
    (ite accessEasel accessCommon))))

theorem accessEmit {x : Access} : (x.emit s).Answers :=
  ite (onBit accessLive execGaveupClear) (ite (onBit accessLive execLsupOvClear) accessCommon)

theorem accessLnk {x : Access} : (x.lnk s).Answers :=
  ite (ite (onBit (andThen accessLive ok) execLaneRetrain) (ite (onBit accessLive execEsGo) accessLive))
    (ite (ite (onBit accessLive execRelink) (ite (onBit accessLive execTileRegGo) accessLive)) accessCommon)

/-- A write that names a kernel register reaches it, so the window never sees an ill-formed one. -/
theorem accessHst {x : Access} : (x.hst s).Answers := by
  refine ite (onBit accessLive execStallRetireCmd) ?_
  split
  case isTrue h =>
    rw [Bool.and_eq_true] at h
    have hlt : x.a < 2 ^ 32 := by
      by_contra hge
      have hnone : kernelAt x.a = none := if_neg (by omega)
      simp [hnone] at h
    have hoff : (BitVec.ofNat 32 x.a).toNat = x.a := by rw [BitVec.toNat_ofNat, Nat.mod_eq_of_lt hlt]
    exact execKernelWrite (by rw [hoff]; exact h.1) (by rw [hoff]; exact h.2)
  case isFalse => exact accessCommon

theorem accessRingCtl {x : Access} {r : Fin 14} : (x.ringCtl r s).Answers :=
  onBit (andThen ok (by split; exacts [execRingEnable, execRingDisable])) execRingResume

theorem accessHost {x : Access} : (Access.host x s).Answers := by
  unfold Access.host
  split; exacts [execIrqCauseClear, accessRingCtl, ite accessLive accessCommon]

theorem accessBar2 {x : Access} : (x.bar2 s).Answers := by
  unfold Access.bar2
  split; exacts [execDoorbellPost, onBit ok execFlushDoorbell, andThen accessLive ok, accessLive]

theorem accessPf1 {x : Access} : (x.pf1 s).Answers := by
  refine ite (onBit (onBit ok execMbxGo) execMbxAbort) (ite (ite ok accessLive) (ite (onBit ok execSmRxGo)
    (ite (onBit ok execSmTxPop) ?_)))
  split; exacts [andThen accessLive ok, accessLive]

theorem accessMemc {x : Access} : (x.memc s).Answers :=
  ite (onBit (onBit (onBit ok execCapArm) execCapAbort) execCapTrig) (ite (andThen accessLive ok)
    (ite (onBit ok execMotionPublish) (ite (onBit (onBit ok execSyncArmCmd) execSyncDisarmCmd) accessCommon)))

theorem accessMoni {x : Access} : (x.moni s).Answers := by
  refine ite (onBit accessLive execMoniSync) ?_
  split; exacts [onBit accessLive execHkReqGo, accessCommon]

theorem accessSafe {x : Access} : (x.safe s).Answers := ite (onBit ok execSafeWdogService) accessCommon

theorem accessRun {x : Access} : (Access.run x s).Answers := by
  unfold Access.run
  split; exacts [accessChip, accessTbas, accessScan, accessEmit, accessLnk, accessLnk, accessLnk, accessLnk, accessHst,
      accessHst, accessHst, accessHst, accessHost, accessMemc, accessMoni, accessSafe, accessBar2, accessPf1, accessCommon]

theorem writeMap {who : Actor} {a0 : ℕ} {v hw : Word} : (State.writeMap who a0 v hw s).Answers :=
  ite execStgWrite (ite ok (by split; exacts [ok, ite execStgWrite (ite ok accessRun)]))

theorem execRegisterWrite {who : Actor} {sp : Space} {off : BitVec 32} {size : AccSize} {v vhi hw : Word}
    {rivals : List FabReq} : (execRegisterWrite who sp off size v vhi hw rivals s).Answers :=
  ite ok (ite ok (ite cfgWrite (ite ok (ite ok (ite (andThen writeMap writeMap) writeMap)))))

theorem badRead {who : Actor} {code a : ℕ} : (State.badRead who code a s).Answers := ok

theorem readMap {who : Actor} {a : ℕ} : (State.readMap who a s).Answers := by
  unfold State.readMap
  split; exacts [execPmDataRead, execDmDataRead, ok]

theorem execReservedRead {who : Actor} {sp : Space} {off : BitVec 32} {size : AccSize} {rivals : List FabReq} :
    (execReservedRead who sp off size rivals s).Answers :=
  ite ok (ite ok (ite ok (ite badRead (ite ok (ite badRead (ite badRead (ite (andThen readMap readMap) readMap)))))))

theorem exec {c : Instr} (hwf : c.wf = true) : Res.Answers (exec c s) := by
  cases c with
  | registerWrite => exact execRegisterWrite
  | reservedRead => exact execReservedRead
  | stgWrite => exact execStgWrite
  | proofGo => exact execProofGo
  | proofComplete => exact execProofComplete
  | commitGo => exact execCommitGo
  | commitAbort => exact execCommitAbort
  | varnish => exact execVarnish
  | snapGo => exact execSnapGo
  | snapshotTake => exact execSnapshotTake
  | wideSel => exact execWideSel
  | wideLatch => exact execWideLatch
  | mbxGo => exact execMbxGo
  | mbxAbort => exact execMbxAbort
  | mbxResponse => exact execMbxResponse
  | ovenUpdate => exact execOvenUpdate
  | ovnSat => exact execOvnSat
  | ovnFaultClear => exact execOvnFaultClear
  | tbWarmClear => exact execTbWarmClear
  | tbWarmSet => exact execTbWarmSet
  | ptmDialog => exact execPtmDialog
  | ptmDialogEnd => exact execPtmDialogEnd
  | ptmDisagree => exact execPtmDisagree
  | ptmDisagreeClear => exact execPtmDisagreeClear
  | eraPrewrap => exact execEraPrewrap
  | tickWrap => exact execTickWrap
  | tbLoss => exact execTbLoss
  | tbRestart => exact execTbRestart
  | tiuStop => exact execTiuStop
  | tiuMiss => exact execTiuMiss
  | tiuCtlWrite => exact execTiuCtlWrite
  | add => exact execAdd
  | sub => exact execSub
  | and => exact execAnd
  | or => exact execOr
  | xor => exact execXor
  | mul => exact execMul
  | minu => exact execMinu
  | maxu => exact execMaxu
  | shl => exact execShl
  | shr => exact execShr
  | sar => exact execSar
  | cmp => exact execCmp
  | plog => exact execPlog
  | mfs => exact execMfs
  | mts => exact execMts
  | br => exact execBr
  | jal => exact execJal
  | jr => exact execJr
  | loop => exact execLoop
  | rete => exact execRete
  | ld => exact execLd
  | st => exact execSt
  | ldt => exact execLdt
  | stt => exact execStt
  | now => exact execNow
  | waitt => exact execWaitt
  | waittResume => exact execWaittResume
  | sett => exact execSett
  | tcmp => exact execTcmp
  | tget => exact execTget
  | tput => exact execTput
  | line => exact execLine
  | shot => exact execShot
  | train => exact execTrain
  | stag => exact execStag
  | listenonly => exact execListenonly
  | window => exact execWindow
  | zoom => exact execZoom
  | hswap => exact execHswap
  | stack => exact execStack
  | peek => exact execPeek
  | sumwait => exact execSumwait
  | sketch => exact execSketch
  | proof => exact execProof
  | commit => exact execCommit
  | signal => exact execSignal
  | waitsig => exact execWaitsig
  | semaphore => exact execSemaphore
  | ledger => exact execLedger
  | trap => exact execTrap
  | yield => exact execYield
  | halt => exact execHalt
  | undefinedOpcode => exact execUndefinedOpcode (by simpa [Instr.wf] using hwf)
  | watchdog => exact execWatchdog
  | arbiterRequest => exact execArbiterRequest
  | easelRun => exact execEaselRun
  | easelHalt => exact execEaselHalt
  | easelStep => exact execEaselStep
  | easelReset => exact execEaselReset
  | scanStart => exact execScanStart
  | scanStartDue => exact execScanStartDue
  | pmAddrWrite => exact execPmAddrWrite
  | pmDataRead => exact execPmDataRead
  | pmDataWrite => exact execPmDataWrite
  | dmDataRead => exact execDmDataRead
  | dmDataWrite => exact execDmDataWrite
  | scanSigSet => exact execScanSigSet
  | scanSigClear => exact execScanSigClear
  | lineStart => exact execLineStart
  | lineEnd => exact execLineEnd
  | shotFire => exact execShotFire
  | diagDue => exact execDiagDue
  | diagArmStrobe => exact execDiagArmStrobe
  | diagPulse => exact execDiagPulse
  | ewireFrameStart => exact execEwireFrameStart
  | ewireReturn => exact execEwireReturn
  | ewireReturnTimeout => exact execEwireReturnTimeout
  | gaveupClear => exact execGaveupClear
  | hdrmSample => exact execHdrmSample
  | quietPause => exact execQuietPause
  | quietPauseEnd => exact execQuietPauseEnd
  | lsupOv => exact execLsupOv
  | lsupOvClear => exact execLsupOvClear
  | lpllUnlock => exact execLpllUnlock
  | blockReceive => exact execBlockReceive
  | cdrUpdate => exact execCdrUpdate (by simpa [Instr.wf] using hwf)
  | freqErr => exact execFreqErr
  | laneRetrain => exact execLaneRetrain
  | retrainTimeout => exact execRetrainTimeout
  | txSleep => exact execTxSleep
  | txWake => exact execTxWake
  | sleepAnnExpire => exact execSleepAnnExpire
  | squelchAssert => exact execSquelchAssert
  | squelchDeassert => exact execSquelchDeassert
  | wakeFail => exact execWakeFail
  | esGo => exact execEsGo
  | esDone => exact execEsDone
  | linkStateTimeout => exact execLinkStateTimeout
  | relink => exact execRelink
  | genSwitch => exact execGenSwitch
  | genFallback => exact execGenFallback
  | am => exact execAm
  | slot => exact execSlot
  | eventBlock => exact execEventBlock
  | status => exact execStatus
  | ambient => exact execAmbient (by simpa [Instr.wf] using hwf)
  | regRsp => exact execRegRsp
  | caps => exact execCaps
  | epochEcho => exact execEpochEcho
  | phaseMeasure => exact execPhaseMeasure
  | phaseExchange => exact execPhaseExchange
  | epochTimeout => exact execEpochTimeout
  | phaseCandidate => exact execPhaseCandidate
  | tileRegGo => exact execTileRegGo
  | tileRegTimeout => exact execTileRegTimeout
  | bankSwap => exact execBankSwap
  | readoutStart => exact execReadoutStart
  | stackComplete => exact execStackComplete
  | stallRetireCmd => exact execStallRetireCmd
  | motionPublish => exact execMotionPublish
  | kernelWrite _ off _ =>
    obtain ⟨hk, hm⟩ := Bool.and_eq_true_iff.1 hwf
    exact execKernelWrite hk hm
  | fltRestart => exact execFltRestart
  | echoDelivery => exact execEchoDelivery
  | sectorClassify => exact execSectorClassify
  | lineUnitPlace => exact execLineUnitPlace
  | doorbellPost => exact execDoorbellPost
  | flushDoorbell => exact execFlushDoorbell
  | descFetch => exact execDescFetch
  | bufferIdleClose => exact execBufferIdleClose
  | ringEnable => exact execRingEnable
  | ringDisable => exact execRingDisable
  | ringResume => exact execRingResume
  | ringStop => exact execRingStop
  | coalTimer => exact execCoalTimer
  | irqCauseClear => exact execIrqCauseClear
  | conventionalReset => exact execConventionalReset
  | perstDeassert => exact execPerstDeassert
  | flr => exact execFlr
  | linkRecovery => exact execLinkRecovery
  | memcTraining => exact execMemcTraining (by simpa [Instr.wf] using hwf)
  | memcInitDone => exact execMemcInitDone
  | memcRetrain => exact execMemcRetrain
  | crcRetryFail => exact execCrcRetryFail
  | channelRetrainDone => exact execChannelRetrainDone
  | memUe => exact execMemUe
  | memcPeriod => exact execMemcPeriod
  | scrubPass => exact execScrubPass
  | capArm => exact execCapArm
  | capAbort => exact execCapAbort
  | capTrig => exact execCapTrig
  | capSample => exact execCapSample
  | capPostEnd => exact execCapPostEnd
  | capExportRecord => exact execCapExportRecord
  | syncArmCmd => exact execSyncArmCmd
  | syncDisarmCmd => exact execSyncDisarmCmd
  | syncPulseDeferred => exact execSyncPulseDeferred
  | syncPulseRx => exact execSyncPulseRx
  | syncTrigRx => exact execSyncTrigRx
  | monCrossing => exact execMonCrossing
  | sincOutput => exact execSincOutput
  | slowSample => exact execSlowSample
  | moniSync => exact execMoniSync
  | moniSyncReset => exact execMoniSyncReset
  | xsOpen => exact execXsOpen
  | hkSequenceStart => exact execHkSequenceStart
  | hkConversion => exact execHkConversion
  | hkReqGo => exact execHkReqGo
  | hkRotate => exact execHkRotate
  | hkSliceFail => exact execHkSliceFail
  | wdogA => exact execWdogA
  | safeWdogService => exact execSafeWdogService
  | chDisagree => exact execChDisagree
  | msgTimeout => exact execMsgTimeout
  | swStuckHs => exact execSwStuckHs
  | swStuckLs => exact execSwStuckLs
  | supplyPresent => exact execSupplyPresent
  | rstStuck => exact execRstStuck
  | safeRstFall => exact execSafeRstFall
  | safeRstRise => exact execSafeRstRise
  | causeClear => exact execCauseClear
  | switchTestStep => exact execSwitchTestStep
  | smRxGo => exact execSmRxGo
  | canFrameRx => exact execCanFrameRx
  | pduUnpaired => exact execPduUnpaired
  | permit => exact execPermit
  | stop => exact execStop
  | safeStatusPdu => exact execSafeStatusPdu
  | smTxPop => exact execSmTxPop
  | violClear => exact execViolClear
  | profileLoad => exact execProfileLoad
  | profileActivate => exact execProfileActivate
  | profileInfo => exact execProfileInfo
  | profileCeil => exact execProfileCeil
  | boot => exact execBoot
  | hssTreeReady => exact execHssTreeReady
  | lcInfo => exact execLcInfo
  | lcAdvance => exact execLcAdvance
  | ownerKeys => exact execOwnerKeys
  | dbgChallenge => exact execDbgChallenge
  | dbgUnlock => exact execDbgUnlock
  | dbgClose => exact execDbgClose
  | dbgSessionExpire => exact execDbgSessionExpire
  | certRead => exact execCertRead
  | eatGet => exact execEatGet
  | tagRead => exact execTagRead
  | tagWrite => exact execTagWrite
  | getVersion => exact execGetVersion
  | getCapabilities => exact execGetCapabilities
  | negotiateAlgorithms => exact execNegotiateAlgorithms
  | getDigests => exact execGetDigests
  | getCertificate => exact execGetCertificate
  | challenge => exact execChallenge
  | getMeasurements => exact execGetMeasurements
  | getHssSig => exact execGetHssSig
  | unsupportedSpdmRequest => exact execUnsupportedSpdmRequest
  | configHash => exact execConfigHash
  | jtagInstruction => exact execJtagInstruction
  | oscJudge => exact execOscJudge
  | standingMonitor => exact execStandingMonitor
  | startupRetry => exact execStartupRetry
  | gateAbort => exact execGateAbort
  | clkoutChange => exact execClkoutChange
  | dvfsTarget => exact execDvfsTarget
  | avsTransaction => exact execAvsTransaction
  | dvfsVoltageReached => exact execDvfsVoltageReached
  | dvfsSwitch => exact execDvfsSwitch
  | dvfsFail => exact execDvfsFail
  | fwaitExpire => exact execFwaitExpire
  | pwrGo => exact execPwrGo
  | hushSleepSend => exact execHushSleepSend
  | hushLanesIdle => exact execHushLanesIdle
  | hushResume => exact execHushResume
  | dozeEnter => exact execDozeEnter
  | dozeWake => exact execDozeWake
  | vsysFall => exact execVsysFall
  | powerOn => exact execPowerOn
  | bootAlwaysOn => exact execBootAlwaysOn
  | pmicPg => exact execPmicPg
  | tbStart => exact execTbStart
  | errorRecord => exact execErrorRecord
  | logStore => exact execLogStore
  | logMergeFlush => exact execLogMergeFlush
  | regionRestart => exact execRegionRestart
  | restartCmd => exact execRestartCmd
  | restartBistDone => exact execRestartBistDone
  | restartResume => exact execRestartResume
  | restartFail => exact execRestartFail
  | chipFault => exact execChipFault
  | chipFaultClear => exact execChipFaultClear
  | updLoad => exact execUpdLoad
  | updVerify => exact execUpdVerify
  | updActivate => exact execUpdActivate
  | updStatus => exact execUpdStatus
  | updRevert => exact execUpdRevert
  | fwHandover => exact execFwHandover
  | fwTakeover => exact execFwTakeover
  | fwConfirm => exact execFwConfirm
  | healthWindowExpire => exact execHealthWindowExpire
  | calDue => exact execCalDue
  | calDeferred => exact execCalDeferred
  | calStore => exact execCalStore
  | calInfo => exact execCalInfo
  | calRun => exact execCalRun
  | calConfig => exact execCalConfig
  | calRead => exact execCalRead
  | calWrite => exact execCalWrite
  | bgStarved => exact execBgStarved
  | tillCfgWrite => exact execTillCfgWrite
  | tillOverflow => exact execTillOverflow
  | linkTrained => exact execLinkTrained (hwf)
  | recoveryExit => exact execRecoveryExit
  | alignmentMarkerSend => exact execAlignmentMarkerSend
  | tilePortRun => exact execTilePortRun
  | canError => exact execCanError
  | busOffRecovery => exact execBusOffRecovery
  | lockstepErr => exact execLockstepErr

end Sys2Proof.Machine.Res.Answers

namespace Sys2Proof.Machine.WellFormed

/-- The six forms that can be ill-formed are the only ones with a check, and each fails it first. -/
theorem exec_illFormed {c : Instr} (s : State) (h : c.wf = false) : exec c s = .fault .illFormed := by
  cases c with
  | cdrUpdate l vote =>
    have hv : ¬(-1 ≤ vote ∧ vote ≤ 1) := by simpa [Instr.wf] using h
    exact if_pos (by omega)
  | ambient t m hdata counts =>
    have hc : counts.length ≠ 32 := by simpa [Instr.wf] using h
    exact if_pos hc
  | kernelWrite who off v =>
    change execKernelWrite who off v s = _
    unfold execKernelWrite
    split
    case h_1 hk hm => simp [Instr.wf, hk, hm] at h
    case h_2 => rfl
  | linkTrained speed width flit =>
    have hl : linkFits speed.toNat width.toNat flit = false := h
    exact if_pos (by simp [hl])
  | memcTraining densities pass =>
    have hd : densities.length ≠ 4 := by simpa [Instr.wf] using h
    exact if_pos hd
  | undefinedOpcode e w =>
    have hw : definedOpcodes.contains (opcOf w) = true := by rw [← Bool.not_eq_false']; exact h
    exact if_pos hw
  | _ => exact absurd (show true = false from h) Bool.true_eq_false_eq_False

/-- Settles O57: each of a well-formed command's branches ends with a next state; an ill-formed one fails its first check. -/
theorem everyCommandCompletes : Obligations.EveryCommandCompletes := by
  intro c s
  exact ⟨Res.Answers.exec, exec_illFormed s⟩

end Sys2Proof.Machine.WellFormed
end

section
/-!
SUPPORT. The frame `onlyRegs`, and what the operations that every region shares do to it and to `within`.
-/
namespace Sys2Proof.Machine

variable {s t v : State} {u : List Part} {rs : List ℕ}

/-! ## The records -/

theorem State.within.setBit (h : s.within u t) (f : Field) (b : Bool) (k : .io ∈ u := by decide) : s.within u (t.setBit f b) :=
  h.io_upd _ k
theorem State.within.bump (h : s.within u t) (f : Field) (n : ℕ) (k : .io ∈ u := by decide) : s.within u (t.bump f n) :=
  h.io_upd _ k
theorem State.within.bumpSat (h : s.within u t) (f : Field) (n : ℕ) (k : .io ∈ u := by decide) : s.within u (t.bumpSat f n) :=
  h.io_upd _ k
theorem State.within.setWide (h : s.within u t) (r i : ℕ) (w : Wide) (k : .io ∈ u := by decide) :
    s.within u (t.setWide r i w) := h.io_upd _ k
theorem State.within.count (h : s.within u t) (r c i n : ℕ) (k : .io ∈ u := by decide) : s.within u (t.count r c i n) :=
  h.io_upd _ k
theorem State.within.irq (h : s.within u t) (n : ℕ) (k : .io ∈ u := by decide) : s.within u (t.irq n) := h.io_upd _ k
theorem State.within.regionIrq (h : s.within u t) (r : ℕ) (k : .io ∈ u := by decide) : s.within u (t.regionIrq r) :=
  h.io_upd _ k
theorem State.within.err (h : s.within u t) (e : Err) (k : .io ∈ u := by decide) : s.within u (t.err e) := h.io_upd _ k
theorem State.within.reach (h : s.within u t) (w : Wide) (k : .io ∈ u := by decide) : s.within u (t.reach w) := h.io_upd _ k
theorem State.within.clockReach (h : s.within u t) (w : Wide) (k : .io ∈ u := by decide) : s.within u (t.clockReach w) := by
  unfold State.clockReach
  split
  · exact h.reach w k
  · exact h
theorem State.within.easel_upd (h : s.within u t) (e : ℕ) (f : Easel → Easel) (k : .scan ∈ u := by decide) :
    s.within u (t.easel' e f) := h.scan_upd _ k
theorem State.within.onlyIf (h : s.within u t) {b : Bool} {f : State → State} (k : s.within u (f t)) :
    s.within u (t.onlyIf b f) := by
  unfold State.onlyIf
  split
  · exact k
  · exact h
theorem State.within.each {α : Type} {l : List α} {f : α → State → State} (h : s.within u t)
    (k : ∀ x w, s.within u w → s.within u (f x w)) : s.within u (t.each l f) :=
  foldl_keeps (fun w : State => s.within u w) _ (fun w x => k x w) l t h

/-! ## The registers -/

theorem State.onlyRegs_refl (s : State) (rs : List ℕ) : s.onlyRegs rs s := fun _ _ _ _ => rfl

theorem State.onlyRegs.of_reg (h : s.onlyRegs rs t) (k : ∀ a, v.reg a = t.reg a) : s.onlyRegs rs v :=
  fun a ha hal hlost => (k a).trans (h a ha hal hlost)

theorem State.onlyRegs.of_calm (h : s.onlyRegs rs t) (k : Io.Calm t.io v.io) : s.onlyRegs rs v :=
  fun a ha hal hlost => (k.reg a hal hlost).trans (h a ha hal hlost)

theorem State.onlyRegs.trans (h : s.onlyRegs rs t) (k : t.onlyRegs rs v) : s.onlyRegs rs v :=
  fun a ha hal hlost => (k a ha hal hlost).trans (h a ha hal hlost)

theorem State.onlyRegs.mono {rs' : List ℕ} (h : s.onlyRegs rs t) (k : ∀ a ∈ rs, a ∈ rs') : s.onlyRegs rs' t :=
  fun a ha => h a fun hm => ha (k a hm)

theorem State.onlyRegs.put (h : s.onlyRegs rs t) (a : ℕ) (w : Word) (k : a ∈ rs := by simp) : s.onlyRegs rs (t.put a w) :=
  fun b hb hal hlost => (State.reg_put_other t w (by rintro rfl; exact hb k)).trans (h b hb hal hlost)

theorem State.onlyRegs.set (h : s.onlyRegs rs t) (f : Field) (n : ℕ) (k : f.off ∈ rs := by simp) : s.onlyRegs rs (t.set f n) :=
  fun b hb hal hlost => (State.reg_set_other t n (by rintro rfl; exact hb k)).trans (h b hb hal hlost)

theorem State.onlyRegs.setBit (h : s.onlyRegs rs t) (f : Field) (b : Bool) (k : f.off ∈ rs := by simp) :
    s.onlyRegs rs (t.setBit f b) := h.set f _ k
theorem State.onlyRegs.bump (h : s.onlyRegs rs t) (f : Field) (n : ℕ) (k : f.off ∈ rs := by simp) :
    s.onlyRegs rs (t.bump f n) := h.set f _ k
theorem State.onlyRegs.bumpSat (h : s.onlyRegs rs t) (f : Field) (n : ℕ) (k : f.off ∈ rs := by simp) :
    s.onlyRegs rs (t.bumpSat f n) := h.set f _ k
theorem State.onlyRegs.setWide (h : s.onlyRegs rs t) (r i : ℕ) (w : Wide) : s.onlyRegs rs (t.setWide r i w) :=
  h.of_reg fun _ => rfl
theorem State.onlyRegs.emit (h : s.onlyRegs rs t) (o : Out) : s.onlyRegs rs (t.emit o) := h.of_reg fun _ => rfl
theorem State.onlyRegs.count (h : s.onlyRegs rs t) (r c i n : ℕ) : s.onlyRegs rs (t.count r c i n) :=
  h.of_calm (Io.calm_count ..)
theorem State.onlyRegs.irq (h : s.onlyRegs rs t) (n : ℕ) : s.onlyRegs rs (t.irq n) := h.of_calm (Io.calm_irq ..)
theorem State.onlyRegs.regionIrq (h : s.onlyRegs rs t) (r : ℕ) : s.onlyRegs rs (t.regionIrq r) :=
  h.of_calm (Io.calm_regionIrq ..)
theorem State.onlyRegs.err (h : s.onlyRegs rs t) (e : Err) : s.onlyRegs rs (t.err e) := h.of_calm (Io.calm_err ..)
theorem State.onlyRegs.reach (h : s.onlyRegs rs t) (w : Wide) : s.onlyRegs rs (t.reach w) := h.of_reg fun a => t.reg_reach w a
theorem State.onlyRegs.clockReach (h : s.onlyRegs rs t) (w : Wide) : s.onlyRegs rs (t.clockReach w) := by
  unfold State.clockReach
  split
  · exact h.reach w
  · exact h
theorem State.onlyRegs.easel_upd (h : s.onlyRegs rs t) (e : ℕ) (f : Easel → Easel) : s.onlyRegs rs (t.easel' e f) :=
  h.of_reg fun _ => rfl
theorem State.onlyRegs.onlyIf (h : s.onlyRegs rs t) {b : Bool} {f : State → State} (k : s.onlyRegs rs (f t)) :
    s.onlyRegs rs (t.onlyIf b f) := by
  unfold State.onlyIf
  split
  · exact k
  · exact h
theorem State.onlyRegs.each {α : Type} {l : List α} {f : α → State → State} (h : s.onlyRegs rs t)
    (k : ∀ x w, s.onlyRegs rs w → s.onlyRegs rs (f x w)) : s.onlyRegs rs (t.each l f) :=
  foldl_keeps (fun w : State => s.onlyRegs rs w) _ (fun w x => k x w) l t h
theorem State.onlyRegs.tbas_upd (h : s.onlyRegs rs t) (f : Tbas → Tbas) : s.onlyRegs rs (t.tbas' f) := h.of_reg fun _ => rfl
theorem State.onlyRegs.scan_upd (h : s.onlyRegs rs t) (f : Scan → Scan) : s.onlyRegs rs (t.scan' f) := h.of_reg fun _ => rfl
theorem State.onlyRegs.safe_upd (h : s.onlyRegs rs t) (f : Safe → Safe) : s.onlyRegs rs (t.safe' f) := h.of_reg fun _ => rfl
theorem State.onlyRegs.lnk_upd (h : s.onlyRegs rs t) (f : Lnk → Lnk) : s.onlyRegs rs (t.lnk' f) := h.of_reg fun _ => rfl
theorem State.onlyRegs.hst_upd (h : s.onlyRegs rs t) (f : Hst → Hst) : s.onlyRegs rs (t.hst' f) := h.of_reg fun _ => rfl
theorem State.onlyRegs.outp_upd (h : s.onlyRegs rs t) (f : Outp → Outp) : s.onlyRegs rs (t.outp' f) := h.of_reg fun _ => rfl
theorem State.onlyRegs.host_upd (h : s.onlyRegs rs t) (f : HostIf → HostIf) : s.onlyRegs rs (t.host' f) := h.of_reg fun _ => rfl
theorem State.onlyRegs.memc_upd (h : s.onlyRegs rs t) (f : Memc → Memc) : s.onlyRegs rs (t.memc' f) := h.of_reg fun _ => rfl
theorem State.onlyRegs.moni_upd (h : s.onlyRegs rs t) (f : Moni → Moni) : s.onlyRegs rs (t.moni' f) := h.of_reg fun _ => rfl
theorem State.onlyRegs.mgmt_upd (h : s.onlyRegs rs t) (f : Mgmt → Mgmt) : s.onlyRegs rs (t.mgmt' f) := h.of_reg fun _ => rfl
theorem State.onlyRegs.secu_upd (h : s.onlyRegs rs t) (f : Secu → Secu) : s.onlyRegs rs (t.secu' f) := h.of_reg fun _ => rfl
theorem State.onlyRegs.chip_upd (h : s.onlyRegs rs t) (f : Chip → Chip) : s.onlyRegs rs (t.chip' f) := h.of_reg fun _ => rfl
theorem State.onlyRegs.emt_upd (h : s.onlyRegs rs t) (f : Emit → Emit) : s.onlyRegs rs (t.emit' f) := h.of_reg fun _ => rfl

/-! ## The easels' records -/

@[simp] theorem State.get_easel_upd (s : State) (e : ℕ) (g : Easel → Easel) (f : Field) : (s.easel' e g).get f = s.get f := rfl
@[simp] theorem State.reg_easel_upd (s : State) (e : ℕ) (g : Easel → Easel) (a : ℕ) : (s.easel' e g).reg a = s.reg a := rfl
@[simp] theorem State.io_easel_upd (s : State) (e : ℕ) (g : Easel → Easel) : (s.easel' e g).io = s.io := rfl
@[simp] theorem State.easel_upd_same (s : State) (e : ℕ) (g : Easel → Easel) : (s.easel' e g).easel e = g (s.easel e) :=
  rd_wr_same _ _ _ _
theorem State.easel_upd_other (s : State) {e k : ℕ} (g : Easel → Easel) (h : k ≠ e) : (s.easel' e g).easel k = s.easel k :=
  rd_wr_other _ _ _ h
@[simp] theorem State.easel_set (s : State) (e : ℕ) (f : Field) (n : ℕ) : (s.set f n).easel e = s.easel e := rfl
@[simp] theorem State.easel_count (s : State) (e r c i n : ℕ) : (s.count r c i n).easel e = s.easel e := rfl
@[simp] theorem State.easel_irq (s : State) (e n : ℕ) : (s.irq n).easel e = s.easel e := rfl
@[simp] theorem State.easel_reach (s : State) (e : ℕ) (t : Wide) : (s.reach t).easel e = s.easel e := rfl

/-! ## What every instruction of an easel ends with -/

theorem State.within.nextPc (h : s.within u t) (e : ℕ) (k : .io ∈ u := by decide) : s.within u (t.nextPc e) := h.io_upd _ k
theorem State.within.setPc (h : s.within u t) (e n : ℕ) (k : .io ∈ u := by decide) : s.within u (t.setPc e n) := h.io_upd _ k
theorem State.within.halt (h : s.within u t) (e : ℕ) (k : .io ∈ u := by decide) (l : .scan ∈ u := by decide) :
    s.within u (t.halt e) := (h.set _ _ k).easel_upd _ _ l
theorem State.within.settle (h : s.within u t) (e : ℕ) (k : .io ∈ u := by decide) (l : .scan ∈ u := by decide) :
    s.within u (t.settle e) := by
  unfold State.settle
  split
  · exact h.halt e k l
  · exact h

theorem State.onlyRegs.nextPc (h : s.onlyRegs rs t) (e : ℕ) (k : (Fd.SCAN_EASEL_PC_PC e).off ∈ rs := by simp) :
    s.onlyRegs rs (t.nextPc e) := h.set _ _ k
theorem State.onlyRegs.setPc (h : s.onlyRegs rs t) (e n : ℕ) (k : (Fd.SCAN_EASEL_PC_PC e).off ∈ rs := by simp) :
    s.onlyRegs rs (t.setPc e n) := h.set _ _ k
theorem State.onlyRegs.halt (h : s.onlyRegs rs t) (e : ℕ) (k : (Fd.SCAN_EASEL_STAT_STATE e).off ∈ rs := by simp) :
    s.onlyRegs rs (t.halt e) := (h.set _ _ k).easel_upd _ _
theorem State.onlyRegs.settle (h : s.onlyRegs rs t) (e : ℕ) (k : (Fd.SCAN_EASEL_STAT_STATE e).off ∈ rs := by simp) :
    s.onlyRegs rs (t.settle e) := by
  unfold State.settle
  split
  · exact h.halt e k
  · exact h

theorem State.epred_settle (s : State) (e : ℕ) : ((s.settle e).easel e).epred = (s.easel e).epred := by
  unfold State.settle State.halt
  split <;> simp

/-! ## What a command needs before it acts -/

theorem State.writeRow_admitted {a : ℕ} {g : State → Res} (h : (s.powered && !s.gated a) = true) : s.writeRow a g = g s := by
  rw [Bool.and_eq_true, Bool.not_eq_true'] at h
  exact State.writeRow_served h.1 h.2

theorem State.writeBy_admitted {who : Actor} {a : ℕ} {g : State → Res} (h : (s.attends who && !s.gated a) = true) :
    s.writeBy who a g = g s := by
  rw [Bool.and_eq_true, Bool.not_eq_true'] at h
  exact State.writeBy_served h.1 h.2

theorem State.readBy_admitted {who : Actor} {a : ℕ} {g : State → Res} (h : (s.attends who && !s.gated a) = true) :
    s.readBy who a g = g s := by
  rw [Bool.and_eq_true, Bool.not_eq_true'] at h
  exact State.readBy_served h.1 h.2

/-! ## The regions' registers -/

section
variable {qs : List ℕ}

theorem State.onlyRegions_refl (s : State) (qs : List ℕ) : s.onlyRegions qs s := fun _ _ _ _ => rfl

theorem State.onlyRegions.of_reg (h : s.onlyRegions qs t) (k : ∀ a, v.reg a = t.reg a) : s.onlyRegions qs v :=
  fun a ha hal hlost => (k a).trans (h a ha hal hlost)

theorem State.onlyRegions.of_calm (h : s.onlyRegions qs t) (k : Io.Calm t.io v.io) : s.onlyRegions qs v :=
  fun a ha hal hlost => (k.reg a hal hlost).trans (h a ha hal hlost)

theorem State.onlyRegions.put (h : s.onlyRegions qs t) (a : ℕ) (w : Word) (k : a / 0x200000 ∈ qs) :
    s.onlyRegions qs (t.put a w) :=
  fun b hb hal hlost => (State.reg_put_other t w (by rintro rfl; exact hb k)).trans (h b hb hal hlost)

theorem State.onlyRegions.set (h : s.onlyRegions qs t) (f : Field) (n : ℕ) (k : f.off / 0x200000 ∈ qs) :
    s.onlyRegions qs (t.set f n) :=
  fun b hb hal hlost => (State.reg_set_other t n (by rintro rfl; exact hb k)).trans (h b hb hal hlost)

theorem State.onlyRegs.regions (h : s.onlyRegs rs t) (k : ∀ a ∈ rs, a / 0x200000 ∈ qs) : s.onlyRegions qs t :=
  fun a ha => h a fun hm => ha (k a hm)

theorem State.easelFrame.onlyRegs (h : s.easelFrame rs t) : s.onlyRegs rs t := fun a ha _ _ => h.1 a ha

end

/-! ## An easel's predicates and general registers -/

theorem State.within.setP (h : s.within u t) (e i : ℕ) (b : Bool) (k : .io ∈ u := by decide) : s.within u (t.setP e i b) := by
  unfold State.setP
  split
  · exact h
  · exact h.setBit _ _ k
theorem State.within.setG (h : s.within u t) (e i : ℕ) (w : Word) (k : .io ∈ u := by decide) : s.within u (t.setG e i w) := by
  unfold State.setG
  split
  · exact h
  · exact h.set _ _ k
theorem State.onlyRegs.setP (h : s.onlyRegs rs t) (e i : ℕ) (b : Bool) (k : (Fd.SCAN_EASEL_PRED_P e).off ∈ rs := by simp) :
    s.onlyRegs rs (t.setP e i b) := by
  unfold State.setP
  split
  · exact h
  · exact h.setBit ((Fd.SCAN_EASEL_PRED_P e).bit i) _ k
theorem State.onlyRegs.setG (h : s.onlyRegs rs t) (e i : ℕ) (w : Word) (k : (Fd.SCAN_EASEL_G_G e i).off ∈ rs := by simp) :
    s.onlyRegs rs (t.setG e i w) := by
  unfold State.setG
  split
  · exact h
  · exact h.set _ _ k
theorem State.get_setP_off (s : State) {fd : Field} {e : ℕ} (i : ℕ) (b : Bool) (h : fd.off ≠ (Fd.SCAN_EASEL_PRED_P e).off) :
    (s.setP e i b).get fd = s.get fd := by
  unfold State.setP
  split
  · rfl
  · exact State.get_set_off s _ h
theorem State.get_setG_off (s : State) {fd : Field} {e i : ℕ} (w : Word) (h : fd.off ≠ (Fd.SCAN_EASEL_G_G e i).off) :
    (s.setG e i w).get fd = s.get fd := by
  unfold State.setG
  split
  · rfl
  · exact State.get_set_off s _ h

end Sys2Proof.Machine
end

section
/-!
PROOF. The easel's exceptions (R84, R104, R106, R135).
-/
-- One thread for the lemmas: a thread for each would ask for more memory than a build may have.
set_option Elab.async false

namespace Sys2Proof.Machine.EaselException

variable {e : Fin 8} {s : State} {cause sub fpc epc : ℕ} {detail : Word}

/-! ## What entering the handler does -/

/-- The state in which the easel stands at the handler, before the exception is counted and reported. -/
def entered (e cause sub : ℕ) (detail : Word) (fpc epc : ℕ) (s : State) : State :=
  (s.set (Fd.SCAN_EASEL_PC_EPC e) epc
    |>.set (Fd.SCAN_EASEL_ECAUSE_CAUSE e) cause |>.set (Fd.SCAN_EASEL_ECAUSE_SUB e) sub
    |>.set (Fd.SCAN_EASEL_ECAUSE_FPC e) fpc |>.set (Fd.SCAN_EASEL_EDETAIL_DETAIL e) detail.toNat
    |>.set (Fd.SCAN_EASEL_STAT_EXL e) 1 |>.set (Fd.SCAN_EASEL_STAT_STATE e) 1
    |>.setPc e (16 * s.get (Fd.SCAN_EASEL_EVB_BASE e) + cause)).easel' e fun z =>
      { z with epred := s.get (Fd.SCAN_EASEL_PRED_P e), wait := .none, port := none }

theorem enter_eq : s.enter e cause sub detail fpc epc = ((entered e cause sub detail fpc epc s).count 2 Src.SCAN_EXCEPTIONS e 1).onlyIf
    (s.is (Fd.SCAN_EASEL_CTL_IEN_EXC e)) (State.irq (40 + e)) := rfl

/-- The registers in which an exception leaves its mark. -/
def marked (e : Fin 8) : List ℕ := [(Fd.SCAN_EASEL_STAT_STATE e).off, (Fd.SCAN_EASEL_EDETAIL_DETAIL e).off,
  (Fd.SCAN_EASEL_ECAUSE_FPC e).off, (Fd.SCAN_EASEL_PC_EPC e).off]

theorem onlyRegs_enter : s.onlyRegs (marked e) (s.enter e cause sub detail fpc epc) := by
  have h : s.onlyRegs (marked e) (entered e cause sub detail fpc epc s) := by
    refine State.onlyRegs.easel_upd ?_ _ _
    have h0 := s.onlyRegs_refl (marked e)
    refine (((((((h0.set _ _ ?_).set _ _ ?_).set _ _ ?_).set _ _ ?_).set _ _ ?_).set _ _ ?_).set _ _ ?_).set _ _ ?_
    all_goals simp [marked, Fd.SCAN_EASEL_PC_EPC, Fd.SCAN_EASEL_ECAUSE_CAUSE, Fd.SCAN_EASEL_ECAUSE_SUB, Fd.SCAN_EASEL_ECAUSE_FPC,
        Fd.SCAN_EASEL_EDETAIL_DETAIL, Fd.SCAN_EASEL_STAT_EXL, Fd.SCAN_EASEL_STAT_STATE, Fd.SCAN_EASEL_PC_PC]
  rw [enter_eq]
  exact (h.count _ _ _ _).onlyIf ((h.count _ _ _ _).irq _)

theorem within_enter : s.within [.io, .scan] (s.enter e cause sub detail fpc epc) := by
  rw [enter_eq]
  have h : s.within [.io, .scan] (entered e cause sub detail fpc epc s) := by simp [entered, State.within, State.setPc, State.easel']
  exact (h.count ..).onlyIf ((h.count ..).irq _)

/-- The alarm of an exception changes none of the easel's fields. -/
theorem get_enter {fd : Field} (h : fd.steady = true) :
    (s.enter e cause sub detail fpc epc).get fd = (entered e cause sub detail fpc epc s).get fd := by
  rw [enter_eq]
  unfold State.onlyIf
  split
  · exact (State.get_irq _ _ h).trans (State.get_count _ _ _ _ _ h)
  · exact State.get_count _ _ _ _ _ h

theorem easel_enter : (s.enter e cause sub detail fpc epc).easel e = (entered e cause sub detail fpc epc s).easel e := by
  rw [enter_eq]
  unfold State.onlyIf
  split <;> rfl


/-! ## What the handler finds -/

section
variable (e s cause sub fpc epc detail)

theorem get_enter_cause : (s.enter e cause sub detail fpc epc).get (Fd.SCAN_EASEL_ECAUSE_CAUSE e) = cause % 16 := by
  rw [get_enter (by revert e; decide)]
  simp [entered, State.setPc, State.get_set, State.get_set_apart, Field.apart, Fd.SCAN_EASEL_PC_EPC, Fd.SCAN_EASEL_ECAUSE_CAUSE,
    Fd.SCAN_EASEL_ECAUSE_SUB, Fd.SCAN_EASEL_ECAUSE_FPC, Fd.SCAN_EASEL_EDETAIL_DETAIL, Fd.SCAN_EASEL_STAT_EXL,
    Fd.SCAN_EASEL_STAT_STATE, Fd.SCAN_EASEL_PC_PC]

theorem get_enter_exl : (s.enter e cause sub detail fpc epc).get (Fd.SCAN_EASEL_STAT_EXL e) = 1 := by
  rw [get_enter (by revert e; decide)]
  simp [entered, State.setPc, State.get_set, State.get_set_apart, Field.apart, Fd.SCAN_EASEL_PC_EPC, Fd.SCAN_EASEL_ECAUSE_CAUSE,
    Fd.SCAN_EASEL_ECAUSE_SUB, Fd.SCAN_EASEL_ECAUSE_FPC, Fd.SCAN_EASEL_EDETAIL_DETAIL, Fd.SCAN_EASEL_STAT_EXL,
    Fd.SCAN_EASEL_STAT_STATE, Fd.SCAN_EASEL_PC_PC]

theorem get_enter_detail : (s.enter e cause sub detail fpc epc).get (Fd.SCAN_EASEL_EDETAIL_DETAIL e) = detail.toNat := by
  rw [get_enter (by revert e; decide)]
  simp [entered, Nat.mod_eq_of_lt detail.isLt, State.setPc, State.get_set, State.get_set_apart, Field.apart, Fd.SCAN_EASEL_PC_EPC, Fd.SCAN_EASEL_ECAUSE_CAUSE,
    Fd.SCAN_EASEL_ECAUSE_SUB, Fd.SCAN_EASEL_ECAUSE_FPC, Fd.SCAN_EASEL_EDETAIL_DETAIL, Fd.SCAN_EASEL_STAT_EXL,
    Fd.SCAN_EASEL_STAT_STATE, Fd.SCAN_EASEL_PC_PC]

theorem get_enter_fpc : (s.enter e cause sub detail fpc epc).get (Fd.SCAN_EASEL_ECAUSE_FPC e) = fpc % 4096 := by
  rw [get_enter (by revert e; decide)]
  simp [entered, State.setPc, State.get_set, State.get_set_apart, Field.apart, Fd.SCAN_EASEL_PC_EPC, Fd.SCAN_EASEL_ECAUSE_CAUSE,
    Fd.SCAN_EASEL_ECAUSE_SUB, Fd.SCAN_EASEL_ECAUSE_FPC, Fd.SCAN_EASEL_EDETAIL_DETAIL, Fd.SCAN_EASEL_STAT_EXL,
    Fd.SCAN_EASEL_STAT_STATE, Fd.SCAN_EASEL_PC_PC]

theorem get_enter_epc : (s.enter e cause sub detail fpc epc).get (Fd.SCAN_EASEL_PC_EPC e) = epc % 4096 := by
  rw [get_enter (by revert e; decide)]
  simp [entered, State.setPc, State.get_set, State.get_set_apart, Field.apart, Fd.SCAN_EASEL_PC_EPC, Fd.SCAN_EASEL_ECAUSE_CAUSE,
    Fd.SCAN_EASEL_ECAUSE_SUB, Fd.SCAN_EASEL_ECAUSE_FPC, Fd.SCAN_EASEL_EDETAIL_DETAIL, Fd.SCAN_EASEL_STAT_EXL,
    Fd.SCAN_EASEL_STAT_STATE, Fd.SCAN_EASEL_PC_PC]

theorem pc_enter : (s.enter e cause sub detail fpc epc).pc e = (16 * s.get (Fd.SCAN_EASEL_EVB_BASE e) + cause) % 4096 := by
  rw [State.pc, get_enter (by revert e; decide)]
  simp [entered, State.setPc, State.get_set, State.get_set_apart, Field.apart, Fd.SCAN_EASEL_PC_EPC, Fd.SCAN_EASEL_ECAUSE_CAUSE,
    Fd.SCAN_EASEL_ECAUSE_SUB, Fd.SCAN_EASEL_ECAUSE_FPC, Fd.SCAN_EASEL_EDETAIL_DETAIL, Fd.SCAN_EASEL_STAT_EXL,
    Fd.SCAN_EASEL_STAT_STATE, Fd.SCAN_EASEL_PC_PC]

theorem get_enter_wdog : (s.enter e cause sub detail fpc epc).get (Fd.SCAN_EASEL_STAT_WDOG e) = s.get (Fd.SCAN_EASEL_STAT_WDOG e) := by
  rw [get_enter (by revert e; decide)]
  simp [entered, Fd.SCAN_EASEL_STAT_WDOG, State.setPc, State.get_set, State.get_set_apart, Field.apart, Fd.SCAN_EASEL_PC_EPC, Fd.SCAN_EASEL_ECAUSE_CAUSE,
    Fd.SCAN_EASEL_ECAUSE_SUB, Fd.SCAN_EASEL_ECAUSE_FPC, Fd.SCAN_EASEL_EDETAIL_DETAIL, Fd.SCAN_EASEL_STAT_EXL,
    Fd.SCAN_EASEL_STAT_STATE, Fd.SCAN_EASEL_PC_PC]

theorem epred_enter : ((s.enter e cause sub detail fpc epc).easel e).epred = s.get (Fd.SCAN_EASEL_PRED_P e) := by
  simp [easel_enter, entered]

end

/-! ## The settled easel -/

/-- Settling an easel that has just entered its handler changes no field that the exception set but STATE. -/
theorem get_settled {fd : Field} (h : (Fd.SCAN_EASEL_STAT_STATE e).apart fd = true) {v : ℕ}
    (hv : (s.enter e cause sub detail fpc epc).get fd = v) : ((s.enter e cause sub detail fpc epc).settle e).get fd = v :=
  (State.get_settle_apart h).trans hv

theorem cause_settled (h : cause < 16) :
    ((s.enter e cause sub detail fpc epc).settle e).get (Fd.SCAN_EASEL_ECAUSE_CAUSE e) = cause :=
  get_settled (by revert e; decide) ((get_enter_cause ..).trans (Nat.mod_eq_of_lt h))

theorem exl_settled : ((s.enter e cause sub detail fpc epc).settle e).get (Fd.SCAN_EASEL_STAT_EXL e) = 1 :=
  get_settled (by revert e; decide) (get_enter_exl ..)

theorem detail_settled : ((s.enter e cause sub detail fpc epc).settle e).get (Fd.SCAN_EASEL_EDETAIL_DETAIL e) = detail.toNat :=
  get_settled (by revert e; decide) (get_enter_detail ..)

theorem fpc_settled (h : fpc < 4096) :
    ((s.enter e cause sub detail fpc epc).settle e).get (Fd.SCAN_EASEL_ECAUSE_FPC e) = fpc :=
  get_settled (by revert e; decide) ((get_enter_fpc ..).trans (Nat.mod_eq_of_lt h))

theorem epc_settled (h : epc < 4096) :
    ((s.enter e cause sub detail fpc epc).settle e).get (Fd.SCAN_EASEL_PC_EPC e) = epc :=
  get_settled (by revert e; decide) ((get_enter_epc ..).trans (Nat.mod_eq_of_lt h))

theorem wdog_settled :
    ((s.enter e cause sub detail fpc epc).settle e).get (Fd.SCAN_EASEL_STAT_WDOG e) = s.get (Fd.SCAN_EASEL_STAT_WDOG e) :=
  get_settled (by revert e; decide) (get_enter_wdog ..)

theorem pc_settled :
    ((s.enter e cause sub detail fpc epc).settle e).pc e = (16 * s.get (Fd.SCAN_EASEL_EVB_BASE e) + cause) % 4096 :=
  State.pc_settle.trans (pc_enter ..)

theorem next_pc_lt : (s.pc e + 1) % 4096 < 4096 := Nat.mod_lt _ (by decide)

/-! ## The commands -/

/-- Outside an exception one that is raised enters the handler (R104, R105). -/
theorem raise_of_exl (h : s.get (Fd.SCAN_EASEL_STAT_EXL e) = 0) : s.raise e cause sub detail fpc epc = s.enter e cause sub detail fpc epc := by
  have hexl : s.is (Fd.SCAN_EASEL_STAT_EXL e) = false := by simpa [State.is] using by simpa [State.get] using (by omega : s.get (Fd.SCAN_EASEL_STAT_EXL e) ≠ 1)
  simp [State.raise, hexl]

theorem exec_trap {f : Fields} (hs : s.runs shTRAP e f) (h : s.get (Fd.SCAN_EASEL_STAT_EXL e) = 0) :
    exec (.trap e f) s = .next ((s.enter e 8 0 (imm f) (s.pc e) ((s.pc e + 1) % 4096)).settle e) := by
  change execTrap e f s = _
  unfold execTrap
  rw [instr_of_runs hs rfl]
  unfold State.raiseHere
  rw [raise_of_exl h]
  rfl

theorem exec_undefinedOpcode {w : Wide} (hw : definedOpcodes.contains (opcOf w) = false) (hr : s.isRunning e = true)
    (h : s.get (Fd.SCAN_EASEL_STAT_EXL e) = 0) : exec (.undefinedOpcode e w) s =
      .next ((s.enter e 1 0 (BitVec.ofNat 32 w.toNat) (s.pc e) ((s.pc e + 1) % 4096)).settle e) := by
  change execUndefinedOpcode e w s = _
  unfold execUndefinedOpcode
  rw [if_neg (by rw [hw]; exact Bool.false_ne_true), if_pos hr]
  unfold State.raiseHere
  rw [raise_of_exl h]
  rfl

/-- At the watchdog's tick its bit is set before the handler is entered (R106). -/
def barked (e : ℕ) (s : State) : State := (s.reach (s.wdogTick e)).set (Fd.SCAN_EASEL_STAT_WDOG e) 1

theorem get_barked {fd : Field} (h : (Fd.SCAN_EASEL_STAT_WDOG e).apart fd = true) : (barked e s).get fd = s.get fd :=
  (State.get_set_apart _ _ h).trans (State.get_reach s _ fd)

theorem exec_watchdog (hh : s.isHalted e = false) (hl : s.get (Fd.SCAN_EASEL_WDOG_LIMIT e) ≠ 0)
    (ht : s.timely (s.wdogTick e) = true) (h : s.get (Fd.SCAN_EASEL_STAT_EXL e) = 0) : exec (.watchdog e) s =
      .next ((((barked e s).enter e 7 0 0 (s.pc e) (if s.isWaiting e then (s.pc e + 1) % 4096 else s.pc e)).settle e).wdogRestart e) := by
  have hexl : (barked e s).get (Fd.SCAN_EASEL_STAT_EXL e) = 0 :=
    (get_barked (by simp [Field.apart, Fd.SCAN_EASEL_STAT_WDOG, Fd.SCAN_EASEL_STAT_EXL])).trans h
  change execWatchdog e s = _
  unfold execWatchdog
  dsimp only
  rw [if_neg (by simp [hh, hl, ht]), ← raise_of_exl hexl]
  rfl

theorem barked_onlyRegs : s.onlyRegs (marked e) (barked e s) :=
  ((s.onlyRegs_refl _).reach _).set _ _ (by simp [marked, Fd.SCAN_EASEL_STAT_WDOG, Fd.SCAN_EASEL_STAT_STATE])

theorem barked_within : s.within [.io, .scan] (barked e s) := ((s.within_refl _).reach _).set _ _

theorem state_mem_marked : (Fd.SCAN_EASEL_STAT_STATE e).off ∈ marked e := List.mem_cons_self

theorem tick_enter : (s.enter e cause sub detail fpc epc).tick = s.tick := by
  rw [enter_eq]
  unfold State.onlyIf
  split <;> simp [entered, State.setPc]

theorem tick_settle : (s.settle e).tick = s.tick := by
  unfold State.settle
  split <;> rfl

theorem tick_wdogRestart : (s.wdogRestart e).tick = s.tick := rfl

/-- Settles O16: each enters the handler, and a stepped easel then halts, which changes STATE alone. -/
theorem exceptionsAreTaken : Obligations.ExceptionsAreTaken := by
  unfold Obligations.ExceptionsAreTaken
  refine ⟨fun e f s hs hexl => ⟨_, exec_trap hs hexl, within_enter.settle _, onlyRegs_enter.settle _ state_mem_marked,
      cause_settled (by decide), exl_settled, detail_settled, pc_settled, epc_settled next_pc_lt, fpc_settled State.pc_lt,
      (State.epred_settle _ _).trans (epred_enter ..)⟩,
    fun e w s hw hr hexl => ⟨_, exec_undefinedOpcode hw hr hexl, within_enter.settle _,
      onlyRegs_enter.settle _ state_mem_marked, cause_settled (by decide), exl_settled, detail_settled.trans (BitVec.toNat_ofNat ..),
      pc_settled, epc_settled next_pc_lt⟩,
    fun e s hh hl ht hexl => ⟨_, exec_watchdog hh hl ht hexl, ?_, ?_, cause_settled (by decide), ?_, exl_settled, ?_,
      epc_settled ?_, ?_, ?_⟩⟩
  · exact ((barked_within.trans within_enter).settle _).easel_upd _ _
  · exact ((barked_onlyRegs.trans onlyRegs_enter).settle _ state_mem_marked).easel_upd _ _
  · exact wdog_settled.trans (by simp [barked, State.get_set, Fd.SCAN_EASEL_STAT_WDOG])
  · have hbase : (barked e s).get (Fd.SCAN_EASEL_EVB_BASE e) = s.get (Fd.SCAN_EASEL_EVB_BASE e) :=
      get_barked (by simp [Field.apart, Fd.SCAN_EASEL_STAT_WDOG, Fd.SCAN_EASEL_EVB_BASE])
    rw [← hbase]
    exact pc_settled
  · split
    · exact next_pc_lt
    · exact State.pc_lt
  · simp [State.wdogRestart]
  · rw [tick_wdogRestart, tick_settle, tick_enter, State.tick_eq, barked, State.set_io, Io.set_tick, State.tick_eq]

end Sys2Proof.Machine.EaselException
end

section
/-!
PROOF. The easel's control (R109, R110).
-/
-- One thread for the lemmas: a thread for each would ask for more memory than a build may have.
set_option Elab.async false

namespace Sys2Proof.Machine.EaselControl

variable {e : Fin 8} {f : Fields} {s t : State}

/-! ## A step ends with the easel halted or waiting -/

/-- The easel is being stepped, or halted already. -/
def Stops (e : ℕ) (t : State) : Prop := (t.easel e).stepping = true ∨ t.isHalted e = true

/-- The easel stands still: it is halted or waits. -/
def Still (e : ℕ) (t : State) : Prop := t.isHalted e = true ∨ t.isWaiting e = true

theorem isHalted_set_zero (s : State) (e : ℕ) : (s.set (Fd.SCAN_EASEL_STAT_STATE e) 0).isHalted e = true := by
  simp [State.isHalted, State.get_set, Fd.SCAN_EASEL_STAT_STATE]

theorem isHalted_halt (s : State) (e : ℕ) : (s.halt e).isHalted e = true := isHalted_set_zero s e

theorem state_steady (e : Fin 8) : (Fd.SCAN_EASEL_STAT_STATE e).steady = true := by decide +revert

theorem get_haltIrq (w : State) {fd : Field} (h : fd.steady = true) : (w.haltIrq e).get fd = w.get fd := by
  unfold State.haltIrq State.onlyIf
  split
  · exact State.get_irq _ _ h
  · rfl

theorem isHalted_halted (s : State) (e : Fin 8) : ((s.halt e).haltIrq e).isHalted e = true := by
  rw [State.isHalted, get_haltIrq _ (state_steady e)]
  exact isHalted_halt s e

theorem Stops.settle (h : Stops e t) : Still e (t.settle e) := by
  unfold State.settle
  split
  case isTrue => exact .inl (isHalted_halt t e)
  case isFalse hns =>
    rcases h with h | h
    · right
      simpa [h] using hns
    · exact .inl h

/-- An instruction that leaves the records of the easels as they are leaves a stepped easel stepped. -/
theorem stops_of_easels (h : (s.easel e).stepping = true) (k : t.scan.easels = s.scan.easels) : Stops e t :=
  .inl (by rw [State.easel, k]; exact h)

theorem stops_easel_upd (h : (s.easel e).stepping = true) (k : t.scan.easels = s.scan.easels) {g : Easel → Easel}
    (hg : ∀ z, (g z).stepping = z.stepping) : Stops e (t.easel' e g) :=
  .inl (by rw [State.easel_upd_same, hg, State.easel, k]; exact h)

/-- A running easel's instruction ends at rest where its body leaves it stepped or halted. -/
theorem instr_stops {h : Shape} {range : State → Bool} {body : State → State} (hr : s.isRunning e = true)
    (hs : (s.easel e).stepping = true) (hb : Stops e (body s)) (hi : Stops e (s.illegal e f)) :
    ∃ t, instr e f h range body s = .next t ∧ Still e t := by
  unfold instr
  rw [if_neg (by simp [hr])]
  split
  · exact ⟨_, rfl, Stops.settle (stops_of_easels hs (congrArg Scan.easels (State.set_scan ..)))⟩
  · split
    · exact ⟨_, rfl, hb.settle⟩
    · exact ⟨_, rfl, hi.settle⟩

/-! ## What the bodies do to the easels' records -/

theorem easels_setP (i : ℕ) (b : Bool) : (s.setP e i b).scan.easels = s.scan.easels := by
  unfold State.setP
  split <;> rfl

theorem easels_setG (i : ℕ) (v : Word) : (s.setG e i v).scan.easels = s.scan.easels := by
  unfold State.setG
  split <;> rfl

theorem easels_dmWrite (a n v : ℕ) : (s.dmWrite e a n v).scan.easels = s.scan.easels := by
  unfold State.dmWrite
  exact foldl_keeps (fun w : State => w.scan.easels = s.scan.easels) _ (fun w i h => (show (w.setDmByte e (a + i)
      _).scan.easels = _ from h)) _ s rfl

theorem easels_store (a n v : ℕ) : (s.store e a n v).scan.easels = s.scan.easels := by
  unfold State.store
  split
  · dsimp only
    split <;> rfl
  · exact easels_dmWrite a n v

theorem easels_gateAbort (who : Actor) (a : ℕ) (w : Bool) : (s.gateAbort who a w).scan.easels = s.scan.easels := by
  unfold State.gateAbort
  dsimp only
  split <;> rfl

theorem dfault_apart (e : Fin 8) : (Fd.SCAN_EASEL_STAT_DFAULT e).apart (Fd.SCAN_EASEL_STAT_STATE e) = true := by decide +revert

theorem stops_raise {cause sub fpc epc : ℕ} {detail : Word} (h : (s.easel e).stepping = true) :
    Stops e (s.raise e cause sub detail fpc epc) := by
  unfold State.raise
  split
  · right
    rw [State.isHalted, State.doubleFault, get_haltIrq _ (state_steady e), State.get_err _ _ (state_steady e),
        State.get_set_apart _ _ (dfault_apart e)]
    exact isHalted_halt s e
  · left
    unfold State.enter State.onlyIf
    dsimp only
    split <;> simp [h, State.setPc]

theorem stepping_easel_upd (t : State) (k : ℕ) {g : Easel → Easel} (hg : ∀ z, (g z).stepping = z.stepping) :
    ((t.easel' k g).easel e).stepping = (t.easel e).stepping := by
  by_cases hk : (e : ℕ) = k
  · subst hk
    rw [State.easel_upd_same, hg]
  · rw [State.easel_upd_other _ _ hk]

theorem stepping_pendSwap (v : Wide) (k : ℕ) : ((s.pendSwap v k).easel e).stepping = (s.easel e).stepping := by
  unfold State.pendSwap
  dsimp only
  split
  · rfl
  · rw [State.easel, State.secu_upd_scan]
    exact (stepping_easel_upd _ k (by exact fun _ => rfl)).trans (congrArg Easel.stepping (State.easel_set ..))

theorem stepping_fixCommit (v : Wide) : ((s.fixCommit v).easel e).stepping = (s.easel e).stepping := by
  unfold State.fixCommit
  refine foldl_keeps (fun w : State => (w.easel e).stepping = (s.easel e).stepping) _
    (fun w k h => (stepping_pendSwap v k).trans h) easelList _ ?_
  simp -implicitDefEqProofs only [State.easel, State.set_scan, State.chip_upd_scan]

theorem easels_showPend : s.showPend.scan.easels = s.scan.easels := by
  unfold State.showPend
  refine foldl_keeps (fun w : State => w.scan.easels = s.scan.easels) _ (fun w n h => ?_) _ s rfl
  dsimp only
  rw [State.setBit_scan]
  exact h

theorem stepping_acceptCommit (instant eng : ℕ) (tick : Wide) :
    ((s.acceptCommit instant eng tick).easel e).stepping = (s.easel e).stepping := by
  unfold State.acceptCommit
  extract_lets s1
  have hs1 : s1.scan.easels = s.scan.easels := by
    simp -implicitDefEqProofs only [s1, State.mgmt_upd_scan, easels_showPend, State.count_scan, State.set_scan,
        State.chip_upd_scan, State.io_upd_scan]
  have hkept : (s1.easel e).stepping = (s.easel e).stepping := by rw [State.easel, State.easel, hs1]
  split
  · exact (stepping_fixCommit _).trans hkept
  · exact (stepping_fixCommit _).trans hkept
  · split
    · exact (stepping_fixCommit _).trans hkept
    · exact hkept

theorem stepping_requestCommit (src instant eng : ℕ) (tick : Wide) :
    ((s.requestCommit src instant eng tick).easel e).stepping = (s.easel e).stepping := by
  unfold State.requestCommit
  split
  split
  · exact (stepping_acceptCommit ..).trans (by simp -implicitDefEqProofs only [State.easel_set])
  · simp -implicitDefEqProofs only [State.easel_set, State.easel_count]

theorem stops_complete (h : (s.easel e).stepping = true) (k : ℕ) : Stops e (s.complete k) := by
  by_cases hk : (e : ℕ) = k
  · subst hk
    right
    unfold State.complete State.settle
    rw [if_pos (by simp [h, State.nextPc, State.setPc, State.isWaiting, State.get_set, State.get_set_apart, Field.apart,
        Fd.SCAN_EASEL_STAT_STATE, Fd.SCAN_EASEL_PC_PC])]
    exact isHalted_halt _ _
  · left
    unfold State.complete State.settle
    split
    · rw [State.halt, State.easel_upd_other _ _ hk, State.easel_set, State.easel_upd_other _ _ hk]
      exact h
    · rw [State.easel_upd_other _ _ hk]
      exact h

theorem stops_setSig (h : (s.easel e).stepping = true) (n : ℕ) : Stops e (s.setSig n) := by
  unfold State.setSig State.releaseSig
  have hset : (((s.set (Fd.SCAN_SIG_SIG.bit n) 1)).easel e).stepping = true := by rw [State.easel_set]; exact h
  split
  · split
    · exact stops_complete (by rw [State.easel_set]; exact hset) _
    · exact .inl hset
  · exact .inl hset

/-! ## Every instruction -/

/-- The command answers, and leaves the easel at rest. -/
def Rests (e : ℕ) (r : Res) : Prop := ∃ t, r = .next t ∧ Still e t

theorem easels_set (fd : Field) (n : ℕ) : (s.set fd n).scan.easels = s.scan.easels := congrArg Scan.easels (State.set_scan ..)

theorem easels_setT (i : ℕ) (v : Wide) : (s.setT e i v).scan.easels = s.scan.easels := (easels_set ..).trans (easels_set ..)

theorem easels_nextPc : (s.nextPc e).scan.easels = s.scan.easels := easels_set ..

theorem easels_stage (a : ℕ) (v : Word) : (s.stage a v).scan.easels = s.scan.easels := by
  simp -implicitDefEqProofs only [State.stage, State.showStale, State.setBit_scan, State.bump_scan, State.chip_upd_scan,
      State.io_upd_scan]

theorem easels_startProof : s.startProof.scan.easels = s.scan.easels := by
  simp -implicitDefEqProofs only [State.startProof, State.chip_upd_scan, easels_set]

theorem stops_swapBank (hs : (s.easel e).stepping = true) (w : Wide) : Stops e (s.swapBank e w) := by
  left
  unfold State.swapBank
  dsimp only
  rw [State.easel, State.secu_upd_scan]
  refine (stepping_easel_upd _ _ (by exact fun _ => rfl)).trans ?_
  simp -implicitDefEqProofs only [State.easel, easels_setT, easels_set, State.setPc]
  exact hs

theorem stops_present (hs : (s.easel e).stepping = true) (r : Request) : Stops e (s.present e f r) := by
  left
  simp only [State.present, State.waitFor, State.easel_upd_same, State.easel_set]
  exact hs

theorem stops_waitFor (hs : (s.easel e).stepping = true) (w : Wait) : Stops e (s.waitFor e w) := by
  left
  simp only [State.waitFor, State.easel_upd_same, State.easel_set]
  exact hs

section
variable (hr : s.isRunning e = true) (hs : (s.easel e).stepping = true)
include hr hs

theorem rests {h : Shape} {range : State → Bool} {body : State → State} (hb : Stops e (body s)) :
    Rests e (instr e f h range body s) := instr_stops hr hs hb (stops_raise hs)

theorem rests_of_easels {h : Shape} {range : State → Bool} {body : State → State}
    (hb : (body s).scan.easels = s.scan.easels) : Rests e (instr e f h range body s) := rests hr hs (stops_of_easels hs hb)

theorem rests_alu {opc : ℕ} {op : Word → Word → Word} : Rests e (alu opc op e f s) := rests_of_easels hr hs
    (easels_nextPc.trans (easels_setG ..))

theorem rests_memory {h : Shape} {n : ℕ} {store : Bool} {act : ℕ → State → State}
    (ha : ∀ a, (act a s).scan.easels = s.scan.easels) : Rests e (memory h n store e f act s) := by
  refine rests hr hs ?_
  dsimp only
  split
  · exact stops_raise hs
  · exact stops_of_easels hs (easels_nextPc.trans (ha _))

theorem rests_train {h : Shape} {listen : Bool} : Rests e (train h listen e f s) := by
  refine rests hr hs ?_
  dsimp only
  split
  · exact stops_present (s := s.set _ _) ((congrArg Easel.stepping (State.easel_set ..)).trans hs) _
  · exact stops_present hs _

theorem rests_execMts : Rests e (execMts e f s) := by
  refine rests_of_easels hr hs ?_
  dsimp only
  split <;> rfl

theorem rests_execLoop : Rests e (execLoop e f s) := by
  refine rests_of_easels hr hs ?_
  dsimp only
  split <;> exact easels_setG ..

theorem rests_execWaitt : Rests e (execWaitt e f s) := by
  refine rests hr hs ?_
  dsimp only
  split
  · exact stops_of_easels hs easels_nextPc
  · exact stops_waitFor hs _

theorem rests_execLine : Rests e (execLine e f s) := by
  refine rests hr hs ?_
  dsimp only
  split
  · exact stops_swapBank hs _
  · split
    · exact .inr (isHalted_halted s e)
    · exact stops_present hs _

theorem rests_execStag : Rests e (execStag e f s) := by
  refine rests hr hs ?_
  dsimp only
  split
  · exact stops_raise hs
  · split
    · exact stops_raise hs
    · exact stops_present hs _

theorem rests_execPeek : Rests e (execPeek e f s) :=
  rests_of_easels hr hs (by simp -implicitDefEqProofs only [easels_setP, easels_setG, State.nextPc, State.setPc,
      State.set_scan])

theorem rests_execSumwait : Rests e (execSumwait e f s) := by
  refine rests hr hs ?_
  dsimp only
  split
  · exact stops_of_easels hs easels_nextPc
  · exact stops_waitFor hs _

theorem rests_execSketch : Rests e (execSketch e f s) := by
  refine rests hr hs ?_
  dsimp only
  split
  · exact stops_raise hs
  · split
    · refine stops_of_easels hs (easels_nextPc.trans ?_)
      split
      · exact easels_gateAbort ..
      · exact easels_stage ..
    · exact stops_raise hs

theorem rests_execCommit {p : Bool} : Rests e (execCommit e f p s) := by
  refine rests hr hs ?_
  dsimp only
  split
  · exact stops_of_easels hs (by simp -implicitDefEqProofs only [easels_setP, easels_setG, State.nextPc, State.setPc,
      State.set_scan, State.count_scan])
  · left
    simp -implicitDefEqProofs only [State.easel, easels_setP, easels_setG, State.nextPc, State.setPc, State.set_scan]
    exact (stepping_requestCommit ..).trans hs

theorem rests_execWaitsig : Rests e (execWaitsig e f s) := by
  refine rests hr hs ?_
  dsimp only
  split
  · exact stops_of_easels hs easels_nextPc
  · exact stops_waitFor hs _

theorem rests_execSemaphore : Rests e (execSemaphore e f s) := by
  refine rests_of_easels hr hs ?_
  dsimp only
  split
  · rfl
  · split <;> exact easels_setP ..

theorem rests_execLedger : Rests e (execLedger e f s) :=
  rests_of_easels hr hs (by simp -implicitDefEqProofs only [easels_setP, easels_setG, State.nextPc, State.setPc,
      State.set_scan])

/-- A word that a running, stepped easel performs leaves it halted or waiting. -/
theorem rests_runWord (w : Wide) : Rests e (runWord e w s) := by
  unfold runWord
  split
  iterate 11 exact rests_alu hr hs
  · exact rests_of_easels hr hs (easels_nextPc.trans (easels_setP ..))
  · exact rests_of_easels hr hs (easels_nextPc.trans (easels_setP ..))
  · exact rests_of_easels hr hs (easels_nextPc.trans (easels_setG ..))
  · exact rests_execMts hr hs
  · exact rests_of_easels hr hs (easels_set ..)
  · exact rests_of_easels hr hs ((easels_set ..).trans (easels_setG ..))
  · exact rests_of_easels hr hs (easels_set ..)
  · exact rests_execLoop hr hs
  · exact rests_of_easels hr hs ((easels_set ..).trans ((easels_set ..).trans (easels_set ..)))
  · exact rests_memory hr hs fun _ => easels_setG ..
  · exact rests_memory hr hs fun _ => easels_store ..
  · exact rests_memory hr hs fun _ => easels_setT ..
  · exact rests_memory hr hs fun _ => easels_store ..
  · exact rests_of_easels hr hs (easels_nextPc.trans (easels_setT ..))
  · exact rests_execWaitt hr hs
  · exact rests_of_easels hr hs (easels_nextPc.trans (easels_setT ..))
  · exact rests_of_easels hr hs (easels_nextPc.trans (easels_setP ..))
  · exact rests_of_easels hr hs (easels_nextPc.trans (easels_setG ..))
  · exact rests_of_easels hr hs (easels_nextPc.trans (easels_setT ..))
  · exact rests_execLine hr hs
  · exact rests hr hs (stops_present hs _)
  · exact rests_train hr hs
  · exact rests_execStag hr hs
  · exact rests_train hr hs
  iterate 4 exact rests hr hs (stops_present hs _)
  · exact rests_execPeek hr hs
  · exact rests_execSumwait hr hs
  · exact rests_execSketch hr hs
  · exact rests_of_easels hr hs (easels_nextPc.trans easels_startProof)
  · exact rests_execCommit hr hs
  · exact rests hr hs (stops_setSig (s := s.nextPc e) ((congrArg Easel.stepping (State.easel_set ..)).trans hs) _)
  · exact rests_execWaitsig hr hs
  · exact rests_execSemaphore hr hs
  · exact rests_execLedger hr hs
  · exact rests hr hs (stops_raise hs)
  · exact rests_of_easels hr hs easels_nextPc
  · exact rests hr hs (.inr (isHalted_halted _ _))
  · exact ⟨_, rfl, (stops_raise hs).settle⟩

end

/-! ## Run and halt -/

theorem isRunning_run (h : s.isHalted e = true) : (s.run e).isRunning e = true := by
  rw [State.run, if_pos h]
  simp [State.isRunning, State.get_set, Fd.SCAN_EASEL_STAT_STATE]

theorem pc_run : (s.run e).pc e = s.pc e := by
  unfold State.run
  split
  · exact State.get_set_off s 1 (off_PC_ne_STAT e)
  · rfl

theorem easelFrame_run {regs : List ℕ} (h : (Fd.SCAN_EASEL_STAT_STATE e).off ∈ regs) : s.easelFrame regs (s.run e) := by
  unfold State.run
  split
  · exact ((s.easelFrame_refl _).set h 1).easel_upd e _
  · exact s.easelFrame_refl _

theorem exec_easelRun (h : s.admits (.easelRun e) = true) : exec (.easelRun e) s = .next (s.runAsked e) := by
  change execEaselRun e s = _
  unfold execEaselRun
  rw [State.writeRow_admitted h]
  rfl

theorem exec_easelHalt (h : s.admits (.easelHalt e) = true) (hh : s.isHalted e = false) :
    exec (.easelHalt e) s = .next ((s.halt e).haltIrq e) := by
  change execEaselHalt e s = _
  unfold execEaselHalt
  rw [State.writeRow_admitted h, if_neg (by simp [hh])]
  rfl

theorem pc_steady (e : Fin 8) : (Fd.SCAN_EASEL_PC_PC e).steady = true := by decide +revert

theorem haltIrq_eq (e : ℕ) : s.haltIrq e = s ∨ s.haltIrq e = s.irq (40 + e) := by
  unfold State.haltIrq State.onlyIf
  split
  · exact .inr rfl
  · exact .inl rfl

theorem easel_haltIrq (k : ℕ) : (s.haltIrq e).easel k = s.easel k := by
  obtain h | h := haltIrq_eq (s := s) e <;> rw [h]
  exact State.easel_irq ..

/-! ## Step -/

/-- The halted easel as it performs the instruction of its step. -/
def stepped (e : Fin 8) (s : State) : State := (s.run e).easel' e fun z => { z with stepping := true }

theorem isRunning_stepped (h : s.isHalted e = true) : (stepped e s).isRunning e = true := isRunning_run h

theorem stepping_stepped : ((stepped e s).easel e).stepping = true := by rw [stepped, State.easel_upd_same]

theorem exec_easelStep {who : Actor} (ha : s.admits (.easelStep who e) = true) (hh : s.isHalted e = true) (hhush :
    s.chip.hush = 0)
    (hw : s.withheld who (Fd.SCAN_EASEL_CTL_STEP e).off true 4 = false) :
    exec (.easelStep who e) s = runWord e (s.fetchWord e) (stepped e s) := by
  change execEaselStep who e s = _
  unfold execEaselStep
  dsimp only
  rw [State.writeBy_admitted ha, if_neg (by rw [hw]; exact Bool.false_ne_true), if_pos (by simp [hh, hhush])]
  rfl

theorem runWord_br {w : Wide} (h : opcOf w = 0x20) : runWord e w s = exec (.br e (fieldsOf w)) s := by
  unfold runWord
  rw [h]
  rfl

theorem executes_stepped (f : Fields) : (stepped e s).executes e f = s.executes e f := by
  have hp : ∀ i, (stepped e s).p e i = s.p e i := by
    intro i
    refine State.p_congr ?_
    unfold stepped State.run
    split
    · exact State.get_set_off s 1 (off_P_ne_STAT e i)
    · rfl
  simp only [State.executes, hp]

theorem easelFrame_stepped {regs : List ℕ} (h : (Fd.SCAN_EASEL_STAT_STATE e).off ∈ regs) : s.easelFrame regs (stepped e s) :=
  (easelFrame_run h).easel_upd e _

theorem isHalted_settle (hs : (s.easel e).stepping = true) (hr : s.isRunning e = true) : (s.settle e).isHalted e = true := by
  unfold State.settle
  rw [if_pos]
  · exact isHalted_halt s e
  · simp only [State.isRunning, beq_iff_eq] at hr
    simp [hs, State.isWaiting, hr]

/-! ## Reset -/

/-- What one step of a pass over a list brings about, and every step keeps, holds after the pass. -/
theorem foldl_reaches {P : ℕ → State → Prop} {g : State → ℕ → State} (hset : ∀ i w, P i (g w i))
    (hkeep : ∀ i k w, P k w → P k (g w i)) {l : List ℕ} {k : ℕ} (hk : k ∈ l) (w : State) : P k (l.foldl g w) := by
  induction l generalizing w with
  | nil => exact absurd hk List.not_mem_nil
  | cons j l ih =>
    rw [List.foldl_cons]
    rcases List.mem_cons.1 hk with rfl | hk
    · exact foldl_keeps (P k) g (fun w i h => hkeep i k w h) l _ (hset k w)
    · exact ih hk _

/-- The state of the reset easel but for its general and time registers. -/
def cleared (e : ℕ) (s : State) : State :=
  s.halt e |>.setPc e 0 |>.set (Fd.SCAN_EASEL_PC_EPC e) 0 |>.set (Fd.SCAN_EASEL_STAT_HOP e) 0
    |>.set (Fd.SCAN_EASEL_STAT_EXL e) 0 |>.put (Fd.SCAN_EASEL_ECAUSE_CAUSE e).off 0
    |>.put (Fd.SCAN_EASEL_EDETAIL_DETAIL e).off 0 |>.set (Fd.SCAN_EASEL_PRED_P e) 1

/-- The general registers read 0. -/
@[irreducible] def clearG (e : ℕ) (s : State) : State := (List.range 32).foldl (fun s i => s.set (Fd.SCAN_EASEL_G_G e i) 0) s

/-- The time registers read 0. -/
@[irreducible] def clearT (e : ℕ) (s : State) : State := (List.range 4).foldl (fun s i => s.setT e i 0) s

theorem resetEasel_eq : s.resetEasel e =
    (clearT e (clearG e (cleared e s))).easel' e fun z => { z with epred := 0, astat := 0, wdogKept := 0 } := by
  unfold clearT clearG
  rfl

theorem reg_clearG {a : ℕ} (h : ∀ i < 32, a ≠ (Fd.SCAN_EASEL_G_G e i).off) : (clearG e s).reg a = s.reg a := by
  unfold clearG
  exact List.foldlRecOn (motive := fun w : State => w.reg a = s.reg a) _ _ rfl
    fun w k i hi => (State.reg_set_other w 0 (h i (List.mem_range.1 hi))).trans k

theorem reg_clearT {a : ℕ} (h : ∀ i < 8, a ≠ (Fd.SCAN_EASEL_T_WORD e i).off) : (clearT e s).reg a = s.reg a := by
  unfold clearT
  exact List.foldlRecOn (motive := fun w : State => w.reg a = s.reg a) _ _ rfl fun w k i hi => by
    rw [List.mem_range] at hi
    exact ((State.reg_set_other _ 0 (h _ (by omega))).trans (State.reg_set_other w 0 (h _ (by omega)))).trans k

/-- Clearing the general and time registers leaves every other register as it was. -/
theorem reg_clear {a : ℕ} (h : a < 0x00410100 + 0x00010000 * e ∨ 0x004101A0 + 0x00010000 * e ≤ a) :
    (clearT e (clearG e s)).reg a = s.reg a := by
  rw [reg_clearT fun i hi => by simp only [Fd.SCAN_EASEL_T_WORD]; omega]
  exact reg_clearG fun i hi => by simp only [Fd.SCAN_EASEL_G_G]; omega

theorem get_clear {fd : Field} (h : fd.off < 0x00410100 + 0x00010000 * e ∨ 0x004101A0 + 0x00010000 * e ≤ fd.off) :
    (clearT e (clearG e s)).get fd = s.get fd := Io.get_congr (reg_clear h)

theorem g_clearG {i : ℕ} (hi : i < 32) : (clearG e s).g e i = 0 := by
  unfold clearG
  refine foldl_reaches (P := fun k w => w.g e k = 0) (fun k w => ?_) (fun j k w h => ?_) (List.mem_range.2 hi) s
  · simp [State.g, State.get_set, Fd.SCAN_EASEL_G_G]
  · by_cases hjk : k = j
    · subst hjk
      simp [State.g, State.get_set, Fd.SCAN_EASEL_G_G]
    · rw [State.g_congr (State.get_set_off w 0 ?_)]
      · exact h
      · simp only [Fd.SCAN_EASEL_G_G]
        omega

theorem g_clear {i : ℕ} (hi : i < 32) : (clearT e (clearG e s)).g e i = 0 := by
  rw [State.g_congr (s := clearG e s)]
  · exact g_clearG hi
  · exact Io.get_congr (reg_clearT fun j hj => by simp only [Fd.SCAN_EASEL_G_G, Fd.SCAN_EASEL_T_WORD]; omega)

theorem t_setT_other {w : State} {i j : ℕ} (h : i ≠ j) (v : Wide) : (w.setT e j v).t e i = w.t e i := by
  have hoff : ∀ a b, (a = 2 * i ∨ a = 2 * i + 1) → (b = 2 * j ∨ b = 2 * j + 1) →
      (Fd.SCAN_EASEL_T_WORD e a).off ≠ (Fd.SCAN_EASEL_T_WORD e b).off := by
    intro a b ha hb
    simp only [Fd.SCAN_EASEL_T_WORD]
    omega
  have hget : ∀ a, (a = 2 * i ∨ a = 2 * i + 1) → (w.setT e j v).get (Fd.SCAN_EASEL_T_WORD e a) = w.get
      (Fd.SCAN_EASEL_T_WORD e a) :=
    fun a ha => (State.get_set_off _ _ (hoff a _ ha (.inr rfl))).trans (State.get_set_off w _ (hoff a _ ha (.inl rfl)))
  simp only [State.t, hget _ (.inl rfl), hget _ (.inr rfl)]

theorem t_clear {i : ℕ} (hi : i < 4) : (clearT e (clearG e s)).t e i = 0 := by
  unfold clearT
  refine foldl_reaches (P := fun k w => w.t e k = 0) (fun k w => State.t_setT_same k 0) (fun j k w h => ?_)
    (List.mem_range.2 hi) (clearG e s)
  by_cases hjk : k = j
  · subst hjk
    exact State.t_setT_same k 0
  · exact (t_setT_other hjk 0).trans h

theorem get_resetEasel {fd : Field} (h : fd.off < 0x00410100 + 0x00010000 * e ∨ 0x004101A0 + 0x00010000 * e ≤ fd.off) :
    (s.resetEasel e).get fd = (cleared e s).get fd := by
  rw [resetEasel_eq, State.get_easel_upd, get_clear h]

/-- Clearing registers leaves every record but the shared one. -/
theorem within_clear : s.within [.io] (clearT e (clearG e s)) := by
  have hG : s.within [.io] (clearG e s) := by
    unfold clearG
    exact List.foldlRecOn (motive := fun w : State => s.within [.io] w) _ _ (s.within_refl _) fun w k i _ => k.set _ _
  unfold clearT
  exact List.foldlRecOn (motive := fun w : State => s.within [.io] w) _ _ hG fun w k i _ => (k.set _ _).set _ _

theorem scan_clear : (clearT e (clearG e s)).scan = s.scan := by
  obtain ⟨-, -, -, hscan, -⟩ := within_clear (e := e) (s := s)
  exact hscan (by decide)

theorem within_resetEasel : s.within [.io, .scan] (s.resetEasel e) := by
  rw [resetEasel_eq]
  refine State.within.easel_upd (State.within.trans ?_ (within_clear.mono (by simp))) _ _
  exact ((((((((s.within_refl _).halt e).setPc _ _).set _ _).set _ _).set _ _).put _ _).put _ _).set _ _

theorem onlyRegions_resetEasel : s.onlyRegions [2] (s.resetEasel e) := by
  have h0 : s.onlyRegions [2] (cleared e s) := by
    have h1 : s.onlyRegions [2] (s.halt e) := ((s.onlyRegions_refl _).set _ 0 (by revert e; decide)).of_reg fun _ => rfl
    refine ((((((h1.set _ _ ?_).set _ _ ?_).set _ _ ?_).set _ _ ?_).put _ _ ?_).put _ _ ?_).set _ _ ?_
    all_goals
      clear h1
      revert e
      decide
  have hG : s.onlyRegions [2] (clearG e (cleared e s)) := by
    unfold clearG
    refine List.foldlRecOn (motive := fun w : State => s.onlyRegions [2] w) _ _ h0 fun w k i hi => k.set _ _ ?_
    rw [List.mem_range] at hi
    simp only [List.mem_singleton, Fd.SCAN_EASEL_G_G]
    omega
  have hT : s.onlyRegions [2] (clearT e (clearG e (cleared e s))) := by
    unfold clearT
    refine List.foldlRecOn (motive := fun w : State => s.onlyRegions [2] w) _ _ hG fun w k i hi => ?_
    rw [List.mem_range] at hi
    refine (k.set _ _ ?_).set _ _ ?_
    all_goals
      simp only [List.mem_singleton, Fd.SCAN_EASEL_T_WORD]
      omega
  rw [resetEasel_eq]
  exact hT.of_reg fun _ => rfl

theorem dm_easel_upd (w : State) (k : ℕ) (g : Easel → Easel) : (w.easel' k g).scan.dm = w.scan.dm := rfl

theorem dm_resetEasel : (s.resetEasel e).scan.dm = s.scan.dm := by
  rw [resetEasel_eq]
  rw [dm_easel_upd]
  refine (congrArg Scan.dm scan_clear).trans ?_
  simp -implicitDefEqProofs only [cleared, State.set_scan, State.put_scan, State.setPc]
  rfl

theorem easel_resetEasel : (s.resetEasel e).easel e =
    { (cleared e s).easel e with epred := 0, astat := 0, wdogKept := 0 } := by
  rw [resetEasel_eq, State.easel_upd_same]
  exact congrArg (fun c : Scan => { rd (fun _ => {}) c.easels e with epred := 0, astat := 0, wdogKept := 0 }) scan_clear

theorem exec_easelReset (h : s.admits (.easelReset e) = true) : exec (.easelReset e) s = .next (s.resetEasel e) := by
  change execEaselReset e s = _
  unfold execEaselReset
  rw [State.writeRow_admitted h]
  rfl

/-! ### The fields of the reset easel -/

theorem state_cleared : (cleared e s).get (Fd.SCAN_EASEL_STAT_STATE e) = 0 := by
  simp [cleared, State.halt, State.setPc, State.get_set, State.get_set_apart, State.get_put_other, Field.apart,
    Fd.SCAN_EASEL_STAT_STATE, Fd.SCAN_EASEL_PC_PC, Fd.SCAN_EASEL_PC_EPC, Fd.SCAN_EASEL_STAT_HOP, Fd.SCAN_EASEL_STAT_EXL,
    Fd.SCAN_EASEL_ECAUSE_CAUSE, Fd.SCAN_EASEL_EDETAIL_DETAIL, Fd.SCAN_EASEL_PRED_P]

theorem pc_cleared : (cleared e s).get (Fd.SCAN_EASEL_PC_PC e) = 0 := by
  simp [cleared, State.halt, State.setPc, State.get_set, State.get_set_apart, State.get_put_other, Field.apart,
    Fd.SCAN_EASEL_STAT_STATE, Fd.SCAN_EASEL_PC_PC, Fd.SCAN_EASEL_PC_EPC, Fd.SCAN_EASEL_STAT_HOP, Fd.SCAN_EASEL_STAT_EXL,
    Fd.SCAN_EASEL_ECAUSE_CAUSE, Fd.SCAN_EASEL_EDETAIL_DETAIL, Fd.SCAN_EASEL_PRED_P]

theorem hop_cleared : (cleared e s).get (Fd.SCAN_EASEL_STAT_HOP e) = 0 := by
  simp [cleared, State.halt, State.setPc, State.get_set, State.get_set_apart, State.get_put_other, Field.apart,
    Fd.SCAN_EASEL_STAT_STATE, Fd.SCAN_EASEL_PC_PC, Fd.SCAN_EASEL_PC_EPC, Fd.SCAN_EASEL_STAT_HOP, Fd.SCAN_EASEL_STAT_EXL,
    Fd.SCAN_EASEL_ECAUSE_CAUSE, Fd.SCAN_EASEL_EDETAIL_DETAIL, Fd.SCAN_EASEL_PRED_P]

theorem exl_cleared : (cleared e s).get (Fd.SCAN_EASEL_STAT_EXL e) = 0 := by
  simp [cleared, State.halt, State.setPc, State.get_set, State.get_set_apart, State.get_put_other, Field.apart,
    Fd.SCAN_EASEL_STAT_STATE, Fd.SCAN_EASEL_PC_PC, Fd.SCAN_EASEL_PC_EPC, Fd.SCAN_EASEL_STAT_HOP, Fd.SCAN_EASEL_STAT_EXL,
    Fd.SCAN_EASEL_ECAUSE_CAUSE, Fd.SCAN_EASEL_EDETAIL_DETAIL, Fd.SCAN_EASEL_PRED_P]

theorem pred_cleared : (cleared e s).get (Fd.SCAN_EASEL_PRED_P e) = 1 := by
  simp [cleared, State.halt, State.setPc, State.get_set, State.get_set_apart, State.get_put_other, Field.apart,
    Fd.SCAN_EASEL_STAT_STATE, Fd.SCAN_EASEL_PC_PC, Fd.SCAN_EASEL_PC_EPC, Fd.SCAN_EASEL_STAT_HOP, Fd.SCAN_EASEL_STAT_EXL,
    Fd.SCAN_EASEL_ECAUSE_CAUSE, Fd.SCAN_EASEL_EDETAIL_DETAIL, Fd.SCAN_EASEL_PRED_P]

theorem epc_cleared : (cleared e s).get (Fd.SCAN_EASEL_PC_EPC e) = 0 := by
  simp [cleared, State.halt, State.setPc, State.get_set, State.get_set_apart, State.get_put_other, Field.apart,
    Fd.SCAN_EASEL_STAT_STATE, Fd.SCAN_EASEL_PC_PC, Fd.SCAN_EASEL_PC_EPC, Fd.SCAN_EASEL_STAT_HOP, Fd.SCAN_EASEL_STAT_EXL,
    Fd.SCAN_EASEL_ECAUSE_CAUSE, Fd.SCAN_EASEL_EDETAIL_DETAIL, Fd.SCAN_EASEL_PRED_P]

theorem bank_cleared : (cleared e s).get (Fd.SCAN_EASEL_STAT_BANK e) = s.get (Fd.SCAN_EASEL_STAT_BANK e) := by
  simp [cleared, State.halt, State.setPc, State.get_set, State.get_set_apart, State.get_put_other, Field.apart,
    Fd.SCAN_EASEL_STAT_STATE, Fd.SCAN_EASEL_PC_PC, Fd.SCAN_EASEL_PC_EPC, Fd.SCAN_EASEL_STAT_HOP, Fd.SCAN_EASEL_STAT_EXL,
    Fd.SCAN_EASEL_ECAUSE_CAUSE, Fd.SCAN_EASEL_EDETAIL_DETAIL, Fd.SCAN_EASEL_PRED_P, Fd.SCAN_EASEL_STAT_BANK]

theorem reg_cause_cleared : (cleared e s).reg (Fd.SCAN_EASEL_ECAUSE_CAUSE e).off = 0 := by
  rw [cleared, State.reg_set_other _ _ (by simp [Fd.SCAN_EASEL_ECAUSE_CAUSE, Fd.SCAN_EASEL_PRED_P]),
    State.reg_put_other _ _ (by simp [Fd.SCAN_EASEL_ECAUSE_CAUSE, Fd.SCAN_EASEL_EDETAIL_DETAIL]), State.reg_put]

theorem reg_detail_cleared : (cleared e s).reg (Fd.SCAN_EASEL_EDETAIL_DETAIL e).off = 0 := by
  rw [cleared, State.reg_set_other _ _ (by simp [Fd.SCAN_EASEL_EDETAIL_DETAIL, Fd.SCAN_EASEL_PRED_P]), State.reg_put]

/-- A register of the easel that is neither a general nor a time register is the cleared state's. -/
theorem reg_resetEasel {a : ℕ} (h : a < 0x00410100 + 0x00010000 * e ∨ 0x004101A0 + 0x00010000 * e ≤ a) :
    (s.resetEasel e).reg a = (cleared e s).reg a := by rw [resetEasel_eq, State.reg_easel_upd, reg_clear h]

theorem g_resetEasel {i : ℕ} (hi : i < 32) : (s.resetEasel e).g e i = 0 := by
  rw [resetEasel_eq]
  exact (State.g_congr (State.get_easel_upd ..)).trans (g_clear hi)

theorem t_resetEasel {i : ℕ} (hi : i < 4) : (s.resetEasel e).t e i = 0 := by
  rw [resetEasel_eq]
  exact (State.t_congr fun j => State.get_easel_upd ..).trans (t_clear hi)

/-! ## The start of several easels -/

theorem exec_scanStart {mask : Byte} (h : s.admits (.scanStart mask) = true) (hm : mask ≠ 0) :
    exec (.scanStart mask) s = .next ((s.set Fd.SCAN_START_MASK (s.scan.startDue ||| mask.toNat)).scan' fun c =>
      { c with startDue := c.startDue ||| mask.toNat, startAt := s.tick + 64 }) := by
  change execScanStart mask s = _
  unfold execScanStart
  rw [State.writeRow_admitted h, if_neg hm]
  rfl

/-- The easels of the mask run from the tick of the start (R110). -/
def started (s : State) : State :=
  easelList.foldl (fun t e => if (s.reach s.scan.startAt).scan.startDue.testBit e then t.runAsked e else t) (s.reach
      s.scan.startAt)

theorem exec_scanStartDue (hd : s.scan.startDue ≠ 0) (ht : s.timely s.scan.startAt = true) :
    exec .scanStartDue s = .next (((started s).set Fd.SCAN_START_MASK 0).scan' fun c => { c with startDue := 0 }) := by
  change execScanStartDue s = _
  unfold execScanStartDue
  rw [if_neg (by simp [hd, ht])]
  rfl

theorem runAsked_eq (k : ℕ) : s.runAsked k = s ∨ s.runAsked k = s.run k := by
  unfold State.runAsked
  split
  · exact .inr rfl
  · exact .inl rfl

/-- A register but the STATE registers is not touched by the start, and no record but the easels'. -/
theorem easelFrame_started : (s.reach s.scan.startAt).easelFrame (easelList.map fun k => (Fd.SCAN_EASEL_STAT_STATE k).off)
    (started s) := by
  refine List.foldlRecOn (motive := fun w : State => State.easelFrame _ (s.reach s.scan.startAt) w) _ _
      (State.easelFrame_refl _ _)
    fun w h k hk => ?_
  split
  · obtain hrun | hrun := runAsked_eq (s := w) k
    · rw [hrun]
      exact h
    · rw [hrun]
      unfold State.run
      split
      · exact (h.set (List.mem_map_of_mem hk) 1).easel_upd k _
      · exact h
  · exact h

theorem state_run_other {w : State} {j k : ℕ} (h : j ≠ k) :
    (w.run k).get (Fd.SCAN_EASEL_STAT_STATE j) = w.get (Fd.SCAN_EASEL_STAT_STATE j) := by
  unfold State.run
  split
  · refine State.get_set_off w 1 ?_
    simp only [Fd.SCAN_EASEL_STAT_STATE]
    omega
  · rfl

theorem state_run_same {w : State} {k : ℕ} (h : w.get (Fd.SCAN_EASEL_STAT_STATE k) ≤ 1) :
    (w.run k).get (Fd.SCAN_EASEL_STAT_STATE k) = 1 := by
  unfold State.run
  split
  · exact State.get_set w _ 1 (Nat.zero_le 1) (by simp [Fd.SCAN_EASEL_STAT_STATE])
  case isFalse hne =>
    simp only [State.isHalted, beq_iff_eq] at hne
    omega

theorem chip_run (w : State) (k : ℕ) : (w.run k).chip = w.chip := by
  unfold State.run
  split <;> rfl

/-- A halted easel of the mask runs once the pass has come to it, and stays running. -/
theorem isRunning_pass {m k : ℕ} (hm : m.testBit k = true) {l : List ℕ} (w : State) (hhush : w.chip.hush = 0)
    (hw : w.get (Fd.SCAN_EASEL_STAT_STATE k) ≤ 1) (hk : k ∈ l ∨ w.get (Fd.SCAN_EASEL_STAT_STATE k) = 1) :
    (l.foldl (fun t j => if m.testBit j then t.runAsked j else t) w).get (Fd.SCAN_EASEL_STAT_STATE k) = 1 := by
  induction l generalizing w with
  | nil => exact hk.resolve_left List.not_mem_nil
  | cons j l ih =>
    rw [List.foldl_cons]
    have hrun : w.runAsked j = w.run j := if_pos hhush
    by_cases hj : k = j
    · subst hj
      have hone := state_run_same hw
      rw [if_pos hm, hrun]
      exact ih _ (by rw [chip_run]; exact hhush) hone.le (.inr hone)
    · have hrest := hk.imp_left fun h => (List.mem_cons.1 h).resolve_left hj
      split
      · rw [hrun]
        have hsame := state_run_other (w := w) hj
        exact ih _ (by rw [chip_run]; exact hhush) (hsame.trans_le hw) (hrest.imp_right hsame.trans)
      · exact ih _ hhush hw hrest

theorem mem_easelList (e : Fin 8) : (e : ℕ) ∈ easelList := by decide +revert

theorem isRunning_started (hd : s.scan.startDue.testBit e = true) (hh : s.isHalted e = true) (hhush : s.chip.hush = 0) :
    (started s).isRunning e = true := by
  have hstate : (s.reach s.scan.startAt).get (Fd.SCAN_EASEL_STAT_STATE e) = 0 := by
    rw [State.get_reach]
    simpa [State.isHalted] using hh
  exact beq_iff_eq.2 (isRunning_pass hd _ hhush (by rw [hstate]; decide) (.inl (mem_easelList e)))

theorem off_START_ne_STATE (k : ℕ) : (Fd.SCAN_EASEL_STAT_STATE k).off ≠ Fd.SCAN_START_MASK.off := by
  simp only [Fd.SCAN_EASEL_STAT_STATE, Fd.SCAN_START_MASK]
  omega

/-- Settles O17: each command is performed as its admitted form says, and a step ends at rest whatever its instruction. -/
theorem easelControlCompletes : Obligations.EaselControlCompletes := by
  unfold Obligations.EaselControlCompletes
  refine ⟨?run, ?hush, ?halt, ?step, ?stepBr, ?reset, ?start, ?due⟩
  case run =>
    intro e s ha hh hhush
    have hrun : s.runAsked e = s.run e := if_pos hhush
    refine ⟨_, exec_easelRun ha, ?_, ?_, ?_⟩ <;> rw [hrun]
    · exact isRunning_run hh
    · exact pc_run
    · exact easelFrame_run (by simp)
  case hush =>
    intro e s ha hhush
    exact (exec_easelRun ha).trans (congrArg _ (if_neg hhush))
  case halt =>
    intro e s ha hh
    refine ⟨_, exec_easelHalt ha hh, ?_, ?_, isHalted_halted s e, ?_, ?_, ?_⟩
    · exact (((s.within_refl _).halt e).onlyIf (((s.within_refl _).halt e).irq _))
    · exact (((s.onlyRegs_refl _).halt e).onlyIf (((s.onlyRegs_refl _).halt e).irq _))
    · exact (get_haltIrq _ (pc_steady e)).trans (State.get_set_off s 0 (off_PC_ne_STAT e))
    · rw [easel_haltIrq, State.halt, State.easel_upd_same]
    · rw [easel_haltIrq, State.halt, State.easel_upd_same]
  case step =>
    intro who e s ha hh hhush hw
    obtain ⟨t, hrun, hrest⟩ := rests_runWord (isRunning_stepped hh) stepping_stepped (s.fetchWord e)
    exact ⟨t, (exec_easelStep ha hh hhush hw).trans hrun, hrun, hrest⟩
  case stepBr =>
    intro who e s ha hh hhush hw hop hlegal hexec
    have hruns : (stepped e s).runs shBR e (fieldsOf (s.fetchWord e)) := by
      refine ⟨isRunning_stepped hh, ?_, hlegal⟩
      rw [executes_stepped]
      exact hexec
    refine ⟨_, (exec_easelStep ha hh hhush hw).trans ((runWord_br hop).trans (EaselBranches.br_next hruns)), ?_, ?_,
        EaselBranches.pc_target _⟩
    · exact ((easelFrame_stepped (by simp)).setPc (by simp) _).settle (by simp)
    · refine isHalted_settle ?_ ?_
      · exact (congrArg Easel.stepping (State.easel_set ..)).trans stepping_stepped
      · rw [State.isRunning, State.setPc, State.get_set_off _ _ (off_PC_ne_STAT e).symm]
        exact isRunning_stepped hh
  case reset =>
    intro e s ha
    refine ⟨_, exec_easelReset ha, within_resetEasel, onlyRegions_resetEasel, ?_, ?_, ?_, ?_, fun i hi => ?_, fun i hi =>
        ?_, ?_, ?_, ?_, ?_, ?_, ?_, dm_resetEasel, ?_⟩
    · rw [State.isHalted, get_resetEasel (.inl (by simp only [Fd.SCAN_EASEL_STAT_STATE]; omega)), state_cleared]
      rfl
    · exact (get_resetEasel (.inl (by simp only [Fd.SCAN_EASEL_PC_PC]; omega))).trans pc_cleared
    · exact (get_resetEasel (.inl (by simp only [Fd.SCAN_EASEL_STAT_HOP]; omega))).trans hop_cleared
    · exact (get_resetEasel (.inl (by simp only [Fd.SCAN_EASEL_STAT_EXL]; omega))).trans exl_cleared
    · exact g_resetEasel hi
    · exact t_resetEasel hi
    · rw [easel_resetEasel]
    · rw [easel_resetEasel]
    · exact (get_resetEasel (.inr (by simp only [Fd.SCAN_EASEL_PRED_P]; omega))).trans pred_cleared
    · exact (get_resetEasel (.inl (by simp only [Fd.SCAN_EASEL_PC_EPC]; omega))).trans epc_cleared
    · exact (reg_resetEasel (.inl (by simp only [Fd.SCAN_EASEL_ECAUSE_CAUSE]; omega))).trans reg_cause_cleared
    · exact (reg_resetEasel (.inl (by simp only [Fd.SCAN_EASEL_EDETAIL_DETAIL]; omega))).trans reg_detail_cleared
    · exact (get_resetEasel (.inl (by simp only [Fd.SCAN_EASEL_STAT_BANK]; omega))).trans bank_cleared
  case start =>
    intro mask s ha hm
    exact ⟨_, exec_scanStart ha hm, ((s.within_refl _).set _ _).scan_upd _, ((s.onlyRegs_refl _).set _ _).scan_upd _, rfl, rfl⟩
  case due =>
    intro e s hd ht hh hhush
    have hdue : s.scan.startDue ≠ 0 := by
      intro h0
      simp [h0] at hd
    obtain ⟨hreg, hrest⟩ := easelFrame_started (s := s)
    refine ⟨_, exec_scanStartDue hdue ht, ?_, ?_, ?_, rfl, ?_, ?_⟩
    · refine State.within.scan_upd (State.within.set ?_ _ _) _
      rw [hrest]
      simp [State.within]
    · refine State.onlyRegs.scan_upd (State.onlyRegs.set (fun a ha _ _ => ?_) _ _) _
      exact (hreg a fun hm => ha (List.mem_cons_of_mem _ hm)).trans (State.reg_reach ..)
    · exact (congrArg (· == 1) (State.get_set_off _ 0 (off_START_ne_STATE e))).trans (isRunning_started hd hh hhush)
    · exact State.get_set _ _ 0 (by decide) (by decide)
    · have htick : (started s).io.tick = (s.reach s.scan.startAt).io.tick := by rw [hrest]
      exact htick

end Sys2Proof.Machine.EaselControl
end

section
/-!
PROOF. The easel's synchronisation (R101, R102, R133 to R135).
-/
-- One thread for the lemmas: a thread for each would ask for more memory than a build may have.
set_option Elab.async false

namespace Sys2Proof.Machine.EaselSync

variable {e : Fin 8} {f : Fields} {s t : State}

/-! ## The signals -/

theorem signal_bit (n : ℕ) (hn : n < 16) (s : State) (v : ℕ) (hv : v < 2) :
    (s.set (Fd.SCAN_SIG_SIG.bit n) v).get (Fd.SCAN_SIG_SIG.bit n) = v := by
  refine (State.get_set s _ v (Nat.le_refl _) ?_).trans ?_
  · simp only [Field.bit, Fd.SCAN_SIG_SIG]
    omega
  · simpa [Field.bit] using hv

theorem sig_lt : xbits f 3 0 < 16 := xbits_lt f 3 0

theorem off_SIG_ne_PC (n k : ℕ) : (Fd.SCAN_SIG_SIG.bit n).off ≠ (Fd.SCAN_EASEL_PC_PC k).off := by
  simp only [Field.bit, Fd.SCAN_SIG_SIG, Fd.SCAN_EASEL_PC_PC]
  omega

theorem off_SIG_ne_STAT (n k : ℕ) : (Fd.SCAN_SIG_SIG.bit n).off ≠ (Fd.SCAN_EASEL_STAT_STATE k).off := by
  simp only [Field.bit, Fd.SCAN_SIG_SIG, Fd.SCAN_EASEL_STAT_STATE]
  omega

theorem get_settle_signal (n : ℕ) (k : ℕ) : (s.settle k).get (Fd.SCAN_SIG_SIG.bit n) = s.get (Fd.SCAN_SIG_SIG.bit n) :=
  State.get_settle (off_SIG_ne_STAT n k)

/-- The signal that no easel waits for stays set. -/
theorem setSig_unawaited {n : ℕ} (h : ∀ k ∈ easelList, (s.easel k).wait ≠ .signal n) :
    s.setSig n = s.set (Fd.SCAN_SIG_SIG.bit n) 1 := by
  have hfind : easelList.find? (fun k => ((s.set (Fd.SCAN_SIG_SIG.bit n) 1).easel k).wait = .signal n) = none :=
    List.find?_eq_none.2 fun k hk hw => h k hk (of_decide_eq_true hw)
  unfold State.setSig State.releaseSig
  rw [hfind]
  exact ite_self _

/-- The lowest easel that waits for the signal goes on, and the signal is used up (R101). -/
theorem setSig_awaited {n k : ℕ} (hn : n < 16) (h : easelList.find? (fun k => (s.easel k).wait = .signal n) = some k) :
    s.setSig n = ((s.set (Fd.SCAN_SIG_SIG.bit n) 1).set (Fd.SCAN_SIG_SIG.bit n) 0).complete k := by
  have hfind : easelList.find? (fun k => ((s.set (Fd.SCAN_SIG_SIG.bit n) 1).easel k).wait = .signal n) = some k := h
  have hset : (s.set (Fd.SCAN_SIG_SIG.bit n) 1).is (Fd.SCAN_SIG_SIG.bit n) = true := beq_iff_eq.2 (signal_bit n hn s 1 (by
      decide))
  unfold State.setSig State.releaseSig
  rw [if_pos hset, hfind]

theorem exec_signal (hs : s.runs shSIGNAL e f) : exec (.signal e f) s = .next (((s.nextPc e).setSig (xbits f 3 0)).settle e) :=
  instr_of_runs (range := anyRange) hs rfl fun s => (s.nextPc e).setSig (xbits f 3 0)

/-- The easel that the signal was for, as it goes on. -/
def woken (e : Fin 8) (n k : ℕ) (s : State) : State :=
  (((((s.nextPc e).set (Fd.SCAN_SIG_SIG.bit n) 1).set (Fd.SCAN_SIG_SIG.bit n) 0).set (Fd.SCAN_EASEL_STAT_STATE k) 1).nextPc
      k).easel' k
    fun z => { z with wait := .none, port := none }

theorem exec_signal_awaited {k : ℕ} (hs : s.runs shSIGNAL e f) (hk : (s.easel k).stepping = false)
    (h : easelList.find? (fun k => (s.easel k).wait = .signal (xbits f 3 0)) = some k) :
    exec (.signal e f) s = .next ((woken e (xbits f 3 0) k s).settle e) := by
  have hstep : ((woken e (xbits f 3 0) k s).easel k).stepping = false := by
    rw [woken, State.easel_upd_same]
    simp only [State.nextPc, State.setPc, State.easel_set]
    exact hk
  have hstill : (woken e (xbits f 3 0) k s).settle k = woken e (xbits f 3 0) k s := by
    unfold State.settle
    rw [hstep, Bool.false_and, if_neg Bool.false_ne_true]
  refine (exec_signal hs).trans ?_
  rw [setSig_awaited (s := s.nextPc e) sig_lt (k := k) h, State.complete]
  exact congrArg (fun w : State => Host.Outcome.next (w.settle e)) hstill

theorem easel_settle_other {j k : ℕ} (h : j ≠ k) : (s.settle k).easel j = s.easel j := by
  unfold State.settle
  split
  · exact (State.easel_upd_other _ _ h).trans (State.easel_set ..)
  · rfl

theorem off_PC_ne_STATE (j k : ℕ) : (Fd.SCAN_EASEL_PC_PC j).off ≠ (Fd.SCAN_EASEL_STAT_STATE k).off := by
  simp only [Fd.SCAN_EASEL_PC_PC, Fd.SCAN_EASEL_STAT_STATE]
  omega

theorem off_PC_ne_PC {j k : ℕ} (h : j ≠ k) : (Fd.SCAN_EASEL_PC_PC j).off ≠ (Fd.SCAN_EASEL_PC_PC k).off := by
  simp only [Fd.SCAN_EASEL_PC_PC]
  omega

theorem off_STATE_ne_STATE {j k : ℕ} (h : j ≠ k) : (Fd.SCAN_EASEL_STAT_STATE j).off ≠ (Fd.SCAN_EASEL_STAT_STATE k).off := by
  simp only [Fd.SCAN_EASEL_STAT_STATE]
  omega

/-- The registers that SIGNAL may change where it wakes an easel, all of SCAN. -/
def wakeRegs (e k : Fin 8) : List ℕ := [Fd.SCAN_SIG_SIG.off, (Fd.SCAN_EASEL_PC_PC e).off, (Fd.SCAN_EASEL_STAT_STATE e).off,
  (Fd.SCAN_EASEL_PC_PC k).off, (Fd.SCAN_EASEL_STAT_STATE k).off]

theorem wakeRegs_region {k : Fin 8} : ∀ a ∈ wakeRegs e k, a / 0x200000 ∈ [2] := by decide +revert

theorem get_woken {n k : ℕ} {fd : Field} (hst : fd.off ≠ (Fd.SCAN_EASEL_STAT_STATE k).off) (hpc : fd.off ≠
    (Fd.SCAN_EASEL_PC_PC k).off) :
    (woken e n k s).get fd = (((s.nextPc e).set (Fd.SCAN_SIG_SIG.bit n) 1).set (Fd.SCAN_SIG_SIG.bit n) 0).get fd := by
  rw [woken, State.get_easel_upd, State.get_nextPc hpc, State.get_set_off _ _ hst]

theorem pc_woken {n k : ℕ} (h : k ≠ e) : (woken e n k s).pc k = (s.pc k + 1) % 4096 := by
  rw [State.pc, woken, State.get_easel_upd, ← State.pc, State.pc_nextPc, State.pc, State.get_set_off _ _ (off_PC_ne_STAT k),
    State.get_set_off _ _ (off_SIG_ne_PC n k).symm, State.get_set_off _ _ (off_SIG_ne_PC n k).symm, State.get_nextPc
        (off_PC_ne_PC h)]
  rfl

theorem isRunning_woken {n k : ℕ} : (woken e n k s).isRunning k = true := by
  rw [State.isRunning, woken, State.get_easel_upd, State.get_nextPc (off_PC_ne_STATE k k).symm,
    State.get_set _ _ _ (Nat.zero_le 1) (by simp [Fd.SCAN_EASEL_STAT_STATE])]
  rfl

theorem exec_waitsig_clear (hs : s.runs shWAITSIG e f) (h : s.get (Fd.SCAN_SIG_SIG.bit (xbits f 3 0)) = 0) :
    exec (.waitsig e f) s = .next ((s.waitFor e (.signal (xbits f 3 0))).settle e) := by
  have hb : s.is (Fd.SCAN_SIG_SIG.bit (xbits f 3 0)) = false := beq_eq_false_iff_ne.2 (h.trans_ne Nat.zero_ne_one)
  change execWaitsig e f s = _
  unfold execWaitsig
  rw [instr_of_runs hs rfl]
  dsimp only
  rw [hb]
  rfl

theorem exec_waitsig_set (hs : s.runs shWAITSIG e f) (h : s.get (Fd.SCAN_SIG_SIG.bit (xbits f 3 0)) = 1) :
    exec (.waitsig e f) s = .next (((s.set (Fd.SCAN_SIG_SIG.bit (xbits f 3 0)) 0).nextPc e).settle e) := by
  have hb : s.is (Fd.SCAN_SIG_SIG.bit (xbits f 3 0)) = true := beq_iff_eq.2 h
  change execWaitsig e f s = _
  unfold execWaitsig
  rw [instr_of_runs hs rfl]
  dsimp only
  rw [hb]
  rfl

/-- An easel that waits does not halt, stepped or not. -/
theorem settle_waiting (h : s.isWaiting e = true) : s.settle e = s := by
  unfold State.settle
  rw [h, Bool.not_true, Bool.and_false, if_neg Bool.false_ne_true]

theorem isWaiting_waitFor (w : Wait) : (s.waitFor e w).isWaiting e = true := by
  simp [State.waitFor, State.isWaiting, State.get_set, Fd.SCAN_EASEL_STAT_STATE]

/-! ## The semaphores -/

theorem off_SEM_ne_PC (i : ℕ) (hi : i < 8) : (Fd.SCAN_SEM_COUNT i).off ≠ (Fd.SCAN_EASEL_PC_PC e).off := by
  simp only [Fd.SCAN_SEM_COUNT, Fd.SCAN_EASEL_PC_PC]
  omega

theorem off_SEM_ne_STAT (i : ℕ) (hi : i < 8) : (Fd.SCAN_SEM_COUNT i).off ≠ (Fd.SCAN_EASEL_STAT_STATE e).off := by
  simp only [Fd.SCAN_SEM_COUNT, Fd.SCAN_EASEL_STAT_STATE]
  omega

theorem sem_lt : xbits f 2 0 < 8 := xbits_lt f 2 0

theorem get_sem (i : ℕ) (v : ℕ) (h : v < 256) : (s.set (Fd.SCAN_SEM_COUNT i) v).get (Fd.SCAN_SEM_COUNT i) = v :=
  (State.get_set s _ v (Nat.zero_le 7) (by simp [Fd.SCAN_SEM_COUNT])).trans (Nat.mod_eq_of_lt h)

theorem get_sem_lt (i : ℕ) : s.get (Fd.SCAN_SEM_COUNT i) < 256 := Io.get_lt _ _

theorem off_SEM_ne_PRED (i : ℕ) (hi : i < 8) : (Fd.SCAN_SEM_COUNT i).off ≠ (Fd.SCAN_EASEL_PRED_P e).off := by
  simp only [Fd.SCAN_SEM_COUNT, Fd.SCAN_EASEL_PRED_P]
  omega

/-- The fields that an instruction's end leaves: PC moves on and a stepped easel halts. -/
theorem get_advance {fd : Field} (hpc : fd.off ≠ (Fd.SCAN_EASEL_PC_PC e).off) (hst : fd.off ≠ (Fd.SCAN_EASEL_STAT_STATE
    e).off) :
    ((s.nextPc e).settle e).get fd = s.get fd := (State.get_settle hst).trans (State.get_nextPc hpc)

theorem exec_semaphore_up (hs : s.runs shSEMAPHORE e f) (h1 : xbits f 32 32 = 1) (hp : pdOf f = 0) :
    exec (.semaphore e f) s = .next (((s.set (Fd.SCAN_SEM_COUNT (xbits f 2 0))
      (min (s.get (Fd.SCAN_SEM_COUNT (xbits f 2 0)) + 1) 255)).nextPc e).settle e) := by
  change execSemaphore e f s = _
  unfold execSemaphore
  rw [instr_of_runs hs (by simp [hp])]
  dsimp only
  rw [if_pos h1]

theorem exec_semaphore_down (hs : s.runs shSEMAPHORE e f) (h0 : xbits f 32 32 = 0)
    (hn : s.get (Fd.SCAN_SEM_COUNT (xbits f 2 0)) ≠ 0) : exec (.semaphore e f) s =
      .next ((((s.set (Fd.SCAN_SEM_COUNT (xbits f 2 0)) (s.get (Fd.SCAN_SEM_COUNT (xbits f 2 0)) - 1)).setP e (pdOf f)
          true).nextPc e).settle e) := by
  change execSemaphore e f s = _
  unfold execSemaphore
  rw [instr_of_runs hs (by simp [h0])]
  dsimp only
  rw [if_neg (h0.trans_ne Nat.zero_ne_one), if_neg hn]

theorem exec_semaphore_zero (hs : s.runs shSEMAPHORE e f) (h0 : xbits f 32 32 = 0)
    (hn : s.get (Fd.SCAN_SEM_COUNT (xbits f 2 0)) = 0) : exec (.semaphore e f) s =
      .next (((s.setP e (pdOf f) false).nextPc e).settle e) := by
  change execSemaphore e f s = _
  unfold execSemaphore
  rw [instr_of_runs hs (by simp [h0])]
  dsimp only
  rw [if_neg (h0.trans_ne Nat.zero_ne_one), if_pos hn]

/-- The registers that SEMAPHORE may change, all of SCAN. -/
def semRegs (e : Fin 8) (i : ℕ) : List ℕ :=
  [(Fd.SCAN_SEM_COUNT i).off, (Fd.SCAN_EASEL_PRED_P e).off, (Fd.SCAN_EASEL_PC_PC e).off, (Fd.SCAN_EASEL_STAT_STATE e).off]

theorem semRegs_region {i : ℕ} (hi : i < 8) : ∀ a ∈ semRegs e i, a / 0x200000 ∈ [2] := by
  simp only [semRegs, List.mem_cons, List.not_mem_nil, or_false, forall_eq_or_imp, forall_eq, Fd.SCAN_SEM_COUNT,
    Fd.SCAN_EASEL_PRED_P, Fd.SCAN_EASEL_PC_PC, Fd.SCAN_EASEL_STAT_STATE]
  omega

theorem settle_halted : (((s.halt e).haltIrq e).settle e) = (s.halt e).haltIrq e := by
  unfold State.settle
  rw [EaselControl.easel_haltIrq, State.halt, State.easel_upd_same, Bool.false_and, if_neg Bool.false_ne_true]

/-! ## The published allowance -/

/-- The allowance that LEDGER reads. -/
def allowance (e : Fin 8) (f : Fields) (s : State) : ℕ :=
  s.get (Fd.SCAN_LEDG_REMAIN_CU (bitsOf (s.g e f.a.toNat) 9 8) (bitsOf (s.g e f.a.toNat) 5 0))

theorem exec_ledger (hs : s.runs shLEDGER e f) (h : bitsOf (s.g e f.a.toNat) 9 8 ≠ 3) : exec (.ledger e f) s =
    .next ((((s.setG e f.d.toNat (BitVec.ofNat 32 (allowance e f s))).setP e (pdOf f)
      (!(BitVec.ofNat 32 (allowance e f s)).ult (s.opB e f))).nextPc e).settle e) := by
  change execLedger e f s = _
  unfold execLedger
  rw [instr_of_runs hs (by simpa using h)]
  rfl

theorem toNat_allowance : (BitVec.ofNat 32 (allowance e f s)).toNat = allowance e f s :=
  (BitVec.toNat_ofNat ..).trans (Nat.mod_eq_of_lt (Io.get_lt _ _))

theorem not_ult_allowance (b : Word) : (!(BitVec.ofNat 32 (allowance e f s)).ult b) = decide (b.toNat ≤ allowance e f s) := by
  rw [BitVec.ult, toNat_allowance, ← decide_not, decide_eq_decide, Nat.not_lt]

theorem off_G_ne_PRED {i : ℕ} (hi : i < 32) : (Fd.SCAN_EASEL_G_G e i).off ≠ (Fd.SCAN_EASEL_PRED_P e).off := by
  simp only [Fd.SCAN_EASEL_G_G, Fd.SCAN_EASEL_PRED_P]
  omega

theorem exec_yield (hs : s.runs shYIELD e f) : exec (.yield e f) s = .next ((s.nextPc e).settle e) :=
  instr_of_runs (range := anyRange) hs rfl fun s => s.nextPc e

theorem exec_halt (hs : s.runs shHALT e f) : exec (.halt e f) s = .next ((((s.nextPc e).halt e).haltIrq e).settle e) :=
  instr_of_runs (range := anyRange) hs rfl fun s => ((s.nextPc e).halt e).haltIrq e

/-! ## The statement -/

/-- Settles O15: the branch that each command takes, and the fields that it leaves behind. -/
theorem synchronisationComplete : Obligations.SynchronisationComplete := by
  unfold Obligations.SynchronisationComplete
  refine ⟨?set, ?wake, ?wait, ?use, ?up, ?down, ?zero, ?ledger, ?yield, ?halt⟩
  case set =>
    intro e f s hs hnone
    have hset : (s.nextPc e).setSig (xbits f 3 0) = (s.nextPc e).set (Fd.SCAN_SIG_SIG.bit (xbits f 3 0)) 1 :=
      setSig_unawaited hnone
    refine ⟨_, (exec_signal hs).trans (by rw [hset]), ?_, ?_, ?_, ?_⟩
    · exact (((s.within_refl _).nextPc _).set _ _).settle _
    · exact (((s.onlyRegs_refl _).nextPc _).set _ _ (by simp [Field.bit])).settle _
    · exact (get_settle_signal ..).trans (signal_bit _ sig_lt _ 1 (by decide))
    · rw [State.pc_settle, State.pc, State.get_set_off _ _ (off_SIG_ne_PC _ _).symm]
      exact State.pc_nextPc
  case wake =>
    intro e k f s hs hke hstep hfind
    have hne : (k : ℕ) ≠ e := fun h => hke (Fin.ext h)
    refine ⟨_, exec_signal_awaited hs hstep hfind, ?_, ?_, ?_, ?_, ?_, ?_, ?_⟩
    · exact (((((((s.within_refl _).nextPc _).set _ _).set _ _).set _ _).nextPc _).easel_upd _ _).settle _
    · refine State.onlyRegs.regions (rs := wakeRegs e k) ?_ wakeRegs_region
      refine State.onlyRegs.settle (State.onlyRegs.easel_upd ?_ _ _) _ (by simp [wakeRegs])
      exact (((((s.onlyRegs_refl _).nextPc _ (by simp [wakeRegs])).set _ _ (by simp [wakeRegs, Field.bit])).set _ _
        (by simp [wakeRegs, Field.bit])).set _ _ (by simp [wakeRegs])).nextPc _ (by simp [wakeRegs])
    · rw [get_settle_signal, get_woken (off_SIG_ne_STAT _ _) (off_SIG_ne_PC _ _)]
      exact signal_bit _ sig_lt _ 0 (by decide)
    · rw [State.pc_settle, State.pc, get_woken (off_PC_ne_STATE _ _) (off_PC_ne_PC hne.symm),
        State.get_set_off _ _ (off_SIG_ne_PC _ _).symm, State.get_set_off _ _ (off_SIG_ne_PC _ _).symm]
      exact State.pc_nextPc
    · rw [easel_settle_other hne, woken, State.easel_upd_same]
    · rw [State.isRunning, State.get_settle (off_STATE_ne_STATE hne)]
      exact isRunning_woken
    · rw [State.pc, State.get_settle (off_PC_ne_STATE _ _)]
      exact pc_woken hne
  case wait =>
    intro e f s hs h0
    have hw := isWaiting_waitFor (s := s) (e := e) (.signal (xbits f 3 0))
    refine ⟨_, (exec_waitsig_clear hs h0).trans (by rw [settle_waiting hw]), ?_, ?_, hw, ?_⟩
    · exact ((s.easelFrame_refl _).set (by simp) _).easel_upd e _
    · rw [State.waitFor, State.easel_upd_same]
    · exact State.get_set_off s 2 (off_PC_ne_STAT e)
  case use =>
    intro e f s hs h1
    refine ⟨_, exec_waitsig_set hs h1, ?_, ?_, ?_, ?_⟩
    · exact (((s.within_refl _).set _ _).nextPc _).settle _
    · exact (((s.onlyRegs_refl _).set _ _ (by simp [Field.bit])).nextPc _).settle _
    · exact (get_advance (off_SIG_ne_PC _ _) (off_SIG_ne_STAT _ _)).trans (signal_bit _ sig_lt _ 0 (by decide))
    · rw [State.pc_settle, State.pc_nextPc, State.pc, State.get_set_off _ _ (off_SIG_ne_PC _ _).symm]
      rfl
  case up =>
    intro e f s hs h1 hp
    refine ⟨_, exec_semaphore_up hs h1 hp, ?_, ?_, ?_, ?_⟩
    · exact (((s.within_refl _).set _ _).nextPc _).settle _
    · refine State.onlyRegs.regions (rs := semRegs e (xbits f 2 0)) ?_ (semRegs_region sem_lt)
      exact (((s.onlyRegs_refl _).set _ _ (by simp [semRegs])).nextPc _ (by simp [semRegs])).settle _ (by simp [semRegs])
    · rw [State.pc_settle, State.pc_nextPc, State.pc, State.get_set_off _ _ (off_SEM_ne_PC _ sem_lt).symm]
      rfl
    · exact (get_advance (off_SEM_ne_PC _ sem_lt) (off_SEM_ne_STAT _ sem_lt)).trans (get_sem _ _ (by omega))
  case down =>
    intro e f s hs h0 hn
    refine ⟨_, exec_semaphore_down hs h0 hn, ?_, ?_, ?_, ?_, ?_⟩
    · exact ((((s.within_refl _).set _ _).setP _ _ _).nextPc _).settle _
    · refine State.onlyRegs.regions (rs := semRegs e (xbits f 2 0)) ?_ (semRegs_region sem_lt)
      exact ((((s.onlyRegs_refl _).set _ _ (by simp [semRegs])).setP _ _ _ (by simp [semRegs])).nextPc _
        (by simp [semRegs])).settle _ (by simp [semRegs])
    · rw [State.pc_settle, State.pc_nextPc, State.pc_setP, State.pc, State.get_set_off _ _ (off_SEM_ne_PC _ sem_lt).symm]
      rfl
    · rw [State.p_settle, State.p_nextPc, State.p_setP_same (pdOf_lt f), Bool.or_true]
    · refine (get_advance (off_SEM_ne_PC _ sem_lt) (off_SEM_ne_STAT _ sem_lt)).trans ?_
      exact (State.get_setP_off _ _ _ (off_SEM_ne_PRED _ sem_lt)).trans (get_sem _ _ (by
        have := get_sem_lt (s := s) (xbits f 2 0)
        omega))
  case zero =>
    intro e f s hs h0 hn
    exact ⟨_, exec_semaphore_zero hs h0 hn, EaselBranches.easelFrame_predicate _ _, EaselBranches.pc_predicate _ _,
      (EaselBranches.p_result _ (pdOf_lt f) _).trans (Bool.or_false _)⟩
  case ledger =>
    intro e f s hs h3
    refine ⟨_, exec_ledger hs h3, ?_, ?_, ?_, ?_⟩
    · rw [State.pc_settle, State.pc_nextPc, State.pc_setP, State.pc_setG]
    · exact ((((s.easelFrame_refl _).setG (by simp) _).setP (by simp) _ _).nextPc (by simp)).settle (by simp)
    · rw [State.p_settle, State.p_nextPc, State.p_setP_same (pdOf_lt f), not_ult_allowance]
      rfl
    · rw [State.g_settle, State.g_nextPc, State.g_congr (State.get_setP_off _ _ _ (off_G_ne_PRED f.d.isLt)), State.g_setG_same,
        apply_ite BitVec.toNat, toNat_allowance]
      exact if_congr (BitVec.toNat_inj (y := 0)) rfl rfl
  case yield =>
    intro e f s hs
    exact ⟨_, exec_yield hs, by rw [State.pc_settle, State.pc_nextPc],
      ((s.easelFrame_refl _).nextPc (by simp)).settle (by simp)⟩
  case halt =>
    intro e f s hs
    have hstill : (((s.nextPc e).halt e).haltIrq e).settle e = ((s.nextPc e).halt e).haltIrq e := settle_halted
    refine ⟨_, (exec_halt hs).trans (by rw [hstill]), ?_, ?_, EaselControl.isHalted_halted _ e, ?_, ?_⟩
    · exact (((s.within_refl _).nextPc _).halt _).onlyIf ((((s.within_refl _).nextPc _).halt _).irq _)
    · exact (((s.onlyRegs_refl _).nextPc _).halt _).onlyIf ((((s.onlyRegs_refl _).nextPc _).halt _).irq _)
    · rw [State.pc, EaselControl.get_haltIrq _ (EaselControl.pc_steady e)]
      exact (State.get_set_off _ 0 (off_PC_ne_STAT e)).trans State.pc_nextPc
    · rw [EaselControl.easel_haltIrq, State.halt, State.easel_upd_same]

end Sys2Proof.Machine.EaselSync
end

section
/-!
SUPPORT. The frame `within` for the lanes and tile ports: what sends, wakes or retrains changes the shared record and that
    of the links,
and, where an eye scan is broken off, the capture's.
-/
namespace Sys2Proof.Machine

variable {s t : State} {u : List Part}

theorem State.within.lane_upd (h : s.within u t) (l : ℕ) (f : Lane → Lane) (k : .lnk ∈ u := by decide) :
    s.within u (t.lane' l f) := h.lnk_upd _ k
theorem State.within.port_upd (h : s.within u t) (n : ℕ) (f : TilePort → TilePort) (k : .lnk ∈ u := by decide) :
    s.within u (t.port' n f) := h.lnk_upd _ k
theorem State.within.setLane (h : s.within u t) (l n : ℕ) (k : .io ∈ u := by decide) : s.within u (t.setLane l n) :=
    h.io_upd _ k
theorem State.within.setFrozen (h : s.within u t) (l : ℕ) (b : Bool) (k : .io ∈ u := by decide) :
    s.within u (t.setFrozen l b) := h.io_upd _ k
theorem State.within.stageDone (h : s.within u t) (n : ℕ) (k : .io ∈ u := by decide) : s.within u (t.stageDone n) :=
    h.io_upd _ k

theorem State.within.drawWord (h : s.within u t) (k : .io ∈ u := by decide) : s.within u t.drawWord.2 := h.io_upd _ k

section
variable (h : s.within u t) (k : .io ∈ u := by decide) (l : .lnk ∈ u := by decide)
include h k l

theorem State.within.fillIdle (n : ℕ) : s.within u (t.fillIdle n) := by
  unfold State.fillIdle
  split
  · exact h
  · exact (((h.drawWord k).drawWord k).emit _ k).lane_upd _ _ l

theorem State.within.preamble (n : ℕ) (b : Bool) : s.within u (t.preamble n b) := by
  unfold State.preamble
  split
  · exact h
  · exact (h.emit _ k).lane_upd _ _ l

theorem State.within.txBlocks (n : ℕ) (bs : List (ℕ × Wide)) : s.within u (t.txBlocks n bs) := by
  unfold State.txBlocks
  split
  · exact h
  · exact ((h.fillIdle k l n).emit _ k).lane_upd _ _ l

theorem State.within.txPeriod (n : ℕ) (bs : List (ℕ × Wide)) : s.within u (t.txPeriod n bs) := by
  unfold State.txPeriod
  dsimp only
  split
  · exact h
  · exact (foldl_keeps (fun w : State => s.within u w) _ (fun w x hw => hw.txBlocks k l _ _) _ t h).port_upd _ _ l

theorem State.within.sendMarker (n : ℕ) : s.within u (t.sendMarker n) :=
  (((h.each fun _ _ hw => hw.txBlocks k l _ _).set _ _ k).emit _ k).port_upd _ _ l

theorem State.within.txStream (n : ℕ) (bs : List (ℕ × Wide)) : s.within u (t.txStream n bs) := by
  unfold State.txStream
  dsimp only
  split
  · exact h.txPeriod k l _ _
  · exact ((h.txPeriod k l _ _).sendMarker k l _).txPeriod k l _ _

theorem State.within.sendTile (n mtype hdata : ℕ) (p : List Wide) : s.within u (t.sendTile n mtype hdata p) :=
  ((h.txStream k l _ _).emit _ k).port_upd _ _ l

theorem State.within.sendSleep (n allow : ℕ) : s.within u (t.sendSleep n allow) := by
  unfold State.sendSleep
  split
  · exact (h.sendTile k l _ _ _ _).port_upd _ _ l
  · exact h

theorem State.within.sleepNow (n : ℕ) : s.within u (t.sleepNow n) := h.sendSleep k l _ _

theorem State.within.enterPhase (n : ℕ) : s.within u (t.enterPhase n) := ((h.set _ _ k).set _ _ k).port_upd _ _ l

theorem State.within.txWake (n : ℕ) : s.within u (t.txWake n) := by
  have hw := (((h.set (Fd.LNK_LANE_STAT_TX_IDLE n) 0 k).emit (.txIdle n false) k).lane_upd n
    (fun x => { x with idleFrom := none }) l).preamble k l n (t.lane n).enable
  unfold State.txWake
  dsimp only
  split
  · exact hw.enterPhase k l _
  · exact hw

theorem State.within.startValues (n : ℕ) : s.within u (t.startValues n) :=
  ((((((h.set _ _ k).set _ _ k).set _ _ k).set _ _ k).set _ _ k).set _ _ k).lane_upd _ _ l

theorem State.within.holdCtle (n : ℕ) : s.within u (t.holdCtle n) := by
  unfold State.holdCtle
  split
  · exact h
  · exact (h.set _ _ k).lane_upd _ _ l

theorem State.within.portOff (n : ℕ) : s.within u (t.portOff n) :=
  (((((h.set _ _ k).set _ _ k).set _ _ k).set _ _ k).set _ _ k).port_upd _ _ l

theorem State.within.keepClock (n : ℕ) : s.within u (t.keepClock n) := by
  unfold State.keepClock
  split
  · exact h.onlyIf (h.txWake k l _)
  · exact h

end

theorem State.within.setGen (h : s.within u t) (n g : ℕ) (k : .io ∈ u := by decide) : s.within u (t.setGen n g) :=
  h.each fun _ _ hw => hw.set _ _ k

theorem State.within.showBringUp (h : s.within u t) (k : .io ∈ u := by decide) : s.within u t.showBringUp :=
  h.onlyIf (h.stageDone _ k)

/-! ## What an eye scan leaves with the capture -/

theorem State.within.capGap (h : s.within u t) (k : .io ∈ u := by decide) (m : .memc ∈ u := by decide) : s.within u t.capGap :=
  (h.set _ _ k).memc_upd _ m

theorem State.within.intoFifo (h : s.within u t) (x : Sample) (k : .io ∈ u := by decide) (m : .memc ∈ u := by decide) :
    s.within u (t.intoFifo x) := by
  unfold State.intoFifo
  split
  · exact h.capGap k m
  · exact h.memc_upd _ m

theorem State.within.taps (h : s.within u t) (n : ℕ) (b : Bool) (xs : List Sample) (k : .io ∈ u := by decide)
    (m : .memc ∈ u := by decide) : s.within u (t.taps n b xs) := by
  unfold State.taps
  split
  · exact h.each fun _ _ hw => hw.intoFifo _ k m
  · exact h

theorem State.within.tapEye (h : s.within u t) (n e : ℕ) (b : Bool) (k : .io ∈ u := by decide) (m : .memc ∈ u := by decide) :
    s.within u (t.tapEye n e b) := h.taps _ _ _ k m

theorem State.within.leaveLock (h : s.within u t) (n : ℕ) (k : .io ∈ u := by decide) (m : .memc ∈ u := by decide) :
    s.within u (t.leaveLock n) :=
  (h.set _ _ k).onlyIf ((((h.set _ _ k).set _ _ k).set _ _ k).tapEye _ _ _ k m)

theorem State.within.retrain (h : s.within u t) (n : ℕ) (k : .io ∈ u := by decide) (l : .lnk ∈ u := by decide)
    (m : .memc ∈ u := by decide) : s.within u (t.retrain n) :=
  ((((((h.leaveLock n k m).startValues k l n).setLane _ _ k).set _ _ k).set _ _ k).lane_upd _ _ l).setFrozen _ _ k

theorem State.within.enterLanes (h : s.within u t) (n : ℕ) (k : .io ∈ u := by decide) (l : .lnk ∈ u := by decide)
    (m : .memc ∈ u := by decide) : s.within u (t.enterLanes n) := by
  have hr : s.within u (t.each (t.rxLanes n) State.retrain) := h.each fun _ _ hw => hw.retrain _ k l m
  exact (((((((hr.setGen n 1 k).set _ _ k).set _ _ k).set _ _ k).set _ _ k).set _ _ k).set _ _ k).port_upd _ _ l

end Sys2Proof.Machine
end

section
/-!
PROOF. Proof, commit and varnish (R40 to R48): a varnish that turns a receiver off ends its eye scan, and the capture takes
    the sample
that tells so.
-/
-- One thread for the lemmas: a thread for each would ask for more memory than a build may have.
set_option Elab.async false

namespace Sys2Proof.Machine.VarnishTap

variable {s t : State}

/-! ## A sample that the capture holds stays with it -/

/-- The capture FIFO holds a sample. -/
def Tapped (s : State) : Prop := s.memc.fifo ≠ []

theorem Tapped.of_within {u : List Part} (h : Tapped s) (k : s.within u t) (hu : .memc ∉ u := by decide) : Tapped t := by
  obtain ⟨-, -, -, -, -, -, -, -, -, -, hmemc, -⟩ := k
  rw [Tapped, hmemc hu]
  exact h

theorem Tapped.intoFifo (h : Tapped s) (x : Sample) : Tapped (s.intoFifo x) := by
  unfold State.intoFifo
  split
  · rw [Tapped, State.capGap, State.memc_upd_memc, State.set_memc]
    exact h
  · exact List.append_ne_nil_of_right_ne_nil _ (List.cons_ne_nil _ _)

theorem Tapped.each {α : Type} {l : List α} {f : α → State → State} (h : Tapped s) (k : ∀ x w, Tapped w → Tapped (f x w)) :
    Tapped (s.each l f) := foldl_keeps Tapped _ (fun w x => k x w) l s h

theorem Tapped.onlyIf {b : Bool} {f : State → State} (h : Tapped s) (k : Tapped (f s)) : Tapped (s.onlyIf b f) := by
  unfold State.onlyIf
  split
  · exact k
  · exact h

theorem Tapped.taps (h : Tapped s) (n : ℕ) (b : Bool) (xs : List Sample) : Tapped (s.taps n b xs) := by
  unfold State.taps
  split
  · exact h.each fun _ _ hw => hw.intoFifo _
  · exact h

theorem Tapped.set (h : Tapped s) (f : Field) (n : ℕ) : Tapped (s.set f n) := h.of_within ((s.within_refl [.io]).set f n)

theorem Tapped.leaveLock (h : Tapped s) (l : ℕ) : Tapped (s.leaveLock l) :=
  (h.set _ _).onlyIf ((((h.set _ _).set _ _).set _ _).taps _ _ _)

theorem Tapped.retrain (h : Tapped s) (l : ℕ) : Tapped (s.retrain l) :=
  (h.leaveLock l).of_within (((((((State.within_refl _ [.io, .lnk]).startValues (n := l)).setLane _ _).set _ _).set _
      _).lane_upd _ _).setFrozen _ _)

theorem Tapped.enterLanes (h : Tapped s) (n : ℕ) : Tapped (s.enterLanes n) :=
  (h.each (l := s.rxLanes n) fun l _ hw => hw.retrain l).of_within
    ((((((((State.within_refl _ [.io, .lnk]).setGen n 1).set _ _).set _ _).set _ _).set _ _).set _ _).set _ _ |>.port_upd _ _)

/-! ## The lanes and ports at the varnish tick -/

theorem Tapped.varnishRx (h : Tapped s) (s0 : State) (l : ℕ) : Tapped (State.varnishRx s0 l s) := by
  unfold State.varnishRx
  dsimp only
  split
  · exact h
  · split
    · exact (h.retrain l).set _ _
    · exact (h.leaveLock l).set _ _

theorem Tapped.varnishTx (h : Tapped s) (s0 : State) (l : ℕ) : Tapped (State.varnishTx s0 l s) := by
  have hw := State.within_refl s [.io, .lnk]
  have hs := ((hw.onlyIf (b := s0.drives l) (hw.fillIdle (n := l))).set (Fd.LNK_LANE_STAT_TX_IDLE l) 0).lane_upd l
    fun x => { x with idleFrom := none, txAt := none, enable := false }
  unfold State.varnishTx
  dsimp only
  split
  · exact h
  · exact h.of_within (hs.onlyIf (hs.preamble (n := l) (b := true)))

theorem Tapped.varnishTest (h : Tapped s) (s0 : State) (l : ℕ) : Tapped (State.varnishTest s0 l s) := by
  have hw := State.within_refl s [.io, .lnk]
  unfold State.varnishTest
  dsimp only
  split
  · exact h
  · exact h.of_within ((hw.onlyIf (hw.fillIdle (n := l))).emit _)

theorem Tapped.varnishGen (h : Tapped s) (s0 : State) (l : ℕ) : Tapped (State.varnishGen s0 l s) := by
  unfold State.varnishGen
  dsimp only
  split
  · exact h
  · exact h.set _ _

theorem Tapped.after_varnishRx (h : Tapped s) (s0 : State) (l : ℕ) :
    Tapped ((State.varnishTest s0 l (State.varnishTx s0 l s)).holdCtle l) :=
  ((h.varnishTx s0 l).varnishTest s0 l).of_within ((State.within_refl _ [.io, .lnk]).holdCtle (n := l))

theorem Tapped.varnishLane (h : Tapped s) (s0 : State) (l : ℕ) : Tapped (State.varnishLane s0 l s) :=
  ((h.varnishGen s0 l).varnishRx s0 l).after_varnishRx s0 l

theorem Tapped.varnishTile (h : Tapped s) (s0 : State) (n : ℕ) : Tapped (State.varnishTile s0 n s) := by
  have hw := State.within_refl s [.io, .lnk]
  unfold State.varnishTile
  dsimp only
  split
  · split
    · exact h
    · exact h.of_within (hw.sleepNow (n := n))
  · split
    · exact h.of_within (hw.portOff (n := n))
    · split
      · exact h
      · split
        · exact (h.of_within (hw.port_upd _ _)).enterLanes n
        · exact h

/-- Where the first lane's eye scan is broken off, the capture has the sample after all lanes and ports. -/
theorem tapped_varnishLnk {s0 : State} (h : Tapped (State.varnishLane s0 0 s)) : Tapped (State.varnishLnk s0 s) := by
  have hlanes : Tapped (s.each (List.range 128) (State.varnishLane s0)) := by
    have hrange : List.range 128 = 0 :: (List.range 127).map Nat.succ := List.range_succ_eq_map
    rw [hrange, State.each, List.foldl_cons]
    exact foldl_keeps Tapped _ (fun w l hw => hw.varnishLane s0 l) _ _ h
  have htiles := hlanes.each (l := List.range 32) fun n _ hw => hw.varnishTile s0 n
  have hclock := htiles.each (l := List.range 32) (f := State.keepClock) fun n w hw =>
    hw.of_within ((w.within_refl [.io, .lnk]).keepClock (n := n))
  exact hclock.of_within ((State.within_refl _ [.io]).showBringUp)

/-! ## A receiver that is turned off while its eye is scanned -/

/-- Lane 0 receives and its eye is scanned for an armed capture; the commit that is FIXED turns the receiver off.  All regions but the
lane's restart, and keep their settings. -/
def eyed : State :=
  (((({ tbas := { running := true }, chip := { phase := 2 }
        memc := { cap := [(Fd.MEMC_CAP_SRC_STREAM.off, 5)] } } : State).set (Fd.LNK_LANE_CTL_RX_EN 0) 1).set
    (Fd.LNK_LANE_ES_STAT_BUSY 0) 1).set Fd.MEMC_CAP_STAT_STATE 1).put Fd.CHIP_RESTARTING_MASK.off 0x7FFEF

/-- The regions whose settings the varnish leaves. -/
def held : List ℕ := (List.range 19).filter fun r => eyed.restarting r

/-- The state in which the lanes meet their new settings. -/
def renewed : State := eyed.bringIn eyed.varnishTick (eyed.replaced fun r => !held.contains r)

theorem tapped_lane : Tapped (State.varnishLane eyed 0 renewed) := by
  unfold Tapped
  decide +kernel

/-- The regions that restart take none of the new settings. -/
theorem applyShadow_eyed : eyed.applyShadow (fun r => !held.contains r) eyed.varnishTick =
    State.varnishHst (State.varnishLnk eyed renewed) := by
  obtain ⟨h1, h2, h3, h12, h15, h18, hlnk⟩ : (!held.contains 1) = false ∧ (!held.contains 2) = false ∧ (!held.contains 3) =
      false ∧
      (!held.contains 12) = false ∧ (!held.contains 15) = false ∧ (!held.contains 18) = false ∧
      ([4, 5, 6, 7].any fun r => !held.contains r) = true := by decide +kernel
  unfold State.applyShadow
  simp only [h1, h2, h3, h12, h15, h18, hlnk, State.onlyIf, if_true, Bool.false_eq_true, if_false]
  rw [renewed]

theorem tapped_applyShadow : Tapped (eyed.applyShadow (fun r => !held.contains r) eyed.varnishTick) := by
  rw [applyShadow_eyed]
  exact (tapped_varnishLnk tapped_lane).of_within ((State.within_refl _ [.io]).each fun _ _ hw => hw.set _ _)

theorem within_showPend (h : s.within [.io, .chip, .secu] t) : s.within [.io, .chip, .secu] t.showPend := by
  unfold State.showPend
  exact foldl_keeps (fun w : State => s.within [.io, .chip, .secu] w) _ (fun w n hw => hw.setBit _ _) _ t h

/-- A tick that has passed is not waited for. -/
theorem reach_passed {w : Wide} (h : before s.io.tick w = false) : s.reach w = s := by
  unfold State.reach State.io'
  dsimp only
  rw [if_neg (by rw [h]; exact Bool.false_ne_true)]

theorem reach_eyed : eyed.reach eyed.varnishTick = eyed := reach_passed (by decide +kernel)

theorem tapped_varnish : Tapped (eyed.varnish eyed.varnishTick) :=
  tapped_applyShadow.of_within (within_showPend ((((State.within_refl _ _).chip_upd _).set _ _).secu_upd _ |>.io_upd _))

theorem exec_varnish_eyed : exec .varnish eyed = .next (eyed.varnish eyed.varnishTick) := by
  have hdue : (eyed.commitFixed && eyed.tbas.running && eyed.inCount eyed.varnishTick) = true := by decide +kernel
  change execVarnish eyed = _
  unfold execVarnish
  rw [if_pos hdue, reach_eyed, ok]

/-- Refutes O2: a varnish that turns a receiver off ends the scan of its eye, and the sample that the scan was broken off for goes to
the capture's FIFO, which is MEMC's. -/
theorem not_proofAndCommitComplete : ¬ Obligations.ProofAndCommitComplete := by
  unfold Obligations.ProofAndCommitComplete
  rintro ⟨-, -, -, -, -, -, -, hvarnish, -⟩
  obtain ⟨hfixed, hrun, hcount⟩ : eyed.commitFixed = true ∧ eyed.tbas.running = true ∧ eyed.inCount eyed.varnishTick = true
      := by
    decide +kernel
  obtain ⟨t, hnext, hwithin, -⟩ := hvarnish eyed hfixed hrun hcount
  have ht : eyed.varnish eyed.varnishTick = t := Host.Outcome.next.inj (exec_varnish_eyed.symm.trans hnext)
  have htapped := tapped_varnish
  rw [ht] at htapped
  obtain ⟨-, -, -, -, -, -, -, -, -, -, hmemc, -⟩ := hwithin
  have hempty : eyed.memc.fifo = [] := by decide +kernel
  exact htapped ((congrArg Memc.fifo (hmemc (by decide))).trans hempty)

end Sys2Proof.Machine.VarnishTap
end

section
/-!
PROOF. The receivers (R173 to R194): a lane whose loop takes its blocks from a transmitter that sends nothing.
-/
namespace Sys2Proof.Machine.LoopedReceiver

/-- Lane 0 is LOCKED and looped back to its own transmitter, which is not enabled. -/
def looped : State := (({} : State).set (Fd.LNK_LANE_STAT_STATE 0) lnLOCKED).set (Fd.LNK_LANE_CTL_LOOP 0) 1

/-- A lane at whose receiver no block is does nothing. -/
theorem exec_blockReceive_of_none {l : Fin 128} {hdr : BitVec 2} {payload : Wide} {s : State}
    (h : s.atReceiver l hdr payload = none) : exec (.blockReceive l hdr payload) s = .next s := by
  change execBlockReceive l hdr payload s = _
  unfold execBlockReceive
  dsimp only
  rw [h]
  exact ite_self _

theorem blockReceive_looped : exec (.blockReceive 0 2 0) looped = .next looped := exec_blockReceive_of_none rfl

/-- Refutes O22: such a lane has no block at its receiver, and so counts none, whatever comes in on its pins. -/
theorem not_receiversComplete : ¬ Obligations.ReceiversComplete := by
  unfold Obligations.ReceiversComplete
  rintro ⟨-, hlocked, -⟩
  obtain ⟨t, hnext, -, -, hcount, -⟩ := hlocked 0 2 0 looped (by decide) (by decide) (by decide)
  have ht : looped = t := Host.Outcome.next.inj (blockReceive_looped.symm.trans hnext)
  rw [← ht] at hcount
  exact absurd hcount (by decide)

end Sys2Proof.Machine.LoopedReceiver
end

section
/-!
PROOF. How a statement is refuted on a concrete state: what a command leaves behind there, and the parts of the state that
`within` says it leaves as they were.
-/
namespace Sys2Proof.Machine

/-- The state after a command; the state before it where the command is a fault or is refused. -/
def State.after (s : State) (i : Instr) : State :=
  match exec i s with
  | .next t => t
  | .fault _ => s
  | .refused _ => s

theorem State.after_of_next {i : Instr} {s t : State} (h : exec i s = .next t) : s.after i = t := by
  unfold State.after
  rw [h]

/-- A part that `within` does not name is as it was. -/
theorem State.within.same {u : List Part} {s t : State} (h : s.within u t) (p : Part) (hp : p ∉ u) : s.samePart t p :=
  (State.within_iff.mp h).2 p hp

end Sys2Proof.Machine
end

section
/-!
PROOF. The start-up (R71, R333): the start of the count forgets the capture's last sample, which MEMC keeps.
-/
-- One thread for the lemmas: a thread for each would ask for more memory than a build may have.
set_option Elab.async false

namespace Sys2Proof.Machine.CountStart

/-- The start-up has reached stage 5 while the capture's trigger waits for a sample that has been missed. -/
def missed : State :=
  { (({} : State).set (Fd.CHIP_BOOT_STAT_DONE.bit 4) 1) with memc := { hit := .missed } }

/-- Refutes O48: TB_START starts the count from 0, and with it the trigger waits for nothing: MEMC changes. -/
theorem not_startUpCompletes : ¬ Obligations.StartUpCompletes := by
  unfold Obligations.StartUpCompletes
  rintro ⟨-, -, -, -, -, -, -, -, -, -, -, -, -, -, -, hstart⟩
  obtain ⟨t, hnext, hwithin, -⟩ := hstart missed (by decide +kernel) (by decide +kernel) rfl rfl rfl
  have hsame : t.memc = _ := hwithin.same .memc (by decide)
  have hhit : (missed.after .tbStart).memc.hit = missed.memc.hit := by
    rw [State.after_of_next hnext, hsame]
  exact absurd hhit (by decide +kernel)

end Sys2Proof.Machine.CountStart
end

section
/-!
PROOF. The safety island (R155, R373): a cause whose condition ends as the reset input rises moves the switches of both
    channels,
and with them the laser supply.
-/
-- One thread for the lemmas: a thread for each would ask for more memory than a build may have.
set_option Elab.async false

namespace Sys2Proof.Machine.SupplyAtReset

/-- The reset input is low, cause 2 is present and not latched, and the supply's switching is paused. -/
def paused : State :=
  { ((({} : State).set Fd.SAFE_RST_STAT_LOW 1).set (Fd.SAFE_NOW_NOW.bit 2) 1) with emt := { paused := true } }

/-- Refutes O42: where cause 2 ends in the cycle in which SAFE_RST_N rises, the supply that is off ends its pause: the record of
EMIT changes, too. -/
theorem not_safetyIslandCompletes : ¬ Obligations.SafetyIslandCompletes := by
  unfold Obligations.SafetyIslandCompletes
  rintro ⟨-, -, -, hrise, -⟩
  obtain ⟨t, hnext, hwithin, -⟩ := hrise 0 4 paused (by decide +kernel)
  have hsame : t.emt = _ := hwithin.same .emt (by decide)
  have hpause : (paused.after (.safeRstRise 0 4)).emt.paused = paused.emt.paused := by
    rw [State.after_of_next hnext, hsame]
  exact absurd hpause (by decide +kernel)

end Sys2Proof.Machine.SupplyAtReset
end

section
/-!
PROOF. The wake from DOZE (R431, R444): the enable of the PMIC is not all that leaves the device.
-/
-- One thread for the lemmas: a thread for each would ask for more memory than a build may have.
set_option Elab.async false

namespace Sys2Proof.Machine.WakeClock

/-- A sleeping device whose CLKOUT still toggles, and which the pin may wake. -/
def dozing : State :=
  { (({} : State).set Fd.CHIP_PWR_CTL_WAKE_PIN_EN 1) with chip := { doze := true, clkPin := some (1, 1, 1) } }

/-- Refutes O50: the wake also brings CLKOUT to what its register asks for, here to rest, and so more than PMIC_EN leaves. -/
theorem not_powerStatesComplete : ¬ Obligations.PowerStatesComplete := by
  unfold Obligations.PowerStatesComplete
  rintro ⟨-, -, -, -, -, -, -, hwake⟩
  obtain ⟨t, hnext, -, -, -, -, hout⟩ := hwake dozing rfl (by decide +kernel)
  rw [← State.after_of_next hnext] at hout
  exact absurd hout (by decide +kernel)

end Sys2Proof.Machine.WakeClock
end

section
/-!
PROOF. The phase exchange (R201, R216): an alignment marker that is due before the EPOCH shows its lanes in a register.
-/
-- One thread for the lemmas: a thread for each would ask for more memory than a build may have.
set_option Elab.async false

namespace Sys2Proof.Machine.MarkerBeforeEpoch

/-- Tile 0 measures its phase; its clock lane transmits up to now, and has a marker to send before the next block. -/
def measuring : State :=
  ((({ chip := { railLane := true } } : State).set (Fd.LNK_LANE_CTL_TX_EN 0) 1).lane' 0 fun x =>
      { x with txAt := some 0 }).port' 0
    fun p => { p with phase := { busy := true, temp := 0 } }

/-- Refutes O28: the exchange sends the marker that is due before the EPOCH, which names the lanes in use. -/
theorem not_tilePhaseCompletes : ¬ Obligations.TilePhaseCompletes := by
  unfold Obligations.TilePhaseCompletes
  rintro ⟨-, -, hexchange, -⟩
  obtain ⟨t, hnext, -, hregs, -⟩ := hexchange 0 0 measuring (by decide +kernel) (by decide +kernel)
  have hactive := hregs (Fd.LNK_TILE_STAT_DN_ACTIVE 0).off (by decide) (by decide) (by decide)
  rw [← State.after_of_next hnext] at hactive
  exact absurd hactive (by decide +kernel)

end Sys2Proof.Machine.MarkerBeforeEpoch
end

section
/-!
PROOF. JTAG instructions (R418, R431): the instruction brings TCK, and with it the clock that CLKOUT carries.
-/
-- One thread for the lemmas: a thread for each would ask for more memory than a build may have.
set_option Elab.async false

namespace Sys2Proof.Machine.TestClock

/-- CLKOUT is to carry TCK, which does not run before the first instruction. -/
def idle : State :=
  (({ chip := { railIo := true, clkout := 0xAE } } : State).set Fd.CHIP_BOOT_STAT_DONE 1).set Fd.TBAS_TB_STAT_PLL_LOCK 1

theorem setTck_idle : (idle.setTck true).io.out = [.clkout 46 1 1] := by decide +kernel

/-- The instruction leaves the device after the clock does, and the boundary cells after the instruction. -/
theorem out_jtagInstruction_idle (code : BitVec 8) :
    (idle.after (.jtagInstruction code)).io.out =
      (if idle.jtagOpen (Config.jtagKind code) && (Config.jtagKind code == 2 || Config.jtagKind code == 3) then
        [.boundary (Config.jtagKind code == 3) (idle.is Fd.SAFE_STAT_HS_EN) (idle.is Fd.SAFE_STAT_LS_EN)] else []) ++
      [.jtag code.toNat (idle.jtagOpen (Config.jtagKind code)), .clkout 46 1 1] := by
  have hexec : exec (.jtagInstruction code) idle = execJtagInstruction code idle := rfl
  have hpowered : idle.powered = true := by decide +kernel
  unfold execJtagInstruction at hexec
  rw [State.whenOn_powered hpowered, if_neg (by decide)] at hexec
  rw [State.after_of_next hexec, ← setTck_idle]
  dsimp only [State.onlyIf]
  split <;> rfl

/-- Refutes O45: the clock that begins on CLKOUT with the instruction leaves the device, too. -/
theorem not_bootAndLifecycleComplete : ¬ Obligations.BootAndLifecycleComplete := by
  unfold Obligations.BootAndLifecycleComplete
  rintro ⟨-, -, -, -, -, -, -, -, -, -, -, -, -, hjtag, -⟩
  obtain ⟨t, hnext, -, -, hout, -⟩ := hjtag 0 idle (by decide +kernel) rfl
  rw [← State.after_of_next hnext, out_jtagInstruction_idle] at hout
  have hlast := congrArg List.getLast? hout
  rw [List.getLast?_append, List.getLast?_append] at hlast
  exact absurd hlast (by simp [idle])

end Sys2Proof.Machine.TestClock
end

section
/-!
PROOF. The tills' selections (R34, R470): a reserved encoding leaves a record, and no access error.
-/
-- One thread for the lemmas: a thread for each would ask for more memory than a build may have.
set_option Elab.async false

namespace Sys2Proof.Machine.ReservedSelection

/-- The device is powered and its firmware runs. -/
def running : State := { (({} : State).set Fd.CHIP_BOOT_STAT_DONE 1) with mgmt := { booted := true } }

/-- Refutes O51: the firmware's write of a reserved selection to a till of CHIP is recorded, but ACC_ERR stays 0. -/
theorem not_logAndTillsComplete : ¬ Obligations.LogAndTillsComplete := by
  unfold Obligations.LogAndTillsComplete
  rintro ⟨-, -, -, -, -, -, -, hreserved, -⟩
  obtain ⟨t, hnext, -, -, herror⟩ :=
    hreserved .firmware 0 0 0xFFFFFFFF 0 running (by decide +kernel) (.inr (by decide +kernel))
  rw [← State.after_of_next hnext] at herror
  exact absurd herror (by decide +kernel)

end Sys2Proof.Machine.ReservedSelection
end

section
/-!
PROOF. The diagnostic pulse (R158): the arming names its modules by number, and no hypothesis of the statement bounds them.
-/
-- One thread for the lemmas: a thread for each would ask for more memory than a build may have.
set_option Elab.async false

namespace Sys2Proof.Machine.ArmedBeyondRange

/-- A module number whose word of due lines would stand in region 4. -/
def module : Nat := 0x40000

/-- The line whose dwell is diagnosed. -/
def line : LineRec :=
  { seq := 1, frame := 0, era := 0, easel := 0, desc := 0, start := 1000, dwell := 128000, isFrame := true, lmode := 0,
      started := true }

/-- An armed device, its time base running and its ledger open, whose arming names that module, with its line 0 due. -/
def arming : State :=
  (((((({ emt := { arm := some { line := 1, g := 5000, mods := [module] } }, scan := { lines := [line] },
          tbas := { running := true }, chip := { railIo := true } } : State).set
    (Fd.SCAN_LEDG_LIM_LIM 0 0) 1000).set (Fd.SCAN_LEDG_LIM_LIM 1 0) 1000).set (Fd.SCAN_LEDG_LIM_LIM 2 0) 1000).set
    Fd.SAFE_STAT_STATE stARMED).set (dueBit module 0) 1)

/-- Refutes O20: the pulse clears the due bit of the module's line, a register of a region that the statement does not name. -/
theorem not_diagnosisCompletes : ¬ Obligations.DiagnosisCompletes := by
  unfold Obligations.DiagnosisCompletes
  rintro ⟨-, -, hpulse⟩
  obtain ⟨t, hnext, -, hregions, -⟩ := hpulse arming { line := 1, g := 5000, mods := [module] } line module [] rfl
      (by decide +kernel)
    rfl rfl (by decide +kernel) (by decide +kernel) rfl (by decide +kernel)
  have hword := hregions (dueBit module 0).off (by decide +kernel) (by decide +kernel) (by decide +kernel)
  rw [← State.after_of_next hnext] at hword
  exact absurd hword (by decide +kernel)

end Sys2Proof.Machine.ArmedBeyondRange
end

section
/-!
PROOF. The swap of a bank (R233, R240): it puts in the spares that wait for it, whose numbers no hypothesis of the statement
    bounds.
-/
-- One thread for the lemmas: a thread for each would ask for more memory than a build may have.
set_option Elab.async false

namespace Sys2Proof.Machine.SpareBeyondRange

/-- The time base runs, a line ends at tick 129,000, and channel 0 waits for a spare whose registers would stand in region 12. -/
def waiting : State :=
  { tbas := { running := true }, hst := { subst := [(0, 0x200000)] }
    scan := { lines := [{ seq := 1, frame := 0, era := 0, easel := 0, desc := 0, start := 1000, dwell := 128000, isFrame := true
                          lmode := 0, started := true }] } }

/-- Refutes O30: the swap shows the spare as active, in a register of a region that the statement does not name. -/
theorem not_banksComplete : ¬ Obligations.BanksComplete := by
  unfold Obligations.BanksComplete
  rintro ⟨hswap, -⟩
  obtain ⟨t, hnext, -, hregions, -⟩ := hswap 0 129000 waiting (by decide +kernel) (by decide +kernel)
  have hword := hregions (Fd.HST_STALL_SPARE_ACTIVE 0 0x200000).off (by decide) (by decide +kernel) (by decide)
  rw [← State.after_of_next hnext] at hword
  exact absurd hword (by decide +kernel)

end Sys2Proof.Machine.SpareBeyondRange
end

section
/-!
PROOF. The LINE tick (R139): two lines of one sequence number, which no hypothesis of the statement shuts out.
-/
-- One thread for the lemmas: a thread for each would ask for more memory than a build may have.
set_option Elab.async false

namespace Sys2Proof.Machine.SameSequence

/-- A line that has ended. -/
def past : LineRec :=
  { seq := 1, frame := 0, era := 0, easel := 0, desc := 0, start := 500, dwell := 400, isFrame := true, lmode := 0, started
      := true
    ended := true }

/-- The line of the same sequence number that comes next. -/
def next : LineRec := { past with start := 5000, started := false, ended := false }

def twoLines : State :=
  { tbas := { running := true }, scan := { lines := [past, next] }, chip := { railIo := true } }

/-- Refutes O19: LSEL is said to change ahead of the start of the first line with that number, not of the line that starts. -/
theorem not_linesAndShotsComplete : ¬ Obligations.LinesAndShotsComplete := by
  unfold Obligations.LinesAndShotsComplete
  rintro ⟨hstart, -⟩
  obtain ⟨t, hnext, -, -, -, -, -, hlsel, -⟩ := hstart twoLines next rfl (by decide +kernel) rfl
  rw [← State.after_of_next hnext] at hlsel
  exact absurd hlsel (by decide +kernel)

end Sys2Proof.Machine.SameSequence
end

section
/-!
PROOF. The delivery of a channel (R243, R251): a stacked channel waits while a channel of the memory retrains.
-/
-- One thread for the lemmas: a thread for each would ask for more memory than a build may have.
set_option Elab.async false

namespace Sys2Proof.Machine.StackedWhileRetraining

def line : LineRec :=
  { seq := 1, frame := 0, era := 0, easel := 0, desc := 0, start := 1000, dwell := 128000, isFrame := true, lmode := 0,
      started := true }

/-- The read-out of sector 0, started and to be stacked. -/
def readout : ReadBank :=
  { sector := 0, line := 1, stop := 500, readAt := 900, pal := 0, bank := { from_ := none }, started := true, stack := true }

def job : StkJob := { line := 1, slot := 0, depth := 3, fresh := true, dt := 0, done := 900, header := {} }

/-- The stacking engine has the line's job, and memory channel 0 retrains. -/
def retraining : State :=
  ({ hst := { reads := [readout] }, scan := { lines := [line] }, memc := { jobs := [job], retrain := [(0, 5)] } } : State).set
    (Fd.LNK_TILE_CTL_EN 0) 1

/-- Refutes O32: the channel that its engine completes next is not delivered. -/
theorem not_outputCompletes : ¬ Obligations.OutputCompletes := by
  unfold Obligations.OutputCompletes
  rintro ⟨hdelivery, -⟩
  obtain ⟨t, hnext, hdelivered⟩ := hdelivery 0 [] readout line retraining (by decide +kernel) rfl (by decide +kernel)
    (by decide) (by decide +kernel) (by decide +kernel)
  rw [← State.after_of_next hnext] at hdelivered
  exact absurd hdelivered (by decide +kernel)

end Sys2Proof.Machine.StackedWhileRetraining
end

section
/-!
PROOF. The device's own alignment marker (R202): it waits for its tick.
-/
-- One thread for the lemmas: a thread for each would ask for more memory than a build may have.
set_option Elab.async false

namespace Sys2Proof.Machine.MarkerNotDue

/-- Tile 0 runs and its clock lane drives; a marker has been sent, and the time base, which stands, does not reach the next. -/
def sent : State :=
  ((({ chip := { railLane := true } } : State).set (Fd.LNK_TILE_STAT_STATE 0) ptRUN).set (Fd.LNK_LANE_CTL_TX_EN 0) 1).port' 0
    fun p => { p with dnAt := some 0 }

/-- Refutes O26: before the tick of the next marker none is sent, and the number of the last one stands. -/
theorem not_markersComplete : ¬ Obligations.MarkersComplete := by
  unfold Obligations.MarkersComplete
  rintro ⟨-, -, -, -, -, -, -, hsend⟩
  obtain ⟨t, hnext, -, -, hseq, -⟩ := hsend 0 sent 0 (by decide +kernel) (by decide +kernel) (by decide +kernel)
      (by decide +kernel)
    (by decide +kernel)
  rw [← State.after_of_next hnext] at hseq
  exact absurd hseq (by decide +kernel)

end Sys2Proof.Machine.MarkerNotDue
end

/-!
PROOF. An access to a gated region (R430, R448, R468): its till may overflow, and then an interrupt leaves the device as well.
-/
-- One thread for the lemmas: a thread for each would ask for more memory than a build may have.
set_option Elab.async false

namespace Sys2Proof.Machine.GateAbortTill

/-- A device in HUSH whose first CHIP till counts gate aborts, stands at its limit and has its interrupt enabled. -/
def tillFull : State :=
  { (((((({} : State).set (Fd.TILL_CFG_SRC 0 0) Src.CHIP_GATE_ABORT).set (Fd.TILL_CFG_IEN 0 0) 1).setWide 0 0x0F00
      (BitVec.ofNat 64 tillMax)).set (Fd.CFG_MSIX_EN false) 1).set (msixMask false 16) 0).set
      (Fd.CFG_MSIX_FMASK false) 0 with chip := { hush := 4 } }

/-- Refutes O49: the gate abort is counted, the till that counts it overflows, and its interrupt's message leaves before the bus error. -/
theorem not_pointsAndGatesComplete : ¬ Obligations.PointsAndGatesComplete := by
  unfold Obligations.PointsAndGatesComplete
  rintro ⟨habort, -⟩
  obtain ⟨t, hnext, -, -, -, hout⟩ := habort .firmware 0x00800000 false tillFull (by decide +kernel)
  rw [← State.after_of_next hnext] at hout
  exact absurd hout (by decide +kernel)

end Sys2Proof.Machine.GateAbortTill

/-!
PROOF. Management commands (R53, R403, R418): a lifecycle transition asked for over JTAG needs no request in the mailbox.
-/
-- One thread for the lemmas: a thread for each would ask for more memory than a build may have.
set_option Elab.async false

namespace Sys2Proof.Machine.CommandOverJtag

/-- The I/O rail is up and the firmware runs; the mailbox is idle. -/
def idle : State := { chip := { railIo := true }, mgmt := { booted := true } }

/-- A transition to a lifecycle state that does not exist, asked for over JTAG without a token. -/
def transition : Instr := .lcAdvance 9 none true true

/-- Refutes O3: the transition is refused over JTAG, and so its status leaves the device although the mailbox holds no request. -/
theorem not_wideReadsAndMailboxComplete : ¬ Obligations.WideReadsAndMailboxComplete := by
  unfold Obligations.WideReadsAndMailboxComplete
  rintro ⟨-, -, -, -, -, -, -, -, hforms, -⟩
  have hnext : exec transition idle = .next idle := (hforms transition 1 0x0102 true idle rfl).1 (by decide +kernel)
  exact absurd (congrArg (·.io.out) (State.after_of_next hnext)) (by decide +kernel)

end Sys2Proof.Machine.CommandOverJtag

/-!
PROOF. The quiet pause (R156): next to a fire edge the switching stops a little later, and its edge is reported as well.
-/
-- One thread for the lemmas: a thread for each would ask for more memory than a build may have.
set_option Elab.async false

namespace Sys2Proof.Machine.PauseAtFire

/-- A line in its dwell, which asks for the quiet supply, with a shot whose fire tick is now. -/
def line : LineRec :=
  { seq := 1, frame := 0, era := 0, easel := 0, desc := 0, start := 0, dwell := 128000, isFrame := true, lmode := 0
    started := true, d2 := 2 ^ 25, shots := [{ fire := 0, listen := false }]
    win := [(0, { wstart := 0, kbin := 4, nbin := 3 })] }

/-- The supply switches, and may pause in a quiet window. -/
def switching : State :=
  { ((((({} : State).set Fd.EMIT_LSUP_CTL_QEN 1).set Fd.EMIT_LSUP_STAT_RUN 1).set Fd.EMIT_LSUP_CTL_EN 1).set
      Fd.SAFE_STAT_HS_EN 1).set Fd.SAFE_STAT_LS_EN 1 with scan := { lines := [line] }, chip := { railIo := true } }

/-- Refutes O21: the fire edge holds the end of the switching back, so that the edge leaves the device after its order. -/
theorem not_ewireAndSupplyComplete : ¬ Obligations.EwireAndSupplyComplete := by
  unfold Obligations.EwireAndSupplyComplete
  rintro ⟨-, -, -, -, -, -, -, hpause, -⟩
  obtain ⟨t, hnext, -, -, -, -, -, hout⟩ :=
    hpause switching line (by decide +kernel) (by decide +kernel) (by decide +kernel) (by decide +kernel)
      (by decide +kernel) (by decide +kernel) (by decide +kernel)
      (fun p hp => absurd hp (by simp [switching])) rfl
  rw [← State.after_of_next hnext] at hout
  exact absurd hout (by decide +kernel)

end Sys2Proof.Machine.PauseAtFire

/-!
PROOF. CAPS (R208, R212): the serial number that the message brings is kept, too.
-/
-- One thread for the lemmas: a thread for each would ask for more memory than a build may have.
set_option Elab.async false

namespace Sys2Proof.Machine.CapsSerial

/-- A bonded port in RUN. -/
def running : State := (({} : State).set (Fd.LNK_TILE_STAT_STATE 0) ptRUN).set (Fd.LNK_TILE_STAT_GEN 0) 2

/-- The header of a CAPS message whose only block carries serial number 1. -/
def header : MsgHdr := ⟨5, 1, 0, messageCrc 5 1 0 0 [0x10000], false⟩

/-- Refutes O27: the serial number is kept in SECU's state, which the statement has unchanged. -/
theorem not_tileMessagesComplete : ¬ Obligations.TileMessagesComplete := by
  unfold Obligations.TileMessagesComplete
  rintro ⟨-, -, hcaps, -⟩
  obtain ⟨t, hnext, hwithin, -⟩ := hcaps 0 header 0x10000 running (by decide +kernel) (by decide +kernel)
    (by unfold wholeMsg; decide +kernel) (by decide +kernel)
  have hsame : t.secu = running.secu := hwithin.same .secu (by decide)
  rw [← State.after_of_next hnext] at hsame
  exact absurd hsame (by decide +kernel)

end Sys2Proof.Machine.CapsSerial

/-!
PROOF. A period of the memory controller (R328): while the region restarts nobody is served, however ready the memory is.
-/
-- One thread for the lemmas: a thread for each would ask for more memory than a build may have.
set_option Elab.async false

namespace Sys2Proof.Machine.PeriodInRestart

/-- The memory is ready, but its region restarts. -/
def restarting : State :=
  ((({} : State).set Fd.CHIP_BOOT_STAT_DONE 1).set Fd.MEMC_MEM_STAT_INIT_DONE 1).set (Fd.CHIP_RESTARTING_MASK.bit 14) 1

/-- A period in which nobody asks for a slot. -/
def nothing : MemLoad := ⟨0, 0, 0, 0, 0, 0, 0, 0, 0⟩

/-- Refutes O36: the period of a restarting region leaves no trace of who was served. -/
theorem not_memoryCompletes : ¬ Obligations.MemoryCompletes := by
  unfold Obligations.MemoryCompletes
  rintro ⟨-, -, -, -, -, -, -, -, -, -, hperiod, -⟩
  obtain ⟨t, check, mgmt, capx, scrub, hnext, -, -, -, -, hout⟩ := hperiod nothing restarting (by decide +kernel)
      (by decide +kernel)
  rw [← State.after_of_next hnext] at hout
  have hsilent : (restarting.after (.memcPeriod nothing)).io.out = [] := by decide +kernel
  exact absurd (hsilent.symm.trans hout) (List.cons_ne_nil _ _).symm

end Sys2Proof.Machine.PeriodInRestart

/-!
PROOF. STOP during a firmware handover (R383, R459): what it takes back is MGMT's.
-/
-- One thread for the lemmas: a thread for each would ask for more memory than a build may have.
set_option Elab.async false

namespace Sys2Proof.Machine.StopInHandover

/-- The firmware is handed over while a PERMIT of source 5 is held for the new image. -/
def handingOver : State :=
  { ((({} : State).set Fd.CHIP_BOOT_STAT_DONE 1).set (Fd.SAFE_PROF_SRC_SRC 0) 5) with
    mgmt := { hand := 2, permitHeld := some (true, 0) } }

/-- Refutes O43: the STOP drops the PERMIT that is held, and so changes MGMT's state. -/
theorem not_safetyMessagesComplete : ¬ Obligations.SafetyMessagesComplete := by
  unfold Obligations.SafetyMessagesComplete
  rintro ⟨-, -, -, -, -, -, -, -, -, -, -, -, hstop, -⟩
  obtain ⟨t, hnext, hwithin, -⟩ := hstop 5 1 0 handingOver (by decide +kernel) (by decide +kernel) (by decide +kernel)
  have hsame : t.mgmt = handingOver.mgmt := hwithin.same .mgmt (by decide)
  rw [← State.after_of_next hnext] at hsame
  exact absurd hsame (by decide +kernel)

end Sys2Proof.Machine.StopInHandover

/-!
PROOF. The end of a link region's restart (R18, R193, R199): a retraining lane ends its eye-scan point, which a capture records.
-/
-- One thread for the lemmas: a thread for each would ask for more memory than a build may have.
set_option Elab.async false

namespace Sys2Proof.Machine.ResumeInEyeScan

/-- Region 4 has passed its test and is to resume; lane 0 of its first port is in an eye-scan point, and a capture records those. -/
def resuming : State :=
  { ((((((({} : State).set (Fd.CHIP_RESTARTING_MASK.bit 4) 1).set (Fd.LNK_TILE_STAT_STATE 0) ptRUN).set
      (Fd.LNK_LANE_CTL_RX_EN 0) 1).set (Fd.LNK_LANE_STAT_STATE 0) lnLOCKED).set (Fd.LNK_LANE_ES_STAT_BUSY 0) 1).set
      Fd.MEMC_CAP_STAT_STATE capARMED) with
    memc := { cap := [(Fd.MEMC_CAP_SRC_STREAM.off, 5)] }, chip := { bist := [(4, 0)] } }

/-- Refutes O52: the capture takes the point's abort, and so MEMC's state changes. -/
theorem not_restartsComplete : ¬ Obligations.RestartsComplete := by
  unfold Obligations.RestartsComplete
  rintro ⟨-, -, -, -, -, -, hresume, -⟩
  obtain ⟨t, hnext, hwithin, -⟩ := hresume 4 0 resuming (by decide +kernel) rfl (by decide +kernel) (by decide +kernel)
  have hsame : t.memc = resuming.memc := hwithin.same .memc (by decide)
  rw [← State.after_of_next hnext] at hsame
  exact absurd hsame (by decide +kernel)

end Sys2Proof.Machine.ResumeInEyeScan

section
/-!
SUPPORT. The bits of a field, and the fields of one bit.
-/
-- One thread for the lemmas: a thread for each would ask for more memory than a build may have.
set_option Elab.async false

namespace Sys2Proof.Machine

variable {s : State} {f : Field} {i n : ℕ}

/-- The fields of one bit of a field are its bits. -/
theorem State.testBit_get (h : i ≤ f.hi - f.lo) : (s.get f).testBit i = decide (s.get (f.bit i) = 1) := by
  have hbit : s.get (f.bit i) = (s.io.reg f.off).toNat / 2 ^ (i + f.lo) % 2 := by
    simp [State.get, Io.get, Field.bit, bitsOf, Nat.add_comm]
  rw [hbit, ← Nat.testBit_eq_decide_div_mod_eq]
  simp only [State.get, Io.get, bitsOf, Nat.testBit_mod_two_pow, Nat.testBit_div_two_pow, Nat.lt_succ_of_le h, decide_true,
    Bool.true_and]

theorem State.testBit_get_high (h : f.hi - f.lo < i) : (s.get f).testBit i = false := by
  simp only [State.get, Io.get, bitsOf]
  rw [Nat.testBit_mod_two_pow, decide_eq_false (by omega), Bool.false_and]

theorem State.get_bit_lt : s.get (f.bit i) < 2 :=
  (Io.get_lt s.io (f.bit i)).trans_eq (by simp [Field.bit])

/-- A field is known by its bits. -/
theorem State.get_eq_of_bits {v : ℕ} (hv : v < 2 ^ (f.hi - f.lo + 1))
    (h : ∀ i, i ≤ f.hi - f.lo → (s.get (f.bit i) = 1 ↔ v.testBit i = true)) : s.get f = v := by
  refine Nat.eq_of_testBit_eq fun i => ?_
  obtain hi | hi := Nat.lt_or_ge (f.hi - f.lo) i
  · rw [State.testBit_get_high hi, Nat.testBit_lt_two_pow (hv.trans_le (Nat.pow_le_pow_right (by decide) hi))]
  · rw [State.testBit_get hi, Bool.eq_iff_iff, decide_eq_true_iff, h i hi]

theorem State.get_set_bit_same (hn : f.lo + n < 32) (v : ℕ) : (s.set (f.bit n) v).get (f.bit n) = v % 2 := by
  simpa [Field.bit] using State.get_set s (f.bit n) v (Nat.le_refl _) hn

theorem State.get_set_bit_other (hn : f.lo + n < 32) (h : i ≠ n) (v : ℕ) : (s.set (f.bit n) v).get (f.bit i) = s.get
    (f.bit i) :=
  State.get_set_bits s v (Nat.le_refl _) hn (Nat.le_refl _) (by simp only [Field.bit]; omega)

end Sys2Proof.Machine
end

section
/-!
PROOF. The windows into the easels' memories, and the signals' registers (R36, R101, R107).
-/
-- One thread for the lemmas: a thread for each would ask for more memory than a build may have.
set_option Elab.async false

namespace Sys2Proof.Machine.EaselWindows

open EaselMemory (dmWrite_frame dmByte_dmWrite dm_dmWrite_other)
open EaselSync (setSig_unawaited)

variable {s : State} {e : Fin 8} {who : Actor}

/-! ## The window's position -/

theorem pmPhase_low (h : (s.easel e).pmHigh = false) : s.pmPhase e = s.easel' e fun z => { z with pmHigh := true } := by
  unfold State.pmPhase
  rw [if_neg (by simp [h])]

theorem pmPhase_high (h : (s.easel e).pmHigh = true) :
    s.pmPhase e = (s.bump (Fd.SCAN_EASEL_PM_ADDR_INDEX e) 1).easel' e fun z => { z with pmHigh := false } := by
  unfold State.pmPhase
  rw [if_pos h]

theorem get_index_bump : (s.bump (Fd.SCAN_EASEL_PM_ADDR_INDEX e) 1).get (Fd.SCAN_EASEL_PM_ADDR_INDEX e) =
    (s.get (Fd.SCAN_EASEL_PM_ADDR_INDEX e) + 1) % 4096 :=
  State.get_bump s _ 1 (Nat.zero_le 11) (by simp [Fd.SCAN_EASEL_PM_ADDR_INDEX])

theorem get_word_bump : (s.bump (Fd.SCAN_EASEL_DM_ADDR_WORD e) 1).get (Fd.SCAN_EASEL_DM_ADDR_WORD e) =
    (s.get (Fd.SCAN_EASEL_DM_ADDR_WORD e) + 1) % 4096 :=
  State.get_bump s _ 1 (by simp [Fd.SCAN_EASEL_DM_ADDR_WORD]) (by simp [Fd.SCAN_EASEL_DM_ADDR_WORD])

/-! ## The windows into program memory -/

theorem pmHigh_pmBuf (w : Wide) : ((s.easel' e fun z => { z with pmBuf := w }).easel e).pmHigh = (s.easel e).pmHigh := by
  rw [State.easel_upd_same]

theorem pmHigh_set {b : Bool} : ((s.easel' e fun z => { z with pmHigh := b }).easel e).pmHigh = b := by
  rw [State.easel_upd_same]

theorem pmBuf_pmBuf (w : Wide) : ((s.easel' e fun z => { z with pmBuf := w }).easel e).pmBuf = w := by
  rw [State.easel_upd_same]

theorem pmBuf_pmHigh (b : Bool) : ((s.easel' e fun z => { z with pmHigh := b }).easel e).pmBuf = (s.easel e).pmBuf := by
  rw [State.easel_upd_same]

theorem easel_emit (k : ℕ) (o : Out) : (s.emit o).easel k = s.easel k := rfl

theorem easel_pm_upd (k : ℕ) (g : Scan → SMap Wide) : (s.scan' fun c => { c with pm := g c }).easel k = s.easel k := rfl

theorem exec_pmAddrWrite (v : Word) (h : s.admits (.pmAddrWrite who e v) = true) :
    exec (.pmAddrWrite who e v) s = .next ((s.set (Fd.SCAN_EASEL_PM_ADDR_INDEX e) (bitsOf v 11 0) |>.set
      (Fd.SCAN_EASEL_PM_ADDR_BANK e) (bitsOf v 12 12)).easel' e fun z => { z with pmHigh := false }) := by
  change execPmAddrWrite who e v s = _
  unfold execPmAddrWrite
  exact State.writeBy_admitted h

theorem get_written_index (v : Word) : (s.set (Fd.SCAN_EASEL_PM_ADDR_INDEX e) (bitsOf v 11 0) |>.set
    (Fd.SCAN_EASEL_PM_ADDR_BANK e) (bitsOf v 12 12)).get (Fd.SCAN_EASEL_PM_ADDR_INDEX e) = bitsOf v 11 0 := by
  refine (State.get_set_bits _ _ (Nat.le_refl 12) (by simp [Fd.SCAN_EASEL_PM_ADDR_BANK]) (Nat.zero_le 11)
    (.inl (by simp [Fd.SCAN_EASEL_PM_ADDR_INDEX, Fd.SCAN_EASEL_PM_ADDR_BANK]))).trans ?_
  refine (State.get_set s _ _ (Nat.zero_le 11) (by simp [Fd.SCAN_EASEL_PM_ADDR_INDEX])).trans ?_
  simp [Fd.SCAN_EASEL_PM_ADDR_INDEX, bitsOf]

theorem easelFrame_written (v : Word) : s.easelFrame [(Fd.SCAN_EASEL_PM_ADDR_INDEX e).off]
    ((s.set (Fd.SCAN_EASEL_PM_ADDR_INDEX e) (bitsOf v 11 0) |>.set (Fd.SCAN_EASEL_PM_ADDR_BANK e) (bitsOf v 12 12)).easel' e
      fun z => { z with pmHigh := false }) := by
  have hindex := (s.easelFrame_refl [(Fd.SCAN_EASEL_PM_ADDR_INDEX e).off]).set
    (fd := Fd.SCAN_EASEL_PM_ADDR_INDEX e) List.mem_cons_self (bitsOf v 11 0)
  have hbank := hindex.set (fd := Fd.SCAN_EASEL_PM_ADDR_BANK e)
      (by simp [Fd.SCAN_EASEL_PM_ADDR_BANK, Fd.SCAN_EASEL_PM_ADDR_INDEX])
    (bitsOf v 12 12)
  exact hbank.easel_upd e _

theorem get_written_bank (v : Word) : (s.set (Fd.SCAN_EASEL_PM_ADDR_BANK e) (bitsOf v 12 12)).get
    (Fd.SCAN_EASEL_PM_ADDR_BANK e) = bitsOf v 12 12 := by
  refine (State.get_set _ _ _ (Nat.le_refl 12) (by simp [Fd.SCAN_EASEL_PM_ADDR_BANK])).trans ?_
  simp [Fd.SCAN_EASEL_PM_ADDR_BANK, bitsOf]

theorem exec_pmDataRead_low (h : s.admits (.pmDataRead who e) = true) (hlow : (s.easel e).pmHigh = false) :
    exec (.pmDataRead who e) s = .next (((s.easel' e fun z => { z with pmBuf := rd (fun _ => 0) s.scan.pm (s.pmKey e) }).emit
      (.readData who (Fd.SCAN_EASEL_PM_DATA_DATA e).off (BitVec.ofNat 32
          (rd (fun _ => 0) s.scan.pm (s.pmKey e)).toNat))).easel' e
        fun z => { z with pmHigh := true }) := by
  change execPmDataRead who e s = _
  unfold execPmDataRead
  rw [State.readBy_admitted h, if_neg (by simp [hlow])]
  exact congrArg _ (pmPhase_low ((pmHigh_pmBuf _).trans hlow))

theorem exec_pmDataRead_high (h : s.admits (.pmDataRead who e) = true) (hhigh : (s.easel e).pmHigh = true) :
    exec (.pmDataRead who e) s = .next (((s.emit (.readData who (Fd.SCAN_EASEL_PM_DATA_DATA e).off
      (BitVec.ofNat 32 ((s.easel e).pmBuf.toNat / 2 ^ 32)))).bump (Fd.SCAN_EASEL_PM_ADDR_INDEX e) 1).easel' e
        fun z => { z with pmHigh := false }) := by
  change execPmDataRead who e s = _
  unfold execPmDataRead
  rw [State.readBy_admitted h, if_pos hhigh]
  exact congrArg _ (pmPhase_high hhigh)

theorem exec_pmDataWrite_low (v : Word) (h : s.admits (.pmDataWrite who e v) = true) (hlock : s.bankLocked e = false)
    (hlow : (s.easel e).pmHigh = false) :
    exec (.pmDataWrite who e v) s = .next ((s.easel' e fun z =>
      { z with pmBuf := BitVec.ofNat 64 ((s.easel e).pmBuf.toNat / 2 ^ 32 * 2 ^ 32 + v.toNat) }).easel' e
        fun z => { z with pmHigh := true }) := by
  change execPmDataWrite who e v s = _
  unfold execPmDataWrite
  dsimp only
  rw [State.writeBy_admitted h, if_neg (by simp [hlock]), if_neg (by simp [hlow])]
  exact congrArg _ (pmPhase_low ((pmHigh_pmBuf _).trans hlow))

theorem exec_pmDataWrite_high (v : Word) (h : s.admits (.pmDataWrite who e v) = true) (hlock : s.bankLocked e = false)
    (hhigh : (s.easel e).pmHigh = true) :
    exec (.pmDataWrite who e v) s =
      .next ((((s.easel' e fun z => { z with pmBuf := BitVec.ofNat 64 ((s.easel e).pmBuf.toNat % 2 ^ 32 + v.toNat * 2 ^ 32)
          }).scan'
        fun c => { c with pm := wr (fun _ => 0) c.pm (s.pmKey e)
                            (BitVec.ofNat 64 ((s.easel e).pmBuf.toNat % 2 ^ 32 + v.toNat * 2 ^ 32)) }).bump
          (Fd.SCAN_EASEL_PM_ADDR_INDEX e) 1).easel' e fun z => { z with pmHigh := false }) := by
  change execPmDataWrite who e v s = _
  unfold execPmDataWrite
  dsimp only
  rw [State.writeBy_admitted h, if_neg (by simp [hlock]), if_pos hhigh]
  rw [pmPhase_high ((congrArg Easel.pmHigh (easel_pm_upd _ _)).trans ((pmHigh_pmBuf _).trans hhigh))]
  rfl

/-- The first write of a pair holds the low word back. -/
theorem low_word_held (v : Word) (b : Wide) : (BitVec.ofNat 64 (b.toNat / 2 ^ 32 * 2 ^ 32 + v.toNat) : Wide).toNat % 2 ^ 32
    = v.toNat := by
  have hv := v.isLt
  have hb := b.isLt
  simp only [BitVec.toNat_ofNat]
  omega

/-! ## The windows into data memory -/

theorem exec_dmDataRead (h : s.admits (.dmDataRead who e) = true) :
    exec (.dmDataRead who e) s = .next ((s.emit (.readData who (Fd.SCAN_EASEL_DM_DATA_DATA e).off
      (BitVec.ofNat 32 (s.dmRead e (s.dmWord e) 4)))).bump (Fd.SCAN_EASEL_DM_ADDR_WORD e) 1) := by
  change execDmDataRead who e s = _
  unfold execDmDataRead
  exact State.readBy_admitted h

theorem exec_dmDataWrite (v : Word) (h : s.admits (.dmDataWrite who e v) = true) :
    exec (.dmDataWrite who e v) s =
      .next ((s.dmWrite e (s.dmWord e) 4 v.toNat).bump (Fd.SCAN_EASEL_DM_ADDR_WORD e) 1) := by
  change execDmDataWrite who e v s = _
  unfold execDmDataWrite
  exact State.writeBy_admitted h

theorem reg_dmWrite (a n v b : ℕ) : (s.dmWrite e a n v).reg b = s.reg b := by rw [dmWrite_frame]; rfl

theorem get_dmWrite (a n v : ℕ) (f : Field) : (s.dmWrite e a n v).get f = s.get f := by rw [dmWrite_frame]; rfl

theorem within_dmWrite (a n v : ℕ) : s.within [.io, .scan] (s.dmWrite e a n v) := by
  rw [dmWrite_frame]
  exact (s.within_refl _).scan_upd _

/-! ## The signals -/

/-- The signals of a mask are set one after the other. -/
def Signalled (s : State) : State → Prop := fun t => s.within [.io] t ∧ s.onlyRegs [Fd.SCAN_SIG_SIG.off] t ∧ ∀ k, t.easel k
    = s.easel k

theorem Signalled.set {t : State} (h : Signalled s t) (f : Field) (hf : f.off = Fd.SCAN_SIG_SIG.off) (v : ℕ) :
    Signalled s (t.set f v) := by
  obtain ⟨hwithin, hregs, heasel⟩ := h
  exact ⟨hwithin.set _ _, hregs.set _ _ (by simp [hf]), heasel⟩

theorem Signalled.refl (s : State) : Signalled s s := ⟨s.within_refl _, s.onlyRegs_refl _, fun _ => rfl⟩

theorem setSig_quiet (n : ℕ) (hn : n < 16) (h : ∀ k ∈ easelList, ∀ n < 16, (s.easel k).wait ≠ .signal n) :
    s.setSig n = s.set (Fd.SCAN_SIG_SIG.bit n) 1 := setSig_unawaited fun k hk => h k hk n hn

/-- Nobody waits: the signals of the mask are set, and the others stay. -/
theorem signals_set (mask : ℕ) {t : State} (h : ∀ k ∈ easelList, ∀ n < 16, (s.easel k).wait ≠ .signal n) (l : List ℕ)
    (hl : ∀ n ∈ l, n < 16) (ht : Signalled s t) :
    let u := l.foldl (fun s n => if mask.testBit n then s.setSig n else s) t
    Signalled s u ∧ ∀ i, u.get (Fd.SCAN_SIG_SIG.bit i) =
      if i ∈ l ∧ mask.testBit i = true then 1 else t.get (Fd.SCAN_SIG_SIG.bit i) := by
  induction l generalizing t with
  | nil => exact ⟨ht, fun i => by simp⟩
  | cons n l ih =>
    have hn : n < 16 := hl n List.mem_cons_self
    have hrest : ∀ m ∈ l, m < 16 := fun m hm => hl m (List.mem_cons_of_mem _ hm)
    simp only [List.foldl_cons]
    by_cases hmask : mask.testBit n = true
    · have hquiet : t.setSig n = t.set (Fd.SCAN_SIG_SIG.bit n) 1 :=
        setSig_quiet n hn fun k hk m hm => by rw [ht.2.2]; exact h k hk m hm
      rw [if_pos hmask, hquiet]
      obtain ⟨hu, hbits⟩ := ih hrest (ht.set (Fd.SCAN_SIG_SIG.bit n) rfl 1)
      refine ⟨hu, fun i => (hbits i).trans ?_⟩
      by_cases hi : i = n
      · subst hi
        rw [State.get_set_bit_same (by simp only [Fd.SCAN_SIG_SIG]; omega)]
        simp [hmask]
      · rw [State.get_set_bit_other (by simp only [Fd.SCAN_SIG_SIG]; omega) hi]
        simp [hi]
    · rw [if_neg hmask]
      obtain ⟨hu, hbits⟩ := ih hrest ht
      refine ⟨hu, fun i => (hbits i).trans ?_⟩
      by_cases hi : i = n
      · subst hi; simp [hmask]
      · simp [hi]

theorem setSigs_quiet {mask : ℕ} (hmask : mask < 2 ^ 16) {t : State} (ht : Signalled s t)
    (h : ∀ k ∈ easelList, ∀ n < 16, (s.easel k).wait ≠ .signal n) :
    Signalled s (t.setSigs mask) ∧ (t.setSigs mask).get Fd.SCAN_SIG_SIG = t.get Fd.SCAN_SIG_SIG ||| mask := by
  obtain ⟨hu, hbits⟩ := signals_set mask h (List.range 16) (fun n hn => List.mem_range.1 hn) ht
  refine ⟨hu, State.get_eq_of_bits (Nat.or_lt_two_pow (Io.get_lt _ _) hmask) fun i hi => ?_⟩
  have hi' : i ∈ List.range 16 := List.mem_range.2 (Nat.lt_succ_of_le hi)
  have hbit : (t.setSigs mask).get (Fd.SCAN_SIG_SIG.bit i) = _ := hbits i
  rw [hbit, Nat.testBit_or, State.testBit_get hi]
  by_cases hm : mask.testBit i = true <;> simp [hi', hm]

theorem exec_scanSigSet (mask : BitVec 16) (h : s.admits (.scanSigSet mask) = true) :
    exec (.scanSigSet mask) s = .next (s.setSigs mask.toNat) := by
  change execScanSigSet mask s = _
  unfold execScanSigSet
  exact State.writeRow_admitted h

theorem exec_scanSigClear (mask hw : BitVec 16) (h : s.admits (.scanSigClear mask hw) = true) :
    exec (.scanSigClear mask hw) s =
      .next ((s.set Fd.SCAN_SIG_SIG (s.get Fd.SCAN_SIG_SIG &&& (~~~mask).toNat)).setSigs hw.toNat) := by
  change execScanSigClear mask hw s = _
  unfold execScanSigClear
  exact State.writeRow_admitted h

theorem get_signals_cleared (mask : BitVec 16) :
    (s.set Fd.SCAN_SIG_SIG (s.get Fd.SCAN_SIG_SIG &&& (~~~mask).toNat)).get Fd.SCAN_SIG_SIG =
      s.get Fd.SCAN_SIG_SIG &&& (~~~mask).toNat :=
  (State.get_set s _ _ (Nat.zero_le 15) (by decide)).trans
    (Nat.mod_eq_of_lt (Nat.and_le_right.trans_lt (BitVec.isLt _)))

/-- Settles O18, window by window: each write or read moves its window once. -/
theorem easelWindowsComplete : Obligations.EaselWindowsComplete := by
  unfold Obligations.EaselWindowsComplete
  refine ⟨fun who e v s h => ⟨_, exec_pmAddrWrite v h, ?_⟩, fun who e s h hlow => ⟨_, exec_pmDataRead_low h hlow, ?_⟩,
    fun who e s h hhigh => ⟨_, exec_pmDataRead_high h hhigh, ?_⟩,
    fun who e v s h hlock hlow => ⟨_, exec_pmDataWrite_low v h hlock hlow, ?_⟩,
    fun who e v s h hlock hhigh => ⟨_, exec_pmDataWrite_high v h hlock hhigh, ?_⟩,
    fun who e s h => ⟨_, exec_dmDataRead h, ?_⟩, fun who e v s h => ⟨_, exec_dmDataWrite v h, ?_⟩,
    fun mask s h hquiet => ⟨_, exec_scanSigSet mask h, ?_⟩, fun mask hw s h hquiet => ⟨_, exec_scanSigClear mask hw h, ?_⟩⟩
  · refine ⟨get_written_index v, get_written_bank v, pmHigh_set, ?_⟩
    exact easelFrame_written v
  · refine ⟨(((s.within_refl _).easel_upd _ _).emit _).easel_upd _ _, fun _ => rfl,
      pmHigh_set, rfl, ?_, rfl⟩
    rw [pmBuf_pmHigh, easel_emit, pmBuf_pmBuf]
  · refine ⟨(((s.within_refl _).emit _).bump _ _).easel_upd _ _,
      (((s.onlyRegs_refl _).emit _).bump _ _).easel_upd _ _, pmHigh_set, rfl, ?_, rfl⟩
    exact get_index_bump
  · refine ⟨((s.within_refl _).easel_upd _ _).easel_upd _ _, pmHigh_set, rfl, ?_⟩
    rw [pmBuf_pmHigh, pmBuf_pmBuf]
    exact low_word_held v _
  · refine ⟨((((s.within_refl _).easel_upd _ _).scan_upd _).bump _ _).easel_upd _ _,
      ((((s.onlyRegs_refl _).easel_upd _ _).scan_upd _).bump _ _).easel_upd _ _,
      pmHigh_set, rd_wr_same _ _ _ _, fun k hk => rd_wr_other _ _ _ hk, ?_⟩
    exact get_index_bump
  · exact ⟨((s.within_refl _).emit _).bump _ _, ((s.onlyRegs_refl _).emit _).bump _ _, rfl, rfl, get_word_bump⟩
  · refine ⟨(within_dmWrite _ _ _).bump _ _, ((s.onlyRegs_refl _).of_reg fun a => reg_dmWrite _ _ _ a).bump _ _,
      fun i hi => dmByte_dmWrite s e _ 4 _ i hi, fun k hk => dm_dmWrite_other s e _ 4 _ hk, ?_⟩
    refine get_word_bump.trans ?_
    rw [get_dmWrite]
  · obtain ⟨⟨hwithin, hregs, -⟩, hget⟩ := setSigs_quiet mask.isLt (Signalled.refl s) hquiet
    exact ⟨hwithin, hregs, hget⟩
  · obtain ⟨⟨hwithin, hregs, -⟩, hget⟩ := setSigs_quiet hw.isLt ((Signalled.refl s).set Fd.SCAN_SIG_SIG rfl _) hquiet
    exact ⟨hwithin, hregs, hget.trans (congrArg (· ||| hw.toNat) (get_signals_cleared mask))⟩

end Sys2Proof.Machine.EaselWindows
end

section
/-!
SUPPORT. One reasoning rule for each change of a lane (R182 to R188): what a retrain, a broken eye scan and a held adaptation
leave in the lane's registers and in its record, and what they leave alone.
-/
-- One thread for the lemmas: a thread for each would ask for more memory than a build may have.
set_option Elab.async false

namespace Sys2Proof.Machine

variable {s t v : State} {l : ℕ} {f g : Field}

/-! ## The lane's record -/

@[simp] theorem State.get_lane_upd (s : State) (l : ℕ) (h : Lane → Lane) (f : Field) : (s.lane' l h).get f = s.get f := rfl
@[simp] theorem State.lane_upd_same (s : State) (l : ℕ) (h : Lane → Lane) : (s.lane' l h).lane l = h (s.lane l) :=
  rd_wr_same _ _ _ _
@[simp] theorem State.lane_set (s : State) (l : ℕ) (f : Field) (n : ℕ) : (s.set f n).lane l = s.lane l := rfl
@[simp] theorem State.lane_memc_upd (s : State) (l : ℕ) (h : Memc → Memc) : (s.memc' h).lane l = s.lane l := rfl
@[simp] theorem State.get_port_upd (s : State) (n : ℕ) (h : TilePort → TilePort) (f : Field) : (s.port' n h).get f = s.get f
    := rfl
@[simp] theorem State.port_upd_same (s : State) (n : ℕ) (h : TilePort → TilePort) : (s.port' n h).port n = h (s.port n) :=
  rd_wr_same _ _ _ _
@[simp] theorem State.port_set (s : State) (n : ℕ) (f : Field) (k : ℕ) : (s.set f k).port n = s.port n := rfl
@[simp] theorem State.port_lane_upd (s : State) (n l : ℕ) (h : Lane → Lane) : (s.lane' l h).port n = s.port n := rfl
@[simp] theorem State.lane_port_upd (s : State) (n l : ℕ) (h : TilePort → TilePort) : (s.port' n h).lane l = s.lane l := rfl

@[simp] theorem State.out_set (s : State) (f : Field) (n : ℕ) : (s.set f n).io.out = s.io.out := rfl
@[simp] theorem State.out_port_upd (s : State) (n : ℕ) (h : TilePort → TilePort) : (s.port' n h).io.out = s.io.out := rfl
@[simp] theorem State.out_lane_upd (s : State) (l : ℕ) (h : Lane → Lane) : (s.lane' l h).io.out = s.io.out := rfl

/-! ## Registers -/

theorem Field.apart_of_off (h : g.off ≠ f.off) : f.apart g = true := by simp [Field.apart, h.symm]

theorem Field.apart_of_bits (hf : f.lo ≤ f.hi) (hf' : f.hi < 32) (hg : g.lo ≤ g.hi) (h : g.hi < f.lo ∨ f.hi < g.lo) :
    f.apart g = true := by simp [Field.apart, hf, hf', hg, h]

theorem State.onlyRegs.lane_upd {rs : List ℕ} (h : s.onlyRegs rs t) (l : ℕ) (z : Lane → Lane) : s.onlyRegs rs (t.lane' l z) :=
  h.of_reg fun _ => rfl
theorem State.onlyRegs.port_upd {rs : List ℕ} (h : s.onlyRegs rs t) (n : ℕ) (z : TilePort → TilePort) :
    s.onlyRegs rs (t.port' n z) := h.of_reg fun _ => rfl

/-- The registers of a lane lie apart from those of the alarms. -/
theorem steady_lane (l : Fin 128) (hlow : 0x00810000 + 0x200000 * (l / 32) + 0x400 * (l % 32) ≤ f.off)
    (hhigh : f.off < 0x00810400 + 0x200000 * (l / 32) + 0x400 * (l % 32)) : f.steady = true := by
  have hl := l.isLt
  simp only [Field.steady, alarmReg, Fd.MGMT_LOG_LOST_COUNT, bne_iff_ne, Bool.and_eq_true, Bool.not_eq_true',
      Bool.or_eq_false_iff,
    beq_eq_false_iff_ne, decide_eq_false_iff_not]
  omega

/-! ## The capture's taps -/

/-- What the taps change: the gap flag and the capture's own record. -/
theorem reg_intoFifo (x : Sample) {a : ℕ} (h : a ≠ Fd.MEMC_CAP_STAT_GAP.off) : (s.intoFifo x).reg a = s.reg a := by
  unfold State.intoFifo
  split
  · rw [State.capGap, State.reg_memc_upd, State.reg_set_other s 1 h]
  · rfl

theorem reg_taps (n : ℕ) (b : Bool) (xs : List Sample) {a : ℕ} (h : a ≠ Fd.MEMC_CAP_STAT_GAP.off) :
    (s.taps n b xs).reg a = s.reg a := by
  unfold State.taps
  split
  · exact foldl_keeps (fun w : State => w.reg a = s.reg a) _ (fun w x hw => (reg_intoFifo x h).trans hw) _ s rfl
  · rfl

theorem lane_intoFifo (x : Sample) (l : ℕ) : (s.intoFifo x).lane l = s.lane l := by
  unfold State.intoFifo
  split
  · exact (State.lane_memc_upd _ l _).trans (State.lane_set s l Fd.MEMC_CAP_STAT_GAP 1)
  · rfl

theorem lane_taps (n : ℕ) (b : Bool) (xs : List Sample) (l : ℕ) : (s.taps n b xs).lane l = s.lane l := by
  unfold State.taps
  split
  · exact foldl_keeps (fun w : State => w.lane l = s.lane l) _ (fun w x hw => (lane_intoFifo x l).trans hw) _ s rfl
  · rfl

theorem State.get_tapEye (n e : ℕ) (b : Bool) (h : f.off ≠ Fd.MEMC_CAP_STAT_GAP.off) : (s.tapEye n e b).get f = s.get f :=
  Io.get_congr (reg_taps _ _ _ h)

@[simp] theorem State.lane_tapEye (n e l : ℕ) (b : Bool) : (s.tapEye n e b).lane l = s.lane l := lane_taps _ _ _ _

theorem State.onlyRegs.tapEye {rs : List ℕ} (h : s.onlyRegs rs t) (n e : ℕ) (b : Bool)
    (k : Fd.MEMC_CAP_STAT_GAP.off ∈ rs := by simp) : s.onlyRegs rs (t.tapEye n e b) := fun a ha p q => by
  rw [show (t.tapEye n e b).reg a = t.reg a from reg_taps _ _ _ fun heq => ha (heq ▸ k)]
  exact h a ha p q

/-! ## Leaving lock, and the retrain -/

theorem State.get_leaveLock (hstat : (Fd.LNK_LANE_STAT_FREQ_ERR l).apart f = true)
    (hbusy : (Fd.LNK_LANE_ES_STAT_BUSY l).apart f = true) (habort : (Fd.LNK_LANE_ES_STAT_ABORT l).apart f = true)
    (hgap : f.off ≠ Fd.MEMC_CAP_STAT_GAP.off) : (s.leaveLock l).get f = s.get f := by
  unfold State.leaveLock State.onlyIf
  split
  · rw [State.get_tapEye _ _ _ hgap, State.get_set_apart _ _ habort, State.get_set_apart _ _ hbusy, State.get_set_apart _ _
      hstat]
  · exact State.get_set_apart _ _ hstat

@[simp] theorem State.lane_leaveLock (l n : ℕ) : (s.leaveLock l).lane n = s.lane n := by
  unfold State.leaveLock State.onlyIf
  split
  · rw [State.lane_tapEye, State.lane_set, State.lane_set, State.lane_set]
  · exact State.lane_set s n _ 0

theorem State.onlyRegs.leaveLock {rs : List ℕ} (h : s.onlyRegs rs t) (l : ℕ)
    (hstat : (Fd.LNK_LANE_STAT_STATE l).off ∈ rs := by simp)
    (hes : (Fd.LNK_LANE_ES_STAT_ABORT l).off ∈ rs := by simp) (hgap : Fd.MEMC_CAP_STAT_GAP.off ∈ rs := by simp) :
    s.onlyRegs rs (t.leaveLock l) := by
  have hunlock := h.set (Fd.LNK_LANE_STAT_FREQ_ERR l) 0 hstat
  exact hunlock.onlyIf (((hunlock.set (Fd.LNK_LANE_ES_STAT_BUSY l) 0 hes).set (Fd.LNK_LANE_ES_STAT_ABORT l) 1 hes).tapEye _
      _ _ hgap)

/-! ## Held adaptation -/

theorem State.get_setFrozen (l : ℕ) (b : Bool) (h : (Fd.LNK_LANE_STAT_FROZEN l).apart f = true) : (s.setFrozen l b).get f =
    s.get f :=
  State.get_setBit_apart _ _ h

theorem State.get_frozen (l : ℕ) (b : Bool) : (s.setFrozen l b).get (Fd.LNK_LANE_STAT_FROZEN l) =
    if b || s.is (Fd.LNK_LANE_CTL_FREEZE l) then 1 else 0 :=
  State.get_setBit s _ _ (Nat.le_refl 7) (by simp [Fd.LNK_LANE_STAT_FROZEN])

@[simp] theorem State.lane_setFrozen (l n : ℕ) (b : Bool) : (s.setFrozen l b).lane n = s.lane n := rfl

theorem State.onlyRegs.setFrozen {rs : List ℕ} (h : s.onlyRegs rs t) (l : ℕ) (b : Bool)
    (k : (Fd.LNK_LANE_STAT_STATE l).off ∈ rs := by simp) : s.onlyRegs rs (t.setFrozen l b) := h.setBit _ _ k

theorem State.laneSt_setLane (l n : ℕ) : (s.setLane l n).laneSt l = n % 8 :=
  State.get_set s _ _ (Nat.zero_le 2) (by simp [Fd.LNK_LANE_STAT_STATE])

/-! ## The start values -/

/-- The start values lie in the two registers of the equalisers. -/
theorem State.get_startValues (h : f.off ≠ (Fd.LNK_LANE_EQ_VAL_CTLE l).off) (h2 : f.off ≠ (Fd.LNK_LANE_EQ_VAL2_DFE4 l).off) :
    (s.startValues l).get f = s.get f := by
  unfold State.startValues
  rw [State.get_lane_upd, State.get_set_off (f := Fd.LNK_LANE_EQ_VAL2_DFE5 l) _ 0 h2,
    State.get_set_off (f := Fd.LNK_LANE_EQ_VAL2_DFE4 l) _ 0 h2, State.get_set_off (f := Fd.LNK_LANE_EQ_VAL_DFE3 l) _ 0 h,
    State.get_set_off (f := Fd.LNK_LANE_EQ_VAL_DFE2 l) _ 0 h, State.get_set_off (f := Fd.LNK_LANE_EQ_VAL_DFE1 l) _ 0 h,
    State.get_set_off (f := Fd.LNK_LANE_EQ_VAL_CTLE l) _ _ h]

theorem ctle_startValues : (s.startValues l).get (Fd.LNK_LANE_EQ_VAL_CTLE l) = s.get (Fd.LNK_LANE_EQ_CTL_CTLE_START l) := by
  have hlt : s.get (Fd.LNK_LANE_EQ_CTL_CTLE_START l) < 16 := Io.get_lt _ _
  unfold State.startValues
  simp -implicitDefEqProofs [State.get_set_apart, State.get_set, Field.apart, Fd.LNK_LANE_EQ_VAL_CTLE,
      Fd.LNK_LANE_EQ_VAL_DFE1, Fd.LNK_LANE_EQ_VAL_DFE2,
    Fd.LNK_LANE_EQ_VAL_DFE3, Fd.LNK_LANE_EQ_VAL2_DFE4, Fd.LNK_LANE_EQ_VAL2_DFE5]
  exact hlt

/-- Every tap starts from 0. -/
theorem taps_startValues :
    (s.startValues l).get (Fd.LNK_LANE_EQ_VAL_DFE1 l) = 0 ∧ (s.startValues l).get (Fd.LNK_LANE_EQ_VAL_DFE2 l) = 0 ∧
      (s.startValues l).get (Fd.LNK_LANE_EQ_VAL_DFE3 l) = 0 ∧ (s.startValues l).get (Fd.LNK_LANE_EQ_VAL2_DFE4 l) = 0 ∧
      (s.startValues l).get (Fd.LNK_LANE_EQ_VAL2_DFE5 l) = 0 := by
  unfold State.startValues
  refine ⟨?_, ?_, ?_, ?_, ?_⟩ <;>
  simp -implicitDefEqProofs [State.get_set_apart, State.get_set, Field.apart, Fd.LNK_LANE_EQ_VAL_CTLE,
      Fd.LNK_LANE_EQ_VAL_DFE1, Fd.LNK_LANE_EQ_VAL_DFE2,
    Fd.LNK_LANE_EQ_VAL_DFE3, Fd.LNK_LANE_EQ_VAL2_DFE4, Fd.LNK_LANE_EQ_VAL2_DFE5]

/-! ## The retrain -/

/-- Besides the start values, a retrain writes the state, the command, the loop and FROZEN. -/
theorem State.get_retrain (hfrozen : (Fd.LNK_LANE_STAT_FROZEN l).apart f = true)
    (hofs : (Fd.LNK_LANE_CDR_FOFS l).apart f = true)
    (hcmd : (Fd.LNK_LANE_CTL_RETRAIN l).apart f = true) (hstate : (Fd.LNK_LANE_STAT_STATE l).apart f = true) :
    (s.retrain l).get f = ((s.leaveLock l).startValues l).get f := by
  unfold State.retrain State.setLane
  dsimp only
  rw [State.get_setFrozen _ _ hfrozen, State.get_lane_upd, State.get_set_apart _ _ hofs, State.get_set_apart _ _ hcmd,
    State.get_set_apart _ _ hstate]

/-- A register of the lane outside those of its state, its scan, its equalisers, its loop and its command. -/
theorem State.get_retrain_stat (h : f.off = (Fd.LNK_LANE_STAT_STATE l).off) (hf : f.lo ≤ f.hi) (hfrozen : f.hi < 7 ∨ 7 < f.lo)
    (hstate : 2 < f.lo) (hfreq : f.hi < 8 ∨ 8 < f.lo) : (s.retrain l).get f = s.get f := by
  simp only [Fd.LNK_LANE_STAT_STATE] at h
  rw [State.get_retrain (Field.apart_of_bits (Nat.le_refl 7) (by simp [Fd.LNK_LANE_STAT_FROZEN]) hf hfrozen)
      (by simp [Field.apart, Fd.LNK_LANE_CDR_FOFS, h])
    (by simp [Field.apart, Fd.LNK_LANE_CTL_RETRAIN, h]) (by simp [Field.apart, Fd.LNK_LANE_STAT_STATE, hf, hstate]),
    State.get_startValues (by simp [Fd.LNK_LANE_EQ_VAL_CTLE, h]) (by simp [Fd.LNK_LANE_EQ_VAL2_DFE4, h]),
    State.get_leaveLock (Field.apart_of_bits (Nat.le_refl 8) (by simp [Fd.LNK_LANE_STAT_FREQ_ERR]) hf hfreq)
        (by simp [Field.apart, Fd.LNK_LANE_ES_STAT_BUSY, h])
    (by simp [Field.apart, Fd.LNK_LANE_ES_STAT_ABORT, h]) (by simp only [Fd.MEMC_CAP_STAT_GAP, h]; omega)]

theorem laneSt_retrain : (s.retrain l).laneSt l = lnTRAIN := by
  unfold State.retrain State.laneSt
  dsimp only
  rw [State.get_setFrozen _ _ (by simp [Field.apart, Fd.LNK_LANE_STAT_FROZEN, Fd.LNK_LANE_STAT_STATE]), State.get_lane_upd,
    State.get_set_off _ _ (by simp [Fd.LNK_LANE_CDR_FOFS, Fd.LNK_LANE_STAT_STATE]),
    State.get_set_off _ _ (by simp [Fd.LNK_LANE_CTL_RETRAIN, Fd.LNK_LANE_STAT_STATE])]
  exact State.laneSt_setLane l lnTRAIN

theorem command_retrain : (s.retrain l).get (Fd.LNK_LANE_CTL_RETRAIN l) = 0 := by
  unfold State.retrain
  dsimp only
  rw [State.get_setFrozen _ _ (by simp [Field.apart, Fd.LNK_LANE_STAT_FROZEN, Fd.LNK_LANE_CTL_RETRAIN]), State.get_lane_upd,
    State.get_set_off _ _ (by simp [Fd.LNK_LANE_CDR_FOFS, Fd.LNK_LANE_CTL_RETRAIN])]
  exact State.get_set _ _ _ (Nat.le_refl 9) (by simp [Fd.LNK_LANE_CTL_RETRAIN])

theorem offset_retrain : (s.retrain l).get (Fd.LNK_LANE_CDR_FOFS l) = 0 := by
  unfold State.retrain
  dsimp only
  rw [State.get_setFrozen _ _ (by simp [Field.apart, Fd.LNK_LANE_STAT_FROZEN, Fd.LNK_LANE_CDR_FOFS]), State.get_lane_upd]
  exact State.get_set _ _ _ (by simp [Fd.LNK_LANE_CDR_FOFS]) (by simp [Fd.LNK_LANE_CDR_FOFS])

/-- A retrain takes the equalisers as the start values have them. -/
theorem equaliser_retrain (h : f.off = (Fd.LNK_LANE_EQ_VAL_CTLE l).off ∨ f.off = (Fd.LNK_LANE_EQ_VAL2_DFE4 l).off) :
    (s.retrain l).get f = ((s.leaveLock l).startValues l).get f := by
  simp only [Fd.LNK_LANE_EQ_VAL_CTLE, Fd.LNK_LANE_EQ_VAL2_DFE4] at h
  refine State.get_retrain (Field.apart_of_off ?_) (Field.apart_of_off ?_) (Field.apart_of_off ?_) (Field.apart_of_off ?_)
  · simp only [Fd.LNK_LANE_STAT_FROZEN]; omega
  · simp only [Fd.LNK_LANE_CDR_FOFS]; omega
  · simp only [Fd.LNK_LANE_CTL_RETRAIN]; omega
  · simp only [Fd.LNK_LANE_STAT_STATE]; omega

theorem retrained_retrain (s : State) (l : Fin 128) : s.retrained l (s.retrain l) := by
  obtain ⟨h1, h2, h3, h4, h5⟩ := taps_startValues (s := s.leaveLock l) (l := l)
  refine ⟨laneSt_retrain, command_retrain, ?_, (equaliser_retrain (f := Fd.LNK_LANE_EQ_VAL_DFE1 l) (.inl rfl)).trans h1,
    (equaliser_retrain (f := Fd.LNK_LANE_EQ_VAL_DFE2 l) (.inl rfl)).trans h2,
    (equaliser_retrain (f := Fd.LNK_LANE_EQ_VAL_DFE3 l) (.inl rfl)).trans h3,
    (equaliser_retrain (f := Fd.LNK_LANE_EQ_VAL2_DFE4 l) (.inr rfl)).trans h4,
    (equaliser_retrain (f := Fd.LNK_LANE_EQ_VAL2_DFE5 l) (.inr rfl)).trans h5, offset_retrain, ?_⟩
  · refine (equaliser_retrain (.inl rfl)).trans (ctle_startValues.trans (State.get_leaveLock ?_ ?_ ?_ ?_))
    · simp [Field.apart, Fd.LNK_LANE_STAT_FREQ_ERR, Fd.LNK_LANE_EQ_CTL_CTLE_START]
    · simp [Field.apart, Fd.LNK_LANE_ES_STAT_BUSY, Fd.LNK_LANE_EQ_CTL_CTLE_START]
    · simp [Field.apart, Fd.LNK_LANE_ES_STAT_ABORT, Fd.LNK_LANE_EQ_CTL_CTLE_START]
    · simp only [Fd.MEMC_CAP_STAT_GAP, Fd.LNK_LANE_EQ_CTL_CTLE_START]; omega
  · unfold State.retrain
    rw [State.lane_setFrozen, State.lane_upd_same]

/-- What a retrain starts from of the state before is the start code alone. -/
theorem retrained_congr {l : Fin 128} (h : t.retrained l v)
    (hstart : t.get (Fd.LNK_LANE_EQ_CTL_CTLE_START l) = s.get (Fd.LNK_LANE_EQ_CTL_CTLE_START l)) : s.retrained l v := by
  obtain ⟨hstate, hcmd, hctle, hrest⟩ := h
  exact ⟨hstate, hcmd, hctle.trans hstart, hrest⟩

theorem State.onlyRegs.startValues {rs : List ℕ} (h : s.onlyRegs rs t) (l : ℕ)
    (k : (Fd.LNK_LANE_EQ_VAL_CTLE l).off ∈ rs := by simp)
    (k2 : (Fd.LNK_LANE_EQ_VAL2_DFE4 l).off ∈ rs := by simp) : s.onlyRegs rs (t.startValues l) := by
  unfold State.startValues
  have hctle := ((h.set (Fd.LNK_LANE_EQ_VAL_CTLE l) (t.get (Fd.LNK_LANE_EQ_CTL_CTLE_START l)) k).set
      (Fd.LNK_LANE_EQ_VAL_DFE1 l) 0 k).set
    (Fd.LNK_LANE_EQ_VAL_DFE2 l) 0 k
  exact (((hctle.set (Fd.LNK_LANE_EQ_VAL_DFE3 l) 0 k).set (Fd.LNK_LANE_EQ_VAL2_DFE4 l) 0 k2).set
    (Fd.LNK_LANE_EQ_VAL2_DFE5 l) 0 k2).lane_upd l _

theorem onlyRegs_retrain (s : State) (l : Fin 128) : s.onlyRegs (retrainRegs l) (s.retrain l) := by
  unfold State.retrain State.setLane
  have hstat : (Fd.LNK_LANE_STAT_STATE l).off ∈ retrainRegs l := by simp
      [retrainRegs, Fd.LNK_LANE_STAT_STATE, Fd.LNK_LANE_STAT_RETRIES]
  have hlock := (s.onlyRegs_refl (retrainRegs l)).leaveLock l hstat (by simp [retrainRegs]) (by simp [retrainRegs])
  have hstart := hlock.startValues l (by simp [retrainRegs, Fd.LNK_LANE_EQ_VAL_CTLE, Fd.LNK_LANE_EQ_VAL_DFE3])
    (by simp [retrainRegs, Fd.LNK_LANE_EQ_VAL2_DFE4, Fd.LNK_LANE_EQ_VAL2_DFE5])
  exact (((hstart.set (Fd.LNK_LANE_STAT_STATE l) lnTRAIN hstat).set (Fd.LNK_LANE_CTL_RETRAIN l) 0 (by simp [retrainRegs])).set
    (Fd.LNK_LANE_CDR_FOFS l) 0 (by simp [retrainRegs])).lane_upd l _ |>.setFrozen l _ hstat

end Sys2Proof.Machine
end

section
/-!
PROOF. Sleep and wake of the lanes (R174, R187 to R191).
-/
-- One thread for the lemmas: a thread for each would ask for more memory than a build may have.
set_option Elab.async false

namespace Sys2Proof.Machine.LaneSleep

variable {s : State} {l : ℕ}

/-! ## What a lane sends changes no register -/

theorem reg_fillIdle (n a : ℕ) : (s.fillIdle n).reg a = s.reg a := by
  unfold State.fillIdle
  split <;> rfl

theorem reg_txBlocks (n a : ℕ) (bs : List (ℕ × Wide)) : (s.txBlocks n bs).reg a = s.reg a := by
  unfold State.txBlocks
  split
  · rfl
  · exact reg_fillIdle n a

theorem reg_preamble (n a : ℕ) (b : Bool) : (s.preamble n b).reg a = s.reg a := by
  unfold State.preamble
  split <;> rfl

theorem get_preamble (n : ℕ) (b : Bool) (f : Field) : (s.preamble n b).get f = s.get f := Io.get_congr (reg_preamble n f.off b)

theorem idleFrom_preamble (b : Bool) : ((s.preamble l b).lane l).idleFrom = (s.lane l).idleFrom := by
  unfold State.preamble
  split
  · rfl
  · rw [State.lane_upd_same]; rfl

theorem out_preamble {o : Out} (h : o ∈ s.io.out) (n : ℕ) (b : Bool) : o ∈ (s.preamble n b).io.out := by
  unfold State.preamble
  split
  · exact h
  · exact List.mem_cons_of_mem _ h

/-! ## The sender -/

theorem exec_txSleep {l : Fin 128} (hr : s.restarting (laneRgn l) = false) (hen : s.get (Fd.LNK_LANE_CTL_TX_EN l) = 1)
    (hidle : s.get (Fd.LNK_LANE_STAT_TX_IDLE l) = 0) (hclock : s.clockLane (l / 4) = some (l : ℕ) → s.tileQuiet (l / 4) =
        true) :
    exec (.txSleep l) s = .next (s.txSleep l) := by
  change execTxSleep l s = _
  unfold execTxSleep
  have hen' : s.is (Fd.LNK_LANE_CTL_TX_EN l) = true := beq_iff_eq.2 hen
  have hidle' : s.is (Fd.LNK_LANE_STAT_TX_IDLE l) = false := beq_eq_false_iff_ne.2
      (by rw [show s.io.get _ = 0 from hidle]; decide)
  have hquiet : (!(s.clockLane (l / 4) == some (l : ℕ)) || s.tileQuiet (l / 4)) = true := by
    by_cases h : s.clockLane (l / 4) = some (l : ℕ)
    · rw [hclock h, Bool.or_true]
    · simp [h]
  rw [if_neg (by simp [hr]), if_pos (by simpa [hen', hidle'] using hquiet)]
  rfl

theorem exec_txSleep_held {l : Fin 128} (hclock : s.clockLane (l / 4) = some (l : ℕ)) (hquiet : s.tileQuiet (l / 4) = false) :
    exec (.txSleep l) s = .next s := by
  change execTxSleep l s = _
  unfold execTxSleep
  split
  · rfl
  · rw [if_neg (by simp [hclock, hquiet])]
    rfl

theorem exec_txWake {l : Fin 128} (hr : s.restarting (laneRgn l) = false) (hidle : s.get (Fd.LNK_LANE_STAT_TX_IDLE l) = 1)
    (hrest : ∀ x, (s.lane l).idleFrom = some x → (256000 : Int) ≤ ahead x s.tick) :
    exec (.txWake l) s = .next (s.txWake l) := by
  change execTxWake l s = _
  unfold execTxWake
  have hidle' : s.is (Fd.LNK_LANE_STAT_TX_IDLE l) = true := beq_iff_eq.2 hidle
  have hrested : s.txRested l = true := by
    unfold State.txRested
    split
    next x hx => exact decide_eq_true (hrest x hx)
    · rfl
  rw [if_neg (by simp [hr]), if_pos (by simp [hidle', hrested])]
  rfl

/-- The lane out of electrical idle, its preamble sent. -/
def woken (l : ℕ) (s : State) : State :=
  ((s.set (Fd.LNK_LANE_STAT_TX_IDLE l) 0 |>.emit (.txIdle l false)).lane' l fun x => { x with idleFrom := none }).preamble l
    (s.lane l).enable

theorem txWake_clock (h : s.clockLane (l / 4) = some l) (hst : s.portState (l / 4) = ptRUN ∨ s.portState (l / 4) = ptPHASE) :
    s.txWake l = (woken l s).enterPhase (l / 4) := if_pos ⟨h, hst⟩

theorem txWake_other (h : ¬ (s.clockLane (l / 4) = some l ∧ (s.portState (l / 4) = ptRUN ∨ s.portState (l / 4) = ptPHASE))) :
    s.txWake l = woken l s := if_neg h

theorem onlyRegs_woken : s.onlyRegs [(Fd.LNK_LANE_STAT_TX_IDLE l).off, (Fd.LNK_TILE_STAT_PHASE_OK (l / 4)).off] (woken l s)
    := by
  unfold woken
  exact (((s.onlyRegs_refl _).set (Fd.LNK_LANE_STAT_TX_IDLE l) 0 List.mem_cons_self).emit _).lane_upd l _ |>.of_reg fun a =>
      reg_preamble l a _

theorem awake_woken : (woken l s).get (Fd.LNK_LANE_STAT_TX_IDLE l) = 0 := by
  unfold woken
  rw [get_preamble, State.get_lane_upd, State.get_emit]
  exact State.get_set _ _ _ (Nat.le_refl 6) (by simp [Fd.LNK_LANE_STAT_TX_IDLE])

theorem idleFrom_woken : ((woken l s).lane l).idleFrom = none := by
  unfold woken
  rw [idleFrom_preamble, State.lane_upd_same]

theorem out_woken : Out.txIdle l false ∈ (woken l s).io.out := by
  unfold woken
  exact out_preamble (s := (s.set (Fd.LNK_LANE_STAT_TX_IDLE l) 0 |>.emit (.txIdle l false)).lane' l fun x =>
    { x with idleFrom := none }) List.mem_cons_self _ _

theorem get_enterPhase {n : ℕ} {f : Field} (h : f.off ≠ (Fd.LNK_TILE_STAT_STATE n).off) : (s.enterPhase n).get f = s.get f := by
  unfold State.enterPhase
  rw [State.get_port_upd, State.get_set_off (f := Fd.LNK_TILE_STAT_PHASE_OK n) _ 0 h,
    State.get_set_off (f := Fd.LNK_TILE_STAT_STATE n) _ _ h]

theorem lane_enterPhase (n k : ℕ) : (s.enterPhase n).lane k = s.lane k := by
  unfold State.enterPhase
  rw [State.lane_port_upd, State.lane_set, State.lane_set]

theorem out_enterPhase {n : ℕ} {o : Out} (h : o ∈ s.io.out) : o ∈ (s.enterPhase n).io.out := by
  unfold State.enterPhase
  rwa [State.out_port_upd, State.out_set, State.out_set]

theorem portState_enterPhase {n : ℕ} : (s.enterPhase n).portState n = ptPHASE := by
  unfold State.enterPhase State.portState
  rw [State.get_port_upd, State.get_set_apart _ _ (by simp [Field.apart, Fd.LNK_TILE_STAT_PHASE_OK, Fd.LNK_TILE_STAT_STATE])]
  exact State.get_set _ _ _ (Nat.zero_le 2) (by simp [Fd.LNK_TILE_STAT_STATE])

theorem onlyRegs_enterPhase {t : State} {rs : List ℕ} {n : ℕ} (h : s.onlyRegs rs t)
    (k : (Fd.LNK_TILE_STAT_PHASE_OK n).off ∈ rs) :
    s.onlyRegs rs (t.enterPhase n) := by
  unfold State.enterPhase
  exact ((h.set (Fd.LNK_TILE_STAT_STATE n) _ k).set (Fd.LNK_TILE_STAT_PHASE_OK n) 0 k).port_upd n _

/-- A transmitter that wakes: out of idle, its preamble sent; after the clock lane's wake the port measures its phase afresh. -/
theorem wakes (l : ℕ) : s.within [.io, .lnk] (s.txWake l) ∧
    s.onlyRegs [(Fd.LNK_LANE_STAT_TX_IDLE l).off, (Fd.LNK_TILE_STAT_PHASE_OK (l / 4)).off] (s.txWake l) ∧
    (s.txWake l).get (Fd.LNK_LANE_STAT_TX_IDLE l) = 0 ∧ ((s.txWake l).lane l).idleFrom = none ∧
    Out.txIdle l false ∈ (s.txWake l).io.out ∧
    (s.clockLane (l / 4) = some l → (s.portState (l / 4) = ptRUN ∨ s.portState (l / 4) = ptPHASE) →
      (s.txWake l).portState (l / 4) = ptPHASE ∧ ((s.txWake l).port (l / 4)).phase = {} ∧ ((s.txWake l).port (l / 4)).runAt
          = none) := by
  refine ⟨(s.within_refl _).txWake (n := l), ?_⟩
  by_cases h : s.clockLane (l / 4) = some l ∧ (s.portState (l / 4) = ptRUN ∨ s.portState (l / 4) = ptPHASE)
  · rw [txWake_clock h.1 h.2]
    refine ⟨onlyRegs_enterPhase onlyRegs_woken (by simp), (get_enterPhase ?_).trans awake_woken,
      (congrArg Lane.idleFrom (lane_enterPhase ..)).trans idleFrom_woken, out_enterPhase out_woken,
      fun _ _ => ⟨portState_enterPhase, ?_, ?_⟩⟩
    · simp only [Fd.LNK_LANE_STAT_TX_IDLE, Fd.LNK_TILE_STAT_STATE]; omega
    · rw [State.enterPhase, State.port_upd_same]
    · rw [State.enterPhase, State.port_upd_same]
  · rw [txWake_other h]
    exact ⟨onlyRegs_woken, awake_woken, idleFrom_woken, out_woken, fun hclock hst => absurd ⟨hclock, hst⟩ h⟩

/-! ## The receiver -/

theorem exec_sleepAnnExpire {l : Fin 128} (hr : s.restarting (laneRgn l) = false) (hst : s.laneSt l = lnLOCKED)
    (hann : (s.lane l).ann = true) :
    exec (.sleepAnnExpire l) s = .next ((s.lane' l fun x => { x with ann := false }).setFrozen l false) := by
  change execSleepAnnExpire l s = _
  unfold execSleepAnnExpire
  rw [if_neg (by simp [hr]), if_pos ⟨hst, hann⟩]
  rfl

/-- The lane as electrical idle leaves it: out of lock, in IDLE, its adaptation held. -/
def idled (l : ℕ) (s : State) : State :=
  (((s.lane' l fun x => { x with squelch := true, ann := false }).leaveLock l).setLane l lnIDLE).setFrozen l true

theorem exec_squelchAssert_locked {l : Fin 128} (hr : s.restarting (laneRgn l) = false) (hst : s.laneSt l = lnLOCKED) :
    exec (.squelchAssert l) s = .next (if (s.lane l).ann then idled l s
      else ((idled l s).set (Fd.LNK_LANE_STAT_SQ_UNANN l) 1).laneRecord l 0x84) := by
  change execSquelchAssert l s = _
  unfold execSquelchAssert
  exact if_pos ⟨hst, by simp [hr]⟩

theorem exec_squelchAssert_other {l : Fin 128} (hst : s.laneSt l ≠ lnLOCKED) :
    exec (.squelchAssert l) s = .next (s.lane' l fun x => { x with squelch := true, ann := false }) := by
  change execSquelchAssert l s = _
  unfold execSquelchAssert
  exact if_neg fun h => hst h.1

theorem exec_squelchDeassert {l : Fin 128} (hr : s.restarting (laneRgn l) = false)
    (hst : s.laneSt l = lnIDLE ∨ s.laneSt l = lnTRAIN) :
    exec (.squelchDeassert l) s = .next (((s.lane' l fun x =>
      { x with squelch := false, good := 0, inner := false, pos := 0, bad := 0, clk := true, alt := 0, lastUi := none
          }).setLane l
        lnWAKE).setFrozen l true) := by
  change execSquelchDeassert l s = _
  unfold execSquelchDeassert
  exact if_pos ⟨hst, by simp [hr]⟩

theorem exec_squelchDeassert_other {l : Fin 128} (h : s.laneSt l ≠ lnIDLE) (k : s.laneSt l ≠ lnTRAIN) :
    exec (.squelchDeassert l) s = .next (s.lane' l fun x => { x with squelch := false }) := by
  change execSquelchDeassert l s = _
  unfold execSquelchDeassert
  exact if_neg fun hst => hst.1.elim h k

theorem exec_wakeFail {l : Fin 128} (hr : s.restarting (laneRgn l) = false) (hst : s.laneSt l = lnWAKE) :
    exec (.wakeFail l) s = .next (((s.set (Fd.LNK_LANE_STAT_WAKE_FAIL l) 1).laneRecord l 0x85).retrain l) := by
  change execWakeFail l s = _
  unfold execWakeFail
  rw [if_neg (by simp [hr]), if_pos hst]
  rfl

/-- A record of the lane changes none of its registers. -/
theorem State.get_laneRecord (l : Fin 128) {f : Field} {k : ℕ}
    (hlow : 0x00810000 + 0x200000 * (l / 32) + 0x400 * (l % 32) ≤ f.off)
    (hhigh : f.off < 0x00810400 + 0x200000 * (l / 32) + 0x400 * (l % 32)) : (s.laneRecord l k).get f = s.get f :=
  State.get_err s _ (steady_lane l hlow hhigh)

theorem State.lane_laneRecord (l k n : ℕ) : (s.laneRecord l k).lane n = s.lane n := rfl

theorem laneSt_idled (l : ℕ) : (idled l s).laneSt l = lnIDLE := by
  unfold idled State.laneSt
  rw [State.get_setFrozen _ _ (by simp [Field.apart, Fd.LNK_LANE_STAT_FROZEN, Fd.LNK_LANE_STAT_STATE])]
  exact State.laneSt_setLane l lnIDLE

theorem frozen_idled (l : ℕ) : (idled l s).get (Fd.LNK_LANE_STAT_FROZEN l) = 1 := State.get_frozen l true

theorem squelch_idled (l : ℕ) : ((idled l s).lane l).squelch = true := by
  unfold idled State.setLane
  rw [State.lane_setFrozen, State.lane_set, State.lane_leaveLock, State.lane_upd_same]

/-- Electrical idle changes no field of the lane but its state, FROZEN, FREQ_ERR and the scan it breaks off. -/
theorem get_idled {f : Field} (hstate : (Fd.LNK_LANE_STAT_STATE l).apart f = true)
    (hfrozen : (Fd.LNK_LANE_STAT_FROZEN l).apart f = true)
    (hfreq : (Fd.LNK_LANE_STAT_FREQ_ERR l).apart f = true) (hscan : f.off ≠ (Fd.LNK_LANE_ES_STAT_BUSY l).off)
    (hgap : f.off ≠ Fd.MEMC_CAP_STAT_GAP.off) : (idled l s).get f = s.get f := by
  unfold idled State.setLane
  rw [State.get_setFrozen _ _ hfrozen, State.get_set_apart _ _ hstate, State.get_leaveLock hfreq (Field.apart_of_off hscan)
    (Field.apart_of_off hscan) hgap, State.get_lane_upd]

theorem within_idled (l : ℕ) : s.within [.io, .lnk, .memc] (idled l s) :=
  (((((s.within_refl _).lane_upd _ _).leaveLock (n := l)).setLane _ _).setFrozen _ _)

theorem onlyRegs_idled (l : ℕ) : s.onlyRegs [(Fd.LNK_LANE_STAT_SQ_UNANN l).off, (Fd.LNK_LANE_ES_STAT_ABORT l).off,
    Fd.MEMC_CAP_STAT_GAP.off] (idled l s) := by
  have hstat : (Fd.LNK_LANE_STAT_STATE l).off ∈ [(Fd.LNK_LANE_STAT_SQ_UNANN l).off, (Fd.LNK_LANE_ES_STAT_ABORT l).off,
    Fd.MEMC_CAP_STAT_GAP.off] := by simp [Fd.LNK_LANE_STAT_STATE, Fd.LNK_LANE_STAT_SQ_UNANN]
  have hunlocked := ((s.onlyRegs_refl _).lane_upd l fun x => { x with squelch := true, ann := false }).leaveLock l hstat
  exact (hunlocked.set (Fd.LNK_LANE_STAT_STATE l) lnIDLE hstat).setFrozen l true hstat

/-- Squelch in LOCKED (R188): IDLE, and SQ_UNANN where nothing announced it. -/
theorem squelched (l : Fin 128) : let t := if (s.lane l).ann then idled l s
      else ((idled l s).set (Fd.LNK_LANE_STAT_SQ_UNANN l) 1).laneRecord l 0x84
    s.within [.io, .lnk, .memc] t ∧
      s.onlyRegs [(Fd.LNK_LANE_STAT_SQ_UNANN l).off, (Fd.LNK_LANE_ES_STAT_ABORT l).off, Fd.MEMC_CAP_STAT_GAP.off] t ∧
      t.laneSt l = lnIDLE ∧ t.get (Fd.LNK_LANE_STAT_FROZEN l) = 1 ∧
      (t.lane l).squelch = true ∧ t.get (Fd.LNK_LANE_STAT_LOCK_LOST l) = s.get (Fd.LNK_LANE_STAT_LOCK_LOST l) ∧
      t.get (Fd.LNK_LANE_LOCK_LOSS_COUNT l) = s.get (Fd.LNK_LANE_LOCK_LOSS_COUNT l) ∧
      t.get (Fd.LNK_LANE_STAT_SQ_UNANN l) = if (s.lane l).ann then s.get (Fd.LNK_LANE_STAT_SQ_UNANN l) else 1 := by
  have hlost : (idled l s).get (Fd.LNK_LANE_STAT_LOCK_LOST l) = s.get (Fd.LNK_LANE_STAT_LOCK_LOST l) :=
    get_idled (by simp [Field.apart, Fd.LNK_LANE_STAT_STATE, Fd.LNK_LANE_STAT_LOCK_LOST])
      (by simp [Field.apart, Fd.LNK_LANE_STAT_FROZEN, Fd.LNK_LANE_STAT_LOCK_LOST])
      (by simp [Field.apart, Fd.LNK_LANE_STAT_FREQ_ERR, Fd.LNK_LANE_STAT_LOCK_LOST])
      (by simp [Fd.LNK_LANE_STAT_LOCK_LOST, Fd.LNK_LANE_ES_STAT_BUSY])
      (by simp only [Fd.LNK_LANE_STAT_LOCK_LOST, Fd.MEMC_CAP_STAT_GAP]; omega)
  have hcount : (idled l s).get (Fd.LNK_LANE_LOCK_LOSS_COUNT l) = s.get (Fd.LNK_LANE_LOCK_LOSS_COUNT l) :=
    get_idled (by simp [Field.apart, Fd.LNK_LANE_STAT_STATE, Fd.LNK_LANE_LOCK_LOSS_COUNT])
      (by simp [Field.apart, Fd.LNK_LANE_STAT_FROZEN, Fd.LNK_LANE_LOCK_LOSS_COUNT])
      (by simp [Field.apart, Fd.LNK_LANE_STAT_FREQ_ERR, Fd.LNK_LANE_LOCK_LOSS_COUNT])
      (by simp [Fd.LNK_LANE_LOCK_LOSS_COUNT, Fd.LNK_LANE_ES_STAT_BUSY])
      (by simp only [Fd.LNK_LANE_LOCK_LOSS_COUNT, Fd.MEMC_CAP_STAT_GAP]; omega)
  by_cases hann : (s.lane l).ann = true
  · simp only [hann, if_true]
    refine ⟨within_idled l, onlyRegs_idled l, laneSt_idled l, frozen_idled l, squelch_idled l, hlost, hcount, ?_⟩
    exact get_idled (by simp [Field.apart, Fd.LNK_LANE_STAT_STATE, Fd.LNK_LANE_STAT_SQ_UNANN])
      (by simp [Field.apart, Fd.LNK_LANE_STAT_FROZEN, Fd.LNK_LANE_STAT_SQ_UNANN])
      (by simp [Field.apart, Fd.LNK_LANE_STAT_FREQ_ERR, Fd.LNK_LANE_STAT_SQ_UNANN])
      (by simp [Fd.LNK_LANE_STAT_SQ_UNANN, Fd.LNK_LANE_ES_STAT_BUSY])
      (by simp only [Fd.LNK_LANE_STAT_SQ_UNANN, Fd.MEMC_CAP_STAT_GAP]; omega)
  · simp only [hann, if_false, Bool.false_eq_true]
    unfold State.laneSt
    have hregs := (onlyRegs_idled (s := s) l).set (Fd.LNK_LANE_STAT_SQ_UNANN l) 1 List.mem_cons_self
    refine ⟨((within_idled l).set _ _).err _, hregs.err _, ?_, ?_, ?_, ?_, ?_, ?_⟩
    · rw [State.get_laneRecord l (by simp [Fd.LNK_LANE_STAT_STATE]) (by simp [Fd.LNK_LANE_STAT_STATE])]
      exact (State.get_set_apart _ _ (by simp [Field.apart, Fd.LNK_LANE_STAT_SQ_UNANN, Fd.LNK_LANE_STAT_STATE])).trans
          (laneSt_idled l)
    · rw [State.get_laneRecord l (by simp [Fd.LNK_LANE_STAT_FROZEN]) (by simp [Fd.LNK_LANE_STAT_FROZEN]),
        State.get_set_apart _ _ (by simp [Field.apart, Fd.LNK_LANE_STAT_SQ_UNANN, Fd.LNK_LANE_STAT_FROZEN])]
      exact frozen_idled l
    · rw [State.lane_laneRecord, State.lane_set]
      exact squelch_idled l
    · rw [State.get_laneRecord l (by simp [Fd.LNK_LANE_STAT_LOCK_LOST]) (by simp [Fd.LNK_LANE_STAT_LOCK_LOST]),
        State.get_set_apart _ _ (by simp [Field.apart, Fd.LNK_LANE_STAT_SQ_UNANN, Fd.LNK_LANE_STAT_LOCK_LOST])]
      exact hlost
    · rw [State.get_laneRecord l (by simp [Fd.LNK_LANE_LOCK_LOSS_COUNT]) (by simp [Fd.LNK_LANE_LOCK_LOSS_COUNT]),
        State.get_set_off _ _ (by simp [Fd.LNK_LANE_STAT_SQ_UNANN, Fd.LNK_LANE_LOCK_LOSS_COUNT])]
      exact hcount
    · rw [State.get_laneRecord l (by simp [Fd.LNK_LANE_STAT_SQ_UNANN]) (by simp [Fd.LNK_LANE_STAT_SQ_UNANN])]
      exact State.get_set _ _ _ (Nat.le_refl 18) (by simp [Fd.LNK_LANE_STAT_SQ_UNANN])

/-- Settles O24, command by command: each changes its lane by one rule. -/
theorem sleepAndWakeComplete : Obligations.SleepAndWakeComplete := by
  unfold Obligations.SleepAndWakeComplete
  refine ⟨fun l s hr hen hidle hclock => ⟨_, exec_txSleep hr hen hidle hclock, ?_⟩, fun l s hclock hquiet =>
      exec_txSleep_held hclock hquiet,
    fun l s hr hidle hrest => ⟨_, exec_txWake hr hidle hrest, wakes l⟩, fun l s hr hst hann =>
        ⟨_, exec_sleepAnnExpire hr hst hann, ?_⟩,
    fun l s hr hst => ⟨_, exec_squelchAssert_locked hr hst, squelched l⟩,
    fun l s hst => ⟨_, exec_squelchAssert_other hst, (s.within_refl _).lane_upd _ _, rfl, ?_⟩,
    fun l s hr hst => ⟨_, exec_squelchDeassert hr hst, ?_⟩,
    fun l s hidle htrain => ⟨_, exec_squelchDeassert_other hidle htrain, (s.within_refl _).lane_upd _ _, rfl, ?_⟩,
    fun l s hr hst => ⟨_, exec_wakeFail hr hst, ?_⟩⟩
  · unfold State.txSleep
    have hsent := (s.onlyRegs_refl [(Fd.LNK_LANE_STAT_TX_IDLE l).off]).of_reg fun a => reg_txBlocks l a
        (List.replicate 8 (2, sleepAnnPayload))
    refine ⟨((((s.within_refl _).txBlocks (n := l) (bs := _)).set _ _).emit _).lane_upd _ _,
      ((hsent.set (Fd.LNK_LANE_STAT_TX_IDLE l) 1 List.mem_cons_self).emit _).lane_upd l _, ?_, rfl, ?_⟩
    · rw [State.get_lane_upd, State.get_emit]
      exact State.get_set _ _ _ (Nat.le_refl 6) (by simp [Fd.LNK_LANE_STAT_TX_IDLE])
    · rw [State.lane_upd_same]
  · refine ⟨((s.within_refl _).lane_upd _ _).setFrozen _ _, ((s.onlyRegs_refl _).lane_upd l _).setFrozen l false
      (by simp [Fd.LNK_LANE_STAT_STATE, Fd.LNK_LANE_STAT_FROZEN]), ?_, ?_, ?_⟩
    · rw [State.lane_setFrozen, State.lane_upd_same]
    · exact (State.get_setFrozen _ _ (by simp [Field.apart, Fd.LNK_LANE_STAT_FROZEN, Fd.LNK_LANE_STAT_STATE])).trans hst
    · have hbit : s.get (Fd.LNK_LANE_CTL_FREEZE l) < 2 := Io.get_lt _ _
      rw [State.get_frozen, Bool.false_or]
      change (if (s.get (Fd.LNK_LANE_CTL_FREEZE l) == 1) = true then 1 else 0) = _
      simp only [beq_iff_eq]
      split <;> omega
  · rw [State.lane_upd_same]
  · refine ⟨(((s.within_refl _).lane_upd _ _).setLane _ _).setFrozen _ _, ?_, ?_, ?_, ?_, State.get_frozen _ _⟩
    · exact (((s.onlyRegs_refl _).lane_upd l _).set (Fd.LNK_LANE_STAT_STATE l) lnWAKE List.mem_cons_self).setFrozen l true
        List.mem_cons_self
    · refine (State.get_setFrozen _ _ (by simp [Field.apart, Fd.LNK_LANE_STAT_FROZEN, Fd.LNK_LANE_STAT_STATE])).trans ?_
      exact State.laneSt_setLane l lnWAKE
    · rw [State.lane_setFrozen, State.setLane, State.lane_set, State.lane_upd_same]
    · rw [State.lane_setFrozen, State.setLane, State.lane_set, State.lane_upd_same]
  · rw [State.lane_upd_same]
  · have hstat : (Fd.LNK_LANE_STAT_WAKE_FAIL l).off ∈ retrainRegs l := by simp
      [retrainRegs, Fd.LNK_LANE_STAT_WAKE_FAIL, Fd.LNK_LANE_STAT_RETRIES]
    have hfail := ((s.onlyRegs_refl _).set (Fd.LNK_LANE_STAT_WAKE_FAIL l) 1 hstat).err
      { level := 0, region := laneRgn l, block := 1, code := laneRgn l * 256 + 0x85, cell := l }
    refine ⟨(((s.within_refl _).set _ _).err _).retrain (n := l), hfail.trans (onlyRegs_retrain _ l), ?_, ?_⟩
    · rw [State.get_retrain_stat (f := Fd.LNK_LANE_STAT_WAKE_FAIL l) rfl (Nat.le_refl 17)
        (.inr (by simp [Fd.LNK_LANE_STAT_WAKE_FAIL])) (by simp [Fd.LNK_LANE_STAT_WAKE_FAIL])
        (.inr (by simp [Fd.LNK_LANE_STAT_WAKE_FAIL])), State.get_laneRecord l (by simp [Fd.LNK_LANE_STAT_WAKE_FAIL])
            (by simp [Fd.LNK_LANE_STAT_WAKE_FAIL])]
      exact State.get_set _ _ _ (Nat.le_refl 17) (by simp [Fd.LNK_LANE_STAT_WAKE_FAIL])
    · refine retrained_congr (retrained_retrain _ l) ?_
      rw [State.get_laneRecord l (by simp [Fd.LNK_LANE_EQ_CTL_CTLE_START]) (by simp [Fd.LNK_LANE_EQ_CTL_CTLE_START]),
        State.get_set_off _ _ (by simp [Fd.LNK_LANE_EQ_CTL_CTLE_START, Fd.LNK_LANE_STAT_WAKE_FAIL])]

end Sys2Proof.Machine.LaneSleep
end

section
/-!
SUPPORT. What the lanes and ports leave alone when a port relinks, a lane fails or a lane wakes (R186, R189, R198, R204),
    for any class of
fields that lies apart from the registers of those lanes and ports.
-/
-- One thread for the lemmas: a thread for each would ask for more memory than a build may have.
set_option Elab.async false

namespace Sys2Proof.Machine

variable {s t v : State} {C : Field → Prop}

/-- Every field of a class reads in t as in s. -/
def State.keeps (C : Field → Prop) (s t : State) : Prop := ∀ f, C f → t.get f = s.get f

/-- No field of the class lies in a register of lane k. -/
def clearOfLane (C : Field → Prop) (k : ℕ) : Prop :=
  ∀ f, C f → f.off < 0x00810000 + 0x200000 * (k / 32) + 0x400 * (k % 32) ∨
    0x00810400 + 0x200000 * (k / 32) + 0x400 * (k % 32) ≤ f.off

/-- The fields of tile n's port that a relink, a bond and a wake write. -/
def portFields (n : ℕ) : List Field :=
  [Fd.LNK_TILE_STAT_STATE n, Fd.LNK_TILE_STAT_GEN n, Fd.LNK_TILE_STAT_UP_ACTIVE n, Fd.LNK_TILE_STAT_DN_ACTIVE n,
      Fd.LNK_TILE_STAT_PHASE_OK n,
    Fd.LNK_TILE_STAT_TILE_FAIL n, Fd.LNK_TILE_CTL_RELINK n]

/-- The class lies apart from them. -/
def clearOfTile (C : Field → Prop) (n : ℕ) : Prop := ∀ f, C f → ∀ g ∈ portFields n, g.apart f = true

/-- The class lies apart from the capture's gap flag. -/
def clearOfGap (C : Field → Prop) : Prop := ∀ f, C f → f.off ≠ Fd.MEMC_CAP_STAT_GAP.off

theorem clearOfLane.off {k : ℕ} (h : clearOfLane C k) {g : Field}
    (hlow : 0x00810000 + 0x200000 * (k / 32) + 0x400 * (k % 32) ≤ g.off)
    (hhigh : g.off < 0x00810400 + 0x200000 * (k / 32) + 0x400 * (k % 32)) (f : Field) (hf : C f) : g.apart f = true :=
  Field.apart_of_off fun heq => by have := h f hf; omega

/-- A class outside the registers of tile n's port lies apart from its fields. -/
theorem clearOfTile_of_off {n : ℕ} (h : ∀ f, C f → f.off < 0x00830000 + 0x200000 * (n / 8) + 0x100 * (n % 8) ∨
    0x00830100 + 0x200000 * (n / 8) + 0x100 * (n % 8) ≤ f.off) : clearOfTile C n := by
  intro f hf g hg
  have hoff := h f hf
  have hport : 0x00830000 + 0x200000 * (n / 8) + 0x100 * (n % 8) ≤ g.off ∧ g.off < 0x00830100 + 0x200000 * (n / 8) + 0x100 *
      (n % 8) := by
    simp only [portFields, List.mem_cons, List.not_mem_nil, or_false] at hg
    obtain rfl | rfl | rfl | rfl | rfl | rfl | rfl := hg <;>
      simp [Fd.LNK_TILE_STAT_STATE, Fd.LNK_TILE_STAT_GEN, Fd.LNK_TILE_STAT_UP_ACTIVE, Fd.LNK_TILE_STAT_DN_ACTIVE,
          Fd.LNK_TILE_STAT_PHASE_OK,
        Fd.LNK_TILE_STAT_TILE_FAIL, Fd.LNK_TILE_CTL_RELINK]
  exact Field.apart_of_off fun heq => by omega

namespace State.keeps

theorem refl (s : State) : s.keeps C s := fun _ _ => rfl

theorem trans (h : s.keeps C t) (k : t.keeps C v) : s.keeps C v := fun f hf => (k f hf).trans (h f hf)

theorem of_reg (h : s.keeps C t) (k : ∀ a, v.reg a = t.reg a) : s.keeps C v := fun f hf => (Io.get_congr (k f.off)).trans
    (h f hf)

theorem set (h : s.keeps C t) (g : Field) (n : ℕ) (k : ∀ f, C f → g.apart f = true) : s.keeps C (t.set g n) := fun f hf =>
  (State.get_set_apart t n (k f hf)).trans (h f hf)

theorem emit (h : s.keeps C t) (o : Out) : s.keeps C (t.emit o) := h
theorem lane_upd (h : s.keeps C t) (k : ℕ) (z : Lane → Lane) : s.keeps C (t.lane' k z) := h
theorem port_upd (h : s.keeps C t) (n : ℕ) (z : TilePort → TilePort) : s.keeps C (t.port' n z) := h

theorem err (h : s.keeps C t) (e : Err) (k : ∀ f, C f → f.steady = true) : s.keeps C (t.err e) := fun f hf =>
  (State.get_err t e (k f hf)).trans (h f hf)

theorem onlyIf (h : s.keeps C t) {b : Bool} {z : State → State} (k : s.keeps C (z t)) : s.keeps C (t.onlyIf b z) := by
  cases b
  · exact h
  · exact k

theorem each (h : s.keeps C t) {α : Type} {l : List α} {z : α → State → State}
    (k : ∀ x ∈ l, ∀ w, s.keeps C w → s.keeps C (z x w)) :
    s.keeps C (t.each l z) :=
  List.foldlRecOn (motive := fun w : State => s.keeps C w) l _ h fun w hw x hx => k x hx w hw

theorem tapEye (h : s.keeps C t) (n e : ℕ) (b : Bool) (k : clearOfGap C) : s.keeps C (t.tapEye n e b) := fun f hf =>
  (State.get_tapEye n e b (k f hf)).trans (h f hf)

/-! ## A lane -/

section
variable {k : ℕ} (hk : clearOfLane C k)
include hk

theorem setLane (h : s.keeps C t) (n : ℕ) : s.keeps C (t.setLane k n) :=
  h.set _ _ (hk.off (by simp [Fd.LNK_LANE_STAT_STATE]) (by simp [Fd.LNK_LANE_STAT_STATE]))

theorem setFrozen (h : s.keeps C t) (b : Bool) : s.keeps C (t.setFrozen k b) :=
  h.set _ _ (hk.off (by simp [Fd.LNK_LANE_STAT_FROZEN]) (by simp [Fd.LNK_LANE_STAT_FROZEN]))

theorem leaveLock (h : s.keeps C t) (hgap : clearOfGap C) : s.keeps C (t.leaveLock k) := by
  have hfreq := h.set (Fd.LNK_LANE_STAT_FREQ_ERR k) 0 (hk.off (by simp [Fd.LNK_LANE_STAT_FREQ_ERR])
      (by simp [Fd.LNK_LANE_STAT_FREQ_ERR]))
  have hbusy := hfreq.set (Fd.LNK_LANE_ES_STAT_BUSY k) 0 (hk.off (by simp [Fd.LNK_LANE_ES_STAT_BUSY])
      (by simp [Fd.LNK_LANE_ES_STAT_BUSY]))
  exact hfreq.onlyIf ((hbusy.set (Fd.LNK_LANE_ES_STAT_ABORT k) 1
    (hk.off (by simp [Fd.LNK_LANE_ES_STAT_ABORT]) (by simp [Fd.LNK_LANE_ES_STAT_ABORT]))).tapEye _ _ _ hgap)

theorem startValues (h : s.keeps C t) : s.keeps C (t.startValues k) := fun f hf => by
  have hapart := hk f hf
  refine (State.get_startValues ?_ ?_).trans (h f hf)
  · simp only [Fd.LNK_LANE_EQ_VAL_CTLE]; omega
  · simp only [Fd.LNK_LANE_EQ_VAL2_DFE4]; omega

theorem retrain (h : s.keeps C t) (hgap : clearOfGap C) : s.keeps C (t.retrain k) := by
  have hstart := ((h.leaveLock hk hgap).startValues hk).setLane hk lnTRAIN
  have hcmd := hstart.set (Fd.LNK_LANE_CTL_RETRAIN k) 0 (hk.off (by simp [Fd.LNK_LANE_CTL_RETRAIN])
      (by simp [Fd.LNK_LANE_CTL_RETRAIN]))
  exact ((hcmd.set (Fd.LNK_LANE_CDR_FOFS k) 0 (hk.off (by simp [Fd.LNK_LANE_CDR_FOFS])
      (by simp [Fd.LNK_LANE_CDR_FOFS]))).lane_upd k _).setFrozen hk false

end

/-! ## A tile -/

/-- A change of generation writes GEN of the tile's lanes. -/
theorem setGen {n g : ℕ} (h : s.keeps C t) (hgen : ∀ k ∈ tileLanes n, ∀ f, C f → (Fd.LNK_LANE_STAT_GEN k).apart f = true) :
    s.keeps C (t.setGen n g) := h.each fun k hk _ hw => hw.set _ _ (hgen k (List.mem_filter.1 hk).1)

theorem txPeriod {n : ℕ} (h : s.keeps C t) (bs : List (ℕ × Wide)) : s.keeps C (t.txPeriod n bs) := by
  unfold State.txPeriod
  dsimp only
  split
  · exact h
  · exact (foldl_keeps (fun w : State => s.keeps C w) _ (fun w x hw => hw.of_reg fun a => LaneSleep.reg_txBlocks _ a _) _ t
      h).port_upd _ _

section
variable {n : ℕ} (hn : clearOfTile C n)
include hn

theorem set_tile (h : s.keeps C t) (g : Field) (x : ℕ) (hg : g ∈ portFields n) : s.keeps C (t.set g x) :=
  h.set _ _ fun f hf => hn f hf g hg

/-- Entry into LANES, after the retrains and the change of generation: the port's own registers. -/
theorem enterLanes_port (t : State) : ((t.each (t.rxLanes n) State.retrain).setGen n 1).keeps C (t.enterLanes n) := by
  have hstate := (State.keeps.refl _).set_tile hn (t := (t.each (t.rxLanes n) State.retrain).setGen n 1)
      (Fd.LNK_TILE_STAT_STATE n) ptLANES (by simp [portFields])
  have hbond := ((hstate.set_tile hn (Fd.LNK_TILE_STAT_GEN n) 1 (by simp [portFields])).set_tile hn
      (Fd.LNK_TILE_STAT_UP_ACTIVE n) 0 (by simp [portFields])).set_tile hn (Fd.LNK_TILE_STAT_DN_ACTIVE n) 0
      (by simp [portFields])
  exact ((hbond.set_tile hn (Fd.LNK_TILE_STAT_PHASE_OK n) 0 (by simp [portFields])).set_tile hn (Fd.LNK_TILE_CTL_RELINK n) 0
      (by simp [portFields])).port_upd n _

theorem enterLanes (h : s.keeps C t) (hgap : clearOfGap C) (hrx : ∀ k ∈ t.rxLanes n, clearOfLane C k)
    (hgen : ∀ k ∈ tileLanes n, ∀ f, C f → (Fd.LNK_LANE_STAT_GEN k).apart f = true) : s.keeps C (t.enterLanes n) := by
  have hlanes : s.keeps C (t.each (t.rxLanes n) State.retrain) := h.each fun k hk _ hw => hw.retrain (hrx k hk) hgap
  exact (hlanes.setGen (g := 1) hgen).trans (enterLanes_port hn t)

theorem portFailed (h : s.keeps C t) (hsteady : ∀ f, C f → f.steady = true)
    (hboot : ∀ f, C f → f.off ≠ Fd.CHIP_BOOT_STAT_DONE.off) :
    s.keeps C (t.portFailed n) := by
  have hfailed := ((h.set_tile hn (Fd.LNK_TILE_STAT_STATE n) ptFAILED (by simp [portFields])).set_tile hn
      (Fd.LNK_TILE_STAT_TILE_FAIL n) 1 (by simp [portFields])).err
      { level := 1, region := tileRgn n, block := 3, code := tileRgn n * 256 + 0x87, cell := n, warning := false } hsteady
  unfold State.portFailed
  split
  · exact h
  · exact hfailed.onlyIf (hfailed.set _ _ fun f hf => Field.apart_of_off (hboot f hf))

theorem relink (h : s.keeps C t) (hgap : clearOfGap C) (hrx : ∀ k ∈ t.rxLanes n, clearOfLane C k)
    (hgen : ∀ k ∈ tileLanes n, ∀ f, C f → (Fd.LNK_LANE_STAT_GEN k).apart f = true) (hsteady : ∀ f, C f → f.steady = true)
    (hboot : ∀ f, C f → f.off ≠ Fd.CHIP_BOOT_STAT_DONE.off) : s.keeps C (t.relink n) := by
  unfold State.relink
  dsimp only
  split
  · exact h
  split
  · exact h.enterLanes hn hgap hrx hgen
  split
  · exact (h.port_upd n _).portFailed hn hsteady hboot
  · exact (h.port_upd n _).enterLanes hn hgap hrx hgen

theorem sendMarker (h : s.keeps C t) : s.keeps C (t.sendMarker n) := by
  have hsent : s.keeps C (t.each ((tileLanes n).filter t.drives) fun l w => w.txBlocks l
      [(2, markerPayload l (t.nextActive n) (t.port n).dnSeq)]) :=
    h.each fun k _ _ hw => hw.of_reg fun a => LaneSleep.reg_txBlocks k a _
  exact ((hsent.set_tile hn (Fd.LNK_TILE_STAT_DN_ACTIVE n) _ (by simp [portFields])).emit
    _).port_upd n _

theorem sendTile (h : s.keeps C t) (mtype hdata : ℕ) (p : List Wide) : s.keeps C (t.sendTile n mtype hdata p) := by
  have hstream : ∀ bs, s.keeps C (t.txStream n bs) := by
    intro bs
    unfold State.txStream
    dsimp only
    split
    · exact h.txPeriod _
    · exact ((h.txPeriod _).sendMarker hn).txPeriod _
  exact ((hstream _).emit _).port_upd n _

theorem sleepNow (h : s.keeps C t) : s.keeps C (t.sleepNow n) := by
  unfold State.sleepNow State.sendSleep
  split
  · exact (h.sendTile hn _ _ _).port_upd n _
  · exact h

theorem tryBond (h : s.keeps C t) : s.keeps C (t.tryBond n) := by
  unfold State.tryBond
  dsimp only
  split
  · exact (((h.set_tile hn (Fd.LNK_TILE_STAT_STATE n) ptBOND (by simp [portFields])).set_tile hn
      (Fd.LNK_TILE_STAT_UP_ACTIVE n) 0 (by simp [portFields])).set_tile hn (Fd.LNK_TILE_STAT_DN_ACTIVE n) 0
      (by simp [portFields])).port_upd n _
  · exact h

theorem enterPhase (h : s.keeps C t) : s.keeps C (t.enterPhase n) :=
  ((h.set_tile hn (Fd.LNK_TILE_STAT_STATE n) ptPHASE (by simp [portFields])).set_tile hn (Fd.LNK_TILE_STAT_PHASE_OK n) 0
    (by simp [portFields])).port_upd n _

/-- A wake of a lane of tile n writes TX_IDLE, and where the lane carries the clock the port's state. -/
theorem keepClock (h : s.keeps C t) (hidle : ∀ k ∈ tileLanes n, ∀ f, C f → (Fd.LNK_LANE_STAT_TX_IDLE k).apart f = true) :
    s.keeps C (t.keepClock n) := by
  unfold State.keepClock
  split
  next k hclock =>
    have hk : k ∈ tileLanes n := List.mem_of_find?_eq_some hclock
    have htile : k / 4 = n := by simp only [tileLanes, List.mem_cons, List.not_mem_nil, or_false] at hk; omega
    have hwoken : s.keeps C (LaneSleep.woken k t) :=
      (h.set _ _ (hidle k hk)).of_reg fun a => LaneSleep.reg_preamble k a _
    refine h.onlyIf ?_
    unfold State.txWake
    dsimp only
    split
    · exact htile ▸ hwoken.enterPhase hn
    · exact hwoken
  · exact h

end

/-- The clock role passes on, or the port fails. -/
theorem loseClock {l : ℕ} (h : s.keeps C t) (hn : clearOfTile C (l / 4)) (hgap : clearOfGap C)
    (hrx : ∀ k ∈ t.rxLanes (l / 4), clearOfLane C k)
    (hgen : ∀ k ∈ tileLanes (l / 4), ∀ f, C f → (Fd.LNK_LANE_STAT_GEN k).apart f = true)
    (hidle : ∀ k ∈ tileLanes (l / 4), ∀ f, C f → (Fd.LNK_LANE_STAT_TX_IDLE k).apart f = true)
    (hsteady : ∀ f, C f → f.steady = true) (hboot : ∀ f, C f → f.off ≠ Fd.CHIP_BOOT_STAT_DONE.off) : s.keeps C
        (t.loseClock l) := by
  have hout := h.port_upd (l / 4) fun p => { p with clkOut := p.clkOut ||| 2 ^ (l % 4) }
  unfold State.loseClock
  dsimp only
  split
  · exact hout.portFailed hn hsteady hboot
  · exact ((hout.relink hn hgap hrx hgen hsteady hboot).port_upd (l / 4) _).keepClock hn hidle

end State.keeps

/-! ## The frame of regions -/

/-- A register is known by its one field. -/
theorem State.reg_of_get {a : ℕ} (h : t.get ⟨a, 31, 0⟩ = s.get ⟨a, 31, 0⟩) : t.reg a = s.reg a := by
  have ht := (t.reg a).isLt
  have hs := (s.reg a).isLt
  have hval : (t.reg a).toNat / 2 ^ 0 % 2 ^ 32 = (s.reg a).toNat / 2 ^ 0 % 2 ^ 32 := h
  refine BitVec.eq_of_toNat_eq ?_
  omega

/-- The steady fields outside the regions of the chip, the links and the memory. -/
def outside (qs : List ℕ) (f : Field) : Prop := f.off / 0x200000 ∉ qs ∧ f.steady = true

theorem onlyRegions_of_keeps {qs : List ℕ} {s t : State} (h : s.keeps (outside qs) t) : s.onlyRegions qs t := fun a ha
    halarm hlost =>
  State.reg_of_get (h ⟨a, 31, 0⟩ ⟨ha, by simp [Field.steady, halarm, hlost]⟩)

theorem outside_clearOfLane {qs : List ℕ} (hqs : ∀ r ∈ [4, 5, 6, 7, 14], r ∈ qs) {k : ℕ} (hk : k < 128) : clearOfLane
    (outside qs) k := by
  intro f hf
  have hregion : f.off / 0x200000 ∉ [4, 5, 6, 7, 14] := fun hmem => hf.1 (hqs _ hmem)
  simp only [List.mem_cons, List.not_mem_nil, or_false] at hregion
  omega

theorem outside_clearOfTile {qs : List ℕ} (hqs : ∀ r ∈ [4, 5, 6, 7, 14], r ∈ qs) {n : ℕ} (hn : n < 32) : clearOfTile
    (outside qs) n := by
  refine clearOfTile_of_off fun f hf => ?_
  have hregion : f.off / 0x200000 ∉ [4, 5, 6, 7, 14] := fun hmem => hf.1 (hqs _ hmem)
  simp only [List.mem_cons, List.not_mem_nil, or_false] at hregion
  omega

theorem outside_clearOfGap {qs : List ℕ} (hqs : ∀ r ∈ [4, 5, 6, 7, 14], r ∈ qs) : clearOfGap (outside qs) := by
  intro f hf heq
  have hregion : f.off / 0x200000 ∉ [4, 5, 6, 7, 14] := fun hmem => hf.1 (hqs _ hmem)
  rw [heq] at hregion
  exact hregion (by decide)

/-! ## The records -/

theorem State.within.portFailed {u : List Part} (h : s.within u t) (n : ℕ) (k : .io ∈ u := by decide) : s.within u
    (t.portFailed n) := by
  unfold State.portFailed
  split
  · exact h
  · exact (((h.set _ _ k).set _ _ k).err _ k).showBringUp k

section
variable {u : List Part} (h : s.within u t) (k : .io ∈ u := by decide) (l : .lnk ∈ u := by decide)
include h k l

theorem State.within.tryBond (n : ℕ) : s.within u (t.tryBond n) := by
  unfold State.tryBond
  dsimp only
  split
  · exact (((h.set _ _ k).set _ _ k).set _ _ k).port_upd _ _ l
  · exact h

theorem State.within.relink (n : ℕ) (m : .memc ∈ u := by decide) : s.within u (t.relink n) := by
  unfold State.relink
  dsimp only
  split
  · exact h
  split
  · exact h.enterLanes n k l m
  split
  · exact (h.port_upd n _ l).portFailed n k
  · exact (h.port_upd n _ l).enterLanes n k l m

theorem State.within.loseClock (n : ℕ) (m : .memc ∈ u := by decide) : s.within u (t.loseClock n) := by
  unfold State.loseClock
  dsimp only
  split
  · exact (h.port_upd _ _ l).portFailed _ k
  · exact (((h.port_upd _ _ l).relink k l _ m).port_upd _ _ l).keepClock k l _

theorem State.within.laneFailed (n : ℕ) (m : .memc ∈ u := by decide) : s.within u (t.laneFailed n) := by
  have hfailed := (((h.leaveLock n k m).setLane n lnFAILED k).set (Fd.LNK_LANE_STAT_LANE_FAIL n) 1 k).err
    { level := 1, region := laneRgn n, block := 1, code := laneRgn n * 256 + 0x82, action := 4, cell := n, count := 3 } k
  unfold State.laneFailed
  dsimp only
  split
  · exact hfailed.loseClock k l n m
  · exact (hfailed.sleepNow k l _).tryBond k l _

end

end Sys2Proof.Machine
end

section
/-!
PROOF. Retrains and eye scans (R186, R193).
-/
-- One thread for the lemmas: a thread for each would ask for more memory than a build may have.
set_option Elab.async false

namespace Sys2Proof.Machine.LaneRetrain

variable {s : State} {l : Fin 128}

theorem exec_laneRetrain (h : s.admits (.laneRetrain l) = true) (hst : s.laneSt l ≠ lnOFF) :
    exec (.laneRetrain l) s = .next ((s.onlyIf (s.laneSt l == lnFAILED) (State.set (Fd.LNK_LANE_STAT_RETRIES l) 0)).retrain
        l) := by
  change execLaneRetrain l s = _
  unfold execLaneRetrain
  rw [State.writeRow_admitted h, if_neg hst]
  rfl

theorem exec_laneRetrain_off (h : s.admits (.laneRetrain l) = true) (hst : s.laneSt l = lnOFF) :
    exec (.laneRetrain l) s = .next (s.set (Fd.LNK_LANE_CTL_RETRAIN l) 0) := by
  change execLaneRetrain l s = _
  unfold execLaneRetrain
  rw [State.writeRow_admitted h, if_pos hst]
  rfl

theorem exec_retrainTimeout (hr : s.restarting (laneRgn l) = false)
    (hst : s.laneSt l = lnTRAIN ∨ s.laneSt l = lnHUNT ∨ s.laneSt l = lnWAKE) :
    exec (.retrainTimeout l) s =
      .next (let s1 := s.set (Fd.LNK_LANE_STAT_RETRIES l) (s.get (Fd.LNK_LANE_STAT_RETRIES l) + 1)
        if 3 ≤ s.get (Fd.LNK_LANE_STAT_RETRIES l) + 1 then s1.laneFailed l else s1.retrain l) := by
  change execRetrainTimeout l s = _
  unfold execRetrainTimeout
  rw [if_neg (by simp [hr])]
  exact if_pos hst

/-- The eye scan's settings taken: GO cleared, the errors counted from 0. -/
def scanned (l : Fin 128) (s : State) : State :=
  (s.set (Fd.LNK_LANE_ES_CTL_GO l) 0 |>.set (Fd.LNK_LANE_ES_ERRS_ERRS l) 0).lane' l fun x =>
    { x with es := s.reg (Fd.LNK_LANE_ES_CTL_GO l).off }

theorem exec_esGo (h : s.admits (.esGo l) = true) (hst : s.laneSt l = lnLOCKED) :
    exec (.esGo l) s = .next ((scanned l s).set (Fd.LNK_LANE_ES_STAT_BUSY l) 1) := by
  change execEsGo l s = _
  unfold execEsGo
  rw [State.writeRow_admitted h]
  dsimp only
  rw [if_pos hst]
  rfl

theorem exec_esGo_unlocked (h : s.admits (.esGo l) = true) (hst : s.laneSt l ≠ lnLOCKED) :
    exec (.esGo l) s = .next (((scanned l s).set (Fd.LNK_LANE_ES_STAT_BUSY l) 0 |>.set (Fd.LNK_LANE_ES_STAT_ABORT l)
        1).tapEye l 0 true) := by
  change execEsGo l s = _
  unfold execEsGo
  rw [State.writeRow_admitted h]
  dsimp only
  rw [if_neg hst]
  rfl

theorem exec_esDone (errs : Word) (h : s.get (Fd.LNK_LANE_ES_STAT_BUSY l) = 1) :
    exec (.esDone l errs) s = .next ((s.set (Fd.LNK_LANE_ES_STAT_BUSY l) 0 |>.set (Fd.LNK_LANE_ES_STAT_DONE l) 1
      |>.set (Fd.LNK_LANE_ES_ERRS_ERRS l) errs.toNat).tapEye l errs.toNat false) := by
  change execEsDone l errs s = _
  unfold execEsDone
  exact if_pos (beq_iff_eq.2 h)

theorem exec_esDone_idle (errs : Word) (h : s.get (Fd.LNK_LANE_ES_STAT_BUSY l) = 0) : exec (.esDone l errs) s = .next s := by
  change execEsDone l errs s = _
  unfold execEsDone
  exact if_neg (by simp [State.is, show s.io.get _ = 0 from h])

/-! ## The retrains -/

/-- A retrain that follows a write of the count of retries. -/
theorem retrained_counted (n : ℕ) : let t := (s.set (Fd.LNK_LANE_STAT_RETRIES l) n).retrain l
    s.within [.io, .lnk, .memc] t ∧ s.onlyRegs (retrainRegs l) t ∧ s.retrained l t ∧
      t.get (Fd.LNK_LANE_STAT_RETRIES l) = n % 4 := by
  have hcounted := (s.onlyRegs_refl (retrainRegs l)).set (Fd.LNK_LANE_STAT_RETRIES l) n (by simp [retrainRegs])
  refine ⟨((s.within_refl _).set _ _).retrain (n := l), hcounted.trans (onlyRegs_retrain _ l), retrained_congr
      (retrained_retrain _ l) ?_, ?_⟩
  · exact State.get_set_off _ _ (by simp [Fd.LNK_LANE_EQ_CTL_CTLE_START, Fd.LNK_LANE_STAT_RETRIES])
  · refine (State.get_retrain_stat (f := Fd.LNK_LANE_STAT_RETRIES l) rfl (Nat.le_succ 24) (.inr ?_) ?_ (.inr ?_)).trans
      (State.get_set _ _ _ (Nat.le_succ 24) ?_) <;> simp [Fd.LNK_LANE_STAT_RETRIES]

theorem retrained_kept : s.within [.io, .lnk, .memc] (s.retrain l) ∧ s.onlyRegs (retrainRegs l) (s.retrain l) ∧
    s.retrained l (s.retrain l) ∧ (s.retrain l).get (Fd.LNK_LANE_STAT_RETRIES l) = s.get (Fd.LNK_LANE_STAT_RETRIES l) :=
  ⟨(s.within_refl _).retrain (n := l), onlyRegs_retrain s l, retrained_retrain s l,
    State.get_retrain_stat (f := Fd.LNK_LANE_STAT_RETRIES l) rfl (Nat.le_succ 24) (.inr (by simp [Fd.LNK_LANE_STAT_RETRIES]))
      (by simp [Fd.LNK_LANE_STAT_RETRIES]) (.inr (by simp [Fd.LNK_LANE_STAT_RETRIES]))⟩

/-! ## The eye scan -/

theorem get_scanned {f : Field} (h : f.off ≠ (Fd.LNK_LANE_ES_CTL_GO l).off) (h2 : f.off ≠ (Fd.LNK_LANE_ES_ERRS_ERRS l).off) :
    (scanned l s).get f = s.get f := by
  unfold scanned
  rw [State.get_lane_upd, State.get_set_off _ _ h2, State.get_set_off _ _ h]

theorem go_scanned : (scanned l s).get (Fd.LNK_LANE_ES_CTL_GO l) = 0 := by
  unfold scanned
  rw [State.get_lane_upd, State.get_set_off _ _ (by simp [Fd.LNK_LANE_ES_CTL_GO, Fd.LNK_LANE_ES_ERRS_ERRS])]
  exact State.get_set _ _ _ (Nat.le_refl 0) (by simp [Fd.LNK_LANE_ES_CTL_GO])

theorem errs_scanned : (scanned l s).get (Fd.LNK_LANE_ES_ERRS_ERRS l) = 0 := by
  unfold scanned
  rw [State.get_lane_upd]
  exact State.get_set _ _ _ (Nat.zero_le 31) (by simp [Fd.LNK_LANE_ES_ERRS_ERRS])

theorem within_scanned : s.within [.io, .lnk] (scanned l s) := (((s.within_refl _).set _ _).set _ _).lane_upd _ _

theorem onlyRegs_scanned {rs : List ℕ} (h : (Fd.LNK_LANE_ES_CTL_GO l).off ∈ rs) (h2 : (Fd.LNK_LANE_ES_ERRS_ERRS l).off ∈ rs) :
    s.onlyRegs rs (scanned l s) :=
  (((s.onlyRegs_refl _).set _ _ h).set _ _ h2).lane_upd _ _

theorem scanStarted (s : State) (l : Fin 128) : let t := (scanned l s).set (Fd.LNK_LANE_ES_STAT_BUSY l) 1
    s.within [.io, .lnk] t ∧ (t.lane l).es = s.reg (Fd.LNK_LANE_ES_CTL_GO l).off ∧
      s.onlyRegs [(Fd.LNK_LANE_ES_ERRS_ERRS l).off, (Fd.LNK_LANE_ES_CTL_GO l).off, (Fd.LNK_LANE_ES_STAT_BUSY l).off] t ∧
      t.get (Fd.LNK_LANE_ES_CTL_GO l) = 0 ∧ t.get (Fd.LNK_LANE_ES_STAT_BUSY l) = 1 ∧ t.get (Fd.LNK_LANE_ES_ERRS_ERRS l) = 0
          := by
  refine ⟨within_scanned.set _ _, ?_, (onlyRegs_scanned (by simp) (by simp)).set _ _, ?_, ?_, ?_⟩
  · rw [State.lane_set, scanned, State.lane_upd_same]
  · rw [State.get_set_off _ _ (by simp [Fd.LNK_LANE_ES_CTL_GO, Fd.LNK_LANE_ES_STAT_BUSY]), go_scanned]
  · exact State.get_set _ _ _ (Nat.le_refl 0) (by simp [Fd.LNK_LANE_ES_STAT_BUSY])
  · rw [State.get_set_off _ _ (by simp [Fd.LNK_LANE_ES_ERRS_ERRS, Fd.LNK_LANE_ES_STAT_BUSY]), errs_scanned]

theorem off_ne_gap (l : Fin 128) {f : Field} (hlow : 0x00810000 + 0x200000 * (l / 32) + 0x400 * (l % 32) ≤ f.off)
    (hhigh : f.off < 0x00810400 + 0x200000 * (l / 32) + 0x400 * (l % 32)) : f.off ≠ Fd.MEMC_CAP_STAT_GAP.off := by
  have hl := l.isLt
  simp only [Fd.MEMC_CAP_STAT_GAP]
  omega

theorem scanRefused (s : State) (l : Fin 128) :
    let t := ((scanned l s).set (Fd.LNK_LANE_ES_STAT_BUSY l) 0 |>.set (Fd.LNK_LANE_ES_STAT_ABORT l) 1).tapEye l 0 true
    s.within [.io, .lnk, .memc] t ∧
      s.onlyRegs [(Fd.LNK_LANE_ES_ERRS_ERRS l).off, (Fd.LNK_LANE_ES_CTL_GO l).off, (Fd.LNK_LANE_ES_STAT_BUSY l).off,
        Fd.MEMC_CAP_STAT_GAP.off] t ∧ t.get (Fd.LNK_LANE_ES_CTL_GO l) = 0 ∧ t.get (Fd.LNK_LANE_ES_STAT_BUSY l) = 0 ∧
      t.get (Fd.LNK_LANE_ES_STAT_ABORT l) = 1 := by
  have hregs := (onlyRegs_scanned (s := s) (l := l) (rs := [(Fd.LNK_LANE_ES_ERRS_ERRS l).off, (Fd.LNK_LANE_ES_CTL_GO l).off,
    (Fd.LNK_LANE_ES_STAT_BUSY l).off, Fd.MEMC_CAP_STAT_GAP.off]) (by simp) (by simp)).set (Fd.LNK_LANE_ES_STAT_BUSY l) 0
        (by simp)
  refine ⟨(((within_scanned.mono (by simp)).set _ _).set _ _).tapEye _ _ _,
    (hregs.set (Fd.LNK_LANE_ES_STAT_ABORT l) 1 (by simp [Fd.LNK_LANE_ES_STAT_ABORT, Fd.LNK_LANE_ES_STAT_BUSY])).tapEye _ _ _
        (by simp), ?_, ?_, ?_⟩
  · rw [State.get_tapEye _ _ _ (off_ne_gap l (by simp [Fd.LNK_LANE_ES_CTL_GO]) (by simp [Fd.LNK_LANE_ES_CTL_GO])),
      State.get_set_off _ _ (by simp [Fd.LNK_LANE_ES_CTL_GO, Fd.LNK_LANE_ES_STAT_ABORT]),
      State.get_set_off _ _ (by simp [Fd.LNK_LANE_ES_CTL_GO, Fd.LNK_LANE_ES_STAT_BUSY]), go_scanned]
  · rw [State.get_tapEye _ _ _ (off_ne_gap l (by simp [Fd.LNK_LANE_ES_STAT_BUSY]) (by simp [Fd.LNK_LANE_ES_STAT_BUSY])),
      State.get_set_apart _ _ (by simp [Field.apart, Fd.LNK_LANE_ES_STAT_BUSY, Fd.LNK_LANE_ES_STAT_ABORT])]
    exact State.get_set _ _ _ (Nat.le_refl 0) (by simp [Fd.LNK_LANE_ES_STAT_BUSY])
  · rw [State.get_tapEye _ _ _ (off_ne_gap l (by simp [Fd.LNK_LANE_ES_STAT_ABORT]) (by simp [Fd.LNK_LANE_ES_STAT_ABORT]))]
    exact State.get_set _ _ _ (Nat.le_refl 2) (by simp [Fd.LNK_LANE_ES_STAT_ABORT])

theorem scanEnded (s : State) (l : Fin 128) (errs : Word) :
    let t := (s.set (Fd.LNK_LANE_ES_STAT_BUSY l) 0 |>.set (Fd.LNK_LANE_ES_STAT_DONE l) 1
      |>.set (Fd.LNK_LANE_ES_ERRS_ERRS l) errs.toNat).tapEye l errs.toNat false
    s.within [.io, .memc] t ∧
      s.onlyRegs [(Fd.LNK_LANE_ES_ERRS_ERRS l).off, (Fd.LNK_LANE_ES_STAT_DONE l).off, Fd.MEMC_CAP_STAT_GAP.off] t ∧
      t.get (Fd.LNK_LANE_ES_STAT_BUSY l) = 0 ∧ t.get (Fd.LNK_LANE_ES_STAT_DONE l) = 1 ∧ t.get (Fd.LNK_LANE_ES_ERRS_ERRS l) =
          errs.toNat := by
  have hbusy := (s.onlyRegs_refl [(Fd.LNK_LANE_ES_ERRS_ERRS l).off, (Fd.LNK_LANE_ES_STAT_DONE l).off,
      Fd.MEMC_CAP_STAT_GAP.off]).set
    (Fd.LNK_LANE_ES_STAT_BUSY l) 0 (by simp [Fd.LNK_LANE_ES_STAT_BUSY, Fd.LNK_LANE_ES_STAT_DONE])
  refine ⟨((((s.within_refl _).set _ _).set _ _).set _ _).tapEye _ _ _, ((hbusy.set _ _).set _ _).tapEye _ _ _, ?_, ?_, ?_⟩
  · rw [State.get_tapEye _ _ _ (off_ne_gap l (by simp [Fd.LNK_LANE_ES_STAT_BUSY]) (by simp [Fd.LNK_LANE_ES_STAT_BUSY])),
      State.get_set_off _ _ (by simp [Fd.LNK_LANE_ES_STAT_BUSY, Fd.LNK_LANE_ES_ERRS_ERRS]),
      State.get_set_apart _ _ (by simp [Field.apart, Fd.LNK_LANE_ES_STAT_BUSY, Fd.LNK_LANE_ES_STAT_DONE])]
    exact State.get_set _ _ _ (Nat.le_refl 0) (by simp [Fd.LNK_LANE_ES_STAT_BUSY])
  · rw [State.get_tapEye _ _ _ (off_ne_gap l (by simp [Fd.LNK_LANE_ES_STAT_DONE]) (by simp [Fd.LNK_LANE_ES_STAT_DONE])),
      State.get_set_off _ _ (by simp [Fd.LNK_LANE_ES_STAT_DONE, Fd.LNK_LANE_ES_ERRS_ERRS])]
    exact State.get_set _ _ _ (Nat.le_refl 1) (by simp [Fd.LNK_LANE_ES_STAT_DONE])
  · rw [State.get_tapEye _ _ _ (off_ne_gap l (by simp [Fd.LNK_LANE_ES_ERRS_ERRS]) (by simp [Fd.LNK_LANE_ES_ERRS_ERRS]))]
    refine (State.get_set _ _ _ (Nat.zero_le 31) (by simp [Fd.LNK_LANE_ES_ERRS_ERRS])).trans (Nat.mod_eq_of_lt ?_)
    exact errs.isLt

/-! ## A lane that fails -/

/-- The lane's fields that show its failure. -/
def failure (l : ℕ) (f : Field) : Prop := f = Fd.LNK_LANE_STAT_STATE l ∨ f = Fd.LNK_LANE_STAT_LANE_FAIL l

theorem failure_lane {l k : ℕ} {f : Field} (hf : failure l f) (h : k ≠ l) (hk : k < 128) (hl : l < 128) :
    f.off < 0x00810000 + 0x200000 * (k / 32) + 0x400 * (k % 32) ∨ 0x00810400 + 0x200000 * (k / 32) + 0x400 * (k % 32) ≤
        f.off := by
  obtain rfl | rfl := hf
  · simp only [Fd.LNK_LANE_STAT_STATE]; omega
  · simp only [Fd.LNK_LANE_STAT_LANE_FAIL]; omega

theorem failure_clearOfTile (l n : ℕ) : clearOfTile (failure l) n := by
  refine clearOfTile_of_off ?_
  rintro f (rfl | rfl)
  · simp only [Fd.LNK_LANE_STAT_STATE]; omega
  · simp only [Fd.LNK_LANE_STAT_LANE_FAIL]; omega

theorem failure_clearOfGap (l : Fin 128) : clearOfGap (failure l) := by
  rintro f (rfl | rfl)
  · exact off_ne_gap l (by simp [Fd.LNK_LANE_STAT_STATE]) (by simp [Fd.LNK_LANE_STAT_STATE])
  · exact off_ne_gap l (by simp [Fd.LNK_LANE_STAT_LANE_FAIL]) (by simp [Fd.LNK_LANE_STAT_LANE_FAIL])

theorem failure_steady (l : Fin 128) (f : Field) (hf : failure l f) : f.steady = true := by
  obtain rfl | rfl := hf
  · exact steady_lane l (by simp [Fd.LNK_LANE_STAT_STATE]) (by simp [Fd.LNK_LANE_STAT_STATE])
  · exact steady_lane l (by simp [Fd.LNK_LANE_STAT_LANE_FAIL]) (by simp [Fd.LNK_LANE_STAT_LANE_FAIL])

theorem failure_boot (l : ℕ) (f : Field) (hf : failure l f) : f.off ≠ Fd.CHIP_BOOT_STAT_DONE.off := by
  obtain rfl | rfl := hf
  · simp only [Fd.LNK_LANE_STAT_STATE, Fd.CHIP_BOOT_STAT_DONE]; omega
  · simp only [Fd.LNK_LANE_STAT_LANE_FAIL, Fd.CHIP_BOOT_STAT_DONE]; omega

/-- The generation and the idle bit of any lane lie apart from what shows lane l's failure. -/
theorem failure_gen (l k : ℕ) (f : Field) (hf : failure l f) : (Fd.LNK_LANE_STAT_GEN k).apart f = true := by
  obtain rfl | rfl := hf <;> simp [Field.apart, Fd.LNK_LANE_STAT_GEN, Fd.LNK_LANE_STAT_STATE, Fd.LNK_LANE_STAT_LANE_FAIL]

theorem failure_idle (l k : ℕ) (f : Field) (hf : failure l f) : (Fd.LNK_LANE_STAT_TX_IDLE k).apart f = true := by
  obtain rfl | rfl := hf <;> simp [Field.apart, Fd.LNK_LANE_STAT_TX_IDLE, Fd.LNK_LANE_STAT_STATE, Fd.LNK_LANE_STAT_LANE_FAIL]

theorem lane_of_tileLanes {n k : ℕ} (h : k ∈ tileLanes n) (hn : n < 32) : k < 128 := by
  simp only [tileLanes, List.mem_cons, List.not_mem_nil, or_false] at h
  omega

/-- The lane as it enters FAILED, its record made. -/
def failed (l : ℕ) (s : State) : State :=
  ((s.leaveLock l).setLane l lnFAILED |>.set (Fd.LNK_LANE_STAT_LANE_FAIL l) 1).err
    { level := 1, region := laneRgn l, block := 1, code := laneRgn l * 256 + 0x82, action := 4, cell := l, count := 3 }

theorem laneSt_failed (l : Fin 128) : (failed l s).laneSt l = lnFAILED := by
  unfold failed State.laneSt
  rw [State.get_err _ _ (failure_steady l _ (.inl rfl)),
    State.get_set_apart _ _ (by simp [Field.apart, Fd.LNK_LANE_STAT_LANE_FAIL, Fd.LNK_LANE_STAT_STATE])]
  exact State.laneSt_setLane l lnFAILED

theorem fail_failed (l : Fin 128) : (failed l s).get (Fd.LNK_LANE_STAT_LANE_FAIL l) = 1 := by
  unfold failed
  rw [State.get_err _ _ (failure_steady l _ (.inr rfl))]
  exact State.get_set _ _ _ (Nat.le_refl 20) (by simp [Fd.LNK_LANE_STAT_LANE_FAIL])

theorem laneFailed_eq (l : Fin 128) : s.laneFailed l = if s.clockLane (l / 4) == some (l : ℕ) then (failed l s).loseClock l
    else ((failed l s).sleepNow (l / 4)).tryBond (l / 4) := rfl

/-- What follows the failure at the tile: the clock lane's role ends, or the others go on. -/
theorem keeps_laneFailed {C : Field → Prop} {l : Fin 128} {v : State} (hf : v.keeps C (failed l s))
    (htile : clearOfTile C (l / 4)) (hgap : clearOfGap C)
    (hrx : ∀ k : ℕ, k < 128 → k ≠ l → clearOfLane C k) (hgen : ∀ k : ℕ, k < 128 → ∀ f, C f → (Fd.LNK_LANE_STAT_GEN k).apart
        f = true)
    (hidle : ∀ k : ℕ, k < 128 → ∀ f, C f → (Fd.LNK_LANE_STAT_TX_IDLE k).apart f = true) (hsteady : ∀ f, C f → f.steady = true)
    (hboot : ∀ f, C f → f.off ≠ Fd.CHIP_BOOT_STAT_DONE.off) : v.keeps C (s.laneFailed l) := by
  have hn : (l : ℕ) / 4 < 32 := by omega
  have hlanes : ∀ k ∈ tileLanes (l / 4), k < 128 := fun k hk => lane_of_tileLanes hk hn
  have hclear : ∀ k ∈ (failed l s).rxLanes (l / 4), clearOfLane C k := by
    intro k hk
    obtain ⟨hmem, hst⟩ := List.mem_filter.1 hk
    refine hrx k (hlanes k hmem) ?_
    rintro rfl
    simp [laneSt_failed] at hst
  have hclock : v.keeps C ((failed l s).loseClock l) := hf.loseClock htile hgap hclear (fun k hk => hgen k (hlanes k hk))
    (fun k hk => hidle k (hlanes k hk)) hsteady hboot
  rw [laneFailed_eq]
  split
  · exact hclock
  · exact (hf.sleepNow htile).tryBond htile

/-- The third retrain that ends without lock (R186). -/
theorem laneFailed_third (s : State) (l : Fin 128) (n : ℕ) : let t := (s.set (Fd.LNK_LANE_STAT_RETRIES l) n).laneFailed l
    s.within [.io, .lnk, .memc] t ∧ s.onlyRegions [0, 4, 5, 6, 7, 14] t ∧ t.laneSt l = lnFAILED ∧
      t.get (Fd.LNK_LANE_STAT_LANE_FAIL l) = 1 := by
  have hshown : (failed l (s.set (Fd.LNK_LANE_STAT_RETRIES l) n)).keeps (failure l)
      ((s.set (Fd.LNK_LANE_STAT_RETRIES l) n).laneFailed l) :=
    keeps_laneFailed (State.keeps.refl _) (failure_clearOfTile l _) (failure_clearOfGap l)
      (fun k hk hne f hf => failure_lane hf hne hk l.isLt) (fun k _ => failure_gen l k) (fun k _ => failure_idle l k)
          (failure_steady l) (failure_boot l)
  have hqs : ∀ r ∈ [4, 5, 6, 7, 14], r ∈ [0, 4, 5, 6, 7, 14] := by decide
  have hl := l.isLt
  have hlane := outside_clearOfLane hqs hl
  have hcounted := (State.keeps.refl (C := outside [0, 4, 5, 6, 7, 14]) s).set (Fd.LNK_LANE_STAT_RETRIES l) n
    (hlane.off (by simp [Fd.LNK_LANE_STAT_RETRIES]) (by simp [Fd.LNK_LANE_STAT_RETRIES]))
  have hfailed : s.keeps (outside [0, 4, 5, 6, 7, 14]) (failed l (s.set (Fd.LNK_LANE_STAT_RETRIES l) n)) :=
    (((hcounted.leaveLock hlane (outside_clearOfGap hqs)).setLane hlane lnFAILED).set (Fd.LNK_LANE_STAT_LANE_FAIL l) 1
      (hlane.off (by simp [Fd.LNK_LANE_STAT_LANE_FAIL]) (by simp [Fd.LNK_LANE_STAT_LANE_FAIL]))).err _ fun f hf => hf.2
  refine ⟨((s.within_refl _).set _ _).laneFailed (n := l), ?_, (hshown _ (.inl rfl)).trans (laneSt_failed l),
      (hshown _ (.inr rfl)).trans (fail_failed l)⟩
  exact onlyRegions_of_keeps (keeps_laneFailed hfailed (outside_clearOfTile hqs (by omega)) (outside_clearOfGap hqs)
    (fun k hk _ => outside_clearOfLane hqs hk)
    (fun k hk => (outside_clearOfLane hqs hk).off (by simp [Fd.LNK_LANE_STAT_GEN]) (by simp [Fd.LNK_LANE_STAT_GEN]))
    (fun k hk => (outside_clearOfLane hqs hk).off (by simp [Fd.LNK_LANE_STAT_TX_IDLE]) (by simp [Fd.LNK_LANE_STAT_TX_IDLE]))
    (fun f hf => hf.2) fun f hf heq => hf.1 (by rw [heq]; decide))

/-- Settles O23, command by command. -/
theorem retrainingCompletes : Obligations.RetrainingCompletes := by
  unfold Obligations.RetrainingCompletes
  refine ⟨fun l s h hst => ⟨_, exec_laneRetrain h hst, ?_⟩, fun l s h hst => ⟨_, exec_laneRetrain_off h hst, ?_⟩,
    fun l s hr hst hn => ⟨_, exec_retrainTimeout hr hst, ?_⟩, fun l s hr hst hn => ⟨_, exec_retrainTimeout hr hst, ?_⟩,
    fun l s h hst => ⟨_, exec_esGo h hst, scanStarted s l⟩, fun l s h hst => ⟨_, exec_esGo_unlocked h hst, scanRefused s l⟩,
    fun l errs s h => ⟨_, exec_esDone errs h, scanEnded s l errs⟩, fun l errs s h => exec_esDone_idle errs h⟩
  · by_cases hfailed : s.laneSt l = lnFAILED
    · rw [hfailed, if_pos rfl]
      exact retrained_counted 0
    · rw [if_neg hfailed, beq_eq_false_iff_ne.2 hfailed]
      exact retrained_kept
  · refine ⟨(s.within_refl _).set _ _, (s.onlyRegs_refl _).set _ _, State.get_set _ _ _ (Nat.le_refl 9)
      (by simp [Fd.LNK_LANE_CTL_RETRAIN]), ?_⟩
    exact (State.get_set_off _ _ (by simp [Fd.LNK_LANE_CTL_RETRAIN, Fd.LNK_LANE_STAT_STATE])).trans hst
  · dsimp only
    rw [if_neg (by omega)]
    obtain ⟨hwithin, hregs, hretrained, hcount⟩ := retrained_counted (s := s) (l := l) (s.get (Fd.LNK_LANE_STAT_RETRIES l) + 1)
    exact ⟨hwithin, hregs, hretrained, hcount.trans (Nat.mod_eq_of_lt (by omega))⟩
  · dsimp only
    rw [if_pos (by omega)]
    exact laneFailed_third s l _

end Sys2Proof.Machine.LaneRetrain
end

section
/-!
PROOF. The states of a port: the timeouts, the relink, the switch of the generation and its fallback (R198, R199).
-/
-- One thread for the lemmas: a thread for each would ask for more memory than a build may have.
set_option Elab.async false

namespace Sys2Proof.Machine.LinkStates

open LaneRetrain (lane_of_tileLanes)

variable {s : State} {n : Fin 32}

/-! ## One lane among those of a tile -/

/-- What the turn of one element does stays, where the other elements' turns leave it alone. -/
theorem each_at {α : Type} {z : α → State → State} {P Q : State → Prop} {x : α} {l : List α} (hx : x ∈ l) (hl : l.Nodup)
    (hP : ∀ y ∈ l, y ≠ x → ∀ w, P w → P (z y w)) (hat : ∀ w, P w → Q (z x w)) (hQ : ∀ y ∈ l, y ≠ x → ∀ w, Q w → Q (z y w))
    (hs : P s) : Q (s.each l z) := by
  induction l generalizing s with
  | nil => exact absurd hx List.not_mem_nil
  | cons y l ih =>
    rw [State.each_cons]
    obtain ⟨hy, hl⟩ := List.nodup_cons.1 hl
    by_cases hxy : y = x
    · subst hxy
      exact List.foldlRecOn (motive := Q) l _ (hat s hs) fun w hw y' hy' =>
        hQ y' (List.mem_cons_of_mem _ hy') (fun heq => hy (heq ▸ hy')) w hw
    · refine ih ((List.mem_cons.1 hx).resolve_left (Ne.symm hxy)) hl (fun k hk => hP k (List.mem_cons_of_mem _ hk))
        (fun k hk => hQ k (List.mem_cons_of_mem _ hk)) (hP y List.mem_cons_self hxy s hs)

theorem nodup_tileLanes (n : ℕ) : (tileLanes n).Nodup := by
  simp [tileLanes]

theorem nodup_rxLanes (n : ℕ) (s : State) : (s.rxLanes n).Nodup := (nodup_tileLanes n).filter _

/-- The fields of lane l. -/
def ofLane (l : ℕ) (f : Field) : Prop :=
  0x00810000 + 0x200000 * (l / 32) + 0x400 * (l % 32) ≤ f.off ∧ f.off < 0x00810400 + 0x200000 * (l / 32) + 0x400 * (l % 32)

theorem ofLane_clearOfLane {l k : ℕ} (hk : k < 128) (hl : l < 128) (hne : k ≠ l) : clearOfLane (ofLane l) k := by
  intro f hf
  obtain ⟨hlow, hhigh⟩ := hf
  omega

theorem ofLane_clearOfTile (l n : ℕ) : clearOfTile (ofLane l) n := by
  refine clearOfTile_of_off fun f hf => ?_
  obtain ⟨hlow, hhigh⟩ := hf
  omega

theorem ofLane_clearOfGap {l : ℕ} (hl : l < 128) : clearOfGap (ofLane l) := by
  intro f hf
  obtain ⟨hlow, hhigh⟩ := hf
  simp only [Fd.MEMC_CAP_STAT_GAP]
  omega

/-! ## Entry into LANES -/

theorem laneSt_retrained {l k : ℕ} (hk : k < 128) (hl : l < 128) (w : State) (hw : w.laneSt l = lnTRAIN) :
    (w.retrain k).laneSt l = lnTRAIN := by
  by_cases hkl : k = l
  · rw [hkl]
    exact laneSt_retrain
  · exact ((State.keeps.refl w).retrain (ofLane_clearOfLane hk hl hkl) (ofLane_clearOfGap hl) _ (by
      simp [ofLane, Fd.LNK_LANE_STAT_STATE])).trans hw

theorem rxEn_retrained {l k : ℕ} (hk : k < 128) (hl : l < 128) (w : State) :
    (w.retrain k).get (Fd.LNK_LANE_CTL_RX_EN l) = w.get (Fd.LNK_LANE_CTL_RX_EN l) := by
  by_cases hkl : k = l
  · subst hkl
    rw [State.get_retrain (by simp [Field.apart, Fd.LNK_LANE_CTL_RX_EN, Fd.LNK_LANE_STAT_FROZEN])
        (by simp [Field.apart, Fd.LNK_LANE_CTL_RX_EN, Fd.LNK_LANE_CDR_FOFS])
        (by simp [Field.apart, Fd.LNK_LANE_CTL_RX_EN, Fd.LNK_LANE_CTL_RETRAIN])
        (by simp [Field.apart, Fd.LNK_LANE_CTL_RX_EN, Fd.LNK_LANE_STAT_STATE]),
      State.get_startValues (by simp [Fd.LNK_LANE_CTL_RX_EN, Fd.LNK_LANE_EQ_VAL_CTLE])
          (by simp [Fd.LNK_LANE_CTL_RX_EN, Fd.LNK_LANE_EQ_VAL2_DFE4]),
      State.get_leaveLock (by simp [Field.apart, Fd.LNK_LANE_CTL_RX_EN, Fd.LNK_LANE_STAT_FREQ_ERR])
        (by simp [Field.apart, Fd.LNK_LANE_CTL_RX_EN, Fd.LNK_LANE_ES_STAT_BUSY])
        (by simp [Field.apart, Fd.LNK_LANE_CTL_RX_EN, Fd.LNK_LANE_ES_STAT_ABORT])
        (ofLane_clearOfGap hl _ (by simp [ofLane, Fd.LNK_LANE_CTL_RX_EN]))]
  · exact (State.keeps.refl w).retrain (ofLane_clearOfLane hk hl hkl) (ofLane_clearOfGap hl) _ (by
      simp [ofLane, Fd.LNK_LANE_CTL_RX_EN])

theorem lane_of_rxLanes {l : ℕ} (h : l ∈ s.rxLanes n) : l < 128 := lane_of_tileLanes (List.mem_filter.1 h).1 n.isLt

/-- Every lane that the retrains reach is in TRAIN, with its receiver enabled as before. -/
theorem lanes_retrained {l : ℕ} (h : l ∈ s.rxLanes n) : (s.each (s.rxLanes n) State.retrain).laneSt l = lnTRAIN ∧
    (s.each (s.rxLanes n) State.retrain).get (Fd.LNK_LANE_CTL_RX_EN l) = s.get (Fd.LNK_LANE_CTL_RX_EN l) := by
  have hl := lane_of_rxLanes h
  refine each_at (P := fun w => w.get (Fd.LNK_LANE_CTL_RX_EN l) = s.get (Fd.LNK_LANE_CTL_RX_EN l)) (x := l)
    (Q := fun w => w.laneSt l = lnTRAIN ∧ w.get (Fd.LNK_LANE_CTL_RX_EN l) = s.get (Fd.LNK_LANE_CTL_RX_EN l)) h
        (nodup_rxLanes _ _)
    (fun k hk _ w hw => (rxEn_retrained (lane_of_rxLanes hk) hl w).trans hw)
    (fun w hw => ⟨laneSt_retrain, (rxEn_retrained hl hl w).trans hw⟩)
    (fun k hk _ w hw => ⟨laneSt_retrained (lane_of_rxLanes hk) hl w hw.1, (rxEn_retrained (lane_of_rxLanes hk) hl w).trans
        hw.2⟩) rfl

/-- Every enabled lane of the tile takes the generation. -/
theorem gen_setGen {l : ℕ} (h : l ∈ tileLanes n) (hen : s.is (Fd.LNK_LANE_CTL_RX_EN l) || s.is (Fd.LNK_LANE_CTL_TX_EN l))
    (g : ℕ) :
    (s.setGen n g).get (Fd.LNK_LANE_STAT_GEN l) = g % 4 := by
  refine each_at (P := fun _ => True) (x := l) (Q := fun w => w.get (Fd.LNK_LANE_STAT_GEN l) = g % 4)
      (List.mem_filter.2 ⟨h, hen⟩)
    ((nodup_tileLanes n).filter _) (fun _ _ _ _ _ => trivial) (fun w _ => ?_) (fun k hk hne w hw => ?_) trivial
  · exact State.get_set _ _ _ (Nat.le_succ 4) (by simp [Fd.LNK_LANE_STAT_GEN])
  · have hk' := lane_of_tileLanes (List.mem_filter.1 hk).1 n.isLt
    have hl := lane_of_tileLanes h n.isLt
    refine (State.get_set_off _ _ ?_).trans hw
    simp only [Fd.LNK_LANE_STAT_GEN]
    omega

/-- The fields of the lanes' states and generations. -/
def laneShown (l : ℕ) (f : Field) : Prop := f = Fd.LNK_LANE_STAT_STATE l ∨ f = Fd.LNK_LANE_STAT_GEN l

theorem laneShown_clearOfTile (l n : ℕ) : clearOfTile (laneShown l) n := by
  refine clearOfTile_of_off ?_
  rintro f (rfl | rfl)
  · simp only [Fd.LNK_LANE_STAT_STATE]; omega
  · simp only [Fd.LNK_LANE_STAT_GEN]; omega

/-- Entry into LANES shows in the port's state, and starts its bond and its phase afresh. -/
theorem portState_enterLanes : (s.enterLanes n).portState n = ptLANES := by
  unfold State.enterLanes State.portState
  dsimp only
  rw [State.get_port_upd, State.get_set_off _ _ (by simp [Fd.LNK_TILE_STAT_STATE, Fd.LNK_TILE_CTL_RELINK]),
    State.get_set_apart _ _ (by simp [Field.apart, Fd.LNK_TILE_STAT_STATE, Fd.LNK_TILE_STAT_PHASE_OK]),
    State.get_set_apart _ _ (by simp [Field.apart, Fd.LNK_TILE_STAT_STATE, Fd.LNK_TILE_STAT_DN_ACTIVE]),
    State.get_set_apart _ _ (by simp [Field.apart, Fd.LNK_TILE_STAT_STATE, Fd.LNK_TILE_STAT_UP_ACTIVE]),
    State.get_set_apart _ _ (by simp [Field.apart, Fd.LNK_TILE_STAT_STATE, Fd.LNK_TILE_STAT_GEN])]
  exact State.get_set _ _ _ (Nat.zero_le 2) (by simp [Fd.LNK_TILE_STAT_STATE])

theorem gen_enterLanes : (s.enterLanes n).get (Fd.LNK_TILE_STAT_GEN n) = 1 := by
  unfold State.enterLanes
  dsimp only
  rw [State.get_port_upd, State.get_set_off _ _ (by simp [Fd.LNK_TILE_STAT_GEN, Fd.LNK_TILE_CTL_RELINK]),
    State.get_set_apart _ _ (by simp [Field.apart, Fd.LNK_TILE_STAT_GEN, Fd.LNK_TILE_STAT_PHASE_OK]),
    State.get_set_apart _ _ (by simp [Field.apart, Fd.LNK_TILE_STAT_GEN, Fd.LNK_TILE_STAT_DN_ACTIVE]),
    State.get_set_apart _ _ (by simp [Field.apart, Fd.LNK_TILE_STAT_GEN, Fd.LNK_TILE_STAT_UP_ACTIVE])]
  exact State.get_set _ _ _ (Nat.le_succ 4) (by simp [Fd.LNK_TILE_STAT_GEN])

theorem command_enterLanes : (s.enterLanes n).get (Fd.LNK_TILE_CTL_RELINK n) = 0 := by
  unfold State.enterLanes
  dsimp only
  rw [State.get_port_upd]
  exact State.get_set _ _ _ (Nat.le_refl 16) (by simp [Fd.LNK_TILE_CTL_RELINK])

theorem port_memc_upd (s : State) (m : ℕ) (h : Memc → Memc) : (s.memc' h).port m = s.port m := rfl

theorem port_tapEye (m k e : ℕ) (b : Bool) : (s.tapEye k e b).port m = s.port m := by
  unfold State.tapEye State.taps
  dsimp only
  split
  · refine foldl_keeps (fun w : State => w.port m = s.port m) _ (fun w x hw => ?_) _ s rfl
    unfold State.intoFifo
    split
    · rw [State.capGap, port_memc_upd, State.port_set, hw]
    · rw [port_memc_upd, hw]
  · rfl

theorem port_leaveLock (m k : ℕ) : (s.leaveLock k).port m = s.port m := by
  unfold State.leaveLock State.onlyIf
  split
  · rw [port_tapEye, State.port_set, State.port_set, State.port_set]
  · rw [State.port_set]

theorem port_startValues (m k : ℕ) : (s.startValues k).port m = s.port m := by
  unfold State.startValues
  rw [State.port_lane_upd, State.port_set, State.port_set, State.port_set, State.port_set, State.port_set, State.port_set]

theorem port_setFrozen (m k : ℕ) (b : Bool) : (s.setFrozen k b).port m = s.port m := State.port_set ..

/-- A retrain of a lane changes no port's record. -/
theorem port_retrained (m k : ℕ) : (s.retrain k).port m = s.port m := by
  unfold State.retrain State.setLane
  dsimp only
  rw [port_setFrozen, State.port_lane_upd, State.port_set, State.port_set, State.port_set, port_startValues, port_leaveLock]

theorem port_enterLanes : ∃ p : TilePort, (s.enterLanes n).port n = p ∧ p.phase = {} ∧ p.tsw = none ∧ p.attempts =
    (s.port n).attempts := by
  refine ⟨_, rfl, ?_⟩
  unfold State.enterLanes
  dsimp only
  rw [State.port_upd_same]
  refine ⟨rfl, rfl, ?_⟩
  dsimp only
  simp only [State.port_set]
  unfold State.setGen
  exact congrArg TilePort.attempts (List.foldlRecOn (motive := fun w : State => w.port n = s.port n) _ _
    (List.foldlRecOn (motive := fun w : State => w.port n = s.port n) _ _ rfl fun w hw k _ => (port_retrained n k).trans hw)
    fun w hw k _ => (State.port_set w n _ _).trans hw)

theorem relinked_enterLanes (s : State) (n : Fin 32) : s.relinked n (s.enterLanes n) := by
  obtain ⟨p, hp, hphase, htsw, -⟩ := port_enterLanes (s := s) (n := n)
  refine ⟨portState_enterLanes, gen_enterLanes, command_enterLanes, hp ▸ hphase, hp ▸ htsw, fun l hl => ?_⟩
  obtain ⟨htrain, hen⟩ := lanes_retrained hl
  obtain ⟨hmem, hrx⟩ := List.mem_filter.1 hl
  have hrx' : (s.each (s.rxLanes n) State.retrain).is (Fd.LNK_LANE_CTL_RX_EN l) = true :=
    beq_iff_eq.2 (hen.trans (beq_iff_eq.1 (Bool.and_eq_true_iff.1 hrx).1))
  have hport := State.keeps.enterLanes_port (laneShown_clearOfTile l n) s
  refine ⟨(hport _ (.inl rfl)).trans (((State.keeps.refl _).setGen (g := 1) (C := fun f => f = Fd.LNK_LANE_STAT_STATE l) ?_
      _ rfl).trans htrain),
    (hport _ (.inr rfl)).trans (gen_setGen hmem (by rw [hrx']; rfl) 1)⟩
  rintro k - f rfl
  simp [Field.apart, Fd.LNK_LANE_STAT_GEN, Fd.LNK_LANE_STAT_STATE]

/-! ## A failed attempt -/

/-- The registers of a tile's port lie apart from those of the alarms. -/
theorem steady_tile {f : Field} (hlow : 0x00830000 + 0x200000 * (n / 8) + 0x100 * (n % 8) ≤ f.off)
    (hhigh : f.off < 0x00830100 + 0x200000 * (n / 8) + 0x100 * (n % 8)) : f.steady = true := by
  have hn := n.isLt
  simp only [Field.steady, alarmReg, Fd.MGMT_LOG_LOST_COUNT, bne_iff_ne, Bool.and_eq_true, Bool.not_eq_true',
      Bool.or_eq_false_iff,
    beq_eq_false_iff_ne, decide_eq_false_iff_not]
  omega

/-- A record of the tile, and a complete bring-up, change no register of its port. -/
theorem get_recorded {f : Field} (hlow : 0x00830000 + 0x200000 * (n / 8) + 0x100 * (n % 8) ≤ f.off)
    (hhigh : f.off < 0x00830100 + 0x200000 * (n / 8) + 0x100 * (n % 8)) (code level : ℕ) (warning : Bool) :
    (s.tileRecord n code level warning).get f = s.get f ∧ s.showBringUp.get f = s.get f := by
  refine ⟨State.get_err s _ (steady_tile hlow hhigh), ?_⟩
  unfold State.showBringUp State.onlyIf State.stageDone
  split
  · refine State.get_set_off _ _ ?_
    simp only [Fd.CHIP_BOOT_STAT_DONE, Field.bit]
    omega
  · rfl

theorem portFailed_eq (hoff : s.portState n ≠ ptOFF) (hfailed : s.portState n ≠ ptFAILED) :
    s.portFailed n = ((s.set (Fd.LNK_TILE_STAT_STATE n) ptFAILED |>.set (Fd.LNK_TILE_STAT_TILE_FAIL n) 1).tileRecord n 0x87
        1 false).showBringUp :=
  if_neg fun h => h.elim hoff hfailed

theorem shown_portFailed (hoff : s.portState n ≠ ptOFF) (hfailed : s.portState n ≠ ptFAILED) :
    (s.portFailed n).portState n = ptFAILED ∧ (s.portFailed n).get (Fd.LNK_TILE_STAT_TILE_FAIL n) = 1 := by
  rw [portFailed_eq hoff hfailed]
  constructor
  · rw [State.portState, (get_recorded (n := n) (by simp [Fd.LNK_TILE_STAT_STATE]) (by simp [Fd.LNK_TILE_STAT_STATE]) 0 0
      false).2,
      (get_recorded (n := n) (by simp [Fd.LNK_TILE_STAT_STATE]) (by simp [Fd.LNK_TILE_STAT_STATE]) _ _ _).1,
      State.get_set_apart _ _ (by simp [Field.apart, Fd.LNK_TILE_STAT_STATE, Fd.LNK_TILE_STAT_TILE_FAIL])]
    exact State.get_set _ _ _ (Nat.zero_le 2) (by simp [Fd.LNK_TILE_STAT_STATE])
  · rw [(get_recorded (n := n) (by simp [Fd.LNK_TILE_STAT_TILE_FAIL]) (by simp [Fd.LNK_TILE_STAT_TILE_FAIL]) 0 0 false).2,
      (get_recorded (n := n) (by simp [Fd.LNK_TILE_STAT_TILE_FAIL]) (by simp [Fd.LNK_TILE_STAT_TILE_FAIL]) _ _ _).1]
    exact State.get_set _ _ _ (Nat.le_refl 19) (by simp [Fd.LNK_TILE_STAT_TILE_FAIL])

theorem port_tileRecord (m t code level : ℕ) (warning : Bool) : (s.tileRecord t code level warning).port m = s.port m := rfl

theorem port_portFailed (m : ℕ) : (s.portFailed n).port m = s.port m := by
  unfold State.portFailed
  split
  · rfl
  · unfold State.showBringUp State.onlyIf State.stageDone
    split
    · rw [State.port_set, port_tileRecord, State.port_set, State.port_set]
    · rw [port_tileRecord, State.port_set, State.port_set]

/-- Of the state before, the relink speaks of its receiving lanes alone. -/
theorem relinked_congr {u v : State} (h : u.relinked n v) (hrx : s.rxLanes n = u.rxLanes n) : s.relinked n v := by
  obtain ⟨hstate, hgen, hcmd, hphase, htsw, hlanes⟩ := h
  exact ⟨hstate, hgen, hcmd, hphase, htsw, fun l hl => hlanes l (hrx ▸ hl)⟩

theorem rxLanes_port_upd (m k : ℕ) (h : TilePort → TilePort) : (s.port' k h).rxLanes m = s.rxLanes m := rfl

/-- A change of the port's registers leaves its receiving lanes. -/
theorem rxLanes_set {f : Field} (h : ∀ l ∈ tileLanes n, f.off < 0x00810000 + 0x200000 * (l / 32) + 0x400 * (l % 32) ∨
    0x00810400 + 0x200000 * (l / 32) + 0x400 * (l % 32) ≤ f.off) (x : ℕ) : (s.set f x).rxLanes n = s.rxLanes n := by
  refine List.filter_congr fun l hl => ?_
  have hoff := h l hl
  have hen : (s.set f x).get (Fd.LNK_LANE_CTL_RX_EN l) = s.get (Fd.LNK_LANE_CTL_RX_EN l) :=
    State.get_set_off _ _ (by simp only [Fd.LNK_LANE_CTL_RX_EN]; omega)
  have hst : (s.set f x).laneSt l = s.laneSt l := State.get_set_off _ _ (by simp only [Fd.LNK_LANE_STAT_STATE]; omega)
  rw [hst, show (s.set f x).is (Fd.LNK_LANE_CTL_RX_EN l) = s.is (Fd.LNK_LANE_CTL_RX_EN l) from congrArg (· == 1) hen]

theorem portState_port_upd (m k : ℕ) (h : TilePort → TilePort) : (s.port' k h).portState m = s.portState m := rfl

/-- The attempt of a port that is neither OFF nor FAILED nor in RUN. -/
theorem relink_attempt (hoff : s.portState n ≠ ptOFF) (hfailed : s.portState n ≠ ptFAILED) (hrun : s.portState n ≠ ptRUN) :
    s.relink n = if 2 ≤ (s.port n).attempts then (s.port' n fun p => { p with attempts := p.attempts + 1 }).portFailed n
      else (s.port' n fun p => { p with attempts := p.attempts + 1 }).enterLanes n := by
  unfold State.relink
  dsimp only
  rw [if_neg (fun h => h.elim hoff hfailed), if_neg hrun]
  simp only [State.port_upd_same, Nat.reduceLeDiff]

/-- A failed attempt (R198): it counts, and the third in a row puts the port in FAILED. -/
theorem attempted (hoff : s.portState n ≠ ptOFF) (hfailed : s.portState n ≠ ptFAILED) (hrun : s.portState n ≠ ptRUN) :
    ((s.relink n).port n).attempts = (s.port n).attempts + 1 ∧ ((s.port n).attempts < 2 → s.relinked n (s.relink n)) ∧
      (2 ≤ (s.port n).attempts → (s.relink n).portState n = ptFAILED ∧ (s.relink n).get (Fd.LNK_TILE_STAT_TILE_FAIL n) = 1)
          := by
  rw [relink_attempt hoff hfailed hrun]
  by_cases hthird : 2 ≤ (s.port n).attempts
  · rw [if_pos hthird]
    have hcounted : ((s.port' n fun p => { p with attempts := p.attempts + 1 }).port n).attempts = (s.port n).attempts + 1 := by
      rw [State.port_upd_same]
    refine ⟨(congrArg TilePort.attempts (port_portFailed _)).trans hcounted, ?_, fun _ => shown_portFailed ?_ ?_⟩
    · intro h
      omega
    · rwa [portState_port_upd]
    · rwa [portState_port_upd]
  · rw [if_neg hthird]
    obtain ⟨p, hp, -, -, hattempts⟩ := port_enterLanes (s := s.port' n fun p => { p with attempts := p.attempts + 1 }) (n := n)
    refine ⟨?_, fun _ => relinked_congr (relinked_enterLanes _ n) (rxLanes_port_upd _ _ _).symm, fun h => absurd h hthird⟩
    rw [hp, hattempts, State.port_upd_same]


/-! ## The relink commands -/

theorem exec_linkStateTimeout (hr : s.restarting (tileRgn n) = false)
    (hst : s.portState n = ptLANES ∨ s.portState n = ptBOND ∨ s.portState n = ptCAPS) :
    exec (.linkStateTimeout n) s = .next (s.relink n) := by
  change execLinkStateTimeout n s = _
  unfold execLinkStateTimeout
  exact congrArg _ (if_pos ⟨hst, by simp [hr]⟩)

theorem exec_relink (h : s.admits (.relink n) = true) : exec (.relink n) s =
    (let s1 := s.set (Fd.LNK_TILE_CTL_RELINK n) 0
     if s.portState n = ptOFF then .next s1
     else if s.portState n = ptFAILED then .next ((s1.port' n fun p => { p with attempts := 0 }).enterLanes n)
     else .next (s1.relink n)) := by
  change execRelink n s = _
  unfold execRelink
  exact State.writeRow_admitted h

/-- The frame of an entry into LANES. -/
theorem keeps_enterLanes {qs : List ℕ} (hqs : ∀ r ∈ [4, 5, 6, 7, 14], r ∈ qs) {v : State} (h : v.keeps (outside qs) s) :
    v.keeps (outside qs) (s.enterLanes n) :=
  h.enterLanes (outside_clearOfTile hqs n.isLt) (outside_clearOfGap hqs)
      (fun k hk => outside_clearOfLane hqs (lane_of_rxLanes hk))
    fun k hk => (outside_clearOfLane hqs (lane_of_tileLanes hk n.isLt)).off (by simp [Fd.LNK_LANE_STAT_GEN])
        (by simp [Fd.LNK_LANE_STAT_GEN])

theorem keeps_relink {v : State} (h : v.keeps (outside [0, 4, 5, 6, 7, 14]) s) : v.keeps (outside [0, 4, 5, 6, 7, 14])
    (s.relink n) := by
  have hqs : ∀ r ∈ [4, 5, 6, 7, 14], r ∈ [0, 4, 5, 6, 7, 14] := by decide
  exact h.relink (outside_clearOfTile hqs n.isLt) (outside_clearOfGap hqs)
      (fun k hk => outside_clearOfLane hqs (lane_of_rxLanes hk))
    (fun k hk => (outside_clearOfLane hqs (lane_of_tileLanes hk n.isLt)).off (by simp [Fd.LNK_LANE_STAT_GEN])
        (by simp [Fd.LNK_LANE_STAT_GEN]))
    (fun f hf => hf.2) fun f hf heq => hf.1 (by rw [heq]; decide)

/-- The command cleared. -/
def commanded (n : Fin 32) (s : State) : State := s.set (Fd.LNK_TILE_CTL_RELINK n) 0

theorem portState_commanded : (commanded n s).portState n = s.portState n :=
  State.get_set_off _ _ (by simp [Fd.LNK_TILE_CTL_RELINK, Fd.LNK_TILE_STAT_STATE])

theorem rxLanes_commanded : (commanded n s).rxLanes n = s.rxLanes n :=
  rxLanes_set (fun l _ => by simp only [Fd.LNK_TILE_CTL_RELINK]; omega) 0

theorem port_commanded (m : ℕ) : (commanded n s).port m = s.port m := State.port_set ..

theorem keeps_commanded {qs : List ℕ} (hqs : ∀ r ∈ [4, 5, 6, 7, 14], r ∈ qs) : s.keeps (outside qs) (commanded n s) :=
  (State.keeps.refl s).set_tile (outside_clearOfTile hqs n.isLt) _ _ (by simp [portFields])

/-- An attempt that fails, whatever counted it. -/
theorem attempt_fails (hst : s.portState n ≠ ptOFF) (hst' : s.portState n ≠ ptFAILED) (hst'' : s.portState n ≠ ptRUN) :
    s.within [.io, .lnk, .memc] (s.relink n) ∧ s.onlyRegions [0, 4, 5, 6, 7, 14] (s.relink n) ∧
      ((s.relink n).port n).attempts = (s.port n).attempts + 1 ∧ ((s.port n).attempts < 2 → s.relinked n (s.relink n)) ∧
      (2 ≤ (s.port n).attempts → (s.relink n).portState n = ptFAILED ∧ (s.relink n).get (Fd.LNK_TILE_STAT_TILE_FAIL n) = 1) :=
  ⟨(s.within_refl _).relink (n := n), onlyRegions_of_keeps (keeps_relink (State.keeps.refl s)), attempted hst hst' hst''⟩

/-- A RELINK write in RUN or FAILED starts afresh. -/
theorem relink_fresh (h : s.admits (.relink n) = true) (hst : s.portState n = ptRUN ∨ s.portState n = ptFAILED) :
    ∃ t, exec (.relink n) s = .next t ∧ s.within [.io, .lnk, .memc] t ∧ s.onlyRegions [4, 5, 6, 7, 14] t ∧ s.relinked n t ∧
      (t.port n).attempts = if s.portState n = ptFAILED then 0 else (s.port n).attempts := by
  have hkeeps := keeps_commanded (s := s) (n := n) (qs := [4, 5, 6, 7, 14]) fun _ hr => hr
  rw [exec_relink h]
  obtain hrun | hfailed := hst
  · have hrelink : (commanded n s).relink n = (commanded n s).enterLanes n := by
      unfold State.relink
      dsimp only
      rw [portState_commanded, hrun, if_neg (by decide), if_pos rfl]
    obtain ⟨p, hp, -, -, hattempts⟩ := port_enterLanes (s := commanded n s) (n := n)
    refine ⟨(commanded n s).enterLanes n, ?_, ((s.within_refl _).set _ _).enterLanes n, onlyRegions_of_keeps
        (keeps_enterLanes (fun _ hr => hr) hkeeps),
      relinked_congr (relinked_enterLanes _ n) rxLanes_commanded.symm, ?_⟩
    · rw [← hrelink, hrun]
      rfl
    · rw [hp, hattempts, hrun, port_commanded]
      rfl
  · obtain ⟨p, hp, -, -, hattempts⟩ := port_enterLanes (s := (commanded n s).port' n fun p => { p with attempts := 0 }) (n := n)
    refine ⟨((commanded n s).port' n fun p => { p with attempts := 0 }).enterLanes n, ?_,
      (((s.within_refl _).set _ _).port_upd n _).enterLanes n, onlyRegions_of_keeps
          (keeps_enterLanes (fun _ hr => hr) (hkeeps.port_upd n _)),
      relinked_congr (relinked_enterLanes _ n) ((rxLanes_port_upd _ _ _).trans rxLanes_commanded).symm, ?_⟩
    · rw [hfailed]
      rfl
    · rw [hp, hattempts, hfailed, State.port_upd_same]
      rfl

/-- A RELINK write during an attempt counts it as failed. -/
theorem relink_counts (h : s.admits (.relink n) = true) (hoff : s.portState n ≠ ptOFF) (hrun : s.portState n ≠ ptRUN)
    (hfailed : s.portState n ≠ ptFAILED) :
    ∃ t, exec (.relink n) s = .next t ∧ s.within [.io, .lnk, .memc] t ∧ s.onlyRegions [0, 4, 5, 6, 7, 14] t ∧
      (t.port n).attempts = (s.port n).attempts + 1 ∧ ((s.port n).attempts < 2 → s.relinked n t) ∧
      (2 ≤ (s.port n).attempts → t.portState n = ptFAILED ∧ t.get (Fd.LNK_TILE_STAT_TILE_FAIL n) = 1) := by
  obtain ⟨hattempts, hfresh, hthird⟩ := attempted (s := commanded n s) (n := n) (by rwa [portState_commanded])
      (by rwa [portState_commanded])
    (by rwa [portState_commanded])
  rw [port_commanded] at hattempts hfresh hthird
  rw [exec_relink h]
  refine ⟨(commanded n s).relink n, ?_, ((s.within_refl _).set _ _).relink (n := n),
    onlyRegions_of_keeps (keeps_relink (keeps_commanded (by decide))), hattempts, fun hfew => relinked_congr (hfresh hfew)
        rxLanes_commanded.symm, hthird⟩
  dsimp only
  rw [if_neg hoff, if_neg hfailed]
  rfl

theorem relink_ignored (h : s.admits (.relink n) = true) (hoff : s.portState n = ptOFF) :
    ∃ t, exec (.relink n) s = .next t ∧ s.within [.io] t ∧ s.onlyRegs [(Fd.LNK_TILE_CTL_RELINK n).off] t ∧
      t.portState n = ptOFF ∧ t.get (Fd.LNK_TILE_CTL_RELINK n) = 0 := by
  refine ⟨commanded n s, ?_, (s.within_refl _).set _ _, (s.onlyRegs_refl _).set _ _, portState_commanded.trans hoff,
    State.get_set _ _ _ (Nat.le_refl 16) (by simp [Fd.LNK_TILE_CTL_RELINK])⟩
  rw [exec_relink h, hoff]
  rfl

/-! ## The fallback of the generation -/

theorem port_txBlocks (m k : ℕ) (bs : List (ℕ × Wide)) : (s.txBlocks k bs).port m = s.port m := by
  unfold State.txBlocks State.fillIdle
  split
  · rfl
  · split <;> rfl

/-- A message to the tile leaves the generations that its port has tried. -/
theorem genCap_sendTile (mtype hdata : ℕ) (p : List Wide) : ((s.sendTile n mtype hdata p).port n).genCap = (s.port n).genCap
    := by
  have hperiod : ∀ (u : State) (bs : List (ℕ × Wide)), ((u.txPeriod n bs).port n).genCap = (u.port n).genCap := by
    intro u bs
    unfold State.txPeriod
    dsimp only
    split
    · rfl
    · rw [State.port_upd_same]
      dsimp only
      exact congrArg TilePort.genCap (foldl_keeps (fun w : State => w.port n = u.port n) _
          (fun w x hw => (port_txBlocks _ _ _).trans hw) _ u rfl)
  have hmarker : ∀ u : State, ((u.sendMarker n).port n).genCap = (u.port n).genCap := by
    intro u
    unfold State.sendMarker
    dsimp only
    rw [State.port_upd_same]
    dsimp only
    exact congrArg TilePort.genCap (List.foldlRecOn (motive := fun w : State => w.port n = u.port n) _ _ rfl
      fun w hw k _ => (port_txBlocks _ _ _).trans hw)
  unfold State.sendTile
  rw [State.port_upd_same]
  change ((s.txStream n _).port n).genCap = _
  unfold State.txStream
  dsimp only
  split
  · exact hperiod _ _
  · rw [hperiod, hmarker, hperiod]

/-- The port's shown fallback. -/
def fallback (n : ℕ) (f : Field) : Prop := f = Fd.LNK_TILE_STAT_GEN_FALLBACK n

theorem fallback_clearOfTile (n : ℕ) : clearOfTile (fallback n) n := by
  rintro f rfl g hg
  simp only [portFields, List.mem_cons, List.not_mem_nil, or_false] at hg
  obtain rfl | rfl | rfl | rfl | rfl | rfl | rfl := hg <;>
    simp [Field.apart, Fd.LNK_TILE_STAT_GEN_FALLBACK, Fd.LNK_TILE_STAT_STATE, Fd.LNK_TILE_STAT_GEN, Fd.LNK_TILE_STAT_UP_ACTIVE,
      Fd.LNK_TILE_STAT_DN_ACTIVE, Fd.LNK_TILE_STAT_PHASE_OK, Fd.LNK_TILE_STAT_TILE_FAIL, Fd.LNK_TILE_CTL_RELINK]

theorem fallback_clearOfLane (n k : ℕ) : clearOfLane (fallback n) k := by
  rintro f rfl
  simp only [Fd.LNK_TILE_STAT_GEN_FALLBACK]
  omega

/-- The fallback shown and recorded. -/
def fellBack (n : Fin 32) (s : State) : State := (s.set (Fd.LNK_TILE_STAT_GEN_FALLBACK n) 1).tileRecord n 0x88 1 true

theorem exec_genFallback (h : s.portState n = ptGEN) : exec (.genFallback n) s =
    .next (if (s.port n).target ≤ 1 then (fellBack n s).relink n
      else ((fellBack n s).port' n fun p => { p with genCap := (s.port n).target - 1 }).genSet n ((s.port n).target - 1)) := by
  change execGenFallback n s = _
  unfold execGenFallback
  exact if_pos h

theorem fallback_fellBack : (fellBack n s).get (Fd.LNK_TILE_STAT_GEN_FALLBACK n) = 1 := by
  unfold fellBack
  rw [(get_recorded (n := n) (by simp [Fd.LNK_TILE_STAT_GEN_FALLBACK]) (by simp [Fd.LNK_TILE_STAT_GEN_FALLBACK]) _ _ _).1]
  exact State.get_set _ _ _ (Nat.le_refl 18) (by simp [Fd.LNK_TILE_STAT_GEN_FALLBACK])

theorem portState_fellBack : (fellBack n s).portState n = s.portState n := by
  unfold fellBack State.portState
  rw [(get_recorded (n := n) (by simp [Fd.LNK_TILE_STAT_STATE]) (by simp [Fd.LNK_TILE_STAT_STATE]) _ _ _).1,
    State.get_set_apart _ _ (by simp [Field.apart, Fd.LNK_TILE_STAT_STATE, Fd.LNK_TILE_STAT_GEN_FALLBACK])]

theorem port_fellBack (m : ℕ) : (fellBack n s).port m = s.port m := by
  unfold fellBack
  rw [port_tileRecord, State.port_set]

theorem within_fellBack {u : List Part} (h : .io ∈ u := by decide) : s.within u (fellBack n s) :=
    ((s.within_refl _).set _ _ h).err _ h

theorem keeps_fellBack : s.keeps (outside [0, 4, 5, 6, 7, 14]) (fellBack n s) := by
  refine ((State.keeps.refl s).set _ _ fun f hf => Field.apart_of_off fun heq => hf.1 ?_).err _ fun f hf => hf.2
  have hn := n.isLt
  rw [heq]
  simp only [Fd.LNK_TILE_STAT_GEN_FALLBACK, List.mem_cons, List.not_mem_nil, or_false]
  omega

/-- The generation asked for: the port in GEN, with the target and the switch tick at least 20 µs ahead. -/
theorem genSet_asked (u : State) (g : ℕ) : u.within [.io, .lnk, .memc] (u.genSet n g) ∧
    u.keeps (outside [0, 4, 5, 6, 7, 14]) (u.genSet n g) ∧ u.keeps (fallback n) (u.genSet n g) ∧
    (u.genSet n g).portState n = ptGEN ∧ ((u.genSet n g).port n).target = g ∧ ((u.genSet n g).port n).genCap =
        (u.port n).genCap ∧
    ∃ k, k < 2 ^ 24 ∧ ((u.genSet n g).port n).tsw = some (u.tick + BitVec.ofNat 64 (2560000 + k)) := by
  have hqs : ∀ r ∈ [4, 5, 6, 7, 14], r ∈ [0, 4, 5, 6, 7, 14] := by decide
  have hkeeps : ∀ C : Field → Prop, clearOfTile C n → u.keeps C (u.genSet n g) := fun C hC =>
    ((((State.keeps.refl u).of_reg (v := (u.drawNat (2 ^ 24)).2) fun _ => rfl).sendTile hC _ _ _).set_tile hC
        (Fd.LNK_TILE_STAT_STATE n) ptGEN
      (by simp [portFields])).port_upd n _
  refine ⟨?_, hkeeps _ (outside_clearOfTile hqs n.isLt), hkeeps _ (fallback_clearOfTile n), ?_, ?_, ?_,
    (u.drawNat (2 ^ 24)).1, Nat.mod_lt _ (by decide), ?_⟩
  · have hdrawn : u.within [.io, .lnk, .memc] (u.drawNat (2 ^ 24)).2 := (u.within_refl _).io_upd _
    exact ((hdrawn.sendTile (n := n) (mtype := 0x88) (hdata := g) (p := _)).set _ _).port_upd _ _
  · unfold State.genSet
    dsimp only
    rw [portState_port_upd]
    exact State.get_set _ _ _ (Nat.zero_le 2) (by simp [Fd.LNK_TILE_STAT_STATE])
  · unfold State.genSet
    rw [State.port_upd_same]
  · unfold State.genSet
    rw [State.port_upd_same]
    exact (congrArg TilePort.genCap (State.port_set ..)).trans (genCap_sendTile _ _ _)
  · unfold State.genSet
    rw [State.port_upd_same]
    rfl

theorem tick_port_upd (m : ℕ) (h : TilePort → TilePort) : (s.port' m h).tick = s.tick := rfl

theorem tick_set (f : Field) (x : ℕ) : (s.set f x).tick = s.tick := rfl

theorem tick_tileRecord (m code level : ℕ) (warning : Bool) : (s.tileRecord m code level warning).tick = s.tick :=
    (Io.calm_err ..).tick

theorem tick_fellBack : (fellBack n s).tick = s.tick := by
  unfold fellBack
  rw [tick_tileRecord, tick_set]

/-- A failed relink that began in GEN ends in LANES or in FAILED. -/
theorem relink_from_gen (u : State) (h : u.portState n = ptGEN) : u.within [.io, .lnk, .memc] (u.relink n) ∧
    u.keeps (outside [0, 4, 5, 6, 7, 14]) (u.relink n) ∧ u.keeps (fallback n) (u.relink n) ∧
    ((u.relink n).port n).attempts = (u.port n).attempts + 1 ∧
        ((u.relink n).portState n = ptLANES ∨ (u.relink n).portState n = ptFAILED) := by
  obtain ⟨hattempts, hfresh, hthird⟩ := attempted (s := u) (n := n) (by rw [h]; decide) (by rw [h]; decide) (by rw [h]; decide)
  refine ⟨(u.within_refl _).relink (n := n), keeps_relink (State.keeps.refl u), ?_, hattempts, ?_⟩
  · refine (State.keeps.refl u).relink (fallback_clearOfTile n) ?_ (fun k _ => fallback_clearOfLane n k)
      (fun k _ => (fallback_clearOfLane n k).off (by simp [Fd.LNK_LANE_STAT_GEN]) (by simp [Fd.LNK_LANE_STAT_GEN])) ?_ ?_
    · rintro f rfl
      have hn := n.isLt
      simp only [Fd.LNK_TILE_STAT_GEN_FALLBACK, Fd.MEMC_CAP_STAT_GAP]
      omega
    · rintro f rfl
      exact steady_tile (n := n) (by simp [Fd.LNK_TILE_STAT_GEN_FALLBACK]) (by simp [Fd.LNK_TILE_STAT_GEN_FALLBACK])
    · rintro f rfl
      simp only [Fd.LNK_TILE_STAT_GEN_FALLBACK, Fd.CHIP_BOOT_STAT_DONE]
      omega
  · by_cases hfew : (u.port n).attempts < 2
    · exact .inl (hfresh hfew).1
    · exact .inr (hthird (Nat.le_of_not_lt hfew)).1

/-- GEN without BOND within its limit (R199). -/
theorem fallen (h : s.portState n = ptGEN) :
    ∃ t, exec (.genFallback n) s = .next t ∧ s.within [.io, .lnk, .memc] t ∧ s.onlyRegions [0, 4, 5, 6, 7, 14] t ∧
      t.get (Fd.LNK_TILE_STAT_GEN_FALLBACK n) = 1 ∧
      (1 < (s.port n).target → t.portState n = ptGEN ∧ (t.port n).target = (s.port n).target - 1 ∧
        (t.port n).genCap = (s.port n).target - 1 ∧
        ∃ k, k < 2 ^ 24 ∧ (t.port n).tsw = some (s.tick + BitVec.ofNat 64 (2560000 + k))) ∧
      ((s.port n).target ≤ 1 → (t.port n).attempts = (s.port n).attempts + 1 ∧
        (t.portState n = ptLANES ∨ t.portState n = ptFAILED)) := by
  refine ⟨_, exec_genFallback h, ?_⟩
  by_cases hlow : (s.port n).target ≤ 1
  · rw [if_pos hlow]
    obtain ⟨hwithin, hregions, hshown, hattempts, hends⟩ := relink_from_gen (fellBack n s) (portState_fellBack.trans h)
    refine ⟨State.within.trans within_fellBack hwithin, onlyRegions_of_keeps (keeps_fellBack.trans hregions),
        (hshown _ rfl).trans fallback_fellBack,
      fun hhigh => absurd hlow (Nat.not_le_of_lt hhigh), fun _ => ⟨?_, hends⟩⟩
    rw [hattempts, port_fellBack]
  · rw [if_neg hlow]
    obtain ⟨hwithin, hregions, hshown, hstate, htarget, hcap, k, hk, htsw⟩ :=
      genSet_asked ((fellBack n s).port' n fun p => { p with genCap := (s.port n).target - 1 }) ((s.port n).target - 1)
    rw [tick_port_upd, tick_fellBack] at htsw
    rw [State.port_upd_same] at hcap
    have hbefore : s.within [.io, .lnk, .memc] ((fellBack n s).port' n fun p => { p with genCap := (s.port n).target - 1 }) :=
      State.within.port_upd within_fellBack _ _
    refine ⟨hbefore.trans hwithin, onlyRegions_of_keeps ((keeps_fellBack.port_upd _ _).trans hregions), ?_,
      fun _ => ⟨hstate, htarget, hcap, k, hk, htsw⟩, fun h => absurd h hlow⟩
    rw [hshown _ rfl, State.get_port_upd, fallback_fellBack]

/-! ## The switch of the generation -/

theorem lane_upd_other {l m : ℕ} (s : State) (z : Lane → Lane) (h : m ≠ l) : (s.lane' l z).lane m = s.lane m := rd_wr_other
    _ _ _ h

/-- A lane's transmitter falls asleep at the switch tick. -/
def hushed (l : ℕ) (s : State) : State := s.onlyIf (s.is (Fd.LNK_LANE_CTL_TX_EN l)) fun s =>
  (s.onlyIf (!s.is (Fd.LNK_LANE_STAT_TX_IDLE l)) (State.txSleep l)).lane' l fun y => { y with enable := true }

/-- A lane's receiver at the switch tick: its start values, and out of lock. -/
def switched (l : ℕ) (s : State) : State :=
  let s1 := s.startValues l
  if s.laneSt l = lnLOCKED then (((s1.leaveLock l).setLane l lnIDLE).lane' l fun y => { y with ann := false }).setFrozen l
      true else s1

/-- The port after both. -/
def quieted (n : Fin 32) (x : Wide) (s : State) : State := (s.reach x).each (tileLanes n) hushed

theorem exec_genSwitch {x : Wide} (h : s.portState n = ptGEN) (hx : (s.port n).tsw = some x) (hdue : s.timely x = true) :
    exec (.genSwitch n) s = .next ((((((quieted n x s).each (s.rxLanes n) switched).setGen n (s.port n).target).set
      (Fd.LNK_TILE_STAT_GEN n) (s.port n).target)).port' n fun p => { p with tsw := none }) := by
  change execGenSwitch n s = _
  unfold execGenSwitch
  rw [hx]
  exact if_pos (show s.portState n = ptGEN ∧ s.timely x = true from ⟨h, hdue⟩)

/-- The fields apart from every lane's idle bit. -/
def notIdle (f : Field) : Prop := ∀ k, (Fd.LNK_LANE_STAT_TX_IDLE k).apart f = true

theorem keeps_txSleep {C : Field → Prop} {v : State} {l : ℕ} (h : v.keeps C s)
    (hC : ∀ f, C f → (Fd.LNK_LANE_STAT_TX_IDLE l).apart f = true) :
    v.keeps C (s.txSleep l) := by
  unfold State.txSleep
  exact (((h.of_reg fun a => LaneSleep.reg_txBlocks l a _).set (Fd.LNK_LANE_STAT_TX_IDLE l) 1 hC).emit _).lane_upd l _

theorem keeps_hushed {C : Field → Prop} {v : State} {l : ℕ} (h : v.keeps C s)
    (hC : ∀ f, C f → (Fd.LNK_LANE_STAT_TX_IDLE l).apart f = true) :
    v.keeps C (hushed l s) :=
  h.onlyIf ((h.onlyIf (keeps_txSleep h hC)).lane_upd l _)

theorem keeps_quieted {C : Field → Prop} (x : Wide) (hC : ∀ l ∈ tileLanes n, ∀ f, C f → (Fd.LNK_LANE_STAT_TX_IDLE l).apart f
    = true) :
    s.keeps C (quieted n x s) :=
  ((State.keeps.refl s).of_reg fun a => s.reg_reach x a).each fun l hl _ hw => keeps_hushed hw (hC l hl)

theorem keeps_switched {C : Field → Prop} {v : State} {l : ℕ} (h : v.keeps C s) (hl : clearOfLane C l) (hgap : clearOfGap C) :
    v.keeps C (switched l s) := by
  unfold switched
  dsimp only
  split
  · exact ((((h.startValues hl).leaveLock hl hgap).setLane hl lnIDLE).lane_upd l _).setFrozen hl true
  · exact h.startValues hl

/-- What a lane's own switch leaves: its registers of control, its loop, and the bits of its state but STATE, FROZEN and FREQ_ERR. -/
theorem get_switched {l : ℕ} {f : Field} (heq : f.off ≠ (Fd.LNK_LANE_EQ_VAL_CTLE l).off)
    (heq2 : f.off ≠ (Fd.LNK_LANE_EQ_VAL2_DFE4 l).off)
    (hes : f.off ≠ (Fd.LNK_LANE_ES_STAT_BUSY l).off) (hgap : f.off ≠ Fd.MEMC_CAP_STAT_GAP.off)
    (hstate : (Fd.LNK_LANE_STAT_STATE l).apart f = true) (hfrozen : (Fd.LNK_LANE_STAT_FROZEN l).apart f = true)
    (hfreq : (Fd.LNK_LANE_STAT_FREQ_ERR l).apart f = true) : (switched l s).get f = s.get f := by
  unfold switched State.setLane
  dsimp only
  split
  · rw [State.get_setFrozen _ _ hfrozen, State.get_lane_upd, State.get_set_apart _ _ hstate, State.get_leaveLock hfreq
      (Field.apart_of_off hes) (Field.apart_of_off hes) hgap, State.get_startValues heq heq2]
  · exact State.get_startValues heq heq2

theorem laneSt_switched {l : ℕ} : (switched l s).laneSt l = if s.laneSt l = lnLOCKED then lnIDLE else s.laneSt l := by
  unfold switched
  dsimp only
  split
  · unfold State.laneSt
    rw [State.get_setFrozen _ _ (by simp [Field.apart, Fd.LNK_LANE_STAT_FROZEN, Fd.LNK_LANE_STAT_STATE]), State.get_lane_upd]
    exact State.laneSt_setLane l lnIDLE
  · exact State.get_startValues (by simp [Fd.LNK_LANE_STAT_STATE, Fd.LNK_LANE_EQ_VAL_CTLE])
      (by simp [Fd.LNK_LANE_STAT_STATE, Fd.LNK_LANE_EQ_VAL2_DFE4])

theorem ph_lane_upd {l : ℕ} (z : Lane → Lane) (hz : ∀ y, (z y).ph = y.ph) (m : ℕ) : ((s.lane' l z).lane m).ph =
    (s.lane m).ph := by
  by_cases h : m = l
  · subst h
    rw [State.lane_upd_same, hz]
  · rw [lane_upd_other _ _ h]

theorem ph_startValues (l m : ℕ) : ((s.startValues l).lane m).ph = (s.lane m).ph := by
  unfold State.startValues
  rw [ph_lane_upd (fun x => { x with eqFrac := [] }) (fun _ => rfl), State.lane_set, State.lane_set, State.lane_set,
      State.lane_set,
    State.lane_set, State.lane_set]

theorem ph_switched (l m : ℕ) : ((switched l s).lane m).ph = (s.lane m).ph := by
  unfold switched State.setLane
  dsimp only
  split
  · rw [State.lane_setFrozen, ph_lane_upd (fun y => { y with ann := false }) (fun _ => rfl), State.lane_set,
      State.lane_leaveLock, ph_startValues]
  · exact ph_startValues l m

/-- The lanes after both. -/
def relit (n : Fin 32) (x : Wide) (s : State) : State := (quieted n x s).each (s.rxLanes n) switched

/-- The frame of the switch at one lane: what is read of it while others switch. -/
theorem keeps_relit {C : Field → Prop} (x : Wide) (hidle : ∀ l ∈ tileLanes n, ∀ f, C f → (Fd.LNK_LANE_STAT_TX_IDLE l).apart
    f = true)
    (hrx : ∀ l ∈ s.rxLanes n, clearOfLane C l) (hgap : clearOfGap C) : s.keeps C (relit n x s) :=
  (keeps_quieted x hidle).trans ((State.keeps.refl _).each fun l hl _ hw => keeps_switched hw (hrx l hl) hgap)

/-- A transmitter that is enabled sleeps. -/
theorem idle_hushed {l : ℕ} (hen : s.get (Fd.LNK_LANE_CTL_TX_EN l) = 1) : (hushed l s).get (Fd.LNK_LANE_STAT_TX_IDLE l) = 1
    := by
  have hen' : s.is (Fd.LNK_LANE_CTL_TX_EN l) = true := beq_iff_eq.2 hen
  unfold hushed
  rw [hen', State.onlyIf_true, State.get_lane_upd]
  by_cases hidle : s.get (Fd.LNK_LANE_STAT_TX_IDLE l) = 1
  · rw [show s.is (Fd.LNK_LANE_STAT_TX_IDLE l) = true from beq_iff_eq.2 hidle]
    exact hidle
  · rw [show s.is (Fd.LNK_LANE_STAT_TX_IDLE l) = false from beq_eq_false_iff_ne.2 hidle, Bool.not_false, State.onlyIf_true,
      State.txSleep,
      State.get_lane_upd, State.get_emit]
    exact State.get_set _ _ _ (Nat.le_refl 6) (by simp [Fd.LNK_LANE_STAT_TX_IDLE])

theorem notIdle_en (l k : ℕ) : (Fd.LNK_LANE_STAT_TX_IDLE k).apart (Fd.LNK_LANE_CTL_TX_EN l) = true :=
  Field.apart_of_off (by simp only [Fd.LNK_LANE_STAT_TX_IDLE, Fd.LNK_LANE_CTL_TX_EN]; omega)

theorem idle_quieted {l : ℕ} (h : l ∈ tileLanes n) (hen : s.get (Fd.LNK_LANE_CTL_TX_EN l) = 1) (x : Wide) :
    (quieted n x s).get (Fd.LNK_LANE_STAT_TX_IDLE l) = 1 := by
  refine each_at (P := fun w => w.get (Fd.LNK_LANE_CTL_TX_EN l) = 1) (x := l)
      (Q := fun w => w.get (Fd.LNK_LANE_STAT_TX_IDLE l) = 1) h
    (nodup_tileLanes n) (fun k _ _ w hw => ?_) (fun w hw => idle_hushed hw) (fun k hk hne w hw => ?_) ?_
  · exact (keeps_hushed (C := fun f => f = Fd.LNK_LANE_CTL_TX_EN l) (State.keeps.refl w)
      (by rintro f rfl; exact notIdle_en l k) _ rfl).trans hw
  · have hk' := lane_of_tileLanes hk n.isLt
    have hl := lane_of_tileLanes h n.isLt
    refine (keeps_hushed (C := fun f => f = Fd.LNK_LANE_STAT_TX_IDLE l) (State.keeps.refl w) ?_ _ rfl).trans hw
    rintro f rfl
    refine Field.apart_of_off ?_
    simp only [Fd.LNK_LANE_STAT_TX_IDLE]
    omega
  · exact (Io.get_congr (s.reg_reach x _)).trans hen

/-- The fields that the switch of any lane leaves in every lane: enables, the loop's frequency, the idle bit. -/
def heldAtSwitch (l : ℕ) (f : Field) : Prop :=
  f = Fd.LNK_LANE_CTL_RX_EN l ∨ f = Fd.LNK_LANE_CTL_TX_EN l ∨ f = Fd.LNK_LANE_CDR_FOFS l ∨ f = Fd.LNK_LANE_STAT_TX_IDLE l

theorem held_switched {l k : ℕ} (hk : k < 128) (hl : l < 128) (w : State) : w.keeps (heldAtSwitch l) (switched k w) := by
  intro f hf
  have hof : ofLane l f := by
    obtain rfl | rfl | rfl | rfl := hf <;>
      simp [ofLane, Fd.LNK_LANE_CTL_RX_EN, Fd.LNK_LANE_CTL_TX_EN, Fd.LNK_LANE_CDR_FOFS, Fd.LNK_LANE_STAT_TX_IDLE]
  by_cases hkl : k = l
  · subst hkl
    have hgap := ofLane_clearOfGap hl f hof
    obtain rfl | rfl | rfl | rfl := hf <;> refine get_switched ?_ ?_ ?_ hgap ?_ ?_ ?_ <;>
      simp [Field.apart, Fd.LNK_LANE_CTL_RX_EN, Fd.LNK_LANE_CTL_TX_EN, Fd.LNK_LANE_CDR_FOFS, Fd.LNK_LANE_STAT_TX_IDLE,
        Fd.LNK_LANE_EQ_VAL_CTLE, Fd.LNK_LANE_EQ_VAL2_DFE4, Fd.LNK_LANE_ES_STAT_BUSY, Fd.LNK_LANE_STAT_STATE,
            Fd.LNK_LANE_STAT_FROZEN,
        Fd.LNK_LANE_STAT_FREQ_ERR]
  · exact keeps_switched (State.keeps.refl w) (ofLane_clearOfLane hk hl hkl) (ofLane_clearOfGap hl) f hof

theorem held_relit {l : ℕ} (hl : l < 128) (x : Wide) : (quieted n x s).keeps (heldAtSwitch l) (relit n x s) :=
  (State.keeps.refl _).each fun _ hk w hw => hw.trans (held_switched (lane_of_rxLanes hk) hl w)

/-! ## The clock and the records at the switch -/

theorem tick_lane_upd (l : ℕ) (z : Lane → Lane) : (s.lane' l z).tick = s.tick := rfl
theorem tick_emit (o : Out) : (s.emit o).tick = s.tick := rfl
theorem tick_memc_upd (z : Memc → Memc) : (s.memc' z).tick = s.tick := rfl

theorem tick_fillIdle (l : ℕ) : (s.fillIdle l).tick = s.tick := by
  unfold State.fillIdle
  split <;> rfl

theorem tick_txBlocks (l : ℕ) (bs : List (ℕ × Wide)) : (s.txBlocks l bs).tick = s.tick := by
  unfold State.txBlocks
  split
  · rfl
  · exact tick_fillIdle l

theorem tick_onlyIf {b : Bool} {z : State → State} (h : (z s).tick = s.tick) : (s.onlyIf b z).tick = s.tick := by
  cases b
  · rfl
  · exact h

theorem tick_hushed (l : ℕ) : (hushed l s).tick = s.tick := by
  refine tick_onlyIf ?_
  rw [tick_lane_upd]
  refine tick_onlyIf ?_
  rw [State.txSleep, tick_lane_upd, tick_emit, tick_set, tick_txBlocks]

theorem tick_intoFifo (x : Sample) : (s.intoFifo x).tick = s.tick := by
  unfold State.intoFifo State.capGap
  split
  · rw [tick_memc_upd, tick_set]
  · rw [tick_memc_upd]

theorem tick_tapEye (m e : ℕ) (b : Bool) : (s.tapEye m e b).tick = s.tick := by
  unfold State.tapEye State.taps
  dsimp only
  split
  · exact foldl_keeps (fun w : State => w.tick = s.tick) _ (fun w x hw => (tick_intoFifo x).trans hw) _ s rfl
  · rfl

theorem tick_leaveLock (l : ℕ) : (s.leaveLock l).tick = s.tick := by
  unfold State.leaveLock
  refine (tick_onlyIf ?_).trans (tick_set _ _)
  rw [tick_tapEye, tick_set, tick_set]

theorem tick_startValues (l : ℕ) : (s.startValues l).tick = s.tick := by
  unfold State.startValues
  rw [tick_lane_upd, tick_set, tick_set, tick_set, tick_set, tick_set, tick_set]

theorem tick_switched (l : ℕ) : (switched l s).tick = s.tick := by
  unfold switched State.setLane State.setFrozen State.setBit
  dsimp only
  split
  · rw [tick_set, tick_lane_upd, tick_set, tick_leaveLock, tick_startValues]
  · exact tick_startValues l

theorem tick_relit (x : Wide) : (relit n x s).tick = (s.reach x).tick :=
  (List.foldlRecOn (motive := fun w : State => w.tick = (quieted n x s).tick) _ _ rfl fun _ hw k _ =>
      (tick_switched k).trans hw).trans
    (List.foldlRecOn (motive := fun w : State => w.tick = (s.reach x).tick) _ _ rfl fun _ hw k _ => (tick_hushed k).trans hw)

theorem within_hushed {u : State} (h : s.within [.io, .lnk, .memc] u) (l : ℕ) : s.within [.io, .lnk, .memc] (hushed l u) :=
  h.onlyIf ((h.onlyIf ((((h.txBlocks (n := l) (bs := _)).set _ _).emit _).lane_upd _ _)).lane_upd _ _)

theorem within_switched {u : State} (h : s.within [.io, .lnk, .memc] u) (l : ℕ) : s.within [.io, .lnk, .memc] (switched l u)
    := by
  have hstart := h.startValues (n := l)
  unfold switched
  dsimp only
  split
  · exact ((((hstart.leaveLock l).setLane l lnIDLE).lane_upd l _).setFrozen l true)
  · exact hstart

theorem within_relit (x : Wide) : s.within [.io, .lnk, .memc] (relit n x s) :=
  (((s.within_refl _).reach x).each fun l _ hw => within_hushed hw l).each fun l _ hw => within_switched hw l

theorem port_relit_gen (x : Wide) (g : ℕ) : (((relit n x s).setGen n g).set (Fd.LNK_TILE_STAT_GEN n) g).tick =
    (s.reach x).tick := by
  rw [tick_set]
  exact (List.foldlRecOn (motive := fun w : State => w.tick = (relit n x s).tick) _ _ rfl fun w hw k _ =>
      (tick_set _ _).trans hw).trans
    (tick_relit x)

/-- The fields of lane l that show its switch. -/
def switchShown (l : ℕ) (f : Field) : Prop :=
  f = Fd.LNK_LANE_STAT_STATE l ∨ f = Fd.LNK_LANE_CDR_FOFS l ∨ f = Fd.LNK_LANE_STAT_TX_IDLE l

theorem keeps_gen {l : ℕ} (u : State) (g : ℕ) : u.keeps (switchShown l) ((u.setGen n g).set (Fd.LNK_TILE_STAT_GEN n) g) := by
  refine ((State.keeps.refl u).setGen fun k _ f hf => ?_).set _ _ fun f hf => Field.apart_of_off ?_
  · obtain rfl | rfl | rfl := hf
    · simp [Field.apart, Fd.LNK_LANE_STAT_GEN, Fd.LNK_LANE_STAT_STATE]
    · refine Field.apart_of_off ?_
      simp only [Fd.LNK_LANE_STAT_GEN, Fd.LNK_LANE_CDR_FOFS]
      omega
    · simp [Field.apart, Fd.LNK_LANE_STAT_GEN, Fd.LNK_LANE_STAT_TX_IDLE]
  · obtain rfl | rfl | rfl := hf
    · simp only [Fd.LNK_TILE_STAT_GEN, Fd.LNK_LANE_STAT_STATE]; omega
    · simp only [Fd.LNK_TILE_STAT_GEN, Fd.LNK_LANE_CDR_FOFS]; omega
    · simp only [Fd.LNK_TILE_STAT_GEN, Fd.LNK_LANE_STAT_TX_IDLE]; omega

theorem gen_lane {l : ℕ} (u : State) (g : ℕ) (h : l ∈ tileLanes n)
    (hen : u.get (Fd.LNK_LANE_CTL_RX_EN l) = 1 ∨ u.get (Fd.LNK_LANE_CTL_TX_EN l) = 1) :
    ((u.setGen n g).set (Fd.LNK_TILE_STAT_GEN n) g).get (Fd.LNK_LANE_STAT_GEN l) = g % 4 := by
  rw [State.get_set_off _ _ (by simp only [Fd.LNK_TILE_STAT_GEN, Fd.LNK_LANE_STAT_GEN]; omega)]
  refine gen_setGen h (Bool.or_eq_true_iff.2 (hen.imp ?_ ?_)) g
  · exact beq_iff_eq.2
  · exact beq_iff_eq.2

/-- The state of a receiving lane after the switch. -/
theorem laneSt_relit {l : ℕ} (h : l ∈ s.rxLanes n) (x : Wide) : (relit n x s).laneSt l = if s.laneSt l = lnLOCKED then
    lnIDLE else s.laneSt l := by
  have hl := lane_of_rxLanes h
  have hkept : (quieted n x s).laneSt l = s.laneSt l := by
    refine keeps_quieted (C := fun f => f = Fd.LNK_LANE_STAT_STATE l) x ?_ _ rfl
    rintro k - f rfl
    simp [Field.apart, Fd.LNK_LANE_STAT_TX_IDLE, Fd.LNK_LANE_STAT_STATE]
  have hother : ∀ k ∈ s.rxLanes n, k ≠ l → ∀ w : State, (switched k w).laneSt l = w.laneSt l := fun k hk hne w =>
    keeps_switched (State.keeps.refl w) (ofLane_clearOfLane (lane_of_rxLanes hk) hl hne) (ofLane_clearOfGap hl) _
      (by simp [ofLane, Fd.LNK_LANE_STAT_STATE])
  refine each_at (P := fun w => w.laneSt l = s.laneSt l) (x := l)
    (Q := fun w => w.laneSt l = if s.laneSt l = lnLOCKED then lnIDLE else s.laneSt l) h (nodup_rxLanes _ _)
    (fun k hk hne w hw => (hother k hk hne w).trans hw) (fun w hw => ?_) (fun k hk hne w hw => (hother k hk hne w).trans hw)
        hkept
  rw [laneSt_switched, hw]

theorem ph_fillIdle (l m : ℕ) : ((s.fillIdle l).lane m).ph = (s.lane m).ph := by
  unfold State.fillIdle
  split
  · rfl
  · dsimp only [State.drawWord]
    refine (ph_lane_upd _ ?_ m).trans rfl
    exact fun _ => rfl

theorem ph_txBlocks (l m : ℕ) (bs : List (ℕ × Wide)) : ((s.txBlocks l bs).lane m).ph = (s.lane m).ph := by
  unfold State.txBlocks
  split
  · rfl
  · dsimp only
    refine (ph_lane_upd _ ?_ m).trans (ph_fillIdle l m)
    exact fun _ => rfl

theorem ph_onlyIf {b : Bool} {z : State → State} {m : ℕ} (h : ((z s).lane m).ph = (s.lane m).ph) :
    ((s.onlyIf b z).lane m).ph = (s.lane m).ph := by
  cases b
  · rfl
  · exact h

theorem lane_emit (o : Out) (m : ℕ) : (s.emit o).lane m = s.lane m := rfl

theorem ph_txSleep (l m : ℕ) : ((s.txSleep l).lane m).ph = (s.lane m).ph := by
  unfold State.txSleep
  refine (ph_lane_upd _ ?_ m).trans ?_
  · exact fun _ => rfl
  rw [lane_emit, State.lane_set, ph_txBlocks]

theorem ph_hushed (l m : ℕ) : ((hushed l s).lane m).ph = (s.lane m).ph := by
  refine ph_onlyIf ((ph_lane_upd _ ?_ m).trans (ph_onlyIf (ph_txSleep l m)))
  exact fun _ => rfl

theorem ph_relit (x : Wide) (l : ℕ) : ((relit n x s).lane l).ph = (s.lane l).ph :=
  (List.foldlRecOn (motive := fun w : State => (w.lane l).ph = ((quieted n x s).lane l).ph) _ _ rfl
    fun _ hw k _ => (ph_switched k l).trans hw).trans
      (List.foldlRecOn (motive := fun w : State => (w.lane l).ph = (s.lane l).ph) _ _ rfl fun _ hw k _ =>
          (ph_hushed k l).trans hw)

theorem lane_gen (u : State) (g l : ℕ) : ((u.setGen n g).set (Fd.LNK_TILE_STAT_GEN n) g).lane l = u.lane l := by
  rw [State.lane_set]
  exact List.foldlRecOn (motive := fun w : State => w.lane l = u.lane l) _ _ rfl fun _ hw k _ => (State.lane_set ..).trans hw

/-- The switch of generation at its tick (R199). -/
theorem switchedAll (x : Wide) (g : ℕ) : let t := (((relit n x s).setGen n g).set (Fd.LNK_TILE_STAT_GEN n) g).port' n fun p
    => { p with tsw := none }
    s.within [.io, .lnk, .memc] t ∧ s.onlyRegions [4, 5, 6, 7, 14] t ∧ t.tick = (s.reach x).tick ∧ (t.port n).tsw = none ∧
      t.get (Fd.LNK_TILE_STAT_GEN n) = g % 4 ∧
      (∀ l ∈ s.rxLanes n, t.laneSt l = (if s.laneSt l = lnLOCKED then lnIDLE else s.laneSt l) ∧
        t.get (Fd.LNK_LANE_STAT_GEN l) = g % 4 ∧ t.get (Fd.LNK_LANE_CDR_FOFS l) = s.get (Fd.LNK_LANE_CDR_FOFS l) ∧
        (t.lane l).ph = (s.lane l).ph) ∧
      ∀ l ∈ tileLanes n, s.get (Fd.LNK_LANE_CTL_TX_EN l) = 1 →
        t.get (Fd.LNK_LANE_STAT_TX_IDLE l) = 1 ∧ t.get (Fd.LNK_LANE_STAT_GEN l) = g % 4 := by
  have hqs : ∀ r ∈ [4, 5, 6, 7, 14], r ∈ [4, 5, 6, 7, 14] := fun _ h => h
  have hen : ∀ l f, l < 128 → (f = Fd.LNK_LANE_CTL_RX_EN l ∨ f = Fd.LNK_LANE_CTL_TX_EN l ∨ f = Fd.LNK_LANE_CDR_FOFS l) →
      (relit n x s).get f = s.get f := by
    intro l f hl hf
    refine (held_relit hl x f (hf.imp_right (Or.imp_right Or.inl))).trans (keeps_quieted (C := fun g => g = f) x ?_ f rfl)
    rintro k - g rfl
    refine Field.apart_of_off ?_
    obtain rfl | rfl | rfl := hf
    · simp only [Fd.LNK_LANE_STAT_TX_IDLE, Fd.LNK_LANE_CTL_RX_EN]; omega
    · simp only [Fd.LNK_LANE_STAT_TX_IDLE, Fd.LNK_LANE_CTL_TX_EN]; omega
    · simp only [Fd.LNK_LANE_STAT_TX_IDLE, Fd.LNK_LANE_CDR_FOFS]; omega
  intro t
  refine ⟨(((within_relit x).setGen n g).set _ _).port_upd _ _, ?_, (tick_port_upd _ _).trans (port_relit_gen x g), ?_, ?_,
      fun l hl => ?_, fun l hl htx => ?_⟩
  · have hlane : ∀ l ∈ tileLanes n, clearOfLane (outside [4, 5, 6, 7, 14]) l := fun l hl => outside_clearOfLane hqs
      (lane_of_tileLanes hl n.isLt)
    have hrelit := keeps_relit (s := s) (n := n) x
      (fun l hl => (hlane l hl).off (by simp [Fd.LNK_LANE_STAT_TX_IDLE]) (by simp [Fd.LNK_LANE_STAT_TX_IDLE]))
      (fun l hl => hlane l (List.mem_filter.1 hl).1) (outside_clearOfGap hqs)
    exact onlyRegions_of_keeps (((hrelit.setGen fun l hl => (hlane l hl).off (by simp [Fd.LNK_LANE_STAT_GEN])
        (by simp [Fd.LNK_LANE_STAT_GEN])).set_tile
      (outside_clearOfTile hqs n.isLt) (Fd.LNK_TILE_STAT_GEN n) g (by simp [portFields])).port_upd n _)
  · exact congrArg TilePort.tsw (State.port_upd_same _ _ _)
  · exact State.get_set _ _ _ (Nat.le_succ 4) (by simp [Fd.LNK_TILE_STAT_GEN])
  · obtain ⟨hmem, hrx⟩ := List.mem_filter.1 hl
    have hl' := lane_of_rxLanes hl
    refine ⟨(keeps_gen _ g _ (.inl rfl)).trans (laneSt_relit hl x), gen_lane _ g hmem
        (.inl ((hen l _ hl' (.inl rfl)).trans ?_)),
      (keeps_gen _ g _ (.inr (.inl rfl))).trans (hen l _ hl' (.inr (.inr rfl))), ?_⟩
    · exact beq_iff_eq.1 (Bool.and_eq_true_iff.1 hrx).1
    · rw [State.lane_port_upd, lane_gen, ph_relit]
  · have hl' := lane_of_tileLanes hl n.isLt
    exact ⟨(keeps_gen _ g _ (.inr (.inr rfl))).trans ((held_relit hl' x _ (.inr (.inr (.inr rfl)))).trans
        (idle_quieted hl htx x)),
      gen_lane _ g hl (.inr ((hen l _ hl' (.inr (.inl rfl))).trans htx))⟩

/-- Settles O25, command by command. -/
theorem linkStatesComplete : Obligations.LinkStatesComplete := by
  unfold Obligations.LinkStatesComplete
  refine ⟨fun n s hr hst => ⟨_, exec_linkStateTimeout hr hst, ?_⟩, fun n s h hst => relink_fresh h hst,
    fun n s h hoff hrun hfailed => relink_counts h hoff hrun hfailed, fun n s h hoff => relink_ignored h hoff,
    fun n s x h hx hdue => ⟨_, exec_genSwitch h hx hdue, switchedAll x _⟩, fun n s h => fallen h⟩
  refine attempt_fails ?_ ?_ ?_
  · obtain h | h | h := hst <;> rw [h] <;> decide
  · obtain h | h | h := hst <;> rw [h] <;> decide
  · obtain h | h | h := hst <;> rw [h] <;> decide

end Sys2Proof.Machine.LinkStates
end

section
/-!
PROOF. The time interval unit: a stop, a miss, a write of its control (R74, R76, R79).
-/
-- One thread for the lemmas: a thread for each would ask for more memory than a build may have.
set_option Elab.async false

namespace Sys2Proof.Machine.Tiu

variable {s t u : State}

/-! ## What the stalls take in

An event that enters its stall changes the histogram engine's record, and counts. -/

/-- t has the stalls' changes over s: the engine's record and the counts. -/
def Stalled (s t : State) : Prop := Io.Calm s.io t.io ∧ s.within [.io, .hst] t

namespace Stalled

theorem refl (s : State) : Stalled s s := ⟨Io.Calm.refl _, s.within_refl _⟩

theorem hst_upd (h : Stalled s t) (f : Hst → Hst) : Stalled s (t.hst' f) := ⟨h.1, h.2.hst_upd f⟩

theorem count (h : Stalled s t) (r c i n : ℕ) : Stalled s (t.count r c i n) := ⟨h.1.trans (Io.calm_count ..), h.2.count r c i n⟩

theorem onlyIf (h : Stalled s t) {b : Bool} {f : State → State} (k : Stalled s (f t)) : Stalled s (t.onlyIf b f) := by
  cases b
  · exact h
  · exact k

theorem each {α : Type} {l : List α} {f : α → State → State} (h : Stalled s t) (k : ∀ x w, Stalled s w → Stalled s (f x w)) :
    Stalled s (t.each l f) := foldl_keeps (Stalled s) _ (fun w x => k x w) l t h

theorem bankAt_upd (h : Stalled s t) (sec : ℕ) (which : Option Wide) (f : Bank → Bank) : Stalled s (t.bankAt' sec which f) := by
  unfold State.bankAt'
  split
  · exact h.hst_upd _
  · exact h.hst_upd _

theorem applyUpdate (h : Stalled s t) (sec : ℕ) (which : Option Wide) (f : Bank → Bank × Bool) : Stalled s
    (t.applyUpdate sec which f) :=
  (h.bankAt_upd ..).onlyIf ((h.bankAt_upd ..).count ..)

theorem mainUpdate (h : Stalled s t) (c : ℕ) (which : Option Wide) (v : ℤ) (bin : ℕ) (now : Wide) :
    Stalled s (t.mainUpdate c which v bin now) := by
  unfold State.mainUpdate
  dsimp only
  split
  · exact (h.hst_upd _).count ..
  · exact (((h.hst_upd _).bankAt_upd ..).applyUpdate ..).count ..

theorem zoomUpdate (h : Stalled s t) (c slot w : ℕ) (which : Option Wide) (z : ℕ) (now : Wide) :
    Stalled s (t.zoomUpdate c slot w which z now) := by
  unfold State.zoomUpdate
  dsimp only
  split
  · exact (h.hst_upd _).count ..
  · exact (h.hst_upd _).applyUpdate ..

theorem enterHypothesis (h : Stalled s t) (l : LineRec) (w : Window) (c typ : ℕ) (which : Option Wide) (r : ℤ) (now : Wide)
    (zen : Bool)
    (x : ShotRec) : Stalled s (State.enterHypothesis l w c typ which r now zen t x) := by
  have hmain : Stalled s (if typ = 3 then t else match w.bin (r - (t.fireTime l c x).1 - signed 20
      (t.getAt x.fire (Fd.HST_CHAN_DLY c))) with
      | some b => t.mainUpdate c which (r - (t.fireTime l c x).1 - signed 20 (t.getAt x.fire (Fd.HST_CHAN_DLY c))) b now
      | none => (t.keepUpdate c which (r - (t.fireTime l c x).1 - signed 20 (t.getAt x.fire (Fd.HST_CHAN_DLY c)))
          4096).countSec (c / 32)
          Src.HST_OUTWIN 1) := by
    split
    · exact h
    · split
      · exact h.mainUpdate ..
      · exact (h.bankAt_upd ..).count ..
  unfold State.enterHypothesis
  dsimp only
  split
  · refine hmain.each fun z w hw => ?_
    split
    · exact hw.zoomUpdate ..
    · exact hw
  · exact hmain

theorem enterEvent (h : Stalled s t) (c typ : ℕ) (x : ℤ) (arrival : Wide) : Stalled s (t.enterEvent c typ x arrival) := by
  unfold State.enterEvent
  dsimp only
  split
  · exact h.count ..
  split
  · exact h.count ..
  split
  · exact h.count ..
  · exact foldl_keeps (Stalled s) _ (fun w y hw => hw.enterHypothesis ..) _ _
      ((h.onlyIf (h.count ..)).onlyIf ((h.onlyIf (h.count ..)).bankAt_upd ..))

theorem admitEvent (h : Stalled s t) (e : Waiting) : Stalled s (t.admitEvent e) := by
  unfold State.admitEvent
  split
  · exact h.hst_upd _
  · exact h.enterEvent ..

theorem releaseEvents (s : State) : Stalled s s.releaseEvents :=
  ((refl s).hst_upd _).each fun e _ hw => hw.admitEvent e

theorem tbas (h : Stalled s t) : t.tbas = s.tbas := h.2.same .tbas (by decide)

theorem get (h : Stalled s t) {f : Field} (hf : f.steady = true) : t.get f = s.get f := h.1.steady hf

end Stalled
/-! ## The registers of a stop -/

theorem steady_stop {f : Field} (h : 0x00230000 ≤ f.off) (h' : f.off ≤ 0x00230300) : f.steady = true := by
  simp only [Field.steady, alarmReg, Fd.MGMT_LOG_LOST_COUNT, bne_iff_ne, Bool.and_eq_true, Bool.not_eq_true',
      Bool.or_eq_false_iff,
    beq_eq_false_iff_ne, decide_eq_false_iff_not]
  omega

theorem steady_crossings (m : Fin 16) : (Fd.MONI_IN_STAT_XINGS m).steady = true := by
  revert m
  decide

theorem unsigned_lt (w : ℕ) (v : ℤ) : unsigned w v < 2 ^ w := by
  have hpos : (0 : ℤ) < 2 ^ w := by positivity
  have hlt := Int.emod_lt_of_pos v hpos
  have hge := Int.emod_nonneg v hpos.ne'
  have hcast : ((2 ^ w : ℕ) : ℤ) = 2 ^ w := by push_cast; rfl
  unfold unsigned
  omega

/-- TBAS_TIU_LAST of a stop after its result (R82). -/
theorem last_tiuLast (m : ℕ) (d : ℤ) (diag miss : Bool) :
    (s.tiuLast m d diag miss).get (Fd.TBAS_TIU_LAST_D m) = unsigned 18 d ∧
      (s.tiuLast m d diag miss).get (Fd.TBAS_TIU_LAST_DIAG m) = (if diag then 1 else 0) ∧
      (s.tiuLast m d diag miss).get (Fd.TBAS_TIU_LAST_MISS m) = if miss then 1 else 0 := by
  unfold State.tiuLast
  refine ⟨?_, ?_, State.get_setBit _ _ _ (Nat.le_refl 31) (by simp [Fd.TBAS_TIU_LAST_MISS])⟩
  · rw [State.get_setBit_apart _ _ (by simp [Field.apart, Fd.TBAS_TIU_LAST_MISS, Fd.TBAS_TIU_LAST_D]),
      State.get_setBit_apart _ _ (by simp [Field.apart, Fd.TBAS_TIU_LAST_DIAG, Fd.TBAS_TIU_LAST_D])]
    exact (State.get_set _ _ _ (Nat.zero_le 17) (by simp [Fd.TBAS_TIU_LAST_D])).trans (Nat.mod_eq_of_lt (unsigned_lt 18 d))
  · rw [State.get_setBit_apart _ _ (by simp [Field.apart, Fd.TBAS_TIU_LAST_MISS, Fd.TBAS_TIU_LAST_DIAG])]
    exact State.get_setBit _ _ _ (Nat.le_refl 30) (by simp [Fd.TBAS_TIU_LAST_DIAG])

theorem get_tiuLast {f : Field} {m : ℕ} (h : f.off ≠ (Fd.TBAS_TIU_LAST_D m).off) (d : ℤ) (diag miss : Bool) :
    (s.tiuLast m d diag miss).get f = s.get f := by
  unfold State.tiuLast State.setBit
  rw [State.get_set_off (f := Fd.TBAS_TIU_LAST_MISS m) _ _ h, State.get_set_off (f := Fd.TBAS_TIU_LAST_DIAG m) _ _ h,
    State.get_set_off (f := Fd.TBAS_TIU_LAST_D m) _ _ h]

theorem onlyRegs_tiuLast {rs : List ℕ} (h : s.onlyRegs rs t) {m : ℕ} (k : (Fd.TBAS_TIU_LAST_MISS m).off ∈ rs) (d : ℤ)
    (diag miss : Bool) :
    s.onlyRegs rs (t.tiuLast m d diag miss) :=
  ((h.set (Fd.TBAS_TIU_LAST_D m) _ k).setBit (Fd.TBAS_TIU_LAST_DIAG m) _ k).setBit (Fd.TBAS_TIU_LAST_MISS m) _ k

/-- The registers of a latched block. -/
def latchRegs (m : ℕ) : List ℕ :=
  [(Fd.TBAS_TIU_SEQ_MISSES m).off, (Fd.TBAS_TIU_MAX_MAX m).off, (Fd.TBAS_TIU_MIN_MIN m).off, (Fd.TBAS_TIU_SD_SD m).off,
    (Fd.TBAS_TIU_MEAN_MEAN m).off]

/-- A measurement enters its block: the registers of the block alone, and the shot as it was. -/
theorem get_measure {f : Field} {m : ℕ} (h : f.off ∉ latchRegs m) (d : ℤ) : (s.measure m d).get f = s.get f := by
  simp only [latchRegs, List.mem_cons, List.not_mem_nil, or_false, not_or] at h
  obtain ⟨hseq, hmax, hmin, hsd, hmean⟩ := h
  unfold State.measure
  dsimp only
  split
  · unfold State.latchBlock State.setBlock State.bump
    rw [State.get_tbas_upd, State.get_set_off _ _ hseq, State.get_set_off (f := Fd.TBAS_TIU_SEQ_SEQ m) _ _ hseq,
        State.get_set_off _ _ hmax,
      State.get_set_off _ _ hmin, State.get_set_off _ _ hsd, State.get_set_off _ _ hmean]
  · rfl

theorem onlyRegs_measure {rs : List ℕ} (h : s.onlyRegs rs t) {m : ℕ} (k : ∀ a ∈ latchRegs m, a ∈ rs) (d : ℤ) : s.onlyRegs rs
    (t.measure m d) := by
  have hseq := k (Fd.TBAS_TIU_SEQ_MISSES m).off (by simp [latchRegs])
  unfold State.measure
  dsimp only
  split
  · exact ((((((h.set (Fd.TBAS_TIU_MEAN_MEAN m) _ (k _ (by simp [latchRegs]))).set (Fd.TBAS_TIU_SD_SD m) _
      (k _ (by simp [latchRegs]))).set
      (Fd.TBAS_TIU_MIN_MIN m) _ (k _ (by simp [latchRegs]))).set (Fd.TBAS_TIU_MAX_MAX m) _ (k _ (by simp [latchRegs]))).bump
      (Fd.TBAS_TIU_SEQ_SEQ m) _ hseq).set (Fd.TBAS_TIU_SEQ_MISSES m) _ hseq).tbas_upd _
  · exact h.tbas_upd _

theorem within_measure {l : List Part} (h : s.within l t) (k : .io ∈ l) (k' : .tbas ∈ l) (m : ℕ) (d : ℤ) : s.within l
    (t.measure m d) := by
  unfold State.measure
  dsimp only
  split
  · exact ((((((h.set _ _ k).set _ _ k).set _ _ k).set _ _ k).bump _ _ k).set _ _ k).tbas_upd _ k'
  · exact h.tbas_upd _ k'

theorem shot_measure (m : ℕ) (d : ℤ) : (s.measure m d).tbas.shot = s.tbas.shot := by
  unfold State.measure
  dsimp only
  split
  · unfold State.latchBlock State.setBlock
    simp only [State.tbas_upd_tbas, State.set_tbas, State.bump_tbas]
  · rfl

/-! ## The commands -/

/-- A crossing inside its window: the stop closed, its result shown, counted and handed on. -/
def crossed (m : Fin 16) (raw : BitVec 16) (x : TiuShot) (s : State) : State :=
  let s0 := s.bump (Fd.MONI_IN_STAT_XINGS m) 1
  let d : ℤ := (raw.toNat : ℤ) - s0.getAt x.fire (Fd.TBAS_TIU_MDLY_MDLY m)
  let s1 := (s0.closeStop m |>.tiuLast m d x.diag false |>.count 1 Src.TBAS_TIU_SHOTS m 1).emission x m d false
  if x.diag then s1 else s1.measure m d

theorem exec_tiuStop {m : Fin 16} {raw : BitVec 16} {x : TiuShot} (hx : s.tbas.shot = some x) (hopen : x.stops.testBit m = true)
    (hreport : s.reportsCrossing m (x.fire + BitVec.ofNat 64 (raw.toNat / 4)) = true) (hlow : 512 * x.opens ≤ raw.toNat)
    (hhigh : raw.toNat ≤ 512 * x.closes) : exec (.tiuStop m raw) s = .next (crossed m raw x s).releaseEvents := by
  change execTiuStop m raw s = _
  unfold execTiuStop
  rw [hx]
  dsimp only
  rw [if_neg (by simp [hreport]), if_pos (by simp [hopen, hlow, hhigh])]
  rfl

theorem exec_tiuStop_silent {m : Fin 16} {raw : BitVec 16} {x : TiuShot} (hx : s.tbas.shot = some x)
    (hreport : s.reportsCrossing m (x.fire + BitVec.ofNat 64 (raw.toNat / 4)) = false) : exec (.tiuStop m raw) s = .next s := by
  change execTiuStop m raw s = _
  unfold execTiuStop
  rw [hx]
  dsimp only
  rw [if_pos (by simp [hreport])]
  rfl

theorem exec_tiuMiss {m : Fin 16} {x : TiuShot} (hx : s.tbas.shot = some x) (hopen : x.stops.testBit m = true) :
    exec (.tiuMiss m) s = .next (s.missStop x m).releaseEvents := by
  change execTiuMiss m s = _
  unfold execTiuMiss
  rw [hx]
  dsimp only
  rw [if_pos hopen]
  rfl

theorem commitFixed_bump (g : Field) (n : ℕ) : (s.bump g n).commitFixed = s.commitFixed := rfl
theorem shadowWord_bump (g : Field) (n a : ℕ) : (s.bump g n).shadowWord a = s.shadowWord a := rfl

/-- The delay in force at the fire tick is not touched by the count of crossings. -/
theorem getAt_bump (m : Fin 16) (f : Wide) : (s.bump (Fd.MONI_IN_STAT_XINGS m) 1).getAt f (Fd.TBAS_TIU_MDLY_MDLY m) =
    s.getAt f (Fd.TBAS_TIU_MDLY_MDLY m) := by
  have hreg : (s.bump (Fd.MONI_IN_STAT_XINGS m) 1).reg (Fd.TBAS_TIU_MDLY_MDLY m).off = s.reg (Fd.TBAS_TIU_MDLY_MDLY m).off :=
    State.reg_set_other s _ (by simp only [Fd.MONI_IN_STAT_XINGS, Fd.TBAS_TIU_MDLY_MDLY]; omega)
  have htick : (s.bump (Fd.MONI_IN_STAT_XINGS m) 1).varnishTick = s.varnishTick := by
    unfold State.varnishTick
    have hlo : Fd.CHIP_VARNISH_TICK_LO_TICK.off ≠ (Fd.MONI_IN_STAT_XINGS m).off := by
      simp only [Fd.MONI_IN_STAT_XINGS, Fd.CHIP_VARNISH_TICK_LO_TICK]; omega
    have hhi : Fd.CHIP_VARNISH_TICK_HI_TICK.off ≠ (Fd.MONI_IN_STAT_XINGS m).off := by
      simp only [Fd.MONI_IN_STAT_XINGS, Fd.CHIP_VARNISH_TICK_HI_TICK]; omega
    rw [State.get_bump_apart _ _ (Field.apart_of_off hlo), State.get_bump_apart _ _ (Field.apart_of_off hhi)]
  have happlied : (s.bump (Fd.MONI_IN_STAT_XINGS m) 1).appliedBy f = s.appliedBy f := by
    unfold State.appliedBy
    rw [htick, commitFixed_bump]
  unfold State.getAt State.regAt
  rw [happlied, hreg, shadowWord_bump, State.bump_chip]

theorem shot_closeStop (x : TiuShot) (hx : s.tbas.shot = some x) (m : ℕ) :
    (s.closeStop m).tbas.shot = some { x with stops := x.stops &&& (0xFFFF ^^^ 2 ^ m) } := by
  unfold State.closeStop
  simp only [State.tbas_upd_tbas, hx, Option.map_some]

theorem get_emission (x : TiuShot) (m : ℕ) (d : ℤ) (miss : Bool) (f : Field) : (s.emission x m d miss).get f = s.get f := rfl
theorem tbas_emission (x : TiuShot) (m : ℕ) (d : ℤ) (miss : Bool) : (s.emission x m d miss).tbas = s.tbas := rfl
theorem tbas_tiuLast (m : ℕ) (d : ℤ) (diag miss : Bool) : (s.tiuLast m d diag miss).tbas = s.tbas := by
  unfold State.tiuLast
  rw [State.setBit_tbas, State.setBit_tbas, State.set_tbas]

/-- The frame of a crossing. -/
def crossingRegs (m : Fin 16) : List ℕ :=
  [(Fd.TBAS_TIU_LAST_MISS m).off, (Fd.TBAS_TIU_SEQ_MISSES m).off, (Fd.TBAS_TIU_MAX_MAX m).off, (Fd.TBAS_TIU_MIN_MIN m).off,
    (Fd.TBAS_TIU_SD_SD m).off, (Fd.TBAS_TIU_MEAN_MEAN m).off, (Fd.MONI_IN_STAT_XINGS m).off]

/-- What of a crossing is done whether or not its shot is one of diagnosis. -/
theorem shown_before (m : Fin 16) {x : TiuShot} (hx : s.tbas.shot = some x) (d : ℤ) :
    let t := ((s.bump (Fd.MONI_IN_STAT_XINGS m) 1).closeStop m |>.tiuLast m d x.diag false |>.count 1 Src.TBAS_TIU_SHOTS m
        1).emission x m d false
    s.within [.io, .tbas, .scan, .hst] t ∧ s.onlyRegs (crossingRegs m) t ∧
      t.get (Fd.MONI_IN_STAT_XINGS m) = (s.get (Fd.MONI_IN_STAT_XINGS m) + 1) % 2 ^ 16 ∧
      t.get (Fd.TBAS_TIU_LAST_D m) = unsigned 18 d ∧ t.get (Fd.TBAS_TIU_LAST_MISS m) = 0 ∧
      t.get (Fd.TBAS_TIU_LAST_DIAG m) = (if x.diag then 1 else 0) ∧
      t.tbas.shot = some { x with stops := x.stops &&& (0xFFFF ^^^ 2 ^ (m : ℕ)) } := by
  have hsteady : ∀ f : Field, f.off = (Fd.TBAS_TIU_LAST_D m).off → f.steady = true := fun f hf =>
    steady_stop (by rw [hf]; simp only [Fd.TBAS_TIU_LAST_D]; omega) (by rw [hf]; simp only [Fd.TBAS_TIU_LAST_D]; omega)
  obtain ⟨hd, hdiag, hmiss⟩ := last_tiuLast (s := (s.bump (Fd.MONI_IN_STAT_XINGS m) 1).closeStop m) m d x.diag false
  have hcounted := (((s.onlyRegs_refl (crossingRegs m)).bump (Fd.MONI_IN_STAT_XINGS m) 1 (by simp [crossingRegs])).tbas_upd
    fun t => { t with shot := t.shot.map fun h => { h with stops := h.stops &&& (0xFFFF ^^^ 2 ^ (m : ℕ)) } })
  refine ⟨((((((s.within_refl _).bump _ _).tbas_upd _).set _ _).set _ _).set _ _ |>.count _ _ _ _ |>.scan_upd _), ?_, ?_,
      ?_, ?_, ?_, ?_⟩
  · exact ((onlyRegs_tiuLast hcounted (by simp [crossingRegs]) d x.diag false).count _ _ _ _).scan_upd _
  · rw [get_emission, State.get_count _ _ _ _ _ (steady_crossings m),
      get_tiuLast (by simp only [Fd.MONI_IN_STAT_XINGS, Fd.TBAS_TIU_LAST_D]; omega)]
    exact State.get_bump s _ 1 (by simp [Fd.MONI_IN_STAT_XINGS]) (by simp [Fd.MONI_IN_STAT_XINGS])
  · rw [get_emission, State.get_count _ _ _ _ _ (hsteady _ rfl), hd]
  · rw [get_emission, State.get_count _ _ _ _ _ (hsteady (Fd.TBAS_TIU_LAST_MISS m) rfl), hmiss]
    rfl
  · rw [get_emission, State.get_count _ _ _ _ _ (hsteady (Fd.TBAS_TIU_LAST_DIAG m) rfl), hdiag]
  · rw [tbas_emission, State.count_tbas, tbas_tiuLast]
    exact shot_closeStop x (by rw [State.bump_tbas, hx]) m

/-- A stop in its window (R74). -/
theorem crossed_shown (m : Fin 16) (raw : BitVec 16) {x : TiuShot} (hx : s.tbas.shot = some x) :
    let t := crossed m raw x s
    s.within [.io, .tbas, .scan, .hst] t ∧ s.onlyRegs (crossingRegs m) t ∧
      t.get (Fd.MONI_IN_STAT_XINGS m) = (s.get (Fd.MONI_IN_STAT_XINGS m) + 1) % 2 ^ 16 ∧
      t.get (Fd.TBAS_TIU_LAST_D m) = unsigned 18 ((raw.toNat : ℤ) - s.getAt x.fire (Fd.TBAS_TIU_MDLY_MDLY m)) ∧
      t.get (Fd.TBAS_TIU_LAST_MISS m) = 0 ∧ t.get (Fd.TBAS_TIU_LAST_DIAG m) = (if x.diag then 1 else 0) ∧
      t.tbas.shot = some { x with stops := x.stops &&& (0xFFFF ^^^ 2 ^ (m : ℕ)) } := by
  obtain ⟨hwithin, hregs, hxings, hd, hmiss, hdiag, hshot⟩ := shown_before m hx
      ((raw.toNat : ℤ) - s.getAt x.fire (Fd.TBAS_TIU_MDLY_MDLY m))
  unfold crossed
  dsimp only
  rw [getAt_bump]
  by_cases hkind : x.diag = true
  · rw [if_pos hkind]
    exact ⟨hwithin, hregs, hxings, hd, hmiss, hdiag, hshot⟩
  · rw [if_neg hkind]
    refine ⟨within_measure hwithin (by decide) (by decide) _ _, onlyRegs_measure hregs ?_ _, (get_measure ?_ _).trans
        hxings, (get_measure ?_ _).trans hd,
      (get_measure ?_ _).trans hmiss, (get_measure ?_ _).trans hdiag, (shot_measure _ _).trans hshot⟩
    · simp [latchRegs, crossingRegs]
    all_goals
      simp only [latchRegs, List.mem_cons, List.not_mem_nil, or_false, Fd.MONI_IN_STAT_XINGS, Fd.TBAS_TIU_LAST_D,
          Fd.TBAS_TIU_LAST_MISS,
        Fd.TBAS_TIU_LAST_DIAG, Fd.TBAS_TIU_SEQ_MISSES, Fd.TBAS_TIU_MAX_MAX, Fd.TBAS_TIU_MIN_MIN, Fd.TBAS_TIU_SD_SD,
            Fd.TBAS_TIU_MEAN_MEAN]
      omega

/-- A stop whose window has closed (R76). -/
theorem missed_shown (m : Fin 16) {x : TiuShot} (hx : s.tbas.shot = some x) :
    let t := s.missStop x m
    s.within [.io, .tbas, .scan, .hst] t ∧ s.onlyRegs [(Fd.TBAS_TIU_LAST_MISS m).off] t ∧ t.get (Fd.TBAS_TIU_LAST_MISS m) = 1 ∧
      t.get (Fd.TBAS_TIU_LAST_D m) = unsigned 18 (roundHalfAway (signed 26 (s.get (Fd.TBAS_TIU_MEAN_MEAN m))) 256) ∧
      (t.block m).misses = (s.block m).misses + 1 ∧
      t.tbas.shot = some { x with stops := x.stops &&& (0xFFFF ^^^ 2 ^ (m : ℕ)) } := by
  have hsteady : ∀ f : Field, f.off = (Fd.TBAS_TIU_LAST_D m).off → f.steady = true := fun f hf =>
    steady_stop (by rw [hf]; simp only [Fd.TBAS_TIU_LAST_D]; omega) (by rw [hf]; simp only [Fd.TBAS_TIU_LAST_D]; omega)
  obtain ⟨hd, -, hmiss⟩ := last_tiuLast (s := s.closeStop m) m
      (roundHalfAway (signed 26 (s.get (Fd.TBAS_TIU_MEAN_MEAN m))) 256) x.diag true
  unfold State.missStop
  dsimp only
  refine ⟨(((((s.within_refl _).tbas_upd _).set _ _).set _ _).set _ _ |>.count _ _ _ _ |>.tbas_upd _ |>.scan_upd _), ?_, ?_,
      ?_, ?_, ?_⟩
  · exact (((onlyRegs_tiuLast ((s.onlyRegs_refl _).tbas_upd _) List.mem_cons_self _ x.diag true).count _ _ _ _).tbas_upd
      _).scan_upd _
  · rw [get_emission, State.setBlock, State.get_tbas_upd, State.get_count _ _ _ _ _ (hsteady (Fd.TBAS_TIU_LAST_MISS m) rfl),
      hmiss]
    rfl
  · rw [get_emission, State.setBlock, State.get_tbas_upd, State.get_count _ _ _ _ _ (hsteady (Fd.TBAS_TIU_LAST_D m) rfl), hd]
  · unfold State.block
    rw [tbas_emission]
    exact congrArg TiuBlock.misses (rd_wr_same _ _ _ _)
  · rw [tbas_emission, State.setBlock, State.tbas_upd_tbas, State.count_tbas, tbas_tiuLast]
    exact shot_closeStop x hx m

theorem exec_tiuCtlWrite {who : Actor} {v : Word} (h : s.admits (.tiuCtlWrite who v) = true) (hv : bitsOf v 4 0 ≤ 16) :
    exec (.tiuCtlWrite who v) s = .next ((s.set Fd.TBAS_TIU_CTL_NSTAT (bitsOf v 4 0)).tbas' fun b =>
      if (bitsOf v 8 8 == 1 || bitsOf v 4 0 != s.get Fd.TBAS_TIU_CTL_NSTAT) = true then { b with blocks := [] } else b) := by
  change execTiuCtlWrite who v s = _
  unfold execTiuCtlWrite
  refine (State.writeBy_admitted h).trans ?_
  dsimp only
  rw [if_neg (by omega)]
  rfl

/-- Settles O7: each command from its own lemma, the stalls' share aside. -/
theorem tiuCompletes : Obligations.TiuCompletes := by
  unfold Obligations.TiuCompletes
  refine ⟨fun m raw s x hx hopen hreport hlow hhigh => ⟨_, exec_tiuStop hx hopen hreport hlow hhigh, ?_⟩,
    fun m raw s x hx hreport => exec_tiuStop_silent hx hreport, fun m s x hx hopen => ⟨_, exec_tiuMiss hx hopen, ?_⟩,
    fun who v s h hv => ⟨_, exec_tiuCtlWrite h hv, ?_⟩⟩
  · obtain ⟨hwithin, hregs, hxings, hd, hmiss, hdiag, hshot⟩ := crossed_shown m raw hx
    have hstalled := Stalled.releaseEvents (crossed m raw x s)
    have hlast : ∀ f : Field, f.off = (Fd.TBAS_TIU_LAST_D m).off → f.steady = true := fun f hf =>
      steady_stop (by rw [hf]; simp only [Fd.TBAS_TIU_LAST_D]; omega) (by rw [hf]; simp only [Fd.TBAS_TIU_LAST_D]; omega)
    exact ⟨hwithin.trans (hstalled.2.mono (by decide)), hregs.of_calm hstalled.1, (hstalled.get (steady_crossings m)).trans
        hxings,
      (hstalled.get (hlast _ rfl)).trans hd, (hstalled.get (hlast (Fd.TBAS_TIU_LAST_MISS m) rfl)).trans hmiss,
      (hstalled.get (hlast (Fd.TBAS_TIU_LAST_DIAG m) rfl)).trans hdiag, by rw [hstalled.tbas, hshot]⟩
  · obtain ⟨hwithin, hregs, hmiss, hd, hblock, hshot⟩ := missed_shown m hx
    have hstalled := Stalled.releaseEvents (s.missStop x m)
    have hlast : ∀ f : Field, f.off = (Fd.TBAS_TIU_LAST_D m).off → f.steady = true := fun f hf =>
      steady_stop (by rw [hf]; simp only [Fd.TBAS_TIU_LAST_D]; omega) (by rw [hf]; simp only [Fd.TBAS_TIU_LAST_D]; omega)
    refine ⟨hwithin.trans (hstalled.2.mono (by decide)), hregs.of_calm hstalled.1,
        (hstalled.get (hlast (Fd.TBAS_TIU_LAST_MISS m) rfl)).trans hmiss,
      (hstalled.get (hlast _ rfl)).trans hd, ?_, by rw [hstalled.tbas, hshot]⟩
    rw [State.block, hstalled.tbas]
    exact hblock
  · refine ⟨((s.within_refl _).set _ _).tbas_upd _, ?_, fun hclear => ?_, fun a ha => State.reg_set_other s _ ha⟩
    · rw [State.get_tbas_upd]
      exact (State.get_set s _ _ (Nat.zero_le 4) (by decide)).trans (Nat.mod_eq_of_lt (Nat.lt_of_le_of_lt hv (by decide)))
    · rw [State.tbas_upd_tbas, hclear]
      rfl

end Sys2Proof.Machine.Tiu
end

section
/-!
SUPPORT. What counting, an interrupt and an error add to the outputs: messages to the host only (R310, R311), before what
    had left;
and what a steady field reads outside the registers that may change.
-/
-- One thread for the lemmas: a thread for each would ask for more memory than a build may have.
set_option Elab.async false

namespace Sys2Proof.Machine

/-- A steady field outside the registers that may change reads as before. -/
theorem State.onlyRegs.steady {s t : State} {f : Field} {rs : List ℕ} (h : s.onlyRegs rs t) (hf : f.off ∉ rs)
    (hp : f.steady = true) : t.get f = s.get f := by
  obtain ⟨halarm, hlost⟩ : alarmReg f.off = false ∧ f.off ≠ Fd.MGMT_LOG_LOST_COUNT.off := by
    simpa [Field.steady] using hp
  exact Io.get_congr (h f.off hf halarm hlost)

/-- An interrupt message. -/
def Out.isMessage : Out → Bool
  | .msix .. => true
  | _ => false

/-- y has sent what x has, and after it interrupt messages at most. -/
def Io.Messages (x y : Io) : Prop := ∃ l : List Out, y.out = l ++ x.out ∧ ∀ o ∈ l, o.isMessage = true

namespace Io.Messages

variable {x y z : Io}

theorem of_out (h : y.out = x.out) : Io.Messages x y := ⟨[], h, fun _ ho => absurd ho List.not_mem_nil⟩

theorem refl (x : Io) : Io.Messages x x := of_out rfl

theorem trans (h : Io.Messages x y) (k : Io.Messages y z) : Io.Messages x z := by
  obtain ⟨l, hl, hm⟩ := h
  obtain ⟨m, km, kl⟩ := k
  refine ⟨m ++ l, by rw [km, hl, List.append_assoc], fun o ho => ?_⟩
  obtain ho | ho := List.mem_append.mp ho
  · exact kl o ho
  · exact hm o ho

/-- What had left is still among the outputs. -/
theorem mem (h : Io.Messages x y) {o : Out} (ho : o ∈ x.out) : o ∈ y.out := by
  obtain ⟨l, hl, -⟩ := h
  rw [hl]
  exact List.mem_append_right _ ho

theorem tillStep (x : Io) (r t n : ℕ) : Io.Messages x (x.tillStep r t n).1 := by
  unfold Io.tillStep
  simp only
  split <;> exact of_out rfl

theorem tillFeed (a r c i n t : ℕ) (y : Io × List ℕ) : Io.Messages y.1 (Io.tillFeed a r c i n y t).1 := by
  unfold Io.tillFeed
  split
  · exact tillStep ..
  · exact refl _

theorem countOnly (x : Io) (r c i n : ℕ) : Io.Messages x (x.countOnly r c i n).1 := by
  have hfeed (a : ℕ) (l : List ℕ) (y : Io × List ℕ) (hy : Io.Messages x y.1) :
      Io.Messages x (l.foldl (Io.tillFeed a r c i n) y).1 :=
    foldl_keeps (fun y : Io × List ℕ => Io.Messages x y.1) _ (fun y t h => h.trans (tillFeed ..)) _ _ hy
  unfold Io.countOnly
  split
  · exact refl x
  · refine hfeed _ _ _ ?_
    split
    · exact refl x
    · exact hfeed _ _ _ (refl x)

theorem post (x : Io) (n : ℕ) (b : Bool) (v : ℕ) : Io.Messages x (x.post n (.msix b v)) := by
  unfold Io.post
  split
  · exact of_out rfl
  · exact ⟨[.msix b v], rfl, by simp [Out.isMessage]⟩

theorem message (x : Io) (b : Bool) (v : ℕ) : Io.Messages x (x.message b v).1 := by
  unfold Io.message
  split
  · exact of_out rfl
  · exact (countOnly x 13 Src.HOST_MSIX_SENT 0 1).trans (post _ 4 b v)

theorem irqOnce (x : Io) (n : ℕ) : Io.Messages x (x.irqOnce n).1 := by
  unfold Io.irqOnce
  split
  · exact refl x
  · have hset : Io.Messages x (x.set (causeBit n) 1) := of_out rfl
    refine hset.trans ?_
    unfold Io.sendIrq
    split
    · exact message ..
    · exact refl _

theorem irq (x : Io) (n : ℕ) : Io.Messages x (x.irq n) := by
  unfold Io.irq Io.settleIrq
  exact foldl_keeps (Io.Messages x) _ (fun y r h => h.trans (irqOnce y _)) _ _ (irqOnce x n)

theorem count (x : Io) (r c i n : ℕ) : Io.Messages x (x.count r c i n) := by
  unfold Io.count
  exact foldl_keeps (Io.Messages x) _ (fun y q h => h.trans (irq y _)) _ _ (countOnly x r c i n)

theorem lose (x : Io) : Io.Messages x x.lose := by
  unfold Io.lose
  simp only
  have hset : Io.Messages x (x.set Fd.MGMT_LOG_LOST_COUNT (min (x.get Fd.MGMT_LOG_LOST_COUNT + 1) (2 ^ 32 - 1))) := of_out rfl
  exact (hset.trans (count ..)).trans (irq ..)

theorem err (x : Io) (e : Err) : Io.Messages x (x.err e) := by
  unfold Io.err Io.record
  simp only
  split
  · exact (count ..).trans (of_out rfl)
  · exact (count ..).trans (lose _)

end Io.Messages

end Sys2Proof.Machine
end

section
/-!
SETTLES O4. The oven loop and the warm-up (R57 to R61): the latch of its sources, the measured ratio, the law, the counts.
-/
-- One thread for the lemmas: a thread for each would ask for more memory than a build may have.
set_option Elab.async false

namespace Sys2Proof.Machine.OvenLoop
open Sys2Proof.Machine

variable {s t v : State} {f : Field} {rs : List ℕ}

/-! ## The latch (R81, R357) -/

/-- The latch moves the settle points of the sense chains. -/
def senseChains (s s1 : State) (k : ℕ) (x : State) : State := if State.senseMoved s s1 k then x.moveSettle k s.tick else x

theorem moveSettle_sense {k : ℕ} (hk : 16 ≤ k) (c : Wide) (s : State) :
    (s.moveSettle k c).io = s.io ∧ (s.moveSettle k c).tbas = s.tbas := by
  rw [State.moveSettle, if_neg (by omega)]
  exact ⟨rfl, rfl⟩

theorem within_moveSettle (h : s.within [.io, .tbas, .moni] t) {k : ℕ} (hk : 16 ≤ k) (c : Wide) :
    s.within [.io, .tbas, .moni] (t.moveSettle k c) := by
  rw [State.moveSettle, if_neg (by omega)]
  exact h.moni_upd _

/-- Sense chains that are moved leave the registers and the time base, and all other parts but MONI. -/
theorem senseChains_frame (s s1 : State) {k : ℕ} (hk : 16 ≤ k) (x : State) :
    (senseChains s s1 k x).io = x.io ∧ (senseChains s s1 k x).tbas = x.tbas ∧
      (∀ {u : State}, u.within [.io, .tbas, .moni] x → u.within [.io, .tbas, .moni] (senseChains s s1 k x)) := by
  unfold senseChains
  split
  · obtain ⟨hio, htbas⟩ := moveSettle_sense hk s.tick x
    exact ⟨hio, htbas, fun h => within_moveSettle h hk _⟩
  · exact ⟨rfl, rfl, id⟩

theorem senseChains_each (s s1 : State) (l : List ℕ) (hl : ∀ k ∈ l, 16 ≤ k) (x : State) :
    (x.each l (senseChains s s1)).io = x.io ∧ (x.each l (senseChains s s1)).tbas = x.tbas ∧
      (∀ {u : State}, u.within [.io, .tbas, .moni] x → u.within [.io, .tbas, .moni] (x.each l (senseChains s s1))) := by
  induction l generalizing x with
  | nil => exact ⟨rfl, rfl, id⟩
  | cons k l ih =>
    obtain ⟨hio, htbas, hw⟩ := senseChains_frame s s1 (hl k (by simp)) x
    obtain ⟨kio, ktbas, kw⟩ := ih (fun k hk => hl k (by simp [hk])) (senseChains s s1 k x)
    exact ⟨kio.trans hio, ktbas.trans htbas, fun h => kw (hw h)⟩

/-- A source taken over shows its compliance as it was, or as none. -/
theorem varnishSource_cases (s : State) (x : ℕ) (t : State) :
    State.varnishSource s x t = t ∨ State.varnishSource s x t = t.set (Fd.MONI_XS_STAT_COMPL.bit x) 0 := by
  unfold State.varnishSource
  split
  · exact .inl rfl
  · exact .inr rfl

theorem off_compl (x : ℕ) : (Fd.MONI_XS_STAT_COMPL.bit x).off = Fd.MONI_XS_STAT_COMPL.off := rfl

theorem varnishSource_frame (s : State) (x : ℕ) (t : State) :
    (State.varnishSource s x t).tbas = t.tbas ∧ t.onlyRegs [Fd.MONI_XS_STAT_COMPL.off] (State.varnishSource s x t) ∧
      t.within [.io, .tbas, .moni] (State.varnishSource s x t) := by
  obtain h | h := varnishSource_cases s x t
  · rw [h]
    exact ⟨rfl, State.onlyRegs_refl _ _, State.within_refl ..⟩
  · rw [h]
    exact ⟨rfl, (State.onlyRegs_refl _ _).set _ _ (by simp [off_compl]), (State.within_refl ..).set _ _⟩

theorem ovenOpens_iff : s.ovenOpens = false ↔
    s.get (Fd.MONI_XS_STAT_COMPL.bit 0) ≠ 1 ∧ s.get (Fd.MONI_XS_STAT_COMPL.bit 1) ≠ 1 := by
  change (s.get (Fd.MONI_XS_STAT_COMPL.bit 0) == 1 || s.get (Fd.MONI_XS_STAT_COMPL.bit 1) == 1) = false ↔ _
  simp only [Bool.or_eq_false_iff, beq_eq_false_iff_ne, ne_eq]

/-- Taking a source over sets no compliance bit. -/
theorem ovenOpens_varnishSource (s : State) {x : ℕ} (hx : x < 2) {t : State} (h : t.ovenOpens = false) :
    (State.varnishSource s x t).ovenOpens = false := by
  obtain k | k := varnishSource_cases s x t
  · rwa [k]
  · rw [k]
    have hsame : (t.set (Fd.MONI_XS_STAT_COMPL.bit x) 0).get (Fd.MONI_XS_STAT_COMPL.bit x) = 0 :=
      (State.get_set _ _ _ (by simp [Field.bit]) (by simp [Field.bit, Fd.MONI_XS_STAT_COMPL]; omega)).trans (Nat.zero_mod _)
    have hother : ∀ y, y < 2 → y ≠ x →
        (t.set (Fd.MONI_XS_STAT_COMPL.bit x) 0).get (Fd.MONI_XS_STAT_COMPL.bit y) = t.get (Fd.MONI_XS_STAT_COMPL.bit y) :=
      fun y hy hne => State.get_set_bits _ _ (by simp [Field.bit]) (by simp [Field.bit, Fd.MONI_XS_STAT_COMPL]; omega)
        (by simp [Field.bit]) (by simp [Field.bit]; omega)
    obtain ⟨h0, h1⟩ := ovenOpens_iff.mp h
    rw [ovenOpens_iff]
    interval_cases x
    · exact ⟨by rw [hsame]; decide, by rwa [hother 1 (by omega) (by omega)]⟩
    · exact ⟨by rwa [hother 0 (by omega) (by omega)], by rw [hsame]; decide⟩

/-- What the latch does to the whole state: it takes OVN_CTL, and may take compliance bits back. -/
theorem ovenLatch_frame (s : State) :
    s.ovenLatch.tbas = { s.tbas with ovenCtl := s.reg Fd.TBAS_OVN_CTL_EN.off } ∧
      s.onlyRegs [Fd.MONI_XS_STAT_COMPL.off] s.ovenLatch ∧ s.within [.io, .tbas, .moni] s.ovenLatch ∧
      (s.ovenOpens = false → s.ovenLatch.ovenOpens = false) := by
  have hlatch : s.ovenLatch = State.varnishSource s 1 (State.varnishSource s 0
      ((s.tbas' fun b => { b with ovenCtl := s.reg Fd.TBAS_OVN_CTL_EN.off }).each [16, 17, 18, 19]
        (senseChains s (s.tbas' fun b => { b with ovenCtl := s.reg Fd.TBAS_OVN_CTL_EN.off })))) := rfl
  obtain ⟨hio, htbas, hw⟩ := senseChains_each s (s.tbas' fun b => { b with ovenCtl := s.reg Fd.TBAS_OVN_CTL_EN.off })
    [16, 17, 18, 19] (by simp) (s.tbas' fun b => { b with ovenCtl := s.reg Fd.TBAS_OVN_CTL_EN.off })
  rw [hlatch]
  generalize (s.tbas' fun b => { b with ovenCtl := s.reg Fd.TBAS_OVN_CTL_EN.off }).each [16, 17, 18, 19]
        (senseChains s (s.tbas' fun b => { b with ovenCtl := s.reg Fd.TBAS_OVN_CTL_EN.off })) = m at hio htbas hw
  obtain ⟨htbas0, hregs0, hw0⟩ := varnishSource_frame s 0 m
  obtain ⟨htbas1, hregs1, hw1⟩ := varnishSource_frame s 1 (State.varnishSource s 0 m)
  have hm : ∀ a, m.reg a = s.reg a := fun a => by rw [State.reg, hio]; rfl
  refine ⟨(htbas1.trans htbas0).trans htbas, (((State.onlyRegs_refl s _).of_reg hm).trans hregs0).trans hregs1,
    State.within.trans (State.within.trans (hw ((State.within_refl s _).tbas_upd _)) hw0) hw1, fun h => ?_⟩
  refine ovenOpens_varnishSource s (by omega) (ovenOpens_varnishSource s (by omega) ?_)
  rw [ovenOpens_iff] at h ⊢
  rwa [show m.get (Fd.MONI_XS_STAT_COMPL.bit 0) = _ from Io.get_congr (hm _),
    show m.get (Fd.MONI_XS_STAT_COMPL.bit 1) = _ from Io.get_congr (hm _)]

/-! ## The measured ratio (log 102) -/

theorem foldl_min_const (r : ℕ) (l : List ℕ) (h : ∀ x ∈ l, x = r) : l.foldl min r = r := by
  induction l with
  | nil => rfl
  | cons x l ih =>
    rw [List.foldl_cons, h x (by simp), min_self]
    exact ih fun y hy => h y (by simp [hy])

theorem foldl_max_const (r : ℕ) (l : List ℕ) (h : ∀ x ∈ l, x = r) : l.foldl max r = r := by
  induction l with
  | nil => rfl
  | cons x l ih =>
    rw [List.foldl_cons, h x (by simp), max_self]
    exact ih fun y hy => h y (by simp [hy])

/-- The state once the ratios since the last update are used. -/
def drawn (s : State) : State :=
  (s.io' fun x => { x with free := x.free + 1 }).tbas' fun b => { b with ratios := [] }

/-- Where all pairs show one ratio, that is the measured one. -/
theorem ovenRatio_const {ratio : ℕ} (hm : ratio ∈ s.tbas.ratios) (hall : ∀ x ∈ s.tbas.ratios, x = ratio) :
    s.ovenRatio = (some ratio, drawn s) := by
  unfold State.ovenRatio
  split
  next h => simp [h] at hm
  next r l h =>
    rw [h] at hall
    obtain rfl : r = ratio := hall r (by simp)
    have hl : ∀ x ∈ l, x = r := fun x hx => hall x (by simp [hx])
    simp only [foldl_min_const r l hl, foldl_max_const r l hl, Nat.sub_self, Nat.zero_add, State.drawNat, Nat.mod_one,
        Nat.add_zero]
    rfl

theorem ovenRatio_none (h : s.tbas.ratios = []) : s.ovenRatio = (none, s) := by
  unfold State.ovenRatio
  rw [h]

/-! ## The heater -/

theorem get_heat (n : ℕ) (s : State) (f : Field) :
    (s.heat n).get f = (s.set Fd.TBAS_OVN_STAT_DUTY n).get f := rfl

theorem duty_heat {n : ℕ} (hn : n < 2 ^ 12) (s : State) : (s.heat n).get Fd.TBAS_OVN_STAT_DUTY = n :=
  (get_heat ..).trans ((State.get_set _ _ _ (by decide) (by decide)).trans (Nat.mod_eq_of_lt hn))

theorem tbas_heat (n : ℕ) (s : State) : (s.heat n).tbas = s.tbas := rfl

theorem within_heat (h : s.within [.io, .tbas, .moni] t) (n : ℕ) : s.within [.io, .tbas, .moni] (t.heat n) :=
  (h.set _ _).emit _

theorem onlyRegs_heat (h : s.onlyRegs rs t) (n : ℕ) (k : Fd.TBAS_OVN_STAT_DUTY.off ∈ rs) : s.onlyRegs rs (t.heat n) :=
  (h.set _ _ k).emit _

/-! ## The counts and what is shown of them -/

/-- The fields that an update shows. -/
def shown (f : Field) : Bool :=
  Fd.TBAS_TB_STAT_HOLD_MODE.apart f && Fd.TBAS_TB_STAT_OVEN_OK.apart f && Fd.TBAS_TB_STAT_FREQ_OK.apart f
    && Fd.TBAS_PTM_STAT_ACTIVE.apart f

theorem get_setBit_apart {g : Field} (b : Bool) (h : g.apart f = true) : (s.setBit g b).get f = s.get f :=
  State.get_set_apart _ _ h

theorem get_showWarm (h : shown f = true) (s : State) : s.showWarm.get f = s.get f := by
  simp only [shown, Bool.and_eq_true] at h
  obtain ⟨⟨⟨hhold, hoven⟩, hfreq⟩, hactive⟩ := h
  unfold State.showWarm
  rw [get_setBit_apart _ hactive, get_setBit_apart _ hfreq, get_setBit_apart _ hoven, get_setBit_apart _ hhold]

theorem tbas_showWarm (s : State) : s.showWarm.tbas = s.tbas := rfl

theorem within_showWarm {u : List Part} (h : s.within u t) (k : .io ∈ u) : s.within u t.showWarm :=
  (((h.setBit _ _ k).setBit _ _ k).setBit _ _ k).setBit _ _ k

/-- The registers in which the warm-up is shown. -/
theorem onlyRegs_showWarm (h : s.onlyRegs rs t) (hstat : Fd.TBAS_TB_STAT_HOLD_MODE.off ∈ rs)
    (hptm : Fd.TBAS_PTM_STAT_ACTIVE.off ∈ rs) : s.onlyRegs rs t.showWarm := by
  unfold State.showWarm
  refine State.onlyRegs.setBit ?_ _ _ hptm
  exact ((h.setBit _ _ hstat).setBit Fd.TBAS_TB_STAT_OVEN_OK _ hstat).setBit Fd.TBAS_TB_STAT_FREQ_OK _ hstat

/-- The state with the times of one update counted (R57). -/
def counted (s : State) : State :=
  let e : Int := (s.get Fd.TBAS_OVN_MEAS_RATIO : Int) - s.get Fd.TBAS_OVN_SET_SETPT
  let inside := decide (e.natAbs ≤ s.get Fd.TBAS_OVN_BAND_BAND)
  let top := s.get Fd.TBAS_OVN_STAT_DUTY == s.get Fd.TBAS_OVN_CTL_MAXDUTY
  s.tbas' fun b =>
    { b with ovenUpd := b.ovenUpd + 1
             entered := b.entered || inside
             inBand := if inside then b.inBand + 1 else 0
             outBand := if 5 * s.get Fd.TBAS_OVN_BAND_BAND < e.natAbs then b.outBand + 1 else 0
             atMax := if (b.entered || inside) && top then b.atMax + 1 else 0 }

theorem ovenCount_eq (s : State) : ∃ b n, s.ovenCount = (((counted s).setBit Fd.TBAS_OVN_STAT_INBAND b).set
    Fd.TBAS_TB_STAT_WARM_S
    n).showWarm := ⟨_, _, rfl⟩

theorem get_ovenCount (hshown : shown f = true) (hband : Fd.TBAS_OVN_STAT_INBAND.apart f = true)
    (hwarm : Fd.TBAS_TB_STAT_WARM_S.apart f = true) (s : State) : s.ovenCount.get f = s.get f := by
  obtain ⟨b, n, h⟩ := ovenCount_eq s
  rw [h, get_showWarm hshown, State.get_set_apart _ _ hwarm, get_setBit_apart _ hband]
  rfl

/-- An update that is counted shows it in TB_STAT, OVN_STAT and PTM_STAT, and leaves the integral and the hold. -/
theorem ovenCount_frame (s : State) : s.ovenCount.tbas.ovenUpd = s.tbas.ovenUpd + 1 ∧ s.ovenCount.tbas.integral =
    s.tbas.integral ∧
    s.ovenCount.tbas.ratios = s.tbas.ratios ∧ s.ovenCount.tbas.ovenHeld = s.tbas.ovenHeld := ⟨rfl, rfl, rfl, rfl⟩

theorem within_ovenCount (h : s.within [.io, .tbas, .moni] t) : s.within [.io, .tbas, .moni] t.ovenCount := by
  obtain ⟨b, n, k⟩ := ovenCount_eq t
  rw [k]
  exact within_showWarm (((h.tbas_upd _).setBit _ _).set _ _) (by decide)

theorem onlyRegs_ovenCount (h : s.onlyRegs rs t) (hrs : ∀ a ∈ ovenRegs, a ∈ rs) : s.onlyRegs rs t.ovenCount := by
  obtain ⟨b, n, k⟩ := ovenCount_eq t
  rw [k]
  exact onlyRegs_showWarm (((h.tbas_upd _).setBit _ _ (hrs _ (by decide))).set _ _ (hrs _ (by decide))) (hrs _ (by decide))
    (hrs _ (by decide))

/-! ## One update -/

/-- The state with the sources taken and the ratio stored. -/
def measured (ratio : ℕ) (s : State) : State := (drawn s.ovenLatch).set Fd.TBAS_OVN_MEAS_RATIO ratio

theorem measured_tbas (ratio : ℕ) (s : State) :
    (measured ratio s).tbas = { s.tbas with ovenCtl := s.reg Fd.TBAS_OVN_CTL_EN.off, ratios := [] } := by
  change { s.ovenLatch.tbas with ratios := [] } = _
  rw [(ovenLatch_frame s).1]

theorem within_measured (ratio : ℕ) (s : State) : s.within [.io, .tbas, .moni] (measured ratio s) := by
  obtain ⟨-, -, hw, -⟩ := ovenLatch_frame s
  exact ((hw.io_upd _).tbas_upd _).set _ _

theorem onlyRegs_measured (ratio : ℕ) (s : State) :
    s.onlyRegs [Fd.TBAS_OVN_MEAS_RATIO.off, Fd.MONI_XS_STAT_COMPL.off] (measured ratio s) := by
  obtain ⟨-, hregs, -, -⟩ := ovenLatch_frame s
  exact ((hregs.mono (by simp)).of_reg fun _ => rfl).set _ _

theorem ratio_measured {ratio : ℕ} (h : ratio < 2 ^ 24) (s : State) : (measured ratio s).get Fd.TBAS_OVN_MEAS_RATIO = ratio :=
  (State.get_set _ _ _ (by decide) (by decide)).trans (Nat.mod_eq_of_lt h)

theorem ovenOpens_measured (ratio : ℕ) (h : s.ovenOpens = false) : (measured ratio s).ovenOpen = false := by
  obtain ⟨-, -, -, hopen⟩ := ovenLatch_frame s
  have hsame : (measured ratio s).ovenOpens = false := by
    have hlatch := hopen h
    rw [ovenOpens_iff] at hlatch ⊢
    rwa [measured, State.get_set_off _ _ (by decide), State.get_set_off _ _ (by decide)]
  exact (congrArg _ hsame).trans (Bool.and_false _)

/-- What an update does once it has its ratio: off or held, faulted, or by the law (R57, R59). -/
theorem exec_ovenUpdate {ratio : ℕ} (hon : s.tbas.ovenOn = true) (hm : ratio ∈ s.tbas.ratios)
    (hall : ∀ x ∈ s.tbas.ratios, x = ratio) :
    exec .ovenUpdate s = .next (State.ovenCount (
      if s.get Fd.TBAS_OVN_CTL_EN ≠ 1 ∨ s.tbas.ovenHeld = true then (measured ratio s).heat 0
      else if (measured ratio s).ovenOpen = true ∨ ratio * 64 < s.get Fd.TBAS_OVN_SET_SETPT then (measured ratio s).ovnFault
      else (measured ratio s).ovenLaw ratio)) := by
  have hratio : s.ovenLatch.ovenRatio = (some ratio, drawn s.ovenLatch) := by
    refine ovenRatio_const ?_ ?_ <;> rw [(ovenLatch_frame s).1] <;> assumption
  have hmeasured : (drawn s.ovenLatch).set Fd.TBAS_OVN_MEAS_RATIO ratio = measured ratio s := rfl
  have hen : s.is Fd.TBAS_OVN_CTL_EN = false ↔ s.get Fd.TBAS_OVN_CTL_EN ≠ 1 := beq_eq_false_iff_ne
  change execOvenUpdate s = _
  unfold execOvenUpdate
  rw [hon, hratio]
  simp only [Bool.not_true, Bool.false_eq_true, if_false, Bool.or_eq_true, Bool.not_eq_true', decide_eq_true_eq, hen,
    hmeasured]
  rfl

/-- Without a ratio the duty stands (R57). -/
theorem exec_ovenUpdate_none (hon : s.tbas.ovenOn = true) (hen : s.get Fd.TBAS_OVN_CTL_EN = 1) (hheld : s.tbas.ovenHeld = false)
    (hr : s.tbas.ratios = []) (hopen : s.ovenOpens = false) : exec .ovenUpdate s = .next s.ovenLatch.ovenCount := by
  obtain ⟨htbas, -, -, hlatch⟩ := ovenLatch_frame s
  have hratio : s.ovenLatch.ovenRatio = (none, s.ovenLatch) := ovenRatio_none (by rw [htbas]; exact hr)
  have hclosed : s.ovenLatch.ovenOpen = false := (congrArg _ (hlatch hopen)).trans (Bool.and_false _)
  have his : s.is Fd.TBAS_OVN_CTL_EN = true := beq_iff_eq.mpr hen
  change execOvenUpdate s = _
  unfold execOvenUpdate
  rw [hon, hratio]
  simp only [his, Bool.not_true, hclosed, Bool.or_self, Bool.false_eq_true, if_false, hheld]
  rfl

/-! ## The law -/

theorem ovenLaw_cold {ratio : ℕ} (h : s.get Fd.TBAS_OVN_SET_SETPT + 20 * s.get Fd.TBAS_OVN_BAND_BAND < ratio) :
    s.ovenLaw ratio = s.heat (s.get Fd.TBAS_OVN_CTL_MAXDUTY) := by
  unfold State.ovenLaw
  simp only
  rw [if_pos (by omega)]
  rfl

/-- Near its set point the loop takes the error into its integral, and its duty stays within MAXDUTY. -/
theorem ovenLaw_near {ratio : ℕ} (h : ratio ≤ s.get Fd.TBAS_OVN_SET_SETPT + 20 * s.get Fd.TBAS_OVN_BAND_BAND) :
    ∃ duty, duty ≤ s.get Fd.TBAS_OVN_CTL_MAXDUTY ∧ s.ovenLaw ratio =
        ((s.io' fun x => { x with free := x.free + 1 }).tbas' fun b =>
      { b with integral := s.tbas.integral + s.get Fd.TBAS_OVN_GAIN_KI * ((ratio : Int) - s.get Fd.TBAS_OVN_SET_SETPT)
          }).heat duty := by
  unfold State.ovenLaw
  simp only
  rw [if_neg (by omega)]
  exact ⟨_, by omega, rfl⟩

/-! ## The clauses -/

/-- The fields that an update leaves, but for the ratio, the heater and what it counts and shows. -/
theorem get_measured {ratio : ℕ} (s : State) (hm : f.off ≠ Fd.TBAS_OVN_MEAS_RATIO.off) (hx : f.off ≠ Fd.MONI_XS_STAT_COMPL.off)
    (hp : f.steady = true) : (measured ratio s).get f = s.get f :=
  (onlyRegs_measured ratio s).steady (by simp [hm, hx]) hp

theorem maxduty_lt (s : State) : s.get Fd.TBAS_OVN_CTL_MAXDUTY < 2 ^ 12 := Io.get_lt _ _

theorem ratio_ovenCount (s : State) : s.ovenCount.get Fd.TBAS_OVN_MEAS_RATIO = s.get Fd.TBAS_OVN_MEAS_RATIO :=
  get_ovenCount (by decide) (by decide) (by decide) s

theorem duty_ovenCount (s : State) : s.ovenCount.get Fd.TBAS_OVN_STAT_DUTY = s.get Fd.TBAS_OVN_STAT_DUTY :=
  get_ovenCount (by decide) (by decide) (by decide) s

theorem ratio_heat (n : ℕ) (s : State) : (s.heat n).get Fd.TBAS_OVN_MEAS_RATIO = s.get Fd.TBAS_OVN_MEAS_RATIO :=
  (get_heat ..).trans (State.get_set_apart _ _ (by decide))

theorem measured_sub (ratio : ℕ) (s : State) : s.onlyRegs ovenRegs (measured ratio s) :=
  (onlyRegs_measured ratio s).mono (by simp [ovenRegs])

/-- More than 2 K below the set point. -/
theorem update_cold {ratio : ℕ} (hon : s.tbas.ovenOn = true) (hen : s.get Fd.TBAS_OVN_CTL_EN = 1)
    (hheld : s.tbas.ovenHeld = false)
    (hm : ratio ∈ s.tbas.ratios) (hall : ∀ x ∈ s.tbas.ratios, x = ratio) (hlt : ratio < 2 ^ 24) (hopen : s.ovenOpens = false)
    (hcold : s.get Fd.TBAS_OVN_SET_SETPT + 20 * s.get Fd.TBAS_OVN_BAND_BAND < ratio) :
    ∃ t, exec .ovenUpdate s = .next t ∧ s.within [.io, .tbas, .moni] t ∧ s.onlyRegs ovenRegs t ∧
      t.get Fd.TBAS_OVN_MEAS_RATIO = ratio ∧
      t.get Fd.TBAS_OVN_STAT_DUTY = s.get Fd.TBAS_OVN_CTL_MAXDUTY ∧ t.tbas.integral = s.tbas.integral ∧
      t.tbas.ovenUpd = s.tbas.ovenUpd + 1 ∧ t.tbas.ratios = [] := by
  have hset : (measured ratio s).get Fd.TBAS_OVN_SET_SETPT = s.get Fd.TBAS_OVN_SET_SETPT :=
    get_measured s (by decide) (by decide) (by decide)
  have hband : (measured ratio s).get Fd.TBAS_OVN_BAND_BAND = s.get Fd.TBAS_OVN_BAND_BAND :=
    get_measured s (by decide) (by decide) (by decide)
  have hmax : (measured ratio s).get Fd.TBAS_OVN_CTL_MAXDUTY = s.get Fd.TBAS_OVN_CTL_MAXDUTY :=
    get_measured s (by decide) (by decide) (by decide)
  refine ⟨((measured ratio s).heat (s.get Fd.TBAS_OVN_CTL_MAXDUTY)).ovenCount, ?_, within_ovenCount
      (within_heat (within_measured ..) _),
    onlyRegs_ovenCount (onlyRegs_heat (measured_sub _ s) _ (by decide)) (fun _ h => h), ?_, ?_, ?_, ?_, ?_⟩
  · rw [exec_ovenUpdate hon hm hall, if_neg (by simp [hen, hheld]), if_neg
      (by rw [ovenOpens_measured ratio hopen]; simp; omega),
      ovenLaw_cold (by omega), hmax]
  · rw [ratio_ovenCount, ratio_heat, ratio_measured hlt]
  · rw [duty_ovenCount, duty_heat (maxduty_lt s)]
  · rw [(ovenCount_frame _).2.1, tbas_heat, measured_tbas]
  · rw [(ovenCount_frame _).1, tbas_heat, measured_tbas]
  · rw [(ovenCount_frame _).2.2.1, tbas_heat, measured_tbas]

/-- Near the set point, with no short. -/
theorem update_near {ratio : ℕ} (hon : s.tbas.ovenOn = true) (hen : s.get Fd.TBAS_OVN_CTL_EN = 1)
    (hheld : s.tbas.ovenHeld = false)
    (hm : ratio ∈ s.tbas.ratios) (hall : ∀ x ∈ s.tbas.ratios, x = ratio) (hlt : ratio < 2 ^ 24) (hopen : s.ovenOpens = false)
    (hnear : ratio ≤ s.get Fd.TBAS_OVN_SET_SETPT + 20 * s.get Fd.TBAS_OVN_BAND_BAND)
    (hshort : s.get Fd.TBAS_OVN_SET_SETPT ≤ ratio * 64) :
    ∃ t, exec .ovenUpdate s = .next t ∧ s.within [.io, .tbas, .moni] t ∧ s.onlyRegs ovenRegs t ∧
      t.get Fd.TBAS_OVN_MEAS_RATIO = ratio ∧ t.tbas.ovenUpd = s.tbas.ovenUpd + 1 ∧
      t.get Fd.TBAS_OVN_STAT_DUTY ≤ s.get Fd.TBAS_OVN_CTL_MAXDUTY ∧
      t.tbas.integral = s.tbas.integral
        + s.get Fd.TBAS_OVN_GAIN_KI * ((ratio : Int) - s.get Fd.TBAS_OVN_SET_SETPT) := by
  have hset : (measured ratio s).get Fd.TBAS_OVN_SET_SETPT = s.get Fd.TBAS_OVN_SET_SETPT :=
    get_measured s (by decide) (by decide) (by decide)
  have hband : (measured ratio s).get Fd.TBAS_OVN_BAND_BAND = s.get Fd.TBAS_OVN_BAND_BAND :=
    get_measured s (by decide) (by decide) (by decide)
  have hmax : (measured ratio s).get Fd.TBAS_OVN_CTL_MAXDUTY = s.get Fd.TBAS_OVN_CTL_MAXDUTY :=
    get_measured s (by decide) (by decide) (by decide)
  have hgain : (measured ratio s).get Fd.TBAS_OVN_GAIN_KI = s.get Fd.TBAS_OVN_GAIN_KI :=
    get_measured s (by decide) (by decide) (by decide)
  obtain ⟨duty, hduty, hlaw⟩ := ovenLaw_near (s := measured ratio s) (ratio := ratio) (by omega)
  rw [hmax] at hduty
  have hsmall : duty < 2 ^ 12 := hduty.trans_lt (maxduty_lt s)
  refine ⟨((measured ratio s).ovenLaw ratio).ovenCount, ?_, ?_, ?_, ?_, ?_, ?_, ?_⟩
  · rw [exec_ovenUpdate hon hm hall, if_neg (by simp [hen, hheld]), if_neg
      (by rw [ovenOpens_measured ratio hopen]; simp; omega)]
  all_goals rw [hlaw]
  · exact within_ovenCount (within_heat (((within_measured ratio s).io_upd _).tbas_upd _) _)
  · exact onlyRegs_ovenCount (onlyRegs_heat ((measured_sub ratio s).of_reg fun _ => rfl) _ (by decide)) (fun _ h => h)
  · rw [ratio_ovenCount, ratio_heat]
    exact ratio_measured hlt s
  · rw [(ovenCount_frame _).1, tbas_heat, State.tbas_upd_tbas]
    change (measured ratio s).tbas.ovenUpd + 1 = _
    rw [measured_tbas]
  · rw [duty_ovenCount, duty_heat hsmall]
    exact hduty
  · rw [(ovenCount_frame _).2.1, tbas_heat, State.tbas_upd_tbas, hgain, hset, measured_tbas]

/-- Without a settled pair. -/
theorem update_unsettled (hon : s.tbas.ovenOn = true) (hen : s.get Fd.TBAS_OVN_CTL_EN = 1) (hheld : s.tbas.ovenHeld = false)
    (hr : s.tbas.ratios = []) (hopen : s.ovenOpens = false) :
    ∃ t, exec .ovenUpdate s = .next t ∧ s.within [.io, .tbas, .moni] t ∧ s.onlyRegs ovenRegs t ∧
      t.get Fd.TBAS_OVN_MEAS_RATIO = s.get Fd.TBAS_OVN_MEAS_RATIO ∧
      t.get Fd.TBAS_OVN_STAT_DUTY = s.get Fd.TBAS_OVN_STAT_DUTY ∧
      t.tbas.integral = s.tbas.integral ∧ t.tbas.ovenUpd = s.tbas.ovenUpd + 1 := by
  obtain ⟨htbas, hregs, hw, -⟩ := ovenLatch_frame s
  refine ⟨_, exec_ovenUpdate_none hon hen hheld hr hopen, within_ovenCount hw,
    onlyRegs_ovenCount (hregs.mono (by simp [ovenRegs])) (fun _ h => h), ?_, ?_, ?_, ?_⟩
  · rw [ratio_ovenCount]
    exact hregs.steady (by decide) (by decide)
  · rw [duty_ovenCount]
    exact hregs.steady (by decide) (by decide)
  · rw [(ovenCount_frame _).2.1, htbas]
  · rw [(ovenCount_frame _).1, htbas]

/-! ## A fault of the oven (R59) -/

theorem onlyRegs_setWarm (h : s.onlyRegs rs t) (hstat : Fd.TBAS_TB_STAT_TB_WARM.off ∈ rs)
    (hptm : Fd.TBAS_PTM_STAT_ACTIVE.off ∈ rs) : s.onlyRegs rs t.setWarm := by
  unfold State.setWarm
  refine onlyRegs_showWarm (((?_ : s.onlyRegs rs _).set Fd.TBAS_TB_STAT_TB_WARM 1 hstat).tbas_upd _) hstat hptm
  split
  · exact h
  · exact h.count _ _ _ _

theorem within_setWarm {u : List Part} (h : s.within u t) (k : .io ∈ u) (l : .tbas ∈ u) : s.within u t.setWarm := by
  unfold State.setWarm
  refine within_showWarm (((?_ : s.within u _).set _ _ k).tbas_upd _ l) k
  split
  · exact h
  · exact h.count _ _ _ _ k

theorem get_setWarm (hp : f.steady = true) (hshown : shown f = true) (hwarm : Fd.TBAS_TB_STAT_TB_WARM.apart f = true)
    (s : State) : s.setWarm.get f = s.get f := by
  unfold State.setWarm
  rw [get_showWarm hshown, State.get_tbas_upd, State.get_set_apart _ _ hwarm]
  split
  · rfl
  · exact State.get_count _ _ _ _ _ hp

theorem warm_setWarm (s : State) : s.setWarm.get Fd.TBAS_TB_STAT_TB_WARM = 1 := by
  unfold State.setWarm
  rw [get_showWarm (by decide), State.get_tbas_upd]
  exact State.get_set _ _ _ (by decide) (by decide)

/-- The state with the heater off, the fault shown and the loop held, before the error is reported. -/
def faulted (s : State) : State :=
  (((s.heat 0).set Fd.TBAS_OVN_STAT_OVN_FAULT 1).setWarm).tbas' fun b => { b with ovenHeld := true }

theorem ovnFault_eq (s : State) : s.ovnFault = (faulted s).err
    { level := 1, region := 1, block := 1, code := 0x0183, action := 4 } :=
  rfl

/-- A thermistor that is short, or a wire that is open. -/
theorem update_short {ratio : ℕ} (hon : s.tbas.ovenOn = true) (hen : s.get Fd.TBAS_OVN_CTL_EN = 1)
    (hheld : s.tbas.ovenHeld = false)
    (hm : ratio ∈ s.tbas.ratios) (hall : ∀ x ∈ s.tbas.ratios, x = ratio) (hlt : ratio < 2 ^ 24)
    (hshort : ratio * 64 < s.get Fd.TBAS_OVN_SET_SETPT) :
    ∃ t, exec .ovenUpdate s = .next t ∧ s.within [.io, .tbas, .moni] t ∧
      s.onlyRegs ([Fd.TBAS_OVN_STAT_OVN_FAULT.off, Fd.TBAS_TB_STAT_TB_WARM.off] ++ ovenRegs) t ∧
      t.get Fd.TBAS_OVN_MEAS_RATIO = ratio ∧ t.get Fd.TBAS_OVN_STAT_DUTY = 0 ∧ t.get Fd.TBAS_OVN_STAT_OVN_FAULT = 1 ∧
      t.get Fd.TBAS_TB_STAT_TB_WARM = 1 ∧ t.tbas.ovenHeld = true := by
  refine ⟨((measured ratio s).ovnFault).ovenCount, ?_, ?_, ?_, ?_, ?_, ?_, ?_, ?_⟩
  · rw [exec_ovenUpdate hon hm hall, if_neg (by simp [hen, hheld]), if_pos (.inr hshort)]
  all_goals rw [ovnFault_eq]
  · refine within_ovenCount (State.within.err ?_ _)
    exact (within_setWarm ((within_heat (within_measured ratio s) 0).set _ _) (by decide) (by decide)).tbas_upd _
  · refine onlyRegs_ovenCount (State.onlyRegs.err ?_ _) (fun _ h => List.mem_append_right _ h)
    have hsub := (measured_sub ratio s).mono (rs' := [Fd.TBAS_OVN_STAT_OVN_FAULT.off, Fd.TBAS_TB_STAT_TB_WARM.off] ++ ovenRegs)
      fun _ h => List.mem_append_right _ h
    exact (onlyRegs_setWarm ((onlyRegs_heat hsub 0 (by decide)).set _ _ (by decide)) (by decide) (by decide)).tbas_upd _
  · rw [ratio_ovenCount, State.get_err _ _ (by decide), faulted, State.get_tbas_upd, get_setWarm (by decide) (by decide)
      (by decide),
      State.get_set_apart _ _ (by decide), ratio_heat, ratio_measured hlt]
  · rw [duty_ovenCount, State.get_err _ _ (by decide), faulted, State.get_tbas_upd, get_setWarm (by decide) (by decide)
      (by decide),
      State.get_set_apart _ _ (by decide), duty_heat (by decide)]
  · rw [get_ovenCount (by decide) (by decide) (by decide), State.get_err _ _ (by decide), faulted, State.get_tbas_upd,
      get_setWarm (by decide) (by decide) (by decide)]
    exact State.get_set _ _ _ (by decide) (by decide)
  · rw [get_ovenCount (by decide) (by decide) (by decide), State.get_err _ _ (by decide), faulted, State.get_tbas_upd,
      warm_setWarm]
  · exact (ovenCount_frame _).2.2.2

/-- A loop that is off or held. -/
theorem update_off {ratio : ℕ} (hon : s.tbas.ovenOn = true) (hoff : s.get Fd.TBAS_OVN_CTL_EN = 0 ∨ s.tbas.ovenHeld = true)
    (hm : ratio ∈ s.tbas.ratios) (hall : ∀ x ∈ s.tbas.ratios, x = ratio) (hlt : ratio < 2 ^ 24) :
    ∃ t, exec .ovenUpdate s = .next t ∧ s.within [.io, .tbas, .moni] t ∧ s.onlyRegs ovenRegs t ∧
      t.get Fd.TBAS_OVN_MEAS_RATIO = ratio ∧ t.get Fd.TBAS_OVN_STAT_DUTY = 0 ∧ t.tbas.integral = s.tbas.integral ∧
      t.tbas.ovenUpd = s.tbas.ovenUpd + 1 := by
  refine ⟨((measured ratio s).heat 0).ovenCount, ?_, within_ovenCount (within_heat (within_measured ..) _),
    onlyRegs_ovenCount (onlyRegs_heat (measured_sub _ s) _ (by decide)) (fun _ h => h), ?_, ?_, ?_, ?_⟩
  · rw [exec_ovenUpdate hon hm hall, if_pos (hoff.imp (by omega) id)]
  · rw [ratio_ovenCount, ratio_heat, ratio_measured hlt]
  · rw [duty_ovenCount, duty_heat (by decide)]
  · rw [(ovenCount_frame _).2.1, tbas_heat, measured_tbas]
  · rw [(ovenCount_frame _).1, tbas_heat, measured_tbas]

/-- 60 s at MAXDUTY after the band was entered. -/
theorem saturated (hin : s.tbas.entered = true) (hmax : 12000 ≤ s.tbas.atMax) (hsat : s.get Fd.TBAS_OVN_STAT_OVN_SAT = 0) :
    ∃ t, exec .ovnSat s = .next t ∧ s.within [.io, .tbas] t ∧ s.onlyRegs [Fd.TBAS_OVN_STAT_OVN_SAT.off] t ∧
      t.get Fd.TBAS_OVN_STAT_OVN_SAT = 1 ∧ t.tbas.atMax = 0 ∧ t.tbas.ovenHeld = s.tbas.ovenHeld := by
  have his : s.is Fd.TBAS_OVN_STAT_OVN_SAT = false := beq_eq_false_iff_ne.mpr (by change s.get _ ≠ 1; omega)
  refine ⟨_, ?_, (((State.within_refl s _).set Fd.TBAS_OVN_STAT_OVN_SAT 1).tbas_upd fun b => { b with atMax := 0 }).err
      { level := 0, region := 1, block := 1, code := 0x0184, warning := true },
    (((State.onlyRegs_refl s _).set Fd.TBAS_OVN_STAT_OVN_SAT 1).tbas_upd fun b => { b with atMax := 0 }).err _, ?_, rfl, rfl⟩
  · change execOvnSat s = _
    unfold execOvnSat
    rw [hin, his, decide_eq_true hmax]
    rfl
  · rw [State.get_err _ _ (by decide), State.get_tbas_upd]
    exact State.get_set _ _ _ (by decide) (by decide)

/-- A clear of OVN_FAULT. -/
theorem fault_cleared (who : Actor) (h : s.admits (.ovnFaultClear who) = true) :
    ∃ t, exec (.ovnFaultClear who) s = .next t ∧ s.within [.io, .tbas] t ∧ t.get Fd.TBAS_OVN_STAT_OVN_FAULT = 0 ∧
      t.tbas.ovenHeld = (if who = .firmware then false else s.tbas.ovenHeld) ∧
      ∀ a, a ≠ Fd.TBAS_OVN_STAT_OVN_FAULT.off → t.reg a = s.reg a := by
  have hexec : exec (.ovnFaultClear who) s = .next ((s.set Fd.TBAS_OVN_STAT_OVN_FAULT 0).tbas' fun b =>
      if who = .firmware then { b with ovenHeld := false, integral := 0 } else b) := by
    change execOvnFaultClear who s = _
    unfold execOvnFaultClear
    exact State.writeBy_admitted h
  refine ⟨_, hexec, ((State.within_refl s _).set _ _).tbas_upd _, ?_, ?_, fun a ha => State.reg_set_other _ _ ha⟩
  · exact (State.get_set _ _ _ (by decide) (by decide)).trans (Nat.zero_mod _)
  · rw [State.tbas_upd_tbas, State.set_tbas]
    split <;> rfl

/-! ## The warm-up (R60, R61) -/

/-- Both conditions hold. -/
theorem warm_cleared (hoven : s.ovenOk = true) (hfreq : s.freqOk = true) (hvalid : s.tbas.oven.valid = true)
    (hfault : s.get Fd.TBAS_OVN_STAT_OVN_FAULT = 0) :
    ∃ t, exec .tbWarmClear s = .next t ∧ s.within [.io, .tbas] t ∧
      s.onlyRegs [Fd.TBAS_PTM_STAT_ACTIVE.off, Fd.TBAS_TB_STAT_FREQ_OK.off] t ∧ t.get Fd.TBAS_TB_STAT_TB_WARM = 0 ∧
      t.get Fd.TBAS_TB_STAT_OVEN_OK = 1 ∧ t.get Fd.TBAS_TB_STAT_FREQ_OK = 1 := by
  have his : s.is Fd.TBAS_OVN_STAT_OVN_FAULT = false := beq_eq_false_iff_ne.mpr (by change s.get _ ≠ 1; omega)
  have hexec : exec .tbWarmClear s = .next ((s.showWarm.set Fd.TBAS_TB_STAT_TB_WARM 0).tbas' fun b =>
      if s.is Fd.TBAS_TB_STAT_TB_WARM then { b with warmLog := s.tick :: b.warmLog } else b) := by
    change execTbWarmClear s = _
    unfold execTbWarmClear
    rw [hoven, hfreq, hvalid, his]
    rfl
  refine ⟨_, hexec, ((within_showWarm (State.within_refl s _) (by decide)).set _ _).tbas_upd _,
    ((onlyRegs_showWarm (State.onlyRegs_refl s _) (by decide) (by decide)).set _ _ (by decide)).tbas_upd _, ?_, ?_, ?_⟩
  · exact (State.get_set _ _ _ (by decide) (by decide)).trans (Nat.zero_mod _)
  all_goals rw [State.get_tbas_upd, State.get_set_apart _ _ (by decide), State.showWarm, get_setBit_apart _ (by decide)]
  · rw [get_setBit_apart _ (by decide), hoven]
    exact State.get_setBit _ _ _ (by decide) (by decide)
  · rw [hfreq]
    exact State.get_setBit _ _ _ (by decide) (by decide)

/-- The oven or the rate has left its bounds. -/
theorem warm_set (hwarm : s.get Fd.TBAS_TB_STAT_TB_WARM = 0)
    (hout : 200 < s.tbas.outBand ∨ (s.holdMode = false ∧ ppm1 < s.rate.natAbs)) :
    ∃ t, exec .tbWarmSet s = .next t ∧ s.within [.io, .tbas] t ∧
      s.onlyRegs [Fd.TBAS_PTM_STAT_ACTIVE.off, Fd.TBAS_TB_STAT_FREQ_OK.off] t ∧ t.get Fd.TBAS_TB_STAT_TB_WARM = 1 ∧
      t.tbas.inBand = 0 ∧ t.tbas.outBand = 0 := by
  have his : s.is Fd.TBAS_TB_STAT_TB_WARM = false := beq_eq_false_iff_ne.mpr (by change s.get _ ≠ 1; omega)
  refine ⟨s.setWarm, ?_, within_setWarm (State.within_refl s _) (by decide) (by decide),
    onlyRegs_setWarm (State.onlyRegs_refl s _) (by decide) (by decide), warm_setWarm s, rfl, rfl⟩
  change execTbWarmSet s = _
  unfold execTbWarmSet
  simp only [his, Bool.not_false, Bool.true_and, Bool.or_eq_true, decide_eq_true_eq, Bool.and_eq_true, Bool.not_eq_true']
  rw [if_pos hout]
  rfl

end Sys2Proof.Machine.OvenLoop

namespace Sys2Proof.Machine
open OvenLoop

/-- Settles O4: the latch of the sources keeps what the loop reads, ten equal ratios give that ratio, and each outcome is one case of the
update. -/
theorem ovenAndWarmUpComplete : Obligations.OvenAndWarmUpComplete := by
  unfold Obligations.OvenAndWarmUpComplete
  exact ⟨fun _ _ hon hen hheld hm hall hlt hopen hcold => update_cold hon hen hheld hm hall hlt hopen hcold,
    fun _ _ hon hen hheld hm hall hlt hopen hnear hshort => update_near hon hen hheld hm hall hlt hopen hnear hshort,
    fun _ hon hen hheld hr hopen => update_unsettled hon hen hheld hr hopen,
    fun _ _ hon hen hheld hm hall hlt hshort => update_short hon hen hheld hm hall hlt hshort,
    fun _ _ hon hoff hm hall hlt => update_off hon hoff hm hall hlt,
    fun _ hin hmax hsat => saturated hin hmax hsat, fun who _ h => fault_cleared who h,
    fun _ hoven hfreq hvalid hfault => warm_cleared hoven hfreq hvalid hfault, fun _ hwarm hout => warm_set hwarm hout⟩

end Sys2Proof.Machine
end

section
/-!
SUPPORT. The capture engine's shared operations (R334 to R341): ARM, ABORT, a trigger; what they set and what they leave.
-/
-- One thread for the lemmas: a thread for each would ask for more memory than a build may have.
set_option Elab.async false

namespace Sys2Proof.Machine.Capture
open Sys2Proof.Machine

variable {s t : State} {f : Field} {rs : List ℕ} {u : List Part}

/-! ## ARM (R334) -/

/-- The registers of the capture that an ARM may change. -/
def armRegs : List ℕ :=
  [Fd.MEMC_CAP_STAT_STATE.off, Fd.MEMC_CAP_CMD_ARM.off, Fd.MEMC_CAP_SEQ_CAPSEQ.off, Fd.MEMC_CAP_PTC_PTC.off]

/-- The answer of an ARM. -/
def answered (s : State) : State := (s.set Fd.MEMC_CAP_CMD_ARM 0).set Fd.MEMC_CAP_STAT_REFUSE s.capRefusal

/-- What an accepted ARM starts afresh. -/
def opened (m : Memc) : Memc :=
  { m with segs := [{ base := 0 }], capQ := [], stored := 0, prev := [], red := [], last := none, lastAt := none, hit := .none
           early := [], fifo := [], gapIn := false, gap := false, expSeg := 0, expAt := none, badCap := [] }

theorem arm_refused (h : s.capRefusal ≠ 0) : s.arm = answered s := if_pos h

theorem arm_accepted (h : s.capRefusal = 0) :
    s.arm = ((((answered s).clampPtc.latchCap.bump Fd.MEMC_CAP_SEQ_CAPSEQ 1).capTo capARMED).memc' opened) := by
  unfold State.arm
  simp only
  rw [if_neg (by simp [h])]
  rfl

theorem capRefusal_lt (s : State) : s.capRefusal < 2 ^ 4 := by
  unfold State.capRefusal
  simp only
  split_ifs <;> decide

theorem within_clampPtc (h : s.within u t) (k : .io ∈ u) : s.within u t.clampPtc := by
  unfold State.clampPtc
  simp only
  split
  · exact (h.set _ _ k).set _ _ k
  · exact h

theorem onlyRegs_clampPtc (h : s.onlyRegs rs t) (kptc : Fd.MEMC_CAP_PTC_PTC.off ∈ rs)
    (kstat : Fd.MEMC_CAP_STAT_STATE.off ∈ rs) :
    s.onlyRegs rs t.clampPtc := by
  unfold State.clampPtc
  simp only
  split
  · exact (h.set _ _ kptc).set Fd.MEMC_CAP_STAT_PTC_CLAMP _ kstat
  · exact h

theorem get_clampPtc (hptc : Fd.MEMC_CAP_PTC_PTC.apart f = true) (hclamp : Fd.MEMC_CAP_STAT_PTC_CLAMP.apart f = true)
    (s : State) :
    s.clampPtc.get f = s.get f := by
  unfold State.clampPtc
  simp only
  split
  · rw [State.get_set_apart _ _ hclamp, State.get_set_apart _ _ hptc]
  · rfl

theorem out_clampPtc (s : State) : s.clampPtc.io.out = s.io.out := by
  unfold State.clampPtc
  simp only
  split <;> rfl

theorem within_arm (h : s.within u t) (k : .io ∈ u) (l : .memc ∈ u) : s.within u t.arm := by
  have hanswered : s.within u (answered t) := (h.set _ _ k).set _ _ k
  by_cases hr : t.capRefusal = 0
  · rw [arm_accepted hr]
    exact ((((within_clampPtc hanswered k).memc_upd _ l).bump _ _ k).set _ _ k).memc_upd _ l
  · rw [arm_refused hr]
    exact hanswered

theorem onlyRegs_arm (h : s.onlyRegs rs t) (k : ∀ a ∈ armRegs, a ∈ rs) : s.onlyRegs rs t.arm := by
  have kstat : Fd.MEMC_CAP_STAT_STATE.off ∈ rs := k _ (by simp [armRegs])
  have hanswered : s.onlyRegs rs (answered t) := (h.set _ _ (k _ (by simp [armRegs]))).set Fd.MEMC_CAP_STAT_REFUSE _ kstat
  by_cases hr : t.capRefusal = 0
  · rw [arm_accepted hr]
    have hclamped := onlyRegs_clampPtc hanswered (k _ (by simp [armRegs])) kstat
    exact (((hclamped.memc_upd _).bump Fd.MEMC_CAP_SEQ_CAPSEQ _ (k _ (by simp [armRegs]))).set _ _ kstat).memc_upd _
  · rw [arm_refused hr]
    exact hanswered

theorem out_arm (s : State) : s.arm.io.out = s.io.out := by
  by_cases hr : s.capRefusal = 0
  · rw [arm_accepted hr]
    exact out_clampPtc _
  · rw [arm_refused hr]
    rfl

/-- A field that lies apart from the state and the number of the capture reads as the answer left it. -/
theorem get_arm_accepted (h : s.capRefusal = 0) (hptc : Fd.MEMC_CAP_PTC_PTC.apart f = true)
    (hclamp : Fd.MEMC_CAP_STAT_PTC_CLAMP.apart f = true) (hseq : Fd.MEMC_CAP_SEQ_CAPSEQ.apart f = true)
    (hstate : Fd.MEMC_CAP_STAT_STATE.apart f = true) : s.arm.get f = (answered s).get f := by
  rw [arm_accepted h, State.get_memc_upd, State.capTo, State.get_set_apart _ _ hstate, State.bump, State.get_set_apart _ _ hseq]
  exact get_clampPtc hptc hclamp _

theorem armed_arm (h : s.capRefusal = 0) : s.arm.capState = capARMED := by
  rw [arm_accepted h]
  exact State.get_set _ _ _ (by decide) (by decide)

/-! ## ABORT (R341) -/

/-- The registers of the capture that an ABORT may change. -/
def abortRegs : List ℕ := [Fd.MEMC_CAP_TRIG_MISSED_COUNT.off, Fd.MEMC_CAP_STAT_STATE.off, Fd.MEMC_CAP_CMD_ABORT.off]

theorem within_missTrigs (h : s.within u t) (n : ℕ) (k : .io ∈ u) : s.within u (t.missTrigs n) := (h.bump _ _ k).count _ _ _ _ k

theorem onlyRegs_missTrigs (h : s.onlyRegs rs t) (n : ℕ) (k : Fd.MEMC_CAP_TRIG_MISSED_COUNT.off ∈ rs) :
    s.onlyRegs rs (t.missTrigs n) := (h.bump _ _ k).count _ _ _ _

theorem get_missTrigs (hp : f.steady = true) (h : Fd.MEMC_CAP_TRIG_MISSED_COUNT.apart f = true) (n : ℕ) (s : State) :
    (s.missTrigs n).get f = s.get f := by
  rw [State.missTrigs, State.get_count _ _ _ _ _ hp]
  exact State.get_set_apart _ _ h

theorem within_beginExport (h : s.within u t) (k : .io ∈ u) (l : .memc ∈ u) : s.within u t.beginExport :=
  ((within_missTrigs (h.set _ _ k) _ k).memc_upd _ l).set _ _ k

theorem onlyRegs_beginExport (h : s.onlyRegs rs t) (kmiss : Fd.MEMC_CAP_TRIG_MISSED_COUNT.off ∈ rs)
    (kstat : Fd.MEMC_CAP_STAT_STATE.off ∈ rs) : s.onlyRegs rs t.beginExport := by
  unfold State.beginExport State.showCapQ State.capTo
  exact ((onlyRegs_missTrigs (h.set _ _ kstat) _ kmiss).memc_upd _).set Fd.MEMC_CAP_STAT_QUEUED _ kstat

/-- What the beginning of the export leaves of the segments, and where it starts. -/
theorem memc_beginExport (s : State) : s.beginExport.memc = { s.memc with
    capQ := [], early := [], fifo := [], expSeg := 0, expAt := none } := rfl

theorem capState_beginExport (s : State) : s.beginExport.capState = capEXPORT := by
  unfold State.capState State.beginExport State.showCapQ
  rw [State.get_set_apart _ _ (by decide), State.get_memc_upd, get_missTrigs (by decide) (by decide)]
  exact State.get_set _ _ _ (by decide) (by decide)

theorem get_beginExport (hp : f.steady = true) (hmiss : Fd.MEMC_CAP_TRIG_MISSED_COUNT.apart f = true)
    (hstate : Fd.MEMC_CAP_STAT_STATE.apart f = true) (hq : Fd.MEMC_CAP_STAT_QUEUED.apart f = true) (s : State) :
    s.beginExport.get f = s.get f := by
  unfold State.beginExport State.showCapQ
  rw [State.get_set_apart _ _ hq, State.get_memc_upd, get_missTrigs hp hmiss]
  exact State.get_set_apart _ _ hstate

/-- The ABORT bit is cleared first. -/
def heard (s : State) : State := s.set Fd.MEMC_CAP_CMD_ABORT 0

theorem abortCap_armed (h : s.capState = capARMED) : s.abortCap =
    (((heard s).capTo capIDLE).memc' fun m => { m with segs := [], capQ := [], early := [], fifo := [] }).showCapQ := by
  unfold State.abortCap
  simp only
  rw [if_pos h]
  rfl

theorem abortCap_export (h : s.capState = capEXPORT) :
    s.abortCap = ((heard s).capTo capIDLE).memc' fun m => { m with segs := [] } := by
  unfold State.abortCap
  simp only
  rw [if_neg (by rw [h]; decide), if_neg (by rw [h]; decide), if_pos h]
  rfl

theorem abortCap_late (h : s.capState = capPOST) (hfull : s.memc.postFull = true) (hlast : s.memc.nseg ≤ s.memc.segs.length) :
    s.abortCap = (heard s).set Fd.MEMC_CAP_STAT_ABORT_LATE 1 := by
  unfold State.abortCap
  simp only
  rw [if_neg (by rw [h]; decide), if_pos h, if_pos ⟨hfull, hlast⟩]
  rfl

/-- The segment that an ABORT in POST ends is marked. -/
def marked (m : Memc) : Memc := m.onSeg fun z => { z with aborted := true }

theorem abortCap_post (h : s.capState = capPOST) (hmore : s.memc.postFull = false ∨ s.memc.segs.length < s.memc.nseg) :
    s.abortCap = ((heard s).memc' marked).beginExport := by
  unfold State.abortCap
  simp only
  rw [if_neg (by rw [h]; decide), if_pos h, if_neg]
  · rfl
  · rintro ⟨hfull, hlast⟩
    obtain hmore | hmore := hmore
    · exact absurd (hfull.symm.trans hmore) (by decide)
    · omega

theorem abortCap_idle (harmed : s.capState ≠ capARMED) (hpost : s.capState ≠ capPOST) (hexport : s.capState ≠ capEXPORT) :
    s.abortCap = heard s := by
  unfold State.abortCap
  simp only
  rw [if_neg harmed, if_neg hpost, if_neg hexport]
  rfl

/-- The five cases of an ABORT. -/
theorem abortCap_cases (P : State → Prop)
    (armed : P (((heard s).capTo capIDLE).memc' fun m => { m with segs := [], capQ := [], early := [], fifo := [] }).showCapQ)
    (post : P ((heard s).memc' marked).beginExport) (late : P ((heard s).set Fd.MEMC_CAP_STAT_ABORT_LATE 1))
    (exported : P (((heard s).capTo capIDLE).memc' fun m => { m with segs := [] })) (idle : P (heard s)) : P s.abortCap := by
  by_cases harmed : s.capState = capARMED
  · exact (abortCap_armed harmed).symm ▸ armed
  by_cases hpost : s.capState = capPOST
  · by_cases hfull : s.memc.postFull = true ∧ s.memc.nseg ≤ s.memc.segs.length
    · exact (abortCap_late hpost hfull.1 hfull.2).symm ▸ late
    · have hmore : s.memc.postFull = false ∨ s.memc.segs.length < s.memc.nseg := by
        rcases hb : s.memc.postFull
        · exact .inl rfl
        · exact .inr (by simpa [hb] using hfull)
      exact (abortCap_post hpost hmore).symm ▸ post
  by_cases hexport : s.capState = capEXPORT
  · exact (abortCap_export hexport).symm ▸ exported
  · exact (abortCap_idle harmed hpost hexport).symm ▸ idle

theorem within_abortCap (h : s.within u t) (k : .io ∈ u) (l : .memc ∈ u) : s.within u t.abortCap :=
  have hheard : s.within u (heard t) := h.set _ _ k
  abortCap_cases (s.within u ·) (((hheard.set _ _ k).memc_upd _ l).set _ _ k) (within_beginExport (hheard.memc_upd _ l) k l)
    (hheard.set _ _ k) ((hheard.set _ _ k).memc_upd _ l) hheard

theorem onlyRegs_abortCap (h : s.onlyRegs rs t) (k : ∀ a ∈ abortRegs, a ∈ rs) : s.onlyRegs rs t.abortCap := by
  have kmiss : Fd.MEMC_CAP_TRIG_MISSED_COUNT.off ∈ rs := k _ (by simp [abortRegs])
  have kstat : Fd.MEMC_CAP_STAT_STATE.off ∈ rs := k _ (by simp [abortRegs])
  have hheard : s.onlyRegs rs (heard t) := h.set Fd.MEMC_CAP_CMD_ABORT 0 (k _ (by simp [abortRegs]))
  refine abortCap_cases (s.onlyRegs rs ·) ?_ (onlyRegs_beginExport (hheard.memc_upd _) kmiss kstat)
    (hheard.set Fd.MEMC_CAP_STAT_ABORT_LATE _ kstat) ?_ hheard
  · unfold State.showCapQ State.capTo
    exact ((hheard.set Fd.MEMC_CAP_STAT_STATE _ kstat).memc_upd _).set Fd.MEMC_CAP_STAT_QUEUED _ kstat
  · unfold State.capTo
    exact (hheard.set Fd.MEMC_CAP_STAT_STATE _ kstat).memc_upd _

theorem idle_abortCap (h : s.capState = capARMED) : s.abortCap.capState = capIDLE := by
  rw [abortCap_armed h, State.capState, State.showCapQ, State.get_set_apart _ _ (by decide), State.get_memc_upd]
  exact State.get_set _ _ _ (by decide) (by decide)

/-! ## A trigger (R339, R340) -/

/-- The registers of the capture that a trigger may change. -/
def trigRegs : List ℕ := [Fd.MEMC_CAP_TRIG_MISSED_COUNT.off, Fd.MEMC_CAP_STAT_PRIMARY.off]

theorem within_showTrig (h : s.within u t) (g : CapTrig) (k : .io ∈ u) : s.within u (t.showTrig g) :=
  ((h.set _ _ k).set _ _ k).setWide _ _ _ k

theorem onlyRegs_showTrig (h : s.onlyRegs rs t) (g : CapTrig) (k : Fd.MEMC_CAP_STAT_PRIMARY.off ∈ rs) : s.onlyRegs rs
    (t.showTrig g) := by
  unfold State.showTrig
  exact ((h.set Fd.MEMC_CAP_STAT_TRIG_CAUSE _ k).set _ _ k).setWide _ _ _

theorem within_assertSync (h : s.within u t) (g : CapTrig) (k : .io ∈ u) : s.within u (t.assertSync g) := by
  unfold State.assertSync State.emitPin
  split
  · exact State.within.onlyIf (h.setWide _ _ _ k) ((h.setWide _ _ _ k).emit _ k)
  · exact h

theorem onlyRegs_assertSync (h : s.onlyRegs rs t) (g : CapTrig) : s.onlyRegs rs (t.assertSync g) := by
  unfold State.assertSync State.emitPin
  split
  · exact State.onlyRegs.onlyIf (h.setWide _ _ _) ((h.setWide _ _ _).emit _)
  · exact h

theorem memc_assertSync (s : State) (g : CapTrig) : (s.assertSync g).memc = s.memc := by
  unfold State.assertSync State.emitPin State.onlyIf
  split_ifs <;> rfl

/-- A trigger of condition 4 or 5 asserts nothing. -/
theorem assertSync_other {g : CapTrig} (h : 4 ≤ g.primary) : s.assertSync g = s := by
  rw [State.assertSync, decide_eq_false (by omega)]
  rfl

/-- The segment whose trigger g is. -/
def hitBy (g : CapTrig) (m : Memc) : Memc := { m.onSeg (fun z => { z with trig := some g, from_ := g.at_ }) with hit :=
    .segment }

theorem trigger_armed {g : CapTrig} (h : s.capState = capARMED) (hq : s.memc.opening = false ∨ s.memc.capQ = []) :
    s.trigger g = (((s.capTo capPOST).memc' (hitBy g)).showTrig g).assertSync g := by
  unfold State.trigger
  rw [if_pos ⟨h, by obtain h | h := hq <;> simp [h]⟩]
  rfl

/-- A trigger hits the open segment, waits in the queue, or is missed. -/
theorem trigger_cases (P : State → Prop) (g : CapTrig)
    (hit : P ((((s.capTo capPOST).memc' (hitBy g)).showTrig g).assertSync g))
    (queued : P (((s.memc' fun m => { m with capQ := m.capQ ++ [g], hit := .queued }).showCapQ.showTrig g).assertSync g))
    (missed : P ((s.missTrigs 1).memc' fun m => { m with hit := .missed })) : P (s.trigger g) := by
  unfold State.trigger
  split
  · exact hit
  · split
    · exact queued
    · exact missed

theorem within_trigger (h : s.within u t) (g : CapTrig) (k : .io ∈ u) (l : .memc ∈ u) : s.within u (t.trigger g) :=
  trigger_cases (s.within u ·) g (within_assertSync (within_showTrig ((h.set _ _ k).memc_upd _ l) _ k) _ k)
    (within_assertSync (within_showTrig ((h.memc_upd _ l).set _ _ k) _ k) _ k) ((within_missTrigs h _ k).memc_upd _ l)

theorem onlyRegs_trigger (h : s.onlyRegs rs t) (g : CapTrig) (k : ∀ a ∈ trigRegs, a ∈ rs) : s.onlyRegs rs (t.trigger g) := by
  have kmiss : Fd.MEMC_CAP_TRIG_MISSED_COUNT.off ∈ rs := k _ (by simp [trigRegs])
  have kstat : Fd.MEMC_CAP_STAT_PRIMARY.off ∈ rs := k _ (by simp [trigRegs])
  refine trigger_cases (s.onlyRegs rs ·) g ?_ ?_ ((onlyRegs_missTrigs h _ kmiss).memc_upd _)
  · unfold State.capTo
    exact onlyRegs_assertSync (onlyRegs_showTrig ((h.set Fd.MEMC_CAP_STAT_STATE _ kstat).memc_upd _) _ kstat) _
  · unfold State.showCapQ
    exact onlyRegs_assertSync (onlyRegs_showTrig ((h.memc_upd _).set Fd.MEMC_CAP_STAT_QUEUED _ kstat) _ kstat) _

theorem memc_showTrig (s : State) (g : CapTrig) : (s.showTrig g).memc = s.memc := by
  rw [State.showTrig, State.setWide_memc, State.set_memc, State.set_memc]

theorem memc_showCapQ (s : State) : s.showCapQ.memc = s.memc := State.set_memc ..

/-- A trigger leaves the samples, but for the segments they belong to. -/
theorem memc_trigger (s : State) (g : CapTrig) : (s.trigger g).memc.stored = s.memc.stored ∧ (s.trigger g).memc.fifo =
    s.memc.fifo ∧
    (s.trigger g).memc.last = s.memc.last ∧ (s.trigger g).memc.prev = s.memc.prev := by
  refine trigger_cases (fun t => t.memc.stored = s.memc.stored ∧ t.memc.fifo = s.memc.fifo ∧ t.memc.last = s.memc.last ∧
    t.memc.prev = s.memc.prev) g ?_ ?_ ⟨rfl, rfl, rfl, rfl⟩
  · rw [memc_assertSync, memc_showTrig, State.memc_upd_memc]
    exact ⟨rfl, rfl, rfl, rfl⟩
  · rw [memc_assertSync, memc_showTrig, memc_showCapQ, State.memc_upd_memc]
    exact ⟨rfl, rfl, rfl, rfl⟩

/-- An assertion of condition i (4 or 5) outside the samples takes an armed capture to POST. -/
theorem asyncTrig_armed {i : ℕ} {at_ : Option Wide} {x : Sample} (h : s.capState = capARMED) (hon : s.memc.condOn i = true)
    (hx : s.memc.last = some x) (hhit : s.memc.hit = .none) :
    s.asyncTrig i at_ = s.trigger (s.makeTrig (2 ^ i) none x at_ s.memc.lastAt) := by
  unfold State.asyncTrig
  rw [if_pos (by simp [h, hon]), hx]
  simp only [hhit]

/-- It waits for the first sample where there is none. -/
theorem asyncTrig_early {i : ℕ} {at_ : Option Wide} (h : s.capState = capARMED ∨ s.capState = capPOST)
    (hon : s.memc.condOn i = true)
    (hx : s.memc.last = none) : s.asyncTrig i at_ = s.memc' fun m => { m with early := m.early ++ [(i, at_)] } := by
  unfold State.asyncTrig
  rw [if_pos (by simp [h, hon]), hx]

theorem asyncTrig_off {i : ℕ} {at_ : Option Wide} (h : s.capState ≠ capARMED ∧ s.capState ≠ capPOST ∨ s.memc.condOn i = false) :
    s.asyncTrig i at_ = s := by
  unfold State.asyncTrig
  rw [if_neg]
  obtain ⟨harmed, hpost⟩ | h := h
  · simp [harmed, hpost]
  · simp [h]

/-- What a hit of condition 4 or 5 shows. -/
theorem hit_shows {i : ℕ} {at_ : Option Wide} {x : Sample} (hi : i = 4 ∨ i = 5) (h : s.capState = capARMED)
    (hon : s.memc.condOn i = true) (hx : s.memc.last = some x) (hq : s.memc.opening = false ∨ s.memc.capQ = [])
    (hhit : s.memc.hit = .none) :
    (s.asyncTrig i at_).capState = capPOST ∧ (s.asyncTrig i at_).get Fd.MEMC_CAP_STAT_TRIG_CAUSE = 2 ^ i ∧
      (s.asyncTrig i at_).get Fd.MEMC_CAP_STAT_PRIMARY = i ∧
      (i = 4 → ∀ w, at_ = some w → (s.asyncTrig i at_).wideOf 14 0x0020 = w) := by
  have hprimary : (s.makeTrig (2 ^ i) none x at_ s.memc.lastAt).primary = i := by
    obtain rfl | rfl := hi <;> rfl
  have hcause : (s.makeTrig (2 ^ i) none x at_ s.memc.lastAt).cause = 2 ^ i := rfl
  rw [asyncTrig_armed h hon hx hhit, trigger_armed h hq, assertSync_other (by rw [hprimary]; omega), State.showTrig]
  refine ⟨?_, ?_, ?_, ?_⟩
  · rw [State.capState, State.get_setWide, State.get_set_apart _ _ (by decide), State.get_set_apart _ _ (by decide),
      State.get_memc_upd]
    exact State.get_set _ _ _ (by decide) (by decide)
  · rw [State.get_setWide, State.get_set_apart _ _ (by decide), hcause]
    refine (State.get_set _ _ _ (by decide) (by decide)).trans (Nat.mod_eq_of_lt ?_)
    obtain rfl | rfl := hi <;> decide
  · rw [State.get_setWide, hprimary]
    refine (State.get_set _ _ _ (by decide) (by decide)).trans (Nat.mod_eq_of_lt ?_)
    obtain rfl | rfl := hi <;> decide
  · rintro rfl w rfl
    rw [show ∀ (t : State) (w : Wide), (t.setWide 14 0x0020 w).wideOf 14 0x0020 = w from fun t w => Io.wideOf_setWide ..]
    rfl

end Sys2Proof.Machine.Capture
end

section
/-!
SUPPORT. The DMA rings' shared operations (R299 to R309): what a post, a completion, a record and a stop do, and what they
    leave.
-/
-- One thread for the lemmas: a thread for each would ask for more memory than a build may have.
set_option Elab.async false

namespace Sys2Proof.Machine

/-! ## What has left, or waits in Recovery -/

/-- Whatever x has sent or holds back, y has. -/
structure Io.Grows (x y : Io) : Prop where
  mem : ∀ o ∈ x.held ++ x.out, o ∈ y.held ++ y.out

namespace Io.Grows

variable {x y z : Io}

theorem refl (x : Io) : Io.Grows x x := ⟨fun _ h => h⟩
theorem trans (h : Io.Grows x y) (k : Io.Grows y z) : Io.Grows x z := ⟨fun o ho => k.mem o (h.mem o ho)⟩
theorem of_same (hheld : y.held = x.held) (hout : y.out = x.out) : Io.Grows x y := ⟨fun o ho => by rwa [hheld, hout]⟩

theorem post (x : Io) (n : ℕ) (o : Out) : Io.Grows x (x.post n o) ∧ o ∈ (x.post n o).held ++ (x.post n o).out := by
  unfold Io.post
  split
  · exact ⟨⟨fun a ha => List.mem_cons_of_mem _ ha⟩, by simp⟩
  · refine ⟨⟨fun a ha => ?_⟩, by simp [Io.emit]⟩
    obtain ha | ha := List.mem_append.mp ha
    · exact List.mem_append_left _ ha
    · exact List.mem_append_right _ (List.mem_cons_of_mem _ ha)

theorem tillStep (x : Io) (r t n : ℕ) : Io.Grows x (x.tillStep r t n).1 := by
  unfold Io.tillStep
  simp only
  split <;> exact of_same rfl rfl

theorem tillFeed (a r c i n t : ℕ) (y : Io × List ℕ) : Io.Grows y.1 (Io.tillFeed a r c i n y t).1 := by
  unfold Io.tillFeed
  split
  · exact tillStep ..
  · exact refl _

theorem countOnly (x : Io) (r c i n : ℕ) : Io.Grows x (x.countOnly r c i n).1 := by
  have hfeed (a : ℕ) (l : List ℕ) (y : Io × List ℕ) (hy : Io.Grows x y.1) :
      Io.Grows x (l.foldl (Io.tillFeed a r c i n) y).1 :=
    foldl_keeps (fun y : Io × List ℕ => Io.Grows x y.1) _ (fun y t h => h.trans (tillFeed ..)) _ _ hy
  unfold Io.countOnly
  split
  · exact refl x
  · refine hfeed _ _ _ ?_
    split
    · exact refl x
    · exact hfeed _ _ _ (refl x)

theorem message (x : Io) (b : Bool) (v : ℕ) : Io.Grows x (x.message b v).1 := by
  unfold Io.message
  split
  · exact of_same rfl rfl
  · exact (countOnly x 13 Src.HOST_MSIX_SENT 0 1).trans (post _ 4 (.msix b v)).1

theorem irqOnce (x : Io) (n : ℕ) : Io.Grows x (x.irqOnce n).1 := by
  unfold Io.irqOnce
  split
  · exact refl x
  · have hset : Io.Grows x (x.set (causeBit n) 1) := of_same rfl rfl
    refine hset.trans ?_
    unfold Io.sendIrq
    split
    · exact message ..
    · exact refl _

theorem irq (x : Io) (n : ℕ) : Io.Grows x (x.irq n) := by
  unfold Io.irq Io.settleIrq
  exact foldl_keeps (Io.Grows x) _ (fun y r h => h.trans (irqOnce y _)) _ _ (irqOnce x n)

theorem count (x : Io) (r c i n : ℕ) : Io.Grows x (x.count r c i n) := by
  unfold Io.count
  exact foldl_keeps (Io.Grows x) _ (fun y q h => h.trans (irq y _)) _ _ (countOnly x r c i n)

end Io.Grows

namespace Rings

variable {s t : State} {f : Field} {rs qs : List ℕ} {u : List Part} {r : ℕ}

/-! ## Posted writes -/

theorem within_post (h : s.within u t) (n : ℕ) (o : Out) (k : .io ∈ u) : s.within u (t.post n o) := h.io_upd _ k
theorem onlyRegions_post (h : s.onlyRegions qs t) (n : ℕ) (o : Out) : s.onlyRegions qs (t.post n o) := h.of_calm
    (Io.calm_post _ n o)

theorem reg_post (n : ℕ) (o : Out) (s : State) (a : ℕ) : (s.post n o).reg a = s.reg a := by
  change (s.io.post n o).reg a = s.io.reg a
  unfold Io.post
  split <;> rfl

theorem regs_post (n : ℕ) (o : Out) (s : State) : (s.post n o).io.regs = s.io.regs := by
  change (s.io.post n o).regs = s.io.regs
  unfold Io.post
  split <;> rfl

theorem get_post (n : ℕ) (o : Out) (s : State) (f : Field) : (s.post n o).get f = s.get f := Io.get_congr (reg_post n o s f.off)
theorem host_post (n : ℕ) (o : Out) (s : State) : (s.post n o).host = s.host := rfl

theorem grows_post (n : ℕ) (o : Out) (s : State) : Io.Grows s.io (s.post n o).io ∧ o ∈ (s.post n o).io.held ++
    (s.post n o).io.out :=
  Io.Grows.post s.io n o

/-! ## The record of a ring -/

theorem ring_ring_same (g : Ring → Ring) (s : State) (r : ℕ) : (s.ring' r g).ring r = g (s.ring r) := rd_wr_same _ _ _ _

theorem ring_ring_other {q : ℕ} (g : Ring → Ring) (s : State) (h : q ≠ r) : (s.ring' r g).ring q = s.ring q := rd_wr_other _
    _ _ h

theorem ring_of_host (h : t.host = s.host) (r : ℕ) : t.ring r = s.ring r := by rw [State.ring, State.ring, h]

theorem ring_irq (n : ℕ) (s : State) (r : ℕ) : (s.irq n).ring r = s.ring r := rfl

theorem get_ring (g : Ring → Ring) (s : State) (r : ℕ) (f : Field) : (s.ring' r g).get f = s.get f := rfl
theorem io_ring (g : Ring → Ring) (s : State) (r : ℕ) : (s.ring' r g).io = s.io := rfl

theorem within_ring (h : s.within u t) (r : ℕ) (g : Ring → Ring) (k : .host ∈ u) : s.within u (t.ring' r g) := h.host_upd _ k
theorem onlyRegions_ring (h : s.onlyRegions qs t) (r : ℕ) (g : Ring → Ring) : s.onlyRegions qs (t.ring' r g) := h.of_reg fun
    _ => rfl

/-! ## Closures over a region -/

theorem onlyRegions_count (h : s.onlyRegions qs t) (r c i n : ℕ) : s.onlyRegions qs (t.count r c i n) := h.of_calm
    (Io.calm_count ..)
theorem onlyRegions_irq (h : s.onlyRegions qs t) (n : ℕ) : s.onlyRegions qs (t.irq n) := h.of_calm (Io.calm_irq ..)
theorem onlyRegions_err (h : s.onlyRegions qs t) (e : Err) : s.onlyRegions qs (t.err e) := h.of_calm (Io.calm_err ..)
theorem onlyRegions_host (h : s.onlyRegions qs t) (g : HostIf → HostIf) : s.onlyRegions qs (t.host' g) := h.of_reg fun _ => rfl
theorem onlyRegions_trans {v : State} (h : s.onlyRegions qs t) (k : t.onlyRegions qs v) : s.onlyRegions qs v :=
  fun a hq ha hl => (k a hq ha hl).trans (h a hq ha hl)

theorem onlyRegions_clockReach (h : s.onlyRegions qs t) (w : Wide) : s.onlyRegions qs (t.clockReach w) := by
  unfold State.clockReach
  split
  · exact h.of_reg fun a => t.reg_reach w a
  · exact h

/-- A register of ring r lies in HOST's region. -/
theorem region_ring {a : ℕ} (hr : r < 14) (ha : a < 0x100) : (0x01A20000 + a + 0x100 * r) / 0x200000 = 13 := by omega

/-! ## Completion (R306, R307, R312) -/

theorem within_showFetched (h : s.within u t) (r : ℕ) (k : .io ∈ u) : s.within u (t.showFetched r) := h.set _ _ k

theorem onlyRegions_showFetched (h : s.onlyRegions qs t) (hr : r < 14) (k : 13 ∈ qs) : s.onlyRegions qs (t.showFetched r) :=
  h.set _ _ (by rw [show (Fd.HOST_RING_STAT_FETCHED r).off / 0x200000 = 13 from region_ring (a := 0x24) hr
      (by decide)]; exact k)

theorem within_statusBlock (h : s.within u t) (r : ℕ) (k : .io ∈ u) : s.within u (t.statusBlock r) := within_post h _ _ k
theorem onlyRegions_statusBlock (h : s.onlyRegions qs t) (r : ℕ) : s.onlyRegions qs (t.statusBlock r) := onlyRegions_post h _ _
theorem get_statusBlock (r : ℕ) (s : State) (f : Field) : (s.statusBlock r).get f = s.get f := get_post ..
theorem ring_statusBlock (r q : ℕ) (s : State) : (s.statusBlock r).ring q = s.ring q := rfl
theorem grows_statusBlock (r : ℕ) (s : State) : Io.Grows s.io (s.statusBlock r).io := (grows_post ..).1

theorem within_moderate (h : s.within u t) (r : ℕ) (k : .io ∈ u) (l : .host ∈ u) : s.within u (t.moderate r) := by
  unfold State.moderate
  simp only
  split
  · exact (within_ring h _ _ l).irq _ k
  · exact within_ring h _ _ l

theorem onlyRegions_moderate (h : s.onlyRegions qs t) (r : ℕ) : s.onlyRegions qs (t.moderate r) := by
  unfold State.moderate
  simp only
  split
  · exact onlyRegions_irq (onlyRegions_ring h _ _) _
  · exact onlyRegions_ring h _ _

/-- Counting a completion towards the interrupt leaves the buffers, the fields and what has been sent. -/
theorem moderate_facts (hp : f.steady = true) (s : State) (r : ℕ) : (s.moderate r).get f = s.get f ∧
    ((s.moderate r).ring r).descs = (s.ring r).descs ∧ ((s.moderate r).ring r).data = (s.ring r).data ∧
    Io.Grows s.io (s.moderate r).io := by
  unfold State.moderate
  simp only
  split
  · refine ⟨State.get_irq _ _ hp, ?_, ?_, .irq ..⟩
    · rw [ring_irq, ring_ring_same]
    · rw [ring_irq, ring_ring_same]
  · refine ⟨rfl, ?_, ?_, .refl _⟩
    · rw [ring_ring_same]
    · rw [ring_ring_same]

/-- The write-back of the current buffer (R299, R304). -/
def writeBack (r why : ℕ) (s : State) : State :=
  let x := s.ring r
  let done := s.get (Fd.HOST_RING_DONE_DONE r)
  s.postBack r (x.base + BitVec.ofNat 64 (32 * (done % 2 ^ x.dsz) + 16))
    (leBytes 4 (s.get (Fd.HOST_RING_UNIT_UNIT r)) ++ leBytes 4 (x.data.length / 16)
      ++ leBytes 2 (if x.begun then min x.drops 65535 else 0)
      ++ leBytes 2 (1 + (why ||| (if s.idleDue r then stIDLE else 0))) ++ leBytes 4 0)

/-- The ring after its first buffer has completed. -/
def completed (r why : ℕ) (rest : List Desc) (s : State) : State :=
  (((writeBack r why s).set (Fd.HOST_RING_UNIT_UNIT r) (s.get (Fd.HOST_RING_UNIT_UNIT r) + (s.ring r).data.length / 16)).set
    (Fd.HOST_RING_DONE_DONE r) (s.get (Fd.HOST_RING_DONE_DONE r) + 1)).ring' r
    fun y => { y with descs := rest, data := [], begun := false, drops := 0 }

theorem closeBuffer_eq {d : Desc} {rest : List Desc} (hd : (s.ring r).descs = d :: rest) (hdata : (s.ring r).data ≠ [])
    (why : ℕ) :
    s.closeBuffer r why
      = ((((completed r why rest s).showFetched r).statusBlock r).count 13 Src.HOST_COMPLETIONS r 1).moderate r := by
  unfold State.closeBuffer
  simp only
  rw [hd]
  simp only
  rw [if_neg (show ¬(s.ring r).data.isEmpty = true by simpa using hdata)]
  rfl

theorem closeBuffer_empty (h : (s.ring r).descs = [] ∨ (s.ring r).data = []) (why : ℕ) : s.closeBuffer r why = s := by
  unfold State.closeBuffer
  simp only
  split
  · rfl
  next hd => rw [h.resolve_left (by simp [hd])]; rfl

theorem within_completed (h : s.within u t) (r why : ℕ) (rest : List Desc) (k : .io ∈ u) (l : .host ∈ u) :
    s.within u (completed r why rest t) :=
  within_ring (((within_post h _ _ k).set _ _ k).set _ _ k) _ _ l

theorem onlyRegions_completed (h : s.onlyRegions qs t) (hr : r < 14) (why : ℕ) (rest : List Desc) (k : 13 ∈ qs) :
    s.onlyRegions qs (completed r why rest t) := by
  have hunit : (Fd.HOST_RING_UNIT_UNIT r).off / 0x200000 ∈ qs := by
    rw [show (Fd.HOST_RING_UNIT_UNIT r).off / 0x200000 = 13 from region_ring (a := 0x1C) hr (by decide)]; exact k
  have hdone : (Fd.HOST_RING_DONE_DONE r).off / 0x200000 ∈ qs := by
    rw [show (Fd.HOST_RING_DONE_DONE r).off / 0x200000 = 13 from region_ring (a := 0x18) hr (by decide)]; exact k
  exact onlyRegions_ring (((onlyRegions_post h _ _).set _ _ hunit).set _ _ hdone) _ _

theorem within_closeBuffer (h : s.within u t) (r why : ℕ) (k : .io ∈ u) (l : .host ∈ u) : s.within u (t.closeBuffer r why) := by
  by_cases he : (t.ring r).descs = [] ∨ (t.ring r).data = []
  · rwa [closeBuffer_empty he]
  · obtain ⟨hdescs, hdata⟩ := not_or.mp he
    obtain ⟨d, rest, hd⟩ := List.exists_cons_of_ne_nil hdescs
    rw [closeBuffer_eq hd hdata]
    exact within_moderate ((within_statusBlock (within_showFetched (within_completed h _ _ _ k l) _ k) _ k).count _ _ _ _ k)
        _ k l

theorem onlyRegions_closeBuffer (h : s.onlyRegions qs t) (hr : r < 14) (why : ℕ) (k : 13 ∈ qs) :
    s.onlyRegions qs (t.closeBuffer r why) := by
  by_cases he : (t.ring r).descs = [] ∨ (t.ring r).data = []
  · rwa [closeBuffer_empty he]
  · obtain ⟨hdescs, hdata⟩ := not_or.mp he
    obtain ⟨d, rest, hd⟩ := List.exists_cons_of_ne_nil hdescs
    rw [closeBuffer_eq hd hdata]
    exact onlyRegions_moderate (onlyRegions_count (onlyRegions_statusBlock (onlyRegions_showFetched
      (onlyRegions_completed h hr _ _ k) hr k) _) _ _ _ _) _

theorem steady_ring (r : Fin 14) : (Fd.HOST_RING_DONE_DONE r).steady = true ∧ (Fd.HOST_RING_UNIT_UNIT r).steady = true ∧
    (Fd.HOST_RING_STAT_STATE r).steady = true ∧ (Fd.HOST_RING_STAT_CAUSE r).steady = true ∧
    (Fd.HOST_RING_STAT_FETCHED r).steady = true ∧ (Fd.HOST_RING_CTL_EN r).steady = true := by
  revert r
  decide

/-- A completed buffer leaves its ring, and the write-back goes out. -/
theorem closeBuffer_wroteBack (r : Fin 14) {d : Desc} {rest : List Desc} (hd : (s.ring r).descs = d :: rest)
    (hdata : (s.ring r).data ≠ []) (why : ℕ) :
    ((s.closeBuffer r why).ring r).descs = rest ∧ ((s.closeBuffer r why).ring r).data = [] ∧ s.wroteBack r why
        (s.closeBuffer r why) := by
  obtain ⟨hdone, hunit, -⟩ := steady_ring r
  rw [closeBuffer_eq hd hdata]
  obtain ⟨mdone, mdescs, mdata, mgrows⟩ := moderate_facts hdone
    ((((completed r why rest s).showFetched r).statusBlock r).count 13 Src.HOST_COMPLETIONS r 1) r
  obtain ⟨munit, -⟩ := moderate_facts hunit
    ((((completed r why rest s).showFetched r).statusBlock r).count 13 Src.HOST_COMPLETIONS r 1) r
  have hring : ((((completed r why rest s).showFetched r).statusBlock r).count 13 Src.HOST_COMPLETIONS r 1).ring r
      = (completed r why rest s).ring r := rfl
  have hcompleted : (completed r why rest s).ring r =
      { s.ring r with descs := rest, data := [], begun := false, drops := 0 } := ring_ring_same ..
  have hfetched {g : Field} (h : (Fd.HOST_RING_STAT_FETCHED r).apart g = true) (hp : g.steady = true) :
      ((((completed r why rest s).showFetched r).statusBlock r).count 13 Src.HOST_COMPLETIONS r 1).get g
        = (completed r why rest s).get g := by
    rw [State.get_count _ _ _ _ _ hp, get_statusBlock, State.showFetched, State.get_set_apart _ _ h]
  have hsent : Io.Grows (writeBack r why s).io
      ((((completed r why rest s).showFetched r).statusBlock r).count 13 Src.HOST_COMPLETIONS r 1).io := by
    have hset : Io.Grows (writeBack r why s).io ((completed r why rest s).showFetched r).io := .of_same rfl rfl
    exact (hset.trans (grows_statusBlock r ((completed r why rest s).showFetched r))).trans (.count ..)
  refine ⟨?_, ?_, ?_, ?_, mgrows.mem _ (hsent.mem _ (grows_post ..).2)⟩
  · rw [mdescs, hring, hcompleted]
  · rw [mdata, hring, hcompleted]
  · rw [mdone, hfetched (Field.apart_of_off (by simp [Fd.HOST_RING_STAT_FETCHED, Fd.HOST_RING_DONE_DONE])) hdone]
    exact State.get_set _ _ _ (by simp [Fd.HOST_RING_DONE_DONE]) (by simp [Fd.HOST_RING_DONE_DONE])
  · rw [munit, hfetched (Field.apart_of_off (by simp [Fd.HOST_RING_STAT_FETCHED, Fd.HOST_RING_UNIT_UNIT])) hunit, completed,
      get_ring,
      State.get_set_off (f := Fd.HOST_RING_DONE_DONE r) _ _ (by simp [Fd.HOST_RING_UNIT_UNIT, Fd.HOST_RING_DONE_DONE])]
    exact State.get_set _ _ _ (by simp [Fd.HOST_RING_UNIT_UNIT]) (by simp [Fd.HOST_RING_UNIT_UNIT])

/-! ## Records (R303, R305) -/

theorem within_enterRecord (h : s.within u t) (r : ℕ) (first : Bool) (b : List Byte) (k : .io ∈ u) (l : .host ∈ u) :
    s.within u (t.enterRecord r first b) := within_ring (within_post h _ _ k) _ _ l

theorem onlyRegions_enterRecord (h : s.onlyRegions qs t) (r : ℕ) (first : Bool) (b : List Byte) :
    s.onlyRegions qs (t.enterRecord r first b) := onlyRegions_ring (onlyRegions_post h _ _) _ _

theorem within_dropItem (h : s.within u t) (r : ℕ) (k : .io ∈ u) (l : .host ∈ u) : s.within u (t.dropItem r) :=
  (within_ring h _ _ l).count _ _ _ _ k

theorem onlyRegions_dropItem (h : s.onlyRegions qs t) (r : ℕ) : s.onlyRegions qs (t.dropItem r) :=
  onlyRegions_count (onlyRegions_ring h _ _) _ _ _ _

theorem within_tooBig (h : s.within u t) (r : ℕ) (k : .io ∈ u) (l : .host ∈ u) : s.within u (t.tooBig r) :=
  within_dropItem (((h.set _ _ k).err _ k).count _ _ _ _ k) _ k l

theorem onlyRegions_tooBig (h : s.onlyRegions qs t) (hr : r < 14) (k : 13 ∈ qs) : s.onlyRegions qs (t.tooBig r) := by
  refine onlyRegions_dropItem (onlyRegions_count (onlyRegions_err (h.set _ _ ?_) _) _ _ _ _) _
  rw [show (Fd.HOST_RING_STAT_BIG r).off / 0x200000 = 13 from region_ring (a := 0x24) hr (by decide)]
  exact k

theorem putRecord_fits {d : Desc} {rest : List Desc} {b : List Byte} (hd : (s.ring r).descs = d :: rest)
    (hfit : (s.ring r).data.length + b.length ≤ d.size) (first : Bool) : s.putRecord r first b =
        (s.enterRecord r first b, false) := by
  unfold State.putRecord
  simp only
  rw [hd]
  simp only
  rw [if_pos hfit]

theorem within_putRecord (h : s.within u t) (r : ℕ) (first : Bool) (b : List Byte) (k : .io ∈ u) (l : .host ∈ u) :
    s.within u (t.putRecord r first b).1 := by
  unfold State.putRecord
  simp only
  split
  · exact h
  · split
    · exact within_enterRecord h _ _ _ k l
    · have hclosed := within_closeBuffer h r stFULL k l
      split
      · exact hclosed
      · split
        · exact within_enterRecord hclosed _ _ _ k l
        · exact within_tooBig hclosed _ k l

theorem onlyRegions_putRecord (h : s.onlyRegions qs t) (hr : r < 14) (first : Bool) (b : List Byte) (k : 13 ∈ qs) :
    s.onlyRegions qs (t.putRecord r first b).1 := by
  unfold State.putRecord
  simp only
  split
  · exact h
  · split
    · exact onlyRegions_enterRecord h _ _ _
    · have hclosed := onlyRegions_closeBuffer h hr stFULL k
      split
      · exact hclosed
      · split
        · exact onlyRegions_enterRecord hclosed _ _ _
        · exact onlyRegions_tooBig hclosed hr k

theorem putItem_single (r : ℕ) (b : List Byte) (s : State) : s.putItem r [b] = (s.putRecord r true b).1 := rfl

/-- A record that fits is appended to the buffer, and written at its place. -/
theorem enterRecord_facts (r : ℕ) (first : Bool) (b : List Byte) (s : State) :
    (s.enterRecord r first b).io.regs = s.io.regs ∧ ((s.enterRecord r first b).ring r).data = (s.ring r).data ++ b ∧
      ((s.enterRecord r first b).ring r).descs = (s.ring r).descs ∧
      Out.dma r (((s.ring r).descs.head?.map Desc.addr).getD 0 + BitVec.ofNat 64 (s.ring r).data.length)
        (s.is (Fd.CFG_DEV_ERO false)) s.mps b ∈ (s.enterRecord r first b).io.held ++ (s.enterRecord r first b).io.out := by
  refine ⟨regs_post .., ?_, ?_, (grows_post ..).2⟩
  · rw [State.enterRecord, ring_ring_same]
    split <;> rfl
  · rw [State.enterRecord, ring_ring_same]
    split <;> rfl

/-! ## A stop (R309) -/

theorem within_stopRing (h : s.within u t) (r cause code : ℕ) (k : .io ∈ u) (l : .host ∈ u) :
    s.within u (t.stopRing r cause code) := by
  unfold State.stopRing
  exact ((within_statusBlock ((within_showFetched (((within_ring h _ _ l).set _ _ k).set _ _ k) _ k).err _ k) _ k).count
    _ _ _ _ k).irq _ k

theorem onlyRegions_stopRing (h : s.onlyRegions qs t) (hr : r < 14) (cause code : ℕ) (k : 13 ∈ qs) :
    s.onlyRegions qs (t.stopRing r cause code) := by
  have hstat : (Fd.HOST_RING_STAT_STATE r).off / 0x200000 ∈ qs := by
    rw [show (Fd.HOST_RING_STAT_STATE r).off / 0x200000 = 13 from region_ring (a := 0x24) hr (by decide)]; exact k
  unfold State.stopRing
  exact onlyRegions_irq (onlyRegions_count (onlyRegions_statusBlock (onlyRegions_err (onlyRegions_showFetched
    (((onlyRegions_ring h _ _).set _ _ hstat).set (Fd.HOST_RING_STAT_CAUSE r) _ hstat) hr k) _) _) _ _ _ _) _

/-- A ring that stops is STOPPED with its cause, and holds no descriptor. -/
theorem stopRing_facts (r : Fin 14) {cause : ℕ} (hc : cause < 16) (code : ℕ) (s : State) :
    (s.stopRing r cause code).ringState r = rSTOPPED ∧ (s.stopRing r cause code).get (Fd.HOST_RING_STAT_CAUSE r) = cause ∧
      ((s.stopRing r cause code).ring r).descs = [] := by
  obtain ⟨-, -, hstate, hcause, -⟩ := steady_ring r
  have hget {g : Field} (hp : g.steady = true) (h : (Fd.HOST_RING_STAT_FETCHED r).apart g = true) :
      (s.stopRing r cause code).get g =
      (((s.ring' r Ring.abandon).set (Fd.HOST_RING_STAT_STATE r) rSTOPPED).set (Fd.HOST_RING_STAT_CAUSE r) cause).get g := by
    unfold State.stopRing
    rw [State.get_irq _ _ hp, State.get_count _ _ _ _ _ hp, get_statusBlock, State.get_err _ _ hp, State.showFetched,
      State.get_set_apart _ _ h]
  refine ⟨?_, ?_, ?_⟩
  · rw [State.ringState, hget hstate (by simp [Field.apart, Fd.HOST_RING_STAT_FETCHED, Fd.HOST_RING_STAT_STATE]),
      State.get_set_apart _ _ (by simp [Field.apart, Fd.HOST_RING_STAT_CAUSE, Fd.HOST_RING_STAT_STATE])]
    exact State.get_set _ _ _ (by simp [Fd.HOST_RING_STAT_STATE]) (by simp [Fd.HOST_RING_STAT_STATE])
  · rw [hget hcause (by simp [Field.apart, Fd.HOST_RING_STAT_FETCHED, Fd.HOST_RING_STAT_CAUSE])]
    exact (State.get_set _ _ _ (by simp [Fd.HOST_RING_STAT_CAUSE]) (by simp [Fd.HOST_RING_STAT_CAUSE])).trans
      (Nat.mod_eq_of_lt hc)
  · exact congrArg Ring.descs (ring_ring_same Ring.abandon s r)

end Rings

end Sys2Proof.Machine
end

section
/-!
SETTLES O38. The sync bus (R346 to R348): what the master sends, and what a receiver makes of a pulse.
-/
-- One thread for the lemmas: a thread for each would ask for more memory than a build may have.
set_option Elab.async false

namespace Sys2Proof.Machine.SyncBus
open Sys2Proof.Machine Capture

variable {s t : State} {f : Field} {rs qs : List ℕ} {u : List Part}

/-! ## Signals to the easels (R101) -/

theorem within_complete (h : s.within u t) (e : ℕ) (k : .io ∈ u) (l : .scan ∈ u) : s.within u (t.complete e) :=
  (((h.set _ _ k).nextPc e k).easel_upd _ _ l).settle e k l

theorem onlyRegions_complete (h : s.onlyRegions qs t) {e : ℕ} (he : e ∈ easelList) (k : 2 ∈ qs) : s.onlyRegions qs
    (t.complete e) := by
  have hown : t.onlyRegs [(Fd.SCAN_EASEL_STAT_STATE e).off, (Fd.SCAN_EASEL_PC_PC e).off] (t.complete e) := by
    unfold State.complete
    exact ((((State.onlyRegs_refl t _).set (Fd.SCAN_EASEL_STAT_STATE e) 1).nextPc e).easel_upd _ _).settle e
  have hregion : t.onlyRegions qs (t.complete e) := hown.regions fun a ha => by
    revert a
    fin_cases he <;> simpa [Fd.SCAN_EASEL_STAT_STATE, Fd.SCAN_EASEL_PC_PC] using k
  exact fun a hq ha hl => (hregion a hq ha hl).trans (h a hq ha hl)

theorem within_setSig (h : s.within u t) (n : ℕ) (k : .io ∈ u) (l : .scan ∈ u) : s.within u (t.setSig n) := by
  unfold State.setSig State.releaseSig
  have hset := h.set (Fd.SCAN_SIG_SIG.bit n) 1 k
  split
  · split
    · exact within_complete (hset.set _ _ k) _ k l
    · exact hset
  · exact hset

theorem onlyRegions_setSig (h : s.onlyRegions qs t) (n : ℕ) (k : 2 ∈ qs) : s.onlyRegions qs (t.setSig n) := by
  unfold State.setSig State.releaseSig
  have hset := h.set (Fd.SCAN_SIG_SIG.bit n) 1 (by simpa [Field.bit, Fd.SCAN_SIG_SIG] using k)
  split
  · split
    next e he => exact onlyRegions_complete (hset.set (Fd.SCAN_SIG_SIG.bit n) 0
        (by simpa [Field.bit, Fd.SCAN_SIG_SIG] using k)) (List.mem_of_find?_eq_some he) k
    next => exact hset
  · exact hset

theorem wideOf_complete (e r i : ℕ) (s : State) : (s.complete e).wideOf r i = s.wideOf r i := by
  unfold State.complete State.settle State.halt
  split <;> rfl

theorem wideOf_setSig (n r i : ℕ) (s : State) : (s.setSig n).wideOf r i = s.wideOf r i := by
  unfold State.setSig State.releaseSig
  split
  · split
    · rw [wideOf_complete]; rfl
    · rfl
  · rfl

theorem wideOf_put (a r i : ℕ) (w : Word) (s : State) : (s.put a w).wideOf r i = s.wideOf r i := rfl

/-- A whole double word stored in the shared scratch. -/
theorem store_scratch {a : ℕ} (hlo : 0x40000 ≤ a) (hhi : a < 0x41000) (v : ℕ) (s : State) :
    s.store 0 a 8 v = (s.put (0x004E0000 + (a - 0x00040000)) (BitVec.ofNat 32 v)).put (0x004E0000 + (a - 0x00040000) + 4)
      (BitVec.ofNat 32 (v / 2 ^ 32)) := by
  have htable : tableReg a = some (0x004E0000 + (a - 0x00040000)) := by
    unfold tableReg
    rw [if_neg (by omega), if_neg (by omega), if_neg (by omega), if_pos ⟨hlo, hhi⟩]
  unfold State.store
  rw [htable]
  rfl

/-- A FRAME pulse is latched, stored and signalled. -/
theorem takeFrame_frame (edge : Wide) (s : State) : s.within [.io, .scan, .memc] (s.takeFrame edge) ∧
    s.onlyRegions [2, 14] (s.takeFrame edge) ∧
    (s.takeFrame edge).wideOf 14 0x0021 = stamp edge - BitVec.ofNat 64 (s.get Fd.MEMC_SYNC_DLY_ARM_DLY) := by
  have hword : s.get Fd.MEMC_SYNC_CTL_FWORD < 2 ^ 9 := Io.get_lt _ _
  unfold State.takeFrame
  simp only
  rw [store_scratch (by omega) (by omega)]
  refine ⟨within_setSig ((((State.within_refl s _).setWide _ _ _).put _ _).put _ _) _ (by decide) (by decide),
    onlyRegions_setSig ?_ _ (by simp), ?_⟩
  · have hlatched : s.onlyRegions [2, 14]
        (s.setWide 14 0x0021 (stamp edge - BitVec.ofNat 64 (s.get Fd.MEMC_SYNC_DLY_ARM_DLY))) :=
      (State.onlyRegions_refl s _).of_reg fun _ => rfl
    have hregion {a : ℕ} (h : a < 0x1000) : (0x004E0000 + a) / 0x200000 ∈ [2, 14] := by
      rw [show (0x004E0000 + a) / 0x200000 = 2 by omega]
      simp
    exact (hlatched.put _ _ (hregion (by omega))).put _ _ (by rw [Nat.add_assoc]; exact hregion (by omega))
  · rw [wideOf_setSig, wideOf_put, wideOf_put]
    exact Io.wideOf_setWide ..

/-! ## The master's pulses (R346) -/

/-- The registers of a pulse that goes out: those of the capture. -/
def pulseRegs : List ℕ :=
  [Fd.MEMC_CAP_TRIG_MISSED_COUNT.off, Fd.MEMC_SYNC_STAT_SEND_PEND.off, Fd.MEMC_CAP_STAT_STATE.off, Fd.MEMC_CAP_CMD_ARM.off,
    Fd.MEMC_CAP_SEQ_CAPSEQ.off, Fd.MEMC_CAP_PTC_PTC.off]

/-- The registers of the capture among them. -/
def captureRegs : List ℕ :=
  [Fd.MEMC_CAP_TRIG_MISSED_COUNT.off, Fd.MEMC_CAP_STAT_STATE.off, Fd.MEMC_CAP_CMD_ARM.off, Fd.MEMC_CAP_SEQ_CAPSEQ.off,
    Fd.MEMC_CAP_PTC_PTC.off]

theorem captureRegs_sub : ∀ a ∈ captureRegs, a ∈ pulseRegs := by decide

/-- The capture's share of a pulse that its own unit sends. -/
def captured (arm : Bool) (s : State) : State := s.onlyIf s.capOpen (if arm then State.arm else State.abortCap)

theorem capOpen_emitPin (o : Out) (s : State) : (s.emitPin o).capOpen = s.capOpen := by
  unfold State.emitPin State.onlyIf
  split <;> rfl

theorem sendSync_eq (arm : Bool) (s : State) : s.sendSync arm = captured arm
    (s.emitPin (.syncPulse (if arm then 400 else 1600))) := by
  unfold State.sendSync captured
  rw [show (s.emitPin (.syncPulse (if arm then 400 else 1600))).capOpen = s.capOpen from capOpen_emitPin ..]

theorem within_captured (arm : Bool) (h : s.within u t) (k : .io ∈ u) (l : .memc ∈ u) : s.within u (captured arm t) := by
  cases arm
  · exact State.within.onlyIf h (within_abortCap h k l)
  · exact State.within.onlyIf h (within_arm h k l)

theorem onlyRegs_captured (arm : Bool) (h : s.onlyRegs rs t) (k : ∀ a ∈ captureRegs, a ∈ rs) : s.onlyRegs rs
    (captured arm t) := by
  cases arm
  · exact State.onlyRegs.onlyIf h (onlyRegs_abortCap h fun a ha => k a (by revert a; decide))
  · exact State.onlyRegs.onlyIf h (onlyRegs_arm h fun a ha => k a (by revert a; decide))

/-- A steady field of no register of the capture reads as before the pulse. -/
theorem get_captured (arm : Bool) (hp : f.steady = true) (h : f.off ∉ captureRegs) (s : State) : (captured arm s).get f =
    s.get f :=
  (onlyRegs_captured arm (State.onlyRegs_refl s _) fun _ ha => ha).steady h hp

/-- The capture leaves the pulse that has gone out and the one that is deferred. -/
structure Beside (s t : State) : Prop where
  out : Io.Messages s.io t.io
  tick : t.tick = s.tick
  deferred : t.memc.deferred = s.memc.deferred

namespace Beside

variable {s t v : State}

theorem refl (s : State) : Beside s s := ⟨.refl _, rfl, rfl⟩
theorem trans (h : Beside s t) (k : Beside t v) : Beside s v :=
  ⟨h.out.trans k.out, k.tick.trans h.tick, k.deferred.trans h.deferred⟩
theorem set (h : Beside s t) (f : Field) (n : ℕ) : Beside s (t.set f n) := ⟨h.out.trans (.of_out rfl), h.tick, h.deferred⟩
theorem memc_upd (h : Beside s t) (g : Memc → Memc) (hg : ∀ m, (g m).deferred = m.deferred := by exact fun _ => rfl) :
    Beside s (t.memc' g) := ⟨h.out, h.tick, (hg _).trans h.deferred⟩
theorem count (h : Beside s t) (r c i n : ℕ) : Beside s (t.count r c i n) :=
  ⟨h.out.trans (.count ..), (Io.calm_count t.io ..).tick.trans h.tick, h.deferred⟩
theorem onlyIf (h : Beside s t) {b : Bool} {g : State → State} (k : Beside s (g t)) : Beside s (t.onlyIf b g) := by
  unfold State.onlyIf
  split
  · exact k
  · exact h

end Beside

theorem beside_abortCap (s : State) : Beside s s.abortCap := by
  have hheard : Beside s (heard s) := (Beside.refl s).set _ _
  refine abortCap_cases (Beside s) ?_ ?_ (hheard.set _ _) ?_ hheard
  · unfold State.showCapQ State.capTo
    exact ((hheard.set _ _).memc_upd _).set _ _
  · unfold State.beginExport State.showCapQ State.capTo State.missTrigs State.bump
    exact ((((((hheard.memc_upd marked).set _ _).set _ _).count _ _ _ _).memc_upd _).set _ _)
  · unfold State.capTo
    exact (hheard.set _ _).memc_upd _

theorem beside_clampPtc (h : Beside s t) : Beside s t.clampPtc := by
  unfold State.clampPtc
  simp only
  split
  · exact (h.set _ _).set _ _
  · exact h

theorem beside_arm (s : State) : Beside s s.arm := by
  have hanswered : Beside s (answered s) := ((Beside.refl s).set _ _).set _ _
  by_cases hr : s.capRefusal = 0
  · rw [arm_accepted hr]
    unfold State.capTo State.latchCap State.bump
    exact ((((beside_clampPtc hanswered).memc_upd _).set _ _).set _ _).memc_upd opened
  · rw [arm_refused hr]
    exact hanswered

theorem beside_captured (arm : Bool) (s : State) : Beside s (captured arm s) := by
  cases arm
  · exact (Beside.refl s).onlyIf (beside_abortCap s)
  · exact (Beside.refl s).onlyIf (beside_arm s)

/-- An ARM adds nothing to the outputs. -/
theorem out_captured_arm (s : State) : (captured true s).io.out = s.io.out := by
  unfold captured State.onlyIf
  split
  · exact out_arm s
  · rfl

/-! ## The clauses of the commands -/

theorem within_emitPin (h : s.within u t) (o : Out) (k : .io ∈ u) : s.within u (t.emitPin o) := State.within.onlyIf h
    (h.emit _ k)

theorem onlyRegs_emitPin (h : s.onlyRegs rs t) (o : Out) : s.onlyRegs rs (t.emitPin o) := State.onlyRegs.onlyIf h (h.emit _)

theorem get_emitPin (o : Out) (s : State) (f : Field) : (s.emitPin o).get f = s.get f := by
  unfold State.emitPin State.onlyIf
  split <;> rfl

theorem out_emitPin (o : Out) (s : State) : (s.emitPin o).io.out = if s.chip.railIo then o :: s.io.out else s.io.out := by
  unfold State.emitPin State.onlyIf
  split <;> rfl

theorem memc_emitPin (o : Out) (s : State) : (s.emitPin o).memc = s.memc ∧ (s.emitPin o).tick = s.tick := by
  unfold State.emitPin State.onlyIf
  split <;> exact ⟨rfl, rfl⟩

theorem within_sendSync (arm : Bool) (h : s.within u t) (k : .io ∈ u) (l : .memc ∈ u) : s.within u (t.sendSync arm) := by
  rw [sendSync_eq]
  exact within_captured arm (within_emitPin h _ k) k l

theorem onlyRegs_sendSync (arm : Bool) (h : s.onlyRegs rs t) (k : ∀ a ∈ captureRegs, a ∈ rs) : s.onlyRegs rs
    (t.sendSync arm) := by
  rw [sendSync_eq]
  exact onlyRegs_captured arm (onlyRegs_emitPin h _) k

theorem get_sendSync (arm : Bool) (hp : f.steady = true) (h : f.off ∉ captureRegs) (s : State) : (s.sendSync arm).get f =
    s.get f :=
  (onlyRegs_sendSync arm (State.onlyRegs_refl s _) fun _ ha => ha).steady h hp

/-- While the I/O rail is up the pulse has left. -/
theorem sent_sendSync (arm : Bool) (h : s.chip.railIo = true) : Out.syncPulse (if arm then 400 else 1600) ∈
    (s.sendSync arm).io.out := by
  rw [sendSync_eq]
  refine (beside_captured arm _).out.mem ?_
  rw [out_emitPin, h]
  exact List.mem_cons_self

/-- The command's bit is cleared; a role other than the master's sends nothing. -/
def commanded (arm : Bool) (s : State) : State := s.set (if arm then Fd.MEMC_SYNC_CMD_ARM else Fd.MEMC_SYNC_CMD_DISARM) 0

theorem frameInWay_set {g : Field} (hctl : Fd.MEMC_SYNC_CTL_MENG.off ≠ g.off) (n : ℕ) (e : Wide) (s : State) :
    (s.set g n).frameInWay e = s.frameInWay e := by
  have hmeng : (s.set g n).get Fd.MEMC_SYNC_CTL_MENG = s.get Fd.MEMC_SYNC_CTL_MENG := State.get_set_off _ _ hctl
  have hfen : (s.set g n).get Fd.MEMC_SYNC_CTL_FEN = s.get Fd.MEMC_SYNC_CTL_FEN := State.get_set_off _ _ hctl
  have hisfen : (s.set g n).is Fd.MEMC_SYNC_CTL_FEN = s.is Fd.MEMC_SYNC_CTL_FEN := congrArg (· == 1) hfen
  unfold State.frameInWay
  rw [hmeng, hisfen]
  rfl

theorem off_commanded (arm : Bool) : (if arm then Fd.MEMC_SYNC_CMD_ARM else Fd.MEMC_SYNC_CMD_DISARM).off = 0x01C50008 := by
  cases arm <;> rfl

theorem get_commanded (arm : Bool) : (commanded arm s).get (if arm then Fd.MEMC_SYNC_CMD_ARM else Fd.MEMC_SYNC_CMD_DISARM) =
    0 :=
  (State.get_set _ _ _ (by cases arm <;> decide) (by cases arm <;> decide)).trans (Nat.zero_mod _)

theorem role_commanded (arm : Bool) (s : State) : (commanded arm s).get Fd.MEMC_SYNC_CTL_ROLE = s.get Fd.MEMC_SYNC_CTL_ROLE :=
  State.get_set_off _ _ (by rw [off_commanded]; decide)

theorem frameInWay_commanded (arm : Bool) (e : Wide) (s : State) : (commanded arm s).frameInWay e = s.frameInWay e :=
  frameInWay_set (by rw [off_commanded]; decide) _ _ _

theorem syncCmd_clear {arm : Bool} (hrole : s.get Fd.MEMC_SYNC_CTL_ROLE = 1)
    (hway : s.frameInWay (s.tick + nsTicks ((if arm then 400 else 1600) + 200)) = none) : s.syncCmd arm = s.sendSync arm := by
  unfold State.syncCmd
  rw [if_neg (by simp [hrole]), hway]

theorem syncCmd_deferred {arm : Bool} {e : Wide} (hrole : s.get Fd.MEMC_SYNC_CTL_ROLE = 1)
    (hway : s.frameInWay (s.tick + nsTicks ((if arm then 400 else 1600) + 200)) = some e) :
    s.syncCmd arm = (s.memc' fun m => { m with deferred := some arm, pulseEnd := some e }).set Fd.MEMC_SYNC_STAT_SEND_PEND 1
        := by
  unfold State.syncCmd
  rw [if_neg (by simp [hrole]), hway]

theorem syncCmd_other {arm : Bool} (hrole : s.get Fd.MEMC_SYNC_CTL_ROLE ≠ 1) : s.syncCmd arm = s := if_pos hrole

theorem exec_arm (h : s.admits .syncArmCmd = true) : exec .syncArmCmd s = .next ((commanded true s).syncCmd true) := by
  change execSyncArmCmd s = _
  unfold execSyncArmCmd
  exact State.writeRow_admitted h

theorem exec_disarm (h : s.admits .syncDisarmCmd = true) : exec .syncDisarmCmd s = .next ((commanded false s).syncCmd false)
    := by
  change execSyncDisarmCmd s = _
  unfold execSyncDisarmCmd
  exact State.writeRow_admitted h

/-- The master's command with no FRAME pulse in its way. -/
theorem command_clear (arm : Bool) (hrole : s.get Fd.MEMC_SYNC_CTL_ROLE = 1)
    (hway : s.frameInWay (s.tick + nsTicks ((if arm then 400 else 1600) + 200)) = none) :
    s.within [.io, .memc] ((commanded arm s).syncCmd arm) ∧
      s.onlyRegs (0x01C50008 :: pulseRegs) ((commanded arm s).syncCmd arm) ∧
      ((commanded arm s).syncCmd arm).get (if arm then Fd.MEMC_SYNC_CMD_ARM else Fd.MEMC_SYNC_CMD_DISARM) = 0 ∧
      (commanded arm s).syncCmd arm = (commanded arm s).sendSync arm := by
  have heq : (commanded arm s).syncCmd arm = (commanded arm s).sendSync arm :=
    syncCmd_clear ((role_commanded arm s).trans hrole) ((frameInWay_commanded arm _ s).trans hway)
  refine ⟨?_, ?_, ?_, heq⟩
  all_goals rw [heq]
  · exact within_sendSync arm ((State.within_refl s _).set _ _) (by decide) (by decide)
  · exact onlyRegs_sendSync arm ((State.onlyRegs_refl s _).set _ _ (by rw [off_commanded]; simp)) fun _ ha =>
      List.mem_cons_of_mem _ (captureRegs_sub _ ha)
  · rw [get_sendSync arm (by cases arm <;> decide) (by rw [off_commanded]; decide)]
    exact get_commanded arm

/-- The master's command behind a FRAME pulse. -/
theorem command_deferred (arm : Bool) {e : Wide} (hrole : s.get Fd.MEMC_SYNC_CTL_ROLE = 1)
    (hway : s.frameInWay (s.tick + nsTicks ((if arm then 400 else 1600) + 200)) = some e) :
    ((commanded arm s).syncCmd arm).get (if arm then Fd.MEMC_SYNC_CMD_ARM else Fd.MEMC_SYNC_CMD_DISARM) = 0 ∧
      ((commanded arm s).syncCmd arm).memc.deferred = some arm ∧
      ((commanded arm s).syncCmd arm).get Fd.MEMC_SYNC_STAT_SEND_PEND = 1 ∧ ((commanded arm s).syncCmd arm).io.out =
          s.io.out := by
  rw [syncCmd_deferred ((role_commanded arm s).trans hrole) ((frameInWay_commanded arm _ s).trans hway)]
  refine ⟨?_, rfl, State.get_set _ _ _ (by decide) (by decide), rfl⟩
  rw [State.get_set_off _ _ (by rw [off_commanded]; decide)]
  exact get_commanded arm

/-- A unit that is no master. -/
theorem command_other (hrole : s.get Fd.MEMC_SYNC_CTL_ROLE ≠ 1) (arm : Bool) : s.within [.io] ((commanded arm s).syncCmd arm) ∧
    s.onlyRegs [0x01C50008] ((commanded arm s).syncCmd arm) ∧ ((commanded arm s).syncCmd arm).io.out = s.io.out := by
  rw [syncCmd_other (by rwa [role_commanded])]
  exact ⟨(State.within_refl s _).set _ _, (State.onlyRegs_refl s _).set _ _ (by rw [off_commanded]; simp), rfl⟩

/-! ## A deferred pulse -/

theorem tick_set (f : Field) (n : ℕ) (s : State) : (s.set f n).tick = s.tick := rfl
theorem tick_memc_upd (g : Memc → Memc) (s : State) : (s.memc' g).tick = s.tick := rfl

theorem exec_deferred {arm : Bool} {e : Wide} (hr : s.restarting 14 = false) (hrole : s.get Fd.MEMC_SYNC_CTL_ROLE = 1)
    (hdef : s.memc.deferred = some arm) (hend : s.memc.pulseEnd = some e) (htime : s.timely (e + nsTicks 200) = true) :
    exec .syncPulseDeferred s = .next ((((s.reach (e + nsTicks 200)).memc' fun m => { m with deferred := none }).set
      Fd.MEMC_SYNC_STAT_SEND_PEND 0).sendSync arm) := by
  change execSyncPulseDeferred s = _
  unfold execSyncPulseDeferred
  rw [hr, hdef, hend]
  simp only [Bool.false_eq_true, if_false]
  rw [if_neg (by simp [hrole]), if_pos htime]
  rfl

theorem exec_deferred_other {arm : Bool} {e : Wide} (hr : s.restarting 14 = false) (hrole : s.get Fd.MEMC_SYNC_CTL_ROLE ≠ 1)
    (hdef : s.memc.deferred = some arm) (hend : s.memc.pulseEnd = some e) :
    exec .syncPulseDeferred s = .next ((s.memc' fun m => { m with deferred := none }).set Fd.MEMC_SYNC_STAT_SEND_PEND 0) := by
  change execSyncPulseDeferred s = _
  unfold execSyncPulseDeferred
  rw [hr, hdef, hend]
  simp only [Bool.false_eq_true, if_false]
  rw [if_pos hrole]
  rfl

/-- The deferred pulse of a master goes out after the FRAME pulse. -/
theorem deferred_sent {arm : Bool} {e : Wide} (hr : s.restarting 14 = false) (hrole : s.get Fd.MEMC_SYNC_CTL_ROLE = 1)
    (hdef : s.memc.deferred = some arm) (hend : s.memc.pulseEnd = some e) (htime : s.timely (e + nsTicks 200) = true) :
    ∃ t, exec .syncPulseDeferred s = .next t ∧ s.within [.io, .memc] t ∧ s.onlyRegs pulseRegs t ∧
      t.tick = (s.reach (e + nsTicks 200)).tick ∧ t.memc.deferred = none ∧ t.get Fd.MEMC_SYNC_STAT_SEND_PEND = 0 ∧
      (s.chip.railIo = true → Out.syncPulse (if arm then 400 else 1600) ∈ t.io.out) := by
  refine ⟨_, exec_deferred hr hrole hdef hend htime, within_sendSync arm
      ((((State.within_refl s _).reach _).memc_upd _).set _ _)
      (by decide) (by decide),
    onlyRegs_sendSync arm ((((State.onlyRegs_refl s _).reach _).memc_upd _).set _ _ (by decide)) captureRegs_sub, ?_, ?_,
        ?_, ?_⟩
  · rw [sendSync_eq, (beside_captured ..).tick, (memc_emitPin ..).2, tick_set, tick_memc_upd]
  · rw [sendSync_eq, (beside_captured ..).deferred, (memc_emitPin ..).1, State.set_memc, State.memc_upd_memc]
  · rw [get_sendSync arm (by decide) (by decide)]
    exact (State.get_set _ _ _ (by decide) (by decide)).trans (Nat.zero_mod _)
  · exact fun hrail => sent_sendSync arm (by rw [State.set_chip, State.memc_upd_chip, State.reach_chip]; exact hrail)

/-- A unit that is no master any more drops what it deferred. -/
theorem deferred_dropped {arm : Bool} {e : Wide} (hr : s.restarting 14 = false) (hrole : s.get Fd.MEMC_SYNC_CTL_ROLE ≠ 1)
    (hdef : s.memc.deferred = some arm) (hend : s.memc.pulseEnd = some e) :
    ∃ t, exec .syncPulseDeferred s = .next t ∧ s.within [.io, .memc] t ∧ s.onlyRegs [Fd.MEMC_SYNC_STAT_SEND_PEND.off] t ∧
      t.memc.deferred = none ∧ t.get Fd.MEMC_SYNC_STAT_SEND_PEND = 0 ∧ t.io.out = s.io.out :=
  ⟨_, exec_deferred_other hr hrole hdef hend, ((State.within_refl s _).memc_upd _).set _ _,
    ((State.onlyRegs_refl s _).memc_upd _).set _ _, rfl,
    (State.get_set _ _ _ (by decide) (by decide)).trans (Nat.zero_mod _), rfl⟩

/-! ## A receiver (R347) -/

/-- What a receiver that runs makes of a pulse of a width. -/
theorem exec_pulse (edge : Wide) (width : BitVec 16) (hr : s.restarting 14 = false) (hrun : s.tbas.running = true)
    (hrole : s.get Fd.MEMC_SYNC_CTL_ROLE = 0) : exec (.syncPulseRx edge width) s = .next (
      if width.toNat < 200 then if s.is Fd.MEMC_SYNC_CTL_FEN then s.takeFrame edge else s
      else if 250 ≤ width.toNat ∧ width.toNat ≤ 800 then if s.is Fd.MEMC_SYNC_CTL_ARMIN && s.capOpen then s.arm else s
      else if 1000 ≤ width.toNat then if s.is Fd.MEMC_SYNC_CTL_ARMIN && s.capOpen then s.abortCap else s
      else (s.set Fd.MEMC_SYNC_STAT_PULSE_BAD 1).count 14 Src.MEMC_SYNC_BADPULSE 0 1) := by
  change execSyncPulseRx edge width s = _
  unfold execSyncPulseRx
  rw [hr, hrun]
  simp only [Bool.not_true, Bool.or_self, Bool.false_eq_true, if_false]
  rw [if_neg (by simp [hrole])]
  split_ifs <;> rfl

theorem pulse_frame (edge : Wide) (width : BitVec 16) (hr : s.restarting 14 = false) (hrun : s.tbas.running = true)
    (hrole : s.get Fd.MEMC_SYNC_CTL_ROLE = 0) (hwidth : width.toNat < 200) (hfen : s.get Fd.MEMC_SYNC_CTL_FEN = 1) :
    ∃ t, exec (.syncPulseRx edge width) s = .next t ∧ s.within [.io, .scan, .memc] t ∧ s.onlyRegions [2, 14] t ∧
      t.wideOf 14 0x0021 = stamp edge - BitVec.ofNat 64 (s.get Fd.MEMC_SYNC_DLY_ARM_DLY) := by
  have his : s.is Fd.MEMC_SYNC_CTL_FEN = true := beq_iff_eq.mpr hfen
  exact ⟨_, by rw [exec_pulse edge width hr hrun hrole, if_pos hwidth, if_pos his], takeFrame_frame edge s⟩

theorem pulse_arm (edge : Wide) (width : BitVec 16) (hr : s.restarting 14 = false) (hrun : s.tbas.running = true)
    (hrole : s.get Fd.MEMC_SYNC_CTL_ROLE = 0) (hlo : 250 ≤ width.toNat) (hhi : width.toNat ≤ 800)
    (harmin : s.get Fd.MEMC_SYNC_CTL_ARMIN = 1) (hopen : s.capOpen = true) (hok : s.capRefusal = 0) :
    ∃ t, exec (.syncPulseRx edge width) s = .next t ∧ s.within [.io, .scan, .memc] t ∧ s.onlyRegions [2, 14] t ∧
      t.capState = capARMED := by
  have his : s.is Fd.MEMC_SYNC_CTL_ARMIN = true := beq_iff_eq.mpr harmin
  refine ⟨s.arm, ?_, within_arm (State.within_refl s _) (by decide) (by decide),
    (onlyRegs_arm (State.onlyRegs_refl s armRegs) fun _ ha => ha).regions (by decide), armed_arm hok⟩
  rw [exec_pulse edge width hr hrun hrole, if_neg (by omega), if_pos ⟨hlo, hhi⟩, his, hopen]
  rfl

theorem pulse_disarm (edge : Wide) (width : BitVec 16) (hr : s.restarting 14 = false) (hrun : s.tbas.running = true)
    (hrole : s.get Fd.MEMC_SYNC_CTL_ROLE = 0) (hlo : 1000 ≤ width.toNat) (harmin : s.get Fd.MEMC_SYNC_CTL_ARMIN = 1)
    (hopen : s.capOpen = true) (harmed : s.capState = capARMED) :
    ∃ t, exec (.syncPulseRx edge width) s = .next t ∧ s.within [.io, .scan, .memc] t ∧ s.onlyRegions [2, 14] t ∧
      t.capState = capIDLE := by
  have his : s.is Fd.MEMC_SYNC_CTL_ARMIN = true := beq_iff_eq.mpr harmin
  refine ⟨s.abortCap, ?_, within_abortCap (State.within_refl s _) (by decide) (by decide),
    (onlyRegs_abortCap (State.onlyRegs_refl s abortRegs) fun _ ha => ha).regions (by decide), idle_abortCap harmed⟩
  rw [exec_pulse edge width hr hrun hrole, if_neg (by omega), if_neg (by omega), if_pos hlo, his, hopen]
  rfl

theorem pulse_bad (edge : Wide) (width : BitVec 16) (hr : s.restarting 14 = false) (hrun : s.tbas.running = true)
    (hrole : s.get Fd.MEMC_SYNC_CTL_ROLE = 0)
    (hwidth : 200 ≤ width.toNat ∧ width.toNat < 250 ∨ 800 < width.toNat ∧ width.toNat < 1000) :
    ∃ t, exec (.syncPulseRx edge width) s = .next t ∧ s.within [.io, .scan, .memc] t ∧ s.onlyRegions [2, 14] t ∧
      t.get Fd.MEMC_SYNC_STAT_PULSE_BAD = 1 ∧ t.memc = s.memc := by
  refine ⟨(s.set Fd.MEMC_SYNC_STAT_PULSE_BAD 1).count 14 Src.MEMC_SYNC_BADPULSE 0 1, ?_,
    ((State.within_refl s _).set _ _).count _ _ _ _,
    (((State.onlyRegs_refl s [Fd.MEMC_SYNC_STAT_PULSE_BAD.off]).set _ _).count _ _ _ _).regions (by decide), ?_, rfl⟩
  · rw [exec_pulse edge width hr hrun hrole, if_neg (by omega), if_neg (by omega), if_neg (by omega)]
  · rw [State.get_count _ _ _ _ _ (by decide)]
    exact State.get_set _ _ _ (by decide) (by decide)

theorem pulse_ignored (edge : Wide) (width : BitVec 16) (h : s.get Fd.MEMC_SYNC_CTL_ROLE ≠ 0 ∨ s.tbas.running = false) :
    exec (.syncPulseRx edge width) s = .next s := by
  change execSyncPulseRx edge width s = _
  unfold execSyncPulseRx
  split
  · rfl
  next hrun =>
    rw [if_pos (h.resolve_right (by simp at hrun; simp [hrun]))]
    rfl

/-- Another unit's trigger is condition 4 (R348). -/
theorem trigger_taken (edge : Wide) {x : Sample} (hr : s.restarting 14 = false) (hrun : s.tbas.running = true)
    (hrole : s.get Fd.MEMC_SYNC_CTL_ROLE ≠ 2) (hopen : s.capOpen = true) (harmed : s.capState = capARMED)
    (hon : s.memc.condOn 4 = true) (hx : s.memc.last = some x) (hq : s.memc.opening = false ∨ s.memc.capQ = [])
    (hhit : s.memc.hit = .none) :
    ∃ t, exec (.syncTrigRx edge) s = .next t ∧ s.within [.io, .memc] t ∧
      s.onlyRegs [Fd.MEMC_CAP_TRIG_MISSED_COUNT.off, Fd.MEMC_CAP_STAT_PRIMARY.off] t ∧ t.capState = capPOST ∧
      t.get Fd.MEMC_CAP_STAT_TRIG_CAUSE = 16 ∧
      t.wideOf 14 0x0020 = stamp edge - BitVec.ofNat 64 (s.get Fd.MEMC_SYNC_DLY_TRIG_DLY) := by
  have hexec : exec (.syncTrigRx edge) s =
      .next (s.asyncTrig 4 (some (stamp edge - BitVec.ofNat 64 (s.get Fd.MEMC_SYNC_DLY_TRIG_DLY)))) := by
    change execSyncTrigRx edge s = _
    unfold execSyncTrigRx
    rw [hr, hrun]
    simp only [Bool.not_true, Bool.or_self, Bool.false_eq_true, if_false]
    rw [if_pos ⟨hrole, hopen⟩]
    rfl
  obtain ⟨hpost, hcause, -, hwide⟩ := hit_shows (i := 4)
    (at_ := some (stamp edge - BitVec.ofNat 64 (s.get Fd.MEMC_SYNC_DLY_TRIG_DLY))) (.inl rfl) harmed hon hx hq hhit
  refine ⟨_, hexec, ?_, ?_, hpost, hcause, hwide rfl _ rfl⟩
  all_goals rw [asyncTrig_armed harmed hon hx hhit]
  · exact within_trigger (State.within_refl s _) _ (by decide) (by decide)
  · exact onlyRegs_trigger (State.onlyRegs_refl s _) _ fun _ ha => ha

theorem trigger_ignored (edge : Wide) (h : s.get Fd.MEMC_SYNC_CTL_ROLE = 2 ∨ s.tbas.running = false) :
    exec (.syncTrigRx edge) s = .next s := by
  change execSyncTrigRx edge s = _
  unfold execSyncTrigRx
  split
  · rfl
  next hrun =>
    rw [if_neg]
    · rfl
    · rintro ⟨hrole, -⟩
      exact hrole (h.resolve_right (by simp at hrun; simp [hrun]))

end Sys2Proof.Machine.SyncBus

namespace Sys2Proof.Machine
open SyncBus Capture

/-- Settles O38: a pulse leaves before the capture's share in it, and each width is one case of the receiver. -/
theorem syncBusCompletes : Obligations.SyncBusCompletes := by
  unfold Obligations.SyncBusCompletes
  refine ⟨?_, ?_, ?_, ?_, ?_, ?_, ?_, ?_, ?_, ?_, ?_, ?_, ?_, ?_⟩
  · intro s h hrole hway
    obtain ⟨hw, hregs, hcmd, heq⟩ := command_clear true hrole hway
    refine ⟨_, exec_arm h, hw, hregs.mono (by decide), hcmd, ?_⟩
    rw [heq, sendSync_eq, out_captured_arm, out_emitPin]
    rfl
  · exact fun e s h hrole hway => ⟨_, exec_arm h, command_deferred true hrole hway⟩
  · intro s h hrole hway
    obtain ⟨hw, hregs, hcmd, heq⟩ := command_clear false hrole hway
    refine ⟨_, exec_disarm h, hw, hregs.mono (by decide), hcmd, fun hrail => ?_⟩
    rw [heq]
    exact sent_sendSync false hrail
  · exact fun e s h hrole hway => ⟨_, exec_disarm h, command_deferred false hrole hway⟩
  · intro s harm hdisarm hrole
    obtain ⟨hw, hregs, hout⟩ := command_other hrole true
    obtain ⟨kw, kregs, kout⟩ := command_other hrole false
    exact ⟨_, _, exec_arm harm, exec_disarm hdisarm, hw, kw, hregs, kregs, hout, kout⟩
  · intro arm e s hr hrole hdef hend htime
    exact deferred_sent hr hrole hdef hend htime
  · intro arm e s hr hrole hdef hend
    exact deferred_dropped hr hrole hdef hend
  · intro edge width s hr hrun hrole hwidth hfen
    exact pulse_frame edge width hr hrun hrole hwidth hfen
  · intro edge width s hr hrun hrole hlo hhi harmin hopen hok
    exact pulse_arm edge width hr hrun hrole hlo hhi harmin hopen hok
  · intro edge width s hr hrun hrole hlo harmin hopen harmed
    exact pulse_disarm edge width hr hrun hrole hlo harmin hopen harmed
  · intro edge width s hr hrun hrole hwidth
    exact pulse_bad edge width hr hrun hrole hwidth
  · intro edge width s h
    exact pulse_ignored edge width h
  · intro edge x s hr hrun hrole hopen harmed hon hx hq hhit
    exact trigger_taken edge hr hrun hrole hopen harmed hon hx hq hhit
  · intro edge s h
    exact trigger_ignored edge h

end Sys2Proof.Machine
end

section
/-!
SETTLES O37. The capture's commands, its samples and its export (R333 to R345).
-/
-- One thread for the lemmas: a thread for each would ask for more memory than a build may have.
set_option Elab.async false

namespace Sys2Proof.Machine.CaptureRun
open Sys2Proof.Machine Capture Rings

variable {s t : State} {f : Field} {rs qs : List ℕ} {u : List Part}

/-! ## ARM and ABORT -/

theorem exec_arm (h : s.admits .capArm = true) : exec .capArm s = .next s.arm := by
  change execCapArm s = _
  unfold execCapArm
  exact State.writeRow_admitted h

theorem exec_abort (h : s.admits .capAbort = true) : exec .capAbort s = .next s.abortCap := by
  change execCapAbort s = _
  unfold execCapAbort
  exact State.writeRow_admitted h

/-- The state with the trigger's bit cleared. -/
def heardTrig (s : State) : State := s.set Fd.MEMC_CAP_CMD_TRIG 0

theorem exec_trig (h : s.admits .capTrig = true) : exec .capTrig s = .next ((heardTrig s).asyncTrig 5 none) := by
  change execCapTrig s = _
  unfold execCapTrig
  exact State.writeRow_admitted h

/-- What the answer of an ARM shows. -/
theorem answered_shows (s : State) : (answered s).get Fd.MEMC_CAP_CMD_ARM = 0 ∧
    (answered s).get Fd.MEMC_CAP_STAT_REFUSE = s.capRefusal := by
  constructor
  · rw [answered, State.get_set_apart _ _ (by decide)]
    exact (State.get_set _ _ _ (by decide) (by decide)).trans (Nat.zero_mod _)
  · exact (State.get_set _ _ _ (by decide) (by decide)).trans (Nat.mod_eq_of_lt (capRefusal_lt s))

/-- An ARM that finds nothing against it. -/
theorem arm_opens (h : s.admits .capArm = true) (hok : s.capRefusal = 0) :
    ∃ t, exec .capArm s = .next t ∧ s.within [.io, .memc] t ∧ s.onlyRegs armRegs t ∧ t.capState = capARMED ∧
      t.get Fd.MEMC_CAP_CMD_ARM = 0 ∧
      t.get Fd.MEMC_CAP_STAT_REFUSE = 0 ∧ t.memc.segs = [{ base := 0 }] ∧ t.memc.stored = 0 ∧ t.memc.capQ = [] ∧
      t.get Fd.MEMC_CAP_SEQ_CAPSEQ = (s.get Fd.MEMC_CAP_SEQ_CAPSEQ + 1) % 2 ^ 32 := by
  obtain ⟨hcmd, hrefuse⟩ := answered_shows s
  have hmemc : s.arm.memc = opened (answered s).clampPtc.latchCap.memc := by
    rw [arm_accepted hok]
    exact State.memc_upd_memc ..
  refine ⟨_, exec_arm h, within_arm (State.within_refl s _) (by decide) (by decide),
    onlyRegs_arm (State.onlyRegs_refl s _) fun _ ha => ha, armed_arm hok, ?_, ?_, ?_, ?_, ?_, ?_⟩
  · rw [get_arm_accepted hok (by decide) (by decide) (by decide) (by decide)]
    exact hcmd
  · rw [get_arm_accepted hok (by decide) (by decide) (by decide) (by decide)]
    exact hrefuse.trans hok
  · rw [hmemc]; rfl
  · rw [hmemc]; rfl
  · rw [hmemc]; rfl
  · rw [arm_accepted hok, State.get_memc_upd, State.capTo, State.get_set_apart _ _ (by decide),
      State.get_bump _ _ _ (by decide) (by decide), State.latchCap, State.get_memc_upd, get_clampPtc (by decide) (by decide),
      answered, State.get_set_apart _ _ (by decide), State.get_set_apart _ _ (by decide)]
    rfl

/-- An ARM that is refused shows why. -/
theorem arm_refuses (h : s.admits .capArm = true) (hno : s.capRefusal ≠ 0) :
    ∃ t, exec .capArm s = .next t ∧ s.within [.io, .memc] t ∧ s.onlyRegs armRegs t ∧ t.capState = s.capState ∧
      t.get Fd.MEMC_CAP_CMD_ARM = 0 ∧ t.get Fd.MEMC_CAP_STAT_REFUSE = s.capRefusal ∧ t.memc = s.memc := by
  obtain ⟨hcmd, hrefuse⟩ := answered_shows s
  have hexec := exec_arm h
  rw [arm_refused hno] at hexec
  refine ⟨_, hexec, ((State.within_refl s _).set _ _).set _ _, ?_, ?_, hcmd, hrefuse, ?_⟩
  · have harm := onlyRegs_arm (State.onlyRegs_refl s armRegs) fun _ ha => ha
    rwa [arm_refused hno] at harm
  · rw [State.capState, answered, State.get_set_apart _ _ (by decide), State.get_set_apart _ _ (by decide)]
    rfl
  · rw [answered, State.set_memc, State.set_memc]

theorem abort_cleared (s : State) : (heard s).get Fd.MEMC_CAP_CMD_ABORT = 0 :=
  (State.get_set _ _ _ (by decide) (by decide)).trans (Nat.zero_mod _)

theorem abort_frame (s : State) : s.within [.io, .memc] s.abortCap ∧ s.onlyRegs abortRegs s.abortCap :=
  ⟨within_abortCap (State.within_refl s _) (by decide) (by decide), onlyRegs_abortCap (State.onlyRegs_refl s _) fun _ ha => ha⟩

/-- An ABORT of a capture that is armed, or exports, leaves it idle. -/
theorem abort_ends (h : s.admits .capAbort = true) (hstate : s.capState = capARMED ∨ s.capState = capEXPORT) :
    ∃ t, exec .capAbort s = .next t ∧ s.within [.io, .memc] t ∧ s.onlyRegs abortRegs t ∧
      t.capState = capIDLE ∧ t.memc.segs = [] ∧ t.get Fd.MEMC_CAP_CMD_ABORT = 0 := by
  obtain ⟨hw, hregs⟩ := abort_frame s
  refine ⟨_, exec_abort h, hw, hregs, ?_⟩
  obtain harmed | hexport := hstate
  · refine ⟨idle_abortCap harmed, ?_, ?_⟩
    · rw [abortCap_armed harmed, memc_showCapQ, State.memc_upd_memc]
    · rw [abortCap_armed harmed, State.showCapQ, State.get_set_apart _ _ (by decide), State.get_memc_upd, State.capTo,
        State.get_set_apart _ _ (by decide)]
      exact abort_cleared s
  · rw [abortCap_export hexport]
    refine ⟨?_, State.memc_upd_memc .. ▸ rfl, ?_⟩
    · exact State.get_set _ _ _ (by decide) (by decide)
    · rw [State.get_memc_upd, State.capTo, State.get_set_apart _ _ (by decide)]
      exact abort_cleared s

theorem length_onLast {α : Type} (g : α → α) (l : List α) : (onLast g l).length = l.length := by
  unfold onLast
  split
  next h => rw [List.reverse_eq_nil_iff.mp h]
  next a r h => rw [← List.length_reverse (as := l), h, List.length_reverse, List.length_cons, List.length_cons]

/-- An ABORT in POST ends the segment that is open. -/
theorem abort_post (h : s.admits .capAbort = true) (hpost : s.capState = capPOST)
    (hmore : s.memc.postFull = false ∨ s.memc.segs.length < s.memc.nseg) :
    ∃ t, exec .capAbort s = .next t ∧ s.within [.io, .memc] t ∧ s.onlyRegs abortRegs t ∧
      t.capState = capEXPORT ∧ t.memc.capQ = [] ∧
      t.memc.segs.length = s.memc.segs.length ∧ t.get Fd.MEMC_CAP_CMD_ABORT = 0 := by
  obtain ⟨hw, hregs⟩ := abort_frame s
  refine ⟨_, exec_abort h, hw, hregs, ?_⟩
  rw [abortCap_post hpost hmore]
  refine ⟨capState_beginExport _, ?_, ?_, ?_⟩
  · rw [memc_beginExport]
  · rw [memc_beginExport, State.memc_upd_memc, heard, State.set_memc]
    exact length_onLast ..
  · rw [get_beginExport (by decide) (by decide) (by decide) (by decide), State.get_memc_upd]
    exact abort_cleared s

/-- An ABORT in the cycle of the completion comes too late. -/
theorem abort_late (h : s.admits .capAbort = true) (hpost : s.capState = capPOST) (hfull : s.memc.postFull = true)
    (hlast : s.memc.nseg ≤ s.memc.segs.length) :
    ∃ t, exec .capAbort s = .next t ∧ s.within [.io] t ∧
      s.onlyRegs [Fd.MEMC_CAP_STAT_STATE.off, Fd.MEMC_CAP_CMD_ABORT.off] t ∧
      t.capState = capPOST ∧ t.get Fd.MEMC_CAP_STAT_ABORT_LATE = 1 ∧ t.get Fd.MEMC_CAP_CMD_ABORT = 0 := by
  have hexec := exec_abort h
  rw [abortCap_late hpost hfull hlast] at hexec
  refine ⟨_, hexec, ((State.within_refl s _).set _ _).set _ _, ?_, ?_, State.get_set _ _ _ (by decide) (by decide), ?_⟩
  · exact ((State.onlyRegs_refl s _).set Fd.MEMC_CAP_CMD_ABORT _).set Fd.MEMC_CAP_STAT_ABORT_LATE _ (by decide)
  · rw [State.capState, State.get_set_apart _ _ (by decide), heard, State.get_set_apart _ _ (by decide)]
    exact hpost
  · rw [State.get_set_apart _ _ (by decide)]
    exact abort_cleared s

/-- An ABORT of an idle capture clears its bit. -/
theorem abort_idle (h : s.admits .capAbort = true) (harmed : s.capState ≠ capARMED) (hpost : s.capState ≠ capPOST)
    (hexport : s.capState ≠ capEXPORT) :
    ∃ t, exec .capAbort s = .next t ∧ s.within [.io] t ∧ s.onlyRegs [Fd.MEMC_CAP_CMD_ABORT.off] t ∧
      t.get Fd.MEMC_CAP_CMD_ABORT = 0 := by
  have hexec := exec_abort h
  rw [abortCap_idle harmed hpost hexport] at hexec
  exact ⟨_, hexec, (State.within_refl s _).set _ _, (State.onlyRegs_refl s _).set _ _, abort_cleared s⟩

/-! ## The soft trigger -/

theorem capState_heardTrig (s : State) : (heardTrig s).capState = s.capState := State.get_set_apart _ _ (by decide)

theorem memc_heardTrig (s : State) : (heardTrig s).memc = s.memc := State.set_memc ..

theorem trig_cleared (s : State) : (heardTrig s).get Fd.MEMC_CAP_CMD_TRIG = 0 :=
  (State.get_set _ _ _ (by decide) (by decide)).trans (Nat.zero_mod _)

/-- The soft trigger of an armed capture starts POST. -/
theorem trig_hits {x : Sample} (h : s.admits .capTrig = true) (harmed : s.capState = capARMED) (hon : s.memc.condOn 5 = true)
    (hx : s.memc.last = some x) (hq : s.memc.opening = false ∨ s.memc.capQ = []) (hhit : s.memc.hit = .none) :
    ∃ t, exec .capTrig s = .next t ∧ s.within [.io, .memc] t ∧
      s.onlyRegs [Fd.MEMC_CAP_TRIG_MISSED_COUNT.off, Fd.MEMC_CAP_STAT_PRIMARY.off, Fd.MEMC_CAP_CMD_TRIG.off] t ∧
      t.capState = capPOST ∧ t.get Fd.MEMC_CAP_STAT_TRIG_CAUSE = 32 ∧
      t.get Fd.MEMC_CAP_STAT_PRIMARY = 5 ∧ t.get Fd.MEMC_CAP_CMD_TRIG = 0 := by
  have harmed' : (heardTrig s).capState = capARMED := (capState_heardTrig s).trans harmed
  rw [← memc_heardTrig s] at hon hx hq hhit
  obtain ⟨hpost, hcause, hprimary, -⟩ := hit_shows (i := 5) (at_ := none) (.inr rfl) harmed' hon hx hq hhit
  have heq := asyncTrig_armed (at_ := none) harmed' hon hx hhit
  have hregs : (heardTrig s).onlyRegs trigRegs ((heardTrig s).asyncTrig 5 none) := by
    rw [heq]
    exact onlyRegs_trigger (State.onlyRegs_refl _ _) _ fun _ ha => ha
  refine ⟨_, exec_trig h, ?_, ?_, hpost, hcause, hprimary, ?_⟩
  · refine State.within.trans ((State.within_refl s _).set Fd.MEMC_CAP_CMD_TRIG 0) ?_
    change (heardTrig s).within [.io, .memc] _
    rw [heq]
    exact within_trigger (State.within_refl _ _) _ (by decide) (by decide)
  · exact State.onlyRegs.trans ((State.onlyRegs_refl s _).set Fd.MEMC_CAP_CMD_TRIG 0 (by decide)) (hregs.mono (by decide))
  · exact (hregs.steady (by decide) (by decide)).trans (trig_cleared s)

/-- It waits for the first sample. -/
theorem trig_early (h : s.admits .capTrig = true) (hstate : s.capState = capARMED ∨ s.capState = capPOST)
    (hon : s.memc.condOn 5 = true) (hx : s.memc.last = none) :
    ∃ t, exec .capTrig s = .next t ∧ s.within [.io, .memc] t ∧ s.onlyRegs [Fd.MEMC_CAP_CMD_TRIG.off] t ∧
      t.memc.early = s.memc.early ++ [(5, none)] ∧ t.get Fd.MEMC_CAP_CMD_TRIG = 0 := by
  have hexec := exec_trig h
  rw [asyncTrig_early (s := heardTrig s) (by rwa [capState_heardTrig]) (by rwa [memc_heardTrig]) (by rwa [memc_heardTrig])]
      at hexec
  exact ⟨_, hexec, ((State.within_refl s _).set _ _).memc_upd _, ((State.onlyRegs_refl s _).set _ _).memc_upd _, rfl,
      trig_cleared s⟩

/-- It does nothing where its condition is off, or nothing is captured. -/
theorem trig_off (h : s.admits .capTrig = true)
    (hoff : s.capState ≠ capARMED ∧ s.capState ≠ capPOST ∨ s.memc.condOn 5 = false) :
    ∃ t, exec .capTrig s = .next t ∧ s.within [.io] t ∧ s.onlyRegs [Fd.MEMC_CAP_CMD_TRIG.off] t ∧
      t.get Fd.MEMC_CAP_CMD_TRIG = 0 := by
  have hexec := exec_trig h
  rw [asyncTrig_off (s := heardTrig s) (by rwa [capState_heardTrig, memc_heardTrig])] at hexec
  exact ⟨_, hexec, (State.within_refl s _).set _ _, (State.onlyRegs_refl s _).set _ _, trig_cleared s⟩

/-! ## Samples -/

/-- The state with the oldest sample of the FIFO taken out. -/
def taken (y : CapIn) (rest : List CapIn) (s : State) : State := s.memc' fun m => { m with fifo := rest, gap := m.gap || y.gap }

/-- The sample is written, and is the last of its sub-source. -/
def written (x : Sample) (s : State) : State :=
  (s.writeSample x).memc' fun m => { m with prev := ins m.prev x.sub x, early := [] }

theorem exec_sample {y : CapIn} {rest : List CapIn}
    (hstate : s.capState = capARMED ∨ s.capState = capPOST ∧ s.memc.postFull = false) (hretrain : s.memc.retrain = [])
    (hfifo : s.memc.fifo = y :: rest) :
    ∃ g, exec .capSample s = .next (written y.x (taken y rest s)) ∨
      exec .capSample s = .next ((written y.x (taken y rest s)).trigger g) := by
  have hruns : s.capRuns = true := by
    unfold State.capRuns
    exact decide_eq_true (hstate.imp id fun h => h.1)
  have hroom : (decide (s.capState = capPOST) && s.memc.postFull) = false := by
    obtain h | ⟨-, h⟩ := hstate
    · rw [h]; rfl
    · rw [h, Bool.and_false]
  have hexec : ∃ c g, execCapSample s =
      ok (if c = 0 then written y.x (taken y rest s) else (written y.x (taken y rest s)).trigger g) := by
    unfold execCapSample
    rw [hruns, hretrain, hroom, hfifo]
    simp only [Bool.not_true, List.isEmpty_nil, Bool.or_self, Bool.false_eq_true, if_false]
    exact ⟨_, _, rfl⟩
  obtain ⟨c, g, h⟩ := hexec
  refine ⟨g, ?_⟩
  by_cases hc : c = 0
  · rw [if_pos hc] at h
    exact .inl h
  · rw [if_neg hc] at h
    exact .inr h

theorem exec_sample_none (h : s.capRuns = false ∨ s.memc.retrain ≠ [] ∨ s.memc.fifo = [] ∨ s.capState = capPOST ∧
    s.memc.postFull = true) :
    exec .capSample s = .next s := by
  change execCapSample s = _
  unfold execCapSample
  split
  · rfl
  next hgo =>
    simp only [Bool.or_eq_true, Bool.not_eq_true', not_or, Bool.and_eq_true, decide_eq_true_eq, Bool.not_eq_false,
      List.isEmpty_eq_false_iff] at hgo
    obtain ⟨⟨hruns, hretrain⟩, hfull⟩ := hgo
    have hfifo : s.memc.fifo = [] := by
      obtain h | h | h | h := h
      · exact absurd (hruns.symm.trans h) (by decide)
      · exact absurd h hretrain
      · exact h
      · exact absurd h hfull
    rw [hfifo]
    rfl

/-- The samples that are stored and those that wait. -/
def samePast (m n : Memc) : Prop := n.stored = m.stored ∧ n.fifo = m.fifo ∧ n.last = m.last ∧ n.prev = m.prev

theorem memc_takeQueued (s : State) : samePast s.memc s.takeQueued.memc := by
  unfold State.takeQueued
  split
  · exact ⟨rfl, rfl, rfl, rfl⟩
  · rw [memc_showTrig, memc_showCapQ, State.memc_upd_memc]
    exact ⟨rfl, rfl, rfl, rfl⟩

theorem within_takeQueued (h : s.within u t) (k : .io ∈ u) (l : .memc ∈ u) : s.within u t.takeQueued := by
  unfold State.takeQueued
  split
  · exact h
  · exact within_showTrig (((h.set _ _ k).memc_upd _ l).set _ _ k) _ k

theorem onlyRegs_takeQueued (h : s.onlyRegs rs t) (k : Fd.MEMC_CAP_STAT_PRIMARY.off ∈ rs) : s.onlyRegs rs t.takeQueued := by
  unfold State.takeQueued
  split
  · exact h
  · unfold State.capTo State.showCapQ
    exact onlyRegs_showTrig (((h.set Fd.MEMC_CAP_STAT_STATE _ k).memc_upd _).set Fd.MEMC_CAP_STAT_QUEUED _ k) _ k

/-- The state in which a sample is the last one. -/
def lasted (x : Sample) (m : Memc) (s : State) : State := { s with memc := { m with last := some x, hit := .none } }

/-- A sample that is stored: in the segment that a queued trigger opens, or in the one that is open. -/
def stored (y : Sample) (s : State) : State :=
  (if s.memc.opening && decide (s.capState = capARMED) then s.takeQueued else s).memc' (Memc.putSample y)

theorem writeSample_plain {x : Sample} (h : s.capGet Fd.MEMC_CAP_BUF_RED = 0) : s.writeSample x = stored x
    (lasted x s.memc s) := by
  unfold State.writeSample
  rw [if_pos h]
  rfl

theorem writeSample_pair {x y : Sample} (h : s.capGet Fd.MEMC_CAP_BUF_RED ≠ 0) (hy : (s.memc.reduce x).2 = some y) :
    s.writeSample x = stored y (lasted x (s.memc.reduce x).1 s) := by
  unfold State.writeSample
  rw [if_neg h]
  simp only [hy]
  rfl

theorem writeSample_waits {x : Sample} (h : s.capGet Fd.MEMC_CAP_BUF_RED ≠ 0) (hy : (s.memc.reduce x).2 = none) :
    s.writeSample x = lasted x (s.memc.reduce x).1 s := by
  unfold State.writeSample
  rw [if_neg h]
  simp only [hy]
  rfl

/-- The interval of a sub-source is complete with its 2^RED-th sample (R342), and its samples stay where they are. -/
theorem reduce_facts (x : Sample) (m : Memc) :
    (m.reduce x).1.stored = m.stored ∧ (m.reduce x).1.fifo = m.fifo ∧ (m.reduce x).1.prev = m.prev ∧
      ((m.reduce x).2.isSome = true ↔ ((look m.red x.sub).map CapRed.n).getD 0 + 1 = 2 ^ m.capGet Fd.MEMC_CAP_BUF_RED) := by
  unfold Memc.reduce
  cases hr : look m.red x.sub <;> simp only [Option.map_none, Option.map_some, Option.getD_none, Option.getD_some] <;>
    split <;> simp_all

theorem stored_facts (y : Sample) (s : State) : (stored y s).memc.stored = s.memc.stored + 1 ∧ (stored y s).memc.fifo =
    s.memc.fifo ∧
    (stored y s).memc.last = s.memc.last := by
  have hput (t : State) (h : samePast s.memc t.memc) : (t.memc' (Memc.putSample y)).memc.stored = s.memc.stored + 1 ∧
      (t.memc' (Memc.putSample y)).memc.fifo = s.memc.fifo ∧ (t.memc' (Memc.putSample y)).memc.last = s.memc.last := by
    obtain ⟨hstored, hfifo, hlast, -⟩ := h
    rw [State.memc_upd_memc]
    exact ⟨congrArg (· + 1) hstored, hfifo, hlast⟩
  unfold stored
  split
  · exact hput _ (memc_takeQueued s)
  · exact hput _ ⟨rfl, rfl, rfl, rfl⟩

theorem within_lasted (h : s.within u t) (x : Sample) (m : Memc) (l : .memc ∈ u) : s.within u (lasted x m t) :=
  h.memc_upd (fun _ => { m with last := some x, hit := .none }) l

theorem within_stored (h : s.within u t) (y : Sample) (k : .io ∈ u) (l : .memc ∈ u) : s.within u (stored y t) := by
  unfold stored
  refine State.within.memc_upd ?_ _ l
  split
  · exact within_takeQueued h k l
  · exact h

theorem onlyRegs_lasted (h : s.onlyRegs rs t) (x : Sample) (m : Memc) : s.onlyRegs rs (lasted x m t) := h.of_reg fun _ => rfl

theorem onlyRegs_stored (h : s.onlyRegs rs t) (y : Sample) (k : Fd.MEMC_CAP_STAT_PRIMARY.off ∈ rs) : s.onlyRegs rs
    (stored y t) := by
  unfold stored
  refine State.onlyRegs.memc_upd ?_ _
  split
  · exact onlyRegs_takeQueued h k
  · exact h

/-- What a sample that is written leaves. -/
structure Writes (x : Sample) (n : ℕ) (s t : State) : Prop where
  within : s.within [.io, .memc] t
  regs : s.onlyRegs trigRegs t
  stored : t.memc.stored = s.memc.stored + n
  fifo : t.memc.fifo = s.memc.fifo
  last : t.memc.last = some x

theorem writes_plain {x : Sample} (h : s.capGet Fd.MEMC_CAP_BUF_RED = 0) : Writes x 1 s (s.writeSample x) := by
  rw [writeSample_plain h]
  obtain ⟨hstored, hfifo, hlast⟩ := stored_facts x (lasted x s.memc s)
  exact ⟨within_stored (within_lasted (State.within_refl s _) _ _ (by decide)) _ (by decide) (by decide),
    onlyRegs_stored (onlyRegs_lasted (State.onlyRegs_refl s _) _ _) _ (by decide), hstored, hfifo, hlast⟩

theorem writes_reduced {x : Sample} (h : s.capGet Fd.MEMC_CAP_BUF_RED ≠ 0) :
    Writes x (if ((look s.memc.red x.sub).map CapRed.n).getD 0 + 1 = 2 ^ s.capGet Fd.MEMC_CAP_BUF_RED then 1 else 0) s
      (s.writeSample x) := by
  obtain ⟨hst, hff, -, hcomplete⟩ := reduce_facts x s.memc
  rcases hy : (s.memc.reduce x).2 with _ | y
  · rw [if_neg (fun k => by have := hcomplete.mpr k; simp [hy] at this), writeSample_waits h hy]
    exact ⟨within_lasted (State.within_refl s _) _ _ (by decide), onlyRegs_lasted (State.onlyRegs_refl s _) _ _, hst, hff, rfl⟩
  · have hfull : ((look s.memc.red x.sub).map CapRed.n).getD 0 + 1 = 2 ^ s.capGet Fd.MEMC_CAP_BUF_RED := hcomplete.mp
      (by rw [hy]; rfl)
    rw [if_pos hfull, writeSample_pair h hy]
    obtain ⟨hstored, hfifo, hlast⟩ := stored_facts y (lasted x (s.memc.reduce x).1 s)
    exact ⟨within_stored (within_lasted (State.within_refl s _) _ _ (by decide)) _ (by decide) (by decide),
      onlyRegs_stored (onlyRegs_lasted (State.onlyRegs_refl s _) _ _) _ (by decide),
      hstored.trans (congrArg (· + 1) hst), hfifo.trans hff, hlast⟩

/-- One sample of the FIFO, whatever it triggers. -/
theorem sample_taken {y : CapIn} {rest : List CapIn} {n : ℕ}
    (hstate : s.capState = capARMED ∨ s.capState = capPOST ∧ s.memc.postFull = false) (hretrain : s.memc.retrain = [])
    (hfifo : s.memc.fifo = y :: rest) (hw : Writes y.x n (taken y rest s) ((taken y rest s).writeSample y.x)) :
    ∃ t, exec .capSample s = .next t ∧ s.within [.io, .memc] t ∧ s.onlyRegs trigRegs t ∧ t.memc.stored = s.memc.stored + n ∧
      t.memc.fifo = rest ∧ t.memc.last = some y.x ∧ look t.memc.prev y.x.sub = some y.x := by
  have hwritten : s.within [.io, .memc] (written y.x (taken y rest s)) :=
    (State.within.trans ((State.within_refl s _).memc_upd _) hw.within).memc_upd _
  have hregs : s.onlyRegs trigRegs (written y.x (taken y rest s)) :=
    (State.onlyRegs.trans ((State.onlyRegs_refl s _).memc_upd _) hw.regs).memc_upd _
  have hlook : look (written y.x (taken y rest s)).memc.prev y.x.sub = some y.x := by
    rw [written, State.memc_upd_memc]
    exact look_ins_same ..
  have hpast : (written y.x (taken y rest s)).memc.stored = s.memc.stored + n ∧ (written y.x (taken y rest s)).memc.fifo =
      rest ∧
      (written y.x (taken y rest s)).memc.last = some y.x := by
    rw [written, State.memc_upd_memc]
    exact ⟨hw.stored, hw.fifo, hw.last⟩
  obtain ⟨hst, hff, hla⟩ := hpast
  obtain ⟨g, h | h⟩ := exec_sample hstate hretrain hfifo
  · exact ⟨_, h, hwritten, hregs, hst, hff, hla, hlook⟩
  · obtain ⟨kst, kff, kla, kprev⟩ := memc_trigger (written y.x (taken y rest s)) g
    refine ⟨_, h, within_trigger hwritten g (by decide) (by decide), onlyRegs_trigger hregs g fun _ ha => ha, kst.trans hst,
      kff.trans hff, kla.trans hla, ?_⟩
    rw [kprev]
    exact hlook

/-! ## The end of POST -/

theorem post_next (hpost : s.capState = capPOST) (hfull : s.memc.postFull = true) (hmore : s.memc.segs.length < s.memc.nseg) :
    ∃ t, exec .capPostEnd s = .next t ∧ s.within [.io, .memc] t ∧
      s.onlyRegs [Fd.MEMC_CAP_TRIG_MISSED_COUNT.off, Fd.MEMC_CAP_STAT_STATE.off] t ∧ t.capState = capARMED ∧
      t.memc.segs = s.memc.segs ++ [{ base := s.memc.stored }] := by
  have hexec : exec .capPostEnd s = .next ((s.capTo capARMED).memc' fun m =>
      { m with segs := m.segs ++ [{ base := m.stored }], last := none, hit := .none }) := by
    change execCapPostEnd s = _
    unfold execCapPostEnd
    rw [if_pos ⟨hpost, hfull⟩, if_pos hmore]
    rfl
  exact ⟨_, hexec, ((State.within_refl s _).set _ _).memc_upd _, ((State.onlyRegs_refl s _).set _ _).memc_upd _,
    State.get_set _ _ _ (by decide) (by decide), rfl⟩

theorem post_exports (hpost : s.capState = capPOST) (hfull : s.memc.postFull = true)
    (hlast : s.memc.nseg ≤ s.memc.segs.length) :
    ∃ t, exec .capPostEnd s = .next t ∧ s.within [.io, .memc] t ∧
      s.onlyRegs [Fd.MEMC_CAP_TRIG_MISSED_COUNT.off, Fd.MEMC_CAP_STAT_STATE.off] t ∧ t.capState = capEXPORT ∧
      t.memc.segs = s.memc.segs ∧ t.memc.expSeg = 0 ∧ t.memc.expAt = none := by
  have hexec : exec .capPostEnd s = .next s.beginExport := by
    change execCapPostEnd s = _
    unfold execCapPostEnd
    rw [if_pos ⟨hpost, hfull⟩, if_neg (by omega)]
    rfl
  refine ⟨_, hexec, within_beginExport (State.within_refl s _) (by decide) (by decide),
    onlyRegs_beginExport (State.onlyRegs_refl s _) (by decide) (by decide), capState_beginExport s, ?_⟩
  rw [memc_beginExport]
  exact ⟨rfl, rfl, rfl⟩

/-! ## The export (R341, R343) -/

/-- With nothing staged the export traffic only takes its tokens. -/
def drained (s : State) : State := s.fillTokens.showStage

theorem drainStage_empty (h : s.host.staged = []) : s.drainStage = drained s := by
  have hstaged : s.fillTokens.host.staged = [] := h
  unfold State.drainStage
  simp only
  rw [hstaged]
  rfl

theorem within_drained (s : State) : s.within [.io, .host] (drained s) := ((State.within_refl s _).host_upd _).set _ _

theorem onlyRegs_drained (s : State) : s.onlyRegs [Fd.HOST_EXP_STAT_FILL.off] (drained s) :=
  ((State.onlyRegs_refl s _).host_upd _).set _ _

theorem memc_drained (s : State) : (drained s).memc = s.memc := State.set_memc ..

theorem get_drained (h : f.off ≠ Fd.HOST_EXP_STAT_FILL.off) (s : State) : (drained s).get f = s.get f := State.get_set_off _ _ h

theorem ring_drained (s : State) (r : ℕ) : (drained s).ring r = s.ring r := rfl

theorem is_drained (h : f.off ≠ Fd.HOST_EXP_STAT_FILL.off) (s : State) : (drained s).is f = s.is f :=
  congrArg (· == 1) (get_drained h s)

theorem io_drained (s : State) : (drained s).io.recovery = s.io.recovery ∧ (drained s).io.heldBytes = s.io.heldBytes ∧
    (drained s).io.tick = s.io.tick := ⟨rfl, rfl, rfl⟩

theorem ringRoom_drained (sizes : List ℕ) (s : State) : (drained s).ringRoom 12 sizes = s.ringRoom 12 sizes := by
  obtain ⟨hrec, hheld, htick⟩ := io_drained s
  have hstate : (drained s).ringState 12 = s.ringState 12 := get_drained (by decide) s
  have hprob : (drained s).get (Fd.PERTURB_BP_PROB 13) = s.get (Fd.PERTURB_BP_PROB 13) := get_drained (by decide) s
  have hsel : (drained s).get (Fd.PERTURB_BP_QSEL 13) = s.get (Fd.PERTURB_BP_QSEL 13) := get_drained (by decide) s
  have hseed : (drained s).get (Fd.PERTURB_SEED_SEED 13) = s.get (Fd.PERTURB_SEED_SEED 13) := get_drained (by decide) s
  have hfull (n : ℕ) : (drained s).heldFull n = s.heldFull n := by unfold State.heldFull; rw [hrec, hheld]
  have hrefuses : (drained s).refuses 13 12 = s.refuses 13 12 := by unfold State.refuses; rw [hprob, hsel, hseed, htick]
  unfold State.ringRoom
  rw [ring_drained, hstate, hfull, hrefuses]

theorem capSummary_drained (g : ℕ) (z : CapSeg) (s : State) : (drained s).capSummary g z = s.capSummary g z := by
  unfold State.capSummary
  rw [memc_drained, is_drained (by decide), is_drained (by decide), get_drained (by decide)]

theorem capData_drained (g k : ℕ) (z : CapSeg) (s : State) : (drained s).capData g k z = s.capData g k z := by
  unfold State.capData
  rw [memc_drained, get_drained (by decide)]

/-- The export of a segment's summary. -/
theorem exec_summary {z : CapSeg} (hstate : s.capState = capEXPORT) (hretrain : s.memc.retrain = [])
    (hstaged : s.host.staged = [])
    (hz : s.memc.segs[s.memc.expSeg]? = some z) (hat : s.memc.expAt = none) :
    exec .capExportRecord s = .next (if s.ringRoom 12 [(s.capSummary s.memc.expSeg z).length]
      then ((drained s).putItem 12 [s.capSummary s.memc.expSeg z]).nextRecord 0 z else drained s) := by
  change execCapExportRecord s = _
  unfold execCapExportRecord
  rw [if_neg (by simp [hstate, hretrain]), drainStage_empty hstaged]
  simp only
  rw [memc_drained, hz, hat]
  simp only
  rw [capSummary_drained, ringRoom_drained]
  rfl

/-- The export of a part of its samples. -/
theorem exec_data {z : CapSeg} {k : ℕ} (hstate : s.capState = capEXPORT) (hretrain : s.memc.retrain = [])
    (hstaged : s.host.staged = []) (hz : s.memc.segs[s.memc.expSeg]? = some z) (hat : s.memc.expAt = some k)
    (hroom : s.ringRoom 12 [(s.capData s.memc.expSeg k z).1.length] = true) :
    exec .capExportRecord s = .next ((((drained s).putItem 12 [(s.capData s.memc.expSeg k z).1]).onlyIf
      (s.capData s.memc.expSeg k z).2.2 fun s => s.count 14 Src.MEMC_CAP_GAP 0 1).nextRecord
        (k + max (s.capData s.memc.expSeg k z).2.1 1) z) := by
  change execCapExportRecord s = _
  unfold execCapExportRecord
  rw [if_neg (by simp [hstate, hretrain]), drainStage_empty hstaged]
  simp only
  rw [memc_drained, hz, hat]
  simp only
  rw [capData_drained, ringRoom_drained, if_pos hroom]
  rfl

theorem memc_of_within (h : s.within [.io, .host] t) : t.memc = s.memc := by
  obtain ⟨-, -, -, -, -, -, -, -, -, -, hmemc, -⟩ := h
  exact hmemc (by decide)

theorem within_nextRecord (h : s.within [.io, .host, .memc] t) (k : ℕ) (z : CapSeg) : s.within [.io, .host, .memc]
    (t.nextRecord k z) := by
  unfold State.nextRecord
  simp only
  split
  · exact h.memc_upd _
  · split
    · exact h.memc_upd _
    · exact ((h.memc_upd _).set _ _).memc_upd _

theorem onlyRegions_memc (h : s.onlyRegions qs t) (g : Memc → Memc) : s.onlyRegions qs (t.memc' g) := h.of_reg fun _ => rfl

theorem onlyRegions_nextRecord (h : s.onlyRegions [13, 14] t) (k : ℕ) (z : CapSeg) : s.onlyRegions [13, 14]
    (t.nextRecord k z) := by
  unfold State.nextRecord
  simp only
  split
  · exact onlyRegions_memc h _
  · split
    · exact onlyRegions_memc h _
    · unfold State.capTo
      exact onlyRegions_memc ((onlyRegions_memc h _).set _ _ (by decide)) _

theorem nextRecord_more {k : ℕ} {z : CapSeg} (h : k < (s.memc.kept z).length) :
    s.nextRecord k z = s.memc' fun m => { m with expAt := some k } := if_pos h

theorem ring_nextRecord (k r : ℕ) (z : CapSeg) (s : State) : (s.nextRecord k z).ring r = s.ring r := by
  unfold State.nextRecord
  simp only
  split
  · rfl
  · split <;> rfl

/-- The registers of the record placed are those of HOST. -/
theorem drained_regions (s : State) : s.onlyRegions [13, 14] (drained s) := (onlyRegs_drained s).regions (by decide)

/-- A summary that fits enters ring 12. -/
theorem summary_placed {z : CapSeg} {d : Desc} {rest : List Desc} (hstate : s.capState = capEXPORT)
    (hretrain : s.memc.retrain = [])
    (hstaged : s.host.staged = []) (hz : s.memc.segs[s.memc.expSeg]? = some z) (hat : s.memc.expAt = none)
    (hroom : s.ringRoom 12 [(s.capSummary s.memc.expSeg z).length] = true) (hd : (s.ring 12).descs = d :: rest)
    (hfit : (s.ring 12).data.length + (s.capSummary s.memc.expSeg z).length ≤ d.size) :
    ∃ t, exec .capExportRecord s = .next t ∧ s.within [.io, .host, .memc] t ∧ s.onlyRegions [13, 14] t ∧
      (t.ring 12).data = (s.ring 12).data ++ s.capSummary s.memc.expSeg z ∧
      (s.memc.kept z ≠ [] → t.memc.expAt = some 0 ∧ t.memc.expSeg = s.memc.expSeg) := by
  have hput : (drained s).putItem 12 [s.capSummary s.memc.expSeg z] =
      (drained s).enterRecord 12 true (s.capSummary s.memc.expSeg z) := by
    rw [putItem_single, putRecord_fits (s := drained s) hd hfit]
  have hexec := exec_summary hstate hretrain hstaged hz hat
  rw [if_pos hroom, hput] at hexec
  have hw := within_enterRecord (within_drained s) 12 true (s.capSummary s.memc.expSeg z) (by decide) (by decide)
  refine ⟨_, hexec, within_nextRecord (hw.mono (by decide)) _ _,
    onlyRegions_nextRecord (onlyRegions_enterRecord (drained_regions s) _ _ _) _ _, ?_, fun hkept => ?_⟩
  · rw [ring_nextRecord, (enterRecord_facts ..).2.1, ring_drained]
  · have hmemc := memc_of_within hw
    rw [nextRecord_more (by rw [hmemc]; exact List.length_pos_of_ne_nil hkept), State.memc_upd_memc, hmemc]
    exact ⟨rfl, rfl⟩

/-- The next part of a segment's samples. -/
theorem data_placed {z : CapSeg} {k : ℕ} (hstate : s.capState = capEXPORT) (hretrain : s.memc.retrain = [])
    (hstaged : s.host.staged = []) (hz : s.memc.segs[s.memc.expSeg]? = some z) (hat : s.memc.expAt = some k)
    (hroom : s.ringRoom 12 [(s.capData s.memc.expSeg k z).1.length] = true)
    (hmore : k + max (s.capData s.memc.expSeg k z).2.1 1 < (s.memc.kept z).length) :
    ∃ t, exec .capExportRecord s = .next t ∧ s.within [.io, .host, .memc] t ∧ s.onlyRegions [13, 14] t ∧
      t.memc.expSeg = s.memc.expSeg ∧ t.memc.expAt = some (k + max (s.capData s.memc.expSeg k z).2.1 1) := by
  have hput := within_putRecord (within_drained s) 12 true (s.capData s.memc.expSeg k z).1 (by decide) (by decide)
  have hw : s.within [.io, .host] (((drained s).putItem 12 [(s.capData s.memc.expSeg k z).1]).onlyIf
      (s.capData s.memc.expSeg k z).2.2 fun s => s.count 14 Src.MEMC_CAP_GAP 0 1) :=
    State.within.onlyIf hput (hput.count _ _ _ _)
  have hregions := onlyRegions_putRecord (drained_regions s) (r := 12) (by decide) true (s.capData s.memc.expSeg k z).1
      (by decide)
  have hregs : s.onlyRegions [13, 14] (((drained s).putItem 12 [(s.capData s.memc.expSeg k z).1]).onlyIf
      (s.capData s.memc.expSeg k z).2.2 fun s => s.count 14 Src.MEMC_CAP_GAP 0 1) := by
    unfold State.onlyIf
    split
    · exact onlyRegions_count hregions _ _ _ _
    · exact hregions
  refine ⟨_, exec_data hstate hretrain hstaged hz hat hroom, within_nextRecord (hw.mono (by decide)) _ _,
    onlyRegions_nextRecord hregs _ _, ?_⟩
  rw [nextRecord_more (by rw [memc_of_within hw]; exact hmore), State.memc_upd_memc, memc_of_within hw]
  exact ⟨rfl, rfl⟩

/-- Without room the record waits. -/
theorem record_waits {z : CapSeg} (hstate : s.capState = capEXPORT) (hretrain : s.memc.retrain = [])
    (hstaged : s.host.staged = []) (hz : s.memc.segs[s.memc.expSeg]? = some z) (hat : s.memc.expAt = none)
    (hroom : s.ringRoom 12 [(s.capSummary s.memc.expSeg z).length] = false) :
    ∃ t, exec .capExportRecord s = .next t ∧ s.within [.io, .host] t ∧ s.onlyRegs [Fd.HOST_EXP_STAT_FILL.off] t := by
  have hexec := exec_summary hstate hretrain hstaged hz hat
  rw [if_neg (by simp [hroom])] at hexec
  exact ⟨_, hexec, within_drained s, onlyRegs_drained s⟩

theorem record_none (h : s.capState ≠ capEXPORT ∨ s.memc.retrain ≠ []) : exec .capExportRecord s = .next s := by
  change execCapExportRecord s = _
  unfold execCapExportRecord
  rw [if_pos (h.imp id fun h => by simpa using h)]
  rfl

end Sys2Proof.Machine.CaptureRun

namespace Sys2Proof.Machine
open CaptureRun Capture

/-- Settles O37: each command is one case of the capture's state, a sample that is taken is written whatever it triggers, and an export
record enters ring 12 where it fits. -/
theorem captureCompletes : Obligations.CaptureCompletes := by
  unfold Obligations.CaptureCompletes
  refine ⟨?_, ?_, ?_, ?_, ?_, ?_, ?_, ?_, ?_, ?_, ?_, ?_, ?_, ?_, ?_, ?_, ?_, ?_⟩
  · exact fun s h hok => arm_opens h hok
  · exact fun s h hno => arm_refuses h hno
  · exact fun s h hstate => abort_ends h hstate
  · exact fun s h hpost hmore => abort_post h hpost hmore
  · exact fun s h hpost hfull hlast => abort_late h hpost hfull hlast
  · exact fun s h harmed hpost hexport => abort_idle h harmed hpost hexport
  · exact fun x s h harmed hon hx hq hhit => trig_hits h harmed hon hx hq hhit
  · exact fun s h hstate hon hx => trig_early h hstate hon hx
  · exact fun s h hoff => trig_off h hoff
  · exact fun y rest s hstate hretrain hfifo hred => sample_taken hstate hretrain hfifo (writes_plain hred)
  · intro y rest s hstate hretrain hfifo hred
    obtain ⟨t, hexec, hw, hregs, hstored, hff, hlast, hprev⟩ := sample_taken hstate hretrain hfifo
      (writes_reduced (s := taken y rest s) (x := y.x) hred)
    exact ⟨t, hexec, hw, hregs, hff, hlast, hprev, hstored⟩
  · exact fun s h => exec_sample_none h
  · exact fun s hpost hfull hmore => post_next hpost hfull hmore
  · exact fun s hpost hfull hlast => post_exports hpost hfull hlast
  · exact fun z d rest s hstate hretrain hstaged hz hat hroom hd hfit => summary_placed hstate hretrain hstaged hz hat hroom
      hd hfit
  · exact fun z k s hstate hretrain hstaged hz hat hroom hmore => data_placed hstate hretrain hstaged hz hat hroom hmore
  · exact fun z s hstate hretrain hstaged hz hat hroom => record_waits hstate hretrain hstaged hz hat hroom
  · exact fun s h => record_none h

end Sys2Proof.Machine
end

section
/-!
SETTLES O33. The buffers of the DMA rings: POST, FLUSH, a descriptor read, a record, the idle and the interrupt timer
    (R299 to R312).
-/
-- One thread for the lemmas: a thread for each would ask for more memory than a build may have.
set_option Elab.async false

namespace Sys2Proof.Machine.RingBuffers
open Sys2Proof.Machine Rings

variable {s t : State} {f : Field} {rs qs : List ℕ} {r : Fin 14}

/-! ## The doorbells -/

/-- A POST that the ring takes: no more than it has room for, and not behind the last one. -/
abbrev postGood (r : Fin 14) (post : Word) (s : State) : Prop :=
  (post - s.reg (Fd.HOST_RING_DONE_DONE r).off).toNat ≤ 2 ^ (s.ring r).dsz ∧
    (post - s.reg (Fd.HOST_RING_POST_POST r).off).toNat < 2 ^ 31

theorem exec_post (post : Word) (h : s.admits (.doorbellPost r post) = true) (hon : s.ringState r ≠ rOFF) :
    (postGood r post s → exec (.doorbellPost r post) s = .next (s.set (Fd.HOST_RING_POST_POST r) post.toNat)) ∧
      (¬postGood r post s → exec (.doorbellPost r post) s = .next ((s.set (Fd.HOST_RING_STAT_RING_ERR r) 1).err
        { level := 0, region := 13, block := 2, code := 0x0D81, cell := r })) := by
  change (_ → execDoorbellPost r post s = _) ∧ (_ → execDoorbellPost r post s = _)
  unfold execDoorbellPost
  rw [State.writeBy_admitted h, if_neg hon]
  exact ⟨fun h => if_pos h, fun h => if_neg h⟩

theorem exec_post_off (post : Word) (h : s.admits (.doorbellPost r post) = true) (hoff : s.ringState r = rOFF) :
    exec (.doorbellPost r post) s = .next s := by
  change execDoorbellPost r post s = _
  unfold execDoorbellPost
  rw [State.writeBy_admitted h, if_pos hoff]
  rfl

theorem steady_post (r : Fin 14) : (Fd.HOST_RING_POST_POST r).steady = true ∧ (Fd.HOST_RING_STAT_RING_ERR r).steady = true := by
  revert r
  decide

/-- A good POST is taken, and a bad one shown. -/
theorem post_taken (post : Word) (h : s.admits (.doorbellPost r post) = true) (hon : s.ringState r ≠ rOFF) :
    ∃ t, exec (.doorbellPost r post) s = .next t ∧ s.within [.io] t ∧
      s.onlyRegs [(Fd.HOST_RING_POST_POST r).off, (Fd.HOST_RING_STAT_RING_ERR r).off] t ∧
      if (post - s.reg (Fd.HOST_RING_DONE_DONE r).off).toNat ≤ 2 ^ (s.ring r).dsz ∧
          (post - s.reg (Fd.HOST_RING_POST_POST r).off).toNat < 2 ^ 31 then
        t.get (Fd.HOST_RING_POST_POST r) = post.toNat
      else t.get (Fd.HOST_RING_POST_POST r) = s.get (Fd.HOST_RING_POST_POST r) ∧ t.get (Fd.HOST_RING_STAT_RING_ERR r) = 1 := by
  obtain ⟨hgood, hbad⟩ := exec_post post h hon
  obtain ⟨hpost, herr⟩ := steady_post r
  by_cases hc : postGood r post s
  · refine ⟨_, hgood hc, (State.within_refl s _).set _ _, (State.onlyRegs_refl s _).set _ _, ?_⟩
    rw [if_pos hc]
    exact (State.get_set _ _ _ (by simp [Fd.HOST_RING_POST_POST]) (by simp [Fd.HOST_RING_POST_POST])).trans
      (Nat.mod_eq_of_lt post.isLt)
  · refine ⟨_, hbad hc, ((State.within_refl s _).set _ _).err _, ((State.onlyRegs_refl s _).set _ _).err _, ?_⟩
    rw [if_neg hc]
    refine ⟨?_, ?_⟩
    · rw [State.get_err _ _ hpost]
      exact State.get_set_off _ _ (by simp [Fd.HOST_RING_POST_POST, Fd.HOST_RING_STAT_RING_ERR])
    · rw [State.get_err _ _ herr]
      exact State.get_set _ _ _ (by simp [Fd.HOST_RING_STAT_RING_ERR]) (by simp [Fd.HOST_RING_STAT_RING_ERR])

theorem exec_flush (next : BitVec 21) (h : s.admits (.flushDoorbell r next) = true) :
    exec (.flushDoorbell r next) s =
      .next (if s.ringState r = rRUN then s.closeBuffer r (stFLUSH ||| s.fullToo r next.toNat) else s) := by
  change execFlushDoorbell r next s = _
  unfold execFlushDoorbell
  rw [State.writeBy_admitted h]
  split <;> rfl

theorem fullToo_eq {d : Desc} {rest : List Desc} (hd : (s.ring r).descs = d :: rest) (n : ℕ) :
    s.fullToo r n = if n ≠ 0 ∧ d.size < (s.ring r).data.length + n then stFULL else 0 := by
  unfold State.fullToo
  rw [hd]

theorem within_close (h : s.within [.io, .host] t) (why : ℕ) : s.within [.io, .host] (t.closeBuffer r why) :=
  within_closeBuffer h _ _ (by decide) (by decide)

theorem regions_close (h : s.onlyRegions [13] t) (why : ℕ) : s.onlyRegions [13] (t.closeBuffer r why) :=
  onlyRegions_closeBuffer h r.isLt _ (by decide)

/-- A FLUSH completes the current buffer. -/
theorem flush_completes (next : BitVec 21) {d : Desc} {rest : List Desc} (h : s.admits (.flushDoorbell r next) = true)
    (hrun : s.ringState r = rRUN) (hd : (s.ring r).descs = d :: rest) (hdata : (s.ring r).data ≠ []) :
    ∃ t, exec (.flushDoorbell r next) s = .next t ∧ s.within [.io, .host] t ∧ s.onlyRegions [13] t ∧
      (t.ring r).descs = rest ∧ (t.ring r).data = [] ∧
      s.wroteBack r (stFLUSH ||| if next ≠ 0 ∧ d.size < (s.ring r).data.length + next.toNat then stFULL else 0) t := by
  have hnext : next.toNat ≠ 0 ↔ next ≠ 0 := by
    rw [not_iff_not]
    exact ⟨fun h => BitVec.eq_of_toNat_eq h, fun h => by rw [h]; rfl⟩
  have hexec := exec_flush next h
  rw [if_pos hrun, fullToo_eq hd] at hexec
  simp only [hnext] at hexec
  exact ⟨_, hexec, within_close (State.within_refl s _) _, regions_close (State.onlyRegions_refl s _) _,
    closeBuffer_wroteBack r hd hdata _⟩

/-- Where there is nothing to complete it does nothing. -/
theorem flush_nothing (next : BitVec 21) (h : s.admits (.flushDoorbell r next) = true)
    (hoff : s.ringState r ≠ rRUN ∨ (s.ring r).data = []) : exec (.flushDoorbell r next) s = .next s := by
  rw [exec_flush next h]
  split
  next hrun => rw [closeBuffer_empty (.inr (hoff.resolve_left (by simp [hrun])))]
  next => rfl

/-! ## Records and the idle timer -/

/-- A record that fits is written at its place in the buffer. -/
theorem record_placed (first : Bool) (b : List Byte) {d : Desc} {rest : List Desc} (hd : (s.ring r).descs = d :: rest)
    (hfit : (s.ring r).data.length + b.length ≤ d.size) :
    let t := (s.putRecord r first b).1
    s.within [.io, .host] t ∧ t.io.regs = s.io.regs ∧ (t.ring r).data = (s.ring r).data ++ b ∧ (t.ring r).descs = d :: rest ∧
      Out.dma r (d.addr + BitVec.ofNat 64 (s.ring r).data.length) (s.is (Fd.CFG_DEV_ERO false)) s.mps b ∈ t.io.held ++
          t.io.out := by
  intro t
  have ht : t = s.enterRecord r first b := congrArg Prod.fst (putRecord_fits hd hfit first)
  obtain ⟨hregs, hdata, hdescs, hsent⟩ := enterRecord_facts r first b s
  rw [ht]
  refine ⟨within_enterRecord (State.within_refl s _) _ _ _ (by decide) (by decide), hregs, hdata, hdescs.trans hd, ?_⟩
  rw [hd] at hsent
  exact hsent

theorem ring_clockReach (w : Wide) (s : State) (q : ℕ) : (s.clockReach w).ring q = s.ring q := by
  unfold State.clockReach
  split <;> rfl

/-- A buffer with data that has been idle completes. -/
theorem idle_completes {d : Desc} {rest : List Desc} (hrun : s.ringState r = rRUN) (hd : (s.ring r).descs = d :: rest)
    (hdata : (s.ring r).data ≠ []) (hidle : s.get (Fd.HOST_RING_CTL_IDLE r) ≠ 0) (hclock : s.clockOk (s.idleAt r) = true) :
    ∃ t, exec (.bufferIdleClose r) s = .next t ∧ s.within [.io, .host] t ∧ s.onlyRegions [13] t ∧ (t.ring r).descs = rest ∧
      (t.ring r).data = [] ∧ (s.clockReach (s.idleAt r)).wroteBack r stIDLE t := by
  have hexec : exec (.bufferIdleClose r) s = .next ((s.clockReach (s.idleAt r)).closeBuffer r stIDLE) := by
    change execBufferIdleClose r s = _
    unfold execBufferIdleClose
    rw [if_pos ⟨hrun, by simpa using hdata, hidle, hclock⟩]
    rfl
  exact ⟨_, hexec, within_close ((State.within_refl s _).clockReach _) _,
    regions_close (onlyRegions_clockReach (State.onlyRegions_refl s _) _) _,
    closeBuffer_wroteBack r ((congrArg Ring.descs (ring_clockReach ..)).trans hd) (by rw [ring_clockReach]; exact hdata) _⟩

/-! ## An interrupt's cause bit stays (R311) -/

/-- The cause bit of source i is set. -/
def caused (i : ℕ) (x : Io) : Prop := x.get (causeBit i) = 1

theorem off_cause (i : ℕ) : (causeBit i).off = 0x01A10020 ∨ (causeBit i).off = 0x01A10024 := by
  unfold causeBit
  split
  · exact .inl rfl
  · exact .inr rfl

theorem caused_set_other {i : ℕ} {x : Io} (h : caused i x) (g : Field) (n : ℕ) (hg : g.off ≠ 0x01A10020 ∧ g.off ≠ 0x01A10024) :
    caused i (x.set g n) := by
  refine (Io.get_set_off x n ?_).trans h
  obtain ho | ho := off_cause i <;> rw [ho]
  · exact hg.1.symm
  · exact hg.2.symm

theorem get_cause_set (i : ℕ) (x : Io) : caused i (x.set (causeBit i) 1) :=
  Io.get_set x _ 1 (by simp [causeBit]) (by simp only [causeBit]; omega) |>.trans (by simp [causeBit])

theorem caused_set_cause {i : ℕ} {x : Io} (h : caused i x) (j : ℕ) : caused i (x.set (causeBit j) 1) := by
  by_cases hoff : (causeBit i).off = (causeBit j).off
  · by_cases hbit : i % 32 = j % 32
    · have hsame : causeBit i = causeBit j := by
        have hoff' : (if i < 32 then 0x01A10020 else 0x01A10024) = (if j < 32 then 0x01A10020 else 0x01A10024) := hoff
        unfold causeBit
        rw [hoff', hbit]
      unfold caused
      rw [hsame]
      exact get_cause_set j x
    · exact (Io.get_set_bits x 1 (by simp [causeBit]) (by simp only [causeBit]; omega) (by simp [causeBit])
        (by simp only [causeBit]; omega)).trans h
  · exact (Io.get_set_off x 1 hoff).trans h

theorem caused_tillStep {i : ℕ} {x : Io} (h : caused i x) (q t n : ℕ) : caused i (x.tillStep q t n).1 := by
  unfold Io.tillStep
  simp only
  split
  · exact h
  · refine caused_set_other (x := x.setWide _ _ _) h _ _ ?_
    split <;> simp only [Field.bit, Fd.TILL_OVF_LO_OVF, Fd.TILL_OVF_HI_OVF] <;> omega

theorem caused_tillFeed {i : ℕ} {y : Io × List ℕ} (h : caused i y.1) (a q c j n t : ℕ) : caused i
    (Io.tillFeed a q c j n y t).1 := by
  unfold Io.tillFeed
  split
  · exact caused_tillStep h _ _ _
  · exact h

theorem caused_countOnly {i : ℕ} {x : Io} (h : caused i x) (q c j n : ℕ) : caused i (x.countOnly q c j n).1 := by
  have hfeed (a : ℕ) (l : List ℕ) (y : Io × List ℕ) (hy : caused i y.1) : caused i (l.foldl (Io.tillFeed a q c j n) y).1 :=
    foldl_keeps (fun y : Io × List ℕ => caused i y.1) _ (fun y t h => caused_tillFeed h _ _ _ _ _ _) _ _ hy
  unfold Io.countOnly
  split
  · exact h
  · refine hfeed _ _ _ ?_
    split
    · exact h
    · exact hfeed _ _ _ h

theorem caused_post {i : ℕ} {x : Io} (h : caused i x) (n : ℕ) (o : Out) : caused i (x.post n o) := by
  unfold Io.post
  split <;> exact h

theorem caused_message {i : ℕ} {x : Io} (h : caused i x) (b : Bool) (v : ℕ) : caused i (x.message b v).1 := by
  unfold Io.message
  split
  · refine caused_set_other h _ _ ?_
    unfold msixPend
    split <;> simp only [Field.bit, Fd.PF0_PBA_PEND, Fd.PF1_PBA_PEND] <;> omega
  · exact caused_post (caused_countOnly h 13 Src.HOST_MSIX_SENT 0 1) 4 (.msix b v)

theorem caused_sendIrq {i : ℕ} {x : Io} (h : caused i x) (n : ℕ) : caused i (x.sendIrq n).1 := by
  unfold Io.sendIrq
  split
  · exact caused_message h _ _
  · exact h

theorem caused_irqOnce {i : ℕ} {x : Io} (h : caused i x) (n : ℕ) : caused i (x.irqOnce n).1 := by
  unfold Io.irqOnce
  split
  · exact h
  · exact caused_sendIrq (caused_set_cause h n) n

/-- An interrupt leaves its own cause bit set. -/
theorem caused_own (i : ℕ) (x : Io) : caused i (x.irqOnce i).1 := by
  unfold Io.irqOnce
  split
  next h => exact h
  next => exact caused_sendIrq (get_cause_set i x) i

theorem caused_settle {i : ℕ} {y : Io × List ℕ} (h : caused i y.1) : caused i (Io.settleIrq y) := by
  unfold Io.settleIrq
  exact foldl_keeps (caused i) _ (fun y q h => caused_irqOnce h _) _ _ h

theorem caused_irq {i : ℕ} {x : Io} (h : caused i x) (n : ℕ) : caused i (x.irq n) := caused_settle (caused_irqOnce h n)

theorem irq_causes (i : ℕ) (x : Io) : caused i (x.irq i) := caused_settle (caused_own i x)

/-- The timer of the completions ends their count with the ring's interrupt. -/
theorem timer_ends (hcoal : (s.ring r).coal ≠ 0) (htime : s.get (Fd.HOST_RING_COAL_T r) ≠ 0)
    (hclock : s.clockOk ((s.ring r).coalAt + usTicks (s.get (Fd.HOST_RING_COAL_T r))) = true) :
    ∃ t, exec (.coalTimer r) s = .next t ∧ s.within [.io, .host] t ∧ s.onlyRegs [] t ∧ (t.ring r).coal = 0 ∧
      t.get (causeBit r) = 1 := by
  have hexec : exec (.coalTimer r) s = .next (((s.clockReach ((s.ring r).coalAt + usTicks
      (s.get (Fd.HOST_RING_COAL_T r)))).ring' r
      fun x => { x with coal := 0 }).irq r) := by
    change execCoalTimer r s = _
    unfold execCoalTimer
    simp only
    rw [if_pos ⟨hcoal, htime, hclock⟩]
    rfl
  refine ⟨_, hexec, (within_ring ((State.within_refl s _).clockReach _) _ _ (by decide)).irq _,
    State.onlyRegs.irq (State.onlyRegs.of_reg ((State.onlyRegs_refl s _).clockReach _) fun _ => rfl) _, ?_, irq_causes ..⟩
  rw [ring_irq, ring_ring_same]

/-! ## A descriptor read (R301, R302, R309) -/

/-- The state once the read has left. -/
def asked (r : Fin 14) (s : State) : State :=
  s.post 32 (.descRead r ((s.get (Fd.HOST_RING_DONE_DONE r) + (s.ring r).descs.length) % 2 ^ (s.ring r).dsz)
    ((s.ring r).base + BitVec.ofNat 64 (32 * ((s.get (Fd.HOST_RING_DONE_DONE r) + (s.ring r).descs.length) % 2 ^
        (s.ring r).dsz))))

theorem exec_fetch (fin : ReadEnd) (addr : Wide) (size cookie : Word) (tail : BitVec 128) (hmay : s.mayFetch r = true)
    (hdis : fin = .timeout → s.get (Fd.CFG_DEV2_CTODIS false) = 0) :
    exec (.descFetch r fin addr size cookie tail) s = .next (
      if fin ≠ .data then ((asked r s).readFail fin).stopRing r 2 0x0D83
      else if !descGood addr size tail then (asked r s).stopRing r 1 0x0D82
      else ((asked r s).ring' r fun y => { y with
        descs := y.descs ++ [{ addr := addr, size := size.toNat, cookie := cookie }] }).showFetched r) := by
  have hgo : (s.mayFetch r && !(fin == .timeout && s.is (Fd.CFG_DEV2_CTODIS false))) = true := by
    rw [hmay, Bool.true_and, Bool.not_eq_true', Bool.and_eq_false_iff]
    by_cases hf : fin = .timeout
    · exact .inr (beq_eq_false_iff_ne.mpr (by change s.get _ ≠ 1; rw [hdis hf]; decide))
    · exact .inl (beq_eq_false_iff_ne.mpr hf)
  change execDescFetch r fin addr size cookie tail s = _
  unfold execDescFetch
  rw [hgo]
  simp only [if_true]
  split
  · rfl
  · split <;> rfl

theorem within_asked (r : Fin 14) (s : State) : s.within [.io, .host] (asked r s) := within_post (State.within_refl s _) _ _
    (by decide)
theorem regions_asked (r : Fin 14) (s : State) : s.onlyRegions [13, 48] (asked r s) := onlyRegions_post
    (State.onlyRegions_refl s _) _ _
theorem ring_asked (r : Fin 14) (s : State) (q : ℕ) : (asked r s).ring q = s.ring q := rfl

/-- A register of the configuration space of PF0. -/
theorem region_cfg {a : ℕ} (ha : a < 0x1000) : (Fd.cfgBase false + a) / 0x200000 ∈ [13, 48] := by
  have hbase : Fd.cfgBase false = 0x06000000 := rfl
  rw [hbase, show (0x06000000 + a) / 0x200000 = 48 by omega]
  decide

/-- An operation that keeps to HOST and the configuration space, and leaves one field. -/
structure Configures (f : Field) (s t : State) : Prop where
  regions : s.onlyRegions [13, 48] t
  within : s.within [.io, .host] t
  field : t.get f = s.get f

namespace Configures

theorem refl (f : Field) (s : State) : Configures f s s := ⟨State.onlyRegions_refl s _, State.within_refl s _, rfl⟩
theorem set (h : Configures f s t) {a : ℕ} (g : Field) (n : ℕ) (hg : g.off = Fd.cfgBase false + a) (ha : a < 0x1000)
    (hf : f.off ≠ g.off) : Configures f s (t.set g n) :=
  ⟨h.regions.set _ _ (hg ▸ region_cfg ha), h.within.set _ _, (State.get_set_off _ _ hf).trans h.field⟩
theorem put (h : Configures f s t) {a : ℕ} (w : Word) (ha : a < 0x1000) (hf : f.off ≠ Fd.cfgBase false + a) :
    Configures f s (t.put (Fd.cfgBase false + a) w) :=
  ⟨h.regions.put _ _ (region_cfg ha), h.within.put _ _, (State.get_put_other _ _ hf).trans h.field⟩
theorem draw (h : Configures f s t) : Configures f s t.drawWord.2 :=
  ⟨h.regions.of_reg fun _ => rfl, h.within.io_upd _, h.field⟩
theorem emit (h : Configures f s t) (o : Out) : Configures f s (t.emit o) :=
    ⟨h.regions.of_reg fun _ => rfl, h.within.emit _, h.field⟩
theorem onlyIf (h : Configures f s t) {b : Bool} {g : State → State} (k : Configures f s (g t)) : Configures f s
    (t.onlyIf b g) := by
  unfold State.onlyIf
  split
  · exact k
  · exact h
theorem each {α : Type} (h : Configures f s t) (l : List α) {g : α → State → State}
    (k : ∀ x ∈ l, ∀ v, Configures f s v → Configures f s (g x v)) : Configures f s (t.each l g) := by
  induction l generalizing t with
  | nil => exact h
  | cons x l ih =>
    rw [State.each_cons]
    exact ih (k x List.mem_cons_self t h) fun y hy => k y (List.mem_cons_of_mem _ hy)

end Configures

/-- The header of an error that is logged. -/
def logHeader (i : ℕ) (s : State) : State := s.drawWord.2.put (Fd.CFG_AER_HDR false i).off s.drawWord.1

/-- What an uncorrectable error of AER's bit n writes after its status bit. -/
def reported (n : ℕ) (hdr fatal masked first sent : Bool) (s : State) : State :=
  let s1 := s.set (if fatal then Fd.CFG_DEV_FED false else Fd.CFG_DEV_NFED false) 1
  if masked then s1
  else (s1.onlyIf first fun s => (s.set (Fd.CFG_AER_FEP false) n).each (if hdr then [0, 1, 2, 3] else []) logHeader).onlyIf sent
    (State.emit (.errMessage fatal))

theorem aer_eq (n : ℕ) (hdr : Bool) (s : State) :
    ∃ fatal masked first sent, s.aer n hdr = reported n hdr fatal masked first sent (s.set (Fd.CFG_AER_UNC false n) 1) :=
  ⟨_, _, _, _, rfl⟩

theorem configures_reported (n : ℕ) (hdr fatal masked first sent : Bool) (s : State) :
    Configures (Fd.CFG_AER_UNC false n) s (reported n hdr fatal masked first sent s) := by
  have hdev : Configures (Fd.CFG_AER_UNC false n) s (s.set (if fatal then Fd.CFG_DEV_FED false else Fd.CFG_DEV_NFED false)
      1) := by
    refine (Configures.refl _ s).set (a := 0x78) _ _ (by cases fatal <;> rfl) (by decide) ?_
    cases fatal <;> simp [Fd.CFG_AER_UNC, Fd.CFG_DEV_FED, Fd.CFG_DEV_NFED]
  unfold reported
  simp only
  split
  · exact hdev
  · have hlogged : Configures (Fd.CFG_AER_UNC false n) s
        ((s.set (if fatal then Fd.CFG_DEV_FED false else Fd.CFG_DEV_NFED false) 1).onlyIf first
          fun s => (s.set (Fd.CFG_AER_FEP false) n).each (if hdr then [0, 1, 2, 3] else []) logHeader) := by
      refine hdev.onlyIf (Configures.each ?_ _ fun i hi v hv => ?_)
      · exact hdev.set (a := 0x118) _ _ rfl (by decide) (by simp [Fd.CFG_AER_UNC, Fd.CFG_AER_FEP])
      · have hi4 : i < 4 := by
          cases hdr <;> simp at hi
          omega
        have hoff : (Fd.CFG_AER_HDR false i).off = Fd.cfgBase false + (0x11C + 4 * i) := by
          simp only [Fd.CFG_AER_HDR]; omega
        unfold logHeader
        rw [hoff]
        exact hv.draw.put _ (by omega) (by simp only [Fd.CFG_AER_UNC]; omega)
    exact hlogged.onlyIf (hlogged.emit _)

/-- A read that fails leaves its mark in the configuration space. -/
theorem readFail_facts (fin : ReadEnd) (s : State) : s.onlyRegions [13, 48] (s.readFail fin) ∧ s.within [.io, .host]
    (s.readFail fin) ∧
    (fin = .poisoned → (s.readFail fin).get (Fd.CFG_AER_UNC false 12) = 1) ∧
    (fin = .timeout → (s.readFail fin).get (Fd.CFG_AER_UNC false 14) = 1) ∧
    (fin = .ur → (s.readFail fin).get (Fd.CFG_STATUS_RMA false) = 1) ∧
    (fin = .ca → (s.readFail fin).get (Fd.CFG_STATUS_RTA false) = 1) := by
  have haer (n : ℕ) (hn : n < 32) (hdr : Bool) : s.onlyRegions [13, 48] (s.aer n hdr) ∧ s.within [.io, .host] (s.aer n hdr) ∧
      (s.aer n hdr).get (Fd.CFG_AER_UNC false n) = 1 := by
    obtain ⟨fatal, masked, first, sent, h⟩ := aer_eq n hdr s
    have hc := configures_reported n hdr fatal masked first sent (s.set (Fd.CFG_AER_UNC false n) 1)
    rw [h]
    refine ⟨onlyRegions_trans ((State.onlyRegions_refl s _).set _ _ (region_cfg (a := 0x104) (by decide))) hc.regions,
      State.within.trans ((State.within_refl s _).set _ _) hc.within, hc.field.trans ?_⟩
    refine (State.get_set _ _ _ (by simp [Fd.CFG_AER_UNC]) (by simpa [Fd.CFG_AER_UNC] using hn)).trans ?_
    simp [Fd.CFG_AER_UNC]
  have hset (g : Field) (hg : g.off = Fd.cfgBase false + 4) : s.onlyRegions [13, 48] (s.set g 1) ∧ s.within [.io, .host]
      (s.set g 1) :=
    ⟨(State.onlyRegions_refl s _).set _ _ (hg ▸ region_cfg (by decide)), (State.within_refl s _).set _ _⟩
  cases fin
  case data => exact ⟨State.onlyRegions_refl s _, State.within_refl s _, by simp, by simp, by simp, by simp⟩
  case ur =>
    obtain ⟨hregs, hw⟩ := hset (Fd.CFG_STATUS_RMA false) rfl
    exact ⟨hregs, hw, by simp, by simp, fun _ => State.get_set _ _ _ (by decide) (by decide), by simp⟩
  case ca =>
    obtain ⟨hregs, hw⟩ := hset (Fd.CFG_STATUS_RTA false) rfl
    exact ⟨hregs, hw, by simp, by simp, by simp, fun _ => State.get_set _ _ _ (by decide) (by decide)⟩
  case poisoned =>
    obtain ⟨hregs, hw, hget⟩ := haer 12 (by decide) true
    exact ⟨hregs, hw, fun _ => hget, by simp, by simp, by simp⟩
  case timeout =>
    obtain ⟨hregs, hw, hget⟩ := haer 14 (by decide) false
    exact ⟨hregs, hw, by simp, fun _ => hget, by simp, by simp⟩

/-- A ring that stops leaves the configuration space. -/
theorem cfg_stopRing {a : ℕ} (hf : f.off = Fd.cfgBase false + a) (ha : a < 0x1000) (cause code : ℕ) (s : State) :
    (s.stopRing r cause code).get f = s.get f := by
  have hregs : s.onlyRegions [13] (s.stopRing r cause code) :=
    onlyRegions_stopRing (State.onlyRegions_refl s _) r.isLt _ _ (by decide)
  have hbase : f.off = 0x06000000 + a := hf
  refine Io.get_congr (hregs f.off ?_ ?_ ?_)
  · rw [hbase, show (0x06000000 + a) / 0x200000 = 48 by omega]
    decide
  · rw [hbase]
    simp only [alarmReg, Bool.or_eq_false_iff, beq_eq_false_iff_ne, decide_eq_false_iff_not]
    omega
  · rw [hbase]
    simp only [Fd.MGMT_LOG_LOST_COUNT]
    omega

/-- A descriptor that arrives is held if it is good; else, or when the read fails, the ring stops. -/
theorem fetch_ends (fin : ReadEnd) (addr : Wide) (size cookie : Word) (tail : BitVec 128) (hmay : s.mayFetch r = true)
    (hdis : fin = .timeout → s.get (Fd.CFG_DEV2_CTODIS false) = 0) :
    ∃ t, exec (.descFetch r fin addr size cookie tail) s = .next t ∧ s.within [.io, .host] t ∧ s.onlyRegions [13, 48] t ∧
      if fin = .data ∧ descGood addr size tail = true then
        (t.ring r).descs = (s.ring r).descs ++ [{ addr := addr, size := size.toNat, cookie := cookie }] ∧
          t.ringState r = rRUN ∧ t.get (Fd.HOST_RING_STAT_FETCHED r) = (s.ring r).descs.length + 1
      else t.ringState r = rSTOPPED ∧ t.get (Fd.HOST_RING_STAT_CAUSE r) = (if fin = .data then 1 else 2) ∧
      (t.ring r).descs = [] ∧
        (fin = .poisoned → t.get (Fd.CFG_AER_UNC false 12) = 1) ∧ (fin = .timeout → t.get (Fd.CFG_AER_UNC false 14) = 1) ∧
        (fin = .ur → t.get (Fd.CFG_STATUS_RMA false) = 1) ∧ (fin = .ca → t.get (Fd.CFG_STATUS_RTA false) = 1) := by
  have hexec := exec_fetch fin addr size cookie tail hmay hdis
  have hasked := regions_asked r s
  have hw := within_asked r s
  by_cases hfin : fin = .data
  · rw [if_neg (by simp [hfin])] at hexec
    by_cases hgood : descGood addr size tail = true
    · rw [if_neg (by simp [hgood])] at hexec
      refine ⟨_, hexec, within_showFetched (within_ring hw _ _ (by decide)) _ (by decide),
        onlyRegions_showFetched (onlyRegions_ring hasked _ _) r.isLt (by decide), ?_⟩
      rw [if_pos ⟨hfin, hgood⟩]
      have hring : (((asked r s).ring' r fun y => { y with
          descs := y.descs ++ [{ addr := addr, size := size.toNat, cookie := cookie }] }).ring r).descs =
          (s.ring r).descs ++ [{ addr := addr, size := size.toNat, cookie := cookie }] := by
        rw [ring_ring_same, ring_asked]
      obtain ⟨hrun, hlen⟩ : s.ringState r = rRUN ∧ (s.ring r).descs.length < 32 := by
        unfold State.mayFetch at hmay
        simp only [Bool.and_eq_true, beq_iff_eq, decide_eq_true_eq] at hmay
        obtain ⟨⟨hrun, hlen⟩, -⟩ := hmay
        exact ⟨hrun, hlen⟩
      refine ⟨hring, ?_, ?_⟩
      · rw [State.ringState, State.showFetched, State.get_set_apart _ _ (by
          simp [Field.apart, Fd.HOST_RING_STAT_FETCHED, Fd.HOST_RING_STAT_STATE]), get_ring, asked, get_post]
        exact hrun
      · rw [State.showFetched, hring, List.length_append]
        refine (State.get_set _ _ _ (by simp [Fd.HOST_RING_STAT_FETCHED]) (by simp [Fd.HOST_RING_STAT_FETCHED])).trans
          (Nat.mod_eq_of_lt ?_)
        simp only [List.length_singleton, Fd.HOST_RING_STAT_FETCHED]
        omega
    · rw [if_pos (by simp [hgood])] at hexec
      obtain ⟨hstate, hcause, hdescs⟩ := stopRing_facts r (cause := 1) (by decide) 0x0D82 (asked r s)
      refine ⟨_, hexec, within_stopRing hw _ _ _ (by decide) (by decide), onlyRegions_stopRing hasked r.isLt _ _
          (by decide), ?_⟩
      rw [if_neg (by simp [hgood]), if_pos hfin]
      exact ⟨hstate, hcause, hdescs, by simp [hfin], by simp [hfin], by simp [hfin], by simp [hfin]⟩
  · rw [if_pos hfin] at hexec
    obtain ⟨hregs, hread, hpoisoned, htimeout, hur, hca⟩ := readFail_facts fin (asked r s)
    obtain ⟨hstate, hcause, hdescs⟩ := stopRing_facts r (cause := 2) (by decide) 0x0D83 ((asked r s).readFail fin)
    refine ⟨_, hexec, within_stopRing (State.within.trans hw hread) _ _ _ (by decide) (by decide),
      onlyRegions_stopRing (onlyRegions_trans hasked hregs) r.isLt _ _ (by decide), ?_⟩
    rw [if_neg (by simp [hfin]), if_neg hfin]
    exact ⟨hstate, hcause, hdescs,
      fun h => (cfg_stopRing (a := 0x104) rfl (by decide) 2 0x0D83 _).trans (hpoisoned h),
      fun h => (cfg_stopRing (a := 0x104) rfl (by decide) 2 0x0D83 _).trans (htimeout h),
      fun h => (cfg_stopRing (a := 0x04) rfl (by decide) 2 0x0D83 _).trans (hur h),
      fun h => (cfg_stopRing (a := 0x04) rfl (by decide) 2 0x0D83 _).trans (hca h)⟩

end Sys2Proof.Machine.RingBuffers

namespace Sys2Proof.Machine
open RingBuffers

/-- Settles O33: each command is one case of the ring's state; a completion goes out with its write-back, and the timer's interrupt leaves
its cause bit set. -/
theorem buffersComplete : Obligations.BuffersComplete := by
  unfold Obligations.BuffersComplete
  refine ⟨?_, ?_, ?_, ?_, ?_, ?_, ?_, ?_⟩
  · exact fun r post s h hon => post_taken post h hon
  · exact fun r post s h hoff => exec_post_off post h hoff
  · exact fun r next d rest s h hrun hd hdata => flush_completes next h hrun hd hdata
  · exact fun r first b d rest s hd hfit => record_placed first b hd hfit
  · exact fun r next s h hoff => flush_nothing next h hoff
  · exact fun r d rest s hrun hd hdata hidle hclock => idle_completes hrun hd hdata hidle hclock
  · exact fun r fin addr size cookie tail s hmay hdis => fetch_ends fin addr size cookie tail hmay hdis
  · exact fun r s hcoal htime hclock => timer_ends hcoal htime hclock

end Sys2Proof.Machine
end

section
/-!
SETTLES O34. The states of the DMA rings (R308, R309) and the interrupt causes (R36, R311).
-/
-- One thread for the lemmas: a thread for each would ask for more memory than a build may have.
set_option Elab.async false

namespace Sys2Proof.Machine.RingStates
open Sys2Proof.Machine Rings RingBuffers
open Sys2Proof.Machine.LinkStates (each_at)

variable {s t : State} {f : Field} {r : Fin 14}

/-! ## Fields of a ring -/

/-- A register of ring r. -/
theorem region_of_ring (r : Fin 14) {a : ℕ} (ha : a < 0x100) : (0x01A20000 + a + 0x100 * (r : ℕ)) / 0x200000 ∈ [13] := by
  rw [region_ring r.isLt ha]
  exact List.mem_singleton.2 rfl

theorem clear_of_lt {g : Field} (h : g.hi < 32) (k : g.lo ≤ g.hi) (s : State) : (s.set g 0).get g = 0 :=
  (State.get_set _ _ _ k h).trans (Nat.zero_mod _)

theorem is_en (r : Fin 14) (s : State) {b : Bool} (h : s.get (Fd.HOST_RING_CTL_EN r) = if b then 1 else 0) :
    s.is (Fd.HOST_RING_CTL_EN r) = b := by
  change (s.get _ == 1) = b
  rw [h]
  cases b <;> rfl

/-! ## Enabling (R308) -/

/-- The ring as an enabling latches it. -/
def latched (r : Fin 14) (s : State) : State :=
  s.ring' r fun x =>
    { base := BitVec.ofNat 64 (s.get (Fd.HOST_RING_BASE_LO_BASE r) * 64 + s.get (Fd.HOST_RING_BASE_HI_BASE r) * 2 ^ 32)
      wb := BitVec.ofNat 64 (s.get (Fd.HOST_RING_WB_LO_WB r) * 16 + s.get (Fd.HOST_RING_WB_HI_WB r) * 2 ^ 32)
      dsz := s.get (Fd.HOST_RING_CTL_DSZ r), dropped := x.dropped + x.drops, coal := x.coal, coalAt := x.coalAt }

/-- The counts of the ring cleared, and its state running. -/
def started (r : Fin 14) (s : State) : State :=
  (((((s.set (Fd.HOST_RING_CTL_EN r) 1).set (Fd.HOST_RING_POST_POST r) 0).set (Fd.HOST_RING_DONE_DONE r) 0).set
    (Fd.HOST_RING_UNIT_UNIT r) 0).set (Fd.HOST_RING_STAT_STATE r) rRUN).set (Fd.HOST_RING_STAT_CAUSE r) 0

theorem exec_enable (h : s.admits (.ringEnable r) = true) (hen : s.get (Fd.HOST_RING_CTL_EN r) = 0) :
    exec (.ringEnable r) s = .next (((started r (latched r s)).showFetched r).statusBlock r) := by
  change execRingEnable r s = _
  unfold execRingEnable
  rw [State.writeRow_admitted h, if_neg (by rw [is_en r s (b := false) hen]; decide)]
  rfl

theorem exec_enable_on (h : s.admits (.ringEnable r) = true) (hen : s.get (Fd.HOST_RING_CTL_EN r) = 1) :
    exec (.ringEnable r) s = .next s := by
  change execRingEnable r s = _
  unfold execRingEnable
  rw [State.writeRow_admitted h, if_pos (is_en r s (b := true) hen)]
  rfl

theorem started_frame (r : Fin 14) (s : State) : s.within [.io] (started r s) ∧ s.onlyRegions [13] (started r s) := by
  refine ⟨((((((State.within_refl s _).set _ _).set _ _).set _ _).set _ _).set _ _).set _ _, ?_⟩
  have hctl : (Fd.HOST_RING_CTL_EN r).off / 0x200000 ∈ [13] := region_of_ring r (a := 0x00) (by decide)
  have hpost : (Fd.HOST_RING_POST_POST r).off / 0x200000 ∈ [13] := region_of_ring r (a := 0x14) (by decide)
  have hdone : (Fd.HOST_RING_DONE_DONE r).off / 0x200000 ∈ [13] := region_of_ring r (a := 0x18) (by decide)
  have hunit : (Fd.HOST_RING_UNIT_UNIT r).off / 0x200000 ∈ [13] := region_of_ring r (a := 0x1C) (by decide)
  have hstat : (Fd.HOST_RING_STAT_STATE r).off / 0x200000 ∈ [13] := region_of_ring r (a := 0x24) (by decide)
  exact ((((((State.onlyRegions_refl s _).set _ _ hctl).set _ _ hpost).set _ _ hdone).set _ _ hunit).set _ _ hstat).set
    (Fd.HOST_RING_STAT_CAUSE r) _ hstat

/-- What a ring that starts shows. -/
theorem started_shows (r : Fin 14) (s : State) : (started r s).get (Fd.HOST_RING_CTL_EN r) = 1 ∧ (started r s).ringState r =
    rRUN ∧
    (started r s).get (Fd.HOST_RING_POST_POST r) = 0 ∧ (started r s).get (Fd.HOST_RING_DONE_DONE r) = 0 ∧
    (started r s).get (Fd.HOST_RING_UNIT_UNIT r) = 0 := by
  have hcause {g : Field} (h : (Fd.HOST_RING_STAT_CAUSE r).apart g = true) (u : State) :
      (u.set (Fd.HOST_RING_STAT_CAUSE r) 0).get g =
      u.get g := State.get_set_apart _ _ h
  have hstate {g : Field} (h : (Fd.HOST_RING_STAT_STATE r).apart g = true) (u : State) :
      (u.set (Fd.HOST_RING_STAT_STATE r) rRUN).get g = u.get g := State.get_set_apart _ _ h
  have hunit {g : Field} (h : (Fd.HOST_RING_UNIT_UNIT r).apart g = true) (u : State) :
      (u.set (Fd.HOST_RING_UNIT_UNIT r) 0).get g = u.get g := State.get_set_apart _ _ h
  have hdone {g : Field} (h : (Fd.HOST_RING_DONE_DONE r).apart g = true) (u : State) :
      (u.set (Fd.HOST_RING_DONE_DONE r) 0).get g = u.get g := State.get_set_apart _ _ h
  have hpost {g : Field} (h : (Fd.HOST_RING_POST_POST r).apart g = true) (u : State) :
      (u.set (Fd.HOST_RING_POST_POST r) 0).get g = u.get g := State.get_set_apart _ _ h
  unfold started
  refine ⟨?_, ?_, ?_, ?_, ?_⟩
  · rw [hcause (by simp [Field.apart, Fd.HOST_RING_STAT_CAUSE, Fd.HOST_RING_CTL_EN]),
      hstate (by simp [Field.apart, Fd.HOST_RING_STAT_STATE, Fd.HOST_RING_CTL_EN]),
      hunit (by simp [Field.apart, Fd.HOST_RING_UNIT_UNIT, Fd.HOST_RING_CTL_EN]),
      hdone (by simp [Field.apart, Fd.HOST_RING_DONE_DONE, Fd.HOST_RING_CTL_EN]),
      hpost (by simp [Field.apart, Fd.HOST_RING_POST_POST, Fd.HOST_RING_CTL_EN])]
    exact State.get_set _ _ _ (by simp [Fd.HOST_RING_CTL_EN]) (by simp [Fd.HOST_RING_CTL_EN])
  · rw [State.ringState, hcause (by simp [Field.apart, Fd.HOST_RING_STAT_CAUSE, Fd.HOST_RING_STAT_STATE])]
    exact State.get_set _ _ _ (by simp [Fd.HOST_RING_STAT_STATE]) (by simp [Fd.HOST_RING_STAT_STATE])
  · rw [hcause (by simp [Field.apart, Fd.HOST_RING_STAT_CAUSE, Fd.HOST_RING_POST_POST]),
      hstate (by simp [Field.apart, Fd.HOST_RING_STAT_STATE, Fd.HOST_RING_POST_POST]),
      hunit (by simp [Field.apart, Fd.HOST_RING_UNIT_UNIT, Fd.HOST_RING_POST_POST]),
      hdone (by simp [Field.apart, Fd.HOST_RING_DONE_DONE, Fd.HOST_RING_POST_POST])]
    exact clear_of_lt (by simp [Fd.HOST_RING_POST_POST]) (by simp [Fd.HOST_RING_POST_POST]) _
  · rw [hcause (by simp [Field.apart, Fd.HOST_RING_STAT_CAUSE, Fd.HOST_RING_DONE_DONE]),
      hstate (by simp [Field.apart, Fd.HOST_RING_STAT_STATE, Fd.HOST_RING_DONE_DONE]),
      hunit (by simp [Field.apart, Fd.HOST_RING_UNIT_UNIT, Fd.HOST_RING_DONE_DONE])]
    exact clear_of_lt (by simp [Fd.HOST_RING_DONE_DONE]) (by simp [Fd.HOST_RING_DONE_DONE]) _
  · rw [hcause (by simp [Field.apart, Fd.HOST_RING_STAT_CAUSE, Fd.HOST_RING_UNIT_UNIT]),
      hstate (by simp [Field.apart, Fd.HOST_RING_STAT_STATE, Fd.HOST_RING_UNIT_UNIT])]
    exact clear_of_lt (by simp [Fd.HOST_RING_UNIT_UNIT]) (by simp [Fd.HOST_RING_UNIT_UNIT]) _

/-- What is shown last changes FETCHED only. -/
theorem get_shown (h : (Fd.HOST_RING_STAT_FETCHED r).apart f = true) (s : State) :
    ((s.showFetched r).statusBlock r).get f = s.get f := by
  rw [get_statusBlock, State.showFetched, State.get_set_apart _ _ h]

/-- An enabling latches the ring's base and size, and clears its counts. -/
theorem enable_starts (h : s.admits (.ringEnable r) = true) (hen : s.get (Fd.HOST_RING_CTL_EN r) = 0) :
    ∃ t, exec (.ringEnable r) s = .next t ∧ s.within [.io, .host] t ∧ s.onlyRegions [13] t ∧
      t.get (Fd.HOST_RING_CTL_EN r) = 1 ∧ t.ringState r = rRUN ∧
      t.get (Fd.HOST_RING_POST_POST r) = 0 ∧ t.get (Fd.HOST_RING_DONE_DONE r) = 0 ∧ t.get (Fd.HOST_RING_UNIT_UNIT r) = 0 ∧
      (t.ring r).base
        = BitVec.ofNat 64 (s.get (Fd.HOST_RING_BASE_LO_BASE r) * 64 + s.get (Fd.HOST_RING_BASE_HI_BASE r) * 2 ^ 32) ∧
      (t.ring r).dsz = s.get (Fd.HOST_RING_CTL_DSZ r) ∧ (t.ring r).coal = (s.ring r).coal ∧
      (t.ring r).coalAt = (s.ring r).coalAt := by
  obtain ⟨hw, hregs⟩ := started_frame r (latched r s)
  obtain ⟨hctl, hstate, hpost, hdone, hunit⟩ := started_shows r (latched r s)
  have hring : (((started r (latched r s)).showFetched r).statusBlock r).ring r = (latched r s).ring r := rfl
  refine ⟨_, exec_enable h hen, ?_, ?_, ?_, ?_, ?_, ?_, ?_, ?_⟩
  · exact within_statusBlock (within_showFetched (State.within.trans (within_ring (State.within_refl s _) _ _ (by decide))
      (hw.mono (by decide))) _ (by decide)) _ (by decide)
  · exact onlyRegions_statusBlock (onlyRegions_showFetched (onlyRegions_trans
      (onlyRegions_ring (State.onlyRegions_refl s _) _ _) hregs)
      r.isLt (by decide)) _
  · rwa [get_shown (by simp [Field.apart, Fd.HOST_RING_STAT_FETCHED, Fd.HOST_RING_CTL_EN])]
  · rwa [State.ringState, get_shown (by simp [Field.apart, Fd.HOST_RING_STAT_FETCHED, Fd.HOST_RING_STAT_STATE])]
  · rwa [get_shown (by simp [Field.apart, Fd.HOST_RING_STAT_FETCHED, Fd.HOST_RING_POST_POST])]
  · rwa [get_shown (by simp [Field.apart, Fd.HOST_RING_STAT_FETCHED, Fd.HOST_RING_DONE_DONE])]
  · rwa [get_shown (by simp [Field.apart, Fd.HOST_RING_STAT_FETCHED, Fd.HOST_RING_UNIT_UNIT])]
  · rw [hring, latched, ring_ring_same]
    exact ⟨rfl, rfl, rfl, rfl⟩

/-! ## Disabling (R308) -/

/-- The ring turned off. -/
def stopped (r : Fin 14) (s : State) : State :=
  (((s.set (Fd.HOST_RING_CTL_EN r) 0).set (Fd.HOST_RING_CTL_RESUME r) 0).set (Fd.HOST_RING_STAT_STATE r) rOFF).set
    (Fd.HOST_RING_STAT_CAUSE r) 0

/-- What a disabling leaves of its ring, once its buffer is closed. -/
def emptied (r : Fin 14) (s : State) : State := ((stopped r (s.ring' r Ring.abandon)).showFetched r).statusBlock r

theorem exec_disable (flush : Bool) (next : BitVec 21) (h : s.admits (.ringDisable r flush next) = true)
    (hen : s.get (Fd.HOST_RING_CTL_EN r) = 1) : exec (.ringDisable r flush next) s =
      .next (emptied r (s.closeBuffer r (stDISABLE ||| (if flush then stFLUSH else 0) ||| s.fullToo r next.toNat))) := by
  change execRingDisable r flush next s = _
  unfold execRingDisable
  rw [State.writeRow_admitted h, if_pos (is_en r s (b := true) hen)]
  rfl

theorem exec_disable_off (flush : Bool) (next : BitVec 21) (h : s.admits (.ringDisable r flush next) = true)
    (hen : s.get (Fd.HOST_RING_CTL_EN r) = 0) : exec (.ringDisable r flush next) s = .next s := by
  change execRingDisable r flush next s = _
  unfold execRingDisable
  rw [State.writeRow_admitted h, if_neg (by rw [is_en r s (b := false) hen]; decide)]
  rfl

theorem get_stopped (hctl : f.off ≠ (Fd.HOST_RING_CTL_EN r).off) (hstat : f.off ≠ (Fd.HOST_RING_STAT_STATE r).off) (s : State) :
    (stopped r s).get f = s.get f := by
  unfold stopped
  rw [State.get_set_off (f := Fd.HOST_RING_STAT_CAUSE r) _ _ hstat, State.get_set_off (f := Fd.HOST_RING_STAT_STATE r) _ _
      hstat,
    State.get_set_off (f := Fd.HOST_RING_CTL_RESUME r) _ _ hctl, State.get_set_off (f := Fd.HOST_RING_CTL_EN r) _ _ hctl]

theorem stopped_shows (r : Fin 14) (s : State) : (stopped r s).get (Fd.HOST_RING_CTL_EN r) = 0 ∧ (stopped r s).ringState r =
    rOFF ∧
    (stopped r s).get (Fd.HOST_RING_STAT_CAUSE r) = 0 := by
  unfold stopped
  refine ⟨?_, ?_, clear_of_lt (by simp [Fd.HOST_RING_STAT_CAUSE]) (by simp [Fd.HOST_RING_STAT_CAUSE]) _⟩
  · rw [State.get_set_apart _ _ (by simp [Field.apart, Fd.HOST_RING_STAT_CAUSE, Fd.HOST_RING_CTL_EN]),
      State.get_set_apart _ _ (by simp [Field.apart, Fd.HOST_RING_STAT_STATE, Fd.HOST_RING_CTL_EN]),
      State.get_set_apart _ _ (by simp [Field.apart, Fd.HOST_RING_CTL_RESUME, Fd.HOST_RING_CTL_EN])]
    exact clear_of_lt (by simp [Fd.HOST_RING_CTL_EN]) (by simp [Fd.HOST_RING_CTL_EN]) _
  · rw [State.ringState, State.get_set_apart _ _ (by simp [Field.apart, Fd.HOST_RING_STAT_CAUSE, Fd.HOST_RING_STAT_STATE])]
    exact clear_of_lt (by simp [Fd.HOST_RING_STAT_STATE]) (by simp [Fd.HOST_RING_STAT_STATE]) _

theorem emptied_frame {u : State} (hw : u.within [.io, .host] s) (h : u.onlyRegions [13] s) :
    u.within [.io, .host] (emptied r s) ∧ u.onlyRegions [13] (emptied r s) := by
  have hctl : (Fd.HOST_RING_CTL_EN r).off / 0x200000 ∈ [13] := region_of_ring r (a := 0x00) (by decide)
  have hstat : (Fd.HOST_RING_STAT_STATE r).off / 0x200000 ∈ [13] := region_of_ring r (a := 0x24) (by decide)
  refine ⟨?_, ?_⟩
  · exact within_statusBlock (within_showFetched (((((within_ring hw _ _ (by decide)).set _ _).set _ _).set _ _).set _ _) _
      (by decide)) _ (by decide)
  · exact onlyRegions_statusBlock (onlyRegions_showFetched (((((onlyRegions_ring h _ _).set _ _ hctl).set
      (Fd.HOST_RING_CTL_RESUME r) _
      hctl).set _ _ hstat).set (Fd.HOST_RING_STAT_CAUSE r) _ hstat) r.isLt (by decide)) _

/-- A disabling closes the buffer, which goes out, and turns the ring off. -/
theorem disable_ends (flush : Bool) (next : BitVec 21) (h : s.admits (.ringDisable r flush next) = true)
    (hen : s.get (Fd.HOST_RING_CTL_EN r) = 1) :
    ∃ t, exec (.ringDisable r flush next) s = .next t ∧ s.within [.io, .host] t ∧ s.onlyRegions [13] t ∧
      t.get (Fd.HOST_RING_CTL_EN r) = 0 ∧ t.ringState r = rOFF ∧
      (t.ring r).descs = [] ∧ (t.ring r).data = [] ∧ t.get (Fd.HOST_RING_STAT_CAUSE r) = 0 ∧
      ((s.ring r).descs ≠ [] → (s.ring r).data ≠ [] →
        s.wroteBack r (stDISABLE ||| (if flush then stFLUSH else 0) ||| s.fullToo r next.toNat) t) := by
  have hexec := exec_disable flush next h hen
  generalize stDISABLE ||| (if flush then stFLUSH else 0) ||| s.fullToo r next.toNat = why at hexec ⊢
  obtain ⟨hw, hregs⟩ := emptied_frame (r := r) (within_close (r := r) (State.within_refl s _) why)
    (regions_close (State.onlyRegions_refl s _) why)
  obtain ⟨hctl, hstate, hcause⟩ := stopped_shows r ((s.closeBuffer r why).ring' r Ring.abandon)
  have hring : (emptied r (s.closeBuffer r why)).ring r = Ring.abandon ((s.closeBuffer r why).ring r) := ring_ring_same ..
  have hkeep {g : Field} (hg : g.off ≠ (Fd.HOST_RING_CTL_EN r).off) (hg' : g.off ≠ (Fd.HOST_RING_STAT_STATE r).off) :
      (emptied r (s.closeBuffer r why)).get g = (s.closeBuffer r why).get g := by
    unfold emptied
    rw [get_shown (Field.apart_of_off hg'), get_stopped hg hg', get_ring]
  have hsent : Io.Grows (s.closeBuffer r why).io (emptied r (s.closeBuffer r why)).io := by
    have hset : Io.Grows (s.closeBuffer r why).io
        ((stopped r ((s.closeBuffer r why).ring' r Ring.abandon)).showFetched r).io := .of_same rfl rfl
    exact hset.trans (grows_statusBlock ..)
  refine ⟨_, hexec, hw, hregs, ?_, ?_, ?_, ?_, ?_, fun hdescs hdata => ?_⟩
  · unfold emptied
    rwa [get_shown (by simp [Field.apart, Fd.HOST_RING_STAT_FETCHED, Fd.HOST_RING_CTL_EN])]
  · unfold emptied
    rwa [State.ringState, get_shown (by simp [Field.apart, Fd.HOST_RING_STAT_FETCHED, Fd.HOST_RING_STAT_STATE])]
  · rw [hring]; rfl
  · rw [hring]; rfl
  · unfold emptied
    rwa [get_shown (by simp [Field.apart, Fd.HOST_RING_STAT_FETCHED, Fd.HOST_RING_STAT_CAUSE])]
  · obtain ⟨d, rest, hd⟩ := List.exists_cons_of_ne_nil hdescs
    obtain ⟨-, -, hdone, hunit, hdma⟩ := closeBuffer_wroteBack r hd hdata why
    refine ⟨(hkeep ?_ ?_).trans hdone, (hkeep ?_ ?_).trans hunit, hsent.mem _ hdma⟩ <;>
      simp [Fd.HOST_RING_DONE_DONE, Fd.HOST_RING_UNIT_UNIT, Fd.HOST_RING_CTL_EN, Fd.HOST_RING_STAT_STATE]

/-! ## Resuming (R309) -/

theorem exec_resume (h : s.admits (.ringResume r) = true) : exec (.ringResume r) s = .next (if s.ringState r = rSTOPPED then
    ((((s.set (Fd.HOST_RING_CTL_RESUME r) 0).set (Fd.HOST_RING_STAT_STATE r) rRUN).set (Fd.HOST_RING_STAT_CAUSE r)
        0).statusBlock r)
    else s.set (Fd.HOST_RING_CTL_RESUME r) 0) := by
  change execRingResume r s = _
  unfold execRingResume
  rw [State.writeRow_admitted h]
  simp only
  split <;> rfl

theorem resume_runs (h : s.admits (.ringResume r) = true) (hstopped : s.ringState r = rSTOPPED) :
    ∃ t, exec (.ringResume r) s = .next t ∧ s.within [.io] t ∧ s.onlyRegions [13] t ∧ t.ringState r = rRUN ∧
      t.get (Fd.HOST_RING_CTL_RESUME r) = 0 ∧ t.get (Fd.HOST_RING_STAT_CAUSE r) = 0 := by
  have hctl : (Fd.HOST_RING_CTL_RESUME r).off / 0x200000 ∈ [13] := region_of_ring r (a := 0x00) (by decide)
  have hstat : (Fd.HOST_RING_STAT_STATE r).off / 0x200000 ∈ [13] := region_of_ring r (a := 0x24) (by decide)
  have hexec := exec_resume h
  rw [if_pos hstopped] at hexec
  refine ⟨_, hexec, within_statusBlock ((((State.within_refl s _).set _ _).set _ _).set _ _) _ (by decide),
    onlyRegions_statusBlock ((((State.onlyRegions_refl s _).set _ _ hctl).set _ _ hstat).set (Fd.HOST_RING_STAT_CAUSE r) _
        hstat) _,
    ?_, ?_, ?_⟩
  · rw [State.ringState, get_statusBlock,
      State.get_set_apart _ _ (by simp [Field.apart, Fd.HOST_RING_STAT_CAUSE, Fd.HOST_RING_STAT_STATE])]
    exact State.get_set _ _ _ (by simp [Fd.HOST_RING_STAT_STATE]) (by simp [Fd.HOST_RING_STAT_STATE])
  · rw [get_statusBlock, State.get_set_apart _ _ (by simp [Field.apart, Fd.HOST_RING_STAT_CAUSE, Fd.HOST_RING_CTL_RESUME]),
      State.get_set_apart _ _ (by simp [Field.apart, Fd.HOST_RING_STAT_STATE, Fd.HOST_RING_CTL_RESUME])]
    exact clear_of_lt (by simp [Fd.HOST_RING_CTL_RESUME]) (by simp [Fd.HOST_RING_CTL_RESUME]) _
  · rw [get_statusBlock]
    exact clear_of_lt (by simp [Fd.HOST_RING_STAT_CAUSE]) (by simp [Fd.HOST_RING_STAT_CAUSE]) _

theorem resume_ignored (h : s.admits (.ringResume r) = true) (hstate : s.ringState r ≠ rSTOPPED) :
    ∃ t, exec (.ringResume r) s = .next t ∧ s.within [.io] t ∧ s.onlyRegs [(Fd.HOST_RING_CTL_RESUME r).off] t ∧
      t.ringState r = s.ringState r ∧ t.get (Fd.HOST_RING_CTL_RESUME r) = 0 := by
  have hexec := exec_resume h
  rw [if_neg hstate] at hexec
  exact ⟨_, hexec, (State.within_refl s _).set _ _, (State.onlyRegs_refl s _).set _ _,
    State.get_set_off _ _ (by simp [Fd.HOST_RING_STAT_STATE, Fd.HOST_RING_CTL_RESUME]),
    clear_of_lt (by simp [Fd.HOST_RING_CTL_RESUME]) (by simp [Fd.HOST_RING_CTL_RESUME]) _⟩

/-! ## Loss of bus mastering and of D0 (R309) -/

/-- The turn of one ring. -/
def stopTurn (cause r : ℕ) (s : State) : State :=
  if s.ringState r = rRUN then (s.drawNat 65536).2.stopRing r cause (s.drawNat 65536).1 else s

theorem stopRings_eq (cause : ℕ) (s : State) : s.stopRings cause = s.each allRings (stopTurn cause) := rfl

/-- A ring that stops leaves the registers of the others. -/
theorem get_stopRing_other {q : Fin 14} (hq : q ≠ r) (cause code : ℕ) (s : State) :
    (s.stopRing q cause code).ringState r = s.ringState r ∧
      (s.stopRing q cause code).get (Fd.HOST_RING_STAT_CAUSE r) = s.get (Fd.HOST_RING_STAT_CAUSE r) := by
  obtain ⟨-, -, hstate, hcause, -⟩ := steady_ring r
  have hne : (r : ℕ) ≠ q := fun h => hq (Fin.ext h.symm)
  have hget {g : Field} (hp : g.steady = true) (h : g.off ≠ (Fd.HOST_RING_STAT_STATE q).off) :
      (s.stopRing q cause code).get g = s.get g := by
    unfold State.stopRing
    rw [State.get_irq _ _ hp, State.get_count _ _ _ _ _ hp, get_statusBlock, State.get_err _ _ hp, State.showFetched,
      State.get_set_off (f := Fd.HOST_RING_STAT_FETCHED q) _ _ h, State.get_set_off (f := Fd.HOST_RING_STAT_CAUSE q) _ _ h,
      State.get_set_off (f := Fd.HOST_RING_STAT_STATE q) _ _ h, get_ring]
  have hoff : (Fd.HOST_RING_STAT_STATE r).off ≠ (Fd.HOST_RING_STAT_STATE q).off := by
    simp only [Fd.HOST_RING_STAT_STATE]
    omega
  exact ⟨hget hstate hoff, hget hcause hoff⟩

theorem get_turn_other {q : Fin 14} (hq : q ≠ r) (cause : ℕ) (s : State) : (stopTurn cause q s).ringState r = s.ringState r ∧
    (stopTurn cause q s).get (Fd.HOST_RING_STAT_CAUSE r) = s.get (Fd.HOST_RING_STAT_CAUSE r) := by
  unfold stopTurn
  split
  · exact get_stopRing_other hq cause _ (s.drawNat 65536).2
  · exact ⟨rfl, rfl⟩

/-- The turn of ring r itself. -/
theorem turn_own {cause : ℕ} (hc : cause < 16) (s : State) : (stopTurn cause r s).ringState r
      = (if s.ringState r = rRUN then rSTOPPED else s.ringState r) ∧
    (s.ringState r = rRUN → (stopTurn cause r s).get (Fd.HOST_RING_STAT_CAUSE r) = cause) := by
  unfold stopTurn
  obtain ⟨hstate, hcause, -⟩ := stopRing_facts r hc (s.drawNat 65536).1 (s.drawNat 65536).2
  by_cases h : s.ringState r = rRUN
  · rw [if_pos h, if_pos h]
    exact ⟨hstate, fun _ => hcause⟩
  · rw [if_neg h, if_neg h]
    exact ⟨rfl, fun hrun => absurd hrun h⟩

theorem stopRings_ring {cause : ℕ} (hc : cause < 16) (r : Fin 14) (s : State) :
    (s.stopRings cause).ringState r = (if s.ringState r = rRUN then rSTOPPED else s.ringState r) ∧
      (s.ringState r = rRUN → (s.stopRings cause).get (Fd.HOST_RING_STAT_CAUSE r) = cause) := by
  rw [stopRings_eq]
  refine each_at (x := (r : ℕ)) (l := allRings) (P := fun w => w.ringState r = s.ringState r)
    (Q := fun w => w.ringState r = (if s.ringState r = rRUN then rSTOPPED else s.ringState r) ∧
      (s.ringState r = rRUN → w.get (Fd.HOST_RING_STAT_CAUSE r) = cause))
    (List.mem_range.mpr r.isLt) List.nodup_range ?_ ?_ ?_ rfl
  · intro q hq hne w hw
    exact (get_turn_other (q := ⟨q, List.mem_range.mp hq⟩) (by intro h; exact hne (congrArg Fin.val h)) cause w).1.trans hw
  · intro w hw
    obtain ⟨hstate, hcause⟩ := turn_own (r := r) hc w
    rw [hw] at hstate hcause
    exact ⟨hstate, hcause⟩
  · rintro q hq hne w ⟨hstate, hcause⟩
    obtain ⟨kstate, kcause⟩ := get_turn_other (q := ⟨q, List.mem_range.mp hq⟩) (r := r)
      (by intro h; exact hne (congrArg Fin.val h)) cause w
    exact ⟨kstate.trans hstate, fun h => kcause.trans (hcause h)⟩

theorem within_turn (h : s.within [.io, .host] t) (cause q : ℕ) : s.within [.io, .host] (stopTurn cause q t) := by
  unfold stopTurn
  split
  · exact within_stopRing (h.io_upd _) _ _ _ (by decide) (by decide)
  · exact h

theorem regions_draw {n : ℕ} (h : s.onlyRegions [13] t) : s.onlyRegions [13] (t.drawNat n).2 := h

theorem regions_turn (h : s.onlyRegions [13] t) (cause : ℕ) {q : ℕ} (hq : q < 14) : s.onlyRegions [13] (stopTurn cause q t)
    := by
  unfold stopTurn
  split
  · exact onlyRegions_stopRing (regions_draw h) hq _ _ (by decide)
  · exact h

theorem stopRings_frame (cause : ℕ) (s : State) : s.within [.io, .host] (s.stopRings cause) ∧ s.onlyRegions [13]
    (s.stopRings cause) := by
  rw [stopRings_eq]
  refine ⟨State.within.each (State.within_refl s _) fun q v hv => within_turn hv cause q, ?_⟩
  exact List.foldlRecOn (motive := fun v => s.onlyRegions [13] v) allRings _ (State.onlyRegions_refl s _)
    fun v hv q hq => regions_turn hv cause (List.mem_range.mp hq)

/-- A field of the configuration space of PF0 is left by the rings that stop. -/
theorem cfg_stopRings {a : ℕ} (hf : f.off = Fd.cfgBase false + a) (ha : a < 0x1000) (cause : ℕ) (s : State) :
    (s.stopRings cause).get f = s.get f := by
  have hbase : f.off = 0x06000000 + a := hf
  refine Io.get_congr ((stopRings_frame cause s).2 f.off ?_ ?_ ?_)
  · rw [hbase, show (0x06000000 + a) / 0x200000 = 48 by omega]
    decide
  · rw [hbase]
    simp only [alarmReg, Bool.or_eq_false_iff, beq_eq_false_iff_ne, decide_eq_false_iff_not]
    omega
  · rw [hbase]
    simp only [Fd.MGMT_LOG_LOST_COUNT]
    omega

theorem powered_of_admits (pm : Bool) (h : s.admits (.ringStop pm) = true) : s.powered = true := h

theorem exec_stop {pm : Bool} (h : s.admits (.ringStop pm) = true)
    (hon : if pm then s.get (Fd.CFG_PM_STATE false) = 0 else s.get (Fd.CFG_CMD_BME false) = 1) :
    exec (.ringStop pm) s = .next ((s.set (if pm then Fd.CFG_PM_STATE false else Fd.CFG_CMD_BME false)
        (if pm then 3 else 0)).stopRings
      (if pm then 4 else 3)) := by
  change execRingStop pm s = _
  unfold execRingStop State.whenOn
  rw [if_pos (powered_of_admits pm h)]
  cases pm
  · have hbme : s.is (Fd.CFG_CMD_BME false) = true := beq_iff_eq.mpr hon
    simp only [Bool.false_eq_true, if_false, hbme, if_true]
    rfl
  · have hpm : s.get (Fd.CFG_PM_STATE false) = 0 := hon
    simp only [if_true, hpm]
    rfl

/-- Every running ring stops. -/
theorem stop_all {pm : Bool} (h : s.admits (.ringStop pm) = true)
    (hon : if pm then s.get (Fd.CFG_PM_STATE false) = 0 else s.get (Fd.CFG_CMD_BME false) = 1) :
    ∃ t, exec (.ringStop pm) s = .next t ∧ s.within [.io, .host] t ∧ s.onlyRegions [13, 48] t ∧
      (if pm then t.get (Fd.CFG_PM_STATE false) = 3 else t.get (Fd.CFG_CMD_BME false) = 0) ∧
      ∀ r : Fin 14, t.ringState r = (if s.ringState r = rRUN then rSTOPPED else s.ringState r) ∧
        (s.ringState r = rRUN → t.get (Fd.HOST_RING_STAT_CAUSE r) = if pm then 4 else 3) := by
  obtain ⟨hw, hregs⟩ := stopRings_frame (if pm then 4 else 3)
    (s.set (if pm then Fd.CFG_PM_STATE false else Fd.CFG_CMD_BME false) (if pm then 3 else 0))
  have hset : s.onlyRegions [13, 48] (s.set (if pm then Fd.CFG_PM_STATE false else Fd.CFG_CMD_BME false)
      (if pm then 3 else 0)) :=
    (State.onlyRegions_refl s _).set _ _ (by cases pm <;> decide)
  refine ⟨_, exec_stop h hon, State.within.trans ((State.within_refl s _).set _ _) hw,
    onlyRegions_trans hset fun a ha => hregs a (fun hm => ha (by simp at hm ⊢; exact .inl hm)), ?_, fun r => ?_⟩
  · cases pm
    · exact (cfg_stopRings (a := 0x04) rfl (by decide) 3 _).trans (clear_of_lt (by decide) (by decide) s)
    · exact (cfg_stopRings (a := 0x44) rfl (by decide) 4 _).trans (State.get_set _ _ _ (by decide) (by decide))
  · have hsame : (s.set (if pm then Fd.CFG_PM_STATE false else Fd.CFG_CMD_BME false) (if pm then 3 else 0)).ringState r
        = s.ringState r := by
      refine State.get_set_off _ _ ?_
      have hr := r.isLt
      cases pm <;> simp [Fd.HOST_RING_STAT_STATE, Fd.CFG_PM_STATE, Fd.CFG_CMD_BME, Fd.cfgBase] <;> omega
    obtain ⟨hstate, hcause⟩ := stopRings_ring (cause := if pm then 4 else 3) (by cases pm <;> decide) r
      (s.set (if pm then Fd.CFG_PM_STATE false else Fd.CFG_CMD_BME false) (if pm then 3 else 0))
    rw [hsame] at hstate hcause
    exact ⟨hstate, hcause⟩

/-! ## The causes of the interrupts (R36) -/

/-- The causes of the mask cleared. -/
def causesCleared (mask : Wide) (s : State) : State :=
  let lo := s.put Fd.HOST_IRQ_CAUSE_LO_CAUSE.off
    (s.reg Fd.HOST_IRQ_CAUSE_LO_CAUSE.off &&& ~~~(BitVec.ofNat 32 (mask.toNat % 2 ^ 32)))
  lo.put Fd.HOST_IRQ_CAUSE_HI_CAUSE.off
    (lo.reg Fd.HOST_IRQ_CAUSE_HI_CAUSE.off &&& ~~~(BitVec.ofNat 32 (mask.toNat / 2 ^ 32)))

theorem exec_clear (mask hw : Wide) (h : s.admits (.irqCauseClear mask hw) = true) : exec (.irqCauseClear mask hw) s =
    .next ((causesCleared mask s).each ((List.range 64).filter fun i => hw.getLsbD i && definedSource i) State.irq) := by
  change execIrqCauseClear mask hw s = _
  unfold execIrqCauseClear
  rw [State.writeRow_admitted h]
  rfl

/-- A bit of a register. -/
theorem get_bit_reg (a k : ℕ) (s : State) : s.get ⟨a, k, k⟩ = if (s.reg a).getLsbD k then 1 else 0 := by
  have hbit : s.get ⟨a, k, k⟩ = (s.reg a).toNat / 2 ^ k % 2 := by simp [State.get, State.reg, Io.get, bitsOf]
  rw [hbit, BitVec.getLsbD, Nat.testBit_eq_decide_div_mod_eq]
  have hlt := Nat.mod_lt ((s.reg a).toNat / 2 ^ k) (show 0 < 2 by decide)
  by_cases hone : (s.reg a).toNat / 2 ^ k % 2 = 1
  · simp [hone]
  · simp [hone]; omega

theorem reg_cleared_lo (mask : Wide) (s : State) : (causesCleared mask s).reg 0x01A10020 =
    s.reg 0x01A10020 &&& ~~~(BitVec.ofNat 32 (mask.toNat % 2 ^ 32)) :=
  (State.reg_put_other _ _ (by decide)).trans (State.reg_put ..)

theorem reg_cleared_hi (mask : Wide) (s : State) : (causesCleared mask s).reg 0x01A10024 =
    s.reg 0x01A10024 &&& ~~~(BitVec.ofNat 32 (mask.toNat / 2 ^ 32)) := by
  refine (State.reg_put ..).trans ?_
  rw [State.reg_put_other _ _ (by decide)]
  rfl

/-- A cause that the mask names reads 0, and another as before. -/
theorem get_cleared (mask : Wide) (i : Fin 64) (s : State) :
    (causesCleared mask s).get (causeBit i) = if mask.getLsbD i then 0 else s.get (causeBit i) := by
  have hi := i.isLt
  have hand (w : Word) (m : ℕ) {k : ℕ} (hk : k < 32) : (w &&& ~~~(BitVec.ofNat 32 m)).getLsbD k =
      (w.getLsbD k && !m.testBit k) := by
    rw [BitVec.getLsbD_and, BitVec.getLsbD_not, BitVec.getLsbD_ofNat, decide_eq_true hk, Bool.true_and, Bool.true_and]
  have hmask : mask.getLsbD i = mask.toNat.testBit i := rfl
  unfold causeBit
  by_cases hlo : (i : ℕ) < 32
  · have hmod : (i : ℕ) % 32 = i := Nat.mod_eq_of_lt hlo
    rw [if_pos hlo, hmod, get_bit_reg, get_bit_reg, reg_cleared_lo, hand _ _ hlo, hmask, Nat.testBit_mod_two_pow]
    simp only [hlo, decide_true, Bool.true_and]
    cases mask.toNat.testBit i <;> simp
  · have hsub : (i : ℕ) % 32 < 32 := Nat.mod_lt _ (by decide)
    have heq : (i : ℕ) % 32 + 32 = i := by omega
    rw [if_neg hlo, get_bit_reg, get_bit_reg, reg_cleared_hi, hand _ _ hsub, hmask, Nat.testBit_div_two_pow, heq]
    cases mask.toNat.testBit i <;> simp

theorem within_cleared (mask : Wide) (s : State) : s.within [.io] (causesCleared mask s) :=
    ((State.within_refl s _).put _ _).put _ _

theorem clear_all (mask : Wide) (h : s.admits (.irqCauseClear mask 0) = true) :
    ∃ t, exec (.irqCauseClear mask 0) s = .next t ∧ s.within [.io] t ∧
      ∀ i : Fin 64, t.get (causeBit i) = if mask.getLsbD i then 0 else s.get (causeBit i) := by
  have hnone : ((List.range 64).filter fun i => (0 : Wide).getLsbD i && definedSource i) = [] := by simp
  have hexec := exec_clear mask 0 h
  rw [hnone] at hexec
  exact ⟨_, hexec, within_cleared mask s, fun i => get_cleared mask i s⟩

/-- A cause whose source fires in the same cycle stays set. -/
theorem clear_fires (mask hw : Wide) (i : Fin 64) (h : s.admits (.irqCauseClear mask hw) = true) (hset : hw.getLsbD i = true)
    (hdef : definedSource i = true) :
    ∃ t, exec (.irqCauseClear mask hw) s = .next t ∧ s.within [.io] t ∧ t.get (causeBit i) = 1 := by
  refine ⟨_, exec_clear mask hw h, State.within.each (within_cleared mask s) fun n v hv => hv.irq n, ?_⟩
  have hmem : (i : ℕ) ∈ (List.range 64).filter fun i => hw.getLsbD i && definedSource i := by
    rw [List.mem_filter]
    exact ⟨List.mem_range.mpr i.isLt, by rw [hset, hdef]; rfl⟩
  exact each_at (P := fun _ => True) (Q := fun w => caused i w.io) hmem (List.nodup_range.filter _) (fun _ _ _ _ _ => trivial)
    (fun w _ => irq_causes i w.io) (fun n _ _ w hc => caused_irq hc n) trivial

end Sys2Proof.Machine.RingStates

namespace Sys2Proof.Machine
open RingStates

/-- Settles O34: a ring's commands are one case of its state, and the turn of one ring leaves the others. -/
theorem ringStatesComplete : Obligations.RingStatesComplete := by
  unfold Obligations.RingStatesComplete
  refine ⟨?_, ?_, ?_, ?_, ?_, ?_, ?_, ?_, ?_⟩
  · exact fun r s h hen => enable_starts h hen
  · exact fun r s h hen => exec_enable_on h hen
  · exact fun r flush next s h hen => exec_disable_off flush next h hen
  · exact fun r flush next s h hen => disable_ends flush next h hen
  · exact fun r s h hstopped => resume_runs h hstopped
  · exact fun r s h hstate => resume_ignored h hstate
  · exact fun pm s h hon => stop_all h hon
  · exact fun mask s h => clear_all mask h
  · exact fun mask hw i s h hset hdef => clear_fires mask hw i h hset hdef

end Sys2Proof.Machine
end

section
/-!
SUPPORT. SAFE's shared operations (R369 to R378): what a drive of the switches, an entry into state 4 and a cause set and leave.
-/
-- One thread for the lemmas: a thread for each would ask for more memory than a build may have.
set_option Elab.async false

namespace Sys2Proof.Machine.SafeOps

variable {s t : State} {f : Field} {rs : List ℕ} {u : List Part}

/-! ## What they leave -/

theorem within_emitPin (h : s.within u t) (o : Out) (k : .io ∈ u) : s.within u (t.emitPin o) := State.within.onlyIf h
    (h.emit _ k)

theorem onlyRegs_emitPin (h : s.onlyRegs rs t) (o : Out) : s.onlyRegs rs (t.emitPin o) := State.onlyRegs.onlyIf h (h.emit _)

theorem get_emitPin (o : Out) (s : State) (f : Field) : (s.emitPin o).get f = s.get f := by
  unfold State.emitPin State.onlyIf
  split <;> rfl

theorem within_switchLsup (h : s.within u t) (run : Bool) (k : .io ∈ u) (l : .emt ∈ u) : s.within u (t.switchLsup run) := by
  unfold State.switchLsup
  have hedge : s.within u _ := within_emitPin ((h.setBit Fd.EMIT_LSUP_STAT_RUN run k).emt_upd
    (fun x => if run then { x with lsupFrom := t.edgeTick } else x) l)
    (.lsupPwm run (t.get Fd.EMIT_LSUP_CTL_FSW) (t.get Fd.EMIT_LSUP_ILIM_IPK)) k
  exact State.within.onlyIf hedge (within_emitPin hedge _ k)

theorem onlyRegs_switchLsup (h : s.onlyRegs rs t) (run : Bool) (k : Fd.EMIT_LSUP_STAT_VREF.off ∈ rs) :
    s.onlyRegs rs (t.switchLsup run) := by
  unfold State.switchLsup
  have hedge : s.onlyRegs rs _ := onlyRegs_emitPin ((h.setBit Fd.EMIT_LSUP_STAT_RUN run k).emt_upd
    (fun x => if run then { x with lsupFrom := t.edgeTick } else x))
    (.lsupPwm run (t.get Fd.EMIT_LSUP_CTL_FSW) (t.get Fd.EMIT_LSUP_ILIM_IPK))
  exact State.onlyRegs.onlyIf hedge (onlyRegs_emitPin hedge _)

theorem get_switchLsup (h : f.off ≠ Fd.EMIT_LSUP_STAT_VREF.off) (run : Bool) (s : State) : (s.switchLsup run).get f = s.get
    f := by
  unfold State.switchLsup
  simp only
  rw [State.onlyIf]
  split
  · rw [get_emitPin, get_emitPin, State.get_emit_upd]
    exact State.get_set_off _ _ h
  · rw [get_emitPin, State.get_emit_upd]
    exact State.get_set_off _ _ h

/-- VREF returns to VMIN while the supply is off. -/
def fallen (s : State) : State :=
  s.onlyIf (!s.lsupOn) fun s =>
    (s.set Fd.EMIT_LSUP_STAT_VREF (s.get Fd.EMIT_LSUP_VLIM_VMIN)).emit' fun x => { x with paused := false }

/-- The supply stands as it was, or starts or stops its switching. -/
theorem showLsup_cases (s : State) : s.showLsup = fallen s ∨ ∃ run, s.showLsup = (fallen s).switchLsup run := by
  unfold State.showLsup
  simp only
  split
  · exact .inl rfl
  · exact .inr ⟨_, rfl⟩

theorem within_fallen (h : s.within u t) (k : .io ∈ u) (l : .emt ∈ u) : s.within u (fallen t) :=
  State.within.onlyIf h ((h.set _ _ k).emt_upd _ l)

theorem within_showLsup (h : s.within u t) (k : .io ∈ u) (l : .emt ∈ u) : s.within u t.showLsup := by
  obtain hs | ⟨run, hs⟩ := showLsup_cases t <;> rw [hs]
  · exact within_fallen h k l
  · exact within_switchLsup (within_fallen h k l) run k l

theorem onlyRegs_fallen (h : s.onlyRegs rs t) (k : Fd.EMIT_LSUP_STAT_VREF.off ∈ rs) : s.onlyRegs rs (fallen t) :=
  State.onlyRegs.onlyIf h ((h.set _ _ k).emt_upd _)

theorem onlyRegs_showLsup (h : s.onlyRegs rs t) (k : Fd.EMIT_LSUP_STAT_VREF.off ∈ rs) : s.onlyRegs rs t.showLsup := by
  obtain hs | ⟨run, hs⟩ := showLsup_cases t <;> rw [hs]
  · exact onlyRegs_fallen h k
  · exact onlyRegs_switchLsup (onlyRegs_fallen h k) run k

theorem get_showLsup (h : f.off ≠ Fd.EMIT_LSUP_STAT_VREF.off) (s : State) : s.showLsup.get f = s.get f := by
  have hfall : (fallen s).get f = s.get f := by
    unfold fallen State.onlyIf
    split
    · exact State.get_set_off _ _ h
    · rfl
  obtain hs | ⟨run, hs⟩ := showLsup_cases s <;> rw [hs]
  · exact hfall
  · exact (get_switchLsup h run _).trans hfall

theorem within_switched (h : s.within u t) (k : .io ∈ u) (l : .emt ∈ u) : s.within u t.switched :=
  within_showLsup ((State.within.onlyIf h (h.set _ _ k)).emit _ k) k l

theorem onlyRegs_switched (h : s.onlyRegs rs t) (k : Fd.SAFE_STAT_STATE.off ∈ rs) (l : Fd.EMIT_LSUP_STAT_VREF.off ∈ rs) :
    s.onlyRegs rs t.switched :=
  onlyRegs_showLsup ((State.onlyRegs.onlyIf h (h.set Fd.SAFE_STAT_VSNS 0 k)).emit _) l

theorem get_switched (hv : Fd.SAFE_STAT_VSNS.apart f = true) (hl : f.off ≠ Fd.EMIT_LSUP_STAT_VREF.off) (s : State) :
    s.switched.get f = s.get f := by
  unfold State.switched
  rw [get_showLsup hl, State.get_emit, State.onlyIf]
  split
  · exact State.get_set_apart _ _ hv
  · rfl

theorem within_driveHs (h : s.within u t) (k : .io ∈ u) : s.within u t.driveHs := (h.setBit _ _ k).setBit _ _ k
theorem within_driveLs (h : s.within u t) (k : .io ∈ u) : s.within u t.driveLs := (h.setBit _ _ k).setBit _ _ k

theorem onlyRegs_driveHs (h : s.onlyRegs rs t) (k : Fd.SAFE_STAT_STATE.off ∈ rs) : s.onlyRegs rs t.driveHs :=
  (h.setBit Fd.SAFE_STAT_HS_EN _ k).setBit Fd.SAFE_STAT_HS_FB _ k
theorem onlyRegs_driveLs (h : s.onlyRegs rs t) (k : Fd.SAFE_STAT_STATE.off ∈ rs) : s.onlyRegs rs t.driveLs :=
  (h.setBit Fd.SAFE_STAT_LS_EN _ k).setBit Fd.SAFE_STAT_LS_FB _ k

theorem within_drive (h : s.within u t) (k : .io ∈ u) (l : .emt ∈ u) : s.within u t.drive := by
  unfold State.drive
  exact within_switched (within_driveLs (State.within.onlyIf h (within_driveHs h k)) k) k l

theorem onlyRegs_drive (h : s.onlyRegs rs t) (k : Fd.SAFE_STAT_STATE.off ∈ rs) (l : Fd.EMIT_LSUP_STAT_VREF.off ∈ rs) :
    s.onlyRegs rs t.drive := by
  unfold State.drive
  exact onlyRegs_switched (onlyRegs_driveLs (State.onlyRegs.onlyIf h (onlyRegs_driveHs h k)) k) k l

theorem safe_of_within {u : List Part} (h : s.within u t) (k : Part.safe ∉ u) : t.safe = s.safe := by
  obtain ⟨-, -, -, -, -, hsafe, -⟩ := h
  exact hsafe k

theorem safe_drive (s : State) : s.drive.safe = s.safe :=
  safe_of_within (within_drive (State.within_refl s [.io, .emt]) (by decide) (by decide)) (by decide)

/-- The fields that a drive of the switches leaves. -/
def undriven (f : Field) : Bool :=
  Fd.SAFE_STAT_HS_EN.apart f && Fd.SAFE_STAT_HS_FB.apart f && Fd.SAFE_STAT_LS_EN.apart f && Fd.SAFE_STAT_LS_FB.apart f
    && Fd.SAFE_STAT_VSNS.apart f && f.off != Fd.EMIT_LSUP_STAT_VREF.off

theorem get_driveHs (hen : Fd.SAFE_STAT_HS_EN.apart f = true) (hfb : Fd.SAFE_STAT_HS_FB.apart f = true) (s : State) :
    s.driveHs.get f = s.get f := by
  unfold State.driveHs State.setBit
  rw [State.get_set_apart _ _ hfb, State.get_set_apart _ _ hen]

theorem get_driveLs (hen : Fd.SAFE_STAT_LS_EN.apart f = true) (hfb : Fd.SAFE_STAT_LS_FB.apart f = true) (s : State) :
    s.driveLs.get f = s.get f := by
  unfold State.driveLs State.setBit
  rw [State.get_set_apart _ _ hfb, State.get_set_apart _ _ hen]

theorem get_drive (h : undriven f = true) (s : State) : s.drive.get f = s.get f := by
  simp only [undriven, Bool.and_eq_true, bne_iff_ne] at h
  obtain ⟨⟨⟨⟨⟨hhs, hhf⟩, hls⟩, hlf⟩, hv⟩, hl⟩ := h
  unfold State.drive
  rw [get_switched hv hl, get_driveLs hls hlf, State.onlyIf]
  split
  · exact get_driveHs hhs hhf s
  · rfl

/-- The low-side switch follows channel B's copy, and the high-side one channel A's, where it acts. -/
theorem drive_switches (s : State) :
    s.drive.get Fd.SAFE_STAT_LS_EN = (if lsCommand (s.get Fd.SAFE_STAT_B_STATE) s.safe.testStep then 1 else 0) ∧
      (s.chanA = true →
        s.drive.get Fd.SAFE_STAT_HS_EN = if hsCommand (s.get Fd.SAFE_STAT_A_STATE) s.safe.testStep then 1 else 0) := by
  have hls (v : State) : v.driveLs.get Fd.SAFE_STAT_LS_EN
      = if lsCommand (v.get Fd.SAFE_STAT_B_STATE) v.safe.testStep then 1 else 0 := by
    unfold State.driveLs
    simp only
    rw [State.setBit, State.get_set_apart _ _ (by decide)]
    exact State.get_setBit _ _ _ (by decide) (by decide)
  have hhs (v : State) : v.driveHs.get Fd.SAFE_STAT_HS_EN
      = if hsCommand (v.get Fd.SAFE_STAT_A_STATE) v.safe.testStep then 1 else 0 := by
    unfold State.driveHs
    simp only
    rw [State.setBit, State.get_set_apart _ _ (by decide)]
    exact State.get_setBit _ _ _ (by decide) (by decide)
  have hb : (s.onlyIf s.chanA State.driveHs).get Fd.SAFE_STAT_B_STATE = s.get Fd.SAFE_STAT_B_STATE := by
    unfold State.onlyIf
    split
    · exact get_driveHs (by decide) (by decide) s
    · rfl
  have hstep : (s.onlyIf s.chanA State.driveHs).safe = s.safe := by
    unfold State.onlyIf
    split <;> rfl
  unfold State.drive
  refine ⟨?_, fun hact => ?_⟩
  · rw [get_switched (by decide) (by decide), hls, hb, hstep]
  · rw [get_switched (by decide) (by decide), get_driveLs (by decide) (by decide), State.onlyIf, if_pos hact, hhs]

/-! ## A change of state (R369, R372) -/

theorem within_setSafeSt (h : s.within u t) (n : ℕ) (k : .io ∈ u) (l : .safe ∈ u) : s.within u (t.setSafeSt n) :=
  (State.within.onlyIf ((h.set _ _ k).set _ _ k) (((h.set _ _ k).set _ _ k).set _ _ k)).safe_upd _ l

theorem onlyRegs_setSafeSt (h : s.onlyRegs rs t) (n : ℕ) (k : Fd.SAFE_STAT_STATE.off ∈ rs) : s.onlyRegs rs (t.setSafeSt n) := by
  have hset : s.onlyRegs rs ((t.set Fd.SAFE_STAT_STATE n).set Fd.SAFE_STAT_B_STATE n) := (h.set _ _ k).set
      Fd.SAFE_STAT_B_STATE _ k
  exact (State.onlyRegs.onlyIf hset (hset.set Fd.SAFE_STAT_A_STATE _ k)).safe_upd _

/-- The fields of the state's copies. -/
def notState (f : Field) : Bool := Fd.SAFE_STAT_STATE.apart f && Fd.SAFE_STAT_A_STATE.apart f && Fd.SAFE_STAT_B_STATE.apart f

theorem get_setSafeSt (h : notState f = true) (n : ℕ) (s : State) : (s.setSafeSt n).get f = s.get f := by
  simp only [notState, Bool.and_eq_true] at h
  obtain ⟨⟨hs, ha⟩, hb⟩ := h
  have hset : ((s.set Fd.SAFE_STAT_STATE n).set Fd.SAFE_STAT_B_STATE n).get f = s.get f := by
    rw [State.get_set_apart _ _ hb, State.get_set_apart _ _ hs]
  unfold State.setSafeSt State.statusDue State.onlyIf
  rw [State.get_safe_upd]
  split
  · rw [State.get_set_apart _ _ ha, hset]
  · exact hset

theorem setSafeSt_copies {n : ℕ} (hn : n < 8) (s : State) : (s.setSafeSt n).safeSt = n ∧ (s.setSafeSt n).get
    Fd.SAFE_STAT_B_STATE = n ∧
    (s.chanA = true → (s.setSafeSt n).get Fd.SAFE_STAT_A_STATE = n) := by
  have hA {g : Field} (h : Fd.SAFE_STAT_A_STATE.apart g = true) (v : State) :
      (v.onlyIf s.chanA (State.set Fd.SAFE_STAT_A_STATE n)).get g = v.get g := by
    unfold State.onlyIf
    split
    · exact State.get_set_apart _ _ h
    · rfl
  unfold State.setSafeSt State.statusDue State.safeSt
  refine ⟨?_, ?_, fun hact => ?_⟩
  · rw [State.get_safe_upd, hA (by decide), State.get_set_apart _ _ (by decide)]
    exact (State.get_set _ _ _ (by decide) (by decide)).trans (Nat.mod_eq_of_lt hn)
  · rw [State.get_safe_upd, hA (by decide)]
    exact (State.get_set _ _ _ (by decide) (by decide)).trans (Nat.mod_eq_of_lt hn)
  · rw [State.get_safe_upd, State.onlyIf, if_pos hact]
    exact (State.get_set _ _ _ (by decide) (by decide)).trans (Nat.mod_eq_of_lt hn)

/-- Whether channel A acts turns on no field that SAFE writes. -/
theorem chanA_of_within {u : List Part} (h : s.within u t) (hm : Part.mgmt ∉ u) (hc : Part.chip ∉ u)
    (hget : t.get (Fd.CHIP_RESTARTING_MASK.bit 16) = s.get (Fd.CHIP_RESTARTING_MASK.bit 16)) : t.chanA = s.chanA := by
  obtain ⟨-, -, -, -, -, -, -, -, -, -, -, -, hmgmt, -, hchip⟩ := h
  have his : t.is (Fd.CHIP_RESTARTING_MASK.bit 16) = s.is (Fd.CHIP_RESTARTING_MASK.bit 16) := congrArg (· == 1) hget
  unfold State.chanA State.fwRuns
  rw [his, hmgmt hm, hchip hc]

/-! ## Entry into state 4 (R376) -/

/-- The state with the entry into state 4 noted, before the switches are driven. -/
def entered (b : ℕ) (s : State) : State :=
  (((((s.setSafeSt stSAFE).set Fd.SAFE_FIRST_BIT b).bumpSat Fd.SAFE_ENTRIES_COUNT 1).setWide 18 0 s.tick).setWide 18 1
    (BitVec.ofNat 64 s.io.era)).safe' fun x => { x with testStep := 0, permit := false }

theorem enterSafe_eq (b : ℕ) (s : State) : s.enterSafe b = ((entered b s).drive.driveFault true).count 18
    Src.SAFE_SAFE_ENTRIES 0 1 :=
  rfl

theorem within_driveFault (h : s.within u t) (b : Bool) (k : .io ∈ u) : s.within u (t.driveFault b) := (h.setBit _ _ k).emit _ k

theorem onlyRegs_driveFault (h : s.onlyRegs rs t) (b : Bool) (k : Fd.SAFE_STAT_STATE.off ∈ rs) : s.onlyRegs rs
    (t.driveFault b) :=
  (h.setBit Fd.SAFE_STAT_FAULT _ k).emit _

theorem get_driveFault (h : Fd.SAFE_STAT_FAULT.apart f = true) (b : Bool) (s : State) : (s.driveFault b).get f = s.get f :=
  State.get_set_apart _ _ h

theorem safe_driveFault (b : Bool) (s : State) : (s.driveFault b).safe = s.safe := rfl

theorem driveFault_shown (b : Bool) (s : State) : (s.driveFault b).get Fd.SAFE_STAT_FAULT = if b then 1 else 0 :=
  State.get_setBit _ _ _ (by decide) (by decide)

theorem within_entered (h : s.within u t) (b : ℕ) (k : .io ∈ u) (l : .safe ∈ u) : s.within u (entered b t) :=
  (((((within_setSafeSt h stSAFE k l).set _ _ k).bumpSat _ _ k).setWide _ _ _ k).setWide _ _ _ k).safe_upd _ l

/-- The registers that an entry into state 4 writes. -/
def entryRegs : List ℕ := [Fd.SAFE_STAT_STATE, Fd.SAFE_ENTRIES_COUNT, Fd.SAFE_FIRST_BIT, Fd.EMIT_LSUP_STAT_VREF].map Field.off

theorem onlyRegs_entered (h : s.onlyRegs rs t) (b : ℕ) (k : ∀ a ∈ entryRegs, a ∈ rs) : s.onlyRegs rs (entered b t) :=
  (((((onlyRegs_setSafeSt h stSAFE (k _ (by decide))).set _ _ (k _ (by decide))).bumpSat _ _ (k _ (by decide))).setWide _ _
      _).setWide
    _ _ _).safe_upd _

theorem within_enterSafe (h : s.within u t) (b : ℕ) (k : .io ∈ u) (l : .emt ∈ u) (m : .safe ∈ u) : s.within u
    (t.enterSafe b) := by
  rw [enterSafe_eq]
  exact (within_driveFault (within_drive (within_entered h b k m) k l) true k).count _ _ _ _ k

theorem onlyRegs_enterSafe (h : s.onlyRegs rs t) (b : ℕ) (k : ∀ a ∈ entryRegs, a ∈ rs) : s.onlyRegs rs (t.enterSafe b) := by
  rw [enterSafe_eq]
  exact (onlyRegs_driveFault (onlyRegs_drive (onlyRegs_entered h b k) (k _ (by decide)) (k _ (by decide))) true
    (k _ (by decide))).count _ _ _ _

/-- What an entry into state 4 shows: the copies, the first cause and its tick, the switches open, and FAULT_N asserted. -/
theorem enterSafe_shows {b : ℕ} (hb : b < 16) (s : State) : (s.enterSafe b).safeSt = stSAFE ∧
    (s.enterSafe b).get Fd.SAFE_FIRST_BIT = b ∧ (s.enterSafe b).get Fd.SAFE_STAT_LS_EN = 0 ∧
    (s.enterSafe b).get Fd.SAFE_STAT_FAULT = 1 ∧ (s.enterSafe b).get Fd.SAFE_STAT_B_STATE = stSAFE ∧
    (s.chanA = true → (s.enterSafe b).get Fd.SAFE_STAT_A_STATE = stSAFE ∧ (s.enterSafe b).get Fd.SAFE_STAT_HS_EN = 0) := by
  obtain ⟨hstate, hcopyB, hcopyA⟩ := setSafeSt_copies (n := stSAFE) (by decide) s
  have hkeep {g : Field} (hf : Fd.SAFE_FIRST_BIT.apart g = true) (he : Fd.SAFE_ENTRIES_COUNT.apart g = true) :
      (entered b s).get g = (s.setSafeSt stSAFE).get g := by
    unfold entered State.bumpSat
    rw [State.get_safe_upd, State.get_setWide, State.get_setWide]
    exact (State.get_set_apart _ _ he).trans (State.get_set_apart _ _ hf)
  have hstep : (entered b s).safe.testStep = 0 := by
    unfold entered
    rw [State.safe_upd_safe]
  have hact : (entered b s).chanA = s.chanA :=
    chanA_of_within (within_entered (State.within_refl s [.io, .safe]) b (by decide) (by decide)) (by decide) (by decide)
      ((hkeep (by decide) (by decide)).trans (get_setSafeSt (by decide) _ _))
  obtain ⟨hls, hhs⟩ := drive_switches (entered b s)
  have hget {g : Field} (hp : g.steady = true) (h : Fd.SAFE_STAT_FAULT.apart g = true) :
      (s.enterSafe b).get g = (entered b s).drive.get g := by
    rw [enterSafe_eq, State.get_count _ _ _ _ _ hp, get_driveFault h]
  refine ⟨?_, ?_, ?_, ?_, ?_, fun hA => ⟨?_, ?_⟩⟩
  · rw [State.safeSt, hget (by decide) (by decide), get_drive (by decide), hkeep (by decide) (by decide)]
    exact hstate
  · rw [hget (by decide) (by decide), get_drive (by decide)]
    unfold entered State.bumpSat
    rw [State.get_safe_upd, State.get_setWide, State.get_setWide]
    refine (State.get_set_apart _ _ (by decide)).trans ?_
    exact (State.get_set _ _ _ (by decide) (by decide)).trans (Nat.mod_eq_of_lt hb)
  · rw [hget (by decide) (by decide), hls, hkeep (by decide) (by decide), hcopyB, hstep]
    exact if_neg (by decide)
  · rw [enterSafe_eq, State.get_count _ _ _ _ _ (by decide), driveFault_shown]
    exact if_pos rfl
  · rw [hget (by decide) (by decide), get_drive (by decide), hkeep (by decide) (by decide)]
    exact hcopyB
  · rw [hget (by decide) (by decide), get_drive (by decide), hkeep (by decide) (by decide)]
    exact hcopyA hA
  · rw [hget (by decide) (by decide), hhs (hact.trans hA), hkeep (by decide) (by decide), hcopyA hA, hstep]
    exact if_neg (by decide)

/-- A steady field of another register is left. -/
theorem get_enterSafe (hp : f.steady = true) (h : f.off ∉ entryRegs) (b : ℕ) (s : State) : (s.enterSafe b).get f = s.get f :=
  State.onlyRegs.steady (rs := entryRegs) (onlyRegs_enterSafe (State.onlyRegs_refl s entryRegs) b fun _ ha => ha) h hp

theorem safe_enterSafe (b : ℕ) (s : State) : (s.enterSafe b).safe = (entered b s).safe := by
  rw [enterSafe_eq, State.count_safe, safe_driveFault, safe_drive]

/-! ## Wide values -/

theorem wideOf_congr (h : t.io.wide = s.io.wide) (r i : ℕ) : t.wideOf r i = s.wideOf r i := by
  unfold State.wideOf Io.wideOf
  rw [h]

/-- The wide values and the tick stand. -/
def Still (s t : State) : Prop := t.io.wide = s.io.wide ∧ t.tick = s.tick

theorem Still.refl (s : State) : Still s s := ⟨rfl, rfl⟩
theorem Still.trans {v : State} (h : Still s t) (k : Still t v) : Still s v := ⟨k.1.trans h.1, k.2.trans h.2⟩
theorem Still.set (s : State) (f : Field) (n : ℕ) : Still s (s.set f n) := ⟨rfl, rfl⟩
theorem Still.setBit (s : State) (f : Field) (b : Bool) : Still s (s.setBit f b) := ⟨rfl, rfl⟩
theorem Still.emit (s : State) (o : Out) : Still s (s.emit o) := ⟨rfl, rfl⟩
theorem Still.emt_upd (s : State) (g : Emit → Emit) : Still s (s.emit' g) := ⟨rfl, rfl⟩
theorem Still.onlyIf {b : Bool} {g : State → State} (h : Still s (g s)) : Still s (s.onlyIf b g) := by
  unfold State.onlyIf
  split
  · exact h
  · exact .refl s

theorem still_emitPin (o : Out) (s : State) : Still s (s.emitPin o) := .onlyIf (.emit s o)

theorem still_switchLsup (run : Bool) (s : State) : Still s (s.switchLsup run) := by
  unfold State.switchLsup
  have hedge : Still s _ := ((Still.setBit s Fd.EMIT_LSUP_STAT_RUN run).trans
      (.emt_upd _ fun x => if run then { x with lsupFrom := s.edgeTick } else x)).trans
    (still_emitPin (.lsupPwm run (s.get Fd.EMIT_LSUP_CTL_FSW) (s.get Fd.EMIT_LSUP_ILIM_IPK)) _)
  exact hedge.trans (.onlyIf (still_emitPin _ _))

theorem still_showLsup (s : State) : Still s s.showLsup := by
  have hfall : Still s (fallen s) := .onlyIf ((Still.set _ _ _).trans (.emt_upd _ _))
  obtain hs | ⟨run, hs⟩ := showLsup_cases s <;> rw [hs]
  · exact hfall
  · exact hfall.trans (still_switchLsup run _)

theorem still_switched (s : State) : Still s s.switched :=
  ((Still.onlyIf (.set s Fd.SAFE_STAT_VSNS 0)).trans (.emit _ _)).trans (still_showLsup _)

theorem still_driveHs (s : State) : Still s s.driveHs := (Still.setBit s _ _).trans (.setBit _ _ _)
theorem still_driveLs (s : State) : Still s s.driveLs := (Still.setBit s _ _).trans (.setBit _ _ _)

theorem still_drive (s : State) : Still s s.drive :=
  ((Still.onlyIf (still_driveHs s)).trans (still_driveLs _)).trans (still_switched _)

theorem wideOf_drive (r i : ℕ) (s : State) : s.drive.wideOf r i = s.wideOf r i := wideOf_congr (still_drive s).1 r i

/-- y holds what x holds of every wide value but the tills. -/
def WideKept (x y : Io) : Prop := ∀ r i, i < 0x0F00 → y.wideOf r i = x.wideOf r i

theorem WideKept.refl (x : Io) : WideKept x x := fun _ _ _ => rfl
theorem WideKept.trans {x y z : Io} (h : WideKept x y) (k : WideKept y z) : WideKept x z :=
  fun r i hi => (k r i hi).trans (h r i hi)
theorem WideKept.of_wide {x y : Io} (h : y.wide = x.wide) : WideKept x y := fun _ _ _ => by unfold Io.wideOf; rw [h]

theorem WideKept.set (x : Io) (f : Field) (v : ℕ) : WideKept x (x.set f v) := .of_wide rfl
theorem WideKept.post (x : Io) (n : ℕ) (o : Out) : WideKept x (x.post n o) := by
  unfold Io.post
  split <;> exact .of_wide rfl

theorem WideKept.tillStep (x : Io) (r n : ℕ) {t : ℕ} (ht : t < 64) : WideKept x (x.tillStep r t n).1 := by
  have hwide (w : Wide) : WideKept x (x.setWide r (0x0F00 + t) w) :=
    fun q i hi => Io.wideOf_setWide_other x w (by omega)
  unfold Io.tillStep
  simp only
  split
  · exact hwide _
  · exact (hwide _).trans (.set _ _ _)

theorem WideKept.tillFeed {x : Io} (a o c i n : ℕ) (y : Io × List ℕ) {t : ℕ} (ht : t < 64) (h : WideKept x y.1) :
    WideKept x (Io.tillFeed a o c i n y t).1 := by
  unfold Io.tillFeed
  split
  · exact h.trans (.tillStep _ _ _ ht)
  · exact h

theorem tillsOf_lt {x : Io} {r t : ℕ} (h : t ∈ x.tillsOf r) : t < 64 := by
  obtain ⟨e, -, he⟩ := List.mem_filterMap.mp h
  split at he
  next hin => rw [← Option.some.inj he]; omega
  next => cases he

theorem WideKept.feeds {x : Io} (a o c i n : ℕ) (ts : List ℕ) (hts : ∀ t ∈ ts, t < 64) (y : Io × List ℕ) (h : WideKept x y.1) :
    WideKept x (ts.foldl (Io.tillFeed a o c i n) y).1 := by
  induction ts generalizing y with
  | nil => exact h
  | cons t ts ih => exact ih (fun q hq => hts q (.tail _ hq)) _ (.tillFeed a o c i n y (hts t (.head _)) h)

theorem WideKept.countOnly (x : Io) (r c i n : ℕ) : WideKept x (x.countOnly r c i n).1 := by
  unfold Io.countOnly
  simp only
  split
  · exact .refl x
  · apply WideKept.feeds _ _ _ _ _ _ fun t ht => tillsOf_lt ht
    split
    · exact .refl x
    · exact .feeds _ _ _ _ _ _ (fun t ht => tillsOf_lt ht) _ (.refl x)

theorem WideKept.irqOnce (x : Io) (n : ℕ) : WideKept x (x.irqOnce n).1 := by
  have hmessage (b : Bool) (v : ℕ) (y : Io) : WideKept y (y.message b v).1 := by
    unfold Io.message
    split
    · exact .set _ _ _
    · exact (WideKept.countOnly y 13 Src.HOST_MSIX_SENT 0 1).trans (.post _ _ _)
  unfold Io.irqOnce Io.sendIrq
  split
  · exact .refl x
  · split
    · exact (WideKept.set _ _ _).trans (hmessage _ _ _)
    · exact .set _ _ _

theorem WideKept.irq (x : Io) (n : ℕ) : WideKept x (x.irq n) :=
  foldl_keeps (WideKept x) _ (fun y _ h => h.trans (.irqOnce y _)) _ _ (.irqOnce x n)

theorem WideKept.count (x : Io) (r c i n : ℕ) : WideKept x (x.count r c i n) :=
  foldl_keeps (WideKept x) _ (fun y _ h => h.trans (.irq y _)) _ _ (.countOnly x r c i n)

theorem WideKept.err (x : Io) (e : Err) : WideKept x (x.err e) := by
  unfold Io.err Io.record Io.lose
  simp only
  split
  · exact (WideKept.count _ _ _ _ _).trans (.of_wide rfl)
  · exact (WideKept.count _ _ _ _ _).trans (((WideKept.set _ _ _).trans (.count _ _ _ _ _)).trans (.irq _ _))

theorem wideOf_count (r c i n q : ℕ) {j : ℕ} (hj : j < 0x0F00) (s : State) : (s.count r c i n).wideOf q j = s.wideOf q j :=
  WideKept.count s.io r c i n q j hj
theorem wideOf_err (e : Err) (q : ℕ) {j : ℕ} (hj : j < 0x0F00) (s : State) : (s.err e).wideOf q j = s.wideOf q j :=
  WideKept.err s.io e q j hj

theorem wideOf_driveFault (b : Bool) (r i : ℕ) (s : State) : (s.driveFault b).wideOf r i = s.wideOf r i := wideOf_congr rfl r i

/-- The tick of the entry into state 4 is kept (R376). -/
theorem wideOf_enterSafe (b : ℕ) (s : State) : (s.enterSafe b).wideOf 18 0 = s.tick := by
  have hsafe (f : Safe → Safe) (v : State) : (v.safe' f).wideOf 18 0 = v.wideOf 18 0 := wideOf_congr rfl 18 0
  have hother (w : Wide) (v : State) : (v.setWide 18 1 w).wideOf 18 0 = v.wideOf 18 0 :=
    Io.wideOf_setWide_other v.io w (by decide)
  have hown (w : Wide) (v : State) : (v.setWide 18 0 w).wideOf 18 0 = w := Io.wideOf_setWide v.io 18 0 w
  rw [enterSafe_eq, wideOf_count _ _ _ _ _ (by decide), wideOf_driveFault, wideOf_drive, entered, hsafe, hother, hown]

/-! ## A cause (R375, R376) -/

/-- A cause shown: its latched bit and its present one. -/
def shown (b : ℕ) (s : State) : State := (s.set (Fd.SAFE_CAUSE_CAUSE.bit b) 1).set (Fd.SAFE_NOW_NOW.bit b) 1

/-- The two channels no longer agree on a message, after causes 4 and 5. -/
def disagreed (b : ℕ) (s : State) : State := if b = 4 ∨ b = 5 then s.safe' fun x => { x with agreed := false } else s

/-- The state with a cause latched and recorded, before state 4 is entered. -/
def latched (b code : ℕ) (s : State) : State :=
  disagreed b (((shown b s).onlyIf (!s.is (Fd.SAFE_NOW_NOW.bit b)) (State.causeRecord b code)).statusDue)

theorem causeWith_eq (b code : ℕ) (s : State) :
    s.causeWith b code = if s.safeSt = stSAFE then latched b code s else (latched b code s).enterSafe b := rfl

theorem within_causeRecord (h : s.within u t) (b code : ℕ) (k : .io ∈ u) : s.within u (t.causeRecord b code) := by
  unfold State.causeRecord
  split
  · exact h
  · exact h.err _ k

theorem onlyRegs_causeRecord (h : s.onlyRegs rs t) (b code : ℕ) : s.onlyRegs rs (t.causeRecord b code) := by
  unfold State.causeRecord
  split
  · exact h
  · exact h.err _

theorem get_causeRecord (hp : f.steady = true) (b code : ℕ) (s : State) : (s.causeRecord b code).get f = s.get f := by
  unfold State.causeRecord
  split
  · rfl
  · exact State.get_err _ _ hp

theorem within_disagreed (h : s.within u t) (b : ℕ) (l : .safe ∈ u) : s.within u (disagreed b t) := by
  unfold disagreed
  split
  · exact h.safe_upd _ l
  · exact h

theorem onlyRegs_disagreed (h : s.onlyRegs rs t) (b : ℕ) : s.onlyRegs rs (disagreed b t) := by
  unfold disagreed
  split
  · exact h.safe_upd _
  · exact h

theorem get_disagreed (b : ℕ) (s : State) : (disagreed b s).get f = s.get f := by
  unfold disagreed
  split <;> rfl

theorem within_latched (h : s.within u t) (b code : ℕ) (k : .io ∈ u) (l : .safe ∈ u) : s.within u (latched b code t) := by
  have hset : s.within u (shown b t) := (h.set _ _ k).set _ _ k
  exact within_disagreed ((State.within.onlyIf hset (within_causeRecord hset b code k)).safe_upd _ l) b l

theorem onlyRegs_latched (h : s.onlyRegs rs t) (b code : ℕ) (k : ∀ a ∈ safeRegs, a ∈ rs) : s.onlyRegs rs (latched b code t)
    := by
  have hset : s.onlyRegs rs (shown b t) :=
    (h.set (Fd.SAFE_CAUSE_CAUSE.bit b) 1 (k Fd.SAFE_CAUSE_CAUSE.off (by decide))).set (Fd.SAFE_NOW_NOW.bit b) 1
      (k Fd.SAFE_NOW_NOW.off (by decide))
  exact onlyRegs_disagreed ((State.onlyRegs.onlyIf hset (onlyRegs_causeRecord hset b code)).safe_upd _) b

theorem entry_safe : ∀ a ∈ entryRegs, a ∈ safeRegs := by decide

theorem within_causeWith (h : s.within u t) (b code : ℕ) (k : .io ∈ u) (l : .emt ∈ u) (m : .safe ∈ u) :
    s.within u (t.causeWith b code) := by
  rw [causeWith_eq]
  split
  · exact within_latched h b code k m
  · exact within_enterSafe (within_latched h b code k m) b k l m

theorem onlyRegs_causeWith (h : s.onlyRegs rs t) (b code : ℕ) (k : ∀ a ∈ safeRegs, a ∈ rs) :
    s.onlyRegs rs (t.causeWith b code) := by
  rw [causeWith_eq]
  split
  · exact onlyRegs_latched h b code k
  · exact onlyRegs_enterSafe (onlyRegs_latched h b code k) b fun a ha => k a (entry_safe a ha)

/-- In a steady field a latched cause shows its two bits and no more. -/
theorem get_latched (hp : f.steady = true) (b code : ℕ) (s : State) : (latched b code s).get f = (shown b s).get f := by
  unfold latched State.statusDue
  rw [get_disagreed, State.get_safe_upd, State.onlyIf]
  split
  · exact get_causeRecord hp b code _
  · rfl

theorem get_shown (hc : f.off ≠ Fd.SAFE_CAUSE_CAUSE.off) (hn : f.off ≠ Fd.SAFE_NOW_NOW.off) (b : ℕ) (s : State) :
    (shown b s).get f = s.get f := by
  have hone (v : State) : (v.set (Fd.SAFE_NOW_NOW.bit b) 1).get f = v.get f := State.get_set_off _ _ hn
  have htwo (v : State) : (v.set (Fd.SAFE_CAUSE_CAUSE.bit b) 1).get f = v.get f := State.get_set_off _ _ hc
  rw [shown, hone, htwo]

theorem shown_bits {b : ℕ} (hb : b < 32) (s : State) :
    (shown b s).get (Fd.SAFE_CAUSE_CAUSE.bit b) = 1 ∧ (shown b s).get (Fd.SAFE_NOW_NOW.bit b) = 1 := by
  have hfit (g : Field) : (g.bit b).lo ≤ (g.bit b).hi := le_refl _
  have hlt : Fd.SAFE_CAUSE_CAUSE.lo + b < 32 ∧ Fd.SAFE_NOW_NOW.lo + b < 32 := by simpa
      [Fd.SAFE_CAUSE_CAUSE, Fd.SAFE_NOW_NOW] using hb
  refine ⟨?_, ?_⟩
  · have hoff : (Fd.SAFE_CAUSE_CAUSE.bit b).off ≠ (Fd.SAFE_NOW_NOW.bit b).off := by simp
      [Field.bit, Fd.SAFE_CAUSE_CAUSE, Fd.SAFE_NOW_NOW]
    refine (State.get_set_off _ _ hoff).trans ?_
    refine (State.get_set _ _ _ (hfit _) hlt.1).trans ?_
    simp [Field.bit]
  · refine (State.get_set _ _ _ (hfit _) hlt.2).trans ?_
    simp [Field.bit]

theorem chanA_latched (b code : ℕ) (s : State) : (latched b code s).chanA = s.chanA :=
  chanA_of_within (within_latched (State.within_refl s [.io, .safe]) b code (by decide) (by decide)) (by decide) (by decide)
    ((get_latched (by decide) b code s).trans (get_shown (by decide) (by decide) b s))

theorem tick_latched (b code : ℕ) (s : State) : (latched b code s).tick = s.tick := by
  have hrec (v : State) : (State.causeRecord b code v).tick = v.tick := by
    unfold State.causeRecord
    split
    · rfl
    · exact (Io.calm_err v.io _).tick
  have hshown : (shown b s).tick = s.tick := rfl
  have hdis (v : State) : (disagreed b v).tick = v.tick := by
    unfold disagreed
    split <;> rfl
  have hdue (v : State) : v.statusDue.tick = v.tick := rfl
  unfold latched
  rw [hdis, hdue, State.onlyIf]
  split
  · rw [hrec, hshown]
  · exact hshown

theorem permit_enterSafe (b : ℕ) (s : State) : (s.enterSafe b).safe.permit = false := by
  rw [safe_enterSafe, entered, State.safe_upd_safe]

theorem bit_off (g : Field) (b : ℕ) : (g.bit b).off = g.off := rfl

/-- A cause is latched and shown, and SAFE is in state 4 with what its entry shows (R375, R376). -/
theorem caught_causeWith {b : ℕ} (hb : b < 16) (code : ℕ) (s : State) : s.caught b (s.causeWith b code) := by
  obtain ⟨hcause, hnow⟩ := shown_bits (show b < 32 by omega) s
  have hsteady (g : Field) (hg : g.steady = true) : (g.bit b).steady = true := hg
  have hc : (latched b code s).get (Fd.SAFE_CAUSE_CAUSE.bit b) = 1 :=
    (get_latched (hsteady Fd.SAFE_CAUSE_CAUSE (by decide)) b code s).trans hcause
  have hn : (latched b code s).get (Fd.SAFE_NOW_NOW.bit b) = 1 :=
    (get_latched (hsteady Fd.SAFE_NOW_NOW (by decide)) b code s).trans hnow
  have hstate : (latched b code s).safeSt = s.safeSt :=
    (get_latched (by decide) b code s).trans (get_shown (by decide) (by decide) b s)
  have hoff : (Fd.SAFE_CAUSE_CAUSE.bit b).off ∉ entryRegs ∧ (Fd.SAFE_NOW_NOW.bit b).off ∉ entryRegs := by
    rw [bit_off, bit_off]
    decide
  rw [causeWith_eq]
  unfold State.caught
  by_cases h : s.safeSt = stSAFE
  · rw [if_pos h, if_pos h]
    exact ⟨hc, hn, hstate.trans h, (get_latched (by decide) b code s).trans (get_shown (by decide) (by decide) b s)⟩
  · rw [if_neg h, if_neg h]
    obtain ⟨hsafe, hfirst, hls, hfault, hcopy, hact⟩ := enterSafe_shows hb (latched b code s)
    rw [chanA_latched] at hact
    have htick := (wideOf_enterSafe b (latched b code s)).trans (tick_latched b code s)
    exact ⟨(get_enterSafe (hsteady Fd.SAFE_CAUSE_CAUSE (by decide)) hoff.1 b _).trans hc,
      (get_enterSafe (hsteady Fd.SAFE_NOW_NOW (by decide)) hoff.2 b _).trans hn, hsafe, hfirst, htick, hls, hfault, hcopy,
      permit_enterSafe b _, hact⟩

/-- A steady field of no register of SAFE is left by a cause. -/
theorem get_causeWith (hp : f.steady = true) (h : f.off ∉ safeRegs) (b code : ℕ) (s : State) : (s.causeWith b code).get f =
    s.get f :=
  State.onlyRegs.steady (rs := safeRegs) (onlyRegs_causeWith (State.onlyRegs_refl s safeRegs) b code fun _ ha => ha) h hp

/-! ## Entry into STOPPED (R372, R380) -/

/-- The state with STOPPED noted, before the switches are driven. -/
def stopped (s : State) : State := (s.setSafeSt stSTOPPED).safe' fun x => { x with testStep := 0, permit := false }

theorem within_enterStopped (h : s.within u t) (k : .io ∈ u) (l : .emt ∈ u) (m : .safe ∈ u) : s.within u t.enterStopped :=
  within_driveFault (within_drive ((within_setSafeSt h stSTOPPED k m).safe_upd _ m) k l) false k

theorem onlyRegs_enterStopped (h : s.onlyRegs rs t) (k : Fd.SAFE_STAT_STATE.off ∈ rs) (l : Fd.EMIT_LSUP_STAT_VREF.off ∈ rs) :
    s.onlyRegs rs t.enterStopped :=
  onlyRegs_driveFault (onlyRegs_drive ((onlyRegs_setSafeSt h stSTOPPED k).safe_upd _) k l) false k

theorem enterStopped_eq (s : State) : s.enterStopped = (stopped s).drive.driveFault false := rfl

theorem enterStopped_shows (s : State) : s.enterStopped.safeSt = stSTOPPED ∧ s.enterStopped.get Fd.SAFE_STAT_LS_EN = 0 ∧
    s.enterStopped.safe.permit = false ∧ (s.chanA = true → s.enterStopped.get Fd.SAFE_STAT_HS_EN = 0) := by
  obtain ⟨hstate, hcopyB, hcopyA⟩ := setSafeSt_copies (n := stSTOPPED) (by decide) s
  have hkeep (g : Field) : (stopped s).get g = (s.setSafeSt stSTOPPED).get g := State.get_safe_upd _ _ _
  have hstep : (stopped s).safe.testStep = 0 ∧ (stopped s).safe.permit = false := by
    rw [stopped, State.safe_upd_safe]
    exact ⟨rfl, rfl⟩
  have hact : (stopped s).chanA = s.chanA :=
    chanA_of_within ((within_setSafeSt (State.within_refl s [.io, .safe]) stSTOPPED (by decide) (by decide)).safe_upd _
        (by decide))
      (by decide) (by decide) ((hkeep _).trans (get_setSafeSt (by decide) _ _))
  obtain ⟨hls, hhs⟩ := drive_switches (stopped s)
  rw [enterStopped_eq]
  refine ⟨?_, ?_, ?_, fun hA => ?_⟩
  · rw [State.safeSt, get_driveFault (by decide), get_drive (by decide), hkeep]
    exact hstate
  · rw [get_driveFault (by decide), hls, hkeep, hcopyB, hstep.1]
    exact if_neg (by decide)
  · rw [safe_driveFault, safe_drive]
    exact hstep.2
  · rw [get_driveFault (by decide), hhs (hact.trans hA), hkeep, hcopyA hA, hstep.1]
    exact if_neg (by decide)

end Sys2Proof.Machine.SafeOps
end

section
/-!
SETTLES O41. The detections of SAFE: each latches its cause and enters state 4 (R375, R376, R379, R385).
-/
-- One thread for the lemmas: a thread for each would ask for more memory than a build may have.
set_option Elab.async false

namespace Sys2Proof.Machine.Detections
open Sys2Proof.Machine SafeOps

variable {s t : State} {f : Field} {rs qs : List ℕ}

theorem powered_of_admits {i : Instr} (hi : i.gate = .event) (h : s.admits i = true) : s.powered = true := by
  unfold State.admits at h
  rwa [hi] at h

theorem regs_refl (s : State) : s.onlyRegs safeRegs s := State.onlyRegs_refl s _
theorem within_refl (s : State) : s.within [.io, .emt, .safe] s := State.within_refl s _

/-! ## The watchdog of channel A -/

theorem safe_latched (b code : ℕ) (s : State) : (latched b code s).safe.serviced = s.safe.serviced := by
  have hdis (v : State) : (disagreed b v).safe.serviced = v.safe.serviced := by
    unfold disagreed
    split <;> rfl
  have hrec (v : State) : (State.causeRecord b code v).safe = v.safe := by
    unfold State.causeRecord
    split <;> rfl
  have hshown : (shown b s).safe = s.safe := rfl
  unfold latched
  rw [hdis, State.statusDue, State.safe_upd_safe, State.onlyIf]
  split
  · rw [hrec, hshown]
  · rw [hshown]

theorem serviced_enterSafe (b : ℕ) (s : State) : (s.enterSafe b).safe.serviced = s.safe.serviced := by
  have hset (n : ℕ) : (s.setSafeSt n).safe.serviced = s.safe.serviced := by
    unfold State.setSafeSt State.onlyIf
    split <;> rfl
  rw [safe_enterSafe, entered, State.safe_upd_safe]
  exact hset _

theorem serviced_causeWith (b code : ℕ) (s : State) : (s.causeWith b code).safe.serviced = s.safe.serviced := by
  rw [causeWith_eq]
  split
  · exact safe_latched b code s
  · exact (serviced_enterSafe b _).trans (safe_latched b code s)

theorem safe_decideRevert (s : State) : s.decideRevert.safe = s.safe := by
  unfold State.decideRevert
  split <;> rfl

theorem wide_decideRevert (s : State) : s.decideRevert.io.wide = s.io.wide := by
  unfold State.decideRevert
  split <;> rfl

theorem within_decideRevert {u : List Part} (h : s.within u t) (k : .io ∈ u) (l : .mgmt ∈ u) : s.within u t.decideRevert := by
  unfold State.decideRevert
  split
  · exact ((((h.set _ _ k).set _ _ k).mgmt_upd _ l).mgmt_upd _ l).mgmt_upd _ l
  · exact h

theorem onlyRegs_decideRevert (h : s.onlyRegs rs t) (k : Fd.MGMT_FW_STAT_TRIAL.off ∈ rs) : s.onlyRegs rs t.decideRevert := by
  unfold State.decideRevert
  split
  · exact ((((h.set _ _ k).set Fd.MGMT_FW_STAT_LEFT _ k).mgmt_upd _).mgmt_upd _).mgmt_upd _
  · exact h

/-- A fact of SAFE stands when none of its fields, records and wide values is written. -/
theorem caught_congr {b : ℕ} {v : State} (h : s.caught b t) (hget : ∀ g ∈ safeRegs, ∀ hi lo, v.get ⟨g, hi, lo⟩ = t.get
    ⟨g, hi, lo⟩)
    (hwide : v.wideOf 18 0 = t.wideOf 18 0) (hsafe : v.safe.permit = t.safe.permit) : s.caught b v := by
  have hof (g : Field) (hg : g.off ∈ safeRegs) : v.get g = t.get g := hget g.off hg g.hi g.lo
  unfold State.caught State.safeSt at h ⊢
  rw [hof _ (show (Fd.SAFE_CAUSE_CAUSE.bit b).off ∈ safeRegs by rw [bit_off]; decide),
    hof _ (show (Fd.SAFE_NOW_NOW.bit b).off ∈ safeRegs by rw [bit_off]; decide), hof Fd.SAFE_STAT_STATE (by decide),
    hof Fd.SAFE_FIRST_BIT (by decide), hof Fd.SAFE_STAT_LS_EN (by decide), hof Fd.SAFE_STAT_FAULT (by decide),
    hof Fd.SAFE_STAT_B_STATE (by decide), hof Fd.SAFE_STAT_A_STATE (by decide), hof Fd.SAFE_STAT_HS_EN (by decide), hwide,
        hsafe]
  exact h

/-- The state in which the watchdog of channel A runs out. -/
def bitten (s : State) : State :=
  ((s.clockReach (s.safe.servedAt + msTicks (s.ownB Fd.SAFE_PROF_T_WDOG))).safe' fun x => { x with serviced := false }).cause 3

theorem caught_bitten (s : State) : (s.clockReach (s.safe.servedAt + msTicks (s.ownB Fd.SAFE_PROF_T_WDOG))).caught 3
    (bitten s) :=
  caught_causeWith (b := 3) (by decide) _ ((s.clockReach _).safe' fun x => { x with serviced := false })

theorem caught_decideRevert {b : ℕ} (h : s.caught b t) : s.caught b t.decideRevert :=
  caught_congr h (fun g hg hi lo => Io.get_congr (onlyRegs_decideRevert (State.onlyRegs_refl t [Fd.MGMT_FW_STAT_TRIAL.off])
      (by decide) g
      (by revert g; decide) (by revert g; decide) (by revert g; decide)))
    (wideOf_congr (wide_decideRevert t) 18 0) (by rw [safe_decideRevert])

/-- The watchdog that runs out is cause 3, and decides whether the firmware goes back. -/
theorem wdogA_caught (h : s.admits .wdogA = true) :
    (s.safe.suspended = false → s.clockOk (s.safe.servedAt + msTicks (s.ownB Fd.SAFE_PROF_T_WDOG)) = true →
      ∃ t, exec .wdogA s = .next t ∧ s.within [.io, .emt, .safe, .mgmt] t ∧ s.onlyRegions [3, 16, 18] t ∧
        (s.clockReach (s.safe.servedAt + msTicks (s.ownB Fd.SAFE_PROF_T_WDOG))).caught 3 t ∧ t.safe.serviced = false) ∧
    (s.safe.suspended = true ∨ s.clockOk (s.safe.servedAt + msTicks (s.ownB Fd.SAFE_PROF_T_WDOG)) = false →
      exec .wdogA s = .next s) := by
  have hexec : exec .wdogA s = if s.safe.suspended || !s.clockOk (s.safe.servedAt + msTicks (s.ownB Fd.SAFE_PROF_T_WDOG))
      then ok s
      else ok (bitten s).decideRevert := by
    change execWdogA s = _
    exact State.whenOn_powered (powered_of_admits rfl h)
  refine ⟨fun hrun hclock => ⟨(bitten s).decideRevert, ?_, ?_, ?_, caught_decideRevert (caught_bitten s), ?_⟩, fun hno => ?_⟩
  · rw [hexec, hrun, hclock]
    rfl
  · exact within_decideRevert (within_causeWith (((State.within_refl s _).clockReach _).safe_upd _ (by decide)) 3 _
      (by decide) (by decide)
      (by decide)) (by decide) (by decide)
  · have hcause : s.onlyRegs (Fd.MGMT_FW_STAT_TRIAL.off :: safeRegs) (bitten s) :=
      onlyRegs_causeWith (((State.onlyRegs_refl s _).clockReach _).safe_upd _) 3 _ fun a ha => .tail _ ha
    exact (onlyRegs_decideRevert hcause (by decide)).regions (by decide)
  · rw [safe_decideRevert]
    exact serviced_causeWith 3 _ _
  · rw [hexec]
    refine if_pos ?_
    simpa using hno

/-! ## The channels' copies -/

/-- The state in which one channel has taken a copy of its own, and drives its switch by it. -/
def parted (chanB : Bool) (copy : ℕ) (s : State) : State :=
  let s1 := s.set (if chanB then Fd.SAFE_STAT_B_STATE else Fd.SAFE_STAT_A_STATE) copy
  (if chanB then s1.driveLs else s1.driveHs).switched

theorem within_parted (chanB : Bool) (copy : ℕ) (s : State) : s.within [.io, .emt] (parted chanB copy s) := by
  unfold parted
  cases chanB
  · exact within_switched (within_driveHs ((State.within_refl s _).set _ _) (by decide)) (by decide) (by decide)
  · exact within_switched (within_driveLs ((State.within_refl s _).set _ _) (by decide)) (by decide) (by decide)

theorem onlyRegs_parted (chanB : Bool) (copy : ℕ) (s : State) :
    s.onlyRegs [Fd.SAFE_STAT_STATE.off, Fd.EMIT_LSUP_STAT_VREF.off] (parted chanB copy s) := by
  unfold parted
  cases chanB
  · exact onlyRegs_switched (onlyRegs_driveHs ((State.onlyRegs_refl s _).set Fd.SAFE_STAT_A_STATE _ (by decide)) (by decide))
      (by decide) (by decide)
  · exact onlyRegs_switched (onlyRegs_driveLs ((State.onlyRegs_refl s _).set Fd.SAFE_STAT_B_STATE _ (by decide)) (by decide))
      (by decide) (by decide)

/-- A field that neither the copies nor the switches show is left. -/
theorem get_parted (h : undriven f = true) (ha : Fd.SAFE_STAT_A_STATE.apart f = true) (hb : Fd.SAFE_STAT_B_STATE.apart f = true)
    (chanB : Bool) (copy : ℕ) (s : State) : (parted chanB copy s).get f = s.get f := by
  simp only [undriven, Bool.and_eq_true, bne_iff_ne] at h
  obtain ⟨⟨⟨⟨⟨hhs, hhf⟩, hls⟩, hlf⟩, hv⟩, hl⟩ := h
  unfold parted
  rw [get_switched hv hl]
  cases chanB
  · exact (get_driveHs hhs hhf _).trans (State.get_set_apart _ _ ha)
  · exact (get_driveLs hls hlf _).trans (State.get_set_apart _ _ hb)

theorem tick_parted (chanB : Bool) (copy : ℕ) (s : State) : (parted chanB copy s).tick = s.tick := by
  unfold parted
  cases chanB
  · exact (((Still.set s _ _).trans (still_driveHs _)).trans (still_switched _)).2
  · exact (((Still.set s _ _).trans (still_driveLs _)).trans (still_switched _)).2

/-- The copy of the channel is the one it has taken, and the other channel's stands. -/
theorem parted_copies {copy : ℕ} (hcopy : copy < 8) (chanB : Bool) (s : State) :
    (parted chanB copy s).get (if chanB then Fd.SAFE_STAT_B_STATE else Fd.SAFE_STAT_A_STATE) = copy ∧
      (parted chanB copy s).get (if chanB then Fd.SAFE_STAT_A_STATE else Fd.SAFE_STAT_B_STATE)
        = s.get (if chanB then Fd.SAFE_STAT_A_STATE else Fd.SAFE_STAT_B_STATE) := by
  unfold parted
  cases chanB
  · refine ⟨(get_switched (by decide) (by decide) _).trans ((get_driveHs (by decide) (by decide) _).trans ?_),
      (get_switched (by decide) (by decide) _).trans ((get_driveHs (by decide) (by decide) _).trans
        (State.get_set_apart _ _ (by decide)))⟩
    exact (State.get_set _ _ _ (by decide) (by decide)).trans (Nat.mod_eq_of_lt hcopy)
  · refine ⟨(get_switched (by decide) (by decide) _).trans ((get_driveLs (by decide) (by decide) _).trans ?_),
      (get_switched (by decide) (by decide) _).trans ((get_driveLs (by decide) (by decide) _).trans
        (State.get_set_apart _ _ (by decide)))⟩
    exact (State.get_set _ _ _ (by decide) (by decide)).trans (Nat.mod_eq_of_lt hcopy)

/-- What was caught of a state is caught of one that shows the same of SAFE. -/
theorem caught_of_same {b : ℕ} {v : State} (h : t.caught b v) (hstate : t.safeSt = s.safeSt) (htick : t.tick = s.tick)
    (hfirst : t.get Fd.SAFE_FIRST_BIT = s.get Fd.SAFE_FIRST_BIT) (hact : t.chanA = s.chanA) : s.caught b v := by
  unfold State.caught at h ⊢
  rwa [hstate, htick, hfirst, hact] at h

/-- The channel that finds its copy another than its partner's is cause 2. -/
theorem chDisagree_caught (chanB : Bool) (copy : BitVec 3) (h : s.admits (.chDisagree chanB copy) = true) :
    let mine := if chanB then Fd.SAFE_STAT_B_STATE else Fd.SAFE_STAT_A_STATE
    let other := if chanB then Fd.SAFE_STAT_A_STATE else Fd.SAFE_STAT_B_STATE
    (s.safe.suspended = false → copy.toNat ≠ s.get other →
      ∃ t, exec (.chDisagree chanB copy) s = .next t ∧ s.within [.io, .emt, .safe] t ∧ s.onlyRegs safeRegs t ∧ s.caught 2 t ∧
        (s.safeSt = stSAFE → t.get mine = copy.toNat ∧ t.get other = s.get other)) ∧
    (s.safe.suspended = true ∨ copy.toNat = s.get other → exec (.chDisagree chanB copy) s = .next s) := by
  intro mine other
  have hexec : exec (.chDisagree chanB copy) s
      = if s.safe.suspended || copy.toNat == s.get other then ok s else ok ((parted chanB copy.toNat s).cause 2) := by
    change execChDisagree chanB copy s = _
    exact (State.whenOn_powered (powered_of_admits rfl h))
  have hsub : ∀ a ∈ [Fd.SAFE_STAT_STATE.off, Fd.EMIT_LSUP_STAT_VREF.off], a ∈ safeRegs := by
    simp [safeRegs]
  have hparted : s.onlyRegs safeRegs (parted chanB copy.toNat s) :=
    fun a ha => onlyRegs_parted chanB copy.toNat s a fun hin => ha (hsub a hin)
  have hsafeSt : (parted chanB copy.toNat s).safeSt = s.safeSt := get_parted (by decide) (by decide) (by decide) _ _ _
  have hact : (parted chanB copy.toNat s).chanA = s.chanA :=
    chanA_of_within (within_parted chanB _ s) (by decide) (by decide) (get_parted (by decide) (by decide) (by decide) _ _ _)
  have htick : (parted chanB copy.toNat s).tick = s.tick := tick_parted chanB _ s
  refine ⟨fun hrun hne => ⟨(parted chanB copy.toNat s).cause 2, ?_, ?_, ?_, ?_, fun hin => ?_⟩, fun hno => ?_⟩
  · rw [hexec, hrun]
    refine if_neg ?_
    simpa using hne
  · exact within_causeWith (State.within.mono (within_parted chanB _ s) (by decide)) 2 _ (by decide) (by decide) (by decide)
  · exact onlyRegs_causeWith hparted 2 _ fun _ ha => ha
  · exact caught_of_same (caught_causeWith (by decide) _ _) hsafeSt htick
      (get_parted (by decide) (by decide) (by decide) _ _ _) hact
  · obtain ⟨hmine, hother⟩ := parted_copies copy.isLt chanB s
    have hlatched (g : Field) (hp : g.steady = true) (hc : g.off ≠ Fd.SAFE_CAUSE_CAUSE.off) (hn : g.off ≠ Fd.SAFE_NOW_NOW.off) :
        ((parted chanB copy.toNat s).cause 2).get g = (parted chanB copy.toNat s).get g := by
      unfold State.cause
      rw [causeWith_eq, if_pos (hsafeSt.trans hin), get_latched hp, get_shown hc hn]
    refine ⟨(hlatched _ ?_ ?_ ?_).trans hmine, (hlatched _ ?_ ?_ ?_).trans hother⟩ <;> clear * - <;> revert chanB <;> decide
  · rw [hexec]
    refine if_pos ?_
    simpa using hno

/-! ## The message timeout -/

/-- A tick that is passed with the count leaves what SAFE shows. -/
theorem get_clockReach (w : Wide) (s : State) (f : Field) : (s.clockReach w).get f = s.get f := by
  have hio (x : Io) (c : Prop) [Decidable c] (n : Wide) : (if c then { x with tick := n } else x).get f = x.get f := by
    split <;> rfl
  unfold State.clockReach
  split
  · exact hio s.io _ _
  · rfl

theorem chanA_clockReach (w : Wide) (s : State) : (s.clockReach w).chanA = s.chanA :=
  chanA_of_within ((State.within_refl s [.io]).clockReach w) (by decide) (by decide) (get_clockReach w s _)

theorem msgTimeout_passes (h : s.admits .msgTimeout = true)
    (hclock : s.clockOk (s.safe.permitAt + msTicks (s.get Fd.SAFE_PROF_T_TMSG)) = true) :
    (s.safeSt = stARMED → ∃ t, exec .msgTimeout s = .next t ∧ s.within [.io, .emt, .safe] t ∧ s.onlyRegs safeRegs t ∧
      (s.clockReach (s.safe.permitAt + msTicks (s.get Fd.SAFE_PROF_T_TMSG))).caught 5 t) ∧
    (s.safeSt = stTESTING → ∃ t, exec .msgTimeout s = .next t ∧ s.within [.io, .emt, .safe] t ∧ s.onlyRegs safeRegs t ∧
      t.safeSt = stSTOPPED ∧ t.get Fd.SAFE_STAT_LS_EN = 0 ∧ t.safe.permit = false ∧
      (s.chanA = true → t.get Fd.SAFE_STAT_HS_EN = 0)) ∧
    (s.safeSt ≠ stARMED → s.safeSt ≠ stTESTING → exec .msgTimeout s = .next s) := by
  have hexec : exec .msgTimeout s = if s.safeSt == stARMED then
        ok ((s.clockReach (s.safe.permitAt + msTicks (s.get Fd.SAFE_PROF_T_TMSG))).cause 5)
      else if s.safeSt = stTESTING then ok (s.clockReach (s.safe.permitAt + msTicks (s.get Fd.SAFE_PROF_T_TMSG))).enterStopped
      else ok s := by
    change execMsgTimeout s = _
    refine (State.whenOn_powered (powered_of_admits rfl h)).trans (if_neg ?_)
    rw [hclock]
    decide
  refine ⟨fun harmed => ⟨_, hexec.trans (if_pos (beq_iff_eq.mpr harmed)), ?_, ?_, caught_causeWith (by decide) _ _⟩,
    fun htest => ⟨_, hexec.trans ((if_neg ?_).trans (if_pos htest)), ?_, ?_, ?_⟩, fun harmed htest => ?_⟩
  · exact within_causeWith ((within_refl s).clockReach _) 5 _ (by decide) (by decide) (by decide)
  · exact onlyRegs_causeWith ((regs_refl s).clockReach _) 5 _ fun _ ha => ha
  · rw [htest]
    decide
  · exact within_enterStopped ((within_refl s).clockReach _) (by decide) (by decide) (by decide)
  · exact onlyRegs_enterStopped ((regs_refl s).clockReach _) (by decide) (by decide)
  · obtain ⟨hstate, hls, hpermit, hhs⟩ :=
      enterStopped_shows (s.clockReach (s.safe.permitAt + msTicks (s.get Fd.SAFE_PROF_T_TMSG)))
    exact ⟨hstate, hls, hpermit, fun hact => hhs ((chanA_clockReach _ s).trans hact)⟩
  · exact hexec.trans ((if_neg fun harm => harmed (beq_iff_eq.mp harm)).trans (if_neg htest))

/-! ## The switches and the supply -/

/-- A cause with a feedback or the supply's sense shown after it. -/
theorem caught_set {g : Field} {b : ℕ} (v : ℕ) (h : s.caught b t) (hg : g.off = Fd.SAFE_STAT_STATE.off)
    (hapart : ∀ q ∈ [Fd.SAFE_STAT_STATE, Fd.SAFE_STAT_LS_EN, Fd.SAFE_STAT_FAULT, Fd.SAFE_STAT_B_STATE, Fd.SAFE_STAT_A_STATE,
      Fd.SAFE_STAT_HS_EN], g.apart q = true) : s.caught b (t.set g v) := by
  have hoff (q : Field) (hq : q.off ≠ Fd.SAFE_STAT_STATE.off) : (t.set g v).get q = t.get q :=
    State.get_set_off _ _ fun heq => hq (heq.trans hg)
  have hstat (q : Field) (hq : q ∈ [Fd.SAFE_STAT_STATE, Fd.SAFE_STAT_LS_EN, Fd.SAFE_STAT_FAULT, Fd.SAFE_STAT_B_STATE,
      Fd.SAFE_STAT_A_STATE, Fd.SAFE_STAT_HS_EN]) : (t.set g v).get q = t.get q := State.get_set_apart _ _ (hapart q hq)
  unfold State.caught State.safeSt at h ⊢
  rw [hoff (Fd.SAFE_CAUSE_CAUSE.bit b) (by rw [bit_off]; decide), hoff (Fd.SAFE_NOW_NOW.bit b) (by rw [bit_off]; decide),
    hoff Fd.SAFE_FIRST_BIT (by decide), hstat Fd.SAFE_STAT_STATE (by simp), hstat Fd.SAFE_STAT_LS_EN (by simp),
    hstat Fd.SAFE_STAT_FAULT (by simp), hstat Fd.SAFE_STAT_B_STATE (by simp), hstat Fd.SAFE_STAT_A_STATE (by simp),
    hstat Fd.SAFE_STAT_HS_EN (by simp), wideOf_congr (show (t.set g v).io.wide = t.io.wide from rfl), State.set_safe]
  exact h

/-- A feedback that does not follow its switch is a cause, and is shown. -/
theorem stuck_caught {g e : Field} {b n : ℕ} (hb : b < 16) (hg : g.off = Fd.SAFE_STAT_STATE.off)
    (hapart : ∀ q ∈ [Fd.SAFE_STAT_STATE, Fd.SAFE_STAT_LS_EN, Fd.SAFE_STAT_FAULT, Fd.SAFE_STAT_B_STATE, Fd.SAFE_STAT_A_STATE,
      Fd.SAFE_STAT_HS_EN], g.apart q = true) (hfit : g.lo = g.hi ∧ g.hi < 32) (he : n = if s.get e = 1 then 0 else 1) :
    s.within [.io, .emt, .safe] ((s.cause b).set g n) ∧ s.onlyRegs safeRegs ((s.cause b).set g n) ∧
      s.caught b ((s.cause b).set g n) ∧ ((s.cause b).set g n).get g = if s.get e = 1 then 0 else 1 := by
  refine ⟨(within_causeWith (within_refl s) b _ (by decide) (by decide) (by decide)).set _ _,
    (onlyRegs_causeWith (regs_refl s) b _ fun _ ha => ha).set _ _ (by rw [hg]; decide),
    caught_set n (caught_causeWith hb _ s) hg hapart, ?_⟩
  rw [State.get_set _ _ _ hfit.1.le hfit.2, hfit.1, he]
  split <;> simp

theorem is_eq_ite (f : Field) (s : State) : (if (!s.is f) = true then 1 else 0) = if s.get f = 1 then 0 else 1 := by
  change (if (!(s.get f == 1)) = true then 1 else 0) = _
  simp only [Bool.not_eq_true', beq_eq_false_iff_ne, ite_not]

theorem swStuckHs_caught (h : s.admits .swStuckHs = true) : ∃ t, exec .swStuckHs s = .next t ∧ s.within [.io, .emt, .safe] t ∧
    s.onlyRegs safeRegs t ∧ s.caught 6 t ∧ t.get Fd.SAFE_STAT_HS_FB = if s.get Fd.SAFE_STAT_HS_EN = 1 then 0 else 1 := by
  have hexec : exec .swStuckHs s = .next ((s.cause 6).set Fd.SAFE_STAT_HS_FB
      (if (!s.is Fd.SAFE_STAT_HS_EN) = true then 1 else 0)) := by
    change execSwStuckHs s = _
    exact State.whenOn_powered (powered_of_admits rfl h)
  exact ⟨_, hexec, stuck_caught (by decide) (by decide) (by decide) (by decide) (is_eq_ite _ s)⟩

theorem swStuckLs_caught (h : s.admits .swStuckLs = true) : ∃ t, exec .swStuckLs s = .next t ∧ s.within [.io, .emt, .safe] t ∧
    s.onlyRegs safeRegs t ∧ s.caught 7 t ∧ t.get Fd.SAFE_STAT_LS_FB = if s.get Fd.SAFE_STAT_LS_EN = 1 then 0 else 1 := by
  have hexec : exec .swStuckLs s = .next ((s.cause 7).set Fd.SAFE_STAT_LS_FB
      (if (!s.is Fd.SAFE_STAT_LS_EN) = true then 1 else 0)) := by
    change execSwStuckLs s = _
    exact State.whenOn_powered (powered_of_admits rfl h)
  exact ⟨_, hexec, stuck_caught (by decide) (by decide) (by decide) (by decide) (is_eq_ite _ s)⟩

theorem switchesClosed_iff (s : State) :
    s.switchesClosed = true ↔ s.get Fd.SAFE_STAT_HS_EN = 1 ∧ s.get Fd.SAFE_STAT_LS_EN = 1 := by
  unfold State.switchesClosed
  rw [Bool.and_eq_true]
  exact and_congr beq_iff_eq beq_iff_eq

theorem supplyPresent_caught (mv : BitVec 16) (h : s.admits (.supplyPresent mv) = true)
    (hopen : s.get Fd.SAFE_STAT_HS_EN = 0 ∨ s.get Fd.SAFE_STAT_LS_EN = 0)
        (hmv : s.get Fd.SAFE_PROF_T_VSNS_ON * 100 < mv.toNat) :
    ∃ t, exec (.supplyPresent mv) s = .next t ∧ s.within [.io, .emt, .safe] t ∧ s.onlyRegs safeRegs t ∧ s.caught 8 t ∧
      t.get Fd.SAFE_STAT_VSNS = 1 := by
  have hno : ¬(s.switchesClosed || !s.supplySeen mv) = true := by
    have hclosed : ¬s.switchesClosed = true := fun hc => by
      obtain ⟨hhs, hls⟩ := (switchesClosed_iff s).mp hc
      omega
    simpa [State.supplySeen, hmv] using hclosed
  have hexec : exec (.supplyPresent mv) s = .next ((s.cause 8).set Fd.SAFE_STAT_VSNS 1) := by
    change execSupplyPresent mv s = _
    exact (State.whenOn_powered (powered_of_admits rfl h)).trans (if_neg hno)
  exact ⟨_, hexec, (within_causeWith (within_refl s) 8 _ (by decide) (by decide) (by decide)).set _ _,
    (onlyRegs_causeWith (regs_refl s) 8 _ fun _ ha => ha).set Fd.SAFE_STAT_VSNS _ (by decide),
    caught_set _ (caught_causeWith (by decide) _ s) (by decide) (by decide), State.get_set _ _ _ (by decide) (by decide)⟩

theorem supplyPresent_unseen (mv : BitVec 16) (h : (s.get Fd.SAFE_STAT_HS_EN = 1 ∧ s.get Fd.SAFE_STAT_LS_EN = 1) ∨
    mv.toNat ≤ s.get Fd.SAFE_PROF_T_VSNS_ON * 100) : exec (.supplyPresent mv) s = .next s := by
  have hseen : (s.switchesClosed || !s.supplySeen mv) = true := by
    rw [← switchesClosed_iff] at h
    simpa [State.supplySeen] using h
  change execSupplyPresent mv s = _
  unfold execSupplyPresent State.whenOn
  split
  · exact if_pos hseen
  · rfl

theorem rstStuck_caught (h : s.get Fd.SAFE_RST_STAT_LOW = 1) : ∃ t, exec .rstStuck s = .next t ∧ s.within [.io, .emt, .safe] t ∧
    s.onlyRegs safeRegs t ∧ s.caught 11 t := by
  have hexec : exec .rstStuck s = .next (s.cause 11) := if_pos (beq_iff_eq.mpr h)
  exact ⟨_, hexec, within_causeWith (within_refl s) 11 _ (by decide) (by decide) (by decide),
    onlyRegs_causeWith (regs_refl s) 11 _ fun _ ha => ha, caught_causeWith (by decide) _ s⟩

/-- Settles O41: each detection by its own lemma, all of them through what a cause latches and shows. -/
theorem detectionsEnterSafe : Obligations.DetectionsEnterSafe := by
  unfold Obligations.DetectionsEnterSafe
  refine ⟨fun s h => wdogA_caught h, fun chanB copy s h => chDisagree_caught chanB copy h, fun s h hclock =>
      msgTimeout_passes h hclock,
    fun s => swStuckHs_caught, fun s => swStuckLs_caught, fun mv s => supplyPresent_caught mv, fun mv s =>
        supplyPresent_unseen mv,
    fun s => rstStuck_caught, fun s h => ?_⟩
  change execRstStuck s = _
  exact if_neg fun hlow => absurd (h.symm.trans (beq_iff_eq.mp hlow)) (by decide)

end Sys2Proof.Machine.Detections
end

section
/-!
SUPPORT. The ledger's true-up and its violations (R165 to R168): what they leave outside SCAN, the laser supply and SAFE.
-/
-- One thread for the lemmas: a thread for each would ask for more memory than a build may have.
set_option Elab.async false

namespace Sys2Proof.Machine.Ledger
open Sys2Proof.Machine SafeOps

variable {s t : State} {f : Field}

/-! ## The tick and the wide values of other regions than SAFE -/

/-- The tick stands, and every wide value but SAFE's and the tills'. -/
def Quiet (s t : State) : Prop := t.tick = s.tick ∧ ∀ r j, r ≠ 18 → j < 0x0F00 → t.wideOf r j = s.wideOf r j

theorem Quiet.refl (s : State) : Quiet s s := ⟨rfl, fun _ _ _ _ => rfl⟩
theorem Quiet.trans {v : State} (h : Quiet s t) (k : Quiet t v) : Quiet s v :=
  ⟨k.1.trans h.1, fun r j hr hj => (k.2 r j hr hj).trans (h.2 r j hr hj)⟩
theorem Quiet.of_still (h : Still s t) : Quiet s t := ⟨h.2, fun r j _ _ => wideOf_congr h.1 r j⟩
theorem Quiet.of_io (h : t.io = s.io) : Quiet s t := .of_still ⟨by rw [h], congrArg Io.tick h⟩
theorem Quiet.set (s : State) (g : Field) (n : ℕ) : Quiet s (s.set g n) := .of_still (.set s g n)
theorem Quiet.onlyIf {b : Bool} {g : State → State} (h : Quiet s (g s)) : Quiet s (s.onlyIf b g) := by
  unfold State.onlyIf
  split
  · exact h
  · exact .refl s
theorem Quiet.count (s : State) (r c i n : ℕ) : Quiet s (s.count r c i n) :=
  ⟨(Io.calm_count s.io r c i n).tick, fun q _ _ hj => wideOf_count r c i n q hj s⟩
theorem Quiet.err (s : State) (e : Err) : Quiet s (s.err e) := ⟨(Io.calm_err s.io e).tick, fun q _ _ hj => wideOf_err e q hj s⟩
theorem Quiet.setWide18 (s : State) {i : ℕ} (hi : i < 0x0F00) (w : Wide) : Quiet s (s.setWide 18 i w) :=
  ⟨rfl, fun _ _ hr hj => Io.wideOf_setWide_other s.io w (by omega)⟩

theorem quiet_setSafeSt (n : ℕ) (s : State) : Quiet s (s.setSafeSt n) :=
  (((Quiet.set s _ _).trans (.set _ _ _)).trans (.onlyIf (.set _ _ _))).trans (.of_io rfl)

theorem quiet_entered (b : ℕ) (s : State) : Quiet s (entered b s) :=
  (((((quiet_setSafeSt stSAFE s).trans (.set _ _ _)).trans (.set _ _ _)).trans (.setWide18 _ (by decide) _)).trans
    (.setWide18 _ (by decide) _)).trans (.of_io rfl)

theorem quiet_enterSafe (b : ℕ) (s : State) : Quiet s (s.enterSafe b) := by
  have hdrive : Quiet s (entered b s).drive := (quiet_entered b s).trans (.of_still (still_drive _))
  have hfault (v : State) : Quiet v (v.driveFault true) := .of_still ((Still.setBit v _ _).trans (.emit _ _))
  rw [enterSafe_eq]
  exact (hdrive.trans (hfault _)).trans (.count _ _ _ _ _)

theorem quiet_latched (b code : ℕ) (s : State) : Quiet s (latched b code s) := by
  have hshown : Quiet s (shown b s) := (Quiet.set s _ _).trans (.set _ _ _)
  have hrec (v : State) : Quiet v (v.causeRecord b code) := by
    unfold State.causeRecord
    split
    · exact .refl v
    · exact .err v _
  have hdis (v : State) : Quiet v (disagreed b v) := by
    unfold disagreed
    split
    · exact .of_io rfl
    · exact .refl v
  have hdue (v : State) : Quiet v v.statusDue := .of_io rfl
  exact ((hshown.trans (.onlyIf (hrec _))).trans (hdue _)).trans (hdis _)

theorem quiet_causeWith (b code : ℕ) (s : State) : Quiet s (s.causeWith b code) := by
  rw [causeWith_eq]
  split
  · exact quiet_latched b code s
  · exact (quiet_latched b code s).trans (quiet_enterSafe b _)

/-! ## What a true-up may change -/

/-- t differs from s as a true-up of the ledger may make it. -/
structure Accounts (s t : State) : Prop where
  parts : s.within [.io, .scan, .emt, .safe] t
  regs : s.onlyRegions [2, 3, 18] t
  quiet : Quiet s t

theorem Accounts.refl (s : State) : Accounts s s := ⟨State.within_refl s _, State.onlyRegions_refl s _, .refl s⟩

theorem Accounts.set (h : Accounts s t) (g : Field) (n : ℕ) (k : g.off / 0x200000 ∈ [2, 3, 18]) : Accounts s (t.set g n) :=
  ⟨h.parts.set _ _, h.regs.set _ _ k, h.quiet.trans (.set _ _ _)⟩

theorem Accounts.count (h : Accounts s t) (r c i n : ℕ) : Accounts s (t.count r c i n) :=
  ⟨h.parts.count _ _ _ _, h.regs.of_calm (Io.calm_count ..), h.quiet.trans (.count _ _ _ _ _)⟩

theorem Accounts.scan_upd (h : Accounts s t) (g : Scan → Scan) : Accounts s (t.scan' g) :=
  ⟨h.parts.scan_upd _, h.regs.of_reg fun _ => rfl, h.quiet.trans (.of_io rfl)⟩

theorem Accounts.onlyIf (h : Accounts s t) {b : Bool} {g : State → State} (k : Accounts s (g t)) : Accounts s (t.onlyIf b g)
    := by
  unfold State.onlyIf
  split
  · exact k
  · exact h

theorem Accounts.each {α : Type} {l : List α} {g : α → State → State} (h : Accounts s t)
    (k : ∀ x w, Accounts s w → Accounts s (g x w)) : Accounts s (t.each l g) :=
  foldl_keeps (fun w : State => Accounts s w) _ (fun w x => k x w) l t h

theorem Accounts.causeWith (h : Accounts s t) (b code : ℕ) : Accounts s (t.causeWith b code) :=
  ⟨within_causeWith h.parts b code (by decide) (by decide) (by decide),
    fun a ha hal hlost => (((onlyRegs_causeWith (State.onlyRegs_refl t safeRegs) b code fun _ hm => hm).regions
        (qs := [2, 3, 18])
      (by decide)) a ha hal hlost).trans (h.regs a ha hal hlost), h.quiet.trans (quiet_causeWith b code t)⟩

theorem accounts_violation (h : Accounts s t) (stray : Bool) (grp win : ℕ) : Accounts s (t.violation stray grp win) := by
  unfold State.violation State.cause
  simp only
  refine Accounts.causeWith (Accounts.scan_upd (Accounts.count ?_ _ _ _ _) _) _ _
  split
  · exact h
  · exact ((((h.set _ _ (by decide)).set Fd.SCAN_LEDG_STAT_STRAY _ (by decide)).set _ _ (by decide)).set _ _ (by decide))

theorem accounts_showRemain (h : Accounts s t) {g : ℕ} (hg : g < 64) : Accounts s (t.showRemain g) := by
  have hoff {w : ℕ} (hw : w ∈ [0, 1, 2]) : (Fd.SCAN_LEDG_REMAIN_CU w g).off / 0x200000 ∈ [2, 3, 18] := by
    have hlt : w < 3 := by simp at hw; omega
    simp only [Fd.SCAN_LEDG_REMAIN_CU]
    exact List.mem_cons.mpr (.inl (by omega))
  unfold State.showRemain
  simp only [List.foldl_cons, List.foldl_nil]
  exact ((h.set _ _ (hoff (by simp))).set _ _ (hoff (by simp))).set _ _ (hoff (by simp))

theorem accounts_trueUpGroup (h : Accounts s t) (x : ℤ) (cu : ℕ) {g : ℕ} (hg : g < 64) : Accounts s (t.trueUpGroup x cu g) := by
  have hcount : Accounts s ((t.scan' (Scan.charge g x cu)).count 2 Src.SCAN_LEDG_TRUEUP g 1) := (h.scan_upd _).count _ _ _ _
  unfold State.trueUpGroup
  simp only
  refine accounts_showRemain ?_ hg
  split
  · exact accounts_violation hcount _ _ _
  · exact hcount

/-- The true-up of a module changes what its ledger may change. -/
theorem accounts_trueUp (h : Accounts s t) (m : ℕ) (v x : ℤ) (unset ovr : Bool) : Accounts s (t.trueUp m v x unset ovr) := by
  unfold State.trueUp State.pruneCharges
  simp only
  refine Accounts.scan_upd ?_ _
  split
  · exact (h.scan_upd _).onlyIf (accounts_violation (h.scan_upd _) _ _ _)
  · split
    · refine List.foldlRecOn (motive := fun w : State => Accounts s w) (List.range 64) _ (h.scan_upd _) fun w hw g hg => ?_
      dsimp only
      split
      · exact hw
      · exact accounts_trueUpGroup hw _ _ (List.mem_range.mp hg)
    · exact h.scan_upd _

end Sys2Proof.Machine.Ledger
end

section
/-!
SETTLES O39. The slow chains of MONI: crossings, sinc³ and FIR outputs, synchronising resets and excitation compliance
    (R352 to R361).
-/
-- One thread for the lemmas: a thread for each would ask for more memory than a build may have.
set_option Elab.async false

namespace Sys2Proof.Machine.SlowChains
open Sys2Proof.Machine SafeOps Ledger

variable {s t : State} {f : Field} {rs qs : List ℕ}

/-! ## A chain's record -/

theorem chain_upd_same (k : ℕ) (g : MoniChain → MoniChain) (s : State) : (s.chain' k g).chain k = g (s.chain k) :=
    rd_wr_same _ _ _ _
theorem chain_upd_other {j k : ℕ} (h : j ≠ k) (g : MoniChain → MoniChain) (s : State) : (s.chain' k g).chain j = s.chain j :=
  rd_wr_other _ _ _ h
theorem chain_of_moni (h : t.moni = s.moni) (k : ℕ) : t.chain k = s.chain k := by rw [State.chain, State.chain, h]

theorem reg_chain_upd (k : ℕ) (g : MoniChain → MoniChain) (s : State) (a : ℕ) : (s.chain' k g).reg a = s.reg a := rfl
theorem get_chain_upd (k : ℕ) (g : MoniChain → MoniChain) (s : State) (f : Field) : (s.chain' k g).get f = s.get f := rfl
theorem get_reach (w : Wide) (s : State) (f : Field) : (s.reach w).get f = s.get f := by
  have hio (x : Io) (c : Prop) [Decidable c] (n : Wide) : (if c then { x with tick := n } else x).get f = x.get f := by
    split <;> rfl
  exact hio s.io _ _

/-! ## Crossings -/

theorem monCrossing_counts (m : Fin 16) (h : s.reportsCrossing m s.tick = true) : ∃ t, exec (.monCrossing m) s = .next t ∧
    s.within [.io] t ∧ t.get (Fd.MONI_IN_STAT_XINGS m) = (s.get (Fd.MONI_IN_STAT_XINGS m) + 1) % 2 ^ 16 ∧
    ∀ a, a ≠ (Fd.MONI_IN_STAT_XINGS m).off → t.reg a = s.reg a := by
  refine ⟨_, if_pos h, (State.within_refl s _).set _ _, ?_, fun a ha => State.reg_set_other s _ ha⟩
  exact State.get_set _ _ _ (by simp [Fd.MONI_IN_STAT_XINGS]) (by simp [Fd.MONI_IN_STAT_XINGS])

theorem monCrossing_unreported (m : Fin 16) (h : s.reportsCrossing m s.tick = false) : exec (.monCrossing m) s = .next s :=
  if_neg (by rw [h]; decide)

/-! ## A sinc³ output, and its way to the capture -/

/-- What `taps` of one monitor sample does: it leaves MEMC's record, or puts the sample into the FIFO. -/
theorem tapMonitor_cases (tap k v : ℕ) (unset : Bool) (w : Wide) (s : State) :
    s.tapMonitor tap k v unset w = s ∨ s.tapMonitor tap k v unset w = s.intoFifo
      { tick := w.toNat, sub := k, bits := BitVec.ofNat 64 (v + (if unset then 2 ^ 24 else 0) + k * 2 ^ 28) } := by
  unfold State.tapMonitor State.taps
  split
  · by_cases h : s.memc.takesSub k
    · right
      rw [List.filter_cons, if_pos h]
      rfl
    · left
      rw [List.filter_cons, if_neg h]
      rfl
  · exact .inl rfl

/-- A sample that the capture's source and mask take goes into the FIFO. -/
theorem tapMonitor_taken {tap k : ℕ} (v : ℕ) (unset : Bool) (w : Wide) (hrun : s.capRuns = true)
    (hstream : s.capGet Fd.MEMC_CAP_SRC_STREAM = 3) (htap : s.capGet Fd.MEMC_CAP_SRC_TAP = tap) (hk : k < 16)
    (hmask : (s.capGet Fd.MEMC_CAP_MASK_MASK).testBit k = true) :
    s.tapMonitor tap k v unset w = s.intoFifo
      { tick := w.toNat, sub := k, bits := BitVec.ofNat 64 (v + (if unset then 2 ^ 24 else 0) + k * 2 ^ 28) } := by
  have htakes : s.memc.takesSub k = true := by
    change s.memc.capGet Fd.MEMC_CAP_SRC_STREAM = 3 at hstream
    change (s.memc.capGet Fd.MEMC_CAP_MASK_MASK).testBit k = true at hmask
    unfold Memc.takesSub
    rw [hstream]
    simpa using ⟨hk, hmask⟩
  unfold State.tapMonitor State.taps
  rw [if_pos (by simp [hrun, hstream, htap]), List.filter_cons, if_pos htakes]
  rfl

theorem within_intoFifo {u : List Part} (h : s.within u t) (x : Sample) (k : .io ∈ u) (l : .memc ∈ u) : s.within u
    (t.intoFifo x) := by
  unfold State.intoFifo State.capGap
  split
  · exact (h.set _ _ k).memc_upd _ l
  · exact h.memc_upd _ l

theorem onlyRegs_intoFifo (h : s.onlyRegs rs t) (x : Sample) (k : Fd.MEMC_CAP_STAT_GAP.off ∈ rs) : s.onlyRegs rs
    (t.intoFifo x) := by
  unfold State.intoFifo State.capGap
  split
  · exact (h.set _ _ k).memc_upd _
  · exact h.memc_upd _

theorem quiet_memc (g : Memc → Memc) (s : State) : Quiet s (s.memc' g) := .of_io rfl

theorem quiet_intoFifo (x : Sample) (s : State) : Quiet s (s.intoFifo x) := by
  unfold State.intoFifo State.capGap
  split
  · exact (Quiet.set s _ _).trans (quiet_memc _ _)
  · exact quiet_memc _ _

theorem within_tapMonitor {u : List Part} (h : s.within u t) (tap k v : ℕ) (unset : Bool) (w : Wide) (i : .io ∈ u)
    (l : .memc ∈ u) :
    s.within u (t.tapMonitor tap k v unset w) := by
  obtain hs | hs := tapMonitor_cases tap k v unset w t <;> rw [hs]
  · exact h
  · exact within_intoFifo h _ i l

theorem onlyRegs_tapMonitor (h : s.onlyRegs rs t) (tap k v : ℕ) (unset : Bool) (w : Wide) (i : Fd.MEMC_CAP_STAT_GAP.off ∈ rs) :
    s.onlyRegs rs (t.tapMonitor tap k v unset w) := by
  obtain hs | hs := tapMonitor_cases tap k v unset w t <;> rw [hs]
  · exact h
  · exact onlyRegs_intoFifo h _ i

theorem quiet_tapMonitor (tap k v : ℕ) (unset : Bool) (w : Wide) (s : State) : Quiet s (s.tapMonitor tap k v unset w) := by
  obtain hs | hs := tapMonitor_cases tap k v unset w s <;> rw [hs]
  · exact .refl s
  · exact quiet_intoFifo _ s

/-- The FIFO after a sample: a gap where it is full or refuses, else the sample at its end. -/
theorem intoFifo_taken (x : Sample) (s : State) :
    if (s.memc.fifoFull || s.refuses 14 0) = true then (s.intoFifo x).get Fd.MEMC_CAP_STAT_GAP = 1 ∧
      (s.intoFifo x).memc.fifo = s.memc.fifo else (s.intoFifo x).memc.fifo = s.memc.fifo ++
          [{ x := x, gap := s.memc.gapIn }] := by
  unfold State.intoFifo State.capGap
  split
  · refine ⟨?_, by rw [State.memc_upd_memc, State.set_memc]⟩
    rw [State.get_memc_upd]
    exact State.get_set _ _ _ (by decide) (by decide)
  · rw [State.memc_upd_memc]

/-- How many outputs of a chain with the record c have come after its settle point, and how many of them are good (R356, R357). -/
def sincAfter (w : Wide) (c : MoniChain) : ℕ := if before c.settle w then min (c.after + 1) 4 else 0
def sincGood (w : Wide) (c : MoniChain) : ℕ :=
  if before c.settle w && decide (3 < sincAfter w c) then min (c.good + 1) 127 else 0

/-- The record of a chain, which was c, after its n-th sinc³ output, at the tick w. -/
def sincChain (n : ℕ) (w : Wide) (open_ : Bool) (c : MoniChain) : MoniChain → MoniChain := fun c' =>
  { c' with sincs := n, after := sincAfter w c, good := sincGood w c, clean := if open_ then 0 else min (c'.clean + 1) 127,
            opened := false }

/-- The tick and the number of the next sinc³ output, and whether a pin of the chain is open. -/
abbrev sincNo (k : ℕ) (s : State) : ℕ := s.nextOutput (s.chain k).base (s.chain k).sincs sincPeriod
abbrev sincTick (k : ℕ) (s : State) : Wide := (s.chain k).base + BitVec.ofNat 64 (sincNo k s * sincPeriod)
abbrev sincOpen (k : ℕ) (s : State) : Bool := (s.chain k).opened || (decide (16 ≤ k) && (s.snsPins k).any s.pinCompl)

/-- The state with the output in the chain's record, before it is shown and tapped. -/
def sinced (k : ℕ) (s : State) : State :=
  (s.reach (sincTick k s)).chain' k (sincChain (sincNo k s) (sincTick k s) (sincOpen k s) (s.chain k))

/-- What of an output is shown and tapped: a monitor's. -/
def sincShown (k : ℕ) (v : ℕ) (s : State) : State :=
  if k < 16 then
    ((sinced k s).setBit (Fd.MONI_IN_STAT_SETTLING k) (sincGood (sincTick k s) (s.chain k) != 127)).tapMonitor 0 k v
      (sincGood (sincTick k s) (s.chain k) == 0) (sincTick k s - BitVec.ofNat 64 sincDelay)
  else sinced k s

theorem chain_reach (w : Wide) (k : ℕ) (s : State) : (s.reach w).chain k = s.chain k := rfl

theorem sinced_chain (k : ℕ) (s : State) : (sinced k s).chain k = sincChain (sincNo k s) (sincTick k s) (sincOpen k s)
    (s.chain k)
    (s.chain k) := by
  rw [sinced, chain_upd_same, chain_reach]

theorem exec_sincOutput (k : Fin 20) (v : BitVec 24) (hrun : s.chainRuns k = true) (ht : s.timely (sincTick k s) = true) :
    exec (.sincOutput k v) s = .next (sincShown k v.toNat s) := by
  have hcond : ¬(!s.chainRuns k || !s.timely (sincTick k s)) = true := by rw [hrun, ht]; decide
  change execSincOutput k v s = _
  unfold execSincOutput
  dsimp only
  rw [if_neg hcond]
  rfl

theorem steady_monitor (k : Fin 16) : (Fd.MONI_IN_STAT_SETTLING k).steady = true ∧ (Fd.MONI_IN_LAST_VALUE k).steady = true := by
  revert k
  decide

theorem within_chain_upd {u : List Part} (h : s.within u t) (k : ℕ) (g : MoniChain → MoniChain) (l : .moni ∈ u) :
    s.within u (t.chain' k g) := h.moni_upd _ l
theorem onlyRegs_chain_upd (h : s.onlyRegs rs t) (k : ℕ) (g : MoniChain → MoniChain) : s.onlyRegs rs (t.chain' k g) :=
    h.moni_upd _
theorem memc_chain_upd (k : ℕ) (g : MoniChain → MoniChain) (s : State) : (s.chain' k g).memc = s.memc := rfl
theorem io_chain_upd (k : ℕ) (g : MoniChain → MoniChain) (s : State) : (s.chain' k g).io = s.io := rfl
theorem tick_chain_upd (k : ℕ) (g : MoniChain → MoniChain) (s : State) : (s.chain' k g).tick = s.tick := rfl
theorem memc_reach (w : Wide) (s : State) : (s.reach w).memc = s.memc := rfl

theorem within_sinced (k : ℕ) (s : State) : s.within [.io, .memc, .moni] (sinced k s) := by
  unfold sinced
  exact within_chain_upd ((State.within_refl s _).reach _) k _ (by decide)

theorem onlyRegs_sinced (k : ℕ) (s : State) (rs : List ℕ) : s.onlyRegs rs (sinced k s) := by
  unfold sinced
  exact onlyRegs_chain_upd ((State.onlyRegs_refl s rs).reach _) k _

theorem tick_sinced (k : ℕ) (s : State) : (sinced k s).tick = (s.reach (sincTick k s)).tick := by
  rw [sinced, tick_chain_upd]
theorem memc_sinced (k : ℕ) (s : State) : (sinced k s).memc = s.memc := by
  rw [sinced, memc_chain_upd, memc_reach]

/-- The refusals of MEMC turn on its perturbation registers and the tick. -/
theorem refuses_congr {r q : ℕ} (hprob : t.get (Fd.PERTURB_BP_PROB r) = s.get (Fd.PERTURB_BP_PROB r))
    (hsel : t.get (Fd.PERTURB_BP_QSEL r) = s.get (Fd.PERTURB_BP_QSEL r))
    (hseed : t.get (Fd.PERTURB_SEED_SEED r) = s.get (Fd.PERTURB_SEED_SEED r)) (htick : t.tick = s.tick) :
    t.refuses r q = s.refuses r q := by
  change t.io.tick = s.io.tick at htick
  unfold State.refuses
  rw [hprob, hsel, hseed, htick]

/-- A monitor's output as it is shown, before it is tapped. -/
def settling (k : ℕ) (s : State) : State :=
  (sinced k s).setBit (Fd.MONI_IN_STAT_SETTLING k) (sincGood (sincTick k s) (s.chain k) != 127)

theorem sincShown_monitor {k : ℕ} (hk : k < 16) (v : ℕ) (s : State) : sincShown k v s = (settling k s).tapMonitor 0 k v
    (sincGood (sincTick k s) (s.chain k) == 0) (sincTick k s - BitVec.ofNat 64 sincDelay) := if_pos hk
theorem sincShown_sense {k : ℕ} (hk : ¬k < 16) (v : ℕ) (s : State) : sincShown k v s = sinced k s := if_neg hk

theorem tick_setBit (g : Field) (b : Bool) (s : State) : (s.setBit g b).tick = s.tick := rfl
theorem moni_tapMonitor (tap k v : ℕ) (unset : Bool) (w : Wide) (s : State) : (s.tapMonitor tap k v unset w).moni = s.moni := by
  have h := within_tapMonitor (State.within_refl s [.io, .memc]) tap k v unset w (by decide) (by decide)
  exact h.same .moni (by decide)

theorem within_sincShown (k v : ℕ) (s : State) : s.within [.io, .memc, .moni] (sincShown k v s) := by
  by_cases hk : k < 16
  · rw [sincShown_monitor hk]
    exact within_tapMonitor ((within_sinced k s).set _ _) _ _ _ _ _ (by decide) (by decide)
  · rw [sincShown_sense hk]
    exact within_sinced k s

theorem onlyRegs_sincShown (k v : ℕ) (s : State) :
    s.onlyRegs [(Fd.MONI_IN_STAT_SETTLING k).off, Fd.MEMC_CAP_STAT_GAP.off] (sincShown k v s) := by
  by_cases hk : k < 16
  · rw [sincShown_monitor hk]
    exact onlyRegs_tapMonitor ((onlyRegs_sinced k s _).setBit (Fd.MONI_IN_STAT_SETTLING k) _ (.head _)) _ _ _ _ _
        (.tail _ (.head _))
  · rw [sincShown_sense hk]
    exact onlyRegs_sinced k s _

theorem tick_sincShown (k v : ℕ) (s : State) : (sincShown k v s).tick = (s.reach (sincTick k s)).tick := by
  by_cases hk : k < 16
  · rw [sincShown_monitor hk, (quiet_tapMonitor _ _ _ _ _ _).1, settling, tick_setBit, tick_sinced]
  · rw [sincShown_sense hk, tick_sinced]

theorem chain_sincShown (k v : ℕ) (s : State) : (sincShown k v s).chain k
    = sincChain (sincNo k s) (sincTick k s) (sincOpen k s) (s.chain k) (s.chain k) := by
  have hset (g : Field) (b : Bool) (v : State) : (v.setBit g b).moni = v.moni := rfl
  by_cases hk : k < 16
  · rw [sincShown_monitor hk, chain_of_moni (moni_tapMonitor _ _ _ _ _ _), settling, chain_of_moni (hset _ _ _), sinced_chain]
  · rw [sincShown_sense hk, sinced_chain]

/-- The sample of a monitor that is put into the FIFO. -/
def sincSample (k v : ℕ) (s : State) : Sample :=
  { tick := (sincTick k s - BitVec.ofNat 64 sincDelay).toNat, sub := k,
    bits := BitVec.ofNat 64 (v + (if sincGood (sincTick k s) (s.chain k) == 0 then 2 ^ 24 else 0) + k * 2 ^ 28) }

theorem sincSample_bits {v : ℕ} (hv : v < 2 ^ 24) (k : ℕ) (s : State) : (sincSample k v s).bits.toNat % 2 ^ 24 = v := by
  unfold sincSample
  simp only [BitVec.toNat_ofNat]
  split <;> omega

/-- A monitor's output that the capture in progress records. -/
theorem sincShown_tapped {k v : ℕ} (hv : v < 2 ^ 24) (hk : k < 16) (hrun : s.capRuns = true)
    (hstream : s.capGet Fd.MEMC_CAP_SRC_STREAM = 3) (htap : s.capGet Fd.MEMC_CAP_SRC_TAP = 0)
    (hmask : (s.capGet Fd.MEMC_CAP_MASK_MASK).testBit k = true) :
    if (s.memc.fifoFull || (s.reach (sincTick k s)).refuses 14 0) = true then (sincShown k v s).get Fd.MEMC_CAP_STAT_GAP = 1 ∧
      (sincShown k v s).memc.fifo = s.memc.fifo
    else ∃ e, (sincShown k v s).memc.fifo = s.memc.fifo ++ [e] ∧ e.x.tick = (sincTick k s - BitVec.ofNat 64 sincDelay).toNat ∧
      e.x.sub = k ∧ e.x.bits.toNat % 2 ^ 24 = v ∧ e.gap = s.memc.gapIn := by
  have hregs : s.onlyRegs [(Fd.MONI_IN_STAT_SETTLING k).off] (settling k s) :=
    (onlyRegs_sinced k s _).setBit (Fd.MONI_IN_STAT_SETTLING k) _ (.head _)
  have hget (g : Field) (hp : g.steady = true) (hg : g.off ≠ (Fd.MONI_IN_STAT_SETTLING k).off) : (settling k s).get g =
      s.get g :=
    hregs.steady (by simpa using hg) hp
  have hmemc : (settling k s).memc = s.memc := (State.set_memc _ _ _).trans (memc_sinced k s)
  have hoff (g : Field) (hg : g.off < 0x01E00000) : g.off ≠ (Fd.MONI_IN_STAT_SETTLING k).off := by
    simp only [Fd.MONI_IN_STAT_SETTLING]
    omega
  have hrefuses : (settling k s).refuses 14 0 = (s.reach (sincTick k s)).refuses 14 0 :=
    refuses_congr ((hget _ (by decide) (hoff _ (by decide))).trans (get_reach _ _ _).symm)
      ((hget _ (by decide) (hoff _ (by decide))).trans (get_reach _ _ _).symm)
      ((hget _ (by decide) (hoff _ (by decide))).trans (get_reach _ _ _).symm) ((tick_setBit _ _ _).trans (tick_sinced k s))
  have hruns : (settling k s).capRuns = true := by
    have hstate : (settling k s).capState = s.capState := hget _ (by decide) (hoff _ (by decide))
    unfold State.capRuns at hrun ⊢
    rwa [hstate]
  have hcap (g : Field) : (settling k s).capGet g = s.capGet g := by
    unfold State.capGet
    rw [hmemc]
  rw [sincShown_monitor hk, tapMonitor_taken v _ _ hruns ((hcap _).trans hstream) ((hcap _).trans htap) hk
      (by rw [hcap]; exact hmask)]
  have htaken := intoFifo_taken (sincSample k v s) (settling k s)
  rw [hmemc, hrefuses] at htaken
  split
  next hfull =>
    rw [if_pos hfull] at htaken
    exact htaken
  next hroom =>
    rw [if_neg hroom] at htaken
    exact ⟨_, htaken, rfl, rfl, sincSample_bits hv k s, rfl⟩

theorem sincOutput_passes (k : Fin 20) (v : BitVec 24) (hrun : s.chainRuns k = true) (ht : s.timely (sincTick k s) = true) :
    ∃ t, exec (.sincOutput k v) s = .next t ∧ s.within [.io, .memc, .moni] t ∧
      s.onlyRegs [(Fd.MONI_IN_STAT_SETTLING k).off, Fd.MEMC_CAP_STAT_GAP.off] t ∧ t.tick = (s.reach (sincTick k s)).tick ∧
      (t.chain k).sincs = sincNo k s ∧ (t.chain k).clean = (if sincOpen k s then 0 else min ((s.chain k).clean + 1) 127) ∧
      (t.chain k).opened = false ∧ (before (s.chain k).settle (sincTick k s) = false → (t.chain k).good = 0) ∧
      (k.val < 16 → s.capRuns = true → s.capGet Fd.MEMC_CAP_SRC_STREAM = 3 → s.capGet Fd.MEMC_CAP_SRC_TAP = 0 →
        (s.capGet Fd.MEMC_CAP_MASK_MASK).testBit k = true →
        if (s.memc.fifoFull || (s.reach (sincTick k s)).refuses 14 0) = true then
          t.get Fd.MEMC_CAP_STAT_GAP = 1 ∧ t.memc.fifo = s.memc.fifo
        else ∃ e, t.memc.fifo = s.memc.fifo ++ [e] ∧ e.x.tick = (sincTick k s - BitVec.ofNat 64 sincDelay).toNat ∧ e.x.sub =
            k.val ∧
          e.x.bits.toNat % 2 ^ 24 = v.toNat ∧ e.gap = s.memc.gapIn) := by
  refine ⟨_, exec_sincOutput k v hrun ht, within_sincShown k _ s, onlyRegs_sincShown k _ s, tick_sincShown k _ s, ?_, ?_, ?_,
    fun hpast => ?_, fun hk => sincShown_tapped v.isLt hk⟩ <;> rw [chain_sincShown, sincChain]
  rw [sincGood, hpast]
  rfl

/-! ## A FIR output -/

abbrev firNo (k : ℕ) (s : State) : ℕ := s.nextOutput (s.chain k).base (s.chain k).firs firPeriod
abbrev firTick (k : ℕ) (s : State) : Wide := (s.chain k).base + BitVec.ofNat 64 (firNo k s * firPeriod)

/-- An output at either limit of the converter, and one that has no settled value. -/
abbrev firOver (v : BitVec 24) : Bool := v == 0x7FFFFF || v == 0x800000
abbrev firUnset (k : ℕ) (v : BitVec 24) (s : State) : Bool := (s.chain k).good != 127 || firOver v

theorem firUnset_iff (k : ℕ) (v : BitVec 24) (s : State) :
    firUnset k v s = true ↔ (s.chain k).good ≠ 127 ∨ v = 0x7FFFFF ∨ v = 0x800000 := by
  simp [firUnset, firOver]

/-- The state with a FIR output counted and stamped. -/
def fired (k : ℕ) (s : State) : State :=
  ((s.reach (firTick k s)).chain' k fun c => { c with firs := firNo k s }).setWide 15 (0x0100 + k)
    (firTick k s - BitVec.ofNat 64 chainDelay)

/-- A monitor's output shown. -/
def monShown (k : ℕ) (v : BitVec 24) (s : State) : State :=
  (fired k s).set (Fd.MONI_IN_LAST_VALUE k) v.toNat |>.setBit (Fd.MONI_IN_LAST_UNSET k) (firUnset k v s)
    |>.setBit (Fd.MONI_IN_LAST_OVR k) (firOver v) |>.bump (Fd.MONI_IN_LAST_CNT k) 1
    |>.onlyIf (firOver v) (fun s => s.set (Fd.MONI_IN_STAT_OVR_SEEN k) 1 |>.count 15 Src.MONI_MON_OVR k 1)
    |>.onlyIf (firOver v && !s.is (Fd.MONI_IN_LAST_OVR k))
      (State.err { level := 0, region := 15, block := 1, code := 0x0F82, cell := k, action := 4 })

/-- A monitor's output, with its way to the capture and the ledger. -/
def monTrued (k : ℕ) (v : BitVec 24) (s : State) : State :=
  ((monShown k v s).tapMonitor 1 k v.toNat (firUnset k v s) (firTick k s - BitVec.ofNat 64 chainDelay)).trueUp k v.toInt
    (((firTick k s).toNat : Int) - chainDelay) (firUnset k v s) (firOver v)

/-- A sense chain's output shown. -/
def snsShown (j : ℕ) (v : BitVec 24) (unset ovr open_ : Bool) (s : State) : State :=
  s.set (Fd.MONI_SNS_LAST_VALUE j) v.toNat |>.setBit (Fd.MONI_SNS_LAST_UNSET j) unset
    |>.setBit (Fd.MONI_SNS_LAST_OVR j) ovr |>.setBit (Fd.MONI_SNS_LAST_OPEN j) open_ |>.bump (Fd.MONI_SNS_LAST_CNT j) 1

/-- A sense chain's output, with the oven's pair. -/
def snsPaired (k : ℕ) (v : BitVec 24) (s : State) : State :=
  (snsShown (k - 16) v (firUnset k v s) (firOver v) ((s.chain k).clean != 127) (fired k s)).onlyIf (k - 16 == 1)
    (State.ovenPair v (firUnset k v s))

theorem exec_slowSample (k : Fin 20) (v : BitVec 24) (hrun : s.chainRuns k = true) (ht : s.timely (firTick k s) = true) :
    exec (.slowSample k v) s = if k.val < 16 then .next (monTrued k v s) else .next (snsPaired k v s) := by
  have hcond : ¬(!s.chainRuns k || !s.timely (firTick k s)) = true := by rw [hrun, ht]; decide
  change execSlowSample k v s = _
  unfold execSlowSample
  dsimp only
  rw [if_neg hcond]
  rfl

theorem within_fired (k : ℕ) (s : State) : s.within [.io, .tbas, .scan, .emt, .safe, .memc, .moni] (fired k s) := by
  unfold fired
  exact (within_chain_upd ((State.within_refl s _).reach _) k _ (by decide)).setWide _ _ _

theorem reg_fired (k : ℕ) (s : State) (a : ℕ) : (fired k s).reg a = s.reg a := by
  have hwide (r i : ℕ) (w : Wide) (v : State) : (v.setWide r i w).reg a = v.reg a := rfl
  rw [fired, hwide, reg_chain_upd, State.reg_reach]

theorem tbas_fired (k : ℕ) (s : State) : (fired k s).tbas = s.tbas := by
  have hwide (r i : ℕ) (w : Wide) (v : State) : (v.setWide r i w).tbas = v.tbas := rfl
  have hchain (g : MoniChain → MoniChain) (v : State) : (v.chain' k g).tbas = v.tbas := rfl
  have hreach (w : Wide) (v : State) : (v.reach w).tbas = v.tbas := rfl
  rw [fired, hwide, hchain, hreach]

theorem get_fired (k : ℕ) (s : State) (f : Field) : (fired k s).get f = s.get f := Io.get_congr (reg_fired k s f.off)

theorem tick_fired (k : ℕ) (s : State) : (fired k s).tick = (s.reach (firTick k s)).tick := by
  have hwide (r i : ℕ) (w : Wide) (v : State) : (v.setWide r i w).tick = v.tick := rfl
  rw [fired, hwide, tick_chain_upd]

theorem chain_fired (k : ℕ) (s : State) : ((fired k s).chain k).firs = firNo k s := by
  have hwide (r i : ℕ) (w : Wide) (v : State) : (v.setWide r i w).chain k = v.chain k := rfl
  rw [fired, hwide, chain_upd_same]

theorem wideOf_fired (k : ℕ) (s : State) : (fired k s).wideOf 15 (0x0100 + k) = firTick k s - BitVec.ofNat 64 chainDelay :=
  Io.wideOf_setWide _ _ _ _

/-- What an output's showing leaves, and where its registers are. -/
structure Showing (a : ℕ) (s t : State) : Prop where
  parts : s.within [.io] t
  regs : s.onlyRegs [a] t
  quiet : Quiet s t

theorem Showing.refl (a : ℕ) (s : State) : Showing a s s := ⟨State.within_refl s _, State.onlyRegs_refl s _, .refl s⟩
theorem Showing.set {a : ℕ} (h : Showing a s t) (g : Field) (n : ℕ) (hg : g.off = a) : Showing a s (t.set g n) :=
  ⟨h.parts.set _ _, h.regs.set _ _ (by simp [hg]), h.quiet.trans (.set _ _ _)⟩

/-- The fields of a sense chain's register are apart. -/
theorem sns_apart (j : ℕ) :
    ((Fd.MONI_SNS_LAST_CNT j).apart (Fd.MONI_SNS_LAST_VALUE j) = true ∧ (Fd.MONI_SNS_LAST_CNT j).apart
        (Fd.MONI_SNS_LAST_UNSET j) = true) ∧
    ((Fd.MONI_SNS_LAST_OPEN j).apart (Fd.MONI_SNS_LAST_VALUE j) = true ∧ (Fd.MONI_SNS_LAST_OPEN j).apart
        (Fd.MONI_SNS_LAST_UNSET j) = true ∧
      (Fd.MONI_SNS_LAST_OPEN j).apart (Fd.MONI_SNS_LAST_CNT j) = true) ∧
    ((Fd.MONI_SNS_LAST_OVR j).apart (Fd.MONI_SNS_LAST_VALUE j) = true ∧ (Fd.MONI_SNS_LAST_OVR j).apart
        (Fd.MONI_SNS_LAST_UNSET j) = true ∧
      (Fd.MONI_SNS_LAST_OVR j).apart (Fd.MONI_SNS_LAST_CNT j) = true) ∧
    ((Fd.MONI_SNS_LAST_UNSET j).apart (Fd.MONI_SNS_LAST_VALUE j) = true ∧ (Fd.MONI_SNS_LAST_UNSET j).apart
        (Fd.MONI_SNS_LAST_CNT j) = true) ∧
    (Fd.MONI_SNS_LAST_VALUE j).apart (Fd.MONI_SNS_LAST_CNT j) = true := by
  simp [Field.apart, Fd.MONI_SNS_LAST_CNT, Fd.MONI_SNS_LAST_VALUE, Fd.MONI_SNS_LAST_UNSET, Fd.MONI_SNS_LAST_OVR,
      Fd.MONI_SNS_LAST_OPEN]

/-- The fields of a monitor's register are apart. -/
theorem mon_apart (k : ℕ) :
    ((Fd.MONI_IN_LAST_CNT k).apart (Fd.MONI_IN_LAST_VALUE k) = true ∧ (Fd.MONI_IN_LAST_CNT k).apart
        (Fd.MONI_IN_LAST_UNSET k) = true) ∧
    ((Fd.MONI_IN_LAST_OVR k).apart (Fd.MONI_IN_LAST_VALUE k) = true ∧ (Fd.MONI_IN_LAST_OVR k).apart
        (Fd.MONI_IN_LAST_UNSET k) = true ∧
      (Fd.MONI_IN_LAST_OVR k).apart (Fd.MONI_IN_LAST_CNT k) = true) ∧
    ((Fd.MONI_IN_LAST_UNSET k).apart (Fd.MONI_IN_LAST_VALUE k) = true ∧ (Fd.MONI_IN_LAST_UNSET k).apart
        (Fd.MONI_IN_LAST_CNT k) = true) ∧
    (Fd.MONI_IN_LAST_VALUE k).apart (Fd.MONI_IN_LAST_CNT k) = true := by
  simp [Field.apart, Fd.MONI_IN_LAST_CNT, Fd.MONI_IN_LAST_VALUE, Fd.MONI_IN_LAST_UNSET, Fd.MONI_IN_LAST_OVR]

/-- A sense chain's output is in its register with its mark, and is counted. -/
theorem snsShown_shows (j : ℕ) (v : BitVec 24) (unset ovr open_ : Bool) (s : State) :
    Showing (Fd.MONI_SNS_LAST_VALUE j).off s (snsShown j v unset ovr open_ s) ∧
      (snsShown j v unset ovr open_ s).get (Fd.MONI_SNS_LAST_VALUE j) = v.toNat ∧
      (snsShown j v unset ovr open_ s).get (Fd.MONI_SNS_LAST_CNT j) = (s.get (Fd.MONI_SNS_LAST_CNT j) + 1) % 2 ^ 5 ∧
      (snsShown j v unset ovr open_ s).get (Fd.MONI_SNS_LAST_UNSET j) = if unset then 1 else 0 := by
  obtain ⟨⟨hcv, hcu⟩, ⟨hpv, hpu, hpc⟩, ⟨hov, hou, hoc⟩, ⟨huv, huc⟩, hvc⟩ := sns_apart j
  have hlt : v.toNat < 2 ^ (23 - 0 + 1) := v.isLt
  unfold snsShown
  refine ⟨?_, ?_, ?_, ?_⟩
  · exact (((((Showing.refl _ s).set (Fd.MONI_SNS_LAST_VALUE j) _ rfl).set (Fd.MONI_SNS_LAST_UNSET j) _ rfl).set
      (Fd.MONI_SNS_LAST_OVR j) _ rfl).set (Fd.MONI_SNS_LAST_OPEN j) _ rfl).set (Fd.MONI_SNS_LAST_CNT j) _ rfl
  · rw [State.get_bump_apart _ _ hcv, State.get_setBit_apart _ _ hpv, State.get_setBit_apart _ _ hov, State.get_setBit_apart
      _ _ huv]
    exact (State.get_set _ _ _ (by simp [Fd.MONI_SNS_LAST_VALUE]) (by simp [Fd.MONI_SNS_LAST_VALUE])).trans
        (Nat.mod_eq_of_lt hlt)
  · rw [State.get_bump _ _ _ (by simp [Fd.MONI_SNS_LAST_CNT]) (by simp [Fd.MONI_SNS_LAST_CNT]), State.get_setBit_apart _ _ hpc,
      State.get_setBit_apart _ _ hoc, State.get_setBit_apart _ _ huc, State.get_set_apart _ _ hvc]
    rfl
  · rw [State.get_bump_apart _ _ hcu, State.get_setBit_apart _ _ hpu, State.get_setBit_apart _ _ hou]
    exact State.get_setBit _ _ _ (by simp [Fd.MONI_SNS_LAST_UNSET]) (by simp [Fd.MONI_SNS_LAST_UNSET])

/-- A monitor's output in its register, before an output at the converter's limit is noted. -/
def monNoted (k : ℕ) (v : BitVec 24) (s : State) : State :=
  (fired k s).set (Fd.MONI_IN_LAST_VALUE k) v.toNat |>.setBit (Fd.MONI_IN_LAST_UNSET k) (firUnset k v s)
    |>.setBit (Fd.MONI_IN_LAST_OVR k) (firOver v) |>.bump (Fd.MONI_IN_LAST_CNT k) 1

theorem monNoted_shows (k : ℕ) (v : BitVec 24) (s : State) :
    Showing (Fd.MONI_IN_LAST_VALUE k).off (fired k s) (monNoted k v s) ∧ (monNoted k v s).get (Fd.MONI_IN_LAST_VALUE k) =
        v.toNat ∧
      (monNoted k v s).get (Fd.MONI_IN_LAST_CNT k) = (s.get (Fd.MONI_IN_LAST_CNT k) + 1) % 2 ^ 6 ∧
      (monNoted k v s).get (Fd.MONI_IN_LAST_UNSET k) = if firUnset k v s then 1 else 0 := by
  obtain ⟨⟨hcv, hcu⟩, ⟨hov, hou, hoc⟩, ⟨huv, huc⟩, hvc⟩ := mon_apart k
  have hlt : v.toNat < 2 ^ (23 - 0 + 1) := v.isLt
  unfold monNoted
  refine ⟨?_, ?_, ?_, ?_⟩
  · exact ((((Showing.refl _ (fired k s)).set (Fd.MONI_IN_LAST_VALUE k) _ rfl).set (Fd.MONI_IN_LAST_UNSET k) _ rfl).set
      (Fd.MONI_IN_LAST_OVR k) _ rfl).set (Fd.MONI_IN_LAST_CNT k) _ rfl
  · rw [State.get_bump_apart _ _ hcv, State.get_setBit_apart _ _ hov, State.get_setBit_apart _ _ huv]
    exact (State.get_set _ _ _ (by simp [Fd.MONI_IN_LAST_VALUE]) (by simp [Fd.MONI_IN_LAST_VALUE])).trans (Nat.mod_eq_of_lt hlt)
  · rw [State.get_bump _ _ _ (by simp [Fd.MONI_IN_LAST_CNT]) (by simp [Fd.MONI_IN_LAST_CNT]),
      State.get_setBit_apart _ _ hoc, State.get_setBit_apart _ _ huc, State.get_set_apart _ _ hvc, get_fired]
    rfl
  · rw [State.get_bump_apart _ _ hcu, State.get_setBit_apart _ _ hou]
    exact State.get_setBit _ _ _ (by simp [Fd.MONI_IN_LAST_UNSET]) (by simp [Fd.MONI_IN_LAST_UNSET])

/-! ### A monitor's output, as far as the ledger -/

/-- The marks of an output at the converter's limit: the flag with its till, and the first one's record. -/
def overSeen (k : ℕ) (s : State) : State := (s.set (Fd.MONI_IN_STAT_OVR_SEEN k) 1).count 15 Src.MONI_MON_OVR k 1
def overRecord (k : ℕ) (s : State) : State :=
  s.err { level := 0, region := 15, block := 1, code := 0x0F82, cell := k, action := 4 }

theorem monShown_eq (k : ℕ) (v : BitVec 24) (s : State) : monShown k v s =
    ((monNoted k v s).onlyIf (firOver v) (overSeen k)).onlyIf
    (firOver v && !s.is (Fd.MONI_IN_LAST_OVR k)) (overRecord k) := rfl

/-- What of a monitor's output is kept until its end: its parts, its regions, and what its register shows. -/
structure Traces (k : ℕ) (s t : State) : Prop where
  parts : s.within [.io, .scan, .emt, .safe, .memc] t
  regs : s.onlyRegions [2, 3, 14, 15, 18] t
  last : t.reg (Fd.MONI_IN_LAST_VALUE k).off = s.reg (Fd.MONI_IN_LAST_VALUE k).off
  quiet : Quiet s t

theorem Traces.trans {k : ℕ} {v : State} (h : Traces k s t) (i : Traces k t v) : Traces k s v :=
  ⟨h.parts.trans i.parts, fun a ha hal hlost => (i.regs a ha hal hlost).trans (h.regs a ha hal hlost), i.last.trans h.last,
    h.quiet.trans i.quiet⟩

theorem last_off {k : ℕ} (hk : k < 16) : (Fd.MONI_IN_LAST_VALUE k).off / 0x200000 = 15 ∧
    alarmReg (Fd.MONI_IN_LAST_VALUE k).off = false ∧ (Fd.MONI_IN_LAST_VALUE k).off ≠ Fd.MGMT_LOG_LOST_COUNT.off := by
  obtain ⟨-, h⟩ := steady_monitor ⟨k, hk⟩
  have hsteady : alarmReg (Fd.MONI_IN_LAST_VALUE k).off = false ∧ (Fd.MONI_IN_LAST_VALUE k).off ≠ Fd.MGMT_LOG_LOST_COUNT.off
      := by
    simpa [Field.steady] using h
  refine ⟨?_, hsteady⟩
  simp only [Fd.MONI_IN_LAST_VALUE]
  omega

theorem Traces.refl (k : ℕ) (s : State) : Traces k s s := ⟨State.within_refl s _, State.onlyRegions_refl s _, rfl, .refl s⟩

theorem Traces.onlyIf {k : ℕ} {b : Bool} {g : State → State} (h : Traces k s (g s)) : Traces k s (s.onlyIf b g) := by
  unfold State.onlyIf
  split
  · exact h
  · exact .refl k s

theorem traces_overSeen {k : ℕ} (hk : k < 16) (s : State) : Traces k s (overSeen k s) := by
  obtain ⟨-, hal, hlost⟩ := last_off hk
  have hoff : (Fd.MONI_IN_LAST_VALUE k).off ∉ [(Fd.MONI_IN_STAT_OVR_SEEN k).off] := by
    simp [Fd.MONI_IN_LAST_VALUE, Fd.MONI_IN_STAT_OVR_SEEN]
  have hregion : ∀ a ∈ [(Fd.MONI_IN_STAT_OVR_SEEN k).off], a / 0x200000 ∈ [2, 3, 14, 15, 18] := by
    intro a ha
    have hregion : a / 0x200000 = 15 := by
      rw [List.mem_singleton.mp ha]
      simp only [Fd.MONI_IN_STAT_OVR_SEEN]
      omega
    rw [hregion]
    decide
  have hregs : s.onlyRegs [(Fd.MONI_IN_STAT_OVR_SEEN k).off] (overSeen k s) := ((State.onlyRegs_refl s _).set _ _).count _ _ _ _
  exact ⟨((State.within_refl s _).set _ _).count _ _ _ _, hregs.regions hregion, hregs _ hoff hal hlost,
    (Quiet.set s _ _).trans (.count _ _ _ _ _)⟩

theorem traces_overRecord {k : ℕ} (hk : k < 16) (m : ℕ) (s : State) : Traces k s (overRecord m s) := by
  obtain ⟨-, hal, hlost⟩ := last_off hk
  have hregs : s.onlyRegs [] (overRecord m s) := (State.onlyRegs_refl s _).err _
  exact ⟨(State.within_refl s _).err _, hregs.regions (by simp), hregs _ (by simp) hal hlost, .err s _⟩

/-- An output at the converter's limit is noted outside its register. -/
theorem traces_monShown {k : ℕ} (hk : k < 16) (v : BitVec 24) (s : State) : Traces k (monNoted k v s) (monShown k v s) := by
  rw [monShown_eq]
  exact (Traces.onlyIf (traces_overSeen hk _)).trans (.onlyIf (traces_overRecord hk k _))

theorem traces_tapMonitor {k : ℕ} (hk : k < 16) (tap m v : ℕ) (unset : Bool) (w : Wide) (s : State) :
    Traces k s (s.tapMonitor tap m v unset w) := by
  obtain ⟨-, hal, hlost⟩ := last_off hk
  have hregs := onlyRegs_tapMonitor (State.onlyRegs_refl s [Fd.MEMC_CAP_STAT_GAP.off]) tap m v unset w (by simp)
  exact ⟨within_tapMonitor (State.within_refl s _) _ _ _ _ _ (by decide) (by decide), hregs.regions (by decide),
    hregs _ (by simp [Fd.MONI_IN_LAST_VALUE, Fd.MEMC_CAP_STAT_GAP]; omega) hal hlost, quiet_tapMonitor _ _ _ _ _ _⟩

theorem traces_trueUp {k : ℕ} (hk : k < 16) (m : ℕ) (v x : ℤ) (unset ovr : Bool) (s : State) :
    Traces k s (s.trueUp m v x unset ovr) := by
  obtain ⟨hregion, hal, hlost⟩ := last_off hk
  obtain ⟨hparts, hregs, hquiet⟩ := accounts_trueUp (Accounts.refl s) m v x unset ovr
  exact ⟨hparts.mono (by decide), fun a ha => hregs a fun hin => ha (by clear * - hin; revert hin; simp; omega),
    hregs _ (by rw [hregion]; decide) hal hlost, hquiet⟩

theorem traces_monTrued {k : ℕ} (hk : k < 16) (v : BitVec 24) (s : State) : Traces k (monNoted k v s) (monTrued k v s) :=
  ((traces_monShown hk v s).trans (traces_tapMonitor hk _ _ _ _ _ _)).trans (traces_trueUp hk _ _ _ _ _ _)

/-- A register of the chains of MONI is in its region. -/
theorem region_last {a k : ℕ} (hk : k < 20) (h : a = (Fd.MONI_IN_LAST_VALUE k).off ∨ a = (Fd.MONI_SNS_LAST_VALUE k).off) :
    a / 0x200000 = 15 := by
  simp only [Fd.MONI_IN_LAST_VALUE, Fd.MONI_SNS_LAST_VALUE] at h
  omega

/-- What every FIR output leaves: its parts, its regions, its tick, its number and its stamp (R353, R355). -/
structure Fires (k : ℕ) (s t : State) : Prop where
  parts : s.within [.io, .tbas, .scan, .emt, .safe, .memc, .moni] t
  regs : s.onlyRegions [2, 3, 14, 15, 18] t
  tick : t.tick = (s.reach (firTick k s)).tick
  firs : (t.chain k).firs = firNo k s
  stamp : t.wideOf 15 (0x0100 + k) = firTick k s - BitVec.ofNat 64 chainDelay

theorem fires_of_fired {k : ℕ} (hk : k < 20) (hparts : (fired k s).within [.io, .tbas, .scan, .emt, .safe, .memc] t)
    (hregs : (fired k s).onlyRegions [2, 3, 14, 15, 18] t) (hquiet : Quiet (fired k s) t) : Fires k s t where
  parts := (within_fired k s).trans (hparts.mono (by decide))
  regs := fun a ha hal hlost => (hregs a ha hal hlost).trans (reg_fired k s a)
  tick := hquiet.1.trans (tick_fired k s)
  firs := by
    rw [chain_of_moni (hparts.same .moni (by decide))]
    exact chain_fired k s
  stamp := (hquiet.2 15 _ (by decide) (by omega)).trans (wideOf_fired k s)

/-- A monitor's output, from the state in which it is counted. -/
theorem fires_monTrued {k : ℕ} (hk : k < 16) (v : BitVec 24) (s : State) : Fires k s (monTrued k v s) := by
  obtain ⟨⟨hparts, hregs, hquiet⟩, -⟩ := monNoted_shows k v s
  obtain ⟨hparts', hregs', -, hquiet'⟩ := traces_monTrued hk v s
  have hregions : (fired k s).onlyRegions [2, 3, 14, 15, 18] (monNoted k v s) := hregs.regions fun a ha => by
    rw [region_last (by omega) (.inl (List.mem_singleton.mp ha))]
    decide
  exact fires_of_fired (by omega) ((hparts.mono (by decide)).trans (hparts'.mono (by decide)))
    (fun a ha hal hlost => (hregs' a ha hal hlost).trans (hregions a ha hal hlost)) (hquiet.trans hquiet')

/-! ### A sense chain's output, and the oven's pair -/

/-- What the oven's pair of sense outputs may change: the ratios. -/
structure Paired (s t : State) : Prop where
  parts : s.within [.io, .tbas] t
  reg : ∀ a, t.reg a = s.reg a
  quiet : Quiet s t

theorem Paired.refl (s : State) : Paired s s := ⟨State.within_refl s _, fun _ => rfl, .refl s⟩

theorem paired_free (n : ℕ) (s : State) : Paired s (s.io' fun x => { x with free := n }) :=
  ⟨(State.within_refl s _).io_upd _, fun _ => rfl, .of_still ⟨rfl, rfl⟩⟩

theorem paired_pairRatio (th ref : ℤ) (s : State) : Paired s (s.pairRatio th ref).2 := by
  unfold State.pairRatio
  split
  · exact paired_free (s.io.free + 1) s
  · exact paired_free (s.io.free + 1) s

theorem paired_ovenPair (v : BitVec 24) (unset : Bool) (s : State) : Paired s (s.ovenPair v unset) := by
  unfold State.ovenPair
  split
  · exact .refl s
  · obtain ⟨hparts, hreg, hquiet⟩ := paired_pairRatio (signed 24 (s.get (Fd.MONI_SNS_LAST_VALUE 0))) v.toInt s
    exact ⟨hparts.tbas_upd _, hreg, hquiet.trans (.of_io rfl)⟩

theorem paired_onlyIf {b : Bool} {g : State → State} (h : Paired s (g s)) : Paired s (s.onlyIf b g) := by
  unfold State.onlyIf
  split
  · exact h
  · exact .refl s

theorem fires_snsPaired {k : ℕ} (hk : k < 20) (v : BitVec 24) (s : State) : Fires k s (snsPaired k v s) := by
  obtain ⟨⟨hparts, hregs, hquiet⟩, -⟩ :=
    snsShown_shows (k - 16) v (firUnset k v s) (firOver v) ((s.chain k).clean != 127) (fired k s)
  have hregions : (fired k s).onlyRegions [2, 3, 14, 15, 18] _ := hregs.regions fun a ha => by
    rw [region_last (k := k - 16) (by omega) (.inr (List.mem_singleton.mp ha))]
    decide
  obtain ⟨hparts', hreg, hquiet'⟩ := paired_onlyIf (b := k - 16 == 1) (paired_ovenPair v (firUnset k v s)
    (snsShown (k - 16) v (firUnset k v s) (firOver v) ((s.chain k).clean != 127) (fired k s)))
  exact fires_of_fired hk ((hparts.mono (by decide)).trans (hparts'.mono (by decide))) (hregions.of_reg hreg)
      (hquiet.trans hquiet')

theorem snsPaired_get (k : ℕ) (v : BitVec 24) (s : State) (f : Field) : (snsPaired k v s).get f
    = (snsShown (k - 16) v (firUnset k v s) (firOver v) ((s.chain k).clean != 127) (fired k s)).get f :=
  Io.get_congr ((paired_onlyIf (paired_ovenPair v (firUnset k v s) _)).reg f.off)

/-- A mark that is 1 where the output has no settled value. -/
theorem mark_iff {k n : ℕ} {v : BitVec 24} (h : n = if firUnset k v s then 1 else 0) :
    ((s.chain k).good ≠ 127 ∨ v = 0x7FFFFF ∨ v = 0x800000 → n = 1) ∧
      (¬((s.chain k).good ≠ 127 ∨ v = 0x7FFFFF ∨ v = 0x800000) → n = 0) := by
  rw [← firUnset_iff, h]
  exact ⟨fun hun => if_pos hun, fun hset => if_neg hset⟩

theorem slowSample_passes (k : Fin 20) (v : BitVec 24) (hrun : s.chainRuns k = true) (ht : s.timely (firTick k s) = true) :
    ∃ t, exec (.slowSample k v) s = .next t ∧ s.within [.io, .tbas, .scan, .emt, .safe, .memc, .moni] t ∧
      s.onlyRegions [2, 3, 14, 15, 18] t ∧ t.tick = (s.reach (firTick k s)).tick ∧ (t.chain k).firs = firNo k s ∧
      t.wideOf 15 (0x0100 + k) = firTick k s - BitVec.ofNat 64 chainDelay ∧
      if (k : Nat) < 16 then
        t.get (Fd.MONI_IN_LAST_VALUE k) = v.toNat ∧
          t.get (Fd.MONI_IN_LAST_CNT k) = (s.get (Fd.MONI_IN_LAST_CNT k) + 1) % 2 ^ 6 ∧
          ((s.chain k).good ≠ 127 ∨ v = 0x7FFFFF ∨ v = 0x800000 → t.get (Fd.MONI_IN_LAST_UNSET k) = 1) ∧
          (¬((s.chain k).good ≠ 127 ∨ v = 0x7FFFFF ∨ v = 0x800000) → t.get (Fd.MONI_IN_LAST_UNSET k) = 0)
      else
        t.get (Fd.MONI_SNS_LAST_VALUE (k - 16)) = v.toNat ∧
          t.get (Fd.MONI_SNS_LAST_CNT (k - 16)) = (s.get (Fd.MONI_SNS_LAST_CNT (k - 16)) + 1) % 2 ^ 5 ∧
          ((s.chain k).good ≠ 127 ∨ v = 0x7FFFFF ∨ v = 0x800000 → t.get (Fd.MONI_SNS_LAST_UNSET (k - 16)) = 1) ∧
          (¬((s.chain k).good ≠ 127 ∨ v = 0x7FFFFF ∨ v = 0x800000) → t.get (Fd.MONI_SNS_LAST_UNSET (k - 16)) = 0) := by
  rw [exec_slowSample k v hrun ht]
  by_cases hk : k.val < 16
  · obtain ⟨hparts, hregs, htick, hfirs, hstamp⟩ := fires_monTrued hk v s
    obtain ⟨-, hvalue, hcnt, hmark⟩ := monNoted_shows k v s
    have hlast (f : Field) (hf : f.off = (Fd.MONI_IN_LAST_VALUE k).off) : (monTrued k v s).get f = (monNoted k v s).get f :=
      Io.get_congr (by rw [hf]; exact (traces_monTrued hk v s).last)
    refine ⟨_, if_pos hk, hparts, hregs, htick, hfirs, hstamp, ?_⟩
    rw [if_pos hk]
    exact ⟨(hlast _ rfl).trans hvalue, (hlast (Fd.MONI_IN_LAST_CNT k) rfl).trans hcnt,
      mark_iff ((hlast (Fd.MONI_IN_LAST_UNSET k) rfl).trans hmark)⟩
  · obtain ⟨hparts, hregs, htick, hfirs, hstamp⟩ := fires_snsPaired k.isLt v s
    obtain ⟨-, hvalue, hcnt, hmark⟩ :=
      snsShown_shows (k - 16) v (firUnset k v s) (firOver v) ((s.chain k).clean != 127) (fired k s)
    rw [get_fired] at hcnt
    refine ⟨_, if_neg hk, hparts, hregs, htick, hfirs, hstamp, ?_⟩
    rw [if_neg hk]
    exact ⟨(snsPaired_get k v s _).trans hvalue, (snsPaired_get k v s _).trans hcnt, mark_iff
        ((snsPaired_get k v s _).trans hmark)⟩

/-- The rounding of a ratio: down, or up where it is not whole. -/
theorem rounded_ratio {th d : ℕ} (hfit : th * 2 ^ 22 / d + 1 < 2 ^ 24) (up : Bool) :
    (max 0 (min (2 ^ 24 - 1) (eitherWay ((th : ℤ) * 2 ^ 22) d up))).toNat = th * 2 ^ 22 / d ∨
      th * 2 ^ 22 % d ≠ 0 ∧ (max 0 (min (2 ^ 24 - 1) (eitherWay ((th : ℤ) * 2 ^ 22) d up))).toNat = th * 2 ^ 22 / d + 1 := by
  have hdiv : (th : ℤ) * 2 ^ 22 / (d : ℤ) = (th * 2 ^ 22 / d : ℕ) := by push_cast; rfl
  have hmod : (th : ℤ) * 2 ^ 22 % (d : ℤ) = (th * 2 ^ 22 % d : ℕ) := by push_cast; rfl
  unfold eitherWay
  rw [hdiv, hmod]
  generalize th * 2 ^ 22 / d = q at hfit ⊢
  by_cases h : ((th * 2 ^ 22 % d : ℕ) : ℤ) ≠ 0 ∧ up = true
  · rw [if_pos h]
    exact .inr ⟨by exact_mod_cast h.1, by omega⟩
  · rw [if_neg h]
    exact .inl (by omega)

/-- The ratio of a pair of settled outputs is kept before the older ones (R57). -/
theorem ovenPair_ratio {v : BitVec 24} {th : ℕ} (hdrives : s.ovenDrives = true) (hunset : s.get (Fd.MONI_SNS_LAST_UNSET 0) = 0)
    (hth : s.get (Fd.MONI_SNS_LAST_VALUE 0) = th) (hsmall : th < 2 ^ 23) (hv : 0 < v.toInt)
    (hfit : th * 2 ^ 22 / v.toNat + 1 < 2 ^ 24) :
    (s.ovenPair v false).tbas.ratios = (th * 2 ^ 22 / v.toNat :: s.tbas.ratios).take 10 ∨
      th * 2 ^ 22 % v.toNat ≠ 0 ∧ (s.ovenPair v false).tbas.ratios = ((th * 2 ^ 22 / v.toNat + 1) :: s.tbas.ratios).take 10
          := by
  have hsigned : signed 24 th = th := if_pos hsmall
  have hpos : v.toInt.toNat = v.toNat := by
    have hlt : 2 * v.toNat < 2 ^ 24 := by
      by_contra h
      rw [BitVec.toInt_eq_toNat_cond, if_neg h] at hv
      have := v.isLt
      omega
    rw [BitVec.toInt_eq_toNat_of_lt hlt]
    rfl
  have hcond : ¬(!s.ovenDrives || false || s.is (Fd.MONI_SNS_LAST_UNSET 0)) = true := by
    have his : s.is (Fd.MONI_SNS_LAST_UNSET 0) = false := by
      change (s.get (Fd.MONI_SNS_LAST_UNSET 0) == 1) = false
      rw [hunset]
      rfl
    rw [hdrives, his]
    decide
  have hpair : (s.ovenPair v false).tbas.ratios = ((s.pairRatio th v.toInt).1 :: s.tbas.ratios).take 10 := by
    unfold State.ovenPair
    rw [if_neg hcond, hth, hsigned]
    have htbas : (s.pairRatio th v.toInt).2.tbas = s.tbas := by
      unfold State.pairRatio
      rw [if_neg (by omega)]
      rfl
    exact congrArg (fun b : Tbas => (((s.pairRatio th v.toInt).1 :: b.ratios).take 10)) htbas
  have hfirst : (s.pairRatio th v.toInt).1
      = (max 0 (min (2 ^ 24 - 1) (eitherWay ((th : ℤ) * 2 ^ 22) v.toNat s.drawBit.1))).toNat := by
    unfold State.pairRatio
    rw [if_neg (by omega), hpos]
  rw [hpair, hfirst]
  obtain hround | ⟨hrest, hround⟩ := rounded_ratio hfit s.drawBit.1
  · exact .inl (by rw [hround])
  · exact .inr ⟨hrest, by rw [hround]⟩

theorem tbas_of_within {u : List Part} (h : s.within u t) (k : Part.tbas ∉ u) : t.tbas = s.tbas := by
  obtain ⟨-, -, htbas, -⟩ := h
  exact htbas k

theorem snsPaired_oven {k : ℕ} (hk : k - 16 = 1) (v : BitVec 24) (s : State) : snsPaired k v s
    = (snsShown 1 v (firUnset k v s) (firOver v) ((s.chain k).clean != 127) (fired k s)).ovenPair v (firUnset k v s) := by
  have hone (g : State → State) (w : State) : w.onlyIf (1 == 1) g = g w := rfl
  unfold snsPaired
  rw [hk, hone]

theorem slowSample_ratio (k : Fin 20) {n : ℕ} (hn : k.val = n) (hpair : n - 16 = 1) (v : BitVec 24)
    (hrun : s.chainRuns n = true)
    (ht : s.timely (firTick n s) = true)
    (hdrives : s.ovenDrives = true) (hgood : (s.chain n).good = 127) (hunset : s.get (Fd.MONI_SNS_LAST_UNSET 0) = 0)
    (hv : 0 < v.toInt) (hmax : v ≠ 0x7FFFFF) (hth : s.get (Fd.MONI_SNS_LAST_VALUE 0) < 2 ^ 23)
    (hfit : s.get (Fd.MONI_SNS_LAST_VALUE 0) * 2 ^ 22 / v.toNat + 1 < 2 ^ 24) :
    ∃ t, exec (.slowSample k v) s = .next t ∧
      (t.tbas.ratios = (s.get (Fd.MONI_SNS_LAST_VALUE 0) * 2 ^ 22 / v.toNat :: s.tbas.ratios).take 10 ∨
        s.get (Fd.MONI_SNS_LAST_VALUE 0) * 2 ^ 22 % v.toNat ≠ 0 ∧
          t.tbas.ratios = ((s.get (Fd.MONI_SNS_LAST_VALUE 0) * 2 ^ 22 / v.toNat + 1) :: s.tbas.ratios).take 10) := by
  subst hn
  have hset : firUnset k v s = false := by
    have hmin : v ≠ 0x800000 := by
      rintro rfl
      exact absurd hv (by decide)
    rw [Bool.eq_false_iff, ne_eq, firUnset_iff]
    rintro (h | h | h)
    · exact h hgood
    · exact hmax h
    · exact hmin h
  obtain ⟨⟨hparts, hregs, -⟩, -⟩ := snsShown_shows 1 v (firUnset k v s) (firOver v) ((s.chain k).clean != 127) (fired k s)
  have hget (f : Field) (hp : f.steady = true) (hf : f.off ≠ (Fd.MONI_SNS_LAST_VALUE 1).off) :
      (snsShown 1 v (firUnset k v s) (firOver v) ((s.chain k).clean != 127) (fired k s)).get f = s.get f :=
    (hregs.steady (by simpa using hf) hp).trans (get_fired k s f)
  have htbas : (snsShown 1 v (firUnset k v s) (firOver v) ((s.chain k).clean != 127) (fired k s)).tbas = s.tbas :=
    (tbas_of_within hparts (by decide)).trans (tbas_fired k s)
  refine ⟨snsPaired k v s, (exec_slowSample k v hrun ht).trans (if_neg (by omega)), ?_⟩
  have hratio := ovenPair_ratio (s := snsShown 1 v (firUnset k v s) (firOver v) ((s.chain k).clean != 127) (fired k s)) (v := v)
    (by unfold State.ovenDrives at hdrives ⊢; rwa [htbas]) ((hget _ (by decide) (by decide)).trans hunset)
    (hget _ (by decide) (by decide)) hth hv hfit
  rw [htbas] at hratio
  rw [snsPaired_oven hpair, hset]
  rw [hset] at hratio
  exact hratio

/-! ## Synchronising resets -/

theorem moniSync_passes (h : s.admits .moniSync = true) : ∃ t x, exec .moniSync s = .next t ∧ s.within [.io, .moni] t ∧
    s.onlyRegs [Fd.MONI_SYNC_GO.off] t ∧ t.moni.syncs = s.moni.syncs ++ [(BitVec.ofNat 64 x, s.get Fd.MONI_SYNC_MASK)] ∧
    x % 6250 = 0 ∧ s.tick.toNat + 64 ≤ x ∧ x < s.tick.toNat + 64 + 6250 ∧ t.get Fd.MONI_SYNC_GO = 1 := by
  refine ⟨(s.set Fd.MONI_SYNC_GO 1).moni' fun m => { m with syncs := m.syncs ++
      [(BitVec.ofNat 64 ((s.tick.toNat + 64 + 6249) / 6250 * 6250), s.get Fd.MONI_SYNC_MASK)] },
    (s.tick.toNat + 64 + 6249) / 6250 * 6250, ?_,
    ((State.within_refl s _).set _ _).moni_upd _, ((State.onlyRegs_refl s _).set _ _).moni_upd _, ?_, ?_, ?_, ?_, ?_⟩
  · change execMoniSync s = _
    unfold execMoniSync
    exact State.writeRow_admitted h
  · rw [State.moni_upd_moni, State.set_moni]
  · omega
  · omega
  · omega
  · rw [State.get_moni_upd]
    exact State.get_set _ _ _ (by decide) (by decide)

/-- One chain starts afresh at the tick w, if the mask names it (R358). -/
def restartChain (w : Wide) (mask k : ℕ) (s : State) : State :=
  if mask.testBit k then
    (s.chain' k fun _ => { base := w, settle := w }).onlyIf (decide (k < 16)) (State.set (Fd.MONI_IN_STAT_SETTLING k) 1)
  else s

/-- What a reset of chains leaves: MONI's registers change, and the tick stands. -/
structure Resets (s t : State) : Prop where
  parts : s.within [.io, .moni] t
  regs : s.onlyRegions [15] t
  quiet : Quiet s t

theorem Resets.refl (s : State) : Resets s s := ⟨State.within_refl s _, State.onlyRegions_refl s _, .refl s⟩

theorem resets_restartChain (h : Resets s t) (w : Wide) (mask : ℕ) {k : ℕ} (hk : k < 20) : Resets s
    (restartChain w mask k t) := by
  obtain ⟨hparts, hregs, hquiet⟩ := h
  have hchain : Resets s (t.chain' k fun _ => { base := w, settle := w }) :=
    ⟨within_chain_upd hparts k _ (by decide), hregs.of_reg fun _ => rfl, hquiet.trans (.of_io rfl)⟩
  have hregion : (Fd.MONI_IN_STAT_SETTLING k).off / 0x200000 ∈ [15] := by
    simp only [Fd.MONI_IN_STAT_SETTLING, List.mem_singleton]
    omega
  unfold restartChain
  split
  · unfold State.onlyIf
    split
    · exact ⟨hchain.parts.set _ _, hchain.regs.set _ _ hregion, hchain.quiet.trans (.set _ _ _)⟩
    · exact hchain
  · exact ⟨hparts, hregs, hquiet⟩

theorem chain_restartChain (w : Wide) (mask k j : ℕ) (s : State) : (restartChain w mask k s).chain j
    = if j = k ∧ mask.testBit k then { base := w, settle := w } else s.chain j := by
  have hset (v : State) : (v.onlyIf (decide (k < 16)) (State.set (Fd.MONI_IN_STAT_SETTLING k) 1)).chain j = v.chain j := by
    unfold State.onlyIf
    split <;> rfl
  unfold restartChain
  by_cases hbit : mask.testBit k = true
  · rw [if_pos hbit, hset]
    by_cases hj : j = k
    · rw [if_pos ⟨hj, hbit⟩, hj]
      exact chain_upd_same _ _ _
    · rw [if_neg fun h => hj h.1]
      exact chain_upd_other hj _ _
  · rw [if_neg hbit, if_neg fun h => hbit h.2]

theorem resets_each (w : Wide) (mask : ℕ) (s : State) : Resets s (s.each (List.range 20) (restartChain w mask)) :=
  List.foldlRecOn (motive := fun v : State => Resets s v) (List.range 20) _ (Resets.refl s) fun _ hv _ hk =>
    resets_restartChain hv w mask (List.mem_range.mp hk)

theorem chain_each (w : Wide) (mask n j : ℕ) (s : State) : (s.each (List.range n) (restartChain w mask)).chain j
    = if j < n ∧ mask.testBit j then { base := w, settle := w } else s.chain j := by
  unfold State.each
  induction n with
  | zero => exact (if_neg (by simp)).symm
  | succ n ih =>
    rw [List.range_succ, List.foldl_append, List.foldl_cons, List.foldl_nil, chain_restartChain, ih]
    by_cases hj : j = n
    · subst hj
      by_cases hbit : mask.testBit j = true <;> simp [hbit]
    · rw [if_neg fun h => hj h.1]
      exact if_congr (and_congr_left fun _ => by omega) rfl rfl

/-- What shows that a reset has taken place: its tick, whether others wait, and these. -/
def resetShown (g : Field) (w : Wide) (rest : List (Wide × ℕ)) (s : State) : State :=
  (s.setWide 15 0 w |>.setBit g (!rest.isEmpty)).moni' fun m => { m with syncs := rest }

section
variable (g : Field) (w : Wide) (rest : List (Wide × ℕ)) (s : State)

theorem tick_resetShown : (resetShown g w rest s).tick = s.tick := rfl
theorem chain_resetShown (k : ℕ) : (resetShown g w rest s).chain k = s.chain k := rfl
theorem wideOf_resetShown : (resetShown g w rest s).wideOf 15 0 = w :=
  (wideOf_congr (s := s.setWide 15 0 w) rfl 15 0).trans (Io.wideOf_setWide s.io 15 0 w)
theorem syncs_resetShown : (resetShown g w rest s).moni.syncs = rest := rfl
theorem get_resetShown (f : Field) : (resetShown g w rest s).get f = (s.setBit g (!rest.isEmpty)).get f := rfl

end

theorem within_resetShown {u : List Part} (h : s.within u t) (g : Field) (w : Wide) (rest : List (Wide × ℕ)) (k : .io ∈ u)
    (l : .moni ∈ u) : s.within u (resetShown g w rest t) := by
  unfold resetShown
  exact ((h.setWide _ _ _ k).setBit _ _ k).moni_upd _ l

theorem onlyRegions_resetShown (h : s.onlyRegions qs t) (g : Field) (w : Wide) (rest : List (Wide × ℕ))
    (k : g.off / 0x200000 ∈ qs) :
    s.onlyRegions qs (resetShown g w rest t) :=
  (h.set g _ k).of_reg fun _ => rfl

theorem moniSyncReset_passes {x : Wide} {mask : ℕ} {rest : List (Wide × ℕ)} (h : s.moni.syncs = (x, mask) :: rest)
    (ht : s.timely x = true) : ∃ t, exec .moniSyncReset s = .next t ∧ s.within [.io, .moni] t ∧ s.onlyRegions [15] t ∧
    t.tick = (s.reach x).tick ∧ t.moni.syncs = rest ∧ t.get Fd.MONI_SYNC_GO = (if rest = [] then 0 else 1) ∧ t.wideOf 15 0 = x ∧
    ∀ k, k < 20 → t.chain k = if mask.testBit k then { base := x, settle := x } else s.chain k := by
  obtain ⟨hparts, hregs, hquiet⟩ := resets_each x mask (s.reach x)
  have hreach : s.onlyRegions [15] (s.reach x) := (State.onlyRegions_refl s _).of_reg (State.reg_reach s x)
  have hall : s.onlyRegions [15] ((s.reach x).each (List.range 20) (restartChain x mask)) :=
    fun a ha hal hlost => (hregs a ha hal hlost).trans (hreach a ha hal hlost)
  have hexec : exec .moniSyncReset s
      = .next (resetShown Fd.MONI_SYNC_GO x rest ((s.reach x).each (List.range 20) (restartChain x mask))) := by
    change execMoniSyncReset s = _
    unfold execMoniSyncReset
    rw [h]
    exact if_neg (by rw [ht]; decide)
  refine ⟨_, hexec, within_resetShown (((State.within_refl s _).reach x).trans hparts) _ _ _ (by decide) (by decide),
    onlyRegions_resetShown hall _ _ _ (by decide), ?_, syncs_resetShown _ _ _ _, ?_, wideOf_resetShown _ _ _ _, fun k hk => ?_⟩
  · rw [tick_resetShown]
    exact hquiet.1
  · rw [get_resetShown, State.get_setBit _ _ _ (by decide) (by decide)]
    cases rest <;> rfl
  · rw [chain_resetShown, chain_each, chain_reach]
    exact if_congr (and_iff_right hk) rfl rfl

/-! ## Excitation compliance -/

/-- A chain of sense inputs notes that a source of one of its pins, as they are at w, has entered compliance (R360). -/
def openChain (w : State) (pin k : ℕ) (s : State) : State :=
  if (w.snsPins k).contains pin then s.chain' k fun c => { c with opened := true } else s

/-- What the notes of the chains leave. -/
structure Opens (s t : State) : Prop where
  parts : s.within [.moni] t
  reg : ∀ a, t.reg a = s.reg a
  kept : ∀ k, (s.chain k).opened = true → (t.chain k).opened = true

theorem Opens.refl (s : State) : Opens s s := ⟨State.within_refl s _, fun _ => rfl, fun _ h => h⟩
theorem Opens.trans {v : State} (h : Opens s t) (i : Opens t v) : Opens s v :=
  ⟨h.parts.trans i.parts, fun a => (i.reg a).trans (h.reg a), fun k hk => i.kept k (h.kept k hk)⟩

theorem opens_openChain (w : State) (pin k : ℕ) (s : State) : Opens s (openChain w pin k s) ∧
    (pin ∈ w.snsPins k → ((openChain w pin k s).chain k).opened = true) := by
  unfold openChain
  split
  next hin =>
    refine ⟨⟨within_chain_upd (State.within_refl s _) k _ (by decide), fun _ => rfl, fun j hj => ?_⟩, fun _ => ?_⟩
    · by_cases hjk : j = k
      · rw [hjk, chain_upd_same]
      · rwa [chain_upd_other hjk]
    · rw [chain_upd_same]
  next hout => exact ⟨.refl s, fun hin => absurd (List.contains_iff_mem.mpr hin) hout⟩

/-- Every chain of the list that has the pin is noted. -/
theorem opens_each (w : State) (pin : ℕ) (l : List ℕ) (s : State) : Opens s (s.each l (openChain w pin)) ∧
    ∀ k ∈ l, pin ∈ w.snsPins k → ((s.each l (openChain w pin)).chain k).opened = true := by
  unfold State.each
  induction l generalizing s with
  | nil => exact ⟨.refl s, fun k hk => absurd hk List.not_mem_nil⟩
  | cons j l ih =>
    obtain ⟨hfirst, hopen⟩ := opens_openChain w pin j s
    obtain ⟨hrest, hopens⟩ := ih (openChain w pin j s)
    refine ⟨hfirst.trans hrest, fun k hk hin => ?_⟩
    rcases List.mem_cons.mp hk with rfl | hk
    · exact hrest.kept k (hopen hin)
    · exact hopens k hk hin

/-- The conversions in progress that a pin's source disturbs. -/
def openConversions (pin : ℕ) (s : State) (m : Moni) : Moni :=
  let hit (b : HkBusy) (c : HkConv) : HkBusy := if s.hkPin c.input == some pin then { b with open_ := true } else b
  { m with busy := List.zipWith hit m.busy m.hk }

theorem opens_pinOpens (pin : ℕ) (s : State) : Opens s (s.pinOpens pin) ∧
    ∀ k, 16 ≤ k → k < 20 → pin ∈ s.snsPins k → ((s.pinOpens pin).chain k).opened = true := by
  obtain ⟨⟨hparts, hreg, hkept⟩, hopens⟩ := opens_each s pin [16, 17, 18, 19] s
  have hpin : s.pinOpens pin = (s.each [16, 17, 18, 19] (openChain s pin)).moni' (openConversions pin s) := rfl
  have hchain (v : State) (k : ℕ) : (v.moni' (openConversions pin s)).chain k = v.chain k := rfl
  rw [hpin]
  refine ⟨⟨hparts.moni_upd _, hreg, fun k hk => ?_⟩, fun k hlo hhi hin => ?_⟩ <;> rw [hchain]
  · exact hkept k hk
  · exact hopens k (by simp; omega) hin

/-- The state with compliance shown, recorded and counted. -/
def complied (x : Fin 8) (s : State) : State :=
  (s.set (Fd.MONI_XS_STAT_COMPL.bit x) 1 |>.set (Fd.MONI_XS_STAT_OPEN_SEEN.bit x) 1
    |>.err { level := 0, region := 15, block := 3, code := 0x0F81, cell := x }).count 15 Src.MONI_XS_OPEN x 1

theorem complied_regs (x : Fin 8) (s : State) : s.onlyRegs [Fd.MONI_XS_STAT_OPEN_SEEN.off] (complied x s) :=
  ((((State.onlyRegs_refl s _).set (Fd.MONI_XS_STAT_COMPL.bit x) 1 (.head _)).set (Fd.MONI_XS_STAT_OPEN_SEEN.bit x) 1
      (.head _)).err
    _).count _ _ _ _

theorem complied_shows (x : Fin 8) (s : State) : (complied x s).get (Fd.MONI_XS_STAT_COMPL.bit x) = 1 ∧
    (complied x s).get (Fd.MONI_XS_STAT_OPEN_SEEN.bit x) = 1 := by
  have hsteady : (Fd.MONI_XS_STAT_COMPL.bit x).steady = true ∧ (Fd.MONI_XS_STAT_OPEN_SEEN.bit x).steady = true := by
    revert x
    decide
  have hapart : (Fd.MONI_XS_STAT_OPEN_SEEN.bit x).apart (Fd.MONI_XS_STAT_COMPL.bit x) = true := by
    revert x
    decide
  have hfit : (Fd.MONI_XS_STAT_COMPL.bit x).hi < 32 ∧ (Fd.MONI_XS_STAT_OPEN_SEEN.bit x).hi < 32 := by
    revert x
    decide
  unfold complied
  refine ⟨?_, ?_⟩
  · rw [State.get_count _ _ _ _ _ hsteady.1, State.get_err _ _ hsteady.1, State.get_set_apart _ _ hapart,
      State.get_set _ _ _ (le_refl _) hfit.1]
    simp [Field.bit]
  · rw [State.get_count _ _ _ _ _ hsteady.2, State.get_err _ _ hsteady.2, State.get_set _ _ _ (le_refl _) hfit.2]
    simp [Field.bit]

theorem complied_snsPins (x : Fin 8) (k : ℕ) (s : State) (hk : 16 ≤ k) (hk' : k < 20) : (complied x s).snsPins k = s.snsPins
    k := by
  have hsteady : (Fd.MONI_SNS_CTL_EN (k - 16)).steady = true ∧ (Fd.MONI_SNS_CTL_PIN (k - 16)).steady = true ∧
      (Fd.MONI_SNS_CTL_REF (k - 16)).steady = true := by
    obtain ⟨j, rfl⟩ : ∃ j : Fin 4, k = j.val + 16 := ⟨⟨k - 16, by omega⟩, by simp; omega⟩
    rw [Nat.add_sub_cancel]
    revert j
    decide
  have hget (f : Field) (hp : f.steady = true) (hf : f.off = (Fd.MONI_SNS_CTL_EN (k - 16)).off) : (complied x s).get f =
      s.get f := by
    refine (complied_regs x s).steady ?_ hp
    rw [hf, List.mem_singleton]
    simp only [Fd.MONI_SNS_CTL_EN, Fd.MONI_XS_STAT_OPEN_SEEN]
    omega
  have his : (complied x s).is (Fd.MONI_SNS_CTL_EN (k - 16)) = s.is (Fd.MONI_SNS_CTL_EN (k - 16)) :=
    congrArg (· == 1) (hget _ hsteady.1 rfl)
  have htbas : (complied x s).tbas = s.tbas := by
    rw [complied, State.count_tbas, State.err_tbas, State.set_tbas, State.set_tbas]
  unfold State.snsPins State.ovenDrives
  rw [his, hget _ hsteady.2.1 rfl, hget _ hsteady.2.2 rfl, htbas]

theorem exec_xsOpen (x : Fin 8) (now : Bool) {p : ℕ} (h : s.admits (.xsOpen x now) = true) (hp : s.xsPin x = some p)
    (hrun : s.restarting 15 = false) (hdiff : s.is (Fd.MONI_XS_STAT_COMPL.bit x) = !now) :
    exec (.xsOpen x now) s = .next (if now then (complied x s).pinOpens p else s.set (Fd.MONI_XS_STAT_COMPL.bit x) 0) := by
  change execXsOpen x now s = _
  refine (State.whenOn_powered h).trans ?_
  rw [hp]
  dsimp only
  rw [hrun, hdiff]
  cases now <;> rfl

theorem xsOpen_enters (x : Fin 8) (p : ℕ) (h : s.admits (.xsOpen x true) = true) (hp : s.xsPin x = some p)
    (hcompl : s.get (Fd.MONI_XS_STAT_COMPL.bit x) = 0) (hrun : s.restarting 15 = false) :
    ∃ t, exec (.xsOpen x true) s = .next t ∧ s.within [.io, .moni] t ∧ s.onlyRegs [Fd.MONI_XS_STAT_OPEN_SEEN.off] t ∧
      t.get (Fd.MONI_XS_STAT_COMPL.bit x) = 1 ∧ t.get (Fd.MONI_XS_STAT_OPEN_SEEN.bit x) = 1 ∧
      ∀ k, 16 ≤ k → k < 20 → p ∈ s.snsPins k → (t.chain k).opened = true := by
  have hdiff : s.is (Fd.MONI_XS_STAT_COMPL.bit x) = !true := congrArg (· == 1) hcompl
  obtain ⟨⟨hparts, hreg, -⟩, hopens⟩ := opens_pinOpens p (complied x s)
  have hget (f : Field) : ((complied x s).pinOpens p).get f = (complied x s).get f := Io.get_congr (hreg f.off)
  obtain ⟨hshown, hseen⟩ := complied_shows x s
  have hwithin : s.within [.io] (complied x s) := ((((State.within_refl s _).set _ _).set _ _).err _).count _ _ _ _
  refine ⟨_, exec_xsOpen x true h hp hrun hdiff, (hwithin.mono (by decide)).trans (hparts.mono (by decide)),
    (complied_regs x s).of_reg hreg, (hget _).trans hshown, (hget _).trans hseen, fun k hlo hhi hin => hopens k hlo hhi ?_⟩
  rwa [complied_snsPins x k s hlo hhi]

theorem compl_fits (x : Fin 8) : (Fd.MONI_XS_STAT_COMPL.bit x).hi < 32 := by
  revert x
  decide

theorem xsOpen_leaves (x : Fin 8) (h : s.admits (.xsOpen x false) = true) (hp : (s.xsPin x).isSome = true)
    (hcompl : s.get (Fd.MONI_XS_STAT_COMPL.bit x) = 1) (hrun : s.restarting 15 = false) :
    ∃ t, exec (.xsOpen x false) s = .next t ∧ s.within [.io] t ∧ s.onlyRegs [Fd.MONI_XS_STAT_COMPL.off] t ∧
      t.get (Fd.MONI_XS_STAT_COMPL.bit x) = 0 := by
  obtain ⟨p, hp⟩ := Option.isSome_iff_exists.mp hp
  have hdiff : s.is (Fd.MONI_XS_STAT_COMPL.bit x) = !false := congrArg (· == 1) hcompl
  exact ⟨_, exec_xsOpen x false h hp hrun hdiff, (State.within_refl s _).set _ _,
    (State.onlyRegs_refl s _).set (Fd.MONI_XS_STAT_COMPL.bit x) 0 (.head _),
    (State.get_set _ _ _ (le_refl _) (compl_fits x)).trans (Nat.zero_mod _)⟩

theorem xsOpen_unused (x : Fin 8) (now : Bool) (h : s.xsPin x = none) : exec (.xsOpen x now) s = .next s := by
  change execXsOpen x now s = _
  unfold execXsOpen State.whenOn
  split
  · dsimp only
    rw [h]
    rfl
  · rfl

/-- Settles O39: each event of the monitor front end by its own lemma. -/
theorem slowChainsComplete : Obligations.SlowChainsComplete := by
  unfold Obligations.SlowChainsComplete
  exact ⟨fun m s => monCrossing_counts m, fun m s => monCrossing_unreported m, fun k v s => sincOutput_passes k v,
    fun k v s => slowSample_passes k v, fun v s hrun ht hdrives hgood hunset hv hmax hth hfit =>
      slowSample_ratio 17 rfl (by decide) v hrun ht hdrives hgood hunset hv hmax hth hfit,
    fun s => moniSync_passes, fun x mask rest s => moniSyncReset_passes, fun x p s => xsOpen_enters x p, fun x s =>
        xsOpen_leaves x,
    fun x now s => xsOpen_unused x now⟩

end Sys2Proof.Machine.SlowChains
end

section
/-!
SUPPORT. The parts and the regions that an operation of the whole state may change, together, and the chip's faults (R457).
-/
-- One thread for the lemmas: a thread for each would ask for more memory than a build may have.
set_option Elab.async false

namespace Sys2Proof.Machine
open Sys2Proof.Machine SafeOps Ledger

/-- t has every part of s but those of u, and every register but those of the regions qs and those that alarms change. -/
structure Framed (u : List Part) (qs : List ℕ) (s t : State) : Prop where
  parts : s.within u t
  regs : s.onlyRegions qs t

namespace Framed

variable {u : List Part} {qs : List ℕ} {s t v : State}

theorem refl (u : List Part) (qs : List ℕ) (s : State) : Framed u qs s s := ⟨State.within_refl s u, State.onlyRegions_refl s qs⟩

theorem trans (h : Framed u qs s t) (k : Framed u qs t v) : Framed u qs s v :=
  ⟨h.parts.trans k.parts, fun a ha hal hlost => (k.regs a ha hal hlost).trans (h.regs a ha hal hlost)⟩

theorem mono {u' : List Part} {qs' : List ℕ} (h : Framed u qs s t) (hu : ∀ p ∈ u, p ∈ u') (hq : ∀ q ∈ qs, q ∈ qs') :
    Framed u' qs' s t := ⟨h.parts.mono hu, fun a ha => h.regs a fun hin => ha (hq _ hin)⟩

/-- A steady field of another region is left. -/
theorem get (h : Framed u qs s t) {f : Field} (hp : f.steady = true) (hf : f.off / 0x200000 ∉ qs) : t.get f = s.get f := by
  obtain ⟨hal, hlost⟩ : alarmReg f.off = false ∧ f.off ≠ Fd.MGMT_LOG_LOST_COUNT.off := by simpa [Field.steady] using hp
  exact Io.get_congr (h.regs f.off hf hal hlost)

theorem set (h : Framed u qs s t) (f : Field) (n : ℕ) (k : .io ∈ u := by decide) (l : f.off / 0x200000 ∈ qs := by decide) :
    Framed u qs s (t.set f n) := ⟨h.parts.set f n k, h.regs.set f n l⟩
theorem setBit (h : Framed u qs s t) (f : Field) (b : Bool) (k : .io ∈ u := by decide)
    (l : f.off / 0x200000 ∈ qs := by decide) : Framed u qs s (t.setBit f b) := h.set f _ k l
theorem bump (h : Framed u qs s t) (f : Field) (n : ℕ) (k : .io ∈ u := by decide) (l : f.off / 0x200000 ∈ qs := by decide) :
    Framed u qs s (t.bump f n) := h.set f _ k l
theorem put (h : Framed u qs s t) (a : ℕ) (w : Word) (k : .io ∈ u := by decide) (l : a / 0x200000 ∈ qs := by decide) :
    Framed u qs s (t.put a w) := ⟨h.parts.put a w k, h.regs.put a w l⟩
theorem setWide (h : Framed u qs s t) (r i : ℕ) (w : Wide) (k : .io ∈ u := by decide) : Framed u qs s (t.setWide r i w) :=
  ⟨h.parts.setWide r i w k, h.regs.of_reg fun _ => rfl⟩
theorem emit (h : Framed u qs s t) (o : Out) (k : .io ∈ u := by decide) : Framed u qs s (t.emit o) :=
  ⟨h.parts.emit o k, h.regs.of_reg fun _ => rfl⟩
theorem count (h : Framed u qs s t) (r c i n : ℕ) (k : .io ∈ u := by decide) : Framed u qs s (t.count r c i n) :=
  ⟨h.parts.count r c i n k, h.regs.of_calm (Io.calm_count ..)⟩
theorem err (h : Framed u qs s t) (e : Err) (k : .io ∈ u := by decide) : Framed u qs s (t.err e) :=
  ⟨h.parts.err e k, h.regs.of_calm (Io.calm_err ..)⟩
theorem regionIrq (h : Framed u qs s t) (r : ℕ) (k : .io ∈ u := by decide) : Framed u qs s (t.regionIrq r) :=
  ⟨h.parts.regionIrq r k, h.regs.of_calm (Io.calm_regionIrq ..)⟩
theorem reach (h : Framed u qs s t) (w : Wide) (k : .io ∈ u := by decide) : Framed u qs s (t.reach w) :=
  ⟨h.parts.reach w k, h.regs.of_reg fun a => t.reg_reach w a⟩
theorem clockReach (h : Framed u qs s t) (w : Wide) (k : .io ∈ u := by decide) : Framed u qs s (t.clockReach w) := by
  unfold State.clockReach
  split
  · exact h.reach w k
  · exact h

theorem tbas_upd (h : Framed u qs s t) (g : Tbas → Tbas) (k : .tbas ∈ u := by decide) : Framed u qs s (t.tbas' g) :=
  ⟨h.parts.tbas_upd g k, h.regs.of_reg fun _ => rfl⟩
theorem scan_upd (h : Framed u qs s t) (g : Scan → Scan) (k : .scan ∈ u := by decide) : Framed u qs s (t.scan' g) :=
  ⟨h.parts.scan_upd g k, h.regs.of_reg fun _ => rfl⟩
theorem emt_upd (h : Framed u qs s t) (g : Emit → Emit) (k : .emt ∈ u := by decide) : Framed u qs s (t.emit' g) :=
  ⟨h.parts.emt_upd g k, h.regs.of_reg fun _ => rfl⟩
theorem safe_upd (h : Framed u qs s t) (g : Safe → Safe) (k : .safe ∈ u := by decide) : Framed u qs s (t.safe' g) :=
  ⟨h.parts.safe_upd g k, h.regs.of_reg fun _ => rfl⟩
theorem lnk_upd (h : Framed u qs s t) (g : Lnk → Lnk) (k : .lnk ∈ u := by decide) : Framed u qs s (t.lnk' g) :=
  ⟨h.parts.lnk_upd g k, h.regs.of_reg fun _ => rfl⟩
theorem hst_upd (h : Framed u qs s t) (g : Hst → Hst) (k : .hst ∈ u := by decide) : Framed u qs s (t.hst' g) :=
  ⟨h.parts.hst_upd g k, h.regs.of_reg fun _ => rfl⟩
theorem outp_upd (h : Framed u qs s t) (g : Outp → Outp) (k : .outp ∈ u := by decide) : Framed u qs s (t.outp' g) :=
  ⟨h.parts.outp_upd g k, h.regs.of_reg fun _ => rfl⟩
theorem host_upd (h : Framed u qs s t) (g : HostIf → HostIf) (k : .host ∈ u := by decide) : Framed u qs s (t.host' g) :=
  ⟨h.parts.host_upd g k, h.regs.of_reg fun _ => rfl⟩
theorem memc_upd (h : Framed u qs s t) (g : Memc → Memc) (k : .memc ∈ u := by decide) : Framed u qs s (t.memc' g) :=
  ⟨h.parts.memc_upd g k, h.regs.of_reg fun _ => rfl⟩
theorem moni_upd (h : Framed u qs s t) (g : Moni → Moni) (k : .moni ∈ u := by decide) : Framed u qs s (t.moni' g) :=
  ⟨h.parts.moni_upd g k, h.regs.of_reg fun _ => rfl⟩
theorem mgmt_upd (h : Framed u qs s t) (g : Mgmt → Mgmt) (k : .mgmt ∈ u := by decide) : Framed u qs s (t.mgmt' g) :=
  ⟨h.parts.mgmt_upd g k, h.regs.of_reg fun _ => rfl⟩
theorem secu_upd (h : Framed u qs s t) (g : Secu → Secu) (k : .secu ∈ u := by decide) : Framed u qs s (t.secu' g) :=
  ⟨h.parts.secu_upd g k, h.regs.of_reg fun _ => rfl⟩
theorem chip_upd (h : Framed u qs s t) (g : Chip → Chip) (k : .chip ∈ u := by decide) : Framed u qs s (t.chip' g) :=
  ⟨h.parts.chip_upd g k, h.regs.of_reg fun _ => rfl⟩

theorem onlyIf {b : Bool} {g : State → State} (h : Framed u qs s t) (k : Framed u qs s (g t)) : Framed u qs s (t.onlyIf b g)
    := by
  unfold State.onlyIf
  split
  · exact k
  · exact h

theorem each {α : Type} {l : List α} {g : α → State → State} (h : Framed u qs s t)
    (k : ∀ x ∈ l, ∀ w, Framed u qs s w → Framed u qs s (g x w)) : Framed u qs s (t.each l g) :=
  List.foldlRecOn (motive := fun w : State => Framed u qs s w) l _ h fun w hw x hx => k x hx w hw

theorem ite {c : Prop} [Decidable c] (h : Framed u qs s t) (k : Framed u qs s v) : Framed u qs s (if c then t else v) := by
  split
  · exact h
  · exact k

/-! ## SAFE and the chip's faults -/

theorem causeWith (h : Framed u qs s t) (b code : ℕ) (k : .io ∈ u := by decide) (l : .emt ∈ u := by decide)
    (m : .safe ∈ u := by decide) (hq : ∀ a ∈ safeRegs, a / 0x200000 ∈ qs := by decide) : Framed u qs s (t.causeWith b code) :=
  ⟨within_causeWith h.parts b code k l m, fun a ha hal hlost =>
    ((onlyRegs_causeWith (State.onlyRegs_refl t safeRegs) b code fun _ hm => hm).regions hq a ha hal hlost).trans
      (h.regs a ha hal hlost)⟩

theorem cause (h : Framed u qs s t) (b : ℕ) (k : .io ∈ u := by decide) (l : .emt ∈ u := by decide)
    (m : .safe ∈ u := by decide) (hq : ∀ a ∈ safeRegs, a / 0x200000 ∈ qs := by decide) : Framed u qs s (t.cause b) :=
  h.causeWith b (causeCode b) k l m hq

theorem chipFaultAs (h : Framed u qs s t) (code attempts r : ℕ) (k : .io ∈ u := by decide) (l : .emt ∈ u := by decide)
    (m : .safe ∈ u := by decide) (n : .chip ∈ u := by decide) (hq : ∀ a ∈ safeRegs, a / 0x200000 ∈ qs := by decide)
    (hz : 0 ∈ qs := by decide) : Framed u qs s (t.chipFaultAs code attempts r) :=
  ((((h.set Fd.CHIP_ERR_STAT_CHIP_FAULT 1 k hz).set Fd.CHIP_ERR_STAT_FREGION r k hz).chip_upd _ n).err _ k).cause 10 k l m hq

theorem chipFault (h : Framed u qs s t) (attempts r : ℕ) (k : .io ∈ u := by decide) (l : .emt ∈ u := by decide)
    (m : .safe ∈ u := by decide) (n : .chip ∈ u := by decide) (hq : ∀ a ∈ safeRegs, a / 0x200000 ∈ qs := by decide)
    (hz : 0 ∈ qs := by decide) : Framed u qs s (t.chipFault attempts r) :=
  h.chipFaultAs 0x0016 attempts r k l m n hq hz

theorem of_accounts (h : Framed u qs s t) (k : Accounts t v) (hu : ∀ p ∈ [Part.io, .scan, .emt, .safe], p ∈ u := by decide)
    (hq : ∀ q ∈ [2, 3, 18], q ∈ qs := by decide) : Framed u qs s v := h.trans (mono ⟨k.parts, k.regs⟩ hu hq)

end Framed

end Sys2Proof.Machine
end

section
/-!
SUPPORT. The start of a region's restart (R18, R455, R456): what it leaves of the state in which the region's work is discarded.
-/
-- One thread for the lemmas: a thread for each would ask for more memory than a build may have.
set_option Elab.async false

namespace Sys2Proof.Machine.Restarts
open Sys2Proof.Machine SafeOps

variable {s t : State} {f : Field} {r : ℕ}

theorem onlyRegs_chipFault (attempts q : ℕ) (s : State) :
    s.onlyRegs (Fd.CHIP_ERR_STAT_CHIP_FAULT.off :: safeRegs) (s.chipFault attempts q) :=
  onlyRegs_causeWith (((((State.onlyRegs_refl s _).set Fd.CHIP_ERR_STAT_CHIP_FAULT 1 (.head _)).set
    Fd.CHIP_ERR_STAT_FREGION q (.head _)).chip_upd _).err _) 10 _ fun _ ha => .tail _ ha

/-- The restart of region r in hand, with its work discarded. -/
def held (r : ℕ) (s : State) : State := (((s.discard r).capGapFrom r).setRestarting r true).count 0 Src.CHIP_REGION_RESTARTS r 1

theorem startRestart_cases (attempts : ℕ) (halone : restartsAlone r = true) (hr : r ≠ 16) (hrun : s.restarting r = false) :
    ∃ g : Chip → Chip, s.startRestart attempts r = (held r s).chip' g ∨
      s.startRestart attempts r = ((held r s).chip' g).chipFault (s.recentRestarts r) r := by
  have hcond : ¬(!restartsAlone r || s.restarting r) = true := by
    rw [hrun, halone]
    decide
  refine ⟨fun c => { c with restarts := (r, s.tick) :: c.restarts.filter (fun e => decide (ahead e.2 s.tick ≤ ticksPerS)),
                            attempts := wr (fun _ => 0) c.attempts r attempts, bist := del c.bist r }, ?_⟩
  unfold State.startRestart
  rw [if_neg hcond, if_neg hr]
  by_cases hmany : 2 ≤ s.recentRestarts r
  · exact .inr (if_pos hmany)
  · exact .inl (if_neg hmany)

/-- The parts that a restart changes beyond its region's own. -/
abbrev heldParts : List Part := [.io, .emt, .safe, .memc, .chip]

theorem steady_bit (r : ℕ) : (Fd.CHIP_RESTARTING_MASK.bit r).steady = true := by
  unfold Field.steady
  rw [bit_off]
  decide

theorem mask_ne_stat (h : 2 ≤ r) : (Fd.RGN_STAT_RESTARTING r).apart (Fd.CHIP_RESTARTING_MASK.bit r) = true := by
  refine Field.apart_of_off ?_
  rw [bit_off]
  simp only [Fd.CHIP_RESTARTING_MASK, Fd.RGN_STAT_RESTARTING]
  omega

theorem framed_capGapFrom (r : ℕ) (s : State) : Framed [.io, .memc] [14] s (s.capGapFrom r) := by
  unfold State.capGapFrom State.capGap
  exact (Framed.refl _ _ s).onlyIf (((Framed.refl _ _ s).set _ _).memc_upd _)

theorem within_held (r : ℕ) (s : State) : (s.discard r).within heldParts (held r s) := by
  unfold held State.setRestarting
  exact ((((framed_capGapFrom r (s.discard r)).parts.mono (by decide)).setBit _ _).setBit _ _).count _ _ _ _

/-- A steady register of another region than CHIP and MEMC stands, but for the mark of the restart. -/
theorem get_held (hp : f.steady = true) (hregion : f.off / 0x200000 ∉ [0, 3, 14, 18]) (hstat : f.off ≠ (Fd.RGN_STAT_RESTARTING r).off)
    (s : State) : (held r s).get f = (s.discard r).get f := by
  have hmask : f.off ≠ (Fd.CHIP_RESTARTING_MASK.bit r).off := by
    rintro heq
    rw [heq, bit_off] at hregion
    exact hregion (by decide)
  unfold held State.setRestarting
  rw [State.get_count _ _ _ _ _ hp, State.get_setBit_apart _ _ (Field.apart_of_off hstat),
    State.get_setBit_apart _ _ (Field.apart_of_off hmask)]
  exact (framed_capGapFrom r _).get hp fun hin => hregion (by simp at hin; simp [hin])

theorem restarting_held (h : 2 ≤ r) (hr : r < 32) (s : State) : (held r s).restarting r = true := by
  unfold held State.setRestarting
  refine beq_iff_eq.mpr ((State.get_count (f := Fd.CHIP_RESTARTING_MASK.bit r) _ _ _ _ _ (steady_bit r)).trans ?_)
  rw [State.get_setBit_apart _ _ (mask_ne_stat h)]
  exact State.get_setBit _ _ _ (le_refl _) (by simpa [Field.bit, Fd.CHIP_RESTARTING_MASK] using hr)

theorem chip_upd_leaves (g : Chip → Chip) (r : ℕ) (s : State) :
    (s.chip' g).restarting r = s.restarting r ∧ ∀ f, (s.chip' g).get f = s.get f := ⟨rfl, fun _ => rfl⟩

theorem chipFault_leaves (attempts q r : ℕ) (s : State) : (s.chipFault attempts q).restarting r = s.restarting r ∧
    ∀ f : Field, f.steady = true → f.off / 0x200000 ∉ [0, 3, 14, 18] → (s.chipFault attempts q).get f = s.get f := by
  refine ⟨congrArg (· == 1) ((onlyRegs_chipFault attempts q s).steady (f := Fd.CHIP_RESTARTING_MASK.bit r) ?_ (steady_bit r)),
    fun f hp hf => ((Framed.refl [.io, .emt, .safe, .chip] [0, 3, 18] s).chipFault attempts q).get hp fun hin => hf ?_⟩
  · rw [bit_off]
    decide
  · simp only [List.mem_cons, List.not_mem_nil, or_false] at hin ⊢
    omega

/-- The start of a restart: the region restarts, and of what its discard leaves the registers of other regions than CHIP, EMT, MEMC and
SAFE stand, as do the parts that are none of theirs. -/
theorem startRestart_shows (attempts : ℕ) (halone : restartsAlone r = true) (hr : r ≠ 16) (hrun : s.restarting r = false) :
    (s.startRestart attempts r).restarting r = true ∧ (s.discard r).within heldParts (s.startRestart attempts r) ∧
      ∀ f : Field, f.steady = true → f.off / 0x200000 ∉ [0, 3, 14, 18] → f.off ≠ (Fd.RGN_STAT_RESTARTING r).off →
        (s.startRestart attempts r).get f = (s.discard r).get f := by
  have hbound : 2 ≤ r ∧ r < 18 := by
    simp only [restartsAlone, Bool.and_eq_true, bne_iff_ne, decide_eq_true_eq] at halone
    omega
  have hheld := restarting_held hbound.1 (by omega) s
  have hparts := within_held r s
  have hget {f : Field} (hp : f.steady = true) (hregion : f.off / 0x200000 ∉ [0, 3, 14, 18])
      (hstat : f.off ≠ (Fd.RGN_STAT_RESTARTING r).off) := get_held hp hregion hstat s
  obtain ⟨g, hs⟩ := startRestart_cases attempts halone hr hrun
  generalize held r s = w at hheld hparts hget hs
  obtain ⟨hbit, hkeep⟩ := chip_upd_leaves g r w
  have hchip : (s.discard r).within heldParts (w.chip' g) := hparts.chip_upd g
  rcases hs with hs | hs <;> rw [hs]
  · exact ⟨hbit.trans hheld, hchip, fun f hp hregion hstat => (hkeep f).trans (hget hp hregion hstat)⟩
  · obtain ⟨hbit', hkeep'⟩ := chipFault_leaves (s.recentRestarts r) r r (w.chip' g)
    have hfault := ((Framed.refl heldParts [0, 3, 18] (w.chip' g)).chipFault (s.recentRestarts r) r).parts
    exact ⟨hbit'.trans (hbit.trans hheld), hchip.trans hfault, fun f hp hregion hstat =>
      (hkeep' f hp hregion).trans ((hkeep f).trans (hget hp hregion hstat))⟩

end Sys2Proof.Machine.Restarts
end

section
/-!
SETTLES O40. Housekeeping of MONI: sequences, conversions, requests, the slices' rotation and failures (R363 to R366).
-/
-- One thread for the lemmas: a thread for each would ask for more memory than a build may have.
set_option Elab.async false

namespace Sys2Proof.Machine.Housekeeping
open Sys2Proof.Machine
open Sys2Proof.Machine.LinkStates (keeps_enterLanes)
open Sys2Proof.Machine.LaneRetrain (lane_of_tileLanes)

variable {s t : State} {u : List Part} {qs : List ℕ}

/-! ## What a reading of a die temperature or of a rail may change -/

theorem framed_setTarget (h : Framed u qs s t) (n : ℕ) (k : .io ∈ u) (l : .chip ∈ u) (hz : 0 ∈ qs) : Framed u qs s
    (t.setTarget n) := by
  have hset : Framed u qs s (t.set Fd.CHIP_DVFS_CTL_TARGET n) := h.set _ _ k hz
  unfold State.setTarget State.startDvfs State.dvfsStep
  simp only
  split
  · exact hset.chip_upd _ l
  · split
    · exact hset
    · have hbusy : Framed u qs s _ := (hset.chip_upd (fun c => { c with dvfsTo := n, dvfsNext := none }) l).set
        Fd.CHIP_DVFS_STAT_BUSY 1 k hz
      split
      · exact hbusy.chip_upd _ l
      · split
        · exact hbusy.chip_upd _ l
        · exact hbusy.chip_upd _ l

/-- The parts and the regions of a reading that is no rail's, and of one that is. -/
abbrev readParts : List Part := [.io, .emt, .safe, .memc, .moni, .chip]
abbrev railParts : List Part := [.io, .lnk, .emt, .safe, .memc, .chip]

theorem framed_dieTemp (r : ℕ) (s : State) : Framed [.io, .emt, .safe, .chip] [0, 3, 18] s (s.dieTemp r) := by
  have hfault : Framed [.io, .emt, .safe, .chip] [0, 3, 18] s (s.onlyIf (decide (3424 ≤ r)) (State.chipFault 0 0)) :=
    (Framed.refl _ _ s).onlyIf ((Framed.refl _ _ s).chipFault 0 0)
  unfold State.dieTemp
  exact Framed.ite (framed_setTarget ((((hfault.set Fd.CHIP_DVFS_STAT_THROT 1).err _).count _ _ _ _).chip_upd _) _ (by decide)
    (by decide) (by decide)) hfault

theorem framed_enterLanes (n : Fin 32) (s : State) : Framed [.io, .lnk, .memc] [4, 5, 6, 7, 14] s (s.enterLanes n) :=
  ⟨(State.within_refl s _).enterLanes n, onlyRegions_of_keeps (keeps_enterLanes (by decide) (State.keeps.refl s))⟩

theorem framed_txWake {l : ℕ} (hl : l < 128) (s : State) : Framed [.io, .lnk, .memc] [4, 5, 6, 7, 14] s (s.txWake l) := by
  obtain ⟨hparts, hregs, -⟩ := LaneSleep.wakes (s := s) l
  refine ⟨hparts.mono (by decide), hregs.regions fun a ha => ?_⟩
  have hregion : 4 ≤ a / 0x200000 ∧ a / 0x200000 ≤ 7 := by
    simp only [List.mem_cons, List.not_mem_nil, or_false, Fd.LNK_LANE_STAT_TX_IDLE, Fd.LNK_TILE_STAT_PHASE_OK] at ha
    omega
  simp only [List.mem_cons, List.not_mem_nil, or_false]
  omega

theorem framed_releaseLanes (s : State) : Framed [.io, .lnk, .memc] [4, 5, 6, 7, 14] s s.releaseLanes := by
  unfold State.releaseLanes
  refine (Framed.refl _ _ s).each fun n hn w hw => ?_
  have hn' : n < 32 := List.mem_range.mp hn
  split
  · have henter : Framed [.io, .lnk, .memc] [4, 5, 6, 7, 14] s ((w.port' n fun p => { p with attempts := 0 }).enterLanes n) :=
      (hw.lnk_upd _).trans (framed_enterLanes ⟨n, hn'⟩ _)
    refine henter.each fun l hl v hv => ?_
    exact hv.onlyIf ((hv.lnk_upd _).trans (framed_txWake (lane_of_tileLanes hl hn') _))
  · exact hw

theorem framed_showIslands (h : Framed u qs s t) (k : .io ∈ u) (l : .chip ∈ u) (hz : 0 ∈ qs) : Framed u qs s t.showIslands := by
  unfold State.showIslands State.showClkout
  have hset : Framed u qs s _ := (h.set Fd.CHIP_ISLAND_RUN_LO_RUN (t.runMask 0 32) k hz).set Fd.CHIP_ISLAND_RUN_HI_RUN
    (t.runMask 32 16) k hz
  exact Framed.ite hset ((hset.chip_upd _ l).emit _ k)

abbrev railRegions : List ℕ := [0, 4, 5, 6, 7, 14]

theorem framed_railUp (h : Framed [.io, .lnk, .memc, .chip] railRegions s t) (rail : Rail) :
    Framed [.io, .lnk, .memc, .chip] railRegions s (t.railUp rail) := by
  unfold State.railUp
  cases rail with
  | core => exact h
  | lane =>
    exact Framed.ite h ((h.chip_upd _).onlyIf ((h.chip_upd _).trans ((framed_releaseLanes _).mono (by decide) (by decide))))
  | pcie => exact h.chip_upd _
  | mem => exact h.chip_upd _
  | io => exact h.chip_upd _

/-- The reading of a rail changes CHIP's and LNK's registers only, and of any other input nothing. -/
theorem framed_railRead (input r : ℕ) (s : State) : Framed [.io, .lnk, .memc, .chip] railRegions s (s.railRead input r) := by
  unfold State.railRead
  refine Framed.ite (Framed.refl _ _ s) (framed_showIslands ?_ (by decide) (by decide) (by decide))
  have hup (rail : Rail) {b : Bool} {w : State} (h : Framed [.io, .lnk, .memc, .chip] railRegions s w) :
      Framed [.io, .lnk, .memc, .chip] railRegions s (w.onlyIf b (State.railUp rail)) := h.onlyIf (framed_railUp h rail)
  exact hup _ (hup _ (hup _ (hup _ ((Framed.refl _ _ s).chip_upd _))))

theorem railRead_other {input : ℕ} (h : input < 24 ∨ 35 < input) (r : ℕ) (s : State) : s.railRead input r = s := if_pos h

/-- What every reading of an input leads to: a die's temperature and a rail's state. -/
def reading (input r : ℕ) (s : State) : State := (if input < 16 then s.dieTemp r else s).railRead input r

/-- A reading leaves MONI's registers and its record. -/
theorem framed_reading (input r : ℕ) (s : State) :
    Framed [.io, .lnk, .emt, .safe, .memc, .chip] [0, 3, 4, 5, 6, 7, 14, 18] s (reading input r s) :=
  (Framed.ite ((framed_dieTemp r s).mono (by decide) (by decide)) (Framed.refl _ _ s)).trans
    ((framed_railRead input r _).mono (by decide) (by decide))

/-- That of an input that is no rail's stays within CHIP and SAFE. -/
theorem framed_reading_other {input : ℕ} (h : input < 24 ∨ 35 < input) (r : ℕ) (s : State) :
    Framed [.io, .emt, .safe, .chip] [0, 3, 18] s (reading input r s) := by
  unfold reading
  rw [railRead_other h]
  exact Framed.ite (framed_dieTemp r s) (Framed.refl _ _ s)

/-! ## The slices and the queue -/

/-- Free slices take conversions: of MONI's record the list of those at work changes, and nothing else. -/
theorem hkSlot_eq (s : State) : ∃ l, s.hkSlot = s.moni' fun m => { m with busy := l } := by
  have hsame : s = s.moni' fun m => { m with busy := s.moni.busy } := rfl
  unfold State.hkSlot
  simp only
  split
  · split
    · exact ⟨_, rfl⟩
    · exact ⟨_, hsame⟩
  · exact ⟨_, hsame⟩

theorem hkFill_eq (s : State) : ∃ l, s.hkFill = s.moni' fun m => { m with busy := l } := by
  obtain ⟨l, hl⟩ := hkSlot_eq s
  obtain ⟨l', hl'⟩ := hkSlot_eq s.hkSlot
  refine ⟨l', ?_⟩
  rw [State.hkFill, hl', hl]
  rfl

/-- What of a state no slice changes: everything but the list of those at work. -/
structure Filled (s t : State) : Prop where
  parts : s.within [.moni] t
  io : t.io = s.io
  hk : t.moni.hk = s.moni.hk
  wait : t.moni.hkWait = s.moni.hkWait
  sum : t.moni.hkSum = s.moni.hkSum
  open_ : t.moni.hkOpen = s.moni.hkOpen
  due : t.moni.hkDue = s.moni.hkDue
  start : t.moni.hkStart = s.moni.hkStart

theorem hkFill_filled (s : State) : Filled s s.hkFill := by
  obtain ⟨l, hl⟩ := hkFill_eq s
  rw [hl]
  exact ⟨(State.within_refl s _).moni_upd _, rfl, rfl, rfl, rfl, rfl, rfl, rfl⟩

theorem Filled.get (h : Filled s t) (f : Field) : t.get f = s.get f := Io.get_congr (by rw [h.io])
theorem Filled.framed {v : State} (h : Filled s t) (k : Framed u qs v s) (l : .moni ∈ u) : Framed u qs v t :=
  k.trans ⟨h.parts.mono (by simpa using l), fun a _ _ _ => by rw [State.reg, State.reg, h.io]⟩
theorem Filled.onlyRegs {rs : List ℕ} {v : State} (h : Filled s t) (k : v.onlyRegs rs s) : v.onlyRegs rs t :=
  k.of_reg fun a => by rw [State.reg, State.reg, h.io]

/-! ## The end of a sequence -/

/-- The state with the sequence ended and the requests that waited for it in the queue. -/
def ended (s : State) : State :=
  ((s.set Fd.MONI_HK_STAT_RUNNING 0 |>.bump Fd.MONI_HK_STAT_SEQ 1).setWide 15 1 s.moni.hkStart).moni' fun m =>
    { m with hk := m.hk ++ m.hkWait, hkWait := [] }

theorem endHk_eq (s : State) :
    s.endHk = if s.is Fd.MONI_HK_STAT_RUNNING && s.moni.hk.all fun c => c.port.isSome then (ended s).hkFill else s := rfl

theorem within_ended (s : State) : s.within [.io, .moni] (ended s) := by
  unfold ended State.bump
  exact ((((State.within_refl s _).set _ _).set _ _).setWide _ _ _).moni_upd _

theorem onlyRegs_ended (s : State) : s.onlyRegs [Fd.MONI_HK_STAT_RUNNING.off] (ended s) := by
  unfold ended State.bump
  exact ((((State.onlyRegs_refl s _).set Fd.MONI_HK_STAT_RUNNING _ (.head _)).set Fd.MONI_HK_STAT_SEQ _ (.head _)).setWide _ _
    _).moni_upd _

theorem sum_ended (s : State) : (ended s).moni.hkSum = s.moni.hkSum := by
  rw [ended, State.moni_upd_moni, State.setWide_moni, State.bump, State.set_moni, State.set_moni]

theorem endHk_ends (s : State) : s.within [.io, .moni] s.endHk ∧ s.onlyRegs [Fd.MONI_HK_STAT_RUNNING.off] s.endHk ∧
    s.endHk.moni.hkSum = s.moni.hkSum := by
  have hfill := hkFill_filled (ended s)
  rw [endHk_eq]
  split
  · exact ⟨(within_ended s).trans (hfill.parts.mono (by decide)), hfill.onlyRegs (onlyRegs_ended s), hfill.sum.trans
      (sum_ended s)⟩
  · exact ⟨State.within_refl s _, State.onlyRegs_refl s _, rfl⟩

theorem framed_endHk (h : Framed u qs s t) (k : .io ∈ u) (l : .moni ∈ u) (hq : 15 ∈ qs) : Framed u qs s t.endHk := by
  obtain ⟨hparts, hregs, -⟩ := endHk_ends t
  refine h.trans ⟨hparts.mono (by simp [k, l]), hregs.regions fun a ha => ?_⟩
  rw [List.mem_singleton.mp ha]
  exact hq

theorem get_endHk {f : Field} (hp : f.steady = true) (hf : f.off ≠ Fd.MONI_HK_STAT_RUNNING.off) (s : State) :
    s.endHk.get f = s.get f := by
  obtain ⟨-, hregs, -⟩ := endHk_ends s
  exact hregs.steady (by simpa using hf) hp

/-! ## The start of a sequence -/

theorem is_false {f : Field} (h : s.get f = 0) : s.is f = false := congrArg (· == 1) h
theorem is_true {f : Field} (h : s.get f = 1) : s.is f = true := congrArg (· == 1) h

/-- The state in which a sequence has started, before the slices take its first conversions. -/
def started (s : State) : State :=
  ((s.set Fd.MONI_HK_CMD_GO 0).set Fd.MONI_HK_STAT_RUNNING 1).moni' fun m =>
    { m with hk := m.hk ++ s.hkEntries, hkSum := 0, hkOpen := false, hkStart := s.tick }

theorem startHk_eq (h : s.hkEntries ≠ []) : s.startHk = (started s).hkFill :=
  if_neg (by rwa [List.isEmpty_iff])

abbrev startRegs : List ℕ := [Fd.MONI_HK_CMD_GO.off, Fd.MONI_HK_STAT_RUNNING.off]

theorem started_shows (s : State) : s.within [.io, .moni] (started s) ∧ s.onlyRegs startRegs (started s) ∧
    (started s).get Fd.MONI_HK_STAT_RUNNING = 1 ∧ (started s).get Fd.MONI_HK_CMD_GO = 0 := by
  unfold started
  refine ⟨(((State.within_refl s _).set _ _).set _ _).moni_upd _, ?_, ?_, ?_⟩
  · exact (((State.onlyRegs_refl s startRegs).set Fd.MONI_HK_CMD_GO _ (.head _)).set Fd.MONI_HK_STAT_RUNNING _
      (.tail _ (.head _))).moni_upd _
  · rw [State.get_moni_upd]
    exact State.get_set _ _ _ (by decide) (by decide)
  · rw [State.get_moni_upd, State.get_set_off _ _ (by decide)]
    exact State.get_set _ _ _ (by decide) (by decide)

/-- What the start of a sequence shows, from a state whose queue is empty. -/
theorem startHk_shows (hempty : s.moni.hk = []) (h : s.hkEntries ≠ []) :
    s.within [.io, .moni] s.startHk ∧ s.onlyRegs startRegs s.startHk ∧ s.startHk.get Fd.MONI_HK_STAT_RUNNING = 1 ∧
      s.startHk.get Fd.MONI_HK_CMD_GO = 0 ∧ s.startHk.moni.hk = s.hkEntries ∧ s.startHk.moni.hkStart = s.tick ∧
      s.startHk.moni.hkDue = s.moni.hkDue := by
  obtain ⟨hparts, hregs, hrun, hgo⟩ := started_shows s
  have hfill := hkFill_filled (started s)
  have hmoni : (started s).moni.hk = s.moni.hk ++ s.hkEntries ∧ (started s).moni.hkStart = s.tick ∧
      (started s).moni.hkDue = s.moni.hkDue := by
    rw [started, State.moni_upd_moni, State.set_moni, State.set_moni]
    exact ⟨rfl, rfl, rfl⟩
  obtain ⟨hhk, hstart, hdue⟩ := hmoni
  rw [startHk_eq h]
  refine ⟨hparts.trans (hfill.parts.mono (by decide)), hfill.onlyRegs hregs, (hfill.get _).trans hrun, (hfill.get _).trans
      hgo, ?_,
    hfill.start.trans hstart, hfill.due.trans hdue⟩
  rw [hfill.hk, hhk, hempty, List.nil_append]

theorem exec_start (hrun : s.restarting 15 = false) (hidle : s.get Fd.MONI_HK_STAT_RUNNING = 0) (hempty : s.moni.hk = [])
    (hmode : s.get Fd.MONI_HK_CTL_MODE = 1 ∨ s.get Fd.MONI_HK_CTL_MODE = 3 ∧ s.get Fd.MONI_HK_CMD_GO = 1) :
    exec .hkSequenceStart s = .next s.startHk.noPeriod := by
  have hcond : ¬(s.is Fd.MONI_HK_STAT_RUNNING || s.restarting 15) = true := by rw [is_false hidle, hrun]; decide
  have hnil : s.moni.hk.isEmpty = true := by rw [hempty]; rfl
  change execHkSequenceStart s = _
  unfold execHkSequenceStart
  rw [if_neg hcond]
  rcases hmode with hmode | ⟨hmode, hgo⟩
  · rw [hmode]
    dsimp only
    rw [if_pos hnil]
    rfl
  · rw [hmode]
    change ok (if s.is Fd.MONI_HK_CMD_GO && s.moni.hk.isEmpty then s.startHk.noPeriod else s) = _
    rw [if_pos (by rw [is_true hgo, hnil]; decide)]
    rfl

theorem sequence_once (hrun : s.restarting 15 = false) (hidle : s.get Fd.MONI_HK_STAT_RUNNING = 0) (hempty : s.moni.hk = [])
    (hsome : s.hkEntries ≠ []) (hmode : s.get Fd.MONI_HK_CTL_MODE = 1 ∨ s.get Fd.MONI_HK_CTL_MODE = 3 ∧ s.get
        Fd.MONI_HK_CMD_GO = 1) :
    ∃ t, exec .hkSequenceStart s = .next t ∧ s.within [.io, .moni] t ∧
      s.onlyRegs [Fd.MONI_HK_CMD_GO.off, Fd.MONI_HK_STAT_RUNNING.off] t ∧
      t.get Fd.MONI_HK_STAT_RUNNING = 1 ∧ t.moni.hk = s.hkEntries ∧ t.moni.hkDue = none ∧ t.moni.hkStart = s.tick ∧
      t.get Fd.MONI_HK_CMD_GO = 0 := by
  obtain ⟨hparts, hregs, hrunning, hgo, hhk, hstart, -⟩ := startHk_shows hempty hsome
  have hkeep (v : State) : v.noPeriod.moni.hk = v.moni.hk ∧ v.noPeriod.moni.hkStart = v.moni.hkStart ∧ v.noPeriod.moni.hkDue
      = none :=
    ⟨rfl, rfl, rfl⟩
  obtain ⟨hhk', hstart', hdue'⟩ := hkeep s.startHk
  exact ⟨_, exec_start hrun hidle hempty hmode, hparts.moni_upd _, hregs.moni_upd _, hrunning, hhk'.trans hhk, hdue',
    hstart'.trans hstart, hgo⟩

theorem hkEntries_congr (h : ∀ f, t.get f = s.get f) : t.hkEntries = s.hkEntries := by
  have his (f : Field) : t.is f = s.is f := congrArg (· == 1) (h f)
  unfold State.hkEntries
  simp only [h, his]

/-- The state in which a periodic sequence is due, with the next one noted. -/
def periodic (s : State) : State :=
  (s.clockReach (s.moni.hkDue.getD s.tick)).moni' fun m =>
    { m with hkDue := some (s.moni.hkDue.getD s.tick + usTicks (s.get Fd.MONI_HK_CTL_PERIOD)) }

theorem periodic_shows (s : State) : (∀ f, (periodic s).get f = s.get f) ∧ (periodic s).moni.hk = s.moni.hk ∧
    (periodic s).moni.hkDue = some (s.moni.hkDue.getD s.tick + usTicks (s.get Fd.MONI_HK_CTL_PERIOD)) ∧
    s.within [.io, .moni] (periodic s) ∧ s.onlyRegs startRegs (periodic s) := by
  have hmoni (w : Wide) : (s.clockReach w).moni = s.moni := by
    unfold State.clockReach
    split <;> rfl
  unfold periodic
  refine ⟨fun f => ?_, ?_, ?_, ((State.within_refl s _).clockReach _).moni_upd _,
      ((State.onlyRegs_refl s _).clockReach _).moni_upd _⟩
  · rw [State.get_moni_upd]
    exact Detections.get_clockReach _ s f
  · rw [State.moni_upd_moni, hmoni]
  · rw [State.moni_upd_moni]

theorem sequence_periodic (hrun : s.restarting 15 = false) (hidle : s.get Fd.MONI_HK_STAT_RUNNING = 0) (hempty : s.moni.hk = [])
    (hsome : s.hkEntries ≠ []) (hmode : s.get Fd.MONI_HK_CTL_MODE = 2) (hlate : s.moni.hkLate = false)
    (hclock : s.clockOk (s.moni.hkDue.getD s.tick) = true) :
    ∃ t, exec .hkSequenceStart s = .next t ∧ s.within [.io, .moni] t ∧
      s.onlyRegs [Fd.MONI_HK_CMD_GO.off, Fd.MONI_HK_STAT_RUNNING.off] t ∧ t.get Fd.MONI_HK_STAT_RUNNING = 1 ∧
      t.moni.hk = s.hkEntries ∧ t.moni.hkDue = some (s.moni.hkDue.getD s.tick + usTicks (s.get Fd.MONI_HK_CTL_PERIOD)) := by
  obtain ⟨hget, hhk, hdue, hparts, hregs⟩ := periodic_shows s
  have hentries : (periodic s).hkEntries = s.hkEntries := hkEntries_congr hget
  obtain ⟨hparts', hregs', hrunning, -, hqueue, -, hdue'⟩ := startHk_shows (s := periodic s) (hhk.trans hempty)
      (by rwa [hentries])
  have hcond : ¬(s.is Fd.MONI_HK_STAT_RUNNING || s.restarting 15) = true := by rw [is_false hidle, hrun]; decide
  have hexec : exec .hkSequenceStart s = .next (periodic s).startHk := by
    change execHkSequenceStart s = _
    unfold execHkSequenceStart
    rw [if_neg hcond, hmode]
    change (if s.moni.hkLate = true then _ else if (!s.clockOk (s.moni.hkDue.getD s.tick)) = true then ok s
      else ok (if s.moni.hk.isEmpty = true then (periodic s).startHk else _)) = _
    rw [hlate, hclock, hempty]
    rfl
  exact ⟨_, hexec, hparts.trans hparts', hregs.trans hregs', hrunning, hqueue.trans hentries, hdue'.trans hdue⟩

/-! ## The results of conversions (R364) -/

/-- The state after the oldest conversion has left its slice. -/
def converted (rest : List HkConv) (more : List HkBusy) (w : Wide) (s : State) : State :=
  (s.clockReach w).moni' fun m => { m with hk := rest, busy := more }

/-- An entry's register with its result. -/
def resShown (e r : ℕ) (open_ : Bool) (slice seq : ℕ) (s : State) : State :=
  s.set (Fd.MONI_HK_RES_RESULT e) r |>.setBit (Fd.MONI_HK_RES_OPEN e) open_ |>.set (Fd.MONI_HK_RES_SLICE e) slice
    |>.set (Fd.MONI_HK_RES_VALID e) 1 |>.set (Fd.MONI_HK_RES_SEQ e) seq

/-- The fields of an entry's register are apart. -/
theorem res_apart (e : ℕ) :
    ((Fd.MONI_HK_RES_SEQ e).apart (Fd.MONI_HK_RES_VALID e) = true ∧ (Fd.MONI_HK_RES_SEQ e).apart (Fd.MONI_HK_RES_SLICE e) =
        true ∧
      (Fd.MONI_HK_RES_SEQ e).apart (Fd.MONI_HK_RES_OPEN e) = true ∧ (Fd.MONI_HK_RES_SEQ e).apart (Fd.MONI_HK_RES_RESULT e) =
          true) ∧
    ((Fd.MONI_HK_RES_VALID e).apart (Fd.MONI_HK_RES_SLICE e) = true ∧ (Fd.MONI_HK_RES_VALID e).apart (Fd.MONI_HK_RES_OPEN e)
        = true ∧
      (Fd.MONI_HK_RES_VALID e).apart (Fd.MONI_HK_RES_RESULT e) = true) ∧
    ((Fd.MONI_HK_RES_SLICE e).apart (Fd.MONI_HK_RES_OPEN e) = true ∧ (Fd.MONI_HK_RES_SLICE e).apart
        (Fd.MONI_HK_RES_RESULT e) = true) ∧
    (Fd.MONI_HK_RES_OPEN e).apart (Fd.MONI_HK_RES_RESULT e) = true := by
  simp [Field.apart, Fd.MONI_HK_RES_SEQ, Fd.MONI_HK_RES_VALID, Fd.MONI_HK_RES_SLICE, Fd.MONI_HK_RES_OPEN, Fd.MONI_HK_RES_RESULT]

theorem resShown_shows (e r : ℕ) (open_ : Bool) (slice seq : ℕ) (s : State) :
    (resShown e r open_ slice seq s).get (Fd.MONI_HK_RES_RESULT e) = r % 2 ^ 12 ∧
    (resShown e r open_ slice seq s).get (Fd.MONI_HK_RES_OPEN e) = (if open_ then 1 else 0) ∧
    (resShown e r open_ slice seq s).get (Fd.MONI_HK_RES_SLICE e) = slice % 4 ∧
    (resShown e r open_ slice seq s).get (Fd.MONI_HK_RES_VALID e) = 1 := by
  obtain ⟨⟨hqv, hqs, hqo, hqr⟩, ⟨hvs, hvo, hvr⟩, ⟨hso, hsr⟩, hor⟩ := res_apart e
  have hfit : (Fd.MONI_HK_RES_RESULT e).lo ≤ (Fd.MONI_HK_RES_RESULT e).hi ∧ (Fd.MONI_HK_RES_RESULT e).hi < 32 ∧
      (Fd.MONI_HK_RES_SLICE e).lo ≤ (Fd.MONI_HK_RES_SLICE e).hi ∧ (Fd.MONI_HK_RES_SLICE e).hi < 32 := by
    simp [Fd.MONI_HK_RES_RESULT, Fd.MONI_HK_RES_SLICE]
  obtain ⟨hrl, hrh, hsl, hsh⟩ := hfit
  unfold resShown
  refine ⟨?_, ?_, ?_, ?_⟩
  · rw [State.get_set_apart _ _ hqr, State.get_set_apart _ _ hvr, State.get_set_apart _ _ hsr, State.get_setBit_apart _ _ hor]
    exact State.get_set _ _ _ hrl hrh
  · rw [State.get_set_apart _ _ hqo, State.get_set_apart _ _ hvo, State.get_set_apart _ _ hso]
    exact State.get_setBit _ _ _ (by simp [Fd.MONI_HK_RES_OPEN]) (by simp [Fd.MONI_HK_RES_OPEN])
  · rw [State.get_set_apart _ _ hqs, State.get_set_apart _ _ hvs]
    exact State.get_set _ _ _ hsl hsh
  · rw [State.get_set_apart _ _ hqv]
    exact (State.get_set _ _ _ (by simp [Fd.MONI_HK_RES_VALID]) (by simp [Fd.MONI_HK_RES_VALID])).trans
        (by simp [Fd.MONI_HK_RES_VALID])

theorem framed_resShown {v : State} (h : Framed u qs v s) {e : ℕ} (he : e < 32) (r : ℕ) (open_ : Bool) (slice seq : ℕ)
    (k : .io ∈ u)
    (hq : 15 ∈ qs) : Framed u qs v (resShown e r open_ slice seq s) := by
  have hoff {f : Field} (hf : f.off = (Fd.MONI_HK_RES_RESULT e).off) : f.off / 0x200000 ∈ qs := by
    have hregion : f.off / 0x200000 = 15 := by
      rw [hf]
      simp only [Fd.MONI_HK_RES_RESULT]
      omega
    rw [hregion]
    exact hq
  exact ((((h.set _ _ k (hoff rfl)).setBit (Fd.MONI_HK_RES_OPEN e) _ k (hoff rfl)).set (Fd.MONI_HK_RES_SLICE e) _ k
      (hoff rfl)).set
    (Fd.MONI_HK_RES_VALID e) _ k (hoff rfl)).set (Fd.MONI_HK_RES_SEQ e) _ k (hoff rfl)

/-- An entry out of its limits: the alarm with its interrupt, and the first time the record with its till. -/
def alarmed (e : ℕ) (s : State) : State := (s.set (Fd.MONI_HK_ALARM_ALARM.bit e) 1).regionIrq 15
def alarmNoted (e : ℕ) (s : State) : State :=
  (s.err { level := 0, region := 15, block := 4, code := 0x0F84, cell := e }).count 15 Src.MONI_HK_ALARM 0 1

/-- The alarms of an entry, by its limits. -/
def limits (e : ℕ) (out fresh : Bool) (s : State) : State :=
  ((s.moni' fun m => { m with outside := if out then m.outside ||| 2 ^ e else m.outside &&& ((2 ^ 32 - 1) ^^^ 2 ^ e)
      }).onlyIf out
    (alarmed e)).onlyIf fresh (alarmNoted e)

theorem framed_limits (h : Framed u qs s t) (e : ℕ) (out fresh : Bool) (k : .io ∈ u) (l : .moni ∈ u) (hq : 15 ∈ qs) :
    Framed u qs s (limits e out fresh t) := by
  have hmoni : Framed u qs s _ := h.moni_upd
    (fun m => { m with outside := if out then m.outside ||| 2 ^ e else m.outside &&& ((2 ^ 32 - 1) ^^^ 2 ^ e) }) l
  have hregion : (Fd.MONI_HK_ALARM_ALARM.bit e).off / 0x200000 ∈ qs := by
    rw [SafeOps.bit_off, show Fd.MONI_HK_ALARM_ALARM.off / 0x200000 = 15 by decide]
    exact hq
  have halarm : Framed u qs s _ := hmoni.onlyIf (b := out) (g := alarmed e)
    ((hmoni.set (Fd.MONI_HK_ALARM_ALARM.bit e) 1 k hregion).regionIrq 15 k)
  exact halarm.onlyIf ((halarm.err _ k).count _ _ _ _ k)

theorem onlyRegs_limits (e : ℕ) (out fresh : Bool) (s : State) : s.onlyRegs [Fd.MONI_HK_ALARM_ALARM.off]
    (limits e out fresh s) := by
  have hmoni : s.onlyRegs [Fd.MONI_HK_ALARM_ALARM.off] _ := (State.onlyRegs_refl s _).moni_upd
    (fun m => { m with outside := if out then m.outside ||| 2 ^ e else m.outside &&& ((2 ^ 32 - 1) ^^^ 2 ^ e) })
  have halarm : s.onlyRegs [Fd.MONI_HK_ALARM_ALARM.off] _ := hmoni.onlyIf (b := out) (f := alarmed e)
    ((hmoni.set (Fd.MONI_HK_ALARM_ALARM.bit e) 1 (.head _)).of_calm (Io.calm_regionIrq ..))
  exact halarm.onlyIf ((halarm.err _).count _ _ _ _)

theorem sum_limits (e : ℕ) (out fresh : Bool) (s : State) : (limits e out fresh s).moni.hkSum = s.moni.hkSum := by
  have halarm (v : State) (b : Bool) : (v.onlyIf b (alarmed e)).moni = v.moni := by
    unfold State.onlyIf alarmed
    split <;> rfl
  have hnote (v : State) (b : Bool) : (v.onlyIf b (alarmNoted e)).moni = v.moni := by
    unfold State.onlyIf alarmNoted
    split <;> rfl
  rw [limits, hnote, halarm, State.moni_upd_moni]

theorem framed_taps (h : Framed u qs s t) (stream : ℕ) (mine : Bool) (l : List Sample) (k : .io ∈ u) (m : .memc ∈ u)
    (hq : 14 ∈ qs) :
    Framed u qs s (t.taps stream mine l) := by
  unfold State.taps
  refine Framed.ite (h.each fun x _ w hw => ?_) h
  unfold State.intoFifo State.capGap
  exact Framed.ite ((hw.set Fd.MEMC_CAP_STAT_GAP 1 k hq).memc_upd _ m) (hw.memc_upd _ m)

/-- The mean of an entry, shown, checked against its limits, and read. -/
theorem hkResult_eq (c : HkConv) (sum : ℕ) (open_ : Bool) (b : HkBusy) (s : State) : ∃ out fresh seq, s.hkResult c sum open_ b
    = reading c.input ((sum + 2 ^ c.avg / 2) / 2 ^ c.avg) (limits c.entry out fresh
        (resShown c.entry ((sum + 2 ^ c.avg / 2) / 2 ^ c.avg)
      open_ b.slice seq (s.tapHk c.entry ((sum + 2 ^ c.avg / 2) / 2 ^ c.avg) b.slice b.start))) := ⟨_, _, _, rfl⟩

/-- A steady register of MONI that no alarm writes stands through the alarms and the reading. -/
theorem get_after_limits {f : Field} (hp : f.steady = true) (hf : f.off / 0x200000 = 15)
    (ha : f.off ≠ Fd.MONI_HK_ALARM_ALARM.off)
    (input r e : ℕ) (out fresh : Bool) (s : State) : (reading input r (limits e out fresh s)).get f = s.get f :=
  ((framed_reading input r _).get hp (by rw [hf]; decide)).trans ((onlyRegs_limits e out fresh s).steady (by simpa using ha) hp)

theorem res_steady {e : ℕ} (he : e < 32) {f : Field} (hf : f.off = (Fd.MONI_HK_RES_RESULT e).off) : f.steady = true ∧
    f.off / 0x200000 = 15 ∧ f.off ≠ Fd.MONI_HK_ALARM_ALARM.off ∧ f.off ≠ Fd.MONI_HK_STAT_RUNNING.off := by
  have hsteady : (Fd.MONI_HK_RES_RESULT (⟨e, he⟩ : Fin 32)).steady = true := by
    generalize (⟨e, he⟩ : Fin 32) = k
    revert k
    decide
  refine ⟨?_, ?_⟩
  · unfold Field.steady at hsteady ⊢
    rw [hf]
    exact hsteady
  · rw [hf]
    simp only [Fd.MONI_HK_RES_RESULT, Fd.MONI_HK_ALARM_ALARM, Fd.MONI_HK_STAT_RUNNING]
    omega

/-- What the last conversion of an entry shows, after the state s1 in which its queue has gone on. -/
theorem hkResult_shows {c : HkConv} (he : c.entry < 32) (sum : ℕ) (open_ : Bool) (b : HkBusy) (s : State) :
    ((c.input < 24 ∨ 35 < c.input) → Framed readParts [0, 3, 14, 15, 18] s (s.hkResult c sum open_ b)) ∧
    (s.hkResult c sum open_ b).get (Fd.MONI_HK_RES_RESULT c.entry) = (sum + 2 ^ c.avg / 2) / 2 ^ c.avg % 2 ^ 12 ∧
    (s.hkResult c sum open_ b).get (Fd.MONI_HK_RES_OPEN c.entry) = (if open_ then 1 else 0) ∧
    (s.hkResult c sum open_ b).get (Fd.MONI_HK_RES_SLICE c.entry) = b.slice % 4 ∧
    (s.hkResult c sum open_ b).get (Fd.MONI_HK_RES_VALID c.entry) = 1 ∧ (s.hkResult c sum open_ b).moni.hkSum = s.moni.hkSum
        := by
  obtain ⟨out, fresh, seq, heq⟩ := hkResult_eq c sum open_ b s
  have htap : Framed readParts [0, 3, 14, 15, 18] s (s.tapHk c.entry ((sum + 2 ^ c.avg / 2) / 2 ^ c.avg) b.slice b.start) :=
    framed_taps (Framed.refl _ _ s) _ _ _ (by decide) (by decide) (by decide)
  have htapMoni : (s.tapHk c.entry ((sum + 2 ^ c.avg / 2) / 2 ^ c.avg) b.slice b.start).moni = s.moni := by
    have h : Framed [.io, .memc] [14] s (s.tapHk c.entry ((sum + 2 ^ c.avg / 2) / 2 ^ c.avg) b.slice b.start) :=
      framed_taps (Framed.refl _ _ s) _ _ _ (by decide) (by decide) (by decide)
    exact h.parts.same .moni (by decide)
  obtain ⟨hresult, hopen, hslice, hvalid⟩ := resShown_shows c.entry ((sum + 2 ^ c.avg / 2) / 2 ^ c.avg) open_ b.slice seq
    (s.tapHk c.entry ((sum + 2 ^ c.avg / 2) / 2 ^ c.avg) b.slice b.start)
  have hget {f : Field} (hf : f.off = (Fd.MONI_HK_RES_RESULT c.entry).off) (v : State) :
      (reading c.input ((sum + 2 ^ c.avg / 2) / 2 ^ c.avg) (limits c.entry out fresh v)).get f = v.get f := by
    obtain ⟨hp, hregion, halarm, -⟩ := res_steady he hf
    exact get_after_limits hp hregion halarm _ _ _ _ _ _
  rw [heq]
  refine ⟨fun hin => ?_, (hget rfl _).trans hresult, (hget (f := Fd.MONI_HK_RES_OPEN c.entry) rfl _).trans hopen,
    (hget (f := Fd.MONI_HK_RES_SLICE c.entry) rfl _).trans hslice, (hget (f := Fd.MONI_HK_RES_VALID c.entry) rfl _).trans
        hvalid, ?_⟩
  · exact (framed_limits (framed_resShown htap he _ _ _ _ (by decide) (by decide)) _ _ _ (by decide) (by decide)
      (by decide)).trans
      ((framed_reading_other hin _ _).mono (by decide) (by decide))
  · have hread (v : State) : (reading c.input ((sum + 2 ^ c.avg / 2) / 2 ^ c.avg) v).moni = v.moni :=
      (framed_reading c.input _ v).parts.same .moni (by decide)
    have hres (v : State) (r q : ℕ) : (resShown c.entry r open_ b.slice q v).moni = v.moni := by
      unfold resShown State.setBit
      rw [State.set_moni, State.set_moni, State.set_moni, State.set_moni, State.set_moni]
    rw [hread, sum_limits, hres, htapMoni]

section
variable {result : BitVec 12} {c : HkConv} {rest : List HkConv} {b : HkBusy} {more : List HkBusy}

theorem converted_shows (rest : List HkConv) (more : List HkBusy) (w : Wide) (s : State) :
    s.within [.io, .moni] (converted rest more w s) ∧ (∀ a, (converted rest more w s).reg a = s.reg a) ∧
      (converted rest more w s).tick = (s.clockReach w).tick := by
  have hreg (v : State) (a : ℕ) : (v.moni' fun m => { m with hk := rest, busy := more }).reg a = v.reg a := rfl
  have htick (v : State) : (v.moni' fun m => { m with hk := rest, busy := more }).tick = v.tick := rfl
  unfold converted
  refine ⟨((State.within_refl s _).clockReach w).moni_upd _, fun a => ?_, htick _⟩
  rw [hreg]
  unfold State.clockReach
  split
  · exact s.reg_reach w a
  · rfl

/-- The last conversion of an entry (R364). -/
theorem conversion_last (hhk : s.moni.hk = c :: rest) (hbusy : s.moni.busy = b :: more)
    (hclock : s.clockOk (b.start + usTicks 1) = true)
    (hport : c.port = none) (hlast : c.last = true) (he : c.entry < 32) : ∃ t, exec (.hkConversion result) s = .next t ∧
    ((c.input < 24 ∨ 35 < c.input) → s.within [.io, .emt, .safe, .memc, .moni, .chip] t ∧ s.onlyRegions [0, 3, 14, 15, 18] t) ∧
    t.get (Fd.MONI_HK_RES_RESULT c.entry) = (s.moni.hkSum + result.toNat + 2 ^ c.avg / 2) / 2 ^ c.avg % 2 ^ 12 ∧
    t.get (Fd.MONI_HK_RES_OPEN c.entry) = (if s.moni.hkOpen || b.open_ then 1 else 0) ∧
    t.get (Fd.MONI_HK_RES_SLICE c.entry) = b.slice % 4 ∧ t.get (Fd.MONI_HK_RES_VALID c.entry) = 1 ∧ t.moni.hkSum = 0 := by
  obtain ⟨hparts, hreg, -⟩ := converted_shows rest more (b.start + usTicks 1) s
  have hclear (v : State) : (v.moni' fun m => { m with hkSum := 0, hkOpen := false }).moni.hkSum = 0 := rfl
  have hframe : Framed readParts [0, 3, 14, 15, 18] s
      ((converted rest more (b.start + usTicks 1) s).moni' fun m => { m with hkSum := 0, hkOpen := false }) :=
    Framed.moni_upd ⟨hparts.mono (by decide), fun a _ _ _ => hreg a⟩ _
  generalize hs1 : (converted rest more (b.start + usTicks 1) s).moni' (fun m => { m with hkSum := 0, hkOpen := false }) =
      s1 at hframe
  have hsum1 : s1.moni.hkSum = 0 := by rw [← hs1]; exact hclear _
  have hexec : exec (.hkConversion result) s
      = .next ((s1.hkResult c (s.moni.hkSum + result.toNat) (s.moni.hkOpen || b.open_) b).hkFill.endHk) := by
    rw [← hs1]
    change execHkConversion result s = _
    unfold execHkConversion
    rw [hhk, hbusy]
    dsimp only
    rw [hclock, hport, hlast]
    rfl
  obtain ⟨hother, hresult, hopen, hslice, hvalid, hsum⟩ :=
    hkResult_shows he (s.moni.hkSum + result.toNat) (s.moni.hkOpen || b.open_) b s1
  have hfill := hkFill_filled (s1.hkResult c (s.moni.hkSum + result.toNat) (s.moni.hkOpen || b.open_) b)
  obtain ⟨-, -, hsumEnd⟩ := endHk_ends (s1.hkResult c (s.moni.hkSum + result.toNat) (s.moni.hkOpen || b.open_) b).hkFill
  have hget {f : Field} (hf : f.off = (Fd.MONI_HK_RES_RESULT c.entry).off) (v : State) (hv : Filled v v.hkFill) :
      v.hkFill.endHk.get f = v.get f := by
    obtain ⟨hp, -, -, hrun⟩ := res_steady he hf
    exact (get_endHk hp hrun _).trans (hv.get f)
  refine ⟨_, hexec, fun hin => ?_, (hget rfl _ hfill).trans hresult,
      (hget (f := Fd.MONI_HK_RES_OPEN c.entry) rfl _ hfill).trans hopen,
    (hget (f := Fd.MONI_HK_RES_SLICE c.entry) rfl _ hfill).trans hslice,
    (hget (f := Fd.MONI_HK_RES_VALID c.entry) rfl _ hfill).trans hvalid, ?_⟩
  · obtain ⟨hp, hr⟩ := framed_endHk (hfill.framed (hframe.trans (hother hin)) (by decide)) (by decide) (by decide) (by decide)
    exact ⟨hp, hr⟩
  · rw [hsumEnd, hfill.sum, hsum, hsum1]

/-- A conversion that is not the last of its entry adds to its sum. -/
theorem conversion_more (hhk : s.moni.hk = c :: rest) (hbusy : s.moni.busy = b :: more)
    (hclock : s.clockOk (b.start + usTicks 1) = true)
    (hport : c.port = none) (hlast : c.last = false) : ∃ t, exec (.hkConversion result) s = .next t ∧ s.within [.io, .moni] t ∧
    s.onlyRegs [] t ∧ t.tick = (s.clockReach (b.start + usTicks 1)).tick ∧ t.moni.hk = rest ∧
    t.moni.hkSum = s.moni.hkSum + result.toNat ∧ t.moni.hkOpen = (s.moni.hkOpen || b.open_) := by
  obtain ⟨hparts, hreg, htick⟩ := converted_shows rest more (b.start + usTicks 1) s
  have hsum (v : State) : ((converted rest more (b.start + usTicks 1) v).moni' fun m =>
      { m with hkSum := s.moni.hkSum + result.toNat, hkOpen := s.moni.hkOpen || b.open_ }).moni.hk = rest := rfl
  have hfill := hkFill_filled ((converted rest more (b.start + usTicks 1) s).moni' fun m =>
    { m with hkSum := s.moni.hkSum + result.toNat, hkOpen := s.moni.hkOpen || b.open_ })
  have hexec : exec (.hkConversion result) s = .next (((converted rest more (b.start + usTicks 1) s).moni' fun m =>
      { m with hkSum := s.moni.hkSum + result.toNat, hkOpen := s.moni.hkOpen || b.open_ }).hkFill) := by
    change execHkConversion result s = _
    unfold execHkConversion
    rw [hhk, hbusy]
    dsimp only
    rw [hclock, hport, hlast]
    rfl
  refine ⟨_, hexec, (hparts.moni_upd _).trans (hfill.parts.mono (by decide)), fun a _ _ _ => ?_, ?_, hfill.hk.trans (hsum s),
    hfill.sum, hfill.open_⟩
  · rw [State.reg, hfill.io]
    exact hreg a
  · rw [State.tick, hfill.io]
    exact htick

end

/-! ## Requests (R365) -/

/-- A request's registers with its result. -/
def reqShown (p r : ℕ) (open_ : Bool) (slice : ℕ) (s : State) : State :=
  s.set (Fd.MONI_HK_REQ_BUSY p) 0 |>.set (Fd.MONI_HK_REQ_DONE p) 1 |>.set (Fd.MONI_HK_REQ_RES_RESULT p) r
    |>.setBit (Fd.MONI_HK_REQ_RES_OPEN p) open_ |>.set (Fd.MONI_HK_REQ_RES_SLICE p) slice

theorem reqResult_eq (p : ℕ) (c : HkConv) (r : ℕ) (open_ : Bool) (slice : ℕ) (s : State) :
    s.reqResult p c r open_ slice = reading c.input r (reqShown p r open_ slice s) := rfl

theorem reqShown_shows {p r : ℕ} (hr : r < 2 ^ 12) (open_ : Bool) (slice : ℕ) (s : State) :
    (reqShown p r open_ slice s).get (Fd.MONI_HK_REQ_BUSY p) = 0 ∧ (reqShown p r open_ slice s).get (Fd.MONI_HK_REQ_DONE p)
        = 1 ∧
    (reqShown p r open_ slice s).get (Fd.MONI_HK_REQ_RES_RESULT p) = r ∧
    (reqShown p r open_ slice s).get (Fd.MONI_HK_REQ_RES_SLICE p) = slice % 4 ∧
    (reqShown p r open_ slice s).get (Fd.MONI_HK_REQ_RES_OPEN p) = if open_ then 1 else 0 := by
  have hres {g : Field} (hg : g.off = (Fd.MONI_HK_REQ_BUSY p).off) (v : State) :
      ((v.set (Fd.MONI_HK_REQ_RES_RESULT p) r |>.setBit (Fd.MONI_HK_REQ_RES_OPEN p) open_).set (Fd.MONI_HK_REQ_RES_SLICE p)
          slice).get g
        = v.get g := by
    have hoff : g.off ≠ (Fd.MONI_HK_REQ_RES_RESULT p).off := by
      rw [hg]
      simp only [Fd.MONI_HK_REQ_RES_RESULT, Fd.MONI_HK_REQ_BUSY]
      omega
    rw [State.get_set_off (f := Fd.MONI_HK_REQ_RES_SLICE p) _ _ hoff, State.setBit,
      State.get_set_off (f := Fd.MONI_HK_REQ_RES_OPEN p) _ _ hoff, State.get_set_off _ _ hoff]
  have hdb : (Fd.MONI_HK_REQ_DONE p).apart (Fd.MONI_HK_REQ_BUSY p) = true ∧
      (Fd.MONI_HK_REQ_RES_SLICE p).apart (Fd.MONI_HK_REQ_RES_RESULT p) = true ∧
      (Fd.MONI_HK_REQ_RES_OPEN p).apart (Fd.MONI_HK_REQ_RES_RESULT p) = true ∧
      (Fd.MONI_HK_REQ_RES_SLICE p).apart (Fd.MONI_HK_REQ_RES_OPEN p) = true := by
    simp [Field.apart, Fd.MONI_HK_REQ_DONE, Fd.MONI_HK_REQ_BUSY, Fd.MONI_HK_REQ_RES_SLICE, Fd.MONI_HK_REQ_RES_RESULT,
      Fd.MONI_HK_REQ_RES_OPEN]
  obtain ⟨hdone, hsr, hor, hso⟩ := hdb
  have hfit : (Fd.MONI_HK_REQ_RES_RESULT p).lo ≤ (Fd.MONI_HK_REQ_RES_RESULT p).hi ∧ (Fd.MONI_HK_REQ_RES_RESULT p).hi < 32 ∧
      (Fd.MONI_HK_REQ_RES_SLICE p).lo ≤ (Fd.MONI_HK_REQ_RES_SLICE p).hi ∧ (Fd.MONI_HK_REQ_RES_SLICE p).hi < 32 ∧
      (Fd.MONI_HK_REQ_BUSY p).lo ≤ (Fd.MONI_HK_REQ_BUSY p).hi ∧ (Fd.MONI_HK_REQ_BUSY p).hi < 32 ∧
      (Fd.MONI_HK_REQ_DONE p).lo ≤ (Fd.MONI_HK_REQ_DONE p).hi ∧ (Fd.MONI_HK_REQ_DONE p).hi < 32 := by
    simp [Fd.MONI_HK_REQ_RES_RESULT, Fd.MONI_HK_REQ_RES_SLICE, Fd.MONI_HK_REQ_BUSY, Fd.MONI_HK_REQ_DONE]
  obtain ⟨hrl, hrh, hsl, hsh, hbl, hbh, hdl, hdh⟩ := hfit
  unfold reqShown
  refine ⟨?_, ?_, ?_, ?_, ?_⟩
  · rw [hres rfl, State.get_set_apart _ _ hdone, State.get_set _ _ _ hbl hbh]
    exact Nat.zero_mod _
  · rw [hres (g := Fd.MONI_HK_REQ_DONE p) rfl, State.get_set _ _ _ hdl hdh]
    simp [Fd.MONI_HK_REQ_DONE]
  · rw [State.get_set_apart _ _ hsr, State.get_setBit_apart _ _ hor, State.get_set _ _ _ hrl hrh]
    exact Nat.mod_eq_of_lt hr
  · exact State.get_set _ _ _ hsl hsh
  · rw [State.get_set_apart _ _ hso]
    exact State.get_setBit _ _ _ (by simp [Fd.MONI_HK_REQ_RES_OPEN]) (by simp [Fd.MONI_HK_REQ_RES_OPEN])

theorem req_fields (p : Fin 2) : ((Fd.MONI_HK_REQ_BUSY p).steady = true ∧ (Fd.MONI_HK_REQ_RES_RESULT p).steady = true) ∧
    ((Fd.MONI_HK_REQ_BUSY p).off / 0x200000 = 15 ∧ (Fd.MONI_HK_REQ_RES_RESULT p).off / 0x200000 = 15) ∧
    (Fd.MONI_HK_REQ_BUSY p).off ≠ Fd.MONI_HK_STAT_RUNNING.off ∧
    (Fd.MONI_HK_REQ_RES_RESULT p).off ≠ Fd.MONI_HK_STAT_RUNNING.off := by
  revert p
  decide

/-- A field of a request's two registers. -/
theorem req_steady (p : Fin 2) {f : Field} (hf : f.off = (Fd.MONI_HK_REQ_BUSY p).off ∨ f.off =
    (Fd.MONI_HK_REQ_RES_RESULT p).off) :
    f.steady = true ∧ f.off / 0x200000 = 15 ∧ f.off ≠ Fd.MONI_HK_STAT_RUNNING.off := by
  obtain ⟨⟨hb, hr⟩, ⟨hbq, hrq⟩, hbn, hrn⟩ := req_fields p
  unfold Field.steady at hb hr ⊢
  rcases hf with hf | hf <;> rw [hf]
  · exact ⟨hb, hbq, hbn⟩
  · exact ⟨hr, hrq, hrn⟩

theorem framed_reqShown (h : Framed u qs s t) (p : Fin 2) (r : ℕ) (open_ : Bool) (slice : ℕ) (k : .io ∈ u) (hq : 15 ∈ qs) :
    Framed u qs s (reqShown p r open_ slice t) := by
  have hoff {f : Field} (hf : f.off = (Fd.MONI_HK_REQ_BUSY p).off ∨ f.off = (Fd.MONI_HK_REQ_RES_RESULT p).off) :
      f.off / 0x200000 ∈ qs := by
    obtain ⟨-, hregion, -⟩ := req_steady p hf
    rw [hregion]
    exact hq
  exact ((((h.set _ _ k (hoff (.inl rfl))).set (Fd.MONI_HK_REQ_DONE p) _ k (hoff (.inl rfl))).set
      (Fd.MONI_HK_REQ_RES_RESULT p) _ k
    (hoff (.inr rfl))).setBit (Fd.MONI_HK_REQ_RES_OPEN p) _ k (hoff (.inr rfl))).set (Fd.MONI_HK_REQ_RES_SLICE p) _ k
        (hoff (.inr rfl))

/-- The conversion of a request (R365). -/
theorem conversion_request {result : BitVec 12} {c : HkConv} {rest : List HkConv} {b : HkBusy} {more : List HkBusy} (p : Fin 2)
    (hhk : s.moni.hk = c :: rest) (hbusy : s.moni.busy = b :: more) (hclock : s.clockOk (b.start + usTicks 1) = true)
    (hport : c.port = some p.val) : ∃ t, exec (.hkConversion result) s = .next t ∧
    ((c.input < 24 ∨ 35 < c.input) → s.within [.io, .emt, .safe, .moni, .chip] t ∧ s.onlyRegions [0, 3, 15, 18] t) ∧
    t.get (Fd.MONI_HK_REQ_BUSY p) = 0 ∧ t.get (Fd.MONI_HK_REQ_DONE p) = 1 ∧ t.get (Fd.MONI_HK_REQ_RES_RESULT p) = result.toNat ∧
    t.get (Fd.MONI_HK_REQ_RES_SLICE p) = b.slice % 4 ∧ t.get (Fd.MONI_HK_REQ_RES_OPEN p) = if b.open_ then 1 else 0 := by
  obtain ⟨hparts, hreg, -⟩ := converted_shows rest more (b.start + usTicks 1) s
  have hframe : Framed [.io, .emt, .safe, .moni, .chip] [0, 3, 15, 18] s (converted rest more (b.start + usTicks 1) s) :=
    ⟨hparts.mono (by decide), fun a _ _ _ => hreg a⟩
  generalize hs1 : converted rest more (b.start + usTicks 1) s = s1 at hframe
  have hexec : exec (.hkConversion result) s = .next ((s1.reqResult p c result.toNat b.open_ b.slice).hkFill.endHk) := by
    rw [← hs1]
    change execHkConversion result s = _
    unfold execHkConversion
    rw [hhk, hbusy]
    dsimp only
    rw [hclock, hport]
    rfl
  obtain ⟨hbusy', hdone, hresult, hslice, hopen⟩ := reqShown_shows (p := p.val) result.isLt b.open_ b.slice s1
  have hfill := hkFill_filled (s1.reqResult p c result.toNat b.open_ b.slice)
  have hget {f : Field} (hf : f.off = (Fd.MONI_HK_REQ_BUSY p).off ∨ f.off = (Fd.MONI_HK_REQ_RES_RESULT p).off) :
      (s1.reqResult p c result.toNat b.open_ b.slice).hkFill.endHk.get f = (reqShown p result.toNat b.open_ b.slice s1).get
          f := by
    obtain ⟨hp, hregion, hrun⟩ := req_steady p hf
    refine (get_endHk hp hrun _).trans ((hfill.get f).trans ?_)
    rw [reqResult_eq]
    exact (framed_reading c.input _ _).get hp (by rw [hregion]; decide)
  refine ⟨_, hexec, fun hin => ?_, (hget (.inl rfl)).trans hbusy', (hget (f := Fd.MONI_HK_REQ_DONE p) (.inl rfl)).trans hdone,
    (hget (.inr rfl)).trans hresult, (hget (f := Fd.MONI_HK_REQ_RES_SLICE p) (.inr rfl)).trans hslice,
    (hget (f := Fd.MONI_HK_REQ_RES_OPEN p) (.inr rfl)).trans hopen⟩
  have hreq : Framed [.io, .emt, .safe, .moni, .chip] [0, 3, 15, 18] s (s1.reqResult p c result.toNat b.open_ b.slice) := by
    rw [reqResult_eq]
    exact (framed_reqShown hframe p _ _ _ (by decide) (by decide)).trans
        ((framed_reading_other hin _ _).mono (by decide) (by decide))
  obtain ⟨hp, hr⟩ := framed_endHk (hfill.framed hreq (by decide)) (by decide) (by decide) (by decide)
  exact ⟨hp, hr⟩

/-- The conversion that a request asks for. -/
def reqConv (p : ℕ) (s : State) : HkConv := { port := some p, input := s.get (Fd.MONI_HK_REQ_INPUT p) }

/-- The request taken: its GO is clear and it is busy. -/
def reqTaken (p : ℕ) (s : State) : State := (s.set (Fd.MONI_HK_REQ_GO p) 0).set (Fd.MONI_HK_REQ_BUSY p) 1

theorem req_apart (p : ℕ) : (Fd.MONI_HK_REQ_BUSY p).apart (Fd.MONI_HK_REQ_GO p) = true ∧
    (Fd.MONI_HK_REQ_GO p).apart (Fd.MONI_HK_REQ_BUSY p) = true := by
  simp [Field.apart, Fd.MONI_HK_REQ_BUSY, Fd.MONI_HK_REQ_GO]

theorem req_fits (p : ℕ) : (Fd.MONI_HK_REQ_GO p).lo ≤ (Fd.MONI_HK_REQ_GO p).hi ∧ (Fd.MONI_HK_REQ_GO p).hi < 32 ∧
    (Fd.MONI_HK_REQ_BUSY p).lo ≤ (Fd.MONI_HK_REQ_BUSY p).hi ∧ (Fd.MONI_HK_REQ_BUSY p).hi < 32 := by
  simp [Fd.MONI_HK_REQ_BUSY, Fd.MONI_HK_REQ_GO]

theorem reqTaken_shows (p : ℕ) (s : State) : (reqTaken p s).get (Fd.MONI_HK_REQ_BUSY p) = 1 ∧ (reqTaken p s).get
    (Fd.MONI_HK_REQ_GO p) = 0 := by
  obtain ⟨hgl, hgh, hbl, hbh⟩ := req_fits p
  refine ⟨(State.get_set _ _ _ hbl hbh).trans (by simp [Fd.MONI_HK_REQ_BUSY]), ?_⟩
  rw [reqTaken, State.get_set_apart _ _ (req_apart p).1, State.get_set _ _ _ hgl hgh]
  exact Nat.zero_mod _

/-- What a request leaves and shows, whatever the way it takes. -/
structure Requested (p : Fin 2) (s t : State) : Prop where
  parts : s.within [.io, .moni] t
  regs : s.onlyRegs [(Fd.MONI_HK_REQ_GO p).off] t
  busy : t.get (Fd.MONI_HK_REQ_BUSY p) = 1
  go : t.get (Fd.MONI_HK_REQ_GO p) = 0

theorem requested_taken (p : Fin 2) (s : State) (g : Moni → Moni) : Requested p s ((reqTaken p s).moni' g) := by
  obtain ⟨hbusy, hgo⟩ := reqTaken_shows p s
  unfold reqTaken at hbusy hgo ⊢
  exact ⟨(((State.within_refl s _).set _ _).set _ _).moni_upd _, (((State.onlyRegs_refl s _).set (Fd.MONI_HK_REQ_GO p) _
    (.head _)).set (Fd.MONI_HK_REQ_BUSY p) _ (.head _)).moni_upd _, (State.get_moni_upd _ _ _).trans hbusy,
    (State.get_moni_upd _ _ _).trans hgo⟩

theorem Requested.fill {p : Fin 2} (h : Requested p s t) : Requested p s t.hkFill := by
  have hfill := hkFill_filled t
  exact ⟨h.parts.trans (hfill.parts.mono (by decide)), hfill.onlyRegs h.regs, (hfill.get _).trans h.busy,
      (hfill.get _).trans h.go⟩

theorem Requested.count {p : Fin 2} (h : Requested p s t) (r c i n : ℕ) : Requested p s (t.count r c i n) := by
  obtain ⟨hbusy, -⟩ := req_steady p (f := Fd.MONI_HK_REQ_BUSY p) (.inl rfl)
  obtain ⟨hgo, -⟩ := req_steady p (f := Fd.MONI_HK_REQ_GO p) (.inl rfl)
  exact ⟨h.parts.count _ _ _ _, h.regs.count _ _ _ _, (State.get_count _ _ _ _ _ hbusy).trans h.busy,
    (State.get_count _ _ _ _ _ hgo).trans h.go⟩

theorem mem_urgentPlace (c : HkConv) (s : State) : c ∈ s.urgentPlace c := by
  unfold State.urgentPlace
  simp

/-- The state with the request's conversion in its place: before the others, after the sequence, or in the queue. -/
def placed (p : ℕ) (s : State) : State :=
  if s.is (Fd.MONI_HK_REQ_URGENT p) then
    ((reqTaken p s).moni' fun m => { m with hk := s.urgentPlace (reqConv p s) }).hkFill.count 15 Src.MONI_HK_URGENT 0 1
  else if s.is Fd.MONI_HK_STAT_RUNNING then (reqTaken p s).moni' fun m => { m with hkWait := m.hkWait ++ [reqConv p s] }
  else ((reqTaken p s).moni' fun m => { m with hk := m.hk ++ [reqConv p s] }).hkFill

theorem hkRequest_placed {p : ℕ} (hbusy : s.get (Fd.MONI_HK_REQ_BUSY p) = 0) (hrun : s.restarting 15 = false) :
    s.hkRequest p = placed p s := if_neg (by rw [is_false hbusy, hrun]; decide)

/-- A request that is not busy takes its place in the queue, or waits for the sequence. -/
theorem hkRequest_free (p : Fin 2) (hbusy : s.get (Fd.MONI_HK_REQ_BUSY p) = 0) (hrun : s.restarting 15 = false) :
    Requested p s (s.hkRequest p) ∧ reqConv p s ∈ (s.hkRequest p).moni.hk ++ (s.hkRequest p).moni.hkWait := by
  rw [hkRequest_placed hbusy hrun, placed]
  split
  · refine ⟨((requested_taken p s _).fill).count _ _ _ _, List.mem_append_left _ ?_⟩
    rw [State.count_moni, (hkFill_filled _).hk]
    exact mem_urgentPlace _ s
  · split
    · refine ⟨requested_taken p s _, List.mem_append_right _ ?_⟩
      rw [State.moni_upd_moni]
      exact List.mem_append_right _ (.head _)
    · refine ⟨(requested_taken p s _).fill, List.mem_append_left _ ?_⟩
      rw [(hkFill_filled _).hk, State.moni_upd_moni]
      exact List.mem_append_right _ (.head _)

/-- A request that is busy has its command cleared, and no more. -/
theorem hkRequest_busy (p : Fin 2) (hbusy : s.get (Fd.MONI_HK_REQ_BUSY p) = 1) : Requested p s (s.hkRequest p) ∧ s.within
    [.io] (s.hkRequest p) := by
  obtain ⟨hgl, hgh, -, -⟩ := req_fits p
  have heq : s.hkRequest p = s.set (Fd.MONI_HK_REQ_GO p) 0 := if_pos (by rw [is_true hbusy]; rfl)
  have hparts : s.within [.io] (s.set (Fd.MONI_HK_REQ_GO p) 0) := (State.within_refl s _).set _ _
  rw [heq]
  exact ⟨⟨hparts.mono (by decide), (State.onlyRegs_refl s _).set _ _ (.head _),
      (State.get_set_apart _ _ (req_apart p).2).trans hbusy,
    (State.get_set _ _ _ hgl hgh).trans (Nat.zero_mod _)⟩, hparts⟩

theorem hkRequest_shows (p : Fin 2) (hrun : s.restarting 15 = false) : Requested p s (s.hkRequest p) := by
  have hbit : s.get (Fd.MONI_HK_REQ_BUSY p) < 2 := (Io.get_lt s.io _).trans_eq (by simp [Fd.MONI_HK_REQ_BUSY])
  by_cases hbusy : s.get (Fd.MONI_HK_REQ_BUSY p) = 0
  · exact (hkRequest_free p hbusy hrun).1
  · exact (hkRequest_busy p (by omega)).1

theorem not_restarting {p : Fin 2} {both : Bool} (h : s.admits (.hkReqGo p both) = true) : s.restarting 15 = false := by
  have hgate : (s.powered && !s.gated (Fd.MONI_HK_REQ_GO p).off) = true := h
  have hregion : regionOf (Fd.MONI_HK_REQ_GO p).off = 15 := by
    clear * -
    revert p
    decide
  rw [Bool.and_eq_true, Bool.not_eq_true'] at hgate
  obtain ⟨-, hgated⟩ := hgate
  unfold State.gated at hgated
  simp only [Bool.or_eq_false_iff] at hgated
  rw [← hregion]
  exact hgated.1.1

theorem exec_hkReqGo {p : Fin 2} {both : Bool} (h : s.admits (.hkReqGo p both) = true) :
    exec (.hkReqGo p both) s = .next (if both then (s.hkRequest 0).hkRequest 1 else s.hkRequest p) := by
  change execHkReqGo p both s = _
  unfold execHkReqGo
  exact State.writeRow_admitted h

theorem hkReqGo_free (p : Fin 2) (h : s.admits (.hkReqGo p false) = true) (hbusy : s.get (Fd.MONI_HK_REQ_BUSY p) = 0) :
    ∃ t, exec (.hkReqGo p false) s = .next t ∧ s.within [.io, .moni] t ∧ s.onlyRegs [(Fd.MONI_HK_REQ_GO p).off] t ∧
      t.get (Fd.MONI_HK_REQ_BUSY p) = 1 ∧ t.get (Fd.MONI_HK_REQ_GO p) = 0 ∧ reqConv p s ∈ t.moni.hk ++ t.moni.hkWait := by
  obtain ⟨⟨hparts, hregs, hb, hg⟩, hmem⟩ := hkRequest_free p hbusy (not_restarting h)
  exact ⟨_, exec_hkReqGo h, hparts, hregs, hb, hg, hmem⟩

theorem hkReqGo_busy (p : Fin 2) (h : s.admits (.hkReqGo p false) = true) (hbusy : s.get (Fd.MONI_HK_REQ_BUSY p) = 1) :
    ∃ t, exec (.hkReqGo p false) s = .next t ∧ s.within [.io] t ∧ s.onlyRegs [(Fd.MONI_HK_REQ_GO p).off] t ∧
      t.get (Fd.MONI_HK_REQ_BUSY p) = 1 ∧ t.get (Fd.MONI_HK_REQ_GO p) = 0 := by
  obtain ⟨⟨-, hregs, hb, hg⟩, hparts⟩ := hkRequest_busy p hbusy
  exact ⟨_, exec_hkReqGo h, hparts, hregs, hb, hg⟩

/-- Two requests at once: the second leaves what the first shows. -/
theorem hkReqGo_both (p : Fin 2) (h : s.admits (.hkReqGo p true) = true) : ∃ t, exec (.hkReqGo p true) s = .next t ∧
    s.within [.io, .moni] t ∧ ∀ q : Fin 2, t.get (Fd.MONI_HK_REQ_BUSY q) = 1 ∧ t.get (Fd.MONI_HK_REQ_GO q) = 0 := by
  have hrun := not_restarting h
  obtain ⟨hparts, hregs, hbusy, hgo⟩ := hkRequest_shows 0 hrun
  have hrun' : (s.hkRequest (0 : Fin 2)).restarting 15 = false :=
    (congrArg (· == 1) (hregs.steady (f := Fd.CHIP_RESTARTING_MASK.bit 15) (by decide) (by decide))).trans hrun
  obtain ⟨hparts', hregs', hbusy', hgo'⟩ := hkRequest_shows 1 hrun'
  have hkeep {f : Field} (hp : f.steady = true) (hf : f.off = (Fd.MONI_HK_REQ_BUSY (0 : Fin 2)).off) :
      ((s.hkRequest (0 : Fin 2)).hkRequest (1 : Fin 2)).get f = (s.hkRequest (0 : Fin 2)).get f :=
    hregs'.steady (by rw [hf]; decide) hp
  refine ⟨_, exec_hkReqGo h, hparts.trans hparts', fun q => ?_⟩
  match q with
  | 0 => exact ⟨(hkeep (by decide) rfl).trans hbusy, (hkeep (f := Fd.MONI_HK_REQ_GO (0 : Fin 2)) (by decide) rfl).trans hgo⟩
  | 1 => exact ⟨hbusy', hgo'⟩

/-! ## The slices' rotation and failures (R366) -/

/-- The slices after their rotation. -/
def rotated (a b cal : ℕ) (s : State) : State :=
  (s.set Fd.MONI_HK_STAT_ACT_A a |>.set Fd.MONI_HK_STAT_ACT_B b |>.set Fd.MONI_HK_STAT_CAL cal).count 15 Src.MONI_SLICE_ROT 0 1

theorem rotated_shows {a b cal : ℕ} (ha : a < 4) (hb : b < 4) (hcal : cal < 4) (s : State) :
    (rotated a b cal s).get Fd.MONI_HK_STAT_ACT_A = a ∧ (rotated a b cal s).get Fd.MONI_HK_STAT_ACT_B = b ∧
      (rotated a b cal s).get Fd.MONI_HK_STAT_CAL = cal := by
  unfold rotated
  refine ⟨?_, ?_, ?_⟩ <;> rw [State.get_count _ _ _ _ _ (by decide)]
  · rw [State.get_set_apart _ _ (by decide), State.get_set_apart _ _ (by decide), State.get_set _ _ _ (by decide) (by decide)]
    exact Nat.mod_eq_of_lt ha
  · rw [State.get_set_apart _ _ (by decide), State.get_set _ _ _ (by decide) (by decide)]
    exact Nat.mod_eq_of_lt hb
  · rw [State.get_set _ _ _ (by decide) (by decide)]
    exact Nat.mod_eq_of_lt hcal

theorem slice_lt (s : State) : s.get Fd.MONI_HK_STAT_ACT_A < 4 ∧ s.get Fd.MONI_HK_STAT_ACT_B < 4 ∧ s.get Fd.MONI_HK_STAT_CAL
    < 4 :=
  ⟨Io.get_lt s.io _, Io.get_lt s.io _, Io.get_lt s.io _⟩

/-- The tick from which the slices may change places. -/
abbrev rotTick (s : State) : Wide := s.moni.rotAt + BitVec.ofNat 64 (max 20 (s.get Fd.MONI_HK_ROT_ROT) * ticksPerMs)

/-- The state after the rotation. -/
def turned (s : State) : State :=
  (rotated (s.get Fd.MONI_HK_STAT_ACT_B) (s.get Fd.MONI_HK_STAT_CAL) (s.get Fd.MONI_HK_STAT_ACT_A)
      (s.clockReach (rotTick s))).moni'
    fun m => { m with rotAt := (s.clockReach (rotTick s)).tick }

theorem exec_hkRotate (h : s.admits .hkRotate = true) (hrun : s.restarting 15 = false) (hcal : s.get Fd.MONI_HK_STAT_CAL ≠ 3)
    (hclock : s.clockOk (rotTick s) = true) : exec .hkRotate s = .next (turned s) := by
  have hcond : ¬(s.get Fd.MONI_HK_STAT_CAL = 3 ∨ s.restarting 15 = true ∨ (!s.clockOk (rotTick s)) = true) := by
    rw [hrun, hclock]
    simpa using hcal
  change execHkRotate s = _
  exact (State.whenOn_powered h).trans (if_neg hcond)

theorem hkRotate_passes (h : s.admits .hkRotate = true) (hrun : s.restarting 15 = false) (hcal : s.get Fd.MONI_HK_STAT_CAL ≠ 3)
    (hclock : s.clockOk (rotTick s) = true) :
    ∃ t, exec .hkRotate s = .next t ∧ s.within [.io, .moni] t ∧ s.onlyRegs [Fd.MONI_HK_STAT_CAL.off] t ∧
      t.get Fd.MONI_HK_STAT_ACT_A = s.get Fd.MONI_HK_STAT_ACT_B ∧ t.get Fd.MONI_HK_STAT_ACT_B = s.get Fd.MONI_HK_STAT_CAL ∧
      t.get Fd.MONI_HK_STAT_CAL = s.get Fd.MONI_HK_STAT_ACT_A ∧ t.moni.rotAt = (s.clockReach (rotTick s)).tick := by
  obtain ⟨ha, hb, hc⟩ := slice_lt s
  obtain ⟨hact, hbct, hcct⟩ := rotated_shows hb hc ha (s.clockReach (rotTick s))
  refine ⟨_, exec_hkRotate h hrun hcal hclock, ?_, ?_, (State.get_moni_upd _ _ _).trans hact,
      (State.get_moni_upd _ _ _).trans hbct,
    (State.get_moni_upd _ _ _).trans hcct, ?_⟩ <;> unfold turned
  · unfold rotated
    exact ((((((State.within_refl s _).clockReach _).set _ _).set _ _).set _ _).count _ _ _ _).moni_upd _
  · unfold rotated
    exact ((((((State.onlyRegs_refl s _).clockReach _).set Fd.MONI_HK_STAT_ACT_A _ (.head _)).set Fd.MONI_HK_STAT_ACT_B _
      (.head _)).set Fd.MONI_HK_STAT_CAL _ (.head _)).count _ _ _ _).moni_upd _
  · rw [State.moni_upd_moni]

/-- The slice in calibration fails: it is lost, and the other two go on. -/
theorem sliceFail_calibrating (n : Fin 3) (h : s.get Fd.MONI_HK_STAT_CAL = n) : ∃ t, exec (.hkSliceFail n) s = .next t ∧
    t.get Fd.MONI_HK_STAT_CAL = 3 ∧ t.get Fd.MONI_HK_STAT_SLICE_FAIL = 1 ∧
    t.get Fd.MONI_HK_STAT_ACT_A = s.get Fd.MONI_HK_STAT_ACT_A ∧ t.get Fd.MONI_HK_STAT_ACT_B = s.get Fd.MONI_HK_STAT_ACT_B := by
  refine ⟨_, if_pos h, ?_, ?_, ?_, ?_⟩ <;> rw [State.get_err _ _ (by decide)]
  · rw [State.get_set_apart _ _ (by decide), State.get_set _ _ _ (by decide) (by decide)]
    rfl
  · rw [State.get_set _ _ _ (by decide) (by decide)]
    rfl
  · rw [State.get_set_apart _ _ (by decide), State.get_set_apart _ _ (by decide)]
  · rw [State.get_set_apart _ _ (by decide), State.get_set_apart _ _ (by decide)]

/-- What the discard of MONI's work at its restart leaves of the failure and of the slices. -/
structure Discarded (s t : State) : Prop where
  parts : s.within [.io, .moni] t
  fail : t.get Fd.MONI_HK_STAT_SLICE_FAIL = s.get Fd.MONI_HK_STAT_SLICE_FAIL
  one : t.moni.hkOne = s.moni.hkOne

theorem Discarded.set (h : Discarded s t) {f : Field} (n : ℕ) (k : f.apart Fd.MONI_HK_STAT_SLICE_FAIL = true) :
    Discarded s (t.set f n) := ⟨h.parts.set _ _, (State.get_set_apart _ _ k).trans h.fail, h.one⟩

theorem discarded_discardMoni (s : State) : Discarded s s.discardMoni := by
  have hmoni (g : Moni → Moni) (hg : (g s.moni).hkOne = s.moni.hkOne) : Discarded s (s.moni' g) :=
    ⟨(State.within_refl s _).moni_upd _, rfl, hg⟩
  have heach {v : State} (hv : Discarded s v) (l : List ℕ) (f : ℕ → State → State)
      (hf : ∀ m w, Discarded s w → Discarded s (f m w)) :
      Discarded s (v.each l f) := foldl_keeps (fun w : State => Discarded s w) _ (fun w m => hf m w) l v hv
  have hin (m : ℕ) : (Fd.MONI_IN_LAST_UNSET m).apart Fd.MONI_HK_STAT_SLICE_FAIL = true ∧
      (Fd.MONI_IN_STAT_SETTLING m).apart Fd.MONI_HK_STAT_SLICE_FAIL = true ∧
      (Fd.MONI_SNS_LAST_UNSET m).apart Fd.MONI_HK_STAT_SLICE_FAIL = true := by
    refine ⟨Field.apart_of_off ?_, Field.apart_of_off ?_, Field.apart_of_off ?_⟩ <;>
      simp only [Fd.MONI_HK_STAT_SLICE_FAIL, Fd.MONI_IN_LAST_UNSET, Fd.MONI_IN_STAT_SETTLING, Fd.MONI_SNS_LAST_UNSET] <;> omega
  unfold State.discardMoni
  refine Discarded.set (Discarded.set (Discarded.set (Discarded.set
      (heach (heach (hmoni _ rfl) _ _ fun m w hw => ?_) _ _ fun m w hw => ?_)
    _ (by decide)) _ (by decide)) _ (by decide)) _ (by decide)
  · obtain ⟨hunset, hsettling, -⟩ := hin m
    exact (hw.set _ hunset).set _ hsettling
  · obtain ⟨-, -, hunset⟩ := hin m
    exact hw.set _ hunset

/-- A restart of MONI is in progress after its start, and the failure of a slice stays noted. -/
theorem startRestart_shows (s : State) : (s.startRestart 0 15).restarting 15 = true ∧
    (s.startRestart 0 15).get Fd.MONI_HK_STAT_SLICE_FAIL = s.get Fd.MONI_HK_STAT_SLICE_FAIL ∧
    (s.startRestart 0 15).moni.hkOne = s.moni.hkOne := by
  by_cases hrun : s.restarting 15 = true
  · have hsame : s.startRestart 0 15 = s := if_pos (by rw [hrun, Bool.or_true])
    rw [hsame]
    exact ⟨hrun, rfl, rfl⟩
  · obtain ⟨-, hfail, hone⟩ := discarded_discardMoni s
    obtain ⟨hheld, hparts, hget⟩ := Restarts.startRestart_shows (s := s) (r := 15) 0 (by decide) (by decide) (by simpa using hrun)
    have hmoni : (s.startRestart 0 15).moni = (s.discard 15).moni := hparts.same .moni (by decide)
    exact ⟨hheld, (hget _ (by decide) (by decide) (by decide)).trans hfail, (congrArg Moni.hkOne hmoni).trans hone⟩

/-- A second slice fails: the one that is left goes on, and the region restarts. -/
theorem sliceFail_second (n : Fin 3) (hcal : s.get Fd.MONI_HK_STAT_CAL = 3) (hone : s.moni.hkOne = false)
    (hact : s.get Fd.MONI_HK_STAT_ACT_A = n ∨ s.get Fd.MONI_HK_STAT_ACT_B = n) : ∃ t, exec (.hkSliceFail n) s = .next t ∧
    t.restarting 15 = true ∧ t.get Fd.MONI_HK_STAT_SLICE_FAIL = 1 ∧ t.moni.hkOne = true := by
  have hcond : s.get Fd.MONI_HK_STAT_CAL = 3 ∧ (!s.moni.hkOne) = true ∧
      (s.get Fd.MONI_HK_STAT_ACT_A = n.val ∨ s.get Fd.MONI_HK_STAT_ACT_B = n.val) := ⟨hcal, by rw [hone]; rfl, hact⟩
  have hne : ¬s.get Fd.MONI_HK_STAT_CAL = n.val := by
    have := n.isLt
    omega
  obtain ⟨hrun, hfail, hkept⟩ := startRestart_shows (((s.set Fd.MONI_HK_STAT_ACT_A (if s.get Fd.MONI_HK_STAT_ACT_A = n.val then
    s.get Fd.MONI_HK_STAT_ACT_B else s.get Fd.MONI_HK_STAT_ACT_A)).set Fd.MONI_HK_STAT_SLICE_FAIL 1).moni' fun m =>
        { m with hkOne := true })
  refine ⟨_, (if_neg hne).trans (if_pos hcond), hrun, hfail.trans ?_, hkept⟩
  rw [State.get_moni_upd]
  exact State.get_set _ _ _ (by decide) (by decide)

/-- Settles O40: each event of housekeeping by its own lemma. -/
theorem housekeepingCompletes : Obligations.HousekeepingCompletes := by
  unfold Obligations.HousekeepingCompletes
  refine ⟨fun s => sequence_once, fun s => sequence_periodic, fun result c rest b more s => conversion_last,
    fun result c rest b more s => conversion_more, fun result c rest b more p s hhk hbusy hclock hport hp =>
      conversion_request ⟨p, hp⟩ hhk hbusy hclock hport, fun p s => hkReqGo_free p, fun p s => hkReqGo_busy p, fun p s =>
          hkReqGo_both p,
    fun s => hkRotate_passes, fun n s => sliceFail_calibrating n, fun n s => sliceFail_second n⟩

end Sys2Proof.Machine.Housekeeping
end

section
/-!
SETTLES O31. Settings of the histogram engine and of the filter: a stall's spare, the motion, a kernel, a filter's restart
    (R240, R247, R254, R255, R261).
-/
-- One thread for the lemmas: a thread for each would ask for more memory than a build may have.
set_option Elab.async false

namespace Sys2Proof.Machine.EngineSettings
open Sys2Proof.Machine

variable {s t : State} {n : Fin 4}

/-! ## A discard of HST's work -/

/-- What a discard of HST's work leaves: it writes one field of the filter's status. -/
theorem get_discardHst {f : Field} (hp : f.steady = true) (h : (Fd.HST_FLT_STAT_PAL_BUSY n).apart f = true) (s : State) :
    (s.discardHst n).get f = s.get f := by
  have heach {α : Type} (l : List α) (g : α → State → State) (v : State) (hg : ∀ x w, (g x w).get f = w.get f) :
      (v.each l g).get f = v.get f :=
    List.foldlRecOn (motive := fun w : State => w.get f = v.get f) l _ rfl fun w hw x _ => (hg x w).trans hw
  unfold State.discardHst State.showPalettes
  refine (State.get_set_apart _ _ h).trans ?_
  change ((s.each _ _).each _ _).get f = _
  rw [heach _ _ _ fun _ w => State.get_count w _ _ _ _ hp]
  exact heach _ _ _ fun _ w => State.get_count w _ _ _ _ hp

theorem hst_region (n : Fin 4) : restartsAlone (8 + n) = true ∧ (8 + n.val) ≠ 16 := by
  revert n
  decide

theorem discard_hst (n : Fin 4) (s : State) : s.discard (8 + n) = s.discardHst n := by
  fin_cases n <;> rfl

/-- A restart of HST's region keeps a steady field of its registers, but for the filter's busy palettes. -/
theorem startRestart_hst (attempts : ℕ) (s : State) : (s.startRestart attempts (8 + n)).restarting (8 + n) = true ∧
    ∀ f : Field, f.steady = true → f.off / 0x200000 = 8 + n → f.off ≠ (Fd.RGN_STAT_RESTARTING (8 + n)).off →
      (Fd.HST_FLT_STAT_PAL_BUSY n).apart f = true → (s.startRestart attempts (8 + n)).get f = s.get f := by
  obtain ⟨halone, hne⟩ := hst_region n
  by_cases hrun : s.restarting (8 + n) = true
  · have hsame : s.startRestart attempts (8 + n) = s := if_pos (by rw [hrun, Bool.or_true])
    rw [hsame]
    exact ⟨hrun, fun _ _ _ _ _ => rfl⟩
  · obtain ⟨hheld, -, hget⟩ := Restarts.startRestart_shows (s := s) attempts halone hne (by simpa using hrun)
    refine ⟨hheld, fun f hp hregion hstat hbusy => ?_⟩
    have hout : f.off / 0x200000 ∉ [0, 3, 14, 18] := by
      rw [hregion]
      clear * -
      revert n
      decide
    rw [hget f hp hout hstat, discard_hst]
    exact get_discardHst hp hbusy s

/-! ## A stall's spare -/

theorem exec_stallRetire (h : s.admits (.stallRetireCmd n) = true) : exec (.stallRetireCmd n) s
    = .next ((s.set (Fd.HST_SPARE_CMD_GO n) 0).retireStall (256 * n + s.get (Fd.HST_SPARE_CMD_CHAN n))) := by
  change execStallRetireCmd n s = _
  unfold execStallRetireCmd
  exact State.writeRow_admitted h

/-- The channel that the command names. -/
abbrev spareChan (n : Fin 4) (s : State) : ℕ := 256 * n + s.get (Fd.HST_SPARE_CMD_CHAN n)

theorem spareChan_div (n : Fin 4) (s : State) : spareChan n s / 256 = n := by
  have hlt : s.get (Fd.HST_SPARE_CMD_CHAN n) < 256 := Io.get_lt s.io (Fd.HST_SPARE_CMD_CHAN n)
  unfold spareChan
  omega

/-- The command cleared. -/
def taken (n : Fin 4) (s : State) : State := s.set (Fd.HST_SPARE_CMD_GO n) 0

theorem get_taken {f : Field} (hf : f.off ≠ (Fd.HST_SPARE_CMD_GO n).off) (s : State) : (taken n s).get f = s.get f :=
  State.get_set_off _ _ hf

theorem is_taken {f : Field} (hf : f.off ≠ (Fd.HST_SPARE_CMD_GO n).off) (s : State) : (taken n s).is f = s.is f :=
  congrArg (· == 1) (get_taken hf s)

theorem hst_taken (n : Fin 4) (s : State) : (taken n s).hst = s.hst := State.set_hst _ _ _

theorem spare_off (n : Fin 4) (p : ℕ) : (Fd.HST_STALL_SPARE_ACTIVE n p).off ≠ (Fd.HST_SPARE_CMD_GO n).off := by
  simp only [Fd.HST_STALL_SPARE_ACTIVE, Fd.HST_SPARE_CMD_GO]
  omega

theorem freeSpare_taken (n : Fin 4) (s : State) : (taken n s).freeSpare n = s.freeSpare n := by
  unfold State.freeSpare
  rw [hst_taken]
  refine congrArg (fun g => List.find? g (List.range 8)) (funext fun p => ?_)
  rw [is_taken (spare_off n p), is_taken (f := Fd.HST_STALL_SPARE_RETIRED n p) (spare_off n p)]

theorem stallOf_taken (n : Fin 4) {c : ℕ} (hc : c / 256 = n) (s : State) : (taken n s).stallOf c = s.stallOf c := by
  have hserves (p k : ℕ) : (taken n s).spareServes n p k = s.spareServes n p k := by
    unfold State.spareServes
    rw [is_taken (spare_off n p), get_taken (f := Fd.HST_STALL_SPARE_CHAN n p) (spare_off n p)]
  unfold State.stallOf
  rw [hc]
  simp only [hserves]

theorem go_taken (n : Fin 4) (s : State) : (taken n s).get (Fd.HST_SPARE_CMD_GO n) = 0 :=
  (State.get_set _ _ _ (by simp [Fd.HST_SPARE_CMD_GO]) (by simp [Fd.HST_SPARE_CMD_GO])).trans (Nat.zero_mod _)

theorem stallOf_lt (c : ℕ) (s : State) : s.stallOf c < 264 := by
  unfold State.stallOf
  split
  next p hp =>
    have hmem := List.mem_range.mp (List.mem_of_find?_eq_some hp)
    omega
  next => omega

/-- The register in which a stall is marked as retired. -/
theorem stRetired_at (n : Fin 4) {p : ℕ} (hp : p < 264) : 0x01030000 ≤ (stRetired n p).off ∧ (stRetired n p).off < 0x01631000 ∧
    (stRetired n p).off % 0x200000 < 0x31000 ∧ 0x30000 ≤ (stRetired n p).off % 0x200000 ∧ (stRetired n p).lo =
        (stRetired n p).hi ∧
    (stRetired n p).hi < 32 ∧ (stRetired n p).off / 0x200000 = 8 + n := by
  have hn := n.isLt
  unfold stRetired
  split <;> simp only [Fd.HST_STALL_RETIRED, Fd.HST_STALL_SPARE_RETIRED, true_and] <;> omega

/-- A register of HST that is not among the alarms'. -/
theorem steady_of_hst {f : Field} (hlo : 0x01000000 ≤ f.off) (hhi : f.off < 0x01800000) (hlow : f.off % 0x200000 < 0xF0000) :
    f.steady = true := by
  have halarm : alarmReg f.off = false := by
    simp only [alarmReg, Bool.or_eq_false_iff, beq_eq_false_iff_ne, decide_eq_false_iff_not]
    omega
  have hlost : f.off ≠ Fd.MGMT_LOG_LOST_COUNT.off := by
    simp only [Fd.MGMT_LOG_LOST_COUNT]
    omega
  simpa [Field.steady, halarm] using hlost

/-- The record of a stall that is retired. -/
def retireErr (n : Fin 4) (p : ℕ) : Err := { level := 1, region := 8 + n, block := 3, code := 0x0013, action := 3, cell := p }

/-- The state with a spare chosen for the channel c. -/
def replaced (n : Fin 4) (c q : ℕ) (s : State) : State :=
  ((s.set (stRetired n (s.stallOf c)) 1 |>.set (Fd.HST_STAT_SPARES n) (s.get (Fd.HST_STAT_SPARES n) - 1)).hst' fun h =>
    { h with subst := ins h.subst c q }).err (retireErr n (s.stallOf c))

theorem retireStall_spare {c q : ℕ} (hc : c / 256 = n) (hnone : look s.hst.subst c = none) (hq : s.freeSpare n = some q) :
    s.retireStall c = replaced n c q s := by
  unfold State.retireStall
  rw [hc, hnone]
  dsimp only
  rw [if_neg (by simp), hq]
  rfl

theorem retireStall_none {c : ℕ} (hc : c / 256 = n) (hnone : look s.hst.subst c = none) (hq : s.freeSpare n = none) :
    s.retireStall c = (s.set (Fd.HST_STAT_NOSPARE n) 1).startRestart 0 (8 + n) := by
  unfold State.retireStall
  rw [hc, hnone]
  dsimp only
  rw [if_neg (by simp), hq]

theorem replaced_shows {c q : ℕ} (s : State) :
    s.within [.io, .hst] (replaced n c q s) ∧ s.onlyRegions [0, 8, 9, 10, 11] (replaced n c q s) ∧
      look (replaced n c q s).hst.subst c = some q ∧ (replaced n c q s).get (stRetired n (s.stallOf c)) = 1 ∧
      (replaced n c q s).get (Fd.HST_STAT_SPARES n) = s.get (Fd.HST_STAT_SPARES n) - 1 ∧
      (replaced n c q s).get (Fd.HST_SPARE_CMD_GO n) = s.get (Fd.HST_SPARE_CMD_GO n) := by
  have hn := n.isLt
  obtain ⟨hlo, hhi, hlow, hat, hone, hfit, hregion⟩ := stRetired_at n (stallOf_lt c s)
  have hsteady : (stRetired n (s.stallOf c)).steady = true := steady_of_hst (by omega) (by omega) (by omega)
  have hspares : (Fd.HST_STAT_SPARES n).steady = true ∧ (Fd.HST_SPARE_CMD_GO n).steady = true ∧
      (Fd.HST_STAT_SPARES n).off / 0x200000 ∈ [0, 8, 9, 10, 11] := by
    clear * -
    revert n
    decide
  obtain ⟨hsp, hgo, hspRegion⟩ := hspares
  have hspOff : (stRetired n (s.stallOf c)).off ≠ (Fd.HST_STAT_SPARES n).off := by
    simp only [Fd.HST_STAT_SPARES]
    omega
  have hgoOff : (Fd.HST_SPARE_CMD_GO n).off ≠ (stRetired n (s.stallOf c)).off ∧
      (Fd.HST_SPARE_CMD_GO n).off ≠ (Fd.HST_STAT_SPARES n).off := by
    simp only [Fd.HST_STAT_SPARES, Fd.HST_SPARE_CMD_GO]
    omega
  have hregions : (stRetired n (s.stallOf c)).off / 0x200000 ∈ [0, 8, 9, 10, 11] := by
    rw [hregion]
    simp only [List.mem_cons, List.not_mem_nil, or_false]
    omega
  have hlt : s.get (Fd.HST_STAT_SPARES n) < 16 := Io.get_lt s.io (Fd.HST_STAT_SPARES n)
  have hframe : Framed [.io, .hst] [0, 8, 9, 10, 11] s (replaced n c q s) :=
    ((((Framed.refl _ _ s).set _ _ (by decide) hregions).set _ _ (by decide) hspRegion).hst_upd _).err _
  unfold replaced at hframe ⊢
  refine ⟨hframe.parts, hframe.regs, ?_, ?_, ?_, ?_⟩
  · rw [State.err_hst, State.hst_upd_hst]
    exact look_ins_same _ _ _
  · rw [State.get_err _ _ hsteady, State.get_hst_upd, State.get_set_off _ _ hspOff, State.get_set _ _ _ hone.le hfit, hone]
    simp
  · rw [State.get_err _ _ hsp, State.get_hst_upd, State.get_set _ _ _ (by simp [Fd.HST_STAT_SPARES])
      (by simp [Fd.HST_STAT_SPARES])]
    exact Nat.mod_eq_of_lt (show _ - 1 < 16 by omega)
  · rw [State.get_err _ _ hgo, State.get_hst_upd, State.get_set_off _ _ hgoOff.2, State.get_set_off _ _ hgoOff.1]

theorem within_taken (n : Fin 4) (s : State) : s.within [.io, .hst] (taken n s) := (State.within_refl s _).set _ _

theorem stallRetire_spare {q : ℕ} (h : s.admits (.stallRetireCmd n) = true) (hnone : look s.hst.subst (spareChan n s) = none)
    (hq : s.freeSpare n = some q) : ∃ t, exec (.stallRetireCmd n) s = .next t ∧ s.within [.io, .hst] t ∧
    s.onlyRegions [0, 8, 9, 10, 11] t ∧ t.get (Fd.HST_SPARE_CMD_GO n) = 0 ∧ look t.hst.subst (spareChan n s) = some q ∧
    t.get (stRetired n (s.stallOf (spareChan n s))) = 1 ∧ t.get (Fd.HST_STAT_SPARES n) = s.get (Fd.HST_STAT_SPARES n) - 1 := by
  have hc := spareChan_div n s
  have hexec : exec (.stallRetireCmd n) s = .next (replaced n (spareChan n s) q (taken n s)) := by
    rw [exec_stallRetire h]
    exact congrArg _ (retireStall_spare (s := taken n s) hc (by rw [hst_taken]; exact hnone)
        (by rw [freeSpare_taken]; exact hq))
  obtain ⟨hparts, hregs, hsubst, hret, hspares, hgo⟩ := replaced_shows (n := n) (c := spareChan n s) (q := q) (taken n s)
  rw [stallOf_taken n hc] at hret
  have hspOff : (Fd.HST_STAT_SPARES n).off ≠ (Fd.HST_SPARE_CMD_GO n).off := by
    simp only [Fd.HST_STAT_SPARES, Fd.HST_SPARE_CMD_GO]
    omega
  have hregion : (Fd.HST_SPARE_CMD_GO n).off / 0x200000 ∈ [0, 8, 9, 10, 11] := by
    clear * -
    revert n
    decide
  have htaken : s.onlyRegions [0, 8, 9, 10, 11] (taken n s) := (State.onlyRegions_refl s _).set _ _ hregion
  refine ⟨_, hexec, (within_taken n s).trans hparts, fun a ha hal hlost => (hregs a ha hal hlost).trans (htaken a ha hal hlost),
    hgo.trans (go_taken n s), hsubst, hret, ?_⟩
  rw [hspares, get_taken hspOff]

theorem stallRetire_none (h : s.admits (.stallRetireCmd n) = true) (hnone : look s.hst.subst (spareChan n s) = none)
    (hq : s.freeSpare n = none) : ∃ t, exec (.stallRetireCmd n) s = .next t ∧ t.get (Fd.HST_SPARE_CMD_GO n) = 0 ∧
    t.get (Fd.HST_STAT_NOSPARE n) = 1 ∧ t.restarting (8 + n) = true := by
  have hc := spareChan_div n s
  have hexec : exec (.stallRetireCmd n) s = .next (((taken n s).set (Fd.HST_STAT_NOSPARE n) 1).startRestart 0 (8 + n)) := by
    rw [exec_stallRetire h]
    exact congrArg _ (retireStall_none (s := taken n s) hc (by rw [hst_taken]; exact hnone) (by rw [freeSpare_taken]; exact hq))
  obtain ⟨hrun, hget⟩ := startRestart_hst (n := n) 0 ((taken n s).set (Fd.HST_STAT_NOSPARE n) 1)
  have hfields : ((Fd.HST_SPARE_CMD_GO n).steady = true ∧ (Fd.HST_STAT_NOSPARE n).steady = true) ∧
      ((Fd.HST_SPARE_CMD_GO n).off / 0x200000 = 8 + n ∧ (Fd.HST_STAT_NOSPARE n).off / 0x200000 = 8 + n) ∧
      ((Fd.HST_SPARE_CMD_GO n).off ≠ (Fd.RGN_STAT_RESTARTING (8 + n)).off ∧
        (Fd.HST_STAT_NOSPARE n).off ≠ (Fd.RGN_STAT_RESTARTING (8 + n)).off) ∧
      ((Fd.HST_FLT_STAT_PAL_BUSY n).apart (Fd.HST_SPARE_CMD_GO n) = true ∧ (Fd.HST_FLT_STAT_PAL_BUSY n).apart
          (Fd.HST_STAT_NOSPARE n) = true) ∧
      (Fd.HST_SPARE_CMD_GO n).off ≠ (Fd.HST_STAT_NOSPARE n).off := by
    clear * -
    revert n
    decide
  obtain ⟨⟨hgs, hns⟩, ⟨hgr, hnr⟩, ⟨hgm, hnm⟩, ⟨hgb, hnb⟩, hgn⟩ := hfields
  refine ⟨_, hexec, ?_, ?_, hrun⟩
  · rw [hget _ hgs hgr hgm hgb, State.get_set_off _ _ hgn]
    exact go_taken n s
  · rw [hget _ hns hnr hnm hnb, State.get_set _ _ _ (by simp [Fd.HST_STAT_NOSPARE]) (by simp [Fd.HST_STAT_NOSPARE])]
    simp [Fd.HST_STAT_NOSPARE]

theorem stallRetire_chosen (h : s.admits (.stallRetireCmd n) = true)
    (hsome : (look s.hst.subst (spareChan n s)).isSome = true) :
    ∃ t, exec (.stallRetireCmd n) s = .next t ∧ s.within [.io] t ∧ s.onlyRegs [(Fd.HST_SPARE_CMD_GO n).off] t ∧
      t.get (Fd.HST_SPARE_CMD_GO n) = 0 := by
  have hsame : (taken n s).retireStall (spareChan n s) = taken n s := if_pos (by rw [hst_taken]; exact hsome)
  exact ⟨taken n s, (exec_stallRetire h).trans (congrArg _ hsame), (State.within_refl s _).set _ _,
    (State.onlyRegs_refl s _).set _ _, go_taken n s⟩

/-! ## The motion -/

/-- The motion as the registers give it, in effect 4 µs from now. -/
def publishedMotion (s : State) : Motion :=
  { vx := signed 32 (s.get Fd.MEMC_STK_VX_V), vy := signed 32 (s.get Fd.MEMC_STK_VY_V)
    vz := signed 32 (s.get Fd.MEMC_STK_VZ_V), yaw := signed 32 (s.get Fd.MEMC_STK_YAW_W), eff := s.tick + 512000 }

/-- The motions kept behind it: those not yet in effect, and the one in effect. -/
def keptMotions (s : State) : List Motion :=
  s.memc.motion.filter (fun x => before s.tick x.eff) ++ (s.memc.motion.filter fun x => !before s.tick x.eff).take 1

/-- The state with a list of motions and the tick of the first shown. -/
def showMotion (l : List Motion) (w : Wide) (s : State) : State :=
  (s.memc' fun c => { c with motion := l }).set Fd.MEMC_STK_MOT_TICK_LO_LO (w.toNat % 2 ^ 32)
    |>.set Fd.MEMC_STK_MOT_TICK_HI_HI (w.toNat / 2 ^ 32) |>.bump Fd.MEMC_STK_PUB_SEQ 1 |>.set Fd.MEMC_STK_PUB_GO 0
    |>.set Fd.MEMC_STK_STAT_NOMOTION 0

theorem exec_motionPublish (h : s.admits .motionPublish = true) :
    exec .motionPublish s = .next (showMotion (publishedMotion s :: keptMotions s) (publishedMotion s).eff s) := by
  change execMotionPublish s = _
  unfold execMotionPublish
  exact State.writeRow_admitted h

theorem showMotion_shows (l : List Motion) (w : Wide) (s : State) :
    (showMotion l w s).memc.motion = l ∧ (showMotion l w s).get Fd.MEMC_STK_MOT_TICK_LO_LO = w.toNat % 2 ^ 32 ∧
      (showMotion l w s).get Fd.MEMC_STK_MOT_TICK_HI_HI = w.toNat / 2 ^ 32 ∧ (showMotion l w s).get Fd.MEMC_STK_PUB_GO = 0 ∧
      (showMotion l w s).get Fd.MEMC_STK_STAT_NOMOTION = 0 := by
  have hhigh : w.toNat / 2 ^ 32 < 2 ^ 32 := Nat.div_lt_of_lt_mul w.isLt
  unfold showMotion State.bump
  refine ⟨by simp, ?_, ?_, ?_, ?_⟩
  · rw [State.get_set_off _ _ (by decide), State.get_set_off _ _ (by decide), State.get_set_off _ _ (by decide),
      State.get_set_off _ _ (by decide), State.get_set _ _ _ (by decide) (by decide)]
    exact Nat.mod_mod _ _
  · rw [State.get_set_off _ _ (by decide), State.get_set_off _ _ (by decide), State.get_set_off _ _ (by decide),
      State.get_set _ _ _ (by decide) (by decide)]
    exact Nat.mod_eq_of_lt hhigh
  · rw [State.get_set_off _ _ (by decide), State.get_set _ _ _ (by decide) (by decide)]
    exact Nat.zero_mod _
  · rw [State.get_set _ _ _ (by decide) (by decide)]
    exact Nat.zero_mod _

theorem showMotion_frame (l : List Motion) (w : Wide) (s : State) :
    s.within [.io, .memc] (showMotion l w s) ∧
      s.onlyRegs [Fd.MEMC_STK_STAT_NOMOTION.off, Fd.MEMC_STK_PUB_GO.off, Fd.MEMC_STK_MOT_TICK_HI_HI.off,
        Fd.MEMC_STK_MOT_TICK_LO_LO.off] (showMotion l w s) := by
  have hseq : Fd.MEMC_STK_PUB_SEQ.off ∈ [Fd.MEMC_STK_STAT_NOMOTION.off, Fd.MEMC_STK_PUB_GO.off, Fd.MEMC_STK_MOT_TICK_HI_HI.off,
      Fd.MEMC_STK_MOT_TICK_LO_LO.off] := by decide
  unfold showMotion State.bump
  exact ⟨(((((((State.within_refl s _).memc_upd _).set _ _).set _ _).set _ _).set _ _).set _ _),
    (((((((State.onlyRegs_refl s _).of_reg fun _ => rfl).set _ _).set _ _).set _ _ hseq).set _ _).set _ _)⟩

/-! ## A kernel -/

/-- A kernel's register, from its number. -/
theorem kernelAt_mem {a q k o i : ℕ} (h : kernelAt a = some (i, q, k, o)) :
    a / 0x200000 = 8 + i ∧ i < 4 ∧ a % 0x100 = o ∧ a = 0x01050000 + 0x00200000 * i + 0x1000 * q + 0x100 * k + o ∧ k < 8 ∧ q
        < 2 := by
  unfold kernelAt at h
  dsimp only at h
  split at h
  case isTrue hin =>
    injection h with h
    simp only [Prod.mk.injEq] at h
    omega
  case isFalse => cases h

theorem kernelMask_at {o m : ℕ} (h : kernelMask o = some m) : o ≠ 8 ∧ o ≠ 0xC := by
  unfold kernelMask at h
  constructor <;> rintro rfl <;> simp at h

/-- A kernel's coefficients, with its sums shown. -/
def showSums (i q k : ℕ) (s : State) : State :=
  s.set (Fd.HST_KSUM_KSUM i q k) (unsigned 24 (kernelSum (s.kernel i q k).h)) |>.set (Fd.HST_KSQ_KSQ i q k)
    (kernelSq (s.kernel i q k).h)

theorem exec_kernelWrite_open {who : Actor} {off : BitVec 32} {v : Word} {i q k o m : ℕ}
    (h : s.admits (.kernelWrite who off v) = true) (hat : kernelAt off.toNat = some (i, q, k, o))
    (hm : kernelMask (off.toNat % 0x100) = some m) (hopen : s.paletteLocked i q = false) :
    exec (.kernelWrite who off v) s = .next (showSums i q k (s.put off.toNat (merge m (s.reg off.toNat) v))) := by
  change execKernelWrite who off v s = _
  unfold execKernelWrite
  rw [hat, hm]
  refine (State.writeBy_admitted h).trans ?_
  exact if_neg (by rw [hopen]; exact Bool.false_ne_true)

theorem exec_kernelWrite_locked {who : Actor} {off : BitVec 32} {v : Word} {i q k o m : ℕ}
    (h : s.admits (.kernelWrite who off v) = true) (hat : kernelAt off.toNat = some (i, q, k, o))
    (hm : kernelMask (off.toNat % 0x100) = some m) (hlock : s.paletteLocked i q = true) :
    exec (.kernelWrite who off v) s = .next (s.accRecord LOCK_VIOL off.toNat) := by
  change execKernelWrite who off v s = _
  unfold execKernelWrite
  rw [hat, hm]
  refine (State.writeBy_admitted h).trans ?_
  exact if_pos hlock

theorem reg_showSums {a i q k : ℕ} (hsum : a ≠ (Fd.HST_KSUM_KSUM i q k).off) (hsq : a ≠ (Fd.HST_KSQ_KSQ i q k).off)
    (s : State) :
    (showSums i q k s).reg a = s.reg a := by
  unfold showSums
  rw [State.reg_set_other _ _ hsq, State.reg_set_other _ _ hsum]

theorem kernel_showSums (i q k : ℕ) (s : State) : ((showSums i q k s).kernel i q k).h = (s.kernel i q k).h := by
  have hget {f : Field} (hsum : f.off ≠ (Fd.HST_KSUM_KSUM i q k).off) (hsq : f.off ≠ (Fd.HST_KSQ_KSQ i q k).off) :
      (showSums i q k s).get f = s.get f := Io.get_congr (reg_showSums hsum hsq s)
  have hlen : (showSums i q k s).get (Fd.HST_KHDR_L i q k) = s.get (Fd.HST_KHDR_L i q k) :=
    hget (by simp only [Fd.HST_KHDR_L, Fd.HST_KSUM_KSUM]; omega) (by simp only [Fd.HST_KHDR_L, Fd.HST_KSQ_KSQ]; omega)
  have hcoef (j : ℕ) : (showSums i q k s).get (Fd.HST_KCOEF_H i q k j) = s.get (Fd.HST_KCOEF_H i q k j) :=
    hget (by simp only [Fd.HST_KCOEF_H, Fd.HST_KSUM_KSUM]; omega) (by simp only [Fd.HST_KCOEF_H, Fd.HST_KSQ_KSQ]; omega)
  unfold State.kernel
  simp only [hlen, hcoef]

theorem showSums_shows (i q k : ℕ) (s : State) :
    (showSums i q k s).get (Fd.HST_KSUM_KSUM i q k) = unsigned 24 (kernelSum (s.kernel i q k).h) ∧
      (showSums i q k s).get (Fd.HST_KSQ_KSQ i q k) = kernelSq (s.kernel i q k).h % 2 ^ 32 := by
  have hoff : (Fd.HST_KSUM_KSUM i q k).off ≠ (Fd.HST_KSQ_KSQ i q k).off := by
    simp only [Fd.HST_KSUM_KSUM, Fd.HST_KSQ_KSQ]
    omega
  have hfit : unsigned 24 (kernelSum (s.kernel i q k).h) < 2 ^ 24 := by
    unfold unsigned
    omega
  unfold showSums
  constructor
  · rw [State.get_set_off _ _ hoff, State.get_set _ _ _ (by simp [Fd.HST_KSUM_KSUM]) (by simp [Fd.HST_KSUM_KSUM])]
    exact Nat.mod_eq_of_lt hfit
  · exact State.get_set _ _ _ (by simp [Fd.HST_KSQ_KSQ]) (by simp [Fd.HST_KSQ_KSQ])

theorem kernelWrite_open {who : Actor} {off : BitVec 32} {v : Word} {i q k o m : ℕ}
    (h : s.admits (.kernelWrite who off v) = true) (hat : kernelAt off.toNat = some (i, q, k, o))
    (hm : kernelMask (off.toNat % 0x100) = some m) (hopen : s.paletteLocked i q = false) :
    ∃ t, exec (.kernelWrite who off v) s = .next t ∧ s.within [.io] t ∧ t.reg off.toNat = merge m (s.reg off.toNat) v ∧
      t.get (Fd.HST_KSUM_KSUM i q k) = unsigned 24 (kernelSum (t.kernel i q k).h) ∧
      t.get (Fd.HST_KSQ_KSQ i q k) = kernelSq (t.kernel i q k).h % 2 ^ 32 ∧
      ∀ a, a ≠ off.toNat → a ≠ (Fd.HST_KSUM_KSUM i q k).off → a ≠ (Fd.HST_KSQ_KSQ i q k).off → t.reg a = s.reg a := by
  obtain ⟨-, -, hlow, hoff, -⟩ := kernelAt_mem hat
  obtain ⟨h8, hC⟩ := kernelMask_at hm
  have hsum : off.toNat ≠ (Fd.HST_KSUM_KSUM i q k).off := by
    simp only [Fd.HST_KSUM_KSUM]
    omega
  have hsq : off.toNat ≠ (Fd.HST_KSQ_KSQ i q k).off := by
    simp only [Fd.HST_KSQ_KSQ]
    omega
  obtain ⟨hshowSum, hshowSq⟩ := showSums_shows i q k (s.put off.toNat (merge m (s.reg off.toNat) v))
  refine ⟨_, exec_kernelWrite_open h hat hm hopen, ?_, ?_, ?_, ?_, fun a ha hasum hasq => ?_⟩
  · exact (((State.within_refl s _).put _ _).set _ _).set _ _
  · rw [reg_showSums hsum hsq, State.reg_put]
  · rw [hshowSum, kernel_showSums]
  · rw [hshowSq, kernel_showSums]
  · rw [reg_showSums hasum hasq, State.reg_put_other _ _ ha]

theorem kernelWrite_locked {who : Actor} {off : BitVec 32} {v : Word} {i q k o m : ℕ}
    (h : s.admits (.kernelWrite who off v) = true) (hat : kernelAt off.toNat = some (i, q, k, o))
    (hm : kernelMask (off.toNat % 0x100) = some m) (hlock : s.paletteLocked i q = true) :
    ∃ t, exec (.kernelWrite who off v) s = .next t ∧ t.reg off.toNat = s.reg off.toNat := by
  obtain ⟨-, hi, hlow, hoff, hk, hq⟩ := kernelAt_mem hat
  have hsteady : Field.steady ⟨off.toNat, 31, 0⟩ = true := steady_of_hst (by dsimp only; omega) (by dsimp only; omega)
      (by dsimp only; omega)
  obtain ⟨hal, hlost⟩ : alarmReg off.toNat = false ∧ off.toNat ≠ Fd.MGMT_LOG_LOST_COUNT.off := by simpa [Field.steady] using
      hsteady
  exact ⟨_, exec_kernelWrite_locked h hat hm hlock, State.reg_err _ _ hal hlost⟩

/-! ## A restart of the filter -/

theorem firstRead_mem {l : List ReadBank} {x : ReadBank} (h : firstRead l = some x) : x ∈ l := by
  induction l generalizing x with
  | nil => cases h
  | cons a l ih =>
    unfold firstRead at h
    split at h
    case h_1 => injection h with h; exact h ▸ List.mem_cons_self
    case h_2 y hy =>
      split at h
      · injection h with h; exact h ▸ List.mem_cons_self
      · injection h with h; exact h ▸ List.mem_cons_of_mem _ (ih hy)

/-- The bank that an engine takes is one of those in read-out. -/
theorem engineTakes_mem {i eng k : ℕ} {x : ReadBank} (h : s.engineTakes i eng = some (x, k)) : x ∈ s.hst.reads := by
  unfold State.engineTakes at h
  dsimp only at h
  split at h
  case h_1 => cases h
  case h_2 y hy =>
    obtain ⟨j, -, hj⟩ := Option.map_eq_some_iff.mp h
    injection hj with hyx
    exact hyx ▸ List.mem_of_mem_filter (firstRead_mem hy)

/-- A bank whose filter starts a histogram again. -/
def cutAt (i : ℕ) (fails : ℕ) (l : List ℕ) (y : ReadBank) : ReadBank :=
  { y with restarts := ins y.restarts i (rd (fun _ => []) y.restarts i ++ l), fails := ins y.fails i fails }

theorem cutAt_shows (i fails : ℕ) (l : List ℕ) (y : ReadBank) :
    rd (fun _ => 0) (cutAt i fails l y).fails i = fails ∧
      rd (fun _ => []) (cutAt i fails l y).restarts i = rd (fun _ => []) y.restarts i ++ l := by
  unfold cutAt rd
  rw [look_ins_same, look_ins_same]
  exact ⟨rfl, rfl⟩

/-- The restart shown and counted. -/
def restartSeen (n : Fin 4) (sec : ℕ) (s : State) : State :=
  (s.set (Fd.HST_FLT_STAT_RESTART n) 1).countSec sec Src.HST_FLT_RESTART 1

/-- The record of a restart. -/
def restartErr (n : Fin 4) (repl eng fails : ℕ) : Err :=
  { level := 0, region := 8 + n, block := 4, code := 0x0014, action := 2
    cell := if repl = eng then 8 else eng, count := fails }

/-- The spare filter in the place of the engine's. -/
def spareIn (n : Fin 4) (eng sec ok : ℕ) (s : State) : State :=
  (s.set (Fd.HST_FLT_STAT_REPL n) eng |>.set (Fd.HST_FLT_STAT_ENG_OK n) ok
    |>.set (Fd.HST_FLT_STAT_SUBST n) 1).countSec sec Src.HST_FLT_SUBST 1 |>.err
      { level := 1, region := 8 + n, block := 4, code := 0x0013, action := 3, cell := eng, count := 3 }

/-- The restart as the histogram's failures before it tell: the filter again, the spare, or the region. -/
def afterFail (n : Fin 4) (eng fails bin i : ℕ) (x : ReadBank) (s v : State) : State :=
  if fails < 3 then
    (v.onRead x.sector x.stop (cutAt i fails [bin])).err (restartErr n (s.get (Fd.HST_FLT_STAT_REPL n)) eng fails)
  else if s.get (Fd.HST_FLT_STAT_REPL n) = 15 then
    spareIn n eng x.sector ((s.get (Fd.HST_FLT_STAT_ENG_OK n) ||| 0x100) &&& (0x1FF ^^^ 2 ^ eng))
      (v.onRead x.sector x.stop (cutAt i fails [bin, bin + 1]))
  else ((v.onRead x.sector x.stop (cutAt i fails [bin])).set (Fd.HST_FLT_STAT_NOSPARE n) 1).startRestart 3 (8 + n)

theorem exec_fltRestart {c : Fin 1024} {zoom : Option (Fin 4)} {bin : BitVec 12} {x : ReadBank} {k' : ℕ}
    (hn : c.val / 256 = n) (htake : s.engineTakes n (c.val % 8) = some (x, k')) (hsec : x.sector = c.val / 32)
    (hmay : s.mayTake x (c.val % 32) k' (zoom.map Fin.val) = true) :
    exec (.fltRestart c zoom bin) s = .next (afterFail n (c.val % 8)
      (rd (fun _ => 0) x.fails (histNum (c.val % 32) (zoom.map Fin.val)) + 1) bin.toNat
      (histNum (c.val % 32) (zoom.map Fin.val)) x s (restartSeen n x.sector s)) := by
  change execFltRestart c zoom bin s = _
  unfold execFltRestart afterFail
  dsimp only
  rw [hn, htake]
  dsimp only
  rw [if_neg (by simp [hsec, hmay])]
  split
  · rfl
  · split <;> rfl

/-- The fields of the filter's status, and the places where they stand. -/
theorem fltStat (n : Fin 4) :
    ((Fd.HST_FLT_STAT_RESTART n).steady = true ∧ (Fd.HST_FLT_STAT_REPL n).steady = true ∧ (Fd.HST_FLT_STAT_SUBST n).steady =
        true ∧
      (Fd.HST_FLT_STAT_NOSPARE n).steady = true) ∧
    ((Fd.HST_FLT_STAT_REPL n).apart (Fd.HST_FLT_STAT_RESTART n) = true ∧
      (Fd.HST_FLT_STAT_ENG_OK n).apart (Fd.HST_FLT_STAT_RESTART n) = true ∧
      (Fd.HST_FLT_STAT_SUBST n).apart (Fd.HST_FLT_STAT_RESTART n) = true ∧
      (Fd.HST_FLT_STAT_NOSPARE n).apart (Fd.HST_FLT_STAT_RESTART n) = true ∧
      (Fd.HST_FLT_STAT_PAL_BUSY n).apart (Fd.HST_FLT_STAT_RESTART n) = true) ∧
    ((Fd.HST_FLT_STAT_ENG_OK n).apart (Fd.HST_FLT_STAT_REPL n) = true ∧ (Fd.HST_FLT_STAT_SUBST n).apart
        (Fd.HST_FLT_STAT_REPL n) = true ∧
      (Fd.HST_FLT_STAT_PAL_BUSY n).apart (Fd.HST_FLT_STAT_NOSPARE n) = true) ∧
    ((Fd.HST_FLT_STAT_RESTART n).off / 0x200000 = 8 + n ∧ (Fd.HST_FLT_STAT_NOSPARE n).off / 0x200000 = 8 + n) ∧
    ((Fd.HST_FLT_STAT_RESTART n).off ≠ (Fd.RGN_STAT_RESTARTING (8 + n)).off ∧
      (Fd.HST_FLT_STAT_NOSPARE n).off ≠ (Fd.RGN_STAT_RESTARTING (8 + n)).off) := by
  revert n
  decide

theorem get_restartSeen (n : Fin 4) (sec : ℕ) (s : State) : (restartSeen n sec s).get (Fd.HST_FLT_STAT_RESTART n) = 1 := by
  obtain ⟨⟨hsteady, -⟩, -⟩ := fltStat n
  unfold restartSeen State.countSec
  rw [State.get_count _ _ _ _ _ hsteady, State.get_set _ _ _ (by simp [Fd.HST_FLT_STAT_RESTART])
      (by simp [Fd.HST_FLT_STAT_RESTART])]
  simp [Fd.HST_FLT_STAT_RESTART]

theorem spareIn_shows (n : Fin 4) {eng : ℕ} (heng : eng < 8) (sec ok : ℕ) (s : State) :
    (spareIn n eng sec ok s).get (Fd.HST_FLT_STAT_RESTART n) = s.get (Fd.HST_FLT_STAT_RESTART n) ∧
      (spareIn n eng sec ok s).get (Fd.HST_FLT_STAT_REPL n) = eng ∧ (spareIn n eng sec ok s).get (Fd.HST_FLT_STAT_SUBST n) =
          1 := by
  obtain ⟨⟨hrestart, hrepl, hsubst, -⟩, ⟨hreplR, hokR, hsubstR, -⟩, ⟨hokRepl, hsubstRepl, -⟩, -⟩ := fltStat n
  unfold spareIn State.countSec
  refine ⟨?_, ?_, ?_⟩
  · rw [State.get_err _ _ hrestart, State.get_count _ _ _ _ _ hrestart, State.get_set_apart _ _ hsubstR, State.get_set_apart
      _ _ hokR,
      State.get_set_apart _ _ hreplR]
  · rw [State.get_err _ _ hrepl, State.get_count _ _ _ _ _ hrepl, State.get_set_apart _ _ hsubstRepl, State.get_set_apart _
      _ hokRepl,
      State.get_set _ _ _ (by simp [Fd.HST_FLT_STAT_REPL]) (by simp [Fd.HST_FLT_STAT_REPL])]
    exact Nat.mod_eq_of_lt (show eng < 16 by omega)
  · rw [State.get_err _ _ hsubst, State.get_count _ _ _ _ _ hsubst,
      State.get_set _ _ _ (by simp [Fd.HST_FLT_STAT_SUBST]) (by simp [Fd.HST_FLT_STAT_SUBST])]
    simp [Fd.HST_FLT_STAT_SUBST]

theorem regionOut_shows (n : Fin 4) (s : State) :
    ((s.set (Fd.HST_FLT_STAT_NOSPARE n) 1).startRestart 3 (8 + n)).get (Fd.HST_FLT_STAT_RESTART n) = s.get
        (Fd.HST_FLT_STAT_RESTART n) ∧
      ((s.set (Fd.HST_FLT_STAT_NOSPARE n) 1).startRestart 3 (8 + n)).get (Fd.HST_FLT_STAT_NOSPARE n) = 1 ∧
      ((s.set (Fd.HST_FLT_STAT_NOSPARE n) 1).startRestart 3 (8 + n)).restarting (8 + n) = true := by
  obtain ⟨⟨hrestart, -, -, hno⟩, ⟨-, -, -, hnoR, hbusyR⟩, ⟨-, -, hbusyNo⟩, ⟨hregionR, hregionNo⟩, hstatR, hstatNo⟩ := fltStat n
  obtain ⟨hrun, hget⟩ := startRestart_hst (n := n) 3 (s.set (Fd.HST_FLT_STAT_NOSPARE n) 1)
  refine ⟨?_, ?_, hrun⟩
  · rw [hget _ hrestart hregionR hstatR hbusyR, State.get_set_apart _ _ hnoR]
  · rw [hget _ hno hregionNo hstatNo hbusyNo,
      State.get_set _ _ _ (by simp [Fd.HST_FLT_STAT_NOSPARE]) (by simp [Fd.HST_FLT_STAT_NOSPARE])]
    simp [Fd.HST_FLT_STAT_NOSPARE]

theorem get_onRead (sec : ℕ) (w : Wide) (g : ReadBank → ReadBank) (f : Field) (s : State) : (s.onRead sec w g).get f = s.get
    f := rfl

/-- A bank in read-out that matches takes the change. -/
theorem onRead_mem {x : ReadBank} (hx : x ∈ s.hst.reads) (g : ReadBank → ReadBank) :
    g x ∈ (s.onRead x.sector x.stop g).hst.reads := by
  unfold State.onRead
  rw [State.hst_upd_hst]
  exact List.mem_map.mpr ⟨x, hx, if_pos (by simp)⟩

theorem fltRestart_completes {c : Fin 1024} {zoom : Option (Fin 4)} {bin : BitVec 12} {x : ReadBank} {k' : ℕ}
    (hn : c.val / 256 = n) (htake : s.engineTakes n (c.val % 8) = some (x, k')) (hsec : x.sector = c.val / 32)
    (hmay : s.mayTake x (c.val % 32) k' (zoom.map Fin.val) = true) {i : ℕ} (hi : histNum (c.val % 32) (zoom.map Fin.val) = i) :
    ∃ t, exec (.fltRestart c zoom bin) s = .next t ∧ t.get (Fd.HST_FLT_STAT_RESTART n) = 1 ∧
      (rd (fun _ => 0) x.fails i < 2 → s.within [.io, .hst] t ∧
        ∃ y ∈ t.hst.reads, y.sector = x.sector ∧ y.stop = x.stop ∧ rd (fun _ => 0) y.fails i = rd (fun _ => 0) x.fails i + 1 ∧
          rd (fun _ => []) y.restarts i = rd (fun _ => []) x.restarts i ++ [bin.toNat]) ∧
      (2 ≤ rd (fun _ => 0) x.fails i → s.get (Fd.HST_FLT_STAT_REPL n) = 15 →
        t.get (Fd.HST_FLT_STAT_REPL n) = c.val % 8 ∧ t.get (Fd.HST_FLT_STAT_SUBST n) = 1) ∧
      (2 ≤ rd (fun _ => 0) x.fails i → s.get (Fd.HST_FLT_STAT_REPL n) ≠ 15 →
        t.get (Fd.HST_FLT_STAT_NOSPARE n) = 1 ∧ t.restarting (8 + n) = true) := by
  subst hi
  refine ⟨_, exec_fltRestart hn htake hsec hmay, ?_⟩
  generalize histNum (c.val % 32) (zoom.map Fin.val) = i
  have hseen := get_restartSeen n x.sector s
  unfold afterFail
  by_cases hfew : rd (fun _ => 0) x.fails i < 2
  · rw [if_pos (by omega)]
    obtain ⟨⟨hsteady, -⟩, -⟩ := fltStat n
    have hx : x ∈ (restartSeen n x.sector s).hst.reads := by
      unfold restartSeen State.countSec
      rw [State.count_hst, State.set_hst]
      exact engineTakes_mem htake
    obtain ⟨hfails, hcuts⟩ := cutAt_shows i (rd (fun _ => 0) x.fails i + 1) [bin.toNat] x
    rw [State.get_err _ _ hsteady, get_onRead]
    refine ⟨hseen, fun _ => ⟨?_, cutAt i _ [bin.toNat] x, ?_, rfl, rfl, hfails, hcuts⟩, fun h => absurd hfew (by omega), fun
        h => absurd hfew (by omega)⟩
    · exact ((((State.within_refl s _).set _ _).count _ _ _ _).hst_upd _).err _
    · rw [State.err_hst]
      exact onRead_mem hx _
  · rw [if_neg (by omega)]
    by_cases hrepl : s.get (Fd.HST_FLT_STAT_REPL n) = 15
    · rw [if_pos hrepl]
      obtain ⟨hrestart, hin, hsub⟩ := spareIn_shows n (Nat.mod_lt c.val (by decide : 0 < 8)) x.sector
        ((s.get (Fd.HST_FLT_STAT_ENG_OK n) ||| 0x100) &&& (0x1FF ^^^ 2 ^ (c.val % 8)))
        ((restartSeen n x.sector s).onRead x.sector x.stop (cutAt i (rd (fun _ => 0) x.fails i + 1) [bin.toNat, bin.toNat + 1]))
      rw [get_onRead] at hrestart
      exact ⟨hrestart.trans hseen, fun h => absurd h hfew, fun _ _ => ⟨hin, hsub⟩, fun _ h => absurd hrepl h⟩
    · rw [if_neg hrepl]
      obtain ⟨hrestart, hno, hrun⟩ := regionOut_shows n
        ((restartSeen n x.sector s).onRead x.sector x.stop (cutAt i (rd (fun _ => 0) x.fails i + 1) [bin.toNat]))
      rw [get_onRead] at hrestart
      exact ⟨hrestart.trans hseen, fun h => absurd h hfew, fun _ h => absurd h hrepl, fun _ _ => ⟨hno, hrun⟩⟩

/-- Settles O31, by what each command shows in the engine's registers. -/
theorem engineSettingsComplete : Obligations.EngineSettingsComplete := by
  unfold Obligations.EngineSettingsComplete
  refine ⟨fun n q s h hnone hq => stallRetire_spare h hnone hq, fun n s h hnone hq => stallRetire_none h hnone hq,
    fun n s h hsome => stallRetire_chosen h hsome, fun s h => ?_, ?_, ?_, ?_⟩
  · obtain ⟨hlist, hlow, hhigh, hgo, hno⟩ :=
      showMotion_shows (publishedMotion s :: keptMotions s) (publishedMotion s).eff s
    obtain ⟨hparts, hregs⟩ := showMotion_frame (publishedMotion s :: keptMotions s) (publishedMotion s).eff s
    exact ⟨_, publishedMotion s, exec_motionPublish h, hparts, hregs, by rw [hlist]; rfl, rfl, rfl, rfl, rfl, rfl, hlow, hhigh,
      hgo, hno⟩
  · intro who off v n q k o m s h hat hm hopen
    exact kernelWrite_open h hat hm hopen
  · intro who off v n q k o m s h hat hm hlock
    exact kernelWrite_locked h hat hm hlock
  · intro c zoom bin x k' s
    dsimp only
    intro htake hsec hmay
    exact fltRestart_completes (n := ⟨c.val / 256, by omega⟩) rfl htake hsec hmay rfl

end Sys2Proof.Machine.EngineSettings
end

section
/-!
SUPPORT. The management mailbox: a request that the firmware serves, and its answer (R50 to R53).
-/
-- One thread for the lemmas: a thread for each would ask for more memory than a build may have.
set_option Elab.async false

namespace Sys2Proof.Machine.Mailbox
open Sys2Proof.Machine

variable {s t : State} {op n : ℕ} {fits : ℕ → Bool} {g : State → State} {status : ℕ} {payload : List Byte}

/-- A request of the length that its command takes is performed. -/
theorem command_served (h : s.asks op n) (hfit : fits n = true) : s.command op fits g = .next (g s) := by
  obtain ⟨hserves, -, hlength⟩ := h
  unfold State.command
  rw [if_pos hserves, hlength, if_pos hfit]
  rfl

/-- A request of another length is answered with BAD_LENGTH. -/
theorem command_badLength (h : s.asks op n) (hfit : fits n = false) : s.command op fits g = .next (s.answer stBAD_LENGTH [])
    := by
  obtain ⟨hserves, -, hlength⟩ := h
  unfold State.command
  rw [if_pos hserves, hlength, if_neg (by simp [hfit])]
  rfl

theorem orphan_of_asks (h : s.asks op n) : s.mgmt.orphan = none := h.2.1

/-- The record of the management processor is left by what does not name it. -/
theorem mgmt_of_within {u : List Part} (h : s.within u t) (hu : .mgmt ∉ u) : t.mgmt = s.mgmt :=
  (State.within_iff.mp h).2 .mgmt hu

theorem mgmt_answerAs (h : t.mgmt.orphan = none) (past : Bool) : (t.answerAs past status payload).mgmt =
    { t.mgmt with reply := some { status := status, payload := payload, past := past } } := by
  unfold State.answerAs
  rw [State.mgmt_upd_mgmt]
  exact if_neg (by simp [h])

theorem answered_answer (h : t.mgmt.orphan = none) : (t.answer status payload).answered status payload := by
  unfold State.answered State.answer
  rw [mgmt_answerAs h]

theorem answeredLate_answerAs (h : t.mgmt.orphan = none) : (t.answerAs true status payload).answeredLate status payload := by
  unfold State.answeredLate
  rw [mgmt_answerAs h]

theorem within_answerAs {u : List Part} (h : s.within u t) (past : Bool) (k : .mgmt ∈ u := by decide) :
    s.within u (t.answerAs past status payload) := h.mgmt_upd _ k

theorem within_answer {u : List Part} (h : s.within u t) (k : .mgmt ∈ u := by decide) : s.within u (t.answer status payload) :=
  h.mgmt_upd _ k

theorem onlyRegs_answerAs {rs : List ℕ} (h : s.onlyRegs rs t) (past : Bool) : s.onlyRegs rs (t.answerAs past status payload) :=
  h.of_reg fun _ => rfl

theorem onlyRegs_answer {rs : List ℕ} (h : s.onlyRegs rs t) : s.onlyRegs rs (t.answer status payload) := h.of_reg fun _ => rfl

theorem io_answer (status : ℕ) (payload : List Byte) (t : State) : (t.answer status payload).io = t.io := rfl
theorem secu_answer (status : ℕ) (payload : List Byte) (t : State) : (t.answer status payload).secu = t.secu := rfl
theorem get_answer (status : ℕ) (payload : List Byte) (t : State) (f : Field) : (t.answer status payload).get f = t.get f := rfl

/-- A request that is only answered: nothing but the reply changes. -/
theorem only_answered (h : s.asks op n) (hfit : fits n = true) (hg : g s = s.answer status payload) :
    s.command op fits g = .next (s.answer status payload) ∧ s.within [.mgmt] (s.answer status payload) ∧
      (s.answer status payload).answered status payload :=
  ⟨(command_served h hfit).trans (congrArg _ hg), within_answer (State.within_refl s _), answered_answer (orphan_of_asks h)⟩

end Sys2Proof.Machine.Mailbox
end

section
/-!
SUPPORT. An HSS signature: the state of the trees that it uses up, and what it leaves (R402 to R404).
-/
-- One thread for the lemmas: a thread for each would ask for more memory than a build may have.
set_option Elab.async false

namespace Sys2Proof.Machine.Hss
open Sys2Proof.Machine

variable {s t v : State}

/-- The registers that show the HSS state. -/
def shown : List ℕ := [Fd.SECU_LMS_Q_REGEN.off, Fd.SECU_LMS_TOP_TOPQ.off]

/-- t differs from s in the HSS state and the registers that show it. -/
structure Turned (s t : State) : Prop where
  parts : s.within [.io, .secu] t
  regs : s.onlyRegs shown t
  sigAt : t.secu.sigAt = s.secu.sigAt
  held : t.secu.held = s.secu.held
  outs : t.io.out = s.io.out
  tick : t.tick = s.tick

namespace Turned

theorem refl (s : State) : Turned s s := ⟨State.within_refl s _, State.onlyRegs_refl s _, rfl, rfl, rfl, rfl⟩

theorem trans (h : Turned s t) (k : Turned t v) : Turned s v :=
  ⟨h.parts.trans k.parts, h.regs.trans k.regs, k.sigAt.trans h.sigAt, k.held.trans h.held, k.outs.trans h.outs, k.tick.trans
      h.tick⟩

theorem set (h : Turned s t) (f : Field) (n : ℕ) (k : f.off ∈ shown := by decide) : Turned s (t.set f n) :=
  ⟨h.parts.set f n, h.regs.set f n k, by rw [State.set_secu]; exact h.sigAt, by rw [State.set_secu]; exact h.held, h.outs,
      h.tick⟩

theorem setBit (h : Turned s t) (f : Field) (b : Bool) (k : f.off ∈ shown := by decide) : Turned s (t.setBit f b) := h.set f _ k

theorem secu_upd (h : Turned s t) (g : Secu → Secu) (hs : (g t.secu).sigAt = t.secu.sigAt)
    (hh : (g t.secu).held = t.secu.held) :
    Turned s (t.secu' g) :=
  ⟨h.parts.secu_upd g, h.regs.of_reg fun _ => rfl, hs.trans h.sigAt, hh.trans h.held, h.outs, h.tick⟩

theorem showHss (h : Turned s t) : Turned s t.showHss := by
  unfold State.showHss
  dsimp only
  split
  · exact (((h.setBit Fd.SECU_LMS_Q_REGEN _).set Fd.SECU_LMS_Q_Q _).set Fd.SECU_LMS_TOP_TOPQ _).set Fd.SECU_LMS_Q_LMS_STATE _
  · exact (((h.setBit Fd.SECU_LMS_Q_REGEN _).set Fd.SECU_LMS_Q_Q _).set Fd.SECU_LMS_TOP_TOPQ _).set Fd.SECU_LMS_Q_LMS_STATE _

theorem writeHss (h : Turned s t) (g : HssCopy → HssCopy) : Turned s (t.writeHss g) := by
  unfold State.writeHss
  split
  · exact (h.secu_upd _ rfl rfl).showHss
  · exact h

theorem afterLeaf (h : Turned s t) (q : ℕ) : Turned s (t.afterLeaf q) := by
  unfold State.afterLeaf
  split
  · exact ((h.writeHss _).secu_upd _ rfl rfl).showHss
  · split
    · exact ((h.writeHss _).secu_upd _ rfl rfl).showHss
    · exact h

theorem get_sigs (h : Turned s t) : t.get Fd.SECU_SIGS_COUNT = s.get Fd.SECU_SIGS_COUNT :=
  h.regs.steady (by decide) (by decide)

end Turned

/-- The registers that an HSS signature may change. -/
def signed : List ℕ := [Fd.SECU_LMS_Q_REGEN.off, Fd.SECU_LMS_TOP_TOPQ.off, Fd.SECU_SIGS_COUNT.off]

/-- The copy in force with its next leaf taken, and the signature's tick. -/
def leafTaken (s : State) : State :=
  (s.writeHss fun c => { c with q := c.q + 1 }).secu' fun u => { u with sigAt := some s.tick }

theorem signHss_eq {c : HssCopy} (h : s.hss = some c) (msg : List Byte) : s.signHss msg = (Config.hssSign c.bottom c.q msg,
    (((leafTaken s).bump Fd.SECU_SIGS_COUNT 1).count 17 Src.SECU_HSS_SIGN 0 1).afterLeaf (c.q + 1)) := by
  unfold State.signHss
  rw [h]
  rfl

/-- The state after an HSS signature under the copy c. -/
def signedWith (c : HssCopy) (s : State) : State :=
  (((leafTaken s).bump Fd.SECU_SIGS_COUNT 1).count 17 Src.SECU_HSS_SIGN 0 1).afterLeaf (c.q + 1)

theorem signedWith_shows (c : HssCopy) (s : State) :
    s.within [.io, .secu] (signedWith c s) ∧ s.onlyRegs signed (signedWith c s) ∧
      (signedWith c s).secu.sigAt = some s.tick ∧ (signedWith c s).secu.held = s.secu.held ∧
      (signedWith c s).get Fd.SECU_SIGS_COUNT = (s.get Fd.SECU_SIGS_COUNT + 1) % 2 ^ 32 ∧
      Io.Messages s.io (signedWith c s).io ∧ (signedWith c s).tick = s.tick := by
  have hshown : ∀ a ∈ shown, a ∈ signed := by decide
  have hsigs : Fd.SECU_SIGS_COUNT.off ∈ signed := by decide
  have hwrite := (Turned.refl s).writeHss fun c => { c with q := c.q + 1 }
  have hlast := (Turned.refl (((leafTaken s).bump Fd.SECU_SIGS_COUNT 1).count 17 Src.SECU_HSS_SIGN 0 1)).afterLeaf (c.q + 1)
  have hcount : (leafTaken s).get Fd.SECU_SIGS_COUNT = s.get Fd.SECU_SIGS_COUNT := hwrite.get_sigs
  unfold signedWith
  refine ⟨?_, ?_, ?_, ?_, ?_, ?_, ?_⟩
  · exact (((hwrite.parts.secu_upd _).bump _ _).count _ _ _ _).trans hlast.parts
  · refine State.onlyRegs.trans ?_ (hlast.regs.mono hshown)
    exact (((hwrite.regs.mono hshown).of_reg fun _ => rfl).bump _ _ hsigs).count _ _ _ _
  · rw [hlast.sigAt, State.count_secu, State.bump_secu]
    rfl
  · rw [hlast.held, State.count_secu, State.bump_secu]
    exact hwrite.held
  · rw [hlast.get_sigs, State.get_count _ _ _ _ _ (by decide)]
    exact (State.get_set _ _ _ (by decide) (by decide)).trans (by rw [hcount]; rfl)
  · refine Io.Messages.trans (y := ((leafTaken s).bump Fd.SECU_SIGS_COUNT 1).io) (Io.Messages.of_out hwrite.outs) ?_
    exact (Io.Messages.count _ _ _ _ _).trans (Io.Messages.of_out hlast.outs)
  · rw [hlast.tick]
    exact (Io.calm_count ..).tick.trans hwrite.tick

end Sys2Proof.Machine.Hss
end

section
/-!
SETTLES O46. The debug session, attestation and the tag area (R404, R406, R410, R412, R416, R417, R423, R424).
-/
-- One thread for the lemmas: a thread for each would ask for more memory than a build may have.
set_option Elab.async false

namespace Sys2Proof.Machine.Attestation
open Sys2Proof.Machine Mailbox

variable {s t v : State}

/-! ## The challenge -/

/-- A fresh nonce in force. -/
def challenged (s : State) : State :=
  (s.io' fun x => { x with free := x.free + 1 }).secu' fun u => { u with nonce := some (Config.freeNonce s.io.free, s.tick) }

theorem exec_challenge (h : s.asks 0x0104 0) (hopen : ∀ x, s.secu.busyTill = some x → before s.tick x = false) :
    exec .dbgChallenge s = .next ((challenged s).answer stOK (leBytes 32 (Config.freeNonce s.io.free).toNat ++ ueidBytes)) := by
  change execDbgChallenge s = _
  unfold execDbgChallenge
  refine (command_served h rfl).trans (congrArg _ ?_)
  cases hbusy : s.secu.busyTill with
  | none => exact if_neg Bool.false_ne_true
  | some x => exact if_neg (fun hx => Bool.false_ne_true ((hopen x hbusy).symm.trans hx))

theorem exec_challenge_busy {x : Wide} (h : s.asks 0x0104 0) (hbusy : s.secu.busyTill = some x) (hx : before s.tick x = true) :
    exec .dbgChallenge s = .next (s.answer stBUSY []) := by
  change execDbgChallenge s = _
  unfold execDbgChallenge
  refine (command_served h rfl).trans (congrArg _ ?_)
  rw [hbusy]
  exact if_pos hx

/-! ## A token -/

/-- A token that is judged good names a level and a signer that exist. -/
theorem good_token {type : ℕ} {allowed : Bool} {tok : Token} (h : s.judgeToken type allowed tok = stOK) :
    allowed = true ∧ tok.signer.toNat < 2 := by
  unfold State.judgeToken at h
  split at h
  case isTrue => exact absurd h (by decide)
  case isFalse hno =>
    simp only [not_or, Bool.not_eq_true', Bool.not_eq_false, not_le] at hno
    obtain ⟨-, -, -, -, hallowed, hsigner, -⟩ := hno
    exact ⟨hallowed, hsigner⟩

theorem target_of_signer {lc level k : ℕ} {zeroised : Bool} (h : dbgSigner lc level zeroised = some k) : level < 4 := by
  unfold dbgSigner at h
  split at h <;> [skip; (split at h <;> [skip; (split at h <;>
      [skip; (split at h <;> [skip; (split at h <;> [skip; cases h])])])])] <;>
    (split at h <;> [omega; cases h])

/-- The state that a token leaves: its session, or a rejection. -/
theorem unlock_eq (tok : Token) (s : State) :
    (s.unlock tok).2 = if (s.unlock tok).1 = stOK then s.useNonce.openSession tok else s.rejectToken := rfl

theorem openSession_shows (tok : Token) (s : State) :
    s.within [.io, .secu] (s.useNonce.openSession tok) ∧ s.onlyRegs [Fd.SECU_DBG_LEFT.off] (s.useNonce.openSession tok) ∧
      (s.useNonce.openSession tok).secu.nonce = none ∧
      (s.useNonce.openSession tok).get Fd.SECU_DBG_LEVEL = tok.target.toNat % 4 ∧
      (s.useNonce.openSession tok).get Fd.SECU_DBG_SIGNER = tok.signer.toNat % 2 ∧
      (s.useNonce.openSession tok).get Fd.SECU_DBG_LEFT = tok.duration.toNat ∧
      (s.useNonce.openSession tok).secu.sessionEnd = some (s.tick + BitVec.ofNat 64 (tok.duration.toNat * ticksPerS)) := by
  have hregs : s.onlyRegs [Fd.SECU_DBG_LEFT.off] s.useNonce := (State.onlyRegs_refl s _).of_reg fun _ => rfl
  unfold State.openSession
  refine ⟨?_, ?_, ?_, ?_, ?_, ?_, ?_⟩
  · exact (((((((State.within_refl s _).secu_upd _).set _ _).set _ _).set _ _).secu_upd _).count _ _ _ _)
  · exact (((((hregs.set Fd.SECU_DBG_LEVEL _ (.head _)).set Fd.SECU_DBG_SIGNER _ (.head _)).set Fd.SECU_DBG_LEFT _
      (.head _)).secu_upd _).count _ _ _ _)
  · rw [State.count_secu, State.secu_upd_secu, State.set_secu, State.set_secu, State.set_secu]
    rfl
  · rw [State.get_count _ _ _ _ _ (by decide), State.get_secu_upd, State.get_set_apart _ _ (by decide),
      State.get_set_apart _ _ (by decide), State.get_set _ _ _ (by decide) (by decide)]
    rfl
  · rw [State.get_count _ _ _ _ _ (by decide), State.get_secu_upd, State.get_set_apart _ _ (by decide),
      State.get_set _ _ _ (by decide) (by decide)]
    rfl
  · rw [State.get_count _ _ _ _ _ (by decide), State.get_secu_upd, State.get_set _ _ _ (by decide) (by decide)]
    exact Nat.mod_eq_of_lt tok.duration.isLt
  · rw [State.count_secu, State.secu_upd_secu]
    rfl

theorem rejectToken_shows (s : State) : s.within [.io, .secu] s.rejectToken ∧ s.onlyRegs [Fd.SECU_DBG_LEFT.off] s.rejectToken ∧
    s.rejectToken.secu.nonce = none ∧ s.rejectToken.get Fd.SECU_DBG_LEVEL = s.get Fd.SECU_DBG_LEVEL ∧
    s.rejectToken.secu.sessionEnd = s.secu.sessionEnd := by
  unfold State.rejectToken
  refine ⟨?_, ?_, ?_, ?_, ?_⟩
  · exact (((State.within_refl s _).err _).count _ _ _ _).secu_upd _
  · exact (((State.onlyRegs_refl s _).err _).count _ _ _ _).secu_upd _
  · rw [State.secu_upd_secu]
  · rw [State.get_secu_upd, State.get_count _ _ _ _ _ (by decide), State.get_err _ _ (by decide)]
  · rw [State.secu_upd_secu, State.count_secu, State.err_secu]

/-- What a token does whatever the judgement. -/
theorem unlock_shows (tok : Token) (s : State) :
    s.within [.io, .secu] (s.unlock tok).2 ∧ s.onlyRegs [Fd.SECU_DBG_LEFT.off] (s.unlock tok).2 ∧
        (s.unlock tok).2.secu.nonce = none := by
  rw [unlock_eq]
  split
  · obtain ⟨hparts, hregs, hnonce, -⟩ := openSession_shows tok s
    exact ⟨hparts, hregs, hnonce⟩
  · obtain ⟨hparts, hregs, hnonce, -⟩ := rejectToken_shows s
    exact ⟨hparts, hregs, hnonce⟩

theorem jtag_served (tok : Token) (hrail : s.chip.railIo = true) (hruns : s.fwRuns = true) (hrec : s.mgmt.recovery = false)
    (hrun : s.restarting 17 = false) (hlife : s.lifecycle ≠ 5) :
    ∃ t, exec (.dbgUnlock tok true) s = .next t ∧ s.within [.io, .secu] t ∧
      t.io.out.head? = some (.tokenStatus (s.unlock tok).1) ∧ t.secu.nonce = none ∧
      ((s.unlock tok).1 = stOK → t.get Fd.SECU_DBG_LEVEL = tok.target.toNat % 4) := by
  have hexec : exec (.dbgUnlock tok true) s = .next ((s.unlock tok).2.emit (.tokenStatus (s.unlock tok).1)) :=
    if_pos (by simp [hrail, hruns, hrec, hrun, hlife])
  obtain ⟨hparts, -, hnonce⟩ := unlock_shows tok s
  refine ⟨_, hexec, hparts.emit _, rfl, by rw [State.emit_secu]; exact hnonce, fun hok => ?_⟩
  rw [State.get_emit, unlock_eq, if_pos hok]
  obtain ⟨-, -, -, hlevel, -⟩ := openSession_shows tok s
  exact hlevel

theorem jtag_refused (tok : Token) (h : s.chip.railIo = false ∨ s.fwRuns = false ∨ s.mgmt.recovery = true ∨
    s.restarting 17 = true ∨ s.lifecycle = 5) : exec (.dbgUnlock tok true) s = .next s := by
  refine if_neg ?_
  obtain h | h | h | h | h := h <;> simp [h]

/-- The judgement of a debug token. -/
abbrev judged (tok : Token) (s : State) : ℕ :=
  s.judgeToken 1 (dbgSigner s.lifecycle tok.target.toNat (s.is Fd.SECU_LC_ZEROISED) == some tok.signer.toNat) tok

theorem exec_unlock (tok : Token) (h : s.asks 0x0105 3832) : exec (.dbgUnlock tok false) s = .next
    ((s.unlock tok).2.answer (judged tok s) (if judged tok s = stOK then [tok.target] else [])) := by
  change execDbgUnlock tok false s = _
  unfold execDbgUnlock
  rw [if_neg Bool.false_ne_true]
  exact command_served h rfl

theorem unlock_completes (tok : Token) (h : s.asks 0x0105 3832) :
    ∃ t, exec (.dbgUnlock tok false) s = .next t ∧ s.within [.io, .mgmt, .secu] t ∧ s.onlyRegs [Fd.SECU_DBG_LEFT.off] t ∧
      t.secu.nonce = none ∧
      if judged tok s = stOK then t.answered stOK [tok.target] ∧ t.get Fd.SECU_DBG_LEVEL = tok.target.toNat ∧
        t.get Fd.SECU_DBG_SIGNER = tok.signer.toNat ∧ t.get Fd.SECU_DBG_LEFT = tok.duration.toNat ∧
        t.secu.sessionEnd = some (s.tick + BitVec.ofNat 64 (tok.duration.toNat * ticksPerS))
      else t.answered (judged tok s) [] ∧ t.get Fd.SECU_DBG_LEVEL = s.get Fd.SECU_DBG_LEVEL ∧
        t.secu.sessionEnd = s.secu.sessionEnd := by
  obtain ⟨hparts, hregs, hnonce⟩ := unlock_shows tok s
  have horphan : (s.unlock tok).2.mgmt.orphan = none := by
    rw [mgmt_of_within hparts (by decide)]
    exact orphan_of_asks h
  refine ⟨_, exec_unlock tok h, within_answer (hparts.mono (by decide)), onlyRegs_answer hregs, hnonce, ?_⟩
  split
  case isTrue hok =>
    obtain ⟨hallowed, hsigner⟩ := good_token hok
    have htarget := target_of_signer (beq_iff_eq.mp hallowed)
    have hopen : (s.unlock tok).2 = s.useNonce.openSession tok := (unlock_eq tok s).trans (if_pos hok)
    obtain ⟨-, -, -, hlevel, hsig, hleft, hend⟩ := openSession_shows tok s
    rw [hok]
    refine ⟨answered_answer horphan, ?_, ?_, ?_, ?_⟩
    · rw [get_answer, hopen, hlevel, Nat.mod_eq_of_lt htarget]
    · rw [get_answer, hopen, hsig, Nat.mod_eq_of_lt hsigner]
    · rw [get_answer, hopen, hleft]
    · rw [secu_answer, hopen, hend]
  case isFalse hbad =>
    have hrej : (s.unlock tok).2 = s.rejectToken := (unlock_eq tok s).trans (if_neg hbad)
    obtain ⟨-, -, -, hlevel, hend⟩ := rejectToken_shows s
    refine ⟨answered_answer horphan, ?_, ?_⟩
    · rw [get_answer, hrej, hlevel]
    · rw [secu_answer, hrej, hend]

/-! ## The end of a session -/

/-- The perturbations of one region stopped. -/
def stilled (r : ℕ) (s : State) : State :=
  s.set (Fd.PERTURB_HS_DELAY r) 0 |>.set (Fd.PERTURB_HS_MODE r) 0 |>.set (Fd.PERTURB_BP_PROB r) 0
    |>.set (Fd.PERTURB_BP_QSEL r) 0 |>.set (Fd.PERTURB_EV_EVDLY r) 0 |>.set (Fd.PERTURB_TB_SKEW r) 0
    |>.set (Fd.PERTURB_SEED_SEED r) 0

theorem within_stilled (r : ℕ) (h : v.within [.io, .secu] s) : v.within [.io, .secu] (stilled r s) :=
  ((((((h.set _ _).set _ _).set _ _).set _ _).set _ _).set _ _).set _ _

theorem tick_stilled (r : ℕ) (s : State) : (stilled r s).tick = s.tick := by
  have hset (f : Field) (v : State) : (v.set f 0).tick = v.tick := rfl
  unfold stilled
  simp only [hset]

/-- The fields of the perturbations of a region. -/
theorem get_stilled_off {r : ℕ} {f : Field} (h : f.off < 0x100 + 0x200000 * r ∨ 0x114 + 0x200000 * r ≤ f.off) (s : State) :
    (stilled r s).get f = s.get f := by
  have hne {g : Field} (hlo : 0x100 + 0x200000 * r ≤ g.off) (hhi : g.off < 0x114 + 0x200000 * r) : f.off ≠ g.off := by omega
  unfold stilled
  rw [State.get_set_off _ _ (hne (by simp only [Fd.PERTURB_SEED_SEED]; omega) (by simp only [Fd.PERTURB_SEED_SEED]; omega)),
    State.get_set_off _ _ (hne (by simp only [Fd.PERTURB_TB_SKEW]; omega) (by simp only [Fd.PERTURB_TB_SKEW]; omega)),
    State.get_set_off _ _ (hne (by simp only [Fd.PERTURB_EV_EVDLY]; omega) (by simp only [Fd.PERTURB_EV_EVDLY]; omega)),
    State.get_set_off _ _ (hne (by simp only [Fd.PERTURB_BP_QSEL]; omega) (by simp only [Fd.PERTURB_BP_QSEL]; omega)),
    State.get_set_off _ _ (hne (by simp only [Fd.PERTURB_BP_PROB]; omega) (by simp only [Fd.PERTURB_BP_PROB]; omega)),
    State.get_set_off _ _ (hne (by simp only [Fd.PERTURB_HS_MODE]; omega) (by simp only [Fd.PERTURB_HS_MODE]; omega)),
    State.get_set_off _ _ (hne (by simp only [Fd.PERTURB_HS_DELAY]; omega) (by simp only [Fd.PERTURB_HS_DELAY]; omega))]

theorem get_stilled (r : ℕ) (s : State) :
    (stilled r s).get (Fd.PERTURB_HS_DELAY r) = 0 ∧ (stilled r s).get (Fd.PERTURB_SEED_SEED r) = 0 := by
  have hne {g : Field} (h : g.off ≠ 0x100 + 0x200000 * r) : (Fd.PERTURB_HS_DELAY r).off ≠ g.off := fun he => h he.symm
  unfold stilled
  constructor
  · rw [State.get_set_off _ _ (hne (by simp only [Fd.PERTURB_SEED_SEED]; omega)),
      State.get_set_off _ _ (hne (by simp only [Fd.PERTURB_TB_SKEW]; omega)),
      State.get_set_off _ _ (hne (by simp only [Fd.PERTURB_EV_EVDLY]; omega)),
      State.get_set_off _ _ (hne (by simp only [Fd.PERTURB_BP_QSEL]; omega)),
      State.get_set_off _ _ (hne (by simp only [Fd.PERTURB_BP_PROB]; omega)),
      State.get_set_bits _ _ (by simp [Fd.PERTURB_HS_MODE]) (by simp [Fd.PERTURB_HS_MODE]) (by simp [Fd.PERTURB_HS_DELAY])
        (by simp [Fd.PERTURB_HS_MODE, Fd.PERTURB_HS_DELAY]),
      State.get_set _ _ _ (by simp [Fd.PERTURB_HS_DELAY]) (by simp [Fd.PERTURB_HS_DELAY])]
    exact Nat.zero_mod _
  · rw [State.get_set _ _ _ (by simp [Fd.PERTURB_SEED_SEED]) (by simp [Fd.PERTURB_SEED_SEED])]
    exact Nat.zero_mod _

theorem stopPerturb_shows (s : State) : s.within [.io, .secu] s.stopPerturb ∧ s.stopPerturb.tick = s.tick ∧
    (∀ f : Field, 0x02200114 ≤ f.off % 0x10000000 → f.off < 0x10000000 → 0x02400114 ≤ f.off ∨ f.off < 0x02400100 →
      s.stopPerturb.get f = s.get f) ∧
    ∀ r : Fin 19, s.stopPerturb.get (Fd.PERTURB_HS_DELAY r) = 0 ∧ s.stopPerturb.get (Fd.PERTURB_SEED_SEED r) = 0 := by
  have heach : s.stopPerturb = s.each (List.range 19) stilled := rfl
  rw [heach]
  refine ⟨?_, ?_, fun f hlo hhi hout => ?_, fun r => ?_⟩
  · exact List.foldlRecOn (motive := fun w => s.within [.io, .secu] w) _ _ (State.within_refl s _) fun w hw r _ =>
      within_stilled r hw
  · exact List.foldlRecOn (motive := fun w : State => w.tick = s.tick) _ _ rfl fun w hw r _ => (tick_stilled r w).trans hw
  · refine List.foldlRecOn (motive := fun w : State => w.get f = s.get f) _ _ rfl fun w hw r hr =>
      (get_stilled_off ?_ w).trans hw
    have := List.mem_range.mp hr
    omega
  · refine LinkStates.each_at (P := fun _ => True)
      (Q := fun w => w.get (Fd.PERTURB_HS_DELAY r) = 0 ∧ w.get (Fd.PERTURB_SEED_SEED r) = 0) (x := r.val)
      (List.mem_range.mpr r.isLt) List.nodup_range (fun _ _ _ _ _ => trivial) (fun w _ => get_stilled r w) ?_ trivial
    intro y hy hne w hw
    rw [get_stilled_off (by simp only [Fd.PERTURB_HS_DELAY]; omega), get_stilled_off
        (by simp only [Fd.PERTURB_SEED_SEED]; omega)]
    exact hw

theorem tick_levels (s : State) :
    (s.set Fd.SECU_DBG_LEVEL s.standing |>.set Fd.SECU_DBG_SIGNER 0 |>.set Fd.SECU_DBG_LEFT 0).tick = s.tick := by
  have hset (f : Field) (n : ℕ) (v : State) : (v.set f n).tick = v.tick := rfl
  simp only [hset]

/-- A session's end with the standing level in force. -/
theorem endSession_shows (h : s.secu.sessionEnd.isSome = true) :
    s.within [.io, .secu] s.endSession ∧ s.endSession.secu.sessionEnd = none ∧ s.endSession.tick = s.tick ∧
      s.endSession.get Fd.SECU_DBG_LEVEL = s.standing ∧ s.endSession.get Fd.SECU_DBG_LEFT = 0 ∧
      ∀ r : Fin 19, s.endSession.get (Fd.PERTURB_HS_DELAY r) = 0 ∧ s.endSession.get (Fd.PERTURB_SEED_SEED r) = 0 := by
  have hstanding : s.standing % 4 = s.standing := by
    unfold State.standing
    split <;> rfl
  obtain ⟨hparts, htick, hget, hperturb⟩ :=
    stopPerturb_shows (s.set Fd.SECU_DBG_LEVEL s.standing |>.set Fd.SECU_DBG_SIGNER 0 |>.set Fd.SECU_DBG_LEFT 0)
  have hfields : ∀ r : Fin 19, (Fd.PERTURB_HS_DELAY r).steady = true ∧ (Fd.PERTURB_SEED_SEED r).steady = true := by decide
  unfold State.endSession
  rw [if_neg (by simpa [Option.isSome_iff_ne_none] using h)]
  refine ⟨?_, ?_, ?_, ?_, ?_, fun r => ?_⟩
  · exact ((((((State.within_refl s _).set _ _).set _ _).set _ _).trans hparts).secu_upd _).err _
  · rw [State.err_secu, State.secu_upd_secu]
  · have herr (e : Err) (v : State) : (v.err e).tick = v.tick := (Io.calm_err ..).tick
    have hsecu (g : Secu → Secu) (v : State) : (v.secu' g).tick = v.tick := rfl
    rw [herr, hsecu, htick, tick_levels]
  · rw [State.get_err _ _ (by decide), State.get_secu_upd, hget _ (by decide) (by decide) (by decide),
      State.get_set_apart _ _ (by decide), State.get_set_apart _ _ (by decide), State.get_set _ _ _ (by decide) (by decide)]
    exact hstanding
  · rw [State.get_err _ _ (by decide), State.get_secu_upd, hget _ (by decide) (by decide) (by decide),
      State.get_set _ _ _ (by decide) (by decide)]
    exact Nat.zero_mod _
  · obtain ⟨hdelay, hseed⟩ := hfields r
    rw [State.get_err _ _ hdelay, State.get_err _ _ hseed, State.get_secu_upd, State.get_secu_upd]
    exact hperturb r

theorem endSession_none (h : s.secu.sessionEnd = none) : s.endSession = s := if_pos (by rw [h]; rfl)

theorem exec_dbgClose (h : s.asks 0x0106 0) : exec .dbgClose s = .next (s.endSession.answer stOK []) := by
  change execDbgClose s = _
  unfold execDbgClose
  exact command_served h rfl

theorem dbgClose_completes (h : s.asks 0x0106 0) :
    ∃ t, exec .dbgClose s = .next t ∧ s.within [.io, .mgmt, .secu] t ∧ t.answered stOK [] ∧ t.secu.sessionEnd = none ∧
      (s.secu.sessionEnd.isSome = true → t.get Fd.SECU_DBG_LEVEL = s.standing ∧ t.get Fd.SECU_DBG_LEFT = 0 ∧
        ∀ r : Fin 19, t.get (Fd.PERTURB_HS_DELAY r) = 0 ∧ t.get (Fd.PERTURB_SEED_SEED r) = 0) := by
  refine ⟨s.endSession.answer stOK [], exec_dbgClose h, ?_⟩
  cases hend : s.secu.sessionEnd with
  | none =>
    rw [endSession_none hend]
    exact ⟨within_answer (State.within_refl s _), answered_answer (orphan_of_asks h), hend, nofun⟩
  | some x =>
    obtain ⟨hparts, hnone, -, hlevel, hleft, hperturb⟩ := endSession_shows (s := s) (by rw [hend]; rfl)
    refine ⟨within_answer (hparts.mono (by decide)), answered_answer ?_, hnone, fun _ => ⟨hlevel, hleft, hperturb⟩⟩
    rw [mgmt_of_within hparts (by decide)]
    exact orphan_of_asks h

theorem expire_completes {x : Wide} (hend : s.secu.sessionEnd = some x) (hclock : s.clockOk x = true) :
    ∃ t, exec .dbgSessionExpire s = .next t ∧ s.within [.io, .secu] t ∧ t.tick = (s.clockReach x).tick ∧
      t.secu.sessionEnd = none ∧ t.get Fd.SECU_DBG_LEVEL = (s.clockReach x).standing := by
  have hexec : exec .dbgSessionExpire s = .next (s.clockReach x).endSession := by
    change execDbgSessionExpire s = _
    unfold execDbgSessionExpire
    rw [hend]
    exact if_pos hclock
  have hreach := (State.within_refl s [.io, .secu]).clockReach x
  have hsecu : (s.clockReach x).secu = s.secu := (State.within_iff.mp ((State.within_refl s [.io]).clockReach x)).2 .secu
      (by decide)
  obtain ⟨hparts, hnone, htick, hlevel, -⟩ := endSession_shows (s := s.clockReach x) (by rw [hsecu, hend]; rfl)
  exact ⟨_, hexec, hreach.trans hparts, htick, hnone, hlevel⟩

theorem expire_early (h : ∀ x, s.secu.sessionEnd = some x → s.clockOk x = false) : exec .dbgSessionExpire s = .next s := by
  change execDbgSessionExpire s = _
  unfold execDbgSessionExpire
  cases hend : s.secu.sessionEnd with
  | none => rfl
  | some x => exact if_neg (by rw [h x hend]; exact Bool.false_ne_true)

/-! ## Certificates and tokens -/

/-- A request that is only answered. -/
theorem only_answer {i : Instr} {op n status : ℕ} {payload : List Byte} (h : s.asks op n)
    (hexec : exec i s = .next (s.answer status payload)) : ∃ t, exec i s = .next t ∧ s.within [.mgmt] t ∧ t.io = s.io ∧
        t.secu = s.secu ∧
      t.answered status payload :=
  ⟨_, hexec, within_answer (State.within_refl s _), rfl, rfl, answered_answer (orphan_of_asks h)⟩

theorem exec_certRead {n : Byte} (h : s.asks 0x0107 1) : exec (.certRead n) s = .next
    (if 4 ≤ n.toNat then s.answer stBAD_PARAM []
    else if n.toNat = 1 then
      match s.secu.certCdi with
      | some c => s.answer stOK (Config.aliasCert c)
      | none => s.answer stSTORAGE_FAIL []
    else s.answer stOK (Config.cert n.toNat)) := by
  change execCertRead n s = _
  unfold execCertRead
  exact command_served h rfl

theorem certRead_absent {n : Byte} (h : s.asks 0x0107 1) (hn : 4 ≤ n.toNat) :
    ∃ t, exec (.certRead n) s = .next t ∧ s.within [.mgmt] t ∧ t.answered stBAD_PARAM [] := by
  have hexec : exec (.certRead n) s = .next (s.answer stBAD_PARAM []) := (exec_certRead h).trans (congrArg _ (if_pos hn))
  obtain ⟨t, ht, hparts, -, -, hans⟩ := only_answer h hexec
  exact ⟨t, ht, hparts, hans⟩

theorem certRead_present {n : Byte} (h : s.asks 0x0107 1) (hn : n.toNat < 4) :
    ∃ t, exec (.certRead n) s = .next t ∧ s.within [.mgmt] t ∧ t.io = s.io ∧ t.secu = s.secu ∧
      if n = 1 then
        match s.secu.certCdi with
        | some c => t.answered stOK (Config.aliasCert c)
        | none => t.answered stSTORAGE_FAIL []
      else t.answered stOK (Config.cert n.toNat) := by
  by_cases hone : n = 1
  · subst hone
    have hexec := (exec_certRead h).trans (congrArg _ ((if_neg (show ¬ 4 ≤ (1 : Byte).toNat by decide)).trans (if_pos rfl)))
    simp only [if_pos]
    cases hcert : s.secu.certCdi with
    | none => exact only_answer h (hexec.trans (by rw [hcert]))
    | some c => exact only_answer h (hexec.trans (by rw [hcert]))
  · have hne : n.toNat ≠ 1 := fun he => hone (BitVec.eq_of_toNat_eq he)
    simp only [if_neg hone]
    exact only_answer h ((exec_certRead h).trans (congrArg _ ((if_neg (by omega)).trans (if_neg hne))))

/-- The attestation token that the state gives under the HSS copy c. -/
abbrev eatOf (nonce : BitVec 256) (c : HssCopy) (hss : List Byte) (s : State) : List Byte :=
  Config.coseSign (s.claims nonce c) (Config.ecdsaSign s.secu.cdi (s.claims nonce c)) hss

theorem eat_noKeys {nonce : BitVec 256} (h : s.asks 0x0108 32) (hkeys : s.secu.keys = false) :
    ∃ t, exec (.eatGet nonce) s = .next t ∧ s.within [.mgmt] t ∧ t.answered stNOT_PERMITTED [] := by
  have hexec : exec (.eatGet nonce) s = .next (s.answer stNOT_PERMITTED []) := by
    change execEatGet nonce s = _
    unfold execEatGet
    exact (command_served h rfl).trans (congrArg _ (if_pos (by rw [hkeys]; rfl)))
  obtain ⟨t, ht, hparts, -, -, hans⟩ := only_answer h hexec
  exact ⟨t, ht, hparts, hans⟩

theorem eat_lost {nonce : BitVec 256} (h : s.asks 0x0108 32) (hkeys : s.secu.keys = true) (hlost : s.hssLost = true) :
    ∃ t, exec (.eatGet nonce) s = .next t ∧ s.within [.mgmt] t ∧
      t.answered stOK (eatOf nonce (s.hss.getD { valid := false }) [] s) := by
  have hexec : exec (.eatGet nonce) s = .next (s.answer stOK (eatOf nonce (s.hss.getD { valid := false }) [] s)) := by
    change execEatGet nonce s = _
    unfold execEatGet
    refine (command_served h rfl).trans (congrArg _ ?_)
    rw [if_neg (by simp [hkeys]), if_neg (by simp [hlost])]
    unfold State.signBoth
    rw [if_neg (by simp [hlost])]
    dsimp only
    rw [if_pos hlost]
  obtain ⟨t, ht, hparts, -, -, hans⟩ := only_answer h hexec
  exact ⟨t, ht, hparts, hans⟩

theorem eat_waits {nonce : BitVec 256} (h : s.asks 0x0108 32) (hkeys : s.secu.keys = true) (hlost : s.hssLost = false)
    (hwait : s.hssReady = false ∨ s.sigTooSoon = true ∧ s.clockOk s.sigFrom = false) : exec (.eatGet nonce) s = .next s := by
  change execEatGet nonce s = _
  unfold execEatGet
  refine (command_served h rfl).trans (congrArg _ ?_)
  rw [if_neg (by simp [hkeys]), if_pos]
  obtain hready | ⟨hsoon, hclock⟩ := hwait
  · simp [hlost, hready]
  · simp [hlost, hsoon, hclock]

/-- The state at the tick from which an HSS signature may be made. -/
def atSignature (s : State) : State := if s.sigTooSoon then s.clockReach s.sigFrom else s

theorem atSignature_frame (s : State) : s.within [.io] (atSignature s) ∧ s.onlyRegs [] (atSignature s) ∧
    ∀ f : Field, (atSignature s).get f = s.get f := by
  unfold atSignature
  split
  · exact ⟨(State.within_refl s _).clockReach _, (State.onlyRegs_refl s _).clockReach _, fun f => Detections.get_clockReach
      _ s f⟩
  · exact ⟨State.within_refl s _, State.onlyRegs_refl s _, fun _ => rfl⟩

theorem hss_congr (h : t.secu = s.secu) : t.hss = s.hss := by
  unfold State.hss
  rw [h]

theorem eat_signed {nonce : BitVec 256} {c : HssCopy} (h : s.asks 0x0108 32) (hkeys : s.secu.keys = true)
    (hlost : s.hssLost = false)
    (hss : s.hss = some c) (hq : c.q < treeLeaves) (hready : s.sigTooSoon = false ∨ s.clockOk s.sigFrom = true) :
    ∃ t, exec (.eatGet nonce) s = .next t ∧ s.within [.io, .mgmt, .secu] t ∧ s.onlyRegs Hss.signed t ∧
      t.answered stOK (Config.coseSign ((atSignature s).claims nonce c)
          (Config.ecdsaSign s.secu.cdi ((atSignature s).claims nonce c))
        (Config.hssSign c.bottom c.q ((atSignature s).claims nonce c))) ∧
      t.secu.sigAt = some (atSignature s).tick ∧ t.get Fd.SECU_SIGS_COUNT = (s.get Fd.SECU_SIGS_COUNT + 1) % 2 ^ 32 := by
  obtain ⟨hparts, hregs, hget⟩ := atSignature_frame s
  have hsecu : (atSignature s).secu = s.secu := (State.within_iff.mp hparts).2 .secu (by decide)
  have hss' : (atSignature s).hss = some c := (hss_congr hsecu).trans hss
  have hlost' : (atSignature s).hssLost = false := (congrArg (· == 1) (hget _)).trans hlost
  have hexec : exec (.eatGet nonce) s = .next ((Hss.signedWith c (atSignature s)).answer stOK
      (Config.coseSign ((atSignature s).claims nonce c) (Config.ecdsaSign s.secu.cdi ((atSignature s).claims nonce c))
        (Config.hssSign c.bottom c.q ((atSignature s).claims nonce c)))) := by
    change execEatGet nonce s = _
    unfold execEatGet
    refine (command_served h rfl).trans (congrArg _ ?_)
    have hno : ¬ ((!s.hssLost && (!s.hssReady || (s.sigTooSoon && !s.clockOk s.sigFrom))) = true) := by
      unfold State.hssReady
      obtain hsoon | hclock := hready
      · simp [hss, hq, hsoon]
      · simp [hss, hq, hclock]
    have hat : (if !s.hssLost && s.sigTooSoon then s.clockReach s.sigFrom else s) = atSignature s := by
      unfold atSignature
      rw [hlost]
      rfl
    rw [if_neg (by simp [hkeys]), if_neg hno]
    dsimp only
    rw [hat, hss', Option.getD_some]
    unfold State.signBoth
    dsimp only
    rw [if_neg (by simp [hlost']), Hss.signHss_eq hss', hsecu]
    rfl
  obtain ⟨hsparts, hsregs, hsig, -, hsigs, -, -⟩ := Hss.signedWith_shows c (atSignature s)
  have hmgmt : (Hss.signedWith c (atSignature s)).mgmt = s.mgmt :=
    (mgmt_of_within hsparts (by decide)).trans (mgmt_of_within hparts (by decide))
  refine ⟨_, hexec, ?_, ?_, answered_answer ?_, hsig, ?_⟩
  · exact within_answer (((hparts.mono (by decide)).trans hsparts).mono (by decide))
  · exact onlyRegs_answer ((hregs.mono nofun).trans hsregs)
  · rw [hmgmt]
    exact orphan_of_asks h
  · rw [get_answer, hsigs, hget]

/-! ## The tag area -/

theorem exec_tagRead {off len : BitVec 16} (h : s.asks 0x0501 4) : exec (.tagRead off len) s = .next
    (if 512 < off.toNat + len.toNat then s.answer stBAD_PARAM []
    else s.answer stOK ((s.tagBytes.drop off.toNat).take len.toNat)) := by
  change execTagRead off len s = _
  unfold execTagRead
  exact command_served h rfl

theorem tagRead_in {off len : BitVec 16} (h : s.asks 0x0501 4) (hin : off.toNat + len.toNat ≤ 512) :
    ∃ t, exec (.tagRead off len) s = .next t ∧ s.within [.mgmt] t ∧ t.io = s.io ∧ t.secu = s.secu ∧
      t.answered stOK ((s.tagBytes.drop off.toNat).take len.toNat) :=
  only_answer h ((exec_tagRead h).trans (congrArg _ (if_neg (Nat.not_lt.mpr hin))))

theorem tagRead_out {off len : BitVec 16} (h : s.asks 0x0501 4) (hout : 512 < off.toNat + len.toNat) :
    ∃ t, exec (.tagRead off len) s = .next t ∧ s.within [.mgmt] t ∧ t.answered stBAD_PARAM [] := by
  have hexec : exec (.tagRead off len) s = .next (s.answer stBAD_PARAM []) := (exec_tagRead h).trans (congrArg _ (if_pos hout))
  obtain ⟨t, ht, hparts, -, -, hans⟩ := only_answer h hexec
  exact ⟨t, ht, hparts, hans⟩

/-- Bytes written one after the other. -/
def writeBytes (off : ℕ) (data : List Byte) (m : SMap Byte) : SMap Byte :=
  (data.foldl (fun (x : ℕ × SMap Byte) b => (x.1 + 1, wr (fun _ => 0) x.2 x.1 b)) (off, m)).2

theorem rd_writeBytes (data : List Byte) (off : ℕ) (m : SMap Byte) (j : ℕ) :
    rd (fun _ => 0) (writeBytes off data m) j = if off ≤ j ∧ j < off + data.length then data.getD (j - off) 0 else rd
        (fun _ => 0) m j := by
  induction data generalizing off m with
  | nil => exact (if_neg (by simp)).symm
  | cons b data ih =>
    have hstep : writeBytes off (b :: data) m = writeBytes (off + 1) data (wr (fun _ => 0) m off b) := rfl
    rw [hstep, ih]
    by_cases hj : j = off
    · subst hj
      rw [if_neg (by omega), rd_wr_same, if_pos (by simp), Nat.sub_self, List.getD_cons_zero]
    · rw [rd_wr_other _ _ _ hj]
      by_cases hin : off + 1 ≤ j ∧ j < off + 1 + data.length
      · rw [if_pos hin, if_pos (by rw [List.length_cons]; omega), show j - off = (j - (off + 1)) + 1 by omega,
          List.getD_cons_succ]
      · rw [if_neg hin, if_neg (by rw [List.length_cons]; omega)]

theorem writeTag_tag (off : ℕ) (data : List Byte) (s : State) :
    (s.writeTag off data).tag = { data := writeBytes off data s.tag.data, seq := s.tag.seq + 1 } := by
  unfold State.tag State.writeTag
  dsimp only
  rw [State.secu_upd_secu]
  by_cases hnew : s.secu.tagA.seq < s.secu.tagB.seq
  · simp only [State.tag, if_pos hnew]
    rw [if_neg (by omega)]
    rfl
  · simp only [State.tag, if_neg hnew]
    rw [if_pos (by omega)]
    rfl

theorem tagBytes_writeTag {off : ℕ} {data : List Byte} (hin : off + data.length ≤ 512) (s : State) :
    (s.writeTag off data).tagBytes = s.tagBytes.take off ++ data ++ s.tagBytes.drop (off + data.length) := by
  unfold State.tagBytes
  rw [writeTag_tag]
  have hlen : ((List.range 512).map (rd (fun _ => 0) s.tag.data)).length = 512 := by simp
  refine List.ext_getElem? fun j => ?_
  by_cases hj : j < 512
  · rw [List.getElem?_map, List.getElem?_range hj, Option.map_some, rd_writeBytes]
    by_cases hlow : j < off
    · rw [if_neg (by omega), List.append_assoc, List.getElem?_append_left (by rw [List.length_take, hlen]; omega),
        List.getElem?_take_of_lt hlow, List.getElem?_map, List.getElem?_range hj, Option.map_some]
    · by_cases hmid : j < off + data.length
      · rw [if_pos (by omega), List.getElem?_append_left (by rw [List.length_append, List.length_take, hlen]; omega),
          List.getElem?_append_right (by rw [List.length_take, hlen]; omega), List.length_take, hlen, Nat.min_eq_left
              (by omega),
          List.getElem?_eq_getElem (by omega), List.getD_eq_getElem _ _ (by omega)]
      · rw [if_neg (by omega), List.getElem?_append_right (by rw [List.length_append, List.length_take, hlen]; omega),
          List.length_append, List.length_take, hlen, Nat.min_eq_left (by omega), List.getElem?_drop,
          show off + data.length + (j - (off + data.length)) = j by omega, List.getElem?_map, List.getElem?_range hj,
              Option.map_some]
  · rw [List.getElem?_eq_none (by rw [List.length_map, List.length_range]; omega), List.getElem?_eq_none]
    rw [List.length_append, List.length_append, List.length_take, List.length_drop, hlen]
    omega

theorem exec_tagWrite {off len : BitVec 16} {data : List Byte} (stored : Bool) (h : s.asks 0x0502 (4 + len.toNat))
    (hlen : data.length = len.toNat) : exec (.tagWrite off len data stored) s = .next
      (if 512 < off.toNat + len.toNat then s.answer stBAD_PARAM [] else if !stored then s.answer stSTORAGE_FAIL []
        else (s.writeTag off.toNat data).answerAs true stOK []) := by
  change execTagWrite off len data stored s = _
  unfold execTagWrite
  exact command_served h (by simp [hlen])

theorem tagWrite_out {off len : BitVec 16} {data : List Byte} (stored : Bool) (h : s.asks 0x0502 (4 + len.toNat))
    (hlen : data.length = len.toNat) (hout : 512 < off.toNat + len.toNat) :
    ∃ t, exec (.tagWrite off len data stored) s = .next t ∧ s.within [.mgmt] t ∧ t.answered stBAD_PARAM [] := by
  obtain ⟨t, ht, hparts, -, -, hans⟩ := only_answer h ((exec_tagWrite stored h hlen).trans (congrArg _ (if_pos hout)))
  exact ⟨t, ht, hparts, hans⟩

theorem tagWrite_failed {off len : BitVec 16} {data : List Byte} (h : s.asks 0x0502 (4 + len.toNat))
    (hlen : data.length = len.toNat) (hin : off.toNat + len.toNat ≤ 512) :
    ∃ t, exec (.tagWrite off len data false) s = .next t ∧ s.within [.mgmt] t ∧ t.answered stSTORAGE_FAIL [] := by
  obtain ⟨t, ht, hparts, -, -, hans⟩ := only_answer h ((exec_tagWrite (off := off) false h hlen).trans
    (congrArg _ ((if_neg (by omega)).trans (if_pos rfl))))
  exact ⟨t, ht, hparts, hans⟩

theorem tagWrite_stored {off len : BitVec 16} {data : List Byte} (h : s.asks 0x0502 (4 + len.toNat))
    (hlen : data.length = len.toNat) (hin : off.toNat + len.toNat ≤ 512) :
    ∃ t, exec (.tagWrite off len data true) s = .next t ∧ s.within [.mgmt, .secu] t ∧ t.answeredLate stOK [] ∧
      t.tag.seq = s.tag.seq + 1 ∧ t.tagBytes = s.tagBytes.take off.toNat ++ data ++ s.tagBytes.drop (off.toNat + len.toNat)
          := by
  have hexec := (exec_tagWrite (off := off) true h hlen).trans (congrArg _ ((if_neg (by omega)).trans (if_neg (by decide))))
  refine ⟨_, hexec, within_answerAs ((State.within_refl s _).secu_upd _) true, answeredLate_answerAs (orphan_of_asks h), ?_, ?_⟩
  · exact congrArg TagCopy.seq (writeTag_tag off.toNat data s)
  · rw [← hlen] at hin ⊢
    exact tagBytes_writeTag hin s

/-- Settles O46, command by command. -/
theorem debugAndAttestationComplete : Obligations.DebugAndAttestationComplete := by
  unfold Obligations.DebugAndAttestationComplete
  refine ⟨fun s h hopen => ?_, fun x s h hbusy hx => ?_, fun tok s => ?_, fun tok s h => unlock_completes tok h,
    fun s h => dbgClose_completes h, fun x s hend hclock => expire_completes hend hclock, fun s h => expire_early h,
    fun n s h hn => certRead_absent h hn, fun n s h hn => certRead_present h hn, fun nonce s h => ?_,
    fun off len s h hin => tagRead_in h hin, fun off len s h hout => tagRead_out h hout, fun off len data stored s h hlen => ?_⟩
  · refine ⟨_, _, exec_challenge h hopen, within_answer (((State.within_refl s _).io_upd _).secu_upd _),
      onlyRegs_answer ((State.onlyRegs_refl s _).of_reg fun _ => rfl), rfl, answered_answer (orphan_of_asks h)⟩
  · exact ⟨_, exec_challenge_busy h hbusy hx, within_answer (State.within_refl s _), answered_answer (orphan_of_asks h)⟩
  · exact ⟨fun hrail hruns hrec hrun hlife => jtag_served tok hrail hruns hrec hrun hlife, fun h => jtag_refused tok h⟩
  · refine ⟨fun hkeys => eat_noKeys h hkeys, fun hkeys hlost => eat_lost h hkeys hlost,
      fun hkeys hlost hwait => eat_waits h hkeys hlost hwait, fun c hkeys hlost hss hq hready => ?_⟩
    exact eat_signed h hkeys hlost hss hq hready
  · exact ⟨fun hout => tagWrite_out stored h hlen hout, fun hin hno => hno ▸ tagWrite_failed h hlen hin,
      fun hin hyes => hyes ▸ tagWrite_stored h hlen hin⟩

end Sys2Proof.Machine.Attestation
end

section
/-!
SUPPORT. The sketch, the proof and the commit (R38 to R47): what each may change, and what an accepted commit shows.
-/
-- One thread for the lemmas: a thread for each would ask for more memory than a build may have.
set_option Elab.async false

namespace Sys2Proof.Machine.Commits
open Sys2Proof.Machine

variable {s t v : State}

/-- The parts that a commit request may change. -/
def parts : List Part := [.io, .scan, .mgmt, .secu, .chip]

/-- The regions whose registers it may change: the chip's, the scan engine's and those of HST. -/
def regions : List ℕ := [0, 2, 8, 9, 10, 11]

/-- t differs from s as a commit request may make it. -/
structure Committing (s t : State) : Prop where
  framed : Framed parts regions s t
  mgmt : ∃ b, t.mgmt = { s.mgmt with calRetry := b }
  tick : t.tick = s.tick

namespace Committing

theorem refl (s : State) : Committing s s := ⟨Framed.refl _ _ s, ⟨s.mgmt.calRetry, rfl⟩, rfl⟩

theorem trans (h : Committing s t) (k : Committing t v) : Committing s v := by
  obtain ⟨b, hb⟩ := h.mgmt
  obtain ⟨c, hc⟩ := k.mgmt
  exact ⟨h.framed.trans k.framed, ⟨c, by rw [hc, hb]⟩, k.tick.trans h.tick⟩

theorem of_mgmt (h : Committing s t) (k : Framed parts regions s v) (hm : v.mgmt = t.mgmt) (ht : v.tick = t.tick) :
    Committing s v := by
  obtain ⟨b, hb⟩ := h.mgmt
  exact ⟨k, ⟨b, hm.trans hb⟩, ht.trans h.tick⟩

theorem set (h : Committing s t) (f : Field) (n : ℕ) (k : f.off / 0x200000 ∈ regions := by decide) : Committing s (t.set f n) :=
  h.of_mgmt (h.framed.set f n (l := k)) (State.set_mgmt _ _ _) rfl

theorem setBit (h : Committing s t) (f : Field) (b : Bool) (k : f.off / 0x200000 ∈ regions := by decide) :
    Committing s (t.setBit f b) := h.set f _ k

theorem io_upd (h : Committing s t) (g : Io → Io) (hg : (g t.io).regs = t.io.regs) (hk : (g t.io).tick = t.io.tick) :
    Committing s (t.io' g) := by
  have hreg (a : ℕ) : (t.io' g).reg a = t.reg a := congrArg (rd resetWord · a) hg
  exact h.of_mgmt ⟨h.framed.parts.io_upd g, h.framed.regs.of_reg hreg⟩ rfl hk

theorem chip_upd (h : Committing s t) (g : Chip → Chip) : Committing s (t.chip' g) := h.of_mgmt (h.framed.chip_upd g) rfl rfl

theorem secu_upd (h : Committing s t) (g : Secu → Secu) : Committing s (t.secu' g) := h.of_mgmt (h.framed.secu_upd g) rfl rfl

theorem scan_upd (h : Committing s t) (g : Scan → Scan) : Committing s (t.scan' g) := h.of_mgmt (h.framed.scan_upd g) rfl rfl

theorem count (h : Committing s t) (r c i n : ℕ) : Committing s (t.count r c i n) :=
  h.of_mgmt (h.framed.count r c i n) (State.count_mgmt _ _ _ _ _) (Io.calm_count ..).tick

theorem foldl {α : Type} {l : List α} {g : State → α → State} (h : Committing s t)
    (k : ∀ x ∈ l, ∀ w, Committing s w → Committing s (g w x)) : Committing s (l.foldl g t) :=
  List.foldlRecOn (motive := fun w : State => Committing s w) l _ h fun w hw x hx => k x hx w hw

theorem showStale (h : Committing s t) : Committing s t.showStale := h.setBit Fd.CHIP_PROOF_STATUS_STALE _

theorem stage (h : Committing s t) (a : ℕ) (w : Word) : Committing s (t.stage a w) :=
  (((h.io_upd _ rfl rfl).chip_upd _).set Fd.CHIP_SKETCH_GEN_GEN _).showStale

theorem startProof (h : Committing s t) : Committing s t.startProof :=
  (((h.set Fd.CHIP_PROOF_GO _).set Fd.CHIP_PROOF_STATUS_STATE _).set Fd.CHIP_PROOF_STATUS_STALE _).chip_upd _

theorem finishProof (h : Committing s t) : Committing s t.finishProof := by
  unfold State.finishProof
  dsimp only
  split
  · exact ((((h.set Fd.CHIP_PROOF_GO _).set Fd.CHIP_PROOF_STATUS_STATE _).set Fd.CHIP_PROOF_STATUS_RULE _).set
      Fd.CHIP_PROOF_ADDR_OFFSET _).chip_upd _ |>.showStale
  · exact ((((h.set Fd.CHIP_PROOF_GO _).set Fd.CHIP_PROOF_STATUS_STATE _).set Fd.CHIP_PROOF_STATUS_RULE _).set
      Fd.CHIP_PROOF_ADDR_OFFSET _).showStale

theorem pendSwap (h : Committing s t) (w : Wide) {e : ℕ} (he : e < 8) : Committing s (t.pendSwap w e) := by
  have hregion : (Fd.SCAN_EASEL_STAT_SWAP_PEND e).off / 0x200000 ∈ regions := by
    have htwo : (Fd.SCAN_EASEL_STAT_SWAP_PEND e).off / 0x200000 = 2 := by
      simp only [Fd.SCAN_EASEL_STAT_SWAP_PEND]
      omega
    rw [htwo]
    decide
  unfold State.pendSwap
  dsimp only
  split
  · exact h
  · exact ((h.set _ 1 hregion).scan_upd _).secu_upd _

theorem fixCommit (h : Committing s t) (w : Wide) : Committing s (t.fixCommit w) := by
  have hfixed := (((h.chip_upd fun c => { c with phase := 2 }).set Fd.CHIP_COMMIT_STATUS_STATE 2).set
    Fd.CHIP_VARNISH_TICK_LO_TICK (w.toNat % 2 ^ 32)).set Fd.CHIP_VARNISH_TICK_HI_TICK (w.toNat / 2 ^ 32)
  unfold State.fixCommit
  refine foldl hfixed fun e he z hz => hz.pendSwap w ?_
  simp only [easelList, List.mem_cons, List.not_mem_nil, or_false] at he
  omega

theorem showPend (h : Committing s t) : Committing s t.showPend := by
  have hregion : ∀ n ∈ [0, 1, 2, 3], (Fd.HST_FLT_STAT_PEND n).off / 0x200000 ∈ regions := by decide
  unfold State.showPend
  exact foldl h fun n hn z hz => hz.setBit _ _ (hregion n hn)

theorem noRetry (h : Committing s t) : Committing s (t.mgmt' fun m => { m with calRetry := false }) := by
  obtain ⟨b, hb⟩ := h.mgmt
  exact ⟨h.framed.mgmt_upd _, ⟨false, by rw [State.mgmt_upd_mgmt, hb]⟩, h.tick⟩

end Committing

/-! ## An accepted commit -/

/-- The state with a commit accepted, before its instant sets the varnish tick. -/
def accepted (instant eng : ℕ) (s : State) : State :=
  ((s.io' fun x => { x with shadow := x.sketch }).chip' fun c =>
      { c with proofFresh := false, phase := 1, waitEng := eng, waitFrame := instant == 2, since := [], held := [] })
    |>.set Fd.CHIP_COMMIT_GEN_GEN (s.get Fd.CHIP_SKETCH_GEN_GEN)
    |>.set Fd.CHIP_COMMIT_STATUS_STATE 1 |>.count 0 Src.CHIP_COMMITS 0 1 |>.showPend
    |>.mgmt' fun m => { m with calRetry := false }

/-- The varnish tick that the instant gives a commit accepted now. -/
def varnishAt (instant eng : ℕ) (tick : Wide) (s : State) : Option Wide :=
  if instant = 0 then some (s.tick + BitVec.ofNat 64 commitLead)
  else if instant = 3 then some tick
  else (s.scan.lines.find? (qualifies eng (instant == 2) s.tick)).map LineRec.start

theorem acceptCommit_eq (instant eng : ℕ) (tick : Wide) (s : State) : s.acceptCommit instant eng tick =
    match varnishAt instant eng tick s with
    | some w => (accepted instant eng s).fixCommit w
    | none => accepted instant eng s := by
  have hlet : s.acceptCommit instant eng tick = match instant with
      | 0 => (accepted instant eng s).fixCommit (s.tick + BitVec.ofNat 64 commitLead)
      | 3 => (accepted instant eng s).fixCommit tick
      | _ => match s.scan.lines.find? (qualifies eng (instant == 2) s.tick) with
        | some l => (accepted instant eng s).fixCommit l.start
        | none => accepted instant eng s := rfl
  rw [hlet]
  generalize accepted instant eng s = z
  unfold varnishAt
  split
  · rw [if_pos rfl]
  · rw [if_neg (by decide), if_pos rfl]
  next h0 h3 =>
    rw [if_neg h0, if_neg h3]
    cases s.scan.lines.find? (qualifies eng (instant == 2) s.tick) with
    | none => rfl
    | some l => rfl

theorem committing_accepted (h : Committing s t) (instant eng : ℕ) : Committing s (accepted instant eng t) :=
  ((((h.io_upd _ rfl rfl).chip_upd _).set Fd.CHIP_COMMIT_GEN_GEN _).set Fd.CHIP_COMMIT_STATUS_STATE 1).count _ _ _ _
    |>.showPend |>.noRetry

theorem committing_acceptCommit (h : Committing s t) (instant eng : ℕ) (tick : Wide) :
    Committing s (t.acceptCommit instant eng tick) := by
  rw [acceptCommit_eq]
  split
  · exact (committing_accepted h instant eng).fixCommit _
  · exact committing_accepted h instant eng

theorem committing_requestCommit (h : Committing s t) (src instant eng : ℕ) (tick : Wide) :
    Committing s (t.requestCommit src instant eng tick) := by
  unfold State.requestCommit
  split
  split
  · exact committing_acceptCommit (((h.set Fd.CHIP_COMMIT_STATUS_REASON 0).set Fd.CHIP_COMMIT_STATUS_REGION 0).set
      Fd.CHIP_COMMIT_STATUS_SRC _) _ _ _
  · exact ((((h.set Fd.CHIP_COMMIT_STATUS_REASON _).set Fd.CHIP_COMMIT_STATUS_REGION _).set Fd.CHIP_COMMIT_STATUS_SRC _).set
      Fd.CHIP_COMMIT_STATUS_STATE 4).count _ _ _ _

/-! ## What the commit's registers show -/

theorem get_pendSwap {f : Field} (hf : f.off < 0x00410000) (w : Wide) (e : ℕ) (s : State) : (s.pendSwap w e).get f = s.get f
    := by
  unfold State.pendSwap
  dsimp only
  split
  · rfl
  · rw [State.get_secu_upd]
    exact State.get_set_off _ _ (by simp only [Fd.SCAN_EASEL_STAT_SWAP_PEND]; omega)

theorem chip_pendSwap (w : Wide) (e : ℕ) (s : State) : (s.pendSwap w e).chip = s.chip := by
  unfold State.pendSwap
  dsimp only
  split
  · rfl
  · have heasel (g : Easel → Easel) (v : State) : (v.easel' e g).chip = v.chip := rfl
    rw [State.secu_upd_chip, heasel, State.set_chip]

/-- The state with the commit FIXED, before the easels' swaps become pending. -/
def fixedAt (w : Wide) (s : State) : State :=
  (s.chip' fun c => { c with phase := 2 }).set Fd.CHIP_COMMIT_STATUS_STATE 2 |>.set Fd.CHIP_VARNISH_TICK_LO_TICK
      (w.toNat % 2 ^ 32)
    |>.set Fd.CHIP_VARNISH_TICK_HI_TICK (w.toNat / 2 ^ 32)

theorem fixCommit_eq (w : Wide) (s : State) : s.fixCommit w = easelList.foldl (fun s e => s.pendSwap w e) (fixedAt w s) := rfl

theorem get_fixCommit {f : Field} (hf : f.off < 0x00410000) (w : Wide) (s : State) : (s.fixCommit w).get f =
    (fixedAt w s).get f := by
  rw [fixCommit_eq]
  exact List.foldlRecOn (motive := fun z : State => z.get f = (fixedAt w s).get f) _ _ rfl fun z hz e _ =>
      (get_pendSwap hf w e z).trans hz

theorem chip_fixCommit (w : Wide) (s : State) : (s.fixCommit w).chip = { s.chip with phase := 2 } := by
  rw [fixCommit_eq]
  have hfixed : (fixedAt w s).chip = { s.chip with phase := 2 } := by
    unfold fixedAt
    rw [State.set_chip, State.set_chip, State.set_chip, State.chip_upd_chip]
  exact List.foldlRecOn (motive := fun z : State => z.chip = { s.chip with phase := 2 }) _ _ hfixed fun z hz e _ =>
    (chip_pendSwap w e z).trans hz

theorem fixCommit_shows (w : Wide) (s : State) :
    (s.fixCommit w).get Fd.CHIP_COMMIT_STATUS_STATE = 2 ∧ (s.fixCommit w).varnishTick = w ∧
      (s.fixCommit w).get Fd.CHIP_COMMIT_STATUS_SRC = s.get Fd.CHIP_COMMIT_STATUS_SRC ∧ (s.fixCommit w).commitFixed = true := by
  have hlow : (fixedAt w s).get Fd.CHIP_VARNISH_TICK_LO_TICK = w.toNat % 2 ^ 32 := by
    unfold fixedAt
    rw [State.get_set_off _ _ (by decide), State.get_set _ _ _ (by decide) (by decide)]
    exact Nat.mod_mod _ _
  have hhigh : (fixedAt w s).get Fd.CHIP_VARNISH_TICK_HI_TICK = w.toNat / 2 ^ 32 := by
    unfold fixedAt
    rw [State.get_set _ _ _ (by decide) (by decide)]
    exact Nat.mod_eq_of_lt (Nat.div_lt_of_lt_mul w.isLt)
  refine ⟨?_, ?_, ?_, ?_⟩
  · rw [get_fixCommit (by decide)]
    unfold fixedAt
    rw [State.get_set_off _ _ (by decide), State.get_set_off _ _ (by decide), State.get_set _ _ _ (by decide) (by decide)]
    rfl
  · unfold State.varnishTick
    rw [get_fixCommit (by decide), get_fixCommit (by decide), hlow, hhigh]
    refine BitVec.eq_of_toNat_eq ?_
    rw [BitVec.toNat_ofNat, Nat.mul_comm, Nat.mod_add_div]
    exact Nat.mod_eq_of_lt w.isLt
  · rw [get_fixCommit (by decide)]
    unfold fixedAt
    rw [State.get_set_off _ _ (by decide), State.get_set_off _ _ (by decide), State.get_set_apart _ _ (by decide),
        State.get_chip_upd]
  · unfold State.commitFixed
    rw [chip_fixCommit]
    rfl

theorem get_showPend {f : Field} (hf : f.off < 0x01000000) (s : State) : s.showPend.get f = s.get f := by
  unfold State.showPend
  refine List.foldlRecOn (motive := fun z : State => z.get f = s.get f) _ _ rfl fun z hz n _ =>
      (State.get_set_off _ _ ?_).trans hz
  simp only [Fd.HST_FLT_STAT_PEND]
  omega

theorem chip_showPend (s : State) : s.showPend.chip = s.chip := by
  unfold State.showPend
  exact List.foldlRecOn (motive := fun z : State => z.chip = s.chip) _ _ rfl fun z hz n _ => (State.setBit_chip _ _ _).trans hz

theorem accepted_shows (instant eng : ℕ) (s : State) :
    (accepted instant eng s).get Fd.CHIP_COMMIT_STATUS_STATE = 1 ∧
      (accepted instant eng s).get Fd.CHIP_COMMIT_STATUS_SRC = s.get Fd.CHIP_COMMIT_STATUS_SRC ∧
      (accepted instant eng s).commitWaiting = true := by
  unfold accepted
  refine ⟨?_, ?_, ?_⟩
  · rw [State.get_mgmt_upd, get_showPend (by decide), State.get_count _ _ _ _ _ (by decide), State.get_set _ _ _ (by decide)
      (by decide)]
    rfl
  · rw [State.get_mgmt_upd, get_showPend (by decide), State.get_count _ _ _ _ _ (by decide), State.get_set_apart _ _
      (by decide),
      State.get_set_off _ _ (by decide), State.get_chip_upd]
    rfl
  · unfold State.commitWaiting
    rw [State.mgmt_upd_chip, chip_showPend, State.count_chip, State.set_chip, State.set_chip]
    rfl

/-- The request's reason, region and requester written. -/
def requested (src : ℕ) (s : State) : State :=
  s.set Fd.CHIP_COMMIT_STATUS_REASON 0 |>.set Fd.CHIP_COMMIT_STATUS_REGION 0 |>.set Fd.CHIP_COMMIT_STATUS_SRC src

theorem requestCommit_accepted {src instant eng : ℕ} {tick : Wide} (h : s.refusal instant tick = (0, 0)) :
    s.requestCommit src instant eng tick = (requested src s).acceptCommit instant eng tick := by
  unfold State.requestCommit
  rw [h]
  exact if_pos rfl

theorem requested_frame (src : ℕ) (s : State) : (requested src s).tick = s.tick ∧ (requested src s).scan = s.scan ∧
    (src < 16 → (requested src s).get Fd.CHIP_COMMIT_STATUS_SRC = src) := by
  have hset (f : Field) (n : ℕ) (z : State) : (z.set f n).tick = z.tick := rfl
  unfold requested
  refine ⟨by simp only [hset], by rw [State.set_scan, State.set_scan, State.set_scan], fun h => ?_⟩
  rw [State.get_set _ _ _ (by decide) (by decide)]
  exact Nat.mod_eq_of_lt h

/-- An accepted commit: its requester shown, and FIXED as its instant says, or waiting. -/
theorem requestCommit_shows {src instant eng : ℕ} {tick : Wide} (hsrc : src < 16) (h : s.refusal instant tick = (0, 0)) :
    (s.requestCommit src instant eng tick).get Fd.CHIP_COMMIT_STATUS_SRC = src ∧
      match varnishAt instant eng tick s with
      | some w => (s.requestCommit src instant eng tick).get Fd.CHIP_COMMIT_STATUS_STATE = 2 ∧
          (s.requestCommit src instant eng tick).varnishTick = w ∧ (s.requestCommit src instant eng tick).commitFixed = true
      | none => (s.requestCommit src instant eng tick).get Fd.CHIP_COMMIT_STATUS_STATE = 1 ∧
          (s.requestCommit src instant eng tick).commitWaiting = true := by
  obtain ⟨htick, hscan, hshown⟩ := requested_frame src s
  have hsame : varnishAt instant eng tick (requested src s) = varnishAt instant eng tick s := by
    unfold varnishAt
    rw [htick, hscan]
  rw [requestCommit_accepted h, acceptCommit_eq, hsame]
  obtain ⟨hstate, hacc, hwait⟩ := accepted_shows instant eng (requested src s)
  cases varnishAt instant eng tick s with
  | some w =>
    obtain ⟨hfixed, hvarnish, hkept, hphase⟩ := fixCommit_shows w (accepted instant eng (requested src s))
    exact ⟨by rw [hkept, hacc, hshown hsrc], hfixed, hvarnish, hphase⟩
  | none => exact ⟨by rw [hacc, hshown hsrc], hstate, hwait⟩

end Sys2Proof.Machine.Commits
end

section
/-!
SUPPORT. An image that comes in pieces (R52): the bytes of its load, and the status of a piece.
-/
-- One thread for the lemmas: a thread for each would ask for more memory than a build may have.
set_option Elab.async false

namespace Sys2Proof.Machine.Pieces
open Sys2Proof.Machine

variable {s : State} {op n : ℕ}

/-- The bytes that earlier pieces under the same tag have brought. -/
def hadBytes (op : ℕ) (s : State) : ℕ :=
  match s.mgmt.load with
  | some p => if p.opcode = op ∧ p.tag = s.mbxTag then p.bytes else 0
  | none => 0

/-- The state with the load as this piece leaves it. -/
def pieceIn (op : ℕ) (s : State) : State :=
  s.mgmt' fun m =>
    { m with load := if s.mbxContinued then some ⟨op, s.mbxTag, hadBytes op s + s.mbxLength⟩ else none }

theorem loadPiece_eq (op : ℕ) (s : State) : s.loadPiece op = (hadBytes op s + s.mbxLength, pieceIn op s) := rfl

theorem load_pieceIn (op : ℕ) (s : State) : (pieceIn op s).mgmt.load =
    if s.mbxContinued then some ⟨op, s.mbxTag, hadBytes op s + s.mbxLength⟩ else none := rfl

theorem orphan_pieceIn (op : ℕ) (s : State) : (pieceIn op s).mgmt.orphan = s.mgmt.orphan := rfl

theorem pieceStatus_lost (fits : Bool) (s : State) : s.pieceStatus false fits = stSTORAGE_FAIL := rfl

theorem pieceStatus_continued (fits : Bool) (h : s.mbxContinued = true) : s.pieceStatus true fits = stOK :=
  (if_neg (by decide)).trans (if_pos (by rw [h]; rfl))

theorem pieceStatus_last (fits : Bool) (h : s.mbxContinued = false) :
    s.pieceStatus true fits = if fits then stOK else stBAD_LENGTH := by
  unfold State.pieceStatus
  rw [if_neg (by decide), h]
  cases fits <;> rfl

end Sys2Proof.Machine.Pieces
end

section
/-!
SETTLES O44. Scan profiles: their load, their activation and the two reports (R52, R54, R391).
-/
-- One thread for the lemmas: a thread for each would ask for more memory than a build may have.
set_option Elab.async false

namespace Sys2Proof.Machine.Profiles
open Sys2Proof.Machine Mailbox Pieces Commits

variable {s t : State} {img i : Image} {n : ℕ} {tick : Wide}

/-! ## The load -/

/-- The load kept back, and its answer. -/
def unverified (status : ℕ) (s : State) : State :=
  ((pieceIn 0x0601 s).safe' fun x => { x with verified := false }).answer status []

/-- The image loaded and judged. -/
def loaded (img : Image) (s : State) : State :=
  ((pieceIn 0x0601 s).safe' fun x => { x with image := some img, verified := s.imageGood 2 img }).answer
    (if s.imageGood 2 img then stOK else stSIGNATURE_FAIL) []

theorem exec_profileLoad (stored : Bool) (h : s.asks 0x0601 n) : exec (.profileLoad img stored) s = .next
    (if decide (s.pieceStatus stored (hadBytes 0x0601 s + n == (imageBytes img).length) ≠ stOK) || s.mbxContinued then
      unverified (s.pieceStatus stored (hadBytes 0x0601 s + n == (imageBytes img).length)) s
    else loaded img s) := by
  have hlen : s.mbxLength = n := h.2.2
  rw [← hlen]
  change execProfileLoad img stored s = _
  unfold execProfileLoad
  exact command_served h rfl

theorem load_kept {status : ℕ} {stored : Bool} (h : s.asks 0x0601 n)
    (hstatus : s.pieceStatus stored (hadBytes 0x0601 s + n == (imageBytes img).length) = status)
    (hkept : status ≠ stOK ∨ s.mbxContinued = true) : exec (.profileLoad img stored) s = .next (unverified status s) := by
  rw [exec_profileLoad stored h, hstatus, if_pos (by simpa using hkept)]

theorem load_last (h : s.asks 0x0601 n) (hcont : s.mbxContinued = false)
    (hfit : hadBytes 0x0601 s + n = (imageBytes img).length) :
    exec (.profileLoad img true) s = .next (loaded img s) := by
  rw [exec_profileLoad true h, pieceStatus_last _ hcont, hfit, hcont]
  exact congrArg _ (if_neg (by simp))

theorem unverified_shows (h : s.asks 0x0601 n) (status : ℕ) : s.within [.safe, .mgmt] (unverified status s) ∧
    s.onlyRegs [] (unverified status s) ∧ (unverified status s).safe.verified = false ∧
    (unverified status s).mgmt.load = (pieceIn 0x0601 s).mgmt.load ∧ (unverified status s).answered status [] := by
  have horphan : ((pieceIn 0x0601 s).safe' fun x => { x with verified := false }).mgmt.orphan = none := h.2.1
  refine ⟨within_answer (((State.within_refl s _).mgmt_upd _).safe_upd _), onlyRegs_answer
      ((State.onlyRegs_refl s _).of_reg fun _ => rfl),
    rfl, ?_, answered_answer horphan⟩
  unfold unverified State.answer
  rw [mgmt_answerAs horphan]
  rfl

theorem profileLoad_completes (stored : Bool) (h : s.asks 0x0601 n) :
    ∃ t, exec (.profileLoad img stored) s = .next t ∧ s.within [.safe, .mgmt] t ∧ s.onlyRegs [] t ∧
      if stored = false then t.safe.verified = false ∧ t.answered stSTORAGE_FAIL []
      else if s.mbxContinued = true then
        t.safe.verified = false ∧ t.mgmt.load.map (·.bytes) = some (hadBytes 0x0601 s + n) ∧ t.answered stOK []
      else if hadBytes 0x0601 s + n ≠ (imageBytes img).length then t.safe.verified = false ∧ t.answered stBAD_LENGTH []
      else t.safe.image = some img ∧ t.safe.verified = s.imageGood 2 img ∧ t.mgmt.load = none ∧
        t.answered (if s.imageGood 2 img then stOK else stSIGNATURE_FAIL) [] := by
  cases stored with
  | false =>
    obtain ⟨hparts, hregs, hver, -, hans⟩ := unverified_shows h stSTORAGE_FAIL
    exact ⟨_, load_kept h (pieceStatus_lost _ s) (Or.inl (by decide)), hparts, hregs, (if_pos rfl).symm ▸ ⟨hver, hans⟩⟩
  | true =>
    simp only [Bool.true_eq_false, if_false]
    by_cases hcont : s.mbxContinued = true
    · obtain ⟨hparts, hregs, hver, hload, hans⟩ := unverified_shows h stOK
      refine ⟨_, load_kept h (pieceStatus_continued _ hcont) (Or.inr hcont), hparts, hregs, ?_⟩
      rw [if_pos hcont, hload, load_pieceIn, if_pos hcont, h.2.2]
      exact ⟨hver, rfl, hans⟩
    · simp only [if_neg hcont]
      rw [Bool.not_eq_true] at hcont
      by_cases hfit : hadBytes 0x0601 s + n = (imageBytes img).length
      · refine ⟨_, load_last h hcont hfit, within_answer (((State.within_refl s _).mgmt_upd _).safe_upd _),
          onlyRegs_answer ((State.onlyRegs_refl s _).of_reg fun _ => rfl), ?_⟩
        rw [if_neg (not_not.mpr hfit)]
        refine ⟨rfl, rfl, ?_, answered_answer h.2.1⟩
        have horphan : ((pieceIn 0x0601 s).safe' fun x =>
            { x with image := some img, verified := s.imageGood 2 img }).mgmt.orphan = none := h.2.1
        unfold loaded State.answer
        rw [mgmt_answerAs horphan]
        exact (load_pieceIn 0x0601 s).trans (if_neg (by simp [hcont]))
      · obtain ⟨hparts, hregs, hver, -, hans⟩ := unverified_shows h stBAD_LENGTH
        have hstatus : s.pieceStatus true (hadBytes 0x0601 s + n == (imageBytes img).length) = stBAD_LENGTH := by
          rw [pieceStatus_last _ hcont]
          exact if_neg (by simpa using hfit)
        refine ⟨_, load_kept h hstatus (Or.inl (by decide)), hparts, hregs, ?_⟩
        rw [if_pos hfit]
        exact ⟨hver, hans⟩

/-! ## The activation -/

theorem exec_profileActivate (stored : Bool) (h : s.asks 0x0602 8) : exec (.profileActivate tick stored) s = .next
    (if s.get Fd.CHIP_SKETCH_GEN_GEN ≠ s.get Fd.CHIP_COMMIT_GEN_GEN then s.answer stBUSY []
    else
      match s.safe.image with
      | none => s.answer stBAD_PARAM []
      | some i =>
        if !s.safe.verified || decide (i.svn.toNat < s.safe.verStored) then s.answer stBAD_PARAM []
        else s.activate i tick stored) := by
  change execProfileActivate tick stored s = _
  unfold execProfileActivate
  exact command_served h rfl

/-- The profile staged and proved. -/
def proved (i : Image) (s : State) : State := (s.stageProfile i).startProof.finishProof

/-- t differs from s as an activation may make it. -/
structure Activating (s t : State) : Prop where
  framed : Framed [.io, .scan, .safe, .mgmt, .secu, .chip] regions s t
  orphan : t.mgmt.orphan = s.mgmt.orphan

namespace Activating

theorem of_committing (h : Committing s t) : Activating s t := by
  obtain ⟨b, hb⟩ := h.mgmt
  exact ⟨h.framed.mono (by decide) fun _ hq => hq, by rw [hb]⟩

theorem trans {v : State} (h : Activating s t) (k : Activating t v) : Activating s v :=
  ⟨h.framed.trans k.framed, k.orphan.trans h.orphan⟩

theorem safe_upd (h : Activating s t) (g : Safe → Safe) : Activating s (t.safe' g) := ⟨h.framed.safe_upd g, h.orphan⟩

theorem answered (h : Activating s t) (horphan : s.mgmt.orphan = none) (status : ℕ) (payload : List Byte) :
    s.within [.io, .scan, .safe, .mgmt, .secu, .chip] (t.answerAs true status payload) ∧
      s.onlyRegions regions (t.answerAs true status payload) ∧ (t.answerAs true status payload).answeredLate status payload :=
  ⟨within_answerAs h.framed.parts true, h.framed.regs, answeredLate_answerAs (h.orphan.trans horphan)⟩

end Activating

theorem safe_of_committing (h : Committing s t) : t.safe = s.safe := (State.within_iff.mp h.framed.parts).2 .safe (by decide)

theorem proved_shows (i : Image) (s : State) : Activating s (proved i s) ∧ (proved i s).safe.verStored = s.safe.verStored := by
  have hstaged : Committing s ((s.each profileLocs fun a s => s.stage a (Config.profileWord i.body a)).scan' fun c =>
      { c with profileStaged := true }) :=
    (Committing.foldl (Committing.refl s) fun a _ w hw => hw.stage a _).scan_upd _
  have hproof : Committing (s.stageProfile i) (proved i s) := (Committing.refl _).startProof.finishProof
  refine ⟨((Activating.of_committing hstaged).safe_upd _).trans (Activating.of_committing hproof), ?_⟩
  rw [safe_of_committing hproof]
  unfold State.stageProfile
  rw [State.safe_upd_safe]
  dsimp only
  rw [safe_of_committing hstaged]

theorem exec_activate (stored : Bool) (h : s.asks 0x0602 8)
    (hgen : s.get Fd.CHIP_SKETCH_GEN_GEN = s.get Fd.CHIP_COMMIT_GEN_GEN) (himage : s.safe.image = some i)
    (hver : s.safe.verified = true) (hsvn : s.safe.verStored ≤ i.svn.toNat) :
    exec (.profileActivate tick stored) s = .next (s.activate i tick stored) := by
  rw [exec_profileActivate stored h, if_neg (not_not.mpr hgen), himage]
  exact congrArg _ (if_neg (by simpa [hver] using hsvn))

/-- The version taken as the stored one. -/
def versioned (i : Image) (s : State) : State :=
  (proved i s).safe' fun x =>
    { x with verStored := i.svn.toNat, activating := some (i.svn.toNat, Config.sha384 (imageBytes i)) }

theorem refuses_iff {a d : ℕ} {b c : Bool} :
    (decide (a ≠ 2) || !b || !c || decide (d ≠ 0)) = true ↔ a ≠ 2 ∨ b = false ∨ c = false ∨ d ≠ 0 := by
  simp [or_assoc]

theorem activate_eq (i : Image) (tick : Wide) (stored : Bool) (s : State) : s.activate i tick stored =
    if decide ((proved i s).get Fd.CHIP_PROOF_STATUS_STATE ≠ 2) || !ownFits (proved i s).safe.ownNext ||
        !(proved i s).safe.canNext.fits || decide (((proved i s).refusal 3 tick).1 ≠ 0) then (proved i s).answerAs true
            stBAD_PARAM []
    else if !stored then (proved i s).answerAs true stSTORAGE_FAIL []
    else ((versioned i s).requestCommit 0 3 0 tick).answerAs true stOK [] := by
  unfold State.activate versioned proved
  rfl

theorem safe_answerAs (past : Bool) (status : ℕ) (payload : List Byte) (t : State) :
    (t.answerAs past status payload).safe = t.safe := rfl

theorem activate_completes (stored : Bool) (h : s.mgmt.orphan = none) :
    s.within [.io, .scan, .safe, .mgmt, .secu, .chip] (s.activate i tick stored) ∧
      s.onlyRegions regions (s.activate i tick stored) ∧
      if (proved i s).get Fd.CHIP_PROOF_STATUS_STATE ≠ 2 ∨ ownFits (proved i s).safe.ownNext = false ∨
          (proved i s).safe.canNext.fits = false ∨ ((proved i s).refusal 3 tick).1 ≠ 0 then
        (s.activate i tick stored).answeredLate stBAD_PARAM [] ∧ (s.activate i tick stored).safe.verStored = s.safe.verStored
      else if stored = false then
        (s.activate i tick stored).answeredLate stSTORAGE_FAIL [] ∧ (s.activate i tick stored).safe.verStored = s.safe.verStored
      else (s.activate i tick stored).answeredLate stOK [] ∧ (s.activate i tick stored).safe.verStored = i.svn.toNat ∧
        (s.activate i tick stored).safe.activating = some (i.svn.toNat, Config.sha384 (imageBytes i)) := by
  obtain ⟨hproved, hstored⟩ := proved_shows i s
  by_cases href : (proved i s).get Fd.CHIP_PROOF_STATUS_STATE ≠ 2 ∨ ownFits (proved i s).safe.ownNext = false ∨
      (proved i s).safe.canNext.fits = false ∨ ((proved i s).refusal 3 tick).1 ≠ 0
  · rw [if_pos href, activate_eq, if_pos (refuses_iff.mpr href)]
    obtain ⟨hparts, hregs, hans⟩ := hproved.answered h stBAD_PARAM []
    exact ⟨hparts, hregs, hans, (congrArg _ (safe_answerAs ..)).trans hstored⟩
  · rw [if_neg href, activate_eq, if_neg (mt refuses_iff.mp href)]
    cases stored with
    | false =>
      obtain ⟨hparts, hregs, hans⟩ := hproved.answered h stSTORAGE_FAIL []
      exact ⟨hparts, hregs, hans, (congrArg _ (safe_answerAs ..)).trans hstored⟩
    | true =>
      have hcommit := committing_requestCommit (Committing.refl (versioned i s)) 0 3 0 tick
      have hall := (hproved.safe_upd _).trans (Activating.of_committing hcommit)
      obtain ⟨hparts, hregs, hans⟩ := hall.answered h stOK []
      have hsafe := safe_of_committing hcommit
      simp only [Bool.not_true, Bool.false_eq_true, Bool.true_eq_false, if_false]
      rw [safe_answerAs, hsafe]
      exact ⟨hparts, hregs, hans, rfl, rfl⟩

/-- The limits that the ceilings' report gives after the minima. -/
def ceilings : List Byte :=
  [0, 1, 2].flatMap (fun w => leBytes 4 (Config.otpLimMax w)) ++ leBytes 2 Config.otpStrayMax
    ++ (List.range 16).flatMap (fun m => leBytes 2 (Config.otpEdiagMin m)) ++ leBytes 2 Config.otpTmsgMax
    ++ leBytes 1 Config.otpWdogMax

theorem exec_profileCeil (h : s.asks 0x0604 0) : ∃ rest, exec .profileCeil s =
    .next (s.answer stOK ([0, 1, 2].flatMap (fun w => leBytes 1 (Config.otpBshMin w)) ++ rest)) := by
  refine ⟨ceilings, ?_⟩
  change execProfileCeil s = _
  unfold execProfileCeil
  refine (command_served h rfl).trans ?_
  unfold ceilings
  simp only [List.append_assoc]

/-- Settles O44, command by command. -/
theorem profilesComplete : Obligations.ProfilesComplete := by
  unfold Obligations.ProfilesComplete
  refine ⟨fun img stored n s h => profileLoad_completes stored h, fun i tick stored s h hgen himage hver hsvn => ?_,
    fun tick stored s h => ⟨fun hgen => ?_, fun hgen hno => ?_⟩, fun s h => ?_, fun s h => ?_⟩
  · have hall := activate_completes (i := i) (tick := tick) stored h.2.1
    unfold proved at hall
    exact ⟨_, exec_activate stored h hgen himage hver hsvn, hall⟩
  · exact ⟨_, (exec_profileActivate stored h).trans (congrArg _ (if_pos hgen)), within_answer (State.within_refl s _),
      answered_answer h.2.1⟩
  · have hexec : exec (.profileActivate tick stored) s = .next (s.answer stBAD_PARAM []) := by
      rw [exec_profileActivate stored h, if_neg (not_not.mpr hgen)]
      cases himage : s.safe.image with
      | none => rfl
      | some i => exact congrArg _ (if_pos (by simpa using hno i himage))
    exact ⟨_, hexec, within_answer (State.within_refl s _), answered_answer h.2.1⟩
  · have hexec : exec .profileInfo s = .next (s.answer stOK
        (leBytes 4 (s.get Fd.SAFE_PROF_VER_VER) ++ hashBytes (s.measurement 4) ++ leBytes 1 s.safeSt)) := by
      change execProfileInfo s = _
      unfold execProfileInfo
      exact command_served h rfl
    exact ⟨_, hexec, within_answer (State.within_refl s _), rfl, answered_answer h.2.1⟩
  · obtain ⟨rest, hexec⟩ := exec_profileCeil h
    exact ⟨_, _, hexec, within_answer (State.within_refl s _), rfl, answered_answer h.2.1, List.take_left' rfl⟩

end Sys2Proof.Machine.Profiles
end

section
/-!
SETTLES O54. Calibration: what falls due, its application, its store, its commands, and starvation (R462 to R467).
-/
-- One thread for the lemmas: a thread for each would ask for more memory than a build may have.
set_option Elab.async false

namespace Sys2Proof.Machine.Calibration
open Sys2Proof.Machine Mailbox Commits

variable {s t v : State} {k : Fin 5} {temp : BitVec 12} {x : Wide}

/-! ## Bytes in a report -/

theorem length_leBytes (n w : ℕ) : (leBytes n w).length = n := by simp [leBytes]

/-- One of the portions of equal length that follow each other. -/
theorem portion_at {α : Type} {g : α → List Byte} {c : ℕ} (hg : ∀ y, (g y).length = c) (front rest : List Byte) {l : List α}
    {i : ℕ}
    (h : i < l.length) : ((front ++ (l.flatMap g ++ rest)).drop (front.length + c * i)).take c = g l[i] := by
  rw [List.drop_length_add_append]
  induction l generalizing i with
  | nil => exact absurd h (by simp)
  | cons y l ih =>
    rw [List.flatMap_cons, List.append_assoc]
    cases i with
    | zero => exact List.take_left' (hg y)
    | succ j =>
      have hnext : c * (j + 1) = (g y).length + c * j := by rw [hg y, Nat.mul_succ, Nat.add_comm]
      rw [hnext, List.drop_length_add_append, List.getElem_cons_succ]
      exact ih (by simpa using h)

/-! ## A kind that waits -/

theorem pending_of_bit (k : Fin 5) : (calPending k).steady = true ∧ (calPending k).off / 0x200000 = 16 ∧
    (calPending k).off = Fd.MGMT_BG_STAT_PENDING.off ∧ (calPending k).lo = (calPending k).hi ∧ (calPending k).hi < 32 := by
  revert k
  decide

/-- The kind k pending, with the tick since which it waits. -/
def waits (k : ℕ) (s : State) : State :=
  (s.set (calPending k) 1).mgmt' fun m => { m with calPendAt := ins m.calPendAt k s.tick }

theorem calWaits_eq (k : ℕ) (s : State) : s.calWaits k = if s.is (calPending k) then s else waits k s := rfl

theorem get_set_one {f : Field} (hone : f.lo = f.hi) (hfit : f.hi < 32) (s : State) : (s.set f 1).get f = 1 := by
  rw [State.get_set _ _ _ hone.le hfit, hone]
  simp

theorem calWaits_frame (h : s.within [.io, .mgmt] t ∧ s.onlyRegs [Fd.MGMT_BG_STAT_PENDING.off] t) (k : ℕ) :
    s.within [.io, .mgmt] (t.calWaits k) ∧ s.onlyRegs [Fd.MGMT_BG_STAT_PENDING.off] (t.calWaits k) := by
  obtain ⟨hparts, hregs⟩ := h
  rw [calWaits_eq]
  split
  · exact ⟨hparts, hregs⟩
  · exact ⟨(hparts.set _ _).mgmt_upd _, (hregs.set (calPending k) 1 (.head _)).of_reg fun _ => rfl⟩

theorem calWaits_keeps (k : ℕ) (s : State) : (s.calWaits k).mgmt.orphan = s.mgmt.orphan ∧ (s.calWaits k).mgmt.calWait =
    s.mgmt.calWait ∧
    (s.calWaits k).tick = s.tick ∧ (s.calWaits k).mgmt.calDelays = s.mgmt.calDelays ∧
    (s.calWaits k).mgmt.calCoeffs = s.mgmt.calCoeffs ∧ (s.calWaits k).mgmt.calKedge = s.mgmt.calKedge := by
  have htick (f : Field) (n : ℕ) (g : Mgmt → Mgmt) : ((s.set f n).mgmt' g).tick = s.tick := rfl
  rw [calWaits_eq]
  split
  · exact ⟨rfl, rfl, rfl, rfl, rfl, rfl⟩
  · unfold waits
    rw [State.mgmt_upd_mgmt, State.set_mgmt]
    exact ⟨rfl, rfl, htick _ _ _, rfl, rfl, rfl⟩

theorem get_calWaits (k : Fin 5) (s : State) : (s.calWaits k).get (calPending k) = 1 := by
  obtain ⟨-, -, -, hone, hfit⟩ := pending_of_bit k
  rw [calWaits_eq]
  split
  case isTrue h => exact beq_iff_eq.mp h
  case isFalse =>
    unfold waits
    rw [State.get_mgmt_upd, get_set_one hone hfit]

/-! ## A kind that falls due -/

theorem exec_calDue (hatt : s.attests = true) (hfalls : s.calFalls k temp.toNat = true) : exec (.calDue k temp) s = .next
    (if !s.tbas.running || s.commitWaiting || s.commitFixed || s.mgmt.calRetry then s.calWaits k
    else if s.sketchClean then (s.calWaits k).calApply k temp.toNat
    else (s.calWaits k).mgmt' fun m => { m with calWait := some (m.calWait.getD s.tick) }) := by
  change execCalDue k temp s = _
  unfold execCalDue
  rw [if_neg (by simp [hatt, hfalls])]
  dsimp only
  split
  · rfl
  · split <;> rfl

theorem calDue_held (hatt : s.attests = true) (hfalls : s.calFalls k temp.toNat = true)
    (hheld : s.tbas.running = false ∨ s.commitWaiting = true ∨ s.commitFixed = true ∨ s.mgmt.calRetry = true) :
    ∃ t, exec (.calDue k temp) s = .next t ∧ s.within [.io, .mgmt] t ∧ s.onlyRegs [Fd.MGMT_BG_STAT_PENDING.off] t ∧
      t.get (calPending k) = 1 := by
  obtain ⟨hparts, hregs⟩ := calWaits_frame (s := s) ⟨State.within_refl s _, State.onlyRegs_refl s _⟩ k
  have hexec := (exec_calDue hatt hfalls).trans (congrArg _ (if_pos (by obtain h | h | h | h := hheld <;> simp [h])))
  exact ⟨_, hexec, hparts, hregs, get_calWaits k s⟩

theorem calDue_waits (hatt : s.attests = true) (hfalls : s.calFalls k temp.toNat = true) (hrun : s.tbas.running = true)
    (hwait : s.commitWaiting = false) (hfix : s.commitFixed = false) (hretry : s.mgmt.calRetry = false)
    (hclean : s.sketchClean = false) :
    ∃ t, exec (.calDue k temp) s = .next t ∧ s.within [.io, .mgmt] t ∧ s.onlyRegs [Fd.MGMT_BG_STAT_PENDING.off] t ∧
      t.get (calPending k) = 1 ∧ t.mgmt.calWait = some (s.mgmt.calWait.getD s.tick) := by
  obtain ⟨hparts, hregs⟩ := calWaits_frame (s := s) ⟨State.within_refl s _, State.onlyRegs_refl s _⟩ k
  obtain ⟨-, hsince, -⟩ := calWaits_keeps k s
  have hexec := (exec_calDue hatt hfalls).trans (congrArg _ ((if_neg (by simp [hrun, hwait, hfix, hretry])).trans
    (if_neg (by simp [hclean]))))
  refine ⟨_, hexec, hparts.mgmt_upd _, hregs.of_reg fun _ => rfl, ?_, ?_⟩
  · rw [State.get_mgmt_upd]
    exact get_calWaits k s
  · rw [State.mgmt_upd_mgmt, hsince]

/-! ## Its application -/

theorem committing_calStage (k : ℕ) (f : Field) (h : Committing s t) : Committing s (t.calStage k f) := by
  have hdrawn : Committing s t.drawWord.2 := h.io_upd (fun x => { x with free := x.free + 1 }) rfl rfl
  unfold State.calStage
  dsimp only
  split
  · exact hdrawn
  · exact hdrawn.stage _ _

theorem committing_calBack (k : ℕ) (h : Committing s t) : Committing s (t.calBack k) := by
  unfold State.calBack
  refine Committing.foldl h fun f _ w hw => ?_
  dsimp only
  split
  · exact hw
  · exact hw.stage _ _

/-- The kind staged, proved, and its commit requested. -/
def applied (k : ℕ) (s : State) : State :=
  ((s.each (calFields k) (State.calStage k)).startProof).finishProof.requestCommit 0 1 (s.get Fd.CHIP_COMMIT_ENG) 0

theorem committing_applied (k : ℕ) (s : State) : Committing s (applied k s) := by
  unfold applied
  refine committing_requestCommit (Committing.finishProof (Committing.startProof ?_)) _ _ _ _
  exact Committing.foldl (Committing.refl s) fun f _ w hw => committing_calStage k f hw

/-- A commit is in hand. -/
def inHand (s : State) : Bool := s.commitWaiting || s.commitFixed

theorem inHand_of_phase (h : t.chip.phase = s.chip.phase) : inHand t = inHand s := by
  unfold inHand State.commitWaiting State.commitFixed
  rw [h]

/-- The kind applied: no longer pending, with its tick and temperature. -/
def taken (k temp : ℕ) (w : Wide) (s : State) : State :=
  (((s.set (calPending k) 0 |>.set (calReq k) 0).mgmt' fun m =>
      { m with calAt := ins m.calAt k w, calTemp := ins m.calTemp k temp, calPendAt := del m.calPendAt k
               calWait := none, calTold := false }).count
    16 Src.MGMT_CAL_APPLIED 0 1).err { level := 0, region := 16, block := 1, code := 0x1084, action := 1 }

theorem calApply_eq (k temp : ℕ) (s : State) : s.calApply k temp =
    if inHand (applied k s) then taken k temp s.tick (applied k s)
    else ((applied k s).calBack k).mgmt' fun m => { m with calRetry := true } := by
  unfold State.calApply taken inHand applied
  rfl

theorem taken_shows (k : Fin 5) (temp : ℕ) (w : Wide) (s : State) :
    Framed [.io, .scan, .mgmt, .secu, .chip] [0, 2, 8, 9, 10, 11, 16] s (taken k temp w s) ∧ (taken k temp w s).chip = s.chip ∧
      (taken k temp w s).get (calPending k) = 0 ∧ look (taken k temp w s).mgmt.calAt k = some w ∧
      look (taken k temp w s).mgmt.calTemp k = some temp := by
  obtain ⟨hsteady, hregion, -, hone, hfit⟩ := pending_of_bit k
  have hreq : ∀ k : Fin 5, (calReq k).apart (calPending k) = true ∧ (calReq k).off / 0x200000 = 16 := by decide
  obtain ⟨hapart, hreqRegion⟩ := hreq k
  unfold taken
  refine ⟨?_, ?_, ?_, ?_, ?_⟩
  · exact (((((Framed.refl _ _ s).set _ _ (by decide) (by rw [hregion]; decide)).set _ _ (by decide)
      (by rw [hreqRegion]; decide)).mgmt_upd _).count _ _ _ _).err _
  · rw [State.err_chip, State.count_chip, State.mgmt_upd_chip, State.set_chip, State.set_chip]
  · rw [State.get_err _ _ hsteady, State.get_count _ _ _ _ _ hsteady, State.get_mgmt_upd, State.get_set_apart _ _ hapart,
      State.get_set _ _ _ hone.le hfit]
    exact Nat.zero_mod _
  · rw [State.err_mgmt, State.count_mgmt, State.mgmt_upd_mgmt]
    exact look_ins_same _ _ _
  · rw [State.err_mgmt, State.count_mgmt, State.mgmt_upd_mgmt]
    exact look_ins_same _ _ _

theorem phase_stage (a : ℕ) (w : Word) (s : State) : (s.stage a w).chip.phase = s.chip.phase := by
  unfold State.stage State.showStale
  dsimp only
  rw [State.setBit_chip, State.bump_chip]
  rfl

theorem phase_calBack (k : ℕ) (s : State) : (s.calBack k).chip.phase = s.chip.phase := by
  unfold State.calBack
  refine List.foldlRecOn (motive := fun w : State => w.chip.phase = s.chip.phase) _ _ rfl fun w hw f _ => ?_
  dsimp only
  split
  · exact hw
  · exact (phase_stage _ _ w).trans hw

theorem calDue_applied (hatt : s.attests = true) (hfalls : s.calFalls k temp.toNat = true) (hrun : s.tbas.running = true)
    (hwait : s.commitWaiting = false) (hfix : s.commitFixed = false) (hretry : s.mgmt.calRetry = false)
    (hclean : s.sketchClean = true) :
    ∃ t, exec (.calDue k temp) s = .next t ∧ s.within [.io, .scan, .mgmt, .secu, .chip] t ∧
      s.onlyRegions [0, 2, 8, 9, 10, 11, 16] t ∧
      (inHand t = true → t.get (calPending k) = 0 ∧ look t.mgmt.calAt k = some s.tick ∧ look t.mgmt.calTemp k = some
          temp.toNat) ∧
      (inHand t = false → t.get (calPending k) = 1 ∧ t.mgmt.calRetry = true) := by
  obtain ⟨hparts, hregs⟩ := calWaits_frame (s := s) ⟨State.within_refl s _, State.onlyRegs_refl s _⟩ k
  obtain ⟨-, -, htick, -⟩ := calWaits_keeps k s
  obtain ⟨hsteady, hregion, -⟩ := pending_of_bit k
  have hfirst : Framed [.io, .scan, .mgmt, .secu, .chip] [0, 2, 8, 9, 10, 11, 16] s (s.calWaits k) :=
    ⟨hparts.mono (by decide), hregs.regions (by decide)⟩
  have happlied := committing_applied k (s.calWaits k)
  have hsecond := hfirst.trans (happlied.framed.mono (by decide) (by decide))
  have hexec := (exec_calDue hatt hfalls).trans (congrArg _ ((if_neg (by simp [hrun, hwait, hfix, hretry])).trans
      (if_pos hclean)))
  rw [calApply_eq, htick] at hexec
  cases hhand : inHand (applied k (s.calWaits k)) with
  | true =>
    rw [if_pos hhand] at hexec
    obtain ⟨hlast, hchip, hget, hat, htemp⟩ := taken_shows k temp.toNat s.tick (applied k (s.calWaits k))
    have hall := hsecond.trans hlast
    have hsame := inHand_of_phase (congrArg Chip.phase hchip)
    exact ⟨_, hexec, hall.parts, hall.regs, fun _ => ⟨hget, hat, htemp⟩, fun hno => by
      rw [hsame, hhand] at hno
      cases hno⟩
  | false =>
    rw [if_neg (by simp [hhand])] at hexec
    have hback := committing_calBack k happlied
    have hall := (hfirst.trans (hback.framed.mono (by decide) (by decide))).mgmt_upd fun m => { m with calRetry := true }
    have hsame : inHand (((applied k (s.calWaits k)).calBack k).mgmt' fun m => { m with calRetry := true }) = false := by
      refine (inHand_of_phase ?_).trans hhand
      rw [State.mgmt_upd_chip]
      exact phase_calBack k _
    refine ⟨_, hexec, hall.parts, hall.regs, fun hyes => ?_, fun _ => ⟨?_, rfl⟩⟩
    · rw [hsame] at hyes
      cases hyes
    · rw [State.get_mgmt_upd, hback.framed.get hsteady (by rw [hregion]; decide)]
      exact get_calWaits k s

theorem calDue_still (h : s.attests = false ∨ s.calFalls k temp.toNat = false) : exec (.calDue k temp) s = .next s := by
  refine if_pos ?_
  obtain h | h := h <;> simp [h]

/-! ## The wait reported -/

theorem calDeferred_still (h : s.mgmt.calWait = none ∨ s.mgmt.calTold = true ∨ s.sketchClean = true) :
    exec .calDeferred s = .next s := by
  change execCalDeferred s = _
  unfold execCalDeferred
  split
  · rfl
  case h_2 y hy =>
    refine if_pos ?_
    obtain h | h | h := h
    · rw [hy] at h
      cases h
    · simp [h]
    · simp [h]

/-- The wait reported. -/
def deferred (s : State) : State :=
  ((s.set Fd.MGMT_BG_STAT_CAL_DEFERRED 1 |>.count 16 Src.MGMT_CAL_DEFERRED 0 1).mgmt' fun m => { m with calTold := true }).err
    { level := 0, region := 16, block := 1, code := 0x1086, warning := true }

theorem deferred_shows (s : State) : s.within [.io, .mgmt] (deferred s) ∧ s.onlyRegs [Fd.MGMT_BG_STAT_CAL_DEFERRED.off]
    (deferred s) ∧
    (deferred s).tick = s.tick ∧ (deferred s).get Fd.MGMT_BG_STAT_CAL_DEFERRED = 1 ∧ (deferred s).mgmt.calTold = true := by
  have htick (f : Field) (n : ℕ) (v : State) : (v.set f n).tick = v.tick := rfl
  have hcount (r c i n : ℕ) (v : State) : (v.count r c i n).tick = v.tick := (Io.calm_count ..).tick
  have hupd (g : Mgmt → Mgmt) (v : State) : (v.mgmt' g).tick = v.tick := rfl
  have herr (e : Err) (v : State) : (v.err e).tick = v.tick := (Io.calm_err ..).tick
  unfold deferred
  refine ⟨?_, ?_, ?_, ?_, ?_⟩
  · exact ((((State.within_refl s _).set _ _).count _ _ _ _).mgmt_upd _).err _
  · exact (((((State.onlyRegs_refl s _).set _ _).count _ _ _ _).of_reg fun _ => rfl).err _)
  · rw [herr, hupd, hcount, htick]
  · rw [State.get_err _ _ (by decide), State.get_mgmt_upd, State.get_count _ _ _ _ _ (by decide)]
    exact get_set_one rfl (by decide) s
  · rw [State.err_mgmt, State.mgmt_upd_mgmt]

theorem calDeferred_told (hx : s.mgmt.calWait = some x) (htold : s.mgmt.calTold = false) (hclean : s.sketchClean = false)
    (htimely : s.timely (x + BitVec.ofNat 64 (10 * ticksPerS)) = true) :
    ∃ t, exec .calDeferred s = .next t ∧ s.within [.io, .mgmt] t ∧ s.onlyRegs [Fd.MGMT_BG_STAT_CAL_DEFERRED.off] t ∧
      t.tick = (s.reach (x + BitVec.ofNat 64 (10 * ticksPerS))).tick ∧ t.get Fd.MGMT_BG_STAT_CAL_DEFERRED = 1 ∧
      t.mgmt.calTold = true := by
  have hexec : exec .calDeferred s = .next (deferred (s.reach (x + BitVec.ofNat 64 (10 * ticksPerS)))) := by
    change execCalDeferred s = _
    unfold execCalDeferred
    rw [hx]
    dsimp only
    rw [if_neg (by simp [htold, hclean, htimely])]
    rfl
  obtain ⟨hparts, hregs, htick, hget, hsaid⟩ := deferred_shows (s.reach (x + BitVec.ofNat 64 (10 * ticksPerS)))
  exact ⟨_, hexec, ((State.within_refl s _).reach _).trans hparts, ((State.onlyRegs_refl s _).reach _).trans hregs, htick,
      hget, hsaid⟩

/-! ## The store -/

/-- The slot that a store makes. -/
def newSlot (stored : Bool) (s : State) : CalSlot :=
  { valid := stored, seq := s.calSlot.seq + 1, temps := s.mgmt.calTemp
    values := calAll.foldl (fun m f => wr resetWord m f.off (s.reg f.off)) []
    delays := s.mgmt.calDelays, coeffs := s.mgmt.calCoeffs, kedge := s.mgmt.calKedge }

/-- Slot A is the one in force. -/
def inA (m : Mgmt) : Bool := m.calA.valid && (!m.calB.valid || decide (m.calB.seq ≤ m.calA.seq))

theorem calSlot_eq (s : State) : s.calSlot = if inA s.mgmt then s.mgmt.calA else s.mgmt.calB := rfl

/-- The state with a new slot in the place of the older one. -/
def slotIn (n : CalSlot) (s : State) : State :=
  s.mgmt' fun m => if inA m then { m with calStored := some s.tick, calB := n } else
      { m with calStored := some s.tick, calA := n }

theorem exec_calStore (stored : Bool) (hatt : s.attests = true)
    (hlate : ∀ y, s.mgmt.calStored = some y → 10 * ticksPerS ≤ ahead y s.tick) :
    exec (.calStore stored) s = .next (slotIn (newSlot stored s) s) := by
  change execCalStore stored s = _
  unfold execCalStore
  dsimp only
  refine (if_neg ?_).trans rfl
  cases hy : s.mgmt.calStored with
  | none => simp [hatt]
  | some y =>
    simp only [hatt, Bool.not_true, Bool.false_or, decide_eq_true_eq, not_lt]
    exact hlate y hy

theorem calStore_still {stored : Bool} (h : s.attests = false ∨ ∃ y, s.mgmt.calStored = some y ∧ ahead y s.tick < 10 *
    ticksPerS) :
    exec (.calStore stored) s = .next s := by
  change execCalStore stored s = _
  unfold execCalStore
  dsimp only
  refine if_pos ?_
  obtain h | ⟨y, hy, hearly⟩ := h
  · simp [h]
  · rw [hy]
    simp only [Bool.or_eq_true, decide_eq_true_eq]
    exact Or.inr hearly

theorem calSlot_good {n : CalSlot} (hvalid : n.valid = true) (hseq : n.seq = s.calSlot.seq + 1) : (slotIn n s).calSlot = n := by
  rw [calSlot_eq] at hseq ⊢
  unfold slotIn
  rw [State.mgmt_upd_mgmt]
  by_cases hA : inA s.mgmt = true
  · rw [if_pos hA] at hseq ⊢
    exact if_neg (by simp [inA, hvalid, hseq])
  · rw [if_neg hA] at hseq ⊢
    exact if_pos (by simp [inA, hvalid, hseq])

theorem calSlot_bad {n : CalSlot} (hvalid : n.valid = false) : (slotIn n s).calSlot = s.calSlot := by
  rw [calSlot_eq, calSlot_eq]
  unfold slotIn
  rw [State.mgmt_upd_mgmt]
  by_cases hA : inA s.mgmt = true
  · have hvalidA : s.mgmt.calA.valid = true := by
      unfold inA at hA
      exact (Bool.and_eq_true_iff.mp hA).1
    rw [if_pos hA, if_pos hA]
    exact if_pos (by simp [inA, hvalid, hvalidA])
  · rw [if_neg hA, if_neg hA]
    exact if_neg (by simp [inA, hvalid])

theorem rd_stored (s : State) {f : Field} {l : List Field} (h : f ∈ l) (m : SMap Word) :
    rd resetWord (l.foldl (fun m f => wr resetWord m f.off (s.reg f.off)) m) f.off = s.reg f.off := by
  have hkeep (l : List Field) (m : SMap Word) (hm : rd resetWord m f.off = s.reg f.off) :
      rd resetWord (l.foldl (fun m f => wr resetWord m f.off (s.reg f.off)) m) f.off = s.reg f.off := by
    refine List.foldlRecOn (motive := fun m : SMap Word => rd resetWord m f.off = s.reg f.off) _ _ hm fun m hm g _ => ?_
    by_cases hg : f.off = g.off
    · rw [hg, rd_wr_same]
    · rw [rd_wr_other _ _ _ hg, hm]
  induction l generalizing m with
  | nil => exact absurd h List.not_mem_nil
  | cons g l ih =>
    obtain rfl | hin := List.mem_cons.mp h
    · exact hkeep l _ (rd_wr_same _ _ _ _)
    · exact ih hin _

theorem calStore_good (hatt : s.attests = true) (hlate : ∀ y, s.mgmt.calStored = some y → 10 * ticksPerS ≤ ahead y s.tick) :
    ∃ t, exec (.calStore true) s = .next t ∧ s.within [.mgmt] t ∧ t.io = s.io ∧ t.mgmt.calStored = some s.tick ∧
      t.calSlot.valid = true ∧ t.calSlot.seq = s.calSlot.seq + 1 ∧
      ∀ f ∈ calAll, rd resetWord t.calSlot.values f.off = s.reg f.off := by
  have hslot := calSlot_good (s := s) (n := newSlot true s) rfl rfl
  refine ⟨_, exec_calStore true hatt hlate, (State.within_refl s _).mgmt_upd _, rfl, ?_, ?_, ?_, fun f hf => ?_⟩
  · unfold slotIn
    rw [State.mgmt_upd_mgmt]
    split <;> rfl
  · rw [hslot]
    rfl
  · rw [hslot]
    rfl
  · rw [hslot]
    unfold newSlot
    dsimp only
    exact rd_stored s hf _

theorem calStore_bad (hatt : s.attests = true) (hlate : ∀ y, s.mgmt.calStored = some y → 10 * ticksPerS ≤ ahead y s.tick) :
    ∃ t, exec (.calStore false) s = .next t ∧ s.within [.mgmt] t ∧ t.io = s.io ∧ t.calSlot = s.calSlot :=
  ⟨_, exec_calStore false hatt hlate, (State.within_refl s _).mgmt_upd _, rfl, calSlot_bad rfl⟩

/-! ## The commands -/

/-- A request that is only answered. -/
theorem only_answer {i : Instr} {op n status : ℕ} {payload : List Byte} (h : s.asks op n)
    (hexec : exec i s = .next (s.answer status payload)) : ∃ t, exec i s = .next t ∧ s.within [.mgmt] t ∧
      t.answered status payload :=
  ⟨_, hexec, within_answer (State.within_refl s _), answered_answer h.2.1⟩

/-- One kind's part of the report. -/
def kindInfo (s : State) (k : ℕ) : List Byte :=
  leBytes 8 (rd (fun _ => (0 : Wide)) s.mgmt.calAt k).toNat ++ leBytes 2 (rd (fun _ => 0) s.mgmt.calTemp k)
    ++ leBytes 1 (s.get (calPending k))

theorem length_kindInfo (s : State) (k : ℕ) : (kindInfo s k).length = 11 := by
  unfold kindInfo
  rw [List.length_append, List.length_append, length_leBytes, length_leBytes, length_leBytes]

theorem exec_calInfo (h : s.asks 0x0301 0) : exec .calInfo s = .next
    (s.answer stOK ([0, 1, 2, 3, 4].flatMap (kindInfo s) ++ leBytes 4 s.calSlot.seq)) := by
  change execCalInfo s = _
  unfold execCalInfo
  exact command_served h rfl

theorem calInfo_completes (h : s.asks 0x0301 0) : ∃ t bytes, exec .calInfo s = .next t ∧ s.within [.mgmt] t ∧ t.answered
    stOK bytes ∧
    (∀ k : Fin 5, (bytes.drop (11 * k)).take 11 = kindInfo s k) ∧ bytes.drop 55 = leBytes 4 s.calSlot.seq := by
  have hpart (k : Fin 5) := portion_at (length_kindInfo s) [] (leBytes 4 s.calSlot.seq) (l := [0, 1, 2, 3, 4]) (i := k) k.isLt
  have hat : ∀ k : Fin 5, [0, 1, 2, 3, 4][k.val]'k.isLt = k.val := by decide
  have hlen : ([0, 1, 2, 3, 4].flatMap (kindInfo s)).length = 55 := by
    simp only [List.flatMap_cons, List.flatMap_nil, List.append_nil, List.length_append, length_kindInfo]
  refine ⟨_, _, exec_calInfo h, within_answer (State.within_refl s _), answered_answer h.2.1, fun k => ?_, ?_⟩
  · have hk := hpart k
    rw [hat k, List.nil_append, List.length_nil, Nat.zero_add] at hk
    exact hk
  · rw [← hlen]
    exact List.drop_left

theorem exec_calRun {mask : Byte} (h : s.asks 0x0302 1) : exec (.calRun mask) s = .next
    (if 32 ≤ mask.toNat then s.answer stBAD_PARAM []
    else (s.each ([0, 1, 2, 3, 4].filter fun k => mask.toNat.testBit k) State.calWaits).answer stOK []) := by
  change execCalRun mask s = _
  unfold execCalRun
  exact command_served h rfl

/-- The kinds of a mask. -/
def kindsOf (mask : ℕ) : List ℕ := [0, 1, 2, 3, 4].filter fun k => mask.testBit k

theorem mem_kindsOf {mask k : ℕ} : k ∈ kindsOf mask ↔ k < 5 ∧ mask.testBit k = true := by
  unfold kindsOf
  rw [List.mem_filter]
  refine and_congr_left' ?_
  simp only [List.mem_cons, List.not_mem_nil, or_false]
  omega

theorem bit_calWaits {j k : ℕ} (hk : k < 5) (s : State) :
    (s.calWaits k).get (calPending j) = if j = k then 1 else s.get (calPending j) := by
  by_cases hj : j = k
  · subst hj
    rw [if_pos rfl]
    exact get_calWaits ⟨j, hk⟩ s
  · rw [if_neg hj, calWaits_eq]
    split
    · rfl
    · unfold waits
      rw [State.get_mgmt_upd]
      exact State.get_set_bit_other (by simp only [Fd.MGMT_BG_STAT_PENDING]; omega) hj 1

theorem bit_allWaits (l : List ℕ) (hl : ∀ k ∈ l, k < 5) (j : ℕ) (s : State) :
    (s.each l State.calWaits).get (calPending j) = if j ∈ l then 1 else s.get (calPending j) := by
  induction l generalizing s with
  | nil => rfl
  | cons k l ih =>
    rw [State.each_cons, ih (fun i hi => hl i (List.mem_cons_of_mem _ hi)), bit_calWaits (hl k List.mem_cons_self)]
    by_cases hin : j ∈ l
    · rw [if_pos hin, if_pos (List.mem_cons_of_mem _ hin)]
    · rw [if_neg hin]
      by_cases hjk : j = k
      · rw [if_pos hjk, if_pos (hjk ▸ List.mem_cons_self)]
      · rw [if_neg hjk, if_neg (by simp [hjk, hin])]

theorem calRun_completes {mask : Byte} (h : s.asks 0x0302 1) (hmask : mask.toNat < 32) :
    ∃ t, exec (.calRun mask) s = .next t ∧ s.within [.io, .mgmt] t ∧ s.onlyRegs [Fd.MGMT_BG_STAT_PENDING.off] t ∧
      t.answered stOK [] ∧ t.get Fd.MGMT_BG_STAT_PENDING = s.get Fd.MGMT_BG_STAT_PENDING ||| mask.toNat := by
  have hexec := (exec_calRun (mask := mask) h).trans (congrArg _ (if_neg (Nat.not_le.mpr hmask)))
  have hframe := List.foldlRecOn (motive := fun w : State => (s.within [.io, .mgmt] w ∧ s.onlyRegs
      [Fd.MGMT_BG_STAT_PENDING.off] w) ∧
      w.mgmt.orphan = none) (kindsOf mask.toNat) (fun w k => w.calWaits k)
    ⟨⟨State.within_refl s _, State.onlyRegs_refl s _⟩, h.2.1⟩
    fun w ⟨hw, ho⟩ k _ => ⟨calWaits_frame hw k, (calWaits_keeps k w).1.trans ho⟩
  obtain ⟨⟨hparts, hregs⟩, horphan⟩ := hframe
  refine ⟨_, hexec, within_answer hparts, onlyRegs_answer hregs, answered_answer horphan, ?_⟩
  have hwas : s.get Fd.MGMT_BG_STAT_PENDING < 32 := Io.get_lt s.io Fd.MGMT_BG_STAT_PENDING
  rw [get_answer]
  refine State.get_eq_of_bits (Nat.or_lt_two_pow (n := 5) hwas hmask) fun i hi => ?_
  have hi5 : i ≤ 4 := hi
  have hbit : (s.each (kindsOf mask.toNat) State.calWaits).get (calPending i) =
      if i ∈ kindsOf mask.toNat then 1 else s.get (calPending i) := bit_allWaits _ (fun k hk => (mem_kindsOf.mp hk).1) i s
  change (s.each (kindsOf mask.toNat) State.calWaits).get (calPending i) = 1 ↔ _
  rw [hbit, Nat.testBit_or, State.testBit_get (f := Fd.MGMT_BG_STAT_PENDING) hi, Bool.or_eq_true, decide_eq_true_eq]
  by_cases hm : mask.toNat.testBit i = true
  · rw [if_pos (mem_kindsOf.mpr ⟨by omega, hm⟩)]
    exact iff_of_true rfl (Or.inr hm)
  · rw [if_neg fun hin => hm (mem_kindsOf.mp hin).2]
    exact ⟨Or.inl, fun hor => hor.resolve_right hm⟩

theorem calRun_refused {mask : Byte} (h : s.asks 0x0302 1) (hmask : 32 ≤ mask.toNat) :
    ∃ t, exec (.calRun mask) s = .next t ∧ s.within [.mgmt] t ∧ t.answered stBAD_PARAM [] :=
  only_answer h ((exec_calRun h).trans (congrArg _ (if_pos hmask)))

theorem exec_calConfig {dt maxint : BitVec 16} (h : s.asks 0x0303 4) : exec (.calConfig dt maxint) s = .next
    (if 8 ≤ dt.toNat ∧ dt.toNat ≤ 320 ∧ 10 ≤ maxint.toNat ∧ maxint.toNat ≤ 3600 then
      (s.mgmt' fun m => { m with calDt := dt.toNat, calMax := maxint.toNat }).answer stOK []
    else s.answer stBAD_PARAM []) := by
  change execCalConfig dt maxint s = _
  unfold execCalConfig
  exact command_served h rfl

theorem calConfig_refused {dt maxint : BitVec 16} (h : s.asks 0x0303 4)
    (hout : dt.toNat < 8 ∨ 320 < dt.toNat ∨ maxint.toNat < 10 ∨ 3600 < maxint.toNat) :
    ∃ t, exec (.calConfig dt maxint) s = .next t ∧ s.within [.mgmt] t ∧ t.answered stBAD_PARAM [] ∧
      t.mgmt.calDt = s.mgmt.calDt ∧ t.mgmt.calMax = s.mgmt.calMax := by
  refine ⟨_, (exec_calConfig h).trans (congrArg _ (if_neg (by omega))), within_answer (State.within_refl s _),
      answered_answer h.2.1, ?_⟩
  unfold State.answer
  rw [mgmt_answerAs h.2.1]
  exact ⟨rfl, rfl⟩

theorem calConfig_taken {dt maxint : BitVec 16} (h : s.asks 0x0303 4) (hdt : 8 ≤ dt.toNat) (hdt' : dt.toNat ≤ 320)
    (hmax : 10 ≤ maxint.toNat) (hmax' : maxint.toNat ≤ 3600) :
    ∃ t, exec (.calConfig dt maxint) s = .next t ∧ s.within [.mgmt] t ∧ t.answered stOK [] ∧ t.mgmt.calDt = dt.toNat ∧
      t.mgmt.calMax = maxint.toNat ∧ t.io = s.io := by
  have horphan : (s.mgmt' fun m => { m with calDt := dt.toNat, calMax := maxint.toNat }).mgmt.orphan = none := h.2.1
  refine ⟨_, (exec_calConfig h).trans (congrArg _ (if_pos ⟨hdt, hdt', hmax, hmax'⟩)), within_answer
      ((State.within_refl s _).mgmt_upd _),
    answered_answer horphan, ?_, ?_, rfl⟩
  · unfold State.answer
    rw [mgmt_answerAs horphan]
    rfl
  · unfold State.answer
    rw [mgmt_answerAs horphan]
    rfl

/-- The rest of the report of the slot: the host's delays, coefficients and edges. -/
def slotTail (c : CalSlot) : List Byte :=
  ((c.delays ++ c.coeffs).flatMap fun d => leBytes 4 d.toNat) ++ c.kedge.flatMap fun d => leBytes 2 d.toNat

/-- The slot's report. -/
def slotBytes (c : CalSlot) : List Byte :=
  (leBytes 4 c.seq ++ [0, 1, 2, 3, 4].flatMap fun k => leBytes 2 (rd (fun _ => 0) c.temps k)) ++
    ((calAll.flatMap fun f => leBytes 4 (rd resetWord c.values f.off).toNat) ++ slotTail c)

theorem exec_calRead (h : s.asks 0x0304 0) : exec .calRead s = .next
    (if !s.calSlot.valid then s.answer stSTORAGE_FAIL [] else s.answer stOK (slotBytes s.calSlot)) := by
  change execCalRead s = _
  unfold execCalRead
  refine (command_served h rfl).trans (congrArg _ ?_)
  unfold slotBytes slotTail
  simp only [List.append_assoc]

theorem slotBytes_shows (c : CalSlot) : (slotBytes c).take 4 = leBytes 4 c.seq ∧
    (∀ k : Fin 5, ((slotBytes c).drop (4 + 2 * k)).take 2 = leBytes 2 (rd (fun _ => 0) c.temps k)) ∧
    ∀ i, ∀ h : i < calAll.length, ((slotBytes c).drop (14 + 4 * i)).take 4 = leBytes 4
        (rd resetWord c.values (calAll[i].off)).toNat := by
  have hat : ∀ k : Fin 5, [0, 1, 2, 3, 4][k.val]'k.isLt = k.val := by decide
  have hfront : (leBytes 4 c.seq ++ [0, 1, 2, 3, 4].flatMap fun k => leBytes 2 (rd (fun _ => 0) c.temps k)).length = 14 := by
    simp only [List.flatMap_cons, List.flatMap_nil, List.append_nil, List.length_append, length_leBytes]
  unfold slotBytes
  refine ⟨?_, fun k => ?_, fun i hi => ?_⟩
  · rw [List.append_assoc]
    exact List.take_left' (length_leBytes _ _)
  · have hk := portion_at (fun k => length_leBytes 2 (rd (fun _ => 0) c.temps k)) (leBytes 4 c.seq)
      ((calAll.flatMap fun f => leBytes 4 (rd resetWord c.values f.off).toNat) ++ slotTail c) (l := [0, 1, 2, 3, 4])
          (i := k) k.isLt
    rw [hat k, length_leBytes] at hk
    rw [List.append_assoc]
    exact hk
  · have hk := portion_at (fun f : Field => length_leBytes 4 (rd resetWord c.values f.off).toNat)
      (leBytes 4 c.seq ++ [0, 1, 2, 3, 4].flatMap fun k => leBytes 2 (rd (fun _ => 0) c.temps k)) (slotTail c) hi
    rw [hfront] at hk
    exact hk

theorem exec_calWrite {n : ℕ} {delays coeffs : List (BitVec 20)} {kedge : List (BitVec 16)} (stored : Bool)
    (h : s.asks 0x0305 n) :
    exec (.calWrite delays coeffs kedge stored) s = .next
    (if delays.length ≠ 1024 ∨ coeffs.length ≠ 1024 then s.answer stBAD_LENGTH []
    else if !stored then s.answer stSTORAGE_FAIL []
    else ((s.mgmt' fun m => { m with calDelays := delays, calCoeffs := coeffs, calKedge := kedge }).calWaits 4).answer stOK
        []) := by
  change execCalWrite delays coeffs kedge stored s = _
  unfold execCalWrite
  exact command_served h rfl

theorem calWrite_stored {n : ℕ} {delays coeffs : List (BitVec 20)} {kedge : List (BitVec 16)} (h : s.asks 0x0305 n)
    (hdelays : delays.length = 1024) (hcoeffs : coeffs.length = 1024) :
    ∃ t, exec (.calWrite delays coeffs kedge true) s = .next t ∧ s.within [.io, .mgmt] t ∧ s.onlyRegions [16] t ∧
      t.answered stOK [] ∧ t.mgmt.calDelays = delays ∧ t.mgmt.calCoeffs = coeffs ∧ t.mgmt.calKedge = kedge ∧
      t.get (calPending 4) = 1 := by
  have hfirst : s.within [.io, .mgmt] (s.mgmt' fun m => { m with calDelays := delays, calCoeffs := coeffs, calKedge := kedge
      }) ∧
      s.onlyRegs [Fd.MGMT_BG_STAT_PENDING.off] (s.mgmt' fun m =>
          { m with calDelays := delays, calCoeffs := coeffs, calKedge := kedge }) :=
    ⟨(State.within_refl s _).mgmt_upd _, (State.onlyRegs_refl s _).of_reg fun _ => rfl⟩
  obtain ⟨hparts, hregs⟩ := calWaits_frame hfirst 4
  obtain ⟨horphan, -, -, hd, hc, hk⟩ :=
    calWaits_keeps 4 (s.mgmt' fun m => { m with calDelays := delays, calCoeffs := coeffs, calKedge := kedge })
  have horphan := horphan.trans h.2.1
  have hmgmt := mgmt_answerAs (status := stOK) (payload := []) horphan false
  refine ⟨_, (exec_calWrite true h).trans (congrArg _ ((if_neg (by simp [hdelays, hcoeffs])).trans (if_neg (by decide)))),
    within_answer hparts, hregs.regions (by decide), answered_answer horphan, ?_, ?_, ?_, get_calWaits 4 _⟩
  · unfold State.answer
    rw [hmgmt]
    exact hd
  · unfold State.answer
    rw [hmgmt]
    exact hc
  · unfold State.answer
    rw [hmgmt]
    exact hk

/-! ## Starvation -/

/-- The record of a client that is starved. -/
def starvedErr (detail : ℕ) : Err := { level := 0, region := 16, block := 1, code := 0x1087, detail := detail }

/-- The scrub starved. -/
def scrubStarved (s : State) : State :=
  (s.set Fd.MGMT_BG_STAT_SCRUB_STARVED 1 |>.count 16 Src.MGMT_SCRUB_STARVE 0 1).mgmt' fun m => { m with scrubShare := true }

/-- The calibration of the kind k starved. -/
def calStarved (k : ℕ) (s : State) : State :=
  s.set Fd.MGMT_BG_STAT_CAL_STARVED 1 |>.set (calReq k) 1 |>.count 16 Src.MGMT_CAL_STARVE 0 1

theorem exec_scrubStarved (hx : s.mgmt.scrubWait = some x) (htold : s.mgmt.scrubShare = false) (hrun : s.restarting 16 = false)
    (hclock : s.clockOk (x + BitVec.ofNat 64 ticksPerS) = true) : exec (.bgStarved true k) s = .next
    (scrubStarved ((s.clockReach (x + BitVec.ofNat 64 ticksPerS)).err (starvedErr 0))) := by
  change execBgStarved true k s = _
  unfold execBgStarved
  simp only [if_true, hx]
  rw [if_neg (by simp [htold, hrun, hclock])]
  rfl

theorem exec_calStarved (hx : look s.mgmt.calPendAt k = some x) (htold : s.get (calReq k) = 0) (hrun : s.restarting 16 = false)
    (hclock : s.clockOk (x + BitVec.ofNat 64 ticksPerS) = true) : exec (.bgStarved false k) s = .next
    (calStarved k ((s.clockReach (x + BitVec.ofNat 64 ticksPerS)).err (starvedErr k))) := by
  have hnot : s.is (calReq k) = false := beq_eq_false_iff_ne.mpr (by
    change s.get (calReq k) ≠ 1
    omega)
  change execBgStarved false k s = _
  unfold execBgStarved
  simp only [Bool.false_eq_true, if_false, hx]
  rw [if_neg (by simp [hnot, hrun, hclock])]
  rfl

/-- The tick is reached and the record kept. -/
theorem reached_frame (w : Wide) (e : Err) (s : State) : Framed [.io] [16] s ((s.clockReach w).err e) ∧
    ((s.clockReach w).err e).tick = (s.clockReach w).tick :=
  ⟨((Framed.refl _ _ s).clockReach w).err e, (Io.calm_err ..).tick⟩

theorem scrubStarved_shows (s : State) : Framed [.io, .mgmt] [16] s (scrubStarved s) ∧ (scrubStarved s).tick = s.tick ∧
    (scrubStarved s).get Fd.MGMT_BG_STAT_SCRUB_STARVED = 1 ∧ (scrubStarved s).mgmt.scrubShare = true := by
  have hset (f : Field) (n : ℕ) (v : State) : (v.set f n).tick = v.tick := rfl
  have hcount (r c i n : ℕ) (v : State) : (v.count r c i n).tick = v.tick := (Io.calm_count ..).tick
  have hupd (g : Mgmt → Mgmt) (v : State) : (v.mgmt' g).tick = v.tick := rfl
  unfold scrubStarved
  refine ⟨(((Framed.refl _ _ s).set _ _).count _ _ _ _).mgmt_upd _, by rw [hupd, hcount, hset], ?_, ?_⟩
  · rw [State.get_mgmt_upd, State.get_count _ _ _ _ _ (by decide)]
    exact get_set_one rfl (by decide) s
  · rw [State.mgmt_upd_mgmt]

theorem calStarved_shows (k : Fin 5) (s : State) : Framed [.io] [16] s (calStarved k s) ∧ (calStarved k s).tick = s.tick ∧
    (calStarved k s).get Fd.MGMT_BG_STAT_CAL_STARVED = 1 ∧ (calStarved k s).get (calReq k) = 1 := by
  have hreq : ∀ k : Fin 5, (calReq k).apart Fd.MGMT_BG_STAT_CAL_STARVED = true ∧ (calReq k).off / 0x200000 ∈ [16] ∧
      (calReq k).steady = true ∧ (calReq k).lo = (calReq k).hi ∧ (calReq k).hi < 32 := by decide
  obtain ⟨hapart, hregion, hsteady, hone, hfit⟩ := hreq k
  have hset (f : Field) (n : ℕ) (v : State) : (v.set f n).tick = v.tick := rfl
  have hcount (r c i n : ℕ) (v : State) : (v.count r c i n).tick = v.tick := (Io.calm_count ..).tick
  unfold calStarved
  refine ⟨(((Framed.refl _ _ s).set _ _).set _ _ (by decide) hregion).count _ _ _ _, by rw [hcount, hset, hset], ?_, ?_⟩
  · rw [State.get_count _ _ _ _ _ (by decide), State.get_set_apart _ _ hapart]
    exact get_set_one rfl (by decide) s
  · rw [State.get_count _ _ _ _ _ hsteady]
    exact get_set_one hone hfit _

theorem scrub_still (h : s.mgmt.scrubWait = none ∨ s.mgmt.scrubShare = true ∨ s.restarting 16 = true) :
    exec (.bgStarved true k) s = .next s := by
  change execBgStarved true k s = _
  unfold execBgStarved
  simp only [if_true]
  split
  · rfl
  case h_2 y hy =>
    refine if_pos ?_
    obtain h | h | h := h
    · rw [hy] at h
      cases h
    · simp [h]
    · simp [h]

theorem cal_still (h : look s.mgmt.calPendAt k = none ∨ s.get (calReq k) = 1 ∨ s.restarting 16 = true) :
    exec (.bgStarved false k) s = .next s := by
  change execBgStarved false k s = _
  unfold execBgStarved
  simp only [Bool.false_eq_true, if_false]
  split
  · rfl
  case h_2 y hy =>
    refine if_pos ?_
    obtain h | h | h := h
    · rw [hy] at h
      cases h
    · have his : s.is (calReq k) = true := beq_iff_eq.mpr h
      simp [his]
    · simp [h]

/-- Settles O54, command by command. -/
theorem calibrationCompletes : Obligations.CalibrationCompletes := by
  unfold Obligations.CalibrationCompletes
  refine ⟨fun k temp s hatt hfalls hrun hwait hfix hretry hclean => calDue_applied hatt hfalls hrun hwait hfix hretry hclean,
    fun k temp s hatt hfalls hrun hwait hfix hretry hclean => calDue_waits hatt hfalls hrun hwait hfix hretry hclean,
    fun k temp s hatt hfalls hheld => calDue_held hatt hfalls hheld, fun k temp s h => calDue_still h, fun s h =>
        calDeferred_still h,
    fun stored s h => calStore_still h, fun x s hx htold hclean htimely => calDeferred_told hx htold hclean htimely,
    fun s hatt hlate => calStore_good hatt hlate, fun s hatt hlate => calStore_bad hatt hlate, fun s h => calInfo_completes h,
    fun mask s h hmask => calRun_refused h hmask, fun dt maxint s h hout => calConfig_refused h hout, fun s h hbad => ?_,
    fun n delays coeffs kedge stored s h hbad => ?_, fun n delays coeffs kedge s h hdelays hcoeffs => ?_,
    fun mask s h hmask => calRun_completes h hmask,
    fun dt maxint s h hdt hdt' hmax hmax' => calConfig_taken h hdt hdt' hmax hmax', fun s h hgood => ?_,
    fun n delays coeffs kedge s h hdelays hcoeffs => calWrite_stored h hdelays hcoeffs,
    fun k x s hx htold hrun hclock => ?_, fun k x s hx htold hrun hclock => ?_, fun k s => ⟨scrub_still, cal_still⟩⟩
  · exact only_answer h ((exec_calRead h).trans (congrArg _ (if_pos (by simp [hbad]))))
  · exact only_answer h ((exec_calWrite stored h).trans (congrArg _ (if_pos hbad)))
  · exact only_answer h ((exec_calWrite false h).trans (congrArg _ ((if_neg (by simp [hdelays, hcoeffs])).trans (if_pos rfl))))
  · exact ⟨_, _, (exec_calRead h).trans (congrArg _ (if_neg (by simp [hgood]))), within_answer (State.within_refl s _), rfl,
      answered_answer h.2.1, slotBytes_shows s.calSlot⟩
  · obtain ⟨hfirst, htick⟩ := reached_frame (x + BitVec.ofNat 64 ticksPerS) (starvedErr 0) s
    obtain ⟨hlast, hsame, hget, hshare⟩ := scrubStarved_shows
        ((s.clockReach (x + BitVec.ofNat 64 ticksPerS)).err (starvedErr 0))
    have hall := (hfirst.mono (by decide) (by decide)).trans hlast
    exact ⟨_, exec_scrubStarved hx htold hrun hclock, hall.parts, hall.regs, hsame.trans htick, hget, hshare⟩
  · obtain ⟨hfirst, htick⟩ := reached_frame (x + BitVec.ofNat 64 ticksPerS) (starvedErr k) s
    obtain ⟨hlast, hsame, hget, hreq⟩ := calStarved_shows k ((s.clockReach (x + BitVec.ofNat 64 ticksPerS)).err (starvedErr k))
    have hall := hfirst.trans hlast
    exact ⟨_, exec_calStarved hx htold hrun hclock, hall.parts, hall.regs, hsame.trans htick, hget, hreq⟩

end Sys2Proof.Machine.Calibration
end
